-- ==== Sys2Proof/Word.lean ====
section
/-!
DEFINITION. The word types of the device (R8: bit 0 is the least significant bit) and the plainest arithmetic on them.
-/
namespace Sys2Proof

/-- A 32-bit register or memory word. -/
abbrev Word := BitVec 32

/-- A byte of memory. -/
abbrev Byte := BitVec 8

/-- A 64-bit count of the 32 MHz free-running counter (R256). -/
abbrev Frc := BitVec 64

end Sys2Proof
end

