-- ==== Sys2Proof/Machine/Aes.lean ====
section
/-!
DEFINITION. AES-128 and AES-256 (R353: FIPS 197), forward and inverse cipher, SHA-256 (R353: FIPS 180-4), byte by byte as the
standards print them, and the CRC-32 of IEEE 802.3.
-/
namespace Sys2Proof.Machine
open Sys2Proof

/-! ## The field of 256 elements -/

def xtime (b : Byte) : Byte := (b <<< 1) ^^^ (if b.getLsbD 7 then 0x1b#8 else 0#8)
def gmulAux : Nat → Nat → Byte → Byte → Byte
  | 0, _, _, _ => 0#8
  | n + 1, i, a, b => (if b.getLsbD i then a else 0#8) ^^^ gmulAux n (i + 1) (xtime a) b
def gmul (a b : Byte) : Byte := gmulAux 8 0 a b

/-- The inverse in the field, a to the power 254; 0 for 0. -/
def ginv (a : Byte) : Byte :=
  let a2 := gmul a a
  let a4 := gmul a2 a2
  let a8 := gmul a4 a4
  let a16 := gmul a8 a8
  let a32 := gmul a16 a16
  let a64 := gmul a32 a32
  let a128 := gmul a64 a64
  gmul a128 (gmul a64 (gmul a32 (gmul a16 (gmul a8 (gmul a4 a2)))))

def rotB (b : Byte) (n : Nat) : Byte := (b <<< n) ||| (b >>> (8 - n))
def sbox (a : Byte) : Byte :=
  let b := ginv a
  b ^^^ rotB b 1 ^^^ rotB b 2 ^^^ rotB b 3 ^^^ rotB b 4 ^^^ 0x63#8
def invSbox (a : Byte) : Byte := ginv (rotB a 1 ^^^ rotB a 3 ^^^ rotB a 6 ^^^ 0x05#8)

/-! ## AES -/

def xorL (a b : List Byte) : List Byte := List.zipWith (· ^^^ ·) a b
def byteOf (l : List Byte) (i : Nat) : Byte := (l[i]?).getD 0#8

/-- One word of the key schedule after the words `ws` (newest first), at index `i`. -/
def keyWord (nk i : Nat) (rcon : Byte) (prev back : List Byte) : List Byte :=
  let t :=
    if i % nk = 0 then xorL ((prev.drop 1 ++ prev.take 1).map sbox) [rcon, 0#8, 0#8, 0#8]
    else if nk = 8 ∧ i % nk = 4 then prev.map sbox else prev
  xorL t back

def keyExpand : Nat → Nat → Nat → Byte → List (List Byte) → List (List Byte)
  | 0, _, _, _, ws => ws.reverse
  | n + 1, nk, i, rcon, ws =>
    let w := keyWord nk i rcon ((ws[0]?).getD []) ((ws[nk - 1]?).getD [])
    keyExpand n nk (i + 1) (if i % nk = 0 then xtime rcon else rcon) (w :: ws)

def chunks : Nat → Nat → List Byte → List (List Byte)
  | 0, _, _ => []
  | n + 1, k, l => l.take k :: chunks n k (l.drop k)

/-- Round keys of a 16- or 32-byte key. -/
def roundKeys (key : List Byte) : List (List Byte) :=
  let nk := if key.length = 32 then 8 else 4
  let ws := keyExpand (4 * (nk + 7) - nk) nk nk 1#8 (chunks nk 4 key).reverse
  chunks (nk + 7) 16 ws.flatten

def shiftRows (s : List Byte) : List Byte :=
  (List.range 16).map fun i => byteOf s (i % 4 + 4 * ((i / 4 + i % 4) % 4))
def invShiftRows (s : List Byte) : List Byte :=
  (List.range 16).map fun i => byteOf s (i % 4 + 4 * ((i / 4 + 4 - i % 4) % 4))
def mixWith (c : List Byte) (s : List Byte) : List Byte :=
  (List.range 16).map fun i =>
    (List.range 4).foldl (fun acc j => acc ^^^ gmul (byteOf c ((j + 4 - i % 4) % 4)) (byteOf s (i / 4 * 4 + j))) 0#8
def mixColumns : List Byte → List Byte := mixWith [2#8, 3#8, 1#8, 1#8]
def invMixColumns : List Byte → List Byte := mixWith [0x0e#8, 0x0b#8, 0x0d#8, 0x09#8]

def aesRounds : List (List Byte) → List Byte → List Byte
  | [], s => s
  | [k], s => xorL (shiftRows (s.map sbox)) k
  | k :: ks, s => aesRounds ks (xorL (mixColumns (shiftRows (s.map sbox))) k)
/-- The forward cipher on one 16-byte block. -/
def aes (key block : List Byte) : List Byte :=
  match roundKeys key with
  | k :: ks => aesRounds ks (xorL block k)
  | [] => block

def invRounds : List (List Byte) → List Byte → List Byte
  | [], s => s
  | [k], s => xorL ((invShiftRows s).map invSbox) k
  | k :: ks, s => invRounds ks (invMixColumns (xorL ((invShiftRows s).map invSbox) k))
/-- The inverse cipher on one 16-byte block. -/
def aesInv (key block : List Byte) : List Byte :=
  match (roundKeys key).reverse with
  | k :: ks => invRounds ks (xorL block k)
  | [] => block

/-! ## SHA-256 -/

/-- The first 64 primes. -/
def shaPrimes : List Nat := (List.range 312).filter fun p => 2 ≤ p && (List.range 18).all fun d => d < 2 || p ≤ d || p % d != 0

/-- The greatest number whose k-th power is at most `v`, found from bit 35 down. -/
def rootOf (k v : Nat) : Nat :=
  (List.range 36).foldl (fun r i => let q := r + 2 ^ (35 - i); if q ^ k ≤ v then q else r) 0
/-- The first 32 bits of the fractional part of a k-th root: FIPS 180-4 takes square roots for the start value and cube roots for
the 64 constants. -/
def rootBits (k p : Nat) : Nat := rootOf k (p * 2 ^ (32 * k)) % 2 ^ 32
def shaK : List Nat := shaPrimes.map (rootBits 3)

def rotR (x : Word) (n : Nat) : Word := x.rotateRight n

def shaSchedule : Nat → List Word → List Word
  | 0, ws => ws.reverse
  | n + 1, ws =>
    let at' := fun k => (ws[k - 1]?).getD 0#32
    let s0 := rotR (at' 15) 7 ^^^ rotR (at' 15) 18 ^^^ (at' 15 >>> 3)
    let s1 := rotR (at' 2) 17 ^^^ rotR (at' 2) 19 ^^^ (at' 2 >>> 10)
    shaSchedule n ((at' 16 + s0 + at' 7 + s1) :: ws)

/-- The eight working variables of the compression function. -/
structure ShaVars where
  a : Word
  b : Word
  c : Word
  d : Word
  e : Word
  f : Word
  g : Word
  h : Word

def shaRound (v : ShaVars) (kw : Nat × Word) : ShaVars :=
  let s1 := rotR v.e 6 ^^^ rotR v.e 11 ^^^ rotR v.e 25
  let ch := (v.e &&& v.f) ^^^ (~~~v.e &&& v.g)
  let t1 := v.h + s1 + ch + BitVec.ofNat 32 kw.1 + kw.2
  let s0 := rotR v.a 2 ^^^ rotR v.a 13 ^^^ rotR v.a 22
  let maj := (v.a &&& v.b) ^^^ (v.a &&& v.c) ^^^ (v.b &&& v.c)
  ⟨t1 + (s0 + maj), v.a, v.b, v.c, v.d + t1, v.e, v.f, v.g⟩

def beWord (l : List Byte) : Word := l.foldl (fun w b => w * 256#32 + b.zeroExtend 32) 0#32
def beBytes : Nat → Nat → List Byte
  | 0, _ => []
  | n + 1, v => beBytes n (v / 256) ++ [BitVec.ofNat 8 v]

def shaBlock (h : ShaVars) (blk : List Byte) : ShaVars :=
  let ws := shaSchedule 48 ((chunks 16 4 blk).map beWord).reverse
  let v := (shaK.zip ws).foldl shaRound h
  ⟨h.a + v.a, h.b + v.b, h.c + v.c, h.d + v.d, h.e + v.e, h.f + v.f, h.g + v.g, h.h + v.h⟩

def shaStart : ShaVars :=
  match (shaPrimes.take 8).map fun p => BitVec.ofNat 32 (rootBits 2 p) with
  | [a, b, c, d, e, f, g, h] => ⟨a, b, c, d, e, f, g, h⟩
  | _ => ⟨0, 0, 0, 0, 0, 0, 0, 0⟩

/-- The SHA-256 digest of a message. -/
def sha256 (m : List Byte) : List Byte :=
  let z := (64 + 55 - m.length % 64) % 64
  let p := m ++ [0x80#8] ++ List.replicate z 0#8 ++ beBytes 8 (8 * m.length)
  let v := (chunks (p.length / 64) 64 p).foldl shaBlock shaStart
  [v.a, v.b, v.c, v.d, v.e, v.f, v.g, v.h].flatMap fun w => beBytes 4 w.toNat

/-! ## CRC-32 -/

/-- Reflected CRC-32 with the IEEE 802.3 polynomial over bytes. -/
def crc32Byte (c : Nat) (b : Byte) : Nat :=
  (List.range 8).foldl (fun c _ => if c % 2 = 1 then Nat.xor (c / 2) 0xEDB88320 else c / 2) (Nat.xor c b.toNat)
def crc32 (l : List Byte) : Nat := 0xFFFFFFFF - l.foldl crc32Byte 0xFFFFFFFF

end Sys2Proof.Machine
end

