-- ==== Sys2Proof/Config.lean ====
section
/-!
DEFINITION. What an implementation of the device fixes and the manual leaves open, as opaque constants: nothing in Lean can
evaluate them or prove a value of them, so a statement holds whatever they are. Every one is named in the assumption log.
-/
namespace Sys2Proof.Config

/-- A fresh free value: the manual leaves one value open where this is read. The argument is a counter of `State` that every
reading advances. -/
opaque freeValue : Nat → BitVec 64

/-- Contents of the boot ROM, which the manual does not print (R43). -/
opaque bootRom : Nat → Byte

/-- The Glade's flash as it leaves the factory (R271): the manual does not print it. -/
opaque gladeFlash : Nat → Byte

/-- Whether a tap of a Gaussian preset of the shaping filter, BT 1.0 or BT 0.5, that falls between two values is taken up, which the manual
leaves open (R129). The arguments are the preset and a tap of its first half. -/
opaque tapUp : Bool → Nat → Bool

/-- Whether the lane's Viterbi decoder keeps the second of two paths of equal distance (R119). -/
opaque viterbiTie : Nat → Bool

/-- Whether a frequency sample between two units is taken up (R129), which the manual leaves open; the argument is the exact value in
1/125000 of a unit. -/
opaque sampleUp : Int → Bool

/-- Whether a time between two FRC counts, or a sum of airtimes between two us, is taken up (R136, R193, R249), which the manual
leaves open. -/
opaque roundsUp : Nat → Bool

/-- Period error of the 32 kHz RC oscillator, within the 3 % of R62. -/
opaque rcPeriod : BitVec 32

/-- Period error of GRC32, within the 3 % of R271. -/
opaque grcPeriod : BitVec 32

/-- Counts from a WAIT to the LFXO edge at which its entry hands FRC to the sleep counter (R404, R266). -/
opaque sleepEdge : Nat → BitVec 32

end Sys2Proof.Config
end

