-- ==== Sys2Proof/Machine/RegMap.lean ====
section
/-!
DEFINITION. The register map: every register and field of the manual's field tables (spec 02 to 22), under the manual's own
names. `REG.addr` is a register's byte address (a function of its instance numbers where it has any), `REG.FIELD` one of its
fields, and `pageRegs` the access masks (R4) and the reset value (R7) of every register, page by page.
Written out from the field tables of the spec.
-/
namespace Sys2Proof.Machine

/-- A field of a register: the register's address, the field's lowest bit and its width. -/
structure Fld where
  addr : Nat
  lo : Nat
  width : Nat
  deriving DecidableEq, Repr

/-- One row of a page's register list: where it stands, how often it repeats (two strides) and, by R4, which of its bits are
RW, W1C, W1S, RC and WO, and its reset value (R7). Bits in none of the masks are RO or reserved. -/
structure RegDesc where
  off : Nat
  n1 : Nat := 1
  s1 : Nat := 4
  n2 : Nat := 1
  s2 : Nat := 4
  rw : Word := 0
  w1c : Word := 0
  w1s : Word := 0
  rc : Word := 0
  wo : Word := 0
  reset : Word := 0
  deriving DecidableEq, Repr

/-! ## Register pages (R51) -/

def Pg.SYS : Nat := 0x00
def Pg.PWR : Nat := 0x01
def Pg.AVS : Nat := 0x02
def Pg.CLK : Nat := 0x03
def Pg.PROT : Nat := 0x04
def Pg.OVL : Nat := 0x05
def Pg.RFE : Nat := 0x06
def Pg.AGC : Nat := 0x07
def Pg.CNP : Nat := 0x08
def Pg.FEC : Nat := 0x19
def Pg.TXM : Nat := 0x1A
def Pg.CAD : Nat := 0x1B
def Pg.NBR : Nat := 0x1C
def Pg.HDR : Nat := 0x1D
def Pg.TRF : Nat := 0x1E
def Pg.WEIR : Nat := 0x1F
def Pg.SLU : Nat := 0x20
def Pg.NTU : Nat := 0x21
def Pg.FLC : Nat := 0x22
def Pg.CIPH : Nat := 0x23
def Pg.UPD : Nat := 0x2C
def Pg.RTC : Nat := 0x35
def Pg.CUL : Nat := 0x36
def Pg.HSP : Nat := 0x37
def Pg.PSP : Nat := 0x38
def Pg.GPIO : Nat := 0x39
def Pg.ADC : Nat := 0x3A
def Pg.TST : Nat := 0x3B
def Pg.DMA : Nat := 0x3C
def Pg.GMB : Nat := 0x3D
def Pg.DCA : Nat := 0x3E
def Pg.DBG : Nat := 0x3F
def Pg.LANE (n : Nat) : Nat := 0x09 + n
def Pg.CIPU (n : Nat) : Nat := 0x24 + n
def Pg.TMR (n : Nat) : Nat := 0x2D + n
/-- The Glade's own pages as they appear through the Glade window (R44); an index counts 4 KB pages from 0x4000_0000. -/
def Pg.GCORE : Nat := 0x10001
def Pg.GPC : Nat := 0x10002
def Pg.GADC : Nat := 0x10003
def Pg.GLOG : Nat := 0x10004
/-- Address of a byte offset in a register page (R4). -/
def pageAddr (p off : Nat) : Nat := 0x40000000 + p * 0x1000 + off

/-! ## Registers and fields -/
/-- PROT_CTRL (02_register_pages.md): protection control. -/
def PROT_CTRL.addr : Nat := 0x40004004
def PROT_CTRL.EN : Fld := ⟨PROT_CTRL.addr, 0, 1⟩
def PROT_CTRL.SRST : Fld := ⟨PROT_CTRL.addr, 1, 1⟩
def PROT_CTRL.OLOCK : Fld := ⟨PROT_CTRL.addr, 8, 1⟩
/-- PROT_STAT (02_register_pages.md): protection status. -/
def PROT_STAT.addr : Nat := 0x40004008
def PROT_STAT.BUSY : Fld := ⟨PROT_STAT.addr, 0, 1⟩
def PROT_STAT.ERR : Fld := ⟨PROT_STAT.addr, 1, 1⟩
def PROT_STAT.REJ : Fld := ⟨PROT_STAT.addr, 8, 1⟩
def PROT_STAT.BAD_OWNER : Fld := ⟨PROT_STAT.addr, 9, 1⟩
def PROT_STAT.TOKEN : Fld := ⟨PROT_STAT.addr, 10, 1⟩
def PROT_STAT.PRES_LOW : Fld := ⟨PROT_STAT.addr, 11, 1⟩
/-- PROT_REJ (02_register_pages.md): last rejected access. -/
def PROT_REJ.addr : Nat := 0x40004040
def PROT_REJ.OFFSET : Fld := ⟨PROT_REJ.addr, 0, 12⟩
def PROT_REJ.PAGE : Fld := ⟨PROT_REJ.addr, 12, 6⟩
def PROT_REJ.SRC : Fld := ⟨PROT_REJ.addr, 18, 3⟩
def PROT_REJ.SECA : Fld := ⟨PROT_REJ.addr, 21, 1⟩
def PROT_REJ.WR : Fld := ⟨PROT_REJ.addr, 22, 1⟩
def PROT_REJ.CAUSE : Fld := ⟨PROT_REJ.addr, 23, 3⟩
/-- PROT_REJ_CNT (02_register_pages.md): rejected-access count. -/
def PROT_REJ_CNT.addr : Nat := 0x40004044
def PROT_REJ_CNT.CNT : Fld := ⟨PROT_REJ_CNT.addr, 0, 32⟩
/-- PROT_AUD_HEAD (02_register_pages.md): audit ring position. -/
def PROT_AUD_HEAD.addr : Nat := 0x40004048
def PROT_AUD_HEAD.NEXT : Fld := ⟨PROT_AUD_HEAD.addr, 0, 7⟩
def PROT_AUD_HEAD.FULL : Fld := ⟨PROT_AUD_HEAD.addr, 7, 1⟩
def PROT_AUD_HEAD.SEQ : Fld := ⟨PROT_AUD_HEAD.addr, 16, 16⟩
/-- PROT_AUD_IDX (02_register_pages.md): audit entry selector. -/
def PROT_AUD_IDX.addr : Nat := 0x4000404C
def PROT_AUD_IDX.IDX : Fld := ⟨PROT_AUD_IDX.addr, 0, 7⟩
/-- PROT_AUD_W# (02_register_pages.md): selected audit entry, words 0–5 in the layout of R61. -/
def PROT_AUD_W.addr (n : Nat) : Nat := 0x40004050 + 0x4 * n
def PROT_AUD_W.WORD (n : Nat) : Fld := ⟨PROT_AUD_W.addr n, 0, 32⟩
/-- PROT_PRES (02_register_pages.md): presence timing. -/
def PROT_PRES.addr : Nat := 0x40004068
def PROT_PRES.REMAIN : Fld := ⟨PROT_PRES.addr, 0, 6⟩
/-- OVL_CTRL (02_register_pages.md): overlay engine control. -/
def OVL_CTRL.addr : Nat := 0x40005004
def OVL_CTRL.EN : Fld := ⟨OVL_CTRL.addr, 0, 1⟩
def OVL_CTRL.SRST : Fld := ⟨OVL_CTRL.addr, 1, 1⟩
/-- OVL_STAT (02_register_pages.md): overlay engine status. -/
def OVL_STAT.addr : Nat := 0x40005008
def OVL_STAT.BUSY : Fld := ⟨OVL_STAT.addr, 0, 1⟩
def OVL_STAT.ERR : Fld := ⟨OVL_STAT.addr, 1, 1⟩
def OVL_STAT.PENDING : Fld := ⟨OVL_STAT.addr, 2, 1⟩
def OVL_STAT.APPLY_REJ : Fld := ⟨OVL_STAT.addr, 3, 1⟩
def OVL_STAT.REQ_REFUSED : Fld := ⟨OVL_STAT.addr, 4, 1⟩
def OVL_STAT.REPLACED : Fld := ⟨OVL_STAT.addr, 5, 1⟩
def OVL_STAT.LOAD_ERR : Fld := ⟨OVL_STAT.addr, 6, 1⟩
def OVL_STAT.BASE_OK : Fld := ⟨OVL_STAT.addr, 7, 1⟩
def OVL_STAT.LOADED : Fld := ⟨OVL_STAT.addr, 8, 8⟩
def OVL_STAT.REJ_CAUSE : Fld := ⟨OVL_STAT.addr, 16, 2⟩
def OVL_STAT.LOAD_CAUSE : Fld := ⟨OVL_STAT.addr, 18, 3⟩
/-- OVL_ERRINFO (02_register_pages.md). -/
def OVL_ERRINFO.addr : Nat := 0x40005020
def OVL_ERRINFO.IDX : Fld := ⟨OVL_ERRINFO.addr, 0, 8⟩
def OVL_ERRINFO.PAGE : Fld := ⟨OVL_ERRINFO.addr, 8, 6⟩
def OVL_ERRINFO.SECT : Fld := ⟨OVL_ERRINFO.addr, 14, 3⟩
def OVL_ERRINFO.KIND : Fld := ⟨OVL_ERRINFO.addr, 17, 1⟩
/-- OVL_REQ (02_register_pages.md): mode request. -/
def OVL_REQ.addr : Nat := 0x40005040
def OVL_REQ.MODE : Fld := ⟨OVL_REQ.addr, 0, 3⟩
def OVL_REQ.WHEN : Fld := ⟨OVL_REQ.addr, 3, 1⟩
def OVL_REQ.GO : Fld := ⟨OVL_REQ.addr, 4, 1⟩
/-- OVL_MODE (02_register_pages.md): mode state. -/
def OVL_MODE.addr : Nat := 0x40005044
def OVL_MODE.CUR : Fld := ⟨OVL_MODE.addr, 0, 3⟩
def OVL_MODE.PEND : Fld := ⟨OVL_MODE.addr, 4, 3⟩
/-- OVL_CMD (02_register_pages.md): engine command. -/
def OVL_CMD.addr : Nat := 0x40005048
def OVL_CMD.CMD : Fld := ⟨OVL_CMD.addr, 0, 2⟩
/-- OVL_IMG_ADDR (02_register_pages.md): configuration image address. -/
def OVL_IMG_ADDR.addr : Nat := 0x4000504C
def OVL_IMG_ADDR.ADDR : Fld := ⟨OVL_IMG_ADDR.addr, 2, 21⟩
/-- OVL_FMT (02_register_pages.md): image versions. -/
def OVL_FMT.addr : Nat := 0x40005050
def OVL_FMT.FMT_VER : Fld := ⟨OVL_FMT.addr, 0, 16⟩
def OVL_FMT.SET_VER : Fld := ⟨OVL_FMT.addr, 16, 16⟩
/-- OVL_DIRTY_LO (02_register_pages.md): pages written since the last apply. -/
def OVL_DIRTY_LO.addr : Nat := 0x40005054
def OVL_DIRTY_LO.DIRTY : Fld := ⟨OVL_DIRTY_LO.addr, 0, 32⟩
/-- OVL_DIRTY_HI (02_register_pages.md): pages written since the last apply. -/
def OVL_DIRTY_HI.addr : Nat := 0x40005058
def OVL_DIRTY_HI.DIRTY : Fld := ⟨OVL_DIRTY_HI.addr, 0, 32⟩
/-- OVL_LAST_ASN_LO (02_register_pages.md): latch pair under R54. -/
def OVL_LAST_ASN_LO.addr : Nat := 0x4000505C
def OVL_LAST_ASN_LO.ASN_LO : Fld := ⟨OVL_LAST_ASN_LO.addr, 0, 32⟩
/-- OVL_LAST_ASN_HI (02_register_pages.md): latch pair under R54. -/
def OVL_LAST_ASN_HI.addr : Nat := 0x40005060
def OVL_LAST_ASN_HI.ASN_HI : Fld := ⟨OVL_LAST_ASN_HI.addr, 0, 8⟩
/-- OVL_COUNT (02_register_pages.md): loaded record counts. -/
def OVL_COUNT.addr : Nat := 0x40005064
def OVL_COUNT.BASE : Fld := ⟨OVL_COUNT.addr, 0, 13⟩
def OVL_COUNT.LAST : Fld := ⟨OVL_COUNT.addr, 16, 10⟩
/-- RFE_CTRL (03_rf_front_end.md): front-end control. -/
def RFE_CTRL.addr : Nat := 0x40006004
def RFE_CTRL.EN : Fld := ⟨RFE_CTRL.addr, 0, 1⟩
def RFE_CTRL.SRST : Fld := ⟨RFE_CTRL.addr, 1, 1⟩
def RFE_CTRL.MAN : Fld := ⟨RFE_CTRL.addr, 2, 1⟩
def RFE_CTRL.PORT : Fld := ⟨RFE_CTRL.addr, 3, 1⟩
def RFE_CTRL.TEMP_AUTO : Fld := ⟨RFE_CTRL.addr, 4, 1⟩
/-- RFE_STAT (03_rf_front_end.md): front-end status. -/
def RFE_STAT.addr : Nat := 0x40006008
def RFE_STAT.BUSY : Fld := ⟨RFE_STAT.addr, 0, 1⟩
def RFE_STAT.ERR : Fld := ⟨RFE_STAT.addr, 1, 1⟩
def RFE_STAT.LOCK : Fld := ⟨RFE_STAT.addr, 2, 1⟩
def RFE_STAT.PORT : Fld := ⟨RFE_STAT.addr, 3, 1⟩
def RFE_STAT.WB_ON : Fld := ⟨RFE_STAT.addr, 4, 1⟩
def RFE_STAT.CAL_RUN : Fld := ⟨RFE_STAT.addr, 5, 1⟩
def RFE_STAT.UNLOCK : Fld := ⟨RFE_STAT.addr, 6, 1⟩
def RFE_STAT.GUARD_CLIP : Fld := ⟨RFE_STAT.addr, 7, 1⟩
def RFE_STAT.MAN_REFUSED : Fld := ⟨RFE_STAT.addr, 8, 1⟩
def RFE_STAT.CAL_STALE : Fld := ⟨RFE_STAT.addr, 9, 1⟩
/-- RFE_ERRINFO (03_rf_front_end.md): last loss of lock. -/
def RFE_ERRINFO.addr : Nat := 0x40006020
def RFE_ERRINFO.ASN : Fld := ⟨RFE_ERRINFO.addr, 0, 24⟩
def RFE_ERRINFO.TX : Fld := ⟨RFE_ERRINFO.addr, 24, 1⟩
def RFE_ERRINFO.MID : Fld := ⟨RFE_ERRINFO.addr, 25, 1⟩
/-- RFE_SYN_CUR (03_rf_front_end.md): current synthesiser frequency. -/
def RFE_SYN_CUR.addr : Nat := 0x40006040
def RFE_SYN_CUR.FREQ : Fld := ⟨RFE_SYN_CUR.addr, 0, 27⟩
/-- RFE_SYN_MAN (03_rf_front_end.md): manual frequency. -/
def RFE_SYN_MAN.addr : Nat := 0x40006044
def RFE_SYN_MAN.FREQ : Fld := ⟨RFE_SYN_MAN.addr, 0, 27⟩
/-- RFE_NB_CFG (03_rf_front_end.md): narrowband path. -/
def RFE_NB_CFG.addr : Nat := 0x40006048
def RFE_NB_CFG.IF : Fld := ⟨RFE_NB_CFG.addr, 0, 2⟩
def RFE_NB_CFG.INJ : Fld := ⟨RFE_NB_CFG.addr, 2, 1⟩
def RFE_NB_CFG.AAF : Fld := ⟨RFE_NB_CFG.addr, 4, 3⟩
/-- RFE_FEM_CFG (03_rf_front_end.md): external front-end outputs. -/
def RFE_FEM_CFG.addr : Nat := 0x4000604C
def RFE_FEM_CFG.FEM_EN : Fld := ⟨RFE_FEM_CFG.addr, 0, 1⟩
def RFE_FEM_CFG.PA_POL : Fld := ⟨RFE_FEM_CFG.addr, 1, 1⟩
def RFE_FEM_CFG.LNA_POL : Fld := ⟨RFE_FEM_CFG.addr, 2, 1⟩
def RFE_FEM_CFG.SWLO_RX : Fld := ⟨RFE_FEM_CFG.addr, 4, 2⟩
def RFE_FEM_CFG.SWLO_TX : Fld := ⟨RFE_FEM_CFG.addr, 6, 2⟩
def RFE_FEM_CFG.SWHI_RX : Fld := ⟨RFE_FEM_CFG.addr, 8, 2⟩
def RFE_FEM_CFG.SWHI_TX : Fld := ⟨RFE_FEM_CFG.addr, 10, 2⟩
def RFE_FEM_CFG.SW_IDLE : Fld := ⟨RFE_FEM_CFG.addr, 12, 2⟩
/-- RFE_FEM_TIM (03_rf_front_end.md): external front-end timing. -/
def RFE_FEM_TIM.addr : Nat := 0x40006050
def RFE_FEM_TIM.PA_LEAD : Fld := ⟨RFE_FEM_TIM.addr, 0, 4⟩
def RFE_FEM_TIM.PA_LAG : Fld := ⟨RFE_FEM_TIM.addr, 4, 4⟩
def RFE_FEM_TIM.LNA_LEAD : Fld := ⟨RFE_FEM_TIM.addr, 8, 4⟩
/-- RFE_CAL_REQ (03_rf_front_end.md): calibration request. -/
def RFE_CAL_REQ.addr : Nat := 0x40006054
def RFE_CAL_REQ.REQ : Fld := ⟨RFE_CAL_REQ.addr, 0, 8⟩
/-- RFE_CAL_STAT (03_rf_front_end.md): calibration status. -/
def RFE_CAL_STAT.addr : Nat := 0x40006058
def RFE_CAL_STAT.VALID : Fld := ⟨RFE_CAL_STAT.addr, 0, 8⟩
def RFE_CAL_STAT.PEND : Fld := ⟨RFE_CAL_STAT.addr, 8, 8⟩
def RFE_CAL_STAT.TIMEOUT : Fld := ⟨RFE_CAL_STAT.addr, 16, 8⟩
def RFE_CAL_STAT.FAIL : Fld := ⟨RFE_CAL_STAT.addr, 24, 8⟩
/-- RFE_CAL_CFG (03_rf_front_end.md): calibration settings. -/
def RFE_CAL_CFG.addr : Nat := 0x4000605C
def RFE_CAL_CFG.DEADLINE : Fld := ⟨RFE_CAL_CFG.addr, 0, 16⟩
def RFE_CAL_CFG.TEMP_DELTA : Fld := ⟨RFE_CAL_CFG.addr, 16, 8⟩
/-- RFE_CAL_TEMP (03_rf_front_end.md): calibration temperatures. -/
def RFE_CAL_TEMP.addr : Nat := 0x40006060
def RFE_CAL_TEMP.T_CAL : Fld := ⟨RFE_CAL_TEMP.addr, 0, 8⟩
def RFE_CAL_TEMP.T_NOW : Fld := ⟨RFE_CAL_TEMP.addr, 8, 8⟩
/-- RFE_CNT (03_rf_front_end.md): front-end counters. -/
def RFE_CNT.addr : Nat := 0x40006064
def RFE_CNT.UNLOCK : Fld := ⟨RFE_CNT.addr, 0, 12⟩
def RFE_CNT.LOST : Fld := ⟨RFE_CNT.addr, 12, 12⟩
def RFE_CNT.GCLIP : Fld := ⟨RFE_CNT.addr, 24, 8⟩
/-- AGC_CTRL (03_rf_front_end.md): gain control. -/
def AGC_CTRL.addr : Nat := 0x40007004
def AGC_CTRL.EN : Fld := ⟨AGC_CTRL.addr, 0, 1⟩
def AGC_CTRL.SRST : Fld := ⟨AGC_CTRL.addr, 1, 1⟩
def AGC_CTRL.NB_HOLD : Fld := ⟨AGC_CTRL.addr, 2, 1⟩
def AGC_CTRL.CNP_HOLD : Fld := ⟨AGC_CTRL.addr, 3, 1⟩
/-- AGC_STAT (03_rf_front_end.md): gain status. -/
def AGC_STAT.addr : Nat := 0x40007008
def AGC_STAT.BUSY : Fld := ⟨AGC_STAT.addr, 0, 1⟩
def AGC_STAT.ERR : Fld := ⟨AGC_STAT.addr, 1, 1⟩
def AGC_STAT.NB_FROZEN : Fld := ⟨AGC_STAT.addr, 2, 1⟩
def AGC_STAT.NB_CLAMP : Fld := ⟨AGC_STAT.addr, 3, 1⟩
def AGC_STAT.CNP_CLAMP : Fld := ⟨AGC_STAT.addr, 4, 1⟩
def AGC_STAT.CLIP_NOW : Fld := ⟨AGC_STAT.addr, 5, 1⟩
/-- AGC_NB_LIM (03_rf_front_end.md): loop limits. -/
def AGC_NB_LIM.addr : Nat := 0x40007040
def AGC_NB_LIM.LIMIT_LO : Fld := ⟨AGC_NB_LIM.addr, 0, 4⟩
def AGC_NB_LIM.LIMIT_HI : Fld := ⟨AGC_NB_LIM.addr, 8, 4⟩
/-- AGC_CNP_LIM (03_rf_front_end.md): loop limits. -/
def AGC_CNP_LIM.addr : Nat := 0x4000704C
def AGC_CNP_LIM.LIMIT_LO : Fld := ⟨AGC_CNP_LIM.addr, 0, 4⟩
def AGC_CNP_LIM.LIMIT_HI : Fld := ⟨AGC_CNP_LIM.addr, 8, 4⟩
/-- AGC_NB_GAIN (03_rf_front_end.md): loop values. -/
def AGC_NB_GAIN.addr : Nat := 0x40007044
def AGC_NB_GAIN.CUR : Fld := ⟨AGC_NB_GAIN.addr, 0, 4⟩
def AGC_NB_GAIN.HELD : Fld := ⟨AGC_NB_GAIN.addr, 8, 4⟩
def AGC_NB_GAIN.WANT : Fld := ⟨AGC_NB_GAIN.addr, 16, 4⟩
/-- AGC_CNP_GAIN (03_rf_front_end.md): loop values. -/
def AGC_CNP_GAIN.addr : Nat := 0x40007050
def AGC_CNP_GAIN.CUR : Fld := ⟨AGC_CNP_GAIN.addr, 0, 4⟩
def AGC_CNP_GAIN.HELD : Fld := ⟨AGC_CNP_GAIN.addr, 8, 4⟩
def AGC_CNP_GAIN.WANT : Fld := ⟨AGC_CNP_GAIN.addr, 16, 4⟩
/-- AGC_NB_CFG (03_rf_front_end.md): narrow AGC target. -/
def AGC_NB_CFG.addr : Nat := 0x40007048
def AGC_NB_CFG.TGT : Fld := ⟨AGC_NB_CFG.addr, 0, 8⟩
/-- AGC_CNP_CFG (03_rf_front_end.md): Canopy gain settings. -/
def AGC_CNP_CFG.addr : Nat := 0x40007054
def AGC_CNP_CFG.MARGIN : Fld := ⟨AGC_CNP_CFG.addr, 0, 5⟩
def AGC_CNP_CFG.UNK_RSSI : Fld := ⟨AGC_CNP_CFG.addr, 8, 8⟩
def AGC_CNP_CFG.CLIP_THR : Fld := ⟨AGC_CNP_CFG.addr, 16, 7⟩
/-- AGC_CNP_SLOT (03_rf_front_end.md): last Canopy window. -/
def AGC_CNP_SLOT.addr : Nat := 0x40007058
def AGC_CNP_SLOT.RSSI_MAX : Fld := ⟨AGC_CNP_SLOT.addr, 0, 8⟩
def AGC_CNP_SLOT.SET : Fld := ⟨AGC_CNP_SLOT.addr, 8, 4⟩
def AGC_CNP_SLOT.END : Fld := ⟨AGC_CNP_SLOT.addr, 12, 4⟩
def AGC_CNP_SLOT.BACKOFFS : Fld := ⟨AGC_CNP_SLOT.addr, 16, 4⟩
def AGC_CNP_SLOT.OVERRIDE : Fld := ⟨AGC_CNP_SLOT.addr, 20, 1⟩
/-- AGC_CLIP_CNT (03_rf_front_end.md): clipped intervals. -/
def AGC_CLIP_CNT.addr : Nat := 0x4000705C
def AGC_CLIP_CNT.CNT : Fld := ⟨AGC_CLIP_CNT.addr, 0, 32⟩
/-- CNP_CTRL (04_canopy_receiver.md): Canopy control. -/
def CNP_CTRL.addr : Nat := 0x40008004
def CNP_CTRL.EN : Fld := ⟨CNP_CTRL.addr, 0, 1⟩
def CNP_CTRL.SRST : Fld := ⟨CNP_CTRL.addr, 1, 1⟩
def CNP_CTRL.PUB_UNKNOWN : Fld := ⟨CNP_CTRL.addr, 2, 1⟩
/-- CNP_STAT (04_canopy_receiver.md): Canopy status. -/
def CNP_STAT.addr : Nat := 0x40008008
def CNP_STAT.BUSY : Fld := ⟨CNP_STAT.addr, 0, 1⟩
def CNP_STAT.ERR : Fld := ⟨CNP_STAT.addr, 1, 1⟩
def CNP_STAT.LISTEN : Fld := ⟨CNP_STAT.addr, 2, 1⟩
def CNP_STAT.MISS : Fld := ⟨CNP_STAT.addr, 3, 1⟩
def CNP_STAT.RXQ_FULL : Fld := ⟨CNP_STAT.addr, 4, 1⟩
def CNP_STAT.ACK_SKIP : Fld := ⟨CNP_STAT.addr, 5, 1⟩
/-- CNP_ERRINFO (04_canopy_receiver.md): last WINDOW_MISS. -/
def CNP_ERRINFO.addr : Nat := 0x40008020
def CNP_ERRINFO.CELL : Fld := ⟨CNP_ERRINFO.addr, 0, 11⟩
def CNP_ERRINFO.CAUSE : Fld := ⟨CNP_ERRINFO.addr, 11, 3⟩
def CNP_ERRINFO.ASN : Fld := ⟨CNP_ERRINFO.addr, 16, 16⟩
/-- CNP_LANES (04_canopy_receiver.md): lane availability. -/
def CNP_LANES.addr : Nat := 0x40008040
def CNP_LANES.EN : Fld := ⟨CNP_LANES.addr, 0, 16⟩
def CNP_LANES.PIN : Fld := ⟨CNP_LANES.addr, 16, 16⟩
/-- CNP_WIN (04_canopy_receiver.md): last window centre. -/
def CNP_WIN.addr : Nat := 0x40008044
def CNP_WIN.FC : Fld := ⟨CNP_WIN.addr, 0, 27⟩
/-- CNP_WIN_SRV (04_canopy_receiver.md): last placement. -/
def CNP_WIN_SRV.addr : Nat := 0x40008048
def CNP_WIN_SRV.SERVED : Fld := ⟨CNP_WIN_SRV.addr, 0, 5⟩
def CNP_WIN_SRV.PINNED : Fld := ⟨CNP_WIN_SRV.addr, 8, 5⟩
def CNP_WIN_SRV.MISSED : Fld := ⟨CNP_WIN_SRV.addr, 16, 5⟩
/-- CNP_MISS_CNT (04_canopy_receiver.md): misses by cause. -/
def CNP_MISS_CNT.addr : Nat := 0x4000804C
def CNP_MISS_CNT.SPAN : Fld := ⟨CNP_MISS_CNT.addr, 0, 8⟩
def CNP_MISS_CNT.RASTER : Fld := ⟨CNP_MISS_CNT.addr, 8, 8⟩
def CNP_MISS_CNT.LANES : Fld := ⟨CNP_MISS_CNT.addr, 16, 8⟩
def CNP_MISS_CNT.PORT : Fld := ⟨CNP_MISS_CNT.addr, 24, 8⟩
/-- CNP_WMISS (04_canopy_receiver.md): WINDOW_MISS total. -/
def CNP_WMISS.addr : Nat := 0x40008050
def CNP_WMISS.CNT : Fld := ⟨CNP_WMISS.addr, 0, 32⟩
/-- CNP_PUB_CNT (04_canopy_receiver.md): publications. -/
def CNP_PUB_CNT.addr : Nat := 0x40008054
def CNP_PUB_CNT.PUB : Fld := ⟨CNP_PUB_CNT.addr, 0, 16⟩
def CNP_PUB_CNT.DROP : Fld := ⟨CNP_PUB_CNT.addr, 16, 16⟩
/-- CNP_DROP_CNT (04_canopy_receiver.md): discards by check. -/
def CNP_DROP_CNT.addr : Nat := 0x40008058
def CNP_DROP_CNT.CRC : Fld := ⟨CNP_DROP_CNT.addr, 0, 8⟩
def CNP_DROP_CNT.MIC : Fld := ⟨CNP_DROP_CNT.addr, 8, 8⟩
def CNP_DROP_CNT.REPLAY : Fld := ⟨CNP_DROP_CNT.addr, 16, 8⟩
def CNP_DROP_CNT.NO_CELLS : Fld := ⟨CNP_DROP_CNT.addr, 24, 8⟩
/-- CNP_DROP2 (04_canopy_receiver.md): further discards and ACKs. -/
def CNP_DROP2.addr : Nat := 0x4000805C
def CNP_DROP2.RXQ_FULL : Fld := ⟨CNP_DROP2.addr, 0, 8⟩
def CNP_DROP2.NO_KEY : Fld := ⟨CNP_DROP2.addr, 8, 8⟩
def CNP_DROP2.ACK_SKIP : Fld := ⟨CNP_DROP2.addr, 16, 8⟩
def CNP_DROP2.ACK_ABORT : Fld := ⟨CNP_DROP2.addr, 24, 8⟩
/-- LANEn_CTRL (04_canopy_receiver.md): lane control. -/
def LANE_CTRL.addr (n : Nat) : Nat := 0x40009004 + 0x1000 * n
def LANE_CTRL.EN (n : Nat) : Fld := ⟨LANE_CTRL.addr n, 0, 1⟩
def LANE_CTRL.SRST (n : Nat) : Fld := ⟨LANE_CTRL.addr n, 1, 1⟩
def LANE_CTRL.THR_HOLD (n : Nat) : Fld := ⟨LANE_CTRL.addr n, 2, 1⟩
/-- LANEn_STAT (04_canopy_receiver.md): lane status. -/
def LANE_STAT.addr (n : Nat) : Nat := 0x40009008 + 0x1000 * n
def LANE_STAT.BUSY (n : Nat) : Fld := ⟨LANE_STAT.addr n, 0, 1⟩
def LANE_STAT.ERR (n : Nat) : Fld := ⟨LANE_STAT.addr n, 1, 1⟩
def LANE_STAT.STATE (n : Nat) : Fld := ⟨LANE_STAT.addr n, 2, 3⟩
def LANE_STAT.ABORTED (n : Nat) : Fld := ⟨LANE_STAT.addr n, 5, 1⟩
def LANE_STAT.GAIN_DISTURBED (n : Nat) : Fld := ⟨LANE_STAT.addr n, 6, 1⟩
def LANE_STAT.THR_CLAMP (n : Nat) : Fld := ⟨LANE_STAT.addr n, 7, 1⟩
def LANE_STAT.ABORT_CAUSE (n : Nat) : Fld := ⟨LANE_STAT.addr n, 8, 3⟩
def LANE_STAT.PIN_MISS (n : Nat) : Fld := ⟨LANE_STAT.addr n, 11, 1⟩
/-- LANEn_ERRINFO (04_canopy_receiver.md): last abort. -/
def LANE_ERRINFO.addr (n : Nat) : Nat := 0x40009020 + 0x1000 * n
def LANE_ERRINFO.ASN (n : Nat) : Fld := ⟨LANE_ERRINFO.addr n, 0, 24⟩
/-- LANEn_CFG (04_canopy_receiver.md): lane configuration. -/
def LANE_CFG.addr (n : Nat) : Nat := 0x40009040 + 0x1000 * n
def LANE_CFG.PIN (n : Nat) : Fld := ⟨LANE_CFG.addr n, 0, 1⟩
def LANE_CFG.MODE (n : Nat) : Fld := ⟨LANE_CFG.addr n, 8, 6⟩
def LANE_CFG.HYP (n : Nat) : Fld := ⟨LANE_CFG.addr n, 16, 2⟩
/-- LANEn_PIN (04_canopy_receiver.md): pinned channel. -/
def LANE_PIN.addr (n : Nat) : Nat := 0x40009044 + 0x1000 * n
def LANE_PIN.FREQ (n : Nat) : Fld := ⟨LANE_PIN.addr n, 0, 27⟩
def LANE_PIN.WIDE (n : Nat) : Fld := ⟨LANE_PIN.addr n, 27, 1⟩
/-- LANEn_PD (04_canopy_receiver.md): preamble and SFD. -/
def LANE_PD.addr (n : Nat) : Nat := 0x40009048 + 0x1000 * n
def LANE_PD.HSPACE (n : Nat) : Fld := ⟨LANE_PD.addr n, 0, 6⟩
def LANE_PD.PD_LEN (n : Nat) : Fld := ⟨LANE_PD.addr n, 8, 4⟩
def LANE_PD.SFD_TO (n : Nat) : Fld := ⟨LANE_PD.addr n, 16, 8⟩
def LANE_PD.SFD_ERR (n : Nat) : Fld := ⟨LANE_PD.addr n, 24, 2⟩
/-- LANEn_THR (04_canopy_receiver.md): threshold limits. -/
def LANE_THR.addr (n : Nat) : Nat := 0x4000904C + 0x1000 * n
def LANE_THR.LIMIT_LO (n : Nat) : Fld := ⟨LANE_THR.addr n, 0, 8⟩
def LANE_THR.LIMIT_HI (n : Nat) : Fld := ⟨LANE_THR.addr n, 8, 8⟩
def LANE_THR.MARGIN (n : Nat) : Fld := ⟨LANE_THR.addr n, 16, 5⟩
/-- LANEn_THV (04_canopy_receiver.md): threshold values. -/
def LANE_THV.addr (n : Nat) : Nat := 0x40009050 + 0x1000 * n
def LANE_THV.CUR (n : Nat) : Fld := ⟨LANE_THV.addr n, 0, 8⟩
def LANE_THV.HELD (n : Nat) : Fld := ⟨LANE_THV.addr n, 8, 8⟩
def LANE_THV.WANT (n : Nat) : Fld := ⟨LANE_THV.addr n, 16, 8⟩
def LANE_THV.NF (n : Nat) : Fld := ⟨LANE_THV.addr n, 24, 8⟩
/-- LANEn_RES (04_canopy_receiver.md): last frame. -/
def LANE_RES.addr (n : Nat) : Nat := 0x40009058 + 0x1000 * n
def LANE_RES.RSSI (n : Nat) : Fld := ⟨LANE_RES.addr n, 0, 8⟩
def LANE_RES.LQI (n : Nat) : Fld := ⟨LANE_RES.addr n, 8, 8⟩
def LANE_RES.AFC (n : Nat) : Fld := ⟨LANE_RES.addr n, 16, 12⟩
def LANE_RES.HYPW (n : Nat) : Fld := ⟨LANE_RES.addr n, 28, 3⟩
def LANE_RES.GD (n : Nat) : Fld := ⟨LANE_RES.addr n, 31, 1⟩
/-- LANEn_TS_LO (04_canopy_receiver.md): RX timestamp, latch pair under R54. -/
def LANE_TS_LO.addr (n : Nat) : Nat := 0x4000905C + 0x1000 * n
def LANE_TS_LO.TS (n : Nat) : Fld := ⟨LANE_TS_LO.addr n, 0, 32⟩
/-- LANEn_TS_HI (04_canopy_receiver.md): RX timestamp, latch pair under R54. -/
def LANE_TS_HI.addr (n : Nat) : Nat := 0x40009060 + 0x1000 * n
def LANE_TS_HI.TS (n : Nat) : Fld := ⟨LANE_TS_HI.addr n, 0, 32⟩
/-- LANEn_CNT (04_canopy_receiver.md): lane counters. -/
def LANE_CNT.addr (n : Nat) : Nat := 0x40009064 + 0x1000 * n
def LANE_CNT.DET (n : Nat) : Fld := ⟨LANE_CNT.addr n, 0, 8⟩
def LANE_CNT.SFD_MISS (n : Nat) : Fld := ⟨LANE_CNT.addr n, 8, 8⟩
def LANE_CNT.PHR_ERR (n : Nat) : Fld := ⟨LANE_CNT.addr n, 16, 8⟩
def LANE_CNT.ABORTED (n : Nat) : Fld := ⟨LANE_CNT.addr n, 24, 8⟩
/-- LANEn_CUR (04_canopy_receiver.md): current assignment. -/
def LANE_CUR.addr (n : Nat) : Nat := 0x40009068 + 0x1000 * n
def LANE_CUR.CELL (n : Nat) : Fld := ⟨LANE_CUR.addr n, 0, 11⟩
def LANE_CUR.CELLV (n : Nat) : Fld := ⟨LANE_CUR.addr n, 11, 1⟩
def LANE_CUR.BIN (n : Nat) : Fld := ⟨LANE_CUR.addr n, 12, 6⟩
def LANE_CUR.WIDE (n : Nat) : Fld := ⟨LANE_CUR.addr n, 18, 1⟩
def LANE_CUR.MODE (n : Nat) : Fld := ⟨LANE_CUR.addr n, 20, 6⟩
/-- FEC_CTRL (04_canopy_receiver.md): decoder pool control. -/
def FEC_CTRL.addr : Nat := 0x40019004
def FEC_CTRL.EN : Fld := ⟨FEC_CTRL.addr, 0, 1⟩
def FEC_CTRL.SRST : Fld := ⟨FEC_CTRL.addr, 1, 1⟩
/-- FEC_STAT (04_canopy_receiver.md): decoder pool status. -/
def FEC_STAT.addr : Nat := 0x40019008
def FEC_STAT.BUSY : Fld := ⟨FEC_STAT.addr, 0, 1⟩
def FEC_STAT.ERR : Fld := ⟨FEC_STAT.addr, 1, 1⟩
def FEC_STAT.DEC_BUSY : Fld := ⟨FEC_STAT.addr, 2, 4⟩
def FEC_STAT.QUEUE : Fld := ⟨FEC_STAT.addr, 6, 6⟩
/-- FEC_CFG (04_canopy_receiver.md): decoder settings. -/
def FEC_CFG.addr : Nat := 0x40019040
def FEC_CFG.MAXIT : Fld := ⟨FEC_CFG.addr, 0, 6⟩
def FEC_CFG.ETERM : Fld := ⟨FEC_CFG.addr, 8, 1⟩
def FEC_CFG.TB : Fld := ⟨FEC_CFG.addr, 16, 8⟩
/-- FEC_CNT (04_canopy_receiver.md): codeword counters. -/
def FEC_CNT.addr : Nat := 0x40019044
def FEC_CNT.CW : Fld := ⟨FEC_CNT.addr, 0, 16⟩
def FEC_CNT.FAIL : Fld := ⟨FEC_CNT.addr, 16, 16⟩
/-- FEC_ITER (04_canopy_receiver.md): iteration statistics. -/
def FEC_ITER.addr : Nat := 0x40019048
def FEC_ITER.SUM : Fld := ⟨FEC_ITER.addr, 0, 16⟩
def FEC_ITER.MAX : Fld := ⟨FEC_ITER.addr, 16, 6⟩
/-- TXM_CTRL (05_transmitter.md): transmitter control. -/
def TXM_CTRL.addr : Nat := 0x4001A004
def TXM_CTRL.EN : Fld := ⟨TXM_CTRL.addr, 0, 1⟩
def TXM_CTRL.SRST : Fld := ⟨TXM_CTRL.addr, 1, 1⟩
def TXM_CTRL.MCHK_BLOCK : Fld := ⟨TXM_CTRL.addr, 2, 1⟩
/-- TXM_STAT (05_transmitter.md): transmitter status. -/
def TXM_STAT.addr : Nat := 0x4001A008
def TXM_STAT.BUSY : Fld := ⟨TXM_STAT.addr, 0, 1⟩
def TXM_STAT.ERR : Fld := ⟨TXM_STAT.addr, 1, 1⟩
def TXM_STAT.STATE : Fld := ⟨TXM_STAT.addr, 2, 3⟩
def TXM_STAT.ABORTED : Fld := ⟨TXM_STAT.addr, 5, 1⟩
def TXM_STAT.BAND_BLOCK : Fld := ⟨TXM_STAT.addr, 6, 1⟩
def TXM_STAT.PWR_CLAMP : Fld := ⟨TXM_STAT.addr, 7, 1⟩
def TXM_STAT.LIVE_ERR : Fld := ⟨TXM_STAT.addr, 8, 1⟩
def TXM_STAT.MCHK_RUN : Fld := ⟨TXM_STAT.addr, 9, 1⟩
def TXM_STAT.TEST_REFUSED : Fld := ⟨TXM_STAT.addr, 10, 1⟩
/-- TXM_ERRINFO (05_transmitter.md): last abort or block. -/
def TXM_ERRINFO.addr : Nat := 0x4001A020
def TXM_ERRINFO.ASN : Fld := ⟨TXM_ERRINFO.addr, 0, 24⟩
def TXM_ERRINFO.CAUSE : Fld := ⟨TXM_ERRINFO.addr, 24, 4⟩
/-- TXM_REGION (05_transmitter.md): region profile. -/
def TXM_REGION.addr : Nat := 0x4001A040
def TXM_REGION.PROFILE : Fld := ⟨TXM_REGION.addr, 0, 3⟩
def TXM_REGION.CEIL : Fld := ⟨TXM_REGION.addr, 8, 8⟩
/-- TXM_UREG_LO (05_transmitter.md): USER profile range. -/
def TXM_UREG_LO.addr : Nat := 0x4001A044
def TXM_UREG_LO.FREQ : Fld := ⟨TXM_UREG_LO.addr, 0, 27⟩
/-- TXM_UREG_HI (05_transmitter.md): USER profile range. -/
def TXM_UREG_HI.addr : Nat := 0x4001A048
def TXM_UREG_HI.FREQ : Fld := ⟨TXM_UREG_HI.addr, 0, 27⟩
/-- TXM_PWR (05_transmitter.md): default power. -/
def TXM_PWR.addr : Nat := 0x4001A04C
def TXM_PWR.DEF_LO : Fld := ⟨TXM_PWR.addr, 0, 8⟩
def TXM_PWR.DEF_HI : Fld := ⟨TXM_PWR.addr, 8, 8⟩
/-- TXM_PWR_LAST (05_transmitter.md): last launch power. -/
def TXM_PWR_LAST.addr : Nat := 0x4001A050
def TXM_PWR_LAST.REQ : Fld := ⟨TXM_PWR_LAST.addr, 0, 8⟩
def TXM_PWR_LAST.APPLIED : Fld := ⟨TXM_PWR_LAST.addr, 8, 8⟩
def TXM_PWR_LAST.PORT : Fld := ⟨TXM_PWR_LAST.addr, 16, 1⟩
/-- TXM_RAMP_CFG (05_transmitter.md): ramp length. -/
def TXM_RAMP_CFG.addr : Nat := 0x4001A054
def TXM_RAMP_CFG.RAMP_LEN : Fld := ⟨TXM_RAMP_CFG.addr, 0, 5⟩
/-- TXM_RAMP# (05_transmitter.md): ramp table. -/
def TXM_RAMP.addr (n : Nat) : Nat := 0x4001A058 + 0x4 * n
def TXM_RAMP.ENTRY0 (n : Nat) : Fld := ⟨TXM_RAMP.addr n, 0, 8⟩
def TXM_RAMP.ENTRY1 (n : Nat) : Fld := ⟨TXM_RAMP.addr n, 8, 8⟩
def TXM_RAMP.ENTRY2 (n : Nat) : Fld := ⟨TXM_RAMP.addr n, 16, 8⟩
def TXM_RAMP.ENTRY3 (n : Nat) : Fld := ⟨TXM_RAMP.addr n, 24, 8⟩
/-- TXM_FIR_CFG (05_transmitter.md): shaping source. -/
def TXM_FIR_CFG.addr : Nat := 0x4001A078
def TXM_FIR_CFG.CUSTOM : Fld := ⟨TXM_FIR_CFG.addr, 0, 1⟩
/-- TXM_FIR_IDX (05_transmitter.md): custom tap index. -/
def TXM_FIR_IDX.addr : Nat := 0x4001A07C
def TXM_FIR_IDX.IDX : Fld := ⟨TXM_FIR_IDX.addr, 0, 6⟩
/-- TXM_FIR_DATA (05_transmitter.md): custom tap value. -/
def TXM_FIR_DATA.addr : Nat := 0x4001A080
def TXM_FIR_DATA.TAP : Fld := ⟨TXM_FIR_DATA.addr, 0, 16⟩
/-- TXM_MCHK_REQ (05_transmitter.md): self-check request. -/
def TXM_MCHK_REQ.addr : Nat := 0x4001A084
def TXM_MCHK_REQ.REQ : Fld := ⟨TXM_MCHK_REQ.addr, 0, 1⟩
def TXM_MCHK_REQ.PEND : Fld := ⟨TXM_MCHK_REQ.addr, 1, 1⟩
/-- TXM_MCHK_CFG (05_transmitter.md): self-check frequency. -/
def TXM_MCHK_CFG.addr : Nat := 0x4001A088
def TXM_MCHK_CFG.FREQ : Fld := ⟨TXM_MCHK_CFG.addr, 0, 27⟩
/-- TXM_MCHK_MODE (05_transmitter.md): self-check mode and limits. -/
def TXM_MCHK_MODE.addr : Nat := 0x4001A08C
def TXM_MCHK_MODE.MODE : Fld := ⟨TXM_MCHK_MODE.addr, 0, 6⟩
def TXM_MCHK_MODE.ACP1_LIM : Fld := ⟨TXM_MCHK_MODE.addr, 8, 6⟩
def TXM_MCHK_MODE.ACP2_LIM : Fld := ⟨TXM_MCHK_MODE.addr, 16, 6⟩
def TXM_MCHK_MODE.LIM_SRC : Fld := ⟨TXM_MCHK_MODE.addr, 24, 1⟩
/-- TXM_MCHK_RES (05_transmitter.md): self-check result. -/
def TXM_MCHK_RES.addr : Nat := 0x4001A090
def TXM_MCHK_RES.ACP1 : Fld := ⟨TXM_MCHK_RES.addr, 0, 8⟩
def TXM_MCHK_RES.ACP2 : Fld := ⟨TXM_MCHK_RES.addr, 8, 8⟩
def TXM_MCHK_RES.PASS : Fld := ⟨TXM_MCHK_RES.addr, 16, 1⟩
def TXM_MCHK_RES.VALID : Fld := ⟨TXM_MCHK_RES.addr, 17, 1⟩
def TXM_MCHK_RES.RESULT : Fld := ⟨TXM_MCHK_RES.addr, 18, 2⟩
/-- TXM_TSF_LO (05_transmitter.md): departure FRC, latch pair under R54. -/
def TXM_TSF_LO.addr : Nat := 0x4001A094
def TXM_TSF_LO.TS : Fld := ⟨TXM_TSF_LO.addr, 0, 32⟩
/-- TXM_TSF_HI (05_transmitter.md): departure FRC, latch pair under R54. -/
def TXM_TSF_HI.addr : Nat := 0x4001A098
def TXM_TSF_HI.TS : Fld := ⟨TXM_TSF_HI.addr, 0, 32⟩
/-- TXM_TSN_LO (05_transmitter.md): departure network time, latch pair under R54. -/
def TXM_TSN_LO.addr : Nat := 0x4001A09C
def TXM_TSN_LO.NT : Fld := ⟨TXM_TSN_LO.addr, 0, 32⟩
/-- TXM_TSN_HI (05_transmitter.md): departure network time, latch pair under R54. -/
def TXM_TSN_HI.addr : Nat := 0x4001A0A0
def TXM_TSN_HI.NT : Fld := ⟨TXM_TSN_HI.addr, 0, 32⟩
/-- TXM_CNT (05_transmitter.md): transmitter counters. -/
def TXM_CNT.addr : Nat := 0x4001A0A4
def TXM_CNT.STARTS : Fld := ⟨TXM_CNT.addr, 0, 16⟩
def TXM_CNT.ABORTS : Fld := ⟨TXM_CNT.addr, 16, 8⟩
def TXM_CNT.BLOCKS : Fld := ⟨TXM_CNT.addr, 24, 8⟩
/-- TXM_STORE (05_transmitter.md): ticket store occupancy. -/
def TXM_STORE.addr : Nat := 0x4001A0A8
def TXM_STORE.ENTRY : Fld := ⟨TXM_STORE.addr, 0, 10⟩
/-- TXM_TEST (05_transmitter.md): test transmission. -/
def TXM_TEST.addr : Nat := 0x4001A0AC
def TXM_TEST.MODE : Fld := ⟨TXM_TEST.addr, 0, 2⟩
def TXM_TEST.AIRMODE : Fld := ⟨TXM_TEST.addr, 8, 6⟩
/-- CAD_CTRL (07_cadence_engine.md): Cadence control. -/
def CAD_CTRL.addr : Nat := 0x4001B004
def CAD_CTRL.EN : Fld := ⟨CAD_CTRL.addr, 0, 1⟩
def CAD_CTRL.SRST : Fld := ⟨CAD_CTRL.addr, 1, 1⟩
/-- CAD_STAT (07_cadence_engine.md): Cadence status. -/
def CAD_STAT.addr : Nat := 0x4001B008
def CAD_STAT.BUSY : Fld := ⟨CAD_STAT.addr, 0, 1⟩
def CAD_STAT.ERR : Fld := ⟨CAD_STAT.addr, 1, 1⟩
def CAD_STAT.TMPL_ERR : Fld := ⟨CAD_STAT.addr, 2, 1⟩
def CAD_STAT.ASN_SKIP : Fld := ⟨CAD_STAT.addr, 3, 1⟩
def CAD_STAT.STAT_GAP : Fld := ⟨CAD_STAT.addr, 4, 1⟩
def CAD_STAT.CELL_ERR : Fld := ⟨CAD_STAT.addr, 5, 1⟩
def CAD_STAT.SF0_ERR : Fld := ⟨CAD_STAT.addr, 6, 1⟩
def CAD_STAT.EN_REFUSED : Fld := ⟨CAD_STAT.addr, 7, 1⟩
def CAD_STAT.TMPL_WR : Fld := ⟨CAD_STAT.addr, 8, 1⟩
def CAD_STAT.TSRC_STALE : Fld := ⟨CAD_STAT.addr, 9, 1⟩
def CAD_STAT.APP_SILENT : Fld := ⟨CAD_STAT.addr, 10, 1⟩
def CAD_STAT.INJ_REFUSED : Fld := ⟨CAD_STAT.addr, 11, 1⟩
def CAD_STAT.KIND : Fld := ⟨CAD_STAT.addr, 12, 2⟩
def CAD_STAT.ADDR_WR : Fld := ⟨CAD_STAT.addr, 14, 1⟩
/-- CAD_ERRINFO (07_cadence_engine.md): last malformed cell. -/
def CAD_ERRINFO.addr : Nat := 0x4001B020
def CAD_ERRINFO.CELL : Fld := ⟨CAD_ERRINFO.addr, 0, 11⟩
def CAD_ERRINFO.CAUSE : Fld := ⟨CAD_ERRINFO.addr, 11, 3⟩
def CAD_ERRINFO.ASN : Fld := ⟨CAD_ERRINFO.addr, 16, 16⟩
/-- CAD_TMPL0 (07_cadence_engine.md): template. -/
def CAD_TMPL0.addr : Nat := 0x4001B040
def CAD_TMPL0.TX_OFFSET : Fld := ⟨CAD_TMPL0.addr, 0, 16⟩
def CAD_TMPL0.SLOT_LEN : Fld := ⟨CAD_TMPL0.addr, 16, 2⟩
/-- CAD_TMPL1 (07_cadence_engine.md): guards. -/
def CAD_TMPL1.addr : Nat := 0x4001B044
def CAD_TMPL1.RX_GUARD_MIN : Fld := ⟨CAD_TMPL1.addr, 0, 16⟩
def CAD_TMPL1.RX_GUARD_MAX : Fld := ⟨CAD_TMPL1.addr, 16, 16⟩
/-- CAD_TMPL2 (07_cadence_engine.md): transmission. -/
def CAD_TMPL2.addr : Nat := 0x4001B048
def CAD_TMPL2.MAX_TX : Fld := ⟨CAD_TMPL2.addr, 0, 16⟩
def CAD_TMPL2.ACK_DELAY : Fld := ⟨CAD_TMPL2.addr, 16, 16⟩
/-- CAD_TMPL3 (07_cadence_engine.md): ACK guard and Tailrace. -/
def CAD_TMPL3.addr : Nat := 0x4001B04C
def CAD_TMPL3.ACK_GUARD : Fld := ⟨CAD_TMPL3.addr, 0, 16⟩
def CAD_TMPL3.TAIL_MIN : Fld := ⟨CAD_TMPL3.addr, 16, 16⟩
/-- CAD_SF# (07_cadence_engine.md): slotframes. -/
def CAD_SF.addr (n : Nat) : Nat := 0x4001B050 + 0x4 * n
def CAD_SF.LEN (n : Nat) : Fld := ⟨CAD_SF.addr n, 0, 16⟩
def CAD_SF.PRIO (n : Nat) : Fld := ⟨CAD_SF.addr n, 16, 2⟩
def CAD_SF.EN (n : Nat) : Fld := ⟨CAD_SF.addr n, 31, 1⟩
/-- CAD_SF#_CELLS (07_cadence_engine.md): cell ranges. -/
def CAD_SF_CELLS.addr (n : Nat) : Nat := 0x4001B060 + 0x4 * n
def CAD_SF_CELLS.BASE (n : Nat) : Fld := ⟨CAD_SF_CELLS.addr n, 0, 11⟩
def CAD_SF_CELLS.CNT (n : Nat) : Fld := ⟨CAD_SF_CELLS.addr n, 16, 12⟩
/-- CAD_RETRY (07_cadence_engine.md): retry budgets. -/
def CAD_RETRY.addr : Nat := 0x4001B070
def CAD_RETRY.N_A : Fld := ⟨CAD_RETRY.addr, 0, 3⟩
def CAD_RETRY.N_B : Fld := ⟨CAD_RETRY.addr, 4, 3⟩
def CAD_RETRY.N_C : Fld := ⟨CAD_RETRY.addr, 8, 3⟩
def CAD_RETRY.N_D : Fld := ⟨CAD_RETRY.addr, 12, 3⟩
/-- CAD_BACKOFF (07_cadence_engine.md): shared-cell backoff. -/
def CAD_BACKOFF.addr : Nat := 0x4001B074
def CAD_BACKOFF.MIN_BE : Fld := ⟨CAD_BACKOFF.addr, 0, 3⟩
def CAD_BACKOFF.MAX_BE : Fld := ⟨CAD_BACKOFF.addr, 4, 3⟩
/-- CAD_APPHB (07_cadence_engine.md): firmware heartbeat. -/
def CAD_APPHB.addr : Nat := 0x4001B078
def CAD_APPHB.HB : Fld := ⟨CAD_APPHB.addr, 0, 32⟩
/-- CAD_APPCFG (07_cadence_engine.md): autonomy limit. -/
def CAD_APPCFG.addr : Nat := 0x4001B07C
def CAD_APPCFG.SILENCE_MAX : Fld := ⟨CAD_APPCFG.addr, 0, 11⟩
def CAD_APPCFG.SILENT : Fld := ⟨CAD_APPCFG.addr, 16, 11⟩
/-- CAD_TSIE (07_cadence_engine.md): Departure Time IE. -/
def CAD_TSIE.addr : Nat := 0x4001B080
def CAD_TSIE.EID : Fld := ⟨CAD_TSIE.addr, 0, 8⟩
def CAD_TSIE.EN : Fld := ⟨CAD_TSIE.addr, 8, 1⟩
/-- CAD_HOP_IDX (07_cadence_engine.md): hop-table index. -/
def CAD_HOP_IDX.addr : Nat := 0x4001B084
def CAD_HOP_IDX.POS : Fld := ⟨CAD_HOP_IDX.addr, 0, 7⟩
def CAD_HOP_IDX.SEQ : Fld := ⟨CAD_HOP_IDX.addr, 7, 2⟩
/-- CAD_HOP_DATA (07_cadence_engine.md): hop-table entry. -/
def CAD_HOP_DATA.addr : Nat := 0x4001B088
def CAD_HOP_DATA.CH : Fld := ⟨CAD_HOP_DATA.addr, 0, 8⟩
/-- CAD_HOP#_BASE (07_cadence_engine.md): channel 0 frequency. -/
def CAD_HOP_BASE.addr (n : Nat) : Nat := 0x4001B090 + 0x8 * n
def CAD_HOP_BASE.F0 (n : Nat) : Fld := ⟨CAD_HOP_BASE.addr n, 0, 27⟩
/-- CAD_HOP#_CFG (07_cadence_engine.md): sequence shape. -/
def CAD_HOP_CFG.addr (n : Nat) : Nat := 0x4001B094 + 0x8 * n
def CAD_HOP_CFG.LEN (n : Nat) : Fld := ⟨CAD_HOP_CFG.addr n, 0, 8⟩
def CAD_HOP_CFG.SPACING (n : Nat) : Fld := ⟨CAD_HOP_CFG.addr n, 8, 16⟩
/-- CAD_ASN_LO (07_cadence_engine.md): current ASN, latch pair under R54. -/
def CAD_ASN_LO.addr : Nat := 0x4001B0B0
def CAD_ASN_LO.ASN : Fld := ⟨CAD_ASN_LO.addr, 0, 32⟩
/-- CAD_ASN_HI (07_cadence_engine.md): current ASN, latch pair under R54. -/
def CAD_ASN_HI.addr : Nat := 0x4001B0B4
def CAD_ASN_HI.ASN : Fld := ⟨CAD_ASN_HI.addr, 0, 8⟩
/-- CAD_TBLCHG (07_cadence_engine.md): cell change notice. -/
def CAD_TBLCHG.addr : Nat := 0x4001B0B8
def CAD_TBLCHG.FIRST : Fld := ⟨CAD_TBLCHG.addr, 0, 11⟩
def CAD_TBLCHG.LAST : Fld := ⟨CAD_TBLCHG.addr, 16, 11⟩
def CAD_TBLCHG.ALL : Fld := ⟨CAD_TBLCHG.addr, 30, 1⟩
def CAD_TBLCHG.GO : Fld := ⟨CAD_TBLCHG.addr, 31, 1⟩
/-- CAD_CNT (07_cadence_engine.md): Cadence counters. -/
def CAD_CNT.addr : Nat := 0x4001B0BC
def CAD_CNT.OVERRUN : Fld := ⟨CAD_CNT.addr, 0, 16⟩
def CAD_CNT.CELL_ERR : Fld := ⟨CAD_CNT.addr, 16, 16⟩
/-- CAD_CNT2 (07_cadence_engine.md): transmit outcomes. -/
def CAD_CNT2.addr : Nat := 0x4001B0C0
def CAD_CNT2.TX_OK : Fld := ⟨CAD_CNT2.addr, 0, 16⟩
def CAD_CNT2.ACK_MISS : Fld := ⟨CAD_CNT2.addr, 16, 16⟩
/-- CAD_CNT3 (07_cadence_engine.md): further counters. -/
def CAD_CNT3.addr : Nat := 0x4001B0C4
def CAD_CNT3.RX_SHED : Fld := ⟨CAD_CNT3.addr, 0, 16⟩
def CAD_CNT3.NACK : Fld := ⟨CAD_CNT3.addr, 16, 8⟩
def CAD_CNT3.KA_SENT : Fld := ⟨CAD_CNT3.addr, 24, 8⟩
/-- CAD_SLOT (07_cadence_engine.md): current slot. -/
def CAD_SLOT.addr : Nat := 0x4001B0C8
def CAD_SLOT.KIND : Fld := ⟨CAD_SLOT.addr, 0, 2⟩
def CAD_SLOT.CELL : Fld := ⟨CAD_SLOT.addr, 2, 11⟩
def CAD_SLOT.SF : Fld := ⟨CAD_SLOT.addr, 13, 2⟩
def CAD_SLOT.CH : Fld := ⟨CAD_SLOT.addr, 15, 8⟩
def CAD_SLOT.CELLV : Fld := ⟨CAD_SLOT.addr, 23, 1⟩
/-- CAD_TC_LAST (07_cadence_engine.md): last correction from a time source. -/
def CAD_TC_LAST.addr : Nat := 0x4001B0CC
def CAD_TC_LAST.TC : Fld := ⟨CAD_TC_LAST.addr, 0, 16⟩
def CAD_TC_LAST.NBR : Fld := ⟨CAD_TC_LAST.addr, 16, 10⟩
def CAD_TC_LAST.ACK : Fld := ⟨CAD_TC_LAST.addr, 30, 1⟩
def CAD_TC_LAST.V : Fld := ⟨CAD_TC_LAST.addr, 31, 1⟩
/-- CAD_LS_STAT (07_cadence_engine.md): last lockstep fault. -/
def CAD_LS_STAT.addr : Nat := 0x4001B0D0
def CAD_LS_STAT.REPLAYS : Fld := ⟨CAD_LS_STAT.addr, 0, 2⟩
def CAD_LS_STAT.SIG : Fld := ⟨CAD_LS_STAT.addr, 2, 1⟩
def CAD_LS_STAT.GROUP : Fld := ⟨CAD_LS_STAT.addr, 3, 3⟩
def CAD_LS_STAT.ASN : Fld := ⟨CAD_LS_STAT.addr, 8, 24⟩
/-- CAD_LS_CNT (07_cadence_engine.md): lockstep counters. -/
def CAD_LS_CNT.addr : Nat := 0x4001B0D4
def CAD_LS_CNT.FAULTS : Fld := ⟨CAD_LS_CNT.addr, 0, 16⟩
def CAD_LS_CNT.REPLAYS : Fld := ⟨CAD_LS_CNT.addr, 16, 16⟩
/-- CAD_LS_INJ (07_cadence_engine.md): fault injection. -/
def CAD_LS_INJ.addr : Nat := 0x4001B0D8
def CAD_LS_INJ.GO : Fld := ⟨CAD_LS_INJ.addr, 0, 1⟩
def CAD_LS_INJ.GROUP : Fld := ⟨CAD_LS_INJ.addr, 1, 3⟩
def CAD_LS_INJ.COPY : Fld := ⟨CAD_LS_INJ.addr, 4, 1⟩
/-- CAD_SELF_EXT_LO (07_cadence_engine.md): own extended address. -/
def CAD_SELF_EXT_LO.addr : Nat := 0x4001B0E0
def CAD_SELF_EXT_LO.EXT : Fld := ⟨CAD_SELF_EXT_LO.addr, 0, 32⟩
/-- CAD_SELF_EXT_HI (07_cadence_engine.md): own extended address. -/
def CAD_SELF_EXT_HI.addr : Nat := 0x4001B0E4
def CAD_SELF_EXT_HI.EXT : Fld := ⟨CAD_SELF_EXT_HI.addr, 0, 32⟩
/-- CAD_SELF_SHORT (07_cadence_engine.md): own short address. -/
def CAD_SELF_SHORT.addr : Nat := 0x4001B0E8
def CAD_SELF_SHORT.SHORT : Fld := ⟨CAD_SELF_SHORT.addr, 0, 16⟩
def CAD_SELF_SHORT.SHORT_V : Fld := ⟨CAD_SELF_SHORT.addr, 16, 1⟩
def CAD_SELF_SHORT.EXT_V : Fld := ⟨CAD_SELF_SHORT.addr, 17, 1⟩
/-- CAD_SELF_PAN (07_cadence_engine.md): own PAN ID. -/
def CAD_SELF_PAN.addr : Nat := 0x4001B0EC
def CAD_SELF_PAN.PAN : Fld := ⟨CAD_SELF_PAN.addr, 0, 16⟩
/-- NBR_CTRL (07_cadence_engine.md): neighbour logic control. -/
def NBR_CTRL.addr : Nat := 0x4001C004
def NBR_CTRL.EN : Fld := ⟨NBR_CTRL.addr, 0, 1⟩
def NBR_CTRL.SRST : Fld := ⟨NBR_CTRL.addr, 1, 1⟩
/-- NBR_STAT (07_cadence_engine.md): neighbour status. -/
def NBR_STAT.addr : Nat := 0x4001C008
def NBR_STAT.BUSY : Fld := ⟨NBR_STAT.addr, 0, 1⟩
def NBR_STAT.ERR : Fld := ⟨NBR_STAT.addr, 1, 1⟩
def NBR_STAT.ANY_STALE : Fld := ⟨NBR_STAT.addr, 2, 1⟩
def NBR_STAT.OUTLIER : Fld := ⟨NBR_STAT.addr, 3, 1⟩
/-- NBR_DRIFT_LO (07_cadence_engine.md): drift limits. -/
def NBR_DRIFT_LO.addr : Nat := 0x4001C040
def NBR_DRIFT_LO.LIMIT : Fld := ⟨NBR_DRIFT_LO.addr, 0, 32⟩
/-- NBR_DRIFT_HI (07_cadence_engine.md): drift limits. -/
def NBR_DRIFT_HI.addr : Nat := 0x4001C044
def NBR_DRIFT_HI.LIMIT : Fld := ⟨NBR_DRIFT_HI.addr, 0, 32⟩
/-- NBR_CFG (07_cadence_engine.md): estimator and guard settings. -/
def NBR_CFG.addr : Nat := 0x4001C048
def NBR_CFG.ALPHA : Fld := ⟨NBR_CFG.addr, 0, 4⟩
def NBR_CFG.MARGIN : Fld := ⟨NBR_CFG.addr, 8, 8⟩
def NBR_CFG.KA_FRAC : Fld := ⟨NBR_CFG.addr, 16, 4⟩
def NBR_CFG.DT_MIN : Fld := ⟨NBR_CFG.addr, 20, 12⟩
/-- NBR_OUTLIER (07_cadence_engine.md): outlier threshold. -/
def NBR_OUTLIER.addr : Nat := 0x4001C04C
def NBR_OUTLIER.PPM : Fld := ⟨NBR_OUTLIER.addr, 0, 16⟩
/-- NBR_KA (07_cadence_engine.md): keep-alive control. -/
def NBR_KA.addr : Nat := 0x4001C050
def NBR_KA.AUTO : Fld := ⟨NBR_KA.addr, 0, 1⟩
/-- NBR_CHG (07_cadence_engine.md): neighbour change notice. -/
def NBR_CHG.addr : Nat := 0x4001C054
def NBR_CHG.IDX : Fld := ⟨NBR_CHG.addr, 0, 10⟩
def NBR_CHG.INIT : Fld := ⟨NBR_CHG.addr, 30, 1⟩
def NBR_CHG.GO : Fld := ⟨NBR_CHG.addr, 31, 1⟩
/-- NBR_CNT (07_cadence_engine.md): neighbour counters. -/
def NBR_CNT.addr : Nat := 0x4001C058
def NBR_CNT.STALE_EV : Fld := ⟨NBR_CNT.addr, 0, 16⟩
def NBR_CNT.OUTLIERS : Fld := ⟨NBR_CNT.addr, 16, 16⟩
/-- NBR_STALE_NOW (07_cadence_engine.md): current staleness. -/
def NBR_STALE_NOW.addr : Nat := 0x4001C05C
def NBR_STALE_NOW.STALE : Fld := ⟨NBR_STALE_NOW.addr, 0, 11⟩
def NBR_STALE_NOW.KA_DUE : Fld := ⟨NBR_STALE_NOW.addr, 16, 11⟩
/-- HDR_CTRL (08_headrace.md): Headrace control. -/
def HDR_CTRL.addr : Nat := 0x4001D004
def HDR_CTRL.EN : Fld := ⟨HDR_CTRL.addr, 0, 1⟩
def HDR_CTRL.SRST : Fld := ⟨HDR_CTRL.addr, 1, 1⟩
def HDR_CTRL.EXP_EN : Fld := ⟨HDR_CTRL.addr, 2, 1⟩
/-- HDR_STAT (08_headrace.md): Headrace status. -/
def HDR_STAT.addr : Nat := 0x4001D008
def HDR_STAT.BUSY : Fld := ⟨HDR_STAT.addr, 0, 1⟩
def HDR_STAT.ERR : Fld := ⟨HDR_STAT.addr, 1, 1⟩
def HDR_STAT.DEPTH : Fld := ⟨HDR_STAT.addr, 2, 3⟩
def HDR_STAT.UNPREP : Fld := ⟨HDR_STAT.addr, 5, 1⟩
def HDR_STAT.LATE : Fld := ⟨HDR_STAT.addr, 6, 1⟩
def HDR_STAT.SQUASHING : Fld := ⟨HDR_STAT.addr, 7, 1⟩
def HDR_STAT.EXP_SLOT : Fld := ⟨HDR_STAT.addr, 8, 1⟩
/-- HDR_ERRINFO (08_headrace.md): last unpreparable frame. -/
def HDR_ERRINFO.addr : Nat := 0x4001D020
def HDR_ERRINFO.QUEUE : Fld := ⟨HDR_ERRINFO.addr, 0, 6⟩
def HDR_ERRINFO.CAUSE : Fld := ⟨HDR_ERRINFO.addr, 8, 4⟩
def HDR_ERRINFO.ASN : Fld := ⟨HDR_ERRINFO.addr, 16, 16⟩
/-- HDR_CFG (08_headrace.md): run-ahead depth. -/
def HDR_CFG.addr : Nat := 0x4001D040
def HDR_CFG.RUN_AHEAD : Fld := ⟨HDR_CFG.addr, 0, 3⟩
def HDR_CFG.HORIZON : Fld := ⟨HDR_CFG.addr, 16, 11⟩
/-- HDR_EXPRESS (08_headrace.md): express lead. -/
def HDR_EXPRESS.addr : Nat := 0x4001D044
def HDR_EXPRESS.LEAD : Fld := ⟨HDR_EXPRESS.addr, 0, 16⟩
/-- HDR_TKT_IDX (08_headrace.md): ticket selector. -/
def HDR_TKT_IDX.addr : Nat := 0x4001D048
def HDR_TKT_IDX.IDX : Fld := ⟨HDR_TKT_IDX.addr, 0, 2⟩
/-- HDR_TKT_W0 (08_headrace.md): selected ticket, identity. -/
def HDR_TKT_W0.addr : Nat := 0x4001D04C
def HDR_TKT_W0.STATE : Fld := ⟨HDR_TKT_W0.addr, 0, 3⟩
def HDR_TKT_W0.EXP : Fld := ⟨HDR_TKT_W0.addr, 3, 1⟩
def HDR_TKT_W0.KA : Fld := ⟨HDR_TKT_W0.addr, 4, 1⟩
def HDR_TKT_W0.CLASS : Fld := ⟨HDR_TKT_W0.addr, 5, 2⟩
def HDR_TKT_W0.QUEUE : Fld := ⟨HDR_TKT_W0.addr, 8, 6⟩
def HDR_TKT_W0.CELL : Fld := ⟨HDR_TKT_W0.addr, 16, 11⟩
/-- HDR_TKT_W1 (08_headrace.md): selected ticket, slot. -/
def HDR_TKT_W1.addr : Nat := 0x4001D050
def HDR_TKT_W1.ASN : Fld := ⟨HDR_TKT_W1.addr, 0, 24⟩
def HDR_TKT_W1.ATTEMPT : Fld := ⟨HDR_TKT_W1.addr, 24, 3⟩
/-- HDR_TKT_W2 (08_headrace.md): selected ticket, counter. -/
def HDR_TKT_W2.addr : Nat := 0x4001D054
def HDR_TKT_W2.FC : Fld := ⟨HDR_TKT_W2.addr, 0, 32⟩
/-- HDR_TKT_W3 (08_headrace.md): selected ticket, destination. -/
def HDR_TKT_W3.addr : Nat := 0x4001D058
def HDR_TKT_W3.NBR : Fld := ⟨HDR_TKT_W3.addr, 0, 10⟩
def HDR_TKT_W3.NBR_V : Fld := ⟨HDR_TKT_W3.addr, 10, 1⟩
def HDR_TKT_W3.KEY : Fld := ⟨HDR_TKT_W3.addr, 16, 5⟩
def HDR_TKT_W3.SEC : Fld := ⟨HDR_TKT_W3.addr, 21, 1⟩
/-- HDR_CNT (08_headrace.md): preparation counters. -/
def HDR_CNT.addr : Nat := 0x4001D05C
def HDR_CNT.PREP : Fld := ⟨HDR_CNT.addr, 0, 16⟩
def HDR_CNT.SQUASHED : Fld := ⟨HDR_CNT.addr, 16, 16⟩
/-- HDR_SQ_CNT1 (08_headrace.md): squashes by cause. -/
def HDR_SQ_CNT1.addr : Nat := 0x4001D060
def HDR_SQ_CNT1.ACK : Fld := ⟨HDR_SQ_CNT1.addr, 0, 8⟩
def HDR_SQ_CNT1.EXPRESS : Fld := ⟨HDR_SQ_CNT1.addr, 8, 8⟩
def HDR_SQ_CNT1.OVERLAY : Fld := ⟨HDR_SQ_CNT1.addr, 16, 8⟩
def HDR_SQ_CNT1.TABLE : Fld := ⟨HDR_SQ_CNT1.addr, 24, 8⟩
/-- HDR_SQ_CNT2 (08_headrace.md): squashes by cause. -/
def HDR_SQ_CNT2.addr : Nat := 0x4001D064
def HDR_SQ_CNT2.SLUICE : Fld := ⟨HDR_SQ_CNT2.addr, 0, 8⟩
def HDR_SQ_CNT2.KEY : Fld := ⟨HDR_SQ_CNT2.addr, 8, 8⟩
def HDR_SQ_CNT2.FAULT : Fld := ⟨HDR_SQ_CNT2.addr, 16, 8⟩
def HDR_SQ_CNT2.CTRL : Fld := ⟨HDR_SQ_CNT2.addr, 24, 8⟩
/-- HDR_BURNT (08_headrace.md): counters burnt by squashes. -/
def HDR_BURNT.addr : Nat := 0x4001D068
def HDR_BURNT.CNT : Fld := ⟨HDR_BURNT.addr, 0, 32⟩
/-- HDR_CNT2 (08_headrace.md): further counters. -/
def HDR_CNT2.addr : Nat := 0x4001D06C
def HDR_CNT2.LATE : Fld := ⟨HDR_CNT2.addr, 0, 8⟩
def HDR_CNT2.UNPREP : Fld := ⟨HDR_CNT2.addr, 8, 8⟩
def HDR_CNT2.EXPRESS : Fld := ⟨HDR_CNT2.addr, 16, 8⟩
def HDR_CNT2.OVR : Fld := ⟨HDR_CNT2.addr, 24, 8⟩
/-- HDR_TAIL (08_headrace.md): last Tailrace. -/
def HDR_TAIL.addr : Nat := 0x4001D070
def HDR_TAIL.DONE : Fld := ⟨HDR_TAIL.addr, 0, 7⟩
def HDR_TAIL.DUR : Fld := ⟨HDR_TAIL.addr, 8, 10⟩
def HDR_TAIL.OUTCOME : Fld := ⟨HDR_TAIL.addr, 20, 3⟩
/-- HDR_SQ_LAST (08_headrace.md): last squash. -/
def HDR_SQ_LAST.addr : Nat := 0x4001D074
def HDR_SQ_LAST.CAUSE : Fld := ⟨HDR_SQ_LAST.addr, 0, 4⟩
def HDR_SQ_LAST.COUNT : Fld := ⟨HDR_SQ_LAST.addr, 4, 3⟩
def HDR_SQ_LAST.DUR : Fld := ⟨HDR_SQ_LAST.addr, 8, 8⟩
def HDR_SQ_LAST.ASN : Fld := ⟨HDR_SQ_LAST.addr, 16, 16⟩
/-- TRF_CTRL (09_traffic_sluices.md): scheduler control. -/
def TRF_CTRL.addr : Nat := 0x4001E004
def TRF_CTRL.EN : Fld := ⟨TRF_CTRL.addr, 0, 1⟩
def TRF_CTRL.SRST : Fld := ⟨TRF_CTRL.addr, 1, 1⟩
def TRF_CTRL.AUTOFREE : Fld := ⟨TRF_CTRL.addr, 2, 1⟩
/-- TRF_STAT (09_traffic_sluices.md): scheduler status. -/
def TRF_STAT.addr : Nat := 0x4001E008
def TRF_STAT.BUSY : Fld := ⟨TRF_STAT.addr, 0, 1⟩
def TRF_STAT.ERR : Fld := ⟨TRF_STAT.addr, 1, 1⟩
def TRF_STAT.TOO_LONG : Fld := ⟨TRF_STAT.addr, 2, 1⟩
def TRF_STAT.ENQ_ERR : Fld := ⟨TRF_STAT.addr, 3, 1⟩
def TRF_STAT.FREE_ERR : Fld := ⟨TRF_STAT.addr, 4, 1⟩
def TRF_STAT.CMD_REFUSED : Fld := ⟨TRF_STAT.addr, 5, 1⟩
def TRF_STAT.CFG_REFUSED : Fld := ⟨TRF_STAT.addr, 6, 1⟩
def TRF_STAT.POOL_LOW : Fld := ⟨TRF_STAT.addr, 7, 1⟩
def TRF_STAT.A_DEMOTED : Fld := ⟨TRF_STAT.addr, 24, 8⟩
/-- TRF_ERRINFO (09_traffic_sluices.md): last refusal. -/
def TRF_ERRINFO.addr : Nat := 0x4001E020
def TRF_ERRINFO.CELL : Fld := ⟨TRF_ERRINFO.addr, 0, 10⟩
def TRF_ERRINFO.QUEUE : Fld := ⟨TRF_ERRINFO.addr, 10, 6⟩
def TRF_ERRINFO.CAUSE : Fld := ⟨TRF_ERRINFO.addr, 16, 3⟩
/-- TRF_POOL (09_traffic_sluices.md): pool state. -/
def TRF_POOL.addr : Nat := 0x4001E040
def TRF_POOL.FREE : Fld := ⟨TRF_POOL.addr, 0, 11⟩
def TRF_POOL.RX_RSV : Fld := ⟨TRF_POOL.addr, 16, 11⟩
/-- TRF_ALLOC (09_traffic_sluices.md): pops. -/
def TRF_ALLOC.addr : Nat := 0x4001E044
def TRF_ALLOC.CELL : Fld := ⟨TRF_ALLOC.addr, 0, 10⟩
def TRF_ALLOC.V : Fld := ⟨TRF_ALLOC.addr, 31, 1⟩
/-- TRF_DONE (09_traffic_sluices.md): pops. -/
def TRF_DONE.addr : Nat := 0x4001E050
def TRF_DONE.CELL : Fld := ⟨TRF_DONE.addr, 0, 10⟩
def TRF_DONE.V : Fld := ⟨TRF_DONE.addr, 31, 1⟩
/-- TRF_RXQ (09_traffic_sluices.md): pops. -/
def TRF_RXQ.addr : Nat := 0x4001E054
def TRF_RXQ.CELL : Fld := ⟨TRF_RXQ.addr, 0, 10⟩
def TRF_RXQ.V : Fld := ⟨TRF_RXQ.addr, 31, 1⟩
/-- TRF_FREE (09_traffic_sluices.md): free a chain. -/
def TRF_FREE.addr : Nat := 0x4001E048
def TRF_FREE.CELL : Fld := ⟨TRF_FREE.addr, 0, 10⟩
/-- TRF_ENQ (09_traffic_sluices.md): enqueue. -/
def TRF_ENQ.addr : Nat := 0x4001E04C
def TRF_ENQ.CELL : Fld := ⟨TRF_ENQ.addr, 0, 10⟩
def TRF_ENQ.QUEUE : Fld := ⟨TRF_ENQ.addr, 16, 6⟩
/-- TRF_RXQ_CFG (09_traffic_sluices.md): RX queue. -/
def TRF_RXQ_CFG.addr : Nat := 0x4001E058
def TRF_RXQ_CFG.MAX : Fld := ⟨TRF_RXQ_CFG.addr, 0, 11⟩
def TRF_RXQ_CFG.DEPTH : Fld := ⟨TRF_RXQ_CFG.addr, 16, 11⟩
/-- TRF_CMD (09_traffic_sluices.md): queue command. -/
def TRF_CMD.addr : Nat := 0x4001E05C
def TRF_CMD.QUEUE : Fld := ⟨TRF_CMD.addr, 0, 6⟩
def TRF_CMD.CMD : Fld := ⟨TRF_CMD.addr, 8, 2⟩
/-- TRF_DELIV (09_traffic_sluices.md): outcome counters. -/
def TRF_DELIV.addr : Nat := 0x4001E064
def TRF_DELIV.DELIVERED : Fld := ⟨TRF_DELIV.addr, 0, 16⟩
def TRF_DELIV.FAILED : Fld := ⟨TRF_DELIV.addr, 16, 16⟩
/-- TRF_DROP (09_traffic_sluices.md): outcome counters. -/
def TRF_DROP.addr : Nat := 0x4001E068
def TRF_DROP.DROPPED : Fld := ⟨TRF_DROP.addr, 0, 16⟩
def TRF_DROP.REMOVED : Fld := ⟨TRF_DROP.addr, 16, 16⟩
/-- TRF_HIST_CFG (09_traffic_sluices.md): history ring. -/
def TRF_HIST_CFG.addr : Nat := 0x4001E06C
def TRF_HIST_CFG.QUEUE : Fld := ⟨TRF_HIST_CFG.addr, 0, 6⟩
def TRF_HIST_CFG.EN : Fld := ⟨TRF_HIST_CFG.addr, 8, 1⟩
def TRF_HIST_CFG.PERIOD : Fld := ⟨TRF_HIST_CFG.addr, 16, 16⟩
/-- TRF_HIST_HEAD (09_traffic_sluices.md): ring position. -/
def TRF_HIST_HEAD.addr : Nat := 0x4001E070
def TRF_HIST_HEAD.NEXT : Fld := ⟨TRF_HIST_HEAD.addr, 0, 6⟩
def TRF_HIST_HEAD.FULL : Fld := ⟨TRF_HIST_HEAD.addr, 6, 1⟩
/-- TRF_HIST_IDX (09_traffic_sluices.md): entry selector. -/
def TRF_HIST_IDX.addr : Nat := 0x4001E074
def TRF_HIST_IDX.IDX : Fld := ⟨TRF_HIST_IDX.addr, 0, 6⟩
/-- TRF_HIST_W0 (09_traffic_sluices.md): captured entry. -/
def TRF_HIST_W0.addr : Nat := 0x4001E078
def TRF_HIST_W0.DEPTH : Fld := ⟨TRF_HIST_W0.addr, 0, 11⟩
def TRF_HIST_W0.DELAY : Fld := ⟨TRF_HIST_W0.addr, 16, 16⟩
/-- TRF_HIST_W1 (09_traffic_sluices.md): captured entry. -/
def TRF_HIST_W1.addr : Nat := 0x4001E07C
def TRF_HIST_W1.ASN : Fld := ⟨TRF_HIST_W1.addr, 0, 32⟩
/-- TRF_Q#_CFG (09_traffic_sluices.md): queue configuration. -/
def TRF_Q_CFG.addr (n : Nat) : Nat := 0x4001E100 + 0x4 * n
def TRF_Q_CFG.CLASS (n : Nat) : Fld := ⟨TRF_Q_CFG.addr n, 0, 2⟩
def TRF_Q_CFG.EN (n : Nat) : Fld := ⟨TRF_Q_CFG.addr n, 2, 1⟩
def TRF_Q_CFG.METER (n : Nat) : Fld := ⟨TRF_Q_CFG.addr n, 3, 5⟩
def TRF_Q_CFG.MET_V (n : Nat) : Fld := ⟨TRF_Q_CFG.addr n, 8, 1⟩
def TRF_Q_CFG.SFMASK (n : Nat) : Fld := ⟨TRF_Q_CFG.addr n, 9, 4⟩
def TRF_Q_CFG.DEMQ (n : Nat) : Fld := ⟨TRF_Q_CFG.addr n, 14, 6⟩
def TRF_Q_CFG.BKEY (n : Nat) : Fld := ⟨TRF_Q_CFG.addr n, 20, 5⟩
def TRF_Q_CFG.BKEY_V (n : Nat) : Fld := ⟨TRF_Q_CFG.addr n, 25, 1⟩
def TRF_Q_CFG.PRIO (n : Nat) : Fld := ⟨TRF_Q_CFG.addr n, 26, 3⟩
/-- TRF_Q#_DEPTH (09_traffic_sluices.md): queue depth. -/
def TRF_Q_DEPTH.addr (n : Nat) : Nat := 0x4001E200 + 0x4 * n
def TRF_Q_DEPTH.FRAMES (n : Nat) : Fld := ⟨TRF_Q_DEPTH.addr n, 0, 11⟩
def TRF_Q_DEPTH.OCTETS (n : Nat) : Fld := ⟨TRF_Q_DEPTH.addr n, 15, 17⟩
/-- TRF_Q#_PEAK (09_traffic_sluices.md): queue peaks. -/
def TRF_Q_PEAK.addr (n : Nat) : Nat := 0x4001E300 + 0x4 * n
def TRF_Q_PEAK.MAXFRAMES (n : Nat) : Fld := ⟨TRF_Q_PEAK.addr n, 0, 11⟩
def TRF_Q_PEAK.MAXDELAY (n : Nat) : Fld := ⟨TRF_Q_PEAK.addr n, 16, 16⟩
/-- WEIR_CTRL (09_traffic_sluices.md). -/
def WEIR_CTRL.addr : Nat := 0x4001F004
def WEIR_CTRL.EN : Fld := ⟨WEIR_CTRL.addr, 0, 1⟩
def WEIR_CTRL.SRST : Fld := ⟨WEIR_CTRL.addr, 1, 1⟩
/-- WEIR_STAT (09_traffic_sluices.md). -/
def WEIR_STAT.addr : Nat := 0x4001F008
def WEIR_STAT.BUSY : Fld := ⟨WEIR_STAT.addr, 0, 1⟩
def WEIR_STAT.ERR : Fld := ⟨WEIR_STAT.addr, 1, 1⟩
def WEIR_STAT.RED : Fld := ⟨WEIR_STAT.addr, 2, 1⟩
/-- WEIR_CSEL (09_traffic_sluices.md): counter selector. -/
def WEIR_CSEL.addr : Nat := 0x4001F040
def WEIR_CSEL.METER : Fld := ⟨WEIR_CSEL.addr, 0, 5⟩
/-- WEIR_CGREEN (09_traffic_sluices.md): colour counters of the selected meter. -/
def WEIR_CGREEN.addr : Nat := 0x4001F044
def WEIR_CGREEN.CNT : Fld := ⟨WEIR_CGREEN.addr, 0, 32⟩
/-- WEIR_CYELLOW (09_traffic_sluices.md): colour counters of the selected meter. -/
def WEIR_CYELLOW.addr : Nat := 0x4001F048
def WEIR_CYELLOW.CNT : Fld := ⟨WEIR_CYELLOW.addr, 0, 32⟩
/-- WEIR_CRED (09_traffic_sluices.md): colour counters of the selected meter. -/
def WEIR_CRED.addr : Nat := 0x4001F04C
def WEIR_CRED.CNT : Fld := ⟨WEIR_CRED.addr, 0, 32⟩
/-- WEIR_CFG# (09_traffic_sluices.md): meter mode. -/
def WEIR_CFG.addr (n : Nat) : Nat := 0x4001F080 + 0x4 * n
def WEIR_CFG.MODE (n : Nat) : Fld := ⟨WEIR_CFG.addr n, 0, 2⟩
def WEIR_CFG.AWARE (n : Nat) : Fld := ⟨WEIR_CFG.addr n, 2, 1⟩
def WEIR_CFG.YACT (n : Nat) : Fld := ⟨WEIR_CFG.addr n, 4, 2⟩
def WEIR_CFG.RACT (n : Nat) : Fld := ⟨WEIR_CFG.addr n, 6, 2⟩
/-- WEIR_CIR# (09_traffic_sluices.md): rates. -/
def WEIR_CIR.addr (n : Nat) : Nat := 0x4001F100 + 0x4 * n
def WEIR_CIR.RATE (n : Nat) : Fld := ⟨WEIR_CIR.addr n, 0, 20⟩
/-- WEIR_PIR# (09_traffic_sluices.md): rates. -/
def WEIR_PIR.addr (n : Nat) : Nat := 0x4001F200 + 0x4 * n
def WEIR_PIR.RATE (n : Nat) : Fld := ⟨WEIR_PIR.addr n, 0, 20⟩
/-- WEIR_CBS# (09_traffic_sluices.md): bucket sizes. -/
def WEIR_CBS.addr (n : Nat) : Nat := 0x4001F180 + 0x4 * n
def WEIR_CBS.SIZE (n : Nat) : Fld := ⟨WEIR_CBS.addr n, 0, 16⟩
/-- WEIR_EBS# (09_traffic_sluices.md): bucket sizes. -/
def WEIR_EBS.addr (n : Nat) : Nat := 0x4001F280 + 0x4 * n
def WEIR_EBS.SIZE (n : Nat) : Fld := ⟨WEIR_EBS.addr n, 0, 16⟩
/-- WEIR_TC# (09_traffic_sluices.md): bucket fills. -/
def WEIR_TC.addr (n : Nat) : Nat := 0x4001F300 + 0x4 * n
def WEIR_TC.FILL (n : Nat) : Fld := ⟨WEIR_TC.addr n, 0, 16⟩
/-- WEIR_TE# (09_traffic_sluices.md): bucket fills. -/
def WEIR_TE.addr (n : Nat) : Nat := 0x4001F380 + 0x4 * n
def WEIR_TE.FILL (n : Nat) : Fld := ⟨WEIR_TE.addr n, 0, 16⟩
/-- SLU_CTRL (09_traffic_sluices.md). -/
def SLU_CTRL.addr : Nat := 0x40020004
def SLU_CTRL.EN : Fld := ⟨SLU_CTRL.addr, 0, 1⟩
def SLU_CTRL.SRST : Fld := ⟨SLU_CTRL.addr, 1, 1⟩
def SLU_CTRL.GMODE : Fld := ⟨SLU_CTRL.addr, 2, 2⟩
/-- SLU_STAT (09_traffic_sluices.md). -/
def SLU_STAT.addr : Nat := 0x40020008
def SLU_STAT.BUSY : Fld := ⟨SLU_STAT.addr, 0, 1⟩
def SLU_STAT.ERR : Fld := ⟨SLU_STAT.addr, 1, 1⟩
def SLU_STAT.GATES : Fld := ⟨SLU_STAT.addr, 2, 3⟩
def SLU_STAT.ENTRY : Fld := ⟨SLU_STAT.addr, 5, 5⟩
def SLU_STAT.PRE : Fld := ⟨SLU_STAT.addr, 10, 1⟩
/-- SLU_BASE_LO (09_traffic_sluices.md): cycle base, latch pair under R54. -/
def SLU_BASE_LO.addr : Nat := 0x40020040
def SLU_BASE_LO.NT : Fld := ⟨SLU_BASE_LO.addr, 0, 32⟩
/-- SLU_BASE_HI (09_traffic_sluices.md): cycle base, latch pair under R54. -/
def SLU_BASE_HI.addr : Nat := 0x40020044
def SLU_BASE_HI.NT : Fld := ⟨SLU_BASE_HI.addr, 0, 32⟩
/-- SLU_CYCLE (09_traffic_sluices.md). -/
def SLU_CYCLE.addr : Nat := 0x40020048
def SLU_CYCLE.CYCLE : Fld := ⟨SLU_CYCLE.addr, 0, 26⟩
/-- SLU_CFG (09_traffic_sluices.md). -/
def SLU_CFG.addr : Nat := 0x4002004C
def SLU_CFG.COUNT : Fld := ⟨SLU_CFG.addr, 0, 6⟩
def SLU_CFG.PRE : Fld := ⟨SLU_CFG.addr, 6, 3⟩
def SLU_CFG.GUARD : Fld := ⟨SLU_CFG.addr, 16, 16⟩
/-- SLU_CNT (09_traffic_sluices.md). -/
def SLU_CNT.addr : Nat := 0x40020050
def SLU_CNT.HELD : Fld := ⟨SLU_CNT.addr, 0, 16⟩
def SLU_CNT.CYCLES : Fld := ⟨SLU_CNT.addr, 16, 16⟩
/-- SLU_ENT# (09_traffic_sluices.md): gate list. -/
def SLU_ENT.addr (n : Nat) : Nat := 0x40020080 + 0x4 * n
def SLU_ENT.INTERVAL (n : Nat) : Fld := ⟨SLU_ENT.addr n, 0, 24⟩
def SLU_ENT.GATES (n : Nat) : Fld := ⟨SLU_ENT.addr n, 24, 3⟩
/-- DCA_CTRL (09_traffic_sluices.md). -/
def DCA_CTRL.addr : Nat := 0x4003E004
def DCA_CTRL.EN : Fld := ⟨DCA_CTRL.addr, 0, 1⟩
def DCA_CTRL.SRST : Fld := ⟨DCA_CTRL.addr, 1, 1⟩
def DCA_CTRL.COLD_FULL : Fld := ⟨DCA_CTRL.addr, 2, 1⟩
/-- DCA_STAT (09_traffic_sluices.md). -/
def DCA_STAT.addr : Nat := 0x4003E008
def DCA_STAT.BUSY : Fld := ⟨DCA_STAT.addr, 0, 1⟩
def DCA_STAT.ERR : Fld := ⟨DCA_STAT.addr, 1, 1⟩
def DCA_STAT.EXHAUST : Fld := ⟨DCA_STAT.addr, 2, 8⟩
/-- DCA_CNT (09_traffic_sluices.md). -/
def DCA_CNT.addr : Nat := 0x4003E040
def DCA_CNT.REFUSED : Fld := ⟨DCA_CNT.addr, 0, 16⟩
def DCA_CNT.ACK_REF : Fld := ⟨DCA_CNT.addr, 16, 8⟩
def DCA_CNT.CONTRA : Fld := ⟨DCA_CNT.addr, 24, 8⟩
/-- DCA_SBn_LO (09_traffic_sluices.md): range. -/
def DCA_SB_LO.addr (n : Nat) : Nat := 0x4003E080 + 0x20 * n
def DCA_SB_LO.FREQ (n : Nat) : Fld := ⟨DCA_SB_LO.addr n, 0, 27⟩
/-- DCA_SBn_HI (09_traffic_sluices.md): range. -/
def DCA_SB_HI.addr (n : Nat) : Nat := 0x4003E084 + 0x20 * n
def DCA_SB_HI.FREQ (n : Nat) : Fld := ⟨DCA_SB_HI.addr n, 0, 27⟩
/-- DCA_SBn_LIM (09_traffic_sluices.md). -/
def DCA_SB_LIM.addr (n : Nat) : Nat := 0x4003E088 + 0x20 * n
def DCA_SB_LIM.LIMIT (n : Nat) : Fld := ⟨DCA_SB_LIM.addr n, 0, 20⟩
def DCA_SB_LIM.EN (n : Nat) : Fld := ⟨DCA_SB_LIM.addr n, 31, 1⟩
/-- DCA_SBn_RSV (09_traffic_sluices.md). -/
def DCA_SB_RSV.addr (n : Nat) : Nat := 0x4003E08C + 0x20 * n
def DCA_SB_RSV.RSV_A (n : Nat) : Fld := ⟨DCA_SB_RSV.addr n, 0, 20⟩
/-- DCA_SBn_WIN (09_traffic_sluices.md). -/
def DCA_SB_WIN.addr (n : Nat) : Nat := 0x4003E090 + 0x20 * n
def DCA_SB_WIN.WIN (n : Nat) : Fld := ⟨DCA_SB_WIN.addr n, 0, 16⟩
def DCA_SB_WIN.CAP (n : Nat) : Fld := ⟨DCA_SB_WIN.addr n, 16, 8⟩
/-- DCA_SBn_DWELL (09_traffic_sluices.md). -/
def DCA_SB_DWELL.addr (n : Nat) : Nat := 0x4003E094 + 0x20 * n
def DCA_SB_DWELL.DWELL_MAX (n : Nat) : Fld := ⟨DCA_SB_DWELL.addr n, 0, 16⟩
def DCA_SB_DWELL.DWELL_WIN (n : Nat) : Fld := ⟨DCA_SB_DWELL.addr n, 16, 8⟩
def DCA_SB_DWELL.DW_EN (n : Nat) : Fld := ⟨DCA_SB_DWELL.addr n, 31, 1⟩
/-- DCA_SBn_USED (09_traffic_sluices.md). -/
def DCA_SB_USED.addr (n : Nat) : Nat := 0x4003E098 + 0x20 * n
def DCA_SB_USED.US (n : Nat) : Fld := ⟨DCA_SB_USED.addr n, 0, 32⟩
/-- DCA_SBn_RES (09_traffic_sluices.md). -/
def DCA_SB_RES.addr (n : Nat) : Nat := 0x4003E09C + 0x20 * n
def DCA_SB_RES.US (n : Nat) : Fld := ⟨DCA_SB_RES.addr n, 0, 32⟩
/-- NTU_CTRL (10_network_time.md): NTU control. -/
def NTU_CTRL.addr : Nat := 0x40021004
def NTU_CTRL.EN : Fld := ⟨NTU_CTRL.addr, 0, 1⟩
def NTU_CTRL.SRST : Fld := ⟨NTU_CTRL.addr, 1, 1⟩
def NTU_CTRL.DISC : Fld := ⟨NTU_CTRL.addr, 2, 1⟩
def NTU_CTRL.AUTO_STEP : Fld := ⟨NTU_CTRL.addr, 3, 1⟩
def NTU_CTRL.SLP_COMP : Fld := ⟨NTU_CTRL.addr, 4, 1⟩
/-- NTU_STAT (10_network_time.md): NTU status. -/
def NTU_STAT.addr : Nat := 0x40021008
def NTU_STAT.BUSY : Fld := ⟨NTU_STAT.addr, 0, 1⟩
def NTU_STAT.ERR : Fld := ⟨NTU_STAT.addr, 1, 1⟩
def NTU_STAT.SYNC : Fld := ⟨NTU_STAT.addr, 2, 1⟩
def NTU_STAT.HOLDOVER : Fld := ⟨NTU_STAT.addr, 3, 1⟩
def NTU_STAT.SLEWING : Fld := ⟨NTU_STAT.addr, 4, 1⟩
def NTU_STAT.STEP_PEND : Fld := ⟨NTU_STAT.addr, 5, 1⟩
def NTU_STAT.STEP_ADVISE : Fld := ⟨NTU_STAT.addr, 6, 1⟩
def NTU_STAT.RATE_CLAMP : Fld := ⟨NTU_STAT.addr, 7, 1⟩
def NTU_STAT.EPOCH_REFUSED : Fld := ⟨NTU_STAT.addr, 8, 1⟩
def NTU_STAT.SLP_UNCAL : Fld := ⟨NTU_STAT.addr, 9, 1⟩
def NTU_STAT.LATE_WAKE : Fld := ⟨NTU_STAT.addr, 10, 1⟩
def NTU_STAT.FRC_VOTE : Fld := ⟨NTU_STAT.addr, 24, 8⟩
/-- NTU_ERRINFO (10_network_time.md): last rejected sample. -/
def NTU_ERRINFO.addr : Nat := 0x40021020
def NTU_ERRINFO.D : Fld := ⟨NTU_ERRINFO.addr, 0, 16⟩
def NTU_ERRINFO.NBR : Fld := ⟨NTU_ERRINFO.addr, 16, 10⟩
def NTU_ERRINFO.SEL : Fld := ⟨NTU_ERRINFO.addr, 26, 2⟩
def NTU_ERRINFO.ACK : Fld := ⟨NTU_ERRINFO.addr, 28, 1⟩
/-- NTU_FRC_LO (10_network_time.md): latch pairs under R54. -/
def NTU_FRC_LO.addr : Nat := 0x40021040
def NTU_FRC_LO.VAL : Fld := ⟨NTU_FRC_LO.addr, 0, 32⟩
/-- NTU_FRC_HI (10_network_time.md): latch pairs under R54. -/
def NTU_FRC_HI.addr : Nat := 0x40021044
def NTU_FRC_HI.VAL : Fld := ⟨NTU_FRC_HI.addr, 0, 32⟩
/-- NTU_NT_LO (10_network_time.md): latch pairs under R54. -/
def NTU_NT_LO.addr : Nat := 0x40021048
def NTU_NT_LO.VAL : Fld := ⟨NTU_NT_LO.addr, 0, 32⟩
/-- NTU_NT_HI (10_network_time.md): latch pairs under R54. -/
def NTU_NT_HI.addr : Nat := 0x4002104C
def NTU_NT_HI.VAL : Fld := ⟨NTU_NT_HI.addr, 0, 32⟩
/-- NTU_OFFSET_LO (10_network_time.md): latch pairs. -/
def NTU_OFFSET_LO.addr : Nat := 0x40021050
def NTU_OFFSET_LO.VAL : Fld := ⟨NTU_OFFSET_LO.addr, 0, 32⟩
/-- NTU_OFFSET_HI (10_network_time.md): latch pairs. -/
def NTU_OFFSET_HI.addr : Nat := 0x40021054
def NTU_OFFSET_HI.VAL : Fld := ⟨NTU_OFFSET_HI.addr, 0, 32⟩
/-- NTU_ANCHOR_LO (10_network_time.md): latch pairs. -/
def NTU_ANCHOR_LO.addr : Nat := 0x40021058
def NTU_ANCHOR_LO.VAL : Fld := ⟨NTU_ANCHOR_LO.addr, 0, 32⟩
/-- NTU_ANCHOR_HI (10_network_time.md): latch pairs. -/
def NTU_ANCHOR_HI.addr : Nat := 0x4002105C
def NTU_ANCHOR_HI.VAL : Fld := ⟨NTU_ANCHOR_HI.addr, 0, 32⟩
/-- NTU_RATE (10_network_time.md). -/
def NTU_RATE.addr : Nat := 0x40021060
def NTU_RATE.RATE : Fld := ⟨NTU_RATE.addr, 0, 32⟩
/-- NTU_CFG (10_network_time.md). -/
def NTU_CFG.addr : Nat := 0x40021064
def NTU_CFG.SLEW_MAX : Fld := ⟨NTU_CFG.addr, 0, 9⟩
def NTU_CFG.FGAIN : Fld := ⟨NTU_CFG.addr, 12, 4⟩
def NTU_CFG.REJ_THR : Fld := ⟨NTU_CFG.addr, 16, 16⟩
/-- NTU_SRC (10_network_time.md). -/
def NTU_SRC.addr : Nat := 0x40021068
def NTU_SRC.SEL : Fld := ⟨NTU_SRC.addr, 0, 2⟩
def NTU_SRC.SRC_TO : Fld := ⟨NTU_SRC.addr, 8, 8⟩
def NTU_SRC.NBR : Fld := ⟨NTU_SRC.addr, 16, 10⟩
def NTU_SRC.NBR_V : Fld := ⟨NTU_SRC.addr, 31, 1⟩
/-- NTU_HOLD (10_network_time.md). -/
def NTU_HOLD.addr : Nat := 0x4002106C
def NTU_HOLD.ENTER : Fld := ⟨NTU_HOLD.addr, 0, 16⟩
def NTU_HOLD.MAX : Fld := ⟨NTU_HOLD.addr, 16, 16⟩
/-- NTU_HOLD_PPM (10_network_time.md). -/
def NTU_HOLD_PPM.addr : Nat := 0x40021070
def NTU_HOLD_PPM.PPM : Fld := ⟨NTU_HOLD_PPM.addr, 0, 16⟩
/-- NTU_UNC_NOW (10_network_time.md). -/
def NTU_UNC_NOW.addr : Nat := 0x40021074
def NTU_UNC_NOW.VAL : Fld := ⟨NTU_UNC_NOW.addr, 0, 32⟩
/-- NTU_PEND (10_network_time.md). -/
def NTU_PEND.addr : Nat := 0x40021078
def NTU_PEND.VAL : Fld := ⟨NTU_PEND.addr, 0, 32⟩
/-- NTU_SAMPLE (10_network_time.md). -/
def NTU_SAMPLE.addr : Nat := 0x4002107C
def NTU_SAMPLE.VAL : Fld := ⟨NTU_SAMPLE.addr, 0, 32⟩
/-- NTU_CORR_LO (10_network_time.md): correction accumulator, latch pair. -/
def NTU_CORR_LO.addr : Nat := 0x40021080
def NTU_CORR_LO.VAL : Fld := ⟨NTU_CORR_LO.addr, 0, 32⟩
/-- NTU_CORR_HI (10_network_time.md): correction accumulator, latch pair. -/
def NTU_CORR_HI.addr : Nat := 0x40021084
def NTU_CORR_HI.VAL : Fld := ⟨NTU_CORR_HI.addr, 0, 32⟩
/-- NTU_STEP_LO (10_network_time.md): step size, written low word first under R54. -/
def NTU_STEP_LO.addr : Nat := 0x40021088
def NTU_STEP_LO.DELTA : Fld := ⟨NTU_STEP_LO.addr, 0, 32⟩
/-- NTU_STEP_HI (10_network_time.md): step size, written low word first under R54. -/
def NTU_STEP_HI.addr : Nat := 0x4002108C
def NTU_STEP_HI.DELTA : Fld := ⟨NTU_STEP_HI.addr, 0, 32⟩
/-- NTU_CMD (10_network_time.md). -/
def NTU_CMD.addr : Nat := 0x40021090
def NTU_CMD.CMD : Fld := ⟨NTU_CMD.addr, 0, 3⟩
/-- NTU_FWCORR (10_network_time.md). -/
def NTU_FWCORR.addr : Nat := 0x40021094
def NTU_FWCORR.D : Fld := ⟨NTU_FWCORR.addr, 0, 32⟩
/-- NTU_EPOCH_LO (10_network_time.md): written low word first. -/
def NTU_EPOCH_LO.addr : Nat := 0x40021098
def NTU_EPOCH_LO.NT : Fld := ⟨NTU_EPOCH_LO.addr, 0, 32⟩
/-- NTU_EPOCH_HI (10_network_time.md): written low word first. -/
def NTU_EPOCH_HI.addr : Nat := 0x4002109C
def NTU_EPOCH_HI.NT : Fld := ⟨NTU_EPOCH_HI.addr, 0, 32⟩
/-- NTU_EXT (10_network_time.md). -/
def NTU_EXT.addr : Nat := 0x400210A0
def NTU_EXT.PERIOD : Fld := ⟨NTU_EXT.addr, 0, 16⟩
/-- NTU_LFCAL (10_network_time.md). -/
def NTU_LFCAL.addr : Nat := 0x400210A4
def NTU_LFCAL.COUNT : Fld := ⟨NTU_LFCAL.addr, 0, 27⟩
def NTU_LFCAL.VALID : Fld := ⟨NTU_LFCAL.addr, 27, 1⟩
/-- NTU_SLP_ERR (10_network_time.md): last handoff. -/
def NTU_SLP_ERR.addr : Nat := 0x400210A8
def NTU_SLP_ERR.VAL : Fld := ⟨NTU_SLP_ERR.addr, 0, 32⟩
/-- NTU_SLP_TICKS (10_network_time.md): last handoff. -/
def NTU_SLP_TICKS.addr : Nat := 0x400210AC
def NTU_SLP_TICKS.VAL : Fld := ⟨NTU_SLP_TICKS.addr, 0, 32⟩
/-- NTU_CNT (10_network_time.md). -/
def NTU_CNT.addr : Nat := 0x400210B0
def NTU_CNT.ACCEPTED : Fld := ⟨NTU_CNT.addr, 0, 16⟩
def NTU_CNT.REJECTED : Fld := ⟨NTU_CNT.addr, 16, 8⟩
def NTU_CNT.STEPS : Fld := ⟨NTU_CNT.addr, 24, 8⟩
/-- NTU_PULn_CFG (10_network_time.md). -/
def NTU_PUL_CFG.addr (n : Nat) : Nat := 0x400210C0 + 0x10 * n
def NTU_PUL_CFG.MODE (n : Nat) : Fld := ⟨NTU_PUL_CFG.addr n, 0, 2⟩
def NTU_PUL_CFG.POL (n : Nat) : Fld := ⟨NTU_PUL_CFG.addr n, 2, 1⟩
def NTU_PUL_CFG.LATE (n : Nat) : Fld := ⟨NTU_PUL_CFG.addr n, 3, 1⟩
def NTU_PUL_CFG.WIDTH (n : Nat) : Fld := ⟨NTU_PUL_CFG.addr n, 8, 16⟩
/-- NTU_PULn_T_LO (10_network_time.md): target, written low word first. -/
def NTU_PUL_T_LO.addr (n : Nat) : Nat := 0x400210C4 + 0x10 * n
def NTU_PUL_T_LO.NT (n : Nat) : Fld := ⟨NTU_PUL_T_LO.addr n, 0, 32⟩
/-- NTU_PULn_T_HI (10_network_time.md): target, written low word first. -/
def NTU_PUL_T_HI.addr (n : Nat) : Nat := 0x400210C8 + 0x10 * n
def NTU_PUL_T_HI.NT (n : Nat) : Fld := ⟨NTU_PUL_T_HI.addr n, 0, 32⟩
/-- NTU_PULn_PER (10_network_time.md). -/
def NTU_PUL_PER.addr (n : Nat) : Nat := 0x400210CC + 0x10 * n
def NTU_PUL_PER.PER (n : Nat) : Fld := ⟨NTU_PUL_PER.addr n, 0, 32⟩
/-- GMB_STAT (11_glade_metrology.md): Glade status. -/
def GMB_STAT.addr : Nat := 0x4003D008
def GMB_STAT.BUSY : Fld := ⟨GMB_STAT.addr, 0, 1⟩
def GMB_STAT.ERR : Fld := ⟨GMB_STAT.addr, 1, 1⟩
def GMB_STAT.RUN : Fld := ⟨GMB_STAT.addr, 2, 1⟩
def GMB_STAT.SEAL_OPEN : Fld := ⟨GMB_STAT.addr, 3, 1⟩
def GMB_STAT.TOKEN : Fld := ⟨GMB_STAT.addr, 4, 1⟩
def GMB_STAT.GRANT : Fld := ⟨GMB_STAT.addr, 5, 1⟩
def GMB_STAT.MAINT : Fld := ⟨GMB_STAT.addr, 6, 1⟩
def GMB_STAT.NO_IMAGE : Fld := ⟨GMB_STAT.addr, 7, 1⟩
def GMB_STAT.LOG_HW_FULL : Fld := ⟨GMB_STAT.addr, 8, 1⟩
/-- GMB_MB# (11_glade_metrology.md): mailbox. -/
def GMB_MB.addr (n : Nat) : Nat := 0x4003D040 + 0x4 * n
def GMB_MB.WORD (n : Nat) : Fld := ⟨GMB_MB.addr n, 0, 32⟩
/-- GMB_IDENT# (11_glade_metrology.md). -/
def GMB_IDENT.addr (n : Nat) : Nat := 0x4003D140 + 0x4 * n
def GMB_IDENT.VAL (n : Nat) : Fld := ⟨GMB_IDENT.addr n, 0, 32⟩
/-- GMB_FWVER (11_glade_metrology.md). -/
def GMB_FWVER.addr : Nat := 0x4003D160
def GMB_FWVER.VAL : Fld := ⟨GMB_FWVER.addr, 0, 32⟩
/-- GMB_CNT_SEAL (11_glade_metrology.md). -/
def GMB_CNT_SEAL.addr : Nat := 0x4003D164
def GMB_CNT_SEAL.CNT : Fld := ⟨GMB_CNT_SEAL.addr, 0, 32⟩
/-- GMB_CNT_MAINT (11_glade_metrology.md). -/
def GMB_CNT_MAINT.addr : Nat := 0x4003D168
def GMB_CNT_MAINT.CNT : Fld := ⟨GMB_CNT_MAINT.addr, 0, 32⟩
/-- GMB_CNT_FWCHG (11_glade_metrology.md). -/
def GMB_CNT_FWCHG.addr : Nat := 0x4003D16C
def GMB_CNT_FWCHG.CNT : Fld := ⟨GMB_CNT_FWCHG.addr, 0, 32⟩
/-- GMB_CNT_PWR (11_glade_metrology.md). -/
def GMB_CNT_PWR.addr : Nat := 0x4003D170
def GMB_CNT_PWR.CNT : Fld := ⟨GMB_CNT_PWR.addr, 0, 32⟩
/-- GMB_CNT_RESET (11_glade_metrology.md). -/
def GMB_CNT_RESET.addr : Nat := 0x4003D174
def GMB_CNT_RESET.CNT : Fld := ⟨GMB_CNT_RESET.addr, 0, 32⟩
/-- GMB_LOG_HEAD (11_glade_metrology.md). -/
def GMB_LOG_HEAD.addr : Nat := 0x4003D178
def GMB_LOG_HEAD.HW : Fld := ⟨GMB_LOG_HEAD.addr, 0, 9⟩
def GMB_LOG_HEAD.FW_NEXT : Fld := ⟨GMB_LOG_HEAD.addr, 16, 11⟩
def GMB_LOG_HEAD.FW_WRAP : Fld := ⟨GMB_LOG_HEAD.addr, 27, 1⟩
/-- GCORE_MBSRC (11_glade_metrology.md): publish. -/
def GCORE_MBSRC.addr : Nat := 0x50001040
def GCORE_MBSRC.ADDR : Fld := ⟨GCORE_MBSRC.addr, 0, 15⟩
/-- GCORE_ID# (11_glade_metrology.md). -/
def GCORE_ID.addr (n : Nat) : Nat := 0x50001044 + 0x4 * n
def GCORE_ID.VAL (n : Nat) : Fld := ⟨GCORE_ID.addr n, 0, 32⟩
/-- GCORE_GSEC (11_glade_metrology.md). -/
def GCORE_GSEC.addr : Nat := 0x50001064
def GCORE_GSEC.VAL : Fld := ⟨GCORE_GSEC.addr, 0, 32⟩
/-- GCORE_IEN (11_glade_metrology.md): line enables. -/
def GCORE_IEN.addr : Nat := 0x50001068
def GCORE_IEN.EN : Fld := ⟨GCORE_IEN.addr, 0, 16⟩
/-- GCORE_IPEND (11_glade_metrology.md): pending lines. -/
def GCORE_IPEND.addr : Nat := 0x5000106C
def GCORE_IPEND.PEND : Fld := ⟨GCORE_IPEND.addr, 0, 16⟩
/-- GCORE_ILVL (11_glade_metrology.md): line levels. -/
def GCORE_ILVL.addr : Nat := 0x50001070
def GCORE_ILVL.LVL0 : Fld := ⟨GCORE_ILVL.addr, 0, 2⟩
def GCORE_ILVL.LVL1 : Fld := ⟨GCORE_ILVL.addr, 2, 2⟩
def GCORE_ILVL.LVL2 : Fld := ⟨GCORE_ILVL.addr, 4, 2⟩
def GCORE_ILVL.LVL3 : Fld := ⟨GCORE_ILVL.addr, 6, 2⟩
def GCORE_ILVL.LVL4 : Fld := ⟨GCORE_ILVL.addr, 8, 2⟩
def GCORE_ILVL.LVL5 : Fld := ⟨GCORE_ILVL.addr, 10, 2⟩
def GCORE_ILVL.LVL6 : Fld := ⟨GCORE_ILVL.addr, 12, 2⟩
def GCORE_ILVL.LVL7 : Fld := ⟨GCORE_ILVL.addr, 14, 2⟩
def GCORE_ILVL.LVL8 : Fld := ⟨GCORE_ILVL.addr, 16, 2⟩
def GCORE_ILVL.LVL9 : Fld := ⟨GCORE_ILVL.addr, 18, 2⟩
def GCORE_ILVL.LVL10 : Fld := ⟨GCORE_ILVL.addr, 20, 2⟩
def GCORE_ILVL.LVL11 : Fld := ⟨GCORE_ILVL.addr, 22, 2⟩
def GCORE_ILVL.LVL12 : Fld := ⟨GCORE_ILVL.addr, 24, 2⟩
def GCORE_ILVL.LVL13 : Fld := ⟨GCORE_ILVL.addr, 26, 2⟩
def GCORE_ILVL.LVL14 : Fld := ⟨GCORE_ILVL.addr, 28, 2⟩
def GCORE_ILVL.LVL15 : Fld := ⟨GCORE_ILVL.addr, 30, 2⟩
/-- GCORE_IACT (11_glade_metrology.md): active lines. -/
def GCORE_IACT.addr : Nat := 0x50001074
def GCORE_IACT.ACT : Fld := ⟨GCORE_IACT.addr, 0, 16⟩
/-- GCORE_WDT_CFG (11_glade_metrology.md): Glade watchdog. -/
def GCORE_WDT_CFG.addr : Nat := 0x50001078
def GCORE_WDT_CFG.TO : Fld := ⟨GCORE_WDT_CFG.addr, 0, 8⟩
def GCORE_WDT_CFG.EN : Fld := ⟨GCORE_WDT_CFG.addr, 8, 1⟩
def GCORE_WDT_CFG.CNT : Fld := ⟨GCORE_WDT_CFG.addr, 16, 8⟩
/-- GCORE_WDT_KICK (11_glade_metrology.md). -/
def GCORE_WDT_KICK.addr : Nat := 0x5000107C
def GCORE_WDT_KICK.KEY : Fld := ⟨GCORE_WDT_KICK.addr, 0, 16⟩
/-- GCORE_RESET (11_glade_metrology.md). -/
def GCORE_RESET.addr : Nat := 0x50001080
def GCORE_RESET.KEY : Fld := ⟨GCORE_RESET.addr, 0, 16⟩
/-- GCORE_DSP_CFG (11_glade_metrology.md): display output. -/
def GCORE_DSP_CFG.addr : Nat := 0x50001084
def GCORE_DSP_CFG.DIV : Fld := ⟨GCORE_DSP_CFG.addr, 0, 4⟩
def GCORE_DSP_CFG.LEN : Fld := ⟨GCORE_DSP_CFG.addr, 8, 6⟩
def GCORE_DSP_CFG.BUSY : Fld := ⟨GCORE_DSP_CFG.addr, 16, 1⟩
def GCORE_DSP_CFG.OVF : Fld := ⟨GCORE_DSP_CFG.addr, 17, 1⟩
/-- GCORE_DSP_DATA (11_glade_metrology.md): display frame. -/
def GCORE_DSP_DATA.addr : Nat := 0x50001088
def GCORE_DSP_DATA.DATA : Fld := ⟨GCORE_DSP_DATA.addr, 0, 32⟩
/-- GPC_CFGn (11_glade_metrology.md): channel n configuration. -/
def GPC_CFG.addr (n : Nat) : Nat := 0x50002040 + 0x20 * n
def GPC_CFG.MODE (n : Nat) : Fld := ⟨GPC_CFG.addr n, 0, 3⟩
def GPC_CFG.FILT (n : Nat) : Fld := ⟨GPC_CFG.addr n, 4, 4⟩
def GPC_CFG.PRESC (n : Nat) : Fld := ⟨GPC_CFG.addr n, 8, 8⟩
def GPC_CFG.CAP_SEC (n : Nat) : Fld := ⟨GPC_CFG.addr n, 16, 1⟩
def GPC_CFG.CAPTURE (n : Nat) : Fld := ⟨GPC_CFG.addr n, 17, 1⟩
/-- GPC_CNTn_LO (11_glade_metrology.md). -/
def GPC_CNT_LO.addr (n : Nat) : Nat := 0x50002044 + 0x20 * n
def GPC_CNT_LO.VAL (n : Nat) : Fld := ⟨GPC_CNT_LO.addr n, 0, 32⟩
/-- GPC_CNTn_HI (11_glade_metrology.md). -/
def GPC_CNT_HI.addr (n : Nat) : Nat := 0x50002048 + 0x20 * n
def GPC_CNT_HI.VAL (n : Nat) : Fld := ⟨GPC_CNT_HI.addr n, 0, 32⟩
/-- GPC_CAPn_LO (11_glade_metrology.md). -/
def GPC_CAP_LO.addr (n : Nat) : Nat := 0x5000204C + 0x20 * n
def GPC_CAP_LO.VAL (n : Nat) : Fld := ⟨GPC_CAP_LO.addr n, 0, 32⟩
/-- GPC_CAPn_HI (11_glade_metrology.md). -/
def GPC_CAP_HI.addr (n : Nat) : Nat := 0x50002050 + 0x20 * n
def GPC_CAP_HI.VAL (n : Nat) : Fld := ⟨GPC_CAP_HI.addr n, 0, 32⟩
/-- GPC_STATn (11_glade_metrology.md). -/
def GPC_STAT.addr (n : Nat) : Nat := 0x50002054 + 0x20 * n
def GPC_STAT.VALID (n : Nat) : Fld := ⟨GPC_STAT.addr n, 0, 1⟩
def GPC_STAT.OVR (n : Nat) : Fld := ⟨GPC_STAT.addr n, 1, 1⟩
def GPC_STAT.PRE (n : Nat) : Fld := ⟨GPC_STAT.addr n, 2, 8⟩
def GPC_STAT.QERR (n : Nat) : Fld := ⟨GPC_STAT.addr n, 16, 16⟩
/-- GADC_CFG (11_glade_metrology.md). -/
def GADC_CFG.addr : Nat := 0x50003040
def GADC_CFG.INP : Fld := ⟨GADC_CFG.addr, 0, 2⟩
def GADC_CFG.OSR : Fld := ⟨GADC_CFG.addr, 4, 3⟩
def GADC_CFG.CONT : Fld := ⟨GADC_CFG.addr, 8, 1⟩
def GADC_CFG.START : Fld := ⟨GADC_CFG.addr, 9, 1⟩
/-- GADC_RES (11_glade_metrology.md). -/
def GADC_RES.addr : Nat := 0x50003044
def GADC_RES.DATA : Fld := ⟨GADC_RES.addr, 0, 16⟩
def GADC_RES.RDY : Fld := ⟨GADC_RES.addr, 16, 1⟩
/-- GLOG_APPEND# (11_glade_metrology.md). -/
def GLOG_APPEND.addr (n : Nat) : Nat := 0x50004040 + 0x4 * n
def GLOG_APPEND.VAL (n : Nat) : Fld := ⟨GLOG_APPEND.addr n, 0, 32⟩
/-- GLOG_STAT (11_glade_metrology.md). -/
def GLOG_STAT.addr : Nat := 0x50004008
def GLOG_STAT.BUSY : Fld := ⟨GLOG_STAT.addr, 0, 1⟩
def GLOG_STAT.ERR : Fld := ⟨GLOG_STAT.addr, 1, 1⟩
def GLOG_STAT.APP_REF : Fld := ⟨GLOG_STAT.addr, 2, 1⟩
/-- ICU_EN# (12_tanum_core.md): line enables. -/
def ICU_EN.addr (n : Nat) : Nat := 0xE0000000 + 0x4 * n
def ICU_EN.EN (n : Nat) : Fld := ⟨ICU_EN.addr n, 0, 32⟩
/-- ICU_PEND# (12_tanum_core.md): pending lines. -/
def ICU_PEND.addr (n : Nat) : Nat := 0xE000000C + 0x4 * n
def ICU_PEND.PEND (n : Nat) : Fld := ⟨ICU_PEND.addr n, 0, 32⟩
/-- ICU_SWP# (12_tanum_core.md): software pending. -/
def ICU_SWP.addr (n : Nat) : Nat := 0xE0000018 + 0x4 * n
def ICU_SWP.SWP (n : Nat) : Fld := ⟨ICU_SWP.addr n, 0, 32⟩
/-- ICU_ACT# (12_tanum_core.md): active lines. -/
def ICU_ACT.addr (n : Nat) : Nat := 0xE0000024 + 0x4 * n
def ICU_ACT.ACT (n : Nat) : Fld := ⟨ICU_ACT.addr n, 0, 32⟩
/-- ICU_LVL# (12_tanum_core.md): line levels. -/
def ICU_LVL.addr (n : Nat) : Nat := 0xE0000030 + 0x4 * n
def ICU_LVL.LVL0 (n : Nat) : Fld := ⟨ICU_LVL.addr n, 0, 3⟩
def ICU_LVL.LVL1 (n : Nat) : Fld := ⟨ICU_LVL.addr n, 4, 3⟩
def ICU_LVL.LVL2 (n : Nat) : Fld := ⟨ICU_LVL.addr n, 8, 3⟩
def ICU_LVL.LVL3 (n : Nat) : Fld := ⟨ICU_LVL.addr n, 12, 3⟩
def ICU_LVL.LVL4 (n : Nat) : Fld := ⟨ICU_LVL.addr n, 16, 3⟩
def ICU_LVL.LVL5 (n : Nat) : Fld := ⟨ICU_LVL.addr n, 20, 3⟩
def ICU_LVL.LVL6 (n : Nat) : Fld := ⟨ICU_LVL.addr n, 24, 3⟩
def ICU_LVL.LVL7 (n : Nat) : Fld := ⟨ICU_LVL.addr n, 28, 3⟩
/-- ICU_STAT (12_tanum_core.md). -/
def ICU_STAT.addr : Nat := 0xE0000060
def ICU_STAT.TOP : Fld := ⟨ICU_STAT.addr, 0, 7⟩
def ICU_STAT.TOPV : Fld := ⟨ICU_STAT.addr, 7, 1⟩
def ICU_STAT.TOPLVL : Fld := ⟨ICU_STAT.addr, 8, 3⟩
def ICU_STAT.DEPTH : Fld := ⟨ICU_STAT.addr, 16, 4⟩
/-- ICU_VBAR (12_tanum_core.md): vector table base. -/
def ICU_VBAR.addr : Nat := 0xE0000064
def ICU_VBAR.BASE : Fld := ⟨ICU_VBAR.addr, 9, 23⟩
/-- CORE_CTRL (12_tanum_core.md). -/
def CORE_CTRL.addr : Nat := 0xE0001000
def CORE_CTRL.HS : Fld := ⟨CORE_CTRL.addr, 0, 1⟩
/-- CORE_FAR (12_tanum_core.md): fault address. -/
def CORE_FAR.addr : Nat := 0xE0001004
def CORE_FAR.ADDR : Fld := ⟨CORE_FAR.addr, 0, 32⟩
/-- CORE_FINFO (12_tanum_core.md): fault detail. -/
def CORE_FINFO.addr : Nat := 0xE0001008
def CORE_FINFO.VEC : Fld := ⟨CORE_FINFO.addr, 0, 8⟩
def CORE_FINFO.WR : Fld := ⟨CORE_FINFO.addr, 8, 1⟩
def CORE_FINFO.USER : Fld := ⟨CORE_FINFO.addr, 9, 1⟩
def CORE_FINFO.SIZE : Fld := ⟨CORE_FINFO.addr, 10, 2⟩
def CORE_FINFO.REGION : Fld := ⟨CORE_FINFO.addr, 12, 4⟩
def CORE_FINFO.NOREG : Fld := ⟨CORE_FINFO.addr, 16, 1⟩
/-- MPU_CTRL (12_tanum_core.md). -/
def MPU_CTRL.addr : Nat := 0xE0002000
def MPU_CTRL.EN : Fld := ⟨MPU_CTRL.addr, 0, 1⟩
def MPU_CTRL.SUPBG : Fld := ⟨MPU_CTRL.addr, 1, 1⟩
/-- MPU_RSTARTn (12_tanum_core.md): region start. -/
def MPU_RSTART.addr (n : Nat) : Nat := 0xE0002040 + 0x10 * n
def MPU_RSTART.EN (n : Nat) : Fld := ⟨MPU_RSTART.addr n, 0, 1⟩
def MPU_RSTART.START (n : Nat) : Fld := ⟨MPU_RSTART.addr n, 5, 27⟩
/-- MPU_RENDn (12_tanum_core.md): region end. -/
def MPU_REND.addr (n : Nat) : Nat := 0xE0002044 + 0x10 * n
def MPU_REND.END (n : Nat) : Fld := ⟨MPU_REND.addr n, 5, 27⟩
/-- MPU_RPERMn (12_tanum_core.md): region permissions. -/
def MPU_RPERM.addr (n : Nat) : Nat := 0xE0002048 + 0x10 * n
def MPU_RPERM.SUPP (n : Nat) : Fld := ⟨MPU_RPERM.addr n, 0, 3⟩
def MPU_RPERM.USRP (n : Nat) : Fld := ⟨MPU_RPERM.addr n, 4, 3⟩
def MPU_RPERM.CACHE (n : Nat) : Fld := ⟨MPU_RPERM.addr n, 8, 1⟩
def MPU_RPERM.SECREQ (n : Nat) : Fld := ⟨MPU_RPERM.addr n, 9, 1⟩
/-- CACHE_CTRL (12_tanum_core.md). -/
def CACHE_CTRL.addr : Nat := 0xE0003000
def CACHE_CTRL.IEN : Fld := ⟨CACHE_CTRL.addr, 0, 1⟩
def CACHE_CTRL.DEN : Fld := ⟨CACHE_CTRL.addr, 1, 1⟩
def CACHE_CTRL.IINV : Fld := ⟨CACHE_CTRL.addr, 2, 1⟩
def CACHE_CTRL.DINV : Fld := ⟨CACHE_CTRL.addr, 3, 1⟩
/-- CACHE_INV (12_tanum_core.md). -/
def CACHE_INV.addr : Nat := 0xE0003004
def CACHE_INV.ADDR : Fld := ⟨CACHE_INV.addr, 5, 27⟩
/-- CACHE_STAT (12_tanum_core.md). -/
def CACHE_STAT.addr : Nat := 0xE0003008
def CACHE_STAT.BUSY : Fld := ⟨CACHE_STAT.addr, 0, 1⟩
def CACHE_STAT.PERR : Fld := ⟨CACHE_STAT.addr, 8, 8⟩
/-- FLC_CTRL (14_memory_flash.md): controller control. -/
def FLC_CTRL.addr : Nat := 0x40022004
def FLC_CTRL.EN : Fld := ⟨FLC_CTRL.addr, 0, 1⟩
def FLC_CTRL.SRST : Fld := ⟨FLC_CTRL.addr, 1, 1⟩
/-- FLC_STAT (14_memory_flash.md): controller status. -/
def FLC_STAT.addr : Nat := 0x40022008
def FLC_STAT.BUSY : Fld := ⟨FLC_STAT.addr, 0, 1⟩
def FLC_STAT.ERR : Fld := ⟨FLC_STAT.addr, 1, 1⟩
def FLC_STAT.SUSP : Fld := ⟨FLC_STAT.addr, 2, 1⟩
def FLC_STAT.SUSP_HIT : Fld := ⟨FLC_STAT.addr, 3, 1⟩
def FLC_STAT.PROG_FAIL : Fld := ⟨FLC_STAT.addr, 4, 1⟩
def FLC_STAT.ERASE_FAIL : Fld := ⟨FLC_STAT.addr, 5, 1⟩
def FLC_STAT.WEAR : Fld := ⟨FLC_STAT.addr, 6, 1⟩
def FLC_STAT.UNCORR : Fld := ⟨FLC_STAT.addr, 7, 1⟩
def FLC_STAT.REFUSED : Fld := ⟨FLC_STAT.addr, 8, 1⟩
def FLC_STAT.EN_REFUSED : Fld := ⟨FLC_STAT.addr, 9, 1⟩
def FLC_STAT.KEY_LOCK : Fld := ⟨FLC_STAT.addr, 10, 1⟩
def FLC_STAT.CAUSE : Fld := ⟨FLC_STAT.addr, 11, 4⟩
def FLC_STAT.OP : Fld := ⟨FLC_STAT.addr, 15, 3⟩
/-- FLC_ERRINFO (14_memory_flash.md): last error. -/
def FLC_ERRINFO.addr : Nat := 0x40022020
def FLC_ERRINFO.ADDR : Fld := ⟨FLC_ERRINFO.addr, 0, 23⟩
def FLC_ERRINFO.KIND : Fld := ⟨FLC_ERRINFO.addr, 24, 3⟩
/-- FLC_KEY (14_memory_flash.md): command sequence. -/
def FLC_KEY.addr : Nat := 0x40022040
def FLC_KEY.KEY : Fld := ⟨FLC_KEY.addr, 0, 16⟩
/-- FLC_CMD (14_memory_flash.md): command sequence. -/
def FLC_CMD.addr : Nat := 0x40022044
def FLC_CMD.CMD : Fld := ⟨FLC_CMD.addr, 0, 4⟩
/-- FLC_ADDR (14_memory_flash.md): command sequence. -/
def FLC_ADDR.addr : Nat := 0x40022048
def FLC_ADDR.ADDR : Fld := ⟨FLC_ADDR.addr, 0, 23⟩
/-- FLC_DATA (14_memory_flash.md): command sequence. -/
def FLC_DATA.addr : Nat := 0x4002204C
def FLC_DATA.DATA : Fld := ⟨FLC_DATA.addr, 0, 32⟩
/-- FLC_CFG (14_memory_flash.md). -/
def FLC_CFG.addr : Nat := 0x40022050
def FLC_CFG.WEAR_PULSES : Fld := ⟨FLC_CFG.addr, 0, 5⟩
/-- FLC_MODE_LO (14_memory_flash.md): block modes. -/
def FLC_MODE_LO.addr : Nat := 0x40022054
def FLC_MODE_LO.SLC : Fld := ⟨FLC_MODE_LO.addr, 0, 32⟩
/-- FLC_MODE_HI (14_memory_flash.md): block modes. -/
def FLC_MODE_HI.addr : Nat := 0x40022058
def FLC_MODE_HI.SLC : Fld := ⟨FLC_MODE_HI.addr, 0, 32⟩
/-- FLC_WP_LO (14_memory_flash.md): write protection. -/
def FLC_WP_LO.addr : Nat := 0x4002205C
def FLC_WP_LO.WP : Fld := ⟨FLC_WP_LO.addr, 0, 32⟩
/-- FLC_WP_HI (14_memory_flash.md): write protection. -/
def FLC_WP_HI.addr : Nat := 0x40022060
def FLC_WP_HI.WP : Fld := ⟨FLC_WP_HI.addr, 0, 32⟩
/-- FLC_OPMARK (14_memory_flash.md): operation marker. -/
def FLC_OPMARK.addr : Nat := 0x40022064
def FLC_OPMARK.OP : Fld := ⟨FLC_OPMARK.addr, 0, 3⟩
def FLC_OPMARK.BLOCK : Fld := ⟨FLC_OPMARK.addr, 3, 6⟩
def FLC_OPMARK.PAGE : Fld := ⟨FLC_OPMARK.addr, 9, 6⟩
def FLC_OPMARK.DONE : Fld := ⟨FLC_OPMARK.addr, 15, 1⟩
def FLC_OPMARK.VALID : Fld := ⟨FLC_OPMARK.addr, 16, 1⟩
/-- FLC_MARGIN (14_memory_flash.md): last margin read. -/
def FLC_MARGIN.addr : Nat := 0x40022068
def FLC_MARGIN.CORR : Fld := ⟨FLC_MARGIN.addr, 0, 9⟩
def FLC_MARGIN.UNC : Fld := ⟨FLC_MARGIN.addr, 9, 1⟩
def FLC_MARGIN.LEVEL : Fld := ⟨FLC_MARGIN.addr, 10, 2⟩
/-- FLC_CBSEL (14_memory_flash.md): corrected bits per block. -/
def FLC_CBSEL.addr : Nat := 0x4002206C
def FLC_CBSEL.BLOCK : Fld := ⟨FLC_CBSEL.addr, 0, 6⟩
/-- FLC_CBCNT (14_memory_flash.md): corrected bits per block. -/
def FLC_CBCNT.addr : Nat := 0x40022070
def FLC_CBCNT.TOTAL : Fld := ⟨FLC_CBCNT.addr, 0, 16⟩
def FLC_CBCNT.MAX : Fld := ⟨FLC_CBCNT.addr, 16, 2⟩
/-- FLC_LASTPULSE (14_memory_flash.md). -/
def FLC_LASTPULSE.addr : Nat := 0x40022074
def FLC_LASTPULSE.PULSES : Fld := ⟨FLC_LASTPULSE.addr, 0, 5⟩
/-- DMA_CTRL (14_memory_flash.md). -/
def DMA_CTRL.addr : Nat := 0x4003C004
def DMA_CTRL.EN : Fld := ⟨DMA_CTRL.addr, 0, 1⟩
def DMA_CTRL.SRST : Fld := ⟨DMA_CTRL.addr, 1, 1⟩
/-- DMA_STAT (14_memory_flash.md). -/
def DMA_STAT.addr : Nat := 0x4003C008
def DMA_STAT.BUSY : Fld := ⟨DMA_STAT.addr, 0, 1⟩
def DMA_STAT.ERR : Fld := ⟨DMA_STAT.addr, 1, 1⟩
def DMA_STAT.ACT : Fld := ⟨DMA_STAT.addr, 8, 8⟩
/-- DMA_SRCn (14_memory_flash.md). -/
def DMA_SRCn.addr (n : Nat) : Nat := 0x4003C080 + 0x20 * n
def DMA_SRCn.ADDR (n : Nat) : Fld := ⟨DMA_SRCn.addr n, 0, 32⟩
/-- DMA_DSTn (14_memory_flash.md). -/
def DMA_DSTn.addr (n : Nat) : Nat := 0x4003C084 + 0x20 * n
def DMA_DSTn.ADDR (n : Nat) : Fld := ⟨DMA_DSTn.addr n, 0, 32⟩
/-- DMA_CNTn (14_memory_flash.md). -/
def DMA_CNTn.addr (n : Nat) : Nat := 0x4003C088 + 0x20 * n
def DMA_CNTn.CNT (n : Nat) : Fld := ⟨DMA_CNTn.addr n, 0, 16⟩
/-- DMA_CFGn (14_memory_flash.md). -/
def DMA_CFGn.addr (n : Nat) : Nat := 0x4003C08C + 0x20 * n
def DMA_CFGn.EN (n : Nat) : Fld := ⟨DMA_CFGn.addr n, 0, 1⟩
def DMA_CFGn.SIZE (n : Nat) : Fld := ⟨DMA_CFGn.addr n, 1, 2⟩
def DMA_CFGn.SINC (n : Nat) : Fld := ⟨DMA_CFGn.addr n, 3, 1⟩
def DMA_CFGn.DINC (n : Nat) : Fld := ⟨DMA_CFGn.addr n, 4, 1⟩
def DMA_CFGn.FREE (n : Nat) : Fld := ⟨DMA_CFGn.addr n, 5, 1⟩
def DMA_CFGn.PRIO (n : Nat) : Fld := ⟨DMA_CFGn.addr n, 6, 2⟩
def DMA_CFGn.BURST (n : Nat) : Fld := ⟨DMA_CFGn.addr n, 8, 8⟩
/-- DMA_STATn (14_memory_flash.md). -/
def DMA_STATn.addr (n : Nat) : Nat := 0x4003C090 + 0x20 * n
def DMA_STATn.ACT (n : Nat) : Fld := ⟨DMA_STATn.addr n, 0, 1⟩
def DMA_STATn.ERR (n : Nat) : Fld := ⟨DMA_STATn.addr n, 1, 1⟩
def DMA_STATn.CAUSE (n : Nat) : Fld := ⟨DMA_STATn.addr n, 2, 2⟩
def DMA_STATn.DONE (n : Nat) : Fld := ⟨DMA_STATn.addr n, 4, 1⟩
def DMA_STATn.PENDREQ (n : Nat) : Fld := ⟨DMA_STATn.addr n, 8, 8⟩
/-- DMA_ERRADDRn (14_memory_flash.md). -/
def DMA_ERRADDRn.addr (n : Nat) : Nat := 0x4003C094 + 0x20 * n
def DMA_ERRADDRn.ADDR (n : Nat) : Fld := ⟨DMA_ERRADDRn.addr n, 0, 32⟩
/-- SYS_MEM_ECC (14_memory_flash.md): ECC counters. -/
def SYS_MEM_ECC.addr : Nat := 0x40000100
def SYS_MEM_ECC.SRAM_CE : Fld := ⟨SYS_MEM_ECC.addr, 0, 8⟩
def SYS_MEM_ECC.SRAM_UE : Fld := ⟨SYS_MEM_ECC.addr, 8, 8⟩
def SYS_MEM_ECC.RRAM_CE : Fld := ⟨SYS_MEM_ECC.addr, 16, 8⟩
def SYS_MEM_ECC.RRAM_UE : Fld := ⟨SYS_MEM_ECC.addr, 24, 8⟩
/-- SYS_MEM_ERRADDR (14_memory_flash.md). -/
def SYS_MEM_ERRADDR.addr : Nat := 0x40000104
def SYS_MEM_ERRADDR.ADDR : Fld := ⟨SYS_MEM_ERRADDR.addr, 0, 32⟩
/-- SYS_SRAM_USE (14_memory_flash.md). -/
def SYS_SRAM_USE.addr : Nat := 0x40000108
def SYS_SRAM_USE.USE : Fld := ⟨SYS_SRAM_USE.addr, 0, 24⟩
/-- CIPH_CTRL (15_cipher.md): engine control. -/
def CIPH_CTRL.addr : Nat := 0x40023004
def CIPH_CTRL.EN : Fld := ⟨CIPH_CTRL.addr, 0, 1⟩
def CIPH_CTRL.SRST : Fld := ⟨CIPH_CTRL.addr, 1, 1⟩
/-- CIPH_STAT (15_cipher.md): engine status. -/
def CIPH_STAT.addr : Nat := 0x40023008
def CIPH_STAT.BUSY : Fld := ⟨CIPH_STAT.addr, 0, 1⟩
def CIPH_STAT.ERR : Fld := ⟨CIPH_STAT.addr, 1, 1⟩
def CIPH_STAT.KEY_REFUSED : Fld := ⟨CIPH_STAT.addr, 2, 1⟩
def CIPH_STAT.FC_REFUSED : Fld := ⟨CIPH_STAT.addr, 3, 1⟩
def CIPH_STAT.ANY_EXH : Fld := ⟨CIPH_STAT.addr, 4, 1⟩
/-- CIPH_ERRINFO (15_cipher.md): last refused key command. -/
def CIPH_ERRINFO.addr : Nat := 0x40023020
def CIPH_ERRINFO.SLOT : Fld := ⟨CIPH_ERRINFO.addr, 0, 5⟩
def CIPH_ERRINFO.CAUSE : Fld := ⟨CIPH_ERRINFO.addr, 8, 3⟩
/-- CIPH_KEY_IDX (15_cipher.md): slot selector. -/
def CIPH_KEY_IDX.addr : Nat := 0x40023040
def CIPH_KEY_IDX.SLOT : Fld := ⟨CIPH_KEY_IDX.addr, 0, 5⟩
/-- CIPH_KEY_W# (15_cipher.md): staged key. -/
def CIPH_KEY_W.addr (n : Nat) : Nat := 0x40023044 + 0x4 * n
def CIPH_KEY_W.KEY (n : Nat) : Fld := ⟨CIPH_KEY_W.addr n, 0, 32⟩
/-- CIPH_KEY_ATTR (15_cipher.md): staged attributes. -/
def CIPH_KEY_ATTR.addr : Nat := 0x40023064
def CIPH_KEY_ATTR.SIZE : Fld := ⟨CIPH_KEY_ATTR.addr, 0, 1⟩
def CIPH_KEY_ATTR.RAD : Fld := ⟨CIPH_KEY_ATTR.addr, 1, 1⟩
def CIPH_KEY_ATTR.UPD : Fld := ⟨CIPH_KEY_ATTR.addr, 2, 1⟩
def CIPH_KEY_ATTR.DRV : Fld := ⟨CIPH_KEY_ATTR.addr, 3, 1⟩
def CIPH_KEY_ATTR.SECK : Fld := ⟨CIPH_KEY_ATTR.addr, 4, 1⟩
def CIPH_KEY_ATTR.PGMASK : Fld := ⟨CIPH_KEY_ATTR.addr, 8, 8⟩
/-- CIPH_KEY_LIMIT (15_cipher.md): staged limit and counter. -/
def CIPH_KEY_LIMIT.addr : Nat := 0x40023068
def CIPH_KEY_LIMIT.VAL : Fld := ⟨CIPH_KEY_LIMIT.addr, 0, 32⟩
/-- CIPH_KEY_FC (15_cipher.md): staged limit and counter. -/
def CIPH_KEY_FC.addr : Nat := 0x4002306C
def CIPH_KEY_FC.VAL : Fld := ⟨CIPH_KEY_FC.addr, 0, 32⟩
/-- CIPH_KEY_CMD (15_cipher.md): slot command. -/
def CIPH_KEY_CMD.addr : Nat := 0x40023070
def CIPH_KEY_CMD.CMD : Fld := ⟨CIPH_KEY_CMD.addr, 0, 3⟩
/-- CIPH_KEY_STAT (15_cipher.md): selected slot. -/
def CIPH_KEY_STAT.addr : Nat := 0x40023074
def CIPH_KEY_STAT.VALID : Fld := ⟨CIPH_KEY_STAT.addr, 0, 1⟩
def CIPH_KEY_STAT.EXHAUSTED : Fld := ⟨CIPH_KEY_STAT.addr, 1, 1⟩
def CIPH_KEY_STAT.SIZE : Fld := ⟨CIPH_KEY_STAT.addr, 2, 1⟩
/-- CIPH_KEY_USES (15_cipher.md): selected slot. -/
def CIPH_KEY_USES.addr : Nat := 0x40023078
def CIPH_KEY_USES.VAL : Fld := ⟨CIPH_KEY_USES.addr, 0, 32⟩
/-- CIPH_KEY_FCNOW (15_cipher.md): selected slot. -/
def CIPH_KEY_FCNOW.addr : Nat := 0x4002307C
def CIPH_KEY_FCNOW.VAL : Fld := ⟨CIPH_KEY_FCNOW.addr, 0, 32⟩
/-- CIPH_VALID (15_cipher.md): all slots. -/
def CIPH_VALID.addr : Nat := 0x40023080
def CIPH_VALID.SLOTS : Fld := ⟨CIPH_VALID.addr, 0, 32⟩
/-- CIPH_EXH (15_cipher.md): all slots. -/
def CIPH_EXH.addr : Nat := 0x40023084
def CIPH_EXH.SLOTS : Fld := ⟨CIPH_EXH.addr, 0, 32⟩
/-- CIPH_CNT (15_cipher.md): engine counters. -/
def CIPH_CNT.addr : Nat := 0x40023088
def CIPH_CNT.ACK_NOKEY : Fld := ⟨CIPH_CNT.addr, 0, 8⟩
def CIPH_CNT.EXH_EV : Fld := ⟨CIPH_CNT.addr, 8, 8⟩
def CIPH_CNT.DERIVED : Fld := ⟨CIPH_CNT.addr, 16, 8⟩
/-- CIPUn_CTRL (15_cipher.md): page control. -/
def CIPU_CTRL.addr (n : Nat) : Nat := 0x40024004 + 0x1000 * n
def CIPU_CTRL.EN (n : Nat) : Fld := ⟨CIPU_CTRL.addr n, 0, 1⟩
def CIPU_CTRL.SRST (n : Nat) : Fld := ⟨CIPU_CTRL.addr n, 1, 1⟩
/-- CIPUn_STAT (15_cipher.md): page status. -/
def CIPU_STAT.addr (n : Nat) : Nat := 0x40024008 + 0x1000 * n
def CIPU_STAT.BUSY (n : Nat) : Fld := ⟨CIPU_STAT.addr n, 0, 1⟩
def CIPU_STAT.ERR (n : Nat) : Fld := ⟨CIPU_STAT.addr n, 1, 1⟩
def CIPU_STAT.STATE (n : Nat) : Fld := ⟨CIPU_STAT.addr n, 2, 3⟩
def CIPU_STAT.AUTH_FAIL (n : Nat) : Fld := ⟨CIPU_STAT.addr n, 5, 1⟩
def CIPU_STAT.RD_EMPTY (n : Nat) : Fld := ⟨CIPU_STAT.addr n, 6, 1⟩
def CIPU_STAT.OVERFEED (n : Nat) : Fld := ⟨CIPU_STAT.addr n, 7, 1⟩
def CIPU_STAT.DIN_FREE (n : Nat) : Fld := ⟨CIPU_STAT.addr n, 8, 4⟩
def CIPU_STAT.DOUT_AVL (n : Nat) : Fld := ⟨CIPU_STAT.addr n, 12, 4⟩
/-- CIPUn_ERRINFO (15_cipher.md). -/
def CIPU_ERRINFO.addr (n : Nat) : Nat := 0x40024020 + 0x1000 * n
def CIPU_ERRINFO.CAUSE (n : Nat) : Fld := ⟨CIPU_ERRINFO.addr n, 0, 4⟩
/-- CIPUn_CFG (15_cipher.md): job configuration. -/
def CIPU_CFG.addr (n : Nat) : Nat := 0x40024040 + 0x1000 * n
def CIPU_CFG.MODE (n : Nat) : Fld := ⟨CIPU_CFG.addr n, 0, 4⟩
def CIPU_CFG.DEC (n : Nat) : Fld := ⟨CIPU_CFG.addr n, 4, 1⟩
def CIPU_CFG.CHK (n : Nat) : Fld := ⟨CIPU_CFG.addr n, 5, 1⟩
def CIPU_CFG.DERIVE (n : Nat) : Fld := ⟨CIPU_CFG.addr n, 6, 1⟩
def CIPU_CFG.KEY (n : Nat) : Fld := ⟨CIPU_CFG.addr n, 8, 5⟩
def CIPU_CFG.TAGLEN (n : Nat) : Fld := ⟨CIPU_CFG.addr n, 16, 5⟩
def CIPU_CFG.DSLOT (n : Nat) : Fld := ⟨CIPU_CFG.addr n, 24, 5⟩
/-- CIPUn_ALEN (15_cipher.md): lengths. -/
def CIPU_ALEN.addr (n : Nat) : Nat := 0x40024044 + 0x1000 * n
def CIPU_ALEN.LEN (n : Nat) : Fld := ⟨CIPU_ALEN.addr n, 0, 21⟩
/-- CIPUn_MLEN (15_cipher.md): lengths. -/
def CIPU_MLEN.addr (n : Nat) : Nat := 0x40024048 + 0x1000 * n
def CIPU_MLEN.LEN (n : Nat) : Fld := ⟨CIPU_MLEN.addr n, 0, 32⟩
/-- CIPUn_IV# (15_cipher.md): IV or nonce. -/
def CIPU_IV.addr (n k : Nat) : Nat := 0x4002404C + 0x1000 * n + 0x4 * k
def CIPU_IV.IV (n k : Nat) : Fld := ⟨CIPU_IV.addr n k, 0, 32⟩
/-- CIPUn_CMD (15_cipher.md). -/
def CIPU_CMD.addr (n : Nat) : Nat := 0x4002405C + 0x1000 * n
def CIPU_CMD.CMD (n : Nat) : Fld := ⟨CIPU_CMD.addr n, 0, 2⟩
/-- CIPUn_DIN (15_cipher.md): data. -/
def CIPU_DIN.addr (n : Nat) : Nat := 0x40024060 + 0x1000 * n
def CIPU_DIN.DATA (n : Nat) : Fld := ⟨CIPU_DIN.addr n, 0, 32⟩
/-- CIPUn_DOUT (15_cipher.md): data. -/
def CIPU_DOUT.addr (n : Nat) : Nat := 0x40024064 + 0x1000 * n
def CIPU_DOUT.DATA (n : Nat) : Fld := ⟨CIPU_DOUT.addr n, 0, 32⟩
/-- CIPUn_TAG# (15_cipher.md): tag, MAC or digest. -/
def CIPU_TAG.addr (n k : Nat) : Nat := 0x40024068 + 0x1000 * n + 0x4 * k
def CIPU_TAG.TAG (n k : Nat) : Fld := ⟨CIPU_TAG.addr n k, 0, 32⟩
/-- CIPUn_CNT (15_cipher.md). -/
def CIPU_CNT.addr (n : Nat) : Nat := 0x40024088 + 0x1000 * n
def CIPU_CNT.JOBS (n : Nat) : Fld := ⟨CIPU_CNT.addr n, 0, 16⟩
def CIPU_CNT.REFUSED (n : Nat) : Fld := ⟨CIPU_CNT.addr n, 16, 16⟩
/-- UPD_CTRL (16_field_update.md): engine control. -/
def UPD_CTRL.addr : Nat := 0x4002C004
def UPD_CTRL.EN : Fld := ⟨UPD_CTRL.addr, 0, 1⟩
def UPD_CTRL.SRST : Fld := ⟨UPD_CTRL.addr, 1, 1⟩
/-- UPD_STAT (16_field_update.md): engine status. -/
def UPD_STAT.addr : Nat := 0x4002C008
def UPD_STAT.BUSY : Fld := ⟨UPD_STAT.addr, 0, 1⟩
def UPD_STAT.ERR : Fld := ⟨UPD_STAT.addr, 1, 1⟩
def UPD_STAT.STATE : Fld := ⟨UPD_STAT.addr, 2, 3⟩
def UPD_STAT.REFUSED : Fld := ⟨UPD_STAT.addr, 5, 1⟩
def UPD_STAT.MOTION : Fld := ⟨UPD_STAT.addr, 6, 1⟩
def UPD_STAT.OLOCK : Fld := ⟨UPD_STAT.addr, 7, 1⟩
def UPD_STAT.SEG : Fld := ⟨UPD_STAT.addr, 8, 5⟩
/-- UPD_ERRINFO (16_field_update.md). -/
def UPD_ERRINFO.addr : Nat := 0x4002C020
def UPD_ERRINFO.CAUSE : Fld := ⟨UPD_ERRINFO.addr, 0, 4⟩
def UPD_ERRINFO.SEG : Fld := ⟨UPD_ERRINFO.addr, 4, 5⟩
/-- UPD_PKG (16_field_update.md): package address. -/
def UPD_PKG.addr : Nat := 0x4002C040
def UPD_PKG.ADDR : Fld := ⟨UPD_PKG.addr, 0, 32⟩
/-- UPD_CFG (16_field_update.md). -/
def UPD_CFG.addr : Nat := 0x4002C044
def UPD_CFG.KEY : Fld := ⟨UPD_CFG.addr, 0, 5⟩
def UPD_CFG.CFGBLK : Fld := ⟨UPD_CFG.addr, 8, 6⟩
def UPD_CFG.JBLK : Fld := ⟨UPD_CFG.addr, 16, 6⟩
def UPD_CFG.MERGE : Fld := ⟨UPD_CFG.addr, 24, 1⟩
/-- UPD_GATE (16_field_update.md). -/
def UPD_GATE.addr : Nat := 0x4002C048
def UPD_GATE.VMIN : Fld := ⟨UPD_GATE.addr, 0, 12⟩
def UPD_GATE.LOAD : Fld := ⟨UPD_GATE.addr, 16, 5⟩
def UPD_GATE.MOT_EN : Fld := ⟨UPD_GATE.addr, 24, 1⟩
def UPD_GATE.MOT_POL : Fld := ⟨UPD_GATE.addr, 25, 1⟩
/-- UPD_VLAST (16_field_update.md). -/
def UPD_VLAST.addr : Nat := 0x4002C04C
def UPD_VLAST.MV : Fld := ⟨UPD_VLAST.addr, 0, 12⟩
/-- UPD_CMD (16_field_update.md). -/
def UPD_CMD.addr : Nat := 0x4002C050
def UPD_CMD.CMD : Fld := ⟨UPD_CMD.addr, 0, 3⟩
/-- UPD_SLOT (16_field_update.md): governing record. -/
def UPD_SLOT.addr : Nat := 0x4002C054
def UPD_SLOT.REC : Fld := ⟨UPD_SLOT.addr, 0, 14⟩
/-- UPD_PROG (16_field_update.md). -/
def UPD_PROG.addr : Nat := 0x4002C058
def UPD_PROG.BYTES : Fld := ⟨UPD_PROG.addr, 0, 32⟩
/-- TMRn_CTRL (17_timers_rtc.md): timer control. -/
def TMR_CTRL.addr (n : Nat) : Nat := 0x4002D004 + 0x1000 * n
def TMR_CTRL.EN (n : Nat) : Fld := ⟨TMR_CTRL.addr n, 0, 1⟩
def TMR_CTRL.SRST (n : Nat) : Fld := ⟨TMR_CTRL.addr n, 1, 1⟩
/-- TMRn_STAT (17_timers_rtc.md): timer status. -/
def TMR_STAT.addr (n : Nat) : Nat := 0x4002D008 + 0x1000 * n
def TMR_STAT.BUSY (n : Nat) : Fld := ⟨TMR_STAT.addr n, 0, 1⟩
def TMR_STAT.ERR (n : Nat) : Fld := ⟨TMR_STAT.addr n, 1, 1⟩
def TMR_STAT.CHAIN_INERT (n : Nat) : Fld := ⟨TMR_STAT.addr n, 2, 1⟩
def TMR_STAT.ARMED (n : Nat) : Fld := ⟨TMR_STAT.addr n, 4, 4⟩
def TMR_STAT.VALID (n : Nat) : Fld := ⟨TMR_STAT.addr n, 8, 4⟩
def TMR_STAT.OVR (n : Nat) : Fld := ⟨TMR_STAT.addr n, 12, 4⟩
/-- TMRn_COUNT (17_timers_rtc.md): counter. -/
def TMR_COUNT.addr (n : Nat) : Nat := 0x4002D040 + 0x1000 * n
def TMR_COUNT.COUNT (n : Nat) : Fld := ⟨TMR_COUNT.addr n, 0, 32⟩
/-- TMRn_RELOAD (17_timers_rtc.md): period. -/
def TMR_RELOAD.addr (n : Nat) : Nat := 0x4002D044 + 0x1000 * n
def TMR_RELOAD.RELOAD (n : Nat) : Fld := ⟨TMR_RELOAD.addr n, 0, 32⟩
/-- TMRn_CFG (17_timers_rtc.md): clock. -/
def TMR_CFG.addr (n : Nat) : Nat := 0x4002D048 + 0x1000 * n
def TMR_CFG.CLK (n : Nat) : Fld := ⟨TMR_CFG.addr n, 0, 2⟩
def TMR_CFG.PSC (n : Nat) : Fld := ⟨TMR_CFG.addr n, 8, 8⟩
def TMR_CFG.DBGSTOP (n : Nat) : Fld := ⟨TMR_CFG.addr n, 16, 1⟩
/-- TMRn_CHAIN (17_timers_rtc.md): direct action. -/
def TMR_CHAIN.addr (n : Nat) : Nat := 0x4002D04C + 0x1000 * n
def TMR_CHAIN.LINK (n : Nat) : Fld := ⟨TMR_CHAIN.addr n, 0, 3⟩
def TMR_CHAIN.SRC (n : Nat) : Fld := ⟨TMR_CHAIN.addr n, 3, 3⟩
def TMR_CHAIN.ACT (n : Nat) : Fld := ⟨TMR_CHAIN.addr n, 6, 2⟩
/-- TMRn_CHk_CFG (17_timers_rtc.md): channel configuration. -/
def TMR_CH_CFG.addr (n k : Nat) : Nat := 0x4002D060 + 0x1000 * n + 0x10 * k
def TMR_CH_CFG.MODE (n k : Nat) : Fld := ⟨TMR_CH_CFG.addr n k, 0, 2⟩
def TMR_CH_CFG.EDGE (n k : Nat) : Fld := ⟨TMR_CH_CFG.addr n k, 2, 2⟩
def TMR_CH_CFG.METER (n k : Nat) : Fld := ⟨TMR_CH_CFG.addr n k, 4, 1⟩
def TMR_CH_CFG.SRC (n k : Nat) : Fld := ⟨TMR_CH_CFG.addr n k, 5, 1⟩
def TMR_CH_CFG.FILT (n k : Nat) : Fld := ⟨TMR_CH_CFG.addr n k, 8, 4⟩
def TMR_CH_CFG.NTH (n k : Nat) : Fld := ⟨TMR_CH_CFG.addr n k, 12, 8⟩
def TMR_CH_CFG.OACT (n k : Nat) : Fld := ⟨TMR_CH_CFG.addr n k, 20, 2⟩
/-- TMRn_CHk_CMP (17_timers_rtc.md): compare value. -/
def TMR_CH_CMP.addr (n k : Nat) : Nat := 0x4002D064 + 0x1000 * n + 0x10 * k
def TMR_CH_CMP.CMP (n k : Nat) : Fld := ⟨TMR_CH_CMP.addr n k, 0, 32⟩
/-- TMRn_CHk_CAP (17_timers_rtc.md): capture value. -/
def TMR_CH_CAP.addr (n k : Nat) : Nat := 0x4002D068 + 0x1000 * n + 0x10 * k
def TMR_CH_CAP.CAP (n k : Nat) : Fld := ⟨TMR_CH_CAP.addr n k, 0, 32⟩
/-- RTC_CTRL (17_timers_rtc.md). -/
def RTC_CTRL.addr : Nat := 0x40035004
def RTC_CTRL.EN : Fld := ⟨RTC_CTRL.addr, 0, 1⟩
def RTC_CTRL.SRST : Fld := ⟨RTC_CTRL.addr, 1, 1⟩
/-- RTC_STAT (17_timers_rtc.md). -/
def RTC_STAT.addr : Nat := 0x40035008
def RTC_STAT.BUSY : Fld := ⟨RTC_STAT.addr, 0, 1⟩
def RTC_STAT.ERR : Fld := ⟨RTC_STAT.addr, 1, 1⟩
def RTC_STAT.TIME_VALID : Fld := ⟨RTC_STAT.addr, 2, 1⟩
def RTC_STAT.BK_LOST : Fld := ⟨RTC_STAT.addr, 3, 1⟩
def RTC_STAT.LOCKOUT : Fld := ⟨RTC_STAT.addr, 4, 1⟩
def RTC_STAT.VDD_STABLE : Fld := ⟨RTC_STAT.addr, 5, 1⟩
def RTC_STAT.SET_REFUSED : Fld := ⟨RTC_STAT.addr, 6, 1⟩
def RTC_STAT.SH_TIMEOUT : Fld := ⟨RTC_STAT.addr, 7, 1⟩
def RTC_STAT.YWRAP : Fld := ⟨RTC_STAT.addr, 8, 1⟩
/-- RTC_UNLOCK (17_timers_rtc.md). -/
def RTC_UNLOCK.addr : Nat := 0x40035040
def RTC_UNLOCK.KEY : Fld := ⟨RTC_UNLOCK.addr, 0, 16⟩
/-- RTC_TIME (17_timers_rtc.md). -/
def RTC_TIME.addr : Nat := 0x40035044
def RTC_TIME.SEC : Fld := ⟨RTC_TIME.addr, 0, 6⟩
def RTC_TIME.MIN : Fld := ⟨RTC_TIME.addr, 8, 6⟩
def RTC_TIME.HOUR : Fld := ⟨RTC_TIME.addr, 16, 5⟩
/-- RTC_SET_TIME (17_timers_rtc.md). -/
def RTC_SET_TIME.addr : Nat := 0x40035050
def RTC_SET_TIME.SEC : Fld := ⟨RTC_SET_TIME.addr, 0, 6⟩
def RTC_SET_TIME.MIN : Fld := ⟨RTC_SET_TIME.addr, 8, 6⟩
def RTC_SET_TIME.HOUR : Fld := ⟨RTC_SET_TIME.addr, 16, 5⟩
/-- RTC_DATE (17_timers_rtc.md). -/
def RTC_DATE.addr : Nat := 0x40035048
def RTC_DATE.DAY : Fld := ⟨RTC_DATE.addr, 0, 5⟩
def RTC_DATE.MONTH : Fld := ⟨RTC_DATE.addr, 8, 4⟩
def RTC_DATE.YEAR : Fld := ⟨RTC_DATE.addr, 16, 7⟩
def RTC_DATE.WDAY : Fld := ⟨RTC_DATE.addr, 24, 3⟩
/-- RTC_SET_DATE (17_timers_rtc.md). -/
def RTC_SET_DATE.addr : Nat := 0x40035054
def RTC_SET_DATE.DAY : Fld := ⟨RTC_SET_DATE.addr, 0, 5⟩
def RTC_SET_DATE.MONTH : Fld := ⟨RTC_SET_DATE.addr, 8, 4⟩
def RTC_SET_DATE.YEAR : Fld := ⟨RTC_SET_DATE.addr, 16, 7⟩
/-- RTC_SUBSEC (17_timers_rtc.md). -/
def RTC_SUBSEC.addr : Nat := 0x4003504C
def RTC_SUBSEC.TICKS : Fld := ⟨RTC_SUBSEC.addr, 0, 15⟩
/-- RTC_CMD (17_timers_rtc.md). -/
def RTC_CMD.addr : Nat := 0x40035058
def RTC_CMD.SET : Fld := ⟨RTC_CMD.addr, 0, 1⟩
/-- RTC_CAL (17_timers_rtc.md). -/
def RTC_CAL.addr : Nat := 0x4003505C
def RTC_CAL.CAL : Fld := ⟨RTC_CAL.addr, 0, 10⟩
/-- RTC_CFG (17_timers_rtc.md). -/
def RTC_CFG.addr : Nat := 0x40035060
def RTC_CFG.SHTO : Fld := ⟨RTC_CFG.addr, 0, 6⟩
/-- RTC_ALMn_TIME (17_timers_rtc.md): alarm n. -/
def RTC_ALM_TIME.addr (n : Nat) : Nat := 0x40035070 + 0x10 * n
def RTC_ALM_TIME.SEC (n : Nat) : Fld := ⟨RTC_ALM_TIME.addr n, 0, 6⟩
def RTC_ALM_TIME.MIN (n : Nat) : Fld := ⟨RTC_ALM_TIME.addr n, 8, 6⟩
def RTC_ALM_TIME.HOUR (n : Nat) : Fld := ⟨RTC_ALM_TIME.addr n, 16, 5⟩
/-- RTC_ALMn_DATE (17_timers_rtc.md): alarm n. -/
def RTC_ALM_DATE.addr (n : Nat) : Nat := 0x40035074 + 0x10 * n
def RTC_ALM_DATE.DAY (n : Nat) : Fld := ⟨RTC_ALM_DATE.addr n, 0, 5⟩
def RTC_ALM_DATE.MONTH (n : Nat) : Fld := ⟨RTC_ALM_DATE.addr n, 8, 4⟩
def RTC_ALM_DATE.YEAR (n : Nat) : Fld := ⟨RTC_ALM_DATE.addr n, 16, 7⟩
/-- RTC_ALMn_CFG (17_timers_rtc.md). -/
def RTC_ALM_CFG.addr (n : Nat) : Nat := 0x40035078 + 0x10 * n
def RTC_ALM_CFG.MASK (n : Nat) : Fld := ⟨RTC_ALM_CFG.addr n, 0, 6⟩
def RTC_ALM_CFG.EN (n : Nat) : Fld := ⟨RTC_ALM_CFG.addr n, 8, 1⟩
def RTC_ALM_CFG.ARMED (n : Nat) : Fld := ⟨RTC_ALM_CFG.addr n, 9, 1⟩
def RTC_ALM_CFG.FIRED (n : Nat) : Fld := ⟨RTC_ALM_CFG.addr n, 10, 1⟩
def RTC_ALM_CFG.LATE (n : Nat) : Fld := ⟨RTC_ALM_CFG.addr n, 11, 1⟩
/-- RTC_BKP# (17_timers_rtc.md): backup registers. -/
def RTC_BKP.addr (n : Nat) : Nat := 0x40035090 + 0x4 * n
def RTC_BKP.DATA (n : Nat) : Fld := ⟨RTC_BKP.addr n, 0, 32⟩
/-- CLK_CTRL (18_power.md). -/
def CLK_CTRL.addr : Nat := 0x40003004
def CLK_CTRL.EN : Fld := ⟨CLK_CTRL.addr, 0, 1⟩
def CLK_CTRL.SRST : Fld := ⟨CLK_CTRL.addr, 1, 1⟩
/-- CLK_STAT (18_power.md). -/
def CLK_STAT.addr : Nat := 0x40003008
def CLK_STAT.BUSY : Fld := ⟨CLK_STAT.addr, 0, 1⟩
def CLK_STAT.ERR : Fld := ⟨CLK_STAT.addr, 1, 1⟩
def CLK_STAT.HFXO_ON : Fld := ⟨CLK_STAT.addr, 2, 1⟩
def CLK_STAT.HFXO_RDY : Fld := ⟨CLK_STAT.addr, 3, 1⟩
def CLK_STAT.TCXO : Fld := ⟨CLK_STAT.addr, 4, 1⟩
def CLK_STAT.LFXO_RDY : Fld := ⟨CLK_STAT.addr, 5, 1⟩
def CLK_STAT.SYSPLL_LOCK : Fld := ⟨CLK_STAT.addr, 6, 1⟩
def CLK_STAT.ADCPLL_LOCK : Fld := ⟨CLK_STAT.addr, 7, 1⟩
def CLK_STAT.RC16_ON : Fld := ⟨CLK_STAT.addr, 8, 1⟩
def CLK_STAT.TRIM_REF : Fld := ⟨CLK_STAT.addr, 9, 1⟩
/-- CLK_HFXO (18_power.md): HFXO trim. -/
def CLK_HFXO.addr : Nat := 0x40003040
def CLK_HFXO.TRIM : Fld := ⟨CLK_HFXO.addr, 0, 6⟩
/-- CLK_LFXO (18_power.md): LFXO trim. -/
def CLK_LFXO.addr : Nat := 0x40003044
def CLK_LFXO.TRIM : Fld := ⟨CLK_LFXO.addr, 0, 5⟩
/-- PWR_CTRL (18_power.md). -/
def PWR_CTRL.addr : Nat := 0x40001004
def PWR_CTRL.EN : Fld := ⟨PWR_CTRL.addr, 0, 1⟩
def PWR_CTRL.SRST : Fld := ⟨PWR_CTRL.addr, 1, 1⟩
/-- PWR_STAT (18_power.md). -/
def PWR_STAT.addr : Nat := 0x40001008
def PWR_STAT.BUSY : Fld := ⟨PWR_STAT.addr, 0, 1⟩
def PWR_STAT.ERR : Fld := ⟨PWR_STAT.addr, 1, 1⟩
def PWR_STAT.STATE : Fld := ⟨PWR_STAT.addr, 2, 3⟩
def PWR_STAT.HOME : Fld := ⟨PWR_STAT.addr, 5, 3⟩
def PWR_STAT.EXC : Fld := ⟨PWR_STAT.addr, 8, 1⟩
def PWR_STAT.REFUSED : Fld := ⟨PWR_STAT.addr, 9, 1⟩
def PWR_STAT.ABORTED : Fld := ⟨PWR_STAT.addr, 10, 1⟩
def PWR_STAT.ABORT_EP : Fld := ⟨PWR_STAT.addr, 11, 3⟩
def PWR_STAT.CAUSE : Fld := ⟨PWR_STAT.addr, 14, 3⟩
def PWR_STAT.BOD_WARN : Fld := ⟨PWR_STAT.addr, 17, 1⟩
/-- PWR_SLEEP (18_power.md). -/
def PWR_SLEEP.addr : Nat := 0x40001040
def PWR_SLEEP.TARGET : Fld := ⟨PWR_SLEEP.addr, 0, 3⟩
/-- PWR_WAKE_EN (18_power.md). -/
def PWR_WAKE_EN.addr : Nat := 0x40001044
def PWR_WAKE_EN.CUL : Fld := ⟨PWR_WAKE_EN.addr, 0, 1⟩
def PWR_WAKE_EN.PIN_A : Fld := ⟨PWR_WAKE_EN.addr, 1, 1⟩
def PWR_WAKE_EN.PIN_B : Fld := ⟨PWR_WAKE_EN.addr, 2, 1⟩
def PWR_WAKE_EN.RTC : Fld := ⟨PWR_WAKE_EN.addr, 3, 1⟩
def PWR_WAKE_EN.HSP : Fld := ⟨PWR_WAKE_EN.addr, 4, 1⟩
def PWR_WAKE_EN.BOD : Fld := ⟨PWR_WAKE_EN.addr, 5, 1⟩
/-- PWR_WAKE_SRC (18_power.md). -/
def PWR_WAKE_SRC.addr : Nat := 0x40001048
def PWR_WAKE_SRC.SRC : Fld := ⟨PWR_WAKE_SRC.addr, 0, 6⟩
def PWR_WAKE_SRC.IRQ : Fld := ⟨PWR_WAKE_SRC.addr, 6, 1⟩
def PWR_WAKE_SRC.FROM : Fld := ⟨PWR_WAKE_SRC.addr, 8, 3⟩
/-- PWR_WAKEPIN_A (18_power.md). -/
def PWR_WAKEPIN_A.addr : Nat := 0x4000104C
def PWR_WAKEPIN_A.EN : Fld := ⟨PWR_WAKEPIN_A.addr, 0, 18⟩
/-- PWR_WAKEPIN_B (18_power.md). -/
def PWR_WAKEPIN_B.addr : Nat := 0x40001050
def PWR_WAKEPIN_B.EN : Fld := ⟨PWR_WAKEPIN_B.addr, 0, 18⟩
/-- PWR_SRAM_RET (18_power.md). -/
def PWR_SRAM_RET.addr : Nat := 0x40001054
def PWR_SRAM_RET.RET : Fld := ⟨PWR_SRAM_RET.addr, 0, 24⟩
/-- PWR_LEAD (18_power.md). -/
def PWR_LEAD.addr : Nat := 0x40001058
def PWR_LEAD.NAP : Fld := ⟨PWR_LEAD.addr, 0, 10⟩
def PWR_LEAD.SLP : Fld := ⟨PWR_LEAD.addr, 16, 10⟩
/-- PWR_MINSLEEP (18_power.md). -/
def PWR_MINSLEEP.addr : Nat := 0x4000105C
def PWR_MINSLEEP.MINSLEEP : Fld := ⟨PWR_MINSLEEP.addr, 0, 16⟩
/-- PWR_RESUME (18_power.md). -/
def PWR_RESUME.addr : Nat := 0x40001060
def PWR_RESUME.ADDR : Fld := ⟨PWR_RESUME.addr, 0, 32⟩
/-- PWR_RESUME_SP (18_power.md). -/
def PWR_RESUME_SP.addr : Nat := 0x40001064
def PWR_RESUME_SP.ADDR : Fld := ⟨PWR_RESUME_SP.addr, 0, 32⟩
/-- PWR_BIAS (18_power.md). -/
def PWR_BIAS.addr : Nat := 0x40001068
def PWR_BIAS.RBB_SLP : Fld := ⟨PWR_BIAS.addr, 0, 2⟩
def PWR_BIAS.FBB_EN : Fld := ⟨PWR_BIAS.addr, 2, 1⟩
/-- PWR_BOD (18_power.md). -/
def PWR_BOD.addr : Nat := 0x4000106C
def PWR_BOD.WARN : Fld := ⟨PWR_BOD.addr, 0, 4⟩
/-- PWR_CNT (18_power.md). -/
def PWR_CNT.addr : Nat := 0x40001070
def PWR_CNT.EXC : Fld := ⟨PWR_CNT.addr, 0, 16⟩
def PWR_CNT.ABORTS : Fld := ⟨PWR_CNT.addr, 16, 8⟩
def PWR_CNT.REFUSALS : Fld := ⟨PWR_CNT.addr, 24, 8⟩
/-- AVS_CTRL (18_power.md). -/
def AVS_CTRL.addr : Nat := 0x40002004
def AVS_CTRL.EN : Fld := ⟨AVS_CTRL.addr, 0, 1⟩
def AVS_CTRL.SRST : Fld := ⟨AVS_CTRL.addr, 1, 1⟩
/-- AVS_STAT (18_power.md). -/
def AVS_STAT.addr : Nat := 0x40002008
def AVS_STAT.BUSY : Fld := ⟨AVS_STAT.addr, 0, 1⟩
def AVS_STAT.ERR : Fld := ⟨AVS_STAT.addr, 1, 1⟩
def AVS_STAT.CLAMP : Fld := ⟨AVS_STAT.addr, 2, 1⟩
def AVS_STAT.STEP : Fld := ⟨AVS_STAT.addr, 4, 2⟩
def AVS_STAT.PEND : Fld := ⟨AVS_STAT.addr, 6, 1⟩
/-- AVS_LIM (18_power.md). -/
def AVS_LIM.addr : Nat := 0x40002040
def AVS_LIM.LIMIT_LO : Fld := ⟨AVS_LIM.addr, 0, 10⟩
def AVS_LIM.LIMIT_HI : Fld := ⟨AVS_LIM.addr, 16, 10⟩
/-- AVS_VAL (18_power.md). -/
def AVS_VAL.addr : Nat := 0x40002044
def AVS_VAL.CUR : Fld := ⟨AVS_VAL.addr, 0, 10⟩
def AVS_VAL.WANT : Fld := ⟨AVS_VAL.addr, 16, 10⟩
/-- AVS_HOLD (18_power.md). -/
def AVS_HOLD.addr : Nat := 0x40002048
def AVS_HOLD.HOLD : Fld := ⟨AVS_HOLD.addr, 0, 1⟩
def AVS_HOLD.HELD : Fld := ⟨AVS_HOLD.addr, 16, 10⟩
/-- AVS_CLK (18_power.md). -/
def AVS_CLK.addr : Nat := 0x4000204C
def AVS_CLK.REQ : Fld := ⟨AVS_CLK.addr, 0, 2⟩
def AVS_CLK.GRANT : Fld := ⟨AVS_CLK.addr, 4, 2⟩
/-- AVS_CFG (18_power.md). -/
def AVS_CFG.addr : Nat := 0x40002050
def AVS_CFG.MARGIN : Fld := ⟨AVS_CFG.addr, 0, 4⟩
/-- CUL_CTRL (19_culvert_events.md): Culvert control. -/
def CUL_CTRL.addr : Nat := 0x40036004
def CUL_CTRL.EN : Fld := ⟨CUL_CTRL.addr, 0, 1⟩
def CUL_CTRL.SRST : Fld := ⟨CUL_CTRL.addr, 1, 1⟩
/-- CUL_STAT (19_culvert_events.md): Culvert status. -/
def CUL_STAT.addr : Nat := 0x40036008
def CUL_STAT.BUSY : Fld := ⟨CUL_STAT.addr, 0, 1⟩
def CUL_STAT.ERR : Fld := ⟨CUL_STAT.addr, 1, 1⟩
def CUL_STAT.SAFE : Fld := ⟨CUL_STAT.addr, 2, 1⟩
def CUL_STAT.FAULT : Fld := ⟨CUL_STAT.addr, 3, 1⟩
def CUL_STAT.DROP : Fld := ⟨CUL_STAT.addr, 4, 1⟩
def CUL_STAT.MERGE : Fld := ⟨CUL_STAT.addr, 5, 1⟩
def CUL_STAT.OWN_IGN : Fld := ⟨CUL_STAT.addr, 6, 1⟩
def CUL_STAT.EXIT_REF : Fld := ⟨CUL_STAT.addr, 7, 1⟩
/-- CUL_ERRINFO (19_culvert_events.md): last routing fault. -/
def CUL_ERRINFO.addr : Nat := 0x40036020
def CUL_ERRINFO.CHAN : Fld := ⟨CUL_ERRINFO.addr, 0, 5⟩
def CUL_ERRINFO.WORD : Fld := ⟨CUL_ERRINFO.addr, 5, 3⟩
/-- CUL_CMD (19_culvert_events.md). -/
def CUL_CMD.addr : Nat := 0x40036040
def CUL_CMD.EXIT : Fld := ⟨CUL_CMD.addr, 0, 1⟩
/-- CUL_SWTRIG (19_culvert_events.md). -/
def CUL_SWTRIG.addr : Nat := 0x40036044
def CUL_SWTRIG.TRIG : Fld := ⟨CUL_SWTRIG.addr, 0, 32⟩
/-- CUL_CHEN (19_culvert_events.md). -/
def CUL_CHEN.addr : Nat := 0x40036048
def CUL_CHEN.EN : Fld := ⟨CUL_CHEN.addr, 0, 32⟩
/-- CUL_OWN# (19_culvert_events.md): channel owners. -/
def CUL_OWN.addr (n : Nat) : Nat := 0x40036050 + 0x4 * n
def CUL_OWN.OWNER0 (n : Nat) : Fld := ⟨CUL_OWN.addr n, 0, 3⟩
def CUL_OWN.OWNER1 (n : Nat) : Fld := ⟨CUL_OWN.addr n, 4, 3⟩
def CUL_OWN.OWNER2 (n : Nat) : Fld := ⟨CUL_OWN.addr n, 8, 3⟩
def CUL_OWN.OWNER3 (n : Nat) : Fld := ⟨CUL_OWN.addr n, 12, 3⟩
def CUL_OWN.OWNER4 (n : Nat) : Fld := ⟨CUL_OWN.addr n, 16, 3⟩
def CUL_OWN.OWNER5 (n : Nat) : Fld := ⟨CUL_OWN.addr n, 20, 3⟩
def CUL_OWN.OWNER6 (n : Nat) : Fld := ⟨CUL_OWN.addr n, 24, 3⟩
def CUL_OWN.OWNER7 (n : Nat) : Fld := ⟨CUL_OWN.addr n, 28, 3⟩
def CUL_OWN.S0 (n : Nat) : Fld := ⟨CUL_OWN.addr n, 3, 1⟩
def CUL_OWN.S1 (n : Nat) : Fld := ⟨CUL_OWN.addr n, 7, 1⟩
def CUL_OWN.S2 (n : Nat) : Fld := ⟨CUL_OWN.addr n, 11, 1⟩
def CUL_OWN.S3 (n : Nat) : Fld := ⟨CUL_OWN.addr n, 15, 1⟩
def CUL_OWN.S4 (n : Nat) : Fld := ⟨CUL_OWN.addr n, 19, 1⟩
def CUL_OWN.S5 (n : Nat) : Fld := ⟨CUL_OWN.addr n, 23, 1⟩
def CUL_OWN.S6 (n : Nat) : Fld := ⟨CUL_OWN.addr n, 27, 1⟩
def CUL_OWN.S7 (n : Nat) : Fld := ⟨CUL_OWN.addr n, 31, 1⟩
/-- CUL_CNT (19_culvert_events.md). -/
def CUL_CNT.addr : Nat := 0x40036060
def CUL_CNT.DROP : Fld := ⟨CUL_CNT.addr, 0, 16⟩
def CUL_CNT.MERGE : Fld := ⟨CUL_CNT.addr, 16, 16⟩
/-- CUL_MON_SEL (19_culvert_events.md): channel monitor. -/
def CUL_MON_SEL.addr : Nat := 0x40036064
def CUL_MON_SEL.CHAN : Fld := ⟨CUL_MON_SEL.addr, 0, 5⟩
/-- CUL_MON_CNT (19_culvert_events.md): channel monitor. -/
def CUL_MON_CNT.addr : Nat := 0x40036068
def CUL_MON_CNT.CNT : Fld := ⟨CUL_MON_CNT.addr, 0, 32⟩
/-- CUL_CHc_P# (19_culvert_events.md): producer row. -/
def CUL_CH_P.addr (n k : Nat) : Nat := 0x40036080 + 0x14 * n + 0x4 * k
def CUL_CH_P.PEN (n k : Nat) : Fld := ⟨CUL_CH_P.addr n k, 0, 32⟩
/-- CUL_CHc_C0 (19_culvert_events.md): consumer row. -/
def CUL_CH_C0.addr (n : Nat) : Nat := 0x4003608C + 0x14 * n
def CUL_CH_C0.CEN (n : Nat) : Fld := ⟨CUL_CH_C0.addr n, 0, 32⟩
/-- CUL_CHc_C1 (19_culvert_events.md): consumer row. -/
def CUL_CH_C1.addr (n : Nat) : Nat := 0x40036090 + 0x14 * n
def CUL_CH_C1.CEN (n : Nat) : Fld := ⟨CUL_CH_C1.addr n, 0, 32⟩
/-- HSP_CTRL (20_serial_ports.md): port control. -/
def HSP_CTRL.addr : Nat := 0x40037004
def HSP_CTRL.EN : Fld := ⟨HSP_CTRL.addr, 0, 1⟩
def HSP_CTRL.SRST : Fld := ⟨HSP_CTRL.addr, 1, 1⟩
/-- HSP_STAT (20_serial_ports.md): port status. -/
def HSP_STAT.addr : Nat := 0x40037008
def HSP_STAT.BUSY : Fld := ⟨HSP_STAT.addr, 0, 1⟩
def HSP_STAT.ERR : Fld := ⟨HSP_STAT.addr, 1, 1⟩
def HSP_STAT.READY : Fld := ⟨HSP_STAT.addr, 2, 1⟩
def HSP_STAT.BUSERR : Fld := ⟨HSP_STAT.addr, 3, 1⟩
def HSP_STAT.LATE : Fld := ⟨HSP_STAT.addr, 4, 1⟩
def HSP_STAT.WRAP : Fld := ⟨HSP_STAT.addr, 5, 1⟩
def HSP_STAT.WRAP_W : Fld := ⟨HSP_STAT.addr, 6, 1⟩
def HSP_STAT.DROP : Fld := ⟨HSP_STAT.addr, 7, 1⟩
def HSP_STAT.BADWIN : Fld := ⟨HSP_STAT.addr, 8, 1⟩
def HSP_STAT.ROUTED : Fld := ⟨HSP_STAT.addr, 9, 1⟩
def HSP_STAT.PRIV_PEND : Fld := ⟨HSP_STAT.addr, 10, 1⟩
/-- HSP_ERRINFO (20_serial_ports.md): last failed access. -/
def HSP_ERRINFO.addr : Nat := 0x40037020
def HSP_ERRINFO.OFFSET : Fld := ⟨HSP_ERRINFO.addr, 0, 12⟩
def HSP_ERRINFO.PAGE : Fld := ⟨HSP_ERRINFO.addr, 12, 6⟩
def HSP_ERRINFO.WR : Fld := ⟨HSP_ERRINFO.addr, 18, 1⟩
def HSP_ERRINFO.CAUSE : Fld := ⟨HSP_ERRINFO.addr, 19, 2⟩
/-- HSP_CFG (20_serial_ports.md): port configuration. -/
def HSP_CFG.addr : Nat := 0x40037040
def HSP_CFG.CPHA : Fld := ⟨HSP_CFG.addr, 0, 1⟩
def HSP_CFG.CPOL : Fld := ⟨HSP_CFG.addr, 1, 1⟩
def HSP_CFG.CMDW : Fld := ⟨HSP_CFG.addr, 2, 2⟩
def HSP_CFG.DATAW : Fld := ⟨HSP_CFG.addr, 4, 2⟩
def HSP_CFG.DUMMY : Fld := ⟨HSP_CFG.addr, 8, 4⟩
/-- HSP_STRAP (20_serial_ports.md). -/
def HSP_STRAP.addr : Nat := 0x40037044
def HSP_STRAP.STRAP : Fld := ⟨HSP_STRAP.addr, 0, 4⟩
/-- HSP_WIN (20_serial_ports.md): current window. -/
def HSP_WIN.addr : Nat := 0x40037048
def HSP_WIN.PAGE : Fld := ⟨HSP_WIN.addr, 0, 8⟩
def HSP_WIN.QTR : Fld := ⟨HSP_WIN.addr, 8, 2⟩
def HSP_WIN.VIEW : Fld := ⟨HSP_WIN.addr, 10, 2⟩
/-- HSP_LATE_ADDR (20_serial_ports.md): last late word. -/
def HSP_LATE_ADDR.addr : Nat := 0x4003704C
def HSP_LATE_ADDR.VAL : Fld := ⟨HSP_LATE_ADDR.addr, 0, 32⟩
/-- HSP_LATE_DATA (20_serial_ports.md): last late word. -/
def HSP_LATE_DATA.addr : Nat := 0x40037050
def HSP_LATE_DATA.VAL : Fld := ⟨HSP_LATE_DATA.addr, 0, 32⟩
/-- HSP_PRIV (20_serial_ports.md): last privileged command. -/
def HSP_PRIV.addr : Nat := 0x40037054
def HSP_PRIV.CMD : Fld := ⟨HSP_PRIV.addr, 0, 4⟩
def HSP_PRIV.RESULT : Fld := ⟨HSP_PRIV.addr, 4, 3⟩
def HSP_PRIV.TOKEN : Fld := ⟨HSP_PRIV.addr, 7, 1⟩
def HSP_PRIV.SEAL : Fld := ⟨HSP_PRIV.addr, 8, 1⟩
def HSP_PRIV.AUDSEQ : Fld := ⟨HSP_PRIV.addr, 16, 16⟩
/-- HSP_CNT (20_serial_ports.md). -/
def HSP_CNT.addr : Nat := 0x40037058
def HSP_CNT.XFER : Fld := ⟨HSP_CNT.addr, 0, 16⟩
def HSP_CNT.ERRS : Fld := ⟨HSP_CNT.addr, 16, 16⟩
/-- PSP_CTRL (20_serial_ports.md). -/
def PSP_CTRL.addr : Nat := 0x40038004
def PSP_CTRL.EN : Fld := ⟨PSP_CTRL.addr, 0, 1⟩
def PSP_CTRL.SRST : Fld := ⟨PSP_CTRL.addr, 1, 1⟩
/-- PSP_STAT (20_serial_ports.md). -/
def PSP_STAT.addr : Nat := 0x40038008
def PSP_STAT.BUSY : Fld := ⟨PSP_STAT.addr, 0, 1⟩
def PSP_STAT.ERR : Fld := ⟨PSP_STAT.addr, 1, 1⟩
def PSP_STAT.DONE : Fld := ⟨PSP_STAT.addr, 2, 1⟩
def PSP_STAT.REFUSED : Fld := ⟨PSP_STAT.addr, 3, 1⟩
def PSP_STAT.ABORTED : Fld := ⟨PSP_STAT.addr, 4, 1⟩
def PSP_STAT.PAUSED : Fld := ⟨PSP_STAT.addr, 5, 1⟩
def PSP_STAT.OVF : Fld := ⟨PSP_STAT.addr, 6, 1⟩
def PSP_STAT.UNF : Fld := ⟨PSP_STAT.addr, 7, 1⟩
def PSP_STAT.TXLVL : Fld := ⟨PSP_STAT.addr, 8, 4⟩
def PSP_STAT.RXLVL : Fld := ⟨PSP_STAT.addr, 12, 4⟩
/-- PSP_ERRINFO (20_serial_ports.md). -/
def PSP_ERRINFO.addr : Nat := 0x40038020
def PSP_ERRINFO.CAUSE : Fld := ⟨PSP_ERRINFO.addr, 0, 3⟩
/-- PSP_CLK (20_serial_ports.md). -/
def PSP_CLK.addr : Nat := 0x40038040
def PSP_CLK.DIV : Fld := ⟨PSP_CLK.addr, 0, 8⟩
def PSP_CLK.SRC : Fld := ⟨PSP_CLK.addr, 8, 1⟩
def PSP_CLK.MODE : Fld := ⟨PSP_CLK.addr, 9, 2⟩
def PSP_CLK.RXDLY : Fld := ⟨PSP_CLK.addr, 11, 2⟩
/-- PSP_FRAME (20_serial_ports.md). -/
def PSP_FRAME.addr : Nat := 0x40038044
def PSP_FRAME.SEL : Fld := ⟨PSP_FRAME.addr, 0, 2⟩
def PSP_FRAME.HOLD : Fld := ⟨PSP_FRAME.addr, 2, 1⟩
def PSP_FRAME.LSBF : Fld := ⟨PSP_FRAME.addr, 3, 1⟩
def PSP_FRAME.CMDW : Fld := ⟨PSP_FRAME.addr, 4, 2⟩
def PSP_FRAME.CMDL : Fld := ⟨PSP_FRAME.addr, 6, 2⟩
def PSP_FRAME.ADRW : Fld := ⟨PSP_FRAME.addr, 8, 2⟩
def PSP_FRAME.ADRL : Fld := ⟨PSP_FRAME.addr, 10, 3⟩
def PSP_FRAME.DUMMY : Fld := ⟨PSP_FRAME.addr, 13, 5⟩
def PSP_FRAME.DATW : Fld := ⟨PSP_FRAME.addr, 18, 2⟩
def PSP_FRAME.DIR : Fld := ⟨PSP_FRAME.addr, 20, 1⟩
/-- PSP_CMDV (20_serial_ports.md). -/
def PSP_CMDV.addr : Nat := 0x40038048
def PSP_CMDV.VAL : Fld := ⟨PSP_CMDV.addr, 0, 16⟩
/-- PSP_ADDR (20_serial_ports.md). -/
def PSP_ADDR.addr : Nat := 0x4003804C
def PSP_ADDR.VAL : Fld := ⟨PSP_ADDR.addr, 0, 32⟩
/-- PSP_LEN (20_serial_ports.md). -/
def PSP_LEN.addr : Nat := 0x40038050
def PSP_LEN.LEN : Fld := ⟨PSP_LEN.addr, 0, 14⟩
/-- PSP_GO (20_serial_ports.md). -/
def PSP_GO.addr : Nat := 0x40038054
def PSP_GO.GO : Fld := ⟨PSP_GO.addr, 0, 1⟩
def PSP_GO.STOP : Fld := ⟨PSP_GO.addr, 1, 1⟩
/-- PSP_DONE_BITS (20_serial_ports.md). -/
def PSP_DONE_BITS.addr : Nat := 0x40038058
def PSP_DONE_BITS.BITS : Fld := ⟨PSP_DONE_BITS.addr, 0, 14⟩
def PSP_DONE_BITS.PHASE : Fld := ⟨PSP_DONE_BITS.addr, 14, 2⟩
/-- PSP_TXD (20_serial_ports.md). -/
def PSP_TXD.addr : Nat := 0x4003805C
def PSP_TXD.DATA : Fld := ⟨PSP_TXD.addr, 0, 32⟩
/-- PSP_RXD (20_serial_ports.md). -/
def PSP_RXD.addr : Nat := 0x40038060
def PSP_RXD.DATA : Fld := ⟨PSP_RXD.addr, 0, 32⟩
/-- PSP_TIM (20_serial_ports.md). -/
def PSP_TIM.addr : Nat := 0x40038064
def PSP_TIM.LEAD : Fld := ⟨PSP_TIM.addr, 0, 4⟩
def PSP_TIM.TRAIL : Fld := ⟨PSP_TIM.addr, 4, 4⟩
/-- DBG_CTRL (21_startup_selftest_faults.md). -/
def DBG_CTRL.addr : Nat := 0x4003F004
def DBG_CTRL.EN : Fld := ⟨DBG_CTRL.addr, 0, 1⟩
def DBG_CTRL.SRST : Fld := ⟨DBG_CTRL.addr, 1, 1⟩
/-- DBG_STAT (21_startup_selftest_faults.md). -/
def DBG_STAT.addr : Nat := 0x4003F008
def DBG_STAT.BUSY : Fld := ⟨DBG_STAT.addr, 0, 1⟩
def DBG_STAT.ERR : Fld := ⟨DBG_STAT.addr, 1, 1⟩
def DBG_STAT.HALTED : Fld := ⟨DBG_STAT.addr, 2, 1⟩
def DBG_STAT.BKPT : Fld := ⟨DBG_STAT.addr, 3, 1⟩
def DBG_STAT.BKPT_IDX : Fld := ⟨DBG_STAT.addr, 4, 2⟩
/-- DBG_RUN (21_startup_selftest_faults.md). -/
def DBG_RUN.addr : Nat := 0x4003F040
def DBG_RUN.HALT : Fld := ⟨DBG_RUN.addr, 0, 1⟩
def DBG_RUN.RESUME : Fld := ⟨DBG_RUN.addr, 1, 1⟩
def DBG_RUN.STEP : Fld := ⟨DBG_RUN.addr, 2, 1⟩
/-- DBG_PC (21_startup_selftest_faults.md). -/
def DBG_PC.addr : Nat := 0x4003F044
def DBG_PC.PC : Fld := ⟨DBG_PC.addr, 0, 32⟩
/-- DBG_REG_IDX (21_startup_selftest_faults.md). -/
def DBG_REG_IDX.addr : Nat := 0x4003F048
def DBG_REG_IDX.IDX : Fld := ⟨DBG_REG_IDX.addr, 0, 5⟩
/-- DBG_REG_DATA (21_startup_selftest_faults.md). -/
def DBG_REG_DATA.addr : Nat := 0x4003F04C
def DBG_REG_DATA.DATA : Fld := ⟨DBG_REG_DATA.addr, 0, 32⟩
/-- DBG_BPn_ADDR (21_startup_selftest_faults.md). -/
def DBG_BP_ADDR.addr (n : Nat) : Nat := 0x4003F050 + 0x8 * n
def DBG_BP_ADDR.ADDR (n : Nat) : Fld := ⟨DBG_BP_ADDR.addr n, 0, 32⟩
/-- DBG_BPn_CFG (21_startup_selftest_faults.md). -/
def DBG_BP_CFG.addr (n : Nat) : Nat := 0x4003F054 + 0x8 * n
def DBG_BP_CFG.EN (n : Nat) : Fld := ⟨DBG_BP_CFG.addr n, 0, 1⟩
def DBG_BP_CFG.ACT (n : Nat) : Fld := ⟨DBG_BP_CFG.addr n, 1, 1⟩
/-- SYS_CTRL (21_startup_selftest_faults.md). -/
def SYS_CTRL.addr : Nat := 0x40000004
def SYS_CTRL.EN : Fld := ⟨SYS_CTRL.addr, 0, 1⟩
def SYS_CTRL.SRST : Fld := ⟨SYS_CTRL.addr, 1, 1⟩
/-- SYS_STAT (21_startup_selftest_faults.md). -/
def SYS_STAT.addr : Nat := 0x40000008
def SYS_STAT.BUSY : Fld := ⟨SYS_STAT.addr, 0, 1⟩
def SYS_STAT.ERR : Fld := ⟨SYS_STAT.addr, 1, 1⟩
def SYS_STAT.STATE_REFUSED : Fld := ⟨SYS_STAT.addr, 2, 1⟩
def SYS_STAT.DBG_UNLOCKED : Fld := ⟨SYS_STAT.addr, 3, 1⟩
def SYS_STAT.TSTRAP : Fld := ⟨SYS_STAT.addr, 4, 1⟩
def SYS_STAT.HFXO_FAIL : Fld := ⟨SYS_STAT.addr, 5, 1⟩
def SYS_STAT.LFXO_FAIL : Fld := ⟨SYS_STAT.addr, 6, 1⟩
/-- SYS_STATE (21_startup_selftest_faults.md). -/
def SYS_STATE.addr : Nat := 0x40000040
def SYS_STATE.STATE : Fld := ⟨SYS_STATE.addr, 0, 2⟩
def SYS_STATE.REQ : Fld := ⟨SYS_STATE.addr, 4, 2⟩
/-- SYS_RSTCAUSE (21_startup_selftest_faults.md). -/
def SYS_RSTCAUSE.addr : Nat := 0x40000044
def SYS_RSTCAUSE.CAUSE : Fld := ⟨SYS_RSTCAUSE.addr, 0, 10⟩
/-- SYS_CMD (21_startup_selftest_faults.md). -/
def SYS_CMD.addr : Nat := 0x40000048
def SYS_CMD.KEY : Fld := ⟨SYS_CMD.addr, 0, 16⟩
def SYS_CMD.OP : Fld := ⟨SYS_CMD.addr, 16, 2⟩
/-- SYS_BOOT (21_startup_selftest_faults.md). -/
def SYS_BOOT.addr : Nat := 0x4000004C
def SYS_BOOT.RESULT : Fld := ⟨SYS_BOOT.addr, 0, 10⟩
/-- SYS_WDT_CFG (21_startup_selftest_faults.md). -/
def SYS_WDT_CFG.addr : Nat := 0x40000050
def SYS_WDT_CFG.TO : Fld := ⟨SYS_WDT_CFG.addr, 0, 16⟩
def SYS_WDT_CFG.WARN : Fld := ⟨SYS_WDT_CFG.addr, 16, 12⟩
def SYS_WDT_CFG.EN : Fld := ⟨SYS_WDT_CFG.addr, 28, 1⟩
def SYS_WDT_CFG.SYS : Fld := ⟨SYS_WDT_CFG.addr, 29, 1⟩
def SYS_WDT_CFG.DBGSTOP : Fld := ⟨SYS_WDT_CFG.addr, 30, 1⟩
/-- SYS_WDT_KICK (21_startup_selftest_faults.md). -/
def SYS_WDT_KICK.addr : Nat := 0x40000054
def SYS_WDT_KICK.VAL : Fld := ⟨SYS_WDT_KICK.addr, 0, 16⟩
/-- SYS_WDT_CNT (21_startup_selftest_faults.md). -/
def SYS_WDT_CNT.addr : Nat := 0x40000058
def SYS_WDT_CNT.VAL : Fld := ⟨SYS_WDT_CNT.addr, 0, 16⟩
/-- SYS_FAULT_CFG (21_startup_selftest_faults.md). -/
def SYS_FAULT_CFG.addr : Nat := 0x4000005C
def SYS_FAULT_CFG.SILENT_RST : Fld := ⟨SYS_FAULT_CFG.addr, 0, 1⟩
/-- SYS_FAULT (21_startup_selftest_faults.md). -/
def SYS_FAULT.addr : Nat := 0x40000060
def SYS_FAULT.CODE : Fld := ⟨SYS_FAULT.addr, 0, 4⟩
def SYS_FAULT.ASN : Fld := ⟨SYS_FAULT.addr, 8, 24⟩
/-- TST_CTRL (21_startup_selftest_faults.md). -/
def TST_CTRL.addr : Nat := 0x4003B004
def TST_CTRL.EN : Fld := ⟨TST_CTRL.addr, 0, 1⟩
def TST_CTRL.SRST : Fld := ⟨TST_CTRL.addr, 1, 1⟩
/-- TST_STAT (21_startup_selftest_faults.md). -/
def TST_STAT.addr : Nat := 0x4003B008
def TST_STAT.BUSY : Fld := ⟨TST_STAT.addr, 0, 1⟩
def TST_STAT.ERR : Fld := ⟨TST_STAT.addr, 1, 1⟩
def TST_STAT.REFUSED : Fld := ⟨TST_STAT.addr, 2, 1⟩
def TST_STAT.CAUSE : Fld := ⟨TST_STAT.addr, 3, 3⟩
/-- TST_BIST_REQ (21_startup_selftest_faults.md). -/
def TST_BIST_REQ.addr : Nat := 0x4003B040
def TST_BIST_REQ.BANKS : Fld := ⟨TST_BIST_REQ.addr, 0, 24⟩
/-- TST_BIST_PASS (21_startup_selftest_faults.md). -/
def TST_BIST_PASS.addr : Nat := 0x4003B044
def TST_BIST_PASS.BANKS : Fld := ⟨TST_BIST_PASS.addr, 0, 24⟩
/-- TST_BIST_REF (21_startup_selftest_faults.md). -/
def TST_BIST_REF.addr : Nat := 0x4003B048
def TST_BIST_REF.BANKS : Fld := ⟨TST_BIST_REF.addr, 0, 24⟩
/-- TST_BIST_FAIL (21_startup_selftest_faults.md). -/
def TST_BIST_FAIL.addr : Nat := 0x4003B04C
def TST_BIST_FAIL.BANKS : Fld := ⟨TST_BIST_FAIL.addr, 0, 24⟩
/-- TST_BIST_ABT (21_startup_selftest_faults.md). -/
def TST_BIST_ABT.addr : Nat := 0x4003B050
def TST_BIST_ABT.BANKS : Fld := ⟨TST_BIST_ABT.addr, 0, 24⟩
/-- TST_SELF (21_startup_selftest_faults.md). -/
def TST_SELF.addr : Nat := 0x4003B054
def TST_SELF.LBIST : Fld := ⟨TST_SELF.addr, 0, 1⟩
def TST_SELF.RRAM : Fld := ⟨TST_SELF.addr, 1, 1⟩
def TST_SELF.LBIST_PASS : Fld := ⟨TST_SELF.addr, 4, 1⟩
def TST_SELF.RRAM_PASS : Fld := ⟨TST_SELF.addr, 5, 1⟩
def TST_SELF.LBIST_DONE : Fld := ⟨TST_SELF.addr, 8, 1⟩
def TST_SELF.RRAM_DONE : Fld := ⟨TST_SELF.addr, 9, 1⟩
/-- TST_CAP_FREQ (21_startup_selftest_faults.md). -/
def TST_CAP_FREQ.addr : Nat := 0x4003B058
def TST_CAP_FREQ.FREQ : Fld := ⟨TST_CAP_FREQ.addr, 0, 27⟩
/-- TST_CAP_REQ (21_startup_selftest_faults.md). -/
def TST_CAP_REQ.addr : Nat := 0x4003B05C
def TST_CAP_REQ.REQ : Fld := ⟨TST_CAP_REQ.addr, 0, 1⟩
def TST_CAP_REQ.PEND : Fld := ⟨TST_CAP_REQ.addr, 1, 1⟩
def TST_CAP_REQ.RESULT : Fld := ⟨TST_CAP_REQ.addr, 2, 2⟩
/-- TST_TEMP (21_startup_selftest_faults.md). -/
def TST_TEMP.addr : Nat := 0x4003B060
def TST_TEMP.T : Fld := ⟨TST_TEMP.addr, 0, 8⟩
/-- GPIO_CTRL (22_balls_board.md). -/
def GPIO_CTRL.addr : Nat := 0x40039004
def GPIO_CTRL.EN : Fld := ⟨GPIO_CTRL.addr, 0, 1⟩
def GPIO_CTRL.SRST : Fld := ⟨GPIO_CTRL.addr, 1, 1⟩
/-- GPIO_STAT (22_balls_board.md): GPIO status. -/
def GPIO_STAT.addr : Nat := 0x40039008
def GPIO_STAT.BUSY : Fld := ⟨GPIO_STAT.addr, 0, 1⟩
def GPIO_STAT.ERR : Fld := ⟨GPIO_STAT.addr, 1, 1⟩
/-- GPIO_OUTA (22_balls_board.md). -/
def GPIO_OUTA.addr : Nat := 0x40039040
def GPIO_OUTA.VAL : Fld := ⟨GPIO_OUTA.addr, 0, 18⟩
/-- GPIO_OUTB (22_balls_board.md). -/
def GPIO_OUTB.addr : Nat := 0x40039044
def GPIO_OUTB.VAL : Fld := ⟨GPIO_OUTB.addr, 0, 18⟩
/-- GPIO_OEA (22_balls_board.md). -/
def GPIO_OEA.addr : Nat := 0x40039048
def GPIO_OEA.VAL : Fld := ⟨GPIO_OEA.addr, 0, 18⟩
/-- GPIO_OEB (22_balls_board.md). -/
def GPIO_OEB.addr : Nat := 0x4003904C
def GPIO_OEB.VAL : Fld := ⟨GPIO_OEB.addr, 0, 18⟩
/-- GPIO_INA (22_balls_board.md). -/
def GPIO_INA.addr : Nat := 0x40039050
def GPIO_INA.IN : Fld := ⟨GPIO_INA.addr, 0, 18⟩
/-- GPIO_INB (22_balls_board.md). -/
def GPIO_INB.addr : Nat := 0x40039054
def GPIO_INB.IN : Fld := ⟨GPIO_INB.addr, 0, 18⟩
/-- GPIO_PUA (22_balls_board.md). -/
def GPIO_PUA.addr : Nat := 0x40039058
def GPIO_PUA.EN : Fld := ⟨GPIO_PUA.addr, 0, 18⟩
/-- GPIO_PUB (22_balls_board.md). -/
def GPIO_PUB.addr : Nat := 0x4003905C
def GPIO_PUB.EN : Fld := ⟨GPIO_PUB.addr, 0, 18⟩
/-- GPIO_PDA (22_balls_board.md). -/
def GPIO_PDA.addr : Nat := 0x40039060
def GPIO_PDA.EN : Fld := ⟨GPIO_PDA.addr, 0, 18⟩
/-- GPIO_PDB (22_balls_board.md). -/
def GPIO_PDB.addr : Nat := 0x40039064
def GPIO_PDB.EN : Fld := ⟨GPIO_PDB.addr, 0, 18⟩
/-- GPIO_ALTA_LO (22_balls_board.md). -/
def GPIO_ALTA_LO.addr : Nat := 0x40039068
def GPIO_ALTA_LO.ALT0 : Fld := ⟨GPIO_ALTA_LO.addr, 0, 2⟩
def GPIO_ALTA_LO.ALT1 : Fld := ⟨GPIO_ALTA_LO.addr, 2, 2⟩
def GPIO_ALTA_LO.ALT2 : Fld := ⟨GPIO_ALTA_LO.addr, 4, 2⟩
def GPIO_ALTA_LO.ALT3 : Fld := ⟨GPIO_ALTA_LO.addr, 6, 2⟩
def GPIO_ALTA_LO.ALT4 : Fld := ⟨GPIO_ALTA_LO.addr, 8, 2⟩
def GPIO_ALTA_LO.ALT5 : Fld := ⟨GPIO_ALTA_LO.addr, 10, 2⟩
def GPIO_ALTA_LO.ALT6 : Fld := ⟨GPIO_ALTA_LO.addr, 12, 2⟩
def GPIO_ALTA_LO.ALT7 : Fld := ⟨GPIO_ALTA_LO.addr, 14, 2⟩
def GPIO_ALTA_LO.ALT8 : Fld := ⟨GPIO_ALTA_LO.addr, 16, 2⟩
def GPIO_ALTA_LO.ALT9 : Fld := ⟨GPIO_ALTA_LO.addr, 18, 2⟩
def GPIO_ALTA_LO.ALT10 : Fld := ⟨GPIO_ALTA_LO.addr, 20, 2⟩
def GPIO_ALTA_LO.ALT11 : Fld := ⟨GPIO_ALTA_LO.addr, 22, 2⟩
def GPIO_ALTA_LO.ALT12 : Fld := ⟨GPIO_ALTA_LO.addr, 24, 2⟩
def GPIO_ALTA_LO.ALT13 : Fld := ⟨GPIO_ALTA_LO.addr, 26, 2⟩
def GPIO_ALTA_LO.ALT14 : Fld := ⟨GPIO_ALTA_LO.addr, 28, 2⟩
def GPIO_ALTA_LO.ALT15 : Fld := ⟨GPIO_ALTA_LO.addr, 30, 2⟩
/-- GPIO_ALTA_HI (22_balls_board.md). -/
def GPIO_ALTA_HI.addr : Nat := 0x4003906C
def GPIO_ALTA_HI.ALT0 : Fld := ⟨GPIO_ALTA_HI.addr, 0, 2⟩
def GPIO_ALTA_HI.ALT1 : Fld := ⟨GPIO_ALTA_HI.addr, 2, 2⟩
/-- GPIO_ALTB_LO (22_balls_board.md). -/
def GPIO_ALTB_LO.addr : Nat := 0x40039070
def GPIO_ALTB_LO.ALT0 : Fld := ⟨GPIO_ALTB_LO.addr, 0, 2⟩
def GPIO_ALTB_LO.ALT1 : Fld := ⟨GPIO_ALTB_LO.addr, 2, 2⟩
def GPIO_ALTB_LO.ALT2 : Fld := ⟨GPIO_ALTB_LO.addr, 4, 2⟩
def GPIO_ALTB_LO.ALT3 : Fld := ⟨GPIO_ALTB_LO.addr, 6, 2⟩
def GPIO_ALTB_LO.ALT4 : Fld := ⟨GPIO_ALTB_LO.addr, 8, 2⟩
def GPIO_ALTB_LO.ALT5 : Fld := ⟨GPIO_ALTB_LO.addr, 10, 2⟩
def GPIO_ALTB_LO.ALT6 : Fld := ⟨GPIO_ALTB_LO.addr, 12, 2⟩
def GPIO_ALTB_LO.ALT7 : Fld := ⟨GPIO_ALTB_LO.addr, 14, 2⟩
def GPIO_ALTB_LO.ALT8 : Fld := ⟨GPIO_ALTB_LO.addr, 16, 2⟩
def GPIO_ALTB_LO.ALT9 : Fld := ⟨GPIO_ALTB_LO.addr, 18, 2⟩
def GPIO_ALTB_LO.ALT10 : Fld := ⟨GPIO_ALTB_LO.addr, 20, 2⟩
def GPIO_ALTB_LO.ALT11 : Fld := ⟨GPIO_ALTB_LO.addr, 22, 2⟩
def GPIO_ALTB_LO.ALT12 : Fld := ⟨GPIO_ALTB_LO.addr, 24, 2⟩
def GPIO_ALTB_LO.ALT13 : Fld := ⟨GPIO_ALTB_LO.addr, 26, 2⟩
def GPIO_ALTB_LO.ALT14 : Fld := ⟨GPIO_ALTB_LO.addr, 28, 2⟩
def GPIO_ALTB_LO.ALT15 : Fld := ⟨GPIO_ALTB_LO.addr, 30, 2⟩
/-- GPIO_ALTB_HI (22_balls_board.md). -/
def GPIO_ALTB_HI.addr : Nat := 0x40039074
def GPIO_ALTB_HI.ALT0 : Fld := ⟨GPIO_ALTB_HI.addr, 0, 2⟩
def GPIO_ALTB_HI.ALT1 : Fld := ⟨GPIO_ALTB_HI.addr, 2, 2⟩
/-- GPIO_EV# (22_balls_board.md). -/
def GPIO_EV.addr (n : Nat) : Nat := 0x40039080 + 0x4 * n
def GPIO_EV.PIN (n : Nat) : Fld := ⟨GPIO_EV.addr n, 0, 5⟩
def GPIO_EV.BANK (n : Nat) : Fld := ⟨GPIO_EV.addr n, 5, 1⟩
def GPIO_EV.EDGE (n : Nat) : Fld := ⟨GPIO_EV.addr n, 6, 2⟩
def GPIO_EV.EN (n : Nat) : Fld := ⟨GPIO_EV.addr n, 8, 1⟩
/-- ADC_CTRL (22_balls_board.md). -/
def ADC_CTRL.addr : Nat := 0x4003A004
def ADC_CTRL.EN : Fld := ⟨ADC_CTRL.addr, 0, 1⟩
def ADC_CTRL.SRST : Fld := ⟨ADC_CTRL.addr, 1, 1⟩
/-- ADC_STAT (22_balls_board.md). -/
def ADC_STAT.addr : Nat := 0x4003A008
def ADC_STAT.BUSY : Fld := ⟨ADC_STAT.addr, 0, 1⟩
def ADC_STAT.ERR : Fld := ⟨ADC_STAT.addr, 1, 1⟩
def ADC_STAT.OVR : Fld := ⟨ADC_STAT.addr, 2, 1⟩
/-- ADC_CFG (22_balls_board.md). -/
def ADC_CFG.addr : Nat := 0x4003A040
def ADC_CFG.INP : Fld := ⟨ADC_CFG.addr, 0, 4⟩
def ADC_CFG.CONT : Fld := ⟨ADC_CFG.addr, 4, 1⟩
def ADC_CFG.TRIG : Fld := ⟨ADC_CFG.addr, 5, 1⟩
def ADC_CFG.AVG : Fld := ⟨ADC_CFG.addr, 6, 2⟩
/-- ADC_CMD (22_balls_board.md). -/
def ADC_CMD.addr : Nat := 0x4003A044
def ADC_CMD.START : Fld := ⟨ADC_CMD.addr, 0, 1⟩
/-- ADC_RES (22_balls_board.md). -/
def ADC_RES.addr : Nat := 0x4003A048
def ADC_RES.DATA : Fld := ⟨ADC_RES.addr, 0, 12⟩
def ADC_RES.VALID : Fld := ⟨ADC_RES.addr, 16, 1⟩
/-- ADC_CNT (22_balls_board.md). -/
def ADC_CNT.addr : Nat := 0x4003A04C
def ADC_CNT.MISSED : Fld := ⟨ADC_CNT.addr, 0, 8⟩

/-! ## Access masks and reset values, page by page -/

/-- The registers every page has at 0x000 to 0x03C (R47). ID and OWN get their reset values from `resetOf`. -/
def commonRegs : List RegDesc :=
  [{ off := 0x000 }, { off := 0x004, rw := 1#32, w1s := 2#32 }, { off := 0x008 }, { off := 0x00C },
   { off := 0x010, rw := 0xFFFFFFFF#32 }, { off := 0x014, w1c := 0xFFFFFFFF#32 }, { off := 0x018, rw := 0xFFFFFFFF#32 },
   { off := 0x01C, rw := 0x1F#32 }, { off := 0x020 }]

def regsPROT : List RegDesc :=
  [{ off := 0x4, w1s := 0x100#32, reset := 0x1#32 },
   { off := 0x8, w1c := 0x300#32 },
   { off := 0x40 },
   { off := 0x44, rc := 0xFFFFFFFF#32 },
   { off := 0x48 },
   { off := 0x4C, rw := 0x7F#32 },
   { off := 0x50, n1 := 6, s1 := 0x4 },
   { off := 0x68 }]

def regsOVL : List RegDesc :=
  [{ off := 0x4, rw := 0x1#32, w1s := 0x2#32, reset := 0x1#32 },
   { off := 0x8, w1c := 0x78#32 },
   { off := 0x20 },
   { off := 0x40, rw := 0xF#32, w1s := 0x10#32 },
   { off := 0x44 },
   { off := 0x48, wo := 0x3#32 },
   { off := 0x4C, rw := 0x7FFFFC#32, reset := 0x80000#32 },
   { off := 0x50 },
   { off := 0x54, w1c := 0xFFFFFFFF#32 },
   { off := 0x58, w1c := 0xFFFFFFFF#32 },
   { off := 0x5C },
   { off := 0x60 },
   { off := 0x64 }]

def regsRFE : List RegDesc :=
  [{ off := 0x4, rw := 0x1D#32, w1s := 0x2#32, reset := 0x10#32 },
   { off := 0x8, w1c := 0x1C0#32 },
   { off := 0x20 },
   { off := 0x40 },
   { off := 0x44, rw := 0x7FFFFFF#32, reset := 0x6C80000#32 },
   { off := 0x48, rw := 0x77#32, reset := 0x21#32 },
   { off := 0x4C, rw := 0x3FF7#32 },
   { off := 0x50, rw := 0xFFF#32, reset := 0x422#32 },
   { off := 0x54, w1s := 0xFF#32 },
   { off := 0x58, w1c := 0xFFFF0000#32 },
   { off := 0x5C, rw := 0xFFFFFF#32, reset := 0x141770#32 },
   { off := 0x60 },
   { off := 0x64, rc := 0xFFFFFFFF#32 }]

def regsAGC : List RegDesc :=
  [{ off := 0x4, rw := 0xD#32, w1s := 0x2#32, reset := 0x1#32 },
   { off := 0x8, w1c := 0x18#32 },
   { off := 0x40, rw := 0xF0F#32, reset := 0xB00#32 },
   { off := 0x4C, rw := 0xF0F#32, reset := 0xB00#32 },
   { off := 0x44, rw := 0xF00#32, reset := 0xB00#32 },
   { off := 0x50, rw := 0xF00#32, reset := 0xB00#32 },
   { off := 0x48, rw := 0xFF#32, reset := 0xF4#32 },
   { off := 0x54, rw := 0x7FFF1F#32, reset := 0x4CE0C#32 },
   { off := 0x58 },
   { off := 0x5C, rc := 0xFFFFFFFF#32 }]

def regsCNP : List RegDesc :=
  [{ off := 0x4, rw := 0x5#32, w1s := 0x2#32 },
   { off := 0x8, w1c := 0x38#32 },
   { off := 0x20 },
   { off := 0x40, reset := 0xFFFF#32 },
   { off := 0x44 },
   { off := 0x48 },
   { off := 0x4C, rc := 0xFFFFFFFF#32 },
   { off := 0x50, rc := 0xFFFFFFFF#32 },
   { off := 0x54, rc := 0xFFFFFFFF#32 },
   { off := 0x58, rc := 0xFFFFFFFF#32 },
   { off := 0x5C, rc := 0xFFFFFFFF#32 }]

def regsLANE : List RegDesc :=
  [{ off := 0x4, rw := 0x5#32, w1s := 0x2#32, reset := 0x1#32 },
   { off := 0x8, w1c := 0x8E0#32 },
   { off := 0x20 },
   { off := 0x40, rw := 0x33F01#32 },
   { off := 0x44, rw := 0xFFFFFFF#32, reset := 0x6C80000#32 },
   { off := 0x48, rw := 0x3FF0F3F#32, reset := 0x400814#32 },
   { off := 0x4C, rw := 0x1FFFFF#32, reset := 0x6C483#32 },
   { off := 0x50, rw := 0xFF00#32, reset := 0xA0A6A6A6#32 },
   { off := 0x58 },
   { off := 0x5C },
   { off := 0x60 },
   { off := 0x64, rc := 0xFFFFFFFF#32 },
   { off := 0x68 }]

def regsFEC : List RegDesc :=
  [{ off := 0x4, rw := 0x1#32, w1s := 0x2#32, reset := 0x1#32 },
   { off := 0x8 },
   { off := 0x40, rw := 0xFF013F#32, reset := 0x300114#32 },
   { off := 0x44, rc := 0xFFFFFFFF#32 },
   { off := 0x48, rc := 0x3FFFFF#32 }]

def regsTXM : List RegDesc :=
  [{ off := 0x4, rw := 0x5#32, w1s := 0x2#32 },
   { off := 0x8, w1c := 0x5E0#32 },
   { off := 0x20 },
   { off := 0x40, rw := 0xFF07#32, reset := 0x1400#32 },
   { off := 0x44, rw := 0x7FFFFFF#32 },
   { off := 0x48, rw := 0x7FFFFFF#32 },
   { off := 0x4C, rw := 0xFFFF#32, reset := 0x1C1C#32 },
   { off := 0x50 },
   { off := 0x54, rw := 0x1F#32, reset := 0x4#32 },
   { off := 0x58, n1 := 8, s1 := 0x4, rw := 0xFFFFFFFF#32 },
   { off := 0x78, rw := 0x1#32 },
   { off := 0x7C, rw := 0x3F#32 },
   { off := 0x80, rw := 0xFFFF#32 },
   { off := 0x84, w1s := 0x1#32 },
   { off := 0x88, rw := 0x7FFFFFF#32, reset := 0x6C80000#32 },
   { off := 0x8C, rw := 0x13F3F3F#32, reset := 0x2F2500#32 },
   { off := 0x90 },
   { off := 0x94 },
   { off := 0x98 },
   { off := 0x9C },
   { off := 0xA0 },
   { off := 0xA4, rc := 0xFFFFFFFF#32 },
   { off := 0xA8 },
   { off := 0xAC, rw := 0x3F03#32 }]

def regsCAD : List RegDesc :=
  [{ off := 0x4, rw := 0x1#32, w1s := 0x2#32 },
   { off := 0x8, w1c := 0x4DFC#32 },
   { off := 0x20 },
   { off := 0x40, rw := 0x3FFFF#32, reset := 0x10960#32 },
   { off := 0x44, rw := 0xFFFFFFFF#32, reset := 0x7D0012C#32 },
   { off := 0x48, rw := 0xFFFFFFFF#32, reset := 0x1F416A8#32 },
   { off := 0x4C, rw := 0xFFFFFFFF#32, reset := 0x1900096#32 },
   { off := 0x50, n1 := 4, s1 := 0x4, rw := 0x8003FFFF#32, reset := 0x65#32 },
   { off := 0x60, n1 := 4, s1 := 0x4, rw := 0xFFF07FF#32 },
   { off := 0x70, rw := 0x7777#32, reset := 0x1333#32 },
   { off := 0x74, rw := 0x77#32, reset := 0x71#32 },
   { off := 0x78, wo := 0xFFFFFFFF#32 },
   { off := 0x7C, rw := 0x7FF#32, reset := 0x40#32 },
   { off := 0x80, rw := 0x1FF#32 },
   { off := 0x84, rw := 0x1FF#32 },
   { off := 0x88, rw := 0xFF#32 },
   { off := 0x90, n1 := 4, s1 := 0x8, rw := 0x7FFFFFF#32, reset := 0x6BE4000#32 },
   { off := 0x94, n1 := 4, s1 := 0x8, rw := 0xFFFFFF#32, reset := 0x7D000#32 },
   { off := 0xB0 },
   { off := 0xB4 },
   { off := 0xB8, rw := 0x47FF07FF#32, w1s := 0x80000000#32 },
   { off := 0xBC, rc := 0xFFFFFFFF#32 },
   { off := 0xC0, rc := 0xFFFFFFFF#32 },
   { off := 0xC4, rc := 0xFFFFFFFF#32 },
   { off := 0xC8 },
   { off := 0xCC },
   { off := 0xD0 },
   { off := 0xD4, rc := 0xFFFFFFFF#32 },
   { off := 0xD8, rw := 0x1E#32, w1s := 0x1#32 },
   { off := 0xE0, rw := 0xFFFFFFFF#32 },
   { off := 0xE4, rw := 0xFFFFFFFF#32 },
   { off := 0xE8, rw := 0x3FFFF#32, reset := 0xFFFF#32 },
   { off := 0xEC, rw := 0xFFFF#32, reset := 0xFFFF#32 }]

def regsNBR : List RegDesc :=
  [{ off := 0x4, rw := 0x1#32, w1s := 0x2#32, reset := 0x1#32 },
   { off := 0x8, w1c := 0x8#32 },
   { off := 0x40, rw := 0xFFFFFFFF#32, reset := 0xF9724745#32 },
   { off := 0x44, rw := 0xFFFFFFFF#32, reset := 0x68DB8BB#32 },
   { off := 0x48, rw := 0xFFFFFF0F#32, reset := 0x64C0302#32 },
   { off := 0x4C, rw := 0xFFFF#32, reset := 0x32#32 },
   { off := 0x50, rw := 0x1#32, reset := 0x1#32 },
   { off := 0x54, rw := 0x400003FF#32, w1s := 0x80000000#32 },
   { off := 0x58, rc := 0xFFFFFFFF#32 },
   { off := 0x5C }]

def regsHDR : List RegDesc :=
  [{ off := 0x4, rw := 0x5#32, w1s := 0x2#32, reset := 0x5#32 },
   { off := 0x8, w1c := 0x60#32 },
   { off := 0x20 },
   { off := 0x40, rw := 0x7FF0007#32, reset := 0x800004#32 },
   { off := 0x44, rw := 0xFFFF#32, reset := 0x5DC#32 },
   { off := 0x48, rw := 0x3#32 },
   { off := 0x4C },
   { off := 0x50 },
   { off := 0x54 },
   { off := 0x58 },
   { off := 0x5C, rc := 0xFFFFFFFF#32 },
   { off := 0x60, rc := 0xFFFFFFFF#32 },
   { off := 0x64, rc := 0xFFFFFFFF#32 },
   { off := 0x68, rc := 0xFFFFFFFF#32 },
   { off := 0x6C, rc := 0xFFFFFFFF#32 },
   { off := 0x70 },
   { off := 0x74 }]

def regsTRF : List RegDesc :=
  [{ off := 0x4, rw := 0x5#32, w1s := 0x2#32, reset := 0x1#32 },
   { off := 0x8, w1c := 0x7C#32 },
   { off := 0x20 },
   { off := 0x40, rw := 0x7FF0000#32, reset := 0x400400#32 },
   { off := 0x44, rc := 0x800003FF#32 },
   { off := 0x50, rc := 0x800003FF#32 },
   { off := 0x54, rc := 0x800003FF#32 },
   { off := 0x48, wo := 0x3FF#32 },
   { off := 0x4C, wo := 0x3F03FF#32 },
   { off := 0x58, rw := 0x7FF#32, reset := 0x100#32 },
   { off := 0x5C, wo := 0x33F#32 },
   { off := 0x64, rc := 0xFFFFFFFF#32 },
   { off := 0x68, rc := 0xFFFFFFFF#32 },
   { off := 0x6C, rw := 0xFFFF013F#32, reset := 0x640000#32 },
   { off := 0x70 },
   { off := 0x74, rw := 0x3F#32 },
   { off := 0x78 },
   { off := 0x7C },
   { off := 0x100, n1 := 64, s1 := 0x4, rw := 0x1FFFDFFF#32, reset := 0x1E02#32 },
   { off := 0x200, n1 := 64, s1 := 0x4 },
   { off := 0x300, n1 := 64, s1 := 0x4, rc := 0xFFFF07FF#32 }]

def regsWEIR : List RegDesc :=
  [{ off := 0x4, rw := 0x1#32, w1s := 0x2#32, reset := 0x1#32 },
   { off := 0x8, w1c := 0x4#32 },
   { off := 0x40, rw := 0x1F#32 },
   { off := 0x44, rc := 0xFFFFFFFF#32 },
   { off := 0x48, rc := 0xFFFFFFFF#32 },
   { off := 0x4C, rc := 0xFFFFFFFF#32 },
   { off := 0x80, n1 := 32, s1 := 0x4, rw := 0xF7#32, reset := 0x40#32 },
   { off := 0x100, n1 := 32, s1 := 0x4, rw := 0xFFFFF#32 },
   { off := 0x200, n1 := 32, s1 := 0x4, rw := 0xFFFFF#32 },
   { off := 0x180, n1 := 32, s1 := 0x4, rw := 0xFFFF#32, reset := 0x800#32 },
   { off := 0x280, n1 := 32, s1 := 0x4, rw := 0xFFFF#32, reset := 0x800#32 },
   { off := 0x300, n1 := 32, s1 := 0x4, reset := 0x800#32 },
   { off := 0x380, n1 := 32, s1 := 0x4, reset := 0x800#32 }]

def regsSLU : List RegDesc :=
  [{ off := 0x4, rw := 0xD#32, w1s := 0x2#32 },
   { off := 0x8, reset := 0x41C#32 },
   { off := 0x40, rw := 0xFFFFFFFF#32 },
   { off := 0x44, rw := 0xFFFFFFFF#32 },
   { off := 0x48, rw := 0x3FFFFFF#32, reset := 0xF4240#32 },
   { off := 0x4C, rw := 0xFFFF01FF#32, reset := 0x3E801C1#32 },
   { off := 0x50, rc := 0xFFFFFFFF#32 },
   { off := 0x80, n1 := 32, s1 := 0x4, rw := 0x7FFFFFF#32, reset := 0x7000000#32 }]

def regsDCA : List RegDesc :=
  [{ off := 0x4, rw := 0x5#32, w1s := 0x2#32 },
   { off := 0x8 },
   { off := 0x40, rc := 0xFFFFFFFF#32 },
   { off := 0x80, n1 := 8, s1 := 0x20, rw := 0x7FFFFFF#32 },
   { off := 0x84, n1 := 8, s1 := 0x20, rw := 0x7FFFFFF#32 },
   { off := 0x88, n1 := 8, s1 := 0x20, rw := 0x800FFFFF#32, reset := 0x2710#32 },
   { off := 0x8C, n1 := 8, s1 := 0x20, rw := 0xFFFFF#32 },
   { off := 0x90, n1 := 8, s1 := 0x20, rw := 0xFFFFFF#32, reset := 0x280E10#32 },
   { off := 0x94, n1 := 8, s1 := 0x20, rw := 0x80FFFFFF#32, reset := 0x140190#32 },
   { off := 0x98, n1 := 8, s1 := 0x20 },
   { off := 0x9C, n1 := 8, s1 := 0x20 }]

def regsNTU : List RegDesc :=
  [{ off := 0x4, rw := 0x1C#32, reset := 0x1D#32 },
   { off := 0x8, w1c := 0x7C0#32 },
   { off := 0x20 },
   { off := 0x40 },
   { off := 0x44 },
   { off := 0x48 },
   { off := 0x4C },
   { off := 0x50 },
   { off := 0x54 },
   { off := 0x58 },
   { off := 0x5C },
   { off := 0x60, rw := 0xFFFFFFFF#32 },
   { off := 0x64, rw := 0xFFFFF1FF#32, reset := 0x3E82064#32 },
   { off := 0x68, rw := 0xFF03#32, reset := 0x1E00#32 },
   { off := 0x6C, rw := 0xFFFFFFFF#32, reset := 0xE10003C#32 },
   { off := 0x70, rw := 0xFFFF#32, reset := 0xC8#32 },
   { off := 0x74, reset := 0xFFFFFFFF#32 },
   { off := 0x78 },
   { off := 0x7C },
   { off := 0x80 },
   { off := 0x84 },
   { off := 0x88, rw := 0xFFFFFFFF#32 },
   { off := 0x8C, rw := 0xFFFFFFFF#32 },
   { off := 0x90, wo := 0x7#32 },
   { off := 0x94, wo := 0xFFFFFFFF#32 },
   { off := 0x98, rw := 0xFFFFFFFF#32 },
   { off := 0x9C, rw := 0xFFFFFFFF#32 },
   { off := 0xA0, rw := 0xFFFF#32, reset := 0x3E8#32 },
   { off := 0xA4 },
   { off := 0xA8 },
   { off := 0xAC },
   { off := 0xB0, rc := 0xFFFFFFFF#32 },
   { off := 0xC0, n1 := 4, s1 := 0x10, rw := 0xFFFF07#32, w1c := 0x8#32, reset := 0x3E800#32 },
   { off := 0xC4, n1 := 4, s1 := 0x10, rw := 0xFFFFFFFF#32 },
   { off := 0xC8, n1 := 4, s1 := 0x10, rw := 0xFFFFFFFF#32 },
   { off := 0xCC, n1 := 4, s1 := 0x10, rw := 0xFFFFFFFF#32, reset := 0x1E84800#32 }]

def regsGMB : List RegDesc :=
  [{ off := 0x8, reset := 0x8#32 },
   { off := 0x40, n1 := 64, s1 := 0x4 },
   { off := 0x140, n1 := 8, s1 := 0x4 },
   { off := 0x160 },
   { off := 0x164 },
   { off := 0x168 },
   { off := 0x16C },
   { off := 0x170 },
   { off := 0x174 },
   { off := 0x178 }]

def regsGCORE : List RegDesc :=
  [{ off := 0x40, wo := 0x7FFF#32 },
   { off := 0x44, n1 := 8, s1 := 0x4 },
   { off := 0x64 },
   { off := 0x68, rw := 0xFFFF#32 },
   { off := 0x6C, w1c := 0xFFFF#32 },
   { off := 0x70, rw := 0xFFFFFFFF#32, reset := 0xFFFFFFFF#32 },
   { off := 0x74 },
   { off := 0x78, rw := 0xFF#32, w1s := 0x100#32, reset := 0x8#32 },
   { off := 0x7C, wo := 0xFFFF#32 },
   { off := 0x80, wo := 0xFFFF#32 },
   { off := 0x84, rw := 0x3F0F#32, w1c := 0x20000#32, reset := 0x806#32 },
   { off := 0x88, wo := 0xFFFFFFFF#32 }]

def regsGPC : List RegDesc :=
  [{ off := 0x40, n1 := 4, s1 := 0x20, rw := 0x1FFF7#32, w1s := 0x20000#32, reset := 0x40#32 },
   { off := 0x44, n1 := 4, s1 := 0x20 },
   { off := 0x48, n1 := 4, s1 := 0x20 },
   { off := 0x4C, n1 := 4, s1 := 0x20 },
   { off := 0x50, n1 := 4, s1 := 0x20 },
   { off := 0x54, n1 := 4, s1 := 0x20, w1c := 0x2#32, rc := 0xFFFF0000#32 }]

def regsGADC : List RegDesc :=
  [{ off := 0x40, rw := 0x173#32, w1s := 0x200#32 },
   { off := 0x44, rc := 0x10000#32 }]

def regsGLOG : List RegDesc :=
  [{ off := 0x40, n1 := 3, s1 := 0x4, wo := 0xFFFFFFFF#32 },
   { off := 0x8, w1c := 0x4#32 }]

def regsICU : List RegDesc :=
  [{ off := 0x0, n1 := 3, s1 := 0x4, rw := 0xFFFFFFFF#32 },
   { off := 0xC, n1 := 3, s1 := 0x4, w1c := 0xFFFFFFFF#32 },
   { off := 0x18, n1 := 3, s1 := 0x4, rw := 0xFFFFFFFF#32 },
   { off := 0x24, n1 := 3, s1 := 0x4 },
   { off := 0x30, n1 := 12, s1 := 0x4, rw := 0x77777777#32, reset := 0x77777777#32 },
   { off := 0x60 },
   { off := 0x64, rw := 0xFFFFFE00#32, reset := 0x8000000#32 }]

def regsCORE : List RegDesc :=
  [{ off := 0x0, rw := 0x1#32, reset := 0x1#32 },
   { off := 0x4 },
   { off := 0x8 }]

def regsMPU : List RegDesc :=
  [{ off := 0x0, rw := 0x3#32, reset := 0x2#32 },
   { off := 0x40, n1 := 16, s1 := 0x10, rw := 0xFFFFFFE1#32 },
   { off := 0x44, n1 := 16, s1 := 0x10, rw := 0xFFFFFFE0#32 },
   { off := 0x48, n1 := 16, s1 := 0x10, rw := 0x377#32 }]

def regsCACHE : List RegDesc :=
  [{ off := 0x0, rw := 0x3#32, w1s := 0xC#32 },
   { off := 0x4, wo := 0xFFFFFFE0#32 },
   { off := 0x8, rc := 0xFF00#32 }]

def regsFLC : List RegDesc :=
  [{ off := 0x4, rw := 0x1#32, w1s := 0x2#32, reset := 0x1#32 },
   { off := 0x8, w1c := 0x3F8#32 },
   { off := 0x20 },
   { off := 0x40, wo := 0xFFFF#32 },
   { off := 0x44, wo := 0xF#32 },
   { off := 0x48, wo := 0x7FFFFF#32 },
   { off := 0x4C, wo := 0xFFFFFFFF#32 },
   { off := 0x50, rw := 0x1F#32, reset := 0xA#32 },
   { off := 0x54 },
   { off := 0x58 },
   { off := 0x5C, w1s := 0xFFFFFFFF#32 },
   { off := 0x60, w1s := 0xFFFFFFFF#32 },
   { off := 0x64 },
   { off := 0x68 },
   { off := 0x6C, rw := 0x3F#32 },
   { off := 0x70, rc := 0x3FFFF#32 },
   { off := 0x74 }]

def regsDMA : List RegDesc :=
  [{ off := 0x4, rw := 0x1#32, w1s := 0x2#32, reset := 0x1#32 },
   { off := 0x8 },
   { off := 0x80, n1 := 8, s1 := 0x20, rw := 0xFFFFFFFF#32 },
   { off := 0x84, n1 := 8, s1 := 0x20, rw := 0xFFFFFFFF#32 },
   { off := 0x88, n1 := 8, s1 := 0x20, rw := 0xFFFF#32 },
   { off := 0x8C, n1 := 8, s1 := 0x20, rw := 0xFFFF#32, reset := 0xDC#32 },
   { off := 0x90, n1 := 8, s1 := 0x20, w1c := 0x12#32 },
   { off := 0x94, n1 := 8, s1 := 0x20 }]

def regsSYS : List RegDesc :=
  [{ off := 0x100, rc := 0xFFFFFFFF#32 },
   { off := 0x104 },
   { off := 0x108, w1c := 0xFFFFFF#32 },
   { off := 0x4, reset := 0x1#32 },
   { off := 0x8, w1c := 0x24#32 },
   { off := 0x40, wo := 0x30#32 },
   { off := 0x44, w1c := 0x3FF#32 },
   { off := 0x48, wo := 0x3FFFF#32 },
   { off := 0x4C },
   { off := 0x50, rw := 0x6FFFFFFF#32, w1s := 0x10000000#32, reset := 0x406403E8#32 },
   { off := 0x54, wo := 0xFFFF#32 },
   { off := 0x58 },
   { off := 0x5C, rw := 0x1#32 },
   { off := 0x60, w1c := 0xF#32 }]

def regsCIPH : List RegDesc :=
  [{ off := 0x4, reset := 0x1#32 },
   { off := 0x8, w1c := 0xC#32 },
   { off := 0x20 },
   { off := 0x40, rw := 0x1F#32 },
   { off := 0x44, n1 := 8, s1 := 0x4, wo := 0xFFFFFFFF#32 },
   { off := 0x64, rw := 0xFF1F#32 },
   { off := 0x68, rw := 0xFFFFFFFF#32, reset := 0x1000000#32 },
   { off := 0x6C, rw := 0xFFFFFFFF#32 },
   { off := 0x70, wo := 0x7#32 },
   { off := 0x74 },
   { off := 0x78 },
   { off := 0x7C },
   { off := 0x80 },
   { off := 0x84 },
   { off := 0x88, rc := 0xFFFFFF#32 }]

def regsCIPU : List RegDesc :=
  [{ off := 0x4, rw := 0x1#32, w1s := 0x2#32, reset := 0x1#32 },
   { off := 0x8, w1c := 0xE0#32, reset := 0x800#32 },
   { off := 0x20 },
   { off := 0x40, rw := 0x1F1F1F7F#32 },
   { off := 0x44, rw := 0x1FFFFF#32 },
   { off := 0x48, rw := 0xFFFFFFFF#32 },
   { off := 0x4C, n1 := 4, s1 := 0x4, rw := 0xFFFFFFFF#32 },
   { off := 0x5C, wo := 0x3#32 },
   { off := 0x60, wo := 0xFFFFFFFF#32 },
   { off := 0x64, rc := 0xFFFFFFFF#32 },
   { off := 0x68, n1 := 8, s1 := 0x4, rw := 0xFFFFFFFF#32 },
   { off := 0x88, rc := 0xFFFFFFFF#32 }]

def regsUPD : List RegDesc :=
  [{ off := 0x4, rw := 0x1#32, w1s := 0x2#32, reset := 0x1#32 },
   { off := 0x8, w1c := 0x20#32 },
   { off := 0x20 },
   { off := 0x40, rw := 0xFFFFFFFF#32 },
   { off := 0x44, rw := 0x13F3F1F#32, reset := 0x1050400#32 },
   { off := 0x48, rw := 0x31F0FFF#32, reset := 0x1140A28#32 },
   { off := 0x4C },
   { off := 0x50, wo := 0x7#32 },
   { off := 0x54 },
   { off := 0x58 }]

def regsTMR : List RegDesc :=
  [{ off := 0x4, rw := 0x1#32, w1s := 0x2#32 },
   { off := 0x8, w1c := 0xF000#32 },
   { off := 0x40, rw := 0xFFFFFFFF#32 },
   { off := 0x44, rw := 0xFFFFFFFF#32, reset := 0xFFFFFFFF#32 },
   { off := 0x48, rw := 0x1FF03#32 },
   { off := 0x4C, rw := 0xFF#32 },
   { off := 0x60, n1 := 4, s1 := 0x10, rw := 0x3FFF3F#32 },
   { off := 0x64, n1 := 4, s1 := 0x10, rw := 0xFFFFFFFF#32 },
   { off := 0x68, n1 := 4, s1 := 0x10 }]

def regsRTC : List RegDesc :=
  [{ off := 0x4, rw := 0x1#32, reset := 0x1#32 },
   { off := 0x8, w1c := 0x1C8#32, reset := 0x18#32 },
   { off := 0x40, wo := 0xFFFF#32 },
   { off := 0x44 },
   { off := 0x50, rw := 0x1F3F3F#32 },
   { off := 0x48, reset := 0x5000101#32 },
   { off := 0x54, rw := 0x7F0F1F#32, reset := 0x101#32 },
   { off := 0x4C },
   { off := 0x58, w1s := 0x1#32 },
   { off := 0x5C, rw := 0x3FF#32 },
   { off := 0x60, rw := 0x3F#32, reset := 0x20#32 },
   { off := 0x70, n1 := 2, s1 := 0x10, rw := 0x1F3F3F#32 },
   { off := 0x74, n1 := 2, s1 := 0x10, rw := 0x7F0F1F#32 },
   { off := 0x78, n1 := 2, s1 := 0x10, rw := 0x13F#32, w1c := 0xC00#32 },
   { off := 0x90, n1 := 8, s1 := 0x4, rw := 0xFFFFFFFF#32 }]

def regsCLK : List RegDesc :=
  [{ off := 0x4, reset := 0x1#32 },
   { off := 0x8, w1c := 0x200#32 },
   { off := 0x40, rw := 0x3F#32, reset := 0x20#32 },
   { off := 0x44, rw := 0x1F#32, reset := 0x10#32 }]

def regsPWR : List RegDesc :=
  [{ off := 0x4, reset := 0x1#32 },
   { off := 0x8, w1c := 0x600#32 },
   { off := 0x40, rw := 0x7#32, reset := 0x1#32 },
   { off := 0x44, rw := 0x3F#32 },
   { off := 0x48, w1c := 0x7F#32 },
   { off := 0x4C, rw := 0x3FFFF#32 },
   { off := 0x50, rw := 0x3FFFF#32 },
   { off := 0x54, rw := 0xFFFFFF#32 },
   { off := 0x58, rw := 0x3FF03FF#32, reset := 0x2BC0064#32 },
   { off := 0x5C, rw := 0xFFFF#32, reset := 0xC8#32 },
   { off := 0x60, rw := 0xFFFFFFFF#32 },
   { off := 0x64, rw := 0xFFFFFFFF#32 },
   { off := 0x68, rw := 0x7#32, reset := 0x5#32 },
   { off := 0x6C, rw := 0xF#32, reset := 0x2#32 },
   { off := 0x70, rc := 0xFFFFFFFF#32 }]

def regsAVS : List RegDesc :=
  [{ off := 0x4, rw := 0x1#32, w1s := 0x2#32, reset := 0x1#32 },
   { off := 0x8, w1c := 0x4#32 },
   { off := 0x40, rw := 0x3FF03FF#32, reset := 0x3B601C2#32 },
   { off := 0x44, reset := 0x2BC02BC#32 },
   { off := 0x48, rw := 0x3FF0001#32, reset := 0x3520000#32 },
   { off := 0x4C, rw := 0x3#32 },
   { off := 0x50, rw := 0xF#32, reset := 0x4#32 }]

def regsCUL : List RegDesc :=
  [{ off := 0x4, rw := 0x1#32, w1s := 0x2#32, reset := 0x1#32 },
   { off := 0x8, w1c := 0xF8#32 },
   { off := 0x20 },
   { off := 0x40, w1s := 0x1#32 },
   { off := 0x44, wo := 0xFFFFFFFF#32 },
   { off := 0x48, rw := 0xFFFFFFFF#32 },
   { off := 0x50, n1 := 4, s1 := 0x4, rw := 0xFFFFFFFF#32 },
   { off := 0x60, rc := 0xFFFFFFFF#32 },
   { off := 0x64, rw := 0x1F#32 },
   { off := 0x68, rc := 0xFFFFFFFF#32 },
   { off := 0x80, n1 := 32, s1 := 0x14, n2 := 3, s2 := 0x4, rw := 0xFFFFFFFF#32 },
   { off := 0x8C, n1 := 32, s1 := 0x14, rw := 0xFFFFFFFF#32 },
   { off := 0x90, n1 := 32, s1 := 0x14, rw := 0xFFFFFFFF#32 }]

def regsHSP : List RegDesc :=
  [{ off := 0x4, rw := 0x1#32, w1s := 0x2#32, reset := 0x1#32 },
   { off := 0x8, w1c := 0x1F8#32 },
   { off := 0x20 },
   { off := 0x40, rw := 0xF3F#32, reset := 0xA00#32 },
   { off := 0x44 },
   { off := 0x48 },
   { off := 0x4C },
   { off := 0x50 },
   { off := 0x54 },
   { off := 0x58, rc := 0xFFFFFFFF#32 }]

def regsPSP : List RegDesc :=
  [{ off := 0x4, rw := 0x1#32, w1s := 0x2#32 },
   { off := 0x8, w1c := 0xDC#32 },
   { off := 0x20 },
   { off := 0x40, rw := 0x1FFF#32, reset := 0x3#32 },
   { off := 0x44, rw := 0x1FFFFF#32, reset := 0xC40#32 },
   { off := 0x48, rw := 0xFFFF#32 },
   { off := 0x4C, rw := 0xFFFFFFFF#32 },
   { off := 0x50, rw := 0x3FFF#32, reset := 0x8#32 },
   { off := 0x54, w1s := 0x3#32 },
   { off := 0x58 },
   { off := 0x5C, wo := 0xFFFFFFFF#32 },
   { off := 0x60, rc := 0xFFFFFFFF#32 },
   { off := 0x64, rw := 0xFF#32, reset := 0x11#32 }]

def regsDBG : List RegDesc :=
  [{ off := 0x4, reset := 0x1#32 },
   { off := 0x8, w1c := 0x8#32 },
   { off := 0x40, w1s := 0x7#32 },
   { off := 0x44 },
   { off := 0x48, rw := 0x1F#32 },
   { off := 0x4C, rw := 0xFFFFFFFF#32 },
   { off := 0x50, n1 := 4, s1 := 0x8, rw := 0xFFFFFFFF#32 },
   { off := 0x54, n1 := 4, s1 := 0x8, rw := 0x3#32 }]

def regsTST : List RegDesc :=
  [{ off := 0x4, rw := 0x1#32, w1s := 0x2#32, reset := 0x1#32 },
   { off := 0x8, w1c := 0x4#32 },
   { off := 0x40, w1s := 0xFFFFFF#32 },
   { off := 0x44 },
   { off := 0x48, w1c := 0xFFFFFF#32 },
   { off := 0x4C, w1c := 0xFFFFFF#32 },
   { off := 0x50, w1c := 0xFFFFFF#32 },
   { off := 0x54, w1s := 0x3#32 },
   { off := 0x58, rw := 0x7FFFFFF#32, reset := 0x6C80000#32 },
   { off := 0x5C, w1s := 0x1#32 },
   { off := 0x60 }]

def regsGPIO : List RegDesc :=
  [{ off := 0x4, w1s := 0x2#32, reset := 0x1#32 },
   { off := 0x8 },
   { off := 0x40, rw := 0x3FFFF#32 },
   { off := 0x44, rw := 0x3FFFF#32 },
   { off := 0x48, rw := 0x3FFFF#32 },
   { off := 0x4C, rw := 0x3FFFF#32 },
   { off := 0x50 },
   { off := 0x54 },
   { off := 0x58, rw := 0x3FFFF#32 },
   { off := 0x5C, rw := 0x3FFFF#32 },
   { off := 0x60, rw := 0x3FFFF#32 },
   { off := 0x64, rw := 0x3FFFF#32 },
   { off := 0x68, rw := 0xFFFFFFFF#32 },
   { off := 0x6C, rw := 0xF#32 },
   { off := 0x70, rw := 0xFFFFFFFF#32 },
   { off := 0x74, rw := 0xF#32 },
   { off := 0x80, n1 := 8, s1 := 0x4, rw := 0x1FF#32 }]

def regsADC : List RegDesc :=
  [{ off := 0x4, rw := 0x1#32, w1s := 0x2#32 },
   { off := 0x8, w1c := 0x4#32 },
   { off := 0x40, rw := 0xFF#32 },
   { off := 0x44, w1s := 0x1#32 },
   { off := 0x48, rc := 0x10000#32 },
   { off := 0x4C, rc := 0xFF#32 }]

/-- The block registers of the pages from 0x4000_0000 on, in the order of the pages. -/
def pageTable : List (List RegDesc) :=
  [regsSYS, regsPWR, regsAVS, regsCLK, regsPROT, regsOVL, regsRFE, regsAGC, regsCNP, regsLANE,
   regsLANE, regsLANE, regsLANE, regsLANE, regsLANE, regsLANE, regsLANE, regsLANE, regsLANE, regsLANE,
   regsLANE, regsLANE, regsLANE, regsLANE, regsLANE, regsFEC, regsTXM, regsCAD, regsNBR, regsHDR,
   regsTRF, regsWEIR, regsSLU, regsNTU, regsFLC, regsCIPH, regsCIPU, regsCIPU, regsCIPU, regsCIPU,
   regsCIPU, regsCIPU, regsCIPU, regsCIPU, regsUPD, regsTMR, regsTMR, regsTMR, regsTMR, regsTMR,
   regsTMR, regsTMR, regsTMR, regsRTC, regsCUL, regsHSP, regsPSP, regsGPIO, regsADC, regsTST,
   regsDMA, regsGMB, regsDCA, regsDBG]

/-- The block registers of a page, by its index (core-private pages 0xA0000 to 0xA0003 count from 0x4000_0000 too). -/
def pageRegs (p : Nat) : List RegDesc :=
  if p < 0x40 then (pageTable[p]?).getD []
  else if p = 0x10001 then regsGCORE
  else if p = 0x10002 then regsGPC
  else if p = 0x10003 then regsGADC
  else if p = 0x10004 then regsGLOG
  else if p = 0xA0000 then regsICU
  else if p = 0xA0001 then regsCORE
  else if p = 0xA0002 then regsMPU
  else if p = 0xA0003 then regsCACHE
  else []

end Sys2Proof.Machine
end

