-- ==== Sys2Proof/Machine/Modes.lean ====
section
/-!
DEFINITION. The modes of the cipher engine (R353, R362): CTR, CBC, CCM*, GCM and CMAC of NIST SP 800-38A to D over AES, and the
nonce of the radio's CCM* (R366).
-/
namespace Sys2Proof.Machine
open Sys2Proof

/-- Zeros to the next multiple of 16. -/
def padTo16 (l : List Byte) : List Byte := l ++ List.replicate ((16 - l.length % 16) % 16) 0#8
def blocks (l : List Byte) : List (List Byte) := chunks ((l.length + 15) / 16) 16 l
def zeros16 : List Byte := List.replicate 16 0#8

/-- The last 4 bytes, big-endian, plus `i` modulo 2^32. -/
def ctrAdd (b : List Byte) (i : Nat) : List Byte :=
  b.take 12 ++ beBytes 4 (((b.drop 12).foldl (fun n x => n * 256 + x.toNat) 0 + i) % 2 ^ 32)

/-- Keystream blocks from a counter block on, over a message. -/
def ctrFrom (key iv : List Byte) : Nat → List (List Byte) → List Byte
  | _, [] => []
  | i, b :: bs => xorL (aes key (ctrAdd iv i)) b ++ ctrFrom key iv (i + 1) bs
def ctrMode (key iv m : List Byte) : List Byte := ctrFrom key iv 0 (blocks m)

def cbcEnc (key : List Byte) : List Byte → List (List Byte) → List Byte
  | _, [] => []
  | iv, b :: bs => let c := aes key (xorL iv b); c ++ cbcEnc key c bs
def cbcDec (key : List Byte) : List Byte → List (List Byte) → List Byte
  | _, [] => []
  | iv, b :: bs => xorL iv (aesInv key b) ++ cbcDec key b bs

/-- CBC-MAC over whole blocks. -/
def cbcMac (key : List Byte) (bs : List (List Byte)) : List Byte := bs.foldl (fun x b => aes key (xorL x b)) zeros16

/-! ## CCM*, nonce of 13 bytes, length field of 2 -/

def ccmA (nonce : List Byte) (i : Nat) : List Byte := [1#8] ++ nonce.take 13 ++ beBytes 2 i
def ccmCrypt (key nonce m : List Byte) : List Byte := ctrFrom key (ccmA nonce 0) 1 (blocks m)
/-- The CBC-MAC of CCM*, whole. -/
def ccmMac (key nonce a m : List Byte) (len : Nat) : List Byte :=
  let flags := (if a.isEmpty then 0 else 64) + (if len = 0 then 0 else (len - 2) / 2 * 8) + 1
  let b0 := [BitVec.ofNat 8 flags] ++ nonce.take 13 ++ beBytes 2 m.length
  let aad := if a.isEmpty then [] else padTo16 (beBytes 2 a.length ++ a)
  cbcMac key (blocks (b0 ++ aad ++ padTo16 m))
/-- Keystream block 0, which encrypts the tag. -/
def ccmS0 (key nonce : List Byte) : List Byte := aes key (ccmA nonce 0)
def ccmTag (key nonce a m : List Byte) (len : Nat) : List Byte := (xorL (ccmMac key nonce a m len) (ccmS0 key nonce)).take len

/-! ## GCM, 12-byte IV -/

def beNat (l : List Byte) : Nat := l.foldl (fun n x => n * 256 + x.toNat) 0
def ghMulAux : Nat → Nat → BitVec 128 → BitVec 128 → BitVec 128 → BitVec 128
  | 0, _, _, _, z => z
  | n + 1, i, x, v, z =>
    ghMulAux n (i + 1) x ((v >>> 1) ^^^ (if v.getLsbD 0 then 0xE1000000000000000000000000000000#128 else 0))
      (if x.getLsbD (127 - i) then z ^^^ v else z)
def ghMul (x h : BitVec 128) : BitVec 128 := ghMulAux 128 0 x h 0
def ghash (h : List Byte) (bs : List (List Byte)) : List Byte :=
  let hb := BitVec.ofNat 128 (beNat h)
  beBytes 16 (bs.foldl (fun y b => ghMul (y ^^^ BitVec.ofNat 128 (beNat b)) hb) 0#128).toNat
def gcmJ0 (iv : List Byte) : List Byte := iv.take 12 ++ [0#8, 0#8, 0#8, 1#8]
def gcmCrypt (key iv m : List Byte) : List Byte := ctrFrom key (gcmJ0 iv) 1 (blocks m)
/-- The tag over AAD and ciphertext. -/
def gcmTag (key iv a c : List Byte) : List Byte :=
  let h := aes key zeros16
  let s := ghash h (blocks (padTo16 a ++ padTo16 c ++ beBytes 8 (8 * a.length) ++ beBytes 8 (8 * c.length)))
  xorL s (aes key (gcmJ0 iv))

/-! ## CMAC -/

def dbl128 (l : List Byte) : List Byte :=
  let n := beNat l
  let d := n * 2 % 2 ^ 128
  beBytes 16 (if n / 2 ^ 127 = 1 then Nat.xor d 0x87 else d)
def cmac (key m : List Byte) : List Byte :=
  let k1 := dbl128 (aes key zeros16)
  let n := if m.isEmpty then 0 else (m.length - 1) / 16
  let last := m.drop (16 * n)
  let last := if last.length = 16 then xorL last k1 else xorL (padTo16 (last ++ [0x80#8])) (dbl128 k1)
  cbcMac key (chunks n 16 m ++ [last])

end Sys2Proof.Machine
end

