-- ==== Sys2Proof/Syntax.lean ====
section
/-!
DEFINITION. The commands: one constructor of `Instr` for every row of spec/opcode_table.json, with the operands the row's text
gives it. A command whose effect reads the clock carries the FRC count at which it happens (`t`). Reception arrives as the bits
and measurements that a lane's demodulator gives (log entry 5).
-/
namespace Sys2Proof

/-- A master of the interconnect that can access a register page (R11). -/
inductive Master where
  | tanumA
  | dma (ch : Fin 8)
  | hsp
  | debug
  deriving DecidableEq, Repr

/-- The four views of a register page (R48). -/
inductive View where | base | set | clr | tgl
  deriving DecidableEq, Repr

/-- Who accesses a register, and through which view. -/
structure Acc where
  m : Master
  view : View
  deriving DecidableEq, Repr

/-- The two Tanum cores (R314). -/
inductive CoreId where | a | g
  deriving DecidableEq, Repr

/-- A Tanum register number. -/
abbrev RegNo := Fin 16

/-- Repeat prefixes (R318). -/
inductive Rep where
  | rep (n : Byte)
  | repi (n : Byte)
  | repr (r : RegNo)
  deriving DecidableEq, Repr

/-- Width prefixes (R318). -/
inductive Width where | w8z | w16z | w8s | w16s
  deriving DecidableEq, Repr

/-- The prefixes of a Tanum instruction (R318). -/
structure Prefixes where
  rep : Option Rep := none
  cond : Option (Fin 15) := none
  width : Option Width := none
  sat : Bool := false
  deriving DecidableEq, Repr

/-- The source operand of the two-operand arithmetic (R321). -/
inductive Src where
  | reg (r : RegNo)
  | imm8 (v : Byte)
  | imm16 (v : BitVec 16)
  | imm32 (v : Word)
  deriving DecidableEq, Repr

/-- Addressing modes of LD and ST (R325). -/
inductive MemMode where
  | base (b : RegNo)
  | disp8 (b : RegNo) (d : Byte)
  | disp16 (b : RegNo) (d : BitVec 16)
  | postInc (b : RegNo)
  | preDec (b : RegNo)
  | pcRel (d : BitVec 16)
  deriving DecidableEq, Repr

/-- Branch displacements (R327). -/
inductive Disp where
  | d8 (v : Byte)
  | d16 (v : BitVec 16)
  | d32 (v : Word)
  deriving DecidableEq, Repr

/-- Size of a memory access. -/
inductive AccSize where | byte | half | word
  deriving DecidableEq, Repr

/-- Instructions of the IEEE 1149.1 port (R460). -/
inductive ScanInstr where | bypass | idcode | samplePreload | extest | other
  deriving DecidableEq, Repr

/-- A lane, and the FRC count at which something happens in it. -/
structure LaneAt where
  lane : Fin 16
  t : Frc
  deriving DecidableEq, Repr

/-- The bits behind a synchronisation word; for a coded frame whether its code is recursive and interleaved, as it signals (R158); and the
octets of its MAC header (R164). -/
structure PhrBits where
  bits : List Bool
  rsc : Bool
  inter : Bool
  mhr : List Byte
  deriving DecidableEq, Repr

/-- What an LDPC decoder ends with: its iterations, and the hard decisions of the codeword's 576 bits (R120). -/
structure Decoded where
  iters : BitVec 6
  cw : List Bool
  deriving DecidableEq, Repr

/-- A READ of the maintenance port: its address, and whether the first unit it reads turns out not to be readable (R287, R291). -/
structure MaintRd where
  addr : BitVec 24
  ue : Bool
  deriving DecidableEq, Repr

/-- The commands of the block: one constructor per row of spec/opcode_table.json. -/
inductive Instr where
  /-- SLOT_TICK (R14): Network time reaches a slot boundary. The ASN advances and the cell and channel for the slot are resolved. -/
  | slotTick (t : Frc)
  /-- TAILRACE (R224): At SLOT_LEN minus TAIL_MIN the Tailrace runs its seven steps in order. -/
  | tailrace (t : Frc) (steps : Fin 8) (dur : BitVec 10)
  /-- SQUASH_DONE (R218): The undo of the squashed tickets completes within 60 µs and preparation resumes. -/
  | squashDone (t : Frc)
  /-- PHASE_CHECKPOINT (R34): At a phase boundary the state of both copies is saved and the commit buffer of the phase is released. -/
  | phaseCheckpoint (t : Frc)
  /-- LOCKSTEP_FAULT (R36): A lockstep mismatch stops both copies, aborts the transmission, squashes tickets and starts a replay. -/
  | lockstepFault (t : Frc) (sig : Bool) (grp : Fin 4)
  /-- REPLAY_END (R37): A replayed phase ends and either resumes service, replays again, or enters RECOVERY after three replays. -/
  | replayEnd (t : Frc) (agree : Bool)
  /-- FRC_VOTE (R33): A disagreeing FRC copy is outvoted and rewritten. -/
  | frcVote
  /-- APP_SILENT (R41): APP_SILENCE_MAX slotframe-0 cycles pass without a heartbeat, so Cadence stops and the fault is handled. -/
  | appSilent (t : Frc)
  /-- SYS_STATE_REQ (R23): A write of SYS_STATE.REQ requests RUN or TEST from START and is ignored otherwise. -/
  | sysStateReq (a : Acc) (v : Word)
  /-- POWER_ON_RESET (R447): VDD rising through 1.75 V causes a POR, which clears everything listed and runs the boot ROM. -/
  | powerOnReset (straps : BitVec 5) (tcxo : Bool)
  /-- BROWN_OUT_RESET (R417): VDD falling below 1.70 V causes a system reset with cause BOR. -/
  | brownOutReset
  /-- PIN_RESET (R447): RESET_N held low for at least 20 µs causes a system reset. -/
  | pinReset
  /-- SYS_CMD_SYSTEM_RESET (R447): SYS_CMD OP 1 with the key causes a software system reset. -/
  | sysCmdSystemReset (a : Acc) (v : Word) (straps : BitVec 5)
  /-- SYS_CMD_CORE_RESET (R447): SYS_CMD OP 2 with the key resets Tanum-A only. -/
  | sysCmdCoreReset (a : Acc) (v : Word)
  /-- WATCHDOG_EXPIRY (R456): Expiry of the system watchdog causes a core reset, or a system reset while SYS is 1. -/
  | watchdogExpiry (straps : BitVec 5)
  /-- WDT_WARN (R456): The watchdog count reaches WARN and raises WDT_WARN. -/
  | wdtWarn
  /-- WDT_KICK (R456): Writing 0xC35A to SYS_WDT_KICK reloads the watchdog. -/
  | wdtKick (a : Acc) (v : Word)
  /-- HFXO_LOSS (R459): The HFXO is absent for 2 µs, so the device enters RECOVERY and FRC moves to the sleep counter. -/
  | hfxoLoss (t : Frc)
  /-- LFXO_LOSS (R459): No LFXO edge for 250 µs sets LFXO_FAIL and moves the LFXO users to the RC oscillator. -/
  | lfxoLoss (t : Frc)
  /-- VDD_LOSS (R24): Loss of VDD takes the device to BACKUP and interrupted flash operations leave their effects. -/
  | vddLoss
  /-- REGISTER_WRITE (R47): A write to a register that has no row of its own is judged under OWN and takes effect by field type. -/
  | registerWrite (m : Master) (addr : Word) (v : Word)
  /-- SOFT_RESET (R50): Writing CTRL.SRST returns the page's registers, except OWN, to their reset values. -/
  | softReset (a : Acc) (page : BitVec 6) (v : Word)
  /-- OWN_WRITE (R56): A write to a protection register is checked, applied or discarded, and audited. -/
  | ownWrite (m : Master) (addr : Word) (v : Word)
  /-- OLOCK_SET (R58): Setting PROT_CTRL.OLOCK engages the owner lock. -/
  | olockSet (a : Acc) (v : Word)
  /-- PROT_AUD_IDX_WRITE (R64): Writing PROT_AUD_IDX captures the six words of the selected audit entry. -/
  | protAudIdxWrite (a : Acc) (v : Word)
  /-- LATCH_PAIR_LOW_READ (R54): A read of the low word of a wide value latches its high word for the reading master. -/
  | latchPairLowRead (m : Master) (addr : Word)
  /-- LATCH_PAIR_LOW_WRITE (R54): A low-word write of a wide value is held per master until the high word is written. -/
  | latchPairLowWrite (m : Master) (addr : Word) (v : Word)
  /-- LATCH_PAIR_HIGH_WRITE (R54): A high-word write makes both halves of a wide value take effect together. -/
  | latchPairHighWrite (m : Master) (addr : Word) (v : Word)
  /-- PRESENCE_N_FILTERED_CHANGE (R62): The deglitched PRESENCE_N level changes. -/
  | presenceNFilteredChange (t : Frc) (low : Bool)
  /-- TOKEN_GAIN (R62): PRESENCE_N has been low for 2 s, so the presence token comes to exist. -/
  | tokenGain (t : Frc)
  /-- TOKEN_LAPSE (R62): 58 s after the low period ends, the presence token expires. -/
  | tokenLapse (t : Frc)
  /-- OVL_LOAD (R67): OVL_CMD LOAD starts reading and checking the configuration image. -/
  | ovlLoad (m : Master)
  /-- LOAD_DONE (R67): The image load completes with its sections loaded or failed. -/
  | loadDone
  /-- APPLY_BASE (R68): OVL_CMD APPLY_BASE writes every base record while Cadence is disabled. -/
  | applyBase (m : Master)
  /-- OVL_CANCEL (R71): OVL_CMD CANCEL withdraws the pending mode request. -/
  | ovlCancel (m : Master)
  /-- OVL_REQ_GO (R71): A write of OVL_REQ with GO registers or replaces a mode request. -/
  | ovlReqGo (a : Acc) (v : Word)
  /-- LOCK_SAMPLE (R79): At 40 µs after the tick the lock detector is sampled, and an unlocked slot is lost. -/
  | lockSample (t : Frc) (locked : Bool)
  /-- LOSS_OF_LOCK (R81): Loss of lock after the check aborts the transmission or the receiving lanes. -/
  | lossOfLock (t : Frc)
  /-- RFE_MAN_WRITE (R84): A write that sets RFE_CTRL.MAN hands tuning to software, or is refused while Cadence runs. -/
  | rfeManWrite (a : Acc) (v : Word)
  /-- RFE_SYN_MAN_WRITE (R84): A write of RFE_SYN_MAN starts a manual hop. -/
  | rfeSynManWrite (a : Acc) (v : Word)
  /-- RFE_DISABLE (R85): Clearing RFE_CTRL.EN cuts off transmission and reception and powers the front end down. -/
  | rfeDisable (a : Acc) (v : Word)
  /-- NARROW_AGC_STEP (R89): At the end of each 0.625 µs window the narrow AGC steps the gain up, down or not at all. -/
  | narrowAgcStep (power : Int)
  /-- CLIP_INTERVAL (R92): A 1 µs interval ends and is judged clipped or not. -/
  | clipInterval (samples : Nat)
  /-- RFE_CAL_REQ (R99): A write of RFE_CAL_REQ requests calibrations. -/
  | rfeCalReq (a : Acc) (v : Word)
  /-- CLEARING_WORK_START (R206): At 60 µs after a Clearing tick, the pending calibrations, checks and captures begin in order. -/
  | clearingWorkStart (t : Frc)
  /-- CAL_DONE (R101): A calibration completes, writes its results and VALID, and the next pending work may start. -/
  | calDone (t : Frc) (bit : Fin 8) (inLimits : Bool)
  /-- CAL_TIMEOUT (R100): A request not started within CAL_DEADLINE slots is withdrawn with DEFERRED_TIMEOUT. -/
  | calTimeout (item : Fin 10)
  /-- TEMP_UPDATE (R102): The die temperature updates every 10 ms. -/
  | tempUpdate (temp : BitVec 8)
  /-- CNP_EN_WRITE (R104): A write of CNP_CTRL.EN takes effect at the next tick. -/
  | cnpEnWrite (a : Acc) (v : Word)
  /-- LANE_ARM (R112): A lane is armed into SEARCH when its guard window opens. -/
  | laneArm (t : Frc) (lane : Fin 16)
  /-- SEARCH_END (R112): The guard window closes and a searching lane goes IDLE. -/
  | searchEnd (lane : Fin 16)
  /-- PREAMBLE_DETECT (R114): A hypothesis branch detects a preamble and the lane enters SYNC. -/
  | preambleDetect (at' : LaneAt) (branches : List (Fin 5 × Nat × Nat))
  /-- SFD_MATCH (R111): The SFD matches, so the RX timestamp is taken, AFC freezes and the lane enters DATA. -/
  | sfdMatch (at' : LaneAt) (afc : Int) (rssi : BitVec 8) (snrMilliDb : Int) (word : List Bool)
  /-- SFD_TIMEOUT (R111): No SFD within SFD_TO symbols returns the lane to SEARCH or IDLE. -/
  | sfdTimeout (at' : LaneAt)
  /-- PHR_PARSED (R121): The PHR is parsed and cells are staged, or the frame is dropped. -/
  | phrParsed (at' : LaneAt) (phr : PhrBits)
  /-- LAST_BIT_DECODED (R111): The last bit of a frame is decoded and the lane enters DONE. -/
  | lastBitDecoded (lane : Fin 16) (t : Frc) (bits : List Bool)
  /-- FRAME_CHECKS (R122): The CRC, MIC, replay and queue checks complete, and the frame is published or discarded. -/
  | frameChecks (lanes : BitVec 16) (t : Frc)
  /-- THRESHOLD_BLOCK (R115): A 64 µs block updates the lane's noise floor and threshold. -/
  | thresholdBlock (lane : Fin 16) (power : Int) (quiet : Bool)
  /-- LDPC_DECODE_DONE (R120): An LDPC decoder finishes a codeword and takes the next queued codeword. -/
  | ldpcDecodeDone (dec : Fin 4) (t : Frc) (res : Decoded)
  /-- ACK_DECISION (R125): At ACK_DELAY minus 40 µs Cadence skips the ACK, or retunes and aborts the other lanes. -/
  | ackDecision (t : Frc) (lane : Fin 16)
  /-- CANOPY_WINDOW_RETURN (R125): After the ACK the window is retuned and refilled and the paused lanes resume. -/
  | canopyWindowReturn (t : Frc)
  /-- LANE_DISABLE (R127): Clearing LANEn_CTRL.EN aborts the lane's frame. -/
  | laneDisable (a : Acc) (lane : Fin 16) (v : Word)
  /-- FEC_DISABLE (R127): Clearing FEC_CTRL.EN discards the queued codewords and aborts their frames. -/
  | fecDisable (a : Acc) (v : Word)
  /-- RAMP_UP (R134): RAMP_LEN before launch the PA starts to rise. -/
  | rampUp (t : Frc)
  /-- LAUNCH (R133): At TX_OFFSET the ticket becomes COMMITTED, the key is latched and NT_dep is computed. -/
  | launch (t : Frc)
  /-- TAG_COMPLETE (R138): The live CBC-MAC finishes the CCM* tag. -/
  | tagComplete
  /-- SPLICE_POINT (R132): The transmitter reaches the splice point and the live path starts encoding. -/
  | splicePoint
  /-- FRAME_END (R134): The last symbol leaves and the PA ramps down. -/
  | frameEnd (t : Frc)
  /-- RAMP_DOWN_END (R134): The ramp-down ends and the transmitter returns to IDLE. -/
  | rampDownEnd (t : Frc)
  /-- TXM_DISABLE (R144): Clearing TXM_CTRL.EN aborts the transmission in progress. -/
  | txmDisable (a : Acc) (v : Word)
  /-- LIVE_ECC_ERROR (R140): An uncorrectable ECC error during transmission aborts it with LIVE_ERR. -/
  | liveEccError (t : Frc)
  /-- ACK_LAUNCH (R141): An ACK launches at frame end plus ACK_DELAY, unless it is blocked or not admitted. -/
  | ackLaunch (t : Frc)
  /-- MCHK_REQ (R146): A write of TXM_MCHK_REQ requests a mask self-check. -/
  | mchkReq (a : Acc) (v : Word)
  /-- MCHK_DONE (R146): A mask self-check completes with its ACP results. -/
  | mchkDone (acp1 acp2 : BitVec 8)
  /-- TXM_TEST_WRITE (R148): A write of TXM_TEST starts or stops a test transmission, or is refused. -/
  | txmTestWrite (a : Acc) (v : Word)
  /-- TXM_FIR_DATA_ACCESS (R129): An access of a custom tap through TXM_FIR_DATA auto-increments the index. -/
  | txmFirDataAccess (a : Acc) (w : Option Word)
  /-- CAD_ENABLE (R173): Writing 1 to CAD_CTRL.EN starts Cadence, or is refused. -/
  | cadEnable (a : Acc) (v : Word)
  /-- CAD_DISABLE (R174): Clearing CAD_CTRL.EN lets the current slot finish. -/
  | cadDisable (a : Acc) (v : Word)
  /-- CAD_TBLCHG (R181): A write of CAD_TBLCHG GO marks cells changed and squashes their tickets. -/
  | cadTblchg (a : Acc) (v : Word)
  /-- NBR_CHG (R198): A write of NBR_CHG GO squashes the neighbour's tickets and may initialise its HW fields. -/
  | nbrChg (a : Acc) (v : Word)
  /-- CAD_HOP_DATA_ACCESS (R183): An access of a hop-table entry auto-increments POS. -/
  | cadHopDataAccess (a : Acc) (w : Option Word)
  /-- CAD_APPHB (R41): A firmware heartbeat write restarts the silence count. -/
  | cadApphb (a : Acc) (v : Word)
  /-- CAD_LS_INJ (R207): A write of CAD_LS_INJ GO corrupts one bit of a lockstep copy, in TEST only. -/
  | cadLsInj (a : Acc) (v : Word)
  /-- ACK_WINDOW_OPEN (R187): The ACK receive window of a TX slot opens on lane 0. -/
  | ackWindowOpen (t : Frc)
  /-- ACK_WINDOW_CLOSE (R187): The ACK window closes with no SFD matched and the attempt fails. -/
  | ackWindowClose (t : Frc)
  /-- ACK_RECEIVED (R188): A frame in the ACK window is judged, and a valid ACK decides the attempt. -/
  | ackReceived (t : Frc) (lane : Fin 16)
  /-- PREPARATION_START (R212): The Headrace begins a ticket: it selects the frame, charges the meters, reserves, and takes the counter. -/
  | preparationStart (t : Frc)
  /-- PREPARATION_DONE (R212): The ticket is built in the store and becomes PREPARED. -/
  | preparationDone (t : Frc)
  /-- TICKET_LOCK (R214): At TX_OFFSET minus 100 µs a PREPARED ticket is locked, or a late just-in-time ticket is squashed. -/
  | ticketLock (t : Frc)
  /-- HDR_CTRL_WRITE (R227): A write of HDR_CTRL enables or disables run-ahead, squashing tickets on disable. -/
  | hdrCtrlWrite (a : Acc) (v : Word)
  /-- HDR_CFG_WRITE (R227): A change of RUN_AHEAD or HORIZON takes effect, and lowering it squashes tickets. -/
  | hdrCfgWrite (a : Acc) (v : Word)
  /-- HDR_TKT_IDX_WRITE (R208): Writing HDR_TKT_IDX captures the four words of the selected ticket. -/
  | hdrTktIdxWrite (a : Acc) (v : Word)
  /-- TRF_ALLOC (R234): A read of TRF_ALLOC moves a FREE cell to FIRMWARE, or returns V = 0. -/
  | trfAlloc (m : Master)
  /-- TRF_FREE (R234): A write of TRF_FREE returns a chain to FREE, or is refused. -/
  | trfFree (a : Acc) (v : Word)
  /-- TRF_ENQ (R235): A write of TRF_ENQ appends a chain to a queue, or is refused. -/
  | trfEnq (a : Acc) (v : Word)
  /-- TRF_DONE_POP (R236): A read of TRF_DONE pops the oldest chain on the done list. -/
  | trfDonePop (m : Master)
  /-- TRF_RXQ_POP (R238): A read of TRF_RXQ pops the oldest published frame. -/
  | trfRxqPop (m : Master)
  /-- REMOVE_HEAD (R237): TRF_CMD REMOVE_HEAD removes the first frame of the queue. -/
  | removeHead (m : Master) (q : BitVec 6)
  /-- FLUSH (R237): TRF_CMD FLUSH removes the queue's frames that no COMMITTED or locked ticket holds. -/
  | flush (m : Master) (q : BitVec 6)
  /-- TRF_HIST_IDX_WRITE (R255): Writing TRF_HIST_IDX captures the selected history entry. -/
  | trfHistIdxWrite (a : Acc) (v : Word)
  /-- SLUICE_CONFIG_WRITE (R246): A write to the Sluice configuration squashes the PREPARED tickets of classes B to D. -/
  | sluiceConfigWrite (a : Acc) (off : BitVec 10) (v : Word)
  /-- SUB_WINDOW_ADVANCE (R248): A duty-cycle sub-window ends and the used airtime window moves on. -/
  | subWindowAdvance (sb : Fin 8) (dwell : Bool)
  /-- DCA_ENABLE (R253): The first enable after a history loss starts the sub-bands empty or full. -/
  | dcaEnable (a : Acc) (v : Word)
  /-- NTU_STEP (R263): NTU_CMD STEP requests an explicit step of network time. -/
  | ntuStep (m : Master)
  /-- NTU_CANCEL (R263): NTU_CMD CANCEL withdraws the pending step. -/
  | ntuCancel (m : Master)
  /-- SYNC_CLR (R264): NTU_CMD SYNC_CLR clears SYNC and HOLDOVER. -/
  | syncClr (m : Master)
  /-- SYNC_SET (R264): NTU_CMD SYNC_SET sets SYNC and restarts the holdover timer. -/
  | syncSet (m : Master)
  /-- NTU_FWCORR (R259): A write of NTU_FWCORR supplies one firmware correction sample. -/
  | ntuFwcorr (a : Acc) (v : Word)
  /-- EXTERNAL_CAPTURE (R259): An NTU capture event forms an external-pulse sample. -/
  | externalCapture (t : Frc)
  /-- RE_ANCHOR (R257): Every 2^31 counts the NTU re-anchors OFFSET without changing NT. -/
  | reAnchor (t : Frc)
  /-- NTU_RATE_WRITE (R257): A write of NTU_RATE re-anchors and sets RATE, clamped to the limit. -/
  | ntuRateWrite (a : Acc) (v : Word)
  /-- HOLDOVER (R264): The holdover timer reaches ENTER and HOLDOVER sets. -/
  | holdover (t : Frc)
  /-- SYNC_LOST (R264): Holdover reaches HOLDOVER_MAX and SYNC clears. -/
  | syncLost (t : Frc)
  /-- LFCAL_WINDOW (R266): A window of 8,192 LFXO ticks completes and updates NTU_LFCAL. -/
  | lfcalWindow (t : Frc) (count : BitVec 27)
  /-- WAKE_HANDOFF (R267): At the first LFXO edge after the HFXO is stable, FRC returns to the HFXO. -/
  | wakeHandoff (ticks : Word)
  /-- NTU_EPOCH_WRITE (R268): A write of NTU_EPOCH sets NT_EPOCH, or is refused while Cadence runs. -/
  | ntuEpochWrite (a : Acc) (hi : Bool) (v : Word)
  /-- PULSE_START (R269): NT reaches a pulse target, the output asserts, and the target advances or the channel stops. -/
  | pulseStart (t : Frc) (ch : Fin 4)
  /-- PULSE_END (R269): WIDTH elapses and the pulse output deasserts. -/
  | pulseEnd (t : Frc) (ch : Fin 4)
  /-- NTU_PUL_WRITE (R269): A write to a pulse channel's target or configuration re-arms it. -/
  | ntuPulWrite (a : Acc) (ch : Fin 4) (reg : Fin 4) (v : Word)
  /-- GCORE_MBSRC (R276): Glade firmware starts a mailbox publish. -/
  | gcoreMbsrc (v : Word)
  /-- MB_COPY_DONE (R276): The mailbox copy completes, SEQ advances and MB_PUB is raised. -/
  | mbCopyDone
  /-- MAILBOX_WORD0_READ (R277): A read of mailbox word 0 captures a snapshot for the reading master. -/
  | mailboxWord0Read (m : Master) (viaWindow : Bool)
  /-- GPC_EDGE (R280): A filtered GPC input transition is counted through the prescaler. -/
  | gpcEdge (ch : Fin 4) (pa pb : Bool)
  /-- GPC_CAPTURE (R281): A CAPTURE write copies COUNT into CAP. -/
  | gpcCapture (ch : Fin 4) (v : Word)
  /-- GPC_CAP_READ (R281): A read of GPC_CAPn_LO clears VALID. -/
  | gpcCapRead (ch : Fin 4) (sameCycleCapture : Bool)
  /-- GSEC_INCREMENT (R272): GSEC counts a second and drives the CAP_SEC captures. -/
  | gsecIncrement
  /-- SEAL_CHECK (R284): Every 250 ms the seal pattern is checked and the loop state may change. -/
  | sealCheck (matched : Bool)
  /-- GLADE_TOKEN_CHANGE (R285): The Glade's own presence token is gained or lost. -/
  | gladeTokenChange (t : Frc)
  /-- GRANT_CHANGE (R290): The Glade asserts or drops its maintenance grant. -/
  | grantChange
  /-- GLADE_POWER_ON_RESET (R273): The Glade domain powers on, resets and logs POWER_LOSS. -/
  | gladePowerOnReset
  /-- GLADE_WATCHDOG_EXPIRY (R294): The Glade watchdog expires and resets the Glade. -/
  | gladeWatchdogExpiry
  /-- GLADE_WDT_WARNING (R294): One second before expiry the Glade watchdog asserts line 11. -/
  | gladeWdtWarning
  /-- GLADE_WDT_KICK (R294): Writing 0x3C96 to GCORE_WDT_KICK reloads the Glade watchdog. -/
  | gladeWdtKick (v : Word)
  /-- GLADE_WDT_ENABLE (R294): Writing EN in GCORE_WDT_CFG starts the Glade watchdog and locks TO. -/
  | gladeWdtEnable (v : Word)
  /-- GLADE_SELF_RESET (R294): Writing 0xA5C3 to GCORE_RESET resets the Glade. -/
  | gladeSelfReset (v : Word)
  /-- GLADE_BOOT_DONE (R274): The Glade boot check and identity finish, and Glade firmware starts or the ROM stays in NO_IMAGE. -/
  | gladeBootDone
  /-- GLOG_APPEND (R287): A write of GLOG_APPEND2 appends a firmware log entry, or is refused. -/
  | glogAppend (v : Word)
  /-- GLOG_WRITE_DONE (R286): A log flash write completes. -/
  | glogWriteDone
  /-- GADC_START (R282): Glade firmware starts a GADC conversion. -/
  | gadcStart (v : Word)
  /-- GADC_RESULT (R282): A GADC conversion completes with a result. -/
  | gadcResult (data : BitVec 14)
  /-- GDSP_FRAME (R294): A write of GCORE_DSP_DATA sends a display frame, or sets OVF. -/
  | gdspFrame (v : Word)
  /-- GDSP_FRAME_DONE (R294): The display frame ends. -/
  | gdspFrameDone
  /-- MAINT_STATUS (R291): The STATUS maintenance command returns state, result and flags, and may open the session. -/
  | maintStatus
  /-- MAINT_ERASE (R291): The ERASE maintenance command erases the code or parameter area. -/
  | maintErase (area : Byte)
  /-- MAINT_PROG (R291): The PROG maintenance command programs and verifies 16 bytes. -/
  | maintProg (addr : BitVec 24) (data : List Byte)
  /-- MAINT_READ (R291): The READ maintenance command returns 16 bytes. -/
  | maintRead (rd : MaintRd)
  /-- MAINT_COMMIT (R291): The COMMIT maintenance command checks the header and compares the identity. -/
  | maintCommit (digest : List Byte)
  /-- MAINT_EXIT (R293): The EXIT maintenance command ends the session and the Glade resets. -/
  | maintExit
  /-- MAINT_OP_DONE (R291): A maintenance operation that took time completes with its result. -/
  | maintOpDone (verified : Bool)
  /-- MAINT_TIMEOUT (R293): 60 s without a command end the maintenance session. -/
  | maintTimeout
  /-- NOP (R323): NOP does nothing. -/
  | nop (c : CoreId) (p : Prefixes)
  /-- SYNC (R300): SYNC drains the fetch queue and the store buffer. -/
  | sync (c : CoreId) (p : Prefixes)
  /-- WAIT (R313): WAIT stops Tanum-A and requests the target power state. -/
  | wait (c : CoreId) (p : Prefixes)
  /-- RETI (R312): RETI pops the frame, restores PC, PSW and RPC, and clears the active bit. -/
  | reti (c : CoreId) (p : Prefixes)
  /-- SVC (R311): SVC takes exception vector 8. -/
  | svc (c : CoreId) (p : Prefixes) (n : Byte)
  /-- RET (R325): RET branches to W14. -/
  | ret (c : CoreId) (p : Prefixes)
  /-- MOV (R323): MOV copies a register or an immediate to Wd. -/
  | mov (c : CoreId) (p : Prefixes) (d : RegNo) (src : Src)
  /-- ADD (R327): ADD adds and sets C, Z, N and V. -/
  | add (c : CoreId) (p : Prefixes) (d : RegNo) (src : Src)
  /-- ADC (R327): ADC adds with carry. -/
  | adc (c : CoreId) (p : Prefixes) (d : RegNo) (src : Src)
  /-- SUB (R327): SUB subtracts. -/
  | sub (c : CoreId) (p : Prefixes) (d : RegNo) (src : Src)
  /-- SBC (R327): SBC subtracts with borrow. -/
  | sbc (c : CoreId) (p : Prefixes) (d : RegNo) (src : Src)
  /-- AND (R323): AND forms the bitwise AND. -/
  | and (c : CoreId) (p : Prefixes) (d : RegNo) (src : Src)
  /-- OR (R323): OR forms the bitwise OR. -/
  | or (c : CoreId) (p : Prefixes) (d : RegNo) (src : Src)
  /-- XOR (R323): XOR forms the bitwise XOR. -/
  | xor (c : CoreId) (p : Prefixes) (d : RegNo) (src : Src)
  /-- CMP (R327): CMP compares and sets the flags. -/
  | cmp (c : CoreId) (p : Prefixes) (d : RegNo) (src : Src)
  /-- TST (R323): TST tests bits and sets Z and N. -/
  | tst (c : CoreId) (p : Prefixes) (d : RegNo) (src : Src)
  /-- SHL (R327): SHL shifts left. -/
  | shl (c : CoreId) (p : Prefixes) (d : RegNo) (src : Src)
  /-- SHR (R327): SHR shifts right logically. -/
  | shr (c : CoreId) (p : Prefixes) (d : RegNo) (src : Src)
  /-- SAR (R327): SAR shifts right arithmetically. -/
  | sar (c : CoreId) (p : Prefixes) (d : RegNo) (src : Src)
  /-- ROR (R327): ROR rotates right. -/
  | ror (c : CoreId) (p : Prefixes) (d : RegNo) (src : Src)
  /-- NEG (R327): NEG negates. -/
  | neg (c : CoreId) (p : Prefixes) (d : RegNo) (src : RegNo)
  /-- NOT (R323): NOT inverts the bits. -/
  | not (c : CoreId) (p : Prefixes) (d : RegNo) (src : RegNo)
  /-- MULS (R301): MULS issues a signed 18 × 18 multiply. -/
  | muls (c : CoreId) (p : Prefixes) (ra rb : RegNo)
  /-- MULU (R301): MULU issues an unsigned 18 × 18 multiply. -/
  | mulu (c : CoreId) (p : Prefixes) (ra rb : RegNo)
  /-- MACS (R301): MACS issues a signed multiply-accumulate. -/
  | macs (c : CoreId) (p : Prefixes) (ra rb : RegNo)
  /-- MACU (R301): MACU issues an unsigned multiply-accumulate. -/
  | macu (c : CoreId) (p : Prefixes) (ra rb : RegNo)
  /-- MUL32S (R302): MUL32S issues a signed 32 × 32 multiply. -/
  | mul32s (c : CoreId) (p : Prefixes) (ra rb : RegNo)
  /-- MUL32U (R302): MUL32U issues an unsigned 32 × 32 multiply. -/
  | mul32u (c : CoreId) (p : Prefixes) (ra rb : RegNo)
  /-- CLRACC (R324): CLRACC issues a clear of PACC. -/
  | clracc (c : CoreId) (p : Prefixes)
  /-- MULTIPLY_LANDS (R301): A multiplier result lands in PRL, PRH and PACC at c plus 3 or c plus 6. -/
  | multiplyLands (c : CoreId)
  /-- MOVS_FROM_SPECIAL (R324): MOVS reads a special register into Wd. -/
  | movsFromSpecial (c : CoreId) (p : Prefixes) (d : RegNo) (sx : Fin 16)
  /-- MOVS_TO_SPECIAL (R324): MOVS writes a special register. -/
  | movsToSpecial (c : CoreId) (p : Prefixes) (sx : Fin 16) (src : RegNo)
  /-- LD (R325): LD loads from memory in one of its addressing modes. -/
  | ld (c : CoreId) (p : Prefixes) (rt : RegNo) (mode : MemMode)
  /-- LEA (R325): LEA writes the computed address. -/
  | lea (c : CoreId) (p : Prefixes) (rt rb : RegNo) (d : BitVec 16)
  /-- ST (R325): ST stores to memory. -/
  | st (c : CoreId) (p : Prefixes) (rt : RegNo) (mode : MemMode)
  /-- PUSH (R325): PUSH pushes Ws to the stack. -/
  | push (c : CoreId) (p : Prefixes) (rs : RegNo)
  /-- POP (R325): POP pops the stack into Wd. -/
  | pop (c : CoreId) (p : Prefixes) (rd : RegNo)
  /-- CPY (R326): CPY copies one element per iteration. -/
  | cpy (c : CoreId) (p : Prefixes)
  /-- FILL (R326): FILL stores W2 per iteration. -/
  | fill (c : CoreId) (p : Prefixes)
  /-- SCAN (R326): SCAN compares memory against W2 per iteration. -/
  | scan (c : CoreId) (p : Prefixes)
  /-- MACSM (R326): MACSM performs a signed memory multiply-accumulate per iteration. -/
  | macsm (c : CoreId) (p : Prefixes)
  /-- MACUM (R326): MACUM performs an unsigned memory multiply-accumulate per iteration. -/
  | macum (c : CoreId) (p : Prefixes)
  /-- BR (R322): BR branches by its displacement. -/
  | br (c : CoreId) (p : Prefixes) (d : Disp)
  /-- CALL (R325): CALL sets W14 and branches. -/
  | call (c : CoreId) (p : Prefixes) (d : Disp)
  /-- JMP (R325): JMP branches to Ws. -/
  | jmp (c : CoreId) (p : Prefixes) (rs : RegNo)
  /-- CALLR (R325): CALLR sets W14 and branches to Ws. -/
  | callr (c : CoreId) (p : Prefixes) (rs : RegNo)
  /-- DBNZ (R325): DBNZ decrements and branches when the result is non-zero. -/
  | dbnz (c : CoreId) (p : Prefixes) (rd : RegNo) (d : Byte)
  /-- BSET (R323): BSET sets a bit. -/
  | bset (c : CoreId) (p : Prefixes) (rd : RegNo) (n : Fin 32)
  /-- BCLR (R323): BCLR clears a bit. -/
  | bclr (c : CoreId) (p : Prefixes) (rd : RegNo) (n : Fin 32)
  /-- BTST (R323): BTST tests a bit into Z. -/
  | btst (c : CoreId) (p : Prefixes) (rd : RegNo) (n : Fin 32)
  /-- CLZ (R323): CLZ counts the leading zeros. -/
  | clz (c : CoreId) (p : Prefixes) (rd rs : RegNo)
  /-- ILLEGAL_ENCODING (R329): A byte string with an illegal encoding raises vector 5. -/
  | illegalEncoding (c : CoreId) (bytes : List Byte)
  /-- FETCH_BUS_ERROR (R329): An instruction byte that cannot be fetched raises vector 1. -/
  | fetchBusError (c : CoreId) (k : Fin 8)
  /-- EXCEPTION_ENTRY (R311): A qualifying interrupt is taken: the frame is pushed, PSW is set and the handler is entered. -/
  | exceptionEntry (c : CoreId)
  /-- CACHE_INV (R316): A write of CACHE_INV invalidates one line in both caches. -/
  | cacheInv (v : Word)
  /-- ICACHE_INVALIDATE_ALL (R316): CACHE_CTRL.IINV starts invalidating the whole instruction cache. -/
  | icacheInvalidateAll (v : Word)
  /-- DCACHE_INVALIDATE_ALL (R316): CACHE_CTRL.DINV starts invalidating the whole data cache. -/
  | dcacheInvalidateAll (v : Word)
  /-- INVALIDATION_DONE (R316): A whole-cache invalidation ends after 256 cycles. -/
  | invalidationDone
  /-- DBG_HALT (R461): HALT stops Tanum-A at the next instruction boundary. -/
  | dbgHalt (m : Master)
  /-- DBG_RESUME (R461): RESUME continues from the halted point. -/
  | dbgResume (m : Master)
  /-- DBG_STEP (R461): STEP executes one instruction or iteration and halts again. -/
  | dbgStep (m : Master)
  /-- DBG_REG_DATA_ACCESS (R461): An access of DBG_REG_DATA reads or writes the selected core register while halted. -/
  | dbgRegDataAccess (a : Acc) (w : Option Word)
  /-- BREAKPOINT_MATCH (R461): An instruction address matches a breakpoint, which halts or raises vector 10. -/
  | breakpointMatch (n : Fin 4)
  /-- FLC_KEY_WRITE (R340): A write of FLC_KEY advances or resets the unlock sequence and may set KEY_LOCK. -/
  | flcKeyWrite (m : Master) (v : Word)
  /-- PROG (R341): Keyed PROG starts on the 512th data word, or is refused. -/
  | prog (m : Master) (v : Word)
  /-- ERASE_BLK (R341): Keyed ERASE_BLK starts an erase of the block named by the address. -/
  | eraseBlk (m : Master) (v : Word)
  /-- SUSPEND (R343): SUSPEND requests a pause of the running erase. -/
  | suspend (m : Master)
  /-- ERASE_SUSPENDED (R343): The erase pauses and reads of the other blocks are served. -/
  | eraseSuspended
  /-- FLC_RESUME (R341): RESUME continues a suspended erase. -/
  | flcResume (m : Master)
  /-- SET_SLC (R341): Keyed SET_SLC erases the block and records its mode. -/
  | setSlc (m : Master) (v : Word)
  /-- MARGIN_RD (R341): Keyed MARGIN_RD reads a page at a margin level. -/
  | marginRd (m : Master) (v : Word)
  /-- CLR_STAT (R341): CLR_STAT clears the W1C fields of FLC_STAT. -/
  | clrStat (m : Master)
  /-- FLASH_OP_DONE (R341): A flash operation completes, writes its completion record and may fail. -/
  | flashOpDone (ok : Bool) (pulses : BitVec 5) (corr : BitVec 9) (unc : Bool)
  /-- FLC_WP_WRITE (R345): A write of FLC_WP protects blocks until system reset. -/
  | flcWpWrite (a : Acc) (hi : Bool) (v : Word)
  /-- FLC_DISABLE (R346): Clearing FLC_CTRL.EN disables the controller, or is refused while busy. -/
  | flcDisable (a : Acc) (v : Word)
  /-- DMA_CHANNEL_ENABLE (R350): Setting a channel's EN starts or continues its transfer. -/
  | dmaChannelEnable (a : Acc) (ch : Fin 8) (v : Word)
  /-- DMA_DISABLE (R352): Clearing a channel's EN stops it after the current beat. -/
  | dmaDisable (a : Acc) (ch : Fin 8) (v : Word)
  /-- DMA_REQUEST (R350): A request event queues a burst for a channel in requested mode. -/
  | dmaRequest (ch : Fin 8)
  /-- DMA_BEAT (R351): The arbitration winner moves one beat. -/
  | dmaBeat
  /-- BANK_CLEAR_DONE (R332): Banks that lost their contents finish being cleared to zero. -/
  | bankClearDone
  /-- SYS_SRAM_USE_WRITE (R333): Firmware declares SRAM banks free. -/
  | sysSramUseWrite (a : Acc) (v : Word)
  /-- CIPH_KEY_IDX_WRITE (R355): Selecting a key slot loads its staged fields and discards the staged key words. -/
  | ciphKeyIdxWrite (a : Acc) (v : Word)
  /-- KEY_COMMIT (R355): COMMIT installs the key, attributes, limit and counter. -/
  | keyCommit (m : Master)
  /-- KEY_ATTR (R355): ATTR installs the attributes and the usage limit. -/
  | keyAttr (m : Master)
  /-- KEY_FC (R355): FC raises TX_FC, or is refused with FC_LOW. -/
  | keyFc (m : Master)
  /-- KEY_ERASE (R355): ERASE clears a key slot. -/
  | keyErase (m : Master)
  /-- ZEROISE (R368): ZEROISE clears every key slot, aborts the user jobs and is audited. -/
  | zeroise (m : Master)
  /-- CIPU_START (R361): START checks the job, latches the key and counts the use, or is refused. -/
  | cipuStart (m : Master) (n : Fin 8)
  /-- CIPU_ABORT (R367): ABORT ends the running job within 2 µs. -/
  | cipuAbort (m : Master) (n : Fin 8)
  /-- TAKE_FC (R363): TAKE_FC takes the next TX_FC into the nonce and counts one use. -/
  | takeFc (m : Master) (n : Fin 8)
  /-- CIPU_DIN_WRITE (R361): A DIN write feeds AAD or message data, or overflows. -/
  | cipuDinWrite (a : Acc) (n : Fin 8) (v : Word)
  /-- CIPU_DOUT_READ (R361): A DOUT read pops an output word. -/
  | cipuDoutRead (m : Master) (n : Fin 8)
  /-- CIPU_JOB_DONE (R361): The last block is processed, the tag is placed and STATE becomes DONE. -/
  | cipuJobDone (n : Fin 8)
  /-- UPD_START (R371): UPD_CMD START runs the refusal gates and begins the run. -/
  | updStart (m : Master)
  /-- LOAD_TEST_DONE (R372): The 5 ms load test measures VDD. -/
  | loadTestDone (mv : BitVec 12)
  /-- FIRST_PASS_DONE (R374): The authentication and base-hash pass completes. -/
  | firstPassDone
  /-- SEGMENT_DONE (R375): A target block is written, verified and checkpointed. -/
  | segmentDone (flashOk : Bool)
  /-- IMAGE_HASH_DONE (R375): The final image hash is compared and the target is marked VALID or INVALID. -/
  | imageHashDone (flashOk : Bool)
  /-- UPD_PAUSE (R373): A failed watch condition pauses the engine after the current block. -/
  | updPause (cause : Fin 4)
  /-- UPD_RESUME (R377): UPD_CMD RESUME continues an interrupted run from its checkpoint. -/
  | updResume (m : Master)
  /-- ACTIVATE (R378): UPD_CMD ACTIVATE journals, merges the settings and marks the target PENDING. -/
  | activate (m : Master)
  /-- ACTIVATE_DONE (R378): The activation steps complete with their records. -/
  | activateDone (flashOk : Bool)
  /-- ACCEPT (R378): UPD_CMD ACCEPT confirms the PENDING slot and releases the journal. -/
  | accept (m : Master)
  /-- UPD_ABORT (R380): UPD_CMD ABORT stops the engine at the next block boundary. -/
  | updAbort (m : Master)
  /-- UPD_DISABLE (R380): Clearing UPD_CTRL.EN stops the engine with cause 14. -/
  | updDisable (a : Acc) (v : Word)
  /-- TMR_TICK (R381): A prescaled clock tick advances the counter, wrapping at RELOAD with OVF. -/
  | tmrTick (n : Fin 8)
  /-- COMPARE_FIRING (R385): An armed compare channel meets its condition and fires. -/
  | compareFiring (n : Fin 8) (k : Fin 4)
  /-- TMR_COUNT_WRITE (R381): A write of TMRn_COUNT sets the counter. -/
  | tmrCountWrite (a : Acc) (n : Fin 8) (v : Word)
  /-- TMR_RELOAD_WRITE (R381): A write of TMRn_RELOAD takes effect at once. -/
  | tmrReloadWrite (a : Acc) (n : Fin 8) (v : Word)
  /-- TMR_CMP_WRITE (R383): A write of a compare value arms the channel. -/
  | tmrCmpWrite (a : Acc) (n : Fin 8) (k : Fin 4) (v : Word)
  /-- TMR_ENABLE (R383): Setting TMRn_CTRL.EN starts counting and arms the compares. -/
  | tmrEnable (a : Acc) (n : Fin 8) (v : Word)
  /-- TMR_DISABLE (R391): Clearing TMRn_CTRL.EN stops the counter. -/
  | tmrDisable (a : Acc) (n : Fin 8) (v : Word)
  /-- TMR_CAPTURE (R390): A capture edge copies the count into CAP. -/
  | tmrCapture (n : Fin 8) (k : Fin 4) (rising : Bool) (culvert : Bool)
  /-- TMR_CAP_READ (R390): A read of CAP clears VALID. -/
  | tmrCapRead (m : Master) (n : Fin 8) (k : Fin 4) (sameCycleCapture : Bool)
  /-- TMR_START_EVENT (R388): A Culvert START event sets the timer's EN. -/
  | tmrStartEvent (n : Fin 8)
  /-- TMR_RESET_EVENT (R388): A Culvert RESET event resets the count. -/
  | tmrResetEvent (n : Fin 8)
  /-- RTC_SECOND (R392): The calendar advances a second and the alarms are compared. -/
  | rtcSecond
  /-- RTC_SET (R393): RTC_CMD SET requests a calendar load, or is refused. -/
  | rtcSet (a : Acc) (v : Word)
  /-- RTC_SET_LOAD (R397): The SET loads at the next LFXO edge, possibly firing an alarm late. -/
  | rtcSetLoad
  /-- RTC_CAL_CORRECTION (R394): Every 2^20 ticks, CAL ticks are added or skipped. -/
  | rtcCalCorrection
  /-- RTC_SHADOW_READ (R395): The first calendar read by a master freezes its shadows. -/
  | rtcShadowRead (m : Master) (reg : Fin 3)
  /-- SHADOW_TIMEOUT (R395): A shadow freeze ends after SHTO ticks and sets SH_TIMEOUT. -/
  | shadowTimeout (m : Master)
  /-- RTC_UNLOCK (R399): Writing 0x1A7C while VDD is stable ends the RTC lockout. -/
  | rtcUnlock (a : Acc) (v : Word)
  /-- VDD_STABLE (R399): VDD has stayed at or above 1.8 V for 2 ms. -/
  | vddStable
  /-- RTC_ALARM_WRITE (R396): A write to an alarm register clears LAST and arms the alarm. -/
  | rtcAlarmWrite (a : Acc) (n : Fin 2) (reg : Fin 3) (v : Word)
  /-- BACKUP_SWITCH (R398): The backup switch moves the backup domain between VDD and VBKUP. -/
  | backupSwitch (vdd vbkup : Nat)
  /-- BACKUP_RETENTION_LOSS (R400): The backup supply recovering from below VRET restarts the calendar and sets BK_LOST. -/
  | backupRetentionLoss
  /-- ENTRY_ABORT (R405): A wake event at EP2 to EP5 undoes the entry. -/
  | entryAbort (ep : Fin 6) (src : BitVec 6)
  /-- EXCURSION_START (R407): Before an active slot the device leaves NAP or SLUMBER without waking Tanum-A. -/
  | excursionStart (t : Frc)
  /-- WAKE (R409): An enabled wake source brings the device out of its sleep state. -/
  | wake (src : BitVec 6) (straps : BitVec 5)
  /-- BOD_WARN (R417): VDD falls below the warning level. -/
  | bodWarn
  /-- AVS_UPDATE (R414): Every 1 µs the AVS loop moves the rail toward its wish. -/
  | avsUpdate (need0 need1 need2 need3 : Nat)
  /-- AVS_CLK_REQ (R415): A write of AVS_CLK.REQ requests a clock step. -/
  | avsClkReq (a : Acc) (v : Word)
  /-- CLK_TRIM_WRITE (R416): A crystal trim write takes effect, or is ignored while Cadence runs. -/
  | clkTrimWrite (a : Acc) (lfxo : Bool) (v : Word)
  /-- HFXO_STABLE (R416): The HFXO becomes stable after its start. -/
  | hfxoStable
  /-- SYSPLL_LOCK (R416): SYSPLL locks after the HFXO is stable. -/
  | syspllLock
  /-- PRODUCER_EVENT (R419): A producer raises an event and the Culvert delivers it to the enabled consumers. -/
  | producerEvent (p : Fin 96)
  /-- CUL_SWTRIG (R428): A software trigger enters an event into a channel. -/
  | culSwtrig (a : Acc) (v : Word)
  /-- CUL_CHEN_WRITE (R427): A write of CUL_CHEN enables or disables channels, bit by bit under the owner test. -/
  | culChenWrite (a : Acc) (v : Word)
  /-- ROUTING_FAULT (R429): A parity error disables the channel and enters safe routing. -/
  | routingFault (ch : Fin 32) (word : Fin 6)
  /-- CUL_EXIT (R429): CUL_CMD EXIT leaves safe routing, or is refused. -/
  | culExit (a : Acc) (v : Word)
  /-- HSP_READ (R435): The READ command returns register words from the window. -/
  | hspRead (idx : BitVec 6) (n : Nat) (lateAt : Option Nat)
  /-- HSP_WRITE (R436): The WRITE command posts register words from the window. -/
  | hspWrite (idx : BitVec 6) (ws : List Word) (pendFrom : Option Nat) (partialWord : Bool)
  /-- HSP_WINDOW (R433): The WINDOW command selects the page, quarter and view. -/
  | hspWindow (b0 b1 : Byte)
  /-- EXT_NOP (R438): The EXT NOP sub-command does nothing. -/
  | extNop (code arg : BitVec 4)
  /-- EXT_STATUS (R439): The EXT STATUS sub-command returns four status bytes and may clear the sticky bits. -/
  | extStatus (arg : BitVec 4)
  /-- PRESENCE_QUERY (R438): PRESENCE_QUERY returns the token, presence and seal state. -/
  | presenceQuery (arg : BitVec 4)
  /-- PRIV_CMD (R440): PRIV_CMD registers a privileged command that runs at CS_N deassertion. -/
  | privCmd (code : BitVec 4) (conf : Option Byte)
  /-- LANE_SET (R438): LANE_SET sets the command and data widths at the next deassertion. -/
  | laneSet (arg : BitVec 4)
  /-- HSP_CS_DEASSERT (R430): HSP_CS_N deassertion applies the pending configuration, window and routing changes. -/
  | hspCsDeassert
  /-- DEBUG_UNLOCK (R460): Privileged command 1 unlocks the debug port. -/
  | debugUnlock
  /-- OWNER_LOCK_RELEASE (R440): Privileged command 2 clears OLOCK. -/
  | ownerLockRelease
  /-- FACTORY_DEFAULTS (R440): Privileged command 3 zeroises and resets with cause FACTORY. -/
  | factoryDefaults (straps : BitVec 5)
  /-- GLADE_MAINTENANCE (R290): Privileged command 4 routes the HSP balls to the Glade while its grant holds. -/
  | gladeMaintenance
  /-- POSTED_WRITE_DONE (R436): A posted HSP write completes. -/
  | postedWriteDone
  /-- PSP_GO (R445): GO starts a PSP transfer, or is refused. -/
  | pspGo (a : Acc) (v : Word)
  /-- PSP_STOP (R446): STOP ends the transfer at the next bit boundary. -/
  | pspStop (a : Acc) (v : Word) (moved : Nat) (phase : Fin 4) (rx : List Byte)
  /-- PSP_TXD_WRITE (R444): A TXD write fills the TX FIFO, stalls, or overflows. -/
  | pspTxdWrite (a : Acc) (v : Word)
  /-- PSP_RXD_READ (R444): An RXD read pops a word, stalls, or underflows. -/
  | pspRxdRead (m : Master)
  /-- PSP_PAUSE (R444): An empty TX FIFO or a full RX FIFO pauses the clock. -/
  | pspPause (moved : Nat) (rx : List Byte)
  /-- PSP_FIFO_RESUME (R444): Room or data returns and the paused transfer resumes. -/
  | pspFifoResume
  /-- PSP_TRANSFER_END (R443): The transfer ends with DONE. -/
  | pspTransferEnd (rx : List Byte)
  /-- TST_BIST_REQ (R457): SRAM BIST is requested for the named banks. -/
  | tstBistReq (a : Acc) (v : Word)
  /-- BIST_BANK_DONE (R457): BIST of one bank completes and the next bank starts. -/
  | bistBankDone (pass : Bool)
  /-- LBIST (R457): TST_SELF.LBIST starts logic BIST of both Cadence copies, or is refused. -/
  | lbist (a : Acc) (v : Word)
  /-- RRAM_BIST (R457): TST_SELF.RRAM starts radio RAM BIST, or is refused. -/
  | rramBist (a : Acc) (v : Word)
  /-- SELF_TEST_DONE (R457): A logic or radio RAM BIST completes with its result. -/
  | selfTestDone (pass : Bool)
  /-- TST_CAP_REQ (R457): A sample capture is requested. -/
  | tstCapReq (a : Acc) (v : Word)
  /-- CAPTURE_DONE (R457): A sample capture completes into the capture area. -/
  | captureDone (samples : List Word)
  /-- GPIO_EVENT (R467): A GPIO event unit sees its edge and raises its producer. -/
  | gpioEvent (bank : Bool) (pin : Fin 18) (level : Bool)
  /-- ADC_START (R468): A START write or a C42 event starts a general ADC conversion. -/
  | adcStart (m : Option Master)
  /-- ADC_RESULT (R468): A conversion result lands, possibly overwriting an unread one. -/
  | adcResult (data : BitVec 12)
  /-- ADC_RES_READ (R468): A read of ADC_RES clears VALID. -/
  | adcResRead (m : Master) (sameCycleResult : Option (BitVec 12))
  /-- HEAD_END (R134): The HEAD samples end at the end of the PHR and the transmitter moves from HEAD to BODY. -/
  | headEnd (t : Frc)
  /-- LDPC_CODEWORD_RECEIVED (R120): A lane finishes receiving a Rill codeword, queues its soft values, and an idle decoder takes the earliest queued codeword. -/
  | ldpcCodewordReceived (at' : LaneAt)
  /-- ACK_BUILD_DONE (R141): The ACK build in ticket-store entry 4 completes and the entry turns from building to ready, within 200 µs of publication. -/
  | ackBuildDone (t : Frc)
  /-- SLEW_END (R262): The pending correction P reaches zero, so slewing stops and SLEWING and BUSY clear. -/
  | slewEnd (t : Frc)
  /-- LFXO_EDGES_RETURN (R459): LFXO edges have returned for 1 s, so LFXO_FAIL clears and the LFXO users leave the RC oscillator. -/
  | lfxoEdgesReturn
  /-- RTC_LOCKOUT (R399): VDD falls below its 1.8 V operating minimum, which puts the RTC bus lockout back in force and clears VDD_STABLE. -/
  | rtcLockout
  /-- BOD_WARN_CLEAR (R417): VDD rises back above the brown-out warning level and PWR_STAT.BOD_WARN clears. -/
  | bodWarnClear
  /-- RESET_RELEASE (R447): A held system reset is released, 20 µs after RESET_N rises or once VDD has stayed above 1.75 V for 1 ms after a brown-out, and the straps are sampled and the boot ROM runs. -/
  | resetRelease (straps : BitVec 5)
  /-- BOUNDARY_SCAN (R460): An IEEE 1149.1 instruction (BYPASS, IDCODE, SAMPLE/PRELOAD, or EXTEST when unlocked) is executed at the test access port. -/
  | boundaryScan (ins : ScanInstr)
  /-- DEBUG_ACCESS (R11): The unlocked debug port reads or writes main flash, boot ROM, SRAM, radio RAM or the Glade window, with ECC repair, bus errors and stalls as for other masters. -/
  | debugAccess (addr : Word) (size : AccSize) (w : Option Word)
  deriving DecidableEq, Repr

end Sys2Proof
end

