-- ==== Sys2Proof/Machine/Mac.lean ====
section
/-!
DEFINITION. MAC frames as the device reads and writes them (R160 to R165): the header of a queued MPDU with the places of the
fields the device overwrites, the keep-alive of R204, the Enhanced ACK of R163, and the nonce of R366. Octet layouts are those of
IEEE 802.15.4-2020, which the manual takes as its standard (log entry 12).
Readings of the manual made here: PRESUMED in log entry 12; DEDUCED in log entry 41.
-/
namespace Sys2Proof.Machine
open Sys2Proof

/-- An address of a MAC header (R160). -/
inductive MacAddr where
  | none
  | short (a : BitVec 16)
  | ext (a : BitVec 64)
  deriving DecidableEq, Repr

/-- What finds the key of a received frame (R121, R164). -/
structure SecHdr where
  keyMode : BitVec 2
  keyIdx : Byte
  deriving DecidableEq, Repr

def leNat (l : List Byte) : Nat := l.foldr (fun x n => n * 256 + x.toNat) 0
def leBytes : Nat → Nat → List Byte
  | 0, _ => []
  | n + 1, v => BitVec.ofNat 8 v :: leBytes n (v / 256)
/-- Replace octets of a frame from an index on. -/
def putAt (l : List Byte) (i : Nat) (v : List Byte) : List Byte := l.take i ++ v ++ l.drop (i + v.length)
def sliceOf (l : List Byte) (i n : Nat) : List Byte := (l.drop i).take n

/-- What the device reads from an MHR, with octet offsets from the start of the PSDU. -/
structure MacInfo where
  ftype : Nat
  version : Nat
  secured : Bool
  ackReq : Bool
  seq : Option Byte
  dst : MacAddr
  src : MacAddr
  level : Nat
  keyMode : Nat
  keyIdx : Byte
  fcSup : Bool
  fcOfs : Nat
  /-- End of the header and of what a MIC covers in clear. -/
  hdrLen : Nat
  /-- Payload IEs follow. -/
  pay : Bool
  /-- Departure Time IE contents: offset and length (R162). -/
  dep : List (Nat × Nat)
  /-- Content of a Time Correction IE (R188, R194). -/
  timeCorr : Option Nat
  /-- ASN fields of TSCH Synchronization IEs (R161), of a frame that is to be sent. -/
  asnOfs : List Nat
  deriving DecidableEq, Repr

/-- MIC octets of a security level. -/
def micLen (level : Nat) : Nat := match level % 4 with | 0 => 0 | 1 => 4 | 2 => 8 | _ => 16
def encrypts (level : Nat) : Bool := 4 ≤ level

/-- PAN ID fields of a frame: destination, source (R160). -/
def panIds (ver dm sm : Nat) (comp : Bool) : Bool × Bool :=
  if ver < 2 then (dm != 0, sm != 0 && !comp)
  else if dm = 0 && sm = 0 then (comp, false)
  else if sm = 0 then (!comp, false)
  else if dm = 0 then (false, !comp)
  else if dm = 3 && sm = 3 then (!comp, false)
  else (true, !comp)

def addrLen (m : Nat) : Nat := if m = 2 then 2 else if m = 3 then 8 else 0
def addrAt (l : List Byte) (o m : Nat) : MacAddr :=
  if m = 2 then .short (BitVec.ofNat 16 (leNat (sliceOf l o 2)))
  else if m = 3 then .ext (BitVec.ofNat 64 (leNat (sliceOf l o 8))) else .none

/-- Header IEs from `o` to `e`: where they end, whether payload IEs follow, and each IE's ID, content offset and length. None if
malformed. -/
def hdrIes (l : List Byte) (e : Nat) : Nat → Nat → Option (Nat × Bool × List (Nat × Nat × Nat))
  | 0, _ => none
  | n + 1, o =>
    if o = e then some (o, false, [])
    else if e < o + 2 then none
    else
      let d := leNat (sliceOf l o 2)
      let len := d % 128
      let id := d / 128 % 256
      if d / 32768 = 1 || e < o + 2 + len then none
      else if id = 0x7E then some (o + 2 + len, true, [])
      else if id = 0x7F then some (o + 2 + len, false, [])
      else (hdrIes l e n (o + 2 + len)).map fun r => (r.1, r.2.1, (id, o + 2, len) :: r.2.2)

/-- Sub-IEs of an MLME IE: ASN fields of TSCH Synchronization IEs. -/
def mlmeIes (l : List Byte) (e : Nat) : Nat → Nat → Option (List Nat)
  | 0, _ => none
  | n + 1, o =>
    if o = e then some []
    else if e < o + 2 then none
    else
      let d := leNat (sliceOf l o 2)
      let long := d / 32768 = 1
      let len := if long then d % 2048 else d % 256
      if e < o + 2 + len then none
      else
        let hit := !long && d / 256 % 128 = 0x1A && 5 ≤ len
        (mlmeIes l e n (o + 2 + len)).map fun r => if hit then (o + 2) :: r else r

/-- Payload IEs up to the payload termination or the end. -/
def payIes (l : List Byte) (e : Nat) : Nat → Nat → Option (List Nat)
  | 0, _ => none
  | n + 1, o =>
    if o = e then some []
    else if e < o + 2 then none
    else
      let d := leNat (sliceOf l o 2)
      let len := d % 2048
      let gid := d / 2048 % 16
      if d / 32768 = 0 || e < o + 2 + len then none
      else if gid = 15 then some []
      else
        match (if gid = 1 then mlmeIes l (o + 2 + len) 1024 (o + 2) else some []), payIes l e n (o + 2 + len) with
        | some a, some r => some (a ++ r)
        | _, _ => none

/-- Octets of a key identifier by its mode. -/
def keyIdLen (km : Nat) : Nat := match km with | 0 => 0 | 1 => 1 | 2 => 5 | _ => 9

/-- The MHR up to its Auxiliary Security Header, and whether header IEs follow it; none for one that cannot be parsed. The command ID of a
version 0 or 1 command frame is sent in clear. -/
def parseHead (l : List Byte) : Option (MacInfo × Bool) :=
  let fc := leNat (l.take 2)
  let ver := fc / 4096 % 4
  let secured := fc / 8 % 2 = 1
  let sup := ver = 2 && fc / 256 % 2 = 1
  let dm := fc / 1024 % 4
  let sm := fc / 16384 % 4
  let o := if sup then 2 else 3
  let (pd, ps) := panIds ver dm sm (fc / 64 % 2 = 1)
  let dOfs := o + (if pd then 2 else 0)
  let sOfs := dOfs + addrLen dm + (if ps then 2 else 0)
  let o := sOfs + addrLen sm
  let sc := (byteOf l o).toNat
  let km := sc / 8 % 4
  let fsup := sc / 32 % 2 = 1
  let fcOfs := o + 1
  let kOfs := fcOfs + (if fsup then 0 else 4)
  let o := if secured then kOfs + keyIdLen km else o
  if l.length < max 2 o || ver = 3 || dm = 1 || sm = 1 then none
  else
    some ({ ftype := fc % 8, version := ver, secured := secured, ackReq := fc / 32 % 2 = 1
            seq := if sup then none else some (byteOf l 2), dst := addrAt l dOfs dm, src := addrAt l sOfs sm
            level := if secured then sc % 8 else 0, keyMode := km, keyIdx := if secured && km = 1 then byteOf l kOfs else 0
            fcSup := fsup, fcOfs := fcOfs, hdrLen := o, pay := false, dep := [], timeCorr := none, asnOfs := [] },
          ver = 2 && fc / 512 % 2 = 1)

/-- The MHR of an MPDU with an FCS of `fcs` octets. `eid` is the element ID of the Departure Time IE while it is recognised. -/
def parseMhr (l : List Byte) (fcs : Nat) (eid : Option Nat) : Option MacInfo :=
  match parseHead l with
  | none => none
  | some (i, ies) =>
    let e := l.length - fcs - micLen i.level
    if l.length < fcs + micLen i.level || e < i.hdrLen then none
    else
      match (if ies then hdrIes l e 1024 i.hdrLen else some (i.hdrLen, false, [])) with
      | none => none
      | some (h, pay, l') =>
        let tc := (l'.find? fun (x : Nat × Nat × Nat) => x.1 == 0x1E && x.2.2 == 2).map fun (x : Nat × Nat × Nat) => leNat (sliceOf l x.2.1 2)
        let dep := (l'.filter fun (x : Nat × Nat × Nat) => eid = some x.1 && (x.2.2 == 4 || x.2.2 == 6)).map fun (x : Nat × Nat × Nat) => x.2
        some { i with hdrLen := if i.version < 2 && i.ftype = 3 then min e (h + 1) else h, pay := pay, dep := dep, timeCorr := tc }

/-- An MPDU that is to be sent, with its 4-octet FCS; none for one the device cannot prepare because it cannot parse it (R211
cause 8): version 2, a frame type it sends, key identifier mode 0 or 1, well-formed IEs. -/
def parseMpdu (l : List Byte) (eid : Option Nat) : Option MacInfo :=
  match parseMhr l 4 eid with
  | none => none
  | some i =>
    if i.version != 2 || 3 < i.ftype || (i.secured && (1 < i.keyMode || 128 ≤ (byteOf l (i.fcOfs - 1)).toNat)) then none
    else
      (if i.pay then payIes l (l.length - 4 - micLen i.level) 1024 i.hdrLen else some []).map fun a => { i with asnOfs := a }

/-- CCM* nonce (R366): extended address, frame counter, security level. Multi-octet fields in the order of IEEE 802.15.4. -/
def nonceFc (ext fc level : Nat) : List Byte := beBytes 8 ext ++ beBytes 4 fc ++ [BitVec.ofNat 8 level]
/-- The nonce of a frame with a suppressed counter: the ASN in its place. -/
def nonceAsn (ext asn : Nat) : List Byte := beBytes 8 ext ++ beBytes 5 asn

/-- CRC-32 of IEEE 802.15.4's 4-octet FCS over octets, and the 2-octet FCS. -/
def fcs4 (l : List Byte) : List Byte := leBytes 4 (crc32 l)
def crc16Byte (c : Nat) (b : Byte) : Nat :=
  (List.range 8).foldl (fun c _ => if c % 2 = 1 then Nat.xor (c / 2) 0x8408 else c / 2) (Nat.xor c b.toNat)
def fcs2 (l : List Byte) : List Byte := leBytes 2 (l.foldl crc16Byte 0)

/-- The nonce of a received frame: its own counter, or the ASN where the counter is suppressed (R366). -/
def rxNonce (ext asn : Nat) (i : MacInfo) (l : List Byte) : List Byte :=
  if i.fcSup then nonceAsn ext asn else nonceFc ext (leNat (sliceOf l i.fcOfs 4)) i.level

/-- A received secured frame under a key: whether its MIC passes (level 4 never does, R164), and its octets decrypted. -/
def openFrame (key nonce : List Byte) (i : MacInfo) (fcs : Nat) (l : List Byte) : Bool × List Byte :=
  let e := l.length - fcs - micLen i.level
  let h := if encrypts i.level then l.take i.hdrLen else l.take e
  let c := if encrypts i.level then (l.take e).drop i.hdrLen else []
  let m := ccmCrypt key nonce c
  (i.level != 4 && ccmTag key nonce h m (micLen i.level) == sliceOf l e (micLen i.level), h ++ m ++ l.drop e)

/-- The keep-alive of R204: version 2 data frame with an ACK request, sequence number suppressed, PAN ID compression 1. The
MIC and FCS places hold zeros. -/
def keepAlive (dst : MacAddr) (pan : Nat) (self : BitVec 64) (sec : Bool) : List Byte :=
  let dm : Nat := match dst with | .short _ => 2 | .ext _ => 3 | .none => 0
  let fc := 1 + (if sec then 8 else 0) + 32 + 64 + 256 + dm * 1024 + 2 * 4096 + 3 * 16384
  leBytes 2 fc ++ leBytes 2 pan
    ++ (match dst with | .short a => leBytes 2 a.toNat | .ext a => leBytes 8 a.toNat | .none => [])
    ++ leBytes 8 self.toNat ++ (if sec then [5#8] ++ leBytes 4 0 ++ leBytes 4 0 else []) ++ leBytes 4 0

/-- What the device knows of its keep-alive without parsing it. -/
def keepAliveInfo (dst : MacAddr) (self : BitVec 64) (sec : Bool) : MacInfo :=
  let o := 12 + (match dst with | .short _ => 2 | .ext _ => 8 | .none => 0)
  { ftype := 1, version := 2, secured := sec, ackReq := true, seq := none, dst := dst, src := .ext self
    level := if sec then 5 else 0, keyMode := 0, keyIdx := 0, fcSup := false, fcOfs := o + 1
    hdrLen := if sec then o + 5 else o, pay := false, dep := [], timeCorr := none, asnOfs := [] }

/-- Time Correction IE of R194: header IE, element ID 0x1E, 2 octets; TC in two's complement in 12 bits, NACK 0. -/
def timeCorrIe (tc : Int) : List Byte := leBytes 2 (2 + 0x1E * 128) ++ leBytes 2 ((tc % 4096).toNat)

/-- The Enhanced ACK of R163 up to its Time Correction IE, with the frame counter in place for a secured one. -/
def enhAck (seq : Option Byte) (dst : Option Nat) (fc : Option Nat) (tc : Int) : List Byte :=
  let ctl := 2 + (if fc.isSome then 8 else 0) + 64 + (if seq.isNone then 256 else 0) + 512
    + (if dst.isSome then 2 * 1024 else 0) + 2 * 4096
  leBytes 2 ctl ++ (match seq with | some q => [q] | none => [])
    ++ (match dst with | some d => leBytes 2 d | none => [])
    ++ (match fc with | some c => [5#8] ++ leBytes 4 c | none => []) ++ timeCorrIe tc

end Sys2Proof.Machine
end

