-- ==== Sys2Proof/Machine/State.lean ====
section
/-!
DEFINITION. The machine's state: plain data, every piece the manual names (INVENTORY.md lists them). Software-visible registers
stand in ONE canonical store keyed by address (`regs`); what the manual says a block holds beside its registers stands in one
structure per block.
-/
namespace Sys2Proof.Machine

/-- System states (R22). -/
inductive SysState where | start | run | test | recovery
  deriving DecidableEq, Repr

/-- Power states (R25). -/
inductive PwrState where | run | doze | nap | slumber | hibernate | off | backup
  deriving DecidableEq, Repr

/-- Resets that a held device waits for (R447). -/
inductive ResetKind where | por | bor | pin | swsys | syswdt | offWake | factory
  deriving DecidableEq, Repr

/-- Why the machine stops with a fault. No command of this manual is one the manual leaves without an effect, so no
constructor is raised on ordinary data; the one below is raised by an access outside the device (safe: the machine stops
where the manual gives no such memory). -/
inductive Fault where
  /-- A radio-RAM structure read at an address the manual does not map. Raised by nobody in a well-formed state; safe. -/
  | unmapped (addr : Nat)
  deriving DecidableEq, Repr

/-- Why a command is refused. -/
inductive Refusal where
  /-- Raised by `exec` for a command that has no meaning yet; safe (nothing follows). -/
  | notModelled (mnemonic : String)
  deriving DecidableEq, Repr

/-! ## Interconnect and protection -/

/-- What the last access of a master returned: the read data and whether the access ended with a bus error (R6, R56). -/
structure BusState where
  /-- Data of the last completed read. -/
  data : Word := 0
  /-- The last access ended with a bus error. -/
  err : Bool := false
  /-- Read latches of the wide values (R54): master code, address of the high word, latched high word. -/
  latches : List (Nat × Nat × Word) := []
  /-- Held low words of wide writes (R54): master code, address of the low word, held value. -/
  held : List (Nat × Nat × Word) := []
  deriving DecidableEq, Repr

/-- One audit entry: six words (R61). -/
structure AuditEntry where
  w0 : Word
  w1 : Word
  w2 : Word
  w3 : Word
  w4 : Word
  w5 : Word
  deriving DecidableEq, Repr

/-- The protection unit: audit ring (R60) and presence input (R62). -/
structure ProtState where
  /-- The ring, by index 0 to 127 as far as it has been written. -/
  ring : List AuditEntry := []
  /-- Index of the next entry. -/
  next : Nat := 0
  /-- The ring has wrapped. -/
  full : Bool := false
  /-- Sequence number of the next entry. -/
  seq : Nat := 0
  /-- Filtered PRESENCE_N is low since this instant of `State.now`. -/
  lowFrom : Option Nat := none
  /-- End of the last low period of at least 2 s. -/
  lastLong : Option Nat := none
  /-- TOKEN_GAIN was raised for the token that exists now. -/
  gained : Bool := false
  deriving DecidableEq, Repr

/-- One overlay record: register address, MASK, VALUE and BASE (R65). -/
structure OvlRec where
  addr : Nat
  mask : Word
  value : Word
  base : Word
  deriving DecidableEq, Repr

/-- The overlay engine Coppice: the overlay store, the base section and the request (R65 to R75). -/
structure OvlState where
  /-- Base records in order: address and value. -/
  base : List (Nat × Word) := []
  /-- Loaded overlays: mode and records. -/
  store : List (Nat × List OvlRec) := []
  /-- Pending mode request: mode, WHEN. -/
  pending : Option (Nat × Bool) := none
  /-- A LOAD is in progress. -/
  loading : Bool := false
  /-- A mode apply whose first slot is still to come: the mode, and whether `OVL_MODE.CUR` and MODE_CHANGED wait for its tick (R73). -/
  atTick : Option (Nat × Bool) := none
  deriving DecidableEq, Repr

/-! ## Network time -/

/-- The network time unit beside its registers (R256 to R270). -/
structure NtuState where
  frc : Frc := 0
  offset : Frc := 0
  anchor : Frc := 0
  /-- The fraction carried by re-anchoring, in units of 2^-40 counts (R257). -/
  frac : Nat := 0
  /-- Correction accumulator (R262). -/
  corr : Frc := 0
  /-- Pending correction P, signed counts. -/
  pend : Int := 0
  /-- Fraction of the slew, in millionths of a count. -/
  slewFrac : Nat := 0
  /-- FRC until which no slew is made: the departure of a launch (R137). -/
  slewHold : Nat := 0
  /-- FRC at which the holdover timer last restarted (R264). -/
  holdFrom : Nat := 0
  /-- FRC at which holdover was entered. -/
  holdEnter : Nat := 0
  /-- The previous accepted sample of each source: source (a neighbour, or 1024 plus SEL) and FRC (R261). -/
  prev : List (Nat × Nat) := []
  /-- Consecutive rejections from the current source. -/
  rejRun : Nat := 0
  /-- A requested explicit step, and whether it is the sample step that sets SYNC (R261, R263). -/
  step : Option (Int × Bool) := none
  /-- The Tailrace began with the step waiting for the transmitter's return to IDLE (R137, R263). -/
  stepDue : Bool := false
  /-- P and RATE that wait for the transmitter's return to IDLE (R137, R261). -/
  deferP : Option Int := none
  deferRate : Option Int := none
  /-- FRC of the last accepted sample of the current source (R260). -/
  srcAt : Option Nat := none
  /-- FRC at the entry edge of a sleep, and whether compensation applied (R266). -/
  entry : Option (Nat × Bool) := none
  /-- A wake handoff is still owed (R267). -/
  handoff : Bool := false
  /-- Pulse outputs asserted now, with the FRC of their start edges (R269). -/
  pulseOn : List (Nat × Nat) := []
  /-- Channels whose target is still to fire. -/
  armed : List Nat := []
  /-- Last ASN served and, after a step, the first ASN that may be served (R15). -/
  lastAsn : Option Nat := none
  deriving DecidableEq, Repr

/-! ## Culvert -/

/-- The Culvert beside its registers (R419 to R429). -/
structure CulState where
  /-- Producers whose events a consumer's own action raised beyond the cascade that one command follows: still in the matrix. -/
  inMatrix : List Nat := []
  /-- Parity errors that persist: channel and word (R429). -/
  parity : List (Nat × Nat) := []
  /-- Consumers with an event latched while their domain was Gated (R422). -/
  latched : List Nat := []
  deriving DecidableEq, Repr

/-! ## Power, clocks, resets -/

/-- The power manager beside its registers (R401 to R418). -/
structure PwrS where
  st : PwrState := .run
  /-- Sleep state an excursion returns to (R407). -/
  home : PwrState := .run
  exc : Bool := false
  /-- Wake events that have arrived: bits 0 to 5 in the order of PWR_WAKE_EN (R409). -/
  wakePend : Nat := 0
  /-- The state that the last entry left, DOZE for one out of an excursion, until the loss of what the present state does not keep
  has taken effect; and FRC at the entry (R404, R405). -/
  leaving : Option PwrState := none
  enterAt : Nat := 0
  /-- V_need of the four clock steps as the timing monitors last gave it (R413). -/
  need : List Nat := [500, 600, 700, 850]
  /-- The override of R29 is in force: the ceiling lies below what the requested clock needs. -/
  avsOver : Bool := false
  /-- The bank-A pins driven since EP6 of HIBERNATE or OFF, and those driven high (R418). -/
  heldA : Option (Nat × Nat) := none
  deriving DecidableEq, Repr

/-- Where a boot that waits for its calibrations will go (R451): stack pointer, first instruction, watchdog timeout of a trial. -/
structure BootEnd where
  ssp : Word
  pc : Word
  trial : Option Nat
  deriving DecidableEq, Repr

/-- System-level state beside the SYS page (R22, R447 to R460). -/
structure SysS where
  st : SysState := .start
  /-- The device is held in reset until RESET_RELEASE, by this kind of reset (R447). -/
  held : Option ResetKind := none
  dbgUnlocked : Bool := false
  /-- TEST strap at the last system reset (R464). -/
  testStrap : Bool := false
  /-- HSTRAP3 to HSTRAP0 as sampled. -/
  hstraps : Nat := 0
  /-- Straps that are sampled only when HSP_CS_N is deasserted (R464), TEST in bit 4. -/
  strapsDue : Option Nat := none
  /-- The instruction in force at the IEEE 1149.1 port (R460). -/
  tap : ScanInstr := .bypass
  tcxo : Bool := false
  hfxoStable : Bool := false
  syspllLock : Bool := false
  /-- A core reset has happened whose warm boot has not run (R447, R451). -/
  warm : Bool := false
  /-- The boot ROM waits for the calibrations that it requested. -/
  boot : Option BootEnd := none
  deriving DecidableEq, Repr

/-! ## Radio front end and Canopy -/

/-- The front end beside its registers. Calibration items 0 to 7 are those of R98, 8 is the mask self-check (R146) and 9 the
sample capture (R457). -/
structure RfeState where
  /-- FRC from which the front end serves slots after EN was set (R85). -/
  servesFrom : Nat := 0
  /-- ASN of the slot in which each pending item was requested (R100). -/
  age : List (Nat × Nat) := []
  /-- The item that is running. -/
  running : Option Nat := none
  /-- FRC by which work of the present Clearing must end, while one is worked in. -/
  clearingEnd : Option Nat := none
  /-- FRC until which FEM_PA stays asserted after a ramp-down (R96). -/
  paUntil : Nat := 0
  /-- Switch code of the slot in progress; none between slots (R96). -/
  femSw : Option Nat := none
  /-- The receive window of the slot has closed. -/
  shut : Bool := true
  /-- A receive window is open (AGC). -/
  window : Bool := false
  /-- Consecutive clipped 1 us intervals at the limit (R94), and whether the override already started. -/
  clipRun : Nat := 0
  override : Bool := false
  /-- A Canopy window is open, with the back-off steps it has seen (R93). -/
  cnpOpen : Bool := false
  backoffs : Nat := 0
  /-- Clipping is not judged: the ACK span of R125; and the interval under way at its end. -/
  ackSpan : Bool := false
  spanTail : Bool := false
  deriving DecidableEq, Repr

/-- A served candidate of a Canopy window, or the narrowband reception of a slot (R107 to R110). -/
structure Served where
  /-- Cells served by the lane; the first is the highest ranked. -/
  cells : List Nat
  lane : Nat
  bin : Int
  wide : Bool
  mode : Nat
  /-- Channel centre in synthesiser units. -/
  freq : Nat
  /-- Rank in arbitration order; pinned lanes come after every cell. -/
  rank : Nat
  /-- The lane is pinned (R126). -/
  pinned : Bool
  /-- Offsets of guard opening and closing from the tick, in us. -/
  opens : Nat
  closes : Nat
  deriving DecidableEq, Repr

/-- What a lane knows of a frame from its PHR on: the code as it was sent, octets (of wireless M-Bus without block CRCs), FCS octets, whitening,
the convolutional code and its interleaving, format B, and whether it requests an ACK that the device gives (R150, R158, R160). -/
structure Phr where
  mode : Nat
  len : Nat
  fcs : Nat := 4
  wht : Bool := false
  rsc : Bool := true
  inter : Bool := true
  fmtB : Bool := false
  ackReq : Bool := false
  deriving DecidableEq, Repr

/-- A frame as the lane decoded it: its octets after FEC and whitening, still encrypted and with MIC and FCS (of wireless M-Bus from the
L-field on, without block CRCs), whether its CRC passed, and its FCS octets and format. -/
structure RxFrame where
  octets : List Byte
  crcOk : Bool
  fmtB : Bool := false
  fcs : Nat := 4
  deriving DecidableEq, Repr

/-- A lane beside its registers. -/
structure Lane where
  serves : Option Served := none
  /-- The search interval is still open. -/
  searching : Bool := false
  /-- Paused for an ACK (R125). -/
  paused : Bool := false
  disturbed : Bool := false
  /-- Threshold loop (R115): noise floor and threshold in dBm as numerators over 256 * 16^den, exact. -/
  nf : Int := -96 * 256
  thr : Int := -90 * 256
  den : Nat := 0
  /-- LANEn_THR as the window latched it (R104). -/
  thrCfg : Nat := 0x0006C483
  /-- LANEn_CFG and LANEn_PD as the window latched them (R104). -/
  cfg : Nat := 0
  pd : Nat := 0x00400814
  /-- Digital gain in dB over the one that matches P_clip of the window's gain (R116, R95). -/
  dgain : Int := 0
  /-- Winning branch (R114), and the offset e of R193 of the frame in DATA. -/
  hyp : Nat := 0
  ofs : Int := 0
  /-- FRC of the detection. -/
  detAt : Nat := 0
  /-- Code and format B that the synchronisation word gave (R150, R156); the code that a mode-switch PPDU leads to (R159). -/
  code : Nat := 0
  fmtB : Bool := false
  toMode : Option Nat := none
  /-- PHR of the frame in DATA. -/
  phr : Option Phr := none
  /-- Staged cells, first to last (R121). -/
  cells : List Nat := []
  /-- Key slot and key generation used for decryption (R123). -/
  key : Option (Nat × Nat) := none
  noKey : Bool := false
  frame : Option RxFrame := none
  /-- FRC at which the frame ended on the air. -/
  endAt : Nat := 0
  /-- Rill codewords received and decoded of this frame. -/
  cwIn : Nat := 0
  cwOut : Nat := 0
  /-- Information bits of the codewords decoded so far. -/
  info : List Bool := []
  deriving DecidableEq, Repr

/-- A codeword in the LDPC pool (R120): its lane, the FRC at which its reception ended, and the FRC at which a decoder took it. -/
structure Codeword where
  lane : Nat
  recv : Nat
  taken : Nat := 0
  deriving DecidableEq, Repr

/-- The LDPC pool (R120): codewords that wait, in the order in which decoders take them, and the codeword of each decoder. -/
structure FecState where
  queue : List Codeword := []
  dec : List (Option Codeword) := [none, none, none, none]
  deriving DecidableEq, Repr


/-! ## The slot in progress -/

/-- A cell as a resolution found it (R184): its table fields, channel and guard at that instant. -/
structure Cand where
  cell : Nat
  sf : Nat
  prio : Nat
  kind : Nat
  classA : Bool
  shared : Bool
  ackEn : Bool
  nbr : Option Nat
  mode : Nat
  classes : Nat
  pwr : Nat
  chan : Nat
  /-- Channel centre in synthesiser units. -/
  freq : Nat
  /-- Receive guard in us. -/
  guard : Nat
  deriving DecidableEq, Repr

/-- What a slot is (R186). -/
inductive SlotKind where | idle | tx | rx | clearing
  deriving DecidableEq, Repr

/-- The slot that Cadence runs now. -/
structure Slot where
  asn : Nat
  /-- Network time of its boundary, from which the offsets of the slot count. -/
  tickNt : Nat
  kind : SlotKind
  /-- The deciding cell, and every cell served. -/
  cand : Option Cand
  cands : List Cand
  /-- Channel centre in synthesiser units: the cell's, or the Canopy window's f_c. -/
  freq : Nat
  /-- RX slots: receive through Canopy, listen window, served candidates. -/
  canopy : Bool
  listen : Bool
  served : List Served
  /-- Lost under R80, R85 or R267. -/
  lost : Bool := false
  /-- CNP_CTRL.PUB_UNKNOWN and FEC_CFG as the window latched them (R104). -/
  pubUnknown : Bool := false
  fecCfg : Nat := 0
  lockSeen : Bool := false
  /-- The Tailrace has begun, and how many of its steps completed. -/
  tail : Bool := false
  tailDone : Nat := 0
  /-- Cells a published frame of this slot was credited to (R192). -/
  credited : List Nat := []
  /-- The mask work of a Clearing (R206) is under way. -/
  late : Bool := false
  deriving DecidableEq, Repr

/-! ## Cadence -/

/-- The ACK awaited for the attempt of the present TX slot (R187, R188). -/
structure AckWait where
  /-- FRC at which the window opens and closes. -/
  opens : Nat
  closes : Nat
  isOpen : Bool := false
  /-- The window has closed or an ACK decided the attempt. -/
  shut : Bool := false
  deriving DecidableEq, Repr

/-- Cadence beside its registers (R173 to R207). -/
structure CadState where
  /-- Value of the Departure Time IE of the last published frame that carried one (R161). -/
  depTime : Option Nat := none
  /-- The four hop sequences, 128 entries each (R182). -/
  hop : List (List Nat) := List.replicate 4 (List.replicate 128 0)
  /-- After a disable the current slot runs on to the end of its Tailrace (R174). -/
  stopping : Bool := false
  /-- First FRC at which a tick may be served after an enable (R173). -/
  startAt : Nat := 0
  /-- The resolution of the next slot: its ASN and the ranked cells (R184). -/
  resolved : Option (Nat × List Cand) := none
  /-- Cells found malformed and not yet made valid (R180). -/
  malformed : List Nat := []
  /-- Neighbours whose estimator has taken its first rate sample (R200), and those whose HELD was written while HOLD was 1
  (R201). -/
  sampled : List Nat := []
  heldNew : List Nat := []
  /-- ACK awaited in the present TX slot. -/
  ack : Option AckWait := none
  /-- A heartbeat arrived in the slotframe-0 cycle in progress (R41), and the limit was reached in this slot. -/
  beat : Bool := false
  silentNow : Bool := false
  /-- Lockstep: FRC at which the present phase began, replays of it, a replay is running (R34 to R38). -/
  phaseAt : Nat := 0
  replays : Nat := 0
  replaying : Bool := false
  /-- An injected fault not yet detected: group and copy (R207). -/
  inject : Option (Nat × Nat) := none
  deriving DecidableEq, Repr

/-! ## Headrace -/

/-- A duty-cycle reservation (R249): sub-band, channel centre, airtime in 1/1536 us. -/
structure Resv where
  sb : Nat
  freq : Nat
  fine : Nat
  deriving DecidableEq, Repr

/-- A Weir charge or count of one frame (R240): meter, octets taken from the two buckets in 1/32,000,000, colour. -/
structure WeirUse where
  meter : Nat
  tc : Nat
  te : Nat
  colour : Nat
  deriving DecidableEq, Repr

/-- A demotion that a squash reverses (R241): frame, queue it left and the frames that stood before it there, queue it went to, DEMOTED
before, its count, and whether A_DEMOTED counted it. -/
structure Demotion where
  frame : Nat
  src : Nat
  ahead : List Nat
  dst : Nat
  before : Bool
  use : Option WeirUse
  aDem : Bool
  deriving DecidableEq, Repr

/-- The shaping a frame was built with (R129, R130): the rectangular preset, a Gaussian one (BT 1.0 or BT 0.5), or the custom taps as
they stood. -/
inductive Shape where
  | rect
  | gauss (bt1 : Bool)
  | custom (taps : List (BitVec 16))
  deriving DecidableEq, Repr

/-- The encoder of a mode after some octets: whitening register and convolutional state (R131). -/
structure Encoder where
  white : Nat := 0x1FF
  code : Nat := 0
  deriving DecidableEq, Repr

/-- What an entry of the ticket store holds (R131): HEAD as shaped samples, BODY as coded bits with the octets they carry, and for LIVE the first
octet of the live segment, the keystream from there on, keystream block 0 and the encoder at the splice point. The layout of the frame and its nonce
go with it (R138). -/
structure Stored where
  info : Option MacInfo := none
  nonce : List Byte := []
  head : List Int := []
  body : List Bool := []
  plain : List Byte := []
  splice : Option Nat := none
  ks : List Byte := []
  ks0 : List Byte := []
  enc : Encoder := {}
  deriving DecidableEq, Repr

/-- A ticket in the store (R208 to R219). States: 1 building, 2 PREPARED, 3 locked, 4 COMMITTED. -/
structure Ticket where
  st : Nat
  exp : Bool
  /-- An express ticket not yet counted against RUN_AHEAD (R223). -/
  expNew : Bool
  ka : Bool
  cls : Nat
  queue : Nat
  /-- First cell of the frame; 0 for a keep-alive. -/
  frame : Nat
  nbr : Option Nat
  cand : Cand
  asn : Nat
  /-- Attempt number minus 1. -/
  attempt : Nat
  fc : Option Nat
  /-- Key slot and the slot's generation at preparation. -/
  key : Option (Nat × Nat)
  mode : Nat
  fmtB : Bool
  ackReq : Bool
  /-- The ticket-store copy of the frame: its octets with the fields that preparation writes (R165). -/
  octets : List Byte
  shape : Shape := .rect
  stored : Stored := {}
  /-- Airtime in 1/1536 us. -/
  fine : Nat
  resv : Option Resv
  weir : Option WeirUse
  demos : List Demotion
  /-- The order of preparation, by which an undo goes back (R219). -/
  seq : Nat := 0
  /-- The transmission was launched; it was sent to its end; airtime and ramp-down radiated, in 1/1536 us. -/
  launched : Bool := false
  sent : Bool := false
  radiated : Nat := 0
  /-- A valid ACK arrived: with NACK set or not. -/
  acked : Option Bool := none
  deriving DecidableEq, Repr

/-- A class-A frame that an enqueue gave a slot ahead of other work (R222). -/
structure Plan where
  queue : Nat
  frame : Nat
  cand : Cand
  asn : Nat
  deriving DecidableEq, Repr

/-- The Headrace beside its registers. -/
structure HdrState where
  /-- Store entries 0 to 3. -/
  entries : List (Option Ticket) := List.replicate 4 none
  /-- Entries being undone, and the FRC of the trigger. -/
  undoing : List Nat := []
  trigAt : Nat := 0
  plans : List Plan := []
  /-- Keep-alive frames not yet delivered: neighbour, failed attempts, counted in KA_SENT (R204). -/
  kas : List (Nat × Nat × Bool) := []
  /-- EN was set and run-ahead waits for the next verdict step (R227). -/
  waitVerdict : Bool := false
  /-- Preparations begun so far; the model's own. -/
  seq : Nat := 0
  /-- Entries whose tickets Tailrace step 5 found contradicted, for the verdict step (R226, R252). -/
  contra : List Nat := []
  deriving DecidableEq, Repr

/-! ## Transmitter -/

/-- What is on the air. -/
inductive TxWhat where
  | ticket (entry : Nat)
  | ack
  | test
  deriving DecidableEq, Repr

/-- A transmission from ramp-up to the end of the ramp-down (R133, R134). Times are FRC counts. -/
structure Tx where
  what : TxWhat
  asn : Nat
  mode : Nat
  freq : Nat
  /-- Launch instant, end of HEAD, splice point (none without a live segment), end of the last symbol, end of the ramp-down. -/
  launchAt : Nat
  headEnd : Nat
  spliceAt : Option Nat
  endAt : Nat
  rampEnd : Nat
  /-- Airtime up to the last symbol in 1/1536 us. -/
  fine : Nat := 0
  launched : Bool := false
  aborted : Bool := false
  shape : Shape := .rect
  /-- The cell's mode where a mode-switch PPDU goes before the frame (R159); octets of its FCS; format B. -/
  lead : Option Nat := none
  fcs : Nat := 4
  fmtB : Bool := false
  /-- A test transmission without modulation (R148). -/
  cw : Bool := false
  /-- Ramp length in us and ramp table, as the launch took them (R130, R143). -/
  ramp : Nat := 0
  table : List Nat := []
  /-- The key latched at launch and the tag under it (R138), NT_dep, the frame as it leaves, and whether the CBC-MAC has its tag. -/
  key : Option (List Byte) := none
  tag : List Byte := []
  ntDep : Nat := 0
  octets : List Byte := []
  tagged : Bool := false
  deriving DecidableEq, Repr

/-- An Enhanced ACK in entry 4 (R141): lane and sender entry of the frame it answers, the frame's first cell and its end, launch
instant, mode, channel, frame counter and key slot of a secured one, octets without MIC and FCS, FCS length, the rank of the
frame's lane. -/
structure AckBuild where
  lane : Nat
  nbr : Option Nat
  frame : Nat
  frameEnd : Nat
  launchAt : Nat
  mode : Nat
  freq : Nat
  fc : Option Nat
  key : Option Nat
  octets : List Byte
  fcs : Nat
  rank : Nat
  shape : Shape := .rect
  stored : Stored := {}
  /-- The build is complete; the ACK decision was to send. -/
  ready : Bool := false
  go : Bool := false
  deriving DecidableEq, Repr

/-- The transmitter beside its registers. -/
structure TxmState where
  cur : Option Tx := none
  /-- ACKs whose frames were published and that wait for their launch, oldest first. -/
  acks : List AckBuild := []
  /-- The synthesiser has left the window of a Canopy slot for an ACK (R125), and the FRC at which the ACK's ramp-down ended. -/
  away : Bool := false
  backFrom : Nat := 0
  /-- Custom taps written, by rising index; an unlisted tap is the BT 0.5 preset's (R129). -/
  fir : List (Nat × BitVec 16) := []
  /-- What an observer of the air sees of the last frame that left to its end: its octets, the bits after the SFD, and the
  frequency samples in units of 32 MHz / 2^22 (R128, R129); of a test, its samples. -/
  air : List Byte := []
  bits : List Bool := []
  samples : List Int := []
  deriving DecidableEq, Repr

/-! ## Keys -/

/-- A key slot (R354). `gen` is the model's own: it counts key changes (R356). -/
structure KeySlot where
  key : List Byte := []
  valid : Bool := false
  size : Bool := false
  rad : Bool := false
  upd : Bool := false
  drv : Bool := false
  seck : Bool := false
  pgmask : Nat := 0
  limit : Nat := 0
  uses : Nat := 0
  txFc : Nat := 0
  exhausted : Bool := false
  gen : Nat := 0
  deriving DecidableEq, Repr

/-! ## Tanum cores -/

/-- A multiplier operation in flight: what it will write (R301, R302, R324). -/
inductive MulOp where
  /-- A product for PRL and PRH. -/
  | prod (lo hi : Word)
  /-- A product for PRL and PRH that PACC also gains; under SAT, PACC is clamped. -/
  | mac (lo hi : Word) (p : Int) (sat : Bool)
  | clr
  | prl (v : Word)
  | prh (v : Word)
  | paccl (v : Word)
  | pacch (v : BitVec 16)
  deriving DecidableEq, Repr

/-- A Tanum core (R295, R314): registers, multiplier, repeat and the states the debug port and WAIT put it into. -/
structure Core where
  /-- W0 to W14. -/
  w : List Word := List.replicate 15 0
  ssp : Word := 0
  usp : Word := 0
  pc : Word := 0x08000000#32
  psw : Word := 0x4800#32
  prl : Word := 0
  prh : Word := 0
  pacc : BitVec 48 := 0
  rpc : Word := 0
  /-- Multiplier operations that have not landed, oldest first (R301, R302, R324). -/
  mul : List MulOp := []
  /-- WAIT has stopped the core (R313); the debug port has halted it; it runs one instruction of a STEP (R461). -/
  waiting : Bool := false
  halted : Bool := false
  stepping : Bool := false
  /-- A breakpoint has halted the core before the instruction at PC, which does not match again. -/
  matched : Bool := false
  /-- Inside a repeat that no interrupt stops (R305). -/
  atomic : Bool := false
  /-- MPU registers that the running instruction has written, with the values in force for it (R314): address and value. -/
  mpuOld : List (Nat × Word) := []
  /-- Edge latches of IRQ64 to IRQ95, or of the Glade's lines (R309, R294). -/
  edge : Nat := 0
  deriving DecidableEq, Repr

/-- A cache line: its first address, the 32 bytes it holds, and whether its parity is wrong (R315). -/
structure CLine where
  base : Nat
  data : List Byte
  bad : Bool := false
  deriving DecidableEq, Repr

/-- The two caches, and whether an invalidation runs (R315, R316). -/
structure Caches where
  ic : List CLine := []
  dc : List CLine := []
  inv : Bool := false
  deriving DecidableEq, Repr

/-! ## DMA -/

/-- A DMA channel beside its registers: owner code and secure attribute of the access that enabled it (R55), beats left of the
burst in progress (R350). -/
structure DmaCh where
  owner : Nat := 0
  sec : Bool := true
  burst : Nat := 0
  deriving DecidableEq, Repr

/-! ## Memories -/

/-- An operation of the flash controller (R341): its code, address and data words, and whether the update engine started it. -/
structure FlashOp where
  cmd : Nat
  addr : Nat
  data : List Word
  eng : Bool
  deriving DecidableEq, Repr

/-- The flash controller beside its registers (R336 to R349). -/
structure FlashState where
  /-- Command sequence: 0 nothing, 1 first key, 2 both keys, 3 FLC_CMD, 4 FLC_ADDR. -/
  stage : Nat := 0
  cmd : Nat := 0
  addr : Nat := 0
  data : List Word := []
  /-- Consecutive wrong keys. -/
  wrong : Nat := 0
  /-- The operation that runs, and the suspended erase. -/
  op : Option FlashOp := none
  susp : Option FlashOp := none
  /-- A SUSPEND waits for the erase to stop. -/
  suspReq : Bool := false
  /-- Corrected bits since the last read: block, total, most in one line (R338). -/
  corr : List (Nat × Nat × Nat) := []
  /-- Pages of indeterminate content, numbered by address / 2048 (R347). -/
  indet : List Nat := []
  /-- Lines with bit errors: address / 16 and wrong bits; three or more are uncorrectable (R338). -/
  lines : List (Nat × Nat) := []
  deriving DecidableEq, Repr

/-- Memory beside its bytes: SRAM and radio RAM words with bit errors (word address, two bits wrong; R331, R334), and the banks being
cleared after their supply returned, 24 for the radio RAM (R332); the banks written since they were cleared (R333). -/
structure MemState where
  ecc : List (Nat × Bool) := []
  clear : List Nat := []
  written : List Nat := []
  deriving DecidableEq, Repr

/-! ## Cipher user pages -/

/-- A running job of a user page (R361): its parameters as START latched them, the input received, and the output bytes given. -/
structure CipJob where
  mode : Nat
  dec : Bool
  chk : Bool
  derive : Bool
  slot : Nat
  key : List Byte
  tagLen : Nat
  aLen : Nat
  mLen : Nat
  dslot : Nat
  iv : List Byte
  expect : List Byte
  aad : List Byte := []
  msg : List Byte := []
  outN : Nat := 0
  deriving DecidableEq, Repr

/-- A user page beside its registers. -/
structure Cipu where
  job : Option CipJob := none
  din : List Word := []
  dout : List Word := []
  /-- The slot of the TAKE_FC made since the previous START or IV write (R357, R363). -/
  took : Option Nat := none
  /-- Words freed of DIN and put into DOUT since the last IN_RDY and OUT_RDY (R423). -/
  freed : Nat := 0
  made : Nat := 0
  deriving DecidableEq, Repr

/-! ## Update engine -/

/-- A run of the update engine (R374, R375): whether it is a RESUME, the key latched at START, the digest of each segment, and
NEW_HASH. -/
structure UpdRun where
  resume : Bool
  key : List Byte
  digests : List (List Byte) := []
  newHash : List Byte := []
  deriving DecidableEq, Repr

/-- The update engine beside its registers. -/
structure UpdState where
  /-- The load test runs for this command: 1 START, 2 RESUME, 3 ACTIVATE. -/
  test : Option Nat := none
  run : Option UpdRun := none
  /-- Stop at the next block boundary, or when the flash controller is free: for a pause with its cause, or for good, then with a soft
  reset (R373, R380). -/
  pause : Option Nat := none
  stop : Bool := false
  srst : Bool := false
  /-- An ACCEPT waits for the operation in the flash controller to end (R339). -/
  accept : Bool := false
  deriving DecidableEq, Repr

/-! ## Timers, RTC, pins, ADC -/

/-- A timer beside its registers: channel outputs (R385), clocks of the Culvert count consumer since the prescaler restarted
(R382), and edges each meter channel has seen since its last capture (R389). -/
structure Tmr where
  out : Nat := 0
  psc : Nat := 0
  nth : List Nat := [0, 0, 0, 0]
  deriving DecidableEq, Repr

/-- A master's frozen shadows of the calendar (R395): master code, calendar, sub-second ticks, registers still to be read. -/
structure Shadow where
  master : Nat
  cal : Nat
  sub : Nat
  left : List Nat
  deriving DecidableEq, Repr

/-- The real-time clock beside its registers (R392 to R400). The calendar is held as the second it stands at, counted from
2000-01-01 00:00:00. -/
structure RtcState where
  cal : Nat := 0
  /-- LFXO ticks a positive calibration added to this second; ticks a negative one still has to skip (R394). -/
  sub : Nat := 0
  skip : Nat := 0
  /-- `State.now` at the last second boundary. -/
  secAt : Nat := 0
  /-- The calendar value that a SET loads at the next LFXO edge (R393). -/
  setTo : Option Nat := none
  /-- LAST of the two alarms (R396). -/
  last : List (Option Nat) := [none, none]
  shadows : List Shadow := []
  /-- The backup switch selects VDD (R398). -/
  onVdd : Bool := true
  deriving DecidableEq, Repr

/-- Levels at the pads of banks A and B as the board drives them, a bit a pin, and the ADC's conversion. -/
structure Pads where
  a : Nat := 0
  b : Nat := 0
  /-- Pins the board drives; another takes its pull (R466). -/
  drvA : Nat := 0
  drvB : Nat := 0
  adcRun : Bool := false
  deriving DecidableEq, Repr

/-! ## Serial ports -/

/-- A privileged host command that waits for the deassertion (R440). -/
structure PrivCmd where
  code : Nat
  good : Bool
  deriving DecidableEq, Repr

/-- The host serial port beside its registers (R430 to R441). -/
structure HspState where
  cs : Bool := false
  /-- Changes that wait for the deassertion: HSP_CFG, window, CTRL.EN, SRST. -/
  cfg : Option Word := none
  win : Option Nat := none
  en : Option Bool := none
  srst : Bool := false
  priv : Option PrivCmd := none
  /-- Routing to the Glade: asked for by the accepted command, and in force (R290). -/
  routeReq : Bool := false
  routed : Bool := false
  /-- Posted write words not yet performed: address and value (R436). -/
  posted : List (Nat × Word) := []
  /-- Words of READ data, or bytes of an EXT response, that the last transaction sent. -/
  out : List Word := []
  /-- What HSP_D1 carries during the command byte: the status byte, or nothing driven (R431). -/
  cmdOut : Option Byte := none
  deriving DecidableEq, Repr

/-- The peripheral serial port beside its registers (R442 to R446). -/
structure PspState where
  tx : List Word := []
  rx : List Word := []
  running : Bool := false
  recv : Bool := false
  len : Nat := 0
  /-- Data bits moved so far. -/
  moved : Nat := 0
  /-- The select that is asserted. -/
  sel : Option Nat := none
  /-- Words sent in the data phase of the last transfer, first to last. -/
  sent : List Word := []
  /-- PSP_FRAME, PSP_CMDV and PSP_ADDR as the last GO took them. -/
  frame : Nat := 0
  cmdv : Nat := 0
  addr : Nat := 0
  deriving DecidableEq, Repr

/-! ## Self-test -/

/-- Self-tests in progress (R457, R458): SRAM banks to test, the running one first; LBIST; radio RAM BIST. -/
structure TstState where
  banks : List Nat := []
  lbist : Bool := false
  rram : Bool := false
  deriving DecidableEq, Repr

/-! ## The Glade -/

/-- A GPC channel beside its registers: the filtered inputs, the phase within a quadrature cycle (×1), and the 48-bit count and
capture. -/
structure Gpc where
  a : Bool := false
  b : Bool := false
  phase : Int := 0
  count : BitVec 48 := 0
  cap : BitVec 48 := 0
  deriving DecidableEq, Repr

/-- A log entry that waits for its flash write: its area and four words (R286 to R288). -/
structure GLogWr where
  hw : Bool
  w0 : Word
  w1 : Word
  w2 : Word
  w3 : Word
  deriving DecidableEq, Repr

/-- An operation of the maintenance port (R291). -/
inductive MaintOp where
  | erase (params : Bool)
  | prog (addr : Nat) (data : List Byte)
  | commit (digest : List Byte)
  deriving DecidableEq, Repr

/-- The Glade beside its pages (R271 to R294). -/
structure Glade where
  /-- Glade flash and SRAM: canonical, over `gladeDefault`; the code and the parameter area have been erased since the factory. -/
  mem : List Host.Cell := []
  codeErased : Bool := false
  parErased : Bool := false
  /-- Addresses of the 16-byte units of Glade flash that cannot be read (R287). -/
  dead : List Nat := []
  /-- The domain is supplied from VDD. -/
  powered : Bool := false
  /-- The image is checked after a reset (R274); the Glade firmware runs; the state NO_IMAGE. -/
  booting : Bool := false
  run : Bool := false
  noImage : Bool := false
  gsec : Word := 0
  /-- Data of the last read of Tanum-G, and its latched high words (R54): low address and high word. -/
  rd : Word := 0
  latch : List (Nat × Word) := []
  /-- Mailbox: the 64 words, the copy in progress, the snapshots by master code (R276, R277). -/
  box : List Word := List.replicate 64 0
  copy : Option (List Word) := none
  snaps : List (Nat × List Word) := []
  gpc : List Gpc := List.replicate 4 {}
  adcRun : Bool := false
  /-- Bits of the display frame being sent or sent last, first to last. -/
  dspOut : List Bool := []
  /-- Seal loop: OPEN, decided since power-on, consecutive mismatched and matched checks (R284). -/
  sealOpen : Bool := true
  sealKnown : Bool := false
  sealBad : Nat := 0
  sealGood : Nat := 0
  /-- The loop opened during BACKUP (R273). -/
  sealLost : Bool := false
  token : Bool := false
  grant : Bool := false
  /-- Since when the filtered PRESENCE_N has been low, and the end of its last low period of 2 s, as the Glade times them (R285): values of
  `State.now`. -/
  presLow : Option Nat := none
  presLong : Option Nat := none
  /-- Legal counters SEAL, MAINT, FWCHG, PWR, RESET (R288). -/
  cnt : List Nat := [0, 0, 0, 0, 0]
  /-- Log: entries written to the hardware area, whether it turned an event away, sequence number of the next entry, the ring's
  position, whether it has wrapped, entries not yet written (R286). -/
  hwN : Nat := 0
  hwFull : Bool := false
  logSeq : Nat := 0
  ringNext : Nat := 0
  ringWrap : Bool := false
  logQ : List GLogWr := []
  /-- Words 0 and 1 written to GLOG_APPEND. -/
  app0 : Word := 0
  app1 : Word := 0
  /-- Maintenance: session open, a reason for its end that waits for the operation, operation in progress, last result, FW_CHANGE
  logged in this session, image modified since the last successful COMMIT. -/
  session : Bool := false
  pendEnd : Option Nat := none
  op : Option MaintOp := none
  result : Nat := 0
  changed : Bool := false
  imageBad : Bool := false
  /-- The identity and the version word, as the ROM last computed and read them (R289). -/
  ident : List Byte := List.replicate 32 0
  fwver : Word := 0
  /-- Bytes the maintenance port last returned. -/
  reply : List Byte := []
  deriving DecidableEq, Repr

/-! ## Traffic scheduler -/

/-- States of a frame-pool cell other than FREE (R234). -/
inductive CellState where | firmware | queued | staged | rxq | done
  deriving DecidableEq, Repr

/-- A Weir meter's buckets in 1/32,000,000 octet, and its colour counters (R239, R240). -/
structure Meter where
  tc : Nat := 2048 * 32000000
  te : Nat := 2048 * 32000000
  green : Nat := 0
  yellow : Nat := 0
  red : Nat := 0
  deriving DecidableEq, Repr

/-- Airtime on one channel centre (R251): the sub-band, the centre in synthesiser units, and the charges in 1/1536 us of the current and the
16 previous dwell sub-windows. -/
structure Dwell where
  sb : Nat
  freq : Nat
  wins : List Nat
  deriving DecidableEq, Repr

/-- The traffic scheduler beside its registers (R229 to R255). -/
structure TrfState where
  /-- Pool cells that are not FREE, by rising index. -/
  cells : List (Nat × CellState) := []
  /-- First cells of the frames of each of the 64 queues, head first. -/
  queues : List (List Nat) := List.replicate 64 []
  rxq : List Nat := []
  done : List Nat := []
  /-- Unpreparable causes already reported: first cell and cause (R211). -/
  reported : List (Nat × Nat) := []
  /-- History ring: index, word 0, word 1 (R255). -/
  hist : List (Nat × Word × Word) := []
  meters : List Meter := List.replicate 32 {}
  /-- Network time of the last Weir fill. -/
  filledAt : Option Nat := none
  /-- Launch instant that SLU_STAT describes (R246). -/
  sluAt : Option Nat := none
  /-- Launch instants and frames already counted in SLU_CNT.HELD, and in DCA_CNT.REFUSED. -/
  heldSeen : List (Nat × Nat) := []
  dcaSeen : List (Nat × Nat) := []
  /-- Charges in 1/1536 us per sub-band: the current sub-window and the 64 before it, newest first (R248). -/
  subs : List (List Nat) := List.replicate 8 []
  dwell : List Dwell := []
  /-- The accountant's history is marked lost (R253). -/
  dcaLost : Bool := true
  deriving DecidableEq, Repr

/-! ## The lockstep domain -/

/-- The present phase (R34, R35): the domain's state at its start, the checkpoint; and the commit buffer, which holds what each register and
each byte of radio RAM that the domain has written showed before. -/
structure Phase where
  on : Bool := false
  cad : CadState := {}
  hdr : HdrState := {}
  slot : Option Slot := none
  regs : List (Nat × Word) := []
  mem : List Host.Cell := []
  deriving DecidableEq, Repr

/-! ## The machine -/

/-- Everything the manual gives the machine, and the queue of waiting commands. -/
structure State where
  /-- Software-visible registers: address and value, canonical (no entry at its reset value). -/
  regs : List (Nat × Word) := []
  /-- Counts of 31.25 ns since power-on; no reset clears it. The clock that PRESENCE_N is timed by. -/
  now : Nat := 0
  /-- The model's own: how many free values have been read. -/
  freeCtr : Nat := 0
  sys : SysS := {}
  pwr : PwrS := {}
  bus : BusState := {}
  prot : ProtState := {}
  ovl : OvlState := {}
  ntu : NtuState := {}
  cul : CulState := {}
  rfe : RfeState := {}
  slot : Option Slot := none
  cad : CadState := {}
  lanes : List Lane := List.replicate 16 {}
  fec : FecState := {}
  trf : TrfState := {}
  hdr : HdrState := {}
  phase : Phase := {}
  txm : TxmState := {}
  keys : List KeySlot := List.replicate 32 {}
  /-- Memory: flash, SRAM and radio RAM, canonical; an unlisted address reads as `memDefault` says. -/
  mem : List Host.Cell := []
  coreA : Core := {}
  coreG : Core := { psw := 0x400#32 }
  caches : Caches := {}
  dma : List DmaCh := List.replicate 8 {}
  /-- The DMA channel that took the last beat. -/
  dmaLast : Nat := 7
  flash : FlashState := {}
  memst : MemState := {}
  /-- Staged key words of CIPH: index and value (R355). -/
  staged : List (Nat × Word) := []
  cipu : List Cipu := List.replicate 8 {}
  upd : UpdState := {}
  tmr : List Tmr := List.replicate 8 {}
  rtc : RtcState := {}
  pads : Pads := {}
  hsp : HspState := {}
  psp : PspState := {}
  tst : TstState := {}
  glade : Glade := {}
  pending : List Instr := []
  deriving DecidableEq, Repr

/-- The machine right after the release of a power-on reset, before the boot ROM: every register at its reset value, with POR in
SYS_RSTCAUSE (R449), which no register's own reset value shows. -/
def State.reset : State := { regs := [(0x40000044, 1#32)] }

end Sys2Proof.Machine
end

