-- ==== Sys2Proof/Machine/Ops.lean ====
section
/-!
DEFINITION. The named operations every meaning is written with: the register store and its fields, interrupt and status
bits, counters, free values and network time.
Readings of the manual made here: DESIGN CHOICE in log entries 3, 6, 7, 8, 11; DEDUCED in log entries 15, 16, 32, 55.
-/
namespace Sys2Proof.Machine
open Sys2Proof

/-! ## Arithmetic of the manual -/

/-- round(a / b) of R498: nearest, halves away from zero. -/
def roundDiv (a : Int) (b : Nat) : Int :=
  if b = 0 then 0 else if 0 ≤ a then (2 * a + b) / (2 * b) else -((2 * (-a) + b) / (2 * b))

/-- ceil(a / b). -/
def ceilDiv (a b : Nat) : Nat := if b = 0 then 0 else (a + b - 1) / b

/-- A two's complement field of `w` bits as an integer. -/
def signed (w v : Nat) : Int := if v % 2 ^ w < 2 ^ (w - 1) then (v % 2 ^ w : Nat) else ((v % 2 ^ w : Nat) : Int) - (2 ^ w : Nat)

/-- An integer cut to `w` bits, two's complement. -/
def toField (w : Nat) (v : Int) : Nat := (v % ((2 ^ w : Nat) : Int)).toNat

/-- `v` clamped to the closed range. -/
def clampI (lo hi v : Int) : Int := if v < lo then lo else if hi < v then hi else v
def clampN (lo hi v : Nat) : Nat := if v < lo then lo else if hi < v then hi else v

/-- Replace the element at an index of a list (nothing happens outside it). -/
def setAt {α : Type} : List α → Nat → α → List α
  | [], _, _ => []
  | _ :: xs, 0, v => v :: xs
  | x :: xs, n + 1, v => x :: setAt xs n v

/-- A number's bit. -/
def bitOf (v n : Nat) : Bool := v / 2 ^ n % 2 == 1

/-- The positions of the ones among the low `w` bits of a number, in ascending order. -/
def onesOf (w v : Nat) : List Nat := (List.range w).filter (bitOf v)

/-! ## The register store -/

/-- Reset value of OWN by page (R51): OWNER, SEC in bit 3, LOCKW in bit 4. -/
def ownReset (p : Nat) : Word :=
  if p = Pg.PWR ∨ p = Pg.AVS ∨ p = Pg.CLK ∨ p = Pg.PROT ∨ p = Pg.OVL ∨ p = Pg.FLC ∨ p = Pg.CIPH ∨ p = Pg.UPD ∨ p = Pg.DBG then 0x18#32
  else if 0x24 ≤ p ∧ p ≤ 0x2B then 0x10#32
  else if p = Pg.GMB then 0x14#32
  else if Pg.GCORE ≤ p ∧ p ≤ Pg.GLOG then 0x04#32
  else 0#32

/-- ID of a page (R47, R51): TYPE, INST, VER. The manual gives the Glade's own pages no TYPE and INST: 0 (log entry 134). -/
def pageId (p : Nat) : Word :=
  let ti : Nat × Nat :=
    if p ≤ 0x05 then (0x010 + p, 0)
    else if p ≤ 0x08 then (0x020 + (p - 6), 0)
    else if p ≤ 0x18 then (0x023, p - 9)
    else if p ≤ 0x1A then (0x024 + (p - 0x19), 0)
    else if p ≤ 0x21 then (0x030 + (p - 0x1B), 0)
    else if p ≤ 0x23 then (0x040 + (p - 0x22), 0)
    else if p ≤ 0x2B then (0x042, p - 0x24)
    else if p = 0x2C then (0x043, 0)
    else if p ≤ 0x34 then (0x050, p - 0x2D)
    else if p ≤ 0x3C then (0x051 + (p - 0x35), 0)
    else if p = 0x3D then (0x060, 0)
    else if p = 0x3E then (0x037, 0)
    else if p = 0x3F then (0x059, 0)
    else (0, 0)
  BitVec.ofNat 32 (ti.1 * 2 ^ 20 + ti.2 * 2 ^ 12 + 0x0B1)

/-- Page of an address (4 KB pages counted from 0x4000_0000, modulo 2^20) and its offset in the page. -/
def pageOf (a : Nat) : Nat := (0xC0000 + a / 0x1000) % 0x100000
def offOf (a : Nat) : Nat := a % 0x1000

/-- An offset belongs to a register row; a row of one register is decided at once. -/
def RegDesc.covers (d : RegDesc) (off : Nat) : Bool :=
  bif Nat.beq d.n1 1 && Nat.beq d.n2 1 then Nat.beq off d.off
  else Nat.ble d.off off && (List.range d.n1).any fun i =>
    (d.off + i * d.s1 ≤ off) && (off - (d.off + i * d.s1)) % d.s2 == 0 && (off - (d.off + i * d.s1)) / d.s2 < d.n2

/-- The row of the register at a page and offset, if there is one. A page's own row comes before the common layout (R47). -/
def descOf (a : Nat) : Option RegDesc :=
  ((pageRegs (pageOf a)).find? (fun d => d.covers (offOf a))).or
    (if pageOf a < 0x40 ∨ (Pg.GCORE ≤ pageOf a ∧ pageOf a ≤ Pg.GLOG) then commonRegs.find? (fun d => d.covers (offOf a)) else none)

/-- Entries of the raised-cosine ramp table at reset, four to a register (TXM_RAMP0 to TXM_RAMP7). -/
def rampReset : List Nat :=
  [0x0A050201, 0x251D150F, 0x4F43392F, 0x8073675A, 0xB0A5988C, 0xDAD0C6BC, 0xF5F0EAE2, 0xFFFEFDFA]

/-- Reset value of the register at an address (R7). -/
def resetOf (a : Nat) : Word :=
  if (offOf a = 0 ∨ offOf a = 0x1C) ∧ (pageOf a < 0x40 ∨ (Pg.GCORE ≤ pageOf a ∧ pageOf a ≤ Pg.GLOG)) then
    (if offOf a = 0 then pageId (pageOf a) else ownReset (pageOf a))
  else if CAD_SF.addr 1 ≤ a ∧ a ≤ CAD_SF.addr 3 then BitVec.ofNat 32 (101 + (a - CAD_SF.addr 0) / 4 * 2 ^ 16)
  else if a = FLC_MODE_LO.addr then 0x3F#32
  else if TXM_RAMP.addr 0 ≤ a ∧ a ≤ TXM_RAMP.addr 7 then BitVec.ofNat 32 ((rampReset[(a - TXM_RAMP.addr 0) / 4]?).getD 0)
  else ((descOf a).map (·.reset)).getD 0#32

/-- Value a register store holds for an address: unlisted registers hold their reset value. -/
def regGet : List (Nat × Word) → Nat → Word
  | [], a => resetOf a
  | (b, v) :: l, a => if a = b then v else regGet l a

/-- The store with a register put in its place, which no entry has. -/
def regIns : List (Nat × Word) → Nat → Word → List (Nat × Word)
  | [], a, v => [(a, v)]
  | (b, w) :: l, a, v => if a < b then (a, v) :: (b, w) :: l else (b, w) :: regIns l a v

/-- The store with one register changed, kept canonical: addresses rising, no register at its reset value. -/
def regPut (l : List (Nat × Word)) (a : Nat) (v : Word) : List (Nat × Word) :=
  let l := l.filter fun r => r.1 != a
  if v = resetOf a then l else regIns l a v

/-- The canonical form of a register store. -/
def RegStore.wf (l : List (Nat × Word)) : Bool :=
  match l with
  | [] => true
  | (a, v) :: l => (v != resetOf a) && (match l with | [] => true | (b, _) :: _ => decide (a < b)) && RegStore.wf l

def State.rget (s : State) (a : Nat) : Word := regGet s.regs a
def State.rset (s : State) (a : Nat) (v : Word) : State := { s with regs := regPut s.regs a v }

/-- Every register for which `p` holds returns to its reset value. -/
def State.resetRegs (s : State) (p : Nat → Bool) : State := { s with regs := s.regs.filter (fun r => !p r.1) }

/-! ## Fields -/

def fieldGet (v : Nat) (f : Fld) : Nat := v / 2 ^ f.lo % 2 ^ f.width
def fieldPut (v : Nat) (f : Fld) (x : Nat) : Nat :=
  v - fieldGet v f * 2 ^ f.lo + (x % 2 ^ f.width) * 2 ^ f.lo

def State.fget (s : State) (f : Fld) : Nat := fieldGet (s.rget f.addr).toNat f
def State.fset (s : State) (f : Fld) (x : Nat) : State :=
  s.rset f.addr (BitVec.ofNat 32 (fieldPut (s.rget f.addr).toNat f x))
def State.fbit (s : State) (f : Fld) : Bool := s.fget f != 0
def State.fsetB (s : State) (f : Fld) (b : Bool) : State := s.fset f (if b then 1 else 0)
/-- A field read as two's complement. -/
def State.fgetI (s : State) (f : Fld) : Int := signed f.width (s.fget f)
def State.fsetI (s : State) (f : Fld) (x : Int) : State := s.fset f (toField f.width x)
/-- A counter field that saturates at its greatest value. -/
def State.fadd (s : State) (f : Fld) (n : Nat) : State := s.fset f (min (2 ^ f.width - 1) (s.fget f + n))
def State.finc (s : State) (f : Fld) : State := s.fadd f 1
/-- A field of a word that is not in a register. -/
def State.raw (s : State) (a : Nat) : Nat := (s.rget a).toNat
def State.rsetN (s : State) (a v : Nat) : State := s.rset a (BitVec.ofNat 32 v)

/-! ## Common registers of every page (R47) -/

def CTRL.addr (p : Nat) : Nat := pageAddr p 0x004
def CTRL.EN (p : Nat) : Fld := ⟨pageAddr p 0x004, 0, 1⟩
def CTRL.SRST (p : Nat) : Fld := ⟨pageAddr p 0x004, 1, 1⟩
def STAT.addr (p : Nat) : Nat := pageAddr p 0x008
def INT_RAW.addr (p : Nat) : Nat := pageAddr p 0x00C
def INT_RAW.bit (p n : Nat) : Fld := ⟨pageAddr p 0x00C, n, 1⟩
def INT_EN.addr (p : Nat) : Nat := pageAddr p 0x010
def INT_PEND.addr (p : Nat) : Nat := pageAddr p 0x014
def EVT_EN.addr (p : Nat) : Nat := pageAddr p 0x018
def EVT_EN.bit (p n : Nat) : Fld := ⟨pageAddr p 0x018, n, 1⟩
def OWN.addr (p : Nat) : Nat := pageAddr p 0x01C
def OWN.OWNER (p : Nat) : Fld := ⟨pageAddr p 0x01C, 0, 3⟩
def OWN.SEC (p : Nat) : Fld := ⟨pageAddr p 0x01C, 3, 1⟩
def OWN.LOCKW (p : Nat) : Fld := ⟨pageAddr p 0x01C, 4, 1⟩
def OWN.AUDSEQ (p : Nat) : Fld := ⟨pageAddr p 0x01C, 24, 8⟩

/-- Latch an interrupt condition (R49). -/
def State.raise (s : State) (p bit : Nat) : State := s.fset (INT_RAW.bit p bit) 1

/-! ## Free values -/

/-- The next free value: the manual leaves one value open here. -/
def State.free (s : State) : Nat := (Config.freeValue s.freeCtr).toNat
def State.freeStep (s : State) : State := { s with freeCtr := s.freeCtr + 1 }

def maskOf (l : List Nat) : Nat := l.foldl (fun m c => m + 2 ^ c) 0

/-! ## Network time (R256 to R262) -/

/-- SLOT_LEN in counts: 5, 10, 20 or 40 ms of 32,000 counts. -/
def State.slotLen (s : State) : Nat := 160000 * 2 ^ (s.fget CAD_TMPL0.SLOT_LEN)
/-- Microseconds in counts. -/
def us (n : Nat) : Nat := n * 32

def State.frcN (s : State) : Nat := s.ntu.frc.toNat
/-- The rate in units of 2^-40, limited to 1,000 ppm (R257). -/
def rateLimit : Int := 1099511627
def State.rate (s : State) : Int := clampI (-rateLimit) rateLimit (signed 32 (s.raw NTU_RATE.addr))

/-- NT at a given FRC (R257), with the correction in force. -/
def State.ntAt (s : State) (frc : Nat) : Nat :=
  toField 64 ((frc : Int) + signed 64 s.ntu.offset.toNat
    + (s.rate * ((frc : Int) - s.ntu.anchor.toNat) + s.ntu.frac) / (2 ^ 40 : Nat))
def State.nt (s : State) : Nat := s.ntAt s.frcN
/-- The first FRC count at which network time reaches `x`, near now. -/
def State.frcAt (s : State) (x : Nat) : Int :=
  let step := fun (f : Int) => f + ((x : Int) - s.ntAt f.toNat)
  let f := step (step (step (step s.frcN)))
  (([f - 2, f - 1, f, f + 1].find? fun y => decide (x ≤ s.ntAt y.toNat))).getD (f + 2)

/-- Network time has come `x` us past the tick of a slot, in which the offsets of R16 are counted (R14, R193). -/
def State.atOffset (s : State) (sl : Slot) (x : Nat) : Bool := decide (sl.tickNt + us x ≤ s.nt)

/-- Re-anchoring (R257): the rate term moves into OFFSET, its fraction is carried, NT does not change. -/
def State.reAnchorAt (s : State) : State :=
  let x := s.rate * ((s.frcN : Int) - s.ntu.anchor.toNat) + s.ntu.frac
  { s with ntu := { s.ntu with
      offset := s.ntu.offset + BitVec.ofInt 64 (x / (2 ^ 40 : Nat))
      anchor := s.ntu.frc
      frac := (x % ((2 ^ 40 : Nat) : Int)).toNat } }

/-- Effective slew rate in ppm (R262, NTU_CFG). -/
def State.slewMax (s : State) : Nat := clampN 1 500 (s.fget NTU_CFG.SLEW_MAX)

/-- The rate term of R257 at an FRC count. -/
def State.rateTerm (s : State) (frc : Nat) : Int := (s.rate * ((frc : Int) - s.ntu.anchor.toNat) + s.ntu.frac) / (2 ^ 40 : Nat)

/-- Slew on the way to the FRC count `t` (R262): OFFSET and the accumulator gain what P loses, and the last increment is exact. No slew
between a launch and its departure (R137), and none that would make NT fall (R258). -/
def State.slew (s : State) (t : Nat) : State :=
  if s.ntu.pend = 0 then s
  else
    let x := s.slewMax * (t - max s.frcN s.ntu.slewHold) + s.ntu.slewFrac
    let room := ((t : Int) - s.frcN + (s.rateTerm t - s.rateTerm s.frcN)).toNat
    let inc := min (min (x / 1000000) s.ntu.pend.natAbs) (if s.ntu.pend < 0 then room else x / 1000000)
    let sg : Int := if 0 < s.ntu.pend then inc else -(inc : Int)
    let p := s.ntu.pend - sg
    { s with ntu := { s.ntu with
        offset := s.ntu.offset + BitVec.ofInt 64 sg
        corr := s.ntu.corr + BitVec.ofInt 64 sg
        pend := p
        slewFrac := if p = 0 then 0 else x - inc * 1000000 } }

/-- F_entry of the sleep in progress, and whether compensation applies (R266): noted, or at an LFXO edge within 74 us of a WAIT that enters
SLUMBER or HIBERNATE (R404). -/
def State.sleepStart (s : State) : Option (Nat × Bool) :=
  match s.ntu.entry with
  | some e => some e
  | none =>
    if s.pwr.leaving.isSome && (s.pwr.st = .slumber || s.pwr.st = .hibernate) then
      some (s.pwr.enterAt + (Config.sleepEdge s.pwr.enterAt).toNat % us 74, s.fbit NTU_CTRL.SLP_COMP && s.fbit NTU_LFCAL.VALID)
    else none

/-- Counts of 1/8192 that FRC gains at an LFXO tick of a sleep (R266). -/
def State.tickGain (s : State) (comp : Bool) : Nat := if comp then max 1 (s.fget NTU_LFCAL.COUNT) else 8000000

/-- The FRC count that is reached by `t`: `t` itself, in a sleep the value at the last LFXO tick (R266). -/
def State.landing (s : State) (t : Nat) : Nat :=
  match s.sleepStart with
  | some (f, comp) =>
    if t ≤ f then t
    else
      let c := s.tickGain comp
      f + ((t - f + 1) * 8192 - 1) / c * c / 8192
  | none => t

/-- The sleep that F_entry is noted of by the FRC count `x`. -/
def State.entryBy (s : State) (x : Nat) : Option (Nat × Bool) :=
  match s.sleepStart with
  | some e => if e.1 ≤ x then some e else s.ntu.entry
  | none => s.ntu.entry

/-- Time passes until the FRC count `t`; an earlier `t` changes nothing, since FRC never decreases (R256). The elapsed time
also advances the clock `now` that no reset clears. -/
def State.advance (s : State) (t : Frc) : State :=
  let x := s.landing t.toNat
  if x ≤ s.frcN then s
  else
    let el := x - s.frcN
    let e := s.entryBy x
    let s := s.slew x
    let s := { s with ntu := { s.ntu with frc := BitVec.ofNat 64 x, entry := e }, now := s.now + el }
    if 2 ^ 31 ≤ s.frcN - s.ntu.anchor.toNat then s.reAnchorAt else s

/-- NT_EPOCH (R268). -/
def State.epoch (s : State) : Nat := s.raw NTU_EPOCH_LO.addr + s.raw NTU_EPOCH_HI.addr * 2 ^ 32
/-- NT has reached NT_EPOCH, and the ASN of R14, modulo 2^40. -/
def State.asnValid (s : State) : Bool := s.epoch ≤ s.nt
def State.asnNow (s : State) : Nat := if s.asnValid then (s.nt - s.epoch) / s.slotLen % 2 ^ 40 else 0

/-! ## Sources, rejection and audit (R55 to R61) -/

/-- Number of a master, for its latches and held words (R54). -/
def masterCode : Master → Nat
  | .tanumA => 0
  | .dma ch => 1 + ch.val
  | .hsp => 9
  | .debug => 10

/-- Owner code and secure attribute of an access (R55). -/
structure Source where
  owner : Nat
  sec : Bool
  deriving DecidableEq, Repr

/-- An access source matches an OWNER value on a page (R55): the host matches HOST and SUP except on GMB, everyone matches
ANY. -/
def Source.hits (src : Source) (page owner : Nat) : Bool :=
  owner = 7 || owner = src.owner || (src.owner = 2 && owner = 0 && page != Pg.GMB)

/-- Append an entry to the audit ring (R60, R61), and name it in AUDSEQ of its page. -/
def State.audit (s : State) (src : Source) (kind page off count old new : Nat) : State :=
  let w0 := src.owner + (if src.sec then 8 else 0) + kind * 16 + page * 256 + s.prot.seq * 65536
  let av := s.asnValid
  let e : AuditEntry :=
    { w0 := BitVec.ofNat 32 w0
      w1 := BitVec.ofNat 32 (off + count * 65536)
      w2 := BitVec.ofNat 32 old
      w3 := BitVec.ofNat 32 new
      w4 := BitVec.ofNat 32 s.asnNow
      w5 := BitVec.ofNat 32 (s.asnNow / 2 ^ 32 + (if av then 256 else 0)) }
  let seq := s.prot.seq
  let s := { s with prot := { s.prot with
      ring := if s.prot.next < s.prot.ring.length then setAt s.prot.ring s.prot.next e else s.prot.ring ++ [e]
      next := (s.prot.next + 1) % 128
      full := s.prot.full || s.prot.next = 127
      seq := (s.prot.seq + 1) % 65536 } }
  (s.fset (OWN.AUDSEQ page) (seq % 256)).raise Pg.PROT 2

/-- A rejected access (R56): recorded, counted, and ended with a bus error. -/
def State.reject (s : State) (src : Source) (page off : Nat) (wr : Bool) (cause : Nat) : State :=
  let w := off + page * 2 ^ 12 + src.owner * 2 ^ 18 + (if src.sec then 2 ^ 21 else 0) + (if wr then 2 ^ 22 else 0) + cause * 2 ^ 23
  let s := (s.rsetN PROT_REJ.addr w).finc PROT_REJ_CNT.CNT
  let s := (s.fset PROT_STAT.REJ 1).raise Pg.PROT 0
  { s with bus := { s.bus with err := true } }

/-! ## Presence token (R62) -/

/-- One second of counts. -/
def second : Nat := 32000000

/-- One second as the 32 kHz clock measures it: the LFXO's while it runs, else the RC oscillator's, whose error within 3 % is free. -/
def State.slowSecond (s : State) : Nat :=
  if s.fbit SYS_STAT.LFXO_FAIL then 31067962 + Config.rcPeriod.toNat % 1921729 else second

/-- The presence token exists now. -/
def State.token (s : State) : Bool :=
  (match s.prot.lowFrom with | some a => a + 2 * s.slowSecond ≤ s.now | none => false)
  || (match s.prot.lastLong with | some b => s.now ≤ b + 58 * s.slowSecond | none => false)

end Sys2Proof.Machine
end

