-- ==== Sys2Proof/Machine/Events.lean ====
section
/-!
DEFINITION. Power domains (R401), the Culvert's routing of an event to its consumers (R419 to R429), and what a consumer does with
an event: interrupt latches, DMA requests, the power manager, the ADC, and the timers' counting, comparing and capturing (R381 to
R391).
Readings of the manual made here: DEDUCED in log entries 31, 120, 125, 127.
-/
namespace Sys2Proof.Machine
open Sys2Proof

/-! ## Power domains (R401) -/

inductive Domain where | aon | app | lp | rad
  deriving DecidableEq, Repr
inductive DomState where | on | gated | ret | off
  deriving DecidableEq, Repr

/-- State of a domain in the present power state; an excursion runs D_RAD and leaves the others as HOME has them (R407). -/
def State.dom (s : State) (d : Domain) : DomState :=
  let p := if s.pwr.exc then s.pwr.home else s.pwr.st
  match d, p with
  | _, .backup => .off
  | .aon, _ => .on
  | .app, .run => .on
  | .app, .doze | .app, .nap => .gated
  | .app, _ => .off
  | .lp, .hibernate | .lp, .off => .off
  | .lp, _ => .on
  | .rad, .run | .rad, .doze => .on
  | .rad, .nap | .rad, .slumber => if s.pwr.exc then .on else .gated
  | .rad, .hibernate => .ret
  | .rad, .off => .off

/-- The domain holds its state and can act, at once or when its clock runs. -/
def State.domUp (s : State) (d : Domain) : Bool := s.dom d = .on || s.dom d = .gated

/-! ## Timers (R381 to R391) -/

def State.tmrGet (s : State) (n : Nat) : Tmr := (s.tmr[n]?).getD {}
def State.tmrSet (s : State) (n : Nat) (f : Tmr → Tmr) : State := { s with tmr := setAt s.tmr n (f (s.tmrGet n)) }
def State.tCount (s : State) (n : Nat) : Nat := s.raw (TMR_COUNT.addr n)
def State.tReload (s : State) (n : Nat) : Nat := s.raw (TMR_RELOAD.addr n)

/-- The counting clock of a timer runs (R382): on the LFXO down to SLUMBER, on any other clock in RUN and DOZE. -/
def State.tmrClocked (s : State) (n : Nat) : Bool :=
  s.sys.held.isNone && (match s.pwr.st with
    | .run | .doze => true
    | .nap | .slumber => s.fget (TMR_CFG.CLK n) = 2
    | _ => false)
/-- The timer counts: its clock runs, and no halt of Tanum-A by the debug port holds it. -/
def State.tmrCounts (s : State) (n : Nat) : Bool := s.tmrClocked n && !(s.fbit (TMR_CFG.DBGSTOP n) && s.coreA.halted)

/-- A channel is a compare, or a capture. -/
def State.isCompare (s : State) (n k : Nat) : Bool := s.fget (TMR_CH_CFG.MODE n k) = 1
def State.isCapture (s : State) (n k : Nat) : Bool := s.fget (TMR_CH_CFG.MODE n k) = 2

def State.tmrArm (s : State) (n k : Nat) : State := s.fset ⟨TMR_STAT.addr n, 4 + k, 1⟩ 1
def State.tmrDisarm (s : State) (n k : Nat) : State := s.fset ⟨TMR_STAT.addr n, 4 + k, 1⟩ 0
def State.tmrArmed (s : State) (n k : Nat) : Bool := s.fbit ⟨TMR_STAT.addr n, 4 + k, 1⟩

/-- Every compare channel of a timer is armed (R383). -/
def State.tmrArmAll (s : State) (n : Nat) : State :=
  ((List.range 4).filter (s.isCompare n)).foldl (fun s k => s.tmrArm n k) s

/-- A reset of a timer (R387): COUNT is 0 as a period start without OVF. -/
def State.tmrReset (s : State) (n : Nat) : State := (s.rsetN (TMR_COUNT.addr n) 0).tmrArmAll n
/-- A start of a timer (R387): EN, and its compares are armed. -/
def State.tmrStart (s : State) (n : Nat) : State := (s.fset (TMR_CTRL.EN n) 1).tmrArmAll n

/-- The direct action of a timer's CHAIN for a source event: 1 OVF, 2 to 5 the channels (R387). Inert in RUN. -/
def State.tmrChain (s : State) (n src : Nat) : State :=
  if s.sys.st = .run || s.fget (TMR_CHAIN.SRC n) != src then s
  else match s.fget (TMR_CHAIN.ACT n) with
    | 1 => s.tmrReset n
    | 2 => s.tmrStart (s.fget (TMR_CHAIN.LINK n))
    | 3 => s.tmrReset (s.fget (TMR_CHAIN.LINK n))
    | _ => s

/-- Producers raised by an event of a timer whose EVT_EN bit is `bit`. -/
def State.tmrEvents (s : State) (n bit : Nat) : List Nat :=
  if s.fbit (EVT_EN.bit (Pg.TMR n) bit) then [if bit = 0 then n else 8 + n] else []

/-- A prescaled clock tick (R381). Answers the producers it raises. -/
def State.tmrTick (s : State) (n : Nat) : State × List Nat :=
  if !(s.fbit (TMR_CTRL.EN n) && s.tmrCounts n) then (s, [])
  else if s.tCount n < s.tReload n then (s.rsetN (TMR_COUNT.addr n) (s.tCount n + 1), [])
  else
    let s := ((s.rsetN (TMR_COUNT.addr n) 0).tmrArmAll n).raise (Pg.TMR n) 0
    (s.tmrChain n 1, s.tmrEvents n 0)

/-- A clock of the Culvert count consumer (R382): a tick after every PSC + 1 of them. -/
def State.tmrClock (s : State) (n : Nat) : State × List Nat :=
  if s.fget (TMR_CFG.CLK n) != 3 || !(s.fbit (TMR_CTRL.EN n) && s.tmrCounts n) then (s, [])
  else
    let p := (s.tmrGet n).psc + 1
    if s.fget (TMR_CFG.PSC n) < p then (s.tmrSet n fun t => { t with psc := 0 }).tmrTick n
    else (s.tmrSet n fun t => { t with psc := p }, [])

/-- A capture lands (R390). -/
def State.tmrLand (s : State) (n k : Nat) : State × List Nat :=
  let v : Fld := ⟨TMR_STAT.addr n, 8 + k, 1⟩
  let late := s.fbit v
  let s := s.rsetN (TMR_CH_CAP.addr n k) (s.tCount n)
  let s := if late then (s.fset ⟨TMR_STAT.addr n, 12 + k, 1⟩ 1).raise (Pg.TMR n) (5 + k) else s
  let s := (s.fset v 1).raise (Pg.TMR n) (1 + k)
  (s.tmrChain n (2 + k), s.tmrEvents n (1 + k))

/-- An edge that a capture channel counts (R389): a meter channel captures every (NTH + 1)-th. -/
def State.tmrEdge (s : State) (n k : Nat) : State × List Nat :=
  if !(s.fbit (TMR_CTRL.EN n) && s.isCapture n k && s.tmrClocked n) then (s, [])
  else if s.fbit (TMR_CH_CFG.METER n k) then
    let c := ((s.tmrGet n).nth[k]?).getD 0
    if c < s.fget (TMR_CH_CFG.NTH n k) then (s.tmrSet n fun t => { t with nth := setAt t.nth k (c + 1) }, [])
    else (s.tmrSet n fun t => { t with nth := setAt t.nth k 0 }).tmrLand n k
  else s.tmrLand n k

/-- Run an action on several timers, gathering the producers raised. -/
def State.onTimers (s : State) (f : Nat → State → State × List Nat) : State × List Nat :=
  (List.range 8).foldl (fun (r : State × List Nat) n => let q := f n r.1; (q.1, r.2 ++ q.2)) (s, [])

/-! ## Consumers (R424) -/

/-- A start of the general ADC (R468): ignored and counted while a conversion runs; a disabled converter starts nothing. -/
def State.adcStart (s : State) : State :=
  if !s.fbit ADC_CTRL.EN then s
  else if s.pads.adcRun then s.finc ADC_CNT.MISSED
  else { s with pads := { s.pads with adcRun := true } }

/-- A DMA request (R350): it opens a burst, or is counted while one runs. Only an enabled channel in requested mode takes one. -/
def State.dmaRequest (s : State) (ch : Nat) : State :=
  let d := (s.dma[ch]?).getD {}
  if !s.fbit (DMA_CFGn.EN ch) || s.fbit (DMA_CFGn.FREE ch) then s
  else if d.burst = 0 then { s with dma := setAt s.dma ch { d with burst := s.fget (DMA_CFGn.BURST ch) + 1 } }
  else s.finc (DMA_STATn.PENDREQ ch)

/-- The edge latch of a Culvert interrupt line (R309). -/
def State.irqLatch (s : State) (c : Nat) : State :=
  if bitOf s.coreA.edge c then s else { s with coreA := { s.coreA with edge := s.coreA.edge + 2 ^ c } }

/-- A wake event of an enabled source reaches the power manager: a bit in the order of PWR_WAKE_EN (R409). -/
def State.wakeEvent (s : State) (b : Nat) : State :=
  if bitOf s.pwr.wakePend b || !bitOf (s.raw PWR_WAKE_EN.addr) b then s else { s with pwr := { s.pwr with wakePend := s.pwr.wakePend + 2 ^ b } }

/-- Domain a consumer lies in. -/
def consumerDomain (c : Nat) : Domain :=
  if c < 40 then .app else if c = 40 then .aon else if c = 41 then .rad else if c = 42 then .app else .lp

/-- What a consumer does with an event. -/
def State.consume (s : State) (c : Nat) : State × List Nat :=
  if c < 32 then (s.irqLatch c, [])
  else if c < 40 then (s.dmaRequest (c - 32), [])
  else if c = 40 then (s.wakeEvent 0, [])
  else if c = 41 then ({ s with cul := { s.cul with latched := if s.cul.latched.contains c then s.cul.latched else s.cul.latched ++ [c] } }, [])
  else if c = 42 then (if s.fbit ADC_CFG.TRIG then s.adcStart else s, [])
  else if c < 51 then (s.tmrStart (c - 43), [])
  else if c < 59 then (s.tmrReset (c - 51), [])
  else if c < 63 then s.onTimers fun n s => if s.fbit (TMR_CH_CFG.SRC n (c - 59)) then s.tmrEdge n (c - 59) else (s, [])
  else s.onTimers fun n s => s.tmrClock n

/-- An event reaches a consumer: it acts, or is discarded where the consumer's domain holds nothing (R422). -/
def State.deliver (s : State) (c : Nat) : State × List Nat :=
  if s.domUp (consumerDomain c) then s.consume c
  else (((s.fset CUL_STAT.DROP 1).finc CUL_CNT.DROP).raise Pg.CUL 1, [])

/-! ## Routing (R419 to R429) -/

/-- Producer row of a channel as one number, and its consumer row. -/
def State.chanRow (s : State) (c : Nat) : Nat :=
  s.raw (CUL_CH_P.addr c 0) + s.raw (CUL_CH_P.addr c 1) * 2 ^ 32 + s.raw (CUL_CH_P.addr c 2) * 2 ^ 64
def State.chanCons (s : State) (c : Nat) : Nat := s.raw (CUL_CH_C0.addr c) + s.raw (CUL_CH_C1.addr c) * 2 ^ 32

/-- The Culvert routes from RUN to HIBERNATE (R425). -/
def State.culRoutes (s : State) : Bool :=
  s.pwr.st != .off && s.pwr.st != .backup && s.sys.held.isNone && s.fbit CUL_CTRL.EN

/-- Safe routing is in force (R429). -/
def State.culSafe (s : State) : Bool := s.fbit CUL_STAT.SAFE || s.sys.st = .recovery

/-- Channels that an event of producer `p` enters: enabled, and with the producer's bit set (R419, R427). -/
def State.chansOf (s : State) (p : Nat) : List Nat :=
  (List.range 32).filter fun c => bitOf (s.raw CUL_CHEN.addr) c && bitOf (s.chanRow c) p

/-- Consumers of a channel: all of its row, or under safe routing the lowest-numbered one. -/
def State.consOf (s : State) (c : Nat) : List Nat :=
  if s.culSafe then (onesOf 64 (s.chanCons c)).take 1 else onesOf 64 (s.chanCons c)

/-- Merges counted (R421). -/
def State.culMerge (s : State) (n : Nat) : State := if n = 0 then s else (s.fset CUL_STAT.MERGE 1).fadd CUL_CNT.MERGE n

/-- One event enters each of the channels `cs`, which may name a channel more than once: coinciding events merge, on a channel and
at a consumer, and each consumer reached acts once. Answers the producers that the consumers raise. -/
def State.route (s : State) (cs : List Nat) : State × List Nat :=
  let ch := (List.range 32).filter cs.contains
  let hits := ch.flatMap s.consOf
  let cons := (List.range 64).filter hits.contains
  let s := s.culMerge (cs.length - ch.length + (hits.length - cons.length))
  let s := if ch.contains (s.fget CUL_MON_SEL.CHAN) then s.finc CUL_MON_CNT.CNT else s
  cons.foldl (fun (r : State × List Nat) c => let q := r.1.deliver c; (q.1, r.2 ++ q.2)) (s, [])

/-- Producers raise an event in one cycle. What their consumers raise in turn follows up to `n` times over; beyond that it stays
in the matrix, and PRODUCER_EVENT of the producer delivers it. -/
def State.raiseAll : Nat → List Nat → State → State
  | 0, ps, s => if ps.isEmpty then s else { s with cul := { s.cul with inMatrix := s.cul.inMatrix ++ ps } }
  | n + 1, ps, s =>
    if ps.isEmpty || !s.culRoutes then s
    else
      let r := s.route (ps.flatMap s.chansOf)
      r.1.raiseAll n r.2

/-- Producers raise their events together. -/
def State.publishAll (s : State) (ps : List Nat) : State := s.raiseAll 8 ps
/-- Producer `p` raises an event. -/
def State.publish (s : State) (p : Nat) : State := s.publishAll [p]

/-- A block event that is published when its `EVT_EN` bit is set (R420). -/
def State.event (s : State) (page bit p : Nat) : State :=
  if s.fbit (EVT_EN.bit page bit) then s.publish p else s

end Sys2Proof.Machine
end

