-- ==== Sys2Proof/Machine/Access.lean ====
section
/-!
DEFINITION. How an access to a register page is judged (R45, R46, R51, R55 to R61) and how an accepted write takes effect by
field type (R4 to R6, R47, R48), with the owner field and audit rules and the dirty bits of the overlay engine (R75). The
block-specific effect of a write is a function passed in, so that every page shares this one path.
Readings of the manual made here: DEDUCED in log entries 9, 10, 14, 16, 33.
-/
namespace Sys2Proof.Machine
open Sys2Proof

/-- Owner code and secure attribute of a master now (R55). -/
def State.sourceOf (s : State) : Master → Source
  | .tanumA => if s.coreA.psw.getLsbD 13 then ⟨1, false⟩ else ⟨0, s.coreA.psw.getLsbD 14⟩
  | .dma ch => match s.dma[ch.val]? with | some d => ⟨d.owner, d.sec⟩ | none => ⟨0, true⟩
  | .hsp => ⟨2, true⟩
  | .debug => ⟨0, true⟩

/-- Coppice writes registers as SUP, secure (R55). -/
def coppice : Source := ⟨0, true⟩
/-- Cadence accesses registers as CAD, secure (R55). -/
def cadence : Source := ⟨3, true⟩

/-- The interconnect carries accesses: RUN, DOZE and NAP, and excursions from NAP; never while the device is held in reset
(R402, R447). -/
def State.busUp (s : State) : Bool :=
  (s.pwr.st = .run || s.pwr.st = .doze || s.pwr.st = .nap)
    && !(s.pwr.exc && (s.pwr.home = .slumber || s.pwr.home = .hibernate)) && s.sys.held.isNone

/-- The address names a register page of the map (R43). -/
def isPage (a : Nat) : Bool := 0x40000000 ≤ a && a < 0x40040000

/-- Offset in the page without the alias bits, and the view (R48). -/
def baseOff (a : Nat) : Nat := a % 0x400
def viewOf (a : Nat) : View := match a % 0x1000 / 0x400 with | 0 => .base | 1 => .set | 2 => .clr | _ => .tgl
def viewOffset : View → Nat | .base => 0 | .set => 0x400 | .clr => 0x800 | .tgl => 0xC00
/-- The address of a register's view. -/
def viewAddr (v : View) (a : Nat) : Nat := a + viewOffset v

/-- OWN and the other protection registers of R59. -/
def isProtReg (p off : Nat) : Bool :=
  off = 0x1C || (p = Pg.PROT && off = 0x004) || (p = Pg.CUL && 0x050 ≤ off && off ≤ 0x05C)

/-- The Culvert channel whose row an offset of the CUL page belongs to. -/
def rowChannel (off : Nat) : Option Nat :=
  if 0x080 ≤ off ∧ off < 0x080 + 0x14 * 32 then some ((off - 0x080) / 0x14) else none

/-- OWNER and S of a Culvert channel (R426). -/
def State.chanOwner (s : State) (c : Nat) : Nat := s.raw (CUL_OWN.addr (c / 8)) / 2 ^ (4 * (c % 8)) % 8
def State.chanSec (s : State) (c : Nat) : Bool := bitOf (s.raw (CUL_OWN.addr (c / 8))) (4 * (c % 8) + 3)

/-- What the checks of an access answer: accepted, a plain bus error, or a rejection with its cause (R56). -/
inductive Verdict where
  | ok
  | busError
  | reject (cause : Nat)
  deriving DecidableEq, Repr

/-- Judge an access to a register page; causes in the order 6, 2, 0, 3, 4, 1, 5 of R56. -/
def State.judge (s : State) (m : Master) (src : Source) (a : Nat) (wr : Bool) : Verdict :=
  let p := pageOf a
  let off := baseOff a
  if !isPage a || a % 4 != 0 || !s.busUp then .busError
  else if m = .debug && !s.sys.dbgUnlocked then .busError
  else if p = Pg.RTC && s.fbit RTC_STAT.LOCKOUT && (off != 0x000 || wr) && (off != 0x008 || wr) && off != 0x040 then .busError
  else if p = Pg.DBG && !(m = .debug && s.sys.dbgUnlocked) then .reject 6
  else if wr && off = 0x1C && (p = Pg.PROT || p = Pg.GMB) then .reject 2
  else if !src.sec && (s.fbit (OWN.SEC p)
      || (p = Pg.CUL && (match rowChannel off with | some c => s.chanSec c | none => false))) then .reject 0
  else if wr && isProtReg p off && src.owner = 2 && s.fbit PROT_CTRL.OLOCK then .reject 3
  else if wr && isProtReg p off && !src.hits p 0 then .reject 4
  else if wr && s.fbit (OWN.LOCKW p) && !src.hits p (s.fget (OWN.OWNER p)) then .reject 1
  else if 0x24 ≤ p && p ≤ 0x2B && 0x040 ≤ off && !src.hits p (s.fget (OWN.OWNER p)) then .reject 5
  else if p = Pg.CUL && wr && (match rowChannel off with | some c => !src.hits p (s.chanOwner c) | none => false) then .reject 5
  else .ok

/-- Low words of the values wider than 32 bits that software writes (R54); the high word follows at the next address. -/
def wideLows : List Nat :=
  [SLU_BASE_LO.addr, NTU_STEP_LO.addr, NTU_EPOCH_LO.addr, NTU_PUL_T_LO.addr 0, NTU_PUL_T_LO.addr 1, NTU_PUL_T_LO.addr 2,
    NTU_PUL_T_LO.addr 3]

/-- A write as its block sees it: who, where, the view, the value written, the register before and after, the ones written to
W1S fields and the value written to WO fields (both 0 where the view does not act on them), and for the high word of a wide
value the low word before. -/
structure WCtx where
  m : Master
  src : Source
  page : Nat
  off : Nat
  view : View
  v : Nat
  old : Nat
  new : Nat
  ones : Nat
  wo : Nat
  lowOld : Nat
  /-- The write is Coppice's. -/
  cop : Bool := false
  deriving DecidableEq, Repr

/-- Address of the register written. -/
def WCtx.addr (w : WCtx) : Nat := pageAddr w.page w.off
/-- A W1S field was written with ones. -/
def WCtx.one (w : WCtx) (f : Fld) : Bool := fieldGet w.ones f != 0
/-- A field goes from 0 to 1, or from 1 to 0. -/
def WCtx.sets (w : WCtx) (f : Fld) : Bool := fieldGet w.old f == 0 && fieldGet w.new f != 0
def WCtx.clears (w : WCtx) (f : Fld) : Bool := fieldGet w.old f != 0 && fieldGet w.new f == 0

/-- A register's value after a write through a view (R4, R5, R48). -/
def writeValue (d : RegDesc) (view : View) (old v : Word) : Word :=
  match view with
  | .base => (((old &&& ~~~d.rw) ||| (v &&& d.rw)) &&& ~~~(v &&& d.w1c)) ||| (v &&& d.w1s)
  | .set => old ||| (v &&& (d.rw ||| d.w1s))
  | .clr => old &&& ~~~(v &&& d.rw)
  | .tgl => old ^^^ (v &&& d.rw)

/-- R66 lets an overlay name the register: CTRL, INT_EN, EVT_EN, or a block register with RW fields, outside PROT, OVL, GMB
and DBG. -/
def overlayNames (p off : Nat) : Bool :=
  p < 0x40 && p != Pg.PROT && p != Pg.OVL && p != Pg.GMB && p != Pg.DBG
    && (off = 0x004 || off = 0x010 || off = 0x018
      || (0x040 ≤ off && (descOf (pageAddr p off)).any fun d => d.rw != 0#32))

/-- The dirty bit of a page (R75). -/
def State.dirty (s : State) (p : Nat) : State :=
  if p < 32 then s.fset ⟨OVL_DIRTY_LO.addr, p, 1⟩ 1 else s.fset ⟨OVL_DIRTY_HI.addr, p - 32, 1⟩ 1

/-- An owner field of the register would take a reserved code (R57). -/
def badOwner (p off new : Nat) : Bool :=
  if off = 0x1C then new % 8 = 5 || new % 8 = 6
  else if p = Pg.CUL && 0x050 ≤ off && off ≤ 0x05C then
    (List.range 8).any fun j => new / 2 ^ (4 * j) % 8 = 5 || new / 2 ^ (4 * j) % 8 = 6
  else false

/-- The low word of a wide value is held per master (R54). -/
def State.holdLow (s : State) (m : Master) (a : Nat) (v : Word) : State :=
  let l := s.bus.held.filter fun h => !(h.1 == masterCode m && h.2.1 == a)
  { s with bus := { s.bus with held := (masterCode m, a, v) :: l } }

/-- The held low word takes effect with the high word; without one the register's low word stands. -/
def State.landLow (s : State) (m : Master) (a : Nat) : State :=
  match s.bus.held.find? (fun h => h.1 == masterCode m && h.2.1 == a) with
  | some h =>
    { s.rset a h.2.2 with bus := { s.bus with held := s.bus.held.filter fun h => !(h.1 == masterCode m && h.2.1 == a) } }
  | none => s

/-- The store's part of an accepted write, with the owner rules and the audit of protection registers (R57, R60). Answers the
write's context and whether its block effect follows. NEW of a discarded write is the word on the bus (log entry 16). -/
def State.applyWrite (s : State) (m : Master) (src : Source) (a : Nat) (v : Word) : State × Option WCtx :=
  let p := pageOf a
  let off := baseOff a
  let view := viewOf a
  let ra := pageAddr p off
  (descOf ra).elim (s, none) fun d =>
    let old := s.rget ra
    let new := writeValue d view old v
    let w : WCtx :=
      { m := m, src := src, page := p, off := off, view := view, v := v.toNat, old := old.toNat, new := new.toNat
        ones := if view = .base || view = .set then (v &&& d.w1s).toNat else 0
        wo := if view = .base then (v &&& d.wo).toNat else 0
        lowOld := s.raw (ra - 4) }
    let s := if overlayNames p off then s.dirty p else s
    if isProtReg p off then
      if badOwner p off new.toNat then
        let s := (s.fset PROT_STAT.BAD_OWNER 1).raise Pg.PROT 1
        (s.audit src 0 p (offOf a) 0 old.toNat v.toNat, none)
      else
        let s := s.rset ra new
        (s.audit src 0 p (offOf a) 0 old.toNat new.toNat, some w)
    else if off = 0x014 then
      let s := if view = .base then s.rset (INT_RAW.addr p) (s.rget (INT_RAW.addr p) &&& ~~~v) else s
      (s, some w)
    else if wideLows.contains ra then (s.holdLow m ra new, none)
    else if wideLows.contains (ra - 4) then ((s.landLow m (ra - 4)).rset ra new, some w)
    else (s.rset ra new, some w)

/-- Write a register page as a given source: judged, stored, then the block's own effect. -/
def State.writeAs (hook : WCtx → State → State) (m : Master) (src : Source) (a : Nat) (v : Word) (s : State) : State :=
  match s.judge m src a true with
  | .busError => { s with bus := { s.bus with err := true } }
  | .reject c => s.reject src (pageOf a) (a % 0x1000) true c
  | .ok =>
    match ({ s with bus := { s.bus with err := false } } : State).applyWrite m src a v with
    | (s, some w) => hook w s
    | (s, none) => s

/-- A master's write with the block effect `hook`. -/
def State.write (hook : WCtx → State → State) (m : Master) (a : Nat) (v : Word) (s : State) : State :=
  s.writeAs hook m (s.sourceOf m) a v

/-- A write through a view of one known register: what the rows that name their register do. -/
def State.writeReg (hook : WCtx → State → State) (acc : Acc) (a : Nat) (v : Word) (s : State) : State :=
  s.write hook acc.m (viewAddr acc.view a) v

/-- A read of a register through the access checks; an accepted one runs `f`, which answers the data. -/
def State.readAs (s : State) (m : Master) (a : Nat) (f : State → State × Nat) : State :=
  let src := s.sourceOf m
  match s.judge m src a false with
  | .busError => { s with bus := { s.bus with err := true } }
  | .reject c => s.reject src (pageOf a) (a % 0x1000) false c
  | .ok =>
    let (s, d) := f s
    { s with bus := { s.bus with err := false, data := BitVec.ofNat 32 d } }

/-- A write to a data port, whose content `cur` stands outside the register store; afterwards the store holds nothing for it. -/
def State.portWrite (hook : WCtx → State → State) (acc : Acc) (a : Nat) (cur : Nat) (v : Word) (s : State) : State :=
  ((s.rsetN a cur).writeReg hook acc a v).rset a (resetOf a)

/-! ## Soft reset (R50) -/

/-- The page's registers that SRST returns to reset: 0x004 to 0x3FC except OWN, and on the CUL page except the channel owners
(R426). -/
def srstClears (p a : Nat) : Bool :=
  pageOf a = p && offOf a != 0x01C && !(p = Pg.CUL && 0x050 ≤ offOf a && offOf a ≤ 0x05C)

/-- Held low words of a page are discarded (R54). -/
def State.dropHeld (s : State) (p : Nat) : State :=
  { s with bus := { s.bus with held := s.bus.held.filter (fun h => pageOf h.2.1 != p) } }

/-- The register part of a soft reset, with the dirty bit of R75; what a phase held back of the page goes too. -/
def State.srstPage (s : State) (p : Nat) : State :=
  let s := ((s.resetRegs (srstClears p)).dropHeld p).dirty p
  { s with phase := { s.phase with regs := s.phase.regs.filter fun q => pageOf q.1 != p } }

end Sys2Proof.Machine
end

