-- ==== Sys2Proof/Machine/Mem.lean ====
section
/-!
DEFINITION. Memory (R43): one canonical list of address and byte, its reads and writes by byte, half and word, little-endian
(R8). What an unlisted address reads as is `memDefault`.
Readings of the manual made here: DESIGN CHOICE in log entries 3, 8, 101.
-/
namespace Sys2Proof.Machine
open Sys2Proof

/-- What an unlisted address reads as: erased flash 0xFF, the boot ROM's own bytes, zero elsewhere (log entry 3). -/
def memDefault (a : Nat) : Byte :=
  if a < 0x00800000 then 0xFF#8
  else if 0x08000000 ≤ a ∧ a < 0x08010000 then Config.bootRom (a - 0x08000000)
  else 0#8

/-- The byte a list of cells holds for an address: an unlisted one reads as `d` says. -/
def cellGet (d : Nat → Byte) : List Host.Cell → Nat → Byte
  | [], a => d a
  | (b, v) :: l, a => if a = b then v else cellGet d l a

/-- The list with a byte put in its place, which no entry has. -/
def cellIns : List Host.Cell → Nat → Byte → List Host.Cell
  | [], a, v => [(a, v)]
  | (b, w) :: l, a, v => if a < b then (a, v) :: (b, w) :: l else (b, w) :: cellIns l a v

/-- The list with one byte changed, kept canonical. -/
def cellPut (d : Nat → Byte) (l : List Host.Cell) (a : Nat) (v : Byte) : List Host.Cell :=
  let l := l.filter fun c => c.1 != a
  if v = d a then l else cellIns l a v

/-- The canonical form: addresses rising, no entry equal to what an unlisted address reads as. -/
abbrev Cells.wf (d : Nat → Byte) (l : List Host.Cell) : Prop :=
  l.Pairwise (fun x y => x.1 < y.1) ∧ ∀ c ∈ l, c.2 ≠ d c.1

/-- The canonical form of memory. -/
abbrev Memory.wf (l : List Host.Cell) : Prop := Cells.wf memDefault l

def State.byteAt (s : State) (a : Nat) : Byte := cellGet memDefault s.mem a
def State.setByte (s : State) (a : Nat) (v : Byte) : State := { s with mem := cellPut memDefault s.mem a v }

/-- `n` bytes as a number, least significant first (R8). -/
def State.bytesAt (s : State) (a : Nat) : Nat → Nat
  | 0 => 0
  | n + 1 => (s.byteAt a).toNat + 256 * s.bytesAt (a + 1) n

def State.setBytes (s : State) (a : Nat) : Nat → Nat → State
  | 0, _ => s
  | n + 1, v => (s.setByte a (BitVec.ofNat 8 v)).setBytes (a + 1) n (v / 256)

def State.wordAt (s : State) (a : Nat) : Nat := s.bytesAt a 4
def State.setWord (s : State) (a v : Nat) : State := s.setBytes a 4 v
def State.halfAt (s : State) (a : Nat) : Nat := s.bytesAt a 2
def State.setHalf (s : State) (a v : Nat) : State := s.setBytes a 2 v

/-- The bytes of a list from an address on. -/
def State.setList (s : State) (a : Nat) : List Byte → State
  | [] => s
  | b :: l => (s.setByte a b).setList (a + 1) l
def State.listAt (s : State) (a : Nat) : Nat → List Byte
  | 0 => []
  | n + 1 => s.byteAt a :: s.listAt (a + 1) n

/-! ## Check bits (R331, R334) -/

/-- A word's bit error: none, one bit (false) or two (true). -/
def State.eccAt (s : State) (a : Nat) : Option Bool := (s.memst.ecc.find? (fun e => e.1 == a / 4 * 4)).map (·.2)
/-- A double-bit error is counted and recorded. -/
def State.eccUe (s : State) (a : Nat) : State :=
  (s.finc (if a < 0x30000000 then SYS_MEM_ECC.SRAM_UE else SYS_MEM_ECC.RRAM_UE)).rsetN SYS_MEM_ERRADDR.addr (a / 4 * 4)
/-- Some word of a range has a double-bit error. -/
def State.eccBad (s : State) (a n : Nat) : Bool := s.memst.ecc.any fun e => e.2 && a ≤ e.1 && e.1 < a + n

def State.setMemst (s : State) (f : MemState → MemState) : State := { s with memst := f s.memst }
def State.eccFix (s : State) (a : Nat) : State := s.setMemst fun m => { m with ecc := m.ecc.filter (fun e => e.1 != a / 4 * 4) }

/-- The word's check bits are examined: a single-bit error is corrected in memory and counted. Answers whether the word is bad. -/
def State.eccCheck (s : State) (a : Nat) : State × Bool :=
  match s.eccAt a with
  | none => (s, false)
  | some false => ((s.eccFix a).finc (if a < 0x30000000 then SYS_MEM_ECC.SRAM_CE else SYS_MEM_ECC.RRAM_CE), false)
  | some true => (s.eccUe a, true)

/-- Every word with a bit error that `p` picks is examined once. Answers whether one is bad. -/
def State.eccSweep (s : State) (p : Nat → Bool) : State × Bool :=
  (s.memst.ecc.filter fun e => p e.1).foldl (fun r e => let q := r.1.eccCheck e.1; (q.1, r.2 || q.2)) (s, false)

/-- An update of a word by the radio fabric: a read-modify-write, discarded when the read meets a double-bit error. -/
def State.fabricSet (s : State) (a v : Nat) : State :=
  let r := s.eccCheck a
  if r.2 then r.1 else r.1.setWord a v

/-- A bit field of a word in memory. -/
def State.mget (s : State) (a lo w : Nat) : Nat := s.wordAt a / 2 ^ lo % 2 ^ w
def State.mset (s : State) (a lo w x : Nat) : State :=
  let v := s.wordAt a
  s.fabricSet a (v - v / 2 ^ lo % 2 ^ w * 2 ^ lo + x % 2 ^ w * 2 ^ lo)

/-- Every byte of a range returns to what an unlisted address reads as. -/
def State.clearRange (s : State) (lo hi : Nat) : State :=
  { s with mem := s.mem.filter (fun c => !(lo ≤ c.1 && c.1 < hi)) }

end Sys2Proof.Machine
end

