-- ==== Sys2Proof/Machine/Commit.lean ====
section
/-!
DEFINITION. Phases of the lockstep domain (R34, R35): the checkpoint of a phase, its commit buffer, and what software sees while the buffer
holds the domain's writes back.
Readings of the manual made here: DEDUCED in log entry 137.
-/
namespace Sys2Proof.Machine
open Sys2Proof

/-- Pages whose registers the lockstep domain writes: Cadence, the Headrace, the traffic scheduler, the NTU. -/
def lockstepPage (p : Nat) : Bool := [Pg.CAD, Pg.NBR, Pg.HDR, Pg.TRF, Pg.WEIR, Pg.SLU, Pg.DCA, Pg.NTU].contains p

/-- A phase starts: what the one before held back is released, and the domain's state is its checkpoint. -/
def State.phaseBegin (s : State) : State :=
  let c := { s.cad with phaseAt := s.frcN, replays := 0 }
  { s with cad := c, phase := { on := true, cad := c, hdr := s.hdr, slot := s.slot } }

/-- What the registers of the domain that differ between two stores showed before. -/
def regsBefore (old new : List (Nat × Word)) : List (Nat × Word) :=
  ((((old ++ new).map (·.1)).filter fun a => lockstepPage (pageOf a) && regGet old a != regGet new a).eraseDups).map fun a => (a, regGet old a)

/-- The bytes of radio RAM that differ between two memories, as they were before. -/
def bytesBefore (old new : List Host.Cell) : List Host.Cell :=
  ((((old ++ new).map (·.1)).filter fun a =>
    0x30000000 ≤ a && a < 0x30040000 && cellGet memDefault old a != cellGet memDefault new a).eraseDups).map fun a => (a, cellGet memDefault old a)

/-- The domain has gone from `s` to `t` on its own: what it wrote is held back until the phase ends. -/
def State.hold (s t : State) : State :=
  { t with phase := if !t.phase.on then t.phase else { t.phase with
      regs := t.phase.regs ++ (regsBefore s.regs t.regs).filter fun r => !t.phase.regs.any fun q => q.1 == r.1
      mem := t.phase.mem ++ (bytesBefore s.mem t.mem).filter fun r => !t.phase.mem.any fun q => q.1 == r.1 } }

/-- A register with a value held back: fields that software writes show as they stand, a bit cleared by software reads 0, the rest as before. -/
def shownReg (a : Nat) (held live : Word) : Word :=
  let rw := ((descOf a).map (·.rw)).getD 0#32
  let flags := if baseOff a = 0x00C then 0xFFFFFFFF#32 else ((descOf a).map (·.w1c)).getD 0#32
  (live &&& rw) ||| (held &&& ~~~rw &&& (live ||| ~~~flags))

/-- The register as software sees it. -/
def State.shown (s : State) (a : Nat) : Nat :=
  match s.phase.regs.find? fun q => q.1 == a with
  | some q => (shownReg a q.2 (s.rget a)).toNat
  | none => s.raw a

/-- The state that a read of a register page sees: on the domain's pages the phase's checkpoint with the held values. -/
def State.seen (s : State) (a : Nat) : State :=
  if s.phase.on && lockstepPage (pageOf a) && pageOf a != Pg.NTU then
    { s with regs := s.phase.regs.foldl (fun l q => regPut l q.1 (shownReg q.1 q.2 (regGet s.regs q.1))) s.regs
             cad := s.phase.cad, hdr := s.phase.hdr, slot := s.phase.slot }
  else s

/-- The byte as a master sees it. -/
def State.shownByte (s : State) (a : Nat) : Byte := cellGet (fun _ => s.byteAt a) s.phase.mem a
def State.shownBytes (s : State) (a : Nat) : Nat → Nat
  | 0 => 0
  | n + 1 => (s.shownByte a).toNat + 256 * s.shownBytes (a + 1) n

/-- A master's write to radio RAM shows at once. -/
def State.unhold (s : State) (a n : Nat) : State :=
  { s with phase := { s.phase with mem := s.phase.mem.filter fun q => !(a ≤ q.1 && q.1 < a + n) } }

/-- A master's read cleared a counter of which it was shown the held value: what the domain has counted since stays, and the buffer shows 0. -/
def State.rcShown (s : State) (a : Nat) (rc : Word) : State :=
  match s.phase.regs.find? fun q => q.1 == a with
  | some q =>
    { s.rset a ((s.rget a &&& ~~~rc) ||| (((s.rget a &&& rc) - (q.2 &&& rc)) &&& rc)) with
      phase := { s.phase with regs := s.phase.regs.map fun r => if r.1 = a then (a, q.2 &&& ~~~rc) else r } }
  | none => s.rset a (s.rget a &&& ~~~rc)

end Sys2Proof.Machine
end

