-- ==== Sys2Proof/Machine/Memory.lean ====
section
/-!
DEFINITION. Reads and writes of the memories by a master (R11, R43): SRAM and radio RAM with their check bits (R331 to R334), main
flash with its block modes, its stalls and its failing reads (R336 to R339, R344, R347), and the boot ROM.
Readings of the manual made here: DESIGN CHOICE in log entry 101.
-/
namespace Sys2Proof.Machine
open Sys2Proof

/-- How an access ends: with data, a bus error, an uncorrectable ECC error, an alignment fault of Tanum-A, or not yet. -/
inductive Reach where
  | ok (v : Nat)
  | bus
  | ecc
  | align
  | stall
  deriving DecidableEq, Repr

/-! ## Regions (R43) -/

inductive Region where | flash | rom | sram | rram | page | glade | priv | hole
  deriving DecidableEq, Repr
def regionOf (a : Nat) : Region :=
  if a < 0x00800000 then .flash
  else if 0x08000000 ≤ a ∧ a < 0x08010000 then .rom
  else if 0x20000000 ≤ a ∧ a < 0x20180000 then .sram
  else if 0x30000000 ≤ a ∧ a < 0x30040000 then .rram
  else if 0x40000000 ≤ a ∧ a < 0x40040000 then .page
  else if 0x50000000 ≤ a ∧ a < 0x50010000 then .glade
  else if 0xE0000000 ≤ a ∧ a < 0xE0100000 then .priv
  else .hole

/-- SRAM bank of an address; the radio RAM counts as bank 24. -/
def bankOf (a : Nat) : Nat := if a < 0x30000000 then (a - 0x20000000) / 0x10000 else 24

/-! ## SRAM and radio RAM -/

def State.ramRead (s : State) (a n : Nat) : State × Reach :=
  if s.memst.clear.contains (bankOf a) then (s, .stall)
  else
    let r := s.eccCheck a
    if r.2 then (r.1, .ecc) else (r.1, .ok (r.1.shownBytes a n))

/-- The first write to a bank since it was cleared declares it in use (R333). -/
def State.sramUse (s : State) (a : Nat) : State :=
  if a < 0x30000000 && !s.memst.written.contains (bankOf a) then
    (s.fset ⟨SYS_SRAM_USE.addr, bankOf a, 1⟩ 1).setMemst fun m => { m with written := bankOf a :: m.written }
  else s

/-- What a write to a RAM word notes: its bank is in use, a HELD value written to a neighbour entry under HOLD is EST's next (R201), and the
reserved bits of a pool cell's link word and of a queued frame's descriptor stay zero (R231, R232). -/
def State.ramNote (s : State) (a : Nat) : State :=
  let n := (a - 0x30020000) / 64
  if 0x30020000 ≤ a && a < 0x30030000 && a % 64 / 4 = 9 && s.mget (a / 64 * 64) 20 1 = 1 && !s.cad.heldNew.contains n then
    { s with cad := { s.cad with heldNew := n :: s.cad.heldNew } }
  else if 0x30000000 ≤ a && a < 0x30020000 then
    let w := a / 4 * 4
    let c := (a - 0x30000000) / 128
    let queued := s.trf.done.contains c || s.trf.queues.any (·.contains c)
    let keep := match a % 128 / 4 with
      | 0 => 0x7FF
      | 1 => if queued then 0x7FFFFFFF else 0xFFFFFFFF
      | 3 => if queued then 0x3FFF else 0xFFFFFFFF
      | 4 => if queued then 0xFFFF else 0xFFFFFFFF
      | 7 => if queued then 0 else 0xFFFFFFFF
      | _ => 0xFFFFFFFF
    if Nat.land (s.wordAt w) keep = s.wordAt w then s else s.setWord w (Nat.land (s.wordAt w) keep)
  else s.sramUse a

/-- A write; a narrow one reads and merges the word, and a word with a double-bit error discards it. -/
def State.ramWrite (s : State) (a n v : Nat) : State × Reach :=
  if s.memst.clear.contains (bankOf a) then (s, .stall)
  else if n = 4 then ((((s.eccFix a).setBytes a 4 v).ramNote a).unhold a 4, .ok 0)
  else
    let r := s.eccCheck a
    if r.2 then (r.1, .ecc) else (((r.1.setBytes a n v).ramNote a).unhold a n, .ok 0)

/-! ## Main flash -/

def State.setFlash (s : State) (f : FlashState → FlashState) : State := { s with flash := f s.flash }

def blockOf (a : Nat) : Nat := a / 0x20000
/-- The block is in SLC mode (R336). -/
def State.blockSlc (s : State) (b : Nat) : Bool :=
  if b < 32 then bitOf (s.raw FLC_MODE_LO.addr) b else bitOf (s.raw FLC_MODE_HI.addr) (b - 32)
/-- The address lies in its block's window. -/
def State.inWindow (s : State) (a : Nat) : Bool := a < 0x00800000 && !(s.blockSlc (blockOf a) && 0x10000 ≤ a % 0x20000)

/-- A failing read is recorded: 1 SUSP_HIT, 2 UNCORR. -/
def State.flashError (s : State) (kind a : Nat) : State :=
  let s := (s.fset FLC_ERRINFO.ADDR a).fset FLC_ERRINFO.KIND kind
  if kind = 1 then (s.fset FLC_STAT.SUSP_HIT 1).raise Pg.FLC 3 else (s.fset FLC_STAT.UNCORR 1).raise Pg.FLC 4

/-- Corrected bits of a line go to the block's count (R338). -/
def State.flashCorr (s : State) (b n : Nat) : State :=
  let old := ((s.flash.corr.find? (fun c => c.1 == b)).map (·.2)).getD (0, 0)
  s.setFlash fun f => { f with corr := (b, min 65535 (old.1 + n), max old.2 n) :: f.corr.filter (fun c => c.1 != b) }

/-- A read of main flash by anyone but the flash controller. Content that is indeterminate reads as any data, or as UNCORR. -/
def State.flashRead (s : State) (a n : Nat) : State × Reach :=
  if s.flash.op.isSome then (s, .stall)
  else if !s.inWindow a then (s, .bus)
  else if s.flash.susp.any (fun o => blockOf o.addr == blockOf a) then (s.flashError 1 a, .bus)
  else if s.flash.indet.contains (a / 2048) then
    let v := s.free
    let s := s.freeStep
    if bitOf v 63 then (s.flashError 2 a, .bus) else (s, .ok (v % 256 ^ n))
  else
    match s.flash.lines.find? (fun l => l.1 == a / 16) with
    | some (_, k) => if 3 ≤ k then (s.flashError 2 a, .bus) else (s.flashCorr (blockOf a) k, .ok (s.bytesAt a n))
    | none => (s, .ok (s.bytesAt a n))

/-! ## Reads of a range: the update engine, Coppice, the boot ROM, the rest of a cache line (R338, R339, R344) -/

/-- The ranges of `n` and `m` bytes meet. -/
def meets (a n b m : Nat) : Bool := a < b + m && b < a + n

/-- Indeterminate pages of a range hold some data, and may hold a line that cannot be corrected (R347). -/
def State.flashLoose (s : State) (a n : Nat) : State :=
  (s.flash.indet.filter fun p => meets a n (p * 2048) 2048).foldl (fun s p =>
    let f := s.free
    let s := s.setList (p * 2048) ((List.range 2048).map fun i => BitVec.ofNat 8 (Config.freeValue (s.freeCtr + 1 + i)).toNat)
    let s : State := { s with freeCtr := s.freeCtr + 2049 }
    s.setFlash fun x => { x with
      lines := x.lines.filter (fun l => l.1 / 128 != p) ++ (if bitOf f 63 then [(p * 128 + f % 128, 3)] else []) }) s

/-- Where reading a range of main flash fails, with the kind that FLC_ERRINFO shows: a suspended block (1), an uncorrectable line (2). -/
def State.flashStop (s : State) (a n : Nat) : Option (Nat × Nat) :=
  let spots := (s.flash.susp.toList.map fun o => (blockOf o.addr * 0x20000, 0x20000, 1))
    ++ ((s.flash.lines.filter fun l => 3 ≤ l.2).map fun l => (l.1 * 16, 16, 2))
  (spots.filter fun x => meets a n x.1 x.2.1).foldl (fun (b : Option (Nat × Nat)) x =>
    match b with
    | some y => if y.1 ≤ max a x.1 then b else some (max a x.1, x.2.2)
    | none => some (max a x.1, x.2.2)) none

/-- Bits corrected in a range go to their blocks' counts. -/
def State.flashSweep (s : State) (a n : Nat) : State :=
  (s.flash.lines.filter fun l => l.2 < 3 && meets a n (l.1 * 16) 16).foldl (fun s l => s.flashCorr (blockOf (l.1 * 16)) l.2) s

/-- The range lies in the windows of its blocks. -/
def State.inWindows (s : State) (a n : Nat) : Bool :=
  a + n ≤ 0x00800000 && (List.range 64).all fun b => !(s.blockSlc b && meets a n (b * 0x20000 + 0x10000) 0x10000)

/-- A range of main flash whose content is determinate is read up to where it fails. -/
def State.flashTake (s : State) (a n : Nat) : State × Bool :=
  if n = 0 then (s, true)
  else if !s.inWindows a n then (s, false)
  else match s.flashStop a n with
    | some (x, k) => ((s.flashSweep a (x - a)).flashError k x, false)
    | none => (s.flashSweep a n, true)

/-- A range of main flash or SRAM is read; answers whether all of it was. -/
def State.rangeRead (s : State) (a n : Nat) : State × Bool :=
  match regionOf a with
  | .flash => (s.flashLoose a n).flashTake a n
  | .sram =>
    if (s.tst.banks.head?).any fun b => meets a n (0x20000000 + b * 0x10000) 0x10000 then (s, false)
    else
      let r := s.eccSweep fun x => meets a n x 4
      (r.1, !r.2)
  | _ => (s, false)

/-! ## The memories as one -/

/-- The bank of an address is under SRAM BIST (R458), or the radio RAM under its own. -/
def State.underTest (s : State) (a : Nat) : Bool :=
  (regionOf a = .sram && s.tst.banks.head? = some (bankOf a)) || (regionOf a = .rram && s.tst.rram)

/-- A read of `n` bytes of a memory by a master (R11); `page` stands for what is no memory. -/
def State.memRead (s : State) (m : Master) (a n : Nat) : State × Reach :=
  let r := regionOf a
  if m = .hsp || !s.busUp || (m = .debug && !s.sys.dbgUnlocked) then (s, .bus)
  else if r = .hole || r = .page || r = .glade || r = .priv then (s, .bus)
  else if a % n != 0 then (s, if m = .tanumA then .align else .bus)
  else if s.underTest a then (s, .bus)
  else if r = .flash then s.flashRead a n
  else if r = .rom then (match m with | .dma _ => (s, .bus) | _ => (s, .ok (s.bytesAt a n)))
  else s.ramRead a n

/-- A write of `n` bytes to a memory by a master. -/
def State.memWrite (s : State) (m : Master) (a n v : Nat) : State × Reach :=
  let r := regionOf a
  if m = .hsp || !s.busUp || (m = .debug && !s.sys.dbgUnlocked) then (s, .bus)
  else if r = .sram || r = .rram then
    (if a % n != 0 then (s, if m = .tanumA then .align else .bus) else if s.underTest a then (s, .bus) else s.ramWrite a n v)
  else (s, .bus)

/-! ## Commands -/

/-- Banks that lost their contents have been written with zeros (R332). -/
def execBankClearDone (s : State) : Host.Outcome State Fault Refusal := .next (s.setMemst fun m => { m with clear := [] })

/-- Firmware declares banks free (R333). -/
def execSysSramUseWrite (a : Acc) (v : Word) (s : State) : Host.Outcome State Fault Refusal :=
  .next (s.writeReg (fun _ s => s) a SYS_SRAM_USE.addr v)

end Sys2Proof.Machine
end

