-- ==== Sys2Proof/Machine/Air.lean ====
section
/-!
DEFINITION. Air modes (R149 to R152), airtimes (R157, R166, R172) and the port ranges (R76). Times are exact in units of
1/1536 us, in which every octet and chip time of the manual is a whole number; an FRC count is 48 of them.
Readings of the manual made here: DESIGN CHOICE in log entries 45, 49.
-/
namespace Sys2Proof.Machine
open Sys2Proof

/-- Codes that stand for no mode (R152). -/
def modeReserved (m : Nat) : Bool :=
  m = 0x06 || m = 0x07 || m = 0x0E || m = 0x0F || (0x13 ≤ m && m ≤ 0x1F) || (0x29 ≤ m && m ≤ 0x2B) || 0x2F ≤ m
/-- Codes that no transmission may name. -/
def modeNoTx (m : Nat) : Bool := modeReserved m || m = 0x28
def isSun (m : Nat) : Bool := m < 0x10 && !modeReserved m
def isRill (m : Nat) : Bool := 0x10 ≤ m && m ≤ 0x12
def isWmbus (m : Nat) : Bool := 0x20 ≤ m && !modeReserved m
def sunCoded (m : Nat) : Bool := isSun m && 8 ≤ m
/-- A 400 kHz channel (R151). -/
def modeWide (m : Nat) : Bool := isRill m || (isSun m && (m % 8 = 2 || m % 8 = 3 || m % 8 = 5))
/-- The receive group of a code, by its lowest code (R150). -/
def rxGroup (m : Nat) : Nat :=
  if m < 0x10 then m % 8 else if isRill m then 0x10 else if m = 0x25 then 0x24 else if m = 0x27 then 0x26 else m

/-- Octet time of a SUN-FSK code in 1/1536 us (R172). -/
def sunOctet (m : Nat) : Nat :=
  match m % 8 with | 0 => 245760 | 1 => 122880 | 2 => 81920 | 3 => 61440 | 4 => 61440 | _ => 40960

/-- A wM-Bus code's chip time in 1/1536 us, chips per octet, preamble and sync chips, postamble chips (R157). -/
def wmTiming (m : Nat) : Nat × Nat × Nat × Nat :=
  match m with
  | 0x20 => (46875, 16, 594, 2)
  | 0x21 => (46875, 16, 66, 2)
  | 0x23 => (46875, 16, 66, 2)
  | 0x22 => (15360, 12, 48, 2)
  | 0x24 | 0x25 => (15360, 8, 64, 2)
  | 0x26 | 0x27 => (30720, 8, 64, 2)
  | 0x2C => (640000, 8, 32, 0)
  | 0x2D => (320000, 8, 32, 0)
  | 0x2E => (80000, 8, 32, 0)
  | _ => (15360, 12, 48, 2)

/-- Information bits of a Rill code (R170). -/
def rillK (m : Nat) : Nat := match m with | 0x10 => 288 | 0x11 => 384 | _ => 480
/-- Codewords of a Rill PSDU (R171). -/
def rillCodewords (m n : Nat) : Nat := ceilDiv (8 * n) (rillK m)

/-- Airtime in 1/1536 us of `n` octets behind a SUN-FSK preamble of `pre` octets (R172). For wM-Bus `n` counts from the L-field
on without block CRCs; format B adds its one or two CRCs to the L-field. -/
def airtimeFine (m : Nat) (fmtB : Bool) (n pre : Nat) : Nat :=
  if isSun m then
    if sunCoded m then sunOctet m * (pre + 2 + 2 * (n + 3)) else sunOctet m * (pre + 4 + n)
  else if isRill m then 580 * 1536 + 3840 * (8 * n + rillCodewords m n * (576 - rillK m))
  else
    let (chip, per, head, post) := wmTiming m
    let fmtB := (fmtB || m = 0x25 || m = 0x27) && m != 0x24 && m != 0x26
    let octs := if fmtB then n + (if n ≤ 126 then 2 else 4) else n + 2 * (1 + ceilDiv (n - 1 - 9) 16)
    chip * (head + post + per * octs)

/-- Preamble of a frame and of an ACK in octets (R158). -/
def framePre : Nat := 8
def ackPre : Nat := 4

/-- Airtime in whole us, rounded up. -/
def fineUs (x : Nat) : Nat := ceilDiv x 1536
/-- A sum of airtimes as a register shows it in us; between two us the manual does not say which. -/
def usOpen (x : Nat) : Nat := if x % 1536 ≠ 0 && Config.roundsUp x then x / 1536 + 1 else x / 1536
/-- Airtime in FRC counts, rounded up. -/
def fineCounts (x : Nat) : Nat := ceilDiv x 48
/-- A preamble-plus-SFD duration as a number of FRC counts: between two counts the manual does not say which (R136, R193). -/
def countsOpen (x : Nat) : Nat := if x % 48 ≠ 0 && Config.roundsUp x then x / 48 + 1 else x / 48

/-- The mode-switch PPDU in the cell's mode (R159, R172). -/
def modeSwitchFine (cell : Nat) : Nat := sunOctet cell * (framePre + 4)
/-- A frame of one code in a cell of another can be sent (R159). -/
def modesFit (frame cell : Nat) : Bool :=
  frame = cell || (isSun frame && isSun cell && modeWide frame = modeWide cell)
/-- Airtime of a frame of code `m` in a cell of code `cell`. -/
def frameFine (m cell : Nat) (fmtB : Bool) (n : Nat) : Nat :=
  airtimeFine m fmtB n framePre + (if m = cell then 0 else modeSwitchFine cell)

/-- Longest ACK of a mode in 1/1536 us (R163, R172): 22 octets; none for wM-Bus. -/
def longestAckFine (m : Nat) : Nat := if isWmbus m then 0 else airtimeFine m false 22 ackPre
def longestAckUs (m : Nat) : Nat := fineUs (longestAckFine m)

/-- Preamble and SFD in 1/1536 us (R187, R193). -/
def preSfdFine (m pre : Nat) : Nat :=
  if isSun m then sunOctet m * (pre + 2)
  else if isRill m then 440 * 1536
  else let (chip, _, head, _) := wmTiming m; chip * head

/-! ## Ports (R76); frequencies are in synthesiser units of 32 MHz / 2^22, compared exactly in 1/2048 Hz -/

def qHz (f : Nat) : Nat := f * 15625
def mhz (kHz : Nat) : Nat := kHz * 1000 * 2048
/-- Port of a frequency in 1/2048 Hz: 0 RFLO, 1 RFHI. -/
def portOf (q : Nat) : Option Nat :=
  if mhz 150000 ≤ q ∧ q < mhz 470000 then some 0
  else if mhz 470000 ≤ q ∧ q ≤ mhz 960000 then some 1 else none

end Sys2Proof.Machine
end

