-- ==== Sys2Proof/Machine/Coding.lean ====
section
/-!
DEFINITION. Coding that the air interfaces share: bits and octets, whitening (R158, R169), the two convolutional codes of SUN-FSK FEC, and
the Viterbi decoder of a lane (R119).
Readings of the manual made here: PRESUMED in log entry 12; DESIGN CHOICE in log entry 135.
-/
namespace Sys2Proof.Machine
open Sys2Proof

/-- Bits of a number, least significant first. -/
def bitsOf (w v : Nat) : List Bool := (List.range w).map (bitOf v)
/-- Octets in order, each least significant bit first (R153). -/
def octetBits (l : List Byte) : List Bool := l.flatMap fun b => bitsOf 8 b.toNat

/-- Bits of a number, most significant first. -/
def bitsMsb (w v : Nat) : List Bool := (List.range w).map fun i => bitOf v (w - 1 - i)
/-- The number that bits spell, most significant first. -/
def natMsb (l : List Bool) : Nat := l.foldl (fun n b => 2 * n + (if b then 1 else 0)) 0
def parity (v : Nat) : Bool := ((List.range 16).filter (bitOf v)).length % 2 == 1

/-- Octets of bits, each least significant bit first. -/
def bitsOctets : Nat → List Bool → List Byte
  | 0, _ => []
  | n + 1, l => BitVec.ofNat 8 (natMsb (l.take 8).reverse) :: bitsOctets n (l.drop 8)

/-- Whitening (R169): a 9-bit register from all ones, whose lowest bit is added. -/
def whitenNext (s : Nat) : Nat := s / 2 + (if xor (bitOf s 0) (bitOf s 5) then 256 else 0)
def whiten : Nat → List Bool → List Bool
  | _, [] => []
  | s, x :: l => xor x (bitOf s 0) :: whiten (whitenNext s) l
/-- The register after some bits. -/
def whitenAfter (n : Nat) : Nat := (List.range n).foldl (fun s _ => whitenNext s) 0x1FF

/-! ## Convolutional codes (R158), constraint length 4 -/

/-- The bit that enters the register of a code in state `s`, three bits with the newest lowest: the input, or with the feedback of the
recursive code added. -/
def codeIn (rec' : Bool) (s : Nat) (b : Bool) : Bool := if rec' then xor b (parity (Nat.land (2 * s) 0b1111)) else b
/-- One step: the next state and the two code bits. -/
def codeStep (rec' : Bool) (s : Nat) (b : Bool) : Nat × List Bool :=
  let r := 2 * s % 16 + (if codeIn rec' s b then 1 else 0)
  (r % 8, [if rec' then b else parity (Nat.land r 0b1011), if rec' then parity (Nat.land r 0b1011) else parity (Nat.land r 0b1111)])
/-- State and code bits after some input. -/
def codeRun (rec' : Bool) : Nat → List Bool → Nat × List Bool
  | s, [] => (s, [])
  | s, b :: l =>
    let (s, c) := codeStep rec' s b
    let (s, d) := codeRun rec' s l
    (s, c ++ d)
/-- Three tail bits that bring a code to the zero state. -/
def codeTail (rec' : Bool) : Nat → Nat → List Bool
  | 0, _ => []
  | n + 1, s =>
    let b := codeIn rec' s false
    (rec' && b) :: codeTail rec' n (codeStep rec' s (rec' && b)).1

/-! ## The Viterbi decoder of a lane (R119) -/

/-- A path into one of the eight states: its distance, none for a state not reached, and its input bits, newest first. -/
structure Survivor where
  dist : Option Nat
  bits : List Bool
  deriving DecidableEq, Repr

def bitsOff (a b : List Bool) : Nat := ((List.zipWith xor a b).filter id).length

/-- The path that reaches state `t` from state `p` with a received pair. -/
def extend (rec' : Bool) (l : List Survivor) (rx : List Bool) (p t : Nat) : Survivor :=
  let v := l.getD p ⟨none, []⟩
  let b := codeIn rec' p (bitOf t 0)
  ⟨v.dist.map (· + bitsOff rx (codeStep rec' p b).2), b :: v.bits⟩

/-- The nearer of two paths; between equals the manual does not choose. -/
def nearer (i : Nat) (a b : Survivor) : Survivor :=
  match a.dist, b.dist with
  | none, _ => b
  | _, none => a
  | some x, some y => if x < y then a else if y < x then b else if Config.viterbiTie i then b else a

/-- One step of the decoder, numbered `i`. -/
def trellis (rec' : Bool) (i : Nat) (l : List Survivor) (rx : List Bool) : List Survivor :=
  (List.range 8).map fun t => nearer (8 * i + t) (extend rec' l rx (t / 2) t) (extend rec' l rx (t / 2 + 4) t)
def best (i : Nat) (l : List Survivor) : Survivor :=
  l.foldl (fun a b => nearer (8 * i) a b) ⟨none, []⟩

/-- Bits decided with a traceback of `tb` bits, and the paths at the end. -/
def viterbiRun (rec' : Bool) (tb : Nat) : Nat → List Survivor → List Bool → List Bool × List Survivor
  | 0, l, _ => ([], l)
  | n + 1, l, a :: b :: rx =>
    let i := (rx.length + 2) / 2
    let l := trellis rec' i l [a, b]
    let w := (best i l).bits
    let r := viterbiRun rec' tb n l rx
    if tb < w.length then (w.getD tb false :: r.1, r.2) else r
  | _, l, _ => ([], l)

/-- Decoding from the zero state; a code that was brought back to it ends there. -/
def viterbi (rec' ended : Bool) (tb : Nat) (rx : List Bool) : List Bool :=
  let r := viterbiRun rec' tb (rx.length / 2) (⟨some 0, []⟩ :: List.replicate 7 ⟨none, []⟩) rx
  let w := if ended then (r.2.getD 0 ⟨none, []⟩) else best 0 r.2
  r.1 ++ (w.bits.take tb).reverse

/-- Traceback depth of FEC_CFG (R119): 24 to 96. -/
def viterbiDepth (fecCfg : Nat) : Nat := clampN 24 96 (fieldGet fecCfg FEC_CFG.TB)

end Sys2Proof.Machine
end

