-- ==== Sys2Proof/Machine/Rill.lean ====
section
/-!
DEFINITION. The Rill air interface bit by bit (R166 to R171): PHR with its CRC and convolutional code, LDPC codewords and
the coded payload.
Readings of the manual made here: PRESUMED in log entry 12.
-/
namespace Sys2Proof.Machine
open Sys2Proof

/-- CRC-8 of the PHR: polynomial 0x07, zero start, over the 16 field bits (R168). -/
def phrCrc (l : List Bool) : Nat :=
  l.foldl (fun c u =>
    let fb := xor u (bitOf c 7)
    let c := c * 2 % 256
    if fb then Nat.xor c 7 else c) 0

/-- The 16 field bits of a PHR that is sent: whitening on. -/
def phrFields (rate len : Nat) : List Bool := bitsOf 16 (rate + 4 + len * 16)
/-- The 24 PHR bits. -/
def phrBits (rate len : Nat) : List Bool :=
  let f := phrFields rate len
  f ++ (List.range 8).map fun j => bitOf (phrCrc f) (7 - j)

/-- The 56 bits of a PHR on the air (R168). -/
def phrCoded (rate len : Nat) : List Bool := (codeRun false 0 (phrBits rate len ++ [false, false, false])).2 ++ [false, false]

/-- Base tables of R170: rows of column and shift. -/
def rillBase (m : Nat) : List (List (Nat × Nat)) :=
  match m with
  | 0x10 =>
    [ [(0, 5), (3, 17), (7, 28), (9, 7), (10, 0)]
    , [(1, 22), (4, 9), (8, 3), (10, 0), (11, 0)]
    , [(2, 14), (5, 30), (6, 11), (11, 0), (12, 0)]
    , [(0, 19), (4, 26), (6, 2), (12, 0), (13, 0)]
    , [(1, 8), (5, 15), (7, 21), (9, 0), (13, 0), (14, 0)]
    , [(2, 27), (3, 4), (8, 18), (14, 0), (15, 0)]
    , [(0, 12), (5, 6), (8, 25), (15, 0), (16, 0)]
    , [(1, 31), (3, 13), (6, 20), (16, 0), (17, 0)]
    , [(2, 1), (4, 24), (7, 10), (9, 7), (17, 0)] ]
  | 0x11 =>
    [ [(0, 3), (2, 18), (4, 9), (6, 27), (8, 14), (10, 6), (12, 9), (13, 0)]
    , [(1, 11), (3, 25), (5, 0), (7, 20), (9, 7), (11, 29), (13, 0), (14, 0)]
    , [(0, 16), (3, 5), (4, 22), (7, 12), (8, 30), (11, 2), (14, 0), (15, 0)]
    , [(1, 24), (2, 8), (5, 19), (6, 1), (9, 28), (10, 15), (12, 0), (15, 0), (16, 0)]
    , [(0, 21), (1, 4), (6, 13), (7, 26), (10, 23), (11, 10), (16, 0), (17, 0)]
    , [(2, 31), (3, 17), (4, 6), (5, 12), (8, 3), (9, 20), (12, 9), (17, 0)] ]
  | _ =>
    [ [(0, 13), (1, 2), (2, 27), (3, 8), (4, 19), (10, 5), (11, 24), (12, 11), (13, 30), (14, 16), (15, 11), (16, 0)]
    , [(0, 7), (1, 22), (2, 15), (3, 31), (4, 0), (5, 26), (6, 9), (7, 18), (8, 4), (9, 29), (15, 0), (16, 0), (17, 0)]
    , [(5, 12), (6, 3), (7, 25), (8, 20), (9, 14), (10, 28), (11, 1), (12, 17), (13, 6), (14, 23), (15, 11), (17, 0)] ]

/-- A 32-bit block seen through a base entry: bit r of the product is bit (r + e) mod 32 of the block. -/
def rotBlock (e : Nat) (b : List Bool) : List Bool := b.drop (e % 32) ++ b.take (e % 32)
def xorBlocks (a b : List Bool) : List Bool := List.zipWith xor a b
def zeroBlock : List Bool := List.replicate 32 false
/-- The 32-bit blocks of a codeword or of its information bits. -/
def blockAt (c : List Bool) (j : Nat) : List Bool := (c.drop (32 * j)).take 32

/-- The part of a base row that lies in the blocks of `c`, summed over GF(2). -/
def rowSum (row : List (Nat × Nat)) (c : List Bool) : List Bool :=
  row.foldl (fun a p => if 32 * p.1 < c.length then xorBlocks a (rotBlock p.2 (blockAt c p.1)) else a) zeroBlock

/-- Parity, row by row (R170): the sum of all rows leaves the first parity block; each row but the last then gives the block of its
last column. -/
def rillParity (m : Nat) (info : List Bool) : List Bool :=
  let base := rillBase m
  let p0 := (base.map fun r => rowSum r info).foldl xorBlocks zeroBlock
  (base.take (base.length - 1)).foldl (fun c r => c ++ rowSum r c) (info ++ p0)

/-- H times c (R170): all zero for a codeword. -/
def rillSyndrome (m : Nat) (c : List Bool) : List Bool := (rillBase m).flatMap fun r => rowSum r c

/-- Codewords of a PSDU as sent: information bits without the padding, then parity (R171). -/
def rillPayload (m : Nat) : Nat → List Bool → List Bool
  | 0, _ => []
  | n + 1, l =>
    if l.isEmpty then []
    else
      let k := rillK m
      let info := l.take k
      info ++ (rillParity m (info ++ List.replicate (k - info.length) false)).drop k ++ rillPayload m n (l.drop k)

/-- Symbols of bits in pairs, in multiples of d (R166). -/
def rillPairs : List Bool → List Int
  | a :: b :: l => ((if a then -1 else 1) * (if b then 3 else 1)) :: rillPairs l
  | _ => []

end Sys2Proof.Machine
end

