-- ==== Sys2Proof/Machine/SunFsk.lean ====
section
/-!
DEFINITION. The SUN-FSK PHY bit by bit (R128, R149, R153, R158, R159): delimiters, PHR and mode-switch PHR, the interleaver, and
frames as they are sent and received. The manual takes these from IEEE 802.15.4-2020.
Readings of the manual made here: PRESUMED in log entry 12; DESIGN CHOICE in log entry 135.
-/
namespace Sys2Proof.Machine
open Sys2Proof

/-! ## The interleaver: blocks of 16 code bits (R132, R172) -/

/-- The place of code bit `k` of a block; the map is its own inverse. -/
def interleaveAt (k : Nat) : Nat := 15 - 4 * (k % 4) - k / 4
def interleaveBlock (l : List Bool) : List Bool := (List.range 16).map fun j => l.getD (interleaveAt j) false
def interleave : Nat → List Bool → List Bool
  | 0, _ => []
  | n + 1, l => if l.isEmpty then [] else interleaveBlock (l.take 16) ++ interleave n (l.drop 16)

/-! ## PPDUs -/

/-- The first set's delimiters, of uncoded and of coded frames. -/
def sunSfd (coded : Bool) : List Bool := bitsMsb 16 (if coded then 0x6F4E else 0x904E)

/-- The PHR of a frame that is sent: no mode switch, FCS type, whitening on, length. -/
def sunPhr (fcs len : Nat) : List Bool := [false, false, false, fcs == 2, true] ++ bitsMsb 11 len

/-- Check bits of a mode-switch PHR over its 11 field bits: a BCH(15,11) code of generator x^4 + x + 1, and even parity. -/
def bchStep (r : Nat) (b : Bool) : Nat :=
  let fb := xor b (bitOf r 3)
  Nat.xor (2 * r % 16) (if fb then 3 else 0)
def switchCheck (l : List Bool) : List Bool :=
  let c := bitsMsb 4 (l.foldl bchStep 0)
  c ++ [((l ++ c).filter id).length % 2 == 1]
/-- The PHR that leads to a frame of mode `m` (R159): its FEC, page 0, modulation FSK and the number of the mode. -/
def switchPhr (m : Nat) : List Bool :=
  let f := [true, false, false, decide (8 ≤ m), false, false, false] ++ bitsMsb 4 (m % 8)
  f ++ switchCheck f

/-- Four-level modes. -/
def fourLevel (m : Nat) : Bool := isRill m || (isSun m && (m % 8 = 4 || m % 8 = 5)) || m = 0x2E

/-- Symbols of bits outside Rill, in multiples of the inner deviation: one bit to a symbol, or a pair. -/
def pairLevels : List Bool → List Int
  | a :: b :: l => ((if a then 1 else -1) * (if b then 3 else 1)) :: pairLevels l
  | _ => []
def bitLevels (m : Nat) (l : List Bool) : List Int :=
  if fourLevel m then pairLevels l else l.map fun b => if b then 1 else -1

/-- The preamble of `pre` octets. -/
def sunPreamble (m pre : Nat) : List Bool :=
  (List.replicate (if fourLevel m then 2 * pre else 4 * pre) (if fourLevel m then [false, true, true, true] else [false, true])).flatten

/-- Preamble, SFD and PHR of a mode-switch PPDU in mode `c` that leads to mode `m` (R159); it is not coded. -/
def switchBits (c m : Nat) : List Bool := sunPreamble c framePre ++ sunSfd false ++ switchPhr m

/-! ## Reception -/

/-- What a SUN-FSK PHR says: a frame with its FCS length, whitening and length, a switch to a mode, or nothing valid. -/
inductive SunPhr where
  | frame (fcs : Nat) (wht : Bool) (len : Nat)
  | switch (m : Nat)
  | bad
  deriving DecidableEq, Repr

/-- The 16 bits of a PHR (R158, R159): a length below 5 is not valid, nor is a switch whose check fails or that leaves SUN-FSK. -/
def sunPhrOf (l : List Bool) : SunPhr :=
  let at' := fun (i : Nat) => l.getD i false
  if at' 0 then
    let m := natMsb ((l.drop 7).take 4) + (if at' 3 then 8 else 0)
    if (l.drop 11).take 5 != switchCheck (l.take 11) || at' 4 || at' 5 || at' 6 || !isSun m then .bad else .switch m
  else
    let n := natMsb ((l.drop 5).take 11)
    if n < 5 then .bad else .frame (if at' 3 then 2 else 4) (at' 4) n

/-- PHR and PSDU bits of a frame from the bits after its SFD, as far as they have come; a coded frame by its code and its interleaving.
`ended` says that the tail has come too. -/
def sunPlain (coded rec' inter ended : Bool) (tb : Nat) (rx : List Bool) : List Bool :=
  if coded then viterbi rec' ended tb (if inter then interleave rx.length rx else rx) else rx

/-- Bits after the SFD of a frame with a PSDU of `n` octets: the coded frame's to the end of its tail, in whole blocks. -/
def sunLen (coded : Bool) (n : Nat) : Nat := if coded then 16 * (n + 3) else 16 + 8 * n

/-- The PSDU of a frame from the bits after its SFD. -/
def sunPsdu (coded rec' inter wht : Bool) (tb n : Nat) (rx : List Bool) : List Byte :=
  let rx := rx.take (sunLen coded n)
  let rx := if coded && inter then interleave rx.length rx else rx
  let l := if coded then viterbi rec' true tb (rx.take (2 * (16 + 8 * n + 3))) else rx
  let p := (l.drop 16).take (8 * n)
  bitsOctets n (if wht then whiten 0x1FF p else p)

end Sys2Proof.Machine
end

