-- ==== Sys2Proof/Machine/Wmbus.lean ====
section
/-!
DEFINITION. The wireless M-Bus air interface (R154 to R157): formats A and B with their CRCs, 3-out-of-6, Manchester and NRZ coding,
synchronisation words. The manual takes them from EN 13757-4.
Readings of the manual made here: PRESUMED in log entry 12; DEDUCED in log entry 136.
-/
namespace Sys2Proof.Machine
open Sys2Proof

/-! ## Formats -/

/-- CRC of EN 13757-4: polynomial 0x3D65, zero start, complemented, high octet first. -/
def wmCrcByte (c : Nat) (b : Byte) : Nat :=
  (List.range 8).foldl (fun c _ => let t := c * 2 % 65536; if bitOf c 15 then Nat.xor t 0x3D65 else t) (Nat.xor c (b.toNat * 256))
def wmCrc (l : List Byte) : List Byte := beBytes 2 (0xFFFF - l.foldl wmCrcByte 0)
def wmBlocks : Nat → List Byte → List Byte
  | 0, _ => []
  | n + 1, l => if l.isEmpty then [] else l.take 16 ++ wmCrc (l.take 16) ++ wmBlocks n (l.drop 16)
/-- A wM-Bus frame with its L-field and block CRCs (R157). -/
def wmFrame (fmtB : Bool) (l : List Byte) : List Byte :=
  if fmtB then
    let n := l.length - 1 + (if l.length ≤ 126 then 2 else 4)
    let l := putAt l 0 [BitVec.ofNat 8 n]
    if l.length ≤ 126 then l ++ wmCrc l else l.take 126 ++ wmCrc (l.take 126) ++ l.drop 126 ++ wmCrc (l.drop 126)
  else
    let l := putAt l 0 [BitVec.ofNat 8 (l.length - 1)]
    l.take 10 ++ wmCrc (l.take 10) ++ wmBlocks 128 (l.drop 10)
/-- The format a wM-Bus code and the descriptor's bit give. -/
def wmFmtB (m : Nat) (fmtB : Bool) : Bool := (fmtB || m = 0x25 || m = 0x27) && m != 0x24 && m != 0x26

/-- Octets of a received frame without its block CRCs, from its L-field. -/
def wmData (fmtB : Bool) (len : Nat) : Nat := if fmtB then len + 1 - (if len + 1 ≤ 128 then 2 else 4) else len + 1
/-- All its octets. -/
def wmTotal (fmtB : Bool) (len : Nat) : Nat := if fmtB then len + 1 else len + 1 + 2 * (1 + ceilDiv (len - 9) 16)

/-- A block with its CRC: whether it passes, and the block. -/
def wmBlock (l : List Byte) : Bool × List Byte :=
  let d := l.take (l.length - 2)
  (2 < l.length && wmCrc d == l.drop (l.length - 2), d)
def wmUnblocks : Nat → List Byte → Bool × List Byte
  | 0, _ => (true, [])
  | n + 1, l =>
    if l.isEmpty then (true, [])
    else
      let a := wmBlock (l.take 18)
      let b := wmUnblocks n (l.drop 18)
      (a.1 && b.1, a.2 ++ b.2)
/-- Every block CRC of a received frame passes, and its octets without them (R155). -/
def wmUnframe (fmtB : Bool) (l : List Byte) : Bool × List Byte :=
  let first := if fmtB then (if l.length ≤ 128 then l.length else 128) else 12
  let a := wmBlock (l.take first)
  let b := if fmtB then (if l.length ≤ 128 then (true, []) else wmBlock (l.drop first)) else wmUnblocks 128 (l.drop first)
  (a.1 && b.1, a.2 ++ b.2)

/-! ## Coding -/

/-- 3-out-of-6 words of the sixteen half-octets. -/
def wmSix : List Nat := [22, 13, 14, 11, 28, 25, 26, 19, 44, 37, 38, 35, 52, 49, 50, 41]
/-- Codes sent in Manchester, and in 3-out-of-6; the others are NRZ. -/
def wmManchester (m : Nat) : Bool := m = 0x20 || m = 0x21 || m = 0x23
def wmThreeOfSix (m : Nat) : Bool := m = 0x22

/-- Chips of an octet. -/
def wmChips (m : Nat) (b : Byte) : List Bool :=
  if wmManchester m then (bitsMsb 8 b.toNat).flatMap fun x => [!x, x]
  else if wmThreeOfSix m then bitsMsb 6 (wmSix.getD (b.toNat / 16) 0) ++ bitsMsb 6 (wmSix.getD (b.toNat % 16) 0)
  else bitsMsb 8 b.toNat

/-- An octet of received chips, and whether every symbol of it is valid (R155). -/
def wmOctet (m : Nat) (l : List Bool) : Bool × Byte :=
  if wmManchester m then
    let at' := fun (i : Nat) => l.getD i false
    ((List.range 8).all fun i => xor (at' (2 * i)) (at' (2 * i + 1)), BitVec.ofNat 8 (natMsb ((List.range 8).map fun i => at' (2 * i + 1))))
  else if wmThreeOfSix m then
    let half := fun (i : Nat) => wmSix.idxOf (natMsb ((l.drop (6 * i)).take 6))
    (half 0 < 16 && half 1 < 16, BitVec.ofNat 8 (half 0 % 16 * 16 + half 1 % 16))
  else (true, BitVec.ofNat 8 (natMsb (l.take 8)))
/-- `n` octets of received chips. -/
def wmOctets (m : Nat) : Nat → List Bool → Bool × List Byte
  | 0, _ => (true, [])
  | n + 1, l =>
    let per := (wmTiming m).2.1
    let a := wmOctet m (l.take per)
    let b := wmOctets m n (l.drop per)
    (a.1 && b.1, a.2 :: b.2)

/-! ## Preamble, synchronisation word, postamble -/

/-- Synchronisation word of a code and format. -/
def wmSync (m : Nat) (fmtB : Bool) : List Bool :=
  if wmManchester m then bitsMsb 18 0x7696
  else if wmThreeOfSix m then bitsMsb 10 0x03D
  else if m < 0x28 then bitsMsb 32 (if wmFmtB m fmtB then 0x543D543D else 0x543D54CD)
  else bitsMsb 16 (if fmtB then 0xF672 else 0xF68D)
/-- Repeated chips. -/
def wmAlternate (n : Nat) : List Bool := (List.range n).map fun i => i % 2 == 1
def wmPreamble (m : Nat) (fmtB : Bool) : List Bool := wmAlternate ((wmTiming m).2.2.1 - (wmSync m fmtB).length)

/-- Deviation in Hz (R149). -/
def wmDeviation (m : Nat) : Nat :=
  if m < 0x24 then 50000 else if m < 0x26 then 45000 else if m < 0x28 then 25000 else 2400

end Sys2Proof.Machine
end

