-- ==== Sys2Proof/Machine/AirBits.lean ====
section
/-!
DEFINITION. A frame from octets to symbols (R128, R131, R149, R153): the bits before the PSDU, the encoder that turns octets into bits
piece by piece, and the symbols of bits.
Readings of the manual made here: PRESUMED in log entry 12.
-/
namespace Sys2Proof.Machine
open Sys2Proof

/-- The PHR as bits on the air, and the encoder behind it. -/
def encStart (m fcs len : Nat) : List Bool × Encoder :=
  if isSun m then
    let l := sunPhr fcs len
    if sunCoded m then (interleave 32 (codeRun true 0 l).2, { code := (codeRun true 0 l).1 }) else (l, {})
  else if isRill m then (phrCoded (m - 0x10) len, {})
  else ([], {})

/-- Octets through the encoder, in whole coding blocks (R132). -/
def encPart (m : Nat) (e : Encoder) (l : List Byte) : List Bool × Encoder :=
  if isWmbus m then (l.flatMap (wmChips m), e)
  else
    let x := whiten e.white (octetBits l)
    let w := (List.range (8 * l.length)).foldl (fun s _ => whitenNext s) e.white
    if isRill m then (rillPayload m 64 x, { e with white := w })
    else if sunCoded m then (interleave (2 * x.length) (codeRun true e.code x).2, { white := w, code := (codeRun true e.code x).1 })
    else (x, { e with white := w })

/-- What the encoder adds at the end: tail and padding of a coded frame, the postamble of wireless M-Bus. -/
def encEnd (m : Nat) (e : Encoder) : List Bool :=
  if sunCoded m then interleave 16 (codeRun true e.code (codeTail true 3 e.code ++ [false, true, false, true, true])).2
  else if isWmbus m then wmAlternate (wmTiming m).2.2.2 else []

/-- The bits of a frame after its SFD or synchronisation word; a wireless M-Bus frame with its L-field and CRCs. -/
def frameBits (m fcs : Nat) (l : List Byte) : List Bool :=
  let a := encStart m fcs l.length
  let b := encPart m a.2 l
  a.1 ++ b.1 ++ encEnd m b.2

/-! ## Symbols, in multiples of the inner deviation -/

/-- Symbols of the bits after the SFD. -/
def dataLevels (m : Nat) (l : List Bool) : List Int := if isRill m then rillPairs l else bitLevels m l

/-- Preamble of `pre` octets (R158), or the mode's own (R157, R167), and the SFD or synchronisation word. -/
def preambleLevels (m pre : Nat) (fmtB : Bool) : List Int :=
  if isRill m then (List.range 64).map fun i => if i % 2 = 0 then 3 else -3
  else bitLevels m (if isSun m then sunPreamble m pre else wmPreamble m fmtB)
def sfdLevels (m : Nat) (fmtB : Bool) : List Int :=
  if isRill m then (bitsMsb 24 0xF350A6).map fun b => if b then 3 else -3
  else bitLevels m (if isSun m then sunSfd (sunCoded m) else wmSync m fmtB)

/-- Inner deviation of a mode in Hz (R149). -/
def modeDeviation (m : Nat) : Nat :=
  if 0x20 ≤ m then wmDeviation m
  else if 0x10 ≤ m then 33000
  else match m % 8 with
    | 0 => 25000 | 1 => 25000 | 2 => 37500 | 3 => 50000 | 4 => 16500 | _ => 24750
def deviations (m : Nat) (l : List Int) : List Int := l.map fun x => x * (modeDeviation m : Int)

/-- Deviations of the symbols up to the end of the PHR, behind the mode-switch PPDU of a cell in another mode (R159). -/
def headDevs (m : Nat) (lead : Option Nat) (pre fcs len : Nat) (fmtB : Bool) : List Int :=
  (match lead with | some c => deviations c (bitLevels c (switchBits c m)) | none => [])
    ++ deviations m (preambleLevels m pre fmtB ++ sfdLevels m fmtB ++ dataLevels m (encStart m fcs len).1)

/-- Deviations of all symbols of a frame. -/
def frameDevs (m : Nat) (lead : Option Nat) (pre fcs : Nat) (fmtB : Bool) (l : List Byte) : List Int :=
  let a := encStart m fcs l.length
  let b := encPart m a.2 l
  headDevs m lead pre fcs l.length fmtB ++ deviations m (dataLevels m (b.1 ++ encEnd m b.2))

end Sys2Proof.Machine
end

