-- ==== Sys2Proof/Machine/Keys.lean ====
section
/-!
DEFINITION. Key slots: reading them, counting uses and taking frame counters (R354, R357, R358), the operations that the radio
side and the user pages share.
-/
namespace Sys2Proof.Machine
open Sys2Proof

def State.keySlot (s : State) (n : Nat) : KeySlot := (s.keys[n]?).getD {}
def State.setKey (s : State) (n : Nat) (k : KeySlot) : State := { s with keys := setAt s.keys n k }

/-- A slot becomes EXHAUSTED: counted and raised (R358). -/
def State.keyExhaust (s : State) (n : Nat) : State :=
  let k := s.keySlot n
  if k.exhausted then s
  else (((s.setKey n { k with exhausted := true }).finc CIPH_CNT.EXH_EV).raise Pg.CIPH 0).event Pg.CIPH 0 61

/-- One use is counted (R357). -/
def State.keyUse (s : State) (n : Nat) : State :=
  let k := s.keySlot n
  let s := s.setKey n { k with uses := min (2 ^ 32 - 1) (k.uses + 1) }
  if k.limit ≤ k.uses + 1 then s.keyExhaust n else s

/-- The slot can be used: VALID and not EXHAUSTED. -/
def KeySlot.usable (k : KeySlot) : Bool := k.valid && !k.exhausted

/-- Take the next frame counter of a usable slot; the take is one use (R139, R357). After the last counter the slot is EXHAUSTED, and
CIPH_KEY_FC reads it if the slot is the selected one (R358). -/
def State.takeCounter (s : State) (n : Nat) : Nat × State :=
  let k := s.keySlot n
  let s := (s.setKey n { k with txFc := min 0xFFFFFFFF (k.txFc + 1) }).keyUse n
  (k.txFc, if k.txFc = 0xFFFFFFFF then
    (if s.fget CIPH_KEY_IDX.SLOT = n then s.rsetN CIPH_KEY_FC.addr 0xFFFFFFFF else s).keyExhaust n
  else s)

end Sys2Proof.Machine
end

