-- ==== Sys2Proof/Machine/Pool.lean ====
section
/-!
DEFINITION. The frame pool in radio RAM: cells, chains, descriptors (R231 to R234), and the lists of queues, received frames
and done frames (R235 to R238).
-/
namespace Sys2Proof.Machine
open Sys2Proof

/-- Address of a pool cell. -/
def cellAddr (c : Nat) : Nat := 0x30000000 + 128 * c

/-- Link word (R231). -/
def State.cellNext (s : State) (c : Nat) : Nat := s.mget (cellAddr c) 0 10
def State.cellEnd (s : State) (c : Nat) : Bool := s.mget (cellAddr c) 10 1 != 0

/-- A field of a frame's descriptor: word, lowest bit, width (R232, R233). -/
def State.desc (s : State) (c word lo w : Nat) : Nat := s.mget (cellAddr c + 4 * word) lo w
def State.descSet (s : State) (c word lo w x : Nat) : State := s.mset (cellAddr c + 4 * word) lo w x

def State.fLen (s : State) (c : Nat) : Nat := s.desc c 1 0 11
def State.fMode (s : State) (c : Nat) : Nat := s.desc c 1 11 6
def State.fPrecol (s : State) (c : Nat) : Nat := s.desc c 1 18 2
def State.fNbr (s : State) (c : Nat) : Option Nat := if s.desc c 1 30 1 = 1 then some (s.desc c 1 20 10) else none
def State.fEnqT (s : State) (c : Nat) : Nat := s.wordAt (cellAddr c + 8)
def State.fAttempts (s : State) (c : Nat) : Nat := s.desc c 3 3 4

/-- State of a cell; unlisted cells are FREE. -/
def State.cellState (s : State) (c : Nat) : Option CellState := (s.trf.cells.find? (fun e => e.1 == c)).map (·.2)

def cellsPut : List (Nat × CellState) → Nat → Option CellState → List (Nat × CellState)
  | [], c, some st => [(c, st)]
  | [], _, none => []
  | (b, w) :: l, c, st =>
    if c < b then (match st with | some x => (c, x) :: (b, w) :: l | none => (b, w) :: l)
    else if c = b then (match st with | some x => (c, x) :: l | none => l)
    else (b, w) :: cellsPut l c st

def State.setTrf (s : State) (f : TrfState → TrfState) : State := { s with trf := f s.trf }

/-- Cells of a pool change state; POOL.FREE follows. -/
def State.cellsTo (s : State) (cs : List Nat) (st : Option CellState) : State :=
  s.setTrf fun t => { t with cells := cs.foldl (fun l c => cellsPut l c st) t.cells }

def State.freeCount (s : State) : Nat := 1024 - s.trf.cells.length
def State.freeCells (s : State) : List Nat := (List.range 1024).filter fun c => (s.cellState c).isNone

/-- The chain that starts at a cell: at most 17 cells, none if END is not reached (R231, R234). -/
def State.chainAux (s : State) : Nat → Nat → Option (List Nat)
  | 0, _ => none
  | n + 1, c => if s.cellEnd c then some [c] else (s.chainAux n (s.cellNext c)).map (c :: ·)
def State.chain (s : State) (c : Nat) : Option (List Nat) := s.chainAux 17 c

/-- Octets a chain of k cells holds (R231). -/
def capacity (k : Nat) : Nat := if k = 0 then 0 else 96 + 124 * (k - 1)
/-- Cells a frame of `n` octets needs. -/
def cellsFor (n : Nat) : Nat := if n ≤ 96 then 1 else 1 + ceilDiv (n - 96) 124

/-- The octets of a frame in its chain. -/
def State.octetsIn (s : State) : List Nat → Nat → Bool → List Byte
  | [], _, _ => []
  | c :: l, n, first =>
    let k := if first then 96 else 124
    s.listAt (cellAddr c + (if first then 32 else 4)) (min n k) ++ s.octetsIn l (n - min n k) false
def State.octets (s : State) (c : Nat) : List Byte := s.octetsIn ((s.chain c).getD []) (s.fLen c) true

/-- Write octets into a chain. -/
def State.putOctets (s : State) : List Nat → List Byte → Bool → State
  | [], _, _ => s
  | c :: l, bs, first =>
    let k := if first then 96 else 124
    (s.setList (cellAddr c + (if first then 32 else 4)) (bs.take k)).putOctets l (bs.drop k) false

/-- Link a list of cells into a chain (R231). -/
def State.linkChain (s : State) : List Nat → State
  | [] => s
  | [c] => s.setWord (cellAddr c) (2 ^ 10)
  | c :: d :: l => (s.setWord (cellAddr c) d).linkChain (d :: l)

/-- Take `n` free cells, if there are as many; the manual does not say which, so a free value picks where among them the lane
or the scheduler begins. -/
def State.takeCells (s : State) (n : Nat) : Option (List Nat × State) :=
  let fs := s.freeCells
  if fs.length < n then none
  else
    let k := if fs.length = 0 then 0 else s.free % fs.length
    some ((fs.drop k ++ fs.take k).take n, s.freeStep)

/-- Cells of a frame in a list of cells return to FREE. -/
def State.freeChain (s : State) (cs : List Nat) : State := s.cellsTo cs none

/-! ## Queues -/

def State.queue (s : State) (q : Nat) : List Nat := (s.trf.queues[q]?).getD []
def State.setQueue (s : State) (q : Nat) (l : List Nat) : State := s.setTrf fun t => { t with queues := setAt t.queues q l }

/-- NT in us, low 32 bits (R232). -/
def State.ntUs32 (s : State) : Nat := s.nt / 32 % 2 ^ 32

/-- A frame leaves its queue (R236): RESULT and QUEUE are written and the chain moves to DONE, or a delivered frame to FREE
under AUTOFREE; `result` is coded as in R232. -/
def State.frameLeaves (s : State) (q c result : Nat) : State :=
  let s := s.setQueue q ((s.queue q).filter (· != c))
  let s := s.setTrf fun t =>
    { t with reported := t.reported.filter (fun e => e.1 != c), heldSeen := t.heldSeen.filter (fun e => e.2 != c) }
  let cs := (s.chain c).getD [c]
  let s := (s.descSet c 3 0 3 result).descSet c 3 8 6 q
  let s := if result = 1 then s.finc TRF_DELIV.DELIVERED
    else if result = 2 then s.finc TRF_DELIV.FAILED
    else if result = 5 then s.finc TRF_DROP.REMOVED
    else s.finc TRF_DROP.DROPPED
  if result = 1 && s.fbit TRF_CTRL.AUTOFREE then s.freeChain cs
  else
    let s := (s.cellsTo cs (some .done)).setTrf fun t => { t with done := t.done ++ [c] }
    (s.raise Pg.TRF 0).event Pg.TRF 0 37

end Sys2Proof.Machine
end

