-- ==== Sys2Proof/Machine/Tables.lean ====
section
/-!
DEFINITION. Cadence's tables: cells (R178 to R180), hop sequences (R182), the slot template (R17, R176), neighbours (R192 to
R203) with their drift estimators and guards.
Readings of the manual made here: DESIGN CHOICE in log entries 3, 8, 56; DEDUCED in log entries 42, 52.
-/
namespace Sys2Proof.Machine
open Sys2Proof

/-! ## Cell table (R179); an entry with an uncorrectable word counts as not VALID (R334) -/

def cellEntry (i : Nat) : Nat := 0x30030000 + 16 * i
def State.cellF (s : State) (i word lo w : Nat) : Nat := s.mget (cellEntry i + 4 * word) lo w
def State.cSlotOfs (s : State) (i : Nat) : Nat := s.cellF i 0 0 16
def State.cChOfs (s : State) (i : Nat) : Nat := s.cellF i 0 16 7
def State.cHopseq (s : State) (i : Nat) : Nat := s.cellF i 0 23 2
def State.cValid (s : State) (i : Nat) : Bool := s.cellF i 0 25 1 = 1 && !s.eccBad (cellEntry i) 16
def State.cKind (s : State) (i : Nat) : Nat := s.cellF i 0 26 2
def State.cShared (s : State) (i : Nat) : Bool := s.cellF i 0 28 1 = 1
def State.cClassA (s : State) (i : Nat) : Bool := s.cellF i 0 29 1 = 1
def State.cAckEn (s : State) (i : Nat) : Bool := s.cellF i 0 30 1 = 1
def State.cNbr (s : State) (i : Nat) : Option Nat := if s.cellF i 1 10 1 = 1 then some (s.cellF i 1 0 10) else none
def State.cMode (s : State) (i : Nat) : Nat := s.cellF i 1 11 6
def State.cClasses (s : State) (i : Nat) : Nat := s.cellF i 1 17 4
def State.cPwr (s : State) (i : Nat) : Nat := s.cellF i 1 24 8

/-- Statistics words: USED, FAIL wrap; LAST (R179). -/
def State.cellUsed (s : State) (i asn : Nat) : State :=
  (s.mset (cellEntry i + 8) 0 16 (s.cellF i 2 0 16 + 1)).fabricSet (cellEntry i + 12) (asn % 2 ^ 32)
def State.cellFail (s : State) (i : Nat) : State := s.mset (cellEntry i + 8) 16 16 (s.cellF i 2 16 16 + 1)

/-! ## Slotframes (R178) -/

def State.sfLen (s : State) (n : Nat) : Nat := s.fget (CAD_SF.LEN n)
/-- Cells of a slotframe, by first index and the index after the last. -/
def State.sfRange (s : State) (n : Nat) : Nat × Nat :=
  let b := s.fget (CAD_SF_CELLS.BASE n)
  (b, min 2048 (b + min 2048 (s.fget (CAD_SF_CELLS.CNT n))))
/-- The slotframe claims cells: enabled, with LEN and CNT of at least 1. -/
def State.sfActive (s : State) (n : Nat) : Bool :=
  s.fbit (CAD_SF.EN n) && s.sfLen n != 0 && (s.fget (CAD_SF_CELLS.CNT n)) != 0
/-- The slotframe a cell belongs to: the lowest-numbered active one whose range holds it. -/
def State.sfOf (s : State) (i : Nat) : Option Nat :=
  (List.range 4).find? fun n => s.sfActive n && (s.sfRange n).1 ≤ i && i < (s.sfRange n).2

/-- VALID cells of an active slotframe, and of all of them. -/
def State.sfCells (s : State) (n : Nat) : List Nat :=
  let r := s.sfRange n
  if s.sfActive n then ((List.range (r.2 - r.1)).map (r.1 + ·)).filter fun i => s.sfOf i = some n && s.cValid i else []
def State.allCells (s : State) : List Nat := (List.range 4).flatMap s.sfCells

/-! ## Slot template (R17, R176) -/

/-- The template's numbers in us, and SLOT_LEN in us. -/
structure Template where
  txOffset : Nat
  slotLen : Nat
  guardMin : Nat
  guardMax : Nat
  maxTx : Nat
  ackDelay : Nat
  ackGuard : Nat
  tailMin : Nat
  deriving DecidableEq, Repr

def State.tmpl (s : State) : Template :=
  { txOffset := s.fget CAD_TMPL0.TX_OFFSET, slotLen := 5000 * 2 ^ s.fget CAD_TMPL0.SLOT_LEN
    guardMin := s.fget CAD_TMPL1.RX_GUARD_MIN, guardMax := s.fget CAD_TMPL1.RX_GUARD_MAX
    maxTx := s.fget CAD_TMPL2.MAX_TX, ackDelay := s.fget CAD_TMPL2.ACK_DELAY
    ackGuard := s.fget CAD_TMPL3.ACK_GUARD, tailMin := max 400 (s.fget CAD_TMPL3.TAIL_MIN) }

/-- R17 for one air mode. -/
def Template.fitsMode (t : Template) (m : Nat) : Bool :=
  t.txOffset + t.maxTx + t.ackDelay + longestAckUs m + t.tailMin ≤ t.slotLen

/-- The conditions of R176; TAIL_MIN below 400 acts as 400 (R16). -/
def Template.wf (t : Template) : Bool :=
  t.guardMin ≤ t.guardMax && t.ackGuard < t.ackDelay && t.txOffset + t.guardMax + t.tailMin ≤ t.slotLen
    && 750 ≤ t.txOffset && 320 ≤ t.ackDelay

/-- The template check of R17 and R176 over every TX and RX cell of every enabled slotframe. -/
def State.templateOk (s : State) : Bool :=
  s.tmpl.wf && s.allCells.all fun i => (s.cKind i != 0 && s.cKind i != 1) || s.tmpl.fitsMode (s.cMode i)

/-! ## Channels (R182) -/

def State.hopLen (s : State) (q : Nat) : Nat := min 128 (s.fget (CAD_HOP_CFG.LEN q))
/-- Channel number of a cell in a slot. -/
def State.cellChan (s : State) (i asn : Nat) : Nat :=
  let q := s.cHopseq i
  let n := s.hopLen q
  if n = 0 then 0 else (((s.cad.hop[q]?).getD [])[(asn + s.cChOfs i) % n]?).getD 0
/-- Channel centre in synthesiser units, to the nearest (R182). -/
def State.chanFreq (s : State) (q ch : Nat) : Nat :=
  (roundDiv ((qHz (s.fget (CAD_HOP_BASE.F0 q)) + ch * s.fget (CAD_HOP_CFG.SPACING q) * 100 * 2048 : Nat)) 15625).toNat
def State.cellFreq (s : State) (i asn : Nat) : Nat := s.chanFreq (s.cHopseq i) (s.cellChan i asn)

/-! ## Neighbour table (R197) -/

def nbrEntry (n : Nat) : Nat := 0x30020000 + 64 * n
def State.nbrF (s : State) (n word lo w : Nat) : Nat := s.mget (nbrEntry n + 4 * word) lo w
def State.nbrSet (s : State) (n word lo w x : Nat) : State := s.mset (nbrEntry n + 4 * word) lo w x
def State.nShort (s : State) (n : Nat) : Option Nat := if s.nbrF n 0 16 1 = 1 then some (s.nbrF n 0 0 16) else none
def State.nExt (s : State) (n : Nat) : Option Nat :=
  if s.nbrF n 0 23 1 = 1 then some (s.nbrF n 1 0 32 + s.nbrF n 2 0 32 * 2 ^ 32) else none
def State.nValid (s : State) (n : Nat) : Bool := s.nbrF n 0 17 1 = 1 && !s.eccBad (nbrEntry n) 64
def State.nTsrc (s : State) (n : Nat) : Bool := s.nbrF n 0 18 1 = 1
def State.nStale (s : State) (n : Nat) : Bool := s.nbrF n 0 19 1 = 1
def State.nHold (s : State) (n : Nat) : Bool := s.nbrF n 0 20 1 = 1
def State.nKaEn (s : State) (n : Nat) : Bool := s.nbrF n 0 21 1 = 1
def State.nKaDue (s : State) (n : Nat) : Bool := s.nbrF n 0 22 1 = 1
def State.nRssi (s : State) (n : Nat) : Option Int :=
  if s.nbrF n 0 24 8 = 0x80 then none else some (signed 8 (s.nbrF n 0 24 8))
def State.nPwr (s : State) (n : Nat) : Nat := s.nbrF n 3 8 8
def State.nBe (s : State) (n : Nat) : Nat := s.nbrF n 3 16 3
def State.nBackoff (s : State) (n : Nat) : Nat := s.nbrF n 3 20 7
def State.nKey0 (s : State) (n : Nat) : Option Nat := if s.nbrF n 4 5 1 = 1 then some (s.nbrF n 4 0 5) else none
def State.nKey1 (s : State) (n : Nat) : Option Nat := if s.nbrF n 4 13 1 = 1 then some (s.nbrF n 4 8 5) else none
def State.nLastAsn (s : State) (n : Nat) : Option Nat :=
  if s.nbrF n 12 8 1 = 1 then some (s.nbrF n 11 0 32 + s.nbrF n 12 0 8 * 2 ^ 32) else none
def State.nEst (s : State) (n : Nat) : Int := signed 32 (s.nbrF n 8 0 32)

/-- RSSI of the neighbour a cell is dedicated to, when it is dedicated and the RSSI is known (R91). -/
def State.dedicatedRssi (s : State) (c : Nat) : Option Int :=
  if s.cShared c then none else match s.cNbr c with | some n => s.nRssi n | none => none

/-- The sender entry of a source address (R192): the lowest VALID entry that matches. -/
def State.senderOf (s : State) (src : MacAddr) : Option Nat :=
  (List.range 1024).find? fun n => s.nValid n && (match src with
    | .none => false
    | .short a => s.nShort n = some a.toNat
    | .ext a => s.nExt n = some a.toNat)

/-- Key slot of a received frame from a sender (R197, R164): mode 0 uses KEY0, mode 1 the key with the frame's index. -/
def State.rxKey (s : State) (n : Nat) (h : SecHdr) : Option Nat :=
  if h.keyMode = 0#2 then s.nKey0 n
  else if h.keyMode = 1#2 then
    match s.nKey0 n with
    | some k => if s.nbrF n 4 16 8 = h.keyIdx.toNat then some k
      else (match s.nKey1 n with | some k => if s.nbrF n 4 24 8 = h.keyIdx.toNat then some k else none | none => none)
    | none => match s.nKey1 n with | some k => if s.nbrF n 4 24 8 = h.keyIdx.toNat then some k else none | none => none
  else none

/-- BE after a success: MIN_BE, and never above MAX_BE (CAD_BACKOFF). -/
def State.minBe (s : State) : Nat := min (s.fget CAD_BACKOFF.MIN_BE) (s.fget CAD_BACKOFF.MAX_BE)

/-- HW fields of an entry return to their initial values (R198). -/
def State.nbrInit (s : State) (n : Nat) : State :=
  let s := { s with cad := { s.cad with sampled := s.cad.sampled.filter (· != n) } }
  let s := ((s.nbrSet n 0 24 8 0x80).nbrSet n 0 19 1 0).nbrSet n 0 22 1 0
  let s := ((s.nbrSet n 3 0 8 0).nbrSet n 3 16 3 s.minBe).nbrSet n 3 20 7 0
  let s := ((s.fabricSet (nbrEntry n + 20) 0).fabricSet (nbrEntry n + 24) 0).fabricSet (nbrEntry n + 28) 0
  let s := (s.fabricSet (nbrEntry n + 32) 0).fabricSet (nbrEntry n + 40) 0
  (((s.fabricSet (nbrEntry n + 44) 0).fabricSet (nbrEntry n + 48) 0).fabricSet (nbrEntry n + 52) 0).fabricSet (nbrEntry n + 56) 0
    |>.fabricSet (nbrEntry n + 60) 0

/-- The guard formula of R202 before the min, in us, for the slot `asn`. -/
def State.guardRaw (s : State) (n asn : Nat) : Option Nat :=
  match s.nLastAsn n with
  | none => none
  | some last =>
    let t := (asn - last) * s.slotLen
    let rate := (s.nEst n).natAbs * 1000000 + s.fget NBR_CFG.MARGIN * 2 ^ 40
    some (s.tmpl.guardMin + ceilDiv (rate * t) (2 ^ 40 * 1000000 * 32))

/-- Receive guard of a cell (R191). -/
def State.guardOf (s : State) (c asn : Nat) : Nat :=
  match (if s.cShared c then none else s.cNbr c) with
  | none => s.tmpl.guardMax
  | some n => match s.guardRaw n asn with | none => s.tmpl.guardMax | some g => min s.tmpl.guardMax g

/-- The guard is written at a resolution, and STALE and KA_DUE are judged (R202, R203, R205). -/
def State.guardUpdate (s : State) (n asn : Nat) : State :=
  let mx := s.tmpl.guardMax
  let frac := if s.fget NBR_CFG.KA_FRAC = 0 then 16 else s.fget NBR_CFG.KA_FRAC
  let raw := s.guardRaw n asn
  let s := s.nbrSet n 12 16 16 (match raw with | none => mx | some g => min mx g)
  let s := match raw with
    | some g =>
      if mx < g && !s.nStale n then
        let s := (((s.nbrSet n 0 19 1 1).finc NBR_CNT.STALE_EV).raise Pg.NBR 0).event Pg.NBR 0 35
        if s.nTsrc n then s.raise Pg.CAD 3 else s
      else s
    | none => s
  let due := match raw with
    | none => true
    | some g => 16 * s.tmpl.guardMin + frac * (mx - s.tmpl.guardMin) ≤ 16 * g
  if due && !s.nKaDue n then ((s.nbrSet n 0 22 1 1).raise Pg.NBR 1).event Pg.NBR 1 35 else s

/-! ## Contacts and the drift estimator (R199 to R201) -/

/-- EST at a contact (R201): the wish clamped; under HOLD it stays, or takes the HELD value written while HOLD was 1; frozen while
NBR_CTRL.EN is 0. -/
def State.estUpdate (s : State) (n : Nat) (want : Int) : State :=
  let lo := s.fgetI NBR_DRIFT_LO.LIMIT
  let hi := max lo (s.fgetI NBR_DRIFT_HI.LIMIT)
  let fresh := s.cad.heldNew.contains n
  let s1 := { s with cad := { s.cad with heldNew := s.cad.heldNew.filter (· != n) } }
  if !s.fbit NBR_CTRL.EN then s
  else if s.nHold n then (if fresh then s1.fabricSet (nbrEntry n + 32) (s.nbrF n 9 0 32) else s)
  else s1.fabricSet (nbrEntry n + 32) (toField 32 (clampI lo hi want))

/-- A wish as WANT holds it: one outside its 32 bits leaves a free value (R200 states none). -/
def State.wantFit (s : State) (w : Int) : State × Int :=
  if -(2 ^ 31 : Int) ≤ w && w < 2 ^ 31 then (s, w) else (s.freeStep, signed 32 (s.free % 2 ^ 32))

/-- A contact with offset `e` in the slot `asn` (R199, R200): a rate sample where there is one, then the contact's fields. -/
def State.contact (s : State) (n asn : Nat) (e : Int) : State :=
  let corr := toField 32 (signed 64 s.ntu.corr.toNat)
  let want := signed 32 (s.nbrF n 10 0 32)
  let s := match s.nLastAsn n with
    | none => s.estUpdate n want
    | some last =>
      let dt := (asn - last) * s.slotLen
      if asn < last + max 1 (s.fget NBR_CFG.DT_MIN) then s.estUpdate n want
      else
        let c := signed 32 (toField 32 ((corr : Int) - s.nbrF n 14 0 32))
        let r := roundDiv ((e - signed 32 (s.nbrF n 13 0 32) - c) * (2 ^ 40 : Nat)) dt
        let first := !s.cad.sampled.contains n
        let lim := (max 1 (s.fget NBR_OUTLIER.PPM) : Int) * (2 ^ 40 : Nat)
        if !first && lim < (r - want).natAbs * 1000000 then
          ((((s.finc NBR_CNT.OUTLIERS).fset NBR_STAT.OUTLIER 1).raise Pg.NBR 2).estUpdate n want)
        else
          let (s, w) := s.wantFit (if first then r else want + roundDiv (r - want) (2 ^ min 8 (s.fget NBR_CFG.ALPHA)))
          ({ s.fabricSet (nbrEntry n + 40) (toField 32 w) with cad := { s.cad with sampled := if first then n :: s.cad.sampled else s.cad.sampled } }).estUpdate n w
  let s := (s.fabricSet (nbrEntry n + 44) (asn % 2 ^ 32)).nbrSet n 12 0 8 (asn / 2 ^ 32)
  let s := (s.nbrSet n 12 8 1 1).fabricSet (nbrEntry n + 52) (toField 32 e)
  ((s.fabricSet (nbrEntry n + 56) corr).nbrSet n 0 19 1 0).nbrSet n 0 22 1 0

end Sys2Proof.Machine
end

