-- ==== Sys2Proof/Machine/Radio.lean ====
section
/-!
DEFINITION. What several radio blocks share: the lanes and their aborts (R124), the transmitter's abort (R134) and the tickets of
the store.
Readings of the manual made here: DEDUCED in log entry 28.
-/
namespace Sys2Proof.Machine
open Sys2Proof

/-! ## Lanes -/

def State.lane (s : State) (n : Nat) : Lane := (s.lanes[n]?).getD {}
def State.setLane (s : State) (n : Nat) (l : Lane) : State := { s with lanes := setAt s.lanes n l }
/-- State of a lane (R111): 0 IDLE, 1 SEARCH, 2 SYNC, 3 DATA, 4 DONE. -/
def State.laneSt (s : State) (n : Nat) : Nat := s.fget (LANE_STAT.STATE n)

/-- Rank of a lane for the LDPC pool: that of its highest cell, then pinned lanes (R120). -/
def State.laneRank (s : State) (n : Nat) : Nat := match (s.lane n).serves with | some v => v.rank | none => 0
/-- Codeword `a` is taken before `b`: received earlier, or in the same cycle for a lane of higher rank, then of lower number (R120). -/
def State.cwBefore (s : State) (a b : Codeword) : Bool :=
  let ra := s.laneRank a.lane
  let rb := s.laneRank b.lane
  a.recv < b.recv || (a.recv = b.recv && (ra < rb || (ra = rb && a.lane < b.lane)))
/-- A codeword joins those that wait. -/
def State.cwQueue (s : State) (x : Codeword) : State :=
  let l := s.fec.queue
  { s with fec := { s.fec with queue := l.takeWhile (fun y => s.cwBefore y x) ++ x :: l.dropWhile fun y => s.cwBefore y x } }
/-- Free decoders take waiting codewords. -/
def State.fecFill (s : State) : State :=
  (List.range 4).foldl (fun (s : State) d =>
    match s.fec.dec[d]?, s.fec.queue with
    | some none, x :: rest => { s with fec := { s.fec with queue := rest, dec := setAt s.fec.dec d (some { x with taken := s.frcN }) } }
    | _, _ => s) s

/-- A lane drops its frame: cells back to the pool, codewords out of the LDPC pool, frame fields cleared (R111, R124, R127). -/
def State.laneDrop (s : State) (n : Nat) : State :=
  let l := s.lane n
  let s := s.freeChain l.cells
  let s := s.setLane n { l with phr := none, cells := [], key := none, noKey := false, frame := none, cwIn := 0, cwOut := 0, info := []
                                toMode := none, disturbed := false }
  let s := { s with fec := { s.fec with
      queue := s.fec.queue.filter fun (x : Codeword) => x.lane != n
      dec := s.fec.dec.map fun (d : Option Codeword) => if d.map Codeword.lane = some n then none else d } }.fecFill
  if n = 0 then s.fset AGC_STAT.NB_FROZEN 0 else s

def State.laneTo (s : State) (n st : Nat) : State := s.fset (LANE_STAT.STATE n) st

/-- The digital gain that keeps P_clip of the window's gain as full scale, in dB (R116). -/
def State.searchGain (s : State) : Int := 6 * ((s.fget AGC_CNP_SLOT.SET : Int) - s.fget AGC_CNP_GAIN.CUR)
/-- A lane begins to search, with its digital gain set. -/
def State.laneSearch (s : State) (n : Nat) : State := (s.laneTo n 1).setLane n { s.lane n with dgain := s.searchGain }
/-- A lane leaves its frame for SEARCH while the search interval is open, else for IDLE (R111). -/
def State.laneRest (s : State) (n : Nat) : State := if (s.lane n).searching then s.laneSearch n else s.laneTo n 0

def State.slotAsn (s : State) : Nat := match s.slot with | some sl => sl.asn | none => s.asnNow

/-- Abort of a lane with a frame in SYNC, DATA or DONE (R124): counted with its cause, the frame discarded, the lane IDLE. -/
def State.laneAbort (s : State) (n cause : Nat) : State :=
  let st := s.laneSt n
  if st < 2 then s
  else
    let s := if 3 ≤ st then s.finc CNP_PUB_CNT.DROP else s
    let s := ((s.fset (LANE_STAT.ABORTED n) 1).fset (LANE_STAT.ABORT_CAUSE n) cause).finc (LANE_CNT.ABORTED n)
    let s := (s.fset (LANE_ERRINFO.ASN n) s.slotAsn).raise (Pg.LANE n) 1
    (s.laneDrop n).laneTo n 0

/-- A lane stops at once (R127): its frame aborts with cause 1, and it is IDLE. -/
def State.laneStop (s : State) (n : Nat) : State :=
  let s := (s.laneAbort n 1).laneTo n 0
  s.setLane n { s.lane n with searching := false, paused := false }

/-- A lane loses the receive window: SYNC and DATA abort with a cause, SEARCH goes IDLE, a frame in DONE goes on (R81). -/
def State.laneLost (s : State) (n cause : Nat) : State :=
  let s := if s.laneSt n = 4 then s else (s.laneAbort n cause).laneTo n 0
  s.setLane n { s.lane n with searching := false, paused := false }

/-- Cadence runs: enabled, or still in the slot that follows a disable (R174). -/
def State.cadRuns (s : State) : Bool := s.fbit CAD_CTRL.EN || s.cad.stopping

def State.setRfe (s : State) (f : RfeState → RfeState) : State := { s with rfe := f s.rfe }

/-- The receive window closes: AGC_CNP_SLOT takes the gain, the back-off steps and the override of a Canopy window (R91 to R94), the
wideband path and FEM_LNA go off (R87, R96). -/
def State.windowShut (s : State) : State :=
  let r := s.rfe
  let s := if r.cnpOpen then
      ((s.fset AGC_CNP_SLOT.END (s.fget AGC_CNP_GAIN.CUR)).fset AGC_CNP_SLOT.BACKOFFS (min 15 r.backoffs)).fset AGC_CNP_SLOT.OVERRIDE
        (if r.override then 1 else 0)
    else s
  { s.fset RFE_STAT.WB_ON 0 with rfe := { s.rfe with window := false, cnpOpen := false, shut := true } }

/-- The channel at the port CAD_HOP_DATA (R183). -/
def State.hopAt (s : State) : Nat := (((s.cad.hop[s.fget CAD_HOP_IDX.SEQ]?).getD [])[s.fget CAD_HOP_IDX.POS]?).getD 0

/-! ## The ticket store -/

def State.ticket (s : State) (e : Nat) : Option Ticket := ((s.hdr.entries[e]?).getD none)
def State.setTicket (s : State) (e : Nat) (t : Option Ticket) : State :=
  { s with hdr := { s.hdr with entries := setAt s.hdr.entries e t } }
def State.onTicket (s : State) (e : Nat) (f : Ticket → Ticket) : State :=
  match s.ticket e with | some t => s.setTicket e (some (f t)) | none => s

/-- Entries that hold a ticket, with it. -/
def State.tickets (s : State) : List (Nat × Ticket) :=
  (List.range 4).filterMap fun e => (s.ticket e).map fun t => (e, t)

/-- The entry whose ticket belongs to a slot, with a state at most `hi`; entries being undone are passed over. -/
def State.ticketAt (s : State) (asn : Nat) : Option (Nat × Ticket) :=
  s.tickets.find? fun p => p.2.asn = asn && !s.hdr.undoing.contains p.1

/-! ## The transmitter's abort (R134) -/

def State.txBusy (s : State) : Bool := s.fget TXM_STAT.STATE != 0

def State.rampLen (s : State) : Nat := max 2 (s.fget TXM_RAMP_CFG.RAMP_LEN)
/-- The ramp table's 32 entries (R143). -/
def State.rampTable (s : State) : List Nat :=
  (List.range 8).flatMap fun n => [s.fget (TXM_RAMP.ENTRY0 n), s.fget (TXM_RAMP.ENTRY1 n), s.fget (TXM_RAMP.ENTRY2 n), s.fget (TXM_RAMP.ENTRY3 n)]

/-- An abort cause reaches the transmitter. Before the last symbol has left, the transmission ends; in RAMP_DN the ramp is
only shortened. An ACK that has not launched will not be sent. The ramp lasts as the launch took it (R130). -/
def State.txAbort (s : State) (cause : Nat) : State :=
  match s.txm.cur with
  | none => s
  | some x =>
    let off := s.frcN + us (min x.ramp 8)
    if s.fget TXM_STAT.STATE = 0 then s
    else if s.fget TXM_STAT.STATE = 5 then { s with txm := { s.txm with cur := some { x with rampEnd := min x.rampEnd off } } }
    else
      let acks := if x.what = .ack && !x.launched then s.txm.acks.filter (fun a => !a.go) else s.txm.acks
      let s := { s with txm := { s.txm with cur := some { x with aborted := true, endAt := s.frcN, rampEnd := off }, acks := acks } }
      let s := { s with slot := s.slot.map (fun (sl : Slot) => ({ sl with lost := sl.lost || (!x.launched && sl.kind == SlotKind.tx) } : Slot)) }
      let s := ((s.fset TXM_STAT.STATE 5).fset TXM_STAT.ABORTED 1).finc TXM_CNT.ABORTS
      let s := (s.fset TXM_ERRINFO.ASN x.asn).fset TXM_ERRINFO.CAUSE cause
      let s := s.raise Pg.TXM 1
      let s := if cause = 4 then (s.fset TXM_STAT.LIVE_ERR 1).raise Pg.TXM 4 else s
      if x.what = .test then s.fset TXM_TEST.MODE 0 else s

end Sys2Proof.Machine
end

