-- ==== Sys2Proof/Machine/Modulator.lean ====
section
/-!
DEFINITION. The modulator (R128 to R130): the presets and the custom taps of the shaping filter, what the ticket store holds of a frame (R131),
and the frequency samples and the amplitude of a transmission (R143, R148).
Readings of the manual made here: DEDUCED in log entry 48.
-/
namespace Sys2Proof.Machine
open Sys2Proof

/-! ## The Gaussian presets: pulses exp(-2 (pi BT t)^2 / ln 2), with t in symbols from the middle between taps 31 and 32 -/

/-- A product of two numbers in units of 2^-64. -/
def mul64 (a b : Nat) : Nat := a * b / 2 ^ 64
/-- exp(-pi^2 / (512 ln 2)) in units of 2^-64: the BT 0.5 pulse a sixteenth of a symbol from its middle. -/
def gaussBase : Nat := 17940803941483535086
/-- The pulse at (2 k + 1) / 16 symbols from the middle for rising `k`, from the present value and the factor to the next. -/
def gaussFrom (step : Nat) : Nat → Nat → Nat → List Nat
  | 0, _, _ => []
  | n + 1, w, r => w :: gaussFrom step n (mul64 w r) (mul64 r step)
/-- The pulse at its 32 distances. The exponents of BT 1.0 are four times those of BT 0.5. -/
def gaussPulse (bt1 : Bool) : List Nat :=
  let q := if bt1 then mul64 (mul64 gaussBase gaussBase) (mul64 gaussBase gaussBase) else gaussBase
  let q8 := (List.range 7).foldl (fun x _ => mul64 x q) q
  gaussFrom q8 32 q q8

/-- A tap of a Gaussian preset: each polyphase subset is normalised to 16,384, by its tap nearest the middle. -/
def gaussTap (bt1 : Bool) (i : Nat) : BitVec 16 :=
  let p := gaussPulse bt1
  let w := fun (j : Nat) => p.getD (if j < 32 then 31 - j else j - 32) 0
  let sub := (List.range 8).map fun j => 8 * j + i % 8
  let total := (sub.map w).sum
  let tap := fun (j : Nat) =>
    let x := 16384 * w j
    x / total + (if x % total != 0 && Config.tapUp bt1 (min j (63 - j)) then 1 else 0)
  BitVec.ofNat 16 (if 28 ≤ i ∧ i ≤ 35 then 16384 - ((sub.filter (· != i)).map tap).sum else tap i)

/-- A tap of the custom store: written, or the BT 0.5 preset's. -/
def State.tap (s : State) (i : Nat) : BitVec 16 :=
  match s.txm.fir.find? (fun e => e.1 == i) with | some e => e.2 | none => gaussTap false i

/-- Content of the radio's data ports, whose values stand outside the register store. -/
def State.radioPort (s : State) (a : Nat) : Option Nat :=
  if a = CAD_HOP_DATA.addr then some s.hopAt
  else if a = TXM_FIR_DATA.addr then some (s.tap (s.fget TXM_FIR_IDX.IDX)).toNat
  else none

/-- The shaping a frame of a mode is built with now: modes S and T are rectangular whatever CUSTOM says. -/
def State.shapeOf (s : State) (m : Nat) : Shape :=
  if 0x20 ≤ m ∧ m ≤ 0x23 then .rect
  else if s.fbit TXM_FIR_CFG.CUSTOM then .custom ((List.range 64).map s.tap)
  else .gauss (decide (m < 0x10) && (m % 8 == 4 || m % 8 == 5))

/-- The 64 taps of a shaping. -/
def Shape.taps : Shape → List Int
  | .rect => (List.range 64).map fun i => if 28 ≤ i ∧ i ≤ 35 then 16384 else 0
  | .gauss b => (List.range 64).map fun i => (gaussTap b i).toInt
  | .custom l => l.map (·.toInt)

/-- An output of the filter, in Hz times 16,384, as a sample: a unit is 15625/2048 Hz, and the sample saturates. -/
def sampleOf (v : Int) : Int :=
  clampI (-32767) 32767 (v / 125000 + (if v % 125000 != 0 && Config.sampleUp v then 1 else 0))

/-- Sample `r` of a symbol, the last eight symbols' deviations newest first: the stream is zero-stuffed to 8 samples a symbol. -/
def firOut (taps win : List Int) (r : Nat) : Int :=
  (((List.range 8).map fun j => taps.getD (8 * j + r) 0 * win.getD j 0).foldl (· + ·) 0)
def firRun (taps : List Int) : List Int → List Int → List Int
  | _, [] => []
  | win, d :: l =>
    let w := (d :: win).take 8
    ((List.range 8).map fun r => sampleOf (firOut taps w r)) ++ firRun taps w l

/-- The frequency samples of symbols given by their deviations in Hz, to the last that the filter gives. -/
def shaped (sh : Shape) (devs : List Int) : List Int := firRun sh.taps [] (devs ++ List.replicate 7 0)

/-! ## What the ticket store holds of a frame (R131) -/

/-- An entry of a frame whose octets up to the splice point, or to its end, are `l`, of `len` in all; the keystream of what follows comes with
it. HEAD of a wireless M-Bus frame leaves its preamble out (R157). -/
def storeFrame (sh : Shape) (m : Nat) (lead : Option Nat) (pre fcs len : Nat) (fmtB : Bool) (l : List Byte) (splice : Option Nat)
    (ks ks0 : List Byte) : Stored :=
  let b := encPart m (encStart m fcs len).2 l
  let head := firRun sh.taps [] (headDevs m lead pre fcs len fmtB)
  { head := if isWmbus m then head.drop (8 * (preambleLevels m pre fmtB).length) else head
    body := b.1 ++ (if splice.isNone then encEnd m b.2 else []), plain := l, splice := splice, ks := ks, ks0 := ks0, enc := b.2 }

/-! ## What an observer sees -/

/-- The bits of a PN9 pattern (R148): the generator of R169 from all ones. -/
def pn9 (n : Nat) : List Bool := whiten 0x1FF (List.replicate n false)

/-- Symbol time in 1/1536 us; a symbol of wireless M-Bus is a chip, or a bit in mode N (R157). -/
def symFine (m : Nat) : Nat :=
  if isSun m then sunOctet m / (if fourLevel m then 4 else 8) else if isRill m then 7680 else (wmTiming m).1

/-- The frequency samples of `n` symbols of a test transmission (R148): a carrier, or PN9 in a mode. -/
def testSamples (cw : Bool) (m : Nat) (sh : Shape) (n : Nat) : List Int :=
  if cw then List.replicate (8 * n) 0
  else firRun sh.taps [] (deviations m (dataLevels m (pn9 (if fourLevel m then 2 * n else n))))

/-- The frequency samples of a transmission as it leaves; of a test, those it has played at the count `now`. -/
def Tx.samples (x : Tx) (now : Nat) : List Int :=
  match x.what with
  | .test => testSamples x.cw x.mode x.shape (48 * (now - x.launchAt) / symFine x.mode)
  | _ => shaped x.shape (frameDevs x.mode x.lead (match x.what with | .ack => ackPre | _ => framePre) x.fcs x.fmtB x.octets)

/-- PA drive amplitude at an FRC count, in 255ths of the final amplitude (R143): entries 0 to 31 of the ramp table before launch, 31 to 0 after the
last symbol or the abort. -/
def Tx.amplitude (x : Tx) (now : Nat) : Nat :=
  let at' := fun (i : Nat) => (x.table.getD i 0)
  let up := us x.ramp
  if now < x.launchAt then
    if x.launchAt ≤ now + up && up != 0 then at' (32 * (now + up - x.launchAt) / up) else 0
  else if now < x.endAt || (x.what = .test && !x.aborted && x.endAt ≤ x.launchAt) then 255
  else if now < x.rampEnd then at' (31 - 32 * (now - x.endAt) / (x.rampEnd - x.endAt))
  else 0

end Sys2Proof.Machine
end

