-- ==== Sys2Proof/Machine/Duty.lean ====
section
/-!
DEFINITION. The duty-cycle accountant (R247 to R253): sub-bands, used airtime, reservations held by tickets, dwell per channel
centre, admission and charging.
Readings of the manual made here: DESIGN CHOICE in log entry 45; DEDUCED in log entries 62, 63.
-/
namespace Sys2Proof.Machine
open Sys2Proof

/-- Sub-band of a channel centre (R247): the lowest-numbered enabled one whose range holds it. -/
def State.sbOf (s : State) (f : Nat) : Option Nat :=
  (List.range 8).find? fun n => s.fbit (DCA_SB_LIM.EN n) && s.fget (DCA_SB_LO.FREQ n) ≤ f && f ≤ s.fget (DCA_SB_HI.FREQ n)

def State.sbWin (s : State) (n : Nat) : Nat := max 64 (s.fget (DCA_SB_WIN.WIN n))
def State.sbLimit (s : State) (n : Nat) : Nat := min 1000000 (s.fget (DCA_SB_LIM.LIMIT n))
/-- BUDGET and RSV (R248). Airtimes are kept exactly, in units of 1/1536 us. -/
def State.sbBudget (s : State) (n : Nat) : Nat := s.sbLimit n * s.sbWin n * 1536
def State.sbReserve (s : State) (n : Nat) : Nat := min (s.sbLimit n) (s.fget (DCA_SB_RSV.RSV_A n)) * s.sbWin n * 1536

/-- Used airtime U: the current sub-window and the 64 before it. -/
def State.sbUsed (s : State) (n : Nat) : Nat := ((s.trf.subs[n]?).getD []).sum
/-- Reservations Q held by tickets. -/
def State.sbHeld (s : State) (n : Nat) : Nat :=
  (s.tickets.map fun p => match p.2.resv with | some r => if r.sb = n then r.fine else 0 | none => 0).sum

def State.dwellOn (s : State) (n : Nat) : Bool := s.fbit (DCA_SB_DWELL.DW_EN n)
def State.dwellMax (s : State) (n : Nat) : Nat := 1536000 * s.fget (DCA_SB_DWELL.DWELL_MAX n)
def State.dwellUsed (s : State) (f : Nat) : Nat :=
  match s.trf.dwell.find? (fun d => d.freq == f) with | some d => d.wins.sum | none => 0
def State.dwellHeld (s : State) (f : Nat) : Nat :=
  (s.tickets.map fun p => match p.2.resv with | some r => if r.freq = f && s.dwellOn r.sb then r.fine else 0 | none => 0).sum

/-- Track a channel centre (R251): at most 128; a centre that carries no airtime and no reservation gives its place up. None when
there is no place. -/
def State.dwellTrack (s : State) (n f : Nat) : Option State :=
  if s.trf.dwell.any (fun d => d.freq == f) then some s
  else
    let keep := if s.trf.dwell.length < 128 then s.trf.dwell
      else match s.trf.dwell.find? (fun d => d.wins.sum == 0 && s.dwellHeld d.freq == 0) with
        | some x => s.trf.dwell.filter (fun d => d.freq != x.freq)
        | none => s.trf.dwell
    if 128 ≤ keep.length then none
    else some (s.setTrf fun t => { t with dwell := keep ++ [⟨n, f, []⟩] })

/-- A transmission of `a`/1536 us on a centre is admitted (R249 to R251): classes B to D and ACKs stay out of the class-A reserve. -/
def State.dutyAdmits (s : State) (f a : Nat) (classA : Bool) : Bool :=
  if !s.fbit DCA_CTRL.EN then true
  else match s.sbOf f with
    | none => true
    | some n =>
      s.sbUsed n + s.sbHeld n + a + (if classA then 0 else s.sbReserve n) ≤ s.sbBudget n
        && (!s.dwellOn n || (s.dwellUsed f + s.dwellHeld f + a ≤ s.dwellMax n && (s.dwellTrack n f).isSome))

/-- The reservation a preparation takes, with the centre tracked. -/
def State.dutyReserve (s : State) (f a : Nat) : Option Resv × State :=
  if !s.fbit DCA_CTRL.EN then (none, s)
  else match s.sbOf f with
    | none => (none, s)
    | some n => (some ⟨n, f, a⟩, if s.dwellOn n then (s.dwellTrack n f).getD s else s)

/-- Sub-bands whose U + Q reaches BUDGET - RSV (R249). -/
def State.exhausted (s : State) (n : Nat) : Bool :=
  s.fbit DCA_CTRL.EN && s.fbit (DCA_SB_LIM.EN n) && s.sbBudget n - s.sbReserve n ≤ s.sbUsed n + s.sbHeld n
def State.exhaustBits (s : State) : Nat := maskOf ((List.range 8).filter s.exhausted)
/-- The EXHAUST bits follow the accountant; a bit that sets raises EXHAUST. -/
def State.dutyNote (s : State) : State :=
  let fresh := (List.range 8).any fun n => s.exhausted n && !bitOf (s.fget DCA_STAT.EXHAUST) n
  let s := s.fset DCA_STAT.EXHAUST s.exhaustBits
  if fresh then (s.raise Pg.DCA 0).event Pg.DCA 0 42 else s

/-- Charge airtime to the current sub-window of the centre's sub-band (R249, R250). Nothing while EN is 0. -/
def State.dutyCharge (s : State) (f a : Nat) : State :=
  if !s.fbit DCA_CTRL.EN then s
  else match s.sbOf f with
    | none => s
    | some n =>
      let add := fun (l : List Nat) => match l with | [] => [a] | x :: r => (x + a) :: r
      let s' := s.setTrf fun t => { t with subs := setAt t.subs n (add ((t.subs[n]?).getD [])) }
      let s' := if s.dwellOn n then
          ((s'.dwellTrack n f).getD s').setTrf fun t =>
            { t with dwell := t.dwell.map fun d => if d.freq = f then { d with wins := add d.wins } else d }
        else s'
      s'.dutyNote

/-- The accountant's history is lost (R253). -/
def State.dutyLose (s : State) : State :=
  s.setTrf fun t => { t with subs := List.replicate 8 [], dwell := [], dcaLost := true }

/-- The first enable after a loss judges COLD_FULL (R253). -/
def State.dutyEnable (s : State) : State :=
  if !s.trf.dcaLost then s
  else
    let full := s.fbit DCA_CTRL.COLD_FULL
    s.setTrf fun t => { t with
      subs := (List.range 8).map (fun n => if full then [s.sbBudget n] else []), dwell := [], dcaLost := false }

/-- A sub-window ends (R248, R251): the oldest leaves; frozen while EN is 0. -/
def State.dutyAdvance (s : State) (n : Nat) (dwell : Bool) : State :=
  if !s.fbit DCA_CTRL.EN then s
  else if dwell then
    s.setTrf fun t => { t with dwell := t.dwell.map fun d => if d.sb = n then { d with wins := 0 :: d.wins.take 16 } else d }
  else s.setTrf fun t => { t with subs := setAt t.subs n (0 :: ((t.subs[n]?).getD []).take 64) }

end Sys2Proof.Machine
end

