-- ==== Sys2Proof/Machine/Resolve.lean ====
section
/-!
DEFINITION. Slot resolution (R178 to R186, R202 to R205): the ranked candidate cells of a slot, malformed cells, guards.
Readings of the manual made here: DEDUCED in log entry 50.
-/
namespace Sys2Proof.Machine
open Sys2Proof

/-- Why a VALID cell of slotframe `n` is malformed, the lowest cause first (R180). -/
def State.malformedCause (s : State) (n i : Nat) : Option Nat :=
  let k := s.cKind i
  if k = 3 then some 1
  else if s.hopLen (s.cHopseq i) = 0 then some 2
  else if modeReserved (s.cMode i) || (k = 0 && s.cMode i = 0x28) then some 3
  else if s.sfLen n ≤ s.cSlotOfs i then some 4
  else if !s.tmpl.fitsMode (s.cMode i) then some 5
  else if k = 0 && (s.cNbr i).isNone && !s.cShared i then some 6
  else match s.cNbr i with
    | some m => if s.nValid m then none else some 7
    | none => none

/-- The snapshot of a cell at a resolution. -/
def State.candOf (s : State) (n i asn : Nat) : Cand :=
  { cell := i, sf := n, prio := s.fget (CAD_SF.PRIO n), kind := s.cKind i, classA := s.cClassA i, shared := s.cShared i
    ackEn := s.cAckEn i, nbr := s.cNbr i, mode := s.cMode i, classes := s.cClasses i, pwr := s.cPwr i
    chan := s.cellChan i asn, freq := s.cellFreq i asn, guard := s.guardOf i asn }

/-- The four ranking keys of R185 as one number, lowest first. -/
def Cand.rankKey (c : Cand) : Nat :=
  ((((c.prio * 4 + c.sf) * 2 + (if c.classA then 0 else 1)) * 4 + c.kind) * 2048) + c.cell

def insertCand (c : Cand) : List Cand → List Cand
  | [] => [c]
  | d :: l => if c.rankKey ≤ d.rankKey then c :: d :: l else d :: insertCand c l
def sortCands (l : List Cand) : List Cand := l.foldr insertCand []

/-- Cells that a slot's resolution looks at: those at the slot offset, and those whose SLOT_OFS no slot ever has. -/
def State.cellsLooked (s : State) (asn : Nat) : List (Nat × Nat) :=
  (List.range 4).flatMap fun n =>
    ((s.sfCells n).filter fun i => s.cSlotOfs i = asn % s.sfLen n || s.sfLen n ≤ s.cSlotOfs i).map fun i => (n, i)

/-- The ranked candidates of a slot (R184, R185). -/
def State.ranked (s : State) (asn : Nat) : List Cand :=
  sortCands (((s.cellsLooked asn).filter fun p => (s.malformedCause p.1 p.2).isNone).map fun p => s.candOf p.1 p.2 asn)

/-- One cell's part of a resolution: a malformed cell is recorded the first time, a dedicated cell's guard is recomputed. -/
def State.resolveCell (s : State) (asn n i : Nat) : State :=
  match s.malformedCause n i with
  | some c =>
    if s.cad.malformed.contains i then s
    else
      let s := { s with cad := { s.cad with malformed := i :: s.cad.malformed } }
      let s := s.rsetN CAD_ERRINFO.addr (i + c * 2 ^ 11 + asn % 2 ^ 16 * 2 ^ 16)
      ((s.fset CAD_STAT.CELL_ERR 1).finc CAD_CNT.CELL_ERR).raise Pg.CAD 2
  | none =>
    let s := { s with cad := { s.cad with malformed := s.cad.malformed.filter (· != i) } }
    if (s.cKind i = 0 || s.cKind i = 1) && !s.cShared i then
      match s.cNbr i with | some m => s.guardUpdate m asn | none => s
    else s

/-- Check bits of the entries that a resolution reads (R334): the cells of the active slotframes, and the neighbours that cells at the
slot name. Each bad word counts once, each single-bit error is corrected. -/
def State.resolveEcc (s : State) (asn : Nat) : State :=
  let nbrs := (s.cellsLooked asn).filterMap fun p => s.cNbr p.2
  (s.eccSweep fun x =>
    (List.range 4).any (fun n => s.sfActive n && cellEntry (s.sfRange n).1 ≤ x && x < cellEntry (s.sfRange n).2)
      || nbrs.any fun m => nbrEntry m ≤ x && x < nbrEntry m + 64).1

/-- Resolution of a slot (R184): checks and guards, then the ranked candidates are kept for the tick. -/
def State.resolveSlot (s : State) (asn : Nat) : State :=
  let s := s.resolveEcc asn
  let s := (s.cellsLooked asn).foldl (fun s p => s.resolveCell asn p.1 p.2) s
  { s with cad := { s.cad with resolved := some (asn, s.ranked asn) } }

/-- Clearing work is pending (R206). -/
def State.clearingWork (s : State) : Bool :=
  s.fget RFE_CAL_STAT.PEND != 0 || s.fbit TXM_MCHK_REQ.PEND || s.fbit TST_CAP_REQ.PEND

end Sys2Proof.Machine
end

