-- ==== Sys2Proof/Machine/Sluice.lean ====
section
/-!
DEFINITION. The Sluice gates (R244 to R246): the gate state at an instant of network time, admission of a launch, and the
evaluation of Tailrace step 5.
Readings of the manual made here: DEDUCED in log entry 64.
-/
namespace Sys2Proof.Machine
open Sys2Proof

def State.sluBase (s : State) : Nat := s.raw SLU_BASE_LO.addr + s.raw SLU_BASE_HI.addr * 2 ^ 32
/-- CYCLE in counts. -/
def State.sluCycle (s : State) : Nat := us (max 100 (s.fget SLU_CYCLE.CYCLE))
def State.sluCount (s : State) : Nat := clampN 1 32 (s.fget SLU_CFG.COUNT)

/-- A stretch of the cycle: first count, count after the last, entry number, gates; `tail` follows the last entry. -/
structure Stretch where
  tail : Bool := false
  lo : Nat
  hi : Nat
  entry : Nat
  gates : Nat
  deriving DecidableEq, Repr

/-- The stretches of one cycle from an offset on (R244). -/
def State.stretches (s : State) : Nat → Nat → Nat → List Stretch
  | 0, _, lo =>
    let e := s.sluCount - 1
    if lo < s.sluCycle then [⟨true, lo, s.sluCycle, e, s.fget (SLU_ENT.GATES e)⟩] else []
  | n + 1, i, lo =>
    let hi := min s.sluCycle (lo + us (s.fget (SLU_ENT.INTERVAL i)))
    (if lo < hi then [⟨false, lo, hi, i, s.fget (SLU_ENT.GATES i)⟩] else []) ++ s.stretches n (i + 1) (max lo hi)
def State.sluList (s : State) : List Stretch := s.stretches s.sluCount 0 0

/-- Entry and gates (bit 0 class B) at an instant; before BASE none and PRE. -/
def State.sluAt (s : State) (x : Nat) : Option Nat × Nat :=
  if !s.fbit SLU_CTRL.EN then (none, 7)
  else if x < s.sluBase then (none, s.fget SLU_CFG.PRE)
  else
    let p := (x - s.sluBase) % s.sluCycle
    match s.sluList.find? (fun t => t.lo ≤ p && p < t.hi) with
    | some t => (some t.entry, t.gates)
    | none => (none, 7)

/-- Bit of a class in GATES: 1 B, 2 C, 3 D. -/
def gateOpen (gates cls : Nat) : Bool := bitOf gates (cls - 1)

/-- The closing after L (R245): the first later instant at which the gate is closed, sought for one whole cycle. -/
def State.sluClosing (s : State) (l cls : Nat) : Option Nat :=
  let p := (l - s.sluBase) % s.sluCycle
  let at' := fun (t : Stretch) => if l < s.sluBase then s.sluBase + t.lo else l - p + (if p < t.lo then t.lo else s.sluCycle + t.lo)
  let shut := ((s.sluList.filter fun t => !gateOpen t.gates cls).map at').filter fun x => x ≤ l + s.sluCycle
  shut.foldl (fun m x => match m with | none => some x | some y => some (min y x)) none

/-- A launch at L with occupation `o` (counts) is admitted for a class (R245, R246). -/
def State.sluAdmits (s : State) (l o cls : Nat) : Bool :=
  if cls = 0 || !s.fbit SLU_CTRL.EN then true
  else
    gateOpen (s.sluAt l).2 cls &&
      (match s.fget SLU_CTRL.GMODE with
      | 0 => true
      | 2 => (match s.sluClosing l cls with | none => true | some c => l + us (s.fget SLU_CFG.GUARD) ≤ c)
      | _ => (match s.sluClosing l cls with | none => true | some c => l + o ≤ c))

/-- How many instants of the form start + k * cycle lie in (a, b]. -/
def passed (start cycle a b : Nat) : Nat :=
  let upTo := fun x => if x < start then 0 else (x - start) / cycle + 1
  upTo b - upTo a

/-- Tailrace step 5 for the launch instant L of the next slot: SLU_STAT and the CYCLE and ENTRY events (R246). -/
def State.sluEvaluate (s : State) (l : Nat) : State :=
  let (e, g) := s.sluAt l
  let pre := l < s.sluBase
  let en := s.fbit SLU_CTRL.EN
  let s' := ((s.fset SLU_STAT.GATES g).fset SLU_STAT.ENTRY (e.getD 0)).fsetB SLU_STAT.PRE pre
  let s' := s'.fsetB SLU_STAT.BUSY (en && !pre)
  let s' := s'.setTrf fun t => { t with sluAt := some l }
  match s.trf.sluAt with
  | none => s'
  | some a =>
    if !en then s'
    else
      let cyc := passed s.sluBase s.sluCycle a l
      let ents := ((s.sluList.filter fun t => !t.tail).map fun t => passed (s.sluBase + t.lo) s.sluCycle a l).sum
      let s' := if cyc = 0 then s' else ((s'.fadd SLU_CNT.CYCLES cyc).raise Pg.SLU 0).event Pg.SLU 0 40
      if ents = 0 then s' else s'.event Pg.SLU 1 41

end Sys2Proof.Machine
end

