-- ==== Sys2Proof/Machine/Weir.lean ====
section
/-!
DEFINITION. The Weir meters (R239 to R243): filling, colouring under RFC 2697 and RFC 2698, charging, and the colour counters.
Tokens stand in 1/32,000,000 octet, so a rate in octets per second fills exactly one unit per octet per second and count.
Readings of the manual made here: DEDUCED in log entry 62.
-/
namespace Sys2Proof.Machine
open Sys2Proof

def octetTok (n : Nat) : Nat := n * 32000000
def State.meter (s : State) (m : Nat) : Meter := (s.trf.meters[m]?).getD {}
def State.setMeter (s : State) (m : Nat) (x : Meter) : State := s.setTrf fun t => { t with meters := setAt t.meters m x }

def State.cbs (s : State) (m : Nat) : Nat := octetTok (s.fget (WEIR_CBS.SIZE m))
def State.ebs (s : State) (m : Nat) : Nat := octetTok (s.fget (WEIR_EBS.SIZE m))

/-- One fill of a meter over `dt` counts of network time (R239). -/
def State.meterFill (s : State) (m dt : Nat) : Meter :=
  let x := s.meter m
  let cir := s.fget (WEIR_CIR.RATE m)
  match s.fget (WEIR_CFG.MODE m) with
  | 1 =>
    let tc := min x.tc (s.cbs m) + cir * dt
    { x with tc := min tc (s.cbs m), te := min (x.te + (tc - s.cbs m)) (s.ebs m) }
  | 2 => { x with tc := min (x.tc + cir * dt) (s.cbs m), te := min (x.te + max cir (s.fget (WEIR_PIR.RATE m)) * dt) (s.ebs m) }
  | _ => { x with tc := min x.tc (s.cbs m), te := min x.te (s.ebs m) }

/-- Tailrace step 4: every meter is filled from the network time since the last fill; a backward step counts as none. -/
def State.weirFill (s : State) : State :=
  let dt := match s.trf.filledAt with | some a => s.nt - a | none => 0
  s.setTrf fun t => { t with meters := (List.range 32).map (fun m => s.meterFill m dt), filledAt := some s.nt }

/-- Buckets are full (R239). -/
def State.meterFull (s : State) (m : Nat) : State := s.setMeter m { s.meter m with tc := s.cbs m, te := s.ebs m }

/-- Colour of `b` tokens with pre-colour `pre` (3 acts as green): 0 green, 1 yellow, 2 red. -/
def State.colourOf (s : State) (m pre b : Nat) : Nat :=
  let x := s.meter m
  let pre := if s.fbit (WEIR_CFG.AWARE m) then pre % 3 else 0
  if s.fget (WEIR_CFG.MODE m) = 1 then
    if pre = 0 && b ≤ x.tc then 0 else if pre ≤ 1 && b ≤ x.te then 1 else 2
  else if pre = 2 || x.te < b then 2 else if pre = 1 || x.tc < b then 1 else 0

/-- What PASS takes from the buckets for a colour. -/
def State.chargeOf (s : State) (m colour b : Nat) : Nat × Nat :=
  if s.fget (WEIR_CFG.MODE m) = 1 then (match colour with | 0 => (b, 0) | 1 => (0, b) | _ => (0, 0))
  else (match colour with | 0 => (b, b) | 1 => (0, b) | _ => (0, 0))

/-- Count a frame by its colour, with the red indications (R240). -/
def State.colourCount (s : State) (m colour : Nat) (classA : Bool) : State :=
  let x := s.meter m
  let sat := fun n => min (2 ^ 32 - 1) (n + 1)
  match colour with
  | 0 => s.setMeter m { x with green := sat x.green }
  | 1 => s.setMeter m { x with yellow := sat x.yellow }
  | _ =>
    let s := ((s.setMeter m { x with red := sat x.red }).fset WEIR_STAT.RED 1).raise Pg.WEIR 0
    (if classA then s.raise Pg.WEIR 1 else s).event Pg.WEIR 0 39

/-- A squash sets a colour counter back and returns the tokens, capped at the bucket sizes of now (R219). -/
def State.weirUndo (s : State) (w : WeirUse) : State :=
  let x := s.meter w.meter
  let x := { x with tc := max x.tc (min (s.cbs w.meter) (x.tc + w.tc)), te := max x.te (min (s.ebs w.meter) (x.te + w.te)) }
  s.setMeter w.meter (match w.colour with
    | 0 => { x with green := x.green - 1 }
    | 1 => { x with yellow := x.yellow - 1 }
    | _ => { x with red := x.red - 1 })

end Sys2Proof.Machine
end

