-- ==== Sys2Proof/Machine/Elig.lean ====
section
/-!
DEFINITION. Which frame a TX cell serves (R210, R211, R230): the service order of the queues, the conditions of eligibility with
their indications, unpreparable frames, and keep-alives (R204).
Readings of the manual made here: DEDUCED in log entries 53, 60.
-/
namespace Sys2Proof.Machine
open Sys2Proof

def State.qClass (s : State) (q : Nat) : Nat := s.fget (TRF_Q_CFG.CLASS q)
def State.qEn (s : State) (q : Nat) : Bool := s.fbit (TRF_Q_CFG.EN q)

/-- The element ID of the Departure Time IE while it is recognised (R162). -/
def State.depEid (s : State) : Option Nat := if s.fbit CAD_TSIE.EN then some (s.fget CAD_TSIE.EID) else none

/-- The parsed MHR of a queued frame; none for wM-Bus and for an MPDU that cannot be parsed. -/
def State.macOf (s : State) (c : Nat) : Option MacInfo :=
  if isWmbus (s.fMode c) then none else parseMpdu (s.octets c) s.depEid
def State.ackReqOf (s : State) (c : Nat) : Bool := match s.macOf c with | some i => i.ackReq | none => false
def State.fFmtB (s : State) (c : Nat) : Bool := s.desc c 1 17 1 = 1

/-- Airtime of a frame in a cell's mode, in 1/1536 us (R172). -/
def State.fineOf (s : State) (c cell : Nat) : Nat := frameFine (s.fMode c) cell (s.fFmtB c) (s.fLen c)

/-- Key slot a queued secured frame is sent under: its neighbour's KEY0, or the queue's broadcast key (R197, R211). -/
def State.txKey (s : State) (q : Nat) (nbr : Option Nat) : Option Nat :=
  match nbr with
  | some n => s.nKey0 n
  | none => if s.fbit (TRF_Q_CFG.BKEY_V q) then some (s.fget (TRF_Q_CFG.BKEY q)) else none

/-- The lowest cause that makes a frame unpreparable for a cell (R211). -/
def State.unprep (s : State) (q c : Nat) (cand : Cand) : Option Nat :=
  let m := s.fMode c
  let key := s.txKey q (s.fNbr c)
  let k := s.keySlot (key.getD 0)
  if modeNoTx m then some 1
  else if !modesFit m cand.mode then some 2
  else if s.tmpl.maxTx * 1536 < s.fineOf c cand.mode then some 3
  else if isWmbus m then none
  else match s.macOf c with
    | none => some 8
    | some i =>
      if !i.secured then none
      else if i.level = 4 then some 4
      else if key.isNone || !k.valid || !k.rad then some 5
      else if k.exhausted then some 6
      else if i.level = 0 && s.fLen c ≤ i.hdrLen + 4 then some 7
      else if i.fcSup then some 9
      else none

/-- Report an unpreparable frame once per frame and cause (R211, R18). -/
def State.unprepReport (s : State) (q c cause asn : Nat) : State :=
  if s.trf.reported.contains (c, cause) then s
  else
    let s := s.setTrf fun t => { t with reported := (c, cause) :: t.reported }
    let s := ((s.fset HDR_STAT.UNPREP 1).finc HDR_CNT2.UNPREP).raise Pg.HDR 1
    let s := s.rsetN HDR_ERRINFO.addr (q + cause * 2 ^ 8 + asn % 2 ^ 16 * 2 ^ 16)
    if cause = 3 then
      ((s.fset TRF_STAT.TOO_LONG 1).raise Pg.TRF 2).rsetN TRF_ERRINFO.addr (c + q * 2 ^ 10 + 6 * 2 ^ 16)
    else s

/-! ## Candidates of the queues -/

/-- A ticket or an express plan holds the frame, for a slot before `asn` if one is given. -/
def State.heldBefore (s : State) (c asn : Nat) : Bool :=
  s.tickets.any (fun p => !p.2.ka && p.2.frame == c && decide (p.2.asn < asn))
    || s.hdr.plans.any (fun p => p.frame == c && decide (p.asn < asn))
def State.heldAny (s : State) (c : Nat) : Bool :=
  s.tickets.any (fun p => !p.2.ka && p.2.frame == c) || s.hdr.plans.any (fun p => p.frame == c)

/-- A queue's candidate: its first frame that nothing holds, provided every frame before it is held for an earlier slot. -/
def State.qCandidate (s : State) (asn : Nat) : List Nat → Option Nat
  | [] => none
  | c :: l => if !s.heldAny c then some c else if s.heldBefore c asn then s.qCandidate asn l else none

/-- Rank of a queue's candidate: class, PRIO, then ENQ_T as a signed 32-bit difference, then queue number (R230). -/
def State.qBefore (s : State) (a b : Nat × Nat) : Bool :=
  let ka := s.qClass a.1 * 8 + s.fget (TRF_Q_CFG.PRIO a.1)
  let kb := s.qClass b.1 * 8 + s.fget (TRF_Q_CFG.PRIO b.1)
  let d := signed 32 (toField 32 ((s.fEnqT a.2 : Int) - s.fEnqT b.2))
  if ka != kb then ka < kb else if d != 0 then d < 0 else a.1 < b.1
def State.qInsert (s : State) (x : Nat × Nat) : List (Nat × Nat) → List (Nat × Nat)
  | [] => [x]
  | y :: l => if s.qBefore x y then x :: y :: l else y :: s.qInsert x l

/-- The queues a cell considers, with their candidates, in service order (R230). -/
def State.qRanking (s : State) (cand : Cand) (asn : Nat) : List (Nat × Nat) :=
  let qs := (List.range 64).filterMap fun q =>
    if !(s.queue q).isEmpty && s.qEn q && bitOf (s.fget (TRF_Q_CFG.SFMASK q)) cand.sf && bitOf cand.classes (s.qClass q) then
      (s.qCandidate asn (s.queue q)).map fun c => (q, c)
    else none
  qs.foldl (fun l x => s.qInsert x l) []

/-- Launch instant L of a slot in network time (R245). -/
def State.launchNt (s : State) (asn : Nat) : Nat := s.epoch + asn * s.slotLen + us s.tmpl.txOffset

/-- Destination and backoff conditions of R210 item 2. -/
def State.destFits (s : State) (cand : Cand) (c : Nat) : Bool :=
  match s.fNbr c with
  | none => cand.shared && cand.nbr.isNone
  | some n => (match cand.nbr with | some m => m = n | none => true) && (!cand.shared || s.nBackoff n = 0)

/-- Occupation of a frame or keep-alive in counts (R245). -/
def State.occupation (s : State) (fine : Nat) (ackReq : Bool) (cell : Nat) : Nat :=
  fineCounts (fine + (if ackReq then s.tmpl.ackDelay * 1536 + longestAckFine cell else 0))

/-- A consideration begins: a preparation, a tick, a verdict, an enqueue. -/
def State.consider (s : State) : State := s.setTrf fun t => { t with dcaSeen := [] }

/-- The Sluice and the accountant judge a launch. The Sluice's refusal is counted once per launch instant and frame (R245); the accountant's
once for a frame, a launch instant and a consideration, which may look at it more than once (R249). -/
def State.admitLaunch (s : State) (asn cls id fine : Nat) (ackReq : Bool) (cand : Cand) : Bool × State :=
  let l := s.launchNt asn
  if !s.sluAdmits l (s.occupation fine ackReq cand.mode) cls then
    if s.trf.heldSeen.contains (l, id) then (false, s)
    else (false, ((s.setTrf fun t => { t with heldSeen := (l, id) :: t.heldSeen }).finc SLU_CNT.HELD).raise Pg.SLU 1)
  else if !s.dutyAdmits cand.freq fine (cls = 0) then
    if s.trf.dcaSeen.contains (l, id) then (false, s)
    else (false, (s.setTrf fun t => { t with dcaSeen := (l, id) :: t.dcaSeen }).finc DCA_CNT.REFUSED)
  else (true, s)

/-! ## Colour actions (R240 to R243) -/

/-- The meter that colours a queue's frames now (R243). -/
def State.meterOf (s : State) (q : Nat) : Option Nat :=
  let m := s.fget (TRF_Q_CFG.METER q)
  let mode := s.fget (WEIR_CFG.MODE m)
  if s.fbit WEIR_CTRL.EN && s.fbit (TRF_Q_CFG.MET_V q) && (mode = 1 || mode = 2) then some m else none

/-- Action for a colour of a queue's frame: 0 PASS, 1 HOLD, 2 DEMOTE, 3 DROP (R241, R242). -/
def State.colourAction (s : State) (q m colour : Nat) : Nat :=
  match colour with
  | 0 => 0
  | 1 => if s.qClass q = 0 then 0 else s.fget (WEIR_CFG.YACT m)
  | _ => if s.qClass q = 0 then 2 else s.fget (WEIR_CFG.RACT m)

/-- Colour of a queue's frame in its meter now. -/
def State.frameColour (s : State) (m c : Nat) : Nat := s.colourOf m (s.fPrecol c) (octetTok (s.fLen c))

/-- The frame's colour would hold it: it is not eligible, and nothing is charged or counted (R241). -/
def State.colourHolds (s : State) (q c : Nat) : Bool :=
  match (if s.fAttempts c = 0 then s.meterOf q else none) with
  | some m => s.colourAction q m (s.frameColour m c) = 1
  | none => false

/-- Whether a queue's candidate is eligible for a cell in a slot, with the indications of a refusal. -/
def State.judge1 (s : State) (cand : Cand) (asn q c : Nat) : Bool × State :=
  if !s.destFits cand c then (false, s)
  else match s.unprep q c cand with
    | some cause => (false, s.unprepReport q c cause asn)
    | none =>
      match s.admitLaunch asn (s.qClass q) c (s.fineOf c cand.mode) (s.ackReqOf c) cand with
      | (true, s) => (!s.colourHolds q c, s)
      | (false, s) => (false, s)

/-- The first eligible queue of a list. -/
def State.firstEligible (s : State) (cand : Cand) (asn : Nat) : List (Nat × Nat) → Option (Nat × Nat) × State
  | [] => (none, s)
  | (q, c) :: l =>
    match s.judge1 cand asn q c with
    | (true, s) => (some (q, c), s)
    | (false, s) => s.firstEligible cand asn l

/-! ## Keep-alives (R204) -/

def State.selfExt (s : State) : BitVec 64 := BitVec.ofNat 64 (s.raw CAD_SELF_EXT_LO.addr + s.raw CAD_SELF_EXT_HI.addr * 2 ^ 32)
def State.kaDst (s : State) (n : Nat) : MacAddr :=
  match s.nShort n with
  | some a => .short (BitVec.ofNat 16 a)
  | none => match s.nExt n with | some e => .ext (BitVec.ofNat 64 e) | none => .none
def State.kaFrame (s : State) (n : Nat) : List Byte :=
  keepAlive (s.kaDst n) (s.fget CAD_SELF_PAN.PAN) s.selfExt (s.nKey0 n).isSome
def State.kaInfo (s : State) (n : Nat) : MacInfo := keepAliveInfo (s.kaDst n) s.selfExt (s.nKey0 n).isSome
def State.kaFine (s : State) (n mode : Nat) : Nat := frameFine mode mode false (s.kaFrame n).length
/-- Number that stands for a neighbour's keep-alive among frames. -/
def kaId (n : Nat) : Nat := 4096 + n

/-- The neighbour that is due a keep-alive in a cell: the cell dedicated to it, class B admitted, a SUN-FSK or Rill code. -/
def State.kaDueAt (s : State) (cand : Cand) : Option Nat :=
  match cand.nbr with
  | none => none
  | some n =>
    let keyOk := match s.nKey0 n with
      | some k => (s.keySlot k).usable && (s.keySlot k).rad
      | none => true
    if s.fbit NBR_KA.AUTO && s.nKaEn n && s.nKaDue n && !cand.shared && bitOf cand.classes 1 && !isWmbus cand.mode
        && keyOk && s.kaFine n cand.mode ≤ s.tmpl.maxTx * 1536 && !s.tickets.any (fun p => p.2.ka && p.2.nbr == some n) then some n
    else none

/-- What a TX cell without a ticket would send in a slot. -/
inductive Chosen where
  | frame (q c : Nat)
  | keepAlive (n : Nat)
  deriving DecidableEq, Repr

/-- The frame or keep-alive that is eligible for a TX cell, colour aside (R186, R204, R210). -/
def State.eligible (s : State) (cand : Cand) (asn : Nat) : Option Chosen × State :=
  if !s.fbit TRF_CTRL.EN then (none, s)
  else match s.firstEligible cand asn (s.qRanking cand asn) with
    | (some (q, c), s) => (some (.frame q c), s)
    | (none, s) =>
      match s.kaDueAt cand with
      | none => (none, s)
      | some n =>
        match s.admitLaunch asn 1 (kaId n) (s.kaFine n cand.mode) true cand with
        | (true, s) => (some (.keepAlive n), s)
        | (false, s) => (none, s)

end Sys2Proof.Machine
end

