-- ==== Sys2Proof/Machine/Squash.lean ====
section
/-!
DEFINITION. Squash and undo (R216 to R220): which tickets a trigger reaches, their dependants, the counters, and the undo of a
ticket's preparation.
Readings of the manual made here: DEDUCED in log entry 60.
-/
namespace Sys2Proof.Machine
open Sys2Proof

/-- Causes of R216, coded as in HDR_SQ_LAST. -/
inductive SqCause where | ack | express | overlay | table | sluice | key | fault | ctrl
  deriving DecidableEq, Repr
def SqCause.code : SqCause → Nat
  | .ack => 1 | .express => 2 | .overlay => 3 | .table => 4 | .sluice => 5 | .key => 6 | .fault => 7 | .ctrl => 8
/-- The cause's counter byte. -/
def SqCause.fld (c : SqCause) : Fld :=
  ⟨if c.code ≤ 4 then HDR_SQ_CNT1.addr else HDR_SQ_CNT2.addr, 8 * ((c.code - 1) % 4), 8⟩

/-- Ticket `j` depends on ticket `k` (R217). -/
def Ticket.dependsOn (j k : Ticket) : Bool :=
  k.asn < j.asn && ((!j.ka && !k.ka && j.queue = k.queue) || (j.nbr.isSome && j.nbr = k.nbr))

/-- A squash can reach the ticket of an entry: building or PREPARED, or locked where the trigger allows it (R214, R218). -/
def State.reachable (s : State) (locked : Bool) (e : Nat) : Bool :=
  !s.hdr.undoing.contains e && (match s.ticket e with | some t => t.st ≤ 2 || (locked && t.st = 3) | none => false)

/-- One round of adding the dependants of the entries `l`. -/
def State.withDependants (s : State) (locked : Bool) (l : List Nat) : List Nat :=
  l ++ (List.range 4).filter fun e => !l.contains e && s.reachable locked e &&
    l.any fun k => match s.ticket e, s.ticket k with | some a, some b => a.dependsOn b | _, _ => false

/-- A trigger squashes the tickets of the entries `roots` that it can reach, with their dependants; without one it counts
nothing. The undo completes with SQUASH_DONE. -/
def State.squash (s : State) (cause : SqCause) (locked : Bool) (roots : List Nat) : State :=
  let l := roots.filter (s.reachable locked)
  let l := s.withDependants locked (s.withDependants locked (s.withDependants locked l))
  if l.isEmpty then s
  else
    let first := s.hdr.undoing.isEmpty
    let s := s.finc cause.fld
    let s := if first then s.fset HDR_SQ_LAST.CAUSE cause.code else s
    { s with hdr := { s.hdr with undoing := s.hdr.undoing ++ l, trigAt := if first then s.frcN else s.hdr.trigAt } }

/-- Entries whose tickets satisfy a condition. -/
def State.entriesWhere (s : State) (p : Ticket → Bool) : List Nat := (s.tickets.filter fun x => p x.2).map (·.1)
def State.squashWhere (s : State) (cause : SqCause) (locked : Bool) (p : Ticket → Bool) : State :=
  s.squash cause locked (s.entriesWhere p)
/-- The dependants of a COMMITTED ticket whose attempt failed (R216, cause ACK). -/
def State.squashDependants (s : State) (k : Ticket) : State := s.squashWhere .ack false fun j => j.dependsOn k

/-- A list with `x` behind the last of the members `ahead` that are still in it. -/
def insertBehind (ahead : List Nat) (x : Nat) : List Nat → List Nat
  | [] => [x]
  | y :: l => if (y :: l).any ahead.contains then y :: insertBehind ahead x l else x :: y :: l

/-- A demotion is reversed (R219): the frame is back in its queue behind those that stood before it, ahead of every later one. -/
def State.undoDemotion (s : State) (d : Demotion) : State :=
  if !(s.queue d.dst).contains d.frame then s
  else
    let s := s.setQueue d.dst ((s.queue d.dst).filter (· != d.frame))
    let s := s.setQueue d.src (insertBehind d.ahead d.frame (s.queue d.src))
    let s := s.descSet d.frame 3 7 1 (if d.before then 1 else 0)
    let s := match d.use with | some w => s.weirUndo w | none => s
    if d.aDem then s.fset TRF_STAT.A_DEMOTED (s.fget TRF_STAT.A_DEMOTED + 255) else s

/-- Undo of one ticket (R219, R220): demotions and Weir charge in reverse order, reservations released with the entry; the
frame counter stays burnt. -/
def State.undoTicket (s : State) (e : Nat) : State :=
  match s.ticket e with
  | none => s
  | some t =>
    let s := (s.setTicket e none).dutyNote
    let s := match t.weir with | some w => s.weirUndo w | none => s
    let s := t.demos.foldr (fun d s => s.undoDemotion d) s
    let s := if t.fc.isSome then s.finc HDR_BURNT.CNT else s
    let s := if t.ka then { s with hdr := { s.hdr with kas := s.hdr.kas.filter (fun k => some k.1 != t.nbr) } } else s
    s.finc HDR_CNT.SQUASHED

/-- Entries in the order in which an undo takes them: the last preparation first (R219). -/
def State.undoOrder (s : State) : List Nat → List Nat
  | [] => []
  | e :: l =>
    let q := fun (e : Nat) => match s.ticket e with | some t => t.seq | none => 0
    let r := s.undoOrder l
    r.takeWhile (fun x => q e < q x) ++ e :: r.dropWhile fun x => q e < q x

/-- us since the trigger of the squash that runs. -/
def State.squashAge (s : State) : Nat := min 255 ((s.frcN - s.hdr.trigAt) / 32)

/-- The undo of all pending squashes completes (R218), `dur` us after the trigger: HDR_SQ_LAST and the SQUASH indications. -/
def State.squashEnd (s : State) (dur : Nat) : State :=
  let l := s.hdr.undoing
  if l.isEmpty then s
  else
    let s := (s.undoOrder l).foldl (fun s e => s.undoTicket e) s
    let s := { s with hdr := { s.hdr with undoing := [] } }
    let s := ((s.fset HDR_SQ_LAST.COUNT l.length).fset HDR_SQ_LAST.DUR dur).fset HDR_SQ_LAST.ASN s.slotAsn
    (s.raise Pg.HDR 0).event Pg.HDR 0 36

/-- The undo completes now. -/
def State.squashDone (s : State) : State := s.squashEnd s.squashAge

/-- The undo completes within the step that triggers it: its duration is free up to 12 us for each ticket and 12 us more. -/
def State.squashNow (s : State) : State :=
  let room := 13 + 12 * s.hdr.undoing.length - s.squashAge
  s.freeStep.squashEnd (s.squashAge + s.free % (max 1 room))

end Sys2Proof.Machine
end

