-- ==== Sys2Proof/Machine/Overlay.lean ====
section
/-!
DEFINITION. The overlay engine Coppice (R65 to R75): reading a configuration image, the checks of its sections and records, and
the apply of the base and of a mode. The block effect of a register write is a function passed in.
Readings of the manual made here: DEDUCED in log entries 16, 20, 21.
-/
namespace Sys2Proof.Machine
open Sys2Proof

def State.setOvl (s : State) (f : OvlState → OvlState) : State := { s with ovl := f s.ovl }

/-! ## The image (R65 to R67) -/

/-- Register address an address word names. -/
def recAddr (w : Nat) : Nat := pageAddr (w / 256 % 64) (w % 256 * 4)
/-- The record is legal (R66): reserved bits zero and a register that an overlay may name. -/
def recLegal (w : Nat) : Bool := w < 2 ^ 14 && overlayNames (w / 256 % 64) (w % 256 * 4)

/-- A section header as it stands at an address of main flash. -/
structure Section where
  at' : Nat
  magic : Nat
  fmt : Nat
  target : Nat
  overlay : Bool
  mode : Nat
  count : Nat
  setVer : Nat
  next : Nat
  crc : Nat
  deriving DecidableEq, Repr

def State.sectionAt (s : State) (a : Nat) : Section :=
  { at' := a, magic := s.wordAt a, fmt := s.halfAt (a + 4), target := s.halfAt (a + 6), overlay := s.wordAt (a + 8) % 2 = 1
    mode := s.mget (a + 8) 8 3, count := s.halfAt (a + 12), setVer := s.halfAt (a + 16), next := s.wordAt (a + 20)
    crc := s.wordAt (a + 24) }
def Section.recSize (x : Section) : Nat := if x.overlay then 16 else 8
def Section.size (x : Section) : Nat := 32 + x.count * x.recSize

/-- Address words of a section's records. -/
def State.recWords (s : State) (x : Section) : List Nat := (List.range x.count).map fun i => s.wordAt (x.at' + 32 + i * x.recSize)

/-- Why a section fails, coded as `OVL_STAT.LOAD_CAUSE`, 0 if it passes; `img` is the image's first address. -/
def State.sectionCause (s : State) (img : Nat) (x : Section) : Nat :=
  if img + 65536 < x.at' + 32 then 4
  else if x.magic != 0x434F5050 then 1
  else if x.target != 0x7716 then 2
  else if x.fmt = 0 || 3 < x.fmt then 3
  else if (if x.overlay then 256 else 4096) < x.count || img + 65536 < x.at' + x.size then 4
  else if crc32 (s.listAt x.at' 24 ++ [0#8, 0#8, 0#8, 0#8] ++ s.listAt (x.at' + 28) (x.size - 28)) != x.crc then 5
  else if !(s.recWords x).all recLegal then 6 else 0

/-- The sections of an image, by NEXT, to the first whose header does not lie within it or cannot be read. -/
def State.sections (s : State) (img : Nat) : Nat → Nat → List Section
  | 0, _ => []
  | n + 1, a =>
    let x := s.sectionAt a
    x :: (if x.next = 0 || img + 65536 < a + 32 || (s.flashStop a 32).isSome then [] else s.sections img n (a + x.next))

def State.baseRecs (s : State) (x : Section) : List (Nat × Word) :=
  (List.range x.count).map fun i =>
    let a := x.at' + 32 + i * 8
    (recAddr (s.wordAt a), BitVec.ofNat 32 (s.wordAt (a + 4)))
def State.ovlRecs (s : State) (x : Section) : List OvlRec :=
  (List.range x.count).map fun i =>
    let a := x.at' + 32 + i * 16
    ⟨recAddr (s.wordAt a), BitVec.ofNat 32 (s.wordAt (a + 4)), BitVec.ofNat 32 (s.wordAt (a + 8)), BitVec.ofNat 32 (s.wordAt (a + 12))⟩

/-- A failing section is shown in OVL_ERRINFO and LOAD_CAUSE; IDX and PAGE name the first illegal record of cause 6. -/
def State.loadShow (s : State) (x : Section) (cause : Nat) : State :=
  let w := if cause = 6 then (((s.recWords x).find? (fun w => !recLegal w)).getD 0) % 2 ^ 14 else 0
  (s.fset OVL_STAT.LOAD_CAUSE cause).rsetN OVL_ERRINFO.addr
    (w + (if x.overlay then x.mode * 2 ^ 14 + 2 ^ 17 else 0))

/-- Coppice reads the sections in order; one with a read that fails fails with cause CRC (log entry 21). -/
def State.sectionsRead (s : State) (img : Nat) : State × List (Section × Nat) :=
  let s := s.flashLoose img 65536
  (s.sections img 65536 img).foldl (fun r x =>
    let q := r.1.flashTake x.at' (min x.size (img + 65536 - x.at'))
    (q.1, r.2 ++ [(x, if q.2 then s.sectionCause img x else 5)])) (s, [])

/-- A LOAD ends (R67). The whole load fails with a base section, the one of KIND 0 or the image's first; the store then keeps what it
held (log entry 21). -/
def State.loadEnd (s : State) : State :=
  let img := s.fget OVL_IMG_ADDR.ADDR / 4 * 4
  let r := s.sectionsRead img
  let secs := r.2
  let s := (r.1.setOvl fun o => { o with loading := false }).fset OVL_STAT.BUSY 0
  match secs.find? (fun p => (!p.1.overlay || p.1.at' = img) && p.2 != 0) with
  | some (x, c) => ((s.loadShow x c).fset OVL_STAT.LOAD_ERR 1).raise Pg.OVL 3
  | none =>
    let s' := match secs.find? (fun p => p.2 != 0) with
      | some (x, c) => s.loadShow x c
      | none => s.fset OVL_STAT.LOAD_CAUSE 0
    let good := (secs.filter fun p => p.2 == 0).map (·.1)
    let base := good.filter fun x => !x.overlay
    let store := good.foldl (fun (l : List (Nat × List OvlRec)) x =>
      if x.overlay then l.filter (fun e => e.1 != x.mode) ++ [(x.mode, s.ovlRecs x)] else l) []
    let s' := s'.setOvl fun o => { o with base := base.flatMap s.baseRecs, store := store }
    let s' := (s'.fset OVL_STAT.LOADED (maskOf (store.map (·.1)))).fsetB OVL_STAT.BASE_OK (!base.isEmpty)
    let s' := (s'.rsetN OVL_FMT.addr (match base with | x :: _ => x.fmt + x.setVer * 2 ^ 16 | [] => 0)).fset OVL_COUNT.BASE s'.ovl.base.length
    s'.raise Pg.OVL 2

/-- The overlay store is emptied (R67). -/
def State.ovlEmpty (s : State) : State :=
  let s := s.setOvl fun o => { o with base := [], store := [], loading := false }
  (((s.fset OVL_STAT.LOADED 0).fset OVL_STAT.BASE_OK 0).rsetN OVL_FMT.addr 0).fset OVL_COUNT.BASE 0

/-! ## Writes by Coppice -/

/-- RW bits of a register. -/
def rwBits (a : Nat) : Word := ((descOf a).map (·.rw)).getD 0#32

/-- What an overlay or restore write leaves in the RW fields (R66); other fields are written with 0. -/
def maskedValue (cur : Word) (a : Nat) (mask v : Word) : Word :=
  let m := mask &&& rwBits a
  ((cur &&& rwBits a) &&& ~~~m) ||| (v &&& m)

/-- Coppice writes a register as SUP, secure. It is no master of the interconnect, so it holds no low word of another. -/
def State.coppiceWrite (hook : WCtx → State → State) (a : Nat) (v : Word) (s : State) : State :=
  match s.judge .tanumA coppice a true with
  | .reject c => s.reject coppice (pageOf a) (offOf a) true c
  | _ =>
    let held := s.bus.held
    let port := s.radioPort a
    let s := match port with | some n => s.rsetN a n | none => s
    let own := { s with bus := { s.bus with held := held.filter fun h => h.1 == 11 } }
    let s := match own.applyWrite .tanumA coppice a v with
      | (s, some w) => hook { w with cop := true } s
      | (s, none) => s
    let s := if port.isSome then s.rset a (resetOf a) else s
    { s with bus := { s.bus with held := held.filter (fun h => h.1 != 11) ++ (s.bus.held.map fun h => (11, h.2)) } }

/-- What a register holds now, a data port included: the "current" of R66. -/
def State.current (s : State) (a : Nat) : Word := ((s.radioPort a).map (BitVec.ofNat 32 ·)).getD (s.rget a)

/-- All bits of OVL_DIRTY clear. -/
def State.dirtyClear (s : State) : State := (s.rsetN OVL_DIRTY_LO.addr 0).rsetN OVL_DIRTY_HI.addr 0

/-- APPLY_BASE (R68). -/
def State.applyBase (hook : WCtx → State → State) (s : State) : State :=
  (s.ovl.base.foldl (fun s r => s.coppiceWrite hook r.1 r.2) s).dirtyClear

/-! ## Mode applies (R69 to R73) -/

def State.ovlOf (s : State) (m : Nat) : Option (List OvlRec) := (s.ovl.store.find? (fun e => e.1 == m)).map (·.2)

/-- The writes of an apply in order: address, mask and value. -/
def State.applyWrites (s : State) (m : Nat) : List (Nat × Word × Word) :=
  let new := (s.ovlOf m).getD []
  let old := (s.ovlOf (s.fget OVL_MODE.CUR)).getD []
  let gone := old.filter fun r => !new.any fun x => x.addr == r.addr
  (if m = s.fget OVL_MODE.CUR then [] else gone.map fun r => (r.addr, r.mask, r.base)) ++ new.map fun r => (r.addr, r.mask, r.value)

/-- The register store after the writes, without any block effect: what the checks of R70 judge. -/
def State.afterWrites (s : State) (l : List (Nat × Word × Word)) : State :=
  l.foldl (fun s w =>
    let v := maskedValue (s.rget w.1) w.1 w.2.1 w.2.2
    s.rset w.1 ((s.rget w.1 &&& ~~~(rwBits w.1)) ||| v)) s

/-- Why an apply is rejected (R70, R177), coded as REJ_CAUSE; with both causes, the template's (log entry 20). -/
def State.applyCause (s : State) (m : Nat) : Nat :=
  let l := s.applyWrites m
  let t := s.afterWrites l
  if !t.templateOk || ((s.fbit CAD_CTRL.EN || s.cad.stopping) && t.slotLen != s.slotLen) then 1
  else if l.any fun w => match s.judge .tanumA coppice w.1 true with | .reject _ => true | _ => false then 2 else 0

/-- A mode apply (R69 to R73): rejected as a whole and audited, or written; the mode changes at once while Cadence is disabled,
else at the next tick, whose slot's ticket and all later ones are squashed. -/
def State.modeApply (hook : WCtx → State → State) (m : Nat) (s : State) : State :=
  let cur := s.fget OVL_MODE.CUR
  let s := ((s.setOvl fun o => { o with pending := none }).fset OVL_STAT.PENDING 0)
  match s.applyCause m with
  | 0 =>
    let l := s.applyWrites m
    let run := s.fbit CAD_CTRL.EN || s.cad.stopping
    let s := if run then s.squashWhere .overlay true fun t => s.slotAsn < t.asn else s
    let s := l.foldl (fun s w => s.coppiceWrite hook w.1 (maskedValue (s.current w.1) w.1 w.2.1 w.2.2)) s
    let s := ((s.dirtyClear).fset OVL_COUNT.LAST l.length).raise Pg.OVL 0
    let s := s.audit coppice 1 Pg.OVL 0 l.length cur m
    let s := s.setOvl fun o => { o with atTick := some (m, run) }
    if run then s else (s.fset OVL_MODE.CUR m).event Pg.OVL 0 43
  | c =>
    let s := ((s.fset OVL_STAT.APPLY_REJ 1).fset OVL_STAT.REJ_CAUSE c).raise Pg.OVL 1
    s.audit coppice 1 Pg.OVL 0 0 cur (m + 2 ^ 31)

/-- The tick of the first slot after an apply (R73). -/
def State.modeAtTick (s : State) (asn : Nat) : State :=
  match s.ovl.atTick with
  | none => s
  | some (m, wait) =>
    let s := (s.setOvl fun o => { o with atTick := none }).rsetN OVL_LAST_ASN_LO.addr asn
    let s := s.rsetN OVL_LAST_ASN_HI.addr (asn / 2 ^ 32)
    if wait then (s.fset OVL_MODE.CUR m).event Pg.OVL 0 43 else s

/-- Step 6 of a Tailrace that ends before the slot `next` (R71): the request is due at once, or at a boundary of slotframe 0.
The next slot resolves again under the new configuration. -/
def State.modeAtTail (hook : WCtx → State → State) (next : Nat) (s : State) : State :=
  match s.ovl.pending with
  | none => s
  | some (m, now) =>
    if now || (s.sfLen 0 != 0 && next % s.sfLen 0 = 0) then
      let s := s.modeApply hook m
      if s.ovl.atTick.isNone then s else s.resolveSlot next
    else s

/-- Cadence stops before the first slot of the mode last applied: CUR and MODE_CHANGED follow at once, as while it is disabled; LAST_ASN
waits for the first slot (log entry 20). -/
def State.modeAtStop (s : State) : State :=
  match s.ovl.atTick with
  | some (m, true) => ((s.setOvl fun o => { o with atTick := some (m, false) }).fset OVL_MODE.CUR m).event Pg.OVL 0 43
  | _ => s

/-- A request that is pending while Cadence does not run is applied at once (R72). -/
def State.ovlSettle (hook : WCtx → State → State) (s : State) : State :=
  match s.ovl.pending with
  | some (m, _) => if s.fbit CAD_CTRL.EN || s.cad.stopping then s else s.modeApply hook m
  | none => s

/-! ## The OVL page -/

def State.ovlRefuse (s : State) : State := s.fset OVL_STAT.REQ_REFUSED 1

/-- OVL_REQ with GO (R71). -/
def State.ovlRequest (s : State) : State :=
  let m := s.fget OVL_REQ.MODE
  if !s.fbit OVL_CTRL.EN || (s.ovlOf m).isNone then s.ovlRefuse
  else
    let s := if s.ovl.pending.isSome then s.fset OVL_STAT.REPLACED 1 else s
    ((s.setOvl fun o => { o with pending := some (m, s.fbit OVL_REQ.WHEN) }).fset OVL_STAT.PENDING 1).fset OVL_MODE.PEND m

/-- OVL_CMD (R67, R68, R71). -/
def State.ovlCmd (hook : WCtx → State → State) (c : Nat) (s : State) : State :=
  if c = 0 then s
  else if !s.fbit OVL_CTRL.EN || s.ovl.loading then s.ovlRefuse
  else match c with
    | 1 => (s.setOvl fun o => { o with loading := true }).fset OVL_STAT.BUSY 1
    | 2 => if s.fbit CAD_CTRL.EN then s.ovlRefuse else s.applyBase hook
    | _ => (s.setOvl fun o => { o with pending := none }).fset OVL_STAT.PENDING 0

/-- Effect of a write to the OVL page, with the block effects of the registers that an apply writes. -/
def ovlHook (hook : WCtx → State → State) (w : WCtx) (s : State) : State :=
  if w.off = 0x004 then
    if w.one OVL_CTRL.SRST then
      (s.ovlEmpty.setOvl fun o => { o with pending := none, atTick := none }).srstPage Pg.OVL
    else s
  else if w.off = 0x040 then
    let s := s.fset OVL_REQ.GO 0
    if w.one OVL_REQ.GO then s.ovlRequest else s
  else if w.off = 0x048 then s.ovlCmd hook (fieldGet w.wo OVL_CMD.CMD)
  else if w.off = 0x04C then s.fset OVL_IMG_ADDR.ADDR (s.fget OVL_IMG_ADDR.ADDR / 4 * 4)
  else s

/-- The image has been read and checked; reads of flash wait for an operation in the controller to end (R339). -/
def execLoadDone (s : State) : Host.Outcome State Fault Refusal :=
  .next (if s.ovl.loading && s.flash.op.isNone then s.loadEnd else s)

end Sys2Proof.Machine
end

