-- ==== Sys2Proof/Machine/Receive.lean ====
section
/-!
DEFINITION. What a lane decodes (R119, R150, R155, R156, R158, R159, R168 to R171): synchronisation words, PHRs and PSDUs from the bits
that its demodulator gives.
Readings of the manual made here: PRESUMED in log entry 12; DEDUCED in log entry 136.
-/
namespace Sys2Proof.Machine
open Sys2Proof

/-! ## Synchronisation words -/

/-- The words that a lane of a code listens for, each with the code and the format B that it stands for (R150, R156, R158). -/
def syncWords (m : Nat) : List (List Bool × Nat × Bool) :=
  let wm := fun (c : Nat) (b : Bool) => (wmSync c b, c, b)
  if isSun m then [(sunSfd false, m % 8, false), (sunSfd true, m % 8 + 8, false)]
  else if isRill m then [(bitsMsb 24 0xF350A6, m, false)]
  else if m = 0x28 then [wm 0x22 false, wm 0x24 false, wm 0x25 true]
  else if m = 0x24 || m = 0x25 then [wm 0x24 false, wm 0x25 true]
  else if m = 0x26 || m = 0x27 then [wm 0x26 false, wm 0x27 true]
  else if m < 0x28 then [wm m false] else [wm m false, wm m true]

/-- The words within `tol` bit errors of the last bits received that are nearest to them. -/
def syncHits (words : List (List Bool × Nat × Bool)) (tol : Nat) (rx : List Bool) : List (Nat × Bool) :=
  let l := words.filterMap fun w =>
    if rx.length < w.1.length then none else some (bitsOff w.1 (rx.drop (rx.length - w.1.length)), w.2)
  let l := l.filter fun x => x.1 ≤ tol
  let low := l.foldl (fun m x => min m x.1) tol
  (l.filter fun x => x.1 = low).map (·.2)

/-! ## PHR -/

/-- What a PHR says: a frame, a switch to a mode (R159), a symbol that is none (R155), or nothing valid. -/
inductive Head where
  | frame (p : Phr)
  | switch (m : Nat)
  | symbol
  | bad
  deriving DecidableEq, Repr

/-- The Rill PHR of 54 code bits (R168). -/
def rillHead (tb : Nat) (rx : List Bool) : Head :=
  let l := viterbi false true tb (rx.take 54)
  let f := l.take 16
  let v := natMsb f.reverse
  let len := v / 16 % 2048
  if (l.drop 16).take 8 != (List.range 8).map (fun j => bitOf (phrCrc f) (7 - j)) || v % 4 = 3 || bitOf v 3 || bitOf v 15 || len < 5 then .bad
  else .frame { mode := 0x10 + v % 4, len := len, wht := bitOf v 2 }

/-- The PHR behind a word of a code, or the L-field of wireless M-Bus, from the bits after the word. -/
def headOf (code : Nat) (fmtB : Bool) (tb : Nat) (rsc inter : Bool) (rx : List Bool) : Head :=
  if isRill code then rillHead tb rx
  else if isSun code then
    match sunPhrOf ((sunPlain (sunCoded code) rsc inter false tb rx).take 16) with
    | .frame fcs wht len => .frame { mode := code, len := len, fcs := fcs, wht := wht, rsc := rsc, inter := inter }
    | .switch m => if sunCoded code then .bad else .switch m
    | .bad => .bad
  else
    let x := wmOctet code (rx.take (wmTiming code).2.1)
    if x.1 then .frame { mode := code, len := wmData fmtB x.2.toNat, fcs := 0, fmtB := fmtB } else .symbol

/-! ## PSDU -/

/-- A PSDU with its FCS (R122, R158). -/
def checkedFcs (fcs : Nat) (l : List Byte) : RxFrame :=
  let b := l.take (l.length - fcs)
  { octets := l, crcOk := (if fcs = 2 then fcs2 b else fcs4 b) == l.drop (l.length - fcs), fcs := fcs }

/-- A wireless M-Bus frame: symbols and block CRCs checked, block CRCs removed (R155). -/
def wmReceived (code : Nat) (fmtB : Bool) (rx : List Bool) : RxFrame :=
  let n := wmTotal fmtB (wmOctet code (rx.take (wmTiming code).2.1)).2.toNat
  let a := wmOctets code n rx
  let b := wmUnframe fmtB a.2
  { octets := b.2, crcOk := a.1 && b.1, fmtB := fmtB, fcs := 0 }

/-- The frame of a PHR: from the bits after the word, of Rill from the information bits of its codewords. -/
def frameOf (p : Phr) (tb : Nat) (rx info : List Bool) : RxFrame :=
  if isRill p.mode then
    let x := info.take (8 * p.len)
    checkedFcs 4 (bitsOctets p.len (if p.wht then whiten 0x1FF x else x))
  else if isSun p.mode then checkedFcs p.fcs (sunPsdu (sunCoded p.mode) p.rsc p.inter p.wht tb p.len rx)
  else wmReceived p.mode p.fmtB rx

/-! ## LDPC -/

/-- Information bits that codeword `j` of a frame carries (R171). -/
def cwInfo (p : Phr) (j : Nat) : Nat := min (rillK p.mode) (8 * p.len - j * rillK p.mode)
/-- The hard decisions of a decoder with the padding as known zeros (R171). -/
def cwWord (p : Phr) (j : Nat) (l : List Bool) : List Bool :=
  (List.range 576).map fun i => if cwInfo p j ≤ i ∧ i < rillK p.mode then false else l.getD i false

end Sys2Proof.Machine
end

