-- ==== Sys2Proof/Machine/Pins.lean ====
section
/-!
DEFINITION. The GPIO pins with their alternate functions and event units (R465 to R467, R418), and the general ADC (R468).
Readings of the manual made here: DESIGN CHOICE in log entries 13, 126; DEDUCED in log entries 127, 131.
-/
namespace Sys2Proof.Machine
open Sys2Proof

/-! ## Pins -/

/-- A pin's alternate function as GPIO_ALT selects it; 3 acts as 0. -/
def State.pinAlt (s : State) (bank : Bool) (pin : Nat) : Nat :=
  let a := if bank then (if pin < 16 then GPIO_ALTB_LO.addr else GPIO_ALTB_HI.addr)
    else (if pin < 16 then GPIO_ALTA_LO.addr else GPIO_ALTA_HI.addr)
  s.raw a / 4 ^ (pin % 16) % 4 % 3

/-- The HFXO is requested: in RUN, DOZE and NAP, and during excursions (R416). -/
def State.hfxoOn (s : State) : Bool := s.pwr.st = .run || s.pwr.st = .doze || s.pwr.st = .nap

/-- The level of a pulse output (R269). -/
def State.pulsePin (s : State) (c : Nat) : Bool := s.ntu.pulseOn.any (fun p => p.1 == c) != s.fbit (NTU_PUL_CFG.POL c)

/-- What the device drives a pin to, if it drives it (R465, R466). Bank A holds its levels in HIBERNATE and OFF, where bank B floats (R418); the
pulse outputs go on in HIBERNATE (R270). -/
def State.pinDriven (s : State) (bank : Bool) (pin : Nat) : Option Bool :=
  if s.pwr.st = .hibernate || s.pwr.st = .off || s.pwr.st = .backup then
    match (if bank || s.pwr.st = .backup then none else s.pwr.heldA) with
    | some (on, high) =>
      if s.pwr.st = .hibernate && 8 ≤ pin && pin < 12 && s.pinAlt false pin = 1 then some (s.pulsePin (pin - 8))
      else if bitOf on pin then some (bitOf high pin) else none
    | none => none
  else
    let gpio := if bitOf (s.raw (if bank then GPIO_OEB.addr else GPIO_OEA.addr)) pin then
        some (bitOf (s.raw (if bank then GPIO_OUTB.addr else GPIO_OUTA.addr)) pin) else none
    match s.pinAlt bank pin with
    | 1 =>
      if !bank && pin < 8 then none
      else if !bank && pin < 12 then some (s.pulsePin (pin - 8))
      else if !bank && pin = 12 then none
      else if !bank && pin = 16 then some (s.sys.tcxo && s.hfxoOn)
      else if bank && pin = 0 then some (bitOf (s.fget PSP_CLK.MODE) 1)
      else if bank && pin < 5 then some (s.psp.sel != some (pin - 1))
      else if bank && pin < 13 then none
      else gpio
    | 2 =>
      if pin < 16 then
        let n := pin / 4 + (if bank then 4 else 0)
        if s.fget (TMR_CH_CFG.MODE n (pin % 4)) = 1 then some (bitOf (s.tmrGet n).out (pin % 4)) else none
      else gpio
    | _ => gpio

/-- The board drives a pin. -/
def State.padDriven (s : State) (bank : Bool) (pin : Nat) : Bool := bitOf (if bank then s.pads.drvB else s.pads.drvA) pin
/-- The pull of a pin that nothing drives (R466): with both enabled the pull-up only; with none it stays low (log entry 126). -/
def State.pinPull (s : State) (bank : Bool) (pin : Nat) : Bool :=
  bitOf (s.raw (if bank then GPIO_PUB.addr else GPIO_PUA.addr)) pin

/-- Level of a pin: what the device drives, what the board does, or its pull. -/
def State.pinLevel (s : State) (bank : Bool) (pin : Nat) : Bool :=
  match s.pinDriven bank pin with
  | some l => l
  | none => if s.padDriven bank pin then bitOf (if bank then s.pads.b else s.pads.a) pin else s.pinPull bank pin

/-- IN of a bank (R466): an AIN pin reads 0. -/
def State.pinsIn (s : State) (bank : Bool) : Nat :=
  maskOf ((List.range 18).filter fun p => !(!bank && p < 8 && s.pinAlt bank p = 1) && s.pinLevel bank p)

/-- Both banks' IN, as the event units read them. -/
def State.inBoth (s : State) : Nat × Nat := (s.pinsIn false, s.pinsIn true)

/-- The event unit fires on the way from the levels `b` to the levels `c` (R467). -/
def State.evFires (s : State) (b c : Nat × Nat) (n : Nat) : Bool :=
  let v := s.raw (GPIO_EV.addr n)
  let pin := v % 32
  let x := if bitOf v 5 then bitOf b.2 pin else bitOf b.1 pin
  let y := if bitOf v 5 then bitOf c.2 pin else bitOf c.1 pin
  bitOf v 8 && pin < 18 && x != y && (match v / 64 % 4 with | 0 => y | 1 => x | 2 => true | _ => false)

/-- Event units see the edges since the levels were `b`. -/
def State.pinEdges (s : State) (b : Nat × Nat) : State :=
  if s.dom .lp != .on then s
  else
    let l := (List.range 8).filter (s.evFires b s.inBoth)
    (l.foldl (fun s n => s.raise Pg.GPIO n) s).publishAll (l.map (79 + ·))

/-- An action that may move pins. -/
def State.withPins (s : State) (f : State → State) : State := (f s).pinEdges s.inBoth
/-- Effect of a register write that may move pins. -/
def State.pinWrite (s : State) (w : WCtx) : State := s.pinEdges (s.rsetN w.addr w.old).inBoth

/-- A change of level wakes the device if its pin is enabled (R409). -/
def State.pinWake (s : State) (bank : Bool) (pin : Nat) : State :=
  if bitOf (s.raw (if bank then PWR_WAKEPIN_B.addr else PWR_WAKEPIN_A.addr)) pin then s.wakeEvent (if bank then 2 else 1) else s

/-- Effect of a write to the GPIO page. -/
def gpioHook (w : WCtx) (s : State) : State :=
  if w.off = 0x004 then (if w.one GPIO_CTRL.SRST then s.withPins fun s => s.srstPage Pg.GPIO else s)
  else if (0x040 ≤ w.off && w.off < 0x050) || (0x058 ≤ w.off && w.off < 0x078) then s.pinWrite w
  else s

/-- A bit of a number put to a level. -/
def bitPut (m n : Nat) (level : Bool) : Nat := if bitOf m n = level then m else if level then m + 2 ^ n else m - 2 ^ n

/-- The board drives a pad to a level. -/
def execGpioEvent (bank : Bool) (pin : Fin 18) (level : Bool) (s : State) : Host.Outcome State Fault Refusal :=
  if s.padDriven bank pin.val && bitOf (if bank then s.pads.b else s.pads.a) pin.val = level then .next s
  else
    let p := pin.val
    let t := s.withPins fun s => { s with pads :=
      if bank then { s.pads with b := bitPut s.pads.b p level, drvB := bitPut s.pads.drvB p true }
      else { s.pads with a := bitPut s.pads.a p level, drvA := bitPut s.pads.drvA p true } }
    .next (if t.pinLevel bank p = s.pinLevel bank p then t else t.pinWake bank p)

/-- Active level of the MOTION input (R371, R466). -/
def State.motion (s : State) : Bool := s.pinAlt false 12 = 1 && (s.pinLevel false 12 != s.fbit UPD_GATE.MOT_POL)

/-! ## ADC -/

def State.adcSet (s : State) (b : Bool) : State := { s with pads := { s.pads with adcRun := b } }

/-- A result lands (R468); it overwrites an unread one with OVR. -/
def State.adcLand (s : State) (data : BitVec 12) : State :=
  let s := if s.fbit ADC_RES.VALID then (s.fset ADC_STAT.OVR 1).raise Pg.ADC 1 else s
  let s := (((s.fset ADC_RES.DATA data.toNat).fset ADC_RES.VALID 1).raise Pg.ADC 0).adcSet (s.fbit ADC_CFG.CONT)
  s.event Pg.ADC 0 78

/-- Effect of a write to the ADC page. -/
def adcHook (w : WCtx) (s : State) : State :=
  if w.off = 0x004 then
    let s := if w.clears ADC_CTRL.EN then s.adcSet false else s
    if w.one ADC_CTRL.SRST then (s.adcSet false).srstPage Pg.ADC else s
  else if w.off = 0x044 then
    let s := s.fset ADC_CMD.START 0
    if w.one ADC_CMD.START then s.adcStart else s
  else s

/-- A conversion starts by a write of START, or by an event on C42. -/
def execAdcStart (m : Option Master) (s : State) : Host.Outcome State Fault Refusal :=
  match m with
  | some m => .next (s.writeReg adcHook ⟨m, .base⟩ ADC_CMD.addr 1#32)
  | none => .next (s.deliver 42).1

def execAdcResult (data : BitVec 12) (s : State) : Host.Outcome State Fault Refusal :=
  .next (if s.pads.adcRun then s.adcLand data else s)

/-- A read of ADC_RES clears VALID; a result of the same cycle lands after it, without OVR. -/
def execAdcResRead (m : Master) (sameCycleResult : Option (BitVec 12)) (s : State) : Host.Outcome State Fault Refusal :=
  let s := s.readAs m ADC_RES.addr fun s => (s.fset ADC_RES.VALID 0, s.raw ADC_RES.addr)
  match sameCycleResult with
  | some d => .next (if s.pads.adcRun then s.adcLand d else s)
  | none => .next s

end Sys2Proof.Machine
end

