-- ==== Sys2Proof/Machine/NetTime.lean ====
section
/-!
DEFINITION. The network time unit's commands (R256 to R270) and the NTU page: samples and their judgement, slews and steps,
holdover, the sleep-counter handoff and the pulse outputs.
Readings of the manual made here: DEDUCED in log entries 70, 71, 72.
-/
namespace Sys2Proof.Machine
open Sys2Proof

def State.setNtu (s : State) (f : NtuState → NtuState) : State := { s with ntu := f s.ntu }

/-- 2^40 units of rate per unit; whole seconds of counts. -/
def secs (n : Nat) : Nat := n * second

/-! ## RATE and P (R257, R261, R262) -/

/-- A rate beyond the limit acts as the limit and is marked (R257). -/
def State.rateMark (s : State) (r : Int) : State := if rateLimit < (r.natAbs : Int) then s.fset NTU_STAT.RATE_CLAMP 1 else s
/-- RATE changes: the NTU re-anchors under the rate that was in force. -/
def State.setRate (s : State) (r : Int) : State :=
  ((s.reAnchorAt).rsetN NTU_RATE.addr (toField 32 (clampI (-rateLimit) rateLimit r))).rateMark r
/-- P is replaced. -/
def State.setP (s : State) (d : Int) : State := s.setNtu fun n => { n with pend := d, slewFrac := 0 }

/-- A change of RATE, or of P, at once or at the transmitter's return to IDLE (R137, R261). -/
def State.setRateWhenIdle (s : State) (r : Int) : State :=
  if s.txBusy then s.setNtu fun n => { n with deferRate := some r } else s.setRate r
def State.setPWhenIdle (s : State) (d : Int) : State :=
  if s.txBusy then s.setNtu fun n => { n with deferP := some d } else s.setP d

/-! ## Pulse outputs (R269, R270) -/

def State.pulT (s : State) (c : Nat) : Nat := s.raw (NTU_PUL_T_LO.addr c) + s.raw (NTU_PUL_T_HI.addr c) * 2 ^ 32
def State.pulPer (s : State) (c : Nat) : Nat := max 1 (s.raw (NTU_PUL_PER.addr c))
def State.setPulT (s : State) (c t : Nat) : State :=
  (s.rsetN (NTU_PUL_T_LO.addr c) t).rsetN (NTU_PUL_T_HI.addr c) (t / 2 ^ 32)

/-- A start edge: the output is asserted and the producer raised; a one-shot waits for no further target. -/
def State.pulseFire (s : State) (c : Nat) : State :=
  let s := s.setNtu fun n => { n with pulseOn := (c, s.frcN) :: n.pulseOn.filter (fun p => p.1 != c) }
  let s := if s.fget (NTU_PUL_CFG.MODE c) = 2 then s else s.setNtu fun n => { n with armed := n.armed.filter (· != c) }
  s.event Pg.NTU c (16 + c)

/-- The output is released; a one-shot channel returns to off. -/
def State.pulseRelease (s : State) (c : Nat) : State :=
  let s := s.setNtu fun n => { n with pulseOn := n.pulseOn.filter (fun p => p.1 != c) }
  if s.fget (NTU_PUL_CFG.MODE c) = 1 && !s.ntu.armed.contains c then s.fset (NTU_PUL_CFG.MODE c) 0 else s

/-- A forward step from `old` to `new` carries NT past a target: one firing, LATE, and a periodic target beyond NT (R270). -/
def State.pulseStepped (s : State) (old new c : Nat) : State :=
  let t := s.pulT c
  if s.ntu.armed.contains c && old < t && t ≤ new then
    let s := ((s.pulseFire c).fset (NTU_PUL_CFG.LATE c) 1).raise Pg.NTU 6
    if s.fget (NTU_PUL_CFG.MODE c) = 2 then s.setPulT c (t + ((new - t) / s.pulPer c + 1) * s.pulPer c) else s
  else s

/-! ## Explicit steps (R263) -/

/-- SYNC sets with a sample: SYNC_GAIN is raised and the holdover timer restarts. -/
def State.syncGain (s : State) : State :=
  ((s.fset NTU_STAT.SYNC 1).raise Pg.NTU 0).setNtu fun n => { n with holdFrom := s.frcN }

/-- Whether an interval of network time crosses a slot boundary, forwards. -/
def State.crosses (s : State) (old new : Nat) : Bool :=
  s.epoch ≤ new && (if old < s.epoch then true else (old - s.epoch) / s.slotLen < (new - s.epoch) / s.slotLen)

/-- ASN_SKIP (R15, R263). -/
def State.asnSkip (s : State) : State := (s.fset CAD_STAT.ASN_SKIP 1).raise Pg.CAD 6

/-- The pending step is applied (R263, R270). No slot is run for a boundary that it crosses (R15). -/
def State.stepApply (s : State) : State :=
  match s.ntu.step with
  | none => s
  | some (d, sampled) =>
    let old := s.nt
    let s := s.setNtu fun n => { n with
      offset := n.offset + BitVec.ofInt 64 d, corr := n.corr + BitVec.ofInt 64 d, pend := 0, slewFrac := 0, step := none
      stepDue := false, rejRun := 0 }
    let new := s.nt
    let s := s.squashWhere .ctrl false fun _ => true
    let s := ((s.finc NTU_CNT.STEPS).raise Pg.NTU 3).event Pg.NTU 5 21
    let s := s.fset NTU_STAT.STEP_ADVISE 0
    let s := if sampled && s.fget NTU_SRC.SEL != 3 then s.syncGain else s
    if 0 < d then
      let s := (List.range 4).foldl (fun s c => s.pulseStepped old new c) s
      if s.cadRuns && s.crosses old new then
        s.asnSkip.setNtu fun n => { n with lastAsn := n.lastAsn.map fun a => max a s.asnNow }
      else s
    else s

/-- A request is applied at once while Cadence is stopped and the transmitter idle. -/
def State.stepTry (s : State) : State := if s.cadRuns || s.txBusy then s else s.stepApply
/-- The start of a Tailrace applies a pending step, or leaves it to the transmitter's return to IDLE. -/
def State.stepAtTail (s : State) : State :=
  if s.ntu.step.isNone then s else if s.txBusy then s.setNtu fun n => { n with stepDue := true } else s.stepApply

/-- The transmitter is back in IDLE: what waited for it takes effect (R137, R261, R263). -/
def State.ntuIdle (s : State) : State :=
  let s := match s.ntu.deferRate with
    | some r => (s.setRate r).setNtu fun n => { n with deferRate := none }
    | none => s
  let s := match s.ntu.deferP with
    | some d => (s.setP d).setNtu fun n => { n with deferP := none }
    | none => s
  if s.ntu.stepDue || !s.cadRuns then s.stepApply else s

/-! ## The transmitter returns to IDLE -/

def State.setTx (s : State) (x : Option Tx) : State := { s with txm := { s.txm with cur := x } }

/-- The transmitter returns to IDLE: FEM_PA is released PA_LAG later (R96), and what waited for IDLE takes effect (R137). -/
def State.txToIdle (s : State) : State :=
  let s' := ((s.setTx none).fset TXM_STAT.STATE 0).setRfe fun r => { r with paUntil := s.frcN + us (s.fget RFE_FEM_TIM.PA_LAG) }
  State.ntuIdle { s' with txm := { s'.txm with backFrom := s.frcN } }

/-- A ramp-up whose launch is not made ends in IDLE. -/
def State.rampStop (s : State) : State := if s.fget TXM_STAT.STATE = 1 then s.txToIdle else s

/-! ## Samples (R259 to R261) -/

/-- A correction sample: counts, source code (SEL), neighbour, taken from an ACK. -/
structure Sample where
  d : Int
  sel : Nat
  nbr : Nat
  ack : Bool
  deriving DecidableEq, Repr

/-- The source a sample comes from: a neighbour, or 1024 plus its SEL. -/
def Sample.src (x : Sample) : Nat := if x.sel = 0 then x.nbr else 1024 + x.sel

/-- The sample comes from the current source (R260). -/
def State.currentSrc (s : State) (x : Sample) : Bool := x.sel != 0 || (s.fbit NTU_SRC.NBR_V && s.fget NTU_SRC.NBR = x.nbr)
/-- The sample is considered: selected, and of a candidate source (R259, R260). -/
def State.considered (s : State) (x : Sample) : Bool :=
  s.fbit NTU_CTRL.DISC && s.fget NTU_SRC.SEL = x.sel && x.sel != 3
    && (s.currentSrc x || !s.fbit NTU_SRC.NBR_V
      || (match s.ntu.srcAt with | some a => secs (max 1 (s.fget NTU_SRC.SRC_TO)) ≤ s.frcN - a | none => true))

/-- Case 3 of R261. -/
def State.sampleReject (s : State) (x : Sample) : State :=
  let cur := s.currentSrc x
  let us := clampI (-32767) 32767 (roundDiv x.d 32)
  let w := toField 16 us + (if x.sel = 0 then x.nbr * 2 ^ 16 else 0) + x.sel * 2 ^ 26 + (if x.ack then 2 ^ 28 else 0)
  let s := ((s.finc NTU_CNT.REJECTED).rsetN NTU_ERRINFO.addr w).raise Pg.NTU 5
  if cur then
    let s := s.setNtu fun n => { n with rejRun := n.rejRun + 1 }
    if 3 ≤ s.ntu.rejRun then (s.fset NTU_STAT.STEP_ADVISE 1).raise Pg.NTU 4 else s
  else s

/-- Cases 2 and 4 of R261: P is replaced, and RATE is disciplined. -/
def State.sampleSlew (s : State) (x : Sample) (prev : Option Nat) : State :=
  let quiet := s.ntu.pend = 0 && s.ntu.deferP.isNone
  let base := s.ntu.deferRate.getD s.rate
  let fg := min 8 (s.fget NTU_CFG.FGAIN)
  let s' := match prev with
    | some a =>
      if quiet && secs 2 ≤ s.frcN - a then
        s.setRateWhenIdle (base + roundDiv (x.d * (2 ^ 40 : Nat)) ((s.frcN - a) * 2 ^ fg))
      else s
    | none => s
  s'.setPWhenIdle x.d

/-- A sample reaches the NTU (R261). -/
def State.ntuSample (s : State) (x : Sample) : State :=
  if !s.considered x then s
  else
    let sync := s.fbit NTU_STAT.SYNC
    let thr := s.fget NTU_CFG.REJ_THR
    if sync && thr != 0 && us thr < x.d.natAbs then s.sampleReject x
    else
      let prev := (s.ntu.prev.find? (fun p => p.1 == x.src)).map (·.2)
      let s := s.setNtu fun n => { n with
        prev := (x.src, s.frcN) :: n.prev.filter (fun p => p.1 != x.src), rejRun := 0, holdFrom := s.frcN
        srcAt := if x.sel = 0 then some s.frcN else n.srcAt }
      let s := if x.sel = 0 then (s.fset NTU_SRC.NBR x.nbr).fset NTU_SRC.NBR_V 1 else s
      let s := ((s.finc NTU_CNT.ACCEPTED).rsetN NTU_SAMPLE.addr (toField 32 x.d)).fset NTU_STAT.HOLDOVER 0
      if !sync && s.fbit NTU_CTRL.AUTO_STEP then (s.setNtu fun n => { n with step := some (x.d, true), stepDue := false }).stepTry
      else
        let s := if sync then s else s.syncGain
        s.sampleSlew x prev

/-- A capture on the NTU's Culvert consumer (R259, SEL 2). -/
def State.ntuCapture (s : State) : State :=
  let per := 32000 * max 1 (s.fget NTU_EXT.PERIOD)
  let m := ((s.nt : Int) - s.epoch) % per
  let d : Int := if 2 * m ≤ per then -m else per - m
  if (per : Int) ≤ 2 * (d.natAbs : Int) then s else s.ntuSample ⟨d, 2, 0, false⟩

def execExternalCapture (t : Frc) (s : State) : Host.Outcome State Fault Refusal :=
  let s := { s with cul := { s.cul with latched := s.cul.latched.filter (· != 41) } }
  .next (s.advance t).ntuCapture

/-! ## The NTU page -/

/-- NTU_CMD (R263, R264). -/
def State.ntuCmd (s : State) (c : Nat) : State :=
  match c with
  | 1 =>
    let d := signed 64 (s.raw NTU_STEP_LO.addr + s.raw NTU_STEP_HI.addr * 2 ^ 32)
    (s.setNtu fun n => { n with step := some (d, false), stepDue := false }).stepTry
  | 2 => s.setNtu fun n => { n with step := none, stepDue := false }
  | 3 => (s.fset NTU_STAT.SYNC 0).fset NTU_STAT.HOLDOVER 0
  | 4 => ((s.fset NTU_STAT.SYNC 1).fset NTU_STAT.HOLDOVER 0).setNtu fun n => { n with holdFrom := s.frcN }
  | _ => s

/-- A write to a pulse channel's CFG or T re-arms it from the values now held (R269). -/
def State.pulseArm (s : State) (c : Nat) : State :=
  let m := s.fget (NTU_PUL_CFG.MODE c)
  let s := s.setNtu fun n => { n with armed := (if m = 1 || m = 2 then [c] else []) ++ n.armed.filter (· != c) }
  if m = 1 || m = 2 then s else s.setNtu fun n => { n with pulseOn := n.pulseOn.filter (fun p => p.1 != c) }

/-- Effect of a write to the NTU page. -/
def ntuHook (w : WCtx) (s : State) : State :=
  if w.off = 0x060 then (s.rsetN NTU_RATE.addr w.old).setRateWhenIdle (signed 32 w.new)
  else if w.off = 0x090 then s.ntuCmd (fieldGet w.wo NTU_CMD.CMD)
  else if w.off = 0x094 then (if w.view = .base then s.ntuSample ⟨signed 32 w.wo, 1, 0, false⟩ else s)
  else if w.off = 0x09C then
    if s.fbit CAD_CTRL.EN then
      ((s.rsetN NTU_EPOCH_LO.addr w.lowOld).rsetN NTU_EPOCH_HI.addr w.old).fset NTU_STAT.EPOCH_REFUSED 1
    else s
  else if 0x0C0 ≤ w.off && w.off < 0x100 && w.off % 0x10 != 0xC then
    (s.pulseArm ((w.off - 0x0C0) / 0x10)).pinEdges (s.rsetN w.addr w.old).inBoth
  else s

/-- The commands of NTU_CMD: a write of the code. -/
def State.ntuCmdWrite (s : State) (m : Master) (c : Nat) : State :=
  s.writeReg ntuHook ⟨m, .base⟩ NTU_CMD.addr (BitVec.ofNat 32 c)
def execNtuStep (m : Master) (s : State) : Host.Outcome State Fault Refusal := .next (s.ntuCmdWrite m 1)
def execNtuCancel (m : Master) (s : State) : Host.Outcome State Fault Refusal := .next (s.ntuCmdWrite m 2)
def execSyncClr (m : Master) (s : State) : Host.Outcome State Fault Refusal := .next (s.ntuCmdWrite m 3)
def execSyncSet (m : Master) (s : State) : Host.Outcome State Fault Refusal := .next (s.ntuCmdWrite m 4)
def execNtuFwcorr (a : Acc) (v : Word) (s : State) : Host.Outcome State Fault Refusal :=
  .next (s.writeReg ntuHook a NTU_FWCORR.addr v)
def execNtuRateWrite (a : Acc) (v : Word) (s : State) : Host.Outcome State Fault Refusal :=
  .next (s.writeReg ntuHook a NTU_RATE.addr v)
/-- A write of NTU_EPOCH_HI or NTU_EPOCH_LO. -/
def execNtuEpochWrite (a : Acc) (hi : Bool) (v : Word) (s : State) : Host.Outcome State Fault Refusal :=
  .next (s.writeReg ntuHook a (if hi then NTU_EPOCH_HI.addr else NTU_EPOCH_LO.addr) v)
/-- A write of one of a pulse channel's four registers, in the order of their offsets. -/
def execNtuPulWrite (a : Acc) (ch : Fin 4) (reg : Fin 4) (v : Word) (s : State) : Host.Outcome State Fault Refusal :=
  .next (s.writeReg ntuHook a (NTU_PUL_CFG.addr ch.val + 4 * reg.val) v)

/-! ## Time passing -/

def execReAnchor (t : Frc) (s : State) : Host.Outcome State Fault Refusal := .next (s.advance t).reAnchorAt

/-- The holdover timer reaches ENTER (R264). -/
def execHoldover (t : Frc) (s : State) : Host.Outcome State Fault Refusal :=
  let s := s.advance t
  if s.fbit NTU_STAT.SYNC && !s.fbit NTU_STAT.HOLDOVER && s.fget NTU_SRC.SEL != 3
      && secs (max 1 (s.fget NTU_HOLD.ENTER)) ≤ s.frcN - s.ntu.holdFrom then
    .next (((s.fset NTU_STAT.HOLDOVER 1).raise Pg.NTU 2).setNtu fun n => { n with holdEnter := s.frcN })
  else .next s

/-- Holdover has lasted MAX: SYNC clears (R264), unless SEL 3 leaves SYNC to commands (R259). -/
def execSyncLost (t : Frc) (s : State) : Host.Outcome State Fault Refusal :=
  let s := s.advance t
  if s.fbit NTU_STAT.SYNC && s.fbit NTU_STAT.HOLDOVER && s.fget NTU_SRC.SEL != 3 && secs (max 1 (s.fget NTU_HOLD.MAX)) ≤ s.frcN - s.ntu.holdEnter then
    .next ((((s.fset NTU_STAT.SYNC 0).fset NTU_STAT.HOLDOVER 0).raise Pg.NTU 1).event Pg.NTU 4 20)
  else .next s

/-- A window of 8,192 LFXO ticks ends while both oscillators run (R266). -/
def execLfcalWindow (t : Frc) (count : BitVec 27) (s : State) : Host.Outcome State Fault Refusal :=
  let s := s.advance t
  if s.sleepStart.isSome || s.ntu.handoff || !s.sys.hfxoStable || s.fbit SYS_STAT.LFXO_FAIL then .next s
  else .next ((s.fset NTU_LFCAL.COUNT count.toNat).fset NTU_LFCAL.VALID 1)

/-- EP6 of SLUMBER or HIBERNATE, or the loss of the HFXO: FRC is handed to the sleep counter (R266, R459). -/
def State.sleepHandoff (s : State) : State :=
  let valid := s.fbit NTU_LFCAL.VALID
  let s := if valid then s else s.fset NTU_STAT.SLP_UNCAL 1
  let now := (s.frcN, s.fbit NTU_CTRL.SLP_COMP && valid)
  s.setNtu fun n => { n with entry := some (s.sleepStart.getD now), handoff := true }

/-- The advance of FRC over `n` LFXO ticks (R267). -/
def State.sleepAdvance (s : State) (comp : Bool) (n : Nat) : Nat :=
  if comp then (roundDiv (n * s.fget NTU_LFCAL.COUNT : Nat) 8192).toNat else (roundDiv (n * 15625 : Nat) 16).toNat

/-- The wake handoff (R267). A slot that began before it is late. -/
def execWakeHandoff (ticks : Word) (s : State) : Host.Outcome State Fault Refusal :=
  match s.ntu.entry with
  | none => .next s
  | some (f, comp) =>
    if !s.sys.hfxoStable then .next s else
    let n := ticks.toNat
    let adv := s.sleepAdvance comp n
    let s := (s.setNtu fun n => { n with entry := none, handoff := false }).advance (BitVec.ofNat 64 (f + adv))
    let err : Int := (adv : Int) - roundDiv (n * 15625 : Nat) 16
    let s := (s.rsetN NTU_SLP_ERR.addr (toField 32 err)).rset NTU_SLP_TICKS.addr ticks
    let late : Bool := match s.slot with | some sl => sl.kind != .idle && !sl.tail | none => false
    let s := if late then s.fset NTU_STAT.LATE_WAKE 1 else s
    .next s

/-- A disagreeing FRC copy is outvoted and rewritten (R33). -/
def execFrcVote (s : State) : Host.Outcome State Fault Refusal :=
  .next (s.fset NTU_STAT.FRC_VOTE (s.fget NTU_STAT.FRC_VOTE + 1))

/-- NT reaches the target of an armed pulse channel (R269). -/
def execPulseStart (t : Frc) (ch : Fin 4) (s : State) : Host.Outcome State Fault Refusal :=
  let s := s.advance t
  let c := ch.val
  if s.ntu.armed.contains c && s.pulT c ≤ s.nt then
    let s := s.withPins fun s => s.pulseFire c
    .next (if s.fget (NTU_PUL_CFG.MODE c) = 2 then s.setPulT c (s.pulT c + s.pulPer c) else s)
  else .next s

/-- WIDTH has passed since the start edge. -/
def execPulseEnd (t : Frc) (ch : Fin 4) (s : State) : Host.Outcome State Fault Refusal :=
  let s := s.advance t
  let c := ch.val
  match s.ntu.pulseOn.find? (fun p => p.1 == c) with
  | some (_, a) => .next (if a + us (max 1 (s.fget (NTU_PUL_CFG.WIDTH c))) ≤ s.frcN then s.withPins fun s => s.pulseRelease c else s)
  | none => .next s

end Sys2Proof.Machine
end

