-- ==== Sys2Proof/Machine/Store.lean ====
section
/-!
DEFINITION. What the ticket store holds of a frame and what leaves from it (R131, R132, R136, R138): the splice point, the keystream stored at
preparation, and the live segment.
Readings of the manual made here: DEDUCED in log entry 46.
-/
namespace Sys2Proof.Machine
open Sys2Proof

/-! ## The splice point -/

/-- The first octet of the timestamp field, else of the MIC; none without a live segment. -/
def liveOctet (i : MacInfo) (n fcs : Nat) : Option Nat :=
  match i.dep with
  | (o, _) :: _ => some o
  | [] => if i.secured && i.level % 4 != 0 then some (n - fcs - micLen i.level) else none
/-- The first octet of the coding block of octet `o`: an octet, or the octets of a Rill codeword. -/
def blockOctet (m o : Nat) : Nat := if isRill m then 8 * o / rillK m * (rillK m / 8) else o

/-! ## Preparation -/

/-- Payload octets are encrypted from here on. -/
def MacInfo.clearTo (i : MacInfo) (n : Nat) : Nat := if i.secured && encrypts i.level then i.hdrLen else n
/-- The octets that a MIC covers and that a keystream may cover, of a frame of `n` with its FCS. -/
def MacInfo.bodyLen (i : MacInfo) (n fcs : Nat) : Nat := n - fcs - (if i.secured then micLen i.level else 0)

/-- The keystream over the octets of a body of `n`, zero over what leaves in clear. -/
def bodyStream (key nonce : List Byte) (i : MacInfo) (n : Nat) : List Byte :=
  let c := min n (i.clearTo n)
  List.replicate c 0#8 ++ ccmCrypt key nonce (List.replicate (n - c) 0#8)

/-- Octets of an FCS. -/
def fcsOf (n : Nat) (l : List Byte) : List Byte := if n = 2 then fcs2 l else fcs4 l

/-- The entry of a frame with a MAC header: `l` its plaintext with places for MIC and FCS, under key and nonce of the preparation. -/
def storeMac (sh : Shape) (m : Nat) (lead : Option Nat) (pre fcs : Nat) (i : MacInfo) (key nonce l : List Byte) : Stored :=
  let n := l.length
  let b := i.bodyLen n fcs
  let ks := bodyStream key nonce i b
  let body := xorL (l.take b) ks
  let s0 := if i.secured then ccmS0 key nonce else []
  let st := match (liveOctet i n fcs).map (blockOctet m) with
    | some o => storeFrame sh m lead pre fcs n false (body.take o) (some o) (ks.drop o) s0
    | none => storeFrame sh m lead pre fcs n false (body ++ fcsOf fcs body) none [] s0
  { st with info := some i, nonce := nonce }

/-! ## The live segment -/

/-- NT_dep in the timestamp fields, little-endian (R136, R162). -/
def stamp (i : MacInfo) (ntDep : Nat) (l : List Byte) : List Byte := i.dep.foldl (fun l p => putAt l p.1 (leBytes p.2 ntDep)) l

/-- The tag over the stamped plaintext, under the key latched at launch, with the nonce and keystream block 0 of the preparation. -/
def liveTag (i : MacInfo) (key : List Byte) (st : Stored) (fcs : Nat) (l : List Byte) : List Byte :=
  if i.secured then
    let b := l.take (i.bodyLen l.length fcs)
    let c := i.clearTo b.length
    (xorL (ccmMac key st.nonce (b.take c) (b.drop c) (micLen i.level)) st.ks0).take (micLen i.level)
  else []

/-- The frame as it leaves: what the store holds, and from the splice point on the stamped plaintext `l` under the stored keystream, the tag and
the FCS. -/
def Stored.leaves (st : Stored) (fcs : Nat) (tag l : List Byte) : List Byte :=
  match st.info, st.splice with
  | some i, some o =>
    let body := st.plain ++ xorL ((l.take (i.bodyLen l.length fcs)).drop o) st.ks ++ tag
    body ++ fcsOf fcs body
  | _, _ => st.plain

/-! ## Tickets and acknowledgements -/

def Ticket.lead (k : Ticket) : Option Nat := if k.mode = k.cand.mode then none else some k.cand.mode

/-- The fields that preparation writes into a frame: frame counter and ASN (R165). -/
def prepFields (i : MacInfo) (fc : Option Nat) (asn : Nat) (l : List Byte) : List Byte :=
  let l := match fc with | some v => putAt l i.fcOfs (leBytes 4 v) | none => l
  i.asnOfs.foldl (fun l o => putAt l o (leBytes 5 asn)) l

/-- The store entry of a ticket that has its frame's layout, octets, key and counter. -/
def State.storeTicket (s : State) (info : Option MacInfo) (k : Ticket) : Ticket :=
  let st := match info with
    | some i =>
      let key := match k.key with | some (n, _) => (s.keySlot n).key | none => []
      storeMac k.shape k.mode k.lead framePre 4 i key (nonceFc s.selfExt.toNat (k.fc.getD 0) i.level) k.octets
    | none =>
      let l := if isWmbus k.mode then wmFrame (wmFmtB k.mode k.fmtB) k.octets else k.octets
      storeFrame k.shape k.mode k.lead framePre 0 l.length (wmFmtB k.mode k.fmtB) l none [] []
  { k with stored := st }

/-- The plaintext that the live path reads: a frame's from its cells, with the fields that preparation wrote; a keep-alive's is the device's. -/
def State.livePlain (s : State) (k : Ticket) : List Byte :=
  if k.ka then k.octets
  else match k.stored.info with
    | some i => prepFields i k.fc k.asn (putAt k.octets 0 ((s.octets k.frame).take k.octets.length))
    | none => k.octets

/-- The layout of an Enhanced ACK for the live path: all header, its MIC under level 5 (R163). -/
def ackInfo (a : AckBuild) : MacInfo :=
  { ftype := 2, version := 2, secured := a.key.isSome, ackReq := false, seq := none, dst := .none, src := .none, level := 5, keyMode := 0, keyIdx := 0
    fcSup := false, fcOfs := 0, hdrLen := a.octets.length, pay := false, dep := [], timeCorr := none, asnOfs := [] }
/-- An ACK's octets with places for MIC and FCS. -/
def AckBuild.room (a : AckBuild) : List Byte := a.octets ++ List.replicate ((if a.key.isSome then 4 else 0) + a.fcs) 0#8
/-- Entry 4 of an ACK that is built (R141). -/
def State.storeAck (s : State) (a : AckBuild) : AckBuild :=
  let key := match a.key with | some n => (s.keySlot n).key | none => []
  { a with stored := storeMac a.shape a.mode none ackPre a.fcs (ackInfo a) key (nonceFc s.selfExt.toNat (a.fc.getD 0) 5) a.room }

end Sys2Proof.Machine
end

