-- ==== Sys2Proof/Machine/Headrace.lean ====
section
/-!
DEFINITION. The Headrace (R208 to R215, R221 to R223, R227): choosing the next preparation, colouring, building a ticket, the
lock point, the express path, and the HDR page.
Readings of the manual made here: DEDUCED in log entry 60.
-/
namespace Sys2Proof.Machine
open Sys2Proof

def State.runAhead (s : State) : Nat := min 4 (s.fget HDR_CFG.RUN_AHEAD)
def State.horizon (s : State) : Nat := clampN 1 1024 (s.fget HDR_CFG.HORIZON)
/-- Tickets counted against RUN_AHEAD (R209, R223). -/
def State.hdrDepth (s : State) : Nat := (s.tickets.filter fun p => 2 ≤ p.2.st && !p.2.expNew).length
/-- Preparation is just in time (R209, R227). -/
def State.justInTime (s : State) : Bool := s.runAhead = 0 || !s.fbit HDR_CTRL.EN || s.hdr.waitVerdict

/-! ## Colouring (R240 to R242) -/

/-- The outcome of a preparation's choice: queue, frame, Weir use. -/
structure Pick where
  q : Nat
  c : Nat
  use : Option WeirUse
  deriving DecidableEq, Repr

/-- A class-A frame metered red is counted (R242). -/
def State.aDemote (s : State) : State :=
  ((s.fset TRF_STAT.A_DEMOTED (s.fget TRF_STAT.A_DEMOTED + 1)).raise Pg.TRF 4).event Pg.TRF 1 38

/-- Choose the frame a preparation takes for a cell, with demotions and drops on the way; `forced` is an express frame, which no other takes
the place of. A frame is demoted at most once in a preparation, and is then an ordinary candidate of its new queue. -/
def prepChoose : Nat → State → Cand → Nat → Option (Nat × Nat) → List Nat → List Demotion → Option Pick × List Demotion × State
  | 0, s, _, _, _, _, demos => (none, demos, s)
  | n + 1, s, cand, asn, forced, skip, demos =>
    let l := match forced with
      | some x => [x]
      | none => (s.qRanking cand asn).filter fun x => !skip.contains x.1
    match l with
    | [] => (none, demos, s)
    | (q, c) :: _ =>
      let pass := fun (s : State) => if forced.isSome then (none, demos, s) else prepChoose n s cand asn none (q :: skip) demos
      let gone := fun (s : State) => if forced.isSome then (none, demos, s) else prepChoose n s cand asn none skip demos
      match s.judge1 cand asn q c with
      | (false, s) => pass s
      | (true, s) =>
        match (if s.fAttempts c = 0 then s.meterOf q else none) with
        | none => (some ⟨q, c, none⟩, demos, s)
        | some m =>
          let b := octetTok (s.fLen c)
          let col := s.frameColour m c
          let isA := s.qClass q = 0
          let dst := s.fget (TRF_Q_CFG.DEMQ q)
          match s.colourAction q m col with
          | 0 =>
            let (tc, te) := s.chargeOf m col b
            let x := s.meter m
            let s := (s.setMeter m { x with tc := x.tc - tc, te := x.te - te }).colourCount m col isA
            (some ⟨q, c, some ⟨m, tc, te, col⟩⟩, demos, s)
          | 1 => pass s
          | 2 =>
            if demos.any fun d => d.frame == c then pass s
            else
              let s := s.colourCount m col isA
              let s := if isA then s.aDemote else s
              if !s.qEn dst || dst = q || (isA && s.qClass dst != 1) then gone (s.frameLeaves q c 6)
              else
                let d : Demotion :=
                  { frame := c, src := q, ahead := (s.queue q).takeWhile (· != c), dst := dst, before := s.desc c 3 7 1 = 1
                    use := some ⟨m, 0, 0, col⟩, aDem := isA }
                let s := s.setQueue q ((s.queue q).filter (· != c))
                let s := (s.setQueue dst (s.queue dst ++ [c])).descSet c 3 7 1 1
                prepChoose n s cand asn none skip (demos ++ [d])
          | _ => gone ((s.colourCount m col isA).frameLeaves q c (if col = 1 then 3 else 4))

/-! ## Which slot is next (R209) -/

/-- What a slot offers a preparation: nothing more, or a TX cell that has an eligible frame. -/
def offerIn (asn : Nat) : List Cand → State → Option (Cand × Chosen) × State
  | [], s => (none, s)
  | c :: l, s =>
    if c.kind = 0 then
      if (s.tickets.any fun p => p.2.asn == asn && p.2.cand.cell == c.cell) || s.hdr.plans.any (fun p => p.asn == asn) then (none, s)
      else match s.eligible c asn with
        | (some x, s) => (some (c, x), s)
        | (none, s) => offerIn asn l s
    else if c.kind = 1 then (none, s)
    else if s.clearingWork then (none, s) else offerIn asn l s

/-- The candidates the Headrace sees for a slot: the slot in progress has its deciding cell, the next slot its resolution. -/
def State.candsFor (s : State) (asn : Nat) : List Cand :=
  match s.slot with
  | some sl =>
    if sl.asn = asn then (match sl.cand with | some c => if sl.kind = .tx then [c] else [] | none => [])
    else (match s.cad.resolved with | some r => if r.1 = asn then r.2 else s.ranked asn | none => s.ranked asn)
  | none => s.ranked asn

/-- The earliest slot from `asn` on that can be ticketed. -/
def firstOffer : Nat → Nat → State → Option (Nat × Cand × Chosen) × State
  | 0, _, s => (none, s)
  | n + 1, asn, s =>
    match offerIn asn (s.candsFor asn) s with
    | (some (c, x), s) => (some (asn, c, x), s)
    | (none, s) => firstOffer n (asn + 1) s

/-- Counts left before the next tick. -/
def State.toNextTick (s : State) : Nat :=
  match s.slot with
  | some sl => s.epoch + (s.ntu.lastAsn.getD sl.asn + 1) * s.slotLen - s.nt
  | none => if s.asnValid then s.slotLen - (s.nt - s.epoch) % s.slotLen else s.epoch - s.nt

/-- The slot in progress can still take a ticket: its lock point lies ahead (R214). -/
def State.beforeLock (s : State) : Bool :=
  match s.slot with
  | some sl => sl.kind = .tx && s.nt ≤ sl.tickNt + us (s.tmpl.txOffset - 100)
  | none => false

/-! ## Building a ticket (R212) -/

/-- Octets of preparation time (R213). -/
def prepCounts (n : Nat) : Nat := us 30 + 8 * n

/-- A free store entry. -/
def State.freeEntry (s : State) : Option Nat := (List.range 4).find? fun e => (s.ticket e).isNone

/-- A preparation has begun. -/
def State.prepBegun (s : State) : State := { s with hdr := { s.hdr with seq := s.hdr.seq + 1 } }

/-- Steps 1 to 3 of a preparation, in its first cycle: the frame is chosen, charges and reservations are taken, the frame
counter is taken; and the store copy with the fields of R165 that preparation writes. -/
def State.build (s : State) (e : Nat) (cand : Cand) (asn : Nat) (exp : Bool) (q c : Nat) (use : Option WeirUse)
    (demos : List Demotion) : State :=
  let fine := s.fineOf c cand.mode
  let (resv, s') := s.dutyReserve cand.freq fine
  let info := s.macOf c
  let sec := match info with | some i => i.secured | none => false
  let key := if sec then s.txKey q (s.fNbr c) else none
  let (fc, s') := match key with
    | some k => (some (s'.takeCounter k).1, (s'.takeCounter k).2)
    | none => (none, s')
  let oct := match info with | some i => prepFields i fc asn (s.octets c) | none => s.octets c
  let t : Ticket :=
    { st := 1, exp := exp, expNew := exp, ka := false, cls := s.qClass q, queue := q, frame := c, nbr := s.fNbr c, cand := cand
      asn := asn, seq := s.hdr.seq, attempt := s.fAttempts c, fc := fc, key := key.map fun k => (k, (s.keySlot k).gen), mode := s.fMode c
      fmtB := s.fFmtB c, ackReq := s.ackReqOf c, octets := oct, shape := s.shapeOf (s.fMode c), fine := fine, resv := resv, weir := use, demos := demos }
  (s'.setTicket e (some (s.storeTicket info t))).dutyNote.prepBegun

/-- The same for a keep-alive (R204). -/
def State.buildKa (s : State) (e : Nat) (cand : Cand) (asn n : Nat) (demos : List Demotion) : State :=
  let fine := s.kaFine n cand.mode
  let (resv, s') := s.dutyReserve cand.freq fine
  let key := s.nKey0 n
  let (fc, s') := match key with
    | some k => (some (s'.takeCounter k).1, (s'.takeCounter k).2)
    | none => (none, s')
  let i := s.kaInfo n
  let oct := match fc with | some v => putAt (s.kaFrame n) i.fcOfs (leBytes 4 v) | none => s.kaFrame n
  let known := s.hdr.kas.find? fun k => k.1 == n
  let t : Ticket :=
    { st := 1, exp := false, expNew := false, ka := true, cls := 1, queue := 0, frame := 0, nbr := some n, cand := cand, asn := asn, seq := s.hdr.seq
      attempt := match known with | some k => k.2.1 | none => 0, fc := fc, key := key.map fun k => (k, (s.keySlot k).gen)
      mode := cand.mode, fmtB := false, ackReq := true, octets := oct, shape := s.shapeOf cand.mode, fine := fine, resv := resv, weir := none, demos := demos }
  let s' := if known.isSome then s' else { s' with hdr := { s'.hdr with kas := s'.hdr.kas ++ [(n, 0, false)] } }
  (s'.setTicket e (some (s.storeTicket (some i) t))).dutyNote.prepBegun

/-- A preparation for a cell. A demotion of one that produces no ticket stands; otherwise the ticket takes the log. One whose bound does not
end before the next tick does not begin (R213). -/
def State.prepare (s : State) (e : Nat) (cand : Cand) (asn : Nat) (forced : Option (Nat × Nat)) : State :=
  let fits := fun n => decide (prepCounts n ≤ s.toNextTick)
  match prepChoose 4096 s cand asn forced [] [] with
  | (some p, demos, s') => if fits (s'.fLen p.c) then s'.build e cand asn (forced = some (p.q, p.c)) p.q p.c p.use demos else s
  | (none, demos, s') =>
    match (if forced.isSome then (none, s') else s'.eligible cand asn) with
    | (some (.keepAlive n), s') => if fits (s'.kaFrame n).length then s'.buildKa e cand asn n demos else s
    | (_, s') => s'

/-- The Headrace may begin a preparation now (R213, R218, R224, R228): Cadence runs, nothing is building or being undone, and no Tailrace
is under way. -/
def State.prepFree (s : State) : Bool :=
  s.cadRuns && s.dom .rad = .on && s.hdr.undoing.isEmpty && !(s.tickets.any fun p => p.2.st == 1) && !s.cad.replaying
    && (match s.slot with | some sl => !sl.tail || sl.tailDone = 7 | none => true)

/-! ## Express path (R222, R223) -/

/-- The cell a slot resolves to for an express frame: the first TX cell that serves it under R210, unless another frame, a keep-alive, a ticket or
an RX cell has the slot before it. -/
def expressCell (asn q c : Nat) : List Cand → State → Option Cand × State
  | [], s => (none, s)
  | d :: l, s =>
    if d.kind = 0 then
      match s.eligible d asn with
      | (some x, s) => (if x = .frame q c then some d else none, s)
      | (none, s) => if s.tickets.any (fun p => p.2.asn == asn && p.2.cand.cell == d.cell) then (none, s) else expressCell asn q c l s
    else if d.kind = 1 then (none, s)
    else if s.clearingWork then (none, s) else expressCell asn q c l s

/-- The earliest usable slot from `asn` on. -/
def expressSlot (q c : Nat) : Nat → Nat → State → Option (Nat × Cand) × State
  | 0, _, s => (none, s)
  | n + 1, asn, s =>
    let lead := us (max 1300 (s.fget HDR_EXPRESS.LEAD))
    let taken := s.tickets.any (fun p => p.2.asn == asn && p.2.cls == 0) || s.hdr.plans.any (fun p => p.asn == asn)
    if !taken && s.nt + lead ≤ s.launchNt asn then
      match expressCell asn q c (s.candsFor asn) s with
      | (some d, s) => (some (asn, d), s)
      | (none, s) => expressSlot q c n (asn + 1) s
    else expressSlot q c n (asn + 1) s

/-! ## Preparations begin and end -/

/-- The frame is of class A. -/
def State.chosenA (s : State) (x : Chosen) : Bool := match x with | .frame q _ => s.qClass q = 0 | .keepAlive _ => false

/-- A ticket can still be prepared for a slot: one ahead, or the present one before its lock point. -/
def State.slotAhead (s : State) (asn : Nat) : Bool := s.slotAsn < asn || (s.slotAsn = asn && (s.slot.isNone || s.beforeLock))

/-- The first express plan is prepared, if its cell still serves the frame in a slot that holds no ticket (R222, R223); CNT2.EXPRESS counts the
ticket that results. A plan that no cell serves any more is dropped, and its frame waits for normal preparation. -/
def State.planStart (s : State) (e : Nat) (p : Plan) (rest : List Plan) : State :=
  if s.toNextTick < prepCounts (s.fLen p.frame) then s
  else
    let s := { s with hdr := { s.hdr with plans := rest } }
    let taken := s.tickets.any fun x => x.2.asn == p.asn
    match (if s.slotAhead p.asn && !taken then expressCell p.asn p.queue p.frame (s.candsFor p.asn) s else (none, s)) with
    | (some d, s) =>
      let s := s.prepare e d p.asn (some (p.queue, p.frame))
      let built := match s.ticket e with | some k => k.exp | none => false
      if built then ((s.finc HDR_CNT2.EXPRESS).raise Pg.HDR 3).event Pg.HDR 1 36 else s
    | (none, s) => s

/-- A preparation begins (R209, R212, R223): an express plan first, else the earliest slot that can be ticketed. With EXP_EN at 0 a
class-A frame is prepared in its own slot only, which is kept for it, whatever RUN_AHEAD. In the slot that a disable of Cadence leaves to run,
preparation is for that slot (R174). -/
def execPreparationStart (t : Frc) (s : State) : Host.Outcome State Fault Refusal :=
  let s0 := s.advance t
  match s0.prepFree, s0.freeEntry with
  | true, some e =>
    let s := s0.consider
    match s.hdr.plans with
    | p :: rest => .next (s0.hold (s.planStart e p rest))
    | [] =>
      let cur := s.slotAsn
      let jit := s.justInTime || s.cad.stopping
      let full := !jit && s.runAhead ≤ s.hdrDepth
      let aOwn := !jit && !s.fbit HDR_CTRL.EXP_EN
      if full && !aOwn then .next (s0.hold s)
      else
        let from' := if s.beforeLock then cur else cur + 1
        let span := if jit || full then (if s.beforeLock then 1 else 0) else s.horizon + cur + 1 - from'
        match firstOffer span from' s with
        | (none, s) => .next (s0.hold s)
        | (some (asn, cand, x), s) =>
          let soon := s.slot.isNone && s.epoch + asn * s.slotLen < s.ntAt s.cad.startAt
          let keep := aOwn && (if s.chosenA x then asn != cur else full)
          .next (s0.hold (if soon || keep then s else s.prepare e cand asn none))
  | _, _ => .next s0

/-- The ticket that is building is complete and becomes PREPARED (R208, R212); HDR_CNT.PREP counts it. -/
def execPreparationDone (t : Frc) (s : State) : Host.Outcome State Fault Refusal :=
  let s := s.advance t
  match (if s.dom .rad = .on then s.tickets.find? (fun p => p.2.st == 1 && !s.hdr.undoing.contains p.1) else none) with
  | some (e, k) => .next (s.hold ((s.setTicket e (some { k with st := 2 })).finc HDR_CNT.PREP))
  | none => .next s

/-- The slot in progress is idle from now on: no cell is served. -/
def State.slotIdle (s : State) : State :=
  let s := match s.slot with | some sl => { s with slot := some { sl with kind := .idle, cand := none, cands := [] } } | none => s
  ((s.fset CAD_STAT.KIND 0).rsetN CAD_SLOT.addr 0).setRfe fun r => ({ r with femSw := none } : RfeState)

/-- The lock point of the slot's ticket (R214): PREPARED becomes locked; one that is still building, which only a preparation begun in its own
slot can be, is late, and the slot is idle. -/
def execTicketLock (t : Frc) (s : State) : Host.Outcome State Fault Refusal :=
  let s := s.advance t
  match s.slot with
  | none => .next s
  | some sl =>
    if !s.atOffset sl (s.tmpl.txOffset - 100) || s.dom .rad != .on then .next s
    else match s.ticketAt sl.asn with
      | some (e, k) =>
        if k.st = 2 then .next (s.setTicket e (some { k with st := 3 }))
        else if k.st = 1 then
          .next (s.hold ((((s.fset HDR_STAT.LATE 1).finc HDR_CNT2.LATE).raise Pg.HDR 2).squash .ctrl false [e]).slotIdle)
        else .next s
      | none => .next s

/-- The undo of the squashed tickets completes and preparation resumes (R218, R221). -/
def execSquashDone (t : Frc) (s : State) : Host.Outcome State Fault Refusal := .next ((s.advance t).hold (s.advance t).squashDone)

/-! ## Enqueuing a class-A frame (R222, R223) -/

/-- A class-A frame was enqueued: find its cell, displace what stands in its way, and plan its preparation (R222, R223). -/
def State.express (s : State) (q c : Nat) : State :=
  if !(s.fbit HDR_CTRL.EN && s.fbit HDR_CTRL.EXP_EN && s.fbit CAD_CTRL.EN && s.fbit TRF_CTRL.EN && s.qClass q = 0) then s
  else match expressSlot q c (s.horizon + 1) s.slotAsn s with
    | (none, s) => s
    | (some (asn, d), s) =>
      let here := s.entriesWhere fun t => t.asn = asn && t.cls != 0
      let busy := s.tickets.filter fun p => !s.hdr.undoing.contains p.1
      let lower := busy.filter fun p => p.2.cls != 0 && p.2.st ≤ 2
      let late := lower.foldl (fun (m : Option (Nat × Nat)) p =>
        match m with | some x => if x.2 < p.2.asn then some (p.1, p.2.asn) else m | none => some (p.1, p.2.asn)) none
      let need := here.isEmpty && 4 ≤ busy.length + s.hdr.plans.length
      if need && late.isNone then s
      else
        let roots := here ++ (if need then (match late with | some x => [x.1] | none => []) else [])
        let s := s.squash .express false roots
        { s with hdr := { s.hdr with plans := s.hdr.plans ++ [⟨q, c, d, asn⟩] } }

/-! ## The HDR page (R208, R227) -/

/-- Entries of the latest counted tickets beyond RUN_AHEAD in slot order, and of slots beyond the horizon. -/
def State.beyondLimit (s : State) : List Nat :=
  let later := fun (t : Ticket) => (s.tickets.filter fun p => p.2.asn < t.asn && 2 ≤ p.2.st && !p.2.expNew).length
  s.entriesWhere fun t => (!t.expNew && s.runAhead ≤ later t) || s.slotAsn + s.horizon < t.asn

/-- The words of a ticket as HDR_TKT_IDX captures them. -/
def State.tktWords (s : State) (e : Nat) : List Nat :=
  match s.ticket e with
  | none => [0, 0, 0, 0]
  | some t =>
    [ t.st + (if t.exp then 8 else 0) + (if t.ka then 16 else 0) + t.cls * 32 + (if t.ka then 0 else t.queue * 256) + t.cand.cell * 65536
    , t.asn % 2 ^ 24 + t.attempt % 8 * 2 ^ 24
    , t.fc.getD 0
    , (match t.nbr with | some n => n + 1024 | none => 0) + (match t.key with | some k => k.1 * 65536 + 2 ^ 21 | none => 0) ]

/-- A ramp that rose for a ticket that is squashed now ends in IDLE, and the slot stays idle (R227). -/
def State.rampGone (s : State) : State :=
  match s.txm.cur with
  | some x => (match x.what with | .ticket e => if !x.launched && s.hdr.undoing.contains e then s.txToIdle else s | _ => s)
  | none => s

/-- HDR_CTRL: SRST resets the registers first, then stops the work (R50, R216). -/
def hdrCtrl (w : WCtx) (s : State) : State :=
  let srst := w.one HDR_CTRL.SRST
  let s := if srst then s.srstPage Pg.HDR else s
  let s := if srst || w.clears HDR_CTRL.EN then
      let s := s.squashWhere .ctrl true fun _ => true
      { s with hdr := { s.hdr with plans := [] } }.rampGone
    else s
  if w.sets HDR_CTRL.EN || (srst && fieldGet w.old HDR_CTRL.EN = 0) then { s with hdr := { s.hdr with waitVerdict := true } } else s

/-- Effect of a write to the HDR page. -/
def hdrHook (w : WCtx) (s : State) : State :=
  if w.off = 0x004 then hdrCtrl w s
  else if w.off = 0x040 then
    let ra := fun v => min 4 (fieldGet v HDR_CFG.RUN_AHEAD)
    let hz := fun v => clampN 1 1024 (fieldGet v HDR_CFG.HORIZON)
    if ra w.new < ra w.old || hz w.new < hz w.old then s.squash .ctrl false s.beyondLimit else s
  else if w.off = 0x048 then
    let l := s.tktWords (s.fget HDR_TKT_IDX.IDX)
    (((s.rsetN HDR_TKT_W0.addr ((l[0]?).getD 0)).rsetN HDR_TKT_W1.addr ((l[1]?).getD 0)).rsetN HDR_TKT_W2.addr ((l[2]?).getD 0)).rsetN
      HDR_TKT_W3.addr ((l[3]?).getD 0)
  else s

def execHdrCtrlWrite (a : Acc) (v : Word) (s : State) : Host.Outcome State Fault Refusal :=
  .next (s.writeReg hdrHook a HDR_CTRL.addr v)
def execHdrCfgWrite (a : Acc) (v : Word) (s : State) : Host.Outcome State Fault Refusal :=
  .next (s.writeReg hdrHook a HDR_CFG.addr v)
def execHdrTktIdxWrite (a : Acc) (v : Word) (s : State) : Host.Outcome State Fault Refusal :=
  .next (s.writeReg hdrHook a HDR_TKT_IDX.addr v)

end Sys2Proof.Machine
end

