-- ==== Sys2Proof/Machine/Traffic.lean ====
section
/-!
DEFINITION. The traffic scheduler's commands (R229, R234 to R238, R246, R248, R253 to R255) and the pages TRF, WEIR, SLU and DCA.
-/
namespace Sys2Proof.Machine
open Sys2Proof

/-! ## Pops: a read that takes (R234, R236, R238) -/

/-- The value of a pop register with V set. -/
def popped (c : Nat) : Nat := c + 2 ^ 31

/-- FREE fell to or below RX_RSV: POOL_LOW is raised on the way down. -/
def State.poolNote (s old : State) : State :=
  let low := fun (x : State) => x.freeCount ≤ x.fget TRF_POOL.RX_RSV
  if low s && !low old then s.raise Pg.TRF 3 else s

/-- One FREE cell becomes FIRMWARE. -/
def State.trfAllocPop (s : State) : State × Nat :=
  if s.freeCount ≤ s.fget TRF_POOL.RX_RSV then (s, 0)
  else match s.takeCells 1 with
    | some (c :: _, s') => ((s'.cellsTo [c] (some .firmware)).poolNote s, popped c)
    | _ => (s, 0)
def execTrfAlloc (m : Master) (s : State) : Host.Outcome State Fault Refusal :=
  .next (s.readAs m TRF_ALLOC.addr State.trfAllocPop)

/-- The oldest chain of a list becomes FIRMWARE. -/
def State.popChain (s : State) (l : List Nat) (put : List Nat → TrfState → TrfState) : State × Nat :=
  match l with
  | [] => (s, 0)
  | c :: rest => ((s.cellsTo ((s.chain c).getD [c]) (some .firmware)).setTrf (put rest), popped c)
def execTrfDonePop (m : Master) (s : State) : Host.Outcome State Fault Refusal :=
  .next (s.readAs m TRF_DONE.addr fun s => s.popChain s.trf.done fun l t => { t with done := l })
def execTrfRxqPop (m : Master) (s : State) : Host.Outcome State Fault Refusal :=
  .next (s.readAs m TRF_RXQ.addr fun s => s.popChain s.trf.rxq fun l t => { t with rxq := l })

/-! ## Free, enqueue, commands -/

def State.trfRefuse (s : State) (f : Fld) (c q cause : Nat) : State :=
  (s.fset f 1).rsetN TRF_ERRINFO.addr (c + q * 2 ^ 10 + cause * 2 ^ 16)

/-- The cells of a chain as far as it can be followed: at most 17, from NEXT to NEXT. -/
def State.walk (s : State) : Nat → Nat → List Nat
  | 0, _ => []
  | n + 1, c => c :: (if s.cellEnd c then [] else s.walk n (s.cellNext c))

/-- TRF_FREE (R234). -/
def State.freeCmd (s : State) (c : Nat) : State :=
  let l := s.walk 17 c
  if l.any fun x => s.cellState x != some .firmware then s.trfRefuse TRF_STAT.FREE_ERR c 0 5
  else if (s.chain c).isNone then s.trfRefuse TRF_STAT.FREE_ERR c 0 7
  else s.freeChain l

/-- TRF_ENQ (R235): the chain joins the queue, or the first cause that fails is recorded. -/
def State.enqueue (s : State) (c q : Nat) : State :=
  let l := s.walk 17 c
  let err := fun (s : State) (cause : Nat) => (s.trfRefuse TRF_STAT.ENQ_ERR c q cause).raise Pg.TRF 1
  if l.any fun x => s.cellState x != some .firmware then err s 1
  else if (s.chain c).isNone then err s 2
  else if s.fLen c = 0 || capacity l.length < s.fLen c then err s 3
  else if !s.qEn q then err s 4
  else
    let s := s.setWord (cellAddr c + 8) s.ntUs32
    let s := ((s.descSet c 3 0 3 0).descSet c 3 3 4 0).descSet c 3 7 1 0
    let s := (((s.descSet c 1 31 1 0).descSet c 3 14 18 0).descSet c 4 16 16 0).setWord (cellAddr c + 28) 0
    let s := (s.cellsTo l (some .queued)).setQueue q (s.queue q ++ [c])
    s.consider.express q c

/-- A frame is removed by firmware (R237): its PREPARED ticket and the ticket's dependants are squashed with cause CTRL. -/
def State.removeFrame (s : State) (q c : Nat) : State :=
  let s := s.squashWhere .ctrl false fun t => !t.ka && t.frame = c
  let s := { s with hdr := { s.hdr with plans := s.hdr.plans.filter fun p => p.frame != c } }
  s.frameLeaves q c 5

/-- A COMMITTED or locked ticket holds the frame. -/
def State.pinned (s : State) (c : Nat) : Bool :=
  s.tickets.any fun p => !p.2.ka && p.2.frame == c && decide (3 ≤ p.2.st) && !s.hdr.undoing.contains p.1

def State.removeHeadCmd (s : State) (q : Nat) : State :=
  match s.queue q with
  | [] => s
  | c :: _ => if s.pinned c then s.fset TRF_STAT.CMD_REFUSED 1 else s.removeFrame q c
def State.flushCmd (s : State) (q : Nat) : State :=
  let s' := ((s.queue q).filter fun c => !s.pinned c).foldl (fun s c => s.removeFrame q c) s
  if (s.queue q).any s.pinned then s'.fset TRF_STAT.CMD_REFUSED 1 else s'

/-- TRF_CTRL.SRST (R238): queues, RX queue and done list are emptied and all cells are free; only while Cadence is disabled. -/
def State.trfReset (s : State) : State :=
  if s.fbit CAD_CTRL.EN then s.fset TRF_STAT.CMD_REFUSED 1
  else
    let s := s.squashWhere .ctrl false fun _ => true
    let s := { s with hdr := { s.hdr with plans := [] } }
    (s.setTrf fun t => { t with cells := [], queues := List.replicate 64 [], rxq := [], done := [], reported := [] }).srstPage Pg.TRF

/-- Effect of a write to the TRF page. -/
def trfHook (w : WCtx) (s : State) : State :=
  if w.off = 0x004 then (if w.one TRF_CTRL.SRST then s.trfReset else s)
  else if w.off = 0x040 then s.poolNote (s.rsetN w.addr w.old)
  else if w.off = 0x048 then s.freeCmd (fieldGet w.wo TRF_FREE.CELL)
  else if w.off = 0x04C then s.enqueue (fieldGet w.wo TRF_ENQ.CELL) (fieldGet w.wo TRF_ENQ.QUEUE)
  else if w.off = 0x05C then
    let q := fieldGet w.wo TRF_CMD.QUEUE
    match fieldGet w.wo TRF_CMD.CMD with
    | 1 => s.removeHeadCmd q
    | 2 => s.flushCmd q
    | _ => s
  else if w.off = 0x074 then
    match s.trf.hist.find? (fun e => e.1 == s.fget TRF_HIST_IDX.IDX) with
    | some e => (s.rset TRF_HIST_W0.addr e.2.1).rset TRF_HIST_W1.addr e.2.2
    | none => (s.rsetN TRF_HIST_W0.addr 0).rsetN TRF_HIST_W1.addr 0
  else if 0x100 ≤ w.off && w.off < 0x200 then
    let q := (w.off - 0x100) / 4
    if fieldGet w.old (TRF_Q_CFG.CLASS q) != fieldGet w.new (TRF_Q_CFG.CLASS q) && !(s.queue q).isEmpty then
      (s.fset (TRF_Q_CFG.CLASS q) (fieldGet w.old (TRF_Q_CFG.CLASS q))).fset TRF_STAT.CFG_REFUSED 1
    else s
  else s

def execTrfFree (a : Acc) (v : Word) (s : State) : Host.Outcome State Fault Refusal := .next (s.writeReg trfHook a TRF_FREE.addr v)
def execTrfEnq (a : Acc) (v : Word) (s : State) : Host.Outcome State Fault Refusal := .next (s.writeReg trfHook a TRF_ENQ.addr v)
def execRemoveHead (m : Master) (q : BitVec 6) (s : State) : Host.Outcome State Fault Refusal :=
  .next (s.writeReg trfHook ⟨m, .base⟩ TRF_CMD.addr (BitVec.ofNat 32 (q.toNat + 1 * 2 ^ 8)))
def execFlush (m : Master) (q : BitVec 6) (s : State) : Host.Outcome State Fault Refusal :=
  .next (s.writeReg trfHook ⟨m, .base⟩ TRF_CMD.addr (BitVec.ofNat 32 (q.toNat + 2 * 2 ^ 8)))
def execTrfHistIdxWrite (a : Acc) (v : Word) (s : State) : Host.Outcome State Fault Refusal :=
  .next (s.writeReg trfHook a TRF_HIST_IDX.addr v)

/-! ## WEIR, SLU and DCA pages -/

/-- A MODE that is off: 3 acts as 0. -/
def weirOff (mode : Nat) : Bool := mode = 0 || mode = 3

/-- Effect of a write to the WEIR page: buckets are full when MODE is written from 0, and after SRST (R239). -/
def weirHook (w : WCtx) (s : State) : State :=
  if w.off = 0x004 && w.one WEIR_CTRL.SRST then
    let s := s.srstPage Pg.WEIR
    (List.range 32).foldl (fun s m => (s.setMeter m {}).meterFull m) s
  else if 0x080 ≤ w.off && w.off < 0x100 then
    let m := (w.off - 0x080) / 4
    if weirOff (fieldGet w.old (WEIR_CFG.MODE m)) && !weirOff (fieldGet w.new (WEIR_CFG.MODE m)) then s.meterFull m else s
  else s

/-- Effect of a write to the SLU page: a change of the Sluice squashes the PREPARED tickets of classes B to D (R216, R246). -/
def sluHook (w : WCtx) (s : State) : State :=
  let sq := fun (s : State) => s.squashWhere .sluice false fun t => t.cls != 0
  if w.off = 0x004 then
    if w.one SLU_CTRL.SRST then (sq s).srstPage Pg.SLU else sq s
  else if w.off = 0x044 || w.off = 0x048 || w.off = 0x04C || 0x080 ≤ w.off then sq s
  else s

/-- Effect of a write to the DCA page (R253). -/
def dcaHook (w : WCtx) (s : State) : State :=
  if w.off = 0x004 then
    let s := if fieldGet w.new DCA_CTRL.EN = 1 then s.dutyEnable else s
    if w.one DCA_CTRL.SRST then s.dutyLose.srstPage Pg.DCA else s.dutyNote
  else if 0x080 ≤ w.off then s.dutyNote
  else s

/-- SLUICE_CONFIG_WRITE: a write at an offset of the SLU page's configuration. -/
def execSluiceConfigWrite (a : Acc) (off : BitVec 10) (v : Word) (s : State) : Host.Outcome State Fault Refusal :=
  .next (s.writeReg sluHook a (pageAddr Pg.SLU off.toNat) v)

def execDcaEnable (a : Acc) (v : Word) (s : State) : Host.Outcome State Fault Refusal :=
  .next (s.writeReg dcaHook a DCA_CTRL.addr v)

def execSubWindowAdvance (sb : Fin 8) (dwell : Bool) (s : State) : Host.Outcome State Fault Refusal :=
  .next (s.dutyAdvance sb.val dwell).dutyNote

end Sys2Proof.Machine
end

