-- ==== Sys2Proof/Machine/FrontEnd.lean ====
section
/-!
DEFINITION. The RF front end: lock and loss of lock (R79 to R81), manual tuning and disable (R84, R85), the two gain loops
(R88 to R95) and the calibrations (R98 to R103).
Readings of the manual made here: DEDUCED in log entries 35, 36, 37, 38.
-/
namespace Sys2Proof.Machine
open Sys2Proof

/-! ## Calibrations (R98 to R102) -/

/-- Longest durations in us: the eight calibrations of R98, the mask self-check (R146), the sample capture (R457). -/
def workTime : List Nat := [2400, 150, 300, 1200, 1800, 500, 900, 900, 600, 380]

/-- Pending work items in the order they run: calibrations in bit order, then the mask self-check, then the capture. -/
def State.workPending (s : State) : List Nat :=
  onesOf 8 (s.fget RFE_CAL_STAT.PEND)
    ++ (if s.fbit TXM_MCHK_REQ.PEND then [8] else []) ++ (if s.fbit TST_CAP_REQ.PEND then [9] else [])

/-- Start one item; a capture tunes the wideband path with the held Canopy gain (R457). -/
def State.workStart (s : State) (i : Nat) : State :=
  let s := { s with rfe := { s.rfe with running := some i } }
  if i < 8 then s.fset RFE_STAT.CAL_RUN 1
  else if i = 8 then s.fset TXM_STAT.MCHK_RUN 1
  else (s.fset RFE_SYN_CUR.FREQ (s.fget TST_CAP_FREQ.FREQ)).fset AGC_CNP_GAIN.CUR (min 11 (s.fget AGC_CNP_GAIN.HELD))

/-- The first item of `l` from index `from` on that ends before the Clearing's work must end (R99). -/
def fits (l : List Nat) (now lim : Nat) : Option Nat :=
  l.find? fun i => now + us ((workTime[i]?).getD 0) ≤ lim

/-- Start the next pending item, if one may run now: at once while Cadence is disabled, and in a Clearing one that fits, after
item `after` of that Clearing (R99). Cadence counts as enabled to the end of the slot in which it is disabled (R174). -/
def State.workNext (s : State) (after : Option Nat) : State :=
  if s.rfe.running.isSome || !s.fbit RFE_CTRL.EN then s
  else if !s.cadRuns then
    match s.workPending with | i :: _ => s.workStart i | [] => s
  else match s.rfe.clearingEnd with
    | none => s
    | some lim =>
      let l := match after with | some k => s.workPending.filter (fun i => k < i) | none => s.workPending
      match fits l s.frcN lim with | some i => s.workStart i | none => s

/-- A request's deadline counts from this slot (R100). -/
def State.workAge (s : State) (items : List Nat) : State :=
  s.setRfe fun r => { r with age := r.age.filter (fun (e : Nat × Nat) => !items.contains e.1) ++ items.map fun i => (i, s.asnNow) }
/-- An item no longer waits. -/
def State.workGone (s : State) (item : Nat) : State := s.setRfe fun r => { r with age := r.age.filter fun (e : Nat × Nat) => e.1 != item }

/-- Register requests: PEND sets (R99), and an item starts at once where it still fits (log entry 37). -/
def State.calRequest (s : State) (bits : Nat) : State :=
  let fresh := (onesOf 8 bits).filter fun b => !bitOf (s.fget RFE_CAL_STAT.PEND) b
  let s := fresh.foldl (fun s b => s.fset ⟨RFE_CAL_STAT.addr, 8 + b, 1⟩ 1) s
  (s.workAge fresh).workNext none

/-- A running item stops without a result and stays pending (R101). -/
def State.workAbort (s : State) : State :=
  { s with rfe := { s.rfe with running := none } }.fset RFE_STAT.CAL_RUN 0 |>.fset TXM_STAT.MCHK_RUN 0

/-! ## Disable and soft reset of the front end (R85, R50) -/

/-- The slot in progress is lost with the front end, and counted, unless it was lost before, its transmission has been launched or its
Tailrace has begun (R80, R85). -/
def State.slotCut (s : State) : State :=
  match s.slot with
  | some sl =>
    let gone := s.tickets.any fun p => p.2.asn == sl.asn && p.2.st == 4
    if sl.lost || sl.tail || !(sl.kind = .rx || (sl.kind = .tx && !gone)) then s
    else { s with slot := some { sl with lost := true } }.finc RFE_CNT.LOST
  | none => s

/-- Clearing EN: the transmission is cut off, lanes receiving stop as on a lane disable, the running calibration aborts, the
synthesiser and both paths power down (R85). -/
def State.rfeOff (s : State) : State :=
  let s := s.slotCut.txAbort 1
  let s := (List.range 16).foldl (fun s n => s.laneStop n) s
  s.workAbort.windowShut.fset RFE_STAT.LOCK 0

/-- The synthesiser hops to the manual frequency (R84). -/
def State.manTune (s : State) : State := (s.fset RFE_SYN_CUR.FREQ (s.fget RFE_SYN_MAN.FREQ)).fset RFE_STAT.LOCK 0

/-- A soft reset: registers first, but for the calibrations' VALID, then the front end stops as on a disable (R50, R103). -/
def State.rfeReset (s : State) : State :=
  ((s.srstPage Pg.RFE).fset RFE_CAL_STAT.VALID (s.fget RFE_CAL_STAT.VALID)).rfeOff

/-- Effect of a write to RFE_CTRL (R84, R85). -/
def rfeCtrlHook (w : WCtx) (s : State) : State :=
  let s := if w.sets RFE_CTRL.MAN && s.fbit CAD_CTRL.EN then (s.fset RFE_CTRL.MAN 0).fset RFE_STAT.MAN_REFUSED 1 else s
  let s := if s.fbit RFE_CTRL.MAN then s.fset RFE_STAT.PORT (s.fget RFE_CTRL.PORT) else s
  let s := if w.sets RFE_CTRL.MAN && s.fbit RFE_CTRL.MAN then s.manTune else s
  if w.one RFE_CTRL.SRST then s.rfeReset
  else if w.clears RFE_CTRL.EN then s.rfeOff
  else if w.sets RFE_CTRL.EN then { s with rfe := { s.rfe with servesFrom := s.frcN + us 40 } }.workNext none else s

/-- Effect of a write to a register of the RFE page. -/
def rfeHook (w : WCtx) (s : State) : State :=
  if w.off = 0x004 then rfeCtrlHook w s
  else if w.off = 0x044 then
    if s.fbit RFE_CTRL.MAN then s.manTune else s
  else if w.off = 0x054 then
    let bits := fieldGet w.ones RFE_CAL_REQ.REQ
    (s.fset RFE_CAL_REQ.REQ 0).calRequest bits
  else s

def execRfeManWrite (a : Acc) (v : Word) (s : State) : Host.Outcome State Fault Refusal :=
  .next (s.writeReg rfeHook a RFE_CTRL.addr v)

def execRfeSynManWrite (a : Acc) (v : Word) (s : State) : Host.Outcome State Fault Refusal :=
  .next (s.writeReg rfeHook a RFE_SYN_MAN.addr v)

def execRfeDisable (a : Acc) (v : Word) (s : State) : Host.Outcome State Fault Refusal :=
  .next (s.writeReg rfeHook a RFE_CTRL.addr v)

def execRfeCalReq (a : Acc) (v : Word) (s : State) : Host.Outcome State Fault Refusal :=
  .next (s.writeReg rfeHook a RFE_CAL_REQ.addr v)

/-- 60 us after the tick of a Clearing pending work starts (R99, R146, R457). -/
def execClearingWorkStart (t : Frc) (s : State) : Host.Outcome State Fault Refusal :=
  let s := s.advance t
  match s.slot with
  | some sl =>
    if sl.kind = .clearing && s.atOffset sl 60 && !sl.tail then
      let lim := s.frcN + (sl.tickNt + s.slotLen - us s.tmpl.tailMin - s.nt)
      .next ({ s with rfe := { s.rfe with clearingEnd := some lim } }.workNext none)
    else .next s
  | none => .next s

/-- A calibration completes: results and VALID, or FAIL with the previous results kept (R101); VCO_BAND also renews T_CAL and
clears CAL_STALE, within its limits or not (R102). The next item follows. -/
def State.calEnds (s : State) (b : Nat) (inLimits : Bool) : State :=
  if s.rfe.running = some b then
    let s := (s.workGone b).setRfe fun r => { r with running := none }
    let s := (s.fset RFE_STAT.CAL_RUN 0).fset ⟨RFE_CAL_STAT.addr, 8 + b, 1⟩ 0
    let s := if inLimits then s.fset ⟨RFE_CAL_STAT.addr, b, 1⟩ 1 else s.fset ⟨RFE_CAL_STAT.addr, 24 + b, 1⟩ 1
    let s := if b = 0 then
        (s.fset RFE_CAL_TEMP.T_CAL (s.fget RFE_CAL_TEMP.T_NOW)).fset RFE_STAT.CAL_STALE 0
      else s
    let s := (s.raise Pg.RFE 1).event Pg.RFE 1 29
    s.workNext (some b)
  else s

/-- An item that has not started within CAL_DEADLINE slots is withdrawn (R100, R146, R457). -/
def execCalTimeout (item : Fin 10) (s : State) : Host.Outcome State Fault Refusal :=
  let i := item.val
  let since := ((s.rfe.age.find? (fun e => e.1 == i)).map (·.2)).getD s.asnNow
  if s.workPending.contains i && s.rfe.running != some i && max 1 (s.fget RFE_CAL_CFG.DEADLINE) ≤ s.asnNow - since then
    let s := s.workGone i
    if i < 8 then
      .next (((s.fset ⟨RFE_CAL_STAT.addr, 8 + i, 1⟩ 0).fset ⟨RFE_CAL_STAT.addr, 16 + i, 1⟩ 1).raise Pg.RFE 2)
    else if i = 8 then
      .next ((s.fset TXM_MCHK_REQ.PEND 0).fset TXM_MCHK_RES.RESULT 3 |>.raise Pg.TXM 3 |>.raise Pg.RFE 2)
    else .next (((s.fset TST_CAP_REQ.PEND 0).fset TST_CAP_REQ.RESULT 1).raise Pg.TST 2)
  else .next s

/-- The die temperature updates (R102): a drift of TEMP_DELTA requests VCO_BAND, IQ_NB and IQ_WB, once until VCO_BAND completes. -/
def execTempUpdate (temp : BitVec 8) (s : State) : Host.Outcome State Fault Refusal :=
  let s := (s.fset TST_TEMP.T temp.toNat).fset RFE_CAL_TEMP.T_NOW temp.toNat
  let d := (s.fgetI RFE_CAL_TEMP.T_NOW - s.fgetI RFE_CAL_TEMP.T_CAL).natAbs
  if s.fbit RFE_CTRL.TEMP_AUTO && !s.fbit RFE_STAT.CAL_STALE && max 1 (s.fget RFE_CAL_CFG.TEMP_DELTA) ≤ d then
    .next (((s.fset RFE_STAT.CAL_STALE 1).raise Pg.RFE 4).calRequest 0b00011001)
  else .next s

/-! ## Lock (R79 to R81, R91) -/

/-- P_clip of a gain index in dBm (R88). -/
def pClip (i : Nat) : Int := -10 - 6 * (i : Int)

/-- The largest index whose clip level lies above the expected level, or 0 (R91). -/
def gainWish (rssi margin : Int) : Nat :=
  ((List.range 12).filter fun i => decide (rssi + margin ≤ pClip i)).foldl max 0

/-- Index limits of a gain loop (R26, R88): 12 to 15 act as 11, and LIMIT_HI below LIMIT_LO acts as LIMIT_LO. -/
def idx (v : Nat) : Nat := min 11 v

/-- The slot-frozen Canopy gain (R91); a window without an RX cell takes UNK_RSSI (log entry 36). -/
def State.canopyGainSet (s : State) (sl : Slot) : State :=
  let unk := s.fgetI AGC_CNP_CFG.UNK_RSSI
  let cellRssi := fun c => match s.dedicatedRssi c with | some r => r | none => unk
  let cells := sl.served.foldr (fun sv l => sv.cells ++ l) []
  let rssi := if sl.listen || cells.isEmpty then unk else (cells.map cellRssi).foldl max (-128)
  let wish := gainWish rssi (s.fget AGC_CNP_CFG.MARGIN)
  let lo := idx (s.fget AGC_CNP_LIM.LIMIT_LO)
  let hi := max lo (idx (s.fget AGC_CNP_LIM.LIMIT_HI))
  let g := if s.fbit AGC_CTRL.CNP_HOLD || !s.fbit AGC_CTRL.EN then idx (s.fget AGC_CNP_GAIN.HELD) else clampN lo hi wish
  let s := (s.fset AGC_CNP_GAIN.WANT wish).fset AGC_CNP_GAIN.CUR g
  let s := (s.fsetI AGC_CNP_SLOT.RSSI_MAX rssi).fset AGC_CNP_SLOT.SET g
  s.setRfe fun r => { r with window := true, clipRun := 0, override := false, ackSpan := false, spanTail := false, cnpOpen := true, backoffs := 0 }

/-- A narrowband receive window opens at the upper limit of the narrow AGC, or at its held value (R89). -/
def State.narrowGainOpen (s : State) : State :=
  let lo := idx (s.fget AGC_NB_LIM.LIMIT_LO)
  let g := if s.fbit AGC_CTRL.NB_HOLD || !s.fbit AGC_CTRL.EN then idx (s.fget AGC_NB_GAIN.HELD)
    else max lo (idx (s.fget AGC_NB_LIM.LIMIT_HI))
  { s.fset AGC_NB_GAIN.CUR g with rfe := { s.rfe with window := true } }

/-- The indications of a loss of lock (R80, R81). -/
def State.unlockShown (s : State) (sl : Slot) (mid : Bool) : State :=
  let s := ((s.fset RFE_STAT.UNLOCK 1).finc RFE_CNT.UNLOCK).raise Pg.RFE 0
  let s := s.rsetN RFE_ERRINFO.addr (sl.asn % 2 ^ 24 + (if sl.kind = .tx then 2 ^ 24 else 0) + (if mid then 2 ^ 25 else 0))
  s.event Pg.RFE 0 28

/-- At 40 us after the tick the lock detector is sampled (R79). Without a VCO_BAND table the synthesiser does not lock (R103).
Under MAN the sample only shows LOCK (R84). -/
def execLockSample (t : Frc) (locked : Bool) (s : State) : Host.Outcome State Fault Refusal :=
  let s := s.advance t
  let ok := locked && bitOf (s.fget RFE_CAL_STAT.VALID) 0
  match s.slot with
  | none => .next (if s.fbit RFE_CTRL.EN then s.fsetB RFE_STAT.LOCK ok else s)
  | some sl =>
    if sl.lockSeen || sl.lost then .next s
    else if !s.atOffset sl 40 then .next s
    else if sl.kind = .idle then .next s
    else
      let s := { s with slot := some { sl with lockSeen := true, lost := sl.lost || (!ok && sl.kind != SlotKind.clearing) } }
      let s := s.fsetB RFE_STAT.LOCK ok
      if sl.kind = .clearing then .next s
      else if ok then
        .next (if sl.kind = .rx && sl.canopy then s.canopyGainSet sl else s)
      else .next ((s.unlockShown sl false).finc RFE_CNT.LOST)

/-- Loss of lock after the check (R81): a transmission is cut off, lanes in SYNC or DATA abort with cause 4, and the window is
not reopened. -/
def execLossOfLock (t : Frc) (s : State) : Host.Outcome State Fault Refusal :=
  let s := s.advance t
  let s := s.fset RFE_STAT.LOCK 0
  match s.slot with
  | none => .next (s.txAbort 3)
  | some sl =>
    if sl.lost || !sl.lockSeen || !(sl.kind = .tx || sl.kind = .rx) then .next s
    else
      let s := s.unlockShown sl true
      if s.txBusy then .next (s.txAbort 3)
      else
        let s := (List.range 16).foldl (fun s n => s.laneLost n 4) s
        .next { s.windowShut with slot := s.slot.map (fun x => { x with lost := x.lost || x.kind = .rx }) }

/-! ## Gain loops (R89 to R95) -/

/-- One measurement window of the narrow AGC (R89), in an RX slot without Canopy or in the ACK window of a TX slot: the wish is published, and the gain moves unless held or frozen. -/
def execNarrowAgcStep (power : Int) (s : State) : Host.Outcome State Fault Refusal :=
  let narrow := s.rfe.window && (match s.slot with | some sl => !sl.canopy | none => false)
  if narrow && s.fget (LANE_STAT.STATE 0) = 1 && !s.fbit AGC_STAT.NB_FROZEN then
    let g := s.fget AGC_NB_GAIN.CUR
    let tgt := s.fgetI AGC_NB_CFG.TGT
    let wish := if tgt < power then g - 1 else if power < tgt - 6 then min 11 (g + 1) else g
    let lo := idx (s.fget AGC_NB_LIM.LIMIT_LO)
    let hi := max lo (idx (s.fget AGC_NB_LIM.LIMIT_HI))
    let s := s.fset AGC_NB_GAIN.WANT wish
    .next (if s.fbit AGC_CTRL.NB_HOLD || !s.fbit AGC_CTRL.EN then s else s.fset AGC_NB_GAIN.CUR (clampN lo hi wish))
  else .next s

/-- Back the Canopy gain off by one step: counted, every lane in DATA is flagged, and the digital gain of lanes in SEARCH or SYNC rises by 6 dB
(R93, R95). -/
def State.canopyBackOff (s : State) : State :=
  let g := s.fget AGC_CNP_GAIN.CUR - 1
  let s := s.fset AGC_CNP_GAIN.CUR g
  { s with rfe := { s.rfe with backoffs := s.rfe.backoffs + 1 }, lanes := (List.range 16).map fun n =>
      let l := s.lane n
      let st := s.laneSt n
      if st = 3 then { l with disturbed := true } else if st = 1 || st = 2 then { l with dgain := l.dgain + 6 } else l }

/-- A 1 us interval of the wideband ADC ends (R92): counted when clipped, and acted on under R93 and R94; a frozen
narrow loop (R90) judges by the same threshold (log entry 36). -/
def execClipInterval (samples : Nat) (s : State) : Host.Outcome State Fault Refusal :=
  let clipped := decide (clampN 1 102 (s.fget AGC_CNP_CFG.CLIP_THR) ≤ samples)
  let canopy := s.rfe.window && (match s.slot with | some sl => sl.kind = .rx && sl.canopy | none => false)
  if s.rfe.ackSpan || s.rfe.spanTail then .next (s.setRfe fun r => { r with spanTail := false })
  else if canopy then
    let s := s.fsetB AGC_STAT.CLIP_NOW clipped
    if !clipped then .next { s with rfe := { s.rfe with clipRun := 0 } }
    else
      let s := s.finc AGC_CLIP_CNT.CNT
      let lo := idx (s.fget AGC_CNP_LIM.LIMIT_LO)
      let hold := s.fbit AGC_CTRL.CNP_HOLD || !s.fbit AGC_CTRL.EN
      let g := s.fget AGC_CNP_GAIN.CUR
      if lo < g && !hold then
        let s := s.canopyBackOff.setRfe fun r => { r with clipRun := 0 }
        .next ((s.raise Pg.AGC 1).event Pg.AGC 1 30)
      else
        let run := min 4 (s.rfe.clipRun + 1)
        let first := !s.rfe.override
        let s := { s with rfe := { s.rfe with clipRun := run } }
        if run < 4 || g = 0 then .next s
        else
          let s := s.canopyBackOff.setRfe fun r => { r with override := true }
          .next (if first then ((s.fset AGC_STAT.CNP_CLAMP 1).raise Pg.AGC 0).event Pg.AGC 0 30 else s)
  else if s.fbit AGC_STAT.NB_FROZEN && clipped then .next (s.finc AGC_CLIP_CNT.CNT)
  else .next s

/-- Effect of a write to a register of the AGC page (R27): setting HOLD captures the gain in force, and a held value written
while HOLD is 1 is the output of the narrow loop at once; the Canopy gain takes it at the next window. -/
def agcHook (w : WCtx) (s : State) : State :=
  if w.off = 0x004 then
    let s := if w.sets AGC_CTRL.NB_HOLD then s.fset AGC_NB_GAIN.HELD (s.fget AGC_NB_GAIN.CUR) else s
    let s := if w.sets AGC_CTRL.CNP_HOLD then s.fset AGC_CNP_GAIN.HELD (s.fget AGC_CNP_GAIN.CUR) else s
    if w.one AGC_CTRL.SRST then s.srstPage Pg.AGC else s
  else if w.off = 0x044 && s.fbit AGC_CTRL.NB_HOLD then s.fset AGC_NB_GAIN.CUR (idx (s.fget AGC_NB_GAIN.HELD))
  else s

end Sys2Proof.Machine
end

