-- ==== Sys2Proof/Machine/Transmit.lean ====
section
/-!
DEFINITION. The transmitter (R128 to R148): region profiles and blocks, power, the timeline of a transmission, launch, the departure
timestamp and live MIC, ACKs, aborts, the mask self-check, test transmissions and the TXM page.
Readings of the manual made here: PRESUMED in log entry 12; DEDUCED in log entries 38, 43, 46, 47, 53; DESIGN CHOICE in log entries 49, 132.
-/
namespace Sys2Proof.Machine
open Sys2Proof

/-! ## Region profiles and blocks (R145, R147) -/

/-- Hz in the exact unit of `qHz`. -/
def hz (n : Nat) : Nat := n * 2048
/-- Permitted channel centres of profiles 1 to 4 in Hz, both ends included. -/
def profileRanges (p : Nat) : List (Nat × Nat) :=
  match p with
  | 1 => [(169400000, 169812500), (863000000, 870000000)]
  | 2 => [(902000000, 928000000)]
  | 3 => [(920500000, 928100000)]
  | 4 => [(865000000, 867000000)]
  | _ => []

/-- The channel centre lies in the profile's ranges and in a port's range. -/
def State.regionOk (s : State) (f : Nat) : Bool :=
  (portOf (qHz f)).isSome &&
    (match s.fget TXM_REGION.PROFILE with
    | 5 => s.fget TXM_UREG_LO.FREQ ≤ f && f ≤ s.fget TXM_UREG_HI.FREQ
    | 0 | 6 | 7 => s.sys.st = .test
    | p => (profileRanges p).any fun r => hz r.1 ≤ qHz f && qHz f ≤ hz r.2)

/-- Why a launch is not made: 1 the transmitter is disabled, 5 a band block, 6 a self-check block (R144, R145, R147). -/
def State.txBlock (s : State) (f : Nat) : Option Nat :=
  if !s.fbit TXM_CTRL.EN then some 1
  else if !s.regionOk f then some 5
  else if s.fbit TXM_CTRL.MCHK_BLOCK && !(s.fbit TXM_MCHK_RES.VALID && s.fbit TXM_MCHK_RES.PASS) then some 6
  else none

/-- The indications of a block; a disabled transmitter counts only in BLOCKS. -/
def State.txBlocked (s : State) (cause asn : Nat) : State :=
  let s := s.finc TXM_CNT.BLOCKS
  if cause = 1 then s
  else
    let s := ((s.fset TXM_STAT.BAND_BLOCK 1).fset TXM_ERRINFO.ASN asn).fset TXM_ERRINFO.CAUSE cause
    s.raise Pg.TXM 2

/-! ## Power (R142), in half dB -/

def profileCeil (p : Nat) : Int := if p = 3 then 26 else 40
def portMax (port : Nat) : Int := if port = 0 then 34 else 40
def minI (a b : Int) : Int := if a < b then a else b
/-- Requested and applied power, from the sources in order (0x80 is none), at a port. -/
def State.txPower (s : State) (sources : List Nat) (f port : Nat) : Int × Int :=
  let def' := if port = 0 then s.fget TXM_PWR.DEF_LO else s.fget TXM_PWR.DEF_HI
  let req := signed 8 (((sources.find? (· != 0x80))).getD def')
  let req := if req < -20 then -20 else req
  let cap := match s.sbOf f with | some n => if s.fbit DCA_CTRL.EN then s.fgetI (DCA_SB_WIN.CAP n) else 127 | none => 127
  let app := minI (minI (minI req (profileCeil (s.fget TXM_REGION.PROFILE))) (2 * s.fgetI TXM_REGION.CEIL)) (minI cap (portMax port))
  (req, if app < -20 then -20 else app)

def State.txPowerSet (s : State) (sources : List Nat) (f port : Nat) : State :=
  let (req, app) := s.txPower sources f port
  let s := s.rsetN TXM_PWR_LAST.addr (toField 8 req + toField 8 app * 2 ^ 8 + port * 2 ^ 16)
  if app < req then s.fset TXM_STAT.PWR_CLAMP 1 else s

/-- The port of a slot's channel (R76); a channel without one is never tuned. -/
def slotPort (f : Nat) : Nat := (portOf (qHz f)).getD 1

/-! ## The timeline (R131, R132, R172), in 1/1536 us from launch -/

/-- Preamble and SFD up to the end of the last SFD symbol: a mode-switch PPDU comes before it. -/
def depFine (m cell pre : Nat) : Nat := preSfdFine m pre + (if m = cell then 0 else modeSwitchFine cell)
/-- End of HEAD: the end of the PHR, for wM-Bus of the synchronisation word. -/
def headFine (m cell pre : Nat) : Nat :=
  depFine m cell pre + (if isSun m then sunOctet m * (if sunCoded m then 4 else 2) else if isRill m then 140 * 1536 else 0)
/-- Start of the coding block that holds the PSDU's octet `i`. -/
def spliceFine (m cell pre i : Nat) : Nat :=
  headFine m cell pre
    + (if isRill m then 8 * i / rillK m * 576 * 3840 else sunOctet m * (if sunCoded m then 2 else 1) * i)

/-! ## Launch (R133, R136, R215) -/

/-- T_frc and NT_dep of a launch now (R136). No slew is made before T_frc (R137). -/
def State.departure (s : State) (fine : Nat) : State :=
  let t := s.frcN + countsOpen fine
  let n := s.ntAt t
  let s := s.setNtu fun u => { u with slewHold := t }
  (((s.rsetN TXM_TSF_LO.addr t).rsetN TXM_TSF_HI.addr (t / 2 ^ 32)).rsetN TXM_TSN_LO.addr n).rsetN TXM_TSN_HI.addr (n / 2 ^ 32)
/-- NT_dep as the launch computed it. -/
def State.ntDep (s : State) : Nat := s.raw TXM_TSN_LO.addr + s.raw TXM_TSN_HI.addr * 2 ^ 32

/-- The transmission goes on the air: HEAD, counted, with its event; the ramp settings are taken (R130). -/
def State.txStart (s : State) (x : Tx) : State :=
  let s := (s.setTx (some { x with launched := true, ramp := s.rampLen, table := s.rampTable })).fset TXM_STAT.STATE 2
  (s.finc TXM_CNT.STARTS).event Pg.TXM 0 26

/-- A ticket becomes COMMITTED, with or without a launch; the attempt is judged by what follows (R215). -/
def State.commitTicket (s : State) (e : Nat) (launched : Bool) : State :=
  s.onTicket e fun k => { k with st := 4, launched := launched }

/-- A keep-alive's first launch is counted (R204). -/
def State.kaSent (s : State) (k : Ticket) : State :=
  match (if k.ka then s.hdr.kas.find? (fun x => some x.1 == k.nbr && !x.2.2) else none) with
  | some y =>
    let l := s.hdr.kas.map fun (x : Nat × Nat × Bool) => if x.1 = y.1 then (x.1, x.2.1, true) else x
    { s with hdr := { s.hdr with kas := l } }.finc CAD_CNT3.KA_SENT
  | none => s

/-- The transmission of a slot's ticket launched at FRC count `l`, with its instants. -/
def State.ticketTx (s : State) (sl : Slot) (e : Nat) (k : Ticket) (l : Nat) : Tx :=
  let endT := l + fineCounts k.fine
  { what := .ticket e, asn := sl.asn, mode := k.mode, freq := k.cand.freq, launchAt := l
    headEnd := l + fineCounts (headFine k.mode k.cand.mode framePre)
    spliceAt := k.stored.splice.map fun o => l + fineCounts (spliceFine k.mode k.cand.mode framePre o)
    endAt := endT, rampEnd := endT + us s.rampLen, fine := k.fine, shape := k.shape, lead := k.lead, fcs := 4
    fmtB := wmFmtB k.mode k.fmtB, ramp := s.rampLen, table := s.rampTable }

/-- A ticket's frame as it leaves with a tag: the live segment is read from the cells (R132). -/
def State.ticketAir (s : State) (k : Ticket) (ntDep : Nat) (tag : List Byte) : List Byte :=
  match k.stored.info with
  | some i => k.stored.leaves 4 tag (stamp i ntDep (s.livePlain k))
  | none => k.stored.plain
/-- Its tag (R138). -/
def State.ticketTag (s : State) (k : Ticket) (key : List Byte) (ntDep : Nat) : List Byte :=
  match k.stored.info with
  | some i => liveTag i key k.stored 4 (stamp i ntDep (s.livePlain k))
  | none => []

/-- Launch of a ticket on the air. -/
def State.launchTicket (s : State) (sl : Slot) (e : Nat) (k : Ticket) : State :=
  let s := s.departure (depFine k.mode k.cand.mode framePre)
  let key := match k.key with | some (n, _) => some (s.keySlot n).key | none => none
  let tag := s.ticketTag k (key.getD []) s.ntDep
  let x := { s.ticketTx sl e k s.frcN with key := key, tag := tag, ntDep := s.ntDep, octets := s.ticketAir k s.ntDep tag }
  let nbrPwr := match k.nbr with | some n => s.nPwr n | none => 0x80
  let s := (s.commitTicket e true).txPowerSet [k.cand.pwr, nbrPwr] k.cand.freq (slotPort k.cand.freq)
  (s.kaSent k).txStart x

/-- FRC count at which TX_OFFSET of a slot is reached. -/
def State.launchFrc (s : State) (sl : Slot) : Nat := (s.frcAt (sl.tickNt + us s.tmpl.txOffset)).toNat

/-- The transmitter may rise and launch: its domain is powered and no phase is being replayed (R36, R228). -/
def State.txAble (s : State) : Bool := s.dom .rad = .on && !s.cad.replaying

/-- RAMP_LEN before a launch the PA starts to rise (R133, R134), in an RX slot for its ACK too (log entry 38). -/
def execRampUp (t : Frc) (s : State) : Host.Outcome State Fault Refusal :=
  let s := s.advance t
  let up := fun (s : State) (x : Tx) =>
    if x.launchAt ≤ s.frcN + us s.rampLen && s.frcN < x.launchAt && (s.txBlock x.freq).isNone && s.fbit RFE_CTRL.EN then
      (s.setTx (some x)).fset TXM_STAT.STATE 1
    else s
  if s.txBusy || !s.txAble then .next s
  else match s.txm.acks.find? (·.go) with
    | some a =>
      .next (up s { what := .ack, asn := s.slotAsn, mode := a.mode, freq := a.freq, launchAt := a.launchAt, headEnd := a.launchAt
                    spliceAt := none, endAt := a.launchAt, rampEnd := a.launchAt, ramp := s.rampLen, table := s.rampTable })
    | none =>
      match s.slot with
      | some sl =>
        match (if sl.kind = .tx && !sl.lost then s.ticketAt sl.asn else none) with
        | some (e, k) => .next (if k.st = 2 || k.st = 3 then up s (s.ticketTx sl e k (s.launchFrc sl)) else s)
        | none => .next s
      | none => .next s

/-- TX_OFFSET of a TX slot (R133, R144, R145, R147, R215): the ticket is COMMITTED, and launched unless its slot is lost or the launch
is blocked. A ramp that rose for a ticket that is gone ends (R227). -/
def execLaunch (t : Frc) (s : State) : Host.Outcome State Fault Refusal :=
  let s := s.advance t
  match s.slot with
  | none => .next s
  | some sl =>
    if sl.kind != .tx || sl.tail || !s.atOffset sl s.tmpl.txOffset || !s.txAble then .next s
    else match s.ticketAt sl.asn with
      | none => .next s.rampStop
      | some (e, k) =>
        if k.st != 2 && k.st != 3 then .next s
        else if sl.lost then .next (s.commitTicket e false)
        else if !s.fbit RFE_CTRL.EN then
          .next ((({ s with slot := some { sl with lost := true } }).commitTicket e false).finc RFE_CNT.LOST)
        else match s.txBlock k.cand.freq with
          | none => .next (s.launchTicket sl e k)
          | some c =>
            let s := (s.commitTicket e false).txBlocked c sl.asn
            .next (if c = 1 then { s with slot := some { sl with lost := true } }.finc RFE_CNT.LOST else s).rampStop

/-! ## The states of a transmission (R134) -/

/-- HEAD ends at the end of the PHR. -/
def execHeadEnd (t : Frc) (s : State) : Host.Outcome State Fault Refusal :=
  let s := s.advance t
  match s.txm.cur with
  | some x => .next (if s.fget TXM_STAT.STATE = 2 && x.headEnd ≤ s.frcN then s.fset TXM_STAT.STATE 3 else s)
  | none => .next s

/-- The splice point: the live path encodes and plays what it reads from the cells now, with the tag that the launch's reading gave (R132). -/
def execSplicePoint (s : State) : Host.Outcome State Fault Refusal :=
  match s.txm.cur with
  | some x =>
    match x.spliceAt with
    | some p =>
      if s.fget TXM_STAT.STATE = 2 || s.fget TXM_STAT.STATE = 3 then
        let s := (s.advance (BitVec.ofNat 64 p)).fset TXM_STAT.STATE 4
        let oct := match x.what with
          | .ticket e => (match s.ticket e with | some k => s.ticketAir k x.ntDep x.tag | none => x.octets)
          | _ => x.octets
        .next (s.setTx (some { x with octets := oct }))
      else .next s
    | none => .next s
  | none => .next s

/-- The live CBC-MAC has the tag (R138). -/
def execTagComplete (s : State) : Host.Outcome State Fault Refusal :=
  match s.txm.cur with
  | some x => .next (if x.launched && !x.aborted && x.key.isSome then s.setTx (some { x with tagged := true }) else s)
  | none => .next s

/-- The last symbol has left (R134, R187): the frame is sent, and an attempt that requests an ACK waits for it. -/
def execFrameEnd (t : Frc) (s : State) : Host.Outcome State Fault Refusal :=
  let s := s.advance t
  match s.txm.cur with
  | none => .next s
  | some x =>
    let st := s.fget TXM_STAT.STATE
    if x.what = .test || !(st = 2 || st = 3 || st = 4) || s.frcN < x.endAt then .next s
    else
      let s := s.fset TXM_STAT.STATE 5
      let s := { s with txm := { s.txm with air := x.octets, bits := frameBits x.mode x.fcs x.octets, samples := x.samples s.frcN } }
      match x.what with
      | .ticket e =>
        match s.ticket e with
        | some k =>
          let s := s.setTicket e (some { k with sent := true })
          let o := x.endAt + us (s.tmpl.ackDelay - s.tmpl.ackGuard)
          let c := x.endAt + us (s.tmpl.ackDelay + s.tmpl.ackGuard) + fineCounts (preSfdFine k.cand.mode ackPre)
          .next (if k.ackReq then { s with cad := { s.cad with ack := some { opens := o, closes := c } } } else s)
        | none => .next s
      | _ => .next s

/-- Airtime radiated with its ramp-down, in 1/1536 us: exact for a transmission sent to its end, else by the instant of the cut. -/
def Tx.radiated (x : Tx) : Nat :=
  if !x.launched then 0 else if x.aborted then 48 * (x.rampEnd - x.launchAt) else x.fine + 48 * (x.rampEnd - x.endAt)

/-- The ramp-down ends: IDLE, the airtime is known, an ACK is charged, and what waited for IDLE takes effect (R134, R249, R250). -/
def execRampDownEnd (t : Frc) (s : State) : Host.Outcome State Fault Refusal :=
  let s := s.advance t
  match s.txm.cur with
  | none => .next s
  | some x =>
    if s.fget TXM_STAT.STATE != 5 || s.frcN < x.rampEnd then .next s
    else
      let s := s.event Pg.TXM 1 27
      let s := if x.aborted then s else s.raise Pg.TXM 0
      let s := match x.what with
        | .ticket e => s.onTicket e fun k => if k.asn = x.asn then { k with radiated := x.radiated } else k
        | .ack => s.dutyCharge x.freq x.radiated
        | .test => s
      .next s.txToIdle

def execLiveEccError (t : Frc) (s : State) : Host.Outcome State Fault Refusal := .next ((s.advance t).txAbort 4)

/-! ## ACKs (R141, R250) -/

/-- The oldest ACK that is still building is ready. -/
def ackReady : List AckBuild → List AckBuild
  | [] => []
  | a :: l => if a.ready then a :: ackReady l else { a with ready := true } :: l
def execAckBuildDone (t : Frc) (s : State) : Host.Outcome State Fault Refusal :=
  let s := s.advance t
  .next { s with txm := { s.txm with acks := ackReady s.txm.acks } }

/-- The ACK leaves the list of those that wait. -/
def State.ackDrop (s : State) (frame : Nat) : State :=
  { s with txm := { s.txm with acks := s.txm.acks.filter fun a => a.frame != frame } }

/-- An ACK that is to be sent launches (R141): blocked or not admitted it is not sent. -/
def execAckLaunch (t : Frc) (s : State) : Host.Outcome State Fault Refusal :=
  let s := s.advance t
  match s.txm.acks.find? (fun a => a.go && a.ready) with
  | none => .next s
  | some a =>
    let ramped := match s.txm.cur with | some x => x.what = .ack && !x.launched && !x.aborted | none => false
    if s.frcN < a.launchAt then .next s
    else
      let s := s.ackDrop a.frame
      let stop := fun (s : State) => if ramped then s.txToIdle else { s with txm := { s.txm with backFrom := s.frcN } }
      if (s.txBusy && !ramped) || !s.txAble || !s.fbit RFE_CTRL.EN || s.sys.st = .recovery then .next { s with txm := { s.txm with backFrom := s.frcN } }
      else match s.txBlock a.freq with
        | some c => .next ((stop s).txBlocked c s.slotAsn)
        | none =>
          let fine := airtimeFine a.mode false a.room.length ackPre
          if !s.dutyAdmits a.freq fine false then .next (((stop s).finc DCA_CNT.ACK_REF).raise Pg.DCA 1)
          else
            let s := s.departure (preSfdFine a.mode ackPre)
            let endT := s.frcN + fineCounts fine
            let key := a.key.map fun k => (s.keySlot k).key
            let tag := liveTag (ackInfo a) (key.getD []) a.stored a.fcs a.room
            let x : Tx :=
              { what := .ack, asn := s.slotAsn, mode := a.mode, freq := a.freq, launchAt := s.frcN
                headEnd := s.frcN + fineCounts (headFine a.mode a.mode ackPre)
                spliceAt := a.stored.splice.map fun o => s.frcN + fineCounts (spliceFine a.mode a.mode ackPre o), endAt := endT
                rampEnd := endT + us s.rampLen, fine := fine, shape := a.shape, fcs := a.fcs, key := key, tag := tag, ntDep := s.ntDep
                octets := a.stored.leaves a.fcs tag a.room }
            let pwr := match a.nbr with | some n => s.nPwr n | none => 0x80
            .next (((s.descSet a.frame 3 28 1 1).txPowerSet [pwr] a.freq (slotPort a.freq)).txStart x)

/-! ## Mask self-check (R146) -/

/-- ACP limits of the profile or of TXM_MCHK_MODE, in dBc. -/
def State.acpLimits (s : State) : Nat × Nat :=
  if s.fbit TXM_MCHK_MODE.LIM_SRC then (s.fget TXM_MCHK_MODE.ACP1_LIM, s.fget TXM_MCHK_MODE.ACP2_LIM)
  else match s.fget TXM_REGION.PROFILE with
    | 2 => (20, 30)
    | 3 => (30, 40)
    | 5 => (s.fget TXM_MCHK_MODE.ACP1_LIM, s.fget TXM_MCHK_MODE.ACP2_LIM)
    | _ => (37, 47)

/-- A request: not ready, or pending in the queue of Clearing work. -/
def State.mchkRequest (s : State) : State :=
  let v := s.fget RFE_CAL_STAT.VALID
  if modeNoTx (s.fget TXM_MCHK_MODE.MODE) || !(bitOf v 0 && bitOf v 2 && bitOf v 5) then
    (s.fset TXM_MCHK_RES.RESULT 2).raise Pg.TXM 3
  else if s.fbit TXM_MCHK_REQ.PEND then s
  else
    let s := s.fset TXM_MCHK_REQ.PEND 1
    (s.workAge [8]).workNext none

def execMchkDone (acp1 acp2 : BitVec 8) (s : State) : Host.Outcome State Fault Refusal :=
  if s.rfe.running = some 8 then
    let s := (s.workGone 8).setRfe fun r => { r with running := none }
    let s := (s.fset TXM_STAT.MCHK_RUN 0).fset TXM_MCHK_REQ.PEND 0
    let pass := decide (acp1.toInt ≤ -(s.acpLimits.1 : Int)) && decide (acp2.toInt ≤ -(s.acpLimits.2 : Int))
    let w := acp1.toNat + acp2.toNat * 2 ^ 8 + (if pass then 2 ^ 16 else 2 ^ 18) + 2 ^ 17
    .next (((s.rsetN TXM_MCHK_RES.addr w).raise Pg.TXM 3).workNext (some 8))
  else .next s

/-! ## Test transmissions (R148) and custom taps (R129) -/

/-- A write of a test mode is accepted or refused; mode 0 and 3 end a test, whose samples an observer then has. -/
def State.txTest (s : State) : State :=
  let m := s.fget TXM_TEST.MODE
  let f := s.fget RFE_SYN_MAN.FREQ
  let testing := match s.txm.cur with | some x => x.what = .test | none => false
  if m = 0 || m = 3 then
    match s.txm.cur with
    | some x =>
      if testing && s.fget TXM_STAT.STATE != 5 then
        let s := { s with txm := { s.txm with samples := x.samples s.frcN } }
        (s.setTx (some { x with endAt := s.frcN, rampEnd := s.frcN + us x.ramp })).fset TXM_STAT.STATE 5
      else s
    | none => s
  else if s.sys.st = .test && s.fbit RFE_CTRL.MAN && s.fbit TXM_CTRL.EN && s.regionOk f
      && !(m = 2 && modeNoTx (s.fget TXM_TEST.AIRMODE)) && (!s.txBusy || testing) then
    let am := s.fget TXM_TEST.AIRMODE
    let x : Tx := { what := .test, asn := s.slotAsn, mode := am, freq := f, launchAt := s.frcN, headEnd := s.frcN
                    spliceAt := none, endAt := s.frcN, rampEnd := s.frcN, launched := true, shape := s.shapeOf am, cw := m = 1
                    ramp := s.rampLen, table := s.rampTable }
    if testing && s.fget TXM_STAT.STATE = 3 then s.setTx (some x)
    else ((s.txPowerSet [] f (s.fget RFE_CTRL.PORT)).txStart x).fset TXM_STAT.STATE 3
  else (s.fset TXM_TEST.MODE 0).fset TXM_STAT.TEST_REFUSED 1

def firPut : List (Nat × BitVec 16) → Nat → BitVec 16 → List (Nat × BitVec 16)
  | [], i, v => [(i, v)]
  | (b, w) :: l, i, v => if i < b then (i, v) :: (b, w) :: l else if i = b then (i, v) :: l else (b, w) :: firPut l i v
def State.firNext (s : State) : State := s.fset TXM_FIR_IDX.IDX (s.fget TXM_FIR_IDX.IDX + 1)

/-- A soft reset of the transmitter: registers and taps first, then a transmission aborts as on a disable, and a running mask self-check
too (R50, R144). -/
def State.txmReset (s : State) : State :=
  let st := s.fget TXM_STAT.STATE
  let s : State := { s.srstPage Pg.TXM with txm := { s.txm with fir := [] } }
  let s := (s.fset TXM_STAT.STATE st).txAbort 1
  if s.rfe.running = some 8 then s.workAbort else s

/-- Effect of a write to the TXM page. -/
def txmHook (w : WCtx) (s : State) : State :=
  if w.off = 0x004 then
    if w.one TXM_CTRL.SRST then s.txmReset else if w.clears TXM_CTRL.EN then s.txAbort 1 else s
  else if w.off = 0x040 || w.off = 0x078 || (0x058 ≤ w.off && w.off ≤ 0x074) then s.fset TXM_MCHK_RES.VALID 0
  else if w.off = 0x080 then
    let s := { s with txm := { s.txm with fir := firPut s.txm.fir (s.fget TXM_FIR_IDX.IDX) (BitVec.ofNat 16 w.new) } }
    (s.fset TXM_MCHK_RES.VALID 0).firNext
  else if w.off = 0x084 then
    let s := s.fset TXM_MCHK_REQ.REQ 0
    if w.one TXM_MCHK_REQ.REQ then s.mchkRequest else s
  else if w.off = 0x0AC then s.txTest
  else s

/-- TXM_FIR_DATA: the tap at IDX, which moves on after each access. -/
def execTxmFirDataAccess (a : Acc) (w : Option Word) (s : State) : Host.Outcome State Fault Refusal :=
  let t := (s.tap (s.fget TXM_FIR_IDX.IDX)).toNat
  match w with
  | none => .next (s.readAs a.m (viewAddr a.view TXM_FIR_DATA.addr) fun s => (s.firNext, t))
  | some v => .next (s.portWrite txmHook a TXM_FIR_DATA.addr t v)

def execTxmDisable (a : Acc) (v : Word) (s : State) : Host.Outcome State Fault Refusal := .next (s.writeReg txmHook a TXM_CTRL.addr v)
def execMchkReq (a : Acc) (v : Word) (s : State) : Host.Outcome State Fault Refusal := .next (s.writeReg txmHook a TXM_MCHK_REQ.addr v)
def execTxmTestWrite (a : Acc) (v : Word) (s : State) : Host.Outcome State Fault Refusal := .next (s.writeReg txmHook a TXM_TEST.addr v)

end Sys2Proof.Machine
end

