-- ==== Sys2Proof/Machine/Canopy.lean ====
section
/-!
DEFINITION. Canopy (R104 to R127): placing the window and giving out lanes, the states of a lane, the threshold loop, the LDPC
pool, staging, checks and publication of received frames, and the acknowledgements of a receive slot.
Readings of the manual made here: DESIGN CHOICE in log entries 5, 49; DEDUCED in log entries 39, 40, 41, 42, 43, 136.
-/
namespace Sys2Proof.Machine
open Sys2Proof

/-! ## Window placement (R107 to R110) -/

/-- A candidate of a window: a cell, or a pinned lane. -/
structure WinCand where
  cell : Option Nat
  pin : Option Nat
  mode : Nat
  freq : Nat
  wide : Bool
  opens : Nat
  closes : Nat
  deriving DecidableEq, Repr

/-- Same channel and same receive group (R110, R150). -/
def WinCand.shares (a b : WinCand) : Bool := a.freq = b.freq && a.wide = b.wide && rxGroup a.mode = rxGroup b.mode

def State.tailFrom (s : State) : Nat := s.tmpl.slotLen - s.tmpl.tailMin

/-- The candidate of an RX cell, with its guard window (R191). -/
def State.cellCand (s : State) (c : Cand) : WinCand :=
  { cell := some c.cell, pin := none, mode := c.mode, freq := c.freq, wide := modeWide c.mode
    opens := s.tmpl.txOffset - c.guard, closes := s.tmpl.txOffset + c.guard }

/-- Enabled pinned lanes (R126). -/
def State.pinnedLanes (s : State) : List Nat := (List.range 16).filter fun n => s.fbit (LANE_CTRL.EN n) && s.fbit (LANE_CFG.PIN n)
def State.pinCand (s : State) (n : Nat) : WinCand :=
  { cell := none, pin := some n, mode := s.fget (LANE_CFG.MODE n), freq := s.fget (LANE_PIN.FREQ n), wide := s.fbit (LANE_PIN.WIDE n)
    opens := 60, closes := s.tailFrom }

/-- What the placement has found so far: the anchor (reference in 1/2048 Hz and port), the span of indices, the served candidates
with index and lane, the misses with cause, and the lanes still free. -/
structure Placing where
  anchor : Option (Int × Nat) := none
  kmin : Int := 0
  kmax : Int := 0
  served : List (WinCand × Int × Nat) := []
  missed : List (WinCand × Nat) := []
  free : List Nat := []
  deriving DecidableEq, Repr

def binQ : Int := (hz 200000 : Nat)
/-- Centre of a candidate's lower bin in 1/2048 Hz. -/
def WinCand.lower (c : WinCand) : Int := (qHz c.freq : Nat) - (if c.wide then ((hz 100000 : Nat) : Int) else 0)
def minInt (a b : Int) : Int := if a < b then a else b
def maxInt (a b : Int) : Int := if a < b then b else a

/-- One step of R107. Causes as in CNP_ERRINFO. -/
def Placing.add (fec : Bool) (pins : List WinCand) (p : Placing) (c : WinCand) : Placing :=
  match portOf (qHz c.freq) with
  | none => { p with missed := p.missed ++ [(c, 4)] }
  | some port =>
    let (ref, prt) := p.anchor.getD (c.lower, port)
    let p := if p.served.isEmpty then { p with anchor := some (c.lower, port), kmin := 0, kmax := 0 } else p
    let (ref, prt) := if p.served.isEmpty then (c.lower, port) else (ref, prt)
    let k := roundDiv (c.lower - ref) binQ.toNat
    let r := c.lower - ref - k * binQ
    let top := k + (if c.wide then 1 else 0)
    let lane := match c.pin with
      | some n => some n
      | none => match pins.find? (fun q => c.shares q) with
        | some q => q.pin
        | none => match p.served.find? (fun (x : WinCand × Int × Nat) => c.shares x.1) with
          | some x => some x.2.2
          | none => p.free.head?
    let miss := fun n => { p with missed := p.missed ++ [(c, n)] }
    if port != prt then miss 4
    else if binQ < 4 * (r.natAbs : Int) then miss 2
    else if isRill c.mode && !fec then miss 5
    else if 48 < maxInt p.kmax top - minInt p.kmin k + 1 then miss 1
    else match lane with
      | none => miss 3
      | some n =>
        { p with served := p.served ++ [(c, k, n)], kmin := minInt p.kmin k, kmax := maxInt p.kmax top
                 free := p.free.filter (· != n) }

/-- The centre inside a port's range, moved in 200 kHz steps; the shift of the bins follows. -/
def shiftIn (port : Nat) : Nat → Int → Int → Int × Int
  | 0, f, sh => (f, sh)
  | n + 1, f, sh =>
    if portOf f.toNat = some port then (f, sh)
    else if f < (mhz 470000 : Nat) && port = 1 || f < (mhz 150000 : Nat) then shiftIn port n (f + binQ) (sh - 1)
    else shiftIn port n (f - binQ) (sh + 1)

/-- The placed window: centre in synthesiser units, served lanes, placing. -/
structure Placed where
  fc : Nat
  served : List Served
  missed : List (WinCand × Nat)
  deriving DecidableEq, Repr

/-- The cells a lane serves with the lane itself: one entry per lane, in order of rank. -/
def gather (bin : Int → Int) (l : List (WinCand × Int × Nat)) : List Served :=
  let lanes := (l.map fun x => x.2.2).eraseDups
  let one := fun (n : Nat) =>
    let mine := l.filter fun x => x.2.2 == n
    match mine with
    | [] => none
    | x :: _ =>
      let pinned := mine.any fun x => x.1.pin.isSome
      let cells := mine.filterMap fun x => x.1.cell
      let base := match mine.find? (fun x => x.1.pin.isSome) with | some y => y | none => x
      some { cells := cells, lane := n, bin := bin base.2.1, wide := base.1.wide, mode := base.1.mode, freq := base.1.freq
             rank := (if cells.isEmpty then 2048 + n else l.findIdx (fun y => y.2.2 == n)), pinned := pinned
             opens := (mine.map fun x => x.1.opens).foldl min base.1.opens, closes := (mine.map fun x => x.1.closes).foldl max 0 : Served }
  lanes.filterMap one

/-- Placement of a slot's window over its RX cells in arbitration order and the pinned lanes (R107, R108); f_c is shown in the nearest
synthesiser unit (log entry 40). -/
def State.placeWindow (s : State) (cells : List Cand) : Placed :=
  let pins := (s.pinnedLanes.filter fun n => !modeReserved (s.fget (LANE_CFG.MODE n))).map s.pinCand
  let free := (List.range 16).filter fun n => s.fbit (LANE_CTRL.EN n) && !s.fbit (LANE_CFG.PIN n)
  let p := (cells.map s.cellCand ++ pins).foldl (Placing.add (s.fbit FEC_CTRL.EN) pins) { free := free }
  match p.anchor with
  | none => ⟨0, [], p.missed⟩
  | some (ref, port) =>
    if p.served.isEmpty then ⟨0, [], p.missed⟩
    else
      let n := p.kmax - p.kmin + 1
      let blo := -24 + (48 - n) / 2
      let (f, sh) := shiftIn port 64 (ref + (p.kmin - blo) * binQ) 0
      ⟨(roundDiv f 15625).toNat, gather (fun k => blo + (k - p.kmin) + sh) p.served, p.missed⟩

/-- Indications of what a placement missed (R109); a pinned lane only sets PIN_MISS. -/
def State.missNote (s : State) (asn : Nat) (x : WinCand × Nat) : State :=
  match x.1.cell, x.1.pin with
  | some c, _ =>
    let s := s.finc CNP_WMISS.CNT
    let s := match x.2 with
      | 1 => s.finc CNP_MISS_CNT.SPAN | 2 => s.finc CNP_MISS_CNT.RASTER | 3 => s.finc CNP_MISS_CNT.LANES
      | 4 => s.finc CNP_MISS_CNT.PORT | _ => s
    let s := s.rsetN CNP_ERRINFO.addr (c + x.2 * 2 ^ 11 + asn % 2 ^ 16 * 2 ^ 16)
    ((s.fset CNP_STAT.MISS 1).raise Pg.CNP 0).event Pg.CNP 0 31
  | none, some n => s.fset (LANE_STAT.PIN_MISS n) 1
  | none, none => s

/-- A lane's assignment of the slot is shown in LANEn_CUR. -/
def State.laneAssign (s : State) (n : Nat) (sv : Option Served) : State :=
  let s := s.setLane n { s.lane n with serves := sv, searching := false, paused := false }
  match sv with
  | none => s.rsetN (LANE_CUR.addr n) 0
  | some v => s.rsetN (LANE_CUR.addr n)
      (v.cells.headD 0 + (if v.cells.isEmpty then 0 else 2 ^ 11) + toField 6 v.bin * 2 ^ 12 + (if v.wide then 2 ^ 18 else 0) + v.mode * 2 ^ 20)

/-- Every lane latches its configuration (R104); a held value written while HOLD is 1 becomes the output (R27). -/
def State.laneLatch (s : State) (n : Nat) : State :=
  let l := s.lane n
  let h := s.fgetI (LANE_THV.HELD n)
  let take := s.fbit (LANE_CTRL.THR_HOLD n) && h != s.fgetI (LANE_THV.CUR n)
  let s := s.setLane n { l with thrCfg := s.raw (LANE_THR.addr n), cfg := s.raw (LANE_CFG.addr n), pd := s.raw (LANE_PD.addr n), thr := if take then h * 256 * 16 ^ l.den else l.thr }
  if take then s.fsetI (LANE_THV.CUR n) h else s

/-- Canopy's part of the tick of a slot that it serves: the window's registers, misses and lanes (R107 to R110). -/
def State.openWindow (s : State) (asn : Nat) (p : Placed) (listen : Bool) : State :=
  let s := p.missed.foldl (fun s x => s.missNote asn x) s
  let badPins := s.pinnedLanes.filter fun n => modeReserved (s.fget (LANE_CFG.MODE n))
  let s := badPins.foldl (fun s n => s.fset (LANE_STAT.PIN_MISS n) 1) s
  let cells := (p.served.map fun v => v.cells.length).sum
  let pins := (p.served.filter fun v => v.pinned).length
  let s := s.rsetN CNP_WIN_SRV.addr (min 16 cells + min 16 pins * 2 ^ 8 + min 31 (p.missed.length + badPins.length) * 2 ^ 16)
  let s := if p.served.isEmpty then s else s.fset CNP_WIN.FC p.fc
  let s := s.fsetB CNP_STAT.LISTEN (listen && !p.served.isEmpty)
  p.served.foldl (fun s v => s.laneAssign v.lane (some v)) s

/-- The narrowband reception of an RX slot (R186): lane 0 for the highest cell and those of its channel and mode. -/
def State.narrowServed (s : State) (cells : List Cand) : Option Served :=
  match cells with
  | [] => none
  | c :: _ =>
    let mine := cells.filter fun d => (s.cellCand d).shares (s.cellCand c)
    some { cells := mine.map (·.cell), lane := 0, bin := 0, wide := modeWide c.mode, mode := c.mode, freq := c.freq, rank := 0
           pinned := false, opens := s.tmpl.txOffset - (mine.map (·.guard)).foldl max 0
           closes := s.tmpl.txOffset + (mine.map (·.guard)).foldl max 0 }

/-! ## Lane states (R111 to R118) -/

/-- The slot receives and is not lost. -/
def State.rxSlot (s : State) : Option Slot :=
  match s.slot with | some sl => if sl.kind = .rx && !sl.lost then some sl else none | none => none

/-- The receive window closes with the last search interval, or with the frame that outlasts it: the wideband path and the LNA go off
(R87, R96). `ended` is the closing offset of an interval that has just ended. -/
def State.windowNote (s : State) (ended : Nat) : State :=
  match s.slot with
  | some sl =>
    let last := (sl.served.map fun v => v.closes).foldl max 0
    let busy := (List.range 16).any fun n => decide (2 ≤ s.laneSt n) || (s.lane n).searching
    if sl.kind = .rx && !busy && (last ≤ ended || s.atOffset sl last) then
      s.windowShut
    else s
  | none => s

/-- Guard opening: the lane enters SEARCH, not before the path is ready (R83, R112). -/
def execLaneArm (t : Frc) (lane : Fin 16) (s : State) : Host.Outcome State Fault Refusal :=
  let s := s.advance t
  let n := lane.val
  match s.rxSlot, (s.lane n).serves with
  | some sl, some v =>
    let ready := if sl.canopy then 60 else 40
    let open' := s.atOffset sl (max ready v.opens) && !s.atOffset sl v.closes && !s.txm.away
    if s.cad.replaying || s.laneSt n != 0 || (s.lane n).searching || !sl.lockSeen || !s.fbit (LANE_CTRL.EN n) || !open' then .next s
    else
      let s := (s.setLane n { s.lane n with searching := true }).laneSearch n
      let s := if v.opens < ready then ((s.fset RFE_STAT.GUARD_CLIP 1).finc RFE_CNT.GCLIP).raise Pg.RFE 3 else s
      .next (if sl.canopy then s else s.narrowGainOpen)
  | _, _ => .next s

/-- The guard window of a lane closes: a searching lane is IDLE, a frame goes on (R112). -/
def execSearchEnd (lane : Fin 16) (s : State) : Host.Outcome State Fault Refusal :=
  let n := lane.val
  let ended := match (s.lane n).serves with | some v => v.closes | none => 0
  if !(s.lane n).searching then .next (s.windowNote ended)
  else
    let s := s.setLane n { s.lane n with searching := false, paused := false }
    let s := if s.laneSt n = 1 then s.laneTo n 0 else s
    .next (s.windowNote ended)

/-! ### Detection (R113, R114) -/

/-- A field of the configuration that the window latched. -/
def State.pdField (s : State) (n : Nat) (f : Nat → Fld) : Nat := fieldGet (s.lane n).pd (f n)
/-- Branches that HYP gives a lane. -/
def State.branches (s : State) (n : Nat) : Nat := match fieldGet (s.lane n).cfg (LANE_CFG.HYP n) with | 0 => 1 | 1 => 3 | _ => 5
/-- The spacing of the branches in units of 50 Hz. -/
def State.hspace (s : State) (n : Nat) : Int := 20 * (max 1 (s.pdField n LANE_PD.HSPACE) : Nat)
/-- The centre of a branch from the channel centre, in units of the spacing. -/
def branchCentre (i : Nat) : Int := match i with | 1 => -1 | 2 => 1 | 3 => -2 | 4 => 2 | _ => 0
/-- LANEn_RES.AFC before it is cut to its field: the centre of the winning branch plus the correction, which reaches half the spacing. -/
def State.afcTotal (s : State) (n : Nat) (corr : Int) : Int :=
  branchCentre (s.lane n).hyp * s.hspace n + clampI (-(s.hspace n / 2)) (s.hspace n / 2) corr
/-- Consecutive symbols that detect. -/
def State.pdLen (s : State) (n : Nat) : Nat := max 4 (s.pdField n LANE_PD.PD_LEN)

/-- The mode a lane receives in: that of its assignment, or in the ACK window that of the cell (R187). -/
def State.laneMode (s : State) (n : Nat) : Nat :=
  match (s.lane n).serves, s.slot with
  | some v, _ => v.mode
  | none, some sl => (match sl.cand with | some c => c.mode | none => 0)
  | none, none => 0

/-- The winning branch: higher correlation, then lower index (R114). -/
def winner (l : List (Fin 5 × Nat × Nat)) : Nat :=
  (l.foldl (fun (w : Option (Nat × Nat)) b =>
    match w with
    | none => some (b.1.val, b.2.2)
    | some (i, c) => if c < b.2.2 || (c = b.2.2 && b.1.val < i) then some (b.1.val, b.2.2) else w) none).elim 0 (·.1)

/-- Branches above the threshold at a symbol, with the symbols in a row so far and the correlation: those long enough detect (R114); in a
narrowband window the narrow AGC freezes (R90). -/
def execPreambleDetect (at' : LaneAt) (branches : List (Fin 5 × Nat × Nat)) (s : State) : Host.Outcome State Fault Refusal :=
  let s := s.advance at'.t
  let n := at'.lane.val
  let l := branches.filter fun b => b.1.val < s.branches n && decide (s.pdLen n ≤ b.2.1)
  if s.laneSt n != 1 || (s.lane n).paused || l.isEmpty then .next s
  else
    let s := ((s.laneTo n 2).setLane n { s.lane n with hyp := winner l, detAt := s.frcN }).fadd (LANE_CNT.DET n) l.length
    let narrow := match s.slot with | some sl => !sl.canopy | none => true
    .next (if n = 0 && narrow then s.fset AGC_STAT.NB_FROZEN 1 else s)

/-! ### SFD (R111, R117, R118, R156) -/

/-- The words the lane listens for: behind a mode-switch PPDU, that of the mode it named. -/
def State.laneWords (s : State) (n : Nat) : List (List Bool × Nat × Bool) :=
  match (s.lane n).toMode with
  | some m => [(sunSfd (sunCoded m), m, false)]
  | none => syncWords (s.laneMode n)
/-- FRC at which SFD_TO symbols have passed since the detection. -/
def State.sfdLimit (s : State) (n : Nat) : Nat :=
  let m := ((s.lane n).toMode).getD (s.laneMode n)
  (s.lane n).detAt + fineCounts (max 1 (s.pdField n LANE_PD.SFD_TO) * symFine m)

/-- Duration of a synchronisation word. -/
def wordFine (m : Nat) (fmtB : Bool) : Nat :=
  if isSun m then 2 * sunOctet m else if isRill m then 24 * symFine m else (wmSync m fmtB).length * symFine m
/-- The SFD that ends at `ts` began within SFD_TO symbols of the detection (R111; log entry 136). -/
def State.sfdInTime (s : State) (n ts m : Nat) (fmtB : Bool) : Bool := decide (ts ≤ s.sfdLimit n + fineCounts (wordFine m fmtB))

/-- The offset e of R193 of an SFD at `ts`; the count that T_exp takes between two counts is free. -/
def State.rxOffset (s : State) (sl : Slot) (ts mode : Nat) : Int :=
  (ts : Int) - s.frcAt (sl.tickNt + us s.tmpl.txOffset + countsOpen (preSfdFine mode framePre))

/-- The last bits received at `ts` are held against the words; a match takes timestamp, AFC, RSSI and LQI. -/
def execSfdMatch (at' : LaneAt) (afc : Int) (rssi : BitVec 8) (snrMilliDb : Int) (word : List Bool) (s : State) :
    Host.Outcome State Fault Refusal :=
  let n := at'.lane.val
  let ts := at'.t
  if s.laneSt n != 2 then .next s
  else
    let s := s.advance ts
    let hits := syncHits (s.laneWords n) (s.pdField n LANE_PD.SFD_ERR) word
    let hit := match hits with | [h] => some h | l => l[s.free % l.length]?
    match hit.filter fun h => s.sfdInTime n ts.toNat h.1 h.2 with
    | none => .next s
    | some (code, fmtB) =>
      let lqi := (clampI 0 255 (roundDiv (8 * (snrMilliDb + 5000)) 1000)).toNat
      let l := s.lane n
      let ofs := match s.slot with | some sl => s.rxOffset sl ts.toNat code | none => 0
      let a := s.afcTotal n afc
      let shown := if -2048 ≤ a ∧ a < 2048 then toField 12 a else s.freeStep.free % 2 ^ 12
      let s := (s.laneTo n 3).setLane n { l with ofs := ofs, code := code, fmtB := fmtB, endAt := ts.toNat }
      let s := s.rsetN (LANE_RES.addr n) (rssi.toNat + lqi * 2 ^ 8 + shown * 2 ^ 16 + l.hyp * 2 ^ 28)
      let s := (s.rsetN (LANE_TS_LO.addr n) ts.toNat).rsetN (LANE_TS_HI.addr n) (ts.toNat / 2 ^ 32)
      .next (s.freeStep.freeStep.event (Pg.LANE n) 0 33)

/-- No SFD within SFD_TO symbols (R111). -/
def execSfdTimeout (at' : LaneAt) (s : State) : Host.Outcome State Fault Refusal :=
  let s := s.advance at'.t
  let n := at'.lane.val
  if s.laneSt n != 2 || s.frcN < s.sfdLimit n then .next s
  else .next ((((s.finc (LANE_CNT.SFD_MISS n)).laneDrop n).laneRest n).windowNote 0)

/-- A frame in DATA or DONE is discarded: its cells return, and the lane leaves it. -/
def State.frameDrop (s : State) (n : Nat) : State := (((s.finc CNP_PUB_CNT.DROP).laneDrop n).laneRest n).windowNote 0

/-- The lane hears the ACK window of a TX slot. -/
def State.inAckWindow (s : State) : Bool := match s.slot with | some sl => sl.kind = .tx | none => false

/-- The key of a received secured frame, if the lane may use one (R121, R164, R358, R366). -/
def State.laneKey (s : State) (i : MacInfo) : Option Nat :=
  (s.senderOf i.src).bind fun m => (s.rxKey m ⟨BitVec.ofNat 2 i.keyMode, i.keyIdx⟩).bind fun k =>
    if (s.keySlot k).usable && (s.keySlot k).rad && (s.nExt m).isSome then some k else none

/-- FEC_CFG as the window latched it. -/
def State.fecCfg (s : State) : Nat := match s.slot with | some sl => sl.fecCfg | none => s.raw FEC_CFG.addr

/-- FRC at which the frame of a PHR ends on the air, from the RX timestamp. -/
def State.airEnd (s : State) (n : Nat) (p : Phr) : Nat :=
  let ts := s.raw (LANE_TS_LO.addr n) + s.raw (LANE_TS_HI.addr n) * 2 ^ 32
  ts + fineCounts (airtimeFine p.mode p.fmtB p.len framePre - preSfdFine p.mode framePre)

/-- A frame of a PHR with the header that follows it: cells are staged and the key is chosen, or the frame is dropped (R121). -/
def State.stage (s : State) (n : Nat) (p : Phr) (i : Option MacInfo) : State :=
  let p := { p with ackReq := match i with | some i => i.ackReq && i.version = 2 | none => false }
  let l := { s.lane n with phr := some p, endAt := s.airEnd n p }
  if s.inAckWindow then s.setLane n l
  else match s.takeCells (cellsFor p.len) with
    | none => (s.finc CNP_DROP_CNT.NO_CELLS).frameDrop n
    | some (cs, s') =>
      let s := ((s'.cellsTo cs (some .staged)).poolNote s).setLane n { l with cells := cs }
      match i.filter (·.secured) with
      | none => s
      | some i =>
        match s.laneKey i with
        | some k => s.setLane n { s.lane n with key := some (k, (s.keySlot k).gen) }
        | none =>
          if (match s.slot with | some sl => sl.pubUnknown | none => false) then s.setLane n { s.lane n with noKey := true }
          else (s.finc CNP_DROP2.NO_KEY).frameDrop n

/-- The PHR and the first octets of the PSDU are there (R111, R121, R155, R159): the bits after the word, which code of a coded SUN-FSK frame
it signals, and the octets of the header. -/
def execPhrParsed (at' : LaneAt) (phr : PhrBits) (s : State) : Host.Outcome State Fault Refusal :=
  let s := s.advance at'.t
  let n := at'.lane.val
  let l := s.lane n
  let err := (s.finc (LANE_CNT.PHR_ERR n)).frameDrop n
  if s.laneSt n != 3 || l.phr.isSome then .next s
  else match headOf l.code l.fmtB (viterbiDepth s.fecCfg) phr.rsc phr.inter phr.bits with
    | .bad => .next err
    | .symbol => .next ((s.finc CNP_DROP_CNT.CRC).frameDrop n)
    | .switch m =>
      if modeWide m = modeWide (s.laneMode n) then
        .next ((s.setLane n { l with toMode := some m, detAt := s.frcN }).laneTo n 2)
      else .next err
    | .frame p => .next (s.stage n p (if isWmbus p.mode then none else (parseHead phr.mhr).map (·.1)))

/-- The last bit is decoded: DONE (R111). A Rill frame waits for its codewords. -/
def execLastBitDecoded (lane : Fin 16) (t : Frc) (bits : List Bool) (s : State) : Host.Outcome State Fault Refusal :=
  let s := s.advance t
  let n := lane.val
  match (s.lane n).phr with
  | none => .next s
  | some p =>
    if s.laneSt n != 3 || (isRill p.mode && (s.lane n).cwOut < rillCodewords p.mode p.len) then .next s
    else
      let f := frameOf p (viterbiDepth s.fecCfg) bits (s.lane n).info
      let s := (s.laneTo n 4).setLane n { s.lane n with frame := some f }
      .next ((s.raise (Pg.LANE n) 0).event (Pg.LANE n) 1 34)

/-! ## Threshold loop (R115) -/

/-- A 64 us block in SEARCH: `power` is its mean channel power in 1/256 dBm, `quiet` that no branch exceeded the threshold minus
3 dB. The threshold in force moves on every block (log entry 39). -/
def execThresholdBlock (lane : Fin 16) (power : Int) (quiet : Bool) (s : State) : Host.Outcome State Fault Refusal :=
  let n := lane.val
  let l := s.lane n
  if s.laneSt n != 1 || l.paused then .next s
  else
    let one : Nat := 256 * 16 ^ (l.den + 1)
    let nf := if quiet then 15 * l.nf + power * 16 ^ l.den else 16 * l.nf
    let lo := signed 8 (fieldGet l.thrCfg (LANE_THR.LIMIT_LO n))
    let hi := maxInt lo (signed 8 (fieldGet l.thrCfg (LANE_THR.LIMIT_HI n)))
    let wish := nf + fieldGet l.thrCfg (LANE_THR.MARGIN n) * one
    let thr := 16 * l.thr
    let new := if s.fbit (LANE_CTRL.THR_HOLD n) then thr
      else thr + clampI (-(one : Int)) one (clampI (lo * one) (hi * one) wish - thr)
    let s := s.setLane n { l with nf := nf, thr := new, den := l.den + 1 }
    .next (((s.fsetI (LANE_THV.CUR n) (roundDiv new one)).fsetI (LANE_THV.WANT n) (roundDiv wish one)).fsetI (LANE_THV.NF n) (roundDiv nf one))

/-! ## LDPC pool (R120) -/

/-- Codewords that a decoder took in this very cycle compete anew with one that has just arrived. -/
def State.fecRecall (s : State) : State :=
  let mine := fun (d : Option Codeword) => match d with | some x => if x.taken = s.frcN then some x else none | none => none
  let back := s.fec.dec.filterMap mine
  let s := { s with fec := { s.fec with dec := s.fec.dec.map fun d => if (mine d).isSome then none else d } }
  back.foldl State.cwQueue s

/-- A lane has received a codeword; without the pool it is discarded, and its frame aborts (R127). -/
def execLdpcCodewordReceived (at' : LaneAt) (s : State) : Host.Outcome State Fault Refusal :=
  let s := s.advance at'.t
  let n := at'.lane.val
  let rill := match (s.lane n).phr with | some p => isRill p.mode | none => false
  if s.laneSt n != 3 || !rill then .next s
  else if !s.fbit FEC_CTRL.EN then .next ((s.laneAbort n 1).windowNote 0)
  else
    let s := s.setLane n { s.lane n with cwIn := (s.lane n).cwIn + 1 }
    .next (s.fecRecall.cwQueue { lane := n, recv := s.frcN }).fecFill

/-- A decoder finishes, after its iterations or at their limit; the information bits go to the lane's frame. -/
def execLdpcDecodeDone (dec : Fin 4) (t : Frc) (res : Decoded) (s : State) : Host.Outcome State Fault Refusal :=
  let s := s.advance t
  match (s.fec.dec[dec.val]?).getD none with
  | none => .next s
  | some x =>
    let n := x.lane
    let l := s.lane n
    match l.phr with
    | none => .next s
    | some p =>
      let c := cwWord p l.cwOut res.cw
      let zero := !(rillSyndrome p.mode c).contains true
      let maxit := clampN 1 32 (fieldGet s.fecCfg FEC_CFG.MAXIT)
      let used := if fieldGet s.fecCfg FEC_CFG.ETERM = 1 && zero then min maxit res.iters.toNat else maxit
      let s := { s with fec := { s.fec with dec := setAt s.fec.dec dec.val none } }
      let s := ((s.finc FEC_CNT.CW).fadd FEC_ITER.SUM used).fset FEC_ITER.MAX (max used (s.fget FEC_ITER.MAX))
      let s := if zero then s else (s.finc FEC_CNT.FAIL).raise Pg.FEC 0
      .next (s.setLane n { l with cwOut := l.cwOut + 1, info := l.info ++ c.take (cwInfo p l.cwOut) }).fecFill

/-! ## Checks and publication (R122, R123, R192, R199, R233) -/

/-- Replay check of a secured frame against its sender's entry (R164, R197). -/
def State.replayOk (s : State) (m asn : Nat) (i : MacInfo) (l : List Byte) : Bool :=
  if i.fcSup then s.nbrF m 7 9 1 = 0 || s.nbrF m 6 0 32 + s.nbrF m 7 0 8 * 2 ^ 32 < asn
  else s.nbrF m 7 8 1 = 0 || s.nbrF m 5 0 32 < leNat (sliceOf l i.fcOfs 4)
/-- Replay state advances. -/
def State.replayAdvance (s : State) (m asn : Nat) (i : MacInfo) (l : List Byte) : State :=
  if i.fcSup then ((s.nbrSet m 6 0 32 asn).nbrSet m 7 0 8 (asn / 2 ^ 32)).nbrSet m 7 9 1 1
  else (s.nbrSet m 5 0 32 (leNat (sliceOf l i.fcOfs 4))).nbrSet m 7 8 1 1

/-- Frame types and versions that are published (R160). -/
def MacInfo.published (i : MacInfo) : Bool := i.ftype = 1 || i.ftype = 3 || ((i.ftype = 0 || i.ftype = 2) && i.version = 2)

/-- What a frame's checks answer: dropped, with its counter if it has one, or good, with the octets as they are published. -/
inductive Checked where
  | drop (f : Option Fld) (full : Bool)
  | good (l : List Byte)
  deriving DecidableEq, Repr

def State.rxqFull (s : State) : Bool := max 1 (s.fget TRF_RXQ_CFG.MAX) ≤ s.trf.rxq.length

/-- The checks of R122 in order. -/
def State.frameCheck (s : State) (n asn : Nat) (wm : Bool) (f : RxFrame) (info : Option MacInfo) : Checked :=
  let l := s.lane n
  let last := fun o => if s.rxqFull then .drop (some CNP_DROP2.RXQ_FULL) true else Checked.good o
  if !f.crcOk then .drop (some CNP_DROP_CNT.CRC) false
  else if wm then last f.octets
  else match info with
    | none => .drop none false
    | some i =>
      if !i.published then .drop none false
      else match l.key with
        | none => if i.secured && !l.noKey then .drop (some CNP_DROP2.NO_KEY) false else last f.octets
        | some (k, gen) =>
          let m := (s.senderOf i.src).getD 0
          let r := openFrame (s.keySlot k).key (rxNonce ((s.nExt m).getD 0) asn i f.octets) i f.fcs f.octets
          if (s.keySlot k).gen != gen || !r.1 then .drop (some CNP_DROP_CNT.MIC) false
          else if !s.replayOk m asn i f.octets then .drop (some CNP_DROP_CNT.REPLAY) false
          else last r.2

/-- The cell a published frame is credited to (R192). -/
def creditOf (cands : List Cand) (v : Served) (sender : Option Nat) : Option Cand :=
  let mine := v.cells.filterMap fun c => cands.find? fun d => d.cell == c
  match (if sender.isSome then mine.find? (fun d => d.nbr == sender) else none) with
  | some d => some d
  | none => mine.head?

/-- The ACK build of a published frame that requests one (R125, R141, R160, R163, R179): nothing once its decision point has passed;
a secured one takes its counter, or is not sent without a usable key. -/
def State.ackBuild (s : State) (n : Nat) (l : Lane) (v : Served) (c : Cand) (m : Option Nat) (i : MacInfo) (f : RxFrame) (first : Nat) :
    State :=
  let at' := l.endAt + us s.tmpl.ackDelay
  if !(i.ackReq && i.version = 2 && !l.noKey && c.ackEn) || at' < s.frcN + us 40 then s
  else
    let short := match m with | some x => s.nShort x | none => none
    let tc := clampI (-2047) 2047 (roundDiv (-l.ofs) 32)
    let mk := fun (fc : Option Nat) (key : Option Nat) =>
      ({ lane := n, nbr := m, frame := first, frameEnd := l.endAt, launchAt := at', mode := c.mode, freq := c.freq, fc := fc, key := key
         octets := enhAck i.seq short fc tc, fcs := f.fcs, rank := v.rank, shape := s.shapeOf c.mode } : AckBuild)
    let put := fun (s : State) (a : AckBuild) => let a := s.storeAck a; { s with txm := { s.txm with acks := s.txm.acks ++ [a] } }
    if !i.secured then put s (mk none none)
    else match (match m with | some x => s.nKey0 x | none => none) with
      | none => s.finc CIPH_CNT.ACK_NOKEY
      | some k =>
        if !(s.keySlot k).usable || !(s.keySlot k).rad then s.finc CIPH_CNT.ACK_NOKEY
        else
          let r := s.takeCounter k
          put r.2 (mk (some r.1) (some k))

/-- Publication in one step (R122, R233): descriptor, RX queue, replay state, contact and time sample, ACK build. -/
def State.publishFrame (s : State) (n : Nat) (sl : Slot) (v : Served) (p : Phr) (f : RxFrame) (info : Option MacInfo) (oct : List Byte) :
    State :=
  let l := s.lane n
  let c0 := l.cells.headD 0
  let m := match info with | some i => s.senderOf i.src | none => none
  let cred := creditOf sl.cands v m
  let rssi := s.fget (LANE_RES.RSSI n)
  let lqi := s.fget (LANE_RES.LQI n)
  let s := (s.linkChain l.cells).putOctets l.cells oct true
  let w1 := oct.length % 2 ^ 11 + p.mode * 2 ^ 11 + (if f.fmtB then 2 ^ 17 else 0) + (if l.noKey then 2 ^ 18 else 0)
    + (if l.disturbed then 2 ^ 19 else 0) + m.getD 0 * 2 ^ 20 + (if m.isSome then 2 ^ 30 else 0)
  let a := cellAddr c0
  let s := ((s.setWord (a + 4) w1).setWord (a + 8) (sl.asn % 2 ^ 32)).setWord (a + 12)
    (sl.asn / 2 ^ 32 + rssi * 2 ^ 8 + lqi * 2 ^ 16 + n * 2 ^ 24)
  let s := s.setWord (a + 16) (match cred with | some c => c.cell + 2 ^ 11 | none => 0)
  let s := ((s.setWord (a + 20) (s.raw (LANE_TS_LO.addr n))).setWord (a + 24) (s.raw (LANE_TS_HI.addr n))).setWord (a + 28) 0
  let s := (s.cellsTo l.cells (some .rxq)).setTrf fun t => { t with rxq := t.rxq ++ [c0] }
  let s := ((s.finc CNP_PUB_CNT.PUB).raise Pg.CNP 2).event Pg.CNP 1 32
  let s := match cred with
    | some c => { s with slot := s.slot.map (fun (x : Slot) => ({ x with credited := c.cell :: x.credited } : Slot)) }
    | none => s
  let s := match info.bind (·.dep.head?) with
    | some d => { s with cad := { s.cad with depTime := some (leNat (sliceOf f.octets d.1 d.2)) } }
    | none => s
  match info, m with
  | some i, some x =>
    let s := if l.key.isSome then s.replayAdvance x sl.asn i f.octets else s
    let s := ((s.nbrSet x 15 0 16 (s.nbrF x 15 0 16 + 1)).nbrSet x 0 24 8 rssi).nbrSet x 3 0 8 lqi
    let s := s.contact x sl.asn l.ofs
    let s := if s.nTsrc x then
        (s.rsetN CAD_TC_LAST.addr (toField 16 (roundDiv (-l.ofs) 32) + x * 2 ^ 16 + 2 ^ 31)).ntuSample ⟨-l.ofs, 0, x, false⟩
      else s
    match cred with | some c => s.ackBuild n l v c m i f c0 | none => s
  | some i, none => match cred with | some c => s.ackBuild n l v c none i f c0 | none => s
  | none, _ => s

/-- The lane leaves a frame that was published (R112): a pinned lane searches on, another is IDLE until its interval has ended. -/
def State.laneReleased (s : State) (n : Nat) (v : Served) : State :=
  let s := (s.setLane n { s.lane n with cells := [] }).laneDrop n
  let s := if v.pinned then s.laneRest n else s.laneTo n 0
  s.windowNote 0

/-- The checks of a lane's frame are complete: it is published or discarded (R122). A frame in the ACK window is judged by R188. -/
def State.checkLane (s : State) (n : Nat) : State :=
  let l := s.lane n
  if s.laneSt n != 4 || s.inAckWindow then s
  else match l.frame, l.phr, l.serves, s.slot with
    | some f, some p, some v, some sl =>
      let s := if l.disturbed then (s.fset (LANE_STAT.GAIN_DISTURBED n) 1).fset (LANE_RES.GD n) 1 else s
      let wm := isWmbus p.mode
      let info := if wm then none else parseMhr f.octets f.fcs s.depEid
      match s.frameCheck n sl.asn wm f info with
      | .good oct => (s.publishFrame n sl v p f info oct).laneReleased n v
      | .drop fld full =>
        let s := match fld with | some x => s.finc x | none => s
        let s := if full then (s.fset CNP_STAT.RXQ_FULL 1).raise Pg.CNP 1 else s
        s.frameDrop n
    | _, _, _, _ => (s.laneDrop n).laneRest n

/-- Checks complete, in ascending lane number (R123); a frame that completes during a replay is published after it (R36). -/
def execFrameChecks (lanes : BitVec 16) (t : Frc) (s : State) : Host.Outcome State Fault Refusal :=
  let s := s.advance t
  if s.cad.replaying then .next s else .next ((onesOf 16 lanes.toNat).foldl State.checkLane s)

/-! ## Acknowledgements in a receive slot (R125) -/

def State.ackSkip (s : State) : State := ((s.finc CNP_DROP2.ACK_SKIP).fset CNP_STAT.ACK_SKIP 1).raise Pg.CNP 3

/-- The lanes stop for an ACK: a frame in SYNC or DATA aborts, a search pauses. -/
def State.lanesForAck (s : State) : State :=
  (List.range 16).foldl (fun (s : State) n =>
    let st := s.laneSt n
    if st = 2 || st = 3 then (s.finc CNP_DROP2.ACK_ABORT).laneAbort n 3
    else if st = 1 then s.setLane n { s.lane n with paused := true } else s) s

/-- ACK_DELAY minus 40 us after the end of a frame of a lane: the ACK is skipped, also for another one that is under way (log entry 43), or the
synthesiser leaves the window for it. -/
def execAckDecision (t : Frc) (lane : Fin 16) (s : State) : Host.Outcome State Fault Refusal :=
  let s := s.advance t
  let n := lane.val
  let canopy := match s.slot with | some sl => sl.kind = .rx && sl.canopy | none => false
  match s.txm.acks.find? (fun a => a.lane == n && !a.go && decide (a.launchAt ≤ s.frcN + us 40)) with
  | some a =>
    let busy := (List.range 16).any fun k =>
      (s.laneSt k = 2 || s.laneSt k = 3) && (match (s.lane k).serves with | some v => decide (v.rank < a.rank) | none => false)
    if canopy && (busy || s.txBusy || s.txm.away) then .next ((s.ackDrop a.frame).ackSkip)
    else
      let go := s.txm.acks.map fun (x : AckBuild) => if x.frame = a.frame then { x with go := true } else x
      let s := { s with txm := { s.txm with acks := go, away := canopy }, rfe := { s.rfe with ackSpan := canopy, clipRun := 0 } }
      let s := s.fset RFE_SYN_CUR.FREQ a.freq
      .next (if canopy then s.lanesForAck else s)
  | none =>
    let due := match (s.lane n).phr, (s.lane n).serves, s.slot with
      | some p, some v, some sl =>
        p.ackReq && (v.cells.any fun c => sl.cands.any fun d => d.cell == c && d.ackEn)
          && decide ((s.lane n).endAt + us s.tmpl.ackDelay ≤ s.frcN + us 40)
      | _, _, _ => false
    .next (if canopy && due && 3 ≤ s.laneSt n then
      (s.setLane n { s.lane n with phr := (s.lane n).phr.map fun p => { p with ackReq := false } }).ackSkip else s)

/-- 60 us after the ACK's ramp-down the window is back (R125): paused lanes search on, and clipping is judged from the next whole interval. -/
def execCanopyWindowReturn (t : Frc) (s : State) : Host.Outcome State Fault Refusal :=
  let s := s.advance t
  if !s.txm.away || s.txBusy || s.txm.acks.any (·.go) || s.frcN < s.txm.backFrom + us 60 then .next s
  else
    let part := match s.slot with | some sl => (s.nt - sl.tickNt) % us 1 != 0 | none => false
    let s := { s with txm := { s.txm with away := false }, rfe := { s.rfe with ackSpan := false, spanTail := part, clipRun := 0 } }
    let s := match s.slot with | some sl => s.fset RFE_SYN_CUR.FREQ sl.freq | none => s
    .next { s with lanes := s.lanes.map fun (l : Lane) => ({ l with paused := false } : Lane) }

/-! ## The CNP, LANE and FEC pages (R104, R127) -/

/-- The threshold and NF return to the held value. -/
def State.laneThrReset (s : State) (n : Nat) : State :=
  let h := s.fgetI (LANE_THV.HELD n)
  let s := s.setLane n { s.lane n with nf := h * 256, thr := h * 256, den := 0 }
  (s.fsetI (LANE_THV.CUR n) h).fsetI (LANE_THV.NF n) h

/-- A soft reset of a lane: registers first, then its frame aborts as on a disable (R50, R127). -/
def State.laneReset (s : State) (n : Nat) : State := ((((s.srstPage (Pg.LANE n)).laneThrReset n).laneTo n (s.laneSt n)).laneStop n)

/-- Effect of a write to a LANE page. -/
def laneHook (n : Nat) (w : WCtx) (s : State) : State :=
  if w.off = 0x004 then
    if w.one (LANE_CTRL.SRST n) then s.laneReset n
    else
      let s := if w.clears (LANE_CTRL.EN n) then s.laneStop n else s
      if w.sets (LANE_CTRL.THR_HOLD n) then s.fset (LANE_THV.HELD n) (s.fget (LANE_THV.CUR n)) else s
  else s

/-- Effect of a write to the CNP page: EN is looked at by the next tick. -/
def cnpHook (w : WCtx) (s : State) : State := if w.off = 0x004 && w.one CNP_CTRL.SRST then s.srstPage Pg.CNP else s

/-- Codewords in decoders and queues are discarded, their frames abort (R127). -/
def State.fecOff (s : State) : State :=
  let l := ((s.fec.queue ++ s.fec.dec.filterMap id).map Codeword.lane).eraseDups
  let s := l.foldl (fun s n => s.laneAbort n 1) s
  { s with fec := {} }

/-- Effect of a write to the FEC page. -/
def fecHook (w : WCtx) (s : State) : State :=
  if w.off = 0x004 then
    let s := if w.clears FEC_CTRL.EN then s.fecOff else s
    if w.one FEC_CTRL.SRST then s.fecOff.srstPage Pg.FEC else s
  else s

def execCnpEnWrite (a : Acc) (v : Word) (s : State) : Host.Outcome State Fault Refusal := .next (s.writeReg cnpHook a CNP_CTRL.addr v)
def execLaneDisable (a : Acc) (lane : Fin 16) (v : Word) (s : State) : Host.Outcome State Fault Refusal :=
  .next (s.writeReg (laneHook lane.val) a (LANE_CTRL.addr lane.val) v)
def execFecDisable (a : Acc) (v : Word) (s : State) : Host.Outcome State Fault Refusal := .next (s.writeReg fecHook a FEC_CTRL.addr v)

end Sys2Proof.Machine
end

