-- ==== Sys2Proof/Machine/Glade.lean ====
section
/-!
DEFINITION. The Glade (R271 to R294): its memories and registers as Tanum-G sees them, mailbox, pulse counters, seal loop, legal
log and counters, identity, resets, and the maintenance port.
Readings of the manual made here: DESIGN CHOICE in log entries 3, 4, 85; PRESUMED in log entry 30; DEDUCED in log entries 80, 81, 82, 83, 84, 86.
-/
namespace Sys2Proof.Machine
open Sys2Proof

def State.setGlade (s : State) (f : Glade → Glade) : State := { s with glade := f s.glade }

/-! ## Memories (R271, R275) -/

/-- Where Tanum-G sees the Glade SRAM (log entry 30). -/
def gladeSram : Nat := 0x20000000

/-- What an unlisted Glade address reads as: the factory's code and parameters until they are erased, else erased flash; SRAM
reads zero. -/
def Glade.default (g : Glade) (a : Nat) : Byte :=
  if a < 0x30000 then (if g.codeErased then 0xFF#8 else Config.gladeFlash a)
  else if a < 0x34000 then (if g.parErased then 0xFF#8 else Config.gladeFlash a)
  else if a < 0x40000 then 0xFF#8
  else 0#8

def Glade.byteAt (g : Glade) (a : Nat) : Byte := cellGet g.default g.mem a
def Glade.setByte (g : Glade) (a : Nat) (v : Byte) : Glade := { g with mem := cellPut g.default g.mem a v }
def Glade.setList (g : Glade) (a : Nat) : List Byte → Glade
  | [] => g
  | b :: l => (g.setByte a b).setList (a + 1) l
def Glade.listAt (g : Glade) (a n : Nat) : List Byte := (List.range n).map fun i => g.byteAt (a + i)
def leBytesN : Nat → Nat → List Byte
  | 0, _ => []
  | n + 1, v => BitVec.ofNat 8 v :: leBytesN n (v / 256)
def leNatB (l : List Byte) : Nat := l.foldr (fun b n => n * 256 + b.toNat) 0
/-- Bytes as little-endian words, the last filled with zeros. -/
def toWords (l : List Byte) : List Word :=
  (chunks (ceilDiv l.length 4) 4 l).map fun w => BitVec.ofNat 32 (leNatB w)
def Glade.wordAt (g : Glade) (a : Nat) : Nat := leNatB (g.listAt a 4)
/-- A range of flash is erased. -/
def Glade.clear (g : Glade) (lo hi : Nat) : Glade := { g with mem := g.mem.filter (fun c => !(lo ≤ c.1 && c.1 < hi)) }

/-! ## Interrupt lines (R294, R317) -/

def State.gLine (s : State) (n : Nat) : State :=
  if bitOf s.coreG.edge n then s else { s with coreG := { s.coreG with edge := s.coreG.edge + 2 ^ n } }
def State.gUnline (s : State) (n : Nat) : State :=
  if bitOf s.coreG.edge n then { s with coreG := { s.coreG with edge := s.coreG.edge - 2 ^ n } } else s
/-- Lines pending: the latches, and line 4 while a GADC result is ready. -/
def State.gPending (s : State) : Nat :=
  maskOf ((List.range 12).filter fun n => bitOf s.coreG.edge n || (n == 4 && s.fbit GADC_RES.RDY))

/-! ## Log and legal counters (R286 to R288) -/

/-- Legal counters by index. -/
def cSEAL : Nat := 0
def cMAINT : Nat := 1
def cFWCHG : Nat := 2
def cPWR : Nat := 3
def cRESET : Nat := 4
def State.gCnt (s : State) (k : Nat) : Nat := (s.glade.cnt[k]?).getD 0
/-- A legal counter increments and saturates. -/
def State.gInc (s : State) (k : Nat) : State :=
  s.setGlade fun g => { g with cnt := setAt g.cnt k (min 0xFFFFFFFF (s.gCnt k + 1)) }

/-- Hardware-area entries, with those still to be written. -/
def Glade.hwUsed (g : Glade) : Nat := g.hwN + (g.logQ.filter (·.hw)).length

def Glade.entry (g : Glade) (hw : Bool) (word0 d0 d1 : Nat) : GLogWr :=
  { hw := hw, w0 := BitVec.ofNat 32 (g.logSeq % 65536 + word0), w1 := g.gsec, w2 := BitVec.ofNat 32 d0, w3 := BitVec.ofNat 32 d1 }

/-- A CLASS 0 event is logged; a full hardware area turns it away. `rec` marks RECOVERED. -/
def State.gLog (s : State) (code d0 d1 : Nat) (recovered : Bool := false) : State :=
  s.setGlade fun g =>
    if 256 ≤ g.hwUsed then { g with hwFull := true }
    else
      { g with
        logQ := g.logQ ++ [g.entry true (code * 2 ^ 16 + (if recovered then 2 ^ 25 else 0)) d0 d1]
        logSeq := (g.logSeq + 1) % 65536 }

/-- The front entry reaches the flash. A ring page is erased when the ring enters it again. -/
def Glade.writeEntry (g : Glade) (e : GLogWr) : Glade :=
  let bytes := [e.w0, e.w1, e.w2, e.w3].flatMap fun w => leBytesN 4 w.toNat
  if e.hw then { g.setList (0x38800 + 16 * g.hwN) bytes with hwN := g.hwN + 1 }
  else
    let a := 0x39800 + 16 * g.ringNext
    let g := if g.ringNext % 128 = 0 then g.clear a (a + 2048) else g
    { g.setList a bytes with ringNext := (g.ringNext + 1) % 1664, ringWrap := g.ringWrap || g.ringNext = 1663 }

/-- DATA0 of the latest entry of a code in the hardware area, 0 without one. -/
def Glade.lastOf (g : Glade) (code : Nat) : Nat :=
  (List.range g.hwN).foldl (fun v k =>
    if g.wordAt (0x38800 + 16 * k) / 2 ^ 16 % 256 = code then g.wordAt (0x38808 + 16 * k) else v) 0

/-- At boot, a counter ahead of its latest entry gets the missing entries with RECOVERED set, as far as the area has room. What DATA1 held is
lost with the entry: a free value where the code gives it a meaning. -/
def State.gRecover (s : State) : State :=
  [(cRESET, 1), (cPWR, 2), (cSEAL, 3), (cMAINT, 5), (cFWCHG, 7)].foldl (fun s p =>
    let last := s.glade.lastOf p.2
    (List.range (min (s.gCnt p.1 - last) (257 - s.glade.hwUsed))).foldl (fun s k =>
      if p.2 = 3 || p.2 = 5 then s.gLog p.2 (last + 1 + k) 0 true else (s.gLog p.2 (last + 1 + k) s.free true).freeStep) s) s

/-- Data of a unit of Glade flash that cannot be read: FLASH_ERR, and the data it gives are free (R287). -/
def State.gReadErr (s : State) (a : Nat) : State :=
  let r := (List.range 16).foldl (fun (r : State × List Byte) _ => (r.1.freeStep, r.2 ++ [BitVec.ofNat 8 r.1.free])) (s, [])
  (r.1.setGlade fun g => g.setList a r.2).gLog 10 a 3
/-- Bytes from `lo` to below `hi` are read: every unit among them that cannot be read shows it (log entry 80). -/
def State.gReads (s : State) (lo hi : Nat) : State :=
  (s.glade.dead.filter fun a => lo < a + 16 && a < hi).foldl State.gReadErr s
/-- The unit that holds an address turns out not to be readable. -/
def Glade.die (g : Glade) (a : Nat) : Glade := { g with dead := a / 16 * 16 :: g.dead.filter (· != a / 16 * 16) }
/-- Units from `lo` to below `hi` are erased or programmed anew. -/
def Glade.renew (g : Glade) (lo hi : Nat) : Glade := { g with dead := g.dead.filter fun a => a < lo || hi ≤ a }

/-! ## Grant and sessions (R290 to R293) -/

/-- The grant drops, and with it the accepted privileged command. -/
def State.dropGrant (s : State) : State :=
  if s.glade.grant then { s with glade := { s.glade with grant := false }, hsp := { s.hsp with routeReq := false } } else s

/-- The grant follows the loop, the Glade's token and the session (R290). -/
def State.grantStep (s : State) : State :=
  if (s.glade.sealOpen && s.glade.token) || s.glade.session then s.setGlade fun g => { g with grant := true } else s.dropGrant

/-- The bytes of an identity as a word, byte 0 in bits [7:0] (R289). -/
def identWord (l : List Byte) (j : Nat) : Nat := leNatB ((l.drop (4 * j)).take 4)

/-- Tanum-G right after a Glade reset: the boot ROM holds it. -/
def gladeCore : Core := { psw := 0x400#32 }

/-- A Glade reset (R274): CNT_RESET, the log and GRESET; firmware, pages GCORE, GADC and GLOG, and what runs in them, return to
reset; a session is over, and its grant with it. Counters, seal monitor, log and mailbox go on. -/
def State.gladeReset (s : State) (cause : Nat) : State :=
  let s := if s.glade.session then s.dropGrant else s
  let s := s.resetRegs fun a => pageOf a = Pg.GCORE || pageOf a = Pg.GADC || pageOf a = Pg.GLOG
  let s := { s with coreG := gladeCore }
  let s := s.setGlade fun g =>
    { g with booting := true, run := false, noImage := false, adcRun := false, app0 := 0, app1 := 0, copy := none, latch := []
             session := false, pendEnd := none, op := none, changed := false }
  let s := s.gInc cRESET
  (s.gLog 1 (s.gCnt cRESET) cause).publish 91

/-- A session ends: MAINT_END, the grant drops and the Glade resets (R293). -/
def State.sessionEnd (s : State) (reason : Nat) : State :=
  let s := (s.gLog 6 (s.gCnt cMAINT) reason).publish 90
  ((s.setGlade fun g => { g with session := false }).dropGrant).gladeReset 2

/-- A session is to end: at once, or after the operation in progress. -/
def State.endSession (s : State) (reason : Nat) : State :=
  if !s.glade.session then s
  else if s.glade.op.isSome then s.setGlade fun g => { g with pendEnd := some (g.pendEnd.getD reason) }
  else s.sessionEnd reason

/-! ## Seal loop, token, GSEC -/

/-- The loop is decided OPEN or CLOSED (R284); in BACKUP only an opening is remembered (R273). -/
def State.sealDecide (s : State) (op : Bool) : State :=
  if s.glade.sealKnown && s.glade.sealOpen = op then s
  else
    let s := s.setGlade fun g => { g with sealOpen := op, sealKnown := true, sealLost := g.sealLost || (op && !g.powered) }
    if !s.glade.powered then s
    else
      let s := if op then let s := s.gInc cSEAL; s.gLog 3 (s.gCnt cSEAL) 0 else s.gLog 4 (s.gCnt cSEAL) 0
      let s := (s.gLine 6).publish 89
      if op then s.grantStep else (s.endSession 1).grantStep

def execSealCheck (matched : Bool) (s : State) : Host.Outcome State Fault Refusal :=
  if !s.glade.powered && s.pwr.st != .backup then .next s
  else
    let s := s.setGlade fun g =>
      { g with sealBad := if matched then 0 else min 2 (g.sealBad + 1), sealGood := if matched then min 4 (g.sealGood + 1) else 0 }
    .next (if s.glade.sealBad = 2 then s.sealDecide true else if s.glade.sealGood = 4 then s.sealDecide false else s)

/-- A second as GRC32 measures it, whose error within 3 % is free (R271). -/
def grcSecond : Nat := 31067962 + Config.grcPeriod.toNat % 1921729

/-- The Glade's own token by the rule of R62, timed on GRC32 (R285). -/
def State.gToken (s : State) : Bool :=
  (match s.glade.presLow with | some a => a + 2 * grcSecond ≤ s.now | none => false)
  || (match s.glade.presLong with | some b => s.now ≤ b + 58 * grcSecond | none => false)

/-- The filtered level of PRESENCE_N as the Glade follows it. -/
def State.gPresence (s : State) (low : Bool) : State :=
  if !s.glade.powered then s
  else match s.glade.presLow with
    | none => if low then s.setGlade fun g => { g with presLow := some s.now } else s
    | some a =>
      if low then s
      else s.setGlade fun g => { g with presLow := none, presLong := if a + 2 * grcSecond ≤ s.now then some s.now else g.presLong }

/-- The Glade's token is gained or lost. -/
def execGladeTokenChange (t : Frc) (s : State) : Host.Outcome State Fault Refusal :=
  let s := s.advance t
  .next (if s.glade.token = s.gToken || !s.glade.powered then s
    else ((s.setGlade fun g => { g with token := s.gToken }).gLine 7).grantStep)

def execGrantChange (s : State) : Host.Outcome State Fault Refusal := .next (if s.glade.powered then s.grantStep else s)

/-! ## Pulse counters (R280, R281) -/

def State.gpcGet (s : State) (n : Nat) : Gpc := (s.glade.gpc[n]?).getD {}
def State.gpcSet (s : State) (n : Nat) (f : Gpc → Gpc) : State :=
  s.setGlade fun g => { g with gpc := setAt g.gpc n (f (s.gpcGet n)) }

/-- A counted edge: every PRESC-th changes COUNT and raises line n and the channel's producer. -/
def State.gpcCount (s : State) (n : Nat) (up : Bool) : State :=
  let p := s.fget (GPC_STAT.PRE n) + 1
  if p ≤ s.fget (GPC_CFG.PRESC n) then s.fset (GPC_STAT.PRE n) p
  else
    let s := s.fset (GPC_STAT.PRE n) 0
    ((s.gpcSet n fun c => { c with count := if up then c.count + 1#48 else c.count - 1#48 }).gLine n).publish (92 + n)

/-- Position of the two inputs within a quadrature cycle; A leads B when it rises. -/
def quadPos (a b : Bool) : Nat := match a, b with | false, false => 0 | true, false => 1 | true, true => 2 | false, true => 3

/-- The filtered inputs of a channel change (R280). -/
def State.gpcEdge (s : State) (n : Nat) (pa pb : Bool) : State :=
  let c := s.gpcGet n
  let s := s.gpcSet n fun c => { c with a := pa, b := pb }
  let rise := pa && !c.a
  let both := pa != c.a && pb != c.b
  let up := quadPos pa pb = (quadPos c.a c.b + 1) % 4
  match s.fget (GPC_CFG.MODE n) with
  | 1 => if rise then s.gpcCount n true else s
  | 2 => if pa != c.a then s.gpcCount n true else s
  | 3 => if rise then s.gpcCount n (!pb) else s
  | 4 =>
    if both then s.fadd (GPC_STAT.QERR n) 1
    else if pa = c.a && pb = c.b then s
    else
      let p := c.phase + (if up then 1 else -1)
      if p = 4 || p = -4 then (s.gpcSet n fun c => { c with phase := 0 }).gpcCount n up
      else s.gpcSet n fun c => { c with phase := p }
  | 5 =>
    if both then s.fadd (GPC_STAT.QERR n) 1
    else if pa = c.a && pb = c.b then s
    else s.gpcCount n up
  | _ => s

/-- No edge is counted without VDD (R273). -/
def execGpcEdge (ch : Fin 4) (pa pb : Bool) (s : State) : Host.Outcome State Fault Refusal :=
  .next (if s.glade.powered then s.gpcEdge ch.val pa pb else s)

/-- A capture (R281). -/
def State.gpcCapture (s : State) (n : Nat) : State :=
  let s := if s.fbit (GPC_STAT.VALID n) then s.fset (GPC_STAT.OVR n) 1 else s
  (s.gpcSet n fun c => { c with cap := c.count }).fset (GPC_STAT.VALID n) 1

/-- The seconds counter (R272): CAP_SEC captures, line 5, the watchdog. -/
def execGsecIncrement (s : State) : Host.Outcome State Fault Refusal :=
  if !s.glade.powered then .next s
  else
    let s := (s.setGlade fun g => { g with gsec := g.gsec + 1#32 }).gLine 5
    let s := ((List.range 4).filter fun n => s.fbit (GPC_CFG.CAP_SEC n)).foldl State.gpcCapture s
    .next (if s.fbit GCORE_WDT_CFG.EN then s.fset GCORE_WDT_CFG.CNT (s.fget GCORE_WDT_CFG.CNT - 1) else s)

/-! ## Mailbox (R276, R277) -/

/-- A publish reads its 64 words and copies them. -/
def State.mbStart (s : State) (a : Nat) : State :=
  s.setGlade fun g =>
    { g with copy := some ((List.range 64).map fun i => BitVec.ofNat 32 (g.wordAt (gladeSram + (a / 4 * 4 + 4 * i) % 32768))) }

/-- The copy completes: SEQ advances, the reserved bits are zero, MB_PUB is raised. -/
def State.mbDone (s : State) : State :=
  match s.glade.copy with
  | none => s
  | some l =>
    let seq := (((s.glade.box[0]?).getD 0#32).toNat + 1) % 65536
    let w0 := ((l[0]?).getD 0#32).toNat / 2 ^ 16 % 2 ^ 14 * 2 ^ 16 + seq
    let s := s.setGlade fun g => { g with box := setAt l 0 (BitVec.ofNat 32 w0), copy := none }
    (s.gLine 9).publish 88

def execMbCopyDone (s : State) : Host.Outcome State Fault Refusal := .next s.mbDone

/-- The snapshot of a master. -/
def State.snapOf (s : State) (m : Master) : List Word :=
  ((s.glade.snaps.find? (fun p => p.1 == masterCode m)).map (·.2)).getD []
/-- Word `i` of a master's snapshot; zero before its first read of word 0. -/
def State.snapWord (s : State) (m : Master) (i : Nat) : Nat := (((s.snapOf m)[i]?).getD 0#32).toNat

/-- A read of word 0 captures; during a copy it stalls until the copy ends. -/
def State.mbRead0 (s : State) (m : Master) : State × Nat :=
  let s := s.mbDone
  let s := s.setGlade fun g => { g with snaps := (masterCode m, g.box) :: g.snaps.filter (fun p => p.1 != masterCode m) }
  (s, s.snapWord m 0)

/-- A read of the Glade window: the interconnect and the debug lock judge it, and the HSP has no access to it (R43). -/
def State.windowRead (s : State) (m : Master) (f : State → State × Nat) : State :=
  if !s.busUp || m = .hsp || (m = .debug && !s.sys.dbgUnlocked) then { s with bus := { s.bus with err := true } }
  else
    let r := f s
    { r.1 with bus := { r.1.bus with err := false, data := BitVec.ofNat 32 r.2 } }

def execMailboxWord0Read (m : Master) (viaWindow : Bool) (s : State) : Host.Outcome State Fault Refusal :=
  .next (if viaWindow then s.windowRead m (·.mbRead0 m) else s.readAs m (GMB_MB.addr 0) (·.mbRead0 m))

/-! ## Registers as Tanum-G sees them -/

/-- Value of a Glade register: what stands outside the store is laid over it. -/
def State.gladeReg (s : State) (a : Nat) : Nat :=
  let p := pageOf a
  let off := baseOff a
  let n := (off - 0x40) / 0x20
  let v := s.raw (pageAddr p off)
  if p = Pg.GCORE then
    if off = 0x064 then s.glade.gsec.toNat
    else if off = 0x06C then s.gPending
    else if 0x044 ≤ off && off ≤ 0x060 then identWord s.glade.ident ((off - 0x044) / 4)
    else v
  else if p = Pg.GPC && 0x040 ≤ off && n < 4 then
    let wide (x : BitVec 48) (hi : Bool) : Nat := if hi then (x.sshiftRight 32).toNat % 2 ^ 32 else x.toNat % 2 ^ 32
    match (off - 0x40) % 0x20 with
    | 0x04 => wide (s.gpcGet n).count false
    | 0x08 => wide (s.gpcGet n).count true
    | 0x0C => wide (s.gpcGet n).cap false
    | 0x10 => wide (s.gpcGet n).cap true
    | _ => v
  else if p = Pg.GLOG && off = 0x008 then
    fieldPut (fieldPut v GLOG_STAT.BUSY (if s.glade.logQ.isEmpty then 0 else 1)) GLOG_STAT.ERR (fieldGet v GLOG_STAT.APP_REF)
  else v

/-- A Glade register is the low word of a latch pair (R54): COUNT or CAP. -/
def gladePair (a : Nat) : Bool :=
  pageOf a = Pg.GPC && 0x40 ≤ baseOff a && baseOff a < 0xC0 && ((baseOff a - 0x40) % 0x20 = 0x04 || (baseOff a - 0x40) % 0x20 = 0x0C)

/-- A read by Tanum-G, with its effects: the latch pairs, and fields that a read clears. -/
def State.gladeRead (s : State) (a : Nat) : State × Nat :=
  let a := pageAddr (pageOf a) (baseOff a)
  let v := s.gladeReg a
  if gladePair a then
    let s := s.setGlade fun g =>
      { g with latch := (a, BitVec.ofNat 32 (s.gladeReg (a + 4))) :: g.latch.filter (fun l => l.1 != a) }
    (if (baseOff a - 0x40) % 0x20 = 0x0C then s.fset (GPC_STAT.VALID ((baseOff a - 0x40) / 0x20)) 0 else s, v)
  else if gladePair (a - 4) then (s, (((s.glade.latch.find? (fun l => l.1 == a - 4)).map (·.2)).getD 0#32).toNat)
  else if a = GADC_RES.addr then (s.fset GADC_RES.RDY 0, v)
  else if pageOf a = Pg.GPC && 0x40 ≤ baseOff a && baseOff a < 0xC0 && (baseOff a - 0x40) % 0x20 = 0x14 then
    (s.fset (GPC_STAT.QERR ((baseOff a - 0x40) / 0x20)) 0, v)
  else (s, v)

/-- An entry of firmware is appended, or refused for its code (R287). -/
def State.gAppend (s : State) (w2 : Nat) : State :=
  let code := s.glade.app0.toNat % 256
  if code < 0x80 then s.fset GLOG_STAT.APP_REF 1
  else
    s.setGlade fun g =>
      { g with
        logQ := g.logQ ++ [g.entry false (code * 2 ^ 16 + 2 ^ 24) g.app1.toNat w2]
        logSeq := (g.logSeq + 1) % 65536 }

/-- Watchdog timeout in seconds; values below 2 act as 2. -/
def State.gWdtTo (s : State) : Nat := max 2 (s.fget GCORE_WDT_CFG.TO)

/-- A display frame is sent from bit LEN − 1 down, or discarded with OVF while one is being sent. -/
def State.gdspSend (s : State) (v : Nat) : State :=
  if s.fbit GCORE_DSP_CFG.BUSY then s.fset GCORE_DSP_CFG.OVF 1
  else
    let n := clampN 8 32 (s.fget GCORE_DSP_CFG.LEN)
    (s.setGlade fun g => { g with dspOut := (List.range n).map fun i => bitOf v (n - 1 - i) }).fset GCORE_DSP_CFG.BUSY 1

/-- SRST of a Glade page (R50): its registers return to reset and its work stops. A running watchdog goes on (R294). -/
def State.gladeSrst (s : State) (p : Nat) : State :=
  let wdt := s.fbit GCORE_WDT_CFG.EN
  let s := s.resetRegs fun a => srstClears p a && !(wdt && a = GCORE_WDT_CFG.addr)
  if p = Pg.GCORE then { s.setGlade fun g => { g with copy := none } with coreG := { s.coreG with edge := 0 } }
  else if p = Pg.GPC then s.setGlade fun g => { g with gpc := g.gpc.map fun c => ({ c with count := 0, cap := 0, phase := 0 } : Gpc) }
  else s.setGlade fun g => if p = Pg.GADC then { g with adcRun := false } else { g with app0 := 0, app1 := 0 }

/-- A register write by Tanum-G, by field type and with its effect. -/
def State.gladeWrite (s : State) (a : Nat) (v : Word) : State :=
  let view := viewOf a
  let a := pageAddr (pageOf a) (baseOff a)
  (descOf a).elim s fun d =>
    let old := s.rget a
    let new := writeValue d view old v
    let ones := if view = .base || view = .set then (v &&& d.w1s).toNat else 0
    let wo := if view = .base then (v &&& d.wo).toNat else 0
    let hit := view = .base
    let p := pageOf a
    let off := offOf a
    if off = 0x01C then s
    else if off = 0x014 then (if hit then s.rset (INT_RAW.addr p) (s.rget (INT_RAW.addr p) &&& ~~~v) else s)
    else if off = 0x004 then
      let s := s.rset a (new &&& ~~~2#32)
      if bitOf ones 1 then s.gladeSrst p else s
    else if a = GCORE_MBSRC.addr then (if hit then s.mbStart (fieldGet wo GCORE_MBSRC.ADDR) else s)
    else if a = GCORE_IPEND.addr then
      (if hit then [5, 9, 10].foldl (fun s n => if bitOf v.toNat n then s.gUnline n else s) s else s)
    else if a = GCORE_WDT_CFG.addr then
      if fieldGet old.toNat GCORE_WDT_CFG.EN = 1 then s
      else
        let s := s.rset a new
        if s.fbit GCORE_WDT_CFG.EN then s.fset GCORE_WDT_CFG.CNT s.gWdtTo else s
    else if a = GCORE_WDT_KICK.addr then
      (if wo % 65536 = 0x3C96 && s.fbit GCORE_WDT_CFG.EN then (s.fset GCORE_WDT_CFG.CNT s.gWdtTo).gUnline 11 else s)
    else if a = GCORE_RESET.addr then (if wo % 65536 = 0xA5C3 then s.gladeReset 2 else s)
    else if a = GCORE_DSP_DATA.addr then (if hit then s.gdspSend wo else s)
    else if p = Pg.GPC && 0x40 ≤ off && off < 0xC0 && (off - 0x40) % 0x20 = 0 then
      let n := (off - 0x40) / 0x20
      let s := (s.rset a new).fset (GPC_CFG.CAPTURE n) 0
      if fieldGet ones (GPC_CFG.CAPTURE n) = 1 then s.gpcCapture n else s
    else if a = GADC_CFG.addr then
      let s := (s.rset a new).fset GADC_CFG.START 0
      if fieldGet ones GADC_CFG.START = 1 then s.setGlade fun g => { g with adcRun := true } else s
    else if a = GLOG_APPEND.addr 0 then (if hit then s.setGlade fun g => { g with app0 := BitVec.ofNat 32 wo } else s)
    else if a = GLOG_APPEND.addr 1 then (if hit then s.setGlade fun g => { g with app1 := BitVec.ofNat 32 wo } else s)
    else if a = GLOG_APPEND.addr 2 then (if hit then s.gAppend wo else s)
    else s.rset a new

/-- What Tanum-G does through its firmware happens only while firmware runs. -/
def State.byFirmware (s : State) (f : State → State) : Host.Outcome State Fault Refusal :=
  .next (if s.glade.run then f s else s)

def execGcoreMbsrc (v : Word) (s : State) : Host.Outcome State Fault Refusal := s.byFirmware (·.gladeWrite GCORE_MBSRC.addr v)
def execGpcCapture (ch : Fin 4) (v : Word) (s : State) : Host.Outcome State Fault Refusal :=
  s.byFirmware (·.gladeWrite (GPC_CFG.addr ch.val) v)
def execGladeWdtKick (v : Word) (s : State) : Host.Outcome State Fault Refusal := s.byFirmware (·.gladeWrite GCORE_WDT_KICK.addr v)
def execGladeWdtEnable (v : Word) (s : State) : Host.Outcome State Fault Refusal := s.byFirmware (·.gladeWrite GCORE_WDT_CFG.addr v)
def execGladeSelfReset (v : Word) (s : State) : Host.Outcome State Fault Refusal := s.byFirmware (·.gladeWrite GCORE_RESET.addr v)
def execGlogAppend (v : Word) (s : State) : Host.Outcome State Fault Refusal := s.byFirmware (·.gladeWrite (GLOG_APPEND.addr 2) v)
def execGadcStart (v : Word) (s : State) : Host.Outcome State Fault Refusal := s.byFirmware (·.gladeWrite GADC_CFG.addr v)
def execGdspFrame (v : Word) (s : State) : Host.Outcome State Fault Refusal := s.byFirmware (·.gladeWrite GCORE_DSP_DATA.addr v)

/-- A read of GPC_CAPn_LO; a capture of the same cycle lands after it, without OVR (R281). -/
def execGpcCapRead (ch : Fin 4) (sameCycleCapture : Bool) (s : State) : Host.Outcome State Fault Refusal :=
  s.byFirmware fun s =>
    let r := s.gladeRead (GPC_CAP_LO.addr ch.val)
    let s := r.1.setGlade fun g => { g with rd := BitVec.ofNat 32 r.2 }
    if sameCycleCapture then s.gpcCapture ch.val else s

/-! ## What ends by itself -/

def execGladeWdtWarning (s : State) : Host.Outcome State Fault Refusal :=
  .next (if s.glade.powered && s.fbit GCORE_WDT_CFG.EN && s.fget GCORE_WDT_CFG.CNT ≤ 1 then s.gLine 11 else s)

def execGladeWatchdogExpiry (s : State) : Host.Outcome State Fault Refusal :=
  .next (if s.glade.powered && s.fbit GCORE_WDT_CFG.EN && s.fget GCORE_WDT_CFG.CNT = 0 then s.gladeReset 1 else s)

def execGlogWriteDone (s : State) : Host.Outcome State Fault Refusal :=
  match s.glade.logQ with
  | e :: q => .next (if s.glade.powered then (s.setGlade fun g => { g.writeEntry e with logQ := q }).gLine 10 else s)
  | [] => .next s

/-- A conversion's result, sign-extended to 16 bits (R282). -/
def execGadcResult (data : BitVec 14) (s : State) : Host.Outcome State Fault Refusal :=
  .next (if s.glade.adcRun then
      let s := (s.fset GADC_RES.DATA (data.signExtend 16).toNat).fset GADC_RES.RDY 1
      s.setGlade fun g => { g with adcRun := s.fbit GADC_CFG.CONT }
    else s)

def execGdspFrameDone (s : State) : Host.Outcome State Fault Refusal :=
  .next (if s.glade.powered && s.fbit GCORE_DSP_CFG.BUSY then (s.fset GCORE_DSP_CFG.BUSY 0).gLine 8 else s)

/-- The level of GDSP_CS_N: low during a frame, and in BACKUP, which drives all GDSP outputs low (R273). -/
def State.gdspCs (s : State) : Bool := s.glade.powered && !s.fbit GCORE_DSP_CFG.BUSY

/-- VDD goes: Tanum-G, GADC and GDSP stop (R273). -/
def State.gladeLoss (s : State) : State :=
  (s.setGlade fun g => { g with powered := false, booting := false, run := false, adcRun := false, copy := none }).fset GCORE_DSP_CFG.BUSY 0

/-! ## Power and boot (R273, R274, R289) -/

/-- VDD returns: the Glade's power-on reset. Counters with their entries, GPC counts and the log head are retained. -/
def execGladePowerOnReset (s : State) : Host.Outcome State Fault Refusal :=
  let lost := s.glade.sealLost
  let s := s.resetRegs fun a => pageOf a = Pg.GPC
  let s := s.setGlade fun g =>
    { g with powered := true, gsec := 0, box := List.replicate 64 0, snaps := [], token := false, sealOpen := true
             sealKnown := lost, sealBad := 0, sealGood := 0, sealLost := false, logQ := [], presLow := none, presLong := none
             logSeq := (g.logSeq + 65536 - g.logQ.length % 65536) % 65536
             mem := g.mem.filter (fun c => c.1 < 0x40000) }
  let s := (s.gRecover.dropGrant).gladeReset 0
  let s := s.gInc cPWR
  let s := s.gLog 2 (s.gCnt cPWR) (if lost then 1 else 0)
  .next (if lost then let s := s.gInc cSEAL; ((s.gLog 3 (s.gCnt cSEAL) 0).gLine 6).publish 89 else s)

/-- The image header (R275): MAGIC, a length that the code area holds, and the CRC over the image after the header. -/
def Glade.headerOk (g : Glade) : Bool :=
  let len := g.wordAt 8
  g.wordAt 0 = 0x47444C47 && 16 ≤ len && len ≤ 0x30000 && crc32 (g.listAt 16 (len - 16)) = g.wordAt 12

/-- The identity: the digest of the code and parameter areas. -/
def Glade.digest (g : Glade) : List Byte := sha256 (g.listAt 0 0x34000)

/-- The boot check ends: firmware starts, where and with which stack the image says, or the ROM stays in NO_IMAGE. -/
def execGladeBootDone (s : State) : Host.Outcome State Fault Refusal :=
  if !s.glade.booting then .next s
  else
    let s := s.gReads 0 0x34000
    let good := s.glade.headerOk && !s.glade.imageBad
    let s := s.setGlade fun g =>
      { g with booting := false, run := good, noImage := !good, ident := g.digest, fwver := BitVec.ofNat 32 (g.wordAt 4) }
    let s := s.grantStep
    if !good then .next s
    else
      let pc := BitVec.ofNat 32 s.free
      let s := s.freeStep
      let sp := BitVec.ofNat 32 s.free
      .next { s.freeStep with coreG := { s.coreG with pc := pc, ssp := sp } }

/-! ## The maintenance port (R291 to R293) -/

def State.maintResult (s : State) (r : Nat) : State := s.setGlade fun g => { g with result := r }

/-- A command reaches the port: the first opens the session, or is refused. The loader then has the core, and no image is valid until a COMMIT
succeeds (R274). -/
def State.maintOpen (s : State) : State :=
  if s.glade.session then s
  else if !s.glade.sealOpen then (s.gLog 9 0 1).dropGrant
  else if !s.glade.token then (s.gLog 9 0 2).dropGrant
  else
    let s := s.gInc cMAINT
    let s := (s.gLog 5 (s.gCnt cMAINT) 0).publish 90
    s.setGlade fun g => { g with session := true, run := false, booting := false, grant := true, imageBad := true }

/-- A command of the port: nothing unless the balls are routed; BUSY while an operation runs. -/
def State.maintCmd (s : State) (f : State → State) : Host.Outcome State Fault Refusal :=
  if !s.hsp.routed || !s.glade.powered then .next s
  else
    let s := s.maintOpen
    if !s.glade.session then .next s
    else if s.glade.op.isSome then .next (s.maintResult 1)
    else .next (f s)

/-- The first ERASE or PROG of a session logs FW_CHANGE with the identity before the change (R292). -/
def State.maintChange (s : State) : State :=
  let s := s.setGlade fun g => { g with imageBad := true }
  if s.glade.changed then s
  else
    let s := (s.gInc cFWCHG).setGlade fun g => { g with changed := true }
    s.gLog 7 (s.gCnt cFWCHG) (identWord s.glade.ident 0)

/-- The four bytes that STATUS returns. -/
def State.maintStatus (s : State) : List Byte :=
  let st := if s.glade.op.isSome then 1 else if s.glade.session then 2 else if s.glade.noImage then 3 else 0
  let fl := (if s.glade.sealOpen then 1 else 0) + (if s.glade.token then 2 else 0) + (if s.glade.grant then 4 else 0)
  [BitVec.ofNat 8 st, BitVec.ofNat 8 s.glade.result, BitVec.ofNat 8 fl, BitVec.ofNat 8 s.glade.fwver.toNat]

/-- STATUS is answered also while an operation runs, and leaves the last result. -/
def execMaintStatus (s : State) : Host.Outcome State Fault Refusal :=
  if !s.hsp.routed || !s.glade.powered then .next s
  else
    let s := s.maintOpen
    .next (s.setGlade fun g => { g with reply := s.maintStatus })

def execMaintErase (area : Byte) (s : State) : Host.Outcome State Fault Refusal :=
  s.maintCmd fun s =>
    let s := s.maintChange
    if 1 < area.toNat then s.maintResult 3
    else s.setGlade fun g => { g with op := some (.erase (area.toNat = 1)) }

/-- A 16-byte address within the code or parameter area. -/
def maintAddr (a : Nat) : Bool := a + 16 ≤ 0x34000

def execMaintProg (addr : BitVec 24) (data : List Byte) (s : State) : Host.Outcome State Fault Refusal :=
  s.maintCmd fun s =>
    let s := s.maintChange
    if addr.toNat % 16 != 0 || !maintAddr addr.toNat then s.maintResult 3
    else if data.length != 16 then s.maintResult 2
    else s.setGlade fun g => { g with op := some (.prog addr.toNat data) }

def execMaintRead (rd : MaintRd) (s : State) : Host.Outcome State Fault Refusal :=
  s.maintCmd fun s =>
    let a := rd.addr.toNat
    if !maintAddr a then s.maintResult 3
    else
      let s := (if rd.ue then s.setGlade fun g => g.die a else s).gReads a (a + 16)
      (s.setGlade fun g => { g with reply := g.listAt a 16 }).maintResult 0

/-- A COMMIT with a result other than OK leaves the image invalid (R292). -/
def State.maintSpoilt (s : State) (r : Nat) : State := (s.setGlade fun g => { g with imageBad := true }).maintResult r

def execMaintCommit (digest : List Byte) (s : State) : Host.Outcome State Fault Refusal :=
  s.maintCmd fun s =>
    if digest.length != 32 then s.maintSpoilt 2 else s.setGlade fun g => { g with op := some (.commit digest) }

/-- A transaction of which the port sees the code byte and no argument: codes of no command, and commands that lack their arguments, are BAD_CMD
(R291). -/
def State.maintCode (s : State) (code : Nat) : Host.Outcome State Fault Refusal :=
  match code with
  | 0x05 => execMaintStatus s
  | 0x02 | 0x60 => s.maintCmd fun s => s.maintChange.maintResult 2
  | 0xC3 => s.maintCmd fun s => s.maintSpoilt 2
  | 0xE5 => s.maintCmd fun s => (s.maintResult 0).endSession 0
  | _ => s.maintCmd fun s => s.maintResult 2

def execMaintExit (s : State) : Host.Outcome State Fault Refusal := s.maintCmd fun s => (s.maintResult 0).endSession 0

/-- The code or the parameter area is erased; one that failed holds arbitrary bytes where it is not erased. -/
def State.maintErased (s : State) (params ok : Bool) : State :=
  let lo := if params then 0x30000 else 0
  let hi := if params then 0x34000 else 0x30000
  let s := s.setGlade fun g =>
    let g := g.clear lo hi
    if params then { g with parErased := true } else { g with codeErased := true }
  if ok then (s.setGlade fun g => g.renew lo hi).maintResult 0
  else
    let k := s.free
    let s := s.freeStep.setGlade fun g => g.setByte (lo + k % (hi - lo)) (BitVec.ofNat 8 (k / 2 ^ 32))
    (s.gLog 10 lo 2).maintResult 4

/-- Programming clears bits; one that failed leaves arbitrary bytes. -/
def State.maintProgged (s : State) (a : Nat) (data : List Byte) (ok : Bool) : State :=
  if ok then (s.setGlade fun g => (g.setList a (List.zipWith (· &&& ·) data (g.listAt a 16))).renew a (a + 16)).maintResult 0
  else
    let r := (List.range 16).foldl (fun (r : State × List Byte) _ => (r.1.freeStep, r.2 ++ [BitVec.ofNat 8 r.1.free])) (s, [])
    ((r.1.setGlade fun g => g.setList a r.2).gLog 10 a 1).maintResult 4

/-- COMMIT checks the header, computes the identity and compares (R289, R291, R292). -/
def State.maintCommitted (s : State) (d : List Byte) : State :=
  if !s.glade.headerOk then s.maintSpoilt 6
  else if s.glade.digest != d then (s.setGlade fun g => { g with ident := g.digest }).maintSpoilt 5
  else
    let s := s.setGlade fun g => { g with imageBad := false, ident := d, fwver := BitVec.ofNat 32 (g.wordAt 4) }
    (s.gLog 8 (s.gCnt cFWCHG) (identWord d 0)).maintResult 0

/-- The operation completes; a session that was to end then ends (R293). A COMMIT that is not `verified` met a unit it could not read. -/
def execMaintOpDone (verified : Bool) (s : State) : Host.Outcome State Fault Refusal :=
  match s.glade.op with
  | none => .next s
  | some o =>
    let s := match o with
      | .erase p => s.maintErased p verified
      | .prog a d =>
        s.maintProgged a d (verified && List.zipWith (· &&& ·) d (s.glade.listAt a 16) == d)
      | .commit d => ((if verified then s else s.freeStep.setGlade fun g => g.die (s.free % 0x34000)).gReads 0 0x34000).maintCommitted d
    let s := s.setGlade fun g => { g with op := none }
    .next (match s.glade.pendEnd with
      | some r => s.sessionEnd r
      | none => s)

def execMaintTimeout (s : State) : Host.Outcome State Fault Refusal := .next (s.endSession 2)

end Sys2Proof.Machine
end

