-- ==== Sys2Proof/Machine/Psp.lean ====
section
/-!
DEFINITION. The peripheral serial port (R442 to R446): its FIFOs, its transfers with their pauses and their early ends, its selects.
How far a transfer has come, and what the peripheral sends, arrives with the commands that report it.
Readings of the manual made here: DEDUCED in log entry 131.
-/
namespace Sys2Proof.Machine
open Sys2Proof

def State.setPsp (s : State) (f : PspState → PspState) : State := { s with psp := f s.psp }

/-- Lanes of a width code. -/
def laneCount (c : Nat) : Nat := match c with | 0 => 1 | 1 => 2 | 2 => 4 | _ => 8
/-- Words that a number of data bits takes. -/
def pspWords (bits : Nat) : Nat := ceilDiv bits 32

/-! ## Lanes (R431, R443) -/

/-- Clocks that carry the low `bits` bits of a number on `w` lanes, most significant bits first: a clock's lanes as a number, lane 0 lowest. -/
def msbLanes (w bits v : Nat) : List Nat := (List.range (bits / w)).map fun k => v / 2 ^ (bits - (k + 1) * w) % 2 ^ w
/-- Clocks of a data byte. -/
def byteLanes (w : Nat) (lsbf : Bool) (b : Byte) : List Nat :=
  if lsbf then (List.range (8 / w)).map fun k => b.toNat / 2 ^ (k * w) % 2 ^ w else msbLanes w 8 b.toNat
/-- The data byte that clocks carry; a byte cut short holds its bits in its low end. -/
def laneByte (w : Nat) (lsbf : Bool) (l : List Nat) : Byte :=
  BitVec.ofNat 8 (if lsbf then l.foldr (fun x v => x + v * 2 ^ w) 0 else l.foldl (fun v x => v * 2 ^ w + x) 0)
/-- What the port takes from the lanes at a sampling edge: lane 1 at width 1, where lane 0 is the port's own. -/
def sampleLanes (w : Nat) (x : Byte) : Nat := if w = 1 then x.toNat / 2 % 2 else x.toNat % 2 ^ w

def lanesIn (w : Nat) : Nat → List Nat → List (List Nat)
  | 0, _ => []
  | n + 1, l => l.take w :: lanesIn w n (l.drop w)
/-- Data words of `bits` bits sampled on `w` lanes; an edge that no sample is given for reads the lanes low. -/
def rxWords (w : Nat) (lsbf : Bool) (bits : Nat) (samples : List Byte) : List Word :=
  let l := (List.range (bits / w)).map fun i => sampleLanes w ((samples[i]?).getD 0#8)
  toWords ((lanesIn (8 / w) (ceilDiv bits 8) l).map (laneByte w lsbf))

/-- A field of PSP_FRAME as the transfer has it. -/
def PspState.fr (p : PspState) (f : Fld) : Nat := fieldGet p.frame f
/-- What the port drives in the transfer's clocks, in order: command, address, dummy clocks with no lane driven, and the data sent. -/
def PspState.wave (p : PspState) : List (Option Nat) :=
  let cw := laneCount (p.fr PSP_FRAME.CMDW)
  let aw := laneCount (p.fr PSP_FRAME.ADRW)
  let dw := laneCount (p.fr PSP_FRAME.DATW)
  let data := (p.sent.flatMap fun w => leBytesN 4 w.toNat).flatMap (byteLanes dw (p.fr PSP_FRAME.LSBF = 1))
  ((msbLanes cw (8 * min 2 (p.fr PSP_FRAME.CMDL)) p.cmdv ++ msbLanes aw (8 * min 4 (p.fr PSP_FRAME.ADRL)) p.addr).map some)
    ++ List.replicate (p.fr PSP_FRAME.DUMMY) none
    ++ (if p.recv then List.replicate (p.moved / dw) none else (data.take (p.moved / dw)).map some)

/-! ## Transfers -/

/-- The port has moved `bits` data bits: what it sent leaves the TX FIFO, what it sampled since the last report enters the RX FIFO, the last
word padded with zeros above its last bit. -/
def PspState.reach (p : PspState) (bits : Nat) (rx : List Byte) : PspState :=
  if p.recv then
    let got := rxWords (laneCount (p.fr PSP_FRAME.DATW)) (p.fr PSP_FRAME.LSBF = 1) (bits - p.moved) rx
    { p with moved := bits, rx := (p.rx ++ got).take 8 }
  else
    let n := pspWords bits - p.sent.length
    { p with moved := bits, sent := p.sent ++ p.tx.take n, tx := p.tx.drop n }

/-- A transfer is over: DONE, the select released unless it is held. -/
def State.pspEnd (s : State) (bits phase : Nat) (hold : Bool) : State :=
  let s := (s.setPsp fun p => { p with running := false, sel := if hold then p.sel else none }).fset PSP_STAT.PAUSED 0
  let s := ((s.fset PSP_DONE_BITS.BITS bits).fset PSP_DONE_BITS.PHASE phase).fset PSP_STAT.DONE 1
  (s.raise Pg.PSP 0).event Pg.PSP 0 87

/-- An early stop (R446) with the bits moved, the phase reached and the lanes sampled since the last report. -/
def State.pspStop (s : State) (cause moved phase : Nat) (rx : List Byte) : State :=
  if s.psp.running then
    let bits := clampN s.psp.moved s.psp.len moved
    s.withPins fun s =>
      let s := s.setPsp fun p => { p.reach bits rx with tx := [] }
      let s := ((s.fset PSP_STAT.ABORTED 1).raise Pg.PSP 2).fset PSP_ERRINFO.CAUSE cause
      s.pspEnd bits phase false
  else s.withPins fun s => s.setPsp fun p => { p with sel := none }

/-- Free lane samples. -/
def State.freeLanes (s : State) : Nat → State × List Byte
  | 0 => (s, [])
  | n + 1 =>
    let w := BitVec.ofNat 8 s.free
    let r := s.freeStep.freeLanes n
    (r.1, w :: r.2)

/-- An early stop whose progress no command reports: how far the transfer came and what arrived are free. -/
def State.pspStopNow (s : State) (cause : Nat) : State :=
  if s.psp.running then
    let lanes := laneCount (s.psp.fr PSP_FRAME.DATW)
    let moved := s.psp.moved + s.free % ((s.psp.len - s.psp.moved) / lanes + 1) * lanes
    let s := s.freeStep
    let phase := if moved = 0 then s.free % 4 else 3
    let r := s.freeStep.freeLanes (if s.psp.recv then (moved - s.psp.moved) / lanes else 0)
    r.1.pspStop cause moved phase r.2
  else s.pspStop cause 0 0 []

/-- Why GO is refused (R445), 0 if it is not. -/
def State.pspCause (s : State) : Nat :=
  let len := s.fget PSP_LEN.LEN
  if s.psp.running then 1
  else if len = 0 || 8192 < len || len % laneCount (s.fget PSP_FRAME.DATW) != 0 then 2
  else if !s.fbit PSP_CLK.SRC && !s.sys.syspllLock then 3
  else if !s.fbit PSP_CTRL.EN then 4 else 0

/-- GO (R443, R445). -/
def State.pspGo (s : State) : State :=
  match s.pspCause with
  | 0 => s.withPins fun s => s.setPsp fun p =>
      { p with running := true, recv := s.fbit PSP_FRAME.DIR, len := s.fget PSP_LEN.LEN, moved := 0
               sel := some (s.fget PSP_FRAME.SEL), sent := [], frame := s.raw PSP_FRAME.addr
               cmdv := s.raw PSP_CMDV.addr % 65536, addr := s.raw PSP_ADDR.addr }
  | c => ((s.fset PSP_STAT.REFUSED 1).raise Pg.PSP 1).fset PSP_ERRINFO.CAUSE c

/-- A word for the TX FIFO (R444): a full FIFO takes it once a running transfer has sent its first word, else discards it. -/
def State.pspPush (s : State) (v : Word) : State :=
  match s.psp.tx with
  | w :: l =>
    if s.psp.tx.length < 8 then s.setPsp fun p => { p with tx := p.tx ++ [v] }
    else if s.psp.running && !s.psp.recv then s.setPsp fun p => { p with tx := l ++ [v], sent := p.sent ++ [w] }
    else s.fset PSP_STAT.OVF 1
  | [] => s.setPsp fun p => { p with tx := [v] }

/-- A read of RXD pops a word; an empty FIFO gives the next word a running transfer receives, which is free, or 0 with UNF. -/
def State.pspPop (s : State) : State × Nat :=
  match s.psp.rx with
  | w :: l => (s.setPsp fun p => { p with rx := l }, w.toNat)
  | [] =>
    if s.psp.running && s.psp.recv then
      let v := s.free % 2 ^ 32
      (s.freeStep.setPsp fun p => { p with moved := min p.len (p.moved + 32) }, v)
    else (s.fset PSP_STAT.UNF 1, 0)

/-- A soft reset: registers and what waits in the RX FIFO first, then a transfer stops as on a disable; the TX FIFO is emptied (R50, R446). -/
def State.pspReset (s : State) : State :=
  let s := (s.withPins (·.srstPage Pg.PSP)).setPsp fun p => { p with rx := [] }
  (s.pspStopNow 6).setPsp fun p => { p with tx := [] }

/-- Effect of a write to the PSP page. -/
def pspHook (w : WCtx) (s : State) : State :=
  if w.off = 0x004 then
    if w.one PSP_CTRL.SRST then s.pspReset else if w.clears PSP_CTRL.EN then s.pspStopNow 6 else s
  else if w.off = 0x040 then s.pinWrite w
  else if w.off = 0x054 then
    let s := s.rsetN PSP_GO.addr 0
    let s := if w.one PSP_GO.GO then s.pspGo else s
    if w.one PSP_GO.STOP then s.pspStopNow 5 else s
  else if w.off = 0x05C then (if w.view = .base then s.pspPush (BitVec.ofNat 32 w.v) else s)
  else s

/-! ## Commands -/

def execPspGo (a : Acc) (v : Word) (s : State) : Host.Outcome State Fault Refusal := .next (s.writeReg pspHook a PSP_GO.addr v)

/-- A write of STOP, with how far the transfer had come. -/
def pspStopHook (moved phase : Nat) (rx : List Byte) (w : WCtx) (s : State) : State :=
  let s := s.rsetN PSP_GO.addr 0
  let s := if w.one PSP_GO.GO then s.pspGo else s
  if w.one PSP_GO.STOP then s.pspStop 5 moved phase rx else s
def execPspStop (a : Acc) (v : Word) (moved : Nat) (phase : Fin 4) (rx : List Byte) (s : State) :
    Host.Outcome State Fault Refusal :=
  .next (s.writeReg (pspStopHook moved phase.val rx) a PSP_GO.addr v)

def execPspTxdWrite (a : Acc) (v : Word) (s : State) : Host.Outcome State Fault Refusal := .next (s.writeReg pspHook a PSP_TXD.addr v)
def execPspRxdRead (m : Master) (s : State) : Host.Outcome State Fault Refusal :=
  .next (s.readAs m PSP_RXD.addr fun s => s.pspPop)

/-- Data bits are due while the TX FIFO is empty or the RX FIFO is full: the port pauses at a bit boundary (R444). -/
def execPspPause (moved : Nat) (rx : List Byte) (s : State) : Host.Outcome State Fault Refusal :=
  let bits := clampN s.psp.moved s.psp.len moved
  let p := s.psp.reach bits rx
  if s.psp.running && bits < s.psp.len && (if p.recv then 8 ≤ p.rx.length && bits % 32 = 0 else p.tx.isEmpty) then
    .next ((s.setPsp fun _ => p).fset PSP_STAT.PAUSED 1)
  else .next s

/-- The FIFO allows the transfer to go on. -/
def execPspFifoResume (s : State) : Host.Outcome State Fault Refusal :=
  if s.psp.running && (if s.psp.recv then s.psp.rx.length < 8 else !s.psp.tx.isEmpty) then .next (s.fset PSP_STAT.PAUSED 0) else .next s

/-- The last data bit has moved. -/
def execPspTransferEnd (rx : List Byte) (s : State) : Host.Outcome State Fault Refusal :=
  if !s.psp.running || s.fbit PSP_STAT.PAUSED
      || (!s.psp.recv && s.psp.tx.length < pspWords s.psp.len - s.psp.sent.length) then .next s
  else
    let len := s.psp.len
    .next (s.withPins fun s => (s.setPsp fun p => p.reach len rx).pspEnd len 3 (s.psp.fr PSP_FRAME.HOLD = 1))

end Sys2Proof.Machine
end

