-- ==== Sys2Proof/Machine/Cadence.lean ====
section
/-!
DEFINITION. Cadence's commands (R173 to R183, R187, R188, R196, R198, R207): enabling and stopping, the CAD and NBR pages, and the
ACK window of a TX slot.
Readings of the manual made here: DESIGN CHOICE in log entry 5; DEDUCED in log entries 44, 50, 52.
-/
namespace Sys2Proof.Machine
open Sys2Proof

def State.setCad (s : State) (f : CadState → CadState) : State := { s with cad := f s.cad }

/-! ## Enabling and stopping (R173, R174) -/

/-- Cadence starts, or the enable is refused. -/
def State.cadStart (s : State) : State :=
  let sf0 := s.fbit (CAD_SF.EN 0)
  let tm := s.templateOk
  if s.sys.st = .run && !s.fbit RFE_CTRL.MAN && sf0 && tm && s.fbit CAD_SELF_SHORT.EXT_V && !s.cad.stopping then
    s.setCad fun c => { c with startAt := s.frcN + us 100, resolved := none, beat := true }
  else
    let s := (s.fset CAD_CTRL.EN 0).fset CAD_STAT.EN_REFUSED 1
    let s := if tm then s else (s.fset CAD_STAT.TMPL_ERR 1).raise Pg.CAD 1
    if sf0 then s else s.fset CAD_STAT.SF0_ERR 1

/-- Cadence is stopped (R41, R72, R99, R174, R263): every ticket is squashed, a pending step is applied, pending calibrations run,
and an apply that waits for its tick shows (log entry 20). -/
def State.cadHalt (s : State) (cause : SqCause) : State :=
  let s := s.squashWhere cause true fun _ => true
  let s := { s with hdr := { s.hdr with plans := [] }, slot := none, txm := { s.txm with acks := [], away := false }, phase := {} }
  let s := s.setCad fun c => { c with stopping := false, resolved := none, ack := none, replaying := false }
  let s := ((s.fset CAD_CTRL.EN 0).fset CAD_STAT.KIND 0).fset CAD_SLOT.KIND 0
  let s := s.windowShut.setRfe fun r => { r with femSw := none, clearingEnd := none, ackSpan := false, spanTail := false }
  s.stepTry.modeAtStop.workNext none
def State.cadStop (s : State) : State := s.cadHalt .ctrl

/-- EN goes to 0: a slot in progress runs to the end of its Tailrace. -/
def State.cadDisable (s : State) : State :=
  match s.slot with
  | some sl => if sl.tail && sl.tailDone = 7 then s.cadStop else s.setCad fun c => { c with stopping := true }
  | none => s.cadStop

/-! ## The CAD page -/

/-- Tickets that depend on changed cells are squashed (R216). -/
def State.tableChanged (s : State) (p : Ticket → Bool) : State := s.squashWhere .table false p

/-- The position of the port CAD_HOP_DATA moves on (R183). -/
def State.hopNext (s : State) : State := s.fset CAD_HOP_IDX.POS (s.fget CAD_HOP_IDX.POS + 1)
def State.hopSet (s : State) (ch : Nat) : State :=
  let q := s.fget CAD_HOP_IDX.SEQ
  let s := s.setCad fun c => { c with hop := setAt c.hop q (setAt ((c.hop[q]?).getD []) (s.fget CAD_HOP_IDX.POS) ch) }
  (s.tableChanged fun t => s.cHopseq t.cand.cell = q).hopNext

/-- CAD_CTRL. -/
def cadCtrl (w : WCtx) (s : State) : State :=
  let s := if w.sets CAD_CTRL.EN then s.cadStart else if w.clears CAD_CTRL.EN then s.cadDisable else s
  if w.one CAD_CTRL.SRST then
    let s := if s.fbit CAD_CTRL.EN then s.cadDisable else s
    (s.setCad fun c => { c with hop := List.replicate 4 (List.replicate 128 0), malformed := [] }).srstPage Pg.CAD
  else s

/-- A write of a slotframe's registers (R174, R178). -/
def cadSlotframe (w : WCtx) (n : Nat) (s : State) : State :=
  let s := if n = 0 && w.off < 0x060 && w.clears (CAD_SF.EN 0) && s.cadRuns then (s.fset (CAD_SF.EN 0) 1).fset CAD_STAT.SF0_ERR 1 else s
  if s.raw w.addr != w.old then s.tableChanged fun t => t.cand.sf = n else s

/-- Effect of a write to the CAD page. -/
def cadHook (w : WCtx) (s : State) : State :=
  if w.off = 0x004 then cadCtrl w s
  else if 0x040 ≤ w.off && w.off ≤ 0x04C then
    if s.fbit CAD_CTRL.EN && !w.cop then (s.rsetN w.addr w.old).fset CAD_STAT.TMPL_WR 1 else s
  else if 0x050 ≤ w.off && w.off ≤ 0x06C then cadSlotframe w ((w.off - 0x050) / 4 % 4) s
  else if w.off = 0x078 then
    if w.view = .base then (s.fset CAD_APPCFG.SILENT 0).setCad fun c => { c with beat := true } else s
  else if w.off = 0x088 then s.hopSet (w.new % 256)
  else if 0x090 ≤ w.off && w.off ≤ 0x0AC then s.tableChanged fun t => s.cHopseq t.cand.cell = (w.off - 0x090) / 8
  else if w.off = 0x0B8 then
    let s := s.fset CAD_TBLCHG.GO 0
    let a := s.fget CAD_TBLCHG.FIRST
    let b := max a (s.fget CAD_TBLCHG.LAST)
    if w.one CAD_TBLCHG.GO then s.tableChanged fun t => s.fbit CAD_TBLCHG.ALL || (a ≤ t.cand.cell && t.cand.cell ≤ b) else s
  else if w.addr = CAD_LS_INJ.addr then
    let s := s.fset CAD_LS_INJ.GO 0
    if s.sys.st != .test then (s.rsetN CAD_LS_INJ.addr w.old).fset CAD_STAT.INJ_REFUSED 1
    else if w.one CAD_LS_INJ.GO then s.setCad fun c => { c with inject := some (s.fget CAD_LS_INJ.GROUP, s.fget CAD_LS_INJ.COPY) } else s
  else if [CAD_SELF_EXT_LO.addr, CAD_SELF_EXT_HI.addr, CAD_SELF_SHORT.addr, CAD_SELF_PAN.addr].contains w.addr then
    if s.fbit CAD_CTRL.EN then (s.rsetN w.addr w.old).fset CAD_STAT.ADDR_WR 1 else s
  else s

/-- Effect of a write to the NBR page (R198). -/
def nbrHook (w : WCtx) (s : State) : State :=
  if w.off = 0x004 then (if w.one NBR_CTRL.SRST then s.srstPage Pg.NBR else s)
  else if w.addr = NBR_CHG.addr then
    let s := s.fset NBR_CHG.GO 0
    if w.one NBR_CHG.GO then
      let n := s.fget NBR_CHG.IDX
      let s := if s.fbit NBR_CHG.INIT then s.nbrInit n else s
      s.tableChanged fun t => t.nbr = some n || t.cand.nbr = some n
    else s
  else s

def execCadTblchg (a : Acc) (v : Word) (s : State) : Host.Outcome State Fault Refusal := .next (s.writeReg cadHook a CAD_TBLCHG.addr v)
def execNbrChg (a : Acc) (v : Word) (s : State) : Host.Outcome State Fault Refusal := .next (s.writeReg nbrHook a NBR_CHG.addr v)
def execCadApphb (a : Acc) (v : Word) (s : State) : Host.Outcome State Fault Refusal := .next (s.writeReg cadHook a CAD_APPHB.addr v)
def execCadLsInj (a : Acc) (v : Word) (s : State) : Host.Outcome State Fault Refusal := .next (s.writeReg cadHook a CAD_LS_INJ.addr v)
def execCadEnable (a : Acc) (v : Word) (s : State) : Host.Outcome State Fault Refusal := .next (s.writeReg cadHook a CAD_CTRL.addr v)

/-- CAD_HOP_DATA: the entry at SEQ and POS; POS moves on after each access. -/
def execCadHopDataAccess (a : Acc) (w : Option Word) (s : State) : Host.Outcome State Fault Refusal :=
  match w with
  | none => .next (s.readAs a.m (viewAddr a.view CAD_HOP_DATA.addr) fun s => (s.hopNext, s.hopAt))
  | some v => .next (s.portWrite cadHook a CAD_HOP_DATA.addr s.hopAt v)

/-! ## The ACK window (R187, R188) -/

def State.setAck (s : State) (a : Option AckWait) : State := s.setCad fun c => { c with ack := a }

/-- Lane 0 leaves the ACK window. -/
def State.ackWindowShut (s : State) : State :=
  let s := (s.laneDrop 0).laneTo 0 0
  { s.setLane 0 { s.lane 0 with searching := false } with rfe := { s.rfe with window := false } }

/-- The ACK window opens on lane 0, narrowband. -/
def execAckWindowOpen (t : Frc) (s : State) : Host.Outcome State Fault Refusal :=
  let s := s.advance t
  match s.cad.ack, s.slot with
  | some a, some sl =>
    if a.isOpen || a.shut || sl.kind != .tx || s.frcN < a.opens then .next s
    else
      let s := s.setAck (some { a with isOpen := true })
      .next (if s.fbit (LANE_CTRL.EN 0) && s.fbit RFE_CTRL.EN then
        ((s.setLane 0 { s.lane 0 with searching := true }).laneTo 0 1).narrowGainOpen else s)
  | _, _ => .next s

/-- The ACK window closes, unless an SFD has been matched. -/
def execAckWindowClose (t : Frc) (s : State) : Host.Outcome State Fault Refusal :=
  let s := s.advance t
  match s.cad.ack with
  | some a =>
    if !a.isOpen || a.shut || s.frcN < a.closes || 3 ≤ s.laneSt 0 then .next s
    else .next (s.setAck (some { a with shut := true })).ackWindowShut
  | none => .next s

/-- The addresses an ACK may carry (R188, R196). -/
def State.ackForUs (s : State) (d : MacAddr) : Bool :=
  match d with
  | .none => true
  | .short a => s.fbit CAD_SELF_SHORT.SHORT_V && a.toNat = s.fget CAD_SELF_SHORT.SHORT
  | .ext a => a = s.selfExt

/-- A secured ACK passes its MIC under the neighbour's key and the replay check. -/
def State.ackSecure (s : State) (m asn : Nat) (i : MacInfo) (f : RxFrame) : Bool :=
  match s.rxKey m ⟨BitVec.ofNat 2 i.keyMode, i.keyIdx⟩, s.nExt m with
  | some k, some e =>
    (s.keySlot k).usable && (s.keySlot k).rad
      && (openFrame (s.keySlot k).key (rxNonce e asn i f.octets) i f.fcs f.octets).1 && s.replayOk m asn i f.octets
  | _, _ => false

/-- The frame is the ACK of the attempt (R188). -/
def State.ackValid (s : State) (asn : Nat) (k : Ticket) (i : MacInfo) (f : RxFrame) : Bool :=
  let sent := k.stored.info
  let sentSec := match sent with | some x => x.secured | none => false
  i.ftype = 2 && i.version = 2 && f.crcOk
    && (match i.seq with | some q => (match sent with | some x => x.seq = some q | none => false) | none => true)
    && s.ackForUs i.dst
    && (!sentSec || (i.secured && (match k.nbr with | some m => s.ackSecure m asn i f | none => false)))

/-- What a valid ACK does: it decides the attempt, and with a Time Correction IE it is a contact and a sample. -/
def State.ackTake (s : State) (asn e : Nat) (k : Ticket) (i : MacInfo) (f : RxFrame) : State :=
  let nack := match i.timeCorr with | some x => 2 ^ 15 ≤ x | none => false
  let s := s.setTicket e (some { k with acked := some nack })
  let s := if nack then s.finc CAD_CNT3.NACK else s
  match k.nbr with
  | none => s
  | some m =>
    let sentSec := match k.stored.info with | some x => x.secured | none => false
    let s := if sentSec then s.replayAdvance m asn i f.octets else s
    match i.timeCorr with
    | none => s
    | some x =>
      let o := 32 * signed 12 x
      let s := s.contact m asn o
      if s.nTsrc m then
        (s.rsetN CAD_TC_LAST.addr (toField 16 (-(signed 12 x)) + m * 2 ^ 16 + 2 ^ 30 + 2 ^ 31)).ntuSample ⟨-o, 0, m, true⟩
      else s

/-- A frame in the ACK window is judged, which lane 0 alone hears (R187): the one that it has decoded. -/
def execAckReceived (t : Frc) (lane : Fin 16) (s : State) : Host.Outcome State Fault Refusal :=
  let s := s.advance t
  match s.cad.ack, s.slot, (s.lane 0).frame with
  | some a, some sl, some frame =>
    if lane != 0 || !a.isOpen || a.shut || s.laneSt 0 != 4 then .next s
    else
      let no := if a.closes ≤ s.frcN then (s.setAck (some { a with shut := true })).ackWindowShut else (s.laneDrop 0).laneTo 0 1
      match s.ticketAt sl.asn, parseMhr frame.octets frame.fcs none with
      | some (e, k), some i =>
        if k.st = 4 && s.ackValid sl.asn k i frame then
          .next ((s.setAck (some { a with shut := true })).ackWindowShut.ackTake sl.asn e k i frame)
        else .next no
      | _, _ => .next no
  | _, _, _ => .next s

end Sys2Proof.Machine
end

