-- ==== Sys2Proof/Machine/Culvert.lean ====
section
/-!
DEFINITION. The Culvert's page and commands (R426 to R429), and events that producers raise. Routing itself stands in Events.lean.
Readings of the manual made here: DEDUCED in log entries 14, 33, 125.
-/
namespace Sys2Proof.Machine
open Sys2Proof

/-- Domain a producer's block lies in (R423); the RTC and the Glade are outside the power manager's domains. -/
def producerDomain (p : Nat) : Domain :=
  if p < 16 then .lp else if p < 43 then .rad else if p < 61 then .app else if p = 61 then .rad
  else if p < 72 then .app else if p < 77 then .aon else if p < 79 then .app else if p < 87 then .lp
  else if p = 87 then .app else .aon

/-- An event of one producer, and what its consumers raise in turn. -/
def State.routeOn (s : State) (cs : List Nat) : State :=
  let r := s.route cs
  r.1.raiseAll 8 r.2

/-- Record a fault in SYS_FAULT (R459). -/
def State.sysFault (s : State) (code : Nat) : State :=
  if s.domUp .app then (s.fset SYS_FAULT.CODE code).fset SYS_FAULT.ASN s.asnNow else s

/-- A source passes a channel's owner and S test (R426). -/
def State.chanAdmits (s : State) (src : Source) (c : Nat) : Bool :=
  src.hits Pg.CUL (s.chanOwner c) && (src.sec || !s.chanSec c)

/-- Some channel of a set of bits is refused: OWN_IGN. -/
def State.ownIgnore (s : State) (any : Bool) : State := if any then s.fset CUL_STAT.OWN_IGN 1 else s

/-- CUL_SWTRIG (R428). -/
def State.swTrig (s : State) (src : Source) (v : Nat) : State :=
  let l := onesOf 32 v
  let ok := l.filter (s.chanAdmits src)
  let s := s.ownIgnore (ok.length < l.length)
  if s.culRoutes then s.routeOn (ok.filter fun c => bitOf (s.raw CUL_CHEN.addr) c) else s

/-- CUL_CHEN (R426, R427): bits of channels that refuse the source keep their value. -/
def State.chenWrite (s : State) (src : Source) (old new : Nat) : State :=
  let bits := (List.range 32).filter fun c => if s.chanAdmits src c then bitOf new c else bitOf old c
  let s := s.ownIgnore ((List.range 32).any fun c => !s.chanAdmits src c && bitOf new c != bitOf old c)
  let s := s.rsetN CUL_CHEN.addr (maskOf bits)
  { s with cul := { s.cul with parity := s.cul.parity.filter (fun p => p.2 != 5) } }

/-- EXIT (R429). -/
def State.culLeave (s : State) : State :=
  if s.sys.st = .recovery || !s.cul.parity.isEmpty then s.fset CUL_STAT.EXIT_REF 1 else s.fset CUL_STAT.SAFE 0

/-- Effect of a write to the CUL page. -/
def culHook (w : WCtx) (s : State) : State :=
  if w.off = 0x004 then
    if w.one CUL_CTRL.SRST then ({ s with cul := {} } : State).srstPage Pg.CUL else s
  else if w.off = 0x040 then
    let s := s.fset CUL_CMD.EXIT 0
    if w.one CUL_CMD.EXIT then s.culLeave else s
  else if w.off = 0x044 then s.swTrig w.src w.wo
  else if w.off = 0x048 then s.chenWrite w.src w.old w.new
  else if w.off = 0x064 then s.rsetN CUL_MON_CNT.addr 0
  else if 0x080 ≤ w.off && w.off < 0x300 then
    { s with cul := { s.cul with parity := s.cul.parity.filter fun p => !(p.1 == (w.off - 0x080) / 0x14 && p.2 == (w.off - 0x080) % 0x14 / 4) } }
  else s

def execCulSwtrig (a : Acc) (v : Word) (s : State) : Host.Outcome State Fault Refusal := .next (s.writeReg culHook a CUL_SWTRIG.addr v)
def execCulChenWrite (a : Acc) (v : Word) (s : State) : Host.Outcome State Fault Refusal := .next (s.writeReg culHook a CUL_CHEN.addr v)
def execCulExit (a : Acc) (v : Word) (s : State) : Host.Outcome State Fault Refusal := .next (s.writeReg culHook a CUL_CMD.addr v)

/-- A producer raises an event: one that still waits in the matrix goes first. -/
def execProducerEvent (p : Fin 96) (s : State) : Host.Outcome State Fault Refusal :=
  if s.cul.inMatrix.contains p.val then
    let s := { s with cul := { s.cul with inMatrix := s.cul.inMatrix.erase p.val } }
    .next (s.publish p.val)
  else .next (if s.domUp (producerDomain p.val) then s.publish p.val else s)

/-- A parity error of a row word or of CUL_CHEN (word 5) (R429). -/
def execRoutingFault (ch : Fin 32) (word : Fin 6) (s : State) : Host.Outcome State Fault Refusal :=
  let s := { s with cul := { s.cul with parity := if s.cul.parity.contains (ch.val, word.val) then s.cul.parity
    else s.cul.parity ++ [(ch.val, word.val)] } }
  let s := s.fset ⟨CUL_CHEN.addr, ch.val, 1⟩ 0
  let s := ((s.fset CUL_STAT.FAULT 1).fset CUL_STAT.SAFE 1).rsetN CUL_ERRINFO.addr (ch.val + word.val * 2 ^ 5)
  .next ((s.raise Pg.CUL 0).sysFault 7)

end Sys2Proof.Machine
end

