-- ==== Sys2Proof/Machine/Flash.lean ====
section
/-!
DEFINITION. The flash controller (R336 to R349): the keyed command sequence, the refusals, erase suspend, what an operation leaves
when it ends or is interrupted, and the caches' invalidation (R316).
Readings of the manual made here: DEDUCED in log entry 100.
-/
namespace Sys2Proof.Machine
open Sys2Proof

/-! ## Pages (R336, R337) -/

/-- Page number of an address within its block. -/
def pageNo (a : Nat) : Nat := a % 0x20000 / 2048
/-- In an MLC block, the page is an upper page. -/
def upperPage (p : Nat) : Bool := p = 63 || (p % 2 = 0 && p != 0)
/-- The page on the same wordline. -/
def pairedPage (p : Nat) : Nat :=
  if p = 0 then 2 else if p = 2 then 0 else if p = 59 then 62 else if p = 61 then 63 else if p = 62 then 59 else if p = 63 then 61
  else if p % 2 = 1 then p + 3 else p - 3

/-- Every line of the page at an address is erased; an indeterminate page may pass or fail (R347). -/
def State.pageErased (s : State) (a : Nat) : Bool :=
  if s.flash.indet.contains (a / 2048) then bitOf s.free (a / 2048 % 64)
  else (s.mem.all fun c => !(a ≤ c.1 && c.1 < a + 2048)) && s.flash.lines.all fun l => l.1 / 128 != a / 2048

/-! ## Command sequence (R340) -/

/-- The sequence is reset with a cause, and the command is refused (R342). -/
def State.flcRefuse (s : State) (cause : Nat) : State :=
  ((s.fset FLC_STAT.REFUSED 1).fset FLC_STAT.CAUSE cause).setFlash fun f => { f with stage := 0, data := [] }

def State.flcKey (s : State) (v : Nat) : State :=
  let good := (s.flash.stage = 1 && v = 0xE41D) || (s.flash.stage != 1 && v = 0x7B3A)
  if s.fbit FLC_STAT.KEY_LOCK then s.flcRefuse 2
  else if good then s.setFlash fun f => { f with stage := if f.stage = 1 then 2 else 1, wrong := 0, data := [] }
  else
    let n := s.flash.wrong + 1
    let s := (s.flcRefuse 2).setFlash fun f => { f with wrong := n }
    if 3 ≤ n then s.fset FLC_STAT.KEY_LOCK 1 else s

/-- The block is write-protected (R345). -/
def State.blockWp (s : State) (b : Nat) : Bool :=
  if b < 32 then bitOf (s.raw FLC_WP_LO.addr) b else bitOf (s.raw FLC_WP_HI.addr) (b - 32)

/-- The update engine holds the controller (R379). -/
def State.updBusy (s : State) : Bool := 1 ≤ s.fget UPD_STAT.STATE && s.fget UPD_STAT.STATE ≤ 4

/-- A suspended erase and no operation: a PROG to another block is accepted. -/
def State.flcFree (s : State) (cmd a : Nat) : Bool :=
  s.flash.op.isNone && (match s.flash.susp with
    | none => !s.updBusy
    | some o => cmd = 1 && blockOf o.addr != blockOf a)

/-- Why a keyed command is refused at its trigger, by the order of R342; 0 if it is not. -/
def State.flcCause (s : State) (cmd a : Nat) : Nat :=
  let b := blockOf a
  let pair := b * 0x20000 + pairedPage (pageNo a) * 2048
  if (cmd = 1 || cmd = 6) && (a % 2048 != 0 || !s.inWindow a) then 3
  else if cmd != 6 && s.blockWp b then 4
  else if cmd = 1 && !s.pageErased a then 5
  else if cmd = 1 && !s.blockSlc b && (upperPage (pageNo a) == s.pageErased pair) then 6
  else if cmd = 1 && s.flash.op.isNone && s.flash.susp.any (fun o => blockOf o.addr == b) then 8
  else if !s.fbit FLC_CTRL.EN || !s.flcFree cmd a then 7
  else 0

/-- Cache lines of a range are invalidated (R316). -/
def State.cacheDrop (s : State) (lo hi : Nat) : State :=
  let keep := fun (l : CLine) => !(lo ≤ l.base && l.base < hi)
  { s with caches := { s.caches with ic := s.caches.ic.filter keep, dc := s.caches.dc.filter keep } }

/-- Range of addresses an operation concerns. -/
def FlashOp.range (o : FlashOp) : Nat × Nat :=
  if o.cmd = 1 then (o.addr / 2048 * 2048, o.addr / 2048 * 2048 + 2048)
  else (blockOf o.addr * 0x20000, blockOf o.addr * 0x20000 + 0x20000)

/-- An operation starts: the start record (R348), and an erase invalidates the block's cache lines (R344). -/
def State.flashStart (s : State) (o : FlashOp) : State :=
  let s := s.setFlash fun f => { f with op := some o, stage := 0, data := [] }
  if o.cmd = 6 then s
  else
    let page := if o.cmd = 1 then pageNo o.addr else 0
    let s := s.rsetN FLC_OPMARK.addr (o.cmd + blockOf o.addr * 8 + page * 512 + 65536)
    if o.cmd = 1 then s else s.cacheDrop o.range.1 o.range.2

/-- The start trigger of a keyed command. -/
def State.flcTrigger (s : State) (data : List Word) : State :=
  let cmd := s.flash.cmd
  let a := s.flash.addr
  let cause := s.flcCause cmd a
  let s := if cmd = 1 then s.freeStep else s
  if cause != 0 then s.flcRefuse cause else s.flashStart { cmd := cmd, addr := a, data := data, eng := false }

/-! ## SUSPEND, RESUME, CLR_STAT (R341, R343) -/

/-- Refused without touching the sequence. -/
def State.flcRefuseNow (s : State) (cause : Nat) : State := (s.fset FLC_STAT.REFUSED 1).fset FLC_STAT.CAUSE cause

def State.flcSuspend (s : State) : State :=
  match s.flash.op with
  | some o => if (o.cmd = 2 || o.cmd = 5) && !s.flash.suspReq then s.setFlash fun f => { f with suspReq := true } else s.flcRefuseNow 8
  | none => s.flcRefuseNow 8

def State.flcResume (s : State) : State :=
  match s.flash.susp with
  | none => s.flcRefuseNow 8
  | some o => if s.flash.op.isSome then s.flcRefuseNow 7 else s.setFlash fun f => { f with op := some o, susp := none }

/-- Every W1C field of FLC_STAT is cleared. -/
def State.flcClear (s : State) : State := s.rset FLC_STAT.addr (s.rget FLC_STAT.addr &&& ~~~0x3F8#32)

/-- A write of FLC_CMD. -/
def State.flcCmd (s : State) (c : Nat) : State :=
  if c = 3 || c = 4 || c = 7 then
    if !s.fbit FLC_CTRL.EN then s.flcRefuseNow 7
    else if c = 3 then s.flcSuspend else if c = 4 then s.flcResume else s.flcClear
  else if s.flash.stage = 2 && (c = 1 || c = 2 || c = 5 || c = 6) then s.setFlash fun f => { f with stage := 3, cmd := c }
  else s.flcRefuse 1

def State.flcAddr (s : State) (a : Nat) : State :=
  if s.flash.stage != 3 then s.flcRefuse 1
  else
    let s := s.setFlash fun f => { f with stage := 4, addr := a, data := [] }
    if s.flash.cmd = 2 then s.flcTrigger [] else s

def State.flcData (s : State) (v : Word) : State :=
  if s.flash.stage != 4 then s.flcRefuse 1
  else if s.flash.cmd != 1 then s.flcTrigger [v]
  else
    let l := s.flash.data ++ [v]
    if l.length < 512 then s.setFlash fun f => { f with data := l } else s.flcTrigger l

/-! ## The end of an operation (R341, R347 to R349) -/

/-- Pages become indeterminate. -/
def State.flashSpoil (s : State) (pages : List Nat) : State :=
  s.setFlash fun f => { f with indet := f.indet ++ pages.filter fun p => !f.indet.contains p }
def blockPages (b : Nat) : List Nat := (List.range 64).map (b * 64 + ·)
/-- A page, and the lower page of an upper one. -/
def State.spoilPage (s : State) (a : Nat) : State :=
  let b := blockOf a
  s.flashSpoil ([a / 2048] ++ (if !s.blockSlc b && upperPage (pageNo a) then [b * 64 + pairedPage (pageNo a)] else []))

/-- A range holds fresh content: nothing indeterminate, no bit errors. -/
def State.flashFresh (s : State) (lo hi : Nat) : State :=
  s.setFlash fun f =>
    { f with indet := f.indet.filter (fun p => !(lo ≤ p * 2048 && p * 2048 < hi))
             lines := f.lines.filter (fun l => !(lo ≤ l.1 * 16 && l.1 * 16 < hi)) }
/-- A block is erased. -/
def State.eraseBlock (s : State) (b : Nat) : State :=
  (s.clearRange (b * 0x20000) ((b + 1) * 0x20000)).flashFresh (b * 0x20000) ((b + 1) * 0x20000)

/-- A write of words into flash. -/
def State.flashWords (s : State) (a : Nat) : List Word → State
  | [] => s
  | w :: l => (s.setWord a w.toNat).flashWords (a + 4) l

def State.setMode (s : State) (b : Nat) (slc : Bool) : State :=
  s.fset (if b < 32 then ⟨FLC_MODE_LO.addr, b, 1⟩ else ⟨FLC_MODE_HI.addr, b - 32, 1⟩) (if slc then 1 else 0)

/-- A failed PROG (3) or erase (4). -/
def State.flashFail (s : State) (kind a : Nat) : State :=
  let s := (s.fset FLC_ERRINFO.ADDR a).fset FLC_ERRINFO.KIND kind
  let s := if kind = 3 then (s.fset FLC_STAT.PROG_FAIL 1).spoilPage a
    else (s.fset FLC_STAT.ERASE_FAIL 1).flashSpoil (blockPages (blockOf a))
  s.raise Pg.FLC 1

/-- Limit of verify pulses (FLC_CFG). -/
def State.wearLimit (s : State) : Nat := clampN 1 23 (s.fget FLC_CFG.WEAR_PULSES)

/-- What a completed operation leaves in flash and registers. A MARGIN_RD at the normal level finds what reads of the page find; at a
margin level, or on an indeterminate page, the operands say what it finds. -/
def State.flashEffect (s : State) (o : FlashOp) (ok : Bool) (pulses corr : Nat) (unc : Bool) : State :=
  let lo := o.range.1
  let hi := o.range.2
  match o.cmd with
  | 1 =>
    let s := s.fset FLC_LASTPULSE.PULSES pulses
    let s := if s.wearLimit < pulses then (s.fset FLC_STAT.WEAR 1).raise Pg.FLC 2 else s
    let s := if ok then (s.flashFresh lo hi).flashWords lo o.data else s.flashFail 3 o.addr
    s.cacheDrop lo hi
  | 2 => (if ok then s.eraseBlock (blockOf o.addr) else s.flashFail 4 o.addr).cacheDrop lo hi
  | 5 =>
    let slc := ((o.data[0]?).getD 0#32).toNat % 2 = 1
    (if ok then (s.eraseBlock (blockOf o.addr)).setMode (blockOf o.addr) slc else s.flashFail 4 o.addr).cacheDrop lo hi
  | _ =>
    let level := ((o.data[0]?).getD 0#32).toNat % 4
    let known := level = 0 && !s.flash.indet.contains (o.addr / 2048)
    let here := s.flash.lines.filter fun l => l.1 / 128 == o.addr / 2048
    let corr := if known then ((here.filter fun l => l.2 < 3).map (·.2)).sum else corr
    let unc := if known then here.any fun l => 3 ≤ l.2 else unc
    s.rsetN FLC_MARGIN.addr (min 256 corr + (if unc then 512 else 0) + level * 1024)

/-- The operation that runs ends: completion record, DONE or FAIL. -/
def State.flashEnds (s : State) (ok : Bool) (pulses : BitVec 5) (corr : BitVec 9) (unc : Bool) : State :=
  match s.flash.op with
  | none => s
  | some o =>
    let s := (s.setFlash fun f => { f with op := none, suspReq := false }).flashEffect o ok pulses.toNat corr.toNat unc
    let s := if o.cmd = 6 then s else s.fset FLC_OPMARK.DONE 1
    if ok || o.cmd = 6 then (s.raise Pg.FLC 0).event Pg.FLC 0 62 else s

/-- VDD fails or a brown-out reset occurs: what runs or is suspended leaves its pages indeterminate (R347). -/
def State.flashCut (s : State) : State :=
  let cut := fun (s : State) (o : FlashOp) =>
    if o.cmd = 1 then s.spoilPage o.addr else if o.cmd = 6 then s else s.flashSpoil (blockPages (blockOf o.addr))
  let s := s.flash.op.toList.foldl cut (s.flash.susp.toList.foldl cut s)
  s.setFlash fun f => { f with op := none, susp := none, suspReq := false, stage := 0, data := [], wrong := 0 }

/-! ## Register writes -/

/-- Registers of the page that only a system reset, or nothing, clears. -/
def flcKeeps (a : Nat) : Bool :=
  a = FLC_MODE_LO.addr || a = FLC_MODE_HI.addr || a = FLC_OPMARK.addr || a = FLC_WP_LO.addr || a = FLC_WP_HI.addr

/-- Effect of a write to the FLC page. -/
def flcHook (w : WCtx) (s : State) : State :=
  let base := w.view = .base
  if w.off = 0x004 then
    if s.flash.op.isSome || s.flash.susp.isSome then
      if w.clears FLC_CTRL.EN || w.one FLC_CTRL.SRST then
        (s.rsetN w.addr (if w.clears FLC_CTRL.EN then w.old else w.new % 2)).fset FLC_STAT.EN_REFUSED 1
      else s
    else if w.one FLC_CTRL.SRST then
      let lock := s.fget FLC_STAT.KEY_LOCK
      let s := ((s.resetRegs fun a => srstClears Pg.FLC a && !flcKeeps a).dropHeld Pg.FLC).dirty Pg.FLC
      (s.fset FLC_STAT.KEY_LOCK lock).setFlash fun f => { f with stage := 0, data := [], wrong := 0, corr := [] }
    else s
  else if w.off = 0x040 then (if base then s.flcKey (w.v % 65536) else s)
  else if w.off = 0x044 then (if base then s.flcCmd (w.v % 16) else s)
  else if w.off = 0x048 then (if base then s.flcAddr (w.v % 2 ^ 23) else s)
  else if w.off = 0x04C then (if base then s.flcData (BitVec.ofNat 32 w.v) else s)
  else s

/-- A read of FLC_CBCNT clears the shown block's count (R338). -/
def State.flcCount (s : State) : State × Nat :=
  let b := s.fget FLC_CBSEL.BLOCK
  let c := ((s.flash.corr.find? (fun c => c.1 == b)).map (·.2)).getD (0, 0)
  (s.setFlash fun f => { f with corr := f.corr.filter (fun c => c.1 != b) }, c.1 + min 3 c.2 * 65536)

/-! ## Commands -/

/-- A write of a register of the command sequence. -/
def State.flcWrite (s : State) (m : Master) (a : Nat) (v : Word) : Host.Outcome State Fault Refusal :=
  .next (s.writeReg flcHook ⟨m, .base⟩ a v)

def execFlcKeyWrite (m : Master) (v : Word) (s : State) : Host.Outcome State Fault Refusal := s.flcWrite m FLC_KEY.addr v
/-- The 512th data word of a PROG, or any data word. -/
def execProg (m : Master) (v : Word) (s : State) : Host.Outcome State Fault Refusal := s.flcWrite m FLC_DATA.addr v
/-- The address of an ERASE_BLK, or of any keyed command. -/
def execEraseBlk (m : Master) (v : Word) (s : State) : Host.Outcome State Fault Refusal := s.flcWrite m FLC_ADDR.addr v
def execSetSlc (m : Master) (v : Word) (s : State) : Host.Outcome State Fault Refusal := s.flcWrite m FLC_DATA.addr v
def execMarginRd (m : Master) (v : Word) (s : State) : Host.Outcome State Fault Refusal := s.flcWrite m FLC_DATA.addr v
def execSuspend (m : Master) (s : State) : Host.Outcome State Fault Refusal := s.flcWrite m FLC_CMD.addr 3#32
def execFlcResume (m : Master) (s : State) : Host.Outcome State Fault Refusal := s.flcWrite m FLC_CMD.addr 4#32
def execClrStat (m : Master) (s : State) : Host.Outcome State Fault Refusal := s.flcWrite m FLC_CMD.addr 7#32

def execFlcWpWrite (a : Acc) (hi : Bool) (v : Word) (s : State) : Host.Outcome State Fault Refusal :=
  .next (s.writeReg flcHook a (if hi then FLC_WP_HI.addr else FLC_WP_LO.addr) v)
def execFlcDisable (a : Acc) (v : Word) (s : State) : Host.Outcome State Fault Refusal :=
  .next (s.writeReg flcHook a FLC_CTRL.addr v)

end Sys2Proof.Machine
end

