-- ==== Sys2Proof/Machine/Cipher.lean ====
section
/-!
DEFINITION. The cipher engine's key page and its eight user pages (R354 to R368). A job's blocks are worked as soon as their words
are in DIN and there is room in DOUT.
Readings of the manual made here: DEDUCED in log entries 110, 111.
-/
namespace Sys2Proof.Machine
open Sys2Proof

/-! ## Key slots (R355 to R358) -/

/-- A key change of a slot (R356): its tickets are squashed, and a frame being decrypted under it finds another generation. -/
def State.keyChange (s : State) (n : Nat) : State :=
  let k := s.keySlot n
  (s.setKey n { k with gen := k.gen + 1 }).squashWhere .key false fun t => (t.key.map (·.1)) = some n

/-- A slot whose USE_LIMIT its USES have reached is exhausted (R358). -/
def State.keyLimit (s : State) (n : Nat) : State :=
  if (s.keySlot n).limit ≤ (s.keySlot n).uses then s.keyExhaust n else s

/-- Slots VALID, and slots EXHAUSTED, a bit each. -/
def State.keyValid (s : State) : Nat := maskOf ((List.range 32).filter fun n => (s.keySlot n).valid)
def State.keyExh (s : State) : Nat := maskOf ((List.range 32).filter fun n => (s.keySlot n).exhausted)

/-- Attributes as CIPH_KEY_ATTR stages them. -/
def State.stagedAttr (s : State) (k : KeySlot) : KeySlot :=
  { k with
    size := s.fbit CIPH_KEY_ATTR.SIZE, rad := s.fbit CIPH_KEY_ATTR.RAD, upd := s.fbit CIPH_KEY_ATTR.UPD
    drv := s.fbit CIPH_KEY_ATTR.DRV, seck := s.fbit CIPH_KEY_ATTR.SECK, pgmask := s.fget CIPH_KEY_ATTR.PGMASK
    limit := s.raw CIPH_KEY_LIMIT.addr }

/-- A slot is selected: its attributes, limit and counter are loaded, staged key words are discarded. -/
def State.keySelect (s : State) : State :=
  let k := s.keySlot (s.fget CIPH_KEY_IDX.SLOT)
  let b := fun (x : Bool) (n : Nat) => if x then 2 ^ n else 0
  let s := s.rsetN CIPH_KEY_ATTR.addr (b k.size 0 + b k.rad 1 + b k.upd 2 + b k.drv 3 + b k.seck 4 + k.pgmask * 256)
  { (s.rsetN CIPH_KEY_LIMIT.addr k.limit).rsetN CIPH_KEY_FC.addr k.txFc with staged := [] }

/-- A key command is refused (R355). -/
def State.keyRefuse (s : State) (cause : Nat) : State :=
  let s := (s.fset CIPH_ERRINFO.SLOT (s.fget CIPH_KEY_IDX.SLOT)).fset CIPH_ERRINFO.CAUSE cause
  (s.fset CIPH_STAT.KEY_REFUSED 1).raise Pg.CIPH 1

/-- Staged key word `i`. -/
def State.stagedWord (s : State) (i : Nat) : Option Word := (s.staged.find? (fun p => p.1 == i)).map (·.2)

def State.keyCommit (s : State) : State :=
  let n := s.fget CIPH_KEY_IDX.SLOT
  let words := (List.range (if s.fbit CIPH_KEY_ATTR.SIZE then 8 else 4)).map s.stagedWord
  if words.any Option.isNone then s.keyRefuse 1
  else
    let key := words.flatMap fun w => leBytesN 4 (w.getD 0#32).toNat
    let k := s.stagedAttr (s.keySlot n)
    let s := s.setKey n { k with key := key, valid := true, uses := 0, txFc := s.raw CIPH_KEY_FC.addr, exhausted := false }
    (({ s with staged := [] } : State).keyChange n).keyLimit n

def State.keyAttr (s : State) : State :=
  let n := s.fget CIPH_KEY_IDX.SLOT
  if s.fbit CIPH_KEY_ATTR.SIZE != (s.keySlot n).size then s.keyRefuse 4
  else ((s.setKey n (s.stagedAttr (s.keySlot n))).keyChange n).keyLimit n

def State.keyFc (s : State) : State :=
  let n := s.fget CIPH_KEY_IDX.SLOT
  let k := s.keySlot n
  let fc := s.raw CIPH_KEY_FC.addr
  if fc < k.txFc then (s.fset CIPH_STAT.FC_REFUSED 1).keyRefuse 2 else s.setKey n { k with txFc := fc }

/-- A slot with every field zero. -/
def State.keyClear (s : State) (n : Nat) : State := (s.setKey n { gen := (s.keySlot n).gen }).keyChange n

/-! ## User pages (R360 to R367) -/

def State.cipuGet (s : State) (n : Nat) : Cipu := (s.cipu[n]?).getD {}
def State.cipuSet (s : State) (n : Nat) (f : Cipu → Cipu) : State := { s with cipu := setAt s.cipu n (f (s.cipuGet n)) }

/-- A job was refused or ended early. -/
def State.cipuError (s : State) (n cause : Nat) : State :=
  ((s.fset (CIPU_STAT.ERR n) 1).fset (CIPU_ERRINFO.CAUSE n) cause).raise (Pg.CIPU n) 1

/-- The FIFOs are emptied and TAG is cleared. -/
def State.cipuDrain (s : State) (n : Nat) : State :=
  (List.range 8).foldl (fun s k => s.rsetN (CIPU_TAG.addr n k) 0)
    (s.cipuSet n fun c => { c with job := none, din := [], dout := [], freed := 0, made := 0 })

/-- The running job, if there is one, ends early; the FIFOs and TAG are cleared (R367). -/
def State.cipuEnd (s : State) (n cause : Nat) : State :=
  let busy := (s.cipuGet n).job.isSome
  let s := (s.cipuDrain n).fset (CIPU_STAT.STATE n) 0
  if busy then s.cipuError n cause else s

/-- ZEROISE (R368): every slot is cleared, every user job aborted. -/
def State.zeroise (s : State) : State :=
  (List.range 8).foldl (fun s n => s.cipuEnd n 10) ((List.range 32).foldl State.keyClear s)

/-- The IV bytes of a page. -/
def State.cipuIv (s : State) (n : Nat) : List Byte := (List.range 4).flatMap fun k => leBytesN 4 (s.raw (CIPU_IV.addr n k))

/-- TAGLEN as the mode takes it: 0 acts as 16 for GCM and CMAC. -/
def State.cipuTagLen (s : State) (n : Nat) : Nat :=
  let t := s.fget (CIPU_CFG.TAGLEN n)
  if t = 0 && (s.fget (CIPU_CFG.MODE n) = 4 || s.fget (CIPU_CFG.MODE n) = 5) then 16 else t

/-- The limits of R362: cause 6 for parameters, 1 for lengths, 0 where they hold. -/
def State.cipuLimits (s : State) (n : Nat) : Nat :=
  let a := s.fget (CIPU_ALEN.LEN n)
  let m := s.raw (CIPU_MLEN.addr n)
  let t := s.cipuTagLen n
  let len (b : Bool) : Nat := if b then 0 else 1
  if 16 < s.fget (CIPU_CFG.TAGLEN n) then 6
  else match s.fget (CIPU_CFG.MODE n) with
    | 1 => len (a = 0 && 1 ≤ m && m ≤ 1048576)
    | 2 => len (a = 0 && 16 ≤ m && m ≤ 1048576 && m % 16 = 0)
    | 3 =>
      if t % 2 = 1 || t = 2 then 6 else len (a ≤ 4095 && m ≤ 65535 && (t != 0 || 1 ≤ m))
    | 4 => if t = 4 || t = 8 || 12 ≤ t then len (a + m ≤ 1048576) else 6
    | 5 => if s.fbit (CIPU_CFG.CHK n) && t < 4 then 6 else len (a = 0 && m ≤ 1048576)
    | 6 => len (a = 0)
    | _ => 6

/-- A derivation's target may take the key (R365). -/
def State.deriveOk (s : State) (n : Nat) : Bool :=
  let k := s.keySlot (s.fget (CIPU_CFG.DSLOT n))
  (!k.valid || !k.size) && k.drv && bitOf k.pgmask n

/-- The job is a CMAC derivation. -/
def State.deriving? (s : State) (n : Nat) : Bool := s.fget (CIPU_CFG.MODE n) = 5 && s.fbit (CIPU_CFG.DERIVE n)

/-- The job is an encryption whose start is a use (R357). -/
def State.cipuUses (s : State) (n : Nat) : Bool :=
  1 ≤ s.fget (CIPU_CFG.MODE n) && s.fget (CIPU_CFG.MODE n) ≤ 4 && !s.fbit (CIPU_CFG.DEC n)

/-- The slot refuses a page: not VALID or not for this page (2), EXHAUSTED (3), or a non-secure access under SECK (7). -/
def State.cipuSlot (s : State) (n : Nat) (sec : Bool) : Nat :=
  let k := s.keySlot (s.fget (CIPU_CFG.KEY n))
  if !k.valid || !bitOf k.pgmask n then 2 else if k.exhausted then 3 else if k.seck && !sec then 7 else 0

/-- Why a START is refused, 0 if it is not (R362, R363, R365, R367). -/
def State.startCause (s : State) (n : Nat) (sec : Bool) : Nat :=
  let k := s.keySlot (s.fget (CIPU_CFG.KEY n))
  if !s.fbit (CIPU_CTRL.EN n) then 8
  else if (s.cipuGet n).job.isSome then 9
  else if s.cipuLimits n != 0 then s.cipuLimits n
  else if s.fget (CIPU_CFG.MODE n) = 6 then 0
  else if s.cipuSlot n sec != 0 then s.cipuSlot n sec
  else if k.rad && s.cipuUses n && s.fget (CIPU_CFG.MODE n) != 2 && (s.cipuGet n).took.isNone then 4
  else if s.deriving? n && !s.deriveOk n then 2 else 0

/-- Output of a job over the message bytes it has taken. -/
def CipJob.output (j : CipJob) : List Byte :=
  match j.mode with
  | 1 => ctrMode j.key j.iv j.msg
  | 2 => if j.dec then cbcDec j.key j.iv (blocks j.msg) else cbcEnc j.key j.iv (blocks j.msg)
  | 3 => ccmCrypt j.key j.iv j.msg
  | 4 => gcmCrypt j.key j.iv j.msg
  | _ => []

/-- Tag, MAC or digest of a finished job, as it is placed. -/
def CipJob.tag (j : CipJob) : List Byte :=
  match j.mode with
  | 3 => ccmTag j.key j.iv j.aad (if j.dec then ccmCrypt j.key j.iv j.msg else j.msg) j.tagLen
  | 4 => (gcmTag j.key j.iv j.aad (if j.dec then j.msg else gcmCrypt j.key j.iv j.msg)).take j.tagLen
  | 5 => cmac j.key j.msg
  | 6 => sha256 j.msg
  | _ => []

/-- Input words that a job still waits for, those in DIN among them. -/
def CipJob.wordsLeft (j : CipJob) : Nat := ceilDiv (j.aLen - j.aad.length) 4 + ceilDiv (j.mLen - j.msg.length) 4

/-- One block is worked: of the AAD, or of the message if DOUT has room for what it gives. -/
def Cipu.block (c : Cipu) (j : CipJob) : Option Cipu :=
  let take := fun (k : Nat) => (c.din.take (ceilDiv k 4)).flatMap (fun w => leBytesN 4 w.toNat) |>.take k
  let a := min 16 (j.aLen - j.aad.length)
  let m := min 16 (j.mLen - j.msg.length)
  if 0 < a then
    if c.din.length < ceilDiv a 4 then none
    else some { c with job := some { j with aad := j.aad ++ take a }, din := c.din.drop (ceilDiv a 4), freed := c.freed + ceilDiv a 4 }
  else if m = 0 || c.din.length < ceilDiv m 4 then none
  else if 5 ≤ j.mode then
    some { c with job := some { j with msg := j.msg ++ take m }, din := c.din.drop (ceilDiv m 4), freed := c.freed + ceilDiv m 4 }
  else if 8 < c.dout.length + ceilDiv m 4 then none
  else
    let j := { j with msg := j.msg ++ take m }
    let out := j.output.drop j.outN
    some { c with
      job := some { j with outN := j.outN + out.length }, din := c.din.drop (ceilDiv m 4), freed := c.freed + ceilDiv m 4
      dout := c.dout ++ toWords out, made := c.made + ceilDiv m 4 }

def cipuBlocks : Nat → Cipu → Cipu
  | 0, c => c
  | n + 1, c =>
    match c.job with
    | none => c
    | some j => match c.block j with
      | none => c
      | some c => cipuBlocks n c

/-- The page works what it can; STATE follows, and IN_RDY and OUT_RDY are raised for each group of four words. -/
def State.cipuPump (s : State) (n : Nat) : State :=
  let s := s.cipuSet n (cipuBlocks 9)
  let c := s.cipuGet n
  match c.job with
  | none => s
  | some j =>
    let st := if j.aad.length < j.aLen then 1 else if j.msg.length < j.mLen then 2 else 3
    let s := (s.fset (CIPU_STAT.STATE n) st).cipuSet n fun c => { c with freed := c.freed % 4, made := c.made % 4 }
    let s := if 4 ≤ c.freed then s.event (Pg.CIPU n) 0 (44 + n) else s
    if 4 ≤ c.made then s.event (Pg.CIPU n) 1 (52 + n) else s

/-- START (R361): checked, the use counted, the key and the parameters latched. -/
def State.cipuStart (s : State) (n : Nat) (sec : Bool) : State :=
  let cause := s.startCause n sec
  if cause != 0 then (s.cipuError n cause).finc (CIPU_CNT.REFUSED n)
  else
    let slot := s.fget (CIPU_CFG.KEY n)
    let mode := s.fget (CIPU_CFG.MODE n)
    let j : CipJob :=
      { mode := mode, dec := s.fbit (CIPU_CFG.DEC n), chk := s.fbit (CIPU_CFG.CHK n), derive := s.deriving? n, slot := slot
        key := if mode = 6 then [] else (s.keySlot slot).key, tagLen := s.cipuTagLen n, aLen := s.fget (CIPU_ALEN.LEN n)
        mLen := s.raw (CIPU_MLEN.addr n), dslot := s.fget (CIPU_CFG.DSLOT n), iv := s.cipuIv n
        expect := (List.range 4).flatMap fun k => leBytesN 4 (s.raw (CIPU_TAG.addr n k)) }
    let s := if s.cipuUses n && (s.cipuGet n).took != some slot then s.keyUse slot else s
    let s := s.fset (CIPU_STAT.ERR n) 0
    (s.cipuSet n fun c => { c with job := some j, din := [], took := none, freed := 0, made := 0 }).cipuPump n

/-- TAKE_FC (R363): the counter goes big-endian into nonce bytes 8 to 11. -/
def State.cipuTake (s : State) (n : Nat) (sec : Bool) : State :=
  if (s.cipuGet n).job.isSome then s.cipuError n 9
  else if s.cipuSlot n sec != 0 then s.cipuError n (s.cipuSlot n sec)
  else
    let r := s.takeCounter (s.fget (CIPU_CFG.KEY n))
    (r.2.rsetN (CIPU_IV.addr n 2) (leNatB (beBytes 4 r.1))).cipuSet n fun c => { c with took := some (s.fget (CIPU_CFG.KEY n)) }

/-- A word for DIN. -/
def State.cipuFeed (s : State) (n : Nat) (v : Word) : State :=
  let c := s.cipuGet n
  match c.job with
  | none => s.fset (CIPU_STAT.OVERFEED n) 1
  | some j =>
    if j.wordsLeft ≤ c.din.length then s.fset (CIPU_STAT.OVERFEED n) 1
    else if 8 ≤ c.din.length then s.cipuEnd n 5
    else (s.cipuSet n fun c => { c with din := c.din ++ [v] }).cipuPump n

/-- A read of DOUT pops one word. -/
def State.cipuPop (s : State) (n : Nat) : State × Nat :=
  match (s.cipuGet n).dout with
  | [] => (s.fset (CIPU_STAT.RD_EMPTY n) 1, 0)
  | w :: l => ((s.cipuSet n fun c => { c with dout := l }).cipuPump n, w.toNat)

/-- A derived key is committed into its slot (R365). -/
def State.keyDerive (s : State) (d : Nat) (key : List Byte) : State :=
  let k := s.keySlot d
  let s := s.setKey d { k with key := key, valid := true, size := false, uses := 0, exhausted := false }
  (((s.keyChange d).keyLimit d).finc CIPH_CNT.DERIVED)

/-- The last block is worked: TAG or the derived key, AUTH_FAIL, STATE DONE (R361, R364, R365). -/
def State.cipuDone (s : State) (n : Nat) (j : CipJob) : State :=
  let tag := j.tag
  let words := toWords (tag ++ List.replicate (32 - tag.length) 0#8)
  let s := s.cipuSet n fun c => { c with job := none }
  let s := if j.derive then s.keyDerive j.dslot tag
    else if tag.isEmpty then s
    else (List.range 8).foldl (fun s k => s.rset (CIPU_TAG.addr n k) ((words[k]?).getD 0#32)) s
  let bad := j.chk && 3 ≤ j.mode && j.mode ≤ 5 && tag.take j.tagLen != j.expect.take j.tagLen
  let s := if bad then s.fset (CIPU_STAT.AUTH_FAIL n) 1 else s
  (((s.fset (CIPU_STAT.STATE n) 4).finc (CIPU_CNT.JOBS n)).raise (Pg.CIPU n) 0).event (Pg.CIPU n) 2 60

/-! ## Register writes -/

/-- Effect of a write to the CIPH page. -/
def ciphHook (w : WCtx) (s : State) : State :=
  if w.off = 0x040 then s.keySelect
  else if 0x044 ≤ w.off && w.off ≤ 0x060 then
    if w.view = .base then
      let i := (w.off - 0x044) / 4
      { s.rsetN w.addr 0 with staged := (i, BitVec.ofNat 32 w.v) :: s.staged.filter (fun p => p.1 != i) }
    else s
  else if w.off = 0x070 then
    match fieldGet w.wo CIPH_KEY_CMD.CMD with
    | 1 => s.keyCommit
    | 2 => s.keyAttr
    | 3 => s.keyFc
    | 4 => s.keyClear (s.fget CIPH_KEY_IDX.SLOT)
    | 5 =>
      let old := s.keyValid
      s.zeroise.audit w.src 0 Pg.CIPH 0x070 0 old 5
    | _ => s
  else s

/-- Effect of a write to the page of CIPUn. -/
def cipuHook (n : Nat) (w : WCtx) (s : State) : State :=
  if w.off = 0x01C then
    let s := (s.cipuEnd n 10).rset (CIPU_CFG.addr n) (resetOf (CIPU_CFG.addr n))
    ((List.range 4).foldl (fun s k => s.rsetN (CIPU_IV.addr n k) 0) s).cipuSet n fun c => { c with took := none }
  else if w.off = 0x004 then
    if w.one (CIPU_CTRL.SRST n) then
      let busy := (s.cipuGet n).job.isSome
      let s := ((s.cipuDrain n).cipuSet n fun c => { c with took := none }).srstPage (Pg.CIPU n)
      if busy then s.fset (CIPU_ERRINFO.CAUSE n) 10 else s
    else s
  else if 0x04C ≤ w.off && w.off ≤ 0x058 then s.cipuSet n fun c => { c with took := none }
  else if w.off = 0x05C then
    match fieldGet w.wo (CIPU_CMD.CMD n) with
    | 1 => s.cipuStart n w.src.sec
    | 2 => s.cipuEnd n 10
    | 3 => s.cipuTake n w.src.sec
    | _ => s
  else if w.off = 0x060 then (if w.view = .base then s.cipuFeed n (BitVec.ofNat 32 w.v) else s)
  else if 0x068 ≤ w.off && w.off ≤ 0x084 then (if (s.cipuGet n).job.isSome then s.rsetN w.addr w.old else s)
  else s

/-! ## Commands -/

def execCiphKeyIdxWrite (a : Acc) (v : Word) (s : State) : Host.Outcome State Fault Refusal :=
  .next (s.writeReg ciphHook a CIPH_KEY_IDX.addr v)

/-- A command written to CIPH_KEY_CMD. -/
def State.keyCmd (s : State) (m : Master) (c : Word) : Host.Outcome State Fault Refusal :=
  .next (s.writeReg ciphHook ⟨m, .base⟩ CIPH_KEY_CMD.addr c)
def execKeyCommit (m : Master) (s : State) : Host.Outcome State Fault Refusal := s.keyCmd m 1#32
def execKeyAttr (m : Master) (s : State) : Host.Outcome State Fault Refusal := s.keyCmd m 2#32
def execKeyFc (m : Master) (s : State) : Host.Outcome State Fault Refusal := s.keyCmd m 3#32
def execKeyErase (m : Master) (s : State) : Host.Outcome State Fault Refusal := s.keyCmd m 4#32
def execZeroise (m : Master) (s : State) : Host.Outcome State Fault Refusal := s.keyCmd m 5#32

/-- A command written to CIPUn_CMD. -/
def State.cipuCmd (s : State) (m : Master) (n : Nat) (c : Word) : Host.Outcome State Fault Refusal :=
  .next (s.writeReg (cipuHook n) ⟨m, .base⟩ (CIPU_CMD.addr n) c)
def execCipuStart (m : Master) (n : Fin 8) (s : State) : Host.Outcome State Fault Refusal := s.cipuCmd m n.val 1#32
def execCipuAbort (m : Master) (n : Fin 8) (s : State) : Host.Outcome State Fault Refusal := s.cipuCmd m n.val 2#32
def execTakeFc (m : Master) (n : Fin 8) (s : State) : Host.Outcome State Fault Refusal := s.cipuCmd m n.val 3#32

def execCipuDinWrite (a : Acc) (n : Fin 8) (v : Word) (s : State) : Host.Outcome State Fault Refusal :=
  .next (s.writeReg (cipuHook n.val) a (CIPU_DIN.addr n.val) v)
def execCipuDoutRead (m : Master) (n : Fin 8) (s : State) : Host.Outcome State Fault Refusal :=
  .next (s.readAs m (CIPU_DOUT.addr n.val) (·.cipuPop n.val))

/-- The last input block of a job has been worked. -/
def execCipuJobDone (n : Fin 8) (s : State) : Host.Outcome State Fault Refusal :=
  match (s.cipuGet n.val).job with
  | some j => .next (if s.fget (CIPU_STAT.STATE n.val) = 3 then s.cipuDone n.val j else s)
  | none => .next s

end Sys2Proof.Machine
end

