-- ==== Sys2Proof/Machine/Icu.lean ====
section
/-!
DEFINITION. Tanum-A's interrupt controller (R308 to R313): its 96 lines, their enables and levels, and the line that is taken next;
and the Glade's 16 lines (R317).
-/
namespace Sys2Proof.Machine
open Sys2Proof

/-! ## Interrupt lines (R49, R309) -/

/-- INT_RAW of a page as it stands: on a cipher user page IN_RDY and OUT_RDY are levels (R361), and what the
lockstep domain raised in the present phase shows at its end (R35). -/
def State.intRaw (s : State) (p : Nat) : Nat :=
  let v := s.shown (INT_RAW.addr p)
  if Pg.CIPU 0 ≤ p ∧ p ≤ Pg.CIPU 7 then
    let c := s.cipuGet (p - Pg.CIPU 0)
    v % 4 + (if c.din.length ≤ 4 then 4 else 0) + (if 4 ≤ c.dout.length then 8 else 0)
  else v

/-- INT_PEND of a page: the conditions that its interrupt line carries. -/
def State.intPend (s : State) (p : Nat) : Nat := s.intRaw p &&& s.raw (INT_EN.addr p)

/-- The line of a register page is asserted; a page whose domain is down drives none, and GMB never does (R278). -/
def pageDomain (p : Nat) : Domain :=
  if p = Pg.PWR ∨ p = Pg.PROT ∨ p = Pg.CUL ∨ p = Pg.RTC then .aon
  else if (Pg.TMR 0 ≤ p ∧ p ≤ Pg.TMR 7) ∨ p = Pg.GPIO then .lp
  else if (Pg.RFE ≤ p ∧ p ≤ Pg.NTU) ∨ p = Pg.CIPH ∨ p = Pg.DCA then .rad
  else .app
def State.pageLine (s : State) (p : Nat) : Bool := p != Pg.GMB && s.domUp (pageDomain p) && s.intPend p != 0

/-- A line is asserted, latched or set by software. -/
def State.irqPending (s : State) (n : Nat) : Bool :=
  (if n < 64 then s.pageLine n else bitOf s.coreA.edge (n - 64)) || bitOf (s.raw (ICU_SWP.addr (n / 32))) (n % 32)
def State.irqEnabled (s : State) (n : Nat) : Bool := bitOf (s.raw (ICU_EN.addr (n / 32))) (n % 32)
def State.irqLevel (s : State) (n : Nat) : Nat := s.raw (ICU_LVL.addr (n / 8)) / 2 ^ (4 * (n % 8)) % 8

/-- Lines pending and enabled, in ascending order. -/
def State.irqReady (s : State) : List Nat := (List.range 96).filter fun n => s.irqPending n && s.irqEnabled n

/-- The first of a list of lines with the lowest level (R310). -/
def mostUrgent (lvl : Nat → Nat) : List Nat → Option Nat
  | [] => none
  | n :: l => match mostUrgent lvl l with
    | none => some n
    | some m => if lvl m < lvl n then some m else some n

/-- Fields of PSW (R296): IE, and PRI with 9 to 15 acting as 8. -/
def Core.ie (c : Core) : Bool := c.psw.getLsbD 12
def Core.pri (c : Core) : Nat := min 8 (c.psw.toNat / 2 ^ 8 % 16)

/-- The line that Tanum-A takes next: the most urgent pending enabled line, if IE is set and its level is below PRI. -/
def State.irqTop (s : State) : Option Nat := mostUrgent s.irqLevel s.irqReady
def State.irqTaken (s : State) : Option Nat :=
  match s.irqTop with
  | some n => if s.coreA.ie ∧ s.irqLevel n < s.coreA.pri then some n else none
  | none => none

/-- An interrupt is a wake event of DOZE and NAP and completes WAIT (R313). -/
def State.irqWakes (s : State) : Bool := !s.irqReady.isEmpty

/-- Clear a line's edge latch and its SWP bit. -/
def State.irqClear (s : State) (n : Nat) : State :=
  let s := s.fset ⟨ICU_SWP.addr (n / 32), n % 32, 1⟩ 0
  if 64 ≤ n ∧ bitOf s.coreA.edge (n - 64) then { s with coreA := { s.coreA with edge := s.coreA.edge - 2 ^ (n - 64) } } else s

/-- ICU_PENDn and ICU_STAT as they read. -/
def State.icuPend (s : State) (k : Nat) : Nat := maskOf ((List.range 32).filter fun j => s.irqPending (32 * k + j))
def State.icuStat (s : State) : Nat :=
  let act := (List.range 96).filter fun n => bitOf (s.raw (ICU_ACT.addr (n / 32))) (n % 32)
  (match s.irqTop with | some n => n + 2 ^ 7 + s.irqLevel n * 2 ^ 8 | none => 0) + min 15 act.length * 2 ^ 16

/-! ## The Glade's lines (R294, R317) -/

def State.gLevel (s : State) (n : Nat) : Nat := s.raw GCORE_ILVL.addr / 4 ^ n % 4
def State.gReady (s : State) : List Nat := (List.range 16).filter fun n => bitOf s.gPending n && bitOf (s.fget GCORE_IEN.EN) n
def State.gTop (s : State) : Option Nat := mostUrgent s.gLevel s.gReady
def State.gTaken (s : State) : Option Nat :=
  match s.gTop with
  | some n => if s.coreG.ie ∧ s.gLevel n < s.coreG.pri then some n else none
  | none => none

end Sys2Proof.Machine
end

