-- ==== Sys2Proof/Machine/Rtc.lean ====
section
/-!
DEFINITION. The real-time clock in the backup domain (R392 to R400): calendar, alarms, shadows, lockout and backup supply.
Readings of the manual made here: DEDUCED in log entry 121.
-/
namespace Sys2Proof.Machine
open Sys2Proof

def State.setRtc (s : State) (f : RtcState → RtcState) : State := { s with rtc := f s.rtc }

/-! ## The calendar (R392) -/

/-- Lengths of the months of a year counted from 2000; every fourth year is a leap year. -/
def monthDays (y : Nat) : List Nat := [31, if y % 4 = 0 then 29 else 28, 31, 30, 31, 30, 31, 31, 30, 31, 30, 31]
/-- Days from 2000-01-01 to the first day of a year. -/
def yearStart (y : Nat) : Nat := 365 * y + (y + 3) / 4

/-- Month and day of the month, both from 1, of a day of the year counted from 0. -/
def monthOf : List Nat → Nat → Nat → Nat × Nat
  | [], m, d => (m, d + 1)
  | n :: l, m, d => if d < n then (m, d + 1) else monthOf l (m + 1) (d - n)

/-- Year, month and day of a day counted from 2000-01-01. -/
def dateOf (d : Nat) : Nat × Nat × Nat :=
  let c := d / 1461
  let r := d % 1461
  let y := if r < 366 then 4 * c else 4 * c + 1 + (r - 366) / 365
  let (m, k) := monthOf (monthDays y) 1 (d - yearStart y)
  (y, m, k)

/-- Day counted from 2000-01-01 of a date. -/
def dayOf (y m d : Nat) : Nat := yearStart y + ((monthDays y).take (m - 1)).foldl (· + ·) 0 + (d - 1)

/-- Seconds of the calendar's hundred years. -/
def calSpan : Nat := 36525 * 86400

/-- RTC_TIME and RTC_DATE of a calendar value; day 0 of the week is Monday, and 2000-01-01 is day 5. -/
def timeWord (c : Nat) : Nat := c % 60 + c / 60 % 60 * 2 ^ 8 + c / 3600 % 24 * 2 ^ 16
def dateWord (c : Nat) : Nat :=
  let (y, m, d) := dateOf (c / 86400)
  d + m * 2 ^ 8 + y * 2 ^ 16 + (c / 86400 + 5) % 7 * 2 ^ 24

/-- The calendar value that SET_TIME and SET_DATE hold, if every field is in range (R393). -/
def State.setValue (s : State) : Option Nat :=
  let se := s.fget RTC_SET_TIME.SEC
  let mi := s.fget RTC_SET_TIME.MIN
  let ho := s.fget RTC_SET_TIME.HOUR
  let d := s.fget RTC_SET_DATE.DAY
  let m := s.fget RTC_SET_DATE.MONTH
  let y := s.fget RTC_SET_DATE.YEAR
  if 59 < se || 59 < mi || 23 < ho || m = 0 || 12 < m || 99 < y || d = 0 || ((monthDays y)[m - 1]?).getD 0 < d then none
  else some (dayOf y m d * 86400 + ho * 3600 + mi * 60 + se)

/-! ## Alarms (R396, R397) -/

def State.almMask (s : State) (n b : Nat) : Bool := bitOf (s.fget (RTC_ALM_CFG.MASK n)) b

/-- The time of day, and the date, match an alarm's unmasked fields. -/
def State.almTime (s : State) (n t : Nat) : Bool :=
  (s.almMask n 0 || s.fget (RTC_ALM_TIME.SEC n) = t % 60) && (s.almMask n 1 || s.fget (RTC_ALM_TIME.MIN n) = t / 60 % 60)
    && (s.almMask n 2 || s.fget (RTC_ALM_TIME.HOUR n) = t / 3600)
def State.almDate (s : State) (n d : Nat) : Bool :=
  let (y, m, k) := dateOf d
  (s.almMask n 3 || s.fget (RTC_ALM_DATE.DAY n) = k) && (s.almMask n 4 || s.fget (RTC_ALM_DATE.MONTH n) = m)
    && (s.almMask n 5 || s.fget (RTC_ALM_DATE.YEAR n) = y)
def State.almMatches (s : State) (n c : Nat) : Bool := s.almTime n (c % 86400) && s.almDate n (c / 86400)

/-- The calendar value lies after LAST. -/
def State.almAfter (s : State) (n c : Nat) : Bool := match s.rtc.last[n]? with | some (some l) => l < c | _ => true
/-- Enabled and armed. -/
def State.almReady (s : State) (n : Nat) : Bool := s.fbit (RTC_ALM_CFG.EN n) && s.fbit (RTC_ALM_CFG.ARMED n)

/-- Some second strictly between two calendar values, and after LAST, matches. -/
def State.almBetween (s : State) (n a b : Nat) : Bool :=
  let lo := (match s.rtc.last[n]? with | some (some l) => max a l | _ => a) + 1
  lo < b && (
    let d0 := lo / 86400
    let d1 := (b - 1) / 86400
    let within := fun (d x y : Nat) => s.almDate n d && (List.range (y - x)).any fun i => s.almTime n (x + i)
    if d0 = d1 then within d0 (lo % 86400) ((b - 1) % 86400 + 1)
    else within d0 (lo % 86400) 86400 || within d1 0 ((b - 1) % 86400 + 1)
      || ((List.range 86400).any (s.almTime n) && (List.range (d1 - d0 - 1)).any fun i => s.almDate n (d0 + 1 + i)))

/-- An alarm fires at the calendar value that stands now. -/
def State.almFire (s : State) (n : Nat) (late : Bool) : State :=
  let s := ((s.fset (RTC_ALM_CFG.FIRED n) 1).fset (RTC_ALM_CFG.ARMED n) 0).raise Pg.RTC n
  let s := if late then s.fset (RTC_ALM_CFG.LATE n) 1 else s
  (s.setRtc fun r => { r with last := setAt r.last n (some r.cal) }).wakeEvent 3

/-- An alarm compares at a second boundary: it fires, or re-arms where it does not match. Answers its producer. -/
def State.almCompare (s : State) (n : Nat) : State × List Nat :=
  let c := s.rtc.cal
  if !s.almMatches n c then (s.fset (RTC_ALM_CFG.ARMED n) 1, [])
  else if s.almReady n && s.almAfter n c then
    (s.almFire n false, if s.fbit (EVT_EN.bit Pg.RTC n) then [72 + n] else [])
  else (s, [])

/-- Both alarms compare. -/
def State.almBoth (s : State) : State × List Nat :=
  let (s, p) := s.almCompare 0
  let (s, q) := s.almCompare 1
  (s, p ++ q)

/-- An alarm at the load of a SET from the value `old` (R397); the second of the load re-arms one that it does not match. -/
def State.almLoad (s : State) (n old : Nat) : State × List Nat :=
  if old < s.rtc.cal && s.almReady n && s.almBetween n old s.rtc.cal then
    let s := s.almFire n true
    (if s.almMatches n s.rtc.cal then s else s.fset (RTC_ALM_CFG.ARMED n) 1, if s.fbit (EVT_EN.bit Pg.RTC n) then [72 + n] else [])
  else s.almCompare n

/-! ## Commands -/

/-- A second of the calendar. -/
def execRtcSecond (s : State) : Host.Outcome State Fault Refusal :=
  if !s.fbit RTC_CTRL.EN then .next s
  else
    let c := (s.rtc.cal + 1) % calSpan
    let s := s.setRtc fun r => { r with cal := c, sub := 0, secAt := s.now }
    let s := if c = 0 then s.fset RTC_STAT.YWRAP 1 else s
    let (s, p) := (s.raise Pg.RTC 2).almBoth
    .next (s.publishAll (p ++ if s.fbit (EVT_EN.bit Pg.RTC 2) then [74] else []))

/-- RTC_CMD SET (R393). -/
def State.rtcSetReq (s : State) : State :=
  match s.setValue with
  | some c => if s.fbit RTC_STAT.BUSY then s.fset RTC_STAT.SET_REFUSED 1
    else (s.fset RTC_STAT.BUSY 1).setRtc fun r => { r with setTo := some c }
  | none => s.fset RTC_STAT.SET_REFUSED 1

/-- Effect of a write to the RTC page. -/
def rtcHook (w : WCtx) (s : State) : State :=
  if w.off = 0x040 then
    (if w.wo = 0x1A7C && s.fbit RTC_STAT.VDD_STABLE then s.fset RTC_STAT.LOCKOUT 0 else s)
  else if w.off = 0x058 then
    let s := s.fset RTC_CMD.SET 0
    if w.one RTC_CMD.SET then s.rtcSetReq else s
  else if 0x070 ≤ w.off && w.off < 0x090 then
    let n := (w.off - 0x070) / 0x10
    (s.fset (RTC_ALM_CFG.ARMED n) 1).setRtc fun r => { r with last := setAt r.last n none }
  else s

def execRtcSet (a : Acc) (v : Word) (s : State) : Host.Outcome State Fault Refusal := .next (s.writeReg rtcHook a RTC_CMD.addr v)
def execRtcUnlock (a : Acc) (v : Word) (s : State) : Host.Outcome State Fault Refusal := .next (s.writeReg rtcHook a RTC_UNLOCK.addr v)
/-- A write of TIME, DATE or CFG of an alarm, in that order of `reg`. -/
def execRtcAlarmWrite (a : Acc) (n : Fin 2) (reg : Fin 3) (v : Word) (s : State) : Host.Outcome State Fault Refusal :=
  .next (s.writeReg rtcHook a (RTC_ALM_TIME.addr n.val + 4 * reg.val) v)

/-- The SET loads at an LFXO edge. -/
def execRtcSetLoad (s : State) : Host.Outcome State Fault Refusal :=
  match s.rtc.setTo with
  | none => .next s
  | some c =>
    let old := s.rtc.cal
    let s := s.setRtc fun r => { r with cal := c, sub := 0, skip := 0, secAt := s.now, setTo := none }
    let s := (s.fset RTC_STAT.BUSY 0).fset RTC_STAT.TIME_VALID 1
    let (s, p) := s.almLoad 0 old
    let (s, q) := s.almLoad 1 old
    .next (s.publishAll (p ++ q))

/-- 2^20 LFXO ticks have passed (R394): CAL ticks are added to the count, or will be skipped. -/
def execRtcCalCorrection (s : State) : Host.Outcome State Fault Refusal :=
  let c := s.fgetI RTC_CAL.CAL
  .next (if s.fbit RTC_CTRL.EN then s.setRtc fun r => if 0 ≤ c then { r with sub := r.sub + c.toNat } else { r with skip := r.skip + (-c).toNat }
    else s)

/-! ## Shadows (R395) -/

/-- The LFXO ticks since the second began: known at its boundary, else a free value, since no command counts ticks. -/
def State.subNow (s : State) : State × Nat :=
  if s.now = s.rtc.secAt then (s, min s.rtc.sub 32767) else (s.freeStep, s.free % 32768)

/-- A master's shadows, frozen now if they are not. -/
def State.shadowOf (s : State) (m : Nat) : State × Shadow :=
  match s.rtc.shadows.find? (fun x => x.master == m) with
  | some x => (s, x)
  | none =>
    let (s, sub) := s.subNow
    (s, ⟨m, s.rtc.cal, sub, [0, 1, 2]⟩)

/-- A read of RTC_TIME (0), RTC_DATE (1) or RTC_SUBSEC (2). -/
def State.shadowRead (s : State) (m reg : Nat) : State × Nat :=
  let (s, x) := s.shadowOf m
  let left := x.left.filter (· != reg)
  let others := s.rtc.shadows.filter fun y => y.master != m
  (s.setRtc fun r => { r with shadows := if left.isEmpty then others else { x with left := left } :: others },
    match reg with | 0 => timeWord x.cal | 1 => dateWord x.cal | _ => x.sub)

def execRtcShadowRead (m : Master) (reg : Fin 3) (s : State) : Host.Outcome State Fault Refusal :=
  .next (s.readAs m (RTC_TIME.addr + 4 * reg.val) fun s => s.shadowRead (masterCode m) reg.val)

def execShadowTimeout (m : Master) (s : State) : Host.Outcome State Fault Refusal :=
  .next (if s.rtc.shadows.any (fun x => x.master == masterCode m) then
    (s.setRtc fun r => { r with shadows := r.shadows.filter fun x => x.master != masterCode m }).fset RTC_STAT.SH_TIMEOUT 1 else s)

/-! ## Supply (R398 to R400) -/

/-- VDD has stayed at 1.8 V or above for 2 ms. -/
def execVddStable (s : State) : Host.Outcome State Fault Refusal :=
  .next (if s.pwr.st = .backup then s else s.fset RTC_STAT.VDD_STABLE 1)

/-- The lockout, from a fall of VDD below 1.8 V or a power-on of the main domain (R399). -/
def State.rtcLock (s : State) : State := (s.fset RTC_STAT.LOCKOUT 1).fset RTC_STAT.VDD_STABLE 0
def execRtcLockout (s : State) : Host.Outcome State Fault Refusal := .next s.rtcLock

/-- The backup switch under the levels of VDD and VBKUP in mV, at nominal thresholds (R398). -/
def execBackupSwitch (vdd vbkup : Nat) (s : State) : Host.Outcome State Fault Refusal :=
  let s := if vdd < 1800 then s.rtcLock else s
  .next (s.setRtc fun r => { r with onVdd :=
    if vbkup + 100 < vdd || vbkup < 1400 then true
    else if vdd < vbkup then false else r.onVdd })

/-- Registers in the backup domain: the RTC page and the crystal trim (R7, R392). -/
def rtcLoses (a : Nat) : Bool := pageOf a = Pg.RTC || a = CLK_LFXO.addr

/-- The backup supply rises above VRET after a loss (R400): the domain's registers return to reset, of which TIME_VALID is 0 and BK_LOST
and LOCKOUT are 1; the calendar restarts, and the interrupt is raised. -/
def execBackupRetentionLoss (s : State) : Host.Outcome State Fault Refusal :=
  let s := s.resetRegs rtcLoses
  let s := s.setRtc fun r => { r with cal := 0, sub := 0, skip := 0, secAt := s.now, setTo := none, last := [none, none], shadows := [] }
  .next (s.raise Pg.RTC 3)

end Sys2Proof.Machine
end

