-- ==== Sys2Proof/Machine/SelfTest.lean ====
section
/-!
DEFINITION. Self-tests (R457, R458): SRAM BIST, radio RAM BIST, logic BIST of the lockstep domain, and the sample capture (R335).
Readings of the manual made here: DEDUCED in log entry 116.
-/
namespace Sys2Proof.Machine
open Sys2Proof

def State.setTst (s : State) (f : TstState → TstState) : State := { s with tst := f s.tst }

/-- A request is refused: 1 NOT_TEST, 2 CAD_ON, 3 BUSY. -/
def State.tstRefuse (s : State) (cause : Nat) : State := (s.fset TST_STAT.REFUSED 1).fset TST_STAT.CAUSE cause

/-! ## SRAM BIST -/

def bistBit (addr n : Nat) : Fld := ⟨addr, n, 1⟩
/-- A bank is in use (R333): its USE bit or its retention bit is set. -/
def State.bankInUse (s : State) (n : Nat) : Bool := bitOf (s.raw SYS_SRAM_USE.addr) n || bitOf (s.raw PWR_SRAM_RET.addr) n

/-- A bank's contents are lost and it reads zeros (R332). -/
def State.bankZero (s : State) (n : Nat) : State :=
  let lo := 0x20000000 + n * 0x10000
  (s.clearRange lo (lo + 0x10000)).setMemst fun m => { m with
    ecc := m.ecc.filter (fun e => !(lo ≤ e.1 && e.1 < lo + 0x10000))
    written := m.written.filter (· != n) }

/-- Banks are requested: one in use is refused, the others wait in ascending order. -/
def State.bistRequest (s : State) (bits : Nat) : State :=
  if !s.fbit TST_CTRL.EN || s.tst.lbist || s.tst.rram then (s.fset TST_BIST_REQ.BANKS (maskOf s.tst.banks)).tstRefuse 3
  else
    let req := (onesOf 24 bits).filter fun n => !s.tst.banks.contains n
    let bad := req.filter s.bankInUse
    let good := req.filter fun n => !s.bankInUse n
    let s := bad.foldl (fun s n => (s.fset (bistBit TST_BIST_REF.addr n) 1).fset TST_STAT.REFUSED 1) s
    let s := s.setTst fun t =>
      match t.banks with
      | [] => { t with banks := good }
      | b :: l => { t with banks := b :: (List.range 24).filter fun n => l.contains n || good.contains n }
    s.fset TST_BIST_REQ.BANKS (maskOf s.tst.banks)

/-- The running bank's test ends; the next waiting bank that is not in use runs. -/
def State.bistNext (s : State) : State :=
  let rest := s.tst.banks.drop 1
  let bad := rest.takeWhile s.bankInUse
  let s := bad.foldl (fun s n => (s.fset (bistBit TST_BIST_REF.addr n) 1).fset TST_STAT.REFUSED 1) s
  let s := s.setTst fun t => { t with banks := rest.dropWhile s.bankInUse }
  s.fset TST_BIST_REQ.BANKS (maskOf s.tst.banks)

/-- The running bank is aborted (R458). -/
def State.bistAbort (s : State) : State :=
  match s.tst.banks with
  | [] => s
  | b :: _ => ((s.fset (bistBit TST_BIST_ABT.addr b) 1).bankZero b).bistNext

/-- The running bank is aborted and the waiting ones are withdrawn. -/
def State.bistStop (s : State) : State :=
  match s.tst.banks with
  | [] => s
  | b :: _ => (((s.fset (bistBit TST_BIST_ABT.addr b) 1).bankZero b).setTst fun t => { t with banks := [] }).fset TST_BIST_REQ.BANKS 0

def execBistBankDone (pass : Bool) (s : State) : Host.Outcome State Fault Refusal :=
  match s.tst.banks with
  | [] => .next s
  | b :: _ =>
    let s := s.fset (bistBit TST_BIST_PASS.addr b) (if pass then 1 else 0)
    let s := if pass then s else s.fset (bistBit TST_BIST_FAIL.addr b) 1
    let s := (s.bankZero b).bistNext
    .next (if s.tst.banks.isEmpty then s.raise Pg.TST 0 else s)

/-! ## Logic and radio RAM BIST -/

/-- Self-tests are requested by a write of TST_SELF. -/
def State.selfRequest (s : State) (lbist rram : Bool) : State :=
  if !lbist && !rram then s
  else if !s.fbit TST_CTRL.EN || s.tst.lbist || s.tst.rram || !s.tst.banks.isEmpty then s.tstRefuse 3
  else if s.sys.st != .test then s.tstRefuse 1
  else if s.fbit CAD_CTRL.EN then s.tstRefuse 2
  else
    let s := s.setTst fun t => { t with lbist := lbist, rram := rram }
    let s := if lbist then (s.fset TST_SELF.LBIST_DONE 0).fset TST_SELF.LBIST_PASS 0 else s
    if rram then (s.fset TST_SELF.RRAM_DONE 0).fset TST_SELF.RRAM_PASS 0 else s

/-- The state of the lockstep domain is reset: Cadence, the Headrace and the traffic scheduler with their pages. -/
def State.lockstepReset (s : State) : State :=
  let p := fun (a : Nat) => [Pg.CAD, Pg.NBR, Pg.HDR, Pg.TRF, Pg.WEIR, Pg.SLU, Pg.DCA].contains (pageOf a) && offOf a != 0x01C
  { s.resetRegs p with slot := none, cad := {}, hdr := {}, trf := {}, phase := {} }

/-- Radio RAM reads zeros. -/
def State.rramZero (s : State) : State :=
  (s.clearRange 0x30000000 0x30040000).setMemst fun m => { m with ecc := m.ecc.filter (fun e => e.1 < 0x30000000) }

/-- A self-test ends, the logic BIST first. -/
def execSelfTestDone (pass : Bool) (s : State) : Host.Outcome State Fault Refusal :=
  if s.tst.lbist then
    let s := (s.setTst fun t => { t with lbist := false }).lockstepReset
    .next (((s.fset TST_SELF.LBIST_DONE 1).fsetB TST_SELF.LBIST_PASS pass).raise Pg.TST 1)
  else if s.tst.rram then
    let s := (s.setTst fun t => { t with rram := false }).rramZero
    .next (((s.fset TST_SELF.RRAM_DONE 1).fsetB TST_SELF.RRAM_PASS pass).raise Pg.TST 1)
  else .next s

/-! ## Sample capture -/

/-- A capture is requested: pending, or not ready without a VCO_BAND table. -/
def State.capRequest (s : State) : State :=
  if !s.fbit TST_CTRL.EN then s.tstRefuse 3
  else if !bitOf (s.fget RFE_CAL_STAT.VALID) 0 then (s.fset TST_CAP_REQ.RESULT 2).fset TST_STAT.REFUSED 1
  else if s.fbit TST_CAP_REQ.PEND then s
  else
    let s := s.fset TST_CAP_REQ.PEND 1
    let s := s.workAge [9]
    s.workNext none

/-- Samples stand in the capture area as 18-bit values sign-extended to 32 bits (R335). -/
def State.capStore (s : State) (a : Nat) : List Word → State
  | [] => s
  | w :: l => (s.setWord a ((w.truncate 18).signExtend 32).toNat).capStore (a + 4) l

def execCaptureDone (samples : List Word) (s : State) : Host.Outcome State Fault Refusal :=
  if s.rfe.running != some 9 then .next s
  else
    let s := (s.workGone 9).setRfe fun r => { r with running := none }
    let s := s.setMemst fun m => { m with ecc := m.ecc.filter (fun e => e.1 < 0x30038000) }
    let s := s.capStore 0x30038000 (samples.take 8192)
    let s := ((s.fset TST_CAP_REQ.PEND 0).fset TST_CAP_REQ.RESULT 0).raise Pg.TST 2
    .next (s.workNext (some 9))

/-! ## Register writes -/

/-- A soft reset: registers first, but for the temperature, then running tests abort and leave what they test as at their end (R50, R458). -/
def State.tstReset (s : State) : State :=
  let s := (((s.srstPage Pg.TST).fset TST_TEMP.T (s.fget TST_TEMP.T)).bistStop)
  let s := if s.tst.lbist then s.lockstepReset else s
  let s := (if s.tst.rram then s.rramZero else s).setTst fun _ => {}
  if s.rfe.running = some 9 then s.setRfe fun r => { r with running := none } else s

/-- Effect of a write to the TST page. -/
def tstHook (w : WCtx) (s : State) : State :=
  if w.off = 0x004 then (if w.one TST_CTRL.SRST then s.tstReset else s)
  else if w.off = 0x040 then s.bistRequest w.ones
  else if w.off = 0x054 then
    ((s.fset TST_SELF.LBIST 0).fset TST_SELF.RRAM 0).selfRequest (w.one TST_SELF.LBIST) (w.one TST_SELF.RRAM)
  else if w.off = 0x05C then
    let s := s.fset TST_CAP_REQ.REQ 0
    if w.one TST_CAP_REQ.REQ then s.capRequest else s
  else s

def execTstBistReq (a : Acc) (v : Word) (s : State) : Host.Outcome State Fault Refusal :=
  .next (s.writeReg tstHook a TST_BIST_REQ.addr v)
def execLbist (a : Acc) (v : Word) (s : State) : Host.Outcome State Fault Refusal := .next (s.writeReg tstHook a TST_SELF.addr v)
def execRramBist (a : Acc) (v : Word) (s : State) : Host.Outcome State Fault Refusal := .next (s.writeReg tstHook a TST_SELF.addr v)
def execTstCapReq (a : Acc) (v : Word) (s : State) : Host.Outcome State Fault Refusal :=
  .next (s.writeReg tstHook a TST_CAP_REQ.addr v)

end Sys2Proof.Machine
end

