-- ==== Sys2Proof/Machine/Update.lean ====
section
/-!
DEFINITION. The field update engine (R369 to R380): slot records, packages, the run from START to DONE with its gates, pause and
stop, activation with the settings merge, and ACCEPT.
Readings of the manual made here: DEDUCED in log entry 115.
-/
namespace Sys2Proof.Machine
open Sys2Proof

def State.setUpd (s : State) (f : UpdState → UpdState) : State := { s with upd := f s.upd }

/-! ## Slot records (R369) -/

/-- A correct slot record: where it stands, its SEQ, its word 2 and NEW_HASH. -/
structure SlotRec where
  at' : Nat
  seq : Nat
  w2 : Nat
  hash : List Byte
  deriving DecidableEq, Repr

/-- Page addresses of BOOT blocks 2 and 3. -/
def recPages (b : Nat) : List Nat := (List.range 32).map fun k => b * 0x20000 + k * 0x800

/-- The record of a page, if its MAGIC and CRC are correct. -/
def State.recAt (s : State) (a : Nat) : Option SlotRec :=
  if s.wordAt a = 0x534C4F54 && !s.flash.indet.contains (a / 2048) && (s.flashStop a 48).isNone && crc32 (s.listAt a 44) = s.wordAt (a + 44) then
    some { at' := a, seq := s.wordAt (a + 4), w2 := s.wordAt (a + 8), hash := s.listAt (a + 12) 32 }
  else none

/-- The governing record: the highest SEQ. -/
def State.govern (s : State) : Option SlotRec :=
  ((recPages 2 ++ recPages 3).filterMap s.recAt).foldl (fun (b : Option SlotRec) r =>
    match b with | some x => if x.seq < r.seq then some r else b | none => some r) none

/-- Word 2 of the governing record, 0 without one. -/
def State.slotWord (s : State) : Nat := (s.govern.map (·.w2)).getD 0
def State.slotHash (s : State) : List Byte := (s.govern.map (·.hash)).getD (List.replicate 32 0#8)

/-- Fields of word 2: ACTIVE, the state of a slot, CFG, CKPT. -/
def recActive (w : Nat) : Nat := w % 2
def recState (w slot : Nat) : Nat := w / 2 ^ (1 + 3 * slot) % 8
def recCfg (w : Nat) : Nat := w / 2 ^ 7 % 4
def recCkpt (w : Nat) : Nat := w / 2 ^ 9 % 32
/-- A field of word 2 replaced. -/
def recPut (w lo n x : Nat) : Nat := w - w / 2 ^ lo % 2 ^ n * 2 ^ lo + x % 2 ^ n * 2 ^ lo
def recSetState (w slot st : Nat) : Nat := recPut w (1 + 3 * slot) 3 st

/-- The controller's record of an operation that has completed (R348). -/
def State.opMark (s : State) (cmd a : Nat) : State :=
  s.rsetN FLC_OPMARK.addr (cmd + blockOf a * 8 + (if cmd = 1 then pageNo a else 0) * 512 + 32768 + 65536)

/-- Bytes are programmed, with the caches' lines of their pages dropped (R316). -/
def State.progList (s : State) (a : Nat) (l : List Byte) : State :=
  (((s.flashFresh (a / 2048 * 2048) (a + l.length)).setList a l).cacheDrop (a / 2048 * 2048) ((a + l.length + 2047) / 2048 * 2048)).opMark 1 (a + l.length - 1)

/-- Where the next record goes: the next erased page of the governing record's block, or none and the other block, erased. -/
def State.recNext (s : State) : Nat × Option Nat :=
  let b := (s.govern.map fun r => blockOf r.at').getD 2
  match (recPages b).find? s.pageErased with
  | some a => (b, some a)
  | none => (5 - b, none)
/-- The block that takes the next record is write-protected (R345): the record cannot be written. -/
def State.recWp (s : State) : Bool := s.blockWp s.recNext.1

/-- A new record, unless its block is protected. -/
def State.writeRecord (s : State) (w2 : Nat) (hash : List Byte) : State :=
  let g := s.govern
  let b := s.recNext.1
  let seq := (g.map fun r => r.seq + 1).getD 1
  let body := leBytesN 4 0x534C4F54 ++ leBytesN 4 seq ++ leBytesN 4 w2 ++ hash
  let l := body ++ leBytesN 4 (crc32 body)
  if s.recWp then s
  else
    let s := match s.recNext.2 with
      | some a => s.progList a l
      | none => ((s.eraseBlock b).cacheDrop (b * 0x20000) ((b + 1) * 0x20000)).progList (b * 0x20000) l
    s.rsetN UPD_SLOT.addr w2

/-- First block and first address of a slot. -/
def slotBlock (slot : Nat) : Nat := if slot = 0 then 6 else 30
def slotBase (slot : Nat) : Nat := slotBlock slot * 0x20000
/-- The target of an update: the slot that is not active. -/
def State.updTarget (s : State) : Nat := 1 - recActive s.slotWord

/-! ## Packages (R370) -/

/-- A package's header. -/
structure Pkg where
  at' : Nat
  newLen : Nat
  oldLen : Nat
  setVer : Nat
  nseg : Nat
  defOfs : Nat
  deriving DecidableEq, Repr

def State.updPkg (s : State) : Pkg :=
  let a := s.raw UPD_PKG.addr
  { at' := a, newLen := s.wordAt (a + 8), oldLen := s.wordAt (a + 12), setVer := s.halfAt (a + 16), nseg := s.halfAt (a + 18)
    defOfs := s.wordAt (a + 20) }

/-- End of the memory that holds the package; 0 where there is none. -/
def Pkg.limit (p : Pkg) : Nat := match regionOf p.at' with | .flash => 0x00800000 | .sram => 0x20180000 | _ => 0

/-- Addresses of the segments, as their lengths lead through the package, and the address after the last. -/
def State.segWalk (s : State) (lim : Nat) : Nat → Nat → List Nat
  | 0, a => [a]
  | n + 1, a => if lim < a + 36 then [] else a :: s.segWalk lim n (a + 36 + s.wordAt a)
def State.segAddrs (s : State) (p : Pkg) : List Nat := s.segWalk p.limit (min 24 p.nseg) (p.at' + 128)
/-- Address of the tag. -/
def State.pkgTag (s : State) (p : Pkg) : Nat := (((s.segAddrs p)[min 24 p.nseg]?).getD p.limit)

/-- Bytes segment `k` produces. -/
def Pkg.segLen (p : Pkg) (k : Nat) : Nat := min 131072 (p.newLen - k * 131072)

/-- The header keeps its rules. -/
def State.pkgHeader (s : State) (p : Pkg) : Bool :=
  p.limit != 0 && p.at' + 128 ≤ p.limit && s.wordAt p.at' = 0x444C5441 && s.halfAt (p.at' + 4) = 1 && s.halfAt (p.at' + 6) = 0x7716
    && 1 ≤ p.newLen && p.newLen ≤ 3145728 && p.oldLen ≤ 3145728 && p.nseg = ceilDiv p.newLen 131072
    && (s.listAt (p.at' + 0x18) 8).all (· == 0#8) && (s.listAt (p.at' + 0x60) 32).all (· == 0#8)

/-- The output of a segment's operations, or none where they are malformed. -/
def runOps (old : Nat → Byte) (oldLen : Nat) : Nat → List Byte → List Byte → Option (List Byte)
  | _, [], out => some out
  | 0, _ :: _, _ => none
  | n + 1, op :: l, out =>
    let len := leNatB (l.take 4)
    let src := leNatB ((l.drop 4).take 4)
    if l.length < 4 then none
    else match op.toNat with
      | 1 =>
        if l.length < 8 || oldLen < src + len then none
        else runOps old oldLen n (l.drop 8) (out ++ (List.range len).map fun i => old (src + i))
      | 2 =>
        if l.length < 8 + len || oldLen < src + len then none
        else
          let d := (l.drop 8).take len
          runOps old oldLen n (l.drop (8 + len)) (out ++ (List.range len).map fun i => old (src + i) + byteOf d i)
      | 3 => if l.length < 4 + len then none else runOps old oldLen n (l.drop (4 + len)) (out ++ (l.drop 4).take len)
      | _ => none

/-- A byte of the old image: of the active slot. -/
def State.oldByte (s : State) (i : Nat) : Byte := s.byteAt (slotBase (recActive s.slotWord) + i)

/-- Output of segment `k`. -/
def State.segOutput (s : State) (p : Pkg) (k : Nat) : Option (List Byte) :=
  let a := ((s.segAddrs p)[k]?).getD 0
  let ops := s.listAt (a + 36) (s.wordAt a)
  match runOps s.oldByte p.oldLen ops.length ops [] with
  | some out => if out.length = p.segLen k then some out else none
  | none => none

/-- Digest of the bytes of segment `k`. -/
def State.segDigest (s : State) (p : Pkg) (k : Nat) : List Byte :=
  let a := ((s.segAddrs p)[k]?).getD 0
  sha256 (s.listAt a (36 + s.wordAt a))

/-- The package keeps its form (cause FORMAT). -/
def State.pkgFormat (s : State) (p : Pkg) : Bool :=
  s.pkgHeader p && (s.segAddrs p).length = p.nseg + 1 && s.pkgTag p + 16 ≤ p.limit
    && (List.range p.nseg).all fun k => (s.segOutput p k).isSome

/-- Ranges of the old image that a segment's operations read. -/
def opSources : Nat → List Byte → List (Nat × Nat)
  | n + 1, op :: l =>
    let len := leNatB (l.take 4)
    let src := leNatB ((l.drop 4).take 4)
    match op.toNat with
    | 1 => (src, len) :: opSources n (l.drop 8)
    | 2 => (src, len) :: opSources n (l.drop (8 + len))
    | 3 => opSources n (l.drop (4 + len))
    | _ => []
  | _, _ => []

/-- The engine reads segment `k` of the package, then what of the old image its operations name. -/
def State.segRead (s : State) (p : Pkg) (k : Nat) : State × Bool :=
  let a := ((s.segAddrs p)[k]?).getD 0
  let r := s.rangeRead a (36 + s.wordAt a)
  if !r.2 then r
  else
    let ops := r.1.listAt (a + 36) (r.1.wordAt a)
    let old := slotBase (recActive s.slotWord)
    ((opSources ops.length ops).filter fun x => x.1 + x.2 ≤ p.oldLen).foldl (fun r x =>
      if r.2 then r.1.rangeRead (old + x.1) x.2 else r) r

/-! ## Gates (R371, R373) -/

/-- A command is refused. -/
def State.updRefuse (s : State) (cause : Nat) : State :=
  ((s.fset UPD_STAT.REFUSED 1).rsetN UPD_ERRINFO.addr cause).raise Pg.UPD 3

/-- The engine's state allows a command: 1 START, 2 RESUME, 3 ACTIVATE. -/
def State.updStateOk (s : State) (cmd : Nat) : Bool :=
  let st := s.fget UPD_STAT.STATE
  let tgt := recState s.slotWord s.updTarget
  s.upd.test.isNone && !s.upd.stop && tgt != 3 && (match cmd with
    | 1 => st = 0 || st = 6 || st = 7
    | 2 => (st = 0 || st = 5 || st = 6 || st = 7) && tgt = 1
    | _ => st = 6 && tgt = 2)

/-- The MOTION gate fails. -/
def State.motionGate (s : State) : Bool := s.fbit UPD_GATE.MOT_EN && s.motion

/-- Checks before the load test: the cause of the first that fails, or 0. -/
def State.updGates (s : State) (cmd : Nat) : Nat :=
  if !s.fbit UPD_CTRL.EN then 14 else if !s.updStateOk cmd then 12 else if s.fbit PROT_CTRL.OLOCK then 3
  else if s.motionGate then 1 else 0

/-- The update key can be used. -/
def State.updKeyOk (s : State) : Bool :=
  let k := s.keySlot (s.fget UPD_CFG.KEY)
  k.valid && k.size && k.upd && !k.exhausted

/-- Cause 13 does not apply. -/
def State.updSlotOk (s : State) : Bool :=
  let cfg := s.fget UPD_CFG.CFGBLK
  let j := s.fget UPD_CFG.JBLK
  let t := slotBlock s.updTarget
  let p := s.updPkg
  let hits := fun (b n : Nat) => p.at' < (b + n) * 0x20000 && b * 0x20000 < s.pkgTag p + 16
  let inSlots := fun (b : Nat) => 6 ≤ b && b ≤ 53
  (List.range 24).all (fun k => !s.blockWp (t + k)) && !s.blockWp cfg && !s.blockWp j && !inSlots cfg && !inSlots j && cfg != j
    && s.blockSlc j && !hits t 24 && !hits cfg 1 && !hits j 1

/-- A command passes its first checks and the load test begins, or it is refused. -/
def State.updBegin (s : State) (cmd : Nat) : State :=
  let c := s.updGates cmd
  if c != 0 then s.updRefuse c else s.setUpd fun u => { u with test := some cmd }

/-! ## Failure, pause and stop (R373, R375, R380) -/

def State.updState (s : State) (st : Nat) : State := s.fset UPD_STAT.STATE st

/-- An erase that the engine has started in the controller ends with it. -/
def State.updRelease (s : State) : State :=
  let mine := fun (o : Option FlashOp) => o.any (·.eng)
  s.setFlash fun f =>
    { f with op := if mine f.op then none else f.op, susp := if mine f.susp then none else f.susp
             suspReq := f.suspReq && !mine f.op }

/-- A soft reset of the page; the governing record is shown again. -/
def State.updReset (s : State) : State :=
  let w := s.slotWord
  ((s.setUpd fun _ => {}).srstPage Pg.UPD).rsetN UPD_SLOT.addr w

/-- The engine fails: FAILED, FAIL, and a record that marks the target INVALID. A soft reset that stopped it resets the page first (R50). -/
def State.updFail (s : State) (cause : Nat) : State :=
  let srst := s.upd.srst
  let s := s.updRelease
  let s := s.writeRecord (recSetState s.slotWord s.updTarget 5) s.slotHash
  let info := cause + s.fget UPD_STAT.SEG * 16
  let s := if srst then s.updReset else s
  ((((s.rsetN UPD_ERRINFO.addr info).updState 7).setUpd fun _ => {}).raise Pg.UPD 1)

/-- The engine pauses. -/
def State.updPaused (s : State) (cause : Nat) : State :=
  let s := (s.rsetN UPD_ERRINFO.addr (cause + s.fget UPD_STAT.SEG * 16)).updState 5
  (s.setUpd fun _ => {}).raise Pg.UPD 2

/-- Why the watched gates stop the run now, 0 if they do not; VDD is reported by UPD_PAUSE. -/
def State.updWatch (s : State) : Option Nat :=
  if s.upd.pause.isSome then s.upd.pause else if s.fbit PROT_CTRL.OLOCK then some 3 else if s.motionGate then some 1 else none

/-- A segment is begun: its block is erased in the controller. -/
def State.segStart (s : State) (k : Nat) : State :=
  let s := s.fset UPD_STAT.SEG k
  s.flashStart { cmd := 2, addr := slotBase s.updTarget + k * 131072, data := [], eng := true }

/-- A block boundary: stop, pause, the next segment, or the image hash. -/
def State.updBoundary (s : State) (k nseg : Nat) : State :=
  if s.upd.stop then s.updFail 14
  else match s.updWatch with
    | some c => s.updPaused c
    | none => if k < nseg then (s.updState 2).segStart k else s.updState 3

/-- The engine is to stop (R380): now, at the next boundary while a block or an activation step is in progress, or when an operation in the
flash controller has completed. -/
def State.updStop (s : State) : State :=
  let st := s.fget UPD_STAT.STATE
  let s := s.setUpd fun u => { u with test := none }
  if st = 2 || st = 4 || ((st = 1 || st = 3 || st = 5) && s.flash.op.isSome) then s.setUpd fun u => { u with stop := true }
  else if st = 1 || st = 3 || st = 5 then s.updFail 14
  else if s.upd.srst then s.updReset else s

/-! ## The run (R372 to R375, R377) -/

/-- The load test has been made: the remaining checks, then the run or the activation begins. -/
def execLoadTestDone (mv : BitVec 12) (s : State) : Host.Outcome State Fault Refusal :=
  match s.upd.test with
  | none => .next s
  | some cmd =>
    let s := (s.setUpd fun u => { u with test := none }).fset UPD_VLAST.MV mv.toNat
    if mv.toNat < s.fget UPD_GATE.VMIN then .next (s.updRefuse 2)
    else if cmd != 3 && !s.updKeyOk then .next (s.updRefuse 4)
    else if !s.updSlotOk then .next (s.updRefuse 13)
    else if cmd = 3 then .next (s.updState 4)
    else
      let s := ((s.updState 1).rsetN UPD_PROG.addr 0).fset UPD_STAT.SEG 0
      .next (s.setUpd fun _ => { run := some { resume := cmd = 2, key := (s.keySlot (s.fget UPD_CFG.KEY)).key } })

/-- The first pass over a package that has been read: tag, base and, for a RESUME, the recorded hash; the segments' digests are kept. Then the
WRITING record and the first block. -/
def State.updSecond (s : State) (r : UpdRun) (p : Pkg) : State :=
  let hash := s.listAt (p.at' + 0x40) 32
  let base := slotBase (recActive s.slotWord)
  if !s.pkgFormat p then s.updFail 5
  else if cmac r.key (s.listAt p.at' (s.pkgTag p - p.at')) != s.listAt (s.pkgTag p) 16 then s.updFail 6
  else
    let q := s.rangeRead base p.oldLen
    let s := q.1
    if p.oldLen != 0 && !q.2 then s.updFail 11
    else if sha256 (s.listAt base p.oldLen) != s.listAt (p.at' + 0x20) 32 then s.updFail 7
    else if r.resume && s.slotHash != hash then ((s.setUpd fun _ => {}).updState 0).updRefuse 12
    else if s.recWp then s.updFail 11
    else
      let ck := if r.resume then recCkpt s.slotWord else 0
      let s := s.setUpd fun u => { u with run := some { r with digests := (List.range p.nseg).map (s.segDigest p), newHash := hash } }
      let s := s.writeRecord (recPut (recSetState s.slotWord s.updTarget 1) 9 5 ck) hash
      s.updBoundary ck p.nseg

/-- The first pass: the package is read from its header to its tag, as far as the memory reaches. -/
def State.updFirst (s : State) (r : UpdRun) : State :=
  let p := s.updPkg
  if p.limit = 0 || p.limit < p.at' + 128 then s.updFail 5
  else
    let q := s.rangeRead p.at' (min p.limit (s.pkgTag p + 16) - p.at')
    if q.2 then q.1.updSecond r q.1.updPkg else q.1.updFail 11

/-- The flash controller is free for the engine: one operation at a time, and no erase suspended (R339, R343). -/
def State.updFree (s : State) : Bool := s.flash.op.isNone && s.flash.susp.isNone

def execFirstPassDone (s : State) : Host.Outcome State Fault Refusal :=
  match s.upd.run with
  | some r => .next (if s.fget UPD_STAT.STATE = 1 && s.updFree then s.updFirst r else s)
  | none => .next s

/-- A block has been erased, programmed and read back, and its record is written. -/
def State.updSegment (s : State) (r : UpdRun) (flashOk : Bool) : State :=
  let k := s.fget UPD_STAT.SEG
  let p := s.updPkg
  let a := ((s.segAddrs p)[k]?).getD 0
  let b := slotBlock s.updTarget + k
  let q := s.updRelease.segRead p k
  let s := q.1
  if !q.2 || s.blockWp b then s.updFail 11
  else if some (s.segDigest p k) != r.digests[k]? then s.updFail 8
  else match s.segOutput p k with
    | none => s.updFail 8
    | some out =>
      let s := (s.eraseBlock b).cacheDrop (b * 0x20000) ((b + 1) * 0x20000)
      if !flashOk || s.blockSlc b then (s.flashSpoil (blockPages b)).updFail 11
      else
        let s := s.progList (b * 0x20000) out
        if sha256 out != s.listAt (a + 4) 32 then s.updFail 9
        else
          let s := s.fadd UPD_PROG.BYTES out.length
          if s.recWp then s.updFail 11 else (s.writeRecord (recPut s.slotWord 9 5 (k + 1)) s.slotHash).updBoundary (k + 1) p.nseg

/-- The engine waits while its erase is suspended (R379). -/
def execSegmentDone (flashOk : Bool) (s : State) : Host.Outcome State Fault Refusal :=
  match s.upd.run with
  | some r => .next (if s.fget UPD_STAT.STATE = 2 && s.flash.susp.isNone then s.updSegment r flashOk else s)
  | none => .next s

/-- The whole image has been hashed. -/
def State.updImage (s : State) (r : UpdRun) (flashOk : Bool) : State :=
  let p := s.updPkg
  let q := s.rangeRead (slotBase s.updTarget) p.newLen
  let s := q.1
  if !flashOk || !q.2 || s.recWp then s.updFail 11
  else if sha256 (s.listAt (slotBase s.updTarget) p.newLen) != r.newHash then s.updFail 10
  else
    let s := (s.writeRecord (recSetState s.slotWord s.updTarget 2) s.slotHash).updState 6
    ((s.setUpd fun _ => {}).raise Pg.UPD 0).event Pg.UPD 0 63

def execImageHashDone (flashOk : Bool) (s : State) : Host.Outcome State Fault Refusal :=
  match s.upd.run with
  | some r => .next (if s.fget UPD_STAT.STATE = 3 && s.flash.op.isNone then s.updImage r flashOk else s)
  | none => .next s

/-- A watched gate fails (R373): 1 MOTION, 2 VBAT, 3 OLOCK. -/
def execUpdPause (cause : Fin 4) (s : State) : Host.Outcome State Fault Refusal :=
  let c := cause.val
  let st := s.fget UPD_STAT.STATE
  if c = 0 || (c = 1 && !s.motionGate) || (c = 3 && !s.fbit PROT_CTRL.OLOCK) then .next s
  else if st = 3 then .next (s.updPaused c)
  else if st = 1 || st = 2 then .next (s.setUpd fun u => { u with pause := some (u.pause.getD c) })
  else .next s

/-! ## Activation (R378) -/

/-- Sections of a configuration image whose MAGIC is correct. -/
def State.configSections (s : State) (img : Nat) : List Section := (s.sections img 64 img).filter fun x => x.magic = 0x434F5050

/-- Two sections have the same KIND and MODE. -/
def Section.sameKind (x y : Section) : Bool := x.overlay = y.overlay && (!x.overlay || x.mode = y.mode)

/-- The sections of the merged image, in order. -/
def State.mergeSections (s : State) (journal defaults setVer : Nat) : List Section :=
  let old := s.configSections journal
  let new := s.configSections defaults
  (old.filterMap fun x => if setVer ≤ x.setVer then some x else new.find? (Section.sameKind x))
    ++ new.filter fun y => !old.any (Section.sameKind y)

/-- A placed section: NEXT and CRC are rewritten. -/
def State.placeSection (s : State) (x : Section) (last : Bool) : List Byte :=
  let head := s.listAt x.at' 20 ++ leBytesN 4 (if last then 0 else x.size)
  let tail := s.listAt (x.at' + 28) (x.size - 28)
  head ++ leBytesN 4 (crc32 (head ++ [0#8, 0#8, 0#8, 0#8] ++ tail)) ++ tail

def State.mergedImage (s : State) : List Section → List Byte
  | [] => []
  | [x] => s.placeSection x true
  | x :: l => s.placeSection x false ++ s.mergedImage l

/-- Whether ACTIVATE merges settings (step 1). -/
def State.updMerges (s : State) : Bool := s.fbit UPD_CFG.MERGE && s.updPkg.defOfs != 0xFFFFFFFF

/-- Step 2: the journal takes the configuration image, and a record with CFG 1. -/
def State.updJournal (s : State) : State :=
  let src := s.fget UPD_CFG.CFGBLK * 0x20000
  let dst := s.fget UPD_CFG.JBLK * 0x20000
  let cells := s.mem.filter fun c => src ≤ c.1 && c.1 < src + 0x10000
  let s := (s.eraseBlock (s.fget UPD_CFG.JBLK)).cacheDrop dst (dst + 0x20000)
  let s := cells.foldl (fun (s : State) c => s.setByte (dst + (c.1 - src)) c.2) s
  s.writeRecord (recPut s.slotWord 7 2 1) s.slotHash

/-- Steps 3 and 4: the CONFIG block takes the merged image, and a record with CFG 2. -/
def State.updMerge (s : State) : State :=
  let dst := s.fget UPD_CFG.CFGBLK * 0x20000
  let p := s.updPkg
  let l := s.mergedImage (s.mergeSections (s.fget UPD_CFG.JBLK * 0x20000) (slotBase s.updTarget + p.defOfs) p.setVer)
  let s := ((s.eraseBlock (s.fget UPD_CFG.CFGBLK)).cacheDrop dst (dst + 0x20000)).progList dst l
  s.writeRecord (recPut s.slotWord 7 2 2) s.slotHash

/-- Step 5: the target is PENDING. -/
def State.updTrial (s : State) : State := s.writeRecord (recSetState s.slotWord s.updTarget 3) s.slotHash

/-- Steps 2 to 4 as far as they are made. -/
def State.updSettings (s : State) (merge : Bool) : State :=
  let s := if recCfg s.slotWord = 1 then s else s.updJournal
  if merge then s.updMerge else s

/-- What ACTIVATE is to read and write without error: the configuration image, unless the journal holds it, the default sections, and the
blocks it writes, none of them protected. -/
def State.updActReady (s : State) : State × Bool :=
  if !s.updMerges then (s, !s.recWp)
  else
    let p := s.updPkg
    let j := recCfg s.slotWord = 1
    let src := (if j then s.fget UPD_CFG.JBLK else s.fget UPD_CFG.CFGBLK) * 0x20000
    let q := s.rangeRead src 0x10000
    let q := if q.2 then q.1.rangeRead (slotBase q.1.updTarget + p.defOfs) (min 0x10000 (p.newLen - p.defOfs)) else q
    (q.1, q.2 && !s.recWp && !s.blockWp (s.fget UPD_CFG.CFGBLK) && (j || !s.blockWp (s.fget UPD_CFG.JBLK)))

/-- ACTIVATE ends: its steps, or after a stop those as far as the one in progress, a free choice. -/
def execActivateDone (flashOk : Bool) (s : State) : Host.Outcome State Fault Refusal :=
  if s.fget UPD_STAT.STATE != 4 || !s.updFree then .next s
  else
    let q := s.updActReady
    let s := q.1
    if !flashOk || !q.2 then .next (s.updFail 11)
    else if s.upd.stop then
      let all := s.free % 2 = 1
      let s := s.freeStep
      .next ((if s.updMerges then s.updSettings all else s).updFail 14)
    else
      let s := (if s.updMerges then s.updSettings true else s).updTrial
      .next (((s.updState 6).raise Pg.UPD 0).event Pg.UPD 0 63)

/-- ACCEPT: the PENDING slot is CONFIRMED, the other VALID, CFG 0. It waits for an operation in the flash controller, and for a suspended
erase where the record needs an erase. -/
def State.updAccept (s : State) : State :=
  let w := s.slotWord
  if !s.fbit UPD_CTRL.EN then s.updRefuse 14
  else if s.updBusy || s.upd.test.isSome then s.updRefuse 12
  else if recState w 0 != 3 && recState w 1 != 3 then s.updRefuse 12
  else if s.recWp then s.updRefuse 11
  else if s.flash.op.isSome || (s.flash.susp.isSome && s.recNext.2.isNone) then s.setUpd fun u => { u with accept := true }
  else
    let k := if recState w 0 = 3 then 0 else 1
    s.writeRecord (recPut (recSetState (recSetState w k 4) (1 - k) 2) 7 2 0) s.slotHash

/-- The operation in the flash controller has ended: an engine that waits for it stops or accepts. -/
def State.updSettle (s : State) : State :=
  let st := s.fget UPD_STAT.STATE
  if s.flash.op.isSome then s
  else if s.upd.stop && (st = 1 || st = 3 || st = 5) then s.updFail 14
  else if s.upd.accept then (s.setUpd fun u => { u with accept := false }).updAccept
  else s

/-- Power is lost or a brown-out reset occurs while the engine works: what was being written is indeterminate, and an activation
has come as far as a free choice says (R347, R377, R378). -/
def State.updCut (s : State) : State :=
  match s.fget UPD_STAT.STATE with
  | 2 => s.flashSpoil (blockPages (slotBlock s.updTarget + s.fget UPD_STAT.SEG))
  | 4 =>
    if !s.updMerges then s
    else
      let k := s.free % 3
      let s := s.freeStep
      if k = 0 && recCfg s.slotWord != 1 then s.flashSpoil (blockPages (s.fget UPD_CFG.JBLK))
      else if k ≤ 1 then (s.updSettings false).flashSpoil (blockPages (s.fget UPD_CFG.CFGBLK))
      else s.updSettings true
  | _ => s

/-! ## Register writes and commands -/

/-- Effect of a write to the UPD page. -/
def updHook (w : WCtx) (s : State) : State :=
  if w.off = 0x004 then
    if w.one UPD_CTRL.SRST then ((s.fset UPD_CTRL.SRST 0).setUpd fun u => { u with srst := true }).updStop
    else if w.clears UPD_CTRL.EN then s.updStop else s
  else if w.off = 0x050 then
    match fieldGet w.wo UPD_CMD.CMD with
    | 1 => s.updBegin 1
    | 2 => s.updBegin 2
    | 3 => s.updBegin 3
    | 4 => s.updAccept
    | 5 => s.updStop
    | _ => s
  else s

/-- A command written to UPD_CMD. -/
def State.updCmd (s : State) (m : Master) (c : Word) : Host.Outcome State Fault Refusal :=
  .next (s.writeReg updHook ⟨m, .base⟩ UPD_CMD.addr c)
def execUpdStart (m : Master) (s : State) : Host.Outcome State Fault Refusal := s.updCmd m 1#32
def execUpdResume (m : Master) (s : State) : Host.Outcome State Fault Refusal := s.updCmd m 2#32
def execActivate (m : Master) (s : State) : Host.Outcome State Fault Refusal := s.updCmd m 3#32
def execAccept (m : Master) (s : State) : Host.Outcome State Fault Refusal := s.updCmd m 4#32
def execUpdAbort (m : Master) (s : State) : Host.Outcome State Fault Refusal := s.updCmd m 5#32
def execUpdDisable (a : Acc) (v : Word) (s : State) : Host.Outcome State Fault Refusal :=
  .next (s.writeReg updHook a UPD_CTRL.addr v)

end Sys2Proof.Machine
end

