-- ==== Sys2Proof/Machine/Power.lean ====
section
/-!
DEFINITION. The power manager (R401 to R412): entry into a state and its checks, the loss of what a state does not keep, wake
sources; the voltage loop and the clock steps (R413 to R415); oscillators and their trims (R416); brown-out warning (R417).
Readings of the manual made here: DEDUCED in log entries 22, 29, 31, 32, 33, 34.
-/
namespace Sys2Proof.Machine
open Sys2Proof

def State.setPwr (s : State) (f : PwrS → PwrS) : State := { s with pwr := f s.pwr }
def State.setSys (s : State) (f : SysS → SysS) : State := { s with sys := f s.sys }

/-! ## Entry (R403 to R406) -/

/-- PWR_SLEEP.TARGET; 0, 6 and 7 act as 1. -/
def State.pwrTarget (s : State) : PwrState :=
  match s.fget PWR_SLEEP.TARGET with | 2 => .nap | 3 => .slumber | 4 => .hibernate | 5 => .off | _ => .doze
/-- A state's code in PWR_STAT and PWR_WAKE_SRC. -/
def pwrCode : PwrState → Nat
  | .run => 0 | .doze => 1 | .nap => 2 | .slumber => 3 | .hibernate => 4 | .off => 5 | .backup => 0
/-- SLUMBER and deeper. -/
def PwrState.deep (p : PwrState) : Bool := 3 ≤ pwrCode p

/-- A power state is permitted in a system state (R24). -/
def permitted : SysState → PwrState → Bool
  | _, .run => true
  | .start, _ => false
  | .run, _ => true
  | .test, p => p = .doze
  | .recovery, p => p = .doze || p = .off

/-- The wake sources, as bits of PWR_WAKE_EN, that act in a state (R409). -/
def actsIn : PwrState → Nat
  | .doze => 0x2F
  | .nap => 0x3F
  | .slumber => 0x3F
  | .hibernate => 0x3B
  | .off => 0x0A
  | _ => 0

/-- A DMA channel is active: enabled with beats to move (R350). -/
def State.dmaActive (s : State) (ch : Nat) : Bool :=
  s.fbit (DMA_CFGn.EN ch) && (s.fbit (DMA_CFGn.FREE ch) || ((s.dma[ch]?).getD {}).burst != 0)

/-- The address in PWR_RESUME stays readable in a state (R406). -/
def State.resumeOk (s : State) (p : PwrState) : Bool :=
  let a := s.raw PWR_RESUME.addr
  match regionOf a with
  | .flash | .rom => true
  | .sram => p = .slumber && bitOf (s.raw PWR_SRAM_RET.addr) (bankOf a)
  | _ => false

/-- Why entry into a state is refused at EP1, 0 if it is not (R406). -/
def State.entryCause (s : State) (p : PwrState) : Nat :=
  if !permitted s.sys.st p then 1
  else if p.deep && (s.flash.op.isSome || s.flash.susp.isSome) then 2
  else if p.deep && s.updBusy then 3
  else if p.deep && (List.range 8).any s.dmaActive then 4
  else if (p = .hibernate || p = .off) && s.fbit CAD_CTRL.EN then 5
  else if (p = .slumber || p = .hibernate) && !s.resumeOk p then 6
  else if p.deep && (s.raw PWR_WAKE_EN.addr &&& actsIn p) = 0 then 7 else 0

/-- A refused entry is recorded. -/
def State.entryRefuse (s : State) (cause : Nat) : State :=
  (((s.fset PWR_STAT.REFUSED 1).fset PWR_STAT.CAUSE cause).finc PWR_CNT.REFUSALS).raise Pg.PWR 0

/-- The bank-A pins driven now and those driven high, as HIBERNATE and OFF hold them (R418). -/
def State.bankA (s : State) : Nat × Nat :=
  (maskOf ((List.range 18).filter fun p => (s.pinDriven false p).isSome), maskOf ((List.range 18).filter fun p => s.pinDriven false p = some true))

/-- The entry proper: EP2 stops a BIST (R458); the state is in force at once, and what it does not keep is lost when it is left
(`loseContents`). A bank-A level is held from EP6 of HIBERNATE or OFF. -/
def State.enterState (s : State) (p : PwrState) : State :=
  let s := s.bistStop
  let from' : PwrState := if s.pwr.exc then .doze else s.pwr.st
  let held := if p = .hibernate || p = .off then some s.bankA else none
  s.withPins fun s => s.setPwr fun w =>
    { w with st := p, exc := false, home := .run, leaving := some from', enterAt := s.frcN, heldA := held }

/-- Pending wake events that act in a state. -/
def State.wakeNow (s : State) (p : PwrState) : Nat := s.pwr.wakePend &&& actsIn p &&& s.raw PWR_WAKE_EN.addr
/-- An interrupt is a wake source of DOZE and NAP. -/
def State.irqActs (s : State) (p : PwrState) : Bool := (p = .doze || p = .nap) && s.irqWakes

/-- WAIT requests the target state (R313, R403): it completes at once while a wake source is pending, or when entry is refused. Answers
whether Tanum-A stops. -/
def State.waitRequest (s : State) : State × Bool :=
  let p := s.pwrTarget
  if s.irqActs p then (s, false)
  else if s.wakeNow p != 0 then (s.setPwr fun w => { w with wakePend := w.wakePend - s.wakeNow p }, false)
  else match s.entryCause p with
    | 0 => (s.enterState p, true)
    | c => (s.entryRefuse c, false)

/-! ## What a state does not keep (R401, R404) -/

/-- Registers of D_APP that outlive its loss: reset causes (R449), the watchdog (R456), the crystal trim of the backup domain, LFXO_FAIL,
flash protection and status rows, which only a system reset clears (R448). -/
def appKeeps (a : Nat) : Bool :=
  a = SYS_RSTCAUSE.addr || a = SYS_WDT_CFG.addr || a = SYS_STAT.addr || a = SYS_BOOT.addr || a = CLK_LFXO.addr || a = FLC_STAT.addr
    || a = FLC_WP_LO.addr || a = FLC_WP_HI.addr || a = FLC_MODE_LO.addr || a = FLC_MODE_HI.addr || a = FLC_OPMARK.addr
    || a = OVL_STAT.addr || a = OVL_FMT.addr || a = OVL_COUNT.addr

/-- The registers of D_APP return to reset; UPD_SLOT's reset value is the governing record's. -/
def State.appRegs (s : State) : State :=
  let st := s.raw SYS_STAT.addr
  let key := s.fget FLC_STAT.KEY_LOCK
  let loaded := s.fget OVL_STAT.LOADED
  let base := s.fget OVL_STAT.BASE_OK
  let s := s.resetRegs fun a => isPage a && pageDomain (pageOf a) = .app && !appKeeps a
  let s := ((s.rsetN SYS_STAT.addr 0).fset SYS_STAT.LFXO_FAIL (fieldGet st SYS_STAT.LFXO_FAIL))
  let s := (s.rsetN FLC_STAT.addr 0).fset FLC_STAT.KEY_LOCK key
  let s := ((s.rsetN OVL_STAT.addr 0).fset OVL_STAT.LOADED loaded).fset OVL_STAT.BASE_OK base
  (s.fset OVL_COUNT.LAST 0).rsetN UPD_SLOT.addr s.slotWord

/-- State of D_APP beside its registers: Tanum-A with its private registers and caches, the interconnect, the cipher user pages, the
serial ports, the ADC, DMA, the mailbox snapshots. -/
def State.appHidden (s : State) : State :=
  let s := s.resetRegs fun a => 0xE0000000 ≤ a && a < 0xE0100000
  { s with
    bus := {}
    coreA := {}
    caches := {}
    dma := List.replicate 8 {}
    dmaLast := 0
    cipu := List.replicate 8 {}
    hsp := { cs := s.hsp.cs }
    psp := {}
    tst := {}
    upd := {}
    pads := { s.pads with adcRun := false }
    flash := { s.flash with stage := 0, cmd := 0, addr := 0, data := [], wrong := 0, corr := [] }
    glade := { s.glade with snaps := [] }
    ovl := { s.ovl with pending := none, loading := false, atTick := none } }

/-- SRAM banks lose their contents and are cleared when their supply returns (R332). -/
def State.loseSram (s : State) (banks : List Nat) : State :=
  banks.foldl (fun s n =>
    let s := s.clearRange (0x20000000 + n * 0x10000) (0x20000000 + (n + 1) * 0x10000)
    let s := s.fset ⟨SYS_SRAM_USE.addr, n, 1⟩ 0
    s.setMemst fun m => { m with
      ecc := m.ecc.filter (fun e => !(0x20000000 + n * 0x10000 ≤ e.1 && e.1 < 0x20000000 + (n + 1) * 0x10000))
      written := m.written.filter (· != n)
      clear := if m.clear.contains n then m.clear else m.clear ++ [n] }) s

/-- Radio RAM is lost and cleared in the same way (R334). -/
def State.loseRram (s : State) : State :=
  (s.clearRange 0x30000000 0x30040000).setMemst fun m => { m with
    ecc := m.ecc.filter (fun e => e.1 < 0x30000000)
    clear := if m.clear.contains 24 then m.clear else m.clear ++ [24] }

/-- The ticket store and its undo logs lose their contents (R228, R401): what a squash reaches is squashed with cause CTRL; a transmission
is cut, and a COMMITTED ticket is charged what it radiated. -/
def State.storeLost (s : State) : State :=
  let s := ((s.squashWhere .ctrl true fun _ => true).squashNow).fset TXM_STAT.STATE 0
  let s := s.tickets.foldl (fun s p => if p.2.st = 4 then s.dutyCharge p.2.cand.freq p.2.radiated else s) s
  { s with
    hdr := { s.hdr with entries := List.replicate 4 none, undoing := [], plans := [] }
    txm := { s.txm with cur := none, acks := [], away := false } }

/-- What SLUMBER or HIBERNATE does not keep is lost, and EP6 takes effect as it was (R228, R266, R404): tickets squashed with cause
CTRL, FRC handed to the sleep counter, oscillators stopped. -/
def State.loseContents (s : State) : State :=
  if s.pwr.leaving.isNone then s
  else
    let p := s.pwr.st
    if !(p = .slumber || p = .hibernate) then s.setPwr fun w => { w with leaving := none }
    else
      let s := s.sleepHandoff.setPwr fun w => { w with leaving := none }
      let s := s.storeLost
      let s := s.appRegs.appHidden
      let s := s.setSys fun y => { y with hfxoStable := false, syspllLock := false }
      let lost := (List.range 24).filter fun n => p = .hibernate || !bitOf (s.raw PWR_SRAM_RET.addr) n
      let s := s.loseSram lost
      if p = .hibernate then
        let s := s.resetRegs fun a => isPage a && pageDomain (pageOf a) = .lp
        { s.ovlEmpty with tmr := List.replicate 8 {} }
      else s

/-! ## Body bias, SRAM assist and the core rail (R412) -/

/-- Core rail in mV: the loop's output in RUN, DOZE and excursions; the state's own rail in the others. -/
def State.coreRail (s : State) : Nat :=
  match s.pwr.st with
  | .run | .doze => s.fget AVS_VAL.CUR
  | .nap => 600
  | .slumber | .hibernate => 450
  | .off | .backup => 0

/-- Body bias in mV, forward positive: of logic in RUN and DOZE, of Gated domains in NAP, of what is retained in SLUMBER and HIBERNATE. -/
def State.bodyBias (s : State) : Int :=
  match s.pwr.st with
  | .run | .doze => if s.fget AVS_STAT.STEP = 3 && s.fbit PWR_BIAS.FBB_EN then 300 else 0
  | .nap => -300
  | .slumber => (match s.fget PWR_BIAS.RBB_SLP with | 0 => -300 | 1 => -600 | _ => -900)
  | .hibernate => -600
  | .off | .backup => 0

/-- SRAM has write assist. -/
def State.writeAssist (s : State) : Bool := (s.pwr.st = .run || s.pwr.st = .doze || s.pwr.st = .nap) && s.coreRail < 650

/-! ## The voltage loop and the clock steps (R413 to R415) -/

/-- V_need of a step: its floor, or what the timing monitors ask for. -/
def stepFloor (k : Nat) : Nat := match k with | 0 => 500 | 1 => 600 | 2 => 700 | _ => 850
def State.vNeed (s : State) (k : Nat) : Nat := max (stepFloor k) ((s.pwr.need[k]?).getD 0)

/-- The effective ceiling: LIMIT_HI, or HELD while HOLD is 1; values below 700 act as 700. While EN is 0 the loop behaves as held at its
output. -/
def State.avsCeiling (s : State) : Nat :=
  if !s.fbit AVS_CTRL.EN then s.fget AVS_VAL.CUR
  else if s.fbit AVS_HOLD.HOLD then max 700 (s.fget AVS_HOLD.HELD)
  else max (s.fget AVS_LIM.LIMIT_LO) (max 700 (s.fget AVS_LIM.LIMIT_HI))

/-- D_RAD is On. -/
def State.radOn (s : State) : Bool := s.dom .rad = .on

/-- The wish of the loop (R414). -/
def State.avsWant (s : State) : Nat :=
  let step := s.fget AVS_STAT.STEP
  let req := s.fget AVS_CLK.REQ
  max (s.vNeed step) (max (if step < req then s.vNeed req else 0) (if s.radOn then 700 else 0))

/-- Highest step up to the requested one that the ceiling supports. -/
def State.avsBest (s : State) : Nat :=
  ((List.range (s.fget AVS_CLK.REQ + 1)).filter fun k => s.vNeed k ≤ s.avsCeiling).foldl max 0

def State.avsStep (s : State) (k : Nat) : State := ((s.fset AVS_STAT.STEP k).fset AVS_CLK.GRANT k).raise Pg.AVS 1

/-- The ceiling lies below V_need of the requested step: the override of R29. CLAMP and its event come when it begins. -/
def State.avsClamp (s : State) : State :=
  let on : Bool := s.avsCeiling < s.vNeed (s.fget AVS_CLK.REQ)
  let was := s.pwr.avsOver
  let s := s.setPwr fun w => { w with avsOver := on }
  if on && !was then ((s.fset AVS_STAT.CLAMP 1).raise Pg.AVS 0).event Pg.AVS 0 77 else s

/-- The clock moves to the best step that the rail and, above step 0, SYSPLL carry; it lowers at once. -/
def State.avsClock (s : State) : State :=
  let step := s.fget AVS_STAT.STEP
  let best := s.avsBest
  if best < step then s.avsStep best
  else if step < best && s.vNeed best ≤ s.fget AVS_VAL.CUR && s.sys.syspllLock then s.avsStep best
  else s

/-- The rail moves by at most 10 mV. -/
def avsMove (cur target : Nat) : Nat := if cur < target then min target (cur + 10) else max target (cur - 10)

/-- Where the rail moves to for a wish. -/
def State.avsTarget (s : State) (want : Nat) : Nat :=
  let hi := s.avsCeiling
  if !s.fbit AVS_CTRL.EN || s.fbit AVS_HOLD.HOLD then hi else clampN (min hi (s.fget AVS_LIM.LIMIT_LO)) hi want

/-- One update of the loop (R414): frozen but for WANT in NAP and deeper. -/
def State.avsUpdate (s : State) : State :=
  let want := s.avsWant
  let s := s.fset AVS_VAL.WANT want
  if !(s.pwr.st = .run || s.pwr.st = .doze) then s
  else
    let s := s.fset AVS_VAL.CUR (avsMove (s.fget AVS_VAL.CUR) (s.avsTarget want))
    s.avsClamp.avsClock

/-- Effect of a write to the AVS page. -/
def avsHook (w : WCtx) (s : State) : State :=
  if w.off = 0x004 then
    if w.one AVS_CTRL.SRST then
      let s := s.srstPage Pg.AVS
      s.fset AVS_STAT.STEP 0
    else s
  else if w.off = 0x048 then (if w.sets AVS_HOLD.HOLD then s.fset AVS_HOLD.HELD (s.fget AVS_VAL.CUR) else s)
  else if w.off = 0x04C then
    let s := s.avsClamp
    if s.fget AVS_CLK.REQ < s.fget AVS_STAT.STEP then s.avsStep (s.fget AVS_CLK.REQ) else s
  else s

/-- Every microsecond the timing monitors give the rail each step needs; in OFF and BACKUP there is no loop. -/
def execAvsUpdate (need0 need1 need2 need3 : Nat) (s : State) : Host.Outcome State Fault Refusal :=
  let s := s.setPwr fun w => { w with need := [need0, need1, need2, need3] }
  .next (if s.pwr.st = .off || s.pwr.st = .backup then s else s.avsUpdate)

def execAvsClkReq (a : Acc) (v : Word) (s : State) : Host.Outcome State Fault Refusal :=
  .next (s.writeReg avsHook a AVS_CLK.addr v)

/-! ## Clocks (R416) -/

/-- Effect of a write to the CLK page: a trim is ignored while Cadence is enabled. -/
def clkHook (w : WCtx) (s : State) : State :=
  if (w.off = 0x040 || w.off = 0x044) && s.fbit CAD_CTRL.EN then
    ((s.rsetN w.addr w.old).fset CLK_STAT.TRIM_REF 1).raise Pg.CLK 0
  else s

def execClkTrimWrite (a : Acc) (lfxo : Bool) (v : Word) (s : State) : Host.Outcome State Fault Refusal :=
  .next (s.writeReg clkHook a (if lfxo then CLK_LFXO.addr else CLK_HFXO.addr) v)

/-- The HFXO has started. -/
def execHfxoStable (s : State) : Host.Outcome State Fault Refusal :=
  .next (if s.hfxoOn then s.setSys fun y => { y with hfxoStable := true } else s)

/-- SYSPLL locks on a stable HFXO while D_APP is On or Gated; a request that waited for it may be granted. -/
def execSyspllLock (s : State) : Host.Outcome State Fault Refusal :=
  if s.sys.hfxoStable && s.domUp .app then .next (s.setSys fun y => { y with syspllLock := true }) else .next s

/-! ## Brown-out warning (R417) -/

def execBodWarn (s : State) : Host.Outcome State Fault Refusal :=
  if s.pwr.st = .backup || s.fbit PWR_STAT.BOD_WARN then .next s
  else .next ((((s.fset PWR_STAT.BOD_WARN 1).raise Pg.PWR 3).wakeEvent 5).event Pg.PWR 0 75)
def execBodWarnClear (s : State) : Host.Outcome State Fault Refusal :=
  .next (if s.pwr.st = .backup then s else s.fset PWR_STAT.BOD_WARN 0)

end Sys2Proof.Machine
end

