-- ==== Sys2Proof/Machine/Reset.lean ====
section
/-!
DEFINITION. Resets (R447 to R449): what each kind clears and keeps, and the straps sampled at the release of a system reset (R464).
What the boot ROM then does stands in Boot.lean.
Readings of the manual made here: DEDUCED in log entries 23, 25; DESIGN CHOICE in log entry 24.
-/
namespace Sys2Proof.Machine
open Sys2Proof

/-- Bit of a system reset in SYS_RSTCAUSE. -/
def ResetKind.bit : ResetKind → Nat
  | .por => 0 | .bor => 1 | .pin => 2 | .swsys => 3 | .syswdt => 4 | .offWake => 5 | .factory => 6
/-- Bits of the core resets: watchdog, double fault, software. -/
def cCWDT : Nat := 7
def cDFAULT : Nat := 8
def cSWCORE : Nat := 9

/-- A reset enters its bit in SYS_RSTCAUSE (R449). -/
def State.resetCause (s : State) (bit : Nat) : State := s.fset ⟨SYS_RSTCAUSE.addr, bit, 1⟩ 1

/-- Registers that a system reset keeps: the backup domain, the Glade, the flash controller's status rows, the reset causes. -/
def sysKeeps (a : Nat) : Bool :=
  pageOf a = Pg.RTC || (Pg.GCORE ≤ pageOf a && pageOf a ≤ Pg.GLOG) || a = CLK_LFXO.addr || a = SYS_RSTCAUSE.addr
    || a = FLC_MODE_LO.addr || a = FLC_MODE_HI.addr || a = FLC_OPMARK.addr

/-- The supply was away: memory and the state of D_AON are lost. -/
def ResetKind.cold : ResetKind → Bool
  | .por | .bor | .offWake => true
  | _ => false

/-- A system reset (R23, R448): the device is held in reset, everything but the items that R448 keeps at its reset value. What the flash
controller or the update engine is cut off in leaves its page or block indeterminate. The Glade, the RTC and what the board drives go on. -/
def State.sysReset (s : State) (k : ResetKind) : State :=
  let s := s.loseContents
  let s := s.updCut.flashCut
  let s := if k.cold then (s.loseSram (List.range 24)).loseRram else s
  let por : Bool := k = .por
  let t : State :=
    { State.reset with
      regs := s.regs.filter fun r => sysKeeps r.1 && !(por && r.1 = SYS_RSTCAUSE.addr)
      now := s.now
      freeCtr := s.freeCtr
      mem := s.mem
      memst := s.memst
      coreG := s.coreG
      glade := { s.glade with snaps := [] }
      rtc := s.rtc
      pads := { s.pads with adcRun := false }
      flash := { lines := s.flash.lines, indet := s.flash.indet }
      prot := if por then { lowFrom := s.prot.lowFrom, lastLong := s.prot.lastLong, gained := s.prot.gained } else s.prot
      pwr := { need := s.pwr.need }
      sys := { held := some k, tcxo := s.sys.tcxo }
      hsp := { cs := s.hsp.cs }
      pending := s.pending }
  let t := t.resetCause k.bit
  if k = .por || k = .bor then t.rtcLock else t

/-- Straps of the HSP go into HSP_STRAP and HSP_CFG (R430). -/
def State.hspStraps (s : State) (straps : Nat) : State :=
  let w : Nat × Nat := match straps / 4 % 4 with | 0 => (0, 0) | 1 => (0, 2) | 2 => (2, 2) | _ => (3, 3)
  let s := (s.fset HSP_CFG.CPHA (straps % 2)).fset HSP_CFG.CPOL (straps / 2)
  let s := ((s.fset HSP_CFG.CMDW w.1).fset HSP_CFG.DATAW w.2).rsetN HSP_STRAP.addr (straps % 16)
  s.setSys fun y => { y with hstraps := straps % 16 }

/-- The straps are sampled: HSTRAP3 to HSTRAP0 in bits 3 to 0 and TEST in bit 4. While HSP_CS_N is asserted the sample is owed (R464). -/
def State.sampleStraps (s : State) (straps : Nat) : State :=
  if s.hsp.cs then s.setSys fun y => { y with strapsDue := some straps }
  else (s.setSys fun y => { y with testStrap := bitOf straps 4, strapsDue := none }).hspStraps (straps % 16)

/-- The release of a held device. A reset of the supply has held it for 1 ms, in which the banks have been cleared (R332). -/
def State.release (s : State) (straps : Nat) : State :=
  let s := if s.sys.held = some .por || s.sys.held = some .bor then s.setMemst fun m => { m with clear := [] } else s
  (s.setSys fun y => { y with held := none }).sampleStraps straps

/-- A core reset (R448): Tanum-A, ICU, MPU and caches; a halt of the debug port stays. Tanum-A's boot is owed. -/
def State.coreReset (s : State) (cause : Nat) : State :=
  let halted := s.coreA.halted
  let s := s.resetRegs fun a => 0xE0000000 ≤ a && a < 0xE0100000
  let s := { s with coreA := { halted := halted }, caches := {} }
  let s := if s.pwr.st = .doze || s.pwr.st = .nap then
      s.setPwr fun w => { w with st := .run, exc := false, home := .run, leaving := none } else s
  (s.setSys fun y => { y with warm := true }).resetCause cause

end Sys2Proof.Machine
end

