-- ==== Sys2Proof/Machine/Control.lean ====
section
/-!
DEFINITION. What a register write does in the blocks that control the device: SYS (R23, R447, R456), PWR (R458), PROT (R58, R64), DMA
(R350 to R352) and HSP (R430, R441).
Readings of the manual made here: DESIGN CHOICE in log entry 11.
-/
namespace Sys2Proof.Machine
open Sys2Proof

/-! ## SYS -/

/-- A request for a system state that R23 does not allow. -/
def State.stateRefuse (s : State) : State := (s.fset SYS_STAT.STATE_REFUSED 1).raise Pg.SYS 3

/-- SYS_STATE.REQ (R23). -/
def State.stateRequest (s : State) (req : Nat) : State :=
  match req with
  | 1 => if s.sys.st = .start then s.setSys fun y => { y with st := .run } else s.stateRefuse
  | 2 =>
    if s.sys.st = .start && (s.sys.dbgUnlocked || s.sys.testStrap) then s.setSys fun y => { y with st := .test } else s.stateRefuse
  | _ => s

/-- The watchdog's timeout in ms: 0 acts as 1. -/
def State.wdtTO (s : State) : Nat := max 1 (s.fget SYS_WDT_CFG.TO)
/-- The count is reloaded. SYS_WDT_CNT holds the greatest value it can have until the next event of the watchdog. -/
def State.wdtLoad (s : State) : State := if s.fbit SYS_WDT_CFG.EN then s.rsetN SYS_WDT_CNT.addr s.wdtTO else s

/-- SYS_CMD: a system reset, which leaves the device held, or a core reset. -/
def State.sysCmd (s : State) (wo : Nat) : State :=
  if fieldGet wo SYS_CMD.KEY != 0x5EC0 then s
  else match fieldGet wo SYS_CMD.OP with
    | 1 => s.sysReset .swsys
    | 2 => (s.coreReset cSWCORE).wdtLoad
    | _ => s

/-- Effect of a write to the SYS page. -/
def sysHook (w : WCtx) (s : State) : State :=
  if w.off = 0x040 then s.stateRequest (fieldGet w.wo SYS_STATE.REQ)
  else if w.off = 0x048 then s.sysCmd w.wo
  else if w.off = 0x050 then
    if fieldGet w.old SYS_WDT_CFG.EN != 0 then s.rsetN SYS_WDT_CFG.addr w.old
    else s.wdtLoad
  else if w.off = 0x054 then (if fieldGet w.wo SYS_WDT_KICK.VAL = 0xC35A then s.wdtLoad else s)
  else s

/-! ## PWR and PROT -/

/-- Effect of a write to the PWR page: a retention bit newly set for the bank under BIST aborts its test (R458). -/
def pwrHook (w : WCtx) (s : State) : State :=
  if w.off = 0x054 then
    match s.tst.banks with
    | b :: _ => if bitOf w.new b && !bitOf w.old b then s.bistAbort else s
    | [] => s
  else s

/-- The six words of an audit entry. -/
def AuditEntry.words (e : AuditEntry) : List Word := [e.w0, e.w1, e.w2, e.w3, e.w4, e.w5]

/-- Effect of a write to the PROT page: PROT_AUD_IDX captures the six words of an entry (R64). -/
def protHook (w : WCtx) (s : State) : State :=
  if w.off = 0x04C then
    let e := ((s.prot.ring[s.fget PROT_AUD_IDX.IDX]?).map AuditEntry.words).getD (List.replicate 6 0#32)
    (List.range 6).foldl (fun s n => s.rset (PROT_AUD_W.addr n) ((e[n]?).getD 0#32)) s
  else s

/-! ## DMA -/

def State.dmaGet (s : State) (ch : Nat) : DmaCh := (s.dma[ch]?).getD {}
def State.dmaPut (s : State) (ch : Nat) (d : DmaCh) : State := { s with dma := setAt s.dma ch d }

/-- A channel stops with its remaining count; requests that waited are dropped. -/
def State.dmaStop (s : State) (ch : Nat) : State :=
  let s := s.dmaPut ch { s.dmaGet ch with burst := 0 }
  (s.fset (DMA_CFGn.EN ch) 0).fset (DMA_STATn.PENDREQ ch) 0

/-- CNT has reached 0. -/
def State.dmaDone (s : State) (ch : Nat) : State :=
  (((s.dmaStop ch).fset (DMA_STATn.DONE ch) 1).raise Pg.DMA ch).event Pg.DMA ch (64 + ch)

/-- EN is set: the channel takes the owner and the attribute of the write. -/
def State.dmaStart (s : State) (ch : Nat) (src : Source) : State :=
  let s := (s.dmaPut ch { owner := src.owner, sec := src.sec }).fset (DMA_STATn.PENDREQ ch) 0
  if s.fget (DMA_CNTn.CNT ch) = 0 then s.dmaDone ch else s

/-- Effect of a write to the DMA page. -/
def dmaHook (w : WCtx) (s : State) : State :=
  if w.off = 0x004 then
    if w.one DMA_CTRL.SRST then { s.srstPage Pg.DMA with dma := List.replicate 8 {} } else s
  else if w.off < 0x080 then s
  else
    let ch := (w.off - 0x080) / 0x20
    let k := (w.off - 0x080) % 0x20
    if k < 0x0C then (if s.fbit (DMA_CFGn.EN ch) then s.rsetN w.addr w.old else s)
    else if k = 0x0C then
      if w.sets (DMA_CFGn.EN ch) then s.dmaStart ch w.src
      else if w.clears (DMA_CFGn.EN ch) then s.dmaStop ch
      else s
    else s

/-! ## HSP -/

def State.setHsp (s : State) (f : HspState → HspState) : State := { s with hsp := f s.hsp }

/-- Effect of a write to the HSP page: a new configuration, a clear of EN and a soft reset wait for the deassertion of HSP_CS_N (R430,
R441). -/
def hspHook (w : WCtx) (s : State) : State :=
  if w.off = 0x004 then
    let s := s.fset HSP_CTRL.SRST 0
    let s := if w.one HSP_CTRL.SRST then s.setHsp fun h => { h with srst := true } else s
    if fieldGet w.new HSP_CTRL.EN = 0 ∧ fieldGet w.old HSP_CTRL.EN != 0 then
      (s.fset HSP_CTRL.EN 1).setHsp fun h => { h with en := some false }
    else if fieldGet w.new HSP_CTRL.EN != 0 then s.setHsp fun h => { h with en := none }
    else s
  else if w.off = 0x040 then (s.rsetN HSP_CFG.addr w.old).setHsp fun h => { h with cfg := some (BitVec.ofNat 32 w.new) }
  else s

end Sys2Proof.Machine
end

