-- ==== Sys2Proof/Machine/TanumCore.lean ====
section
/-!
DEFINITION. The registers of a Tanum core (R295, R296), the landing of multiplier operations (R301 to R303, R307, R324), and the
registers as the debug port sees them (R461).
Readings of the manual made here: DEDUCED in log entries 91, 96.
-/
namespace Sys2Proof.Machine
open Sys2Proof

/-! ## PSW (R296) -/

def Core.flagC (c : Core) : Bool := c.psw.getLsbD 0
def Core.flagZ (c : Core) : Bool := c.psw.getLsbD 1
def Core.flagN (c : Core) : Bool := c.psw.getLsbD 2
def Core.flagV (c : Core) : Bool := c.psw.getLsbD 3
def Core.user (c : Core) : Bool := c.psw.getLsbD 13
def Core.secure (c : Core) : Bool := c.psw.getLsbD 14
def Core.inFault (c : Core) : Bool := c.psw.getLsbD 15
def Core.rp (c : Core) : Bool := c.psw.getLsbD 16

/-- A word with one bit replaced. -/
def putBit (v : Word) (n : Nat) (b : Bool) : Word := if b then v ||| (1#32 <<< n) else v &&& ~~~(1#32 <<< n)
def Core.setPsw (c : Core) (n : Nat) (b : Bool) : Core := { c with psw := putBit c.psw n b }

/-- The bits of PSW that are not reserved; Tanum-G has no U and S (R317). -/
def pswMask : Word := 0x1FF1F#32
def pswMaskG : Word := 0x19F1F#32

/-! ## General registers -/

/-- W0 to W15; W15 is the stack pointer of the current mode. -/
def Core.reg (c : Core) (r : RegNo) : Word :=
  if r.val = 15 then (if c.user then c.usp else c.ssp) else (c.w[r.val]?).getD 0#32
def Core.setReg (c : Core) (r : RegNo) (v : Word) : Core :=
  if r.val = 15 then (if c.user then { c with usp := v } else { c with ssp := v }) else { c with w := setAt c.w r.val v }

/-! ## Multiplier -/

/-- PACC as a signed value. -/
def Core.paccI (c : Core) : Int := c.pacc.toInt
/-- PACCH as it reads: sign-extended. -/
def Core.pacch (c : Core) : Word := (c.pacc.extractLsb' 32 16).signExtend 32
def Core.paccl (c : Core) : Word := c.pacc.setWidth 32

/-- The greatest and least value of a signed field. -/
def maxS (w : Nat) : Int := (2 : Int) ^ (w - 1) - 1
def minS (w : Nat) : Int := -(2 : Int) ^ (w - 1)

/-- One operation lands. -/
def Core.land1 (c : Core) : MulOp → Core
  | .prod lo hi => { c with prl := lo, prh := hi }
  | .mac lo hi p sat =>
    let x := c.paccI + p
    let clamp : Bool := sat && (maxS 48 < x || x < minS 48)
    let c := { c with prl := lo, prh := hi, pacc := BitVec.ofInt 48 (if sat then clampI (minS 48) (maxS 48) x else x) }
    if clamp then c.setPsw 4 true else c
  | .clr => { c with pacc := 0 }
  | .prl v => { c with prl := v }
  | .prh v => { c with prh := v }
  | .paccl v => { c with pacc := (c.pacc &&& 0xFFFF00000000#48) ||| v.setWidth 48 }
  | .pacch v => { c with pacc := (c.pacc &&& 0x0000FFFFFFFF#48) ||| (v.setWidth 48 <<< 32) }

/-- The oldest operation in flight lands. -/
def Core.land (c : Core) : Core :=
  match c.mul with
  | [] => c
  | m :: l => { c with mul := l }.land1 m

/-- Every operation in flight lands, in issue order (R303). -/
def Core.landAll (c : Core) : Core := { c.mul.foldl Core.land1 c with mul := [] }

/-! ## The cores in the machine -/

def State.core (s : State) : CoreId → Core
  | .a => s.coreA
  | .g => s.coreG
def State.setCore (s : State) : CoreId → Core → State
  | .a, c => { s with coreA := c }
  | .g, c => { s with coreG := c }

/-- A core executes instructions: Tanum-A while D_APP is on, not held in reset, in the boot
ROM, waiting or halted; Tanum-G while its firmware runs. -/
def State.coreRuns (s : State) : CoreId → Bool
  | .a => s.dom .app = .on && s.sys.held.isNone && !s.sys.warm && s.sys.boot.isNone
    && !s.coreA.waiting && (!s.coreA.halted || s.coreA.stepping)
  | .g => s.glade.run && (!s.coreG.waiting || !s.gReady.isEmpty)

/-! ## The debug port's view of Tanum-A (R461) -/

/-- A register by its debug index; 25 to 31 read 0. -/
def Core.dbgGet (c : Core) (i : Nat) : Word :=
  if h : i < 16 then c.reg ⟨i, h⟩
  else match i with
    | 16 => c.psw | 17 => c.prl | 18 => c.prh | 19 => c.paccl | 20 => c.pacch | 21 => c.rpc | 22 => c.ssp | 23 => c.usp
    | 24 => c.pc | _ => 0#32
def Core.dbgSet (c : Core) (i : Nat) (v : Word) : Core :=
  if h : i < 16 then c.setReg ⟨i, h⟩ v
  else match i with
    | 16 => { c with psw := v &&& pswMask }
    | 17 => { c with prl := v }
    | 18 => { c with prh := v }
    | 19 => c.land1 (.paccl v)
    | 20 => c.land1 (.pacch (v.setWidth 16))
    | 21 => { c with rpc := v }
    | 22 => { c with ssp := v }
    | 23 => { c with usp := v }
    | 24 => { c with pc := v, matched := false }
    | _ => c

/-- HALT, RESUME and STEP. Multiplies in flight land before the halt. -/
def State.dbgHalt (s : State) : State := { s with coreA := { s.coreA.landAll with halted := true, stepping := false } }
def State.dbgResume (s : State) : State := { s with coreA := { s.coreA with halted := false, stepping := false } }
def State.dbgStep (s : State) : State := if s.coreA.halted then { s with coreA := { s.coreA with stepping := true } } else s

/-- Effect of a write to the DBG page. -/
def dbgHook (w : WCtx) (s : State) : State :=
  if w.off = 0x040 then
    let s := s.rsetN DBG_RUN.addr 0
    let s := if w.one DBG_RUN.HALT then s.dbgHalt else s
    let s := if w.one DBG_RUN.RESUME then s.dbgResume else s
    if w.one DBG_RUN.STEP then s.dbgStep else s
  else if w.off = 0x04C then
    let s := s.rsetN DBG_REG_DATA.addr 0
    if s.coreA.halted then { s with coreA := s.coreA.dbgSet (s.fget DBG_REG_IDX.IDX) (BitVec.ofNat 32 w.new) } else s
  else s

end Sys2Proof.Machine
end

