-- ==== Sys2Proof/Machine/Timers.lean ====
section
/-!
DEFINITION. The general timers (R381 to R391): register writes, ticks, compare firings and captures. What the Culvert and a CHAIN
action do to a timer stands in Events.lean.
Readings of the manual made here: DESIGN CHOICE in log entry 6; DEDUCED in log entry 120.
-/
namespace Sys2Proof.Machine
open Sys2Proof

/-- The producers that a timer's action raised are published. -/
def raised (r : State × List Nat) : State := r.1.publishAll r.2

/-- An armed compare meets its condition (R383); in HIBERNATE and below the timer has no supply (R382). -/
def State.compareDue (s : State) (n k : Nat) : Bool :=
  let m := s.tReload n + 1
  let c := s.raw (TMR_CH_CMP.addr n k)
  s.domUp .lp && s.fbit (TMR_CTRL.EN n) && s.isCompare n k && s.tmrArmed n k && c ≤ s.tReload n
    && ((s.tCount n : Int) - c) % (m : Int) < ((m / 2 : Nat) : Int)

/-- A firing (R385). -/
def State.tmrFire (s : State) (n k : Nat) : State :=
  let s := (s.tmrDisarm n k).raise (Pg.TMR n) (1 + k)
  let o := (s.tmrGet n).out
  let o' := match s.fget (TMR_CH_CFG.OACT n k) with
    | 1 => if bitOf o k then o else o + 2 ^ k
    | 2 => if bitOf o k then o - 2 ^ k else o
    | 3 => if bitOf o k then o - 2 ^ k else o + 2 ^ k
    | _ => o
  let s := s.withPins fun s => s.tmrSet n fun t => { t with out := o' }
  (s.tmrChain n (2 + k)).publishAll (s.tmrEvents n (1 + k))

/-- A write of COUNT (R381): above RELOAD it stores 0 as a period start without OVF. -/
def State.tmrCountSet (s : State) (n : Nat) : State :=
  let s := s.tmrSet n fun t => { t with psc := 0 }
  if s.tReload n < s.tCount n then s.tmrReset n else s

/-- A write of a channel's CFG (R383, R389). -/
def State.tmrChCfg (s : State) (n k : Nat) : State :=
  let s := s.tmrSet n fun t => { t with nth := setAt t.nth k 0 }
  if s.isCompare n k then s.tmrArm n k else s.tmrDisarm n k

/-- Effect of a write to the page of timer `n`. -/
def State.tmrWrite (s : State) (w : WCtx) (n : Nat) : State :=
  if w.off = 0x004 then
    let s := if w.sets (TMR_CTRL.EN n) then s.tmrArmAll n else s
    if w.one (TMR_CTRL.SRST n) then s.withPins fun s => (s.tmrSet n fun _ => {}).srstPage (Pg.TMR n) else s
  else if w.off = 0x040 then s.tmrCountSet n
  else if w.off = 0x048 then s.tmrSet n fun t => { t with psc := 0 }
  else if 0x060 ≤ w.off && w.off < 0x0A0 then
    let k := (w.off - 0x060) / 0x10
    if w.off % 0x10 = 0 then (s.tmrChCfg n k).pinWrite w
    else if w.off % 0x10 = 4 && s.isCompare n k then s.tmrArm n k else s
  else s

/-- Effect of a write to a TMR page. -/
def tmrHook (w : WCtx) (s : State) : State := s.tmrWrite w (w.page - Pg.TMR 0)

def execTmrTick (n : Fin 8) (s : State) : Host.Outcome State Fault Refusal := .next (raised (s.tmrTick n.val))
def execCompareFiring (n : Fin 8) (k : Fin 4) (s : State) : Host.Outcome State Fault Refusal :=
  .next (if s.compareDue n.val k.val then s.tmrFire n.val k.val else s)
def execTmrCountWrite (a : Acc) (n : Fin 8) (v : Word) (s : State) : Host.Outcome State Fault Refusal :=
  .next (s.writeReg tmrHook a (TMR_COUNT.addr n.val) v)
def execTmrReloadWrite (a : Acc) (n : Fin 8) (v : Word) (s : State) : Host.Outcome State Fault Refusal :=
  .next (s.writeReg tmrHook a (TMR_RELOAD.addr n.val) v)
def execTmrCmpWrite (a : Acc) (n : Fin 8) (k : Fin 4) (v : Word) (s : State) : Host.Outcome State Fault Refusal :=
  .next (s.writeReg tmrHook a (TMR_CH_CMP.addr n.val k.val) v)
def execTmrEnable (a : Acc) (n : Fin 8) (v : Word) (s : State) : Host.Outcome State Fault Refusal :=
  .next (s.writeReg tmrHook a (TMR_CTRL.addr n.val) v)
def execTmrDisable (a : Acc) (n : Fin 8) (v : Word) (s : State) : Host.Outcome State Fault Refusal :=
  .next (s.writeReg tmrHook a (TMR_CTRL.addr n.val) v)

/-- An edge reaches a capture channel: from its pin, selected by EDGE, or from CAPk (R389). -/
def State.captureEdge (s : State) (n k : Nat) (rising culvert : Bool) : State :=
  let sel := match s.fget (TMR_CH_CFG.EDGE n k) with | 0 => rising | 1 => !rising | _ => true
  if culvert != s.fbit (TMR_CH_CFG.SRC n k) || !(culvert || sel) then s else raised (s.tmrEdge n k)

def execTmrCapture (n : Fin 8) (k : Fin 4) (rising : Bool) (culvert : Bool) (s : State) : Host.Outcome State Fault Refusal :=
  .next (s.captureEdge n.val k.val rising culvert)

/-- A read of CAP returns it and clears VALID; a capture of the same cycle lands after it (R390). -/
def execTmrCapRead (m : Master) (n : Fin 8) (k : Fin 4) (sameCycleCapture : Bool) (s : State) : Host.Outcome State Fault Refusal :=
  let s := s.readAs m (TMR_CH_CAP.addr n.val k.val) fun s => (s.fset ⟨TMR_STAT.addr n.val, 8 + k.val, 1⟩ 0, s.raw (TMR_CH_CAP.addr n.val k.val))
  .next (if sameCycleCapture && s.fbit (TMR_CTRL.EN n.val) && s.isCapture n.val k.val && s.tmrClocked n.val then
    raised (s.tmrLand n.val k.val) else s)

def execTmrStartEvent (n : Fin 8) (s : State) : Host.Outcome State Fault Refusal := .next (s.deliver (43 + n.val)).1
def execTmrResetEvent (n : Fin 8) (s : State) : Host.Outcome State Fault Refusal := .next (s.deliver (51 + n.val)).1

end Sys2Proof.Machine
end

