-- ==== Sys2Proof/Machine/Bus.lean ====
section
/-!
DEFINITION. Register pages as a master sees them: the block effect of a write, page by page; the value of each register as it reads, with
the fields that a block computes laid over the store; and what a read does (R4, R54, R277, R395).
Readings of the manual made here: DESIGN CHOICE in log entry 8; DEDUCED in log entries 9, 15, 29, 34, 64, 72, 111.
-/
namespace Sys2Proof.Machine
open Sys2Proof

/-! ## Writes -/

/-- Block effect of a write to any page but OVL. -/
def coreHook (w : WCtx) (s : State) : State :=
  let p := w.page
  if p = Pg.SYS then sysHook w s
  else if p = Pg.PWR then pwrHook w s
  else if p = Pg.AVS then avsHook w s
  else if p = Pg.CLK then clkHook w s
  else if p = Pg.PROT then protHook w s
  else if p = Pg.RFE then rfeHook w s
  else if p = Pg.AGC then agcHook w s
  else if p = Pg.CNP then cnpHook w s
  else if Pg.LANE 0 ≤ p ∧ p ≤ Pg.LANE 15 then laneHook (p - Pg.LANE 0) w s
  else if p = Pg.FEC then fecHook w s
  else if p = Pg.TXM then txmHook w s
  else if p = Pg.CAD then cadHook w s
  else if p = Pg.NBR then nbrHook w s
  else if p = Pg.HDR then hdrHook w s
  else if p = Pg.TRF then trfHook w s
  else if p = Pg.WEIR then weirHook w s
  else if p = Pg.SLU then sluHook w s
  else if p = Pg.NTU then ntuHook w s
  else if p = Pg.FLC then flcHook w s
  else if p = Pg.CIPH then ciphHook w s
  else if Pg.CIPU 0 ≤ p ∧ p ≤ Pg.CIPU 7 then cipuHook (p - Pg.CIPU 0) w s
  else if p = Pg.UPD then updHook w s
  else if Pg.TMR 0 ≤ p ∧ p ≤ Pg.TMR 7 then tmrHook w s
  else if p = Pg.RTC then rtcHook w s
  else if p = Pg.CUL then culHook w s
  else if p = Pg.HSP then hspHook w s
  else if p = Pg.PSP then pspHook w s
  else if p = Pg.GPIO then gpioHook w s
  else if p = Pg.ADC then adcHook w s
  else if p = Pg.TST then tstHook w s
  else if p = Pg.DMA then dmaHook w s
  else if p = Pg.DCA then dcaHook w s
  else if p = Pg.DBG then dbgHook w s
  else s

/-- Content of a data port whose values stand outside the register store. -/
def State.portCur (s : State) (a : Nat) : Option Nat :=
  if (s.radioPort a).isSome then s.radioPort a
  else if a = DBG_REG_DATA.addr then some (if s.coreA.halted then (s.coreA.dbgGet (s.fget DBG_REG_IDX.IDX)).toNat else 0)
  else none

/-- The base register of an address. -/
def baseAddr (a : Nat) : Nat := pageAddr (pageOf a) (baseOff a)

/-- A master's write to any register page. -/
def State.busWrite (hook : WCtx → State → State) (m : Master) (a : Nat) (v : Word) (s : State) : State :=
  (s.portCur (baseAddr a)).elim (s.write hook m a v) fun cur =>
    ((s.rsetN (baseAddr a) cur).write hook m a v).rset (baseAddr a) (resetOf (baseAddr a))

/-! ## Computed fields -/

/-- Fields laid over a register's value. -/
def laid (v : Nat) (l : List (Fld × Nat)) : Nat := l.foldl (fun v p => fieldPut v p.1 p.2) v
/-- STAT with BUSY and ERR. -/
def stat (p v : Nat) (busy err : Bool) : Nat := laid v [(⟨STAT.addr p, 0, 1⟩, busy.toNat), (⟨STAT.addr p, 1, 1⟩, err.toNat)]

/-- REMAIN of the presence token. -/
def State.presRemain (s : State) : Nat :=
  if !s.token then 0
  else if s.prot.lowFrom.isSome then 63
  else match s.prot.lastLong with | some b => (b + 58 * s.slowSecond - s.now) / s.slowSecond | none => 0

/-- State of a ticket-store entry as TXM_STORE shows it (R165); entry 4 is the ACK's. -/
def State.storeCode (s : State) (e : Nat) : Nat :=
  let air := match s.txm.cur with | some x => some x.what | none => none
  if e = 4 then
    if air = some .ack || air = some .test then 3 else match s.txm.acks with | a :: _ => if a.ready then 2 else 1 | [] => 0
  else match s.ticket e with
    | none => 0
    | some t => if t.st = 1 then 1 else if air = some (.ticket e) then 3 else 2

/-- Neighbour entries for which `f` holds, counted over the table. -/
def State.nbrCount (s : State) (f : Nat → Bool) : Nat := ((List.range 1024).filter fun n => s.nValid n && f n).length

/-- NTU_UNC_NOW (R265): 1 + ceil(HOLD_PPM / 100 * t). -/
def State.uncNow (s : State) : Nat :=
  if s.fbit NTU_STAT.SYNC then min 0xFFFFFFFF (1 + ceilDiv (s.fget NTU_HOLD_PPM.PPM * (s.frcN - s.ntu.holdFrom)) (100 * second))
  else 0xFFFFFFFF

/-- READY of the host port (R439). -/
def State.hspReady (s : State) : Bool := (s.pwr.st = .run || s.pwr.st = .doze) && s.sys.held.isNone && s.sys.strapsDue.isNone && s.fbit HSP_CTRL.EN && !s.hsp.srst

/-- The word of a 64-bit value. -/
def half64 (v : Frc) (hi : Bool) : Nat := if hi then v.toNat / 2 ^ 32 else v.toNat % 2 ^ 32

/-- Status of the low pages as it reads. -/
def State.statLow (s : State) (p v : Nat) : Nat :=
  if p = Pg.SYS then
    laid v [(SYS_STAT.ERR, (s.fbit SYS_FAULT.CODE).toNat), (SYS_STAT.DBG_UNLOCKED, s.sys.dbgUnlocked.toNat),
      (SYS_STAT.TSTRAP, s.sys.testStrap.toNat)]
  else if p = Pg.PWR then
    laid v [(PWR_STAT.BUSY, s.pwr.exc.toNat), (PWR_STAT.ERR, s.fget PWR_STAT.REFUSED), (PWR_STAT.STATE, pwrCode s.pwr.st),
      (PWR_STAT.HOME, pwrCode s.pwr.home), (PWR_STAT.EXC, s.pwr.exc.toNat)]
  else if p = Pg.AVS then
    laid v [(AVS_STAT.BUSY, (s.fget AVS_VAL.CUR != s.avsTarget s.avsWant).toNat),
      (AVS_STAT.PEND, (s.fget AVS_STAT.STEP < s.fget AVS_CLK.REQ : Bool).toNat)]
  else if p = Pg.CLK then
    let on := s.hfxoOn
    laid v [(CLK_STAT.BUSY, ((on && !s.sys.hfxoStable) || (s.sys.hfxoStable && s.domUp .app && !s.sys.syspllLock)).toNat),
      (CLK_STAT.ERR, (s.fbit SYS_STAT.HFXO_FAIL || s.fbit SYS_STAT.LFXO_FAIL).toNat), (CLK_STAT.HFXO_ON, on.toNat),
      (CLK_STAT.HFXO_RDY, s.sys.hfxoStable.toNat), (CLK_STAT.TCXO, s.sys.tcxo.toNat),
      (CLK_STAT.LFXO_RDY, (!s.fbit SYS_STAT.LFXO_FAIL).toNat), (CLK_STAT.SYSPLL_LOCK, s.sys.syspllLock.toNat),
      (CLK_STAT.RC16_ON, (s.fget AVS_STAT.STEP = 0 : Bool).toNat)]
  else if p = Pg.PROT then
    laid v [(PROT_STAT.ERR, (s.fbit PROT_STAT.REJ || s.fbit PROT_STAT.BAD_OWNER).toNat), (PROT_STAT.TOKEN, s.token.toNat),
      (PROT_STAT.PRES_LOW, s.prot.lowFrom.isSome.toNat)]
  else if p = Pg.OVL then laid v [(OVL_STAT.ERR, (s.fbit OVL_STAT.LOAD_ERR || s.fbit OVL_STAT.APPLY_REJ).toNat)]
  else if p = Pg.RFE then
    stat p v (s.rfe.window || s.txBusy || s.rfe.running.isSome)
      (s.fbit RFE_STAT.UNLOCK || s.fbit RFE_CAL_STAT.TIMEOUT || s.fbit RFE_CAL_STAT.FAIL)
  else if p = Pg.AGC then stat p v s.rfe.window false
  else if p = Pg.CNP then
    stat p v (s.rfe.window && (match s.slot with | some sl => sl.canopy | none => false)) (s.fbit CNP_STAT.RXQ_FULL)
  else if Pg.LANE 0 ≤ p ∧ p ≤ Pg.LANE 15 then
    stat p v (s.laneSt (p - Pg.LANE 0) != 0) (s.fbit (LANE_STAT.ABORTED (p - Pg.LANE 0)))
  else v

/-- Status of the radio-side pages as it reads. -/
def State.statRadio (s : State) (p v : Nat) : Nat :=
  if p = Pg.FEC then
    let busy := (List.range 4).filter fun d => ((s.fec.dec[d]?).getD none).isSome
    laid v [(FEC_STAT.BUSY, (!busy.isEmpty).toNat), (FEC_STAT.DEC_BUSY, maskOf busy), (FEC_STAT.QUEUE, s.fec.queue.length)]
  else if p = Pg.TXM then
    stat p v s.txBusy (s.fbit TXM_STAT.ABORTED || s.fbit TXM_STAT.BAND_BLOCK || s.fbit TXM_STAT.LIVE_ERR)
  else if p = Pg.CAD then
    laid (stat p v s.cadRuns (s.fbit CAD_STAT.TMPL_ERR || s.fbit CAD_STAT.CELL_ERR || s.fbit CAD_STAT.SF0_ERR))
      [(CAD_STAT.TSRC_STALE, (0 < s.nbrCount fun n => s.nTsrc n && s.nStale n : Bool).toNat)]
  else if p = Pg.NBR then laid v [(NBR_STAT.ANY_STALE, (0 < s.nbrCount s.nStale : Bool).toNat)]
  else if p = Pg.HDR then
    laid (stat p v (s.tickets.any (fun t => t.2.st == 1) || !s.hdr.undoing.isEmpty) (s.fbit HDR_STAT.UNPREP))
      [(HDR_STAT.DEPTH, s.hdrDepth), (HDR_STAT.SQUASHING, (!s.hdr.undoing.isEmpty).toNat),
        (HDR_STAT.EXP_SLOT, (s.tickets.any fun t => t.2.exp).toNat)]
  else if p = Pg.TRF then
    laid (stat p v (s.trf.queues.any fun q => !q.isEmpty) (s.fbit TRF_STAT.TOO_LONG || s.fbit TRF_STAT.ENQ_ERR || s.fbit TRF_STAT.FREE_ERR))
      [(TRF_STAT.POOL_LOW, (s.freeCount ≤ s.fget TRF_POOL.RX_RSV : Bool).toNat)]
  else if p = Pg.SLU then stat p v (s.fbit SLU_STAT.BUSY) false
  else if p = Pg.DCA then stat p v (s.tickets.any fun t => t.2.resv.isSome) (s.exhaustBits != 0)
  else if p = Pg.NTU then
    laid (stat p v (s.ntu.pend != 0 || s.ntu.step.isSome) (s.fbit NTU_STAT.STEP_ADVISE))
      [(NTU_STAT.SLEWING, (s.ntu.pend != 0).toNat), (NTU_STAT.STEP_PEND, s.ntu.step.isSome.toNat)]
  else v

/-- Status of the other pages as it reads. -/
def State.statHigh (s : State) (p v : Nat) : Nat :=
  if p = Pg.FLC then
    laid (stat p v s.flash.op.isSome (s.fbit FLC_STAT.PROG_FAIL || s.fbit FLC_STAT.ERASE_FAIL || s.fbit FLC_STAT.UNCORR))
      [(FLC_STAT.SUSP, s.flash.susp.isSome.toNat),
        (FLC_STAT.OP, match s.flash.op, s.flash.susp with | some o, _ => o.cmd | none, some o => o.cmd | none, none => 0)]
  else if p = Pg.CIPH then
    laid (stat p v false (s.fbit CIPH_STAT.KEY_REFUSED || s.fbit CIPH_STAT.FC_REFUSED)) [(CIPH_STAT.ANY_EXH, (s.keyExh != 0).toNat)]
  else if Pg.CIPU 0 ≤ p ∧ p ≤ Pg.CIPU 7 then
    let n := p - Pg.CIPU 0
    let st := s.fget (CIPU_STAT.STATE n)
    laid v [(CIPU_STAT.BUSY n, (1 ≤ st && st ≤ 3).toNat), (CIPU_STAT.DIN_FREE n, 8 - (s.cipuGet n).din.length),
      (CIPU_STAT.DOUT_AVL n, (s.cipuGet n).dout.length)]
  else if p = Pg.UPD then
    let st := s.fget UPD_STAT.STATE
    laid (stat p v (1 ≤ st && st ≤ 4) (st = 7)) [(UPD_STAT.MOTION, s.motion.toNat), (UPD_STAT.OLOCK, s.fget PROT_CTRL.OLOCK)]
  else if Pg.TMR 0 ≤ p ∧ p ≤ Pg.TMR 7 then
    laid (stat p v (s.fbit (TMR_CTRL.EN (p - Pg.TMR 0))) (s.fbit ⟨STAT.addr p, 12, 4⟩)) [(⟨STAT.addr p, 2, 1⟩, (s.sys.st = .run : Bool).toNat)]
  else if p = Pg.RTC then laid v [(RTC_STAT.ERR, s.fget RTC_STAT.BK_LOST)]
  else if p = Pg.CUL then stat p v (!s.cul.inMatrix.isEmpty) (s.fbit CUL_STAT.FAULT)
  else if p = Pg.HSP then
    laid (stat p v s.hsp.cs (s.fbit HSP_STAT.BUSERR))
      [(HSP_STAT.READY, s.hspReady.toNat), (HSP_STAT.ROUTED, s.hsp.routed.toNat), (HSP_STAT.PRIV_PEND, s.hsp.priv.isSome.toNat)]
  else if p = Pg.PSP then
    laid (stat p v s.psp.running (s.fbit PSP_STAT.REFUSED || s.fbit PSP_STAT.ABORTED))
      [(PSP_STAT.TXLVL, s.psp.tx.length), (PSP_STAT.RXLVL, s.psp.rx.length)]
  else if p = Pg.ADC then stat p v s.pads.adcRun (s.fbit ADC_STAT.OVR)
  else if p = Pg.TST then
    stat p v (!s.tst.banks.isEmpty || s.tst.lbist || s.tst.rram || s.rfe.running = some 9) (s.fbit TST_STAT.REFUSED)
  else if p = Pg.DMA then
    let act := (List.range 8).filter s.dmaActive
    laid (stat p v (!act.isEmpty) ((List.range 8).any fun n => s.fbit (DMA_STATn.ERR n))) [(DMA_STAT.ACT, maskOf act)]
  else if p = Pg.GMB then
    let g := s.glade
    laid (stat p v g.copy.isSome g.noImage)
      [(GMB_STAT.RUN, g.run.toNat), (GMB_STAT.SEAL_OPEN, g.sealOpen.toNat), (GMB_STAT.TOKEN, g.token.toNat),
        (GMB_STAT.GRANT, g.grant.toNat), (GMB_STAT.MAINT, g.session.toNat), (GMB_STAT.NO_IMAGE, g.noImage.toNat),
        (GMB_STAT.LOG_HW_FULL, g.hwFull.toNat)]
  else if p = Pg.DBG then laid v [(DBG_STAT.BUSY, s.coreA.halted.toNat), (DBG_STAT.HALTED, s.coreA.halted.toNat)]
  else v

/-- Block registers of TRF, WEIR and DCA as they read. -/
def State.trafficView (s : State) (a v : Nat) : Nat :=
  let p := pageOf a
  let off := baseOff a
  if a = TRF_POOL.addr then laid v [(TRF_POOL.FREE, s.freeCount)]
  else if a = TRF_RXQ_CFG.addr then laid v [(TRF_RXQ_CFG.DEPTH, s.trf.rxq.length)]
  else if p = Pg.TRF ∧ 0x200 ≤ off ∧ off < 0x300 then
    let q := s.queue ((off - 0x200) / 4)
    q.length + (q.map s.fLen).sum * 2 ^ 15
  else if a = WEIR_CGREEN.addr then (s.meter (s.fget WEIR_CSEL.METER)).green
  else if a = WEIR_CYELLOW.addr then (s.meter (s.fget WEIR_CSEL.METER)).yellow
  else if a = WEIR_CRED.addr then (s.meter (s.fget WEIR_CSEL.METER)).red
  else if p = Pg.WEIR ∧ 0x300 ≤ off ∧ off < 0x380 then (s.meter ((off - 0x300) / 4)).tc / 32000000
  else if p = Pg.WEIR ∧ 0x380 ≤ off then (s.meter ((off - 0x380) / 4)).te / 32000000
  else if p = Pg.DCA then
    match (List.range 8).find? fun n => a = DCA_SB_USED.addr n || a = DCA_SB_RES.addr n with
    | some n => usOpen (if a = DCA_SB_USED.addr n then s.sbUsed n else s.sbHeld n)
    | none => v
  else v

/-- Block registers of the NTU as they read. -/
def State.ntuView (s : State) (a v : Nat) : Nat :=
  if a = NTU_FRC_LO.addr then half64 s.ntu.frc false
  else if a = NTU_FRC_HI.addr then half64 s.ntu.frc true
  else if a = NTU_NT_LO.addr then s.nt % 2 ^ 32
  else if a = NTU_NT_HI.addr then s.nt / 2 ^ 32
  else if a = NTU_OFFSET_LO.addr then half64 s.ntu.offset false
  else if a = NTU_OFFSET_HI.addr then half64 s.ntu.offset true
  else if a = NTU_ANCHOR_LO.addr then half64 s.ntu.anchor false
  else if a = NTU_ANCHOR_HI.addr then half64 s.ntu.anchor true
  else if a = NTU_CORR_LO.addr then half64 s.ntu.corr false
  else if a = NTU_CORR_HI.addr then half64 s.ntu.corr true
  else if a = NTU_UNC_NOW.addr then s.uncNow
  else if a = NTU_PEND.addr then toField 32 s.ntu.pend
  else v

/-- Block registers of GMB as they read (R278), but for the mailbox. -/
def State.gmbView (s : State) (a v : Nat) : Nat :=
  let g := s.glade
  if GMB_IDENT.addr 0 ≤ a ∧ a ≤ GMB_IDENT.addr 7 then identWord g.ident ((a - GMB_IDENT.addr 0) / 4)
  else if a = GMB_FWVER.addr then g.fwver.toNat
  else if GMB_CNT_SEAL.addr ≤ a ∧ a ≤ GMB_CNT_RESET.addr then s.gCnt ((a - GMB_CNT_SEAL.addr) / 4)
  else if a = GMB_LOG_HEAD.addr then
    laid v [(GMB_LOG_HEAD.HW, g.hwN), (GMB_LOG_HEAD.FW_NEXT, g.ringNext), (GMB_LOG_HEAD.FW_WRAP, g.ringWrap.toNat)]
  else v

/-- Other block registers as they read. -/
def State.blockView (s : State) (a v : Nat) : Nat :=
  let k := s.keySlot (s.fget CIPH_KEY_IDX.SLOT)
  if a = SYS_STATE.addr then laid v [(SYS_STATE.STATE, match s.sys.st with | .start => 0 | .run => 1 | .test => 2 | .recovery => 3)]
  else if a = PROT_AUD_HEAD.addr then s.prot.next + s.prot.full.toNat * 2 ^ 7 + s.prot.seq * 2 ^ 16
  else if a = PROT_PRES.addr then s.presRemain
  else if a = CNP_LANES.addr then
    laid v [(CNP_LANES.EN, maskOf ((List.range 16).filter fun n => s.fbit (LANE_CTRL.EN n))), (CNP_LANES.PIN, maskOf ((List.range 16).filter fun n => s.fbit (LANE_CFG.PIN n)))]
  else if a = TXM_STORE.addr then (List.range 5).foldl (fun v e => v + s.storeCode e * 4 ^ e) 0
  else if a = CAD_ASN_LO.addr then s.asnNow % 2 ^ 32
  else if a = CAD_ASN_HI.addr then s.asnNow / 2 ^ 32
  else if a = NBR_STALE_NOW.addr then laid v [(NBR_STALE_NOW.STALE, s.nbrCount s.nStale), (NBR_STALE_NOW.KA_DUE, s.nbrCount s.nKaDue)]
  else if a = CIPH_KEY_STAT.addr then k.valid.toNat + k.exhausted.toNat * 2 + k.size.toNat * 4
  else if a = CIPH_KEY_USES.addr then k.uses
  else if a = CIPH_KEY_FCNOW.addr then k.txFc
  else if a = CIPH_VALID.addr then s.keyValid
  else if a = CIPH_EXH.addr then s.keyExh
  else if DMA_STATn.addr 0 ≤ a ∧ a ≤ DMA_STATn.addr 7 ∧ (a - DMA_STATn.addr 0) % 0x20 = 0 then
    laid v [(⟨a, 0, 1⟩, (s.dmaActive ((a - DMA_STATn.addr 0) / 0x20)).toNat)]
  else if a = GPIO_INA.addr then s.pinsIn false
  else if a = GPIO_INB.addr then s.pinsIn true
  else v

/-- Value of a register as it reads, before any effect of the read. -/
def State.view (s : State) (a : Nat) : Nat :=
  let p := pageOf a
  let off := baseOff a
  let v := s.raw a
  if off = 0x008 then (if p ≤ Pg.LANE 15 then s.statLow p v else if p ≤ Pg.NTU ∨ p = Pg.DCA then s.statRadio p v else s.statHigh p v)
  else if off = 0x00C then s.intRaw p
  else if off = 0x014 then s.intPend p
  else if off < 0x040 then v
  else if p = Pg.TRF ∨ p = Pg.WEIR ∨ p = Pg.DCA then s.trafficView a v
  else if p = Pg.NTU then s.ntuView a v
  else if p = Pg.GMB then s.gmbView a v
  else if a = AVS_VAL.addr then laid v [(AVS_VAL.CUR, s.coreRail)]
  else s.blockView a v

/-! ## Reads -/

/-- Low words of the values that are read through a latch pair (R54). -/
def pairLows : List Nat :=
  [OVL_LAST_ASN_LO.addr, TXM_TSF_LO.addr, TXM_TSN_LO.addr, CAD_ASN_LO.addr, NTU_FRC_LO.addr, NTU_NT_LO.addr, NTU_OFFSET_LO.addr,
    NTU_ANCHOR_LO.addr, NTU_CORR_LO.addr] ++ wideLows ++ (List.range 16).map LANE_TS_LO.addr

/-- A master's latch of a high word is captured, or read. -/
def State.latchPut (s : State) (m : Master) (a v : Nat) : State :=
  let l := s.bus.latches.filter fun (h : Nat × Nat × Word) => !(h.1 == masterCode m && h.2.1 == a)
  { s with bus := { s.bus with latches := (masterCode m, a, BitVec.ofNat 32 v) :: l } }
def State.latchGet (s : State) (m : Master) (a : Nat) : Nat :=
  (((s.bus.latches.find? fun (h : Nat × Nat × Word) => h.1 == masterCode m && h.2.1 == a).map fun h => h.2.2).getD 0#32).toNat

/-- The next free value below `n`. -/
def State.freeBelow (s : State) (n : Nat) : State × Nat := (s.freeStep, s.free % n)

/-- Registers whose value the manual leaves open at an instant: the watchdog's count between its events, a PLL's lock, whether a cipher
core works just now, DBG_PC while Tanum-A runs. -/
def State.openRead (s : State) (a : Nat) : Option (State × Nat) :=
  if a = SYS_WDT_CNT.addr then some (s.freeBelow (s.raw a + 1))
  else if a = CLK_STAT.addr && s.fbit RFE_STAT.WB_ON then
    let r := s.freeBelow 2
    some (r.1, laid (s.view a) [(CLK_STAT.ADCPLL_LOCK, r.2)])
  else if a = CIPH_STAT.addr && (s.cipu.any (fun c => c.job.isSome) || s.upd.run.isSome || s.txBusy || s.rfe.window) then
    let r := s.freeBelow 2
    some (r.1, laid (s.view a) [(CIPH_STAT.BUSY, r.2)])
  else if a = DBG_PC.addr then (if s.coreA.halted then some (s, s.coreA.pc.toNat) else some (s.freeBelow (2 ^ 32)))
  else none

/-- Reads that take something: the pops of the traffic ports and FIFOs, the frozen calendar, captures, the mailbox. -/
def State.portRead (s : State) (m : Master) (a : Nat) : Option (State × Nat) :=
  let p := pageOf a
  let n := p - Pg.TMR 0
  if a = TRF_ALLOC.addr then some s.trfAllocPop
  else if a = TRF_DONE.addr then some (s.popChain s.trf.done fun l t => { t with done := l })
  else if a = TRF_RXQ.addr then some (s.popChain s.trf.rxq fun l t => { t with rxq := l })
  else if a = PSP_RXD.addr then some s.pspPop
  else if Pg.CIPU 0 ≤ p ∧ p ≤ Pg.CIPU 7 ∧ a = CIPU_DOUT.addr (p - Pg.CIPU 0) then some (s.cipuPop (p - Pg.CIPU 0))
  else if a = FLC_CBCNT.addr then some s.flcCount
  else if a = WEIR_CGREEN.addr then
    let k := s.fget WEIR_CSEL.METER
    some (s.setMeter k { s.meter k with green := 0 }, (s.meter k).green)
  else if a = WEIR_CYELLOW.addr then
    let k := s.fget WEIR_CSEL.METER
    some (s.setMeter k { s.meter k with yellow := 0 }, (s.meter k).yellow)
  else if a = WEIR_CRED.addr then
    let k := s.fget WEIR_CSEL.METER
    some (s.setMeter k { s.meter k with red := 0 }, (s.meter k).red)
  else if a = CAD_HOP_DATA.addr then some (s.hopNext, s.hopAt)
  else if a = TXM_FIR_DATA.addr then some (s.firNext, (s.tap (s.fget TXM_FIR_IDX.IDX)).toNat)
  else if a = DBG_REG_DATA.addr then some (s, if s.coreA.halted then (s.coreA.dbgGet (s.fget DBG_REG_IDX.IDX)).toNat else 0)
  else if a = RTC_TIME.addr then some (s.shadowRead (masterCode m) 0)
  else if a = RTC_DATE.addr then some (s.shadowRead (masterCode m) 1)
  else if a = RTC_SUBSEC.addr then some (s.shadowRead (masterCode m) 2)
  else if GMB_MB.addr 0 = a then some (s.mbRead0 m)
  else if GMB_MB.addr 0 < a ∧ a ≤ GMB_MB.addr 63 then some (s, s.snapWord m ((a - GMB_MB.addr 0) / 4))
  else if Pg.TMR 0 ≤ p ∧ p ≤ Pg.TMR 7 then
    match (List.range 4).find? fun k => a = TMR_CH_CAP.addr n k with
    | some k => some (s.fset ⟨TMR_STAT.addr n, 8 + k, 1⟩ 0, s.raw a)
    | none => none
  else none

/-- A read clears the RC fields of the register (R4). -/
def State.rcClear (s : State) (a : Nat) : State :=
  (descOf a).elim s fun d => if d.rc = 0#32 then s else s.rcShown a d.rc

/-- A read of a base register by a master, with its effects; what the lockstep domain holds back does not show (R35). -/
def State.readReg (s : State) (m : Master) (a : Nat) : State × Nat :=
  if pairLows.contains a then (s.latchPut m (a + 4) ((s.seen a).view (a + 4)), (s.seen a).view a)
  else if pairLows.contains (a - 4) then (s, s.latchGet m a)
  else match s.portRead m a with
    | some r => r
    | none => match s.openRead a with
      | some r => r
      | none => (s.rcClear a, (s.seen a).view a)

/-- A read of FRC or NT that passes the checks stalls until the wake handoff completes (R267). -/
def State.frcWaits (s : State) (m : Master) (a : Nat) : Bool :=
  s.ntu.handoff && isPage a && [NTU_FRC_LO.addr, NTU_FRC_HI.addr, NTU_NT_LO.addr, NTU_NT_HI.addr].contains (baseAddr a)
    && decide (s.judge m (s.sourceOf m) a false = .ok)

/-- A master's read of any register page; an alias reads its base register (R48). A read that stalls is not made yet. -/
def State.busRead (s : State) (m : Master) (a : Nat) : State :=
  if s.frcWaits m a then s else s.readAs m a fun s => s.readReg m (baseAddr a)

/-! ## The Glade window (R44) -/

/-- A word of the Glade window as it reads: the mailbox, the four pages without any effect on the Glade, the hardware log. -/
def State.windowWord (s : State) (m : Master) (o : Nat) : State × Nat :=
  if o = 0 then s.mbRead0 m
  else if o < 0x100 then (s, s.snapWord m (o / 4))
  else if 0x1000 ≤ o ∧ o < 0x5000 then
    let a := pageAddr (Pg.GCORE + (o / 0x1000 - 1)) (o % 0x400)
    if gladePair a then (s.latchPut m (a + 4) (s.gladeReg (a + 4)), s.gladeReg a)
    else if gladePair (a - 4) then (s, s.latchGet m a)
    else (s, s.gladeReg a)
  else if 0x5000 ≤ o ∧ o < 0x6000 then (s, s.glade.wordAt (0x38800 + (o - 0x5000)))
  else (s, 0)

/-- A read through the Glade window. -/
def State.gladeRd (s : State) (m : Master) (a : Nat) : State := s.windowRead m (·.windowWord m (a - 0x50000000))

end Sys2Proof.Machine
end

