-- ==== Sys2Proof/Machine/Operands.lean ====
section
/-!
DEFINITION. The encoding of Tanum instructions as far as a command's meaning rests on it (R318 to R323): lengths, which prefixes an opcode
accepts, illegal byte strings; conditions, and the operands of an instruction (R320 to R322).
-/
namespace Sys2Proof

/-! ## The opcode map (R323) -/

/-- Forms of the operand byte (R321); `bit` is R1 followed by a bit number. -/
inductive OpForm where | none | rr | ri | rm | rmPc | rs | rsTo | r1 | s1 | bit
  deriving DecidableEq, Repr

/-- What the map gives an opcode: operand form, bytes of immediate or displacement (those of RI follow its size code), and the prefixes it
accepts: repeat, condition, width, saturate. `sx` says that a sign-extending width is legal (R320). -/
structure OpInfo where
  form : OpForm
  imm : Nat := 0
  p : Bool := false
  c : Bool := false
  w : Bool := false
  s : Bool := false
  sx : Bool := false
  deriving DecidableEq, Repr

/-- Arithmetic opcodes 0x10 to 0x1D and 0x20 to 0x2D. -/
def aluInfo (form : OpForm) (k : Nat) : OpInfo :=
  { form := form, p := true, c := true, w := true, s := (1 ≤ k && k ≤ 4) || k = 10 || (k = 14 && form = .rr) }

/-- The opcode map. -/
def opInfo (o : Nat) : Option OpInfo :=
  if o = 0x00 then some { form := .none, p := true, c := true }
  else if 0x01 ≤ o ∧ o ≤ 0x03 then some { form := .none }
  else if o = 0x04 then some { form := .none, imm := 1 }
  else if o = 0x05 then some { form := .none, c := true }
  else if 0x10 ≤ o ∧ o ≤ 0x1F then some (aluInfo .rr (o - 0x10))
  else if 0x20 ≤ o ∧ o ≤ 0x2D then some (aluInfo .ri (o - 0x20))
  else if o = 0x32 ∨ o = 0x33 then some { form := .rr, p := true, c := true, s := true }
  else if 0x30 ≤ o ∧ o ≤ 0x35 then some { form := .rr, c := true }
  else if o = 0x36 then some { form := .none, c := true }
  else if o = 0x38 then some { form := .rs, c := true }
  else if o = 0x39 then some { form := .rsTo, c := true }
  else if o = 0x46 then some { form := .rm, imm := 2, c := true }
  else if (0x40 ≤ o ∧ o ≤ 0x45) ∨ (0x48 ≤ o ∧ o ≤ 0x4D) then
    let k := o % 8
    some { form := if k = 5 then .rmPc else .rm, imm := match k with | 1 => 1 | 2 => 2 | 5 => 2 | _ => 0
           p := k = 3 || k = 4, c := true, w := true, sx := o < 0x48 }
  else if o = 0x4E then some { form := .s1, c := true }
  else if o = 0x4F then some { form := .r1, c := true }
  else if 0x50 ≤ o ∧ o ≤ 0x52 then some { form := .none, p := true, c := true, w := true }
  else if o = 0x53 ∨ o = 0x54 then some { form := .none, p := true, c := true, w := true, s := true, sx := true }
  else if o = 0x60 then some { form := .none, imm := 1, c := true }
  else if o = 0x61 ∨ o = 0x62 then some { form := .none, imm := 2, c := true }
  else if o = 0x63 then some { form := .none, imm := 4, c := true }
  else if o = 0x64 ∨ o = 0x65 then some { form := .s1, c := true }
  else if o = 0x66 then some { form := .r1, imm := 1, c := true }
  else if 0x70 ≤ o ∧ o ≤ 0x72 then some { form := .bit, imm := 1, c := true }
  else if o = 0x73 then some { form := .rr, c := true }
  else none

/-! ## Prefixes (R318 to R320) -/

def Width.signed : Width → Bool | .w8s | .w16s => true | _ => false
def Width.bits : Width → Nat | .w8z | .w8s => 8 | _ => 16

/-- Bytes of the prefixes. -/
def Prefixes.len (p : Prefixes) : Nat :=
  (if p.rep.isSome then 2 else 0) + (if p.cond.isSome then 2 else 0) + (if p.width.isSome then 2 else 0) + (if p.sat then 1 else 0)

/-- The opcode accepts the prefixes, and they do not exclude each other. -/
def Prefixes.fits (p : Prefixes) (i : OpInfo) : Bool :=
  (p.rep.isNone || i.p) && (p.cond.isNone || i.c)
    && (match p.width with | none => true | some w => i.w && (!w.signed || i.sx) && !p.sat) && (!p.sat || i.s)

/-- Bytes of the operand byte. -/
def OpForm.len : OpForm → Nat | .none => 0 | _ => 1

/-- Length of an instruction whose immediate has `imm` bytes. -/
def insLen (p : Prefixes) (i : OpInfo) (imm : Nat) : Nat := p.len + 1 + i.form.len + imm

/-! ## Illegal byte strings (R329) -/

/-- An operand byte breaks its form. -/
def badOperand (f : OpForm) (b : Nat) : Bool :=
  match f with
  | .ri => b % 4 = 3 || b % 16 / 4 != 0
  | .rmPc => b % 16 != 0
  | .rs | .rsTo => 8 ≤ b % 16
  | .r1 | .bit => b % 16 != 0
  | .s1 => 16 ≤ b
  | _ => false

/-- Where the decode of an instruction ends as illegal for its prefixes or its length: how many bytes have been read by then. The length is known
with the opcode, with the size code of RI. -/
def decodeStop (p : Prefixes) (i : OpInfo) (imm : Nat) : Option Nat :=
  if p.sat && p.width.isSome then some p.len
  else if !p.fits i then some (p.len + 1)
  else if 8 < insLen p i imm then some (p.len + (if i.form = .ri then 2 else 1))
  else none

/-- From the opcode on: the prefixes before it have been read into `p`. How many bytes have been read where one makes the encoding illegal. -/
def illegalOp (p : Prefixes) : List Byte → Option Nat
  | [] => none
  | o :: l =>
    match opInfo o.toNat with
    | none => some (p.len + 1)
    | some i =>
      let imm := match i.form, l with | .ri, b :: _ => 2 ^ (b.toNat % 4) | _, _ => i.imm
      let operand := match l with
        | b :: l =>
          if badOperand i.form b.toNat then some (p.len + 2)
          else match i.form, l with | .bit, n :: _ => if 32 ≤ n.toNat then some (p.len + 3) else none | _, _ => none
        | [] => none
      if i.form = .ri && operand.isSome then operand else (decodeStop p i imm).or operand

/-- How many bytes of a string have been read where one makes the encoding illegal. `k` is the last kind of prefix read: 1 repeat, 2 condition,
3 width, 4 saturate. -/
def illegalFrom (p : Prefixes) (k : Nat) : List Byte → Option Nat
  | [] => none
  | b :: l =>
    let v := b.toNat
    if v < 0xF0 then illegalOp p (b :: l)
    else
      let kind := match v with | 0xF0 | 0xF1 | 0xF2 => 1 | 0xF4 => 2 | 0xF6 => 3 | 0xF7 => 4 | _ => 0
      if kind ≤ k || (v = 0xF7 && p.width.isSome) then some (p.len + 1)
      else if v = 0xF7 then illegalFrom { p with sat := true } 4 l
      else match l with
        | [] => none
        | a :: l =>
          let bad := some (p.len + 2)
          if v = 0xF0 then illegalFrom { p with rep := some (.rep a) } 1 l
          else if v = 0xF1 then illegalFrom { p with rep := some (.repi a) } 1 l
          else if v = 0xF2 then
            if h : a.toNat < 16 then illegalFrom { p with rep := some (.repr ⟨a.toNat, h⟩) } 1 l else bad
          else if v = 0xF4 then
            if h : a.toNat < 15 then illegalFrom { p with cond := some ⟨a.toNat, h⟩ } 2 l else bad
          else match a.toNat with
            | 0x08 => illegalFrom { p with width := some .w8z } 3 l
            | 0x10 => illegalFrom { p with width := some .w16z } 3 l
            | 0x88 => illegalFrom { p with width := some .w8s } 3 l
            | 0x90 => illegalFrom { p with width := some .w16s } 3 l
            | _ => bad

/-- Where the decode of a byte string ends as illegal. -/
def illegalAt (l : List Byte) : Option Nat := illegalFrom {} 0 l
/-- A byte string is an illegal encoding, as far as the given bytes show. -/
def illegalBytes (l : List Byte) : Bool := (illegalAt l).isSome

/-! ## Operands (R321, R322) -/

/-- Bytes of a source's immediate. -/
def Src.imm : Src → Nat | .reg _ => 0 | .imm8 _ => 1 | .imm16 _ => 2 | .imm32 _ => 4
def Src.isImm : Src → Bool | .reg _ => false | _ => true

/-- Bits an instruction operates on. -/
def Prefixes.bits (p : Prefixes) : Nat := match p.width with | some w => w.bits | none => 32
/-- Bytes of a memory access (R325). -/
def Prefixes.size (p : Prefixes) : Nat := p.bits / 8

/-- A loaded value extended to 32 bits. -/
def Prefixes.extend (p : Prefixes) (v : Nat) : Word :=
  match p.width with
  | some .w8s => (BitVec.ofNat 8 v).signExtend 32
  | some .w16s => (BitVec.ofNat 16 v).signExtend 32
  | _ => BitVec.ofNat 32 v

/-- Opcode of an addressing mode within the LD and ST groups. -/
def MemMode.code : MemMode → Nat
  | .base _ => 0 | .disp8 _ _ => 1 | .disp16 _ _ => 2 | .postInc _ => 3 | .preDec _ => 4 | .pcRel _ => 5

/-- Bytes of a mode's displacement. -/
def MemMode.imm : MemMode → Nat | .disp8 _ _ => 1 | .disp16 _ _ => 2 | .pcRel _ => 2 | _ => 0

/-- A branch displacement, and its bytes. -/
def Disp.value : Disp → Word | .d8 v => v.signExtend 32 | .d16 v => v.signExtend 32 | .d32 v => v
def Disp.bytes : Disp → Nat | .d8 _ => 1 | .d16 _ => 2 | .d32 _ => 4
/-- The repeat can be interrupted. -/
def Rep.interruptible : Rep → Bool | .rep _ => false | _ => true

namespace Machine

/-! ## Conditions (R320) -/

def Core.condition (c : Core) (k : Fin 15) : Bool :=
  match k.val with
  | 0 => c.flagZ | 1 => !c.flagZ | 2 => c.flagC | 3 => !c.flagC | 4 => c.flagN | 5 => !c.flagN | 6 => c.flagV | 7 => !c.flagV
  | 8 => c.flagC && !c.flagZ | 9 => !c.flagC || c.flagZ | 10 => c.flagN == c.flagV | 11 => c.flagN != c.flagV
  | 12 => !c.flagZ && c.flagN == c.flagV | 13 => c.flagZ || c.flagN != c.flagV | _ => true

/-- The condition of the prefixes holds. -/
def Core.holds (c : Core) (p : Prefixes) : Bool := match p.cond with | some k => c.condition k | none => true

/-- Value of a source: a register, or an immediate extended to 32 bits. -/
def Core.src (c : Core) : Src → Word
  | .reg r => c.reg r
  | .imm8 v => v.signExtend 32
  | .imm16 v => v.signExtend 32
  | .imm32 v => v

/-- The address a mode accesses with size `n`; PC is the address of the instruction (R295). -/
def Core.effAddr (c : Core) (n : Nat) : MemMode → Word
  | .base b => c.reg b
  | .disp8 b d => c.reg b + d.signExtend 32
  | .disp16 b d => c.reg b + d.signExtend 32
  | .postInc b => c.reg b
  | .preDec b => c.reg b - BitVec.ofNat 32 n
  | .pcRel d => c.pc + d.signExtend 32

/-- What the mode does to its base register. -/
def Core.baseStep (c : Core) (n : Nat) : MemMode → Core
  | .postInc b => c.setReg b (c.reg b + BitVec.ofNat 32 n)
  | .preDec b => c.setReg b (c.reg b - BitVec.ofNat 32 n)
  | _ => c

/-- The count of a repeat prefix on a fresh start, or what is left of it under RP (R304, R305). -/
def Core.repCount (c : Core) (r : Rep) : Nat :=
  if c.rp then c.rpc.toNat
  else match r with
    | .rep n => n.toNat
    | .repi n => n.toNat
    | .repr x => (c.reg x).toNat

end Machine

end Sys2Proof
end

