-- ==== Sys2Proof/WellFormed.lean ====
section
/-!
DEFINITION. Well-formed commands: operands that the manual's own rows can have. A meaning is defined for the others too.
-/
namespace Sys2Proof
open Sys2Proof.Machine

/-- Core, prefixes, opcode and bytes of the immediate of a Tanum instruction (R318, R323); none for the other commands. -/
def tanumForm : Instr → Option (CoreId × Prefixes × Nat × Nat)
  | .nop c p => some (c, p, 0x00, 0)
  | .sync c p => some (c, p, 0x01, 0)
  | .wait c p => some (c, p, 0x02, 0)
  | .reti c p => some (c, p, 0x03, 0)
  | .svc c p _ => some (c, p, 0x04, 1)
  | .ret c p => some (c, p, 0x05, 0)
  | .mov c p _ x => some (c, p, (if x.isImm then 0x20 else 0x10), x.imm)
  | .add c p _ x => some (c, p, (if x.isImm then 0x21 else 0x11), x.imm)
  | .adc c p _ x => some (c, p, (if x.isImm then 0x22 else 0x12), x.imm)
  | .sub c p _ x => some (c, p, (if x.isImm then 0x23 else 0x13), x.imm)
  | .sbc c p _ x => some (c, p, (if x.isImm then 0x24 else 0x14), x.imm)
  | .and c p _ x => some (c, p, (if x.isImm then 0x25 else 0x15), x.imm)
  | .or c p _ x => some (c, p, (if x.isImm then 0x26 else 0x16), x.imm)
  | .xor c p _ x => some (c, p, (if x.isImm then 0x27 else 0x17), x.imm)
  | .cmp c p _ x => some (c, p, (if x.isImm then 0x28 else 0x18), x.imm)
  | .tst c p _ x => some (c, p, (if x.isImm then 0x29 else 0x19), x.imm)
  | .shl c p _ x => some (c, p, (if x.isImm then 0x2A else 0x1A), x.imm)
  | .shr c p _ x => some (c, p, (if x.isImm then 0x2B else 0x1B), x.imm)
  | .sar c p _ x => some (c, p, (if x.isImm then 0x2C else 0x1C), x.imm)
  | .ror c p _ x => some (c, p, (if x.isImm then 0x2D else 0x1D), x.imm)
  | .neg c p _ _ => some (c, p, 0x1E, 0)
  | .not c p _ _ => some (c, p, 0x1F, 0)
  | .muls c p _ _ => some (c, p, 0x30, 0)
  | .mulu c p _ _ => some (c, p, 0x31, 0)
  | .macs c p _ _ => some (c, p, 0x32, 0)
  | .macu c p _ _ => some (c, p, 0x33, 0)
  | .mul32s c p _ _ => some (c, p, 0x34, 0)
  | .mul32u c p _ _ => some (c, p, 0x35, 0)
  | .clracc c p => some (c, p, 0x36, 0)
  | .movsFromSpecial c p _ _ => some (c, p, 0x38, 0)
  | .movsToSpecial c p _ _ => some (c, p, 0x39, 0)
  | .ld c p _ m => some (c, p, 0x40 + m.code, m.imm)
  | .st c p _ m => some (c, p, 0x48 + m.code, m.imm)
  | .lea c p _ _ _ => some (c, p, 0x46, 2)
  | .push c p _ => some (c, p, 0x4E, 0)
  | .pop c p _ => some (c, p, 0x4F, 0)
  | .cpy c p => some (c, p, 0x50, 0)
  | .fill c p => some (c, p, 0x51, 0)
  | .scan c p => some (c, p, 0x52, 0)
  | .macsm c p => some (c, p, 0x53, 0)
  | .macum c p => some (c, p, 0x54, 0)
  | .br c p d => some (c, p, (match d with | .d8 _ => 0x60 | _ => 0x61), d.bytes)
  | .call c p d => some (c, p, (match d with | .d32 _ => 0x63 | _ => 0x62), d.bytes)
  | .jmp c p _ => some (c, p, 0x64, 0)
  | .callr c p _ => some (c, p, 0x65, 0)
  | .dbnz c p _ _ => some (c, p, 0x66, 1)
  | .bset c p _ _ => some (c, p, 0x70, 1)
  | .bclr c p _ _ => some (c, p, 0x71, 1)
  | .btst c p _ _ => some (c, p, 0x72, 1)
  | .clz c p _ _ => some (c, p, 0x73, 0)
  | _ => none

/-- An opcode accepts the prefixes, and the instruction has at most 8 bytes. -/
def tanumOk : Prefixes × Nat × Nat → Bool
  | (p, o, n) => match opInfo o with | some i => p.fits i && insLen p i n ≤ 8 | none => false

/-- What a command's operands must satisfy beside that. -/
def operandsOk : Instr → Bool
  | .movsFromSpecial _ _ _ x => x.val < 8
  | .movsToSpecial _ _ x _ => x.val < 8
  | .br _ _ d => match d with | .d32 _ => false | _ => true
  | .call _ _ d => match d with | .d8 _ => false | _ => true
  | .illegalEncoding _ b => illegalBytes b
  | .ownWrite _ a _ => isProtReg (pageOf a.toNat) (baseOff a.toNat)
  | .latchPairLowRead _ a => pairLows.contains (baseAddr a.toNat)
  | .latchPairLowWrite _ a _ => wideLows.contains (baseAddr a.toNat)
  | .latchPairHighWrite _ a _ => wideLows.contains (baseAddr a.toNat - 4)
  | .preambleDetect _ l => !l.isEmpty && (l.map (·.1)).Nodup
  | .lastBitDecoded _ _ b => b.length ≤ 16 * 2050
  | .ldpcDecodeDone _ _ r => r.cw.length = 576
  | .sluiceConfigWrite _ o _ => o.toNat % 4 = 0
  | .entryAbort e _ => 2 ≤ e.val
  | .extNop c _ => c = 0#4 || 5 ≤ c.toNat
  | _ => true

/-- A command is well formed. -/
def Instr.wellFormed (i : Instr) : Bool := (match tanumForm i with | some f => tanumOk f.2 | none => true) && operandsOk i

end Sys2Proof
end

