-- ==== Sys2Proof/Decode.lean ====
section
/-!
DEFINITION. Decoding of a command word. No row of the command table gives its command any bits, so no word spells one.
-/
namespace Sys2Proof

/-- The command that a word spells by the table's bits: the table gives none of its rows any. -/
def decodeTableWord (_nbits _w : Nat) : Option Instr := none

end Sys2Proof
end

