-- ==== Sys2Proof/Machine/Boot.lean ====
section
/-!
DEFINITION. The boot ROM (R450 to R453): repair of slot records, choice of the image, configuration, calibration, and the jump to the image; and
the block effect of a write to any page, after which an overlay request that waits for Cadence's stop and a warm boot that is owed take place.
Readings of the manual made here: DESIGN CHOICE in log entries 2, 4, 13, 24; DEDUCED in log entry 26.
-/
namespace Sys2Proof.Machine
open Sys2Proof

/-- Block effect of a write to any page. -/
def anyHook (w : WCtx) (s : State) : State := if w.page = Pg.OVL then ovlHook coreHook w s else coreHook w s

/-- The boot ROM writes a register as Tanum-A. -/
def State.romWrite (s : State) (a v : Nat) : State := s.busWrite anyHook .tanumA a (BitVec.ofNat 32 v)

/-- A result bit of SYS_BOOT. -/
def State.bootBit (s : State) (n : Nat) : State := s.fset ⟨SYS_BOOT.addr, n, 1⟩ 1

/-! ## Steps 1 and 2 -/

/-- The HFXO runs, SYSPLL locks, the rail comes to what step 2 needs and the clock goes to step 2. -/
def State.bootClock (s : State) : State :=
  let s := s.setSys fun y => { y with hfxoStable := true, syspllLock := true }
  let s := s.romWrite AVS_CLK.addr 2
  let s := s.fset AVS_VAL.CUR (s.avsTarget s.avsWant)
  s.avsClamp.avsClock

/-- A block is erased, unless it is protected (R345). -/
def State.romErase (s : State) (b : Nat) : State :=
  if s.blockWp b then s else ((s.eraseBlock b).cacheDrop (b * 0x20000) ((b + 1) * 0x20000)).opMark 2 (b * 0x20000)

/-- An interrupted operation is reported, and repaired in BOOT blocks 2 and 3. -/
def State.bootRepair (s : State) : State :=
  let b := s.fget FLC_OPMARK.BLOCK
  if !s.fbit FLC_OPMARK.VALID || s.fbit FLC_OPMARK.DONE then s
  else
    let s := s.bootBit 7
    if b != 2 && b != 3 then s
    else match s.govern with
      | none => s.romErase b
      | some r =>
        if blockOf r.at' != b then s.romErase b
        else
          let body := leBytesN 4 0x534C4F54 ++ leBytesN 4 (r.seq + 1) ++ leBytesN 4 r.w2 ++ r.hash
          if s.blockWp (5 - b) then s
          else ((s.romErase (5 - b)).progList ((5 - b) * 0x20000) (body ++ leBytesN 4 (crc32 body))).romErase b

/-! ## Step 3: the image (R450, R452) -/

/-- The fields of a slot's header keep their rules. -/
def State.imgHeader (s : State) (a : Nat) : Bool :=
  let len := s.wordAt (a + 4)
  let ssp := s.wordAt (a + 12)
  let limit := s.wordAt (a + 20)
  s.wordAt a = 0x494D4731 && 1 ≤ len && len ≤ 3145696 && ssp % 4 = 0 && regionOf ssp = .sram && s.wordAt (a + 16) / 4 = 0
    && 100 ≤ limit && limit ≤ 65535 && s.wordAt (a + 28) = 0

/-- The header check of a slot: the header is read, then the image; answers whether it passes. -/
def State.imgCheck (s : State) (slot : Nat) : State × Bool :=
  let a := slotBase slot
  let h := s.rangeRead a 32
  if !(h.2 && h.1.imgHeader a) then (h.1, false)
  else
    let len := h.1.wordAt (a + 4)
    let r := h.1.rangeRead (a + 32) len
    (r.1, r.2 && r.1.imgHeader a && crc32 (r.1.listAt (a + 32) len) = r.1.wordAt (a + 24))

/-- A slot is checked; one that fails is abandoned for the other, if that is VALID or CONFIRMED and passes. -/
def State.checkSlot (s : State) (k : Nat) (trial : Bool) : State × Option (Nat × Bool) :=
  let w := s.slotWord
  let o := 1 - k
  let st := recState w o
  let c := s.imgCheck k
  if c.2 then (c.1, some (k, trial))
  else if st = 2 || st = 4 then
    let d := c.1.imgCheck o
    if d.2 then ((d.1.writeRecord (recPut (recSetState w k 5) 0 1 o) d.1.slotHash).bootBit 2, some (o, false)) else (d.1, none)
  else (c.1, none)

/-- Block 4 is restored from its journal, block 5, if the one can be read and the other written. -/
def State.journalBack (s : State) : State :=
  let q := s.rangeRead 0xA0000 0x10000
  if !q.2 || s.blockWp 4 then q.1
  else
    let cells := q.1.mem.filter fun c => 0xA0000 ≤ c.1 && c.1 < 0xB0000
    let s := cells.foldl (fun (s : State) c => s.setByte (c.1 - 0x20000) c.2) (q.1.romErase 4)
    (s.opMark 1 0x8FFFF).bootBit 8

/-- The image is selected from the governing record: a trial is abandoned or started, or the ACTIVE slot is checked. -/
def State.selectImage (s : State) : State × Option (Nat × Bool) :=
  let w := s.slotWord
  let a := recActive w
  let o := 1 - a
  let st := recState w a
  let s := s.rsetN UPD_SLOT.addr w
  if st = 3 then
    let s := s.bootBit 3
    let s := if recCfg w = 2 then s.journalBack else s
    let s := s.writeRecord (recPut (recSetState (recPut w 0 1 o) a 5) 7 2 0) s.slotHash
    s.checkSlot o false
  else if (st = 2 || st = 4) && recState w o = 3 then ((s.writeRecord (recPut w 0 1 o) s.slotHash).bootBit 1).checkSlot o true
  else s.checkSlot a false

/-! ## Steps 4 to 6 -/

/-- The configuration image is loaded from block 4, or from its journal while the record shows CFG 1; base and FIELD are applied. -/
def State.bootConfig (s : State) : State :=
  let b := if recCfg s.slotWord = 1 then 5 else 4
  let s := s.romWrite OVL_IMG_ADDR.addr (b * 0x20000)
  let old := s.fget OVL_STAT.LOAD_ERR
  let s := (s.fset OVL_STAT.LOAD_ERR 0).romWrite OVL_CMD.addr 1
  let s := if s.ovl.loading then s.loadEnd else s
  if s.fbit OVL_STAT.LOAD_ERR then s.bootBit 5
  else
    let s := (s.fset OVL_STAT.LOAD_ERR old).romWrite OVL_CMD.addr 2
    if (s.ovlOf 0).isSome then (s.romWrite OVL_REQ.addr 0x10).ovlSettle coreHook else s

/-- The calibrations without a result are requested. -/
def State.bootCal (s : State) : State :=
  (s.romWrite (viewAddr .set RFE_CTRL.addr) 1).romWrite RFE_CAL_REQ.addr (255 - s.fget RFE_CAL_STAT.VALID)

/-- Step 6: a trial's watchdog, the stack pointer and the jump. -/
def State.bootFinish (s : State) (e : BootEnd) : State :=
  let s := match e.trial with
    | some limit => s.romWrite SYS_WDT_CFG.addr (limit + s.fget SYS_WDT_CFG.WARN * 2 ^ 16 + 2 ^ 28 + s.fget SYS_WDT_CFG.DBGSTOP * 2 ^ 30)
    | none => s
  let s := s.setSys fun y => { y with boot := none }
  { s with coreA := { s.coreA with ssp := e.ssp, pc := e.pc } }

/-- A boot that waits for calibrations goes on when none runs or waits. -/
def State.bootGo (s : State) : State :=
  match s.sys.boot with
  | some e => if s.rfe.running.isNone && s.fget RFE_CAL_STAT.PEND = 0 then (s.bootBit 6).bootFinish e else s
  | none => s

/-- Loader mode (R453): the ROM waits for the host; where in the ROM its loop stands is open. -/
def State.bootLoader (s : State) : State :=
  let s := (s.bootBit 4).romWrite (viewAddr .set HSP_CTRL.addr) 1
  let s := { s.freeStep with coreA := { s.coreA with pc := BitVec.ofNat 32 (0x08000000 + s.free % 0x10000) } }
  let r := s.waitRequest
  if r.2 then { r.1 with coreA := { r.1.coreA with waiting := true } } else r.1

/-- The boot ROM's run, warm after a core reset (R451). -/
def State.boot (s : State) (warm : Bool) : State :=
  let s := (s.setSys fun y => { y with warm := false, boot := none }).rsetN SYS_BOOT.addr 0
  let s := if warm then s.bootBit 9 else s
  let r := s.bootClock.bootRepair.selectImage
  let s := if !warm && recCfg r.1.slotWord = 1 then r.1.updState 6 else r.1
  match r.2 with
  | none => s.bootLoader
  | some (k, trial) =>
    let a := slotBase k
    let flags := s.wordAt (a + 16)
    let e : BootEnd :=
      { ssp := BitVec.ofNat 32 (s.wordAt (a + 12)), pc := BitVec.ofNat 32 (a + s.wordAt (a + 8))
        trial := if trial then some (s.wordAt (a + 20)) else none }
    let s := if k = 1 then s.bootBit 0 else s
    let s := if !s.fbit CAD_CTRL.EN && bitOf flags 1 then s.bootConfig else s
    if !s.fbit CAD_CTRL.EN && bitOf flags 0 then (s.bootCal.setSys fun y => { y with boot := some e }).bootGo
    else s.bootFinish e

/-- A warm boot that is owed runs as soon as main flash can be read. -/
def State.bootPending (s : State) : State := if s.sys.warm && s.flash.op.isNone && s.sys.held.isNone then s.boot true else s

/-- The release of a held device: straps and boot (R447, R464). -/
def State.releaseBoot (s : State) (straps : Nat) : State :=
  if s.sys.held.isSome then (s.release straps).boot false else s

/-- Block effect of a write to any page, with what may follow it. -/
def pageHook (w : WCtx) (s : State) : State := ((anyHook w s).ovlSettle coreHook).bootPending

/-! ## What boot waits for -/

/-- A calibration completes. -/
def execCalDone (t : Frc) (bit : Fin 8) (inLimits : Bool) (s : State) : Host.Outcome State Fault Refusal :=
  .next (((s.advance t).calEnds bit.val inLimits).bootGo)

/-- The flash operation that runs ends. -/
def execFlashOpDone (ok : Bool) (pulses : BitVec 5) (corr : BitVec 9) (unc : Bool) (s : State) : Host.Outcome State Fault Refusal :=
  .next ((s.flashEnds ok pulses corr unc).updSettle.bootPending)

/-- The erase has stopped (R343). -/
def execEraseSuspended (s : State) : Host.Outcome State Fault Refusal :=
  .next (if s.flash.suspReq then (s.setFlash fun f => { f with susp := f.op, op := none, suspReq := false }).updSettle else s)

end Sys2Proof.Machine
end

