-- ==== Sys2Proof/Machine/BusRows.lean ====
section
/-!
DEFINITION. The commands of the register pages: writes without a row of their own, soft resets, protection registers, wide values (R47 to R64), the
overlay engine's registers (R65 to R75), Cadence's disable (R174), and the presence input (R62).
Readings of the manual made here: DEDUCED in log entries 10, 14, 15.
-/
namespace Sys2Proof.Machine
open Sys2Proof

/-! ## Register writes -/

/-- A write to a register by a master, judged under OWN and taking effect by field type. -/
def execRegisterWrite (m : Master) (addr v : Word) (s : State) : Host.Outcome State Fault Refusal :=
  .next (s.busWrite pageHook m addr.toNat v)

/-- A write of CTRL, whose SRST resets the page (R50). -/
def execSoftReset (a : Acc) (page : BitVec 6) (v : Word) (s : State) : Host.Outcome State Fault Refusal :=
  .next (s.writeReg pageHook a (CTRL.addr page.toNat) v)

/-- A write to a protection register (R56 to R60). -/
def execOwnWrite (m : Master) (addr v : Word) (s : State) : Host.Outcome State Fault Refusal :=
  .next (s.busWrite pageHook m addr.toNat v)

/-- The owner lock (R58). -/
def execOlockSet (a : Acc) (v : Word) (s : State) : Host.Outcome State Fault Refusal :=
  .next (s.writeReg pageHook a PROT_CTRL.addr v)

/-- The audit entry to show (R64). -/
def execProtAudIdxWrite (a : Acc) (v : Word) (s : State) : Host.Outcome State Fault Refusal :=
  .next (s.writeReg pageHook a PROT_AUD_IDX.addr v)

/-! ## Wide values (R54) -/

/-- A read of the low word latches the high word for the master. -/
def execLatchPairLowRead (m : Master) (addr : Word) (s : State) : Host.Outcome State Fault Refusal := .next (s.busRead m addr.toNat)
/-- A write of the low word is held for the master. -/
def execLatchPairLowWrite (m : Master) (addr v : Word) (s : State) : Host.Outcome State Fault Refusal :=
  .next (s.busWrite pageHook m addr.toNat v)
/-- A write of the high word takes effect with the held low word. -/
def execLatchPairHighWrite (m : Master) (addr v : Word) (s : State) : Host.Outcome State Fault Refusal :=
  .next (s.busWrite pageHook m addr.toNat v)

/-! ## Overlay engine -/

/-- A command written to OVL_CMD. -/
def State.ovlCmdWrite (s : State) (m : Master) (c : Word) : State := s.writeReg pageHook ⟨m, .base⟩ OVL_CMD.addr c
def execOvlLoad (m : Master) (s : State) : Host.Outcome State Fault Refusal := .next (s.ovlCmdWrite m 1#32)
def execApplyBase (m : Master) (s : State) : Host.Outcome State Fault Refusal := .next (s.ovlCmdWrite m 2#32)
def execOvlCancel (m : Master) (s : State) : Host.Outcome State Fault Refusal := .next (s.ovlCmdWrite m 3#32)
/-- A mode request; it is applied at once while Cadence is disabled. -/
def execOvlReqGo (a : Acc) (v : Word) (s : State) : Host.Outcome State Fault Refusal := .next (s.writeReg pageHook a OVL_REQ.addr v)

/-- A disable of Cadence: it stops at the end of the Tailrace, or at once without a slot. -/
def execCadDisable (a : Acc) (v : Word) (s : State) : Host.Outcome State Fault Refusal := .next (s.writeReg pageHook a CAD_CTRL.addr v)

/-! ## Presence input (R62) -/

def State.setProt (s : State) (f : ProtState → ProtState) : State := { s with prot := f s.prot }

/-- The filtered level of PRESENCE_N changes: a low period of 2 s or more gives a token for 58 s after its end. -/
def execPresenceNFilteredChange (t : Frc) (low : Bool) (s : State) : Host.Outcome State Fault Refusal :=
  let s := (s.advance t).gPresence low
  match s.prot.lowFrom with
  | none => .next (if low then s.setProt fun p => { p with lowFrom := some s.now } else s)
  | some a =>
    if low then .next s
    else .next (s.setProt fun p => { p with lowFrom := none, lastLong := if a + 2 * s.slowSecond ≤ s.now then some s.now else p.lastLong })

/-- A token comes into existence: TOKEN_GAIN. -/
def execTokenGain (t : Frc) (s : State) : Host.Outcome State Fault Refusal :=
  let s := s.advance t
  .next (if s.token && !s.prot.gained then (s.setProt fun p => { p with gained := true }).raise Pg.PROT 3 else s)

/-- The token has lapsed. -/
def execTokenLapse (t : Frc) (s : State) : Host.Outcome State Fault Refusal :=
  let s := s.advance t
  .next (if s.token then s else s.setProt fun p => { p with gained := false })

end Sys2Proof.Machine
end

