-- ==== Sys2Proof/Machine/Dma.lean ====
section
/-!
DEFINITION. An access of a master to any target of the interconnect (R11, R43 to R46), and the DMA controller (R350 to R352).
Readings of the manual made here: DEDUCED in log entry 102.
-/
namespace Sys2Proof.Machine
open Sys2Proof

/-! ## Any target (R11) -/

/-- How a page access ended. -/
def State.pageReach (s : State) : State × Reach := (s, if s.bus.err then .bus else .ok s.bus.data.toNat)

/-- A read of `n` bytes; register pages and the Glade window take aligned words only (R45). -/
def State.busLoad (s : State) (m : Master) (a n : Nat) : State × Reach :=
  match regionOf a with
  | .page => if n = 4 && a % 4 = 0 then (if s.frcWaits m a then (s, .stall) else (s.busRead m a).pageReach) else (s, .bus)
  | .glade => if n = 4 && a % 4 = 0 then (s.gladeRd m a).pageReach else (s, .bus)
  | _ => s.memRead m a n

/-- A write of `n` bytes. -/
def State.busStore (s : State) (m : Master) (a n v : Nat) : State × Reach :=
  match regionOf a with
  | .page =>
    if n = 4 && a % 4 = 0 then
      (s.busWrite pageHook m a (BitVec.ofNat 32 v), if s.judge m (s.sourceOf m) a true = .ok then .ok 0 else .bus)
    else (s, .bus)
  | _ => s.memWrite m a n v

/-! ## DMA -/

def execDmaChannelEnable (a : Acc) (ch : Fin 8) (v : Word) (s : State) : Host.Outcome State Fault Refusal :=
  .next (s.writeReg pageHook a (DMA_CFGn.addr ch.val) v)
def execDmaDisable (a : Acc) (ch : Fin 8) (v : Word) (s : State) : Host.Outcome State Fault Refusal :=
  .next (s.writeReg pageHook a (DMA_CFGn.addr ch.val) v)

/-- An event arrives at the channel's consumer. -/
def execDmaRequest (ch : Fin 8) (s : State) : Host.Outcome State Fault Refusal := .next (s.deliver (32 + ch.val)).1

/-- Of the channels with work, in round-robin order after the last one served, the first with the lowest PRIO (R351). -/
def State.dmaNext (s : State) : Option Nat :=
  ((List.range 8).map fun i => (s.dmaLast + 1 + i) % 8).foldl (fun (b : Option Nat) ch =>
    if !s.dmaActive ch then b
    else match b with
      | none => some ch
      | some x => if s.fget (DMA_CFGn.PRIO ch) < s.fget (DMA_CFGn.PRIO x) then some ch else b) none

/-- Bytes of a beat. -/
def State.dmaSize (s : State) (ch : Nat) : Nat := match s.fget (DMA_CFGn.SIZE ch) with | 0 => 1 | 1 => 2 | _ => 4

/-- A beat has failed: the channel stops (R352). -/
def State.dmaFail (s : State) (ch cause a : Nat) : State :=
  let s := (s.dmaStop ch).fset (DMA_STATn.ERR ch) 1
  ((s.fset (DMA_STATn.CAUSE ch) cause).rsetN (DMA_ERRADDRn.addr ch) a).raise Pg.DMA (8 + ch)

/-- A beat of a burst has been moved; the next request that waits opens a burst. -/
def State.dmaBurst (s : State) (ch : Nat) : State :=
  let d := s.dmaGet ch
  if d.burst = 0 then s
  else if d.burst = 1 && 0 < s.fget (DMA_STATn.PENDREQ ch) then
    (s.fset (DMA_STATn.PENDREQ ch) (s.fget (DMA_STATn.PENDREQ ch) - 1)).dmaPut ch { d with burst := s.fget (DMA_CFGn.BURST ch) + 1 }
  else s.dmaPut ch { d with burst := d.burst - 1 }

/-- SRC, DST and CNT after a beat, unless the write of the beat itself has reset them. -/
def State.dmaAdvance (s : State) (ch src dst cnt n : Nat) : State :=
  if s.raw (DMA_CNTn.addr ch) != cnt then s
  else
    let s := s.rsetN (DMA_SRCn.addr ch) (if s.fbit (DMA_CFGn.SINC ch) then (src + n) % 2 ^ 32 else src)
    let s := s.rsetN (DMA_DSTn.addr ch) (if s.fbit (DMA_CFGn.DINC ch) then (dst + n) % 2 ^ 32 else dst)
    let s := (s.rsetN (DMA_CNTn.addr ch) (cnt - 1)).dmaBurst ch
    if cnt = 1 then s.dmaDone ch else s

/-- One beat of a channel. A beat that the memory stalls is not taken yet. -/
def State.dmaBeat (s : State) (ch : Fin 8) : State :=
  let src := s.raw (DMA_SRCn.addr ch.val)
  let dst := s.raw (DMA_DSTn.addr ch.val)
  let cnt := s.raw (DMA_CNTn.addr ch.val)
  let n := s.dmaSize ch.val
  if (regionOf dst = .sram || regionOf dst = .rram) && s.memst.clear.contains (bankOf dst) then s
  else
    let r := s.busLoad (.dma ch) src n
    let t : State := { r.1 with dmaLast := ch.val }
    match r.2 with
    | .stall => s
    | .ok v =>
      let w := t.busStore (.dma ch) dst n v
      match w.2 with
      | .ok _ => w.1.dmaAdvance ch.val src dst cnt n
      | .stall => s
      | .ecc => w.1.dmaFail ch.val 1 dst
      | _ => w.1.dmaFail ch.val 2 dst
    | _ => t.dmaFail ch.val 1 src

/-- At a beat boundary the next channel with work moves a beat. -/
def execDmaBeat (s : State) : Host.Outcome State Fault Refusal :=
  if !s.fbit DMA_CTRL.EN || !s.busUp then .next s
  else match s.dmaNext with
    | some ch => if h : ch < 8 then .next (s.dmaBeat ⟨ch, h⟩) else .next s
    | none => .next s

end Sys2Proof.Machine
end

