-- ==== Sys2Proof/Machine/Flags.lean ====
section
/-!
DEFINITION. The arithmetic of Tanum and the flags it sets (R307, R323, R327).
Readings of the manual made here: DEDUCED in log entry 92.
-/
namespace Sys2Proof.Machine
open Sys2Proof

/-- Flags an operation writes; `none` leaves one unchanged. -/
structure FlagSet where
  c : Option Bool := none
  z : Option Bool := none
  n : Option Bool := none
  v : Option Bool := none
  deriving DecidableEq, Repr

def Core.putFlag (x : Core) (k : Nat) : Option Bool → Core
  | some b => x.setPsw k b
  | none => x
def Core.putFlags (x : Core) (f : FlagSet) : Core := (((x.putFlag 0 f.c).putFlag 1 f.z).putFlag 2 f.n).putFlag 3 f.v

/-- Outcome of an operation on `w` bits: the value (unsigned), the exact value that a clamp acts on, and C and V. -/
structure AluOut where
  r : Nat
  exact : Int
  c : Option Bool := none
  v : Option Bool := none
  deriving DecidableEq, Repr

/-- a + b + carry on `w` bits. -/
def aluAdd (w a b cin : Nat) : AluOut :=
  let x := signed w a + signed w b + (cin : Int)
  { r := (a + b + cin) % 2 ^ w, exact := x, c := some (2 ^ w ≤ a + b + cin), v := some (x < minS w || maxS w < x) }

/-- a - b - borrow on `w` bits: C is 1 when no borrow occurs. -/
def aluSub (w a b bin : Nat) : AluOut :=
  let x := signed w a - signed w b - (bin : Int)
  { r := (a + 2 ^ w + 2 ^ w - b - bin) % 2 ^ w, exact := x, c := some (b + bin ≤ a), v := some (x < minS w || maxS w < x) }

/-- A logical result. -/
def aluLogic (w r : Nat) : AluOut := { r := r % 2 ^ w, exact := signed w r }

/-- Shifts of `w` bits by `n`: C is the last bit shifted out, and a count of 0 leaves it unchanged. -/
def lastOut (n : Nat) (b : Bool) : Option Bool := if n = 0 then none else some b
def aluShl (w a n : Nat) : AluOut :=
  { r := a * 2 ^ n % 2 ^ w, exact := signed w a * (2 ^ n : Nat), c := lastOut n (bitOf (a * 2 ^ n) w) }
def aluShr (_w a n : Nat) : AluOut := { r := a / 2 ^ n, exact := a / 2 ^ n, c := lastOut n (bitOf a (n - 1)) }
def aluSar (w a n : Nat) : AluOut :=
  let x := signed w a
  { r := toField w (x / (2 ^ n : Nat)), exact := x / (2 ^ n : Nat), c := lastOut n (bitOf (toField (w + n) x) (n - 1)) }
def aluRor (w a n : Nat) : AluOut :=
  let k := n % w
  let r := (a / 2 ^ k + a * 2 ^ (w - k)) % 2 ^ w
  { r := r, exact := r, c := lastOut n (bitOf r (w - 1)) }

/-! ## The two-operand group (opcodes 0x10 to 0x1F) -/

/-- Operations of the group in the order of their opcodes. -/
inductive AluOp where | mov | add | adc | sub | sbc | and | or | xor | cmp | tst | shl | shr | sar | ror | neg | not
  deriving DecidableEq, Repr

def AluOp.code : AluOp → Nat
  | .mov => 0 | .add => 1 | .adc => 2 | .sub => 3 | .sbc => 4 | .and => 5 | .or => 6 | .xor => 7 | .cmp => 8 | .tst => 9
  | .shl => 10 | .shr => 11 | .sar => 12 | .ror => 13 | .neg => 14 | .not => 15
def AluOp.isShift : AluOp → Bool | .shl | .shr | .sar | .ror => true | _ => false
/-- The result is written to Wd. -/
def AluOp.writes : AluOp → Bool | .cmp | .tst => false | _ => true

/-- The operation on `w` bits: first and second operand, carry flag, shift count. -/
def aluDo (op : AluOp) (w a b : Nat) (c : Bool) (n : Nat) : AluOut :=
  match op with
  | .mov => aluLogic w b
  | .add => aluAdd w a b 0
  | .adc => aluAdd w a b c.toNat
  | .sub => aluSub w a b 0
  | .sbc => aluSub w a b (!c).toNat
  | .and => aluLogic w (a &&& b)
  | .or => aluLogic w (a ||| b)
  | .xor => aluLogic w (a ^^^ b)
  | .cmp => aluSub w a b 0
  | .tst => aluLogic w (a &&& b)
  | .shl => aluShl w a n
  | .shr => aluShr w a n
  | .sar => aluSar w a n
  | .ror => aluRor w a n
  | .neg => aluSub w 0 b 0
  | .not => aluLogic w (2 ^ w - 1 - b)

/-- The range a saturating prefix clamps to (R307). -/
def satLo : Int := -131072
def satHi : Int := 131071

/-- The flags of an outcome whose written value is `r` of `w` bits; MOV writes none, SHL to ROR leave V. -/
def aluFlags (op : AluOp) (w r : Nat) (o : AluOut) : FlagSet :=
  if op = .mov then {}
  else { c := o.c, z := some (r = 0), n := some (bitOf r (w - 1)), v := o.v }

/-- A shift count that the encoding of the register form leaves open: R323 names the count's bits for the immediate form only, so a
register of 32 or more shifts by a free count; counts above 32 act alike. -/
def shiftCount (isImm : Bool) (b free : Nat) : Nat := if isImm then b % 32 else if b < 32 then b else free % 256

/-- Wd with its low `w` bits replaced. -/
def lowPut (d : Word) (w r : Nat) : Word := BitVec.ofNat 32 (d.toNat / 2 ^ w * 2 ^ w + r % 2 ^ w)

/-- An instruction of the group on a core. -/
def Core.alu (x : Core) (op : AluOp) (p : Prefixes) (d : RegNo) (src : Src) (free : Nat) : Core :=
  let w := p.bits
  let a := (x.reg d).toNat % 2 ^ w
  let b := (x.src src).toNat % 2 ^ w
  let o := aluDo op w a b x.flagC (shiftCount src.isImm b free)
  let clamped := p.sat && (o.exact < satLo || satHi < o.exact)
  let r := if p.sat then toField 32 (clampI satLo satHi o.exact) else o.r
  let x := x.putFlags (aluFlags op w r o)
  let x := if clamped then x.setPsw 4 true else x
  if op.writes then x.setReg d (lowPut (x.reg d) w r) else x

/-- The free value is read only where the count is open. -/
def Core.openCount (x : Core) (op : AluOp) (p : Prefixes) (src : Src) : Bool :=
  op.isShift && !src.isImm && 32 ≤ (x.src src).toNat % 2 ^ p.bits

end Sys2Proof.Machine
end

