-- ==== Sys2Proof/Machine/CoreMem.lean ====
section
/-!
DEFINITION. A Tanum core's accesses: the MPU (R314), the caches (R315, R316), the core-private registers (R309 to R316), loads, stores and
fetches of Tanum-A (R11, R308) and of Tanum-G (R275, R317).
Readings of the manual made here: PRESUMED in log entry 30; DESIGN CHOICE in log entry 90; DEDUCED in log entries 93, 95.
-/
namespace Sys2Proof.Machine
open Sys2Proof

/-- A fault: its vector and what CORE_FAR and CORE_FINFO say of it (R308). Size codes: 0 to 2 data, 3 fetch. -/
structure Flt where
  vec : Nat
  far : Nat
  wr : Bool := false
  size : Nat := 3
  region : Nat := 0
  noreg : Bool := false
  deriving DecidableEq, Repr

/-- How a core's access or an instruction ends: done, with a fault, or not yet. -/
inductive Got where
  | ok (v : Nat) (s : State)
  | fault (f : Flt) (s : State)
  | stall
  deriving DecidableEq, Repr

def sizeCode (n : Nat) : Nat := match n with | 1 => 0 | 2 => 1 | _ => 2

/-! ## MPU (R314) -/

/-- A field of an MPU register as it is in force: a write takes effect from the next instruction. -/
def State.mpuGet (s : State) (f : Fld) : Nat :=
  match s.coreA.mpuOld.find? fun e => e.1 == f.addr with
  | some e => fieldGet e.2.toNat f
  | none => s.fget f

/-- A write of an instruction to an MPU register leaves the old value in force for it. -/
def State.mpuKeep (s : State) (a : Nat) : State :=
  if (a = MPU_CTRL.addr || (MPU_RSTART.addr 0 ≤ a && a ≤ MPU_RPERM.addr 15)) && !s.coreA.mpuOld.any (fun e => e.1 == a) then
    { s with coreA := { s.coreA with mpuOld := (a, s.rget a) :: s.coreA.mpuOld } }
  else s

/-- The region that governs an address. -/
def State.mpuRegion (s : State) (a : Nat) : Option Nat :=
  (List.range 16).find? fun n =>
    s.mpuGet (MPU_RSTART.EN n) = 1 && s.mpuGet (MPU_RSTART.START n) * 32 ≤ a && a ≤ s.mpuGet (MPU_REND.END n) * 32 + 31

/-- A permission code grants an access: 0 read, 1 write, 2 fetch. -/
def permits (code kind : Nat) : Bool :=
  match kind with
  | 0 => 1 ≤ code && code ≤ 4
  | 1 => code = 2 || code = 4
  | _ => 3 ≤ code && code ≤ 5

/-- One check; none where it passes, else the region and whether there was none. -/
def State.mpuCheck1 (s : State) (kind a : Nat) : Option (Nat × Bool) :=
  let user := s.coreA.user
  match s.mpuRegion a with
  | none => if user || s.mpuGet MPU_CTRL.SUPBG = 0 then some (0, true) else none
  | some n =>
    let code := s.mpuGet (if user then MPU_RPERM.USRP n else MPU_RPERM.SUPP n)
    let sec := !user && s.coreA.secure
    if permits code kind && (sec || s.mpuGet (MPU_RPERM.SECREQ n) = 0) then none else some (n, false)

/-- The check of an access of `n` bytes: at its first byte, and at its last where that lies outside the region. -/
def State.mpuCheck (s : State) (kind a n : Nat) : Option (Nat × Bool) :=
  if s.mpuGet MPU_CTRL.EN = 0 then none
  else match s.mpuCheck1 kind a with
    | some x => some x
    | none => if s.mpuRegion (a + n - 1) = s.mpuRegion a then none else s.mpuCheck1 kind (a + n - 1)

/-! ## Caches (R315) -/

/-- An access to an address is cacheable. -/
def State.cacheable (s : State) (a : Nat) : Bool :=
  let r := regionOf a
  match (if s.mpuGet MPU_CTRL.EN = 1 then s.mpuRegion a else none) with
  | some n => (r = .flash || r = .rom || r = .sram) && s.mpuGet (MPU_RPERM.CACHE n) = 1
  | none => r = .flash || r = .rom

def lineBase (a : Nat) : Nat := a / 32 * 32
def lineOf (l : List CLine) (a : Nat) : Option CLine := l.find? fun x => x.base == lineBase a

/-- The 32 bytes of a line can be read without error. -/
def State.lineClean (s : State) (b : Nat) : Bool :=
  !s.eccBad b 32 && !s.flash.indet.contains (b / 2048) && (s.flash.lines.all fun l => l.2 < 3 || !(l.1 = b / 16 || l.1 = b / 16 + 1))

/-- A line comes into a cache of `sets` sets of two ways. Which of two lines it replaces is free. -/
def putLine (sets free : Nat) (l : List CLine) (x : CLine) : List CLine :=
  match l.filter fun y => y.base / 32 % sets == x.base / 32 % sets with
  | a :: b :: _ => l.filter (fun y => y.base != (if free % 2 = 0 then a.base else b.base)) ++ [x]
  | _ => l ++ [x]

def State.lineAt (s : State) (a : Nat) : CLine := { base := lineBase a, data := s.listAt (lineBase a) 32 }
/-- The rest of a line is read to fill a cache: its errors are corrected, counted and recorded as those of any read (R331, R338). -/
def State.lineRead (s : State) (a : Nat) : State :=
  match regionOf a with
  | .flash => (s.flashRead (if a % 32 < 16 then lineBase a + 16 else lineBase a) 16).1
  | .sram => (s.eccSweep fun x => lineBase x = lineBase a).1
  | _ => s
def State.dFill (s : State) (a : Nat) : State :=
  let s := s.lineRead a
  if s.lineClean (lineBase a) then { s.freeStep with caches := { s.caches with dc := putLine 128 s.free s.caches.dc (s.lineAt a) } } else s
def State.iFill (s : State) (a : Nat) : State :=
  let s := s.lineRead a
  if s.lineClean (lineBase a) then { s.freeStep with caches := { s.caches with ic := putLine 256 s.free s.caches.ic (s.lineAt a) } } else s

/-- A line whose parity is wrong is invalidated where an access meets it, and counted; it is fetched again like a missing one. -/
def State.dParity (s : State) (a : Nat) : State :=
  if (lineOf s.caches.dc a).any (·.bad) then
    ({ s with caches := { s.caches with dc := s.caches.dc.filter fun x => x.base != lineBase a } } : State).finc CACHE_STAT.PERR
  else s
def State.iParity (s : State) (a : Nat) : State :=
  if (lineOf s.caches.ic a).any (·.bad) then
    ({ s with caches := { s.caches with ic := s.caches.ic.filter fun x => x.base != lineBase a } } : State).finc CACHE_STAT.PERR
  else s

/-- A store that meets a line writes it through. -/
def State.dWrite (s : State) (a n v : Nat) : State :=
  let f := fun (x : CLine) =>
    if x.base == lineBase a then { x with data := (List.range n).foldl (fun d i => setAt d (a - x.base + i) (BitVec.ofNat 8 (v / 256 ^ i))) x.data }
    else x
  { s with caches := { s.caches with dc := s.caches.dc.map f } }

/-! ## Core-private registers -/

/-- A read; reserved offsets read 0. -/
def State.privRead (s : State) (a : Nat) : State × Nat :=
  (descOf a).elim (s, 0) fun _ =>
    if ICU_PEND.addr 0 ≤ a && a ≤ ICU_PEND.addr 2 then (s, s.icuPend ((a - ICU_PEND.addr 0) / 4))
    else if a = ICU_STAT.addr then (s, s.icuStat)
    else if a = CACHE_STAT.addr then (s.fset CACHE_STAT.PERR 0, fieldPut (s.raw a) CACHE_STAT.BUSY s.caches.inv.toNat)
    else (s, s.raw a)

/-- IINV and DINV: the lines go, and the caches are busy until the invalidation ends (R316). -/
def State.cacheCtrl (s : State) (i d : Bool) : State :=
  let s := (s.fset CACHE_CTRL.IINV 0).fset CACHE_CTRL.DINV 0
  { s with caches := { ic := if i then [] else s.caches.ic, dc := if d then [] else s.caches.dc, inv := s.caches.inv || i || d } }

/-- A write; there are no alias views. -/
def State.privWrite (s : State) (a : Nat) (v : Word) : State :=
  (descOf a).elim s fun d =>
    if ICU_PEND.addr 0 ≤ a && a ≤ ICU_PEND.addr 2 then
      (onesOf 32 v.toNat).foldl (fun s j => s.irqClear ((a - ICU_PEND.addr 0) / 4 * 32 + j)) s
    else if a = CACHE_INV.addr then s.cacheDrop (lineBase v.toNat) (lineBase v.toNat + 32)
    else
      let s := s.rset a (writeValue d .base (s.rget a) v)
      if a = CACHE_CTRL.addr then s.cacheCtrl (bitOf v.toNat 2) (bitOf v.toNat 3) else s

/-! ## Loads and stores of Tanum-A (R308) -/

/-- What stops a data access before it is made: private space in user mode, then the MPU. -/
def State.dataFault (s : State) (wr : Bool) (a n : Nat) : Option Flt :=
  if regionOf a = .priv then
    (if s.coreA.user then some ⟨6, a, wr, sizeCode n, 0, false⟩
    else if n = 4 && a % 4 = 0 then none else some ⟨2, a, wr, sizeCode n, 0, false⟩)
  else match s.mpuCheck (if wr then 1 else 0) a n with
    | some (r, nr) => some ⟨4, a, wr, sizeCode n, r, nr⟩
    | none => none

/-- Vector of an access that failed. -/
def reachVec : Reach → Nat | .ecc => 9 | .align => 7 | _ => 2

/-- How a bus access of Tanum-A ends for the instruction. -/
def gotOf (wr : Bool) (a n : Nat) (r : State × Reach) : Got :=
  match r.2 with
  | .ok v => .ok v r.1
  | .stall => .stall
  | e => .fault ⟨reachVec e, a, wr, sizeCode n, 0, false⟩ r.1

/-- A load by Tanum-A. -/
def State.loadA (s : State) (a n : Nat) : Got :=
  match s.dataFault false a n with
  | some f => .fault f s
  | none =>
    if regionOf a = .priv then let r := s.privRead a; .ok r.2 r.1
    else if !(s.fbit CACHE_CTRL.DEN && s.cacheable a && a % n = 0) then gotOf false a n (s.busLoad .tanumA a n)
    else if s.caches.inv then .stall
    else
      let s := s.dParity a
      match lineOf s.caches.dc a with
      | some l => .ok (leNatB ((l.data.drop (a - l.base)).take n)) s
      | none => match gotOf false a n (s.busLoad .tanumA a n) with
        | .ok v t => .ok v (t.dFill a)
        | r => r

/-- A store by Tanum-A. `fin` is what the instruction does to the core when the store succeeds; it takes effect first, since the store may
reset the core. -/
def State.storeA (s : State) (a n v : Nat) (fin : Core → Core) : Got :=
  match s.dataFault true a n with
  | some f => .fault f s
  | none =>
    let t : State := { s with coreA := fin s.coreA }
    if regionOf a = .priv then .ok 0 ((t.mpuKeep a).privWrite a (BitVec.ofNat 32 v))
    else if s.fbit CACHE_CTRL.DEN && s.cacheable a && s.caches.inv then .stall
    else match gotOf true a n (t.busStore .tanumA a n v) with
      | .ok x u => .ok x (u.dWrite a n v)
      | .fault f u => .fault f { u with coreA := s.coreA }
      | .stall => .stall

/-! ## Loads and stores of Tanum-G (R275, R317) -/

/-- The address lies in Glade flash or SRAM. -/
def gladeMem (a : Nat) : Bool := a < 0x40000 || (gladeSram ≤ a && a < gladeSram + 0x8000)
/-- A register page of the Glade. -/
def gladePage (a : Nat) : Bool := 0x50001000 ≤ a && a < 0x50005000

def gFault (vec a n : Nat) (wr : Bool) (s : State) : Got := .fault ⟨vec, a, wr, sizeCode n, 0, false⟩ s

/-- A load by Tanum-G. The layout of the counters' pages is not given: they read free values. -/
def State.loadG (s : State) (a n : Nat) : Got :=
  if gladePage a then
    (if n = 4 && a % 4 = 0 then let r := s.gladeRead a; .ok r.2 r.1 else gFault 2 a n false s)
  else if !gladeMem a then gFault 2 a n false s
  else if a % n != 0 then gFault 7 a n false s
  else if 0x38000 ≤ a && a < 0x38800 then .ok (s.free % 256 ^ n) s.freeStep
  else let s := s.gReads a (a + n); .ok (leNatB (s.glade.listAt a n)) s

/-- A store by Tanum-G: SRAM, the data area and the register pages. -/
def State.storeG (s : State) (a n v : Nat) (fin : Core → Core) : Got :=
  let t : State := { s with coreG := fin s.coreG }
  if gladePage a then
    (if n = 4 && a % 4 = 0 then .ok 0 (t.gladeWrite a (BitVec.ofNat 32 v)) else gFault 2 a n true s)
  else if !gladeMem a then gFault 2 a n true s
  else if a % n != 0 then gFault 7 a n true s
  else if gladeSram ≤ a || (0x34000 ≤ a && a < 0x38000) then .ok 0 (t.setGlade fun g => g.setList a (leBytesN n v))
  else gFault 2 a n true s

/-! ## Either core -/

def State.load (s : State) (c : CoreId) (a n : Nat) : Got := match c with | .a => s.loadA a n | .g => s.loadG a n
def State.store (s : State) (c : CoreId) (a n v : Nat) (fin : Core → Core) : Got :=
  match c with | .a => s.storeA a n v fin | .g => s.storeG a n v fin

/-! ## Fetch (R11, R308, R315, R329) -/

/-- A fetch from an address goes through the instruction cache. -/
def State.iCacheable (s : State) (a : Nat) : Bool := s.fbit CACHE_CTRL.IEN && regionOf a != .sram && s.cacheable a

/-- One byte is fetched by Tanum-A: main flash, boot ROM or SRAM, outside the private space as the MPU grants it. -/
def State.fetchByte (s : State) (a : Nat) : Got :=
  let r := regionOf a
  let bad : Flt := ⟨1, a, false, 3, 0, false⟩
  match (if r = .priv then none else s.mpuCheck 2 a 1) with
  | some (g, nr) => .fault ⟨3, a, false, 3, g, nr⟩ s
  | none =>
    if !(r = .flash || r = .rom || r = .sram) then .fault bad s
    else if s.iCacheable a && s.caches.inv then .stall
    else
      let s := if s.iCacheable a then s.iParity a else s
      if s.iCacheable a && (lineOf s.caches.ic a).isSome then .ok 0 s
      else
        let t := s.memRead .tanumA a 1
        match t.2 with
        | .ok _ => .ok 0 (if s.iCacheable a then t.1.iFill a else t.1)
        | .stall => .stall
        | _ => .fault bad t.1

/-- The `n` bytes from `a` on are fetched in order. -/
def State.fetchBytes (s : State) (a : Nat) : Nat → Got
  | 0 => .ok 0 s
  | n + 1 => match s.fetchByte a with
    | .ok _ t => t.fetchBytes (a + 1) n
    | r => r

/-- The first `n` bytes at PC are fetched, in order. -/
def State.fetch (s : State) (c : CoreId) (n : Nat) : Got :=
  let a := (s.core c).pc.toNat
  match c with
  | .a => s.fetchBytes a n
  | .g => match (List.range n).find? fun i => !gladeMem (a + i) with
    | some i => .fault ⟨1, a + i, false, 3, 0, false⟩ s
    | none => .ok 0 s

end Sys2Proof.Machine
end

