-- ==== Sys2Proof/Machine/Except.lean ====
section
/-!
DEFINITION. Exceptions and interrupts of the Tanum cores: entry (R303, R305, R308 to R312, R317), double faults, the engine that every
instruction runs in with its prefixes (R304 to R306, R318 to R320, R329), breakpoints and steps (R461).
Readings of the manual made here: DESIGN CHOICE in log entries 13, 90; DEDUCED in log entries 91, 93, 95, 96.
-/
namespace Sys2Proof.Machine
open Sys2Proof

/-! ## Entry (R311) -/

/-- What an exception is: a fault, a trap (SVC or a breakpoint), or an interrupt line with its level. -/
inductive Cause where
  | fault
  | trap
  | line (n lvl : Nat)
  deriving DecidableEq, Repr

/-- A double fault (R312): Tanum-A takes a core reset, Tanum-G a Glade reset, whose cause the log's list does not hold. -/
def State.doubleFault (s : State) : CoreId → State
  | .a => ((s.coreReset cDFAULT).wdtLoad).bootPending
  | .g => s.freeStep.gladeReset s.free

/-- The words are pushed, the lowest address first. -/
def State.pushWords (s : State) (c : CoreId) (a : Nat) : List Word → Got
  | [] => .ok 0 s
  | w :: l => match s.store c a 4 w.toNat id with
    | .ok _ t => t.pushWords c (a + 4) l
    | r => r

/-- Address of a vector's entry. -/
def State.vectorAt (s : State) (c : CoreId) (vec : Nat) : Nat :=
  match c with | .a => s.raw ICU_VBAR.addr + 4 * vec | .g => 0x10 + 4 * vec

/-- PSW in a handler. -/
def handlerPsw (c : CoreId) (hs : Bool) (x : Core) : Cause → Word
  | k =>
    let p := putBit (putBit x.psw 13 false) 16 false
    let p := match c with | .a => putBit p 14 hs | .g => p
    match k with
    | .fault => putBit (putBit p 12 false) 15 true
    | .trap => p
    | .line _ lvl => (p &&& ~~~0xF00#32) ||| BitVec.ofNat 32 (lvl % 16 * 2 ^ 8)

/-- A line is entered: its active bit is set, its latch and SWP bit clear. -/
def State.lineEntered (s : State) (c : CoreId) (n : Nat) : State :=
  match c with
  | .a => (s.irqClear n).fset ⟨ICU_ACT.addr (n / 32), n % 32, 1⟩ 1
  | .g => (if n = 4 || n = 11 then s else s.gUnline n).fset ⟨GCORE_IACT.addr, n, 1⟩ 1

/-- A line's handler has returned. -/
def State.lineLeft (s : State) (c : CoreId) (vec : Nat) : State :=
  match c with
  | .a => if 32 ≤ vec && vec < 128 then s.fset ⟨ICU_ACT.addr ((vec - 32) / 32), (vec - 32) % 32, 1⟩ 0 else s
  | .g => if 16 ≤ vec && vec < 32 then s.fset ⟨GCORE_IACT.addr, vec - 16, 1⟩ 0 else s

/-- Exception entry with PC, PSW and RPC as they stand in the core. None while a memory stalls it. -/
def State.enter (s : State) (c : CoreId) (vec : Nat) (k : Cause) : Option State :=
  let s := s.setCore c (s.core c).landAll
  let x := s.core c
  if (k = .fault && x.inFault) || x.ssp.toNat % 4 != 0 then some (s.doubleFault c)
  else
    let sp := x.ssp - 16#32
    let t := s.setCore c { x with psw := putBit x.psw 13 false }
    match t.pushWords c sp.toNat [x.pc, x.psw, x.rpc, BitVec.ofNat 32 vec] with
    | .stall => none
    | .fault _ u => some (u.doubleFault c)
    | .ok _ u => match u.load c (s.vectorAt c vec) 4 with
      | .stall => none
      | .fault _ u => some (u.doubleFault c)
      | .ok v u =>
        let y := { x with ssp := sp, psw := handlerPsw c (u.fbit CORE_CTRL.HS) x k, pc := BitVec.ofNat 32 v, matched := false, waiting := false
                          atomic := false, mpuOld := [], edge := (u.core c).edge }
        let u := u.setCore c y
        some (match k with | .line n _ => u.lineEntered c n | _ => u)

/-- CORE_FAR and CORE_FINFO describe a fault of Tanum-A. -/
def State.faultInfo (s : State) (c : CoreId) (f : Flt) : State :=
  match c with
  | .g => s
  | .a =>
    let w := f.vec + (if f.wr then 2 ^ 8 else 0) + (if s.coreA.user then 2 ^ 9 else 0) + f.size * 2 ^ 10 + f.region * 2 ^ 12
      + (if f.noreg then 2 ^ 16 else 0)
    (s.rsetN CORE_FAR.addr f.far).rsetN CORE_FINFO.addr w

/-- A fault is taken. -/
def State.takeFault (s : State) (c : CoreId) (f : Flt) : Option State := (s.faultInfo c f).enter c f.vec .fault

/-- After an instruction or an iteration of a STEP the core stands again, with its multiplies landed. -/
def State.stepEnd (s : State) : State :=
  if s.coreA.stepping then { s with coreA := { s.coreA.landAll with stepping := false } } else s

/-- A stalled command leaves the machine as it was. -/
def State.orStall (s : State) (c : CoreId) : Option State → State
  | some t => (match c with | .a => t.stepEnd | .g => t)
  | none => s

/-! ## Breakpoints (R461) -/

/-- The enabled breakpoint that matches the instruction at PC. -/
def State.bpMatch (s : State) : Option Nat :=
  if s.coreA.matched then none
  else (List.range 4).find? fun n => s.fbit (DBG_BP_CFG.EN n) && s.rget (DBG_BP_ADDR.addr n) = s.coreA.pc

/-- A breakpoint halts the core, or raises vector 10. -/
def State.bpTake (s : State) (n : Nat) : State :=
  let t := (s.fset DBG_STAT.BKPT 1).fset DBG_STAT.BKPT_IDX n
  if s.fbit (DBG_BP_CFG.ACT n) then s.orStall .a (t.enter .a 10 .trap)
  else { t with coreA := { t.coreA.landAll with halted := true, stepping := false, matched := true } }

/-- The breakpoint that stops an instruction of a core. -/
def State.bpStops (s : State) (c : CoreId) : Option Nat := match c with | .a => s.bpMatch | .g => none

/-! ## The engine -/

/-- An instruction qualifies for interruption by a line. -/
def State.lineWaits (s : State) : CoreId → Bool
  | .a => s.irqTaken.isSome
  | .g => s.gTaken.isSome

/-- PC, RPC and RP after an instruction: `to'` is where a branch goes. -/
def finish (next : Word) (to' : Option Word) (x : Core) : Core :=
  { x with pc := to'.getD next, matched := false, waiting := false, atomic := false }

/-- What one execution of an instruction does: it gets what to do to the core's PC on success. -/
abbrev Body := (Option Word → Core → Core) → State → Got

/-- The core after an iteration with `k` still to run. -/
def finishRep (next : Word) (k : Nat) (_ : Option Word) (x : Core) : Core :=
  if k = 0 then { x with rpc := 0, psw := putBit x.psw 16 false, pc := next, matched := false, waiting := false, atomic := false }
  else { x with rpc := BitVec.ofNat 32 k, waiting := false }

/-- A repeat stops with `k` iterations to run: RP is set and PC stands. `atomic` says that no interrupt may be taken before it goes on. -/
def State.repStop (s : State) (c : CoreId) (k : Nat) (atomic : Bool := false) : State :=
  let x := s.core c
  s.setCore c { x with rpc := BitVec.ofNat 32 k, psw := putBit x.psw 16 true, waiting := false, atomic := atomic }

/-- Iterations of a repeated instruction, `k` to run (R304 to R306). -/
def State.repRun (c : CoreId) (p : Prefixes) (next : Word) (intr : Bool) (b : Body) : Nat → State → Option State
  | 0, s => some (s.setCore c (finishRep next 0 none (s.core c)))
  | k + 1, s =>
    let x := s.core c
    if !x.holds p then
      some (s.setCore c { finish next none x with rpc := BitVec.ofNat 32 (k + 1), psw := putBit x.psw 16 false })
    else match b (finishRep next k) s with
      | .stall => some (s.repStop c (k + 1) (!intr))
      | .fault f t => (t.repStop c (k + 1)).takeFault c f
      | .ok _ t =>
        if k = 0 || (t.core c).rpc != BitVec.ofNat 32 k then some t
        else if (intr && t.lineWaits c) || (t.coreA.stepping && c = .a) then some (t.repStop c k)
        else State.repRun c p next intr b k t

/-- An instruction after its bytes have been fetched and found legal. -/
def State.runBody (s : State) (c : CoreId) (p : Prefixes) (next : Word) (b : Body) : Option State :=
  match p.rep with
  | some r => State.repRun c p next r.interruptible b ((s.core c).repCount r) s
  | none =>
    if !(s.core c).holds p then some (s.setCore c (finish next none (s.core c)))
    else match b (finish next) s with
      | .ok _ t => some t
      | .fault f t => t.takeFault c f
      | .stall => none

/-- A core has ended an instruction: what it wrote to the MPU is in force (R314). -/
def State.mpuLand (c : CoreId) (s : State) : State := s.setCore c { s.core c with mpuOld := [] }

/-- An instruction of a core: opcode, bytes of its immediate, and what it does. Its bytes are fetched up to the one that makes the encoding
illegal, for a prefix that the opcode does not accept or a length above 8 (R329); `priv` marks what user mode may not execute (R298), which a
false condition keeps from being executed (R306). -/
def State.instr (s : State) (c : CoreId) (p : Prefixes) (op imm : Nat) (priv : Bool) (b : Body) : Host.Outcome State Fault Refusal :=
  if !s.coreRuns c then .next s
  else match s.bpStops c with
    | some n => .next (s.bpTake n)
    | none =>
      let x := s.core c
      let illegal : Flt := ⟨5, x.pc.toNat, false, 3, 0, false⟩
      match opInfo op with
      | none => .next (s.orStall c (s.takeFault c illegal))
      | some i =>
        let n := insLen p i imm
        let stop := decodeStop p i imm
        match s.fetch c (stop.getD n) with
        | .stall => .next s
        | .fault f t => .next (s.orStall c (t.takeFault c f))
        | .ok _ t =>
          if stop.isSome then .next (s.orStall c (t.takeFault c illegal))
          else if priv && x.user && x.holds p then .next (s.orStall c (t.takeFault c ⟨6, x.pc.toNat, false, 3, 0, false⟩))
          else .next (s.orStall c ((t.runBody c p (x.pc + BitVec.ofNat 32 n) b).map (State.mpuLand c)))

/-- A body that only changes the core. -/
def coreBody (c : CoreId) (f : Core → Core) : Body := fun fin s => .ok 0 (s.setCore c (fin none (f (s.core c))))

/-! ## Commands -/

/-- A qualifying interrupt is taken (R310), not inside a repeat by 0xF0 (R305). A core that a flash operation stalls takes none whose handler lies in flash (R339). -/
def State.flashStalls (s : State) (n : Nat) : Bool :=
  match s.fetch .a 1 with
  | .stall => (match s.load .a (s.vectorAt .a (32 + n)) 4 with | .ok v _ => regionOf v = .flash | _ => true)
  | _ => false

def execExceptionEntry (c : CoreId) (s : State) : Host.Outcome State Fault Refusal :=
  if !s.coreRuns c || (s.core c).atomic then .next s
  else match c with
    | .a => match s.irqTaken with
      | some n => if s.flashStalls n then .next s else .next (s.orStall .a (s.enter .a (32 + n) (.line n (s.irqLevel n))))
      | none => .next s
    | .g => match s.gTaken with
      | some n => .next (s.orStall .g (s.enter .g (16 + n) (.line n (s.gLevel n))))
      | none => .next s

/-- Byte `k` of the instruction at PC cannot be fetched, or one before it (R329); a byte that can be fetched is no error. -/
def execFetchBusError (c : CoreId) (k : Fin 8) (s : State) : Host.Outcome State Fault Refusal :=
  if !s.coreRuns c then .next s
  else match s.bpStops c with
    | some n => .next (s.bpTake n)
    | none => match s.fetch c (k.val + 1) with
      | .fault f t => .next (s.orStall c (t.takeFault c f))
      | _ => .next s

/-- An illegal byte string at PC (R329), fetched up to the byte that makes it so; a legal one is no illegal encoding. -/
def execIllegalEncoding (c : CoreId) (bytes : List Byte) (s : State) : Host.Outcome State Fault Refusal :=
  match (if s.coreRuns c then illegalAt bytes else none) with
  | none => .next s
  | some k => match s.bpStops c with
    | some n => .next (s.bpTake n)
    | none => match s.fetch c k with
      | .stall => .next s
      | .fault f t => .next (s.orStall c (t.takeFault c f))
      | .ok _ t => .next (s.orStall c (t.takeFault c ⟨5, (s.core c).pc.toNat, false, 3, 0, false⟩))

/-- A multiplier result lands: the oldest operation in flight. -/
def execMultiplyLands (c : CoreId) (s : State) : Host.Outcome State Fault Refusal := .next (s.setCore c (s.core c).land)

/-- Breakpoint `n` matches the instruction that Tanum-A is about to execute. -/
def execBreakpointMatch (n : Fin 4) (s : State) : Host.Outcome State Fault Refusal :=
  .next (if s.coreRuns .a && s.bpMatch = some n.val then s.bpTake n.val else s)

/-! ## Caches and debug page -/

/-- A write by Tanum-A's firmware to a core-private register; user mode takes the privilege fault (R298). -/
def State.privStore (s : State) (a : Nat) (v : Word) : Host.Outcome State Fault Refusal :=
  if !s.coreRuns .a then .next s
  else match s.storeA a 4 v.toNat id with
    | .ok _ t => .next (t.mpuLand .a)
    | .fault f t => .next (s.orStall .a (t.takeFault .a f))
    | .stall => .next s
def execCacheInv (v : Word) (s : State) : Host.Outcome State Fault Refusal := s.privStore CACHE_INV.addr v
def execIcacheInvalidateAll (v : Word) (s : State) : Host.Outcome State Fault Refusal := s.privStore CACHE_CTRL.addr v
def execDcacheInvalidateAll (v : Word) (s : State) : Host.Outcome State Fault Refusal := s.privStore CACHE_CTRL.addr v
def execInvalidationDone (s : State) : Host.Outcome State Fault Refusal := .next { s with caches := { s.caches with inv := false } }

/-- HALT, RESUME and STEP written by a master to DBG_RUN. -/
def execDbgHalt (m : Master) (s : State) : Host.Outcome State Fault Refusal := .next (s.busWrite pageHook m DBG_RUN.addr 1#32)
def execDbgResume (m : Master) (s : State) : Host.Outcome State Fault Refusal := .next (s.busWrite pageHook m DBG_RUN.addr 2#32)
def execDbgStep (m : Master) (s : State) : Host.Outcome State Fault Refusal := .next (s.busWrite pageHook m DBG_RUN.addr 4#32)
/-- DBG_REG_DATA: the register that IDX selects. -/
def execDbgRegDataAccess (a : Acc) (w : Option Word) (s : State) : Host.Outcome State Fault Refusal :=
  .next (match w with
    | none => s.busRead a.m (viewAddr a.view DBG_REG_DATA.addr)
    | some v => s.busWrite pageHook a.m (viewAddr a.view DBG_REG_DATA.addr) v)

end Sys2Proof.Machine
end

