-- ==== Sys2Proof/Machine/Slot.lean ====
section
/-!
DEFINITION. The slot tick (R14 to R21, R79 to R87, R96, R104 to R110, R186): what a tick cuts short, which candidate decides the slot, and how the
radio is set for it; RECOVERY (R455), which ends the slot.
Readings of the manual made here: DESIGN CHOICE in log entries 1, 6; DEDUCED in log entries 28, 35, 38, 51, 54, 60, 137.
-/
namespace Sys2Proof.Machine
open Sys2Proof

def State.setHdr (s : State) (f : HdrState → HdrState) : State := { s with hdr := f s.hdr }
def State.setSlot (s : State) (f : Slot → Slot) : State := { s with slot := s.slot.map f }

/-! ## Arbitration (R186) -/

/-- The highest candidate that remains: a TX cell with a ticket for the slot or with an eligible frame, an RX cell, a Clearing with pending
work. -/
def arbitrate (asn : Nat) : List Cand → State → Option Cand × State
  | [], s => (none, s)
  | c :: l, s =>
    if c.kind = 0 then
      match s.tickets.find? (fun p => p.2.asn == asn && p.2.cand.cell == c.cell && !s.hdr.undoing.contains p.1) with
      | some p => (some p.2.cand, s)
      | none =>
        match s.eligible c asn with
        | (some _, s) => (some c, s)
        | (none, s) => arbitrate asn l s
    else if c.kind = 1 then (some c, s)
    else if s.clearingWork then (some c, s) else arbitrate asn l s

/-! ## Jobs that the tick finds unfinished (R19 to R21, R38) -/

/-- One job aborted at the tick (R19). The event is raised with the tick's own. -/
def State.overrun (s : State) : State := (s.finc CAD_CNT.OVERRUN).raise Pg.CAD 0

/-- Lanes at the tick: a frame is lost with cause 2, or with cause 1 where Canopy has been disabled in its window (R21, R127). -/
def State.cutLanes (s : State) : State :=
  let off := match s.slot with | some sl => sl.canopy && !s.fbit CNP_CTRL.EN | none => false
  (List.range 16).foldl (fun s n =>
    let s := if 2 ≤ s.laneSt n then (s.laneAbort n (if off then 1 else 2)).overrun else s
    ((s.laneTo n 0).setLane n { s.lane n with searching := false, paused := false }).laneAssign n none) s

/-- ACKs that have not left are dropped. -/
def State.cutAcks (s : State) : State :=
  let s' := s.txm.acks.foldl (fun s _ => s.overrun) s
  { s' with txm := { s'.txm with acks := [], away := false } }

/-- The attempt of a slot whose commit step did not end is withdrawn (R225): what it radiated is charged, and its ticket is released like a
squashed one. -/
def State.withdraw (s : State) (asn : Nat) : State :=
  match s.ticketAt asn with
  | some (e, k) =>
    if k.st != 4 then s
    else
      let s := (s.setTicket e (some { k with st := 2, resv := none })).dutyCharge k.cand.freq k.radiated
      s.fset HDR_TAIL.OUTCOME 5
  | none => s

/-- A Tailrace cut short, or one that a replay kept from starting (R20, R224, R225). -/
def State.cutTail (s : State) : State :=
  match s.slot with
  | none => s
  | some sl =>
    if sl.tailDone = 7 then s
    else
      let s := if sl.tail then s else s.rsetN HDR_TAIL.addr 0
      let s := if sl.tailDone < 2 then s.withdraw sl.asn else s
      let s := if sl.tailDone < 3 then s.fset CAD_STAT.STAT_GAP 1 else s
      (s.squashWhere .fault true fun _ => true).overrun

/-- A preparation that is still building (R213). -/
def State.cutBuild (s : State) : State :=
  match s.tickets.find? (fun p => p.2.st == 1 && !s.hdr.undoing.contains p.1) with
  | some p => ((s.finc HDR_CNT2.OVR).squash .fault false [p.1]).overrun
  | none => s

/-- Work of a Clearing that is still running (R101), and a replay (R38). -/
def State.cutWork (s : State) : State :=
  let s := if s.rfe.running.isSome && s.cadRuns then s.workAbort.overrun else s
  if s.cad.replaying then (s.setCad fun c => { c with replaying := false }).overrun else s

/-- Some per-slot job is unfinished. -/
def State.jobsLeft (s : State) : Bool :=
  ((List.range 16).any fun n => decide (2 ≤ s.laneSt n)) || !s.txm.acks.isEmpty
    || (s.tickets.any fun p => p.2.st == 1 && !s.hdr.undoing.contains p.1)
    || (match s.slot with | some sl => sl.tailDone != 7 | none => false)
    || (s.rfe.running.isSome && s.cadRuns) || s.cad.replaying
/-- All of them are cut. -/
def State.cutJobs (s : State) : State := s.cutLanes.cutAcks.cutBuild.cutTail.cutWork

/-! ## The autonomy limit (R41) -/

/-- Complete cycles of slotframe 0 without a heartbeat are counted at their boundaries, those of slots not served as well. -/
def State.silenceCount (s : State) (asn : Nat) : State :=
  let n := s.sfLen 0
  let k := match s.slot with | some sl => asn / n - sl.asn / n | none => if asn % n = 0 then 1 else 0
  if n = 0 || k = 0 then s
  else
    let s := s.fadd CAD_APPCFG.SILENT (k - (if s.cad.beat then 1 else 0))
    let full : Bool := clampN 1 1024 (s.fget CAD_APPCFG.SILENCE_MAX) ≤ s.fget CAD_APPCFG.SILENT
    s.setCad fun c => { c with beat := false, silentNow := c.silentNow || full }

/-! ## The radio of a slot -/

/-- FEM switch code of a port and direction (R96). -/
def State.femCode (s : State) (port : Nat) (tx : Bool) : Nat :=
  if port = 0 then (if tx then s.fget RFE_FEM_CFG.SWLO_TX else s.fget RFE_FEM_CFG.SWLO_RX)
  else if tx then s.fget RFE_FEM_CFG.SWHI_TX else s.fget RFE_FEM_CFG.SWHI_RX

/-- The internal ramp of the next launch starts within PA_LEAD (R96). -/
def State.paLead (s : State) : Bool :=
  let near := fun (l f : Nat) => s.frcN < l && l ≤ s.frcN + us (s.rampLen + s.fget RFE_FEM_TIM.PA_LEAD) && (s.txBlock f).isNone && s.txAble
  match s.txm.acks.find? (·.go) with
  | some a => near a.launchAt a.freq
  | none =>
    match s.slot with
    | some sl =>
      (match (if sl.kind = .tx && !sl.lost then s.ticketAt sl.asn else none) with
      | some (_, k) => (k.st == 2 || k.st == 3) && near (s.launchFrc sl) k.cand.freq
      | none => false)
    | none => false

/-- The receive window of an RX slot stands open for FEM_LNA: from LNA_LEAD before it opens, not before 40 us after the tick (R96). -/
def State.lnaOn (s : State) : Bool :=
  match s.slot with
  | some sl =>
    let first := sl.served.foldl (fun m v => min m v.opens) s.tmpl.slotLen
    let opens := max (if sl.canopy then 60 else 40) first
    sl.kind == .rx && !sl.lost && !s.rfe.shut && !sl.served.isEmpty && s.atOffset sl (max 40 (opens - s.fget RFE_FEM_TIM.LNA_LEAD))
  | none => false

/-- The levels of FEM_PA and FEM_LNA and the switch code FEM_SW1:FEM_SW0 (R96, R97); none where bank A is unpowered. -/
def State.femPins (s : State) : Option (Bool × Bool × Nat) :=
  let level := fun (pol on : Bool) => on != pol
  let sleeping := s.pwr.st = .nap || s.pwr.st = .slumber || s.pwr.st = .hibernate || s.pwr.st = .off
  let live := s.fbit RFE_FEM_CFG.FEM_EN && !sleeping
  let pa := live && (s.txBusy || decide (s.frcN < s.rfe.paUntil) || s.paLead)
  let sw := if live then s.rfe.femSw.getD (s.fget RFE_FEM_CFG.SW_IDLE) else s.fget RFE_FEM_CFG.SW_IDLE
  if s.pwr.st = .backup then none
  else some (level (s.fbit RFE_FEM_CFG.PA_POL) pa, level (s.fbit RFE_FEM_CFG.LNA_POL) (live && s.lnaOn), sw)

/-- A slot is lost without the indications of a loss of lock: no port for its channel (R76, R80), front end disabled or served from later on
(R85), handoff still owed (R267). -/
def State.slotLost (s : State) (f : Nat) : Bool :=
  (portOf (qHz f)).isNone || !s.fbit RFE_CTRL.EN || s.frcN < s.rfe.servesFrom || s.ntu.handoff

/-- Retune for a TX or RX slot (R76, R79, R82, R87). A lost one is counted. -/
def State.tune (s : State) (f : Nat) (tx wide : Bool) : State :=
  let s := s.fset RFE_STAT.LOCK 0
  if s.slotLost f then
    s.finc RFE_CNT.LOST
  else
    let port := (portOf (qHz f)).getD 0
    let s := ((s.fset RFE_SYN_CUR.FREQ f).fset RFE_STAT.PORT port).fsetB RFE_STAT.WB_ON wide
    s.setRfe fun r => { r with femSw := some (s.femCode port tx), shut := tx }

/-- The slot begins, shown in CAD_STAT and CAD_SLOT; a listen window shows KIND 0. -/
def State.slotBegin (s : State) (sl : Slot) : State :=
  let kind := if sl.listen then 0 else match sl.kind with | .idle => 0 | .tx => 1 | .rx => 2 | .clearing => 3
  let w := match sl.cand with | some c => c.cell * 2 ^ 2 + c.sf * 2 ^ 13 + c.chan % 256 * 2 ^ 15 + 2 ^ 23 | none => 0
  { (s.fset CAD_STAT.KIND kind).rsetN CAD_SLOT.addr (kind + w) with slot := some sl }

/-- A slot of no candidate. -/
def State.slotBase (s : State) (asn : Nat) : Slot :=
  { asn := asn, tickNt := s.epoch + asn * s.slotLen, kind := .idle, cand := none, cands := [], freq := 0, canopy := false
    listen := false, served := [], pubUnknown := s.fbit CNP_CTRL.PUB_UNKNOWN, fecCfg := s.raw FEC_CFG.addr }

/-- A slot that Canopy serves: its window is placed and tuned (R107, R126). -/
def State.slotCanopy (s : State) (asn : Nat) (cells : List Cand) : State :=
  let p := s.placeWindow cells
  let mine := (p.served.flatMap fun v => v.cells).filterMap fun c => cells.find? fun d => d.cell == c
  let ranked := cells.filter fun c => mine.any fun d => d.cell == c.cell
  let sl : Slot :=
    { s.slotBase asn with kind := .rx, cand := ranked.head?, cands := ranked, freq := p.fc, canopy := true, listen := cells.isEmpty
                          served := p.served, lost := p.served.isEmpty || s.slotLost p.fc }
  let s := s.openWindow asn p cells.isEmpty
  let s := s.slotBegin sl
  if p.served.isEmpty then s else s.tune p.fc false true

/-- An RX slot while Canopy is disabled: lane 0 (R186). -/
def State.slotNarrow (s : State) (asn : Nat) (cells : List Cand) : State :=
  match s.narrowServed cells with
  | none => s.slotBegin (s.slotBase asn)
  | some v =>
    let mine := cells.filter fun c => v.cells.contains c.cell
    let sl : Slot :=
      { s.slotBase asn with kind := .rx, cand := mine.head?, cands := mine, freq := v.freq, served := [v], lost := s.slotLost v.freq }
    let s := s.fadd CAD_CNT3.RX_SHED (cells.length - mine.length)
    ((s.laneAssign 0 (some v)).slotBegin sl).tune v.freq false false

/-- A TX slot. -/
def State.slotTx (s : State) (asn : Nat) (c : Cand) : State :=
  let sl : Slot := { s.slotBase asn with kind := .tx, cand := some c, cands := [c], freq := c.freq, lost := s.slotLost c.freq }
  (s.slotBegin sl).tune c.freq true false

/-- A Clearing. -/
def State.slotClearing (s : State) (asn : Nat) (c : Cand) : State :=
  s.slotBegin { s.slotBase asn with kind := .clearing, cand := some c, cands := [c] }

/-- The decision of the slot (R126, R186). -/
def State.slotDecide (s : State) (asn : Nat) (l : List Cand) : State :=
  match arbitrate asn l s with
  | (some c, s) =>
    if c.kind = 0 then s.slotTx asn c
    else if c.kind = 1 then
      let rx := l.filter fun d => d.kind == 1
      if s.fbit CNP_CTRL.EN then s.slotCanopy asn rx else s.slotNarrow asn rx
    else s.slotClearing asn c
  | (none, s) =>
    if s.fbit CNP_CTRL.EN && !s.pinnedLanes.isEmpty then s.slotCanopy asn [] else s.slotBegin (s.slotBase asn)

/-! ## The tick -/

/-- A tick is due (R14, R15, R173, R268): Cadence runs with its domain powered, and NT stands in a slot whose ASN has not been served; after an enable
the boundary lies at least 100 us after the write. -/
def State.tickDue (s : State) : Bool :=
  s.cadRuns && s.dom .rad = .on && s.sys.held.isNone && s.asnValid
    && (match s.ntu.lastAsn with | some a => decide (a < s.asnNow) | none => true)
    && (s.slot.isSome || decide (s.ntAt s.cad.startAt ≤ s.epoch + s.asnNow * s.slotLen))

/-- Everything the radio held for the slot before is put back. -/
def State.slotClear (s : State) : State :=
  let s := s.windowShut.setRfe fun r =>
    { r with femSw := none, clearingEnd := none, ackSpan := false, spanTail := false, clipRun := 0, override := false }
  let s := (s.fset CNP_STAT.LISTEN 0).setCad fun c => { c with ack := none }
  (List.range 16).foldl (fun s n => s.laneLatch n) s

/-- The slot with a given ASN starts. -/
def State.slotStart (s : State) (asn : Nat) : State :=
  let s := s.silenceCount asn
  let s := s.slotClear
  let s := (s.setNtu fun n => { n with lastAsn := some asn }).modeAtTick asn
  let l := match s.cad.resolved with | some r => if r.1 = asn then some r.2 else none | none => none
  let s := match l with | some _ => s | none => s.resolveSlot asn
  let l := match s.cad.resolved with | some r => r.2 | none => []
  (s.setCad fun c => { c with resolved := none }).slotDecide asn l

/-- Network time reaches a slot boundary. What is unfinished is cut, a stop that waited for the Tailrace takes place, or the slot starts; SLOT_TICK and
SLOT_OVERRUN are raised together. A phase starts (R34). -/
def execSlotTick (t : Frc) (s : State) : Host.Outcome State Fault Refusal :=
  let s := s.advance t
  if !s.tickDue then .next s
  else
    let overrun := if s.jobsLeft && s.fbit (EVT_EN.bit Pg.CAD 1) then [23] else []
    let asn := s.asnNow
    let busy := s.slot.isSome
    let p := s.phaseBegin
    let s := p.cutJobs.consider
    if (s.cad.stopping || s.cad.silentNow) && busy then .next ((s.cadStop.publishAll overrun).ovlSettle coreHook)
    else
      let s := s.slotStart asn
      .next (p.hold (s.publishAll ((if s.fbit (EVT_EN.bit Pg.CAD 0) then [22] else []) ++ overrun)))

/-! ## RECOVERY (R23, R455) -/

/-- The attempt of a ticket is counted in its frame's descriptor, or in its keep-alive (R215, R232). -/
def State.attemptCount (s : State) (k : Ticket) : State :=
  if k.ka then
    s.setHdr fun h => { h with kas := h.kas.map fun (x : Nat × Nat × Bool) => if some x.1 = k.nbr then (x.1, x.2.1 + 1, x.2.2) else x }
  else
    ((s.descSet k.frame 3 3 4 (min 8 (k.attempt + 1))).descSet k.frame 5 0 32 (k.asn % 2 ^ 32)).descSet k.frame 6 0 32 (k.fc.getD 0)

/-- A fault that the fault table assigns to RECOVERY takes effect. -/
def State.recover (s : State) (code : Nat) : State :=
  if s.sys.held.isSome then s
  else
    let air := match s.txm.cur with
      | some x => (match x.what with | .ticket e => if x.launched && !x.aborted then s.ticket e else none | _ => none)
      | none => none
    let s := s.txAbort 7
    let s := match air with | some k => if k.sent then s else s.attemptCount k | none => s
    let s := s.cadHalt .fault
    let s := (List.range 16).foldl (fun s n => s.laneStop n) s
    let s := (s.setSys fun y => { y with st := .recovery }).setCad fun c => { c with silentNow := false }
    ((s.sysFault code).raise Pg.SYS 0).ovlSettle coreHook

end Sys2Proof.Machine
end

