-- ==== Sys2Proof/Machine/Tailrace.lean ====
section
/-!
DEFINITION. The Tailrace (R224 to R226) with its seven steps, what follows it (R41, R72, R174, R407), and the lockstep domain (R32 to R41): phases,
faults, replays.
Readings of the manual made here: DESIGN CHOICE in log entry 6; DEDUCED in log entries 27, 28, 32, 35, 51, 60, 61, 64, 137.
-/
namespace Sys2Proof.Machine
open Sys2Proof

/-! ## Step 2: the commit (R189, R190, R225) -/

/-- A shared TX cell was served: every backoff count that is not zero falls by 1 (R190). -/
def State.backoffServed (s : State) : State :=
  ((List.range 1024).filter fun n => s.nBackoff n != 0).foldl (fun s n => s.nbrSet n 3 20 7 (s.nBackoff n - 1)) s

/-- What an attempt's outcome does to its neighbour's backoff; the draw is a free value below 2^BE (R190). -/
def State.backoffOutcome (s : State) (k : Ticket) (ok : Bool) : State :=
  match k.nbr with
  | none => s
  | some n =>
    if ok then (s.nbrSet n 3 16 3 s.minBe).nbrSet n 3 20 7 0
    else if !k.cand.shared then s
    else
      let be := min (s.nBe n + 1) (s.fget CAD_BACKOFF.MAX_BE)
      ((s.nbrSet n 3 16 3 be).nbrSet n 3 20 7 (s.free % 2 ^ be)).freeStep

/-- Retry budget of a class (R189). -/
def State.retryBudget (s : State) (cls : Nat) : Nat :=
  match cls with | 0 => s.fget CAD_RETRY.N_A | 1 => s.fget CAD_RETRY.N_B | 2 => s.fget CAD_RETRY.N_C | _ => s.fget CAD_RETRY.N_D

/-- The attempt is successful (R189). -/
def Ticket.succeeded (k : Ticket) : Bool := k.sent && (!k.ackReq || k.acked = some false)

/-- TX_OK, or ACK_MISS of an attempt that no valid ACK answered. -/
def State.countOutcome (s : State) (k : Ticket) : State :=
  if k.succeeded then s.finc CAD_CNT2.TX_OK
  else if k.ackReq && k.acked.isNone then
    let s := s.finc CAD_CNT2.ACK_MISS
    match k.nbr with | some n => s.nbrSet n 15 16 16 (s.nbrF n 15 16 16 + 1) | none => s
  else s

/-- The frame of an attempt: delivered, failed finally, or still at the head. -/
def State.frameOutcome (s : State) (k : Ticket) (ok final : Bool) : State :=
  if !ok && !final then s
  else if k.ka then s.setHdr fun h => { h with kas := h.kas.filter fun x => some x.1 != k.nbr }
  else s.frameLeaves k.queue k.frame (if ok then 1 else 2)

/-- The slot's COMMITTED ticket is RETIRED; a failed attempt squashes its dependants. -/
def State.retire (s : State) (e : Nat) (k : Ticket) : State :=
  let ok := k.succeeded
  let final := !ok && s.retryBudget k.cls ≤ k.attempt
  let s := ((s.attemptCount k).countOutcome k).backoffOutcome k ok
  let s := s.frameOutcome k ok final
  let s := s.setTicket e none
  let s := (s.dutyCharge k.cand.freq k.radiated).dutyNote
  let s := s.fset HDR_TAIL.OUTCOME (if ok then 1 else if final then 3 else if k.launched then 2 else 4)
  if ok then s else (s.squashDependants k).squashNow

def State.tailCommit (s : State) (sl : Slot) : State :=
  let s := match sl.cand with | some c => if sl.kind == SlotKind.tx && c.shared then s.backoffServed else s | none => s
  match s.ticketAt sl.asn with
  | some (e, k) => if k.st = 4 then s.retire e k else s
  | none => s

/-! ## Step 3: statistics (R186, R192, R254, R255) -/

/-- A served cell's statistics words; `failed` says that the slot's attempt failed. -/
def State.cellStats (s : State) (sl : Slot) (failed : Bool) (c : Cand) : State :=
  let s := s.cellUsed c.cell sl.asn
  if (c.kind = 0 && failed) || (c.kind = 1 && !sl.credited.contains c.cell) then s.cellFail c.cell else s

/-- Head delay of a queue in ms. -/
def State.headDelay (s : State) (q : Nat) : Nat :=
  match s.queue q with
  | [] => 0
  | c :: _ => min 65535 (toField 32 ((s.ntUs32 : Int) - s.fEnqT c) / 1000)

def State.queueSample (s : State) (q : Nat) : State :=
  let s := s.fset (TRF_Q_PEAK.MAXFRAMES q) (max (s.fget (TRF_Q_PEAK.MAXFRAMES q)) (s.queue q).length)
  s.fset (TRF_Q_PEAK.MAXDELAY q) (max (s.fget (TRF_Q_PEAK.MAXDELAY q)) (s.headDelay q))

/-- An entry of the history ring. -/
def State.historyEntry (s : State) (asn : Nat) : State :=
  if !s.fbit TRF_HIST_CFG.EN || asn % max 1 (s.fget TRF_HIST_CFG.PERIOD) != 0 then s
  else
    let q := s.fget TRF_HIST_CFG.QUEUE
    let i := s.fget TRF_HIST_HEAD.NEXT
    let e := (i, BitVec.ofNat 32 ((s.queue q).length + s.headDelay q * 2 ^ 16), BitVec.ofNat 32 asn)
    let s := s.setTrf fun t => { t with hist := t.hist.filter (fun x => x.1 != i) ++ [e] }
    (s.fset TRF_HIST_HEAD.NEXT (i + 1)).fsetB TRF_HIST_HEAD.FULL (s.fbit TRF_HIST_HEAD.FULL || i = 63)

def State.tailStats (s : State) (sl : Slot) : State :=
  let o := s.fget HDR_TAIL.OUTCOME
  let s := sl.cands.foldl (fun s c => s.cellStats sl (2 ≤ o && o ≤ 4) c) s
  let s := (List.range 64).foldl (fun s q => s.queueSample q) s
  s.historyEntry sl.asn

/-! ## Step 5: contradictions of the accountant (R252) -/

/-- Entries that a squash of the entries `l` would take. -/
def State.takenBy (s : State) (l : List Nat) : List Nat :=
  s.withDependants false (s.withDependants false (s.withDependants false l))

/-- Reservations of tickets that no undo has taken up, outside the entries `gone`, over those that satisfy a condition. -/
def State.resvSum (s : State) (p : Resv → Bool) (gone : List Nat) : Nat :=
  (s.tickets.map fun x => match x.2.resv with
    | some r => if p r && !s.hdr.undoing.contains x.1 && !gone.contains x.1 then r.fine else 0
    | none => 0).sum

/-- The entry of the latest slot among tickets outside `gone` that a squash reaches, of class A or of classes B to D. -/
def State.latestResv (s : State) (p : Resv → Bool) (classA : Bool) (gone : List Nat) : Option Nat :=
  let l := s.tickets.filter fun x =>
    s.reachable false x.1 && !gone.contains x.1 && (x.2.cls == 0) == classA && (match x.2.resv with | some r => p r | none => false)
  (l.foldl (fun (m : Option (Nat × Nat)) x =>
    match m with | some y => if y.2 < x.2.asn then some (x.1, x.2.asn) else m | none => some (x.1, x.2.asn)) none).map (·.1)

/-- Tickets to squash beside those of `l`, latest slot first, while charges and reservations exceed a limit. -/
def State.relieve (s : State) (p : Resv → Bool) (classA : Bool) (used limit : Nat) : Nat → List Nat → List Nat
  | 0, l => l
  | n + 1, l =>
    if used + s.resvSum p (s.takenBy l) ≤ limit then l
    else match s.latestResv p classA (s.takenBy l) with
      | none => l
      | some e => s.relieve p classA used limit n (l ++ [e])

/-- A sub-band comes back within R249. -/
def State.relieveBand (s : State) (l : List Nat) (n : Nat) : List Nat :=
  let p := fun (r : Resv) => r.sb == n
  let u := s.sbUsed n
  if !s.fbit DCA_CTRL.EN || !s.fbit (DCA_SB_LIM.EN n) then l
  else s.relieve p true u (s.sbBudget n) 4 (s.relieve p false u (s.sbBudget n - s.sbReserve n) 4 l)

/-- A channel centre comes back within the dwell limit of R251. -/
def State.relieveDwell (s : State) (l : List Nat) (d : Dwell) : List Nat :=
  let p := fun (r : Resv) => r.freq == d.freq && r.sb == d.sb
  let u := d.wins.sum
  if !s.fbit DCA_CTRL.EN || !s.dwellOn d.sb then l
  else s.relieve p true u (s.dwellMax d.sb) 4 (s.relieve p false u (s.dwellMax d.sb) 4 l)

/-- The tickets that the accountant contradicts. -/
def State.contradicted (s : State) : List Nat := s.trf.dwell.foldl s.relieveDwell ((List.range 8).foldl s.relieveBand [])

def State.tailGates (s : State) (next : Nat) : State :=
  let s := s.sluEvaluate (s.launchNt next)
  (s.setHdr fun h => { h with contra := s.contradicted }).dutyNote

/-! ## Step 7: the verdict (R226) -/

/-- A contradicted ticket that no other squash has reached (R252). -/
def State.squashContra (s : State) (e : Nat) : State :=
  if s.reachable false e then ((s.squash .sluice false [e]).finc DCA_CNT.CONTRA).raise Pg.DCA 2 else s

/-- Tickets of the next slot that its resolution gives to another cell, tickets whose slot has passed, and those that step 5 contradicted are
squashed; the express tickets count from now on, and run-ahead resumes (R223, R227). -/
def State.tailVerdict (s : State) (next : Nat) : State :=
  let l := match s.cad.resolved with | some r => if r.1 = next then r.2 else [] | none => []
  let win := ((arbitrate next l s.consider).1).map fun c => c.cell
  let s := s.squashWhere .table false fun t => (t.asn = next && win != some t.cand.cell) || t.asn < next
  let s := (s.hdr.contra.foldl State.squashContra s).squashNow
  s.setHdr fun h =>
    { h with waitVerdict := false, contra := [], entries := h.entries.map fun x => x.map fun (t : Ticket) => ({ t with expNew := false } : Ticket) }

/-! ## The Tailrace -/

/-- The ASN that the next tick carries (R15); after a step no boundary before the Tailrace's end is served (R263). -/
def State.tailNext (s : State) (sl : Slot) (stepped : Bool) (dur : Nat) : Nat × State :=
  if !stepped then (max (sl.asn + 1) (s.asnNow + 1), s)
  else
    let x := s.ntAt (s.frcN + us dur)
    let a := if s.epoch ≤ x then (x - s.epoch) / s.slotLen + 1 else 0
    let next := max (sl.asn + 1) a
    let s := if s.asnValid && s.asnNow + 1 < a then s.asnSkip else s
    (next, s.setNtu fun n => { n with lastAsn := some (next - 1) })

/-- One of the steps, numbered from 0. -/
def State.tailStep (s : State) (sl : Slot) (next i : Nat) : State :=
  match i with
  | 0 => s.resolveSlot next
  | 1 => s.tailCommit sl
  | 2 => s.tailStats ((s.slot).getD sl)
  | 3 => s.weirFill
  | 4 => s.tailGates next
  | 5 => s.modeAtTail coreHook next
  | _ => s.tailVerdict next

/-- A slot is active (R25, R126). -/
def State.slotActive (s : State) (asn : Nat) : Bool :=
  (arbitrate asn (s.ranked asn) s).1.isSome || (s.fbit CNP_CTRL.EN && !s.pinnedLanes.isEmpty)

/-- Network time at which the excursion of the next active slot among `n` slots would begin (R407). -/
def State.nextExcursion (s : State) : Nat → Nat → Option Nat
  | 0, _ => none
  | n + 1, asn =>
    if s.slotActive asn then
      some (s.epoch + asn * s.slotLen - us (if s.pwr.home = .nap then s.fget PWR_LEAD.NAP else s.fget PWR_LEAD.SLP))
    else s.nextExcursion n (asn + 1)

/-- The end of an excursion slot (R407): DOZE, or HOME again through EP1 to EP6. -/
def State.excursionEnd (s : State) (next dur : Nat) : State :=
  if !s.pwr.exc then s
  else
    let soon : Bool := match (if s.cadRuns then s.nextExcursion 16 next else none) with
      | some x => x < s.ntAt (s.frcN + us dur) + us (s.fget PWR_MINSLEEP.MINSLEEP)
      | none => false
    if soon then s
    else match s.entryCause s.pwr.home with
      | 0 => s.enterState s.pwr.home
      | c => s.entryRefuse c

/-- After the last step: the radio rests, Cadence stops if that is due, and an excursion may end. -/
def State.tailEnd (s : State) (next dur : Nat) : State :=
  let s := s.windowShut.setRfe fun r => { r with femSw := none }
  let s := if s.cad.stopping || s.cad.silentNow then s.cadStop else s
  (s.ovlSettle coreHook).excursionEnd next dur

/-- SLOT_LEN - TAIL_MIN after the tick the Tailrace runs. `steps` says how many of its steps end before an overrun cuts it, 7 when none does, and
`dur` how long it takes in us. A pending step of network time is applied first and keeps the tick from cutting it (R263). Its start is a phase boundary (R34). -/
def execTailrace (t : Frc) (steps : Fin 8) (dur : BitVec 10) (s : State) : Host.Outcome State Fault Refusal :=
  let s := s.advance t
  match s.slot with
  | none => .next s
  | some sl =>
    if sl.tail || !s.atOffset sl s.tailFrom || s.cad.replaying || s.dom .rad != .on then .next s
    else
      let p := s.phaseBegin
      let s := (p.setSlot fun x => { x with tail := true }).rsetN HDR_TAIL.addr 0
      let s := (s.setRfe fun r => { r with clearingEnd := none }).setHdr fun h => { h with contra := [] }
      let s := match s.cad.ack with
        | some a => if a.isOpen && !a.shut then (s.setAck (some { a with shut := true })).ackWindowShut else s
        | none => s
      let stepped : Bool := s.ntu.step.isSome && !s.txBusy
      let s := s.stepAtTail
      let (next, s) := s.tailNext sl stepped dur.toNat
      let n := if stepped then 7 else steps.val
      let s := (List.range n).foldl (fun s i => s.tailStep sl next i) s
      let s := s.setSlot fun x => { x with tailDone := n }
      let s := (s.fset HDR_TAIL.DONE (2 ^ n - 1)).fset HDR_TAIL.DUR dur.toNat
      .next (p.hold (if n = 7 then s.tailEnd next dur.toNat else s))

/-! ## Lockstep (R34 to R38) -/

/-- Network times of the template steps of a slot between its tick and its Tailrace (R16, R34): the synthesiser settle is at the tick; the
transmission or the earliest guard window; the instant at which an ACK is awaited or sent. -/
def State.templateSteps (s : State) (sl : Slot) : List Nat :=
  let start := match sl.kind with
    | .tx => [sl.tickNt + us s.tmpl.txOffset]
    | .rx => [sl.tickNt + us (s.tmpl.txOffset - (sl.cands.map (·.guard)).foldl max 0)]
    | _ => []
  let awaited := match s.cad.ack with | some a => [s.ntAt (a.opens + us s.tmpl.ackGuard)] | none => []
  start ++ awaited ++ s.txm.acks.map fun a => s.ntAt a.launchAt

/-- A phase boundary has been reached since the present phase began: a template step, or the end of a piece of 250 us (R34). -/
def State.phaseDue (s : State) : Bool :=
  match s.slot with
  | some sl =>
    s.phase.on && (decide (s.cad.phaseAt + us 250 ≤ s.frcN)
      || (s.templateSteps sl).any fun x => decide (s.ntAt s.cad.phaseAt < x) && decide (x ≤ s.nt))
  | none => false

/-- A phase boundary (R34, R35): the signatures agree, the commit buffer is released, the checkpoint is saved, and replays count afresh. -/
def execPhaseCheckpoint (t : Frc) (s : State) : Host.Outcome State Fault Refusal :=
  let s := s.advance t
  .next (if s.cad.replaying || !s.phaseDue then s else s.phaseBegin)

/-- A replay begins: counted and shown, LS_REPLAY raised. -/
def State.replayBegin (s : State) : State :=
  let n := s.cad.replays + 1
  let s := s.setCad fun c => { c with replays := n, replaying := true }
  let s := (s.fset CAD_LS_STAT.REPLAYS n).finc CAD_LS_CNT.REPLAYS
  (s.raise Pg.CAD 5).event Pg.CAD 3 25

/-- A lockstep fault (R36): the transmission on the air is aborted, every PREPARED ticket squashed, and the phase is run again. An injected fault is
found in its own group (R207). -/
def execLockstepFault (t : Frc) (sig : Bool) (grp : Fin 4) (s : State) : Host.Outcome State Fault Refusal :=
  let s := s.advance t
  if s.cad.replaying || s.dom .rad != .on || s.sys.held.isSome || s.sys.st = .recovery then .next s
  else
    let g := match s.cad.inject with | some (g, _) => if g < 4 then g else grp.val | none => grp.val
    let s := s.setCad fun c => { c with inject := none }
    let s := (s.finc CAD_LS_CNT.FAULTS).rsetN CAD_LS_STAT.addr ((if sig then 4 else 0) + g * 8 + s.slotAsn % 2 ^ 24 * 2 ^ 8)
    let s := (s.txAbort 2).squashWhere .fault true fun _ => true
    .next s.replayBegin

/-- A replayed phase ends (R36, R37): with agreeing signatures its buffer is released, and the next phase starts. The copies are deterministic
and took the inputs of the phase in their order, so the state they reach again is the one the fault interrupted (log entry 137). -/
def execReplayEnd (t : Frc) (agree : Bool) (s : State) : Host.Outcome State Fault Refusal :=
  let s := s.advance t
  if !s.cad.replaying then .next s
  else if agree then .next (s.setCad fun c => { c with replaying := false }).phaseBegin
  else if s.cad.replays < 3 then .next s.replayBegin
  else .next ((s.setCad fun c => { c with replaying := false }).recover 2)

/-! ## The autonomy limit (R41) -/

/-- The slot in which the limit was reached has run through its Tailrace: Cadence stands, APP_SILENT is raised, and the fault is handled. -/
def execAppSilent (t : Frc) (s : State) : Host.Outcome State Fault Refusal :=
  let s := s.advance t
  let ended : Bool := match s.slot with | some sl => sl.tailDone = 7 | none => true
  if !s.cad.silentNow || !ended then .next s
  else
    let s := if s.cadRuns then s.cadStop else s
    let s := s.setCad fun c => { c with silentNow := false }
    let s := ((s.fset CAD_STAT.APP_SILENT 1).raise Pg.CAD 4).event Pg.CAD 2 24
    .next (if s.fbit SYS_FAULT_CFG.SILENT_RST then s.sysReset .swsys else s.recover 6)

end Sys2Proof.Machine
end

