-- ==== Sys2Proof/Machine/System.lean ====
section
/-!
DEFINITION. The device's resets and state requests (R23, R447 to R456), loss of the oscillators (R459), loss of VDD (R24, R273), and sleep: the
abort of an entry (R405), radio excursions (R407) and wake (R409 to R411).
Readings of the manual made here: DEDUCED in log entries 22, 29, 31, 32; DESIGN CHOICE in log entry 24.
-/
namespace Sys2Proof.Machine
open Sys2Proof

/-! ## Requests and resets -/

/-- SYS_STATE.REQ (R23). -/
def execSysStateReq (a : Acc) (v : Word) (s : State) : Host.Outcome State Fault Refusal := .next (s.writeReg pageHook a SYS_STATE.addr v)

/-- VDD has risen: POR, the straps and TCXO_SEL are sampled and the boot ROM runs (R447, R471). -/
def execPowerOnReset (straps : BitVec 5) (tcxo : Bool) (s : State) : Host.Outcome State Fault Refusal :=
  .next (((s.sysReset .por).setSys fun y => { y with tcxo := tcxo }).releaseBoot straps.toNat)

/-- VDD has fallen below 1.70 V: the device is held until VDD has recovered (R417). -/
def execBrownOutReset (s : State) : Host.Outcome State Fault Refusal :=
  .next (if s.pwr.st = .backup then s else s.sysReset .bor)

/-- RESET_N has been low for 20 us: the device is held until it rises (R447). -/
def execPinReset (s : State) : Host.Outcome State Fault Refusal :=
  .next (if s.pwr.st = .backup then s else s.sysReset .pin)

/-- A held device is released (R447); without VDD it is not. -/
def execResetRelease (straps : BitVec 5) (s : State) : Host.Outcome State Fault Refusal :=
  .next (if s.pwr.st = .backup then s else s.releaseBoot straps.toNat)

/-- SYS_CMD with OP 1: the reset, and its release after 20 us. -/
def execSysCmdSystemReset (a : Acc) (v : Word) (straps : BitVec 5) (s : State) : Host.Outcome State Fault Refusal :=
  let was := s.sys.held.isSome
  let s := s.writeReg pageHook a SYS_CMD.addr v
  .next (if was then s else s.releaseBoot straps.toNat)

/-- SYS_CMD with OP 2: a core reset and a warm boot. -/
def execSysCmdCoreReset (a : Acc) (v : Word) (s : State) : Host.Outcome State Fault Refusal := .next (s.writeReg pageHook a SYS_CMD.addr v)

/-! ## Watchdog (R456) -/

/-- The watchdog counts: enabled, D_APP holds its state, no reset, and not held by the debug port. -/
def State.wdtCounts (s : State) : Bool :=
  s.fbit SYS_WDT_CFG.EN && s.domUp .app && s.sys.held.isNone && !(s.coreA.halted && s.fbit SYS_WDT_CFG.DBGSTOP)

/-- Expiry: a core reset, or a system reset while SYS is 1. -/
def execWatchdogExpiry (straps : BitVec 5) (s : State) : Host.Outcome State Fault Refusal :=
  if !s.wdtCounts then .next s
  else if s.fbit SYS_WDT_CFG.SYS then .next ((s.sysReset .syswdt).releaseBoot straps.toNat)
  else .next (s.coreReset cCWDT).wdtLoad.bootPending

/-- WARN ms remain. -/
def execWdtWarn (s : State) : Host.Outcome State Fault Refusal :=
  .next (if s.wdtCounts then (s.rsetN SYS_WDT_CNT.addr (s.fget SYS_WDT_CFG.WARN)).raise Pg.SYS 1 else s)

def execWdtKick (a : Acc) (v : Word) (s : State) : Host.Outcome State Fault Refusal := .next (s.writeReg pageHook a SYS_WDT_KICK.addr v)

/-! ## Oscillators and VDD (R459, R24) -/

/-- The HFXO stops: RECOVERY, with FRC on the sleep counter as under R266. SYSPLL loses its reference, so the clock is at step 0. -/
def execHfxoLoss (t : Frc) (s : State) : Host.Outcome State Fault Refusal :=
  if !(s.hfxoOn && s.sys.hfxoStable && s.sys.held.isNone) then .next s
  else
    let s := (s.advance t).fset SYS_STAT.HFXO_FAIL 1
    let s := s.setSys fun y => { y with hfxoStable := false, syspllLock := false }
    let s := if 0 < s.fget AVS_STAT.STEP then s.avsStep 0 else s
    .next (s.sleepHandoff.recover 4)

/-- The LFXO stops: its users go on from the 32 kHz RC oscillator. -/
def execLfxoLoss (t : Frc) (s : State) : Host.Outcome State Fault Refusal :=
  if s.fbit SYS_STAT.LFXO_FAIL || s.sys.held.isSome then .next s
  else .next ((((s.advance t).fset SYS_STAT.LFXO_FAIL 1).raise Pg.SYS 2).sysFault 5 |>.fset NTU_LFCAL.VALID 0)

/-- LFXO edges have returned for 1 s. -/
def execLfxoEdgesReturn (s : State) : Host.Outcome State Fault Refusal := .next (s.fset SYS_STAT.LFXO_FAIL 0)

/-- The pending correction has been slewed away by this instant (R262). -/
def execSlewEnd (t : Frc) (s : State) : Host.Outcome State Fault Refusal := .next (s.advance t)

/-- VDD is lost: BACKUP. What a reset at power-on will clear is lost now; the Glade stops but for its seal monitor (R273), and the RTC
is locked out (R399). -/
def execVddLoss (s : State) : Host.Outcome State Fault Refusal :=
  let s := (s.sysReset .por).setPwr fun w => { w with st := .backup }
  .next s.gladeLoss

/-! ## Wake sources (R409) -/

/-- The state that sleep or an excursion is in. -/
def State.sleepState (s : State) : PwrState := if s.pwr.exc then s.pwr.home else s.pwr.st

/-- Sources pending at a wake: those the command names and those that have arrived, if enabled and able to act in the state. -/
def State.wakeSources (s : State) (src : Nat) : Nat :=
  maskOf ((List.range 6).filter fun b =>
    (bitOf src b || bitOf s.pwr.wakePend b) && bitOf (actsIn s.sleepState) b && bitOf (s.raw PWR_WAKE_EN.addr) b)

/-- HSP_CS_N is asserted when it is named as a source. -/
def State.wakeCs (s : State) (src : Nat) : State := if bitOf src 4 then s.setHsp fun h => { h with cs := true } else s

/-- Tanum-A after WAIT: it goes on. -/
def State.coreGo (s : State) : State := { s with coreA := { s.coreA with waiting := false } }

/-! ## Wake (R410, R411) -/

/-- PWR_WAKE_SRC records what was pending and the state left; WAKE is raised. -/
def State.wakeRecord (s : State) (src : Nat) (irq : Bool) (p : PwrState) : State :=
  let s := ((s.fset PWR_WAKE_SRC.SRC src).fsetB PWR_WAKE_SRC.IRQ irq).fset PWR_WAKE_SRC.FROM (pwrCode p)
  s.raise Pg.PWR 2

/-- Tanum-A at the resume point, with the registers of a reset. -/
def State.resumeCore (s : State) : State :=
  { s with coreA := { pc := s.rget PWR_RESUME.addr, ssp := s.rget PWR_RESUME_SP.addr &&& ~~~3#32 } }

/-- A sleep state is left for RUN; during an excursion its slot continues. -/
def State.wakeUp (s : State) (src : Nat) (straps : Nat) : State :=
  let p := s.sleepState
  let m := s.wakeSources src
  let irq := s.irqActs p
  let s := s.wakeCs src
  let s := s.loseContents
  if p = .off then (((s.sysReset .offWake).wakeRecord m false p).releaseBoot straps).event Pg.PWR 1 76
  else
    let s := s.withPins fun s => s.setPwr fun w => { w with st := .run, exc := false, home := .run, leaving := none, wakePend := 0, heldA := none }
    let s := if p.deep then (s.resumeCore.sampleStraps (straps % 16 + if s.sys.testStrap then 16 else 0)).wdtLoad else s.coreGo
    (s.wakeRecord m irq p).event Pg.PWR 1 76

/-- Something wakes the device: it sleeps or is in an excursion, and an enabled source is pending. -/
def State.canWake (s : State) (src : Nat) : Bool :=
  s.sys.held.isNone && s.sleepState != .run && s.sleepState != .backup && (s.wakeSources src != 0 || s.irqActs s.sleepState)

def execWake (src : BitVec 6) (straps : BitVec 5) (s : State) : Host.Outcome State Fault Refusal :=
  .next (if s.canWake src.toNat then s.wakeUp src.toNat straps.toNat else s)

/-! ## Abort of an entry (R405) -/

/-- The last entry step at which a wake event aborts the entry into a state (R404). -/
def lastAbortEp (p : PwrState) : Nat := match p with | .doze => 2 | .nap => 4 | _ => 5

/-- A wake event at EP2 to EP5: the steps are undone and WAIT completes; an entry out of an excursion takes the wake path. -/
def execEntryAbort (ep : Fin 6) (src : BitVec 6) (s : State) : Host.Outcome State Fault Refusal :=
  let p := s.pwr.st
  match s.pwr.leaving with
  | none => .next s
  | some from' =>
    if !(2 ≤ ep.val && ep.val ≤ lastAbortEp p && s.canWake src.toNat && s.ntu.entry.isNone) then .next s
    else
      let m := s.wakeSources src.toNat
      let s := (((s.fset PWR_STAT.ABORTED 1).fset PWR_STAT.ABORT_EP ep.val).finc PWR_CNT.ABORTS).raise Pg.PWR 1
      if from' = .run then
        let s := s.withPins fun s => s.setPwr fun w => { w with st := .run, leaving := none, heldA := none, wakePend := w.wakePend - (w.wakePend &&& m) }
        .next ((if 3 ≤ ep.val && p.deep then s.pspStopNow 7 else s).wakeCs src.toNat).coreGo
      else
        let s := s.withPins fun s => s.setPwr fun w => { w with st := .doze, exc := true, home := p, leaving := none, heldA := none }
        .next (s.wakeUp src.toNat s.sys.hstraps)

/-! ## Radio excursions (R407) -/

/-- The slot whose excursion has begun by now: the last whose tick lies within the lead. An excursion out of SLUMBER may begin up to an LFXO
period before. -/
def State.excursionSlot (s : State) : Nat :=
  (s.nt + us (if s.pwr.st = .nap then s.fget PWR_LEAD.NAP else s.fget PWR_LEAD.SLP + 31) - s.epoch) / s.slotLen

/-- The device leaves NAP or SLUMBER for an active slot, and Tanum-A stays as it is. -/
def execExcursionStart (t : Frc) (s : State) : Host.Outcome State Fault Refusal :=
  let s := s.advance t
  if !((s.pwr.st = .nap || s.pwr.st = .slumber) && s.sys.held.isNone && s.cadRuns && s.slotActive s.excursionSlot) then .next s
  else
    let home := s.pwr.st
    let s := s.loseContents
    let s := s.withPins fun s => s.setPwr fun w => { w with st := .doze, exc := true, home := home }
    .next (s.finc PWR_CNT.EXC)

end Sys2Proof.Machine
end

