-- ==== Sys2Proof/Machine/Tanum.lean ====
section
/-!
DEFINITION. Tanum's arithmetic, multiplier and special-register instructions (R301, R302, R307, R323, R324, R327).
Readings of the manual made here: DEDUCED in log entries 91, 92, 94.
-/
namespace Sys2Proof.Machine
open Sys2Proof

/-! ## Two-operand arithmetic (opcodes 0x10 to 0x1F, 0x20 to 0x2D) -/

/-- An instruction of the group: a shift count that the manual leaves open is a free value. -/
def aluBody (c : CoreId) (op : AluOp) (p : Prefixes) (d : RegNo) (src : Src) : Body := fun fin s =>
  let x := s.core c
  let t := if x.openCount op p src then s.freeStep else s
  .ok 0 (t.setCore c (fin none (x.alu op p d src s.free)))

def State.aluIns (s : State) (c : CoreId) (op : AluOp) (p : Prefixes) (d : RegNo) (src : Src) : Host.Outcome State Fault Refusal :=
  s.instr c p ((if src.isImm then 0x20 else 0x10) + op.code) src.imm false (aluBody c op p d src)

def execMov (c : CoreId) (p : Prefixes) (d : RegNo) (src : Src) (s : State) : Host.Outcome State Fault Refusal := s.aluIns c .mov p d src
def execAdd (c : CoreId) (p : Prefixes) (d : RegNo) (src : Src) (s : State) : Host.Outcome State Fault Refusal := s.aluIns c .add p d src
def execAdc (c : CoreId) (p : Prefixes) (d : RegNo) (src : Src) (s : State) : Host.Outcome State Fault Refusal := s.aluIns c .adc p d src
def execSub (c : CoreId) (p : Prefixes) (d : RegNo) (src : Src) (s : State) : Host.Outcome State Fault Refusal := s.aluIns c .sub p d src
def execSbc (c : CoreId) (p : Prefixes) (d : RegNo) (src : Src) (s : State) : Host.Outcome State Fault Refusal := s.aluIns c .sbc p d src
def execAnd (c : CoreId) (p : Prefixes) (d : RegNo) (src : Src) (s : State) : Host.Outcome State Fault Refusal := s.aluIns c .and p d src
def execOr (c : CoreId) (p : Prefixes) (d : RegNo) (src : Src) (s : State) : Host.Outcome State Fault Refusal := s.aluIns c .or p d src
def execXor (c : CoreId) (p : Prefixes) (d : RegNo) (src : Src) (s : State) : Host.Outcome State Fault Refusal := s.aluIns c .xor p d src
def execCmp (c : CoreId) (p : Prefixes) (d : RegNo) (src : Src) (s : State) : Host.Outcome State Fault Refusal := s.aluIns c .cmp p d src
def execTst (c : CoreId) (p : Prefixes) (d : RegNo) (src : Src) (s : State) : Host.Outcome State Fault Refusal := s.aluIns c .tst p d src
def execShl (c : CoreId) (p : Prefixes) (d : RegNo) (src : Src) (s : State) : Host.Outcome State Fault Refusal := s.aluIns c .shl p d src
def execShr (c : CoreId) (p : Prefixes) (d : RegNo) (src : Src) (s : State) : Host.Outcome State Fault Refusal := s.aluIns c .shr p d src
def execSar (c : CoreId) (p : Prefixes) (d : RegNo) (src : Src) (s : State) : Host.Outcome State Fault Refusal := s.aluIns c .sar p d src
def execRor (c : CoreId) (p : Prefixes) (d : RegNo) (src : Src) (s : State) : Host.Outcome State Fault Refusal := s.aluIns c .ror p d src
def execNeg (c : CoreId) (p : Prefixes) (d src : RegNo) (s : State) : Host.Outcome State Fault Refusal := s.aluIns c .neg p d (.reg src)
def execNot (c : CoreId) (p : Prefixes) (d src : RegNo) (s : State) : Host.Outcome State Fault Refusal := s.aluIns c .not p d (.reg src)

/-! ## Bits -/

/-- The register with one bit changed. -/
def execBset (c : CoreId) (p : Prefixes) (rd : RegNo) (n : Fin 32) (s : State) : Host.Outcome State Fault Refusal :=
  s.instr c p 0x70 1 false (coreBody c fun x => x.setReg rd (putBit (x.reg rd) n.val true))
def execBclr (c : CoreId) (p : Prefixes) (rd : RegNo) (n : Fin 32) (s : State) : Host.Outcome State Fault Refusal :=
  s.instr c p 0x71 1 false (coreBody c fun x => x.setReg rd (putBit (x.reg rd) n.val false))
/-- BTST: Z is set when the bit is 0, as TST would set it. -/
def execBtst (c : CoreId) (p : Prefixes) (rd : RegNo) (n : Fin 32) (s : State) : Host.Outcome State Fault Refusal :=
  s.instr c p 0x72 1 false (coreBody c fun x => x.setPsw 1 (!(x.reg rd).getLsbD n.val))

/-- Leading zeros of a word. -/
def clz (v : Word) : Nat := ((List.range 32).takeWhile fun i => !v.getLsbD (31 - i)).length
/-- CLZ: Z describes the count that is written. -/
def execClz (c : CoreId) (p : Prefixes) (rd rs : RegNo) (s : State) : Host.Outcome State Fault Refusal :=
  s.instr c p 0x73 0 false (coreBody c fun x => (x.setPsw 1 (clz (x.reg rs) = 0)).setReg rd (BitVec.ofNat 32 (clz (x.reg rs))))

/-! ## Multiplier (R301, R302) -/

/-- The product of the low 18 bits of two words. -/
def mul18 (sg : Bool) (a b : Word) : Int :=
  if sg then signed 18 a.toNat * signed 18 b.toNat else ((a.toNat % 2 ^ 18 * (b.toNat % 2 ^ 18) : Nat) : Int)
/-- The product of two words. -/
def mul32 (sg : Bool) (a b : Word) : Int := if sg then a.toInt * b.toInt else ((a.toNat * b.toNat : Nat) : Int)

/-- An operation is issued; it lands later (MULTIPLY_LANDS), in issue order. -/
def Core.issue (x : Core) (m : MulOp) : Core := { x with mul := x.mul ++ [m] }
/-- A product's two words: for 18 bits [31:0] and what lies above, extended. -/
def prodOp (p : Int) : MulOp := .prod (BitVec.ofInt 32 p) (BitVec.ofInt 32 (p / 4294967296))
def macOp (p : Int) (sat : Bool) : MulOp := .mac (BitVec.ofInt 32 p) (BitVec.ofInt 32 (p / 4294967296)) p sat

def execMuls (c : CoreId) (p : Prefixes) (ra rb : RegNo) (s : State) : Host.Outcome State Fault Refusal :=
  s.instr c p 0x30 0 false (coreBody c fun x => x.issue (prodOp (mul18 true (x.reg ra) (x.reg rb))))
def execMulu (c : CoreId) (p : Prefixes) (ra rb : RegNo) (s : State) : Host.Outcome State Fault Refusal :=
  s.instr c p 0x31 0 false (coreBody c fun x => x.issue (prodOp (mul18 false (x.reg ra) (x.reg rb))))
def execMacs (c : CoreId) (p : Prefixes) (ra rb : RegNo) (s : State) : Host.Outcome State Fault Refusal :=
  s.instr c p 0x32 0 false (coreBody c fun x => x.issue (macOp (mul18 true (x.reg ra) (x.reg rb)) p.sat))
def execMacu (c : CoreId) (p : Prefixes) (ra rb : RegNo) (s : State) : Host.Outcome State Fault Refusal :=
  s.instr c p 0x33 0 false (coreBody c fun x => x.issue (macOp (mul18 false (x.reg ra) (x.reg rb)) p.sat))
def execMul32s (c : CoreId) (p : Prefixes) (ra rb : RegNo) (s : State) : Host.Outcome State Fault Refusal :=
  s.instr c p 0x34 0 false (coreBody c fun x => x.issue (prodOp (mul32 true (x.reg ra) (x.reg rb))))
def execMul32u (c : CoreId) (p : Prefixes) (ra rb : RegNo) (s : State) : Host.Outcome State Fault Refusal :=
  s.instr c p 0x35 0 false (coreBody c fun x => x.issue (prodOp (mul32 false (x.reg ra) (x.reg rb))))
def execClracc (c : CoreId) (p : Prefixes) (s : State) : Host.Outcome State Fault Refusal :=
  s.instr c p 0x36 0 false (coreBody c fun x => x.issue .clr)

/-! ## Special registers (R297, R324) -/

/-- A special register as MOVS reads it. -/
def Core.special (x : Core) (i : Nat) : Word :=
  match i with
  | 0 => x.psw | 1 => x.prl | 2 => x.prh | 3 => x.paccl | 4 => x.pacch | 5 => x.rpc | 6 => x.ssp | _ => x.usp

/-- PSW as MOVS leaves it: in user mode only the flags and SAT change. -/
def pswWrite (c : CoreId) (x : Core) (v : Word) : Word :=
  if x.user then (x.psw &&& ~~~0x1F#32) ||| (v &&& 0x1F#32)
  else match c with | .a => v &&& pswMask | .g => v &&& pswMaskG

/-- A special register as MOVS writes it. -/
def Core.setSpecial (x : Core) (c : CoreId) (i : Nat) (v : Word) : Core :=
  match i with
  | 0 => { x with psw := pswWrite c x v }
  | 1 => x.issue (.prl v)
  | 2 => x.issue (.prh v)
  | 3 => x.issue (.paccl v)
  | 4 => x.issue (.pacch (v.setWidth 16))
  | 5 => { x with rpc := v }
  | 6 => { x with ssp := v }
  | _ => { x with usp := v }

/-- The fault of an instruction whose encoding does not exist. -/
def illegalBody (c : CoreId) : Body := fun _ s => .fault ⟨5, (s.core c).pc.toNat, false, 3, 0, false⟩ s

/-- MOVS Wd, Sx; indices 8 to 15 are illegal encodings, whatever the condition. -/
def execMovsFromSpecial (c : CoreId) (p : Prefixes) (d : RegNo) (sx : Fin 16) (s : State) : Host.Outcome State Fault Refusal :=
  if 8 ≤ sx.val then s.instr c { p with cond := none } 0x38 0 false (illegalBody c)
  else s.instr c p 0x38 0 false (coreBody c fun x => x.setReg d (x.special sx.val))

/-- MOVS Sx, Ws; a move to SSP in user mode is a privilege fault. -/
def execMovsToSpecial (c : CoreId) (p : Prefixes) (sx : Fin 16) (src : RegNo) (s : State) : Host.Outcome State Fault Refusal :=
  if 8 ≤ sx.val then s.instr c { p with cond := none } 0x39 0 false (illegalBody c)
  else s.instr c p 0x39 0 (sx.val = 6) (coreBody c fun x => x.setSpecial c sx.val (x.reg src))

end Sys2Proof.Machine
end

