-- ==== Sys2Proof/Machine/TanumMem.lean ====
section
/-!
DEFINITION. Tanum's memory, block and control-flow instructions (R300, R304 to R306, R311 to R313, R322, R325, R326).
Readings of the manual made here: DEDUCED in log entries 92, 94.
-/
namespace Sys2Proof.Machine
open Sys2Proof

/-! ## Loads and stores (R325) -/

/-- A loaded value goes on, a fault or a stall ends the instruction. -/
def Got.andThen (g : Got) (f : Nat → State → Got) : Got := match g with | .ok v t => f v t | r => r

/-- LD: the loaded value stays in a register that is also its base. -/
def ldBody (c : CoreId) (p : Prefixes) (rt : RegNo) (mode : MemMode) : Body := fun fin s =>
  let n := p.size
  (s.load c ((s.core c).effAddr n mode).toNat n).andThen fun v t =>
    .ok 0 (t.setCore c (fin none (((t.core c).baseStep n mode).setReg rt (p.extend v))))

/-- ST: the register's value before the instruction is stored. -/
def stBody (c : CoreId) (p : Prefixes) (rt : RegNo) (mode : MemMode) : Body := fun fin s =>
  let x := s.core c
  let n := p.size
  s.store c (x.effAddr n mode).toNat n ((x.reg rt).toNat % 256 ^ n) fun y => fin none (y.baseStep n mode)

def execLd (c : CoreId) (p : Prefixes) (rt : RegNo) (mode : MemMode) (s : State) : Host.Outcome State Fault Refusal :=
  s.instr c p (0x40 + mode.code) mode.imm false (ldBody c p rt mode)
def execSt (c : CoreId) (p : Prefixes) (rt : RegNo) (mode : MemMode) (s : State) : Host.Outcome State Fault Refusal :=
  s.instr c p (0x48 + mode.code) mode.imm false (stBody c p rt mode)
def execLea (c : CoreId) (p : Prefixes) (rt rb : RegNo) (d : BitVec 16) (s : State) : Host.Outcome State Fault Refusal :=
  s.instr c p 0x46 2 false (coreBody c fun x => x.setReg rt (x.reg rb + d.signExtend 32))
def execPush (c : CoreId) (p : Prefixes) (rs : RegNo) (s : State) : Host.Outcome State Fault Refusal :=
  s.instr c p 0x4E 0 false (stBody c {} rs (.preDec 15))
def execPop (c : CoreId) (p : Prefixes) (rd : RegNo) (s : State) : Host.Outcome State Fault Refusal :=
  s.instr c p 0x4F 0 false (ldBody c {} rd (.postInc 15))

/-! ## Block instructions (R326) -/

/-- W0 and W1 step by the access size. -/
def Core.stepPtr (x : Core) (r : RegNo) (n : Nat) : Core := x.setReg r (x.reg r + BitVec.ofNat 32 n)

def cpyBody (c : CoreId) (p : Prefixes) : Body := fun fin s =>
  let n := p.size
  (s.load c ((s.core c).reg 0).toNat n).andThen fun v t =>
    t.store c ((t.core c).reg 1).toNat n v fun y => fin none ((y.stepPtr 0 n).stepPtr 1 n)
def fillBody (c : CoreId) (p : Prefixes) : Body := fun fin s =>
  let x := s.core c
  let n := p.size
  s.store c (x.reg 1).toNat n ((x.reg 2).toNat % 256 ^ n) fun y => fin none (y.stepPtr 1 n)
/-- The value read, extended as a load, is compared with W2. -/
def scanBody (c : CoreId) (p : Prefixes) : Body := fun fin s =>
  let n := p.size
  (s.load c ((s.core c).reg 0).toNat n).andThen fun v t =>
    let x := t.core c
    let o := aluSub 32 (p.extend v).toNat (x.reg 2).toNat 0
    .ok 0 (t.setCore c (fin none ((x.putFlags (aluFlags .cmp 32 o.r o)).stepPtr 0 n)))
/-- Both operands are read as loads, then multiplied and accumulated. -/
def macmBody (c : CoreId) (sg : Bool) (p : Prefixes) : Body := fun fin s =>
  let n := p.size
  (s.load c ((s.core c).reg 0).toNat n).andThen fun a t =>
    (t.load c ((t.core c).reg 1).toNat n).andThen fun b u =>
      let x := (u.core c).issue (macOp (mul18 sg (p.extend a) (p.extend b)) p.sat)
      .ok 0 (u.setCore c (fin none ((x.stepPtr 0 n).stepPtr 1 n)))

def execCpy (c : CoreId) (p : Prefixes) (s : State) : Host.Outcome State Fault Refusal := s.instr c p 0x50 0 false (cpyBody c p)
def execFill (c : CoreId) (p : Prefixes) (s : State) : Host.Outcome State Fault Refusal := s.instr c p 0x51 0 false (fillBody c p)
def execScan (c : CoreId) (p : Prefixes) (s : State) : Host.Outcome State Fault Refusal := s.instr c p 0x52 0 false (scanBody c p)
def execMacsm (c : CoreId) (p : Prefixes) (s : State) : Host.Outcome State Fault Refusal := s.instr c p 0x53 0 false (macmBody c true p)
def execMacum (c : CoreId) (p : Prefixes) (s : State) : Host.Outcome State Fault Refusal := s.instr c p 0x54 0 false (macmBody c false p)

/-! ## Branches (R322, R325) -/

/-- A branch body: `f` gives the target, and the core it leaves, from the address of the next instruction and the core. -/
def branchBody (c : CoreId) (next : Core → Word) (f : Word → Core → Word × Core) : Body := fun fin s =>
  let x := s.core c
  let r := f (next x) x
  .ok 0 (s.setCore c (fin (some r.1) r.2))

/-- The address of the next instruction. -/
def nextPc (p : Prefixes) (op imm : Nat) (x : Core) : Word :=
  x.pc + BitVec.ofNat 32 (match opInfo op with | some i => insLen p i imm | none => 0)

/-- A branch that an opcode encodes. -/
def State.branch (s : State) (c : CoreId) (p : Prefixes) (op imm : Nat) (f : Word → Core → Word × Core) : Host.Outcome State Fault Refusal :=
  s.instr c p op imm false (branchBody c (nextPc p op imm) f)

/-- W14 is the link register. -/
def Core.link (x : Core) (a : Word) : Core := x.setReg 14 a

/-- BR has displacements of 8 and 16 bits. -/
def execBr (c : CoreId) (p : Prefixes) (d : Disp) (s : State) : Host.Outcome State Fault Refusal :=
  match d with
  | .d8 _ => s.branch c p 0x60 1 fun n x => (n + d.value, x)
  | .d16 _ => s.branch c p 0x61 2 fun n x => (n + d.value, x)
  | .d32 _ => s.instr c { p with cond := none } 0x60 1 false (illegalBody c)
/-- CALL has displacements of 16 and 32 bits. -/
def execCall (c : CoreId) (p : Prefixes) (d : Disp) (s : State) : Host.Outcome State Fault Refusal :=
  match d with
  | .d8 _ => s.instr c { p with cond := none } 0x62 2 false (illegalBody c)
  | .d16 _ => s.branch c p 0x62 2 fun n x => (n + d.value, x.link n)
  | .d32 _ => s.branch c p 0x63 4 fun n x => (n + d.value, x.link n)
def execJmp (c : CoreId) (p : Prefixes) (rs : RegNo) (s : State) : Host.Outcome State Fault Refusal :=
  s.branch c p 0x64 0 fun _ x => (putBit (x.reg rs) 0 false, x)
def execCallr (c : CoreId) (p : Prefixes) (rs : RegNo) (s : State) : Host.Outcome State Fault Refusal :=
  s.branch c p 0x65 0 fun n x => (putBit (x.reg rs) 0 false, x.link n)
def execRet (c : CoreId) (p : Prefixes) (s : State) : Host.Outcome State Fault Refusal := s.branch c p 0x05 0 fun _ x => (x.reg 14, x)
def execDbnz (c : CoreId) (p : Prefixes) (rd : RegNo) (d : Byte) (s : State) : Host.Outcome State Fault Refusal :=
  s.branch c p 0x66 1 fun n x =>
    let v := x.reg rd - 1#32
    (if v = 0#32 then n else n + d.signExtend 32, x.setReg rd v)

/-! ## System instructions -/

def execNop (c : CoreId) (p : Prefixes) (s : State) : Host.Outcome State Fault Refusal := s.instr c p 0x00 0 false (coreBody c id)
/-- SYNC drains the fetch queue and the store buffer, which hold nothing between commands. -/
def execSync (c : CoreId) (p : Prefixes) (s : State) : Host.Outcome State Fault Refusal := s.instr c p 0x01 0 false (coreBody c id)

/-- WAIT (R313, R403): Tanum-A stops in the target state unless it completes at once; Tanum-G stops until a line is pending and enabled. -/
def waitBody (c : CoreId) : Body := fun fin s =>
  let t := s.setCore c (fin none (s.core c))
  match c with
  | .a => let r := t.waitRequest; .ok 0 { r.1 with coreA := { r.1.coreA with waiting := r.2 } }
  | .g => .ok 0 { t with coreG := { t.coreG with waiting := true } }
def execWait (c : CoreId) (p : Prefixes) (s : State) : Host.Outcome State Fault Refusal := s.instr c p 0x02 0 true (waitBody c)

/-- SVC takes vector 8; the saved PC is the next instruction. -/
def svcBody (c : CoreId) : Body := fun fin s =>
  match (s.setCore c (fin none (s.core c))).enter c 8 .trap with
  | some t => .ok 0 t
  | none => .stall
def execSvc (c : CoreId) (p : Prefixes) (_n : Byte) (s : State) : Host.Outcome State Fault Refusal := s.instr c p 0x04 1 false (svcBody c)

/-- RETI (R312): the frame's PC, PSW and RPC return, SSP rises by 16, and the active bit of the frame's line clears. -/
def retiBody (c : CoreId) : Body := fun _ s =>
  let sp := (s.core c).ssp
  let at' (k : Nat) : Nat := (sp + BitVec.ofNat 32 k).toNat
  (s.load c (at' 0) 4).andThen fun pc s => (s.load c (at' 4) 4).andThen fun psw s =>
    (s.load c (at' 8) 4).andThen fun rpc s => (s.load c (at' 12) 4).andThen fun vec s =>
      let x := s.core c
      let w := BitVec.ofNat 32 psw
      if c = .g && w.getLsbD 13 then .fault ⟨6, x.pc.toNat, false, 3, 0, false⟩ s
      else
        let m := match c with | .a => pswMask | .g => pswMaskG
        let x := { x with pc := BitVec.ofNat 32 pc, psw := w &&& m, rpc := BitVec.ofNat 32 rpc, ssp := sp + 16#32, matched := false, waiting := false, atomic := false }
        .ok 0 ((s.setCore c x).lineLeft c (vec % 256))
def execReti (c : CoreId) (p : Prefixes) (s : State) : Host.Outcome State Fault Refusal := s.instr c p 0x03 0 true (retiBody c)

end Sys2Proof.Machine
end

