-- ==== Sys2Proof/Machine/Hsp.lean ====
section
/-!
DEFINITION. The host serial port's transactions (R432 to R441), the privileged host commands (R63, R440), and the debug and boundary-scan port
(R11, R460).
Readings of the manual made here: DEDUCED in log entries 25, 72, 130; DESIGN CHOICE in log entry 132.
-/
namespace Sys2Proof.Machine
open Sys2Proof

/-! ## Transactions (R432, R441) -/

/-- The port serves the host: D_APP is up, no reset, the straps are sampled, and the balls are not routed to the Glade. -/
def State.hspServes (s : State) : Bool := s.busUp && s.domUp .app && s.sys.strapsDue.isNone && !s.hsp.routed

/-- The four bytes of STATUS. -/
def State.hspStatus (s : State) : List Word :=
  let st := s.raw HSP_STAT.addr
  let cfg := s.raw HSP_CFG.addr
  [ s.hspReady.toNat + st / 8 % 32 * 2 + s.token.toNat * 64 + s.hsp.priv.isSome.toNat * 128,
    s.fget HSP_WIN.PAGE,
    s.fget HSP_WIN.QTR + s.fget HSP_WIN.VIEW * 4 + s.fget HSP_STAT.BADWIN * 16 + s.fget HSP_CTRL.EN * 32,
    cfg / 4 % 16 + s.fget HSP_CFG.DUMMY * 16 ].map (BitVec.ofNat 32 ·)

/-- What the port drives on HSP_D1 during the command byte (R431): the status byte where the command phase is one lane wide. -/
def State.hspCmdOut (s : State) : Option Byte :=
  if s.hspServes && s.fget HSP_CFG.CMDW = 0 then s.hspStatus.head?.map (·.truncate 8) else none

/-- HSP_CS_N is asserted for a transaction with its command byte; from NAP down that is a wake event (R409). Each assertion carries one command.
While the balls are routed to the Glade, the byte reaches its maintenance port. -/
def State.hspBegin (s : State) (byte : Nat) (f : State → State) : Host.Outcome State Fault Refusal :=
  if s.hsp.routed then s.maintCode byte
  else if s.hsp.cs || s.pwr.st = .backup then .next s
  else
    let s := s.setHsp fun h => { h with cs := true, out := [], cmdOut := s.hspCmdOut }
    let s := if s.sleepState = .run || s.sleepState = .doze then s else s.wakeEvent 4
    .next (if s.hspServes then f (s.finc HSP_CNT.XFER) else s)

/-- The address of word `i` of the window (R433). -/
def State.hspAddr (s : State) (i : Nat) : Nat :=
  0x40000000 + s.fget HSP_WIN.PAGE * 0x1000 + s.fget HSP_WIN.VIEW * 0x400 + s.fget HSP_WIN.QTR * 0x100 + 4 * i

/-- A sticky bit of HSP_STAT, with its interrupt. -/
def State.hspSticky (s : State) (f : Fld) (bit : Nat) : State := (s.fset f 1).raise Pg.HSP bit

/-- A rejected or failed access (R437). -/
def State.hspError (s : State) (a : Nat) (wr : Bool) (cause : Nat) : State :=
  let s := (s.hspSticky HSP_STAT.BUSERR 0).finc HSP_CNT.ERRS
  s.rsetN HSP_ERRINFO.addr (a % 0x1000 + pageOf a % 64 * 2 ^ 12 + (if wr then 2 ^ 18 else 0) + cause * 2 ^ 19)

/-- What R437 makes of an access that was judged so. -/
def State.hspJudged (s : State) (a : Nat) (wr : Bool) : Verdict → State
  | .ok => s
  | .reject _ => s.hspError a wr 1
  | .busError => s.hspError a wr 2

/-- One register read; a failed one gives 0. -/
def State.hspRead1 (s : State) (a : Nat) : State × Word :=
  let v := s.judge .hsp (s.sourceOf .hsp) a false
  let t := s.busRead .hsp a
  (t.hspJudged a false v, if v = .ok then t.bus.data else 0#32)

/-- One register write is performed; the device may be in reset after it. -/
def State.hspWrite1 (s : State) (a : Nat) (w : Word) : State :=
  let v := s.judge .hsp (s.sourceOf .hsp) a true
  (s.busWrite pageHook .hsp a w).hspJudged a true v

/-- Every posted write completes, in order (R436). -/
def State.hspFlush (s : State) : State :=
  let l := s.hsp.posted
  l.foldl (fun s p => if s.hspServes then s.hspWrite1 p.1 p.2 else s) (s.setHsp fun h => { h with posted := [] })

/-! ## READ, WRITE and WINDOW -/

/-- A word that is not complete when it is due: zero is sent, and the value is kept (R435). What FRC or NT will be when the handoff lets it
be read is free. -/
def State.hspLate (s : State) (a : Nat) : State :=
  let r := if s.frcWaits .hsp a then (s.freeStep, BitVec.ofNat 32 s.free) else s.hspRead1 a
  let s := (r.1.hspSticky HSP_STAT.LATE 1).finc HSP_CNT.ERRS
  (s.rset HSP_LATE_DATA.addr r.2).rsetN HSP_LATE_ADDR.addr a

def State.hspSend (s : State) (w : Word) : State := s.setHsp fun h => { h with out := h.out ++ [w] }

/-- `n` words from index `i` on. The word `lateAt` comes late, if one does; the rest is then sent as zeros. -/
def State.hspReads (s : State) (i : Nat) (lateAt : Option Nat) : Nat → State
  | 0 => s
  | n + 1 =>
    let s := if i = 64 then s.fset HSP_STAT.WRAP 1 else s
    let i := i % 64
    match (if s.frcWaits .hsp (s.hspAddr i) then some 0 else lateAt) with
    | some 0 =>
      let s := s.hspLate (s.hspAddr i)
      s.setHsp fun h => { h with out := h.out ++ List.replicate (n + 1) 0#32 }
    | _ =>
      let r := s.hspRead1 (s.hspAddr i)
      (r.1.hspSend r.2).hspReads (i + 1) (lateAt.map (· - 1)) n

/-- READ: zeros while the port is disabled. -/
def execHspRead (idx : BitVec 6) (n : Nat) (lateAt : Option Nat) (s : State) : Host.Outcome State Fault Refusal :=
  s.hspBegin idx.toNat fun s =>
    if s.fbit HSP_CTRL.EN then s.hspFlush.hspReads idx.toNat lateAt n
    else s.setHsp fun h => { h with out := List.replicate n 0#32 }

/-- A word of a WRITE arrives: performed, or posted behind writes that are not complete; a third is discarded. -/
def State.hspPost (s : State) (a : Nat) (w : Word) (pend : Bool) : State :=
  if !s.hspServes then s
  else if s.hsp.posted.isEmpty && !pend then s.hspWrite1 a w
  else if s.hsp.posted.length < 2 then s.setHsp fun h => { h with posted := h.posted ++ [(a, w)] }
  else s.hspSticky HSP_STAT.DROP 3

/-- Words from index `i` on; from the word `pendFrom` on they do not complete within the transaction. -/
def State.hspWrites (s : State) (i : Nat) (pendFrom : Option Nat) : List Word → State
  | [] => s
  | w :: l =>
    if 64 ≤ i then s.fset HSP_STAT.WRAP_W 1
    else (s.hspPost (s.hspAddr i) w (pendFrom = some 0)).hspWrites (i + 1) (pendFrom.map (· - 1)) l

def execHspWrite (idx : BitVec 6) (ws : List Word) (pendFrom : Option Nat) (partialWord : Bool) (s : State) :
    Host.Outcome State Fault Refusal :=
  s.hspBegin (0x40 + idx.toNat) fun s =>
    if s.fbit HSP_CTRL.EN then
      let s := s.hspWrites idx.toNat pendFrom ws
      if partialWord && s.hspServes then s.hspSticky HSP_STAT.DROP 3 else s
    else s

/-- The oldest posted write completes. -/
def execPostedWriteDone (s : State) : Host.Outcome State Fault Refusal :=
  match s.hsp.posted with
  | [] => .next s
  | p :: l => .next (if s.busUp then (s.setHsp fun h => { h with posted := l }).hspWrite1 p.1 p.2 else s)

/-- WINDOW: PAGE, then QTR and VIEW. -/
def execHspWindow (b0 b1 : Byte) (s : State) : Host.Outcome State Fault Refusal :=
  s.hspBegin 0x80 fun s =>
    if !s.fbit HSP_CTRL.EN then s
    else if 0x3F < b0.toNat || 16 ≤ b1.toNat then s.fset HSP_STAT.BADWIN 1
    else s.setHsp fun h => { h with win := some (b0.toNat + b1.toNat * 2 ^ 8) }

/-! ## EXT (R438, R439) -/

/-- NOP, and every code above 4. -/
def execExtNop (_code _arg : BitVec 4) (s : State) : Host.Outcome State Fault Refusal := s.hspBegin 0xC0 id

/-- STATUS; with argument bit 0 the sticky bits clear after the response. -/
def execExtStatus (arg : BitVec 4) (s : State) : Host.Outcome State Fault Refusal :=
  s.hspBegin 0xC0 fun s =>
    let s := s.setHsp fun h => { h with out := s.hspStatus }
    if arg.getLsbD 0 then
      [HSP_STAT.BUSERR, HSP_STAT.LATE, HSP_STAT.WRAP, HSP_STAT.WRAP_W, HSP_STAT.DROP, HSP_STAT.BADWIN].foldl (fun s f => s.fset f 0) s
    else s

/-- PRESENCE_QUERY: token, level and seal loop, then the token's remaining seconds. -/
def execPresenceQuery (_arg : BitVec 4) (s : State) : Host.Outcome State Fault Refusal :=
  s.hspBegin 0xC0 fun s =>
    let b := s.token.toNat + s.prot.lowFrom.isSome.toNat * 2 + s.glade.sealOpen.toNat * 4
    s.setHsp fun h => { h with out := [BitVec.ofNat 32 b, BitVec.ofNat 32 s.presRemain] }

/-- PRIV_CMD: registered for the deassertion; the confirmation byte is the complement of the sub-command byte. -/
def execPrivCmd (code : BitVec 4) (conf : Option Byte) (s : State) : Host.Outcome State Fault Refusal :=
  s.hspBegin 0xC0 fun s =>
    s.setHsp fun h => { h with priv := some { code := code.toNat, good := conf = some (~~~(0x3#4 ++ code)) } }

/-- LANE_SET: CMDW and DATAW, at the deassertion. -/
def execLaneSet (arg : BitVec 4) (s : State) : Host.Outcome State Fault Refusal :=
  s.hspBegin 0xC0 fun s =>
    if s.fbit HSP_CTRL.EN then
      let cfg := match s.hsp.cfg with | some c => c.toNat | none => s.raw HSP_CFG.addr
      s.setHsp fun h => { h with cfg := some (BitVec.ofNat 32 (fieldPut (fieldPut cfg HSP_CFG.CMDW arg.toNat) HSP_CFG.DATAW (arg.toNat / 4))) }
    else s

/-! ## Privileged commands (R63, R290, R440) -/

/-- The host's accesses. -/
def hostSource : Source := ⟨2, true⟩

/-- Result of a privileged command: 0 accepted, 1 NO_TOKEN, 2 NO_SEAL, 3 OWNER_LOCK, 4 REFUSED. -/
def State.privResult (s : State) (p : PrivCmd) : Nat :=
  if !s.token then 1
  else if !p.good || p.code = 0 || 5 ≤ p.code then 4
  else if p.code = 1 && s.fbit PROT_CTRL.OLOCK then 3
  else if p.code = 4 && !s.glade.sealOpen then 2 else 0

/-- Effect of an accepted command. -/
def State.privEffect (s : State) (code : Nat) : State :=
  match code with
  | 1 => s.setSys fun y => { y with dbgUnlocked := true }
  | 2 => s.fset PROT_CTRL.OLOCK 0
  | 3 => s.zeroise.sysReset .factory
  | 4 => s.setHsp fun h => { h with routeReq := true }
  | _ => s

/-- A privileged command runs: checked, recorded, audited and performed. -/
def State.privRun (s : State) (p : PrivCmd) : State :=
  let res := s.privResult p
  let sl := s.glade.sealOpen.toNat
  let w := p.code + res * 2 ^ 4 + s.token.toNat * 2 ^ 7 + sl * 2 ^ 8 + s.prot.seq * 2 ^ 16
  let s := ((s.setHsp fun h => { h with priv := none }).rsetN HSP_PRIV.addr w).raise Pg.HSP 2
  let s := s.audit hostSource 2 Pg.HSP p.code 0 (s.token.toNat + sl * 2) res
  if res = 0 then s.privEffect p.code else s

/-! ## Deassertion (R430, R433, R441) -/

/-- Routing to the Glade holds while the accepted command and the grant do (R290). -/
def State.hspRoute (s : State) : State := s.setHsp fun h => { h with routed := h.routeReq && s.glade.grant }

/-- What waited for the deassertion takes effect: configuration, window, EN, soft reset. -/
def State.hspApply (s : State) : State :=
  let h := s.hsp
  let s := s.setHsp fun h => { h with cfg := none, win := none, en := none, srst := false }
  let s := match h.cfg with | some c => s.rset HSP_CFG.addr c | none => s
  let s := match h.win with | some w => s.rsetN HSP_WIN.addr w | none => s
  let s := match h.en with | some e => s.fsetB HSP_CTRL.EN e | none => s
  if h.srst then ((s.srstPage Pg.HSP).setHsp fun h => { h with posted := [] }).hspStraps s.sys.hstraps else s

/-- HSP_CS_N is deasserted. A strap sample that was owed is taken; a privileged command runs. -/
def State.hspDeassert (s : State) : State :=
  let s := s.setHsp fun h => { h with cs := false }
  let s := match s.sys.strapsDue with | some n => s.sampleStraps n | none => s
  if !(s.busUp && s.domUp .app) then s
  else
    let s := s.hspApply
    let s := match s.hsp.priv with | some p => s.privRun p | none => s
    s.hspRoute

def execHspCsDeassert (s : State) : Host.Outcome State Fault Refusal := .next s.hspDeassert

/-- A privileged command as one command: the one that waits for its deassertion, or a transaction of its own. -/
def State.privTransaction (s : State) (code : Nat) : State :=
  match s.hsp.priv with
  | some p => if p.code = code then s.hspDeassert else s
  | none => if s.hspServes && !s.hsp.cs then ((s.finc HSP_CNT.XFER).privRun ⟨code, true⟩).hspRoute else s

def execDebugUnlock (s : State) : Host.Outcome State Fault Refusal := .next (s.privTransaction 1)
def execOwnerLockRelease (s : State) : Host.Outcome State Fault Refusal := .next (s.privTransaction 2)
/-- Factory defaults, and the release of the system reset that follows. -/
def execFactoryDefaults (straps : BitVec 5) (s : State) : Host.Outcome State Fault Refusal :=
  let was := s.sys.held.isSome
  let s := s.privTransaction 3
  .next (if was then s else s.releaseBoot straps.toNat)
def execGladeMaintenance (s : State) : Host.Outcome State Fault Refusal := .next (s.privTransaction 4)

/-! ## Debug and boundary-scan port (R11, R460) -/

/-- An instruction of the IEEE 1149.1 port: a locked port executes only three, and every other acts as BYPASS. -/
def execBoundaryScan (i : ScanInstr) (s : State) : Host.Outcome State Fault Refusal :=
  let j : ScanInstr := match i with
    | .bypass | .idcode | .samplePreload => i
    | .extest => if s.sys.dbgUnlocked then i else .bypass
    | .other => .bypass
  .next (s.setSys fun y => { y with tap := j })

/-- What an access of the debug port returned. -/
def State.dbgReturn (s : State) : State × Reach → State
  | (t, .ok v) => { t with bus := { t.bus with err := false, data := BitVec.ofNat 32 v } }
  | (_, .stall) => s
  | (t, _) => { t with bus := { t.bus with err := true } }

/-- An access of the debug port to any target; Tanum-A's private space takes aligned words. -/
def execDebugAccess (addr : Word) (size : AccSize) (w : Option Word) (s : State) : Host.Outcome State Fault Refusal :=
  let a := addr.toNat
  let n := match size with | .byte => 1 | .half => 2 | .word => 4
  let dead : State × Reach := (s, .bus)
  .next (s.dbgReturn (
    if !s.sys.dbgUnlocked || !s.busUp then dead
    else if regionOf a = .priv then
      (if n != 4 || a % 4 != 0 then dead
      else match w with
        | none => let r := s.privRead a; (r.1, .ok r.2)
        | some v => (s.privWrite a v, .ok 0))
    else match w with
      | none => s.busLoad .debug a n
      | some v => s.busStore .debug a n v.toNat))

end Sys2Proof.Machine
end

