-- ==== Sys2Proof/Machine/Dispatch.lean ====
section
/-!
DEFINITION. One arm per command: each calls its meaning.
-/
namespace Sys2Proof.Machine

/-- The effect of a command on everything but the queue. -/
def exec (i : Instr) (s : State) : Host.Outcome State Fault Refusal :=
  match i with
  | .slotTick t => Sys2Proof.Machine.execSlotTick t s
  | .tailrace t steps dur => Sys2Proof.Machine.execTailrace t steps dur s
  | .squashDone t => Sys2Proof.Machine.execSquashDone t s
  | .phaseCheckpoint t => Sys2Proof.Machine.execPhaseCheckpoint t s
  | .lockstepFault t sig grp => Sys2Proof.Machine.execLockstepFault t sig grp s
  | .replayEnd t agree => Sys2Proof.Machine.execReplayEnd t agree s
  | .frcVote => Sys2Proof.Machine.execFrcVote s
  | .appSilent t => Sys2Proof.Machine.execAppSilent t s
  | .sysStateReq a v => Sys2Proof.Machine.execSysStateReq a v s
  | .powerOnReset straps tcxo => Sys2Proof.Machine.execPowerOnReset straps tcxo s
  | .brownOutReset => Sys2Proof.Machine.execBrownOutReset s
  | .pinReset => Sys2Proof.Machine.execPinReset s
  | .sysCmdSystemReset a v straps => Sys2Proof.Machine.execSysCmdSystemReset a v straps s
  | .sysCmdCoreReset a v => Sys2Proof.Machine.execSysCmdCoreReset a v s
  | .watchdogExpiry straps => Sys2Proof.Machine.execWatchdogExpiry straps s
  | .wdtWarn => Sys2Proof.Machine.execWdtWarn s
  | .wdtKick a v => Sys2Proof.Machine.execWdtKick a v s
  | .hfxoLoss t => Sys2Proof.Machine.execHfxoLoss t s
  | .lfxoLoss t => Sys2Proof.Machine.execLfxoLoss t s
  | .vddLoss => Sys2Proof.Machine.execVddLoss s
  | .registerWrite m addr v => Sys2Proof.Machine.execRegisterWrite m addr v s
  | .softReset a page v => Sys2Proof.Machine.execSoftReset a page v s
  | .ownWrite m addr v => Sys2Proof.Machine.execOwnWrite m addr v s
  | .olockSet a v => Sys2Proof.Machine.execOlockSet a v s
  | .protAudIdxWrite a v => Sys2Proof.Machine.execProtAudIdxWrite a v s
  | .latchPairLowRead m addr => Sys2Proof.Machine.execLatchPairLowRead m addr s
  | .latchPairLowWrite m addr v => Sys2Proof.Machine.execLatchPairLowWrite m addr v s
  | .latchPairHighWrite m addr v => Sys2Proof.Machine.execLatchPairHighWrite m addr v s
  | .presenceNFilteredChange t low => Sys2Proof.Machine.execPresenceNFilteredChange t low s
  | .tokenGain t => Sys2Proof.Machine.execTokenGain t s
  | .tokenLapse t => Sys2Proof.Machine.execTokenLapse t s
  | .ovlLoad m => Sys2Proof.Machine.execOvlLoad m s
  | .loadDone => Sys2Proof.Machine.execLoadDone s
  | .applyBase m => Sys2Proof.Machine.execApplyBase m s
  | .ovlCancel m => Sys2Proof.Machine.execOvlCancel m s
  | .ovlReqGo a v => Sys2Proof.Machine.execOvlReqGo a v s
  | .lockSample t locked => Sys2Proof.Machine.execLockSample t locked s
  | .lossOfLock t => Sys2Proof.Machine.execLossOfLock t s
  | .rfeManWrite a v => Sys2Proof.Machine.execRfeManWrite a v s
  | .rfeSynManWrite a v => Sys2Proof.Machine.execRfeSynManWrite a v s
  | .rfeDisable a v => Sys2Proof.Machine.execRfeDisable a v s
  | .narrowAgcStep power => Sys2Proof.Machine.execNarrowAgcStep power s
  | .clipInterval samples => Sys2Proof.Machine.execClipInterval samples s
  | .rfeCalReq a v => Sys2Proof.Machine.execRfeCalReq a v s
  | .clearingWorkStart t => Sys2Proof.Machine.execClearingWorkStart t s
  | .calDone t bit inLimits => Sys2Proof.Machine.execCalDone t bit inLimits s
  | .calTimeout item => Sys2Proof.Machine.execCalTimeout item s
  | .tempUpdate temp => Sys2Proof.Machine.execTempUpdate temp s
  | .cnpEnWrite a v => Sys2Proof.Machine.execCnpEnWrite a v s
  | .laneArm t lane => Sys2Proof.Machine.execLaneArm t lane s
  | .searchEnd lane => Sys2Proof.Machine.execSearchEnd lane s
  | .preambleDetect at' branches => Sys2Proof.Machine.execPreambleDetect at' branches s
  | .sfdMatch at' afc rssi snrMilliDb word => Sys2Proof.Machine.execSfdMatch at' afc rssi snrMilliDb word s
  | .sfdTimeout at' => Sys2Proof.Machine.execSfdTimeout at' s
  | .phrParsed at' phr => Sys2Proof.Machine.execPhrParsed at' phr s
  | .lastBitDecoded lane t bits => Sys2Proof.Machine.execLastBitDecoded lane t bits s
  | .frameChecks lanes t => Sys2Proof.Machine.execFrameChecks lanes t s
  | .thresholdBlock lane power quiet => Sys2Proof.Machine.execThresholdBlock lane power quiet s
  | .ldpcDecodeDone dec t res => Sys2Proof.Machine.execLdpcDecodeDone dec t res s
  | .ackDecision t lane => Sys2Proof.Machine.execAckDecision t lane s
  | .canopyWindowReturn t => Sys2Proof.Machine.execCanopyWindowReturn t s
  | .laneDisable a lane v => Sys2Proof.Machine.execLaneDisable a lane v s
  | .fecDisable a v => Sys2Proof.Machine.execFecDisable a v s
  | .rampUp t => Sys2Proof.Machine.execRampUp t s
  | .launch t => Sys2Proof.Machine.execLaunch t s
  | .tagComplete => Sys2Proof.Machine.execTagComplete s
  | .splicePoint => Sys2Proof.Machine.execSplicePoint s
  | .frameEnd t => Sys2Proof.Machine.execFrameEnd t s
  | .rampDownEnd t => Sys2Proof.Machine.execRampDownEnd t s
  | .txmDisable a v => Sys2Proof.Machine.execTxmDisable a v s
  | .liveEccError t => Sys2Proof.Machine.execLiveEccError t s
  | .ackLaunch t => Sys2Proof.Machine.execAckLaunch t s
  | .mchkReq a v => Sys2Proof.Machine.execMchkReq a v s
  | .mchkDone acp1 acp2 => Sys2Proof.Machine.execMchkDone acp1 acp2 s
  | .txmTestWrite a v => Sys2Proof.Machine.execTxmTestWrite a v s
  | .txmFirDataAccess a w => Sys2Proof.Machine.execTxmFirDataAccess a w s
  | .cadEnable a v => Sys2Proof.Machine.execCadEnable a v s
  | .cadDisable a v => Sys2Proof.Machine.execCadDisable a v s
  | .cadTblchg a v => Sys2Proof.Machine.execCadTblchg a v s
  | .nbrChg a v => Sys2Proof.Machine.execNbrChg a v s
  | .cadHopDataAccess a w => Sys2Proof.Machine.execCadHopDataAccess a w s
  | .cadApphb a v => Sys2Proof.Machine.execCadApphb a v s
  | .cadLsInj a v => Sys2Proof.Machine.execCadLsInj a v s
  | .ackWindowOpen t => Sys2Proof.Machine.execAckWindowOpen t s
  | .ackWindowClose t => Sys2Proof.Machine.execAckWindowClose t s
  | .ackReceived t lane => Sys2Proof.Machine.execAckReceived t lane s
  | .preparationStart t => Sys2Proof.Machine.execPreparationStart t s
  | .preparationDone t => Sys2Proof.Machine.execPreparationDone t s
  | .ticketLock t => Sys2Proof.Machine.execTicketLock t s
  | .hdrCtrlWrite a v => Sys2Proof.Machine.execHdrCtrlWrite a v s
  | .hdrCfgWrite a v => Sys2Proof.Machine.execHdrCfgWrite a v s
  | .hdrTktIdxWrite a v => Sys2Proof.Machine.execHdrTktIdxWrite a v s
  | .trfAlloc m => Sys2Proof.Machine.execTrfAlloc m s
  | .trfFree a v => Sys2Proof.Machine.execTrfFree a v s
  | .trfEnq a v => Sys2Proof.Machine.execTrfEnq a v s
  | .trfDonePop m => Sys2Proof.Machine.execTrfDonePop m s
  | .trfRxqPop m => Sys2Proof.Machine.execTrfRxqPop m s
  | .removeHead m q => Sys2Proof.Machine.execRemoveHead m q s
  | .flush m q => Sys2Proof.Machine.execFlush m q s
  | .trfHistIdxWrite a v => Sys2Proof.Machine.execTrfHistIdxWrite a v s
  | .sluiceConfigWrite a off v => Sys2Proof.Machine.execSluiceConfigWrite a off v s
  | .subWindowAdvance sb dwell => Sys2Proof.Machine.execSubWindowAdvance sb dwell s
  | .dcaEnable a v => Sys2Proof.Machine.execDcaEnable a v s
  | .ntuStep m => Sys2Proof.Machine.execNtuStep m s
  | .ntuCancel m => Sys2Proof.Machine.execNtuCancel m s
  | .syncClr m => Sys2Proof.Machine.execSyncClr m s
  | .syncSet m => Sys2Proof.Machine.execSyncSet m s
  | .ntuFwcorr a v => Sys2Proof.Machine.execNtuFwcorr a v s
  | .externalCapture t => Sys2Proof.Machine.execExternalCapture t s
  | .reAnchor t => Sys2Proof.Machine.execReAnchor t s
  | .ntuRateWrite a v => Sys2Proof.Machine.execNtuRateWrite a v s
  | .holdover t => Sys2Proof.Machine.execHoldover t s
  | .syncLost t => Sys2Proof.Machine.execSyncLost t s
  | .lfcalWindow t count => Sys2Proof.Machine.execLfcalWindow t count s
  | .wakeHandoff ticks => Sys2Proof.Machine.execWakeHandoff ticks s
  | .ntuEpochWrite a hi v => Sys2Proof.Machine.execNtuEpochWrite a hi v s
  | .pulseStart t ch => Sys2Proof.Machine.execPulseStart t ch s
  | .pulseEnd t ch => Sys2Proof.Machine.execPulseEnd t ch s
  | .ntuPulWrite a ch reg v => Sys2Proof.Machine.execNtuPulWrite a ch reg v s
  | .gcoreMbsrc v => Sys2Proof.Machine.execGcoreMbsrc v s
  | .mbCopyDone => Sys2Proof.Machine.execMbCopyDone s
  | .mailboxWord0Read m viaWindow => Sys2Proof.Machine.execMailboxWord0Read m viaWindow s
  | .gpcEdge ch pa pb => Sys2Proof.Machine.execGpcEdge ch pa pb s
  | .gpcCapture ch v => Sys2Proof.Machine.execGpcCapture ch v s
  | .gpcCapRead ch sameCycleCapture => Sys2Proof.Machine.execGpcCapRead ch sameCycleCapture s
  | .gsecIncrement => Sys2Proof.Machine.execGsecIncrement s
  | .sealCheck matched => Sys2Proof.Machine.execSealCheck matched s
  | .gladeTokenChange t => Sys2Proof.Machine.execGladeTokenChange t s
  | .grantChange => Sys2Proof.Machine.execGrantChange s
  | .gladePowerOnReset => Sys2Proof.Machine.execGladePowerOnReset s
  | .gladeWatchdogExpiry => Sys2Proof.Machine.execGladeWatchdogExpiry s
  | .gladeWdtWarning => Sys2Proof.Machine.execGladeWdtWarning s
  | .gladeWdtKick v => Sys2Proof.Machine.execGladeWdtKick v s
  | .gladeWdtEnable v => Sys2Proof.Machine.execGladeWdtEnable v s
  | .gladeSelfReset v => Sys2Proof.Machine.execGladeSelfReset v s
  | .gladeBootDone => Sys2Proof.Machine.execGladeBootDone s
  | .glogAppend v => Sys2Proof.Machine.execGlogAppend v s
  | .glogWriteDone => Sys2Proof.Machine.execGlogWriteDone s
  | .gadcStart v => Sys2Proof.Machine.execGadcStart v s
  | .gadcResult data => Sys2Proof.Machine.execGadcResult data s
  | .gdspFrame v => Sys2Proof.Machine.execGdspFrame v s
  | .gdspFrameDone => Sys2Proof.Machine.execGdspFrameDone s
  | .maintStatus => Sys2Proof.Machine.execMaintStatus s
  | .maintErase area => Sys2Proof.Machine.execMaintErase area s
  | .maintProg addr data => Sys2Proof.Machine.execMaintProg addr data s
  | .maintRead rd => Sys2Proof.Machine.execMaintRead rd s
  | .maintCommit digest => Sys2Proof.Machine.execMaintCommit digest s
  | .maintExit => Sys2Proof.Machine.execMaintExit s
  | .maintOpDone verified => Sys2Proof.Machine.execMaintOpDone verified s
  | .maintTimeout => Sys2Proof.Machine.execMaintTimeout s
  | .nop c p => Sys2Proof.Machine.execNop c p s
  | .sync c p => Sys2Proof.Machine.execSync c p s
  | .wait c p => Sys2Proof.Machine.execWait c p s
  | .reti c p => Sys2Proof.Machine.execReti c p s
  | .svc c p n => Sys2Proof.Machine.execSvc c p n s
  | .ret c p => Sys2Proof.Machine.execRet c p s
  | .mov c p d src => Sys2Proof.Machine.execMov c p d src s
  | .add c p d src => Sys2Proof.Machine.execAdd c p d src s
  | .adc c p d src => Sys2Proof.Machine.execAdc c p d src s
  | .sub c p d src => Sys2Proof.Machine.execSub c p d src s
  | .sbc c p d src => Sys2Proof.Machine.execSbc c p d src s
  | .and c p d src => Sys2Proof.Machine.execAnd c p d src s
  | .or c p d src => Sys2Proof.Machine.execOr c p d src s
  | .xor c p d src => Sys2Proof.Machine.execXor c p d src s
  | .cmp c p d src => Sys2Proof.Machine.execCmp c p d src s
  | .tst c p d src => Sys2Proof.Machine.execTst c p d src s
  | .shl c p d src => Sys2Proof.Machine.execShl c p d src s
  | .shr c p d src => Sys2Proof.Machine.execShr c p d src s
  | .sar c p d src => Sys2Proof.Machine.execSar c p d src s
  | .ror c p d src => Sys2Proof.Machine.execRor c p d src s
  | .neg c p d src => Sys2Proof.Machine.execNeg c p d src s
  | .not c p d src => Sys2Proof.Machine.execNot c p d src s
  | .muls c p ra rb => Sys2Proof.Machine.execMuls c p ra rb s
  | .mulu c p ra rb => Sys2Proof.Machine.execMulu c p ra rb s
  | .macs c p ra rb => Sys2Proof.Machine.execMacs c p ra rb s
  | .macu c p ra rb => Sys2Proof.Machine.execMacu c p ra rb s
  | .mul32s c p ra rb => Sys2Proof.Machine.execMul32s c p ra rb s
  | .mul32u c p ra rb => Sys2Proof.Machine.execMul32u c p ra rb s
  | .clracc c p => Sys2Proof.Machine.execClracc c p s
  | .multiplyLands c => Sys2Proof.Machine.execMultiplyLands c s
  | .movsFromSpecial c p d sx => Sys2Proof.Machine.execMovsFromSpecial c p d sx s
  | .movsToSpecial c p sx src => Sys2Proof.Machine.execMovsToSpecial c p sx src s
  | .ld c p rt mode => Sys2Proof.Machine.execLd c p rt mode s
  | .lea c p rt rb d => Sys2Proof.Machine.execLea c p rt rb d s
  | .st c p rt mode => Sys2Proof.Machine.execSt c p rt mode s
  | .push c p rs => Sys2Proof.Machine.execPush c p rs s
  | .pop c p rd => Sys2Proof.Machine.execPop c p rd s
  | .cpy c p => Sys2Proof.Machine.execCpy c p s
  | .fill c p => Sys2Proof.Machine.execFill c p s
  | .scan c p => Sys2Proof.Machine.execScan c p s
  | .macsm c p => Sys2Proof.Machine.execMacsm c p s
  | .macum c p => Sys2Proof.Machine.execMacum c p s
  | .br c p d => Sys2Proof.Machine.execBr c p d s
  | .call c p d => Sys2Proof.Machine.execCall c p d s
  | .jmp c p rs => Sys2Proof.Machine.execJmp c p rs s
  | .callr c p rs => Sys2Proof.Machine.execCallr c p rs s
  | .dbnz c p rd d => Sys2Proof.Machine.execDbnz c p rd d s
  | .bset c p rd n => Sys2Proof.Machine.execBset c p rd n s
  | .bclr c p rd n => Sys2Proof.Machine.execBclr c p rd n s
  | .btst c p rd n => Sys2Proof.Machine.execBtst c p rd n s
  | .clz c p rd rs => Sys2Proof.Machine.execClz c p rd rs s
  | .illegalEncoding c bytes => Sys2Proof.Machine.execIllegalEncoding c bytes s
  | .fetchBusError c k => Sys2Proof.Machine.execFetchBusError c k s
  | .exceptionEntry c => Sys2Proof.Machine.execExceptionEntry c s
  | .cacheInv v => Sys2Proof.Machine.execCacheInv v s
  | .icacheInvalidateAll v => Sys2Proof.Machine.execIcacheInvalidateAll v s
  | .dcacheInvalidateAll v => Sys2Proof.Machine.execDcacheInvalidateAll v s
  | .invalidationDone => Sys2Proof.Machine.execInvalidationDone s
  | .dbgHalt m => Sys2Proof.Machine.execDbgHalt m s
  | .dbgResume m => Sys2Proof.Machine.execDbgResume m s
  | .dbgStep m => Sys2Proof.Machine.execDbgStep m s
  | .dbgRegDataAccess a w => Sys2Proof.Machine.execDbgRegDataAccess a w s
  | .breakpointMatch n => Sys2Proof.Machine.execBreakpointMatch n s
  | .flcKeyWrite m v => Sys2Proof.Machine.execFlcKeyWrite m v s
  | .prog m v => Sys2Proof.Machine.execProg m v s
  | .eraseBlk m v => Sys2Proof.Machine.execEraseBlk m v s
  | .suspend m => Sys2Proof.Machine.execSuspend m s
  | .eraseSuspended => Sys2Proof.Machine.execEraseSuspended s
  | .flcResume m => Sys2Proof.Machine.execFlcResume m s
  | .setSlc m v => Sys2Proof.Machine.execSetSlc m v s
  | .marginRd m v => Sys2Proof.Machine.execMarginRd m v s
  | .clrStat m => Sys2Proof.Machine.execClrStat m s
  | .flashOpDone ok pulses corr unc => Sys2Proof.Machine.execFlashOpDone ok pulses corr unc s
  | .flcWpWrite a hi v => Sys2Proof.Machine.execFlcWpWrite a hi v s
  | .flcDisable a v => Sys2Proof.Machine.execFlcDisable a v s
  | .dmaChannelEnable a ch v => Sys2Proof.Machine.execDmaChannelEnable a ch v s
  | .dmaDisable a ch v => Sys2Proof.Machine.execDmaDisable a ch v s
  | .dmaRequest ch => Sys2Proof.Machine.execDmaRequest ch s
  | .dmaBeat => Sys2Proof.Machine.execDmaBeat s
  | .bankClearDone => Sys2Proof.Machine.execBankClearDone s
  | .sysSramUseWrite a v => Sys2Proof.Machine.execSysSramUseWrite a v s
  | .ciphKeyIdxWrite a v => Sys2Proof.Machine.execCiphKeyIdxWrite a v s
  | .keyCommit m => Sys2Proof.Machine.execKeyCommit m s
  | .keyAttr m => Sys2Proof.Machine.execKeyAttr m s
  | .keyFc m => Sys2Proof.Machine.execKeyFc m s
  | .keyErase m => Sys2Proof.Machine.execKeyErase m s
  | .zeroise m => Sys2Proof.Machine.execZeroise m s
  | .cipuStart m n => Sys2Proof.Machine.execCipuStart m n s
  | .cipuAbort m n => Sys2Proof.Machine.execCipuAbort m n s
  | .takeFc m n => Sys2Proof.Machine.execTakeFc m n s
  | .cipuDinWrite a n v => Sys2Proof.Machine.execCipuDinWrite a n v s
  | .cipuDoutRead m n => Sys2Proof.Machine.execCipuDoutRead m n s
  | .cipuJobDone n => Sys2Proof.Machine.execCipuJobDone n s
  | .updStart m => Sys2Proof.Machine.execUpdStart m s
  | .loadTestDone mv => Sys2Proof.Machine.execLoadTestDone mv s
  | .firstPassDone => Sys2Proof.Machine.execFirstPassDone s
  | .segmentDone flashOk => Sys2Proof.Machine.execSegmentDone flashOk s
  | .imageHashDone flashOk => Sys2Proof.Machine.execImageHashDone flashOk s
  | .updPause cause => Sys2Proof.Machine.execUpdPause cause s
  | .updResume m => Sys2Proof.Machine.execUpdResume m s
  | .activate m => Sys2Proof.Machine.execActivate m s
  | .activateDone flashOk => Sys2Proof.Machine.execActivateDone flashOk s
  | .accept m => Sys2Proof.Machine.execAccept m s
  | .updAbort m => Sys2Proof.Machine.execUpdAbort m s
  | .updDisable a v => Sys2Proof.Machine.execUpdDisable a v s
  | .tmrTick n => Sys2Proof.Machine.execTmrTick n s
  | .compareFiring n k => Sys2Proof.Machine.execCompareFiring n k s
  | .tmrCountWrite a n v => Sys2Proof.Machine.execTmrCountWrite a n v s
  | .tmrReloadWrite a n v => Sys2Proof.Machine.execTmrReloadWrite a n v s
  | .tmrCmpWrite a n k v => Sys2Proof.Machine.execTmrCmpWrite a n k v s
  | .tmrEnable a n v => Sys2Proof.Machine.execTmrEnable a n v s
  | .tmrDisable a n v => Sys2Proof.Machine.execTmrDisable a n v s
  | .tmrCapture n k rising culvert => Sys2Proof.Machine.execTmrCapture n k rising culvert s
  | .tmrCapRead m n k sameCycleCapture => Sys2Proof.Machine.execTmrCapRead m n k sameCycleCapture s
  | .tmrStartEvent n => Sys2Proof.Machine.execTmrStartEvent n s
  | .tmrResetEvent n => Sys2Proof.Machine.execTmrResetEvent n s
  | .rtcSecond => Sys2Proof.Machine.execRtcSecond s
  | .rtcSet a v => Sys2Proof.Machine.execRtcSet a v s
  | .rtcSetLoad => Sys2Proof.Machine.execRtcSetLoad s
  | .rtcCalCorrection => Sys2Proof.Machine.execRtcCalCorrection s
  | .rtcShadowRead m reg => Sys2Proof.Machine.execRtcShadowRead m reg s
  | .shadowTimeout m => Sys2Proof.Machine.execShadowTimeout m s
  | .rtcUnlock a v => Sys2Proof.Machine.execRtcUnlock a v s
  | .vddStable => Sys2Proof.Machine.execVddStable s
  | .rtcAlarmWrite a n reg v => Sys2Proof.Machine.execRtcAlarmWrite a n reg v s
  | .backupSwitch vdd vbkup => Sys2Proof.Machine.execBackupSwitch vdd vbkup s
  | .backupRetentionLoss => Sys2Proof.Machine.execBackupRetentionLoss s
  | .entryAbort ep src => Sys2Proof.Machine.execEntryAbort ep src s
  | .excursionStart t => Sys2Proof.Machine.execExcursionStart t s
  | .wake src straps => Sys2Proof.Machine.execWake src straps s
  | .bodWarn => Sys2Proof.Machine.execBodWarn s
  | .avsUpdate need0 need1 need2 need3 => Sys2Proof.Machine.execAvsUpdate need0 need1 need2 need3 s
  | .avsClkReq a v => Sys2Proof.Machine.execAvsClkReq a v s
  | .clkTrimWrite a lfxo v => Sys2Proof.Machine.execClkTrimWrite a lfxo v s
  | .hfxoStable => Sys2Proof.Machine.execHfxoStable s
  | .syspllLock => Sys2Proof.Machine.execSyspllLock s
  | .producerEvent p => Sys2Proof.Machine.execProducerEvent p s
  | .culSwtrig a v => Sys2Proof.Machine.execCulSwtrig a v s
  | .culChenWrite a v => Sys2Proof.Machine.execCulChenWrite a v s
  | .routingFault ch word => Sys2Proof.Machine.execRoutingFault ch word s
  | .culExit a v => Sys2Proof.Machine.execCulExit a v s
  | .hspRead idx n lateAt => Sys2Proof.Machine.execHspRead idx n lateAt s
  | .hspWrite idx ws pendFrom partialWord => Sys2Proof.Machine.execHspWrite idx ws pendFrom partialWord s
  | .hspWindow b0 b1 => Sys2Proof.Machine.execHspWindow b0 b1 s
  | .extNop code arg => Sys2Proof.Machine.execExtNop code arg s
  | .extStatus arg => Sys2Proof.Machine.execExtStatus arg s
  | .presenceQuery arg => Sys2Proof.Machine.execPresenceQuery arg s
  | .privCmd code conf => Sys2Proof.Machine.execPrivCmd code conf s
  | .laneSet arg => Sys2Proof.Machine.execLaneSet arg s
  | .hspCsDeassert => Sys2Proof.Machine.execHspCsDeassert s
  | .debugUnlock => Sys2Proof.Machine.execDebugUnlock s
  | .ownerLockRelease => Sys2Proof.Machine.execOwnerLockRelease s
  | .factoryDefaults straps => Sys2Proof.Machine.execFactoryDefaults straps s
  | .gladeMaintenance => Sys2Proof.Machine.execGladeMaintenance s
  | .postedWriteDone => Sys2Proof.Machine.execPostedWriteDone s
  | .pspGo a v => Sys2Proof.Machine.execPspGo a v s
  | .pspStop a v moved phase rx => Sys2Proof.Machine.execPspStop a v moved phase rx s
  | .pspTxdWrite a v => Sys2Proof.Machine.execPspTxdWrite a v s
  | .pspRxdRead m => Sys2Proof.Machine.execPspRxdRead m s
  | .pspPause moved rx => Sys2Proof.Machine.execPspPause moved rx s
  | .pspFifoResume => Sys2Proof.Machine.execPspFifoResume s
  | .pspTransferEnd rx => Sys2Proof.Machine.execPspTransferEnd rx s
  | .tstBistReq a v => Sys2Proof.Machine.execTstBistReq a v s
  | .bistBankDone pass => Sys2Proof.Machine.execBistBankDone pass s
  | .lbist a v => Sys2Proof.Machine.execLbist a v s
  | .rramBist a v => Sys2Proof.Machine.execRramBist a v s
  | .selfTestDone pass => Sys2Proof.Machine.execSelfTestDone pass s
  | .tstCapReq a v => Sys2Proof.Machine.execTstCapReq a v s
  | .captureDone samples => Sys2Proof.Machine.execCaptureDone samples s
  | .gpioEvent bank pin level => Sys2Proof.Machine.execGpioEvent bank pin level s
  | .adcStart m => Sys2Proof.Machine.execAdcStart m s
  | .adcResult data => Sys2Proof.Machine.execAdcResult data s
  | .adcResRead m sameCycleResult => Sys2Proof.Machine.execAdcResRead m sameCycleResult s
  | .headEnd t => Sys2Proof.Machine.execHeadEnd t s
  | .ldpcCodewordReceived at' => Sys2Proof.Machine.execLdpcCodewordReceived at' s
  | .ackBuildDone t => Sys2Proof.Machine.execAckBuildDone t s
  | .slewEnd t => Sys2Proof.Machine.execSlewEnd t s
  | .lfxoEdgesReturn => Sys2Proof.Machine.execLfxoEdgesReturn s
  | .rtcLockout => Sys2Proof.Machine.execRtcLockout s
  | .bodWarnClear => Sys2Proof.Machine.execBodWarnClear s
  | .resetRelease straps => Sys2Proof.Machine.execResetRelease straps s
  | .boundaryScan ins => Sys2Proof.Machine.execBoundaryScan ins s
  | .debugAccess addr size w => Sys2Proof.Machine.execDebugAccess addr size w s

end Sys2Proof.Machine
end

