-- ==== Sys2Proof/Safety.lean ====
section
/-!
DEFINITION. What counts as a safe state and a safe step, the frames claims speak of (what an event may do, what the passing of time
may do), and what claims say of a Tanum core.
-/
namespace Sys2Proof
open Sys2Proof.Machine

/-- The canonical form of what a state stores by address: registers, memory, and the Glade's memory. It makes equal contents equal
data. -/
def Canonical (s : State) : Prop :=
  RegStore.wf s.regs = true ∧ Memory.wf s.mem ∧ Cells.wf s.glade.default s.glade.mem

/-- Every list that stands for a fixed number of like things has that many: register files, lanes, key slots, timers, DMA channels, cipher
pages, queues, subbands, tickets, the Glade's counters. -/
structure Shape (s : State) : Prop where
  wA : s.coreA.w.length = 15
  wG : s.coreG.w.length = 15
  lanes : s.lanes.length = 16
  keys : s.keys.length = 32
  cipu : s.cipu.length = 8
  tmr : s.tmr.length = 8
  dma : s.dma.length = 8
  queues : s.trf.queues.length = 64
  subs : s.trf.subs.length = 8
  tickets : s.hdr.entries.length = 4
  gpc : s.glade.gpc.length = 4
  cnt : s.glade.cnt.length = 5

/-- A step goes on to a canonical state; it neither faults nor refuses. -/
def SafeStep (s : State) : Prop := ∃ t, step s = .next t ∧ Canonical t

/-- A command completes, in a state of which `P` holds. Where a premise speaks of `s.advance t`, it is about `s` and `t` alone: `s` as it stands
at the instant of the command. -/
def Does (c : Instr) (s : State) (P : State → Prop) : Prop := ∃ t, exec c s = .next t ∧ P t

/-- Pages whose registers a consumer of an event may change: DMA, the timers, CUL and ADC (R424). -/
def eventPages : List Nat := [Pg.DMA, Pg.TMR 0, Pg.TMR 1, Pg.TMR 2, Pg.TMR 3, Pg.TMR 4, Pg.TMR 5, Pg.TMR 6, Pg.TMR 7, Pg.CUL, Pg.ADC]

/-- `t` is `s` after events went through the Culvert (R419 to R424): interrupt latches, wake events, the matrix, the ADC's start, DMA
bursts and timers may have changed, and registers of their pages; nothing else. -/
structure EventsOnly (s t : State) : Prop where
  eq : t = { s with
    regs := t.regs, coreA := { s.coreA with edge := t.coreA.edge }, pwr := { s.pwr with wakePend := t.pwr.wakePend }
    cul := t.cul, pads := { s.pads with adcRun := t.pads.adcRun }, dma := t.dma, tmr := t.tmr }
  off : ∀ a, pageOf a ∉ eventPages → t.rget a = s.rget a
  wf : RegStore.wf s.regs = true → RegStore.wf t.regs = true

/-- `t` is `s` after time passed (R256, R257, R262): the counter, a slew and the clock that PRESENCE_N is timed by have moved; nothing
else. -/
def TimeOnly (s t : State) : Prop := t = { s with ntu := t.ntu, now := t.now }

/-- A write of a register's view by a master passes every check of the access (R45, R46, R51, R56 to R59). -/
abbrev Accepted (s : State) (acc : Acc) (a : Nat) : Prop := s.judge acc.m (s.sourceOf acc.m) (viewAddr acc.view a) true = .ok

/-- A read of a register by a master passes every check of the access. -/
abbrev MayRead (s : State) (m : Master) (a : Nat) : Prop := s.judge m (s.sourceOf m) a false = .ok

/-- The value that a write through a view gives a register by its fields' types (R4 to R6, R48). -/
def writtenTo (s : State) (acc : Acc) (a : Nat) (v : Word) : Nat :=
  match descOf a with
  | some d => (writeValue d acc.view (s.rget a) v).toNat
  | none => (s.rget a).toNat

/-- Nothing waits for the end of a register write: no overlay request (R72) and no warm boot (R451). -/
abbrev NothingOwed (s : State) : Prop := s.ovl.pending = none ∧ s.sys.warm = false

/-- The boot ROM finds nothing to start (R450, R453): no slot holds an image, no record names a trial, no flash operation or update is cut
short, the slots' first pages are determinate. -/
abbrev NoImage (s : State) : Prop :=
  s.wordAt (slotBase 0) ≠ 0x494D4731 ∧ s.wordAt (slotBase 1) ≠ 0x494D4731 ∧ recState s.slotWord 0 ≠ 3 ∧ recState s.slotWord 1 ≠ 3
    ∧ s.flash.op = none ∧ s.flash.susp = none ∧ s.updBusy = false
    ∧ (s.fbit FLC_OPMARK.VALID = false ∨ s.fbit FLC_OPMARK.DONE = true)
    ∧ s.flash.indet.contains (slotBase 0 / 2048) = false ∧ s.flash.indet.contains (slotBase 1 / 2048) = false

/-- `t` holds the registers of `s` outside the addresses `p`. -/
def RegsOff (p : Nat → Bool) (s t : State) : Prop := ∀ a, p a = false → t.rget a = s.rget a

/-- The addresses of some register pages. -/
def onPages (l : List Nat) (a : Nat) : Bool := l.contains (pageOf a)

/-- `t` is `s` but for registers of the pages `l`. -/
def PagesOnly (l : List Nat) (s t : State) : Prop := t = { s with regs := t.regs } ∧ RegsOff (onPages l) s t

/-- `t` is `m` after events, and `m` holds the registers of `s` outside the pages `l`: what else `m` changes stands beside it. -/
def AfterEvents (l : List Nat) (s m t : State) : Prop := RegsOff (onPages l) s m ∧ EventsOnly m t

/-! ## Tanum -/

/-- A core executes a well-formed instruction of `n` bytes: it runs, no breakpoint stops it, no STEP is in progress, and its bytes are
fetched, which leads to `u` (R298, R318, R329, R461). -/
structure Executes (i : Instr) (c : CoreId) (p : Prefixes) (n : Nat) (s u : State) : Prop where
  form : ∃ op imm info, tanumForm i = some (c, p, op, imm) ∧ opInfo op = some info ∧ n = insLen p info imm
  ok : i.wellFormed = true
  runs : s.coreRuns c = true
  free : s.bpStops c = none
  step : s.coreA.stepping = false
  fetch : ∃ v, s.fetch c n = .ok v u

/-- It also runs once, its condition holding (R318, R320). -/
structure RunsOnce (i : Instr) (c : CoreId) (p : Prefixes) (n : Nat) (s u : State) : Prop where
  ex : Executes i c p n s u
  once : p.rep = none
  holds : (s.core c).holds p = true

/-- The core after an instruction of `n` bytes that only moves on. -/
def corePast (x : Core) (n : Nat) : Core := { x with pc := x.pc + BitVec.ofNat 32 n, matched := false, waiting := false, atomic := false, mpuOld := [] }

/-- The two-operand instruction of an operation; NEG and NOT take a register. -/
def aluInstr (c : CoreId) (p : Prefixes) (d : RegNo) (x : Src) : AluOp → Option Instr
  | .mov => some (.mov c p d x) | .add => some (.add c p d x) | .adc => some (.adc c p d x) | .sub => some (.sub c p d x)
  | .sbc => some (.sbc c p d x) | .and => some (.and c p d x) | .or => some (.or c p d x) | .xor => some (.xor c p d x)
  | .cmp => some (.cmp c p d x) | .tst => some (.tst c p d x) | .shl => some (.shl c p d x) | .shr => some (.shr c p d x)
  | .sar => some (.sar c p d x) | .ror => some (.ror c p d x)
  | .neg => (match x with | .reg r => some (.neg c p d r) | _ => none)
  | .not => (match x with | .reg r => some (.not c p d r) | _ => none)

/-- The value of an operation on `w` bits, with C and a shift count (R323). -/
def aluValue {w : Nat} (a b : BitVec w) (c : Bool) (n : Nat) : AluOp → BitVec w
  | .mov => b | .add => a + b | .adc => a + b + BitVec.ofNat w c.toNat | .sub | .cmp => a - b | .sbc => a - b - BitVec.ofNat w (!c).toNat
  | .and | .tst => a &&& b | .or => a ||| b | .xor => a ^^^ b | .shl => a <<< n | .shr => a >>> n | .sar => a.sshiftRight n
  | .ror => a.rotateRight n | .neg => -b | .not => ~~~b

/-- The exact value of the operations that can saturate or overflow (R307, R323). -/
def aluExact {w : Nat} (a b : BitVec w) (c : Bool) (n : Nat) : AluOp → Int
  | .add => a.toInt + b.toInt | .adc => a.toInt + b.toInt + c.toNat | .sub | .cmp => a.toInt - b.toInt
  | .sbc => a.toInt - b.toInt - (!c).toNat | .shl => a.toInt * 2 ^ n | .neg => -b.toInt | _ => 0

/-- C after an operation: carry, no borrow, the last bit shifted out; else as before (R323). -/
def aluCarry {w : Nat} (a b : BitVec w) (c : Bool) (n : Nat) : AluOp → Bool
  | .add => 2 ^ w ≤ a.toNat + b.toNat | .adc => 2 ^ w ≤ a.toNat + b.toNat + c.toNat
  | .sub | .cmp => b.toNat ≤ a.toNat | .sbc => b.toNat + (!c).toNat ≤ a.toNat | .neg => b = 0
  | .shl => if n = 0 then c else (a <<< (n - 1)).msb | .shr => if n = 0 then c else (a >>> (n - 1)).getLsbD 0
  | .sar => if n = 0 then c else (a.sshiftRight (n - 1)).getLsbD 0 | .ror => if n = 0 then c else (a.rotateRight n).msb
  | _ => c

/-- The operations that set V (R323). -/
def setsV : AluOp → Bool | .add | .adc | .sub | .sbc | .cmp | .neg => true | _ => false

/-- The product of a multiply: of the low 18 bits, or of whole words (R301). -/
def product (sg wide : Bool) (a b : Word) : BitVec 64 :=
  match sg, wide with
  | true, false => (a.setWidth 18).signExtend 64 * (b.setWidth 18).signExtend 64
  | false, false => (a.setWidth 18).setWidth 64 * (b.setWidth 18).setWidth 64
  | true, true => a.signExtend 64 * b.signExtend 64
  | false, true => a.setWidth 64 * b.setWidth 64

/-- Nothing stands between Tanum-A and its SRAM: no MPU, data cache, clearing, bit error, test or
byte held back by a phase (R35, R314, R315, R331, R332, R458). -/
structure PlainSram (s : State) : Prop where
  bus : s.busUp = true
  mpu : s.mpuGet MPU_CTRL.EN = 0
  cache : s.fbit CACHE_CTRL.DEN = false
  mem : s.memst = {}
  tst : s.tst.banks = []
  shown : ∀ q ∈ s.phase.mem, 0x30000000 ≤ q.1

/-- A core reaches its RAM plainly. -/
def PlainFor (s : State) : CoreId → Prop | .a => PlainSram s | .g => True

/-- `n` aligned bytes from `a` on lie in a core's RAM. -/
def InRam (c : CoreId) (a n : Nat) : Prop :=
  a % n = 0 ∧ match c with
    | .a => 0x20000000 ≤ a ∧ a + n ≤ 0x20180000
    | .g => gladeSram ≤ a ∧ a + n ≤ gladeSram + 0x8000

/-- A byte of a core's memory, and `n` of them as a number, least significant first. -/
def coreByte (s : State) (c : CoreId) (a : Nat) : Byte := match c with | .a => s.byteAt a | .g => s.glade.byteAt a
def coreBytes (s : State) (c : CoreId) (a : Nat) : Nat → Nat
  | 0 => 0
  | n + 1 => (coreByte s c a).toNat + 256 * coreBytes s c (a + 1) n

/-- `t` is `u` with the core `y` and, in that core's memory, `n` bytes from `a` on that hold `v`. -/
structure Stored (u t : State) (c : CoreId) (y : Core) (a n v : Nat) : Prop where
  core : t.core c = y
  value : coreBytes t c a n = v % 256 ^ n
  other : ∀ b, (b < a ∨ a + n ≤ b) → coreByte t c b = coreByte u c b
  frame : match c with
    | .a => t = { u with coreA := t.coreA, mem := t.mem, regs := t.regs, caches := t.caches, memst := t.memst } ∧ ∀ r, r ≠ SYS_SRAM_USE.addr → t.rget r = u.rget r
    | .g => t = { u with coreG := t.coreG, glade := { u.glade with mem := t.glade.mem } }

/-- A core can take an exception: it handles none by a fault, its stack and vectors lie in RAM (Tanum-A) or the Glade's SRAM and flash, apart
from each other (R311). -/
structure StackReady (s : State) (c : CoreId) : Prop where
  plain : PlainFor s c
  noFault : (s.core c).inFault = false
  stack : InRam c ((s.core c).ssp.toNat - 16) 4 ∧ 16 ≤ (s.core c).ssp.toNat ∧ InRam c ((s.core c).ssp.toNat - 4) 4
  vectors : c = .a → InRam .a (s.raw ICU_VBAR.addr) 4 ∧ s.raw ICU_VBAR.addr + 512 ≤ 0x20180000
    ∧ (s.raw ICU_VBAR.addr + 512 ≤ s.coreA.ssp.toNat - 16 ∨ s.coreA.ssp.toNat ≤ s.raw ICU_VBAR.addr)

/-- `t` is `s` after core `c`, as `x` stood, entered vector `vec`: PC, PSW, RPC and the vector are on the stack, PC is the vector's
entry, and in PSW U and RP are clear; the rest of the core stands (R311). -/
structure Entered (s t : State) (c : CoreId) (x : Core) (vec : Nat) : Prop where
  sp : (t.core c).ssp = x.ssp - 16#32
  frame : coreBytes t c (x.ssp.toNat - 16) 4 = x.pc.toNat ∧ coreBytes t c (x.ssp.toNat - 12) 4 = x.psw.toNat
    ∧ coreBytes t c (x.ssp.toNat - 8) 4 = x.rpc.toNat ∧ coreBytes t c (x.ssp.toNat - 4) 4 = vec
  other : ∀ b, (b < x.ssp.toNat - 16 ∨ x.ssp.toNat ≤ b) → coreByte t c b = coreByte s c b
  pc : (t.core c).pc.toNat = coreBytes s c (match c with | .a => s.raw ICU_VBAR.addr + 4 * vec | .g => 0x10 + 4 * vec) 4
  psw : (t.core c).user = false ∧ (t.core c).rp = false ∧ (t.core c).psw.setWidth 5 = x.psw.setWidth 5
    ∧ (c = .a → (t.core c).secure = s.fbit CORE_CTRL.HS)
  rest : (t.core c).w = x.w ∧ (t.core c).usp = x.usp ∧ (t.core c).rpc = x.rpc ∧ (t.core c).prl = x.prl ∧ (t.core c).prh = x.prh
    ∧ (t.core c).pacc = x.pacc ∧ (t.core c).mul = []

end Sys2Proof
end

