-- ==== Sys2Proof/Certificates/Slice0/Obligations.lean ====
section
/-!
DEFINITION. The statements about the model, for the provers: Obligations.<Name>, listed with their rules in OBLIGATIONS.json.
-/
open Sys2Proof Sys2Proof.Machine

/-- The step law of a block: the front command runs on the rest of the queue. Idling (log entry 1). -/
def Obligations.StepLaw : Prop :=
  (
  ∀ (s : State) (c : Instr) (l : List Instr), step { s with pending := c :: l } = exec c { s with pending := l })
  ∧ (
  ∀ s : State, s.pending = [] → step s = .next s)

/-- The state after reset: the values that the chapters give. The invariant of CanonicalKept holds at reset.
Where the manual leaves a choice it follows the model's, log entries 3, 4. -/
def Obligations.ResetLeaves : Prop :=
  (
  State.reset.raw SYS_RSTCAUSE.addr = 1 ∧ State.reset.sys.st = .start ∧ State.reset.sys.held = none ∧ State.reset.pending = []
      ∧ State.reset.mem = [] ∧ State.reset.slot = none ∧ State.reset.frcN = 0 ∧ State.reset.epoch = 0 ∧ State.reset.fbit CAD_CTRL.EN = false
      ∧ (∀ p, p < 0x40 → State.reset.rget (OWN.addr p) = ownReset p) ∧ State.reset.rget (OWN.addr Pg.PROT) = 0x18#32
      ∧ State.reset.rget (OWN.addr Pg.GMB) = 0x14#32
      ∧ (∀ a, a ≠ SYS_RSTCAUSE.addr → State.reset.rget a = resetOf a)
      ∧ (∀ n, n < 16 → State.reset.laneSt n = 0) ∧ (∀ n, n < 8 → State.reset.tCount n = 0) ∧ State.reset.keyValid = 0
      ∧ State.reset.freeCount = 1024 ∧ State.reset.trf.cells = [])
  ∧ (
  Canonical State.reset)

/-- The invariant of the stores, kept by every command. Where the manual leaves a choice it follows the model's, log entries 3, 8. -/
def Obligations.CanonicalKept : Prop := ∀ s t : State, Canonical s → step s = .next t → Canonical t

/-- The queue is the environment's: no effect of the block touches it (log entry 1). -/
def Obligations.QueueConsumed : Prop :=
  (∀ s t : State, step s = .next t → t.pending = s.pending.tail)
  ∧ ∀ s t : State, (∀ c ∈ s.pending, c.wellFormed = true) → step s = .next t → ∀ c ∈ t.pending, c.wellFormed = true

/-- Every command completes: what the manual calls an error is a state of the device. -/
def Obligations.NothingStops : Prop := ∀ (s : State) (c : Instr), ∃ t, exec c s = .next t

/-- The laws of the register store, which every other statement rests on. The laws of memory.
Where the manual leaves a choice it follows the model's, log entries 3, 8. -/
def Obligations.StoresReadAsWritten : Prop :=
  (
  (∀ (s : State) (a b : Nat) (v : Word), (s.rset a v).rget b = if b = a then v else s.rget b)
    ∧ (∀ (s : State) (f : Fld) (x : Nat), f.lo + f.width ≤ 32 → (s.fset f x).fget f = x % 2 ^ f.width)
    ∧ (∀ (s : State) (f g : Fld) (x : Nat), f.lo + f.width ≤ 32 → (g.addr ≠ f.addr ∨ g.lo + g.width ≤ f.lo ∨ f.lo + f.width ≤ g.lo) →
        (s.fset f x).fget g = s.fget g)
    ∧ (∀ (s : State) (f : Fld), f.lo + f.width ≤ 32 → (s.finc f).fget f = min (2 ^ f.width - 1) (s.fget f + 1))
    ∧ (∀ (s : State) (p : Nat → Bool) (a : Nat), (s.resetRegs p).rget a = if p a then resetOf a else s.rget a))
  ∧ (
  (∀ (s : State) (a b : Nat) (v : Byte), (s.setByte a v).byteAt b = if b = a then v else s.byteAt b)
    ∧ (∀ (s : State) (a v : Nat), v < 2 ^ 32 → (s.setWord a v).wordAt a = v
        ∧ ∀ b, (b < a ∨ a + 4 ≤ b) → (s.setWord a v).byteAt b = s.byteAt b)
    ∧ (∀ (s : State) (lo hi b : Nat), (s.clearRange lo hi).byteAt b = if lo ≤ b ∧ b < hi then memDefault b else s.byteAt b)
    ∧ (∀ (s : State) (a : Nat) (v : Byte), Memory.wf s.mem → Memory.wf (s.setByte a v).mem)
    ∧ (∀ (s : State) (a n v : Nat), Memory.wf s.mem → Memory.wf (s.setBytes a n v).mem)
    ∧ (∀ (s : State) (lo hi : Nat), Memory.wf s.mem → Memory.wf (s.clearRange lo hi).mem))

/-- The counts that the lists of the state stand for, kept by every command. -/
def Obligations.ShapeKept : Prop := Shape State.reset ∧ ∀ s t : State, Shape s → step s = .next t → Shape t

/-- R5 over every register description of the map and every old and written value. -/
def Obligations.AliasWrites : Prop :=
  ∀ (d : RegDesc) (old v : Word) (i : Nat), i < 32 →
    (∀ view : View, view ≠ .base → d.rw.getLsbD i = false → d.w1s.getLsbD i = false →
      (writeValue d view old v).getLsbD i = old.getLsbD i)
    ∧ (d.rw.getLsbD i = true →
      (writeValue d .set old v).getLsbD i = (old.getLsbD i || v.getLsbD i)
      ∧ (writeValue d .clr old v).getLsbD i = (old.getLsbD i && !v.getLsbD i)
      ∧ (writeValue d .tgl old v).getLsbD i = (old.getLsbD i ^^ v.getLsbD i))

/-- R64.
States that these commands complete (`exec` answers a next state), each under conditions on the state and its operands alone:
protAudIdxWrite. -/
def Obligations.AuditIndex : Prop :=
  (∀ (s : State) (a : Acc) (v : Word), Accepted s a PROT_AUD_IDX.addr → NothingOwed s →
    Does (.protAudIdxWrite a v) s fun u =>
      u.raw PROT_AUD_IDX.addr = writtenTo s a PROT_AUD_IDX.addr v ∧ u.prot = s.prot ∧ u.mem = s.mem
      ∧ (∀ e, s.prot.ring[u.fget PROT_AUD_IDX.IDX]? = some e → ∀ n, n < 6 → some (u.rget (PROT_AUD_W.addr n)) = e.words[n]?)
      ∧ (s.prot.ring[u.fget PROT_AUD_IDX.IDX]? = none → ∀ n, n < 6 → u.rget (PROT_AUD_W.addr n) = 0#32))
  ∧ ∀ (s : State) (src : Source) (kind page off count old new n : Nat), n < 6 → page < 0x40 →
    (s.audit src kind page off count old new).rget (PROT_AUD_W.addr n) = s.rget (PROT_AUD_W.addr n)

/-- R47 to R50 and R75. Where the manual leaves a choice it follows the model's, log entry 10.
States that these commands complete (`exec` answers a next state), each under conditions on the state and its operands alone: registerWrite,
softReset. -/
def Obligations.RegisterWrites : Prop :=
  (∀ (s : State) (m : Master) (vw : View) (p : Nat) (off : Nat) (v : Word), p < 0x40 → (off = 0x010 ∨ off = 0x018) →
    Accepted s ⟨m, vw⟩ (pageAddr p off) → NothingOwed s →
    Does (.registerWrite m (BitVec.ofNat 32 (viewAddr vw (pageAddr p off))) v) s fun u =>
      u.raw (pageAddr p off) = writtenTo s ⟨m, vw⟩ (pageAddr p off) v ∧ u.bus = { s.bus with err := false }
      ∧ u = { s with regs := u.regs, bus := u.bus }
      ∧ (∀ b, b ≠ pageAddr p off → b ≠ OVL_DIRTY_LO.addr → b ≠ OVL_DIRTY_HI.addr → u.rget b = s.rget b)
      ∧ (p ≠ Pg.PROT → p ≠ Pg.OVL → p ≠ Pg.GMB → p ≠ Pg.DBG →
          bitOf (u.raw OVL_DIRTY_LO.addr + u.raw OVL_DIRTY_HI.addr * 2 ^ 32) p = true))
  ∧ (∀ (s : State) (m : Master) (p : Nat) (v : Word), p < 0x40 → Accepted s ⟨m, .base⟩ (INT_PEND.addr p) → NothingOwed s →
    Does (.registerWrite m (BitVec.ofNat 32 (INT_PEND.addr p)) v) s fun u =>
      u.rget (INT_RAW.addr p) = s.rget (INT_RAW.addr p) &&& ~~~v ∧ u = { s with regs := u.regs, bus := u.bus }
      ∧ ∀ b, b ≠ INT_RAW.addr p → u.rget b = s.rget b)
  ∧ (∀ (s : State) (a : Acc) (p : BitVec 6) (v : Word), (p.toNat = Pg.AGC ∨ p.toNat = Pg.NBR ∨ p.toNat = Pg.CNP) →
    Accepted s a (CTRL.addr p.toNat) → NothingOwed s → (a.view = .base ∨ a.view = .set) → v.getLsbD 1 = true →
    Does (.softReset a p v) s fun u =>
      (∀ o, 4 ≤ o → o < 0x400 → o ≠ 0x01C → u.rget (pageAddr p.toNat o) = resetOf (pageAddr p.toNat o))
      ∧ u.rget (OWN.addr p.toNat) = s.rget (OWN.addr p.toNat)
      ∧ (∀ b, pageOf b ≠ p.toNat → b ≠ OVL_DIRTY_LO.addr → b ≠ OVL_DIRTY_HI.addr → u.rget b = s.rget b)
      ∧ (∀ h ∈ u.bus.held, pageOf h.2.1 ≠ p.toNat) ∧ u = { s with regs := u.regs, bus := u.bus, phase := u.phase })

/-- R45, R46, R56 and the causes. Where the manual leaves a choice it follows the model's, log entries 11, 14.
States that these commands complete (`exec` answers a next state), each under conditions on the state and its operands alone: ownWrite. -/
def Obligations.RejectedAccess : Prop :=
  (∀ (s : State) (m : Master) (addr v : Word) (c : Nat), s.portCur (baseAddr addr.toNat) = none →
    s.judge m (s.sourceOf m) addr.toNat true = .reject c → c < 7 → (s.sourceOf m).owner < 8 →
    Does (.ownWrite m addr v) s fun u => u.bus = { s.bus with err := true } ∧ u = { s with regs := u.regs, bus := u.bus }
      ∧ u.fget PROT_REJ.CAUSE = c ∧ u.fget PROT_REJ.OFFSET = addr.toNat % 0x1000 ∧ u.fget PROT_REJ.PAGE = pageOf addr.toNat % 64
      ∧ u.fget PROT_REJ.WR = 1 ∧ u.fget PROT_REJ_CNT.CNT = min (2 ^ 32 - 1) (s.fget PROT_REJ_CNT.CNT + 1) ∧ u.fbit PROT_STAT.REJ = true
      ∧ u.fget (INT_RAW.bit Pg.PROT 0) = 1
      ∧ ∀ b, b ≠ PROT_REJ.addr → b ≠ PROT_REJ_CNT.addr → b ≠ PROT_STAT.addr → b ≠ INT_RAW.addr Pg.PROT → u.rget b = s.rget b)
  ∧ (∀ (s : State) (m : Master) (addr v : Word), s.portCur (baseAddr addr.toNat) = none →
    s.judge m (s.sourceOf m) addr.toNat true = .busError →
    Does (.ownWrite m addr v) s fun u => u = { s with bus := { s.bus with err := true } })
  ∧ (∀ (s : State) (m : Master) (src : Source) (p : Nat), (p = Pg.PROT ∨ p = Pg.GMB) → m ≠ .debug → s.busUp = true →
    s.judge m src (OWN.addr p) true = .reject 2)
  ∧ (∀ (s : State) (m : Master) (p off : Nat) (wr : Bool), p < 0x40 → off < 0x400 → off % 4 = 0 → s.busUp = true →
    (m = .debug → s.sys.dbgUnlocked = true) → p ≠ Pg.RTC → p ≠ Pg.DBG → (wr = true → ¬ (off = 0x1C ∧ (p = Pg.PROT ∨ p = Pg.GMB))) →
    s.fbit (OWN.SEC p) = true → (s.sourceOf m).sec = false → s.judge m (s.sourceOf m) (pageAddr p off) wr = .reject 0)
  ∧ (∀ (s : State) (p : Nat), p < 0x40 → p ≠ Pg.PROT → p ≠ Pg.GMB → p ≠ Pg.DBG → p ≠ Pg.RTC → s.busUp = true →
    s.fbit PROT_CTRL.OLOCK = true → s.judge .hsp (s.sourceOf .hsp) (OWN.addr p) true = .reject 3)
  ∧ (∀ (s : State) (m : Master) (off : Nat) (wr : Bool), off < 0x400 → off % 4 = 0 → s.busUp = true → m ≠ .debug →
    s.judge m (s.sourceOf m) (pageAddr Pg.DBG off) wr = .reject 6)

/-- R56 to R61. Where the manual leaves a choice it follows the model's, log entry 14.
States that these commands complete (`exec` answers a next state), each under conditions on the state and its operands alone: ownWrite,
olockSet. -/
def Obligations.OwnersAndLock : Prop :=
  (∀ (s : State) (m : Master) (p : Nat) (v : Word), p < 0x40 → p ≠ Pg.PROT → p ≠ Pg.GMB → ¬ (0x24 ≤ p ∧ p ≤ 0x2B) →
    Accepted s ⟨m, .base⟩ (OWN.addr p) → NothingOwed s → v.toNat % 8 ≠ 5 → v.toNat % 8 ≠ 6 →
    Does (.ownWrite m (BitVec.ofNat 32 (OWN.addr p)) v) s fun u =>
      u.fget (OWN.OWNER p) = v.toNat % 8 ∧ u.fget (OWN.SEC p) = v.toNat / 8 % 2 ∧ u.fget (OWN.LOCKW p) = v.toNat / 16 % 2
      ∧ u.fget (OWN.AUDSEQ p) = s.prot.seq % 256 ∧ u.prot.seq = (s.prot.seq + 1) % 65536 ∧ u.prot.next = (s.prot.next + 1) % 128
      ∧ (∃ e, e ∈ u.prot.ring ∧ e.w2 = s.rget (OWN.addr p) ∧ e.w3.toNat % 32 = v.toNat % 32
          ∧ e.w0.toNat / 256 % 64 = p ∧ e.w0.toNat / 65536 = s.prot.seq % 65536)
      ∧ u.fget (INT_RAW.bit Pg.PROT 2) = 1 ∧ u = { s with regs := u.regs, bus := u.bus, prot := u.prot }
      ∧ ∀ b, b ≠ OWN.addr p → b ≠ INT_RAW.addr Pg.PROT → u.rget b = s.rget b)
  ∧ (∀ (s : State) (m : Master) (p : Nat) (v : Word), p < 0x40 → p ≠ Pg.PROT → p ≠ Pg.GMB →
    Accepted s ⟨m, .base⟩ (OWN.addr p) → NothingOwed s → (v.toNat % 8 = 5 ∨ v.toNat % 8 = 6) →
    Does (.ownWrite m (BitVec.ofNat 32 (OWN.addr p)) v) s fun u =>
      u.raw (OWN.addr p) % 2 ^ 24 = s.raw (OWN.addr p) % 2 ^ 24 ∧ u.fbit PROT_STAT.BAD_OWNER = true ∧ u.fget (INT_RAW.bit Pg.PROT 1) = 1
      ∧ u.prot.seq = (s.prot.seq + 1) % 65536 ∧ u = { s with regs := u.regs, bus := u.bus, prot := u.prot })
  ∧ (∀ (s : State) (a : Acc) (v : Word), Accepted s a PROT_CTRL.addr → NothingOwed s →
    Does (.olockSet a v) s fun u =>
      u.fbit PROT_CTRL.OLOCK = (s.fbit PROT_CTRL.OLOCK || (a.view = .base || a.view = .set) && fieldGet v.toNat PROT_CTRL.OLOCK = 1)
      ∧ u.prot.seq = (s.prot.seq + 1) % 65536 ∧ u.mem = s.mem ∧ u.pwr = s.pwr)
  ∧ (∀ (s : State) (m : Master) (p off : Nat), p < 0x40 → off < 0x400 → off % 4 = 0 → p ≠ Pg.DBG → p ≠ Pg.PROT → p ≠ Pg.GMB → p ≠ Pg.RTC →
    off ≠ 0x1C → p ≠ Pg.CUL → s.busUp = true → m ≠ .debug → ((s.sourceOf m).sec = true ∨ s.fbit (OWN.SEC p) = false) →
    s.fbit (OWN.LOCKW p) = true → (s.sourceOf m).hits p (s.fget (OWN.OWNER p)) = false →
    s.judge m (s.sourceOf m) (pageAddr p off) true = .reject 1)

/-- R54. R62: the presence input and its token. Where the manual leaves a choice it follows the model's, log entries 9, 15.
States that these commands complete (`exec` answers a next state), each under conditions on the state and its operands alone:
latchPairLowRead, latchPairLowWrite, latchPairHighWrite, presenceNFilteredChange, tokenGain, tokenLapse. -/
def Obligations.WideValuesAndToken : Prop :=
  (
  (∀ (s : State) (m : Master) (a : Nat), a ∈ pairLows → MayRead s m a → s.ntu.handoff = false →
      Does (.latchPairLowRead m (BitVec.ofNat 32 a)) s fun u =>
        u.bus.data = BitVec.ofNat 32 ((s.seen a).view a) ∧ u.bus.err = false ∧ u.latchGet m (a + 4) = (s.seen a).view (a + 4) % 2 ^ 32
        ∧ (∀ (m' : Master) (b : Nat), (m' ≠ m ∨ b ≠ a + 4) → u.latchGet m' b = s.latchGet m' b)
        ∧ u = { s with bus := u.bus } ∧ u.bus.held = s.bus.held)
    ∧ (∀ (s : State) (m : Master) (a : Nat) (v : Word), a ∈ wideLows → Accepted s ⟨m, .base⟩ a → NothingOwed s →
      Does (.latchPairLowWrite m (BitVec.ofNat 32 a) v) s fun u =>
        u.bus.held.find? (fun h => h.1 == masterCode m && h.2.1 == a)
          = some (masterCode m, a, BitVec.ofNat 32 (writtenTo s ⟨m, .base⟩ a v))
        ∧ (∀ (m' : Master) (b : Nat), (m' ≠ m ∨ b ≠ a) → u.bus.held.find? (fun h => h.1 == masterCode m' && h.2.1 == b)
            = s.bus.held.find? (fun h => h.1 == masterCode m' && h.2.1 == b))
        ∧ (∀ b, b ≠ OVL_DIRTY_LO.addr → b ≠ OVL_DIRTY_HI.addr → u.rget b = s.rget b)
        ∧ u = { s with regs := u.regs, bus := u.bus })
    ∧ (∀ (s : State) (m : Master) (v : Word), Accepted s ⟨m, .base⟩ NTU_STEP_HI.addr → NothingOwed s →
      Does (.latchPairHighWrite m (BitVec.ofNat 32 NTU_STEP_HI.addr) v) s fun u =>
        u.raw NTU_STEP_HI.addr = writtenTo s ⟨m, .base⟩ NTU_STEP_HI.addr v
        ∧ (∀ h, s.bus.held.find? (fun h => h.1 == masterCode m && h.2.1 == NTU_STEP_LO.addr) = some h →
            u.rget NTU_STEP_LO.addr = h.2.2
            ∧ u.bus.held.find? (fun h => h.1 == masterCode m && h.2.1 == NTU_STEP_LO.addr) = none)
        ∧ (s.bus.held.find? (fun h => h.1 == masterCode m && h.2.1 == NTU_STEP_LO.addr) = none →
            u.rget NTU_STEP_LO.addr = s.rget NTU_STEP_LO.addr)
        ∧ u = { s with regs := u.regs, bus := u.bus }))
  ∧ (
  (∀ (s : State) (t : Frc), s.prot.lowFrom = none →
      Does (.presenceNFilteredChange t true) s fun u => u.prot = { s.prot with lowFrom := some (s.advance t).now }
        ∧ u = { s.advance t with prot := u.prot, glade := u.glade })
    ∧ (∀ (s : State) (t : Frc) (a : Nat), s.prot.lowFrom = some a →
      Does (.presenceNFilteredChange t false) s fun u => u.prot.lowFrom = none
        ∧ (a + 2 * s.slowSecond ≤ (s.advance t).now → u.prot.lastLong = some (s.advance t).now)
        ∧ ((s.advance t).now < a + 2 * s.slowSecond → u.prot.lastLong = s.prot.lastLong) ∧ u.regs = s.regs ∧ u.mem = s.mem)
    ∧ (∀ s : State, s.token = true ↔ (∃ a, s.prot.lowFrom = some a ∧ a + 2 * s.slowSecond ≤ s.now)
        ∨ ∃ b, s.prot.lastLong = some b ∧ s.now ≤ b + 58 * s.slowSecond)
    ∧ (∀ (s : State) (t : Frc), (s.advance t).token = true →
      (s.prot.gained = false → Does (.tokenGain t) s fun u => u.fget (INT_RAW.bit Pg.PROT 3) = 1 ∧ u.prot.gained = true
        ∧ RegsOff (onPages [Pg.PROT]) s u ∧ u.mem = s.mem)
      ∧ (s.prot.gained = true → Does (.tokenGain t) s fun u => u = s.advance t) ∧ Does (.tokenLapse t) s fun u => u = s.advance t)
    ∧ (∀ (s : State) (t : Frc), (s.advance t).token = false → Does (.tokenGain t) s (fun u => u = s.advance t)
        ∧ Does (.tokenLapse t) s fun u => u.prot = { s.prot with gained := false } ∧ u = { s.advance t with prot := u.prot }))

/-- R67, R68, R70 to R72, R75. Where the manual leaves a choice it follows the model's, log entries 16, 20, 21.
States that these commands complete (`exec` answers a next state), each under conditions on the state and its operands alone: ovlLoad,
applyBase, ovlCancel, loadDone, ovlReqGo. -/
def Obligations.OverlayCommands : Prop :=
  (∀ (s : State) (m : Master), Accepted s ⟨m, .base⟩ OVL_CMD.addr → NothingOwed s → s.fbit OVL_CTRL.EN = true → s.ovl.loading = false →
    (Does (.ovlLoad m) s fun u => u.ovl = { s.ovl with loading := true } ∧ u.fbit OVL_STAT.BUSY = true ∧ RegsOff (onPages [Pg.OVL]) s u
      ∧ u.mem = s.mem ∧ u.cad = s.cad)
    ∧ (s.fbit CAD_CTRL.EN = true → Does (.applyBase m) s fun u => u.fbit OVL_STAT.REQ_REFUSED = true ∧ u.ovl = s.ovl
      ∧ RegsOff (onPages [Pg.OVL]) s u ∧ u.mem = s.mem)
    ∧ (s.fbit CAD_CTRL.EN = false → (∀ r ∈ s.ovl.base, offOf r.1 = 0x010 ∧ pageOf r.1 < 0x40) →
        Does (.applyBase m) s fun u => u.raw OVL_DIRTY_LO.addr = 0 ∧ u.raw OVL_DIRTY_HI.addr = 0 ∧ u.rget OVL_MODE.addr = s.rget OVL_MODE.addr
          ∧ u.ovl = s.ovl ∧ u.mem = s.mem ∧ u.cad = s.cad)
    ∧ Does (.ovlCancel m) s fun u => u.ovl = { s.ovl with pending := none } ∧ u.fbit OVL_STAT.PENDING = false
      ∧ RegsOff (onPages [Pg.OVL]) s u ∧ u.mem = s.mem)
  ∧ (∀ (s : State) (m : Master), Accepted s ⟨m, .base⟩ OVL_CMD.addr → NothingOwed s → s.fbit OVL_CTRL.EN = false →
    Does (.ovlLoad m) s fun u => u.fbit OVL_STAT.REQ_REFUSED = true ∧ u.ovl = s.ovl ∧ u.mem = s.mem)
  ∧ (∀ s : State, s.ovl.loading = true → s.flash.op = none →
    let img := s.fget OVL_IMG_ADDR.ADDR / 4 * 4
    let r := s.sectionsRead img
    let secs := r.2.map (·.1)
    let of' := fun u : State => { s with ovl := u.ovl, flash := u.flash, freeCtr := u.freeCtr, mem := u.mem }
    (∀ x c, r.2.find? (fun p => (!p.1.overlay || p.1.at' = img) && p.2 != 0) = some (x, c) →
      Does .loadDone s fun u => u.fget OVL_STAT.LOAD_CAUSE = c % 8 ∧ u.fbit OVL_STAT.LOAD_ERR = true
        ∧ u.fget (INT_RAW.bit Pg.OVL 3) = 1 ∧ u.ovl = { s.ovl with loading := false } ∧ PagesOnly [Pg.OVL, Pg.FLC] (of' u) u)
    ∧ ((∀ p ∈ r.2, p.2 = 0) →
      Does .loadDone s fun u => u.fget OVL_STAT.LOAD_CAUSE = 0 ∧ u.fget (INT_RAW.bit Pg.OVL 2) = 1 ∧ u.ovl.loading = false
        ∧ u.ovl.base = (secs.filter fun x => !x.overlay).flatMap r.1.baseRecs
        ∧ (u.fbit OVL_STAT.BASE_OK = secs.any fun x => !x.overlay)
        ∧ (∀ x ∈ secs, x.overlay = true → (u.ovlOf x.mode).isSome) ∧ u.ovl.pending = s.ovl.pending
        ∧ PagesOnly [Pg.OVL, Pg.FLC] (of' u) u))
  ∧ (∀ (s : State) (a : Acc) (v : Word), Accepted s a OVL_REQ.addr → NothingOwed s → (a.view = .base ∨ a.view = .set) →
    fieldGet v.toNat OVL_REQ.GO = 1 →
    let w := writtenTo s a OVL_REQ.addr v
    (s.fbit OVL_CTRL.EN = true → (s.ovlOf (fieldGet w OVL_REQ.MODE)).isSome → s.fbit CAD_CTRL.EN = true →
      Does (.ovlReqGo a v) s fun u => u.ovl = { s.ovl with pending := some (fieldGet w OVL_REQ.MODE, fieldGet w OVL_REQ.WHEN != 0) }
        ∧ u.fbit OVL_STAT.PENDING = true ∧ u.fget OVL_MODE.PEND = fieldGet w OVL_REQ.MODE ∧ u.fget OVL_MODE.CUR = s.fget OVL_MODE.CUR
        ∧ RegsOff (onPages [Pg.OVL]) s u ∧ u.mem = s.mem)
    ∧ ((s.fbit OVL_CTRL.EN = false ∨ s.ovlOf (fieldGet w OVL_REQ.MODE) = none) →
      Does (.ovlReqGo a v) s fun u => u.ovl = s.ovl ∧ u.fbit OVL_STAT.REQ_REFUSED = true ∧ RegsOff (onPages [Pg.OVL]) s u ∧ u.mem = s.mem))
  ∧ (∀ (s : State) (m : Nat),
    let c := ((s.setOvl fun o => { o with pending := none }).fset OVL_STAT.PENDING 0).applyCause m
    let u := s.modeApply coreHook m
    c ≠ 0 → u.fbit OVL_STAT.APPLY_REJ = true ∧ u.fget OVL_STAT.REJ_CAUSE = c ∧ u.ovl = { s.ovl with pending := none }
      ∧ u.prot.seq = (s.prot.seq + 1) % 65536 ∧ RegsOff (onPages [Pg.OVL, Pg.PROT]) s u ∧ u.mem = s.mem)

/-- R23, R456. R453 with the reset causes of R449. Where the manual leaves a choice it follows the model's, log entries 2, 25, 26.
States that these commands complete (`exec` answers a next state), each under conditions on the state and its operands alone: sysStateReq,
wdtKick, wdtWarn, watchdogExpiry, powerOnReset, resetRelease, sysCmdSystemReset, wake. -/
def Obligations.StartAndLoader : Prop :=
  (
  (∀ (s : State) (m : Master) (v : Word), Accepted s ⟨m, .base⟩ SYS_STATE.addr → NothingOwed s →
      (fieldGet v.toNat SYS_STATE.REQ = 1 → s.sys.st = .start →
        Does (.sysStateReq ⟨m, .base⟩ v) s fun u => u.sys = { s.sys with st := .run } ∧ u = { s with sys := u.sys, bus := u.bus, regs := u.regs }
          ∧ RegsOff (onPages [Pg.SYS]) s u)
      ∧ (fieldGet v.toNat SYS_STATE.REQ = 2 → s.sys.st = .start → (s.sys.dbgUnlocked || s.sys.testStrap) = true →
        Does (.sysStateReq ⟨m, .base⟩ v) s fun u => u.sys = { s.sys with st := .test } ∧ RegsOff (onPages [Pg.SYS]) s u)
      ∧ (fieldGet v.toNat SYS_STATE.REQ = 1 → s.sys.st ≠ .start →
        Does (.sysStateReq ⟨m, .base⟩ v) s fun u => u.sys = s.sys ∧ u.fbit SYS_STAT.STATE_REFUSED = true ∧ u.fget (INT_RAW.bit Pg.SYS 3) = 1
          ∧ u = { s with bus := u.bus, regs := u.regs } ∧ RegsOff (onPages [Pg.SYS]) s u))
    ∧ (∀ (s : State) (m : Master) (v : Word), Accepted s ⟨m, .base⟩ SYS_WDT_KICK.addr → NothingOwed s →
      Does (.wdtKick ⟨m, .base⟩ v) s fun u =>
        u.fget SYS_WDT_CNT.VAL = (if s.fbit SYS_WDT_CFG.EN ∧ v.toNat % 65536 = 0xC35A then max 1 (s.fget SYS_WDT_CFG.TO) else s.fget SYS_WDT_CNT.VAL)
        ∧ u = { s with bus := u.bus, regs := u.regs })
    ∧ (∀ s : State, s.wdtCounts = true → Does .wdtWarn s fun u =>
        u.fget SYS_WDT_CNT.VAL = s.fget SYS_WDT_CFG.WARN ∧ u.fget (INT_RAW.bit Pg.SYS 1) = 1 ∧ PagesOnly [Pg.SYS] s u)
    ∧ (∀ (s : State) (x : BitVec 5), s.wdtCounts = false → Does .wdtWarn s (fun u => u = s) ∧ Does (.watchdogExpiry x) s fun u => u = s))
  ∧ (
  (∀ (s : State) (x : BitVec 5) (tcxo : Bool), NoImage s →
      Does (.powerOnReset x tcxo) s fun u => bitOf (u.raw SYS_BOOT.addr) 4 = true ∧ u.fbit HSP_CTRL.EN = true ∧ u.sys.st = .start
        ∧ u.sys.held = none ∧ u.raw SYS_RSTCAUSE.addr = 1 ∧ u.now = s.now)
    ∧ (∀ (s : State) (k : ResetKind) (x : BitVec 5), NoImage s →
      Does (.resetRelease x) (s.sysReset k) fun u => bitOf (u.raw SYS_BOOT.addr) 4 = true ∧ u.fbit HSP_CTRL.EN = true ∧ u.sys.st = .start
        ∧ u.sys.held = none ∧ u.raw SYS_RSTCAUSE.addr = (s.sysReset k).raw SYS_RSTCAUSE.addr)
    ∧ (∀ (s : State) (m : Master) (v : Word) (x : BitVec 5), NoImage s → Accepted s ⟨m, .base⟩ SYS_CMD.addr → NothingOwed s →
      v.toNat % 2 ^ 18 = 0x15EC0 →
      Does (.sysCmdSystemReset ⟨m, .base⟩ v x) s fun u => bitOf (u.raw SYS_BOOT.addr) 4 = true ∧ u.fbit HSP_CTRL.EN = true ∧ u.sys.st = .start
        ∧ u.sys.held = none ∧ bitOf (u.raw SYS_RSTCAUSE.addr) 3 = true)
    ∧ (∀ (s : State) (x : BitVec 5), NoImage s → s.wdtCounts = true → s.fbit SYS_WDT_CFG.SYS = true →
      Does (.watchdogExpiry x) s fun u => bitOf (u.raw SYS_BOOT.addr) 4 = true ∧ u.fbit HSP_CTRL.EN = true ∧ u.sys.st = .start
        ∧ u.sys.held = none ∧ bitOf (u.raw SYS_RSTCAUSE.addr) 4 = true)
    ∧ (∀ (s : State) (src : BitVec 6) (x : BitVec 5), NoImage s → s.pwr.st = .off → s.pwr.exc = false → s.canWake src.toNat = true →
      Does (.wake src x) s fun u => bitOf (u.raw SYS_BOOT.addr) 4 = true ∧ u.sys.st = .start ∧ u.pwr.st = .run
        ∧ u.sys.held = none ∧ bitOf (u.raw SYS_RSTCAUSE.addr) 5 = true))

/-- R447 to R449, before the boot ROM runs; with a flash operation in progress the boot after a core reset waits.
Where the manual leaves a choice it follows the model's, log entries 23, 24, 25.
States that these commands complete (`exec` answers a next state), each under conditions on the state and its operands alone: pinReset,
brownOutReset, vddLoss, resetRelease, sysCmdCoreReset, watchdogExpiry. -/
def Obligations.Resets : Prop :=
  (∀ s : State, s.pwr.st ≠ .backup → s.pwr.leaving = none → s.flash.op = none → s.flash.susp = none → s.updBusy = false →
    Does .pinReset s fun u => u.sys.held = some .pin ∧ u.sys.st = .start ∧ u.raw SYS_RSTCAUSE.addr = s.raw SYS_RSTCAUSE.addr ||| 4
      ∧ u.mem = s.mem ∧ u.now = s.now ∧ u.pending = s.pending ∧ u.slot = none ∧ u.cad = {} ∧ u.trf = {} ∧ u.frcN = 0 ∧ u.prot = s.prot
      ∧ u.glade = { s.glade with snaps := [] } ∧ u.coreG = s.coreG ∧ u.rtc = s.rtc
      ∧ (∀ a, pageOf a = Pg.RTC → u.rget a = s.rget a)
      ∧ ∀ a, sysKeeps a = false → u.rget a = resetOf a)
  ∧ (∀ s : State, s.pwr.st ≠ .backup → s.pwr.leaving = none → s.flash.op = none → s.flash.susp = none → s.updBusy = false →
    Does .brownOutReset s fun u => u.sys.held = some .bor ∧ u.raw SYS_RSTCAUSE.addr = s.raw SYS_RSTCAUSE.addr ||| 2
      ∧ u.fbit RTC_STAT.LOCKOUT = true ∧ u.glade = { s.glade with snaps := [] } ∧ u.slot = none ∧ u.cad = {} ∧ u.prot = s.prot
      ∧ (∀ a, 0x20000000 ≤ a → a < 0x20180000 → u.byteAt a = memDefault a) ∧ (∀ a, 0x30000000 ≤ a → a < 0x30040000 → u.byteAt a = memDefault a)
      ∧ ∀ a, a < 0x20000000 → u.byteAt a = s.byteAt a)
  ∧ (∀ s : State, Does .vddLoss s fun u => u.pwr.st = .backup ∧ u.sys.held = some .por ∧ u.raw SYS_RSTCAUSE.addr = 1 ∧ u.glade.powered = false
      ∧ u.glade.run = false ∧ u.glade.cnt = s.glade.cnt ∧ u.fbit RTC_STAT.LOCKOUT = true ∧ u.now = s.now)
  ∧ (∀ s : State, s.pwr.st = .backup → Does .pinReset s (fun u => u = s) ∧ Does .brownOutReset s (fun u => u = s)
      ∧ ∀ x, Does (.resetRelease x) s fun u => u = s)
  ∧ (∀ (s : State) (m : Master) (v : Word), Accepted s ⟨m, .base⟩ SYS_CMD.addr → NothingOwed s → s.flash.op.isSome → v.toNat % 2 ^ 18 = 0x25EC0 →
    Does (.sysCmdCoreReset ⟨m, .base⟩ v) s fun u => u.coreA = { halted := s.coreA.halted } ∧ u.caches = {} ∧ u.sys = { s.sys with warm := true }
      ∧ u.raw SYS_RSTCAUSE.addr = s.raw SYS_RSTCAUSE.addr ||| 512 ∧ u.mem = s.mem ∧ u.ntu = s.ntu ∧ u.cad = s.cad ∧ u.slot = s.slot
      ∧ u.glade = s.glade ∧ u.prot = s.prot)
  ∧ (∀ (s : State) (x : BitVec 5), s.wdtCounts = true → s.fbit SYS_WDT_CFG.SYS = false → s.flash.op.isSome →
    Does (.watchdogExpiry x) s fun u => u.coreA = { halted := s.coreA.halted } ∧ u.caches = {} ∧ u.sys = { s.sys with warm := true }
      ∧ u.raw SYS_RSTCAUSE.addr = s.raw SYS_RSTCAUSE.addr ||| 128 ∧ u.mem = s.mem ∧ u.ntu = s.ntu ∧ u.cad = s.cad ∧ u.slot = s.slot
      ∧ u.glade = s.glade ∧ u.fget SYS_WDT_CNT.VAL = max 1 (s.fget SYS_WDT_CFG.TO))

/-- R459, R266, R262. R414 to R417. Where the manual leaves a choice it follows the model's, log entries 29, 34.
States that these commands complete (`exec` answers a next state), each under conditions on the state and its operands alone: hfxoLoss,
lfxoLoss, lfxoEdgesReturn, slewEnd, avsUpdate, avsClkReq, clkTrimWrite, hfxoStable, syspllLock, bodWarn, bodWarnClear. -/
def Obligations.ClocksAndVoltage : Prop :=
  (
  (∀ (s : State) (t : Frc), NothingOwed s → s.pwr.st = .run → s.pwr.exc = false → s.sys.hfxoStable = true → s.sys.held = none →
      Does (.hfxoLoss t) s fun u => u.sys.st = .recovery ∧ u.sys.hfxoStable = false ∧ u.sys.syspllLock = false ∧ u.fbit SYS_STAT.HFXO_FAIL = true
        ∧ u.fget SYS_FAULT.CODE = 4 ∧ u.fget (INT_RAW.bit Pg.SYS 0) = 1 ∧ u.ntu.handoff = true ∧ u.ntu.entry.isSome ∧ u.slot = none ∧ u.fbit CAD_CTRL.EN = false)
    ∧ (∀ (s : State) (t : Frc), s.fbit SYS_STAT.LFXO_FAIL = false → s.sys.held = none →
      Does (.lfxoLoss t) s fun u => u.fbit SYS_STAT.LFXO_FAIL = true ∧ u.fget (INT_RAW.bit Pg.SYS 2) = 1 ∧ u.fbit NTU_LFCAL.VALID = false
        ∧ (s.pwr.st = .run → s.pwr.exc = false → u.fget SYS_FAULT.CODE = 5) ∧ PagesOnly [Pg.SYS, Pg.NTU] (s.advance t) u)
    ∧ (∀ s : State, Does .lfxoEdgesReturn s fun u => u.fbit SYS_STAT.LFXO_FAIL = false ∧ PagesOnly [Pg.SYS] s u)
    ∧ (∀ (s : State) (t : Frc), s.sleepStart = none → s.frcN < t.toNat → t.toNat - s.ntu.anchor.toNat < 2 ^ 31 →
      s.ntu.pend.natAbs * 1000000 ≤ s.slewMax * (t.toNat - max s.frcN s.ntu.slewHold) + s.ntu.slewFrac →
      (s.ntu.pend < 0 → (s.ntu.pend.natAbs : Int) ≤ (t.toNat : Int) - s.frcN + (s.rateTerm t.toNat - s.rateTerm s.frcN)) →
      Does (.slewEnd t) s fun u => u.ntu.pend = 0 ∧ u.ntu.frc = t ∧ u.ntu.offset = s.ntu.offset + BitVec.ofInt 64 s.ntu.pend
        ∧ u.ntu.corr = s.ntu.corr + BitVec.ofInt 64 s.ntu.pend ∧ TimeOnly s u))
  ∧ (
  (∀ (s : State) (a b c d : Nat), s.pwr.st ≠ .off → s.pwr.st ≠ .backup →
      let s' : State := { s with pwr := { s.pwr with need := [a, b, c, d] } }
      Does (.avsUpdate a b c d) s fun u => u.pwr.need = [a, b, c, d] ∧ u.fget AVS_VAL.WANT = s'.avsWant % 1024
        ∧ ((u.fget AVS_VAL.CUR : Int) - s.fget AVS_VAL.CUR).natAbs ≤ 10
        ∧ (s.pwr.st ≠ .run → s.pwr.st ≠ .doze → u.fget AVS_VAL.CUR = s.fget AVS_VAL.CUR ∧ u.fget AVS_STAT.STEP = s.fget AVS_STAT.STEP)
        ∧ u.fget AVS_CLK.REQ = s.fget AVS_CLK.REQ ∧ u.mem = s.mem ∧ u.ntu = s.ntu)
    ∧ (∀ (s : State) (a : Acc) (v : Word), Accepted s a AVS_CLK.addr →
      let r := fieldGet (writtenTo s a AVS_CLK.addr v) AVS_CLK.REQ
      Does (.avsClkReq a v) s fun u => u.fget AVS_CLK.REQ = r
        ∧ (r < s.fget AVS_STAT.STEP → u.fget AVS_STAT.STEP = r ∧ u.fget AVS_CLK.GRANT = r ∧ u.fget (INT_RAW.bit Pg.AVS 1) = 1)
        ∧ (s.fget AVS_STAT.STEP ≤ r → u.fget AVS_STAT.STEP = s.fget AVS_STAT.STEP) ∧ u.mem = s.mem ∧ u.ntu = s.ntu)
    ∧ (∀ (s : State) (a : Acc) (lf : Bool) (v : Word),
      let x := if lf then CLK_LFXO.addr else CLK_HFXO.addr
      Accepted s a x →
      (s.fbit CAD_CTRL.EN = false → Does (.clkTrimWrite a lf v) s fun u => u.raw x = writtenTo s a x v ∧ u = { s with regs := u.regs, bus := u.bus })
      ∧ (s.fbit CAD_CTRL.EN = true → Does (.clkTrimWrite a lf v) s fun u => u.raw x = s.raw x ∧ u.fbit CLK_STAT.TRIM_REF = true
          ∧ u.fget (INT_RAW.bit Pg.CLK 0) = 1 ∧ u = { s with regs := u.regs, bus := u.bus }))
    ∧ (∀ s : State, s.hfxoOn = true → Does .hfxoStable s fun u => u = { s with sys := { s.sys with hfxoStable := true } })
    ∧ (∀ s : State, s.sys.hfxoStable = true → s.domUp .app = true →
        Does .syspllLock s fun u => u = { s with sys := { s.sys with syspllLock := true } })
    ∧ (∀ s : State, s.pwr.st ≠ .backup →
      (s.fbit PWR_STAT.BOD_WARN = false → Does .bodWarn s fun u => u.fbit PWR_STAT.BOD_WARN = true ∧ u.fget (INT_RAW.bit Pg.PWR 3) = 1
        ∧ u.mem = s.mem ∧ u.ntu = s.ntu ∧ u.cad = s.cad)
      ∧ (s.fbit PWR_STAT.BOD_WARN = true → Does .bodWarn s fun u => u = s)
      ∧ Does .bodWarnClear s fun u => u.fbit PWR_STAT.BOD_WARN = false ∧ PagesOnly [Pg.PWR] s u))

/-- R14, R15, R174. Where the manual leaves a choice it follows the model's, log entries 35, 54.
States that these commands complete (`exec` answers a next state), each under conditions on the state and its operands alone: slotTick. -/
def Obligations.SlotTick : Prop :=
  (∀ (s : State) (t : Frc), (s.advance t).tickDue = true → s.cad.stopping = false → s.cad.silentNow = false →
    Does (.slotTick t) s fun u => u.ntu.lastAsn = some (s.advance t).asnNow
      ∧ ∃ sl, u.slot = some sl ∧ sl.asn = (s.advance t).asnNow ∧ sl.tickNt = s.epoch + sl.asn * s.slotLen ∧ sl.tail = false ∧ sl.tailDone = 0)
  ∧ (∀ (s : State) (t : Frc), NothingOwed s → (s.advance t).tickDue = true → s.cad.stopping = true → s.slot.isSome →
    Does (.slotTick t) s fun u => u.slot = none ∧ u.fbit CAD_CTRL.EN = false ∧ u.cad.stopping = false)
  ∧ (∀ (s : State) (t : Frc), (s.advance t).tickDue = false → Does (.slotTick t) s fun u => u = s.advance t ∧ TimeOnly s u)

/-- R36, R37, R41, R224. Where the manual leaves a choice it follows the model's, log entries 27, 28, 61, 137.
States that these commands complete (`exec` answers a next state), each under conditions on the state and its operands alone: tailrace,
phaseCheckpoint, lockstepFault, replayEnd, appSilent. -/
def Obligations.TailraceAndLockstep : Prop :=
  (∀ (s : State) (t : Frc) (n : Fin 8) (dur : BitVec 10) (sl : Slot), s.slot = some sl → sl.tail = false → s.cad.replaying = false →
    s.dom .rad = .on → s.ntu.step = none → (n.val = 7 → NothingOwed s ∧ s.pwr.exc = false ∧ s.cad.stopping = false ∧ s.cad.silentNow = false) →
    sl.tickNt + us s.tailFrom ≤ (s.advance t).nt →
    Does (.tailrace t n dur) s fun u => u.fget HDR_TAIL.DONE = 2 ^ n.val - 1 ∧ u.fget HDR_TAIL.DUR = dur.toNat
      ∧ u.slot.map (·.tailDone) = some n.val ∧ u.slot.map (·.asn) = some sl.asn)
  ∧ (∀ (s : State) (t : Frc) (dur : BitVec 10) (sl : Slot), s.slot = some sl → sl.tail = false → s.cad.replaying = false → s.cad.ack = none →
    s.dom .rad = .on → s.ntu.step = none → sl.tickNt + us s.tailFrom ≤ (s.advance t).nt →
    Does (.tailrace t 0 dur) s fun u => u.slot = some { sl with tail := true, tailDone := 0 } ∧ RegsOff (· == HDR_TAIL.addr) s u
      ∧ u.cad = { s.cad with phaseAt := u.frcN, replays := 0 } ∧ u.phase.cad = u.cad ∧ u.phase.slot = s.slot ∧ u.phase.mem = []
      ∧ u = { s.advance t with slot := u.slot, regs := u.regs, rfe := { s.rfe with clearingEnd := none }, hdr := { s.hdr with contra := [] }
                               cad := u.cad, phase := u.phase })
  ∧ (∀ (s : State) (t : Frc), s.cad.replaying = false →
    (s.slot.isSome → s.phase.on = true → s.cad.phaseAt + us 250 ≤ (s.advance t).frcN →
      Does (.phaseCheckpoint t) s fun u => u.cad = { s.cad with phaseAt := u.frcN, replays := 0 }
        ∧ u.phase = { on := true, cad := u.cad, hdr := s.hdr, slot := s.slot } ∧ u = { s.advance t with cad := u.cad, phase := u.phase })
    ∧ ((s.advance t).phaseDue = false → Does (.phaseCheckpoint t) s fun u => u = s.advance t))
  ∧ (∀ (s : State) (a : Nat), (s.phase.regs = [] → s.shown a = s.raw a) ∧ (s.phase.mem = [] → s.shownByte a = s.byteAt a))
  ∧ (∀ (s t : State) (a : Nat), t.phase.on = true → t.phase.regs = [] → t.phase.mem = [] → 0x30000000 ≤ a → a < 0x30040000 →
    (s.hold t).shownByte a = s.byteAt a ∧ (s.hold t).byteAt a = t.byteAt a)
  ∧ (∀ (s : State) (t : Frc) (sig : Bool) (g : Fin 4), s.cad.replaying = false → s.dom .rad = .on → s.sys.held = none → s.sys.st ≠ .recovery →
    Does (.lockstepFault t sig g) s fun u => u.cad.replaying = true ∧ u.cad.replays = s.cad.replays + 1 ∧ u.cad.inject = none
      ∧ u.fget CAD_LS_CNT.FAULTS = min 65535 (s.fget CAD_LS_CNT.FAULTS + 1) ∧ u.fget (INT_RAW.bit Pg.CAD 5) = 1
      ∧ u.fget CAD_LS_STAT.SIG = (if sig then 1 else 0) ∧ u.mem = s.mem)
  ∧ (∀ (s : State) (t : Frc), s.cad.replaying = true → Does (.replayEnd t true) s fun u =>
      u.cad = { s.cad with replaying := false, phaseAt := u.frcN, replays := 0 }
        ∧ u.phase = { on := true, cad := u.cad, hdr := s.hdr, slot := s.slot } ∧ u = { s.advance t with cad := u.cad, phase := u.phase })
  ∧ (∀ (s : State) (t : Frc), s.cad.replaying = true → s.cad.replays < 3 → Does (.replayEnd t false) s fun u =>
      u.cad = { s.cad with replays := s.cad.replays + 1 } ∧ u.fget (INT_RAW.bit Pg.CAD 5) = 1
      ∧ ∃ m, m = { s.advance t with cad := m.cad, regs := m.regs } ∧ AfterEvents [Pg.CAD] s m u)
  ∧ (∀ (s : State) (t : Frc), NothingOwed s → s.cad.replaying = true → 3 ≤ s.cad.replays → s.pwr.st = .run → s.pwr.exc = false →
    s.sys.held = none → Does (.replayEnd t false) s fun u => u.sys.st = .recovery ∧ u.fget SYS_FAULT.CODE = 2 ∧ u.slot = none
      ∧ u.fbit CAD_CTRL.EN = false ∧ u.fget (INT_RAW.bit Pg.SYS 0) = 1)
  ∧ (∀ (s : State) (t : Frc), NothingOwed s → s.cad.silentNow = true → s.slot = none → s.pwr.st = .run → s.pwr.exc = false → s.sys.held = none →
    (s.fbit SYS_FAULT_CFG.SILENT_RST = false → Does (.appSilent t) s fun u => u.sys.st = .recovery ∧ u.fget SYS_FAULT.CODE = 6
      ∧ u.fbit CAD_STAT.APP_SILENT = true ∧ u.fbit CAD_CTRL.EN = false ∧ u.fget (INT_RAW.bit Pg.CAD 4) = 1)
    ∧ (s.fbit SYS_FAULT_CFG.SILENT_RST = true → Does (.appSilent t) s fun u => u.sys.held = some .swsys ∧ u.slot = none
      ∧ bitOf (u.raw SYS_RSTCAUSE.addr) 3 = true))

/-- R405, R407, R410, R411. Where the manual leaves a choice it follows the model's, log entries 31, 32, 33.
States that these commands complete (`exec` answers a next state), each under conditions on the state and its operands alone: wake,
entryAbort, excursionStart. -/
def Obligations.Wakes : Prop :=
  (∀ (s : State) (src : BitVec 6) (x : BitVec 5), (s.pwr.st = .doze ∨ s.pwr.st = .nap) → s.pwr.exc = false → s.canWake src.toNat = true →
    Does (.wake src x) s fun u => u.pwr.st = .run ∧ u.pwr.exc = false ∧ u.pwr.leaving = none ∧ u.coreA.waiting = false ∧ u.coreA.pc = s.coreA.pc
      ∧ u.fget PWR_WAKE_SRC.SRC = s.wakeSources src.toNat ∧ u.fget PWR_WAKE_SRC.FROM = pwrCode s.pwr.st
      ∧ u.fget (INT_RAW.bit Pg.PWR 2) = 1 ∧ u.mem = s.mem ∧ u.ntu = s.ntu ∧ u.cad = s.cad)
  ∧ (∀ (s : State) (src : BitVec 6) (x : BitVec 5), s.pwr.st = .slumber → s.pwr.exc = false → s.pwr.leaving = none → s.canWake src.toNat = true →
    Does (.wake src x) s fun u => u.pwr.st = .run ∧ u.coreA.pc = s.rget PWR_RESUME.addr ∧ u.coreA.ssp = s.rget PWR_RESUME_SP.addr &&& ~~~3#32
      ∧ u.fget PWR_WAKE_SRC.FROM = 3 ∧ u.fget (INT_RAW.bit Pg.PWR 2) = 1 ∧ u.mem = s.mem ∧ u.ntu = s.ntu)
  ∧ (∀ (s : State) (ep : Fin 6) (src : BitVec 6), s.pwr.leaving = some .run → 2 ≤ ep.val → ep.val ≤ lastAbortEp s.pwr.st →
    s.ntu.entry = none → s.canWake src.toNat = true →
    Does (.entryAbort ep src) s fun u => u.pwr.st = .run ∧ u.pwr.leaving = none ∧ u.coreA.waiting = false ∧ u.fbit PWR_STAT.ABORTED = true
      ∧ u.fget PWR_STAT.ABORT_EP = ep.val ∧ u.fget PWR_CNT.ABORTS = min 255 (s.fget PWR_CNT.ABORTS + 1)
      ∧ u.fget (INT_RAW.bit Pg.PWR 1) = 1 ∧ u.mem = s.mem ∧ u.ntu = s.ntu)
  ∧ (∀ (s : State) (t : Frc), (s.pwr.st = .nap ∨ s.pwr.st = .slumber) → s.pwr.leaving = none → s.sys.held = none → (s.advance t).cadRuns = true →
    (s.advance t).slotActive (s.advance t).excursionSlot = true →
    Does (.excursionStart t) s fun u => u.pwr.st = .doze ∧ u.pwr.exc = true ∧ u.pwr.home = s.pwr.st
      ∧ u.fget PWR_CNT.EXC = min 65535 (s.fget PWR_CNT.EXC + 1) ∧ u.mem = s.mem ∧ u.cad = s.cad)
  ∧ (∀ (s : State) (src : BitVec 6) (x : BitVec 5), s.canWake src.toNat = false → Does (.wake src x) s (fun u => u = s)
      ∧ ∀ ep, Does (.entryAbort ep src) s fun u => u = s)

/-- R79 to R81: the lock check 40 us after the tick, and a loss of lock after it. R84, R85: MAN, RFE_SYN_MAN and the clearing of RFE_CTRL.EN.
Where the manual leaves a choice it follows the model's, log entry 35.
States that these commands complete (`exec` answers a next state), each under conditions on the state and its operands alone: lockSample,
lossOfLock, rfeManWrite, rfeSynManWrite, rfeDisable. -/
def Obligations.LockAndTuning : Prop :=
  (
  (∀ (s : State) (t : Frc) (sl : Slot), s.slot = some sl → sl.lockSeen = false → sl.lost = false → (sl.kind = .tx ∨ sl.kind = .rx) →
      sl.tickNt + 1280 ≤ (s.advance t).nt → bitOf (s.fget RFE_CAL_STAT.VALID) 0 = true →
      Does (.lockSample t true) s fun u => u.fbit RFE_STAT.LOCK = true ∧ u.slot = some { sl with lockSeen := true }
        ∧ u = { s.advance t with regs := u.regs, slot := u.slot, rfe := u.rfe } ∧ RegsOff (onPages [Pg.RFE, Pg.AGC]) s u)
    ∧ (∀ (s : State) (t : Frc) (locked : Bool) (sl : Slot), s.slot = some sl → sl.lockSeen = false → sl.lost = false →
      (sl.kind = .tx ∨ sl.kind = .rx) → sl.tickNt + 1280 ≤ (s.advance t).nt → (locked && bitOf (s.fget RFE_CAL_STAT.VALID) 0) = false →
      Does (.lockSample t locked) s fun u => u.fbit RFE_STAT.LOCK = false ∧ u.fbit RFE_STAT.UNLOCK = true
        ∧ u.slot = some { sl with lockSeen := true, lost := true } ∧ u.rfe = s.rfe ∧ u.lanes = s.lanes ∧ u.txm = s.txm)
    ∧ (∀ (s : State) (t : Frc) (sl : Slot), s.slot = some sl → sl.lockSeen = true → sl.lost = false → sl.kind = .rx → s.txBusy = false →
      Does (.lossOfLock t) s fun u => u.rfe.window = false ∧ ∃ x, u.slot = some x ∧ x.asn = sl.asn ∧ x.lost = true)
    ∧ (∀ (s : State) (t : Frc) (sl : Slot) (x : Tx), s.slot = some sl → sl.lockSeen = true → sl.lost = false → sl.kind = .tx →
      s.txm.cur = some x → s.txBusy = true → s.fget TXM_STAT.STATE ≠ 5 →
      Does (.lossOfLock t) s fun u => u.fget TXM_STAT.STATE = 5 ∧ u.fget TXM_ERRINFO.CAUSE = 3
        ∧ ∃ y, u.txm.cur = some y ∧ y.aborted = true ∧ y.endAt = (s.advance t).frcN))
  ∧ (
  (∀ (s : State) (a : Acc) (v : Word), Accepted s a RFE_CTRL.addr → s.fbit RFE_CTRL.MAN = false →
      fieldGet (writtenTo s a RFE_CTRL.addr v) RFE_CTRL.MAN = 1 → fieldGet (writtenTo s a RFE_CTRL.addr v) RFE_CTRL.EN = s.fget RFE_CTRL.EN →
      bitOf v.toNat 1 = false →
      (s.fbit CAD_CTRL.EN = false → Does (.rfeManWrite a v) s fun u => u.fbit RFE_CTRL.MAN = true ∧ u.fbit RFE_STAT.MAN_REFUSED = s.fbit RFE_STAT.MAN_REFUSED)
      ∧ (s.fbit CAD_CTRL.EN = true → Does (.rfeManWrite a v) s fun u => u.fbit RFE_CTRL.MAN = false ∧ u.fbit RFE_STAT.MAN_REFUSED = true))
    ∧ (∀ (s : State) (a : Acc) (v : Word), Accepted s a RFE_SYN_MAN.addr → s.fbit RFE_CTRL.MAN = true →
      Does (.rfeSynManWrite a v) s fun u =>
        u.fget RFE_SYN_CUR.FREQ = fieldGet (writtenTo s a RFE_SYN_MAN.addr v) RFE_SYN_MAN.FREQ ∧ u.fbit RFE_STAT.LOCK = false)
    ∧ (∀ (s : State) (a : Acc) (v : Word), Accepted s a RFE_CTRL.addr → s.fbit RFE_CTRL.EN = true →
      fieldGet (writtenTo s a RFE_CTRL.addr v) RFE_CTRL.EN = 0 → bitOf v.toNat 1 = false →
      Does (.rfeDisable a v) s fun u => u.fbit RFE_STAT.LOCK = false ∧ u.fbit RFE_STAT.WB_ON = false ∧ u.rfe.running = none
        ∧ u.rfe.window = false ∧ u.fget RFE_CAL_STAT.PEND = s.fget RFE_CAL_STAT.PEND))

/-- R89, R92, R93: one step of each gain loop. Where the manual leaves a choice it follows the model's, log entry 36.
States that these commands complete (`exec` answers a next state), each under conditions on the state and its operands alone: narrowAgcStep,
clipInterval. -/
def Obligations.GainLoops : Prop :=
  (∀ (s : State) (p : Int) (sl : Slot), s.rfe.window = true → s.slot = some sl → sl.canopy = false →
    s.fget (LANE_STAT.STATE 0) = 1 → s.fbit AGC_STAT.NB_FROZEN = false →
    let g := s.fget AGC_NB_GAIN.CUR
    let wish := if s.fgetI AGC_NB_CFG.TGT < p then g - 1 else if p < s.fgetI AGC_NB_CFG.TGT - 6 then min 11 (g + 1) else g
    let lo := min 11 (s.fget AGC_NB_LIM.LIMIT_LO)
    let hi := max lo (min 11 (s.fget AGC_NB_LIM.LIMIT_HI))
    Does (.narrowAgcStep p) s fun u => u.fget AGC_NB_GAIN.WANT = wish
      ∧ u.fget AGC_NB_GAIN.CUR = (if s.fbit AGC_CTRL.NB_HOLD || !s.fbit AGC_CTRL.EN then g else clampN lo hi wish)
      ∧ PagesOnly [Pg.AGC] s u)
  ∧ (∀ (s : State) (n : Nat) (sl : Slot), s.rfe.window = true → s.rfe.ackSpan = false → s.rfe.spanTail = false → s.slot = some sl → sl.kind = .rx → sl.canopy = true →
    clampN 1 102 (s.fget AGC_CNP_CFG.CLIP_THR) ≤ n → min 11 (s.fget AGC_CNP_LIM.LIMIT_LO) < s.fget AGC_CNP_GAIN.CUR →
    s.fbit AGC_CTRL.CNP_HOLD = false → s.fbit AGC_CTRL.EN = true →
    Does (.clipInterval n) s fun u => u.fget AGC_CNP_GAIN.CUR = s.fget AGC_CNP_GAIN.CUR - 1 ∧ u.fbit AGC_STAT.CLIP_NOW = true
      ∧ (∀ l, l < 16 → (s.laneSt l = 3 → (u.lane l).disturbed = true) ∧ (s.laneSt l = 1 ∨ s.laneSt l = 2 → (u.lane l).dgain = (s.lane l).dgain + 6))
      ∧ u.fget AGC_CLIP_CNT.CNT = min (2 ^ AGC_CLIP_CNT.CNT.width - 1) (s.fget AGC_CLIP_CNT.CNT + 1)
      ∧ ∃ m, m = { s with regs := m.regs, rfe := { s.rfe with clipRun := 0, backoffs := s.rfe.backoffs + 1 }, lanes := m.lanes } ∧ AfterEvents [Pg.AGC] s m u)

/-- R98 to R102: the life of a calibration request. Where the manual leaves a choice it follows the model's, log entry 37.
States that these commands complete (`exec` answers a next state), each under conditions on the state and its operands alone: rfeCalReq,
tempUpdate, clearingWorkStart, calDone, calTimeout. -/
def Obligations.Calibrations : Prop :=
  (∀ (s : State) (a : Acc) (v : Word) (b : Nat), Accepted s a RFE_CAL_REQ.addr → (a.view = .base ∨ a.view = .set) → b < 8 → bitOf v.toNat b = true →
    Does (.rfeCalReq a v) s fun u => u.fget ⟨RFE_CAL_STAT.addr, 8 + b, 1⟩ = 1)
  ∧ (∀ (s : State) (temp : BitVec 8), Does (.tempUpdate temp) s fun u => u.fget RFE_CAL_TEMP.T_NOW = temp.toNat ∧ u.fget TST_TEMP.T = temp.toNat)
  ∧ (∀ (s : State) (temp : BitVec 8), s.fbit RFE_STAT.CAL_STALE = true → Does (.tempUpdate temp) s fun u =>
      u.raw RFE_CAL_STAT.addr = s.raw RFE_CAL_STAT.addr ∧ u.fbit RFE_STAT.CAL_STALE = true)
  ∧ (∀ (s : State) (temp : BitVec 8), s.fbit RFE_CTRL.TEMP_AUTO = true → s.fbit RFE_STAT.CAL_STALE = false →
    max 1 (s.fget RFE_CAL_CFG.TEMP_DELTA) ≤ (temp.toInt - s.fgetI RFE_CAL_TEMP.T_CAL).natAbs →
    Does (.tempUpdate temp) s fun u => u.fbit RFE_STAT.CAL_STALE = true
      ∧ u.fget ⟨RFE_CAL_STAT.addr, 8, 1⟩ = 1 ∧ u.fget ⟨RFE_CAL_STAT.addr, 11, 1⟩ = 1 ∧ u.fget ⟨RFE_CAL_STAT.addr, 12, 1⟩ = 1)
  ∧ (∀ (s : State) (t : Frc) (sl : Slot), s.slot = some sl → sl.kind = .clearing → sl.tail = false → sl.tickNt + 1920 ≤ (s.advance t).nt →
    Does (.clearingWorkStart t) s fun u => u.rfe.clearingEnd = some ((s.advance t).frcN + (sl.tickNt + s.slotLen - us s.tmpl.tailMin - (s.advance t).nt)) ∧ u.slot = s.slot
      ∧ u.mem = s.mem)
  ∧ (∀ (s : State) (t : Frc) (b : Fin 8) (ok : Bool), s.rfe.running = some b.val → s.sys.boot = none →
    Does (.calDone t b ok) s fun u => u.fget ⟨RFE_CAL_STAT.addr, 8 + b.val, 1⟩ = 0
      ∧ u.fget ⟨RFE_CAL_STAT.addr, b.val, 1⟩ = (if ok then 1 else s.fget ⟨RFE_CAL_STAT.addr, b.val, 1⟩)
      ∧ u.fget ⟨RFE_CAL_STAT.addr, 24 + b.val, 1⟩ = (if ok then s.fget ⟨RFE_CAL_STAT.addr, 24 + b.val, 1⟩ else 1)
      ∧ u.rfe.running ≠ some b.val ∧ u.mem = s.mem)
  ∧ (∀ (s : State) (i : Fin 10) (n : Nat), (s.rfe.age.find? fun e => e.1 == i.val) = some (i.val, n) → s.rfe.running ≠ some i.val →
    max 1 (s.fget RFE_CAL_CFG.DEADLINE) ≤ s.asnNow - n →
    (i.val < 8 → s.fget ⟨RFE_CAL_STAT.addr, 8 + i.val, 1⟩ = 1 →
      Does (.calTimeout i) s fun u => u.fget ⟨RFE_CAL_STAT.addr, 8 + i.val, 1⟩ = 0 ∧ u.fget ⟨RFE_CAL_STAT.addr, 16 + i.val, 1⟩ = 1
        ∧ u = { s with regs := u.regs, rfe := { s.rfe with age := u.rfe.age } } ∧ RegsOff (onPages [Pg.RFE]) s u)
    ∧ (i.val = 8 → s.fbit TXM_MCHK_REQ.PEND = true →
      Does (.calTimeout i) s fun u => u.fbit TXM_MCHK_REQ.PEND = false ∧ u.fget TXM_MCHK_RES.RESULT = 3
        ∧ RegsOff (onPages [Pg.RFE, Pg.TXM]) s u)
    ∧ (i.val = 9 → s.fbit TST_CAP_REQ.PEND = true →
      Does (.calTimeout i) s fun u => u.fbit TST_CAP_REQ.PEND = false ∧ u.fget TST_CAP_REQ.RESULT = 1
        ∧ RegsOff (onPages [Pg.TST]) s u))

/-- R111: the states of a lane up to DATA. Where the manual leaves a choice it follows the model's, log entries 5, 39, 135, 136.
States that these commands complete (`exec` answers a next state), each under conditions on the state and its operands alone: laneArm,
searchEnd, preambleDetect, sfdMatch, sfdTimeout. -/
def Obligations.LaneSearchToData : Prop :=
  (∀ (s : State) (t : Frc) (n : Fin 16) (sl : Slot) (v : Served), s.slot = some sl → sl.kind = .rx → sl.lost = false → sl.lockSeen = true →
    (s.lane n).serves = some v → (s.lane n).searching = false → s.laneSt n = 0 → s.cad.replaying = false → s.txm.away = false →
    s.fbit (LANE_CTRL.EN n) = true → sl.tickNt + us (max (if sl.canopy then 60 else 40) v.opens) ≤ (s.advance t).nt →
    (s.advance t).nt < sl.tickNt + us v.closes →
    Does (.laneArm t n) s fun u => u.laneSt n = 1 ∧ u.slot = s.slot ∧ u.mem = s.mem ∧ u.trf = s.trf ∧ u.keys = s.keys)
  ∧ (∀ (s : State) (n : Fin 16), (s.lane n).searching = true → s.laneSt n = 1 →
    Does (.searchEnd n) s fun u => u.laneSt n = 0 ∧ u.slot = s.slot ∧ u.mem = s.mem ∧ u.trf = s.trf ∧ u.keys = s.keys)
  ∧ (∀ (s : State) (n : Fin 16) (t : Frc) (l : List (Fin 5 × Nat × Nat)), s.lanes.length = 16 → s.laneSt n = 1 → (s.lane n).paused = false →
    (∃ b ∈ l, b.1.val < s.branches n ∧ s.pdLen n ≤ b.2.1) →
    let det := l.filter fun b => b.1.val < s.branches n && decide (s.pdLen n ≤ b.2.1)
    Does (.preambleDetect ⟨n, t⟩ l) s fun u => u.laneSt n = 2 ∧ (u.lane n).hyp = winner det
      ∧ u.fget (LANE_CNT.DET n) = min 255 (s.fget (LANE_CNT.DET n) + det.length)
      ∧ u.slot = s.slot ∧ u.mem = s.mem ∧ u.trf = s.trf ∧ u.keys = s.keys)
  ∧ (∀ (s : State) (n : Fin 16) (ts : Frc) (afc : Int) (rssi : BitVec 8) (snr : Int) (word : List Bool), s.lanes.length = 16 → s.laneSt n = 2 →
    let hits := syncHits (s.laneWords n) (s.pdField n LANE_PD.SFD_ERR) word
    (∀ code b, hits = [(code, b)] → s.sfdInTime n ts.toNat code b = true →
      Does (.sfdMatch ⟨n, ts⟩ afc rssi snr word) s fun u => u.laneSt n = 3 ∧ (u.lane n).code = code ∧ (u.lane n).fmtB = b
        ∧ u.raw (LANE_TS_LO.addr n) = ts.toNat % 2 ^ 32 ∧ u.raw (LANE_TS_HI.addr n) = ts.toNat / 2 ^ 32
        ∧ u.slot = s.slot ∧ u.mem = s.mem ∧ u.trf = s.trf ∧ u.keys = s.keys)
    ∧ (hits = [] → Does (.sfdMatch ⟨n, ts⟩ afc rssi snr word) s fun u => u = s.advance ts))
  ∧ (∀ (s : State) (n : Fin 16) (t : Frc), s.laneSt n = 2 → s.sfdLimit n ≤ (s.advance t).frcN →
    Does (.sfdTimeout ⟨n, t⟩) s fun u => u.laneSt n = (if (s.lane n).searching then 1 else 0)
      ∧ u.fget (LANE_CNT.SFD_MISS n) = min 255 (s.fget (LANE_CNT.SFD_MISS n) + 1) ∧ u.slot = s.slot ∧ u.mem = s.mem ∧ u.keys = s.keys)

/-- R121 to R123: a frame from its PHR to its publication.
Where the manual leaves a choice it follows the model's, log entries 5, 41, 42, 135, 136.
States that these commands complete (`exec` answers a next state), each under conditions on the state and its operands alone: phrParsed,
lastBitDecoded, frameChecks. -/
def Obligations.LaneReceivesFrame : Prop :=
  (∀ (s : State) (n : Fin 16) (t : Frc) (bits : List Bool) (rsc inter : Bool) (mhr : List Byte) (p : Phr) (cs : List Nat) (s' : State),
    s.laneSt n = 3 → s.lanes.length = 16 → (s.lane n).phr = none →
    headOf (s.lane n).code (s.lane n).fmtB (viterbiDepth s.fecCfg) rsc inter bits = .frame p → s.inAckWindow = false →
    (s.advance t).takeCells (cellsFor p.len) = some (cs, s') →
    let i := if isWmbus p.mode then none else (parseHead mhr).map (·.1)
    (i.filter (·.secured) = none → Does (.phrParsed ⟨n, t⟩ ⟨bits, rsc, inter, mhr⟩) s fun u =>
      u.laneSt n = 3 ∧ (u.lane n).phr.map (fun q => { q with ackReq := false }) = some { p with ackReq := false } ∧ (u.lane n).cells = cs
        ∧ u.mem = s.mem ∧ u.keys = s.keys)
    ∧ (∀ x k, i = some x → x.secured = true → s.laneKey x = some k →
      Does (.phrParsed ⟨n, t⟩ ⟨bits, rsc, inter, mhr⟩) s fun u => u.laneSt n = 3 ∧ (u.lane n).key = some (k, (s.keySlot k).gen)
        ∧ (u.lane n).cells = cs ∧ u.mem = s.mem ∧ u.keys = s.keys))
  ∧ (∀ (s : State) (n : Fin 16) (t : Frc) (bits : List Bool) (rsc inter : Bool) (mhr : List Byte), s.laneSt n = 3 → s.lanes.length = 16 →
    (s.lane n).phr = none →
    let h := headOf (s.lane n).code (s.lane n).fmtB (viterbiDepth s.fecCfg) rsc inter bits
    ((h = .bad ∨ ∃ m, h = .switch m ∧ modeWide m ≠ modeWide (s.laneMode n)) →
      Does (.phrParsed ⟨n, t⟩ ⟨bits, rsc, inter, mhr⟩) s fun u => u.laneSt n = (if (s.lane n).searching then 1 else 0)
        ∧ u.fget (LANE_CNT.PHR_ERR n) = min 255 (s.fget (LANE_CNT.PHR_ERR n) + 1) ∧ u.mem = s.mem ∧ u.keys = s.keys)
    ∧ (h = .symbol → Does (.phrParsed ⟨n, t⟩ ⟨bits, rsc, inter, mhr⟩) s fun u => u.laneSt n = (if (s.lane n).searching then 1 else 0)
        ∧ u.fget CNP_DROP_CNT.CRC = min 255 (s.fget CNP_DROP_CNT.CRC + 1) ∧ u.mem = s.mem ∧ u.keys = s.keys)
    ∧ (∀ m, h = .switch m → modeWide m = modeWide (s.laneMode n) →
      Does (.phrParsed ⟨n, t⟩ ⟨bits, rsc, inter, mhr⟩) s fun u => u.laneSt n = 2 ∧ (u.lane n).toMode = some m ∧ u.mem = s.mem ∧ u.trf = s.trf))
  ∧ (∀ (s : State) (n : Fin 16) (t : Frc) (bits : List Bool) (p : Phr), s.laneSt n = 3 → s.lanes.length = 16 → (s.lane n).phr = some p →
    (isRill p.mode = true → rillCodewords p.mode p.len ≤ (s.lane n).cwOut) →
    Does (.lastBitDecoded n t bits) s fun u => u.laneSt n = 4 ∧ (u.lane n).frame = some (frameOf p (viterbiDepth s.fecCfg) bits (s.lane n).info)
      ∧ u.fget (INT_RAW.bit (Pg.LANE n) 0) = 1 ∧ u.mem = s.mem ∧ u.trf = s.trf)
  ∧ (∀ (s : State) (n : Fin 16) (t : Frc) (f : RxFrame) (p : Phr) (v : Served) (sl : Slot), s.laneSt n = 4 → s.lanes.length = 16 →
    s.cad.replaying = false → (s.lane n).frame = some f → (s.lane n).phr = some p → (s.lane n).serves = some v → s.slot = some sl →
    s.inAckWindow = false →
    let x := (s.advance t).frameCheck n sl.asn (isWmbus p.mode) f (if isWmbus p.mode then none else parseMhr f.octets f.fcs s.depEid)
    let c : Instr := .frameChecks (BitVec.ofNat 16 (2 ^ n.val)) t
    (∀ oct, x = .good oct → Does c s fun u => u.trf.rxq = s.trf.rxq ++ [(s.lane n).cells.headD 0])
    ∧ (∀ d full, x = .drop d full → Does c s fun u => u.trf.rxq = s.trf.rxq ∧ u.mem = s.mem
        ∧ u.laneSt n = (if (s.lane n).searching then 1 else 0)))
  ∧ (∀ (s : State) (t : Frc) (l : BitVec 16), s.cad.replaying = true ∨ s.inAckWindow = true →
    Does (.frameChecks l t) s fun u => u = s.advance t)

/-- R115, R120: the threshold loop and the LDPC pool. R104, R125, R127: acknowledgements of a receive slot, and the enables.
Where the manual leaves a choice it follows the model's, log entries 39, 40.
States that these commands complete (`exec` answers a next state), each under conditions on the state and its operands alone:
thresholdBlock, ldpcCodewordReceived, ldpcDecodeDone, ackDecision, canopyWindowReturn, cnpEnWrite, laneDisable, fecDisable. -/
def Obligations.CanopyThresholdsAndStops : Prop :=
  (
  (∀ (s : State) (n : Fin 16) (p : Int) (quiet : Bool), s.lanes.length = 16 → s.laneSt n = 1 → (s.lane n).paused = false →
      Does (.thresholdBlock n p quiet) s fun u =>
        (u.lane n).den = (s.lane n).den + 1
        ∧ (u.lane n).nf = (if quiet then 15 * (s.lane n).nf + p * 16 ^ (s.lane n).den else 16 * (s.lane n).nf)
        ∧ ((u.lane n).thr - 16 * (s.lane n).thr).natAbs ≤ 256 * 16 ^ ((s.lane n).den + 1)
        ∧ (s.fbit (LANE_CTRL.THR_HOLD n) = true → (u.lane n).thr = 16 * (s.lane n).thr)
        ∧ u = { s with regs := u.regs, lanes := u.lanes } ∧ RegsOff (onPages [Pg.LANE n]) s u
        ∧ ∀ k, k ≠ n.val → u.lane k = s.lane k)
    ∧ (∀ (s : State) (n : Fin 16) (t : Frc) (p : Phr), s.lanes.length = 16 → s.laneSt n = 3 → (s.lane n).phr = some p → isRill p.mode = true →
      s.fbit FEC_CTRL.EN = true →
      Does (.ldpcCodewordReceived ⟨n, t⟩) s fun u => (u.lane n).cwIn = (s.lane n).cwIn + 1 ∧ u = { s.advance t with lanes := u.lanes, fec := u.fec })
    ∧ (∀ (s : State) (d : Fin 4) (t : Frc) (it : BitVec 6) (cw : List Bool) (x : Codeword) (p : Phr), s.lanes.length = 16 → x.lane < 16 →
      s.fec.dec[d.val]? = some (some x) → (s.lane x.lane).phr = some p →
      let n := x.lane
      let c := cwWord p (s.lane n).cwOut cw
      let z := !(rillSyndrome p.mode c).contains true
      Does (.ldpcDecodeDone d t ⟨it, cw⟩) s fun u => (u.lane n).cwOut = (s.lane n).cwOut + 1
        ∧ (u.lane n).info = (s.lane n).info ++ c.take (cwInfo p (s.lane n).cwOut)
        ∧ u.fget FEC_CNT.CW = min 65535 (s.fget FEC_CNT.CW + 1)
        ∧ u.fget FEC_CNT.FAIL = (if z then s.fget FEC_CNT.FAIL else min 65535 (s.fget FEC_CNT.FAIL + 1))
        ∧ u = { s.advance t with regs := u.regs, lanes := u.lanes, fec := u.fec } ∧ RegsOff (onPages [Pg.FEC]) s u))
  ∧ (
  (∀ (s : State) (t : Frc) (n : Fin 16) (sl : Slot) (a : AckBuild), s.slot = some sl → sl.canopy = false →
      s.txm.acks.find? (fun x => x.lane == n.val && !x.go && decide (x.launchAt ≤ (s.advance t).frcN + 1280)) = some a →
      Does (.ackDecision t n) s fun u => u.fget RFE_SYN_CUR.FREQ = a.freq % 2 ^ RFE_SYN_CUR.FREQ.width
        ∧ (∃ x ∈ u.txm.acks, x.frame = a.frame ∧ x.go = true) ∧ u.lanes = s.lanes ∧ u.mem = s.mem)
    ∧ (∀ (s : State) (t : Frc) (n : Fin 16) (sl : Slot) (a : AckBuild), s.slot = some sl → sl.kind = .rx → sl.canopy = true →
      s.txm.acks.find? (fun x => x.lane == n.val && !x.go && decide (x.launchAt ≤ (s.advance t).frcN + 1280)) = some a →
      (∀ k, k < 16 → s.laneSt k ≠ 2 ∧ s.laneSt k ≠ 3) → s.txBusy = false → s.txm.away = false →
      Does (.ackDecision t n) s fun u => u.fget RFE_SYN_CUR.FREQ = a.freq % 2 ^ RFE_SYN_CUR.FREQ.width
        ∧ (∃ x ∈ u.txm.acks, x.frame = a.frame ∧ x.go = true) ∧ u.txm.away = true ∧ u.rfe.ackSpan = true ∧ u.mem = s.mem)
    ∧ (∀ (s : State) (t : Frc) (sl : Slot), s.slot = some sl → s.txm.away = true → s.txBusy = false → s.txm.acks.any (·.go) = false →
      s.txm.backFrom + us 60 ≤ (s.advance t).frcN →
      Does (.canopyWindowReturn t) s fun u => u.txm.away = false ∧ u.rfe.ackSpan = false ∧ (∀ l ∈ u.lanes, l.paused = false)
        ∧ u.fget RFE_SYN_CUR.FREQ = sl.freq % 2 ^ RFE_SYN_CUR.FREQ.width ∧ u.mem = s.mem ∧ u.slot = s.slot)
    ∧ (∀ (s : State) (a : Acc) (v : Word), Accepted s a CNP_CTRL.addr → bitOf v.toNat 1 = false →
      Does (.cnpEnWrite a v) s fun u => u.fget CNP_CTRL.EN = fieldGet (writtenTo s a CNP_CTRL.addr v) CNP_CTRL.EN ∧ u.slot = s.slot
        ∧ u.lanes = s.lanes ∧ u.mem = s.mem)
    ∧ (∀ (s : State) (a : Acc) (n : Fin 16) (v : Word), Accepted s a (LANE_CTRL.addr n) → s.fbit (LANE_CTRL.EN n) = true →
      fieldGet (writtenTo s a (LANE_CTRL.addr n) v) (LANE_CTRL.EN n) = 0 → bitOf v.toNat 1 = false →
      Does (.laneDisable a n v) s fun u => u.fbit (LANE_CTRL.EN n) = false ∧ u.laneSt n = 0 ∧ u.mem = s.mem ∧ u.slot = s.slot)
    ∧ (∀ (s : State) (a : Acc) (v : Word), Accepted s a FEC_CTRL.addr → s.fbit FEC_CTRL.EN = true →
      fieldGet (writtenTo s a FEC_CTRL.addr v) FEC_CTRL.EN = 0 → bitOf v.toNat 1 = false →
      Does (.fecDisable a v) s fun u => u.fbit FEC_CTRL.EN = false ∧ u.fec = {} ∧ u.mem = s.mem))

/-- R132 to R134, R215: the states of a transmission. Where the manual leaves a choice it follows the model's, log entries 45, 46.
States that these commands complete (`exec` answers a next state), each under conditions on the state and its operands alone: rampUp,
launch, headEnd, splicePoint, tagComplete, frameEnd, rampDownEnd. -/
def Obligations.TransmissionTimeline : Prop :=
  (∀ (s : State) (t : Frc) (sl : Slot) (e : Nat) (k : Ticket), s.txBusy = false → s.txm.acks.find? (·.go) = none → s.slot = some sl →
    sl.kind = .tx → sl.lost = false → s.ticketAt sl.asn = some (e, k) → (k.st = 2 ∨ k.st = 3) →
    (s.advance t).launchFrc sl ≤ (s.advance t).frcN + us s.rampLen → (s.advance t).frcN < (s.advance t).launchFrc sl →
    s.txBlock k.cand.freq = none → s.fbit RFE_CTRL.EN = true → s.dom .rad = .on → s.cad.replaying = false →
    Does (.rampUp t) s fun u => u.fget TXM_STAT.STATE = 1 ∧ (∃ x, u.txm.cur = some x ∧ x.what = .ticket e ∧ x.freq = k.cand.freq)
      ∧ u.slot = s.slot ∧ u.hdr = s.hdr ∧ u.mem = s.mem)
  ∧ (∀ (s : State) (t : Frc) (sl : Slot) (e : Nat) (k : Ticket), s.slot = some sl → sl.kind = .tx → sl.tail = false → sl.lost = false →
    sl.tickNt + us s.tmpl.txOffset ≤ (s.advance t).nt → s.ticketAt sl.asn = some (e, k) → (k.st = 2 ∨ k.st = 3) →
    s.fbit RFE_CTRL.EN = true → s.txBlock k.cand.freq = none → s.dom .rad = .on → s.cad.replaying = false →
    Does (.launch t) s fun u => u.fget TXM_STAT.STATE = 2 ∧ u.ticket e = some { k with st := 4, launched := true }
      ∧ (∃ x, u.txm.cur = some x ∧ x.what = .ticket e ∧ x.launched = true ∧ x.shape = k.shape)
      ∧ u.fget TXM_CNT.STARTS = min (2 ^ TXM_CNT.STARTS.width - 1) (s.fget TXM_CNT.STARTS + 1)
      ∧ u.mem = s.mem ∧ u.keys = s.keys ∧ u.slot = s.slot)
  ∧ (∀ (s : State) (t : Frc) (x : Tx), s.txm.cur = some x → s.fget TXM_STAT.STATE = 2 → x.headEnd ≤ (s.advance t).frcN →
    Does (.headEnd t) s fun u => u.fget TXM_STAT.STATE = 3 ∧ PagesOnly [Pg.TXM] (s.advance t) u)
  ∧ (∀ (s : State) (x : Tx) (p : Nat), s.txm.cur = some x → x.spliceAt = some p → (s.fget TXM_STAT.STATE = 2 ∨ s.fget TXM_STAT.STATE = 3) →
    Does .splicePoint s fun u => u.fget TXM_STAT.STATE = 4 ∧ PagesOnly [Pg.TXM] { s.advance (BitVec.ofNat 64 p) with txm := u.txm } u
      ∧ ∃ oct, u.txm = { s.txm with cur := some { x with octets := oct } }
        ∧ ∀ e k, x.what = .ticket e → s.ticket e = some k → oct = s.ticketAir k x.ntDep x.tag)
  ∧ (∀ (s : State) (x : Tx), s.txm.cur = some x → x.launched = true → x.aborted = false → x.key.isSome = true →
    Does .tagComplete s fun u => u = { s with txm := { s.txm with cur := some { x with tagged := true } } })
  ∧ (∀ (s : State) (t : Frc) (x : Tx) (e : Nat) (k : Ticket), s.txm.cur = some x → x.what = .ticket e → s.ticket e = some k →
    (s.fget TXM_STAT.STATE = 2 ∨ s.fget TXM_STAT.STATE = 3 ∨ s.fget TXM_STAT.STATE = 4) → x.endAt ≤ (s.advance t).frcN →
    Does (.frameEnd t) s fun u => u.fget TXM_STAT.STATE = 5 ∧ u.txm.air = x.octets
      ∧ u.txm.samples = shaped x.shape (frameDevs x.mode x.lead framePre x.fcs x.fmtB x.octets) ∧ u.txm.bits = frameBits x.mode x.fcs x.octets
      ∧ u.ticket e = some { k with sent := true }
      ∧ (k.ackReq = true → ∃ w, u.cad.ack = some w ∧ w.opens = x.endAt + us (s.tmpl.ackDelay - s.tmpl.ackGuard))
      ∧ (k.ackReq = false → u.cad = s.cad) ∧ u.mem = s.mem ∧ u.slot = s.slot)
  ∧ (∀ (s : State) (t : Frc) (x : Tx), s.txm.cur = some x → s.fget TXM_STAT.STATE = 5 → x.rampEnd ≤ (s.advance t).frcN →
    s.ntu.stepDue = false → s.cadRuns = true →
    Does (.rampDownEnd t) s fun u => u.fget TXM_STAT.STATE = 0 ∧ u.txm.cur = none ∧ u.txm.backFrom = u.frcN
      ∧ (x.aborted = false → u.fget (INT_RAW.bit Pg.TXM 0) = 1) ∧ u.mem = s.mem ∧ u.slot = s.slot)

/-- R140, R141: acknowledgements, and the abort of a transmission. R129, R144, R146, R148: the transmitter's page.
Where the manual leaves a choice it follows the model's, log entries 43, 47.
States that these commands complete (`exec` answers a next state), each under conditions on the state and its operands alone: ackBuildDone,
ackLaunch, liveEccError, mchkReq, mchkDone, txmDisable, txmTestWrite, txmFirDataAccess. -/
def Obligations.AcksAndTransmitterRequests : Prop :=
  (
  (∀ (s : State) (t : Frc) (l r : List AckBuild) (a : AckBuild), s.txm.acks = l ++ a :: r → (∀ x ∈ l, x.ready = true) → a.ready = false →
      Does (.ackBuildDone t) s fun u => u = { s.advance t with txm := { s.txm with acks := l ++ { a with ready := true } :: r } })
    ∧ (∀ (s : State) (t : Frc) (a : AckBuild), s.txm.acks.find? (fun x => x.go && x.ready) = some a → a.launchAt ≤ (s.advance t).frcN →
      s.txBusy = false → s.fbit RFE_CTRL.EN = true → s.sys.st ≠ .recovery → s.txBlock a.freq = none → s.dom .rad = .on →
      s.cad.replaying = false → ((s.advance t).ackDrop a.frame).dutyAdmits a.freq (airtimeFine a.mode false a.room.length ackPre) false = true →
      Does (.ackLaunch t) s fun u => u.fget TXM_STAT.STATE = 2 ∧ (∃ x, u.txm.cur = some x ∧ x.what = .ack ∧ x.launched = true)
        ∧ (∀ y ∈ u.txm.acks, y.frame ≠ a.frame) ∧ u.slot = s.slot ∧ u.keys = s.keys ∧ u.hdr = s.hdr)
    ∧ (∀ (s : State) (t : Frc) (x : Tx), s.txm.cur = some x → s.fget TXM_STAT.STATE ≠ 0 → s.fget TXM_STAT.STATE ≠ 5 →
      Does (.liveEccError t) s fun u => u.fget TXM_STAT.STATE = 5 ∧ u.fget TXM_ERRINFO.CAUSE = 4 ∧ u.fbit TXM_STAT.LIVE_ERR = true
        ∧ (∃ y, u.txm.cur = some y ∧ y.aborted = true ∧ y.endAt = (s.advance t).frcN) ∧ u.mem = s.mem ∧ u.hdr = s.hdr))
  ∧ (
  (∀ (s : State) (a : Acc) (v : Word), Accepted s a TXM_MCHK_REQ.addr → (a.view = .base ∨ a.view = .set) → v = 1#32 →
      let ok := !modeNoTx (s.fget TXM_MCHK_MODE.MODE) && bitOf (s.fget RFE_CAL_STAT.VALID) 0 && bitOf (s.fget RFE_CAL_STAT.VALID) 2
        && bitOf (s.fget RFE_CAL_STAT.VALID) 5
      (ok = true → Does (.mchkReq a v) s fun u => u.fbit TXM_MCHK_REQ.PEND = true ∧ u.mem = s.mem ∧ u.slot = s.slot)
      ∧ (ok = false → Does (.mchkReq a v) s fun u => u.fget TXM_MCHK_RES.RESULT = 2 ∧ u.fbit TXM_MCHK_REQ.PEND = s.fbit TXM_MCHK_REQ.PEND
          ∧ u.mem = s.mem ∧ u.slot = s.slot))
    ∧ (∀ (s : State) (p q : BitVec 8), s.rfe.running = some 8 →
      Does (.mchkDone p q) s fun u => u.fget TXM_MCHK_RES.ACP1 = p.toNat ∧ u.fget TXM_MCHK_RES.ACP2 = q.toNat
        ∧ u.fbit TXM_MCHK_RES.VALID = true ∧ u.fbit TXM_MCHK_REQ.PEND = false
        ∧ (u.fbit TXM_MCHK_RES.PASS = true ↔ p.toInt ≤ -(s.acpLimits.1 : Int) ∧ q.toInt ≤ -(s.acpLimits.2 : Int)) ∧ u.mem = s.mem)
    ∧ (∀ (s : State) (a : Acc) (v : Word) (x : Tx), Accepted s a TXM_CTRL.addr → s.fbit TXM_CTRL.EN = true →
      fieldGet (writtenTo s a TXM_CTRL.addr v) TXM_CTRL.EN = 0 → bitOf v.toNat 1 = false → s.txm.cur = some x → s.fget TXM_STAT.STATE ≠ 0 →
      Does (.txmDisable a v) s fun u => u.fbit TXM_CTRL.EN = false ∧ u.fget TXM_STAT.STATE = 5 ∧ u.txm.cur.isSome = true ∧ u.mem = s.mem)
    ∧ (∀ (s : State) (a : Acc) (v : Word) (m : Nat), Accepted s a TXM_TEST.addr → (m = 1 ∨ m = 2) →
      fieldGet (writtenTo s a TXM_TEST.addr v) TXM_TEST.MODE = m →
      (s.sys.st = .test → s.fbit RFE_CTRL.MAN = true → s.fbit TXM_CTRL.EN = true → s.regionOk (s.fget RFE_SYN_MAN.FREQ) = true →
        (m = 2 → modeNoTx (fieldGet (writtenTo s a TXM_TEST.addr v) TXM_TEST.AIRMODE) = false) → s.txBusy = false → s.txm.cur = none →
        Does (.txmTestWrite a v) s fun u => u.fget TXM_STAT.STATE = 3 ∧ ∃ x, u.txm.cur = some x ∧ x.what = .test ∧ x.freq = s.fget RFE_SYN_MAN.FREQ)
      ∧ (s.sys.st ≠ .test → Does (.txmTestWrite a v) s fun u => u.fbit TXM_STAT.TEST_REFUSED = true ∧ u.fget TXM_TEST.MODE = 0 ∧ u.txm = s.txm))
    ∧ (∀ (s : State) (a : Acc), MayRead s a.m (viewAddr a.view TXM_FIR_DATA.addr) →
      Does (.txmFirDataAccess a none) s fun u => u.bus.data = (s.tap (s.fget TXM_FIR_IDX.IDX)).setWidth 32 ∧ u.bus.err = false
        ∧ u.fget TXM_FIR_IDX.IDX = (s.fget TXM_FIR_IDX.IDX + 1) % 64 ∧ u.txm = s.txm)
    ∧ (∀ (s : State) (a : Acc) (v : Word), Accepted s a TXM_FIR_DATA.addr →
      let i := s.fget TXM_FIR_IDX.IDX
      Does (.txmFirDataAccess a (some v)) s fun u =>
        u.tap i = (match a.view with
          | .base => v.setWidth 16
          | .set => s.tap i ||| v.setWidth 16
          | .clr => s.tap i &&& ~~~(v.setWidth 16)
          | .tgl => s.tap i ^^^ v.setWidth 16)
        ∧ u.fget TXM_FIR_IDX.IDX = (i + 1) % 64 ∧ u.fbit TXM_MCHK_RES.VALID = false ∧ u.mem = s.mem))

/-- R173, R174: the enable of Cadence and its end. R183, R198, R207, R216: the CAD and NBR pages.
Where the manual leaves a choice it follows the model's, log entries 50, 52.
States that these commands complete (`exec` answers a next state), each under conditions on the state and its operands alone: cadEnable,
cadDisable, cadTblchg, nbrChg, cadHopDataAccess, cadApphb, cadLsInj. -/
def Obligations.CadenceControl : Prop :=
  (
  (∀ (s : State) (a : Acc) (v : Word), Accepted s a CAD_CTRL.addr → s.fbit CAD_CTRL.EN = false →
      fieldGet (writtenTo s a CAD_CTRL.addr v) CAD_CTRL.EN = 1 → bitOf v.toNat 1 = false →
      let ok := decide (s.sys.st = .run) && !s.fbit RFE_CTRL.MAN && s.fbit (CAD_SF.EN 0) && s.templateOk && s.fbit CAD_SELF_SHORT.EXT_V
        && !s.cad.stopping
      (ok = true → Does (.cadEnable a v) s fun u => u.fbit CAD_CTRL.EN = true ∧ u.cad.startAt = s.frcN + 3200 ∧ u.slot = s.slot
        ∧ u.hdr = s.hdr ∧ u.mem = s.mem)
      ∧ (ok = false → Does (.cadEnable a v) s fun u => u.fbit CAD_CTRL.EN = false ∧ u.fbit CAD_STAT.EN_REFUSED = true ∧ u.cad = s.cad
        ∧ u.slot = s.slot ∧ u.hdr = s.hdr ∧ u.mem = s.mem))
    ∧ (∀ (s : State) (a : Acc) (v : Word) (sl : Slot), Accepted s a CAD_CTRL.addr → NothingOwed s → s.fbit CAD_CTRL.EN = true →
      fieldGet (writtenTo s a CAD_CTRL.addr v) CAD_CTRL.EN = 0 → bitOf v.toNat 1 = false → s.slot = some sl → sl.tail = false →
      Does (.cadDisable a v) s fun u => u.fbit CAD_CTRL.EN = false ∧ u.cad.stopping = true ∧ u.slot = some sl ∧ u.hdr = s.hdr ∧ u.mem = s.mem)
    ∧ (∀ (s : State) (a : Acc) (v : Word), Accepted s a CAD_CTRL.addr → NothingOwed s → s.fbit CAD_CTRL.EN = true →
      fieldGet (writtenTo s a CAD_CTRL.addr v) CAD_CTRL.EN = 0 → bitOf v.toNat 1 = false → s.slot = none → s.ntu.step = none →
      Does (.cadDisable a v) s fun u => u.fbit CAD_CTRL.EN = false ∧ u.slot = none ∧ u.hdr.plans = [] ∧ u.txm.acks = []
        ∧ u.cad.stopping = false ∧ ∀ e k, e < 4 → s.ticket e = some k → k.st ≤ 3 → e ∈ u.hdr.undoing))
  ∧ (
  (∀ (s : State) (a : Acc) (v : Word), Accepted s a CAD_TBLCHG.addr → (a.view = .base ∨ a.view = .set) → fieldGet v.toNat CAD_TBLCHG.GO = 1 →
      fieldGet (writtenTo s a CAD_TBLCHG.addr v) CAD_TBLCHG.ALL = 1 →
      Does (.cadTblchg a v) s fun u => (∀ e k, e < 4 → s.ticket e = some k → k.st ≤ 2 → e ∈ u.hdr.undoing) ∧ u.slot = s.slot ∧ u.mem = s.mem)
    ∧ (∀ (s : State) (a : Acc) (v : Word), Accepted s a NBR_CHG.addr → (a.view = .base ∨ a.view = .set) → fieldGet v.toNat NBR_CHG.GO = 1 →
      fieldGet (writtenTo s a NBR_CHG.addr v) NBR_CHG.INIT = 0 →
      Does (.nbrChg a v) s fun u => (∀ e k, e < 4 → s.ticket e = some k → k.st ≤ 2 →
        k.nbr = some (fieldGet (writtenTo s a NBR_CHG.addr v) NBR_CHG.IDX) → e ∈ u.hdr.undoing) ∧ u.slot = s.slot ∧ u.mem = s.mem)
    ∧ (∀ (s : State) (a : Acc), MayRead s a.m (viewAddr a.view CAD_HOP_DATA.addr) →
      Does (.cadHopDataAccess a none) s fun u => u.bus.data = BitVec.ofNat 32 s.hopAt ∧ u.bus.err = false
        ∧ u.fget CAD_HOP_IDX.POS = (s.fget CAD_HOP_IDX.POS + 1) % 128 ∧ u.cad = s.cad ∧ u.hdr = s.hdr)
    ∧ (∀ (s : State) (a : Acc) (v : Word) (h : List Nat), Accepted s a CAD_HOP_DATA.addr → s.cad.hop[s.fget CAD_HOP_IDX.SEQ]? = some h →
      s.fget CAD_HOP_IDX.POS < h.length → a.view = .base →
      Does (.cadHopDataAccess a (some v)) s fun u =>
        ((u.cad.hop[s.fget CAD_HOP_IDX.SEQ]?).getD [])[s.fget CAD_HOP_IDX.POS]? = some (v.toNat % 256)
        ∧ u.fget CAD_HOP_IDX.POS = (s.fget CAD_HOP_IDX.POS + 1) % 128 ∧ u.mem = s.mem)
    ∧ (∀ (s : State) (a : Acc) (v : Word), Accepted s a CAD_APPHB.addr → a.view = .base →
      Does (.cadApphb a v) s fun u => u.fget CAD_APPCFG.SILENT = 0 ∧ u.cad = { s.cad with beat := true } ∧ u.hdr = s.hdr ∧ u.mem = s.mem)
    ∧ (∀ (s : State) (a : Acc) (v : Word), Accepted s a CAD_LS_INJ.addr → (a.view = .base ∨ a.view = .set) → fieldGet v.toNat CAD_LS_INJ.GO = 1 →
      (s.sys.st = .test → Does (.cadLsInj a v) s fun u => u.hdr = s.hdr ∧ u.cad = { s.cad with
        inject := some (fieldGet (writtenTo s a CAD_LS_INJ.addr v) CAD_LS_INJ.GROUP, fieldGet (writtenTo s a CAD_LS_INJ.addr v) CAD_LS_INJ.COPY) })
      ∧ (s.sys.st ≠ .test → Does (.cadLsInj a v) s fun u => u.fbit CAD_STAT.INJ_REFUSED = true ∧ u.cad = s.cad ∧ u.hdr = s.hdr)))

/-- R187, R188: the ACK window. Where the manual leaves a choice it follows the model's, log entry 44.
States that these commands complete (`exec` answers a next state), each under conditions on the state and its operands alone: ackWindowOpen,
ackWindowClose, ackReceived. -/
def Obligations.AckWindow : Prop :=
  (∀ (s : State) (t : Frc) (a : AckWait) (sl : Slot), s.cad.ack = some a → s.slot = some sl → sl.kind = .tx → a.isOpen = false →
    a.shut = false → a.opens ≤ (s.advance t).frcN → s.fbit (LANE_CTRL.EN 0) = true → s.fbit RFE_CTRL.EN = true →
    Does (.ackWindowOpen t) s fun u => u.cad.ack = some { a with isOpen := true } ∧ u.laneSt 0 = 1 ∧ u.rfe.window = true ∧ u.hdr = s.hdr
      ∧ u.mem = s.mem)
  ∧ (∀ (s : State) (t : Frc) (a : AckWait), s.cad.ack = some a → a.isOpen = true → a.shut = false → a.closes ≤ (s.advance t).frcN →
    s.laneSt 0 < 3 →
    Does (.ackWindowClose t) s fun u => u.cad.ack = some { a with shut := true } ∧ u.laneSt 0 = 0 ∧ u.rfe.window = false ∧ u.hdr = s.hdr
      ∧ u.mem = s.mem)
  ∧ (∀ (s : State) (t : Frc) (f : RxFrame) (a : AckWait) (sl : Slot), s.cad.ack = some a → s.slot = some sl → a.isOpen = true →
    a.shut = false → s.laneSt 0 = 4 → (s.lane 0).frame = some f → (s.advance t).frcN < a.closes → parseMhr f.octets f.fcs none = none →
    Does (.ackReceived t 0) s fun u => u.cad = s.cad ∧ u.laneSt 0 = 1 ∧ u.hdr = s.hdr ∧ u.slot = s.slot ∧ u.mem = s.mem)
  ∧ (∀ (s : State) (t : Frc) (n : Fin 16), n ≠ 0 → Does (.ackReceived t n) s fun u => u = s.advance t)
  ∧ (∀ (s : State) (t : Frc) (f : RxFrame) (a : AckWait) (sl : Slot) (e : Nat) (k : Ticket) (i : MacInfo), s.cad.ack = some a →
    s.slot = some sl → a.isOpen = true → a.shut = false → s.laneSt 0 = 4 → (s.lane 0).frame = some f →
    s.ticketAt sl.asn = some (e, k) → parseMhr f.octets f.fcs none = some i → k.st = 4 → (s.advance t).ackValid sl.asn k i f = true →
    Does (.ackReceived t 0) s fun u => u.cad.ack = some { a with shut := true } ∧ u.laneSt 0 = 0
      ∧ u.ticket e = some { k with acked := some (match i.timeCorr with | some x => decide (2 ^ 15 ≤ x) | none => false) } ∧ u.slot = s.slot)

/-- R208 to R221: the life of a ticket. R208, R227: the HDR page. Where the manual leaves a choice it follows the model's, log entry 60.
States that these commands complete (`exec` answers a next state), each under conditions on the state and its operands alone:
preparationStart, preparationDone, ticketLock, squashDone, hdrCtrlWrite, hdrCfgWrite, hdrTktIdxWrite. -/
def Obligations.HeadraceRunsAhead : Prop :=
  (
  (∀ (s : State) (t : Frc) (e asn : Nat) (cand : Cand) (x : Chosen) (s₁ s₂ : State) (p : Pick) (demos : List Demotion),
      let s₀ := (s.advance t).consider
      let jit := s₀.justInTime || s₀.cad.stopping
      s₀.prepFree = true → s₀.freeEntry = some e → s₀.hdr.plans = [] → (jit = true ∨ s₀.hdrDepth < s₀.runAhead ∧ s₀.fbit HDR_CTRL.EXP_EN = true) →
      firstOffer (if jit then (if s₀.beforeLock then 1 else 0) else s₀.horizon + s₀.slotAsn + 1 - (if s₀.beforeLock then s₀.slotAsn else s₀.slotAsn + 1))
        (if s₀.beforeLock then s₀.slotAsn else s₀.slotAsn + 1) s₀ = (some (asn, cand, x), s₁) → s₁.slot.isSome = true →
      prepChoose 4096 s₁ cand asn none [] [] = (some p, demos, s₂) → prepCounts (s₂.fLen p.c) ≤ s₁.toNextTick → s₂.hdr.entries.length = 4 →
      Does (.preparationStart t) s fun u =>
        ∃ k, u.ticket e = some k ∧ k.st = 1 ∧ k.asn = asn ∧ k.cand = cand ∧ k.queue = p.q ∧ k.frame = p.c ∧ k.exp = false
          ∧ k.shape = s₂.shapeOf k.mode)
    ∧ (∀ (s : State) (t : Frc) (e : Nat) (k : Ticket), s.dom .rad = .on →
      s.tickets.find? (fun p => p.2.st == 1 && !s.hdr.undoing.contains p.1) = some (e, k) →
      Does (.preparationDone t) s fun u => u.ticket e = some { k with st := 2 }
        ∧ u.fget HDR_CNT.PREP = min (2 ^ HDR_CNT.PREP.width - 1) (s.fget HDR_CNT.PREP + 1)
        ∧ (∀ e', e' ≠ e → u.ticket e' = s.ticket e') ∧ u.mem = s.mem ∧ u.trf = s.trf ∧ u.keys = s.keys)
    ∧ (∀ (s : State) (t : Frc) (sl : Slot) (e : Nat) (k : Ticket), s.slot = some sl → s.dom .rad = .on →
      sl.tickNt + us (s.tmpl.txOffset - 100) ≤ (s.advance t).nt → s.ticketAt sl.asn = some (e, k) →
      (k.st = 2 → Does (.ticketLock t) s fun u => u.ticket e = some { k with st := 3 } ∧ u.hdr.undoing = s.hdr.undoing ∧ u.mem = s.mem
        ∧ u.regs = s.regs)
      ∧ (k.st = 1 → Does (.ticketLock t) s fun u => e ∈ u.hdr.undoing ∧ u.fbit HDR_STAT.LATE = true ∧ u.ticket e = some k ∧ u.mem = s.mem
        ∧ u.slot = some { sl with kind := .idle, cand := none, cands := [] }))
    ∧ (∀ (s : State) (t : Frc), s.hdr.undoing ≠ [] →
      Does (.squashDone t) s fun u => u.hdr.undoing = [] ∧ (∀ e ∈ s.hdr.undoing, u.ticket e = none)
        ∧ u.fget HDR_SQ_LAST.COUNT = s.hdr.undoing.length % 2 ^ HDR_SQ_LAST.COUNT.width ∧ u.fget (INT_RAW.bit Pg.HDR 0) = 1
        ∧ u.slot = s.slot ∧ u.keys = s.keys))
  ∧ (
  (∀ (s : State) (a : Acc) (v : Word), Accepted s a HDR_CTRL.addr → bitOf v.toNat 1 = false →
      (s.fbit HDR_CTRL.EN = true → fieldGet (writtenTo s a HDR_CTRL.addr v) HDR_CTRL.EN = 0 →
        Does (.hdrCtrlWrite a v) s fun u => u.fbit HDR_CTRL.EN = false ∧ u.hdr.plans = []
          ∧ (∀ e k, e < 4 → s.ticket e = some k → k.st ≤ 3 → e ∈ u.hdr.undoing) ∧ u.slot = s.slot ∧ u.mem = s.mem)
      ∧ (s.fbit HDR_CTRL.EN = false → fieldGet (writtenTo s a HDR_CTRL.addr v) HDR_CTRL.EN = 1 →
        Does (.hdrCtrlWrite a v) s fun u => u.fbit HDR_CTRL.EN = true ∧ u.hdr = { s.hdr with waitVerdict := true } ∧ u.slot = s.slot
          ∧ u.mem = s.mem))
    ∧ (∀ (s : State) (a : Acc) (v : Word), Accepted s a HDR_CFG.addr →
      min 4 (s.fget HDR_CFG.RUN_AHEAD) ≤ min 4 (fieldGet (writtenTo s a HDR_CFG.addr v) HDR_CFG.RUN_AHEAD) →
      clampN 1 1024 (s.fget HDR_CFG.HORIZON) ≤ clampN 1 1024 (fieldGet (writtenTo s a HDR_CFG.addr v) HDR_CFG.HORIZON) →
      Does (.hdrCfgWrite a v) s fun u => u.raw HDR_CFG.addr = writtenTo s a HDR_CFG.addr v ∧ u.hdr = s.hdr ∧ u.slot = s.slot ∧ u.mem = s.mem)
    ∧ (∀ (s : State) (a : Acc) (v : Word) (k : Ticket), Accepted s a HDR_TKT_IDX.addr →
      s.ticket (fieldGet (writtenTo s a HDR_TKT_IDX.addr v) HDR_TKT_IDX.IDX) = some k → k.st < 8 →
      Does (.hdrTktIdxWrite a v) s fun u => u.fget HDR_TKT_W0.STATE = k.st ∧ u.fget HDR_TKT_W1.ASN = k.asn % 2 ^ 24
        ∧ u.raw HDR_TKT_W2.addr = k.fc.getD 0 % 2 ^ 32 ∧ u.hdr = s.hdr ∧ u.mem = s.mem))

/-- R234, R236: the cells of the frame pool. R246, R248, R253: the Sluice page and the duty-cycle accountant.
Where the manual leaves a choice it follows the model's, log entries 7, 62, 63.
States that these commands complete (`exec` answers a next state), each under conditions on the state and its operands alone: trfAlloc,
trfFree, trfDonePop, trfRxqPop, sluiceConfigWrite, subWindowAdvance, dcaEnable. -/
def Obligations.PoolSluicesAndDuty : Prop :=
  (
  (∀ (s : State) (m : Master) (c : Nat) (l : List Nat) (s' : State), MayRead s m TRF_ALLOC.addr →
      s.fget TRF_POOL.RX_RSV < s.freeCount → s.takeCells 1 = some (c :: l, s') →
      Does (.trfAlloc m) s fun u => u.bus.data = BitVec.ofNat 32 (c + 2 ^ 31) ∧ u.bus.err = false ∧ u.cellState c = some .firmware
        ∧ (∀ d, d ≠ c → d ∉ l → u.cellState d = s.cellState d) ∧ u.mem = s.mem ∧ u.trf.queues = s.trf.queues)
    ∧ (∀ (s : State) (a : Acc) (v : Word), Accepted s a TRF_FREE.addr → a.view = .base →
      let c := fieldGet v.toNat TRF_FREE.CELL
      ((∀ x ∈ s.walk 17 c, s.cellState x = some .firmware) → (s.chain c).isSome = true → (s.trf.cells.map (·.1)).Nodup →
        Does (.trfFree a v) s fun u => (∀ x ∈ s.walk 17 c, u.cellState x = none) ∧ u.mem = s.mem ∧ u.trf.queues = s.trf.queues)
      ∧ ((∃ x ∈ s.walk 17 c, s.cellState x ≠ some .firmware) →
        Does (.trfFree a v) s fun u => u.fbit TRF_STAT.FREE_ERR = true ∧ u.trf = s.trf ∧ u.mem = s.mem))
    ∧ (∀ (s : State) (m : Master) (c : Nat) (l ch : List Nat), s.chain c = some ch →
      (MayRead s m TRF_DONE.addr → s.trf.done = c :: l →
        Does (.trfDonePop m) s fun u => u.bus.data = BitVec.ofNat 32 (c + 2 ^ 31) ∧ u.trf.done = l ∧ u.trf.rxq = s.trf.rxq
          ∧ (∀ x ∈ ch, u.cellState x = some .firmware) ∧ u.mem = s.mem)
      ∧ (MayRead s m TRF_RXQ.addr → s.trf.rxq = c :: l →
        Does (.trfRxqPop m) s fun u => u.bus.data = BitVec.ofNat 32 (c + 2 ^ 31) ∧ u.trf.rxq = l ∧ u.trf.done = s.trf.done
          ∧ (∀ x ∈ ch, u.cellState x = some .firmware) ∧ u.mem = s.mem)))
  ∧ (
  (∀ (s : State) (a : Acc) (off : BitVec 10) (v : Word), Accepted s a (pageAddr Pg.SLU off.toNat) → (off.toNat = 0x048 ∨ off.toNat = 0x04C ∨ 0x080 ≤ off.toNat) →
      off.toNat % 4 = 0 → (descOf (pageAddr Pg.SLU off.toNat)).isSome = true →
      Does (.sluiceConfigWrite a off v) s fun u =>
        u.raw (pageAddr Pg.SLU off.toNat) = writtenTo s a (pageAddr Pg.SLU off.toNat) v
        ∧ (∀ e k, e < 4 → s.ticket e = some k → k.st ≤ 2 → k.cls ≠ 0 → e ∈ u.hdr.undoing) ∧ u.slot = s.slot ∧ u.mem = s.mem)
    ∧ (∀ (s : State) (b : Fin 8), s.fbit DCA_CTRL.EN = true → s.trf.subs.length = 8 →
      Does (.subWindowAdvance b false) s fun u => u.sbUsed b.val ≤ s.sbUsed b.val ∧ (∀ n, n ≠ b.val → u.sbUsed n = s.sbUsed n)
        ∧ u.trf = { s.trf with subs := u.trf.subs } ∧ u.mem = s.mem ∧ u.hdr = s.hdr)
    ∧ (∀ (s : State) (b : Fin 8), s.fbit DCA_CTRL.EN = true →
      Does (.subWindowAdvance b true) s fun u => (∀ f, u.dwellUsed f ≤ s.dwellUsed f) ∧ u.trf = { s.trf with dwell := u.trf.dwell }
        ∧ u.mem = s.mem ∧ u.hdr = s.hdr)
    ∧ (∀ (s : State) (a : Acc) (v : Word), Accepted s a DCA_CTRL.addr → bitOf v.toNat 1 = false →
      fieldGet (writtenTo s a DCA_CTRL.addr v) DCA_CTRL.EN = 1 → s.trf.dcaLost = true →
      Does (.dcaEnable a v) s fun u => u.fbit DCA_CTRL.EN = true ∧ u.trf.dcaLost = false ∧ u.trf.dwell = []
        ∧ (∀ n, n < 8 → u.sbUsed n = (if fieldGet (writtenTo s a DCA_CTRL.addr v) DCA_CTRL.COLD_FULL = 1 then s.sbBudget n else 0))
        ∧ u.mem = s.mem ∧ u.hdr = s.hdr))

/-- R235 to R237: the transmit queues.
States that these commands complete (`exec` answers a next state), each under conditions on the state and its operands alone: trfEnq,
removeHead, flush, trfHistIdxWrite. -/
def Obligations.TrafficQueues : Prop :=
  (∀ (s : State) (a : Acc) (v : Word) (ch : List Nat), Accepted s a TRF_ENQ.addr → a.view = .base →
    let c := fieldGet v.toNat TRF_ENQ.CELL
    let q := fieldGet v.toNat TRF_ENQ.QUEUE
    s.chain c = some ch → (∀ x ∈ s.walk 17 c, s.cellState x = some .firmware) → s.trf.queues.length = 64 →
    (s.fLen c ≠ 0 → s.fLen c ≤ capacity (s.walk 17 c).length → s.qEn q = true →
      Does (.trfEnq a v) s fun u => u.queue q = s.queue q ++ [c] ∧ (∀ x ∈ s.walk 17 c, u.cellState x = some .queued) ∧ u.slot = s.slot)
    ∧ (s.fLen c = 0 ∨ capacity (s.walk 17 c).length < s.fLen c →
      Does (.trfEnq a v) s fun u => u.fbit TRF_STAT.ENQ_ERR = true ∧ u.trf = s.trf ∧ u.mem = s.mem))
  ∧ (∀ (s : State) (m : Master) (q : BitVec 6) (c : Nat) (l : List Nat), Accepted s ⟨m, .base⟩ TRF_CMD.addr → s.queue q.toNat = c :: l →
    (s.pinned c = false → Does (.removeHead m q) s fun u => c ∉ u.queue q.toNat ∧ u.trf.done = s.trf.done ++ [c]
      ∧ u.fget TRF_DROP.REMOVED = min (2 ^ TRF_DROP.REMOVED.width - 1) (s.fget TRF_DROP.REMOVED + 1) ∧ u.slot = s.slot)
    ∧ (s.pinned c = true → Does (.removeHead m q) s fun u => u.fbit TRF_STAT.CMD_REFUSED = true ∧ u.trf = s.trf ∧ u.mem = s.mem))
  ∧ (∀ (s : State) (m : Master) (q : BitVec 6), Accepted s ⟨m, .base⟩ TRF_CMD.addr → (∀ c ∈ s.queue q.toNat, s.pinned c = false) →
    Does (.flush m q) s fun u => u.queue q.toNat = [] ∧ (∀ c ∈ s.queue q.toNat, c ∈ u.trf.done) ∧ u.slot = s.slot)
  ∧ (∀ (s : State) (a : Acc) (v : Word) (x : Nat × Word × Word), Accepted s a TRF_HIST_IDX.addr →
    s.trf.hist.find? (fun e => e.1 == fieldGet (writtenTo s a TRF_HIST_IDX.addr v) TRF_HIST_IDX.IDX) = some x →
    Does (.trfHistIdxWrite a v) s fun u => u.rget TRF_HIST_W0.addr = x.2.1 ∧ u.rget TRF_HIST_W1.addr = x.2.2 ∧ u.trf = s.trf ∧ u.mem = s.mem)

/-- R256, R257, R262, R263, R266, R267: what moves network time and what does not.
Where the manual leaves a choice it follows the model's, log entries 70, 72.
States that these commands complete (`exec` answers a next state), each under conditions on the state and its operands alone: reAnchor,
ntuRateWrite, ntuStep, ntuCancel, wakeHandoff, lfcalWindow, frcVote. -/
def Obligations.NetworkTimeContinuity : Prop :=
  (∀ (s : State) (t : Frc), Does (.reAnchor t) s fun u => u.nt = (s.advance t).nt ∧ u.ntu.anchor = (s.advance t).ntu.frc
    ∧ s.frcN ≤ u.frcN ∧ u = { s.advance t with ntu := u.ntu })
  ∧ (∀ (s : State) (a : Acc) (v : Word), Accepted s a NTU_RATE.addr → s.txBusy = false →
    Does (.ntuRateWrite a v) s fun u => u.nt = s.nt
      ∧ signed 32 (u.raw NTU_RATE.addr) = clampI (-rateLimit) rateLimit (signed 32 (writtenTo s a NTU_RATE.addr v))
      ∧ u.ntu.frc = s.ntu.frc ∧ u.mem = s.mem ∧ u.slot = s.slot)
  ∧ (∀ (s : State) (m : Master), Accepted s ⟨m, .base⟩ NTU_CMD.addr →
    let d := signed 64 (s.raw NTU_STEP_LO.addr + s.raw NTU_STEP_HI.addr * 2 ^ 32)
    (s.cadRuns = false → s.txBusy = false → Does (.ntuStep m) s fun u => u.nt = toField 64 ((s.nt : Int) + d) ∧ u.ntu.pend = 0
      ∧ u.ntu.step = none ∧ u.fget NTU_CNT.STEPS = min (2 ^ NTU_CNT.STEPS.width - 1) (s.fget NTU_CNT.STEPS + 1) ∧ u.mem = s.mem)
    ∧ (s.cadRuns = true → Does (.ntuStep m) s fun u => u.nt = s.nt ∧ u.ntu.step = some (d, false) ∧ u.mem = s.mem ∧ u.hdr = s.hdr)
    ∧ Does (.ntuCancel m) s fun u => u.nt = s.nt ∧ u.ntu = { s.ntu with step := none, stepDue := false } ∧ u.mem = s.mem ∧ u.hdr = s.hdr)
  ∧ (∀ (s : State) (ticks : Word) (f : Nat) (comp : Bool), s.ntu.entry = some (f, comp) → s.sys.hfxoStable = true → s.pwr.leaving = none →
    let adv := if comp then (roundDiv (ticks.toNat * s.fget NTU_LFCAL.COUNT : Nat) 8192).toNat
      else (roundDiv (ticks.toNat * 15625 : Nat) 16).toNat
    s.frcN ≤ f + adv → f + adv < 2 ^ 64 →
    Does (.wakeHandoff ticks) s fun u => u.frcN = f + adv ∧ u.ntu.entry = none ∧ u.ntu.handoff = false
      ∧ u.rget NTU_SLP_TICKS.addr = ticks ∧ u.mem = s.mem ∧ u.slot = s.slot)
  ∧ (∀ (s : State) (t : Frc) (n : BitVec 27), s.sleepStart = none → s.ntu.handoff = false → s.sys.hfxoStable = true →
    s.fbit SYS_STAT.LFXO_FAIL = false →
    Does (.lfcalWindow t n) s fun u => u.fget NTU_LFCAL.COUNT = n.toNat % 2 ^ NTU_LFCAL.COUNT.width ∧ u.fbit NTU_LFCAL.VALID = true
      ∧ PagesOnly [Pg.NTU] (s.advance t) u)
  ∧ (∀ s : State, Does .frcVote s fun u =>
    u.fget NTU_STAT.FRC_VOTE = (s.fget NTU_STAT.FRC_VOTE + 1) % 2 ^ NTU_STAT.FRC_VOTE.width ∧ PagesOnly [Pg.NTU] s u)

/-- R259 to R261, R264, R268: synchronisation. R269: the pulse outputs.
Where the manual leaves a choice it follows the model's, log entries 70, 71.
States that these commands complete (`exec` answers a next state), each under conditions on the state and its operands alone: syncClr,
syncSet, ntuFwcorr, externalCapture, holdover, syncLost, ntuEpochWrite, pulseStart, pulseEnd, ntuPulWrite. -/
def Obligations.SyncAndPulses : Prop :=
  (
  (∀ (s : State) (m : Master), Accepted s ⟨m, .base⟩ NTU_CMD.addr →
      (Does (.syncClr m) s fun u => u.fbit NTU_STAT.SYNC = false ∧ u.fbit NTU_STAT.HOLDOVER = false ∧ u.ntu = s.ntu ∧ u.mem = s.mem)
      ∧ Does (.syncSet m) s fun u => u.fbit NTU_STAT.SYNC = true ∧ u.fbit NTU_STAT.HOLDOVER = false
          ∧ u.ntu = { s.ntu with holdFrom := s.frcN } ∧ u.mem = s.mem)
    ∧ (∀ (s : State) (a : Acc) (v : Word), Accepted s a NTU_FWCORR.addr → a.view = .base → s.considered ⟨v.toInt, 1, 0, false⟩ = true →
      (s.fbit NTU_STAT.SYNC = false ∨ s.fget NTU_CFG.REJ_THR = 0 ∨ v.toInt.natAbs ≤ 32 * s.fget NTU_CFG.REJ_THR) →
      Does (.ntuFwcorr a v) s fun u => u.raw NTU_SAMPLE.addr = v.toNat ∧ u.fbit NTU_STAT.HOLDOVER = false
        ∧ u.fget NTU_CNT.ACCEPTED = min (2 ^ NTU_CNT.ACCEPTED.width - 1) (s.fget NTU_CNT.ACCEPTED + 1) ∧ u.mem = s.mem)
    ∧ (∀ (s : State) (t : Frc),
      let s₀ := s.advance t
      let per := 32000 * max 1 (s.fget NTU_EXT.PERIOD)
      let m := ((s₀.nt : Int) - s.epoch) % per
      let d : Int := if 2 * m ≤ per then -m else per - m
      2 * (d.natAbs : Int) < per → s₀.considered ⟨d, 2, 0, false⟩ = true →
      (s.fbit NTU_STAT.SYNC = false ∨ s.fget NTU_CFG.REJ_THR = 0 ∨ d.natAbs ≤ 32 * s.fget NTU_CFG.REJ_THR) →
      Does (.externalCapture t) s fun u => u.raw NTU_SAMPLE.addr = toField 32 d ∧ u.fbit NTU_STAT.HOLDOVER = false
        ∧ u.fget NTU_CNT.ACCEPTED = min (2 ^ NTU_CNT.ACCEPTED.width - 1) (s.fget NTU_CNT.ACCEPTED + 1) ∧ u.mem = s.mem)
    ∧ (∀ (s : State) (t : Frc), s.fbit NTU_STAT.SYNC = true → s.fbit NTU_STAT.HOLDOVER = false → s.fget NTU_SRC.SEL ≠ 3 →
      32000000 * max 1 (s.fget NTU_HOLD.ENTER) ≤ (s.advance t).frcN - s.ntu.holdFrom →
      Does (.holdover t) s fun u => u.fbit NTU_STAT.HOLDOVER = true ∧ u.fbit NTU_STAT.SYNC = true ∧ u.fget (INT_RAW.bit Pg.NTU 2) = 1
        ∧ u.ntu.holdEnter = u.frcN ∧ u.mem = s.mem ∧ u.slot = s.slot)
    ∧ (∀ (s : State) (t : Frc), s.fbit NTU_STAT.SYNC = true → s.fbit NTU_STAT.HOLDOVER = true → s.fget NTU_SRC.SEL ≠ 3 →
      32000000 * max 1 (s.fget NTU_HOLD.MAX) ≤ (s.advance t).frcN - s.ntu.holdEnter →
      Does (.syncLost t) s fun u => u.fbit NTU_STAT.HOLDOVER = false ∧ u.fbit NTU_STAT.SYNC = false
        ∧ ∃ m, m = { s.advance t with regs := m.regs } ∧ AfterEvents [Pg.NTU] s m u)
    ∧ (∀ (s : State) (a : Acc) (v : Word), Accepted s a NTU_EPOCH_HI.addr →
      (s.fbit CAD_CTRL.EN = false → Does (.ntuEpochWrite a true v) s fun u => u.raw NTU_EPOCH_HI.addr = writtenTo s a NTU_EPOCH_HI.addr v
        ∧ (∀ x, s.bus.held.find? (fun h => h.1 == masterCode a.m && h.2.1 == NTU_EPOCH_LO.addr) = some x → u.rget NTU_EPOCH_LO.addr = x.2.2)
        ∧ u.mem = s.mem)
      ∧ (s.fbit CAD_CTRL.EN = true → Does (.ntuEpochWrite a true v) s fun u => u.epoch = s.epoch ∧ u.fbit NTU_STAT.EPOCH_REFUSED = true
        ∧ u.mem = s.mem))
    ∧ (∀ (s : State) (a : Acc) (v : Word), Accepted s a NTU_EPOCH_LO.addr →
      Does (.ntuEpochWrite a false v) s fun u => u.epoch = s.epoch
        ∧ u.bus.held.find? (fun h => h.1 == masterCode a.m && h.2.1 == NTU_EPOCH_LO.addr)
          = some (masterCode a.m, NTU_EPOCH_LO.addr, BitVec.ofNat 32 (writtenTo s a NTU_EPOCH_LO.addr v)) ∧ u.mem = s.mem))
  ∧ (
  (∀ (s : State) (t : Frc) (c : Fin 4), s.ntu.armed.contains c.val = true → s.pulT c.val ≤ (s.advance t).nt →
      Does (.pulseStart t c) s fun u => (c.val, (s.advance t).frcN) ∈ u.ntu.pulseOn
        ∧ (s.fget (NTU_PUL_CFG.MODE c) = 2 → u.pulT c.val = (s.pulT c.val + max 1 (s.raw (NTU_PUL_PER.addr c))) % 2 ^ 64
            ∧ c.val ∈ u.ntu.armed)
        ∧ (s.fget (NTU_PUL_CFG.MODE c) ≠ 2 → u.pulT c.val = s.pulT c.val ∧ c.val ∉ u.ntu.armed) ∧ u.mem = s.mem ∧ u.hdr = s.hdr)
    ∧ (∀ (s : State) (t : Frc) (c : Fin 4) (a : Nat), s.ntu.pulseOn.find? (fun p => p.1 == c.val) = some (c.val, a) →
      a + 32 * max 1 (s.fget (NTU_PUL_CFG.WIDTH c)) ≤ (s.advance t).frcN →
      Does (.pulseEnd t c) s fun u => (∀ p ∈ u.ntu.pulseOn, p.1 ≠ c.val) ∧ u.ntu.armed = s.ntu.armed ∧ u.mem = s.mem ∧ u.hdr = s.hdr)
    ∧ (∀ (s : State) (a : Acc) (c : Fin 4) (v : Word), Accepted s a (NTU_PUL_CFG.addr c) →
      Does (.ntuPulWrite a c 0 v) s fun u => u.raw (NTU_PUL_CFG.addr c) = writtenTo s a (NTU_PUL_CFG.addr c) v
        ∧ (c.val ∈ u.ntu.armed ↔ u.fget (NTU_PUL_CFG.MODE c) = 1 ∨ u.fget (NTU_PUL_CFG.MODE c) = 2)
        ∧ (¬ c.val ∈ u.ntu.armed → ∀ p ∈ u.ntu.pulseOn, p.1 ≠ c.val) ∧ u.mem = s.mem)
    ∧ (∀ (s : State) (a : Acc) (c : Fin 4) (v : Word), Accepted s a (NTU_PUL_T_HI.addr c) →
      Does (.ntuPulWrite a c 2 v) s fun u => u.raw (NTU_PUL_T_HI.addr c) = writtenTo s a (NTU_PUL_T_HI.addr c) v
        ∧ (c.val ∈ u.ntu.armed ↔ s.fget (NTU_PUL_CFG.MODE c) = 1 ∨ s.fget (NTU_PUL_CFG.MODE c) = 2) ∧ u.mem = s.mem))

/-- R381 to R390 in system state RUN, where CHAIN is inert (R386). Where the manual leaves a choice it follows the model's, log entry 120.
States that these commands complete (`exec` answers a next state), each under conditions on the state and its operands alone: tmrTick,
compareFiring, tmrCapture. -/
def Obligations.TimerCounting : Prop :=
  (∀ (s : State) (n : Fin 8), s.fbit (TMR_CTRL.EN n) = true → s.tmrCounts n = true →
    (s.tCount n < s.tReload n → Does (.tmrTick n) s fun u => u.tCount n = s.tCount n + 1 ∧ u = { s with regs := u.regs }
      ∧ RegsOff (· == TMR_COUNT.addr n) s u)
    ∧ (s.tReload n ≤ s.tCount n → s.sys.st = .run → s.fbit (EVT_EN.bit (Pg.TMR n) 0) = false →
      Does (.tmrTick n) s fun u => u.tCount n = 0 ∧ u.fget (INT_RAW.bit (Pg.TMR n) 0) = 1
        ∧ (∀ k, k < 4 → s.isCompare n k = true → u.tmrArmed n k = true) ∧ PagesOnly [Pg.TMR n] s u))
  ∧ (∀ (s : State) (n : Fin 8), (s.fbit (TMR_CTRL.EN n) && s.tmrCounts n) = false → Does (.tmrTick n) s fun u => u = s)
  ∧ (∀ (s : State) (n : Fin 8) (k : Fin 4), s.compareDue n k = true → s.sys.st = .run →
    s.fbit (EVT_EN.bit (Pg.TMR n) (1 + k)) = false → n.val < s.tmr.length →
    (s.fget (TMR_CH_CFG.OACT n k) = 0 → Does (.compareFiring n k) s fun u => u.tmrArmed n k = false
      ∧ u.fget (INT_RAW.bit (Pg.TMR n) (1 + k)) = 1 ∧ u.tCount n = s.tCount n ∧ PagesOnly [Pg.TMR n] s u)
    ∧ Does (.compareFiring n k) s fun u =>
        bitOf (u.tmrGet n).out k = (match s.fget (TMR_CH_CFG.OACT n k) with
          | 1 => true | 2 => false | 3 => !bitOf (s.tmrGet n).out k | _ => bitOf (s.tmrGet n).out k)
        ∧ u.mem = s.mem ∧ u.ntu = s.ntu)
  ∧ (∀ (s : State) (n : Fin 8) (k : Fin 4) (rising : Bool), s.fbit (TMR_CTRL.EN n) = true → s.tmrClocked n = true → s.isCapture n k = true →
    s.fbit (TMR_CH_CFG.METER n k) = false → s.fbit (TMR_CH_CFG.SRC n k) = false → s.fget (TMR_CH_CFG.EDGE n k) = (if rising then 0 else 1) →
    s.sys.st = .run → s.fbit (EVT_EN.bit (Pg.TMR n) (1 + k)) = false →
    Does (.tmrCapture n k rising false) s fun u => u.raw (TMR_CH_CAP.addr n k) = s.tCount n ∧ bitOf (u.fget (TMR_STAT.VALID n)) k = true
      ∧ u.fget (INT_RAW.bit (Pg.TMR n) (1 + k)) = 1
      ∧ (bitOf (s.fget (TMR_STAT.VALID n)) k = true → bitOf (u.fget (TMR_STAT.OVR n)) k = true ∧ u.fget (INT_RAW.bit (Pg.TMR n) (5 + k)) = 1)
      ∧ (bitOf (s.fget (TMR_STAT.VALID n)) k = false → u.fget (TMR_STAT.OVR n) = s.fget (TMR_STAT.OVR n))
      ∧ u.tCount n = s.tCount n ∧ PagesOnly [Pg.TMR n] s u)

/-- R381, R383, R387, R388, R390, R391. Where the manual leaves a choice it follows the model's, log entry 120.
States that these commands complete (`exec` answers a next state), each under conditions on the state and its operands alone: tmrCountWrite,
tmrReloadWrite, tmrCmpWrite, tmrEnable, tmrDisable, tmrStartEvent, tmrResetEvent, tmrCapRead. -/
def Obligations.TimerRegisters : Prop :=
  (∀ (s : State) (a : Acc) (n : Fin 8) (v : Word), Accepted s a (TMR_COUNT.addr n) →
    let x := writtenTo s a (TMR_COUNT.addr n) v
    (x ≤ s.tReload n → Does (.tmrCountWrite a n v) s fun u => u.tCount n = x ∧ u = { s with regs := u.regs, bus := u.bus, tmr := u.tmr }
      ∧ RegsOff (onPages [Pg.TMR n, Pg.OVL]) s u)
    ∧ (s.tReload n < x → Does (.tmrCountWrite a n v) s fun u => u.tCount n = 0 ∧ (∀ k, k < 4 → s.isCompare n k = true → u.tmrArmed n k = true)
      ∧ u.fget (INT_RAW.bit (Pg.TMR n) 0) = s.fget (INT_RAW.bit (Pg.TMR n) 0) ∧ u = { s with regs := u.regs, bus := u.bus, tmr := u.tmr }))
  ∧ (∀ (s : State) (a : Acc) (n : Fin 8) (v : Word), Accepted s a (TMR_RELOAD.addr n) →
    Does (.tmrReloadWrite a n v) s fun u => u.tReload n = writtenTo s a (TMR_RELOAD.addr n) v ∧ u.tCount n = s.tCount n
      ∧ u = { s with regs := u.regs, bus := u.bus } ∧ RegsOff (onPages [Pg.TMR n, Pg.OVL]) s u)
  ∧ (∀ (s : State) (a : Acc) (n : Fin 8) (k : Fin 4) (v : Word), Accepted s a (TMR_CH_CMP.addr n k) →
    Does (.tmrCmpWrite a n k v) s fun u => u.raw (TMR_CH_CMP.addr n k) = writtenTo s a (TMR_CH_CMP.addr n k) v
      ∧ u.tmrArmed n k = (s.isCompare n k || s.tmrArmed n k) ∧ u = { s with regs := u.regs, bus := u.bus })
  ∧ (∀ (s : State) (a : Acc) (n : Fin 8) (v : Word), Accepted s a (TMR_CTRL.addr n) → (a.view = .base ∨ a.view = .set) → v.toNat % 4 = 1 →
    Does (.tmrEnable a n v) s fun u => u.fbit (TMR_CTRL.EN n) = true ∧ u.tCount n = s.tCount n
      ∧ (s.fbit (TMR_CTRL.EN n) = false → ∀ k, k < 4 → s.isCompare n k = true → u.tmrArmed n k = true)
      ∧ u = { s with regs := u.regs, bus := u.bus })
  ∧ (∀ (s : State) (m : Master) (n : Fin 8) (v : Word), Accepted s ⟨m, .base⟩ (TMR_CTRL.addr n) → v.toNat % 4 = 0 →
    Does (.tmrDisable ⟨m, .base⟩ n v) s fun u => u.fbit (TMR_CTRL.EN n) = false ∧ u.tCount n = s.tCount n
      ∧ u.rget (INT_RAW.addr (Pg.TMR n)) = s.rget (INT_RAW.addr (Pg.TMR n)) ∧ u = { s with regs := u.regs, bus := u.bus })
  ∧ (∀ (s : State) (n : Fin 8), s.domUp .lp = true →
    (Does (.tmrStartEvent n) s fun u => u.fbit (TMR_CTRL.EN n) = true ∧ (∀ k, k < 4 → s.isCompare n k = true → u.tmrArmed n k = true)
      ∧ u.tCount n = s.tCount n ∧ PagesOnly [Pg.TMR n] s u)
    ∧ Does (.tmrResetEvent n) s fun u => u.tCount n = 0 ∧ (∀ k, k < 4 → s.isCompare n k = true → u.tmrArmed n k = true)
      ∧ u.fbit (TMR_CTRL.EN n) = s.fbit (TMR_CTRL.EN n) ∧ PagesOnly [Pg.TMR n] s u)
  ∧ (∀ (s : State) (m : Master) (n : Fin 8) (k : Fin 4), MayRead s m (TMR_CH_CAP.addr n k) →
    (Does (.tmrCapRead m n k false) s fun u => u.bus.data = s.rget (TMR_CH_CAP.addr n k) ∧ u.bus.err = false
      ∧ bitOf (u.fget (TMR_STAT.VALID n)) k = false ∧ u = { s with regs := u.regs, bus := u.bus } ∧ RegsOff (· == TMR_STAT.addr n) s u)
    ∧ (s.fbit (TMR_CTRL.EN n) = true → s.tmrClocked n = true → s.isCapture n k = true → s.sys.st = .run →
      s.fbit (EVT_EN.bit (Pg.TMR n) (1 + k)) = false →
      Does (.tmrCapRead m n k true) s fun u => u.bus.data = s.rget (TMR_CH_CAP.addr n k) ∧ u.raw (TMR_CH_CAP.addr n k) = s.tCount n
        ∧ bitOf (u.fget (TMR_STAT.VALID n)) k = true ∧ u.fget (TMR_STAT.OVR n) = s.fget (TMR_STAT.OVR n)))

/-- R392: day numbers and dates are the same thing. R392 to R395. Where the manual leaves a choice it follows the model's, log entry 121.
States that these commands complete (`exec` answers a next state), each under conditions on the state and its operands alone: rtcSecond,
rtcSet, rtcSetLoad, rtcCalCorrection, rtcShadowRead, shadowTimeout. -/
def Obligations.RtcCalendar : Prop :=
  (
  ∀ d, d < 36525 → let (y, m, k) := dateOf d
      y < 100 ∧ 1 ≤ m ∧ m ≤ 12 ∧ 1 ≤ k ∧ k ≤ ((monthDays y)[m - 1]?).getD 0 ∧ dayOf y m k = d)
  ∧ (
  (∀ s : State, s.fbit RTC_CTRL.EN = true → Does .rtcSecond s fun u => u.rtc.cal = (s.rtc.cal + 1) % calSpan ∧ u.rtc.sub = 0
        ∧ u.fget (INT_RAW.bit Pg.RTC 2) = 1 ∧ (u.rtc.cal = 0 → u.fbit RTC_STAT.YWRAP = true) ∧ u.rtc.shadows = s.rtc.shadows
        ∧ u.mem = s.mem ∧ u.ntu = s.ntu)
    ∧ (∀ s : State, s.fbit RTC_CTRL.EN = false → Does .rtcSecond s fun u => u = s)
    ∧ (∀ (s : State) (a : Acc) (v : Word), Accepted s a RTC_CMD.addr → (a.view = .base ∨ a.view = .set) → v.getLsbD 0 = true →
      (∀ c, s.setValue = some c → s.fbit RTC_STAT.BUSY = false → Does (.rtcSet a v) s fun u => u.rtc = { s.rtc with setTo := some c }
        ∧ u.fbit RTC_STAT.BUSY = true ∧ u = { s with regs := u.regs, bus := u.bus, rtc := u.rtc })
      ∧ ((s.setValue = none ∨ s.fbit RTC_STAT.BUSY = true) → Does (.rtcSet a v) s fun u => u.rtc = s.rtc ∧ u.fbit RTC_STAT.SET_REFUSED = true
        ∧ u = { s with regs := u.regs, bus := u.bus }))
    ∧ (∀ (s : State) (c : Nat), s.rtc.setTo = some c → Does .rtcSetLoad s fun u => u.rtc.cal = c ∧ u.rtc.setTo = none
        ∧ u.fbit RTC_STAT.BUSY = false ∧ u.fbit RTC_STAT.TIME_VALID = true ∧ u.mem = s.mem ∧ u.ntu = s.ntu)
    ∧ (∀ s : State, s.fbit RTC_CTRL.EN = true → Does .rtcCalCorrection s fun u =>
        (u.rtc.sub : Int) - u.rtc.skip = s.rtc.sub - s.rtc.skip + s.fgetI RTC_CAL.CAL ∧ u = { s with rtc := u.rtc } ∧ u.rtc.cal = s.rtc.cal)
    ∧ (∀ (s : State) (m : Master), s.rtc.shadows.find? (fun x => x.master == masterCode m) = none →
      (MayRead s m RTC_TIME.addr → Does (.rtcShadowRead m 0) s fun u => u.bus.data = BitVec.ofNat 32 (timeWord s.rtc.cal)
        ∧ (∃ x, u.rtc.shadows.find? (fun x => x.master == masterCode m) = some x ∧ x.cal = s.rtc.cal ∧ x.left = [1, 2])
        ∧ u.rtc.cal = s.rtc.cal ∧ u.regs = s.regs)
      ∧ (MayRead s m RTC_DATE.addr → Does (.rtcShadowRead m 1) s fun u => u.bus.data = BitVec.ofNat 32 (dateWord s.rtc.cal)))
    ∧ (∀ (s : State) (m m' : Master) (x : Shadow), s.rtc.shadows.find? (fun x => x.master == masterCode m) = some x →
      MayRead s m RTC_DATE.addr → m' ≠ m → Does (.rtcShadowRead m 1) s fun u => u.bus.data = BitVec.ofNat 32 (dateWord x.cal)
        ∧ u.rtc.shadows.find? (fun x => x.master == masterCode m') = s.rtc.shadows.find? (fun x => x.master == masterCode m')
        ∧ u = { s with bus := u.bus, rtc := u.rtc })
    ∧ (∀ (s : State) (m : Master), (∃ x ∈ s.rtc.shadows, x.master = masterCode m) → Does (.shadowTimeout m) s fun u =>
        (∀ x ∈ u.rtc.shadows, x.master ≠ masterCode m) ∧ u.fbit RTC_STAT.SH_TIMEOUT = true ∧ u.rtc.cal = s.rtc.cal
        ∧ u = { s with regs := u.regs, rtc := u.rtc }))

/-- R396 to R400. Where the manual leaves a choice it follows the model's, log entry 121.
States that these commands complete (`exec` answers a next state), each under conditions on the state and its operands alone: rtcSecond,
rtcAlarmWrite, rtcUnlock, rtcLockout, vddStable, backupSwitch, backupRetentionLoss. -/
def Obligations.RtcAlarmsAndSupply : Prop :=
  (∀ (s : State) (n : Nat), n < 2 → s.fbit RTC_CTRL.EN = true →
    let c := (s.rtc.cal + 1) % calSpan
    (s.almMatches n c = true → s.almReady n = true → s.almAfter n c = true → Does .rtcSecond s fun u =>
      u.fbit (RTC_ALM_CFG.FIRED n) = true ∧ u.fbit (RTC_ALM_CFG.ARMED n) = false ∧ u.fget (INT_RAW.bit Pg.RTC n) = 1)
    ∧ (s.almMatches n c = false → Does .rtcSecond s fun u =>
      u.fget (RTC_ALM_CFG.FIRED n) = s.fget (RTC_ALM_CFG.FIRED n) ∧ u.fbit (RTC_ALM_CFG.ARMED n) = true))
  ∧ (∀ (s : State) (a : Acc) (n : Fin 2) (r : Fin 3) (v : Word), Accepted s a (RTC_ALM_TIME.addr n + 4 * r) →
    Does (.rtcAlarmWrite a n r v) s fun u => u.fbit (RTC_ALM_CFG.ARMED n) = true
      ∧ (r.val < 2 → u.raw (RTC_ALM_TIME.addr n + 4 * r) = writtenTo s a (RTC_ALM_TIME.addr n + 4 * r) v)
      ∧ u.rtc.cal = s.rtc.cal ∧ u = { s with regs := u.regs, bus := u.bus, rtc := u.rtc })
  ∧ (∀ (s : State) (m : Master) (v : Word), Accepted s ⟨m, .base⟩ RTC_UNLOCK.addr →
    (v.toNat % 65536 = 0x1A7C → s.fbit RTC_STAT.VDD_STABLE = true → Does (.rtcUnlock ⟨m, .base⟩ v) s fun u =>
      u.fbit RTC_STAT.LOCKOUT = false ∧ u.rtc = s.rtc ∧ RegsOff (onPages [Pg.RTC, Pg.OVL]) s u)
    ∧ ((v.toNat % 65536 ≠ 0x1A7C ∨ s.fbit RTC_STAT.VDD_STABLE = false) → Does (.rtcUnlock ⟨m, .base⟩ v) s fun u =>
      u.fbit RTC_STAT.LOCKOUT = s.fbit RTC_STAT.LOCKOUT ∧ u.rtc = s.rtc))
  ∧ (∀ s : State, Does .rtcLockout s fun u => u.fbit RTC_STAT.LOCKOUT = true ∧ u.fbit RTC_STAT.VDD_STABLE = false ∧ u.rtc = s.rtc
      ∧ PagesOnly [Pg.RTC] s u)
  ∧ (∀ s : State, s.pwr.st ≠ .backup → Does .vddStable s fun u => u.fbit RTC_STAT.VDD_STABLE = true ∧ PagesOnly [Pg.RTC] s u)
  ∧ (∀ (s : State) (vdd vb : Nat), Does (.backupSwitch vdd vb) s fun u =>
      (vb + 100 < vdd → u.rtc.onVdd = true) ∧ (1400 ≤ vb → vdd < vb → u.rtc.onVdd = false)
      ∧ (vdd < 1800 → u.fbit RTC_STAT.LOCKOUT = true) ∧ (1800 ≤ vdd → u.regs = s.regs) ∧ u.rtc.cal = s.rtc.cal ∧ u.mem = s.mem)
  ∧ (∀ s : State, Does .backupRetentionLoss s fun u => u.rtc.cal = 0 ∧ u.rtc.setTo = none ∧ u.fbit RTC_STAT.BK_LOST = true
      ∧ u.fbit RTC_STAT.TIME_VALID = false ∧ u.fget (INT_RAW.bit Pg.RTC 3) = 1 ∧ (∀ n, n < 8 → u.rget (RTC_BKP.addr n) = 0#32)
      ∧ u.mem = s.mem ∧ RegsOff (onPages [Pg.RTC, Pg.CLK]) s u)

/-- R419 to R427. R426 to R429. Where the manual leaves a choice it follows the model's, log entry 125.
States that these commands complete (`exec` answers a next state), each under conditions on the state and its operands alone: producerEvent,
culSwtrig, culChenWrite, routingFault, culExit. -/
def Obligations.CulvertRoutesEvents : Prop :=
  (
  (∀ (s : State) (p : Fin 96), p.val ∉ s.cul.inMatrix → Does (.producerEvent p) s fun u => EventsOnly s u ∧ u.mem = s.mem)
    ∧ (∀ (s : State) (p : Fin 96) (c k : Nat), p.val ∉ s.cul.inMatrix → s.domUp (producerDomain p) = true → s.culRoutes = true →
      s.chansOf p = [c] → s.consOf c = [k] → k < 32 →
      (s.domUp .app = true → Does (.producerEvent p) s fun u => bitOf u.coreA.edge k = true ∧ u = { s with coreA := u.coreA, regs := u.regs }
        ∧ RegsOff (onPages [Pg.CUL]) s u)
      ∧ (s.domUp .app = false → Does (.producerEvent p) s fun u => u.fbit CUL_STAT.DROP = true ∧ u.fget (INT_RAW.bit Pg.CUL 1) = 1
        ∧ u.fget CUL_CNT.DROP = min 65535 (s.fget CUL_CNT.DROP + 1) ∧ PagesOnly [Pg.CUL] s u))
    ∧ (∀ (s : State) (p : Fin 96), p.val ∉ s.cul.inMatrix → (s.culRoutes = false ∨ s.domUp (producerDomain p) = false) →
      Does (.producerEvent p) s fun u => u = s)
    ∧ (∀ (s : State) (c d k : Nat), c < d → d < 32 → s.consOf c = [k] → s.consOf d = [k] → k < 32 → s.domUp .app = true →
      s.fget CUL_CNT.MERGE < 65535 →
      let r := s.route [c, d]
      bitOf r.1.coreA.edge k = true ∧ r.2 = [] ∧ r.1.fget CUL_CNT.MERGE = s.fget CUL_CNT.MERGE + 1 ∧ r.1.fbit CUL_STAT.MERGE = true))
  ∧ (
  (∀ (s : State) (m : Master) (c k : Nat), c < 32 → k < 32 → Accepted s ⟨m, .base⟩ CUL_SWTRIG.addr → s.culRoutes = true → s.domUp .app = true →
      bitOf (s.raw CUL_CHEN.addr) c = true → s.consOf c = [k] →
      (s.chanAdmits (s.sourceOf m) c = true → Does (.culSwtrig ⟨m, .base⟩ (BitVec.ofNat 32 (2 ^ c))) s fun u =>
        bitOf u.coreA.edge k = true ∧ u.fget CUL_STAT.OWN_IGN = s.fget CUL_STAT.OWN_IGN ∧ u = { s with coreA := u.coreA, regs := u.regs, bus := u.bus }
        ∧ RegsOff (onPages [Pg.CUL]) s u)
      ∧ (s.chanAdmits (s.sourceOf m) c = false → Does (.culSwtrig ⟨m, .base⟩ (BitVec.ofNat 32 (2 ^ c))) s fun u =>
        u.fbit CUL_STAT.OWN_IGN = true ∧ u = { s with regs := u.regs, bus := u.bus } ∧ RegsOff (onPages [Pg.CUL]) s u))
    ∧ (∀ (s : State) (m : Master) (v : Word), Accepted s ⟨m, .base⟩ CUL_CHEN.addr → Does (.culChenWrite ⟨m, .base⟩ v) s fun u =>
        (∀ c, c < 32 → bitOf (u.raw CUL_CHEN.addr) c =
          if s.chanAdmits (s.sourceOf m) c then v.getLsbD c else bitOf (s.raw CUL_CHEN.addr) c)
        ∧ u = { s with regs := u.regs, bus := u.bus, cul := u.cul } ∧ RegsOff (onPages [Pg.CUL, Pg.OVL]) s u)
    ∧ (∀ (s : State) (ch : Fin 32) (w : Fin 6), Does (.routingFault ch w) s fun u => bitOf (u.raw CUL_CHEN.addr) ch = false
        ∧ u.fbit CUL_STAT.FAULT = true ∧ u.culSafe = true ∧ u.fget CUL_ERRINFO.CHAN = ch ∧ u.fget CUL_ERRINFO.WORD = w
        ∧ (ch.val, w.val) ∈ u.cul.parity ∧ u.fget (INT_RAW.bit Pg.CUL 0) = 1 ∧ (s.domUp .app = true → u.fget SYS_FAULT.CODE = 7)
        ∧ u = { s with regs := u.regs, cul := u.cul } ∧ RegsOff (onPages [Pg.CUL, Pg.SYS]) s u)
    ∧ (∀ (s : State) (a : Acc), Accepted s a CUL_CMD.addr → (a.view = .base ∨ a.view = .set) →
      (s.sys.st ≠ .recovery → s.cul.parity = [] → Does (.culExit a 1#32) s fun u => u.fbit CUL_STAT.SAFE = false ∧ u.cul = s.cul
        ∧ u = { s with regs := u.regs, bus := u.bus })
      ∧ ((s.sys.st = .recovery ∨ s.cul.parity ≠ []) → Does (.culExit a 1#32) s fun u => u.fbit CUL_STAT.EXIT_REF = true
        ∧ u.fget CUL_STAT.SAFE = s.fget CUL_STAT.SAFE ∧ u = { s with regs := u.regs, bus := u.bus })))

/-- R350 to R352. Where the manual leaves a choice it follows the model's, log entry 102.
States that these commands complete (`exec` answers a next state), each under conditions on the state and its operands alone:
dmaChannelEnable, dmaDisable, dmaRequest, dmaBeat. -/
def Obligations.DmaChannels : Prop :=
  (∀ (s : State) (a : Acc) (ch : Fin 8) (v : Word), Accepted s a (DMA_CFGn.addr ch) → NothingOwed s → ch.val < s.dma.length →
    s.fbit (DMA_CFGn.EN ch) = false → bitOf (writtenTo s a (DMA_CFGn.addr ch) v) 0 = true → s.fget (DMA_CNTn.CNT ch) ≠ 0 →
    Does (.dmaChannelEnable a ch v) s fun u => u.fbit (DMA_CFGn.EN ch) = true
      ∧ u.dmaGet ch = { owner := (s.sourceOf a.m).owner, sec := (s.sourceOf a.m).sec, burst := 0 } ∧ u.fget (DMA_STATn.PENDREQ ch) = 0
      ∧ u.raw (DMA_CNTn.addr ch) = s.raw (DMA_CNTn.addr ch) ∧ u = { s with regs := u.regs, bus := u.bus, dma := u.dma }
      ∧ ∀ k, k ≠ ch.val → u.dmaGet k = s.dmaGet k)
  ∧ (∀ (s : State) (a : Acc) (ch : Fin 8) (v : Word), Accepted s a (DMA_CFGn.addr ch) → NothingOwed s → ch.val < s.dma.length →
    s.fbit (DMA_CFGn.EN ch) = false → bitOf (writtenTo s a (DMA_CFGn.addr ch) v) 0 = true → s.fget (DMA_CNTn.CNT ch) = 0 →
    s.fbit (EVT_EN.bit Pg.DMA ch) = false →
    Does (.dmaChannelEnable a ch v) s fun u => u.fbit (DMA_CFGn.EN ch) = false ∧ u.fbit (DMA_STATn.DONE ch) = true
      ∧ u.fget (INT_RAW.bit Pg.DMA ch) = 1 ∧ u.mem = s.mem)
  ∧ (∀ (s : State) (a : Acc) (ch : Fin 8) (v : Word), Accepted s a (DMA_CFGn.addr ch) → NothingOwed s → ch.val < s.dma.length →
    s.fbit (DMA_CFGn.EN ch) = true → bitOf (writtenTo s a (DMA_CFGn.addr ch) v) 0 = false →
    Does (.dmaDisable a ch v) s fun u => u.fbit (DMA_CFGn.EN ch) = false ∧ u.raw (DMA_CNTn.addr ch) = s.raw (DMA_CNTn.addr ch)
      ∧ (u.dmaGet ch).burst = 0 ∧ u.fget (DMA_STATn.PENDREQ ch) = 0 ∧ u = { s with regs := u.regs, bus := u.bus, dma := u.dma })
  ∧ (∀ (s : State) (ch : Fin 8), s.domUp .app = true → ch.val < s.dma.length → s.fbit (DMA_CFGn.EN ch) = true → s.fbit (DMA_CFGn.FREE ch) = false →
    ((s.dmaGet ch).burst = 0 → Does (.dmaRequest ch) s fun u => (u.dmaGet ch).burst = s.fget (DMA_CFGn.BURST ch) + 1 ∧ u = { s with dma := u.dma })
    ∧ ((s.dmaGet ch).burst ≠ 0 → Does (.dmaRequest ch) s fun u =>
        u.fget (DMA_STATn.PENDREQ ch) = min 255 (s.fget (DMA_STATn.PENDREQ ch) + 1) ∧ PagesOnly [Pg.DMA] s u))
  ∧ (∀ (s : State) (ch : Fin 8), s.domUp .app = true → (s.fbit (DMA_CFGn.EN ch) = false ∨ s.fbit (DMA_CFGn.FREE ch) = true) →
    Does (.dmaRequest ch) s fun u => u = s)
  ∧ (∀ (s : State) (ch : Fin 8), s.fbit DMA_CTRL.EN = true → s.busUp = true → s.dmaNext = some ch.val → s.fget (DMA_CFGn.SIZE ch) = 2 →
    let src := s.raw (DMA_SRCn.addr ch)
    let dst := s.raw (DMA_DSTn.addr ch)
    (regionOf src = .sram → regionOf dst = .sram → src % 4 = 0 → dst % 4 = 0 → s.memst = {} → s.tst.banks = [] →
      (∀ q ∈ s.phase.mem, 0x30000000 ≤ q.1) →
      2 ≤ s.raw (DMA_CNTn.addr ch) → Does .dmaBeat s fun u => u.wordAt dst = s.wordAt src
        ∧ (∀ b, (b < dst ∨ dst + 4 ≤ b) → u.byteAt b = s.byteAt b) ∧ u.raw (DMA_CNTn.addr ch) = s.raw (DMA_CNTn.addr ch) - 1
        ∧ u.raw (DMA_SRCn.addr ch) = (if s.fbit (DMA_CFGn.SINC ch) then src + 4 else src)
        ∧ u.raw (DMA_DSTn.addr ch) = (if s.fbit (DMA_CFGn.DINC ch) then dst + 4 else dst) ∧ u.dmaLast = ch
        ∧ bitOf (u.raw SYS_SRAM_USE.addr) (bankOf dst) = true ∧ u.ntu = s.ntu ∧ u.cad = s.cad)
    ∧ (regionOf src = .hole → regionOf dst = .sram → s.memst = {} → Does .dmaBeat s fun u => u.fbit (DMA_STATn.ERR ch) = true
        ∧ u.fget (DMA_STATn.CAUSE ch) = 1 ∧ u.raw (DMA_ERRADDRn.addr ch) = src ∧ u.fbit (DMA_CFGn.EN ch) = false
        ∧ u.fget (INT_RAW.bit Pg.DMA (8 + ch)) = 1 ∧ u.mem = s.mem))
  ∧ (∀ s : State, (s.fbit DMA_CTRL.EN = false ∨ s.busUp = false ∨ s.dmaNext = none) → Does .dmaBeat s fun u => u = s)

/-- R466 to R468. Where the manual leaves a choice it follows the model's, log entries 126, 127.
States that these commands complete (`exec` answers a next state), each under conditions on the state and its operands alone: gpioEvent,
adcStart, adcResult, adcResRead. -/
def Obligations.PinsAndConverter : Prop :=
  (∀ (s : State) (bank : Bool) (pin : Fin 18) (l : Bool),
    (s.padDriven bank pin = false ∨ bitOf (if bank then s.pads.b else s.pads.a) pin ≠ l) →
    Does (.gpioEvent bank pin l) s fun u => bitOf (if bank then u.pads.b else u.pads.a) pin = l ∧ u.padDriven bank pin = true
      ∧ (if bank then u.pads.a = s.pads.a else u.pads.b = s.pads.b) ∧ u.mem = s.mem ∧ u.ntu = s.ntu
      ∧ ∀ n, n < 8 → s.dom .lp = .on → ({ s with pads := { u.pads with adcRun := s.pads.adcRun } } : State).evFires s.inBoth
          ({ s with pads := { u.pads with adcRun := s.pads.adcRun } } : State).inBoth n = true → u.fget (INT_RAW.bit Pg.GPIO n) = 1)
  ∧ (∀ (s : State) (bank : Bool) (pin : Fin 18) (l : Bool), s.padDriven bank pin = true →
    bitOf (if bank then s.pads.b else s.pads.a) pin = l → Does (.gpioEvent bank pin l) s fun u => u = s)
  ∧ (∀ (s : State) (m : Master), Accepted s ⟨m, .base⟩ ADC_CMD.addr → s.fbit ADC_CTRL.EN = true →
    (s.pads.adcRun = false → Does (.adcStart (some m)) s fun u => u.pads = { s.pads with adcRun := true } ∧ u = { s with pads := u.pads, regs := u.regs, bus := u.bus })
    ∧ (s.pads.adcRun = true → Does (.adcStart (some m)) s fun u => u.fget ADC_CNT.MISSED = min 255 (s.fget ADC_CNT.MISSED + 1)
      ∧ u = { s with regs := u.regs, bus := u.bus }))
  ∧ (∀ s : State, s.domUp .app = true → s.fbit ADC_CTRL.EN = true → s.fbit ADC_CFG.TRIG = true → s.pads.adcRun = false →
    Does (.adcStart none) s fun u => u = { s with pads := { s.pads with adcRun := true } })
  ∧ (∀ (s : State) (d : BitVec 12), s.pads.adcRun = true → s.fbit (EVT_EN.bit Pg.ADC 0) = false →
    Does (.adcResult d) s fun u => u.fget ADC_RES.DATA = d.toNat ∧ u.fbit ADC_RES.VALID = true ∧ u.fget (INT_RAW.bit Pg.ADC 0) = 1
      ∧ (s.fbit ADC_RES.VALID = true → u.fbit ADC_STAT.OVR = true ∧ u.fget (INT_RAW.bit Pg.ADC 1) = 1)
      ∧ (s.fbit ADC_RES.VALID = false → u.fbit ADC_STAT.OVR = s.fbit ADC_STAT.OVR) ∧ u.pads = { s.pads with adcRun := s.fbit ADC_CFG.CONT }
      ∧ RegsOff (onPages [Pg.ADC]) s u ∧ u.mem = s.mem)
  ∧ (∀ (s : State) (d : BitVec 12), s.pads.adcRun = false → Does (.adcResult d) s fun u => u = s)
  ∧ (∀ (s : State) (m : Master), MayRead s m ADC_RES.addr → Does (.adcResRead m none) s fun u => u.bus.data = s.rget ADC_RES.addr
      ∧ u.fbit ADC_RES.VALID = false ∧ u = { s with regs := u.regs, bus := u.bus } ∧ RegsOff (· == ADC_RES.addr) s u)
  ∧ (∀ (s : State) (m : Master) (d : BitVec 12), MayRead s m ADC_RES.addr → s.pads.adcRun = true → s.fbit (EVT_EN.bit Pg.ADC 0) = false →
    Does (.adcResRead m (some d)) s fun u => u.bus.data = s.rget ADC_RES.addr ∧ u.fget ADC_RES.DATA = d.toNat ∧ u.fbit ADC_RES.VALID = true
      ∧ u.fget ADC_STAT.OVR = s.fget ADC_STAT.OVR)

/-- R443 to R446. Where the manual leaves a choice it follows the model's, log entry 131.
States that these commands complete (`exec` answers a next state), each under conditions on the state and its operands alone: pspGo,
pspStop, pspTxdWrite, pspRxdRead, pspPause, pspFifoResume, pspTransferEnd. -/
def Obligations.PeripheralPort : Prop :=
  (∀ (s : State) (m : Master), Accepted s ⟨m, .base⟩ PSP_GO.addr →
    (s.pspCause = 0 → Does (.pspGo ⟨m, .base⟩ 1#32) s fun u =>
      u.psp = { s.psp with running := true, recv := s.fbit PSP_FRAME.DIR, len := s.fget PSP_LEN.LEN, moved := 0,
                           sel := some (s.fget PSP_FRAME.SEL), sent := [], frame := s.raw PSP_FRAME.addr
                           cmdv := s.raw PSP_CMDV.addr % 65536, addr := s.raw PSP_ADDR.addr } ∧ u.mem = s.mem ∧ u.ntu = s.ntu)
    ∧ (s.pspCause ≠ 0 → Does (.pspGo ⟨m, .base⟩ 1#32) s fun u => u.psp = s.psp ∧ u.fbit PSP_STAT.REFUSED = true
      ∧ u.fget PSP_ERRINFO.CAUSE = s.pspCause ∧ u.fget (INT_RAW.bit Pg.PSP 1) = 1 ∧ u = { s with regs := u.regs, bus := u.bus }
      ∧ RegsOff (onPages [Pg.PSP]) s u)
    ∧ ∀ (moved : Nat) (ph : Fin 4) (rx : List Byte), s.psp.running = true → s.psp.moved ≤ moved → moved ≤ s.psp.len → s.psp.len < 2 ^ 14 →
      Does (.pspStop ⟨m, .base⟩ 2#32 moved ph rx) s fun u => u.psp.running = false ∧ u.psp.sel = none ∧ u.psp.tx = [] ∧ u.psp.moved = moved
        ∧ u.fbit PSP_STAT.ABORTED = true ∧ u.fbit PSP_STAT.DONE = true ∧ u.fget PSP_ERRINFO.CAUSE = 5
        ∧ u.fget PSP_DONE_BITS.BITS = moved ∧ u.fget PSP_DONE_BITS.PHASE = ph ∧ u.mem = s.mem)
  ∧ (∀ (s : State) (m : Master) (v : Word), Accepted s ⟨m, .base⟩ PSP_TXD.addr →
    (s.psp.tx.length < 8 → Does (.pspTxdWrite ⟨m, .base⟩ v) s fun u => u.psp = { s.psp with tx := s.psp.tx ++ [v] }
      ∧ u = { s with psp := u.psp, regs := u.regs, bus := u.bus })
    ∧ (8 ≤ s.psp.tx.length → (s.psp.running = false ∨ s.psp.recv = true) → Does (.pspTxdWrite ⟨m, .base⟩ v) s fun u => u.psp = s.psp
      ∧ u.fbit PSP_STAT.OVF = true ∧ u = { s with regs := u.regs, bus := u.bus }))
  ∧ (∀ (s : State) (m : Master), MayRead s m PSP_RXD.addr →
    (∀ w l, s.psp.rx = w :: l → Does (.pspRxdRead m) s fun u => u.bus.data = w ∧ u.psp = { s.psp with rx := l }
      ∧ u = { s with psp := u.psp, bus := u.bus })
    ∧ (s.psp.rx = [] → s.psp.running = false → Does (.pspRxdRead m) s fun u => u.bus.data = 0#32 ∧ u.fbit PSP_STAT.UNF = true ∧ u.psp = s.psp))
  ∧ (∀ (s : State), s.psp.running = true → s.psp.recv = false → s.psp.tx = [] → s.psp.moved < s.psp.len →
    Does (.pspPause s.psp.moved []) s fun u => u.fbit PSP_STAT.PAUSED = true ∧ u.psp.tx = [] ∧ u.psp.moved = s.psp.moved ∧ u.psp.running = true
      ∧ RegsOff (onPages [Pg.PSP]) s u ∧ u.mem = s.mem)
  ∧ (∀ (s : State), s.psp.running = true → (if s.psp.recv then s.psp.rx.length < 8 else s.psp.tx ≠ []) →
    Does .pspFifoResume s fun u => u.fbit PSP_STAT.PAUSED = false ∧ PagesOnly [Pg.PSP] s u)
  ∧ (∀ (s : State), s.psp.running = true → s.psp.recv = false → s.fbit PSP_STAT.PAUSED = false → s.psp.len < 2 ^ 14 →
    s.psp.tx.length = pspWords s.psp.len - s.psp.sent.length →
    Does (.pspTransferEnd []) s fun u => u.psp.running = false ∧ u.psp.sent = s.psp.sent ++ s.psp.tx ∧ u.psp.tx = []
      ∧ u.psp.sel = (if s.psp.fr PSP_FRAME.HOLD = 1 then s.psp.sel else none) ∧ u.fbit PSP_STAT.DONE = true
      ∧ u.fget PSP_DONE_BITS.BITS = s.psp.len ∧ u.fget PSP_DONE_BITS.PHASE = 3 ∧ u.fget (INT_RAW.bit Pg.PSP 0) = 1 ∧ u.mem = s.mem)
  ∧ (∀ (s : State) (rx : List Byte), s.psp.running = true → s.psp.recv = true → s.fbit PSP_STAT.PAUSED = false →
    Does (.pspTransferEnd rx) s fun u => u.psp.running = false ∧ u.psp.tx = s.psp.tx ∧ u.psp.sent = s.psp.sent ∧ u.psp.moved = s.psp.len
      ∧ u.psp.rx = (s.psp.rx ++ rxWords (laneCount (s.psp.fr PSP_FRAME.DATW)) (s.psp.fr PSP_FRAME.LSBF = 1) (s.psp.len - s.psp.moved) rx).take 8
      ∧ u.fbit PSP_STAT.DONE = true ∧ u.fget (INT_RAW.bit Pg.PSP 0) = 1 ∧ u.mem = s.mem)
  ∧ (∀ (w : Nat) (b : Byte) (lsbf : Bool), w ∈ [1, 2, 4, 8] → laneByte w lsbf (byteLanes w lsbf b) = b)

/-- R432 to R441; the port is idle, its window at PAGE and QTR, and the device awake.
Where the manual leaves a choice it follows the model's, log entry 130.
States that these commands complete (`exec` answers a next state), each under conditions on the state and its operands alone: hspRead,
hspWrite, hspWindow, extNop, extStatus, presenceQuery, privCmd, laneSet, postedWriteDone. -/
def Obligations.HostTransactions : Prop :=
  (∀ s : State, s.hsp.cs = false → s.hspServes = true → s.pwr.st = .run → s.pwr.exc = false → s.fbit HSP_CTRL.EN = true →
    (∀ idx : BitVec 6, s.hsp.posted = [] → s.portCur (baseAddr (s.hspAddr idx.toNat)) = none →
      (MayRead s .hsp (s.hspAddr idx.toNat) → s.frcWaits .hsp (s.hspAddr idx.toNat) = false →
        Does (.hspRead idx 1 none) s fun u => u.hsp.out = [u.bus.data] ∧ u.hsp.cs = true
        ∧ u.fget HSP_STAT.BUSERR = s.fget HSP_STAT.BUSERR)
      ∧ (∀ c, s.judge .hsp (s.sourceOf .hsp) (s.hspAddr idx.toNat) false = .reject c → Does (.hspRead idx 1 none) s fun u =>
          u.hsp.out = [0#32] ∧ u.fbit HSP_STAT.BUSERR = true ∧ u.fget HSP_ERRINFO.CAUSE = 1 ∧ u.fget HSP_ERRINFO.WR = 0
          ∧ u.fget (INT_RAW.bit Pg.HSP 0) = 1 ∧ u.mem = s.mem))
    ∧ (∀ (idx : BitVec 6) (w : Word), s.hsp.posted.length < 2 → Does (.hspWrite idx [w] (some 0) false) s fun u =>
        u.hsp.posted = s.hsp.posted ++ [(s.hspAddr idx.toNat, w)] ∧ u.hsp.cs = true
        ∧ RegsOff (· == HSP_CNT.addr) s u ∧ u = { s with hsp := u.hsp, regs := u.regs })
    ∧ (∀ (w : Word) (p : Nat), NothingOwed s → s.hsp.posted = [] → p < 0x40 → s.fget HSP_WIN.PAGE = p → s.fget HSP_WIN.QTR = 0 →
        s.fget HSP_WIN.VIEW = 0 → p ≠ Pg.HSP → Accepted s ⟨.hsp, .base⟩ (INT_EN.addr p) → Does (.hspWrite 4 [w] none false) s fun u =>
        u.raw (INT_EN.addr p) = writtenTo s ⟨.hsp, .base⟩ (INT_EN.addr p) w ∧ u.hsp.posted = [] ∧ u.mem = s.mem ∧ u.cad = s.cad)
    ∧ (∀ (w w' : Word), s.hsp.posted = [] → Does (.hspWrite 63 [w, w'] (some 0) false) s fun u =>
        u.fbit HSP_STAT.WRAP_W = true ∧ u.hsp.posted = [(s.hspAddr 63, w)])
    ∧ (∀ b0 b1 : Byte, (b0.toNat ≤ 0x3F → b1.toNat < 16 → Does (.hspWindow b0 b1) s fun u => u.hsp.win = some (b0.toNat + b1.toNat * 256)
          ∧ u.fget HSP_WIN.PAGE = s.fget HSP_WIN.PAGE ∧ u.hsp.cs = true)
        ∧ ((0x3F < b0.toNat ∨ 16 ≤ b1.toNat) → Does (.hspWindow b0 b1) s fun u => u.fbit HSP_STAT.BADWIN = true ∧ u.hsp.win = s.hsp.win))
    ∧ (∀ c a : BitVec 4, Does (.extNop c a) s fun u => u.hsp = { s.hsp with cs := true, out := [], cmdOut := s.hspCmdOut }
        ∧ u.fget HSP_CNT.XFER = min 65535 (s.fget HSP_CNT.XFER + 1) ∧ u = { s with hsp := u.hsp, regs := u.regs } ∧ RegsOff (· == HSP_CNT.addr) s u)
    ∧ (∀ a : BitVec 4, Does (.extStatus a) s fun u => u.hsp.out.length = 4 ∧ u.hsp.cs = true
        ∧ (a.getLsbD 0 = true → u.fget HSP_STAT.BUSERR = 0 ∧ u.fget HSP_STAT.LATE = 0 ∧ u.fget HSP_STAT.WRAP = 0 ∧ u.fget HSP_STAT.WRAP_W = 0
            ∧ u.fget HSP_STAT.DROP = 0 ∧ u.fget HSP_STAT.BADWIN = 0)
        ∧ (a.getLsbD 0 = false → u.rget HSP_STAT.addr = s.rget HSP_STAT.addr))
    ∧ (∀ a : BitVec 4, Does (.presenceQuery a) s fun u => u.hsp.out = [BitVec.ofNat 32 (s.token.toNat + s.prot.lowFrom.isSome.toNat * 2
          + s.glade.sealOpen.toNat * 4), BitVec.ofNat 32 s.presRemain] ∧ u = { s with hsp := u.hsp, regs := u.regs })
    ∧ (∀ (c : BitVec 4) (f : Option Byte), Does (.privCmd c f) s fun u => (∃ p, u.hsp.priv = some p ∧ p.code = c.toNat
          ∧ (p.good = true ↔ f = some (~~~(0x3#4 ++ c)))) ∧ u.sys = s.sys ∧ u = { s with hsp := u.hsp, regs := u.regs })
    ∧ (∀ a : BitVec 4, s.hsp.cfg = none → Does (.laneSet a) s fun u => u.rget HSP_CFG.addr = s.rget HSP_CFG.addr
        ∧ ∃ c, u.hsp.cfg = some c ∧ fieldGet c.toNat HSP_CFG.CMDW = a.toNat % 4 ∧ fieldGet c.toNat HSP_CFG.DATAW = a.toNat / 4
          ∧ c.toNat % 4 = s.raw HSP_CFG.addr % 4))
  ∧ (∀ (s : State) (p : Nat) (w : Word) (l : List (Nat × Word)), s.busUp = true → NothingOwed s → p < 0x40 → p ≠ Pg.HSP →
    s.hsp.posted = (INT_EN.addr p, w) :: l → Accepted s ⟨.hsp, .base⟩ (INT_EN.addr p) →
    Does .postedWriteDone s fun u => u.hsp = { s.hsp with posted := l } ∧ u.raw (INT_EN.addr p) = writtenTo s ⟨.hsp, .base⟩ (INT_EN.addr p) w
      ∧ u.mem = s.mem)

/-- R63, R440, R460. Where the manual leaves a choice it follows the model's, log entries 84, 130, 132.
States that these commands complete (`exec` answers a next state), each under conditions on the state and its operands alone: hspCsDeassert,
debugUnlock, ownerLockRelease, gladeMaintenance, factoryDefaults, boundaryScan, debugAccess. -/
def Obligations.PrivilegedCommands : Prop :=
  (∀ s : State, s.busUp = true → s.domUp .app = true → s.sys.strapsDue = none → s.hsp.priv = none → s.hsp.srst = false → s.hsp.en = none →
    Does .hspCsDeassert s fun u => u.hsp.cs = false ∧ u.hsp.cfg = none ∧ u.hsp.win = none
      ∧ (∀ c, s.hsp.cfg = some c → u.rget HSP_CFG.addr = c) ∧ (∀ w, s.hsp.win = some w → u.raw HSP_WIN.addr = w % 2 ^ 32)
      ∧ (s.hsp.cfg = none → u.rget HSP_CFG.addr = s.rget HSP_CFG.addr) ∧ RegsOff (onPages [Pg.HSP]) s u
      ∧ u = { s with hsp := u.hsp, regs := u.regs })
  ∧ (∀ (s : State) (x : BitVec 5), s.hspServes = true → s.hsp.cs = false → s.hsp.priv = none → s.token = false →
    (∀ c ∈ [Instr.debugUnlock, .ownerLockRelease, .factoryDefaults x, .gladeMaintenance], Does c s fun u =>
      u.fget HSP_PRIV.RESULT = 1 ∧ u.fget HSP_PRIV.TOKEN = 0 ∧ u.prot.seq = (s.prot.seq + 1) % 65536 ∧ u.sys = s.sys ∧ u.keys = s.keys
      ∧ u.mem = s.mem ∧ u.fget PROT_CTRL.OLOCK = s.fget PROT_CTRL.OLOCK ∧ RegsOff (onPages [Pg.HSP, Pg.PROT]) s u))
  ∧ (∀ s : State, s.hspServes = true → s.hsp.cs = false → s.hsp.priv = none → s.token = true →
    (s.fbit PROT_CTRL.OLOCK = false → Does .debugUnlock s fun u => u.sys = { s.sys with dbgUnlocked := true } ∧ u.fget HSP_PRIV.RESULT = 0
      ∧ u.fget HSP_PRIV.CMD = 1 ∧ u.fget (INT_RAW.bit Pg.HSP 2) = 1 ∧ u.prot.seq = (s.prot.seq + 1) % 65536 ∧ u.mem = s.mem)
    ∧ (s.fbit PROT_CTRL.OLOCK = true → Does .debugUnlock s fun u => u.sys = s.sys ∧ u.fget HSP_PRIV.RESULT = 3)
    ∧ (Does .ownerLockRelease s fun u => u.fbit PROT_CTRL.OLOCK = false ∧ u.fget HSP_PRIV.RESULT = 0 ∧ u.sys = s.sys
      ∧ u.prot.seq = (s.prot.seq + 1) % 65536 ∧ u.mem = s.mem)
    ∧ (s.glade.sealOpen = true → Does .gladeMaintenance s fun u => u.hsp.routeReq = true ∧ u.hsp.routed = s.glade.grant
      ∧ u.fget HSP_PRIV.RESULT = 0 ∧ u.glade = s.glade ∧ u.mem = s.mem)
    ∧ (s.glade.sealOpen = false → Does .gladeMaintenance s fun u => u.fget HSP_PRIV.RESULT = 2 ∧ u.hsp.routeReq = s.hsp.routeReq)
    ∧ (NoImage s → ∀ x, Does (.factoryDefaults x) s fun u => u.keyValid = 0 ∧ bitOf (u.raw SYS_RSTCAUSE.addr) 6 = true
      ∧ bitOf (u.raw SYS_BOOT.addr) 4 = true ∧ u.sys.dbgUnlocked = false))
  ∧ (∀ (s : State) (i : ScanInstr), Does (.boundaryScan i) s fun u => u = { s with sys := u.sys }
      ∧ (i = .bypass ∨ i = .idcode ∨ i = .samplePreload → u.sys = { s.sys with tap := i })
      ∧ (i = .other → u.sys = { s.sys with tap := .bypass })
      ∧ (i = .extest → u.sys = { s.sys with tap := if s.sys.dbgUnlocked then .extest else .bypass }))
  ∧ (∀ (s : State) (a : Word) (z : AccSize) (w : Option Word), (s.sys.dbgUnlocked = false ∨ s.busUp = false) →
      Does (.debugAccess a z w) s fun u => u = { s with bus := { s.bus with err := true } })
  ∧ (∀ (s : State) (a : Word), s.sys.dbgUnlocked = true → s.busUp = true → regionOf a.toNat = .sram → a.toNat % 4 = 0 → s.memst = {} →
    s.tst.banks = [] → (∀ q ∈ s.phase.mem, 0x30000000 ≤ q.1) →
    (Does (.debugAccess a .word none) s fun u => u.bus.data.toNat = s.wordAt a.toNat ∧ u.bus.err = false ∧ u.mem = s.mem)
    ∧ ∀ v : Word, Does (.debugAccess a .word (some v)) s fun u => u.wordAt a.toNat = v.toNat ∧ u.bus.err = false
        ∧ ∀ b, (b < a.toNat ∨ a.toNat + 4 ≤ b) → u.byteAt b = s.byteAt b)

/-- R332 to R335, R457, R458. Where the manual leaves a choice it follows the model's, log entries 101, 116.
States that these commands complete (`exec` answers a next state), each under conditions on the state and its operands alone: tstBistReq,
bistBankDone, lbist, rramBist, selfTestDone, tstCapReq, captureDone, bankClearDone, sysSramUseWrite. -/
def Obligations.SelfTestsAndBanks : Prop :=
  (∀ (s : State) (m : Master) (b : Nat), Accepted s ⟨m, .base⟩ TST_BIST_REQ.addr → b < 24 → s.fbit TST_CTRL.EN = true → s.tst = {} →
    (s.bankInUse b = false → Does (.tstBistReq ⟨m, .base⟩ (BitVec.ofNat 32 (2 ^ b))) s fun u => u.tst = { s.tst with banks := [b] }
      ∧ u.fget TST_BIST_REQ.BANKS = 2 ^ b ∧ u = { s with tst := u.tst, regs := u.regs, bus := u.bus })
    ∧ (s.bankInUse b = true → Does (.tstBistReq ⟨m, .base⟩ (BitVec.ofNat 32 (2 ^ b))) s fun u => u.tst = s.tst
      ∧ bitOf (u.fget TST_BIST_REF.BANKS) b = true ∧ u.fbit TST_STAT.REFUSED = true ∧ u = { s with regs := u.regs, bus := u.bus }))
  ∧ (∀ (s : State) (b : Nat) (pass : Bool), s.tst.banks = [b] → b < 24 →
    Does (.bistBankDone pass) s fun u => u.tst.banks = [] ∧ bitOf (u.fget TST_BIST_PASS.BANKS) b = pass
      ∧ (pass = false → bitOf (u.fget TST_BIST_FAIL.BANKS) b = true) ∧ u.fget (INT_RAW.bit Pg.TST 0) = 1
      ∧ (∀ a, bankOf a = b → 0x20000000 ≤ a → a < 0x20180000 → u.byteAt a = memDefault a)
      ∧ (∀ a, (a < 0x20000000 ∨ 0x20180000 ≤ a) → u.byteAt a = s.byteAt a) ∧ RegsOff (onPages [Pg.TST]) s u)
  ∧ (∀ (s : State) (m : Master), Accepted s ⟨m, .base⟩ TST_SELF.addr → s.fbit TST_CTRL.EN = true → s.tst = {} →
    (s.sys.st = .test → s.fbit CAD_CTRL.EN = false →
      (Does (.lbist ⟨m, .base⟩ 1#32) s fun u => u.tst = { lbist := true } ∧ u.fbit TST_SELF.LBIST_DONE = false ∧ u.mem = s.mem ∧ u.cad = s.cad)
      ∧ Does (.rramBist ⟨m, .base⟩ 2#32) s fun u => u.tst = { rram := true } ∧ u.fbit TST_SELF.RRAM_DONE = false ∧ u.mem = s.mem)
    ∧ (s.sys.st ≠ .test → (Does (.lbist ⟨m, .base⟩ 1#32) s fun u => u.tst = {} ∧ u.fbit TST_STAT.REFUSED = true ∧ u.fget TST_STAT.CAUSE = 1)
        ∧ Does (.rramBist ⟨m, .base⟩ 2#32) s fun u => u.tst = {} ∧ u.fget TST_STAT.CAUSE = 1)
    ∧ (s.sys.st = .test → s.fbit CAD_CTRL.EN = true → Does (.lbist ⟨m, .base⟩ 1#32) s fun u => u.tst = {} ∧ u.fget TST_STAT.CAUSE = 2))
  ∧ (∀ (s : State) (pass : Bool),
    (s.tst.lbist = true → Does (.selfTestDone pass) s fun u => u.tst.lbist = false ∧ u.fbit TST_SELF.LBIST_DONE = true
      ∧ u.fbit TST_SELF.LBIST_PASS = pass ∧ u.fget (INT_RAW.bit Pg.TST 1) = 1 ∧ u.slot = none ∧ u.cad = {} ∧ u.trf = {} ∧ u.hdr = {} ∧ u.mem = s.mem)
    ∧ (s.tst.lbist = false → s.tst.rram = true → Does (.selfTestDone pass) s fun u => u.tst.rram = false ∧ u.fbit TST_SELF.RRAM_DONE = true
      ∧ u.fbit TST_SELF.RRAM_PASS = pass ∧ (∀ a, 0x30000000 ≤ a → a < 0x30040000 → u.byteAt a = memDefault a)
      ∧ ∀ a, a < 0x30000000 → u.byteAt a = s.byteAt a))
  ∧ (∀ (s : State) (m : Master), Accepted s ⟨m, .base⟩ TST_CAP_REQ.addr → s.fbit TST_CTRL.EN = true →
    (bitOf (s.fget RFE_CAL_STAT.VALID) 0 = false → Does (.tstCapReq ⟨m, .base⟩ 1#32) s fun u => u.fget TST_CAP_REQ.RESULT = 2
      ∧ u.fbit TST_STAT.REFUSED = true ∧ u = { s with regs := u.regs, bus := u.bus })
    ∧ (bitOf (s.fget RFE_CAL_STAT.VALID) 0 = true → s.fbit TST_CAP_REQ.PEND = false → s.fbit CAD_CTRL.EN = true →
      Does (.tstCapReq ⟨m, .base⟩ 1#32) s fun u => u.fbit TST_CAP_REQ.PEND = true ∧ (9, s.asnNow) ∈ u.rfe.age ∧ u.mem = s.mem))
  ∧ (∀ (s : State) (w : Word) (l : List Word), s.rfe.running = some 9 → s.fbit CAD_CTRL.EN = true → (w :: l).length ≤ 8192 →
    Does (.captureDone (w :: l)) s fun u => u.wordAt 0x30038000 = ((w.truncate 18).signExtend 32).toNat ∧ u.fbit TST_CAP_REQ.PEND = false
      ∧ u.fget TST_CAP_REQ.RESULT = 0 ∧ u.fget (INT_RAW.bit Pg.TST 2) = 1 ∧ ∀ a, a < 0x30038000 → u.byteAt a = s.byteAt a)
  ∧ (∀ s : State, Does .bankClearDone s fun u => u = { s with memst := { s.memst with clear := [] } })
  ∧ (∀ (s : State) (a : Acc) (v : Word), Accepted s a SYS_SRAM_USE.addr →
    Does (.sysSramUseWrite a v) s fun u => u.raw SYS_SRAM_USE.addr = writtenTo s a SYS_SRAM_USE.addr v ∧ u = { s with regs := u.regs, bus := u.bus }
      ∧ RegsOff (onPages [Pg.SYS, Pg.OVL]) s u)

/-- R272, R276, R277, R280 to R283, R286, R287. Where the manual leaves a choice it follows the model's, log entries 81, 82, 85.
States that these commands complete (`exec` answers a next state), each under conditions on the state and its operands alone: gpcEdge,
gsecIncrement, gpcCapture, gpcCapRead, gcoreMbsrc, glogAppend, gadcStart, gdspFrame, mbCopyDone, mailboxWord0Read, glogWriteDone,
gadcResult, gdspFrameDone. -/
def Obligations.GladeMetrology : Prop :=
  (∀ (s : State) (ch : Fin 4) (pb : Bool), s.glade.powered = true → ch.val < s.glade.gpc.length → (s.gpcGet ch).a = false → s.fget (GPC_CFG.PRESC ch) = 0 →
    (s.fget (GPC_CFG.MODE ch) = 1 → Does (.gpcEdge ch true pb) s fun u => (u.gpcGet ch).count = (s.gpcGet ch).count + 1#48
      ∧ bitOf u.coreG.edge ch = true ∧ ∀ k, k ≠ ch.val → u.gpcGet k = s.gpcGet k)
    ∧ (s.fget (GPC_CFG.MODE ch) = 3 → Does (.gpcEdge ch true pb) s fun u =>
        (u.gpcGet ch).count = if pb then (s.gpcGet ch).count - 1#48 else (s.gpcGet ch).count + 1#48))
  ∧ (∀ (s : State) (ch : Fin 4) (pa pb : Bool), s.glade.powered = true → ch.val < s.glade.gpc.length → s.fget (GPC_CFG.MODE ch) = 5 →
    s.fget (GPC_CFG.PRESC ch) = 0 →
    (pa ≠ (s.gpcGet ch).a → pb ≠ (s.gpcGet ch).b → Does (.gpcEdge ch pa pb) s fun u => (u.gpcGet ch).count = (s.gpcGet ch).count
      ∧ u.fget (GPC_STAT.QERR ch) = min 65535 (s.fget (GPC_STAT.QERR ch) + 1))
    ∧ (((pa = (s.gpcGet ch).a) ≠ (pb = (s.gpcGet ch).b)) → Does (.gpcEdge ch pa pb) s fun u => (u.gpcGet ch).count =
        if quadPos pa pb = (quadPos (s.gpcGet ch).a (s.gpcGet ch).b + 1) % 4 then (s.gpcGet ch).count + 1#48 else (s.gpcGet ch).count - 1#48))
  ∧ (∀ (s : State) (ch : Fin 4) (pa pb : Bool), s.glade.powered = false → (Does (.gpcEdge ch pa pb) s fun u => u = s)
      ∧ Does .gsecIncrement s fun u => u = s)
  ∧ (∀ s : State, s.glade.powered = true → Does .gsecIncrement s fun u => u.glade.gsec = s.glade.gsec + 1#32 ∧ bitOf u.coreG.edge 5 = true
      ∧ (∀ ch, ch < 4 → s.glade.gpc.length = 4 → s.fbit (GPC_CFG.CAP_SEC ch) = true → (u.gpcGet ch).cap = (s.gpcGet ch).count
          ∧ u.fbit (GPC_STAT.VALID ch) = true)
      ∧ (s.fbit GCORE_WDT_CFG.EN = true → u.fget GCORE_WDT_CFG.CNT = s.fget GCORE_WDT_CFG.CNT - 1) ∧ u.mem = s.mem)
  ∧ (∀ (s : State) (ch : Fin 4), s.glade.run = true → ch.val < s.glade.gpc.length →
    (∀ v : Word, v.getLsbD 17 = true → Does (.gpcCapture ch v) s fun u => (u.gpcGet ch).cap = (s.gpcGet ch).count ∧ u.fbit (GPC_STAT.VALID ch) = true
      ∧ (s.fbit (GPC_STAT.VALID ch) = true → u.fbit (GPC_STAT.OVR ch) = true) ∧ (u.gpcGet ch).count = (s.gpcGet ch).count)
    ∧ (Does (.gpcCapRead ch false) s fun u => u.glade.rd = BitVec.ofNat 32 ((s.gpcGet ch).cap.toNat % 2 ^ 32) ∧ u.fbit (GPC_STAT.VALID ch) = false
      ∧ u.glade.gpc = s.glade.gpc))
  ∧ (∀ s : State, s.glade.run = true →
    (∀ v : Word, Does (.gcoreMbsrc v) s fun u => (∃ l, u.glade.copy = some l ∧ l.length = 64
        ∧ ∀ i, i < 64 → l[i]? = some (BitVec.ofNat 32 (s.glade.wordAt (gladeSram + (v.toNat % 32768 / 4 * 4 + 4 * i) % 32768))))
      ∧ u.regs = s.regs ∧ u = { s with glade := { s.glade with copy := u.glade.copy } })
    ∧ (∀ v : Word, (0x80 ≤ s.glade.app0.toNat % 256 → Does (.glogAppend v) s fun u => ∃ e, u.glade.logQ = s.glade.logQ ++ [e] ∧ e.hw = false
          ∧ e.w1 = s.glade.gsec ∧ e.w2 = s.glade.app1 ∧ e.w3 = v ∧ e.w0.toNat / 65536 % 256 = s.glade.app0.toNat % 256
          ∧ u.glade.logSeq = (s.glade.logSeq + 1) % 65536)
        ∧ (s.glade.app0.toNat % 256 < 0x80 → Does (.glogAppend v) s fun u => u.glade = s.glade ∧ u.fbit GLOG_STAT.APP_REF = true))
    ∧ (∀ v : Word, v.getLsbD 9 = true → Does (.gadcStart v) s fun u => u.glade = { s.glade with adcRun := true } ∧ u.fbit GADC_CFG.START = false)
    ∧ (∀ v : Word, (s.fbit GCORE_DSP_CFG.BUSY = false → Does (.gdspFrame v) s fun u => u.fbit GCORE_DSP_CFG.BUSY = true
          ∧ u.glade.dspOut.length = clampN 8 32 (s.fget GCORE_DSP_CFG.LEN) ∧ u.glade.dspOut.getLast? = some (bitOf v.toNat 0))
        ∧ (s.fbit GCORE_DSP_CFG.BUSY = true → Does (.gdspFrame v) s fun u => u.glade = s.glade ∧ u.fbit GCORE_DSP_CFG.OVF = true)))
  ∧ (∀ (s : State) (l : List Word), s.glade.copy = some l → l.length = 64 →
    Does .mbCopyDone s fun u => u.glade.copy = none ∧ bitOf u.coreG.edge 9 = true
      ∧ (∀ i, 0 < i → i < 64 → u.glade.box[i]? = l[i]?)
      ∧ ∃ w, u.glade.box[0]? = some w ∧ w.toNat % 65536 = (((s.glade.box[0]?).getD 0#32).toNat + 1) % 65536)
  ∧ (∀ (s : State) (m m' : Master), s.glade.copy = none → MayRead s m (GMB_MB.addr 0) → m' ≠ m →
    Does (.mailboxWord0Read m false) s fun u => u.snapOf m = s.glade.box ∧ u.snapOf m' = s.snapOf m'
      ∧ u.bus.data = (s.glade.box[0]?).getD 0#32 ∧ u = { s with glade := { s.glade with snaps := u.glade.snaps }, bus := u.bus })
  ∧ (∀ (s : State) (e : GLogWr) (q : List GLogWr), s.glade.powered = true → s.glade.logQ = e :: q →
    Does .glogWriteDone s fun u => u.glade.logQ = q ∧ bitOf u.coreG.edge 10 = true
      ∧ (e.hw = true → u.glade.hwN = s.glade.hwN + 1 ∧ u.glade.wordAt (0x38800 + 16 * s.glade.hwN) = e.w0.toNat)
      ∧ (e.hw = false → u.glade.ringNext = (s.glade.ringNext + 1) % 1664 ∧ u.glade.wordAt (0x39800 + 16 * s.glade.ringNext) = e.w0.toNat))
  ∧ (∀ (s : State) (d : BitVec 14), s.glade.adcRun = true → Does (.gadcResult d) s fun u => u.fget GADC_RES.DATA = (d.signExtend 16).toNat
      ∧ u.fbit GADC_RES.RDY = true ∧ u.glade = { s.glade with adcRun := s.fbit GADC_CFG.CONT })
  ∧ (∀ s : State, s.glade.powered = true → s.fbit GCORE_DSP_CFG.BUSY = true → Does .gdspFrameDone s fun u => u.fbit GCORE_DSP_CFG.BUSY = false ∧ bitOf u.coreG.edge 8 = true
      ∧ u.glade = s.glade)

/-- R273 to R275, R284 to R293. Where the manual leaves a choice it follows the model's, log entries 80, 83, 84, 86.
States that these commands complete (`exec` answers a next state), each under conditions on the state and its operands alone: sealCheck,
gladeTokenChange, grantChange, gladePowerOnReset, gladeWatchdogExpiry, gladeSelfReset, gladeBootDone, gladeWdtEnable, gladeWdtKick,
gladeWdtWarning, maintStatus, maintErase, maintProg, maintRead, maintCommit, maintExit, maintTimeout, maintOpDone. -/
def Obligations.GladeLifecycle : Prop :=
  (∀ s : State, s.glade.powered = true → s.glade.cnt.length = 5 →
    (s.glade.sealBad = 1 → s.glade.sealOpen = false → s.glade.sealKnown = true → Does (.sealCheck false) s fun u => u.glade.sealOpen = true
      ∧ u.gCnt cSEAL = min 0xFFFFFFFF (s.gCnt cSEAL + 1) ∧ bitOf u.coreG.edge 6 = true)
    ∧ (s.glade.sealGood = 3 → s.glade.sealOpen = true → s.glade.session = false → Does (.sealCheck true) s fun u => u.glade.sealOpen = false
      ∧ u.glade.sealKnown = true ∧ u.gCnt cSEAL = s.gCnt cSEAL ∧ u.glade.grant = false))
  ∧ (∀ s : State, s.glade.powered = true → s.glade.session = false →
    (∀ t : Frc, (s.advance t).gToken = true → s.glade.token = false → s.glade.sealOpen = true →
      Does (.gladeTokenChange t) s fun u => u.glade.token = true ∧ u.glade.grant = true ∧ bitOf u.coreG.edge 7 = true)
    ∧ (∀ t : Frc, (s.advance t).gToken = false → s.glade.token = true →
      Does (.gladeTokenChange t) s fun u => u.glade.token = false ∧ u.glade.grant = false)
    ∧ (∀ a : Nat, s.glade.presLow = some a → a + 2 * grcSecond ≤ s.now → s.gToken = true)
    ∧ Does .grantChange s fun u => u.glade.grant = (s.glade.sealOpen && s.glade.token))
  ∧ (∀ s : State, s.glade.cnt.length = 5 →
    (Does .gladePowerOnReset s fun u => u.glade.powered = true ∧ u.glade.booting = true ∧ u.glade.run = false ∧ u.glade.gsec = 0
      ∧ u.gCnt cPWR = min 0xFFFFFFFF (s.gCnt cPWR + 1) ∧ u.gCnt cRESET = min 0xFFFFFFFF (s.gCnt cRESET + 1) ∧ u.glade.session = false
      ∧ (∀ a, a < 0x40000 → u.glade.byteAt a = s.glade.byteAt a) ∧ u.mem = s.mem)
    ∧ (s.glade.powered = true → s.fbit GCORE_WDT_CFG.EN = true → s.fget GCORE_WDT_CFG.CNT = 0 → Does .gladeWatchdogExpiry s fun u =>
        u.glade.booting = true ∧ u.glade.run = false ∧ u.gCnt cRESET = min 0xFFFFFFFF (s.gCnt cRESET + 1) ∧ u.glade.gsec = s.glade.gsec
        ∧ u.gCnt cSEAL = s.gCnt cSEAL ∧ u.glade.gpc = s.glade.gpc ∧ u.glade.box = s.glade.box ∧ u.mem = s.mem ∧ u.ntu = s.ntu)
    ∧ (∀ v : Word, s.glade.run = true → v.toNat % 65536 = 0xA5C3 → Does (.gladeSelfReset v) s fun u => u.glade.booting = true
        ∧ u.glade.run = false ∧ u.gCnt cRESET = min 0xFFFFFFFF (s.gCnt cRESET + 1) ∧ u.glade.gpc = s.glade.gpc))
  ∧ (∀ s : State, s.glade.booting = true → (s.glade.dead = [] → Does .gladeBootDone s fun u => u.glade.booting = false
      ∧ (u.glade.run = true ↔ s.glade.headerOk = true ∧ s.glade.imageBad = false) ∧ u.glade.noImage = !u.glade.run
      ∧ u.glade.ident = s.glade.digest ∧ u.glade.mem = s.glade.mem ∧ u.regs = s.regs)
    ∧ Does .gladeBootDone s fun u => u.glade.booting = false
      ∧ (u.glade.run = true ↔ u.glade.headerOk = true ∧ s.glade.imageBad = false) ∧ u.glade.ident = u.glade.digest ∧ u.regs = s.regs
      ∧ ∀ a, (∀ d ∈ s.glade.dead, a < d ∨ d + 16 ≤ a) → u.glade.byteAt a = s.glade.byteAt a)
  ∧ (∀ (s : State) (v : Word), s.glade.run = true →
    (s.fbit GCORE_WDT_CFG.EN = false → v.getLsbD 8 = true → Does (.gladeWdtEnable v) s fun u => u.fbit GCORE_WDT_CFG.EN = true
      ∧ u.fget GCORE_WDT_CFG.TO = v.toNat % 256 ∧ u.fget GCORE_WDT_CFG.CNT = max 2 (v.toNat % 256) ∧ u.glade = s.glade)
    ∧ (s.fbit GCORE_WDT_CFG.EN = true → Does (.gladeWdtEnable v) s fun u => u = s)
    ∧ (s.fbit GCORE_WDT_CFG.EN = true → v.toNat % 65536 = 0x3C96 → Does (.gladeWdtKick v) s fun u =>
        u.fget GCORE_WDT_CFG.CNT = max 2 (s.fget GCORE_WDT_CFG.TO) ∧ bitOf u.coreG.edge 11 = false ∧ u.glade = s.glade))
  ∧ (∀ s : State, s.glade.powered = true → s.fbit GCORE_WDT_CFG.EN = true → s.fget GCORE_WDT_CFG.CNT ≤ 1 →
    Does .gladeWdtWarning s fun u => bitOf u.coreG.edge 11 = true ∧ u = { s with coreG := u.coreG })
  ∧ (∀ s : State, s.hsp.routed = true → s.glade.powered = true → s.glade.session = false → s.glade.cnt.length = 5 →
    (s.glade.sealOpen = true → s.glade.token = true → Does .maintStatus s fun u => u.glade.session = true ∧ u.glade.run = false
      ∧ u.gCnt cMAINT = min 0xFFFFFFFF (s.gCnt cMAINT + 1) ∧ u.glade.reply.length = 4)
    ∧ ((s.glade.sealOpen = false ∨ s.glade.token = false) → Does .maintStatus s fun u => u.glade.session = false ∧ u.glade.grant = false
      ∧ u.gCnt cMAINT = s.gCnt cMAINT ∧ u.glade.mem = s.glade.mem))
  ∧ (∀ s : State, s.hsp.routed = true → s.glade.powered = true → s.glade.session = true → s.glade.op = none → s.glade.cnt.length = 5 →
    (∀ b : Byte, b.toNat < 2 → Does (.maintErase b) s fun u => u.glade.op = some (.erase (b.toNat = 1)) ∧ u.glade.imageBad = true
      ∧ u.glade.mem = s.glade.mem ∧ (s.glade.changed = false → u.gCnt cFWCHG = min 0xFFFFFFFF (s.gCnt cFWCHG + 1)))
    ∧ (∀ b : Byte, 2 ≤ b.toNat → Does (.maintErase b) s fun u => u.glade.op = none ∧ u.glade.result = 3)
    ∧ (∀ (a : BitVec 24) (d : List Byte), a.toNat % 16 = 0 → a.toNat + 16 ≤ 0x34000 → d.length = 16 → Does (.maintProg a d) s fun u =>
        u.glade.op = some (.prog a.toNat d) ∧ u.glade.mem = s.glade.mem)
    ∧ (∀ a : BitVec 24, a.toNat + 16 ≤ 0x34000 → s.glade.dead = [] →
      (Does (.maintRead ⟨a, false⟩) s fun u => u.glade.reply = s.glade.listAt a.toNat 16 ∧ u.glade.result = 0
        ∧ u = { s with glade := u.glade } ∧ u.glade.mem = s.glade.mem)
      ∧ Does (.maintRead ⟨a, true⟩) s fun u => u.glade.dead = [a.toNat / 16 * 16]
        ∧ (s.glade.hwUsed < 256 → u.glade.logSeq = (s.glade.logSeq + 1) % 65536))
    ∧ (∀ (a : BitVec 24) (ue : Bool), a.toNat + 16 ≤ 0x34000 → Does (.maintRead ⟨a, ue⟩) s fun u => u.glade.reply = u.glade.listAt a.toNat 16
        ∧ u.glade.result = 0 ∧ ∀ b, (∀ d ∈ u.glade.dead, b < d ∨ d + 16 ≤ b) → u.glade.byteAt b = s.glade.byteAt b)
    ∧ (∀ d : List Byte, d.length = 32 → Does (.maintCommit d) s fun u => u.glade = { s.glade with op := some (.commit d) })
    ∧ (Does .maintExit s fun u => u.glade.session = false ∧ u.glade.booting = true ∧ u.gCnt cRESET = min 0xFFFFFFFF (s.gCnt cRESET + 1))
    ∧ Does .maintTimeout s fun u => u.glade.session = false ∧ u.glade.booting = true ∧ u.glade.grant = false)
  ∧ (∀ (s : State) (o : MaintOp) (b : Byte), s.hsp.routed = true → s.glade.powered = true → s.glade.session = true → s.glade.op = some o →
    Does (.maintErase b) s fun u => u.glade = { s.glade with result := 1 })
  ∧ (∀ (s : State) (p : Bool), s.glade.op = some (.erase p) → s.glade.pendEnd = none → Does (.maintOpDone true) s fun u => u.glade.op = none
      ∧ u.glade.result = 0 ∧ (∀ a, (if p then 0x30000 else 0) ≤ a → a < (if p then 0x34000 else 0x30000) → u.glade.byteAt a = 0xFF#8)
      ∧ ∀ a, (a < (if p then 0x30000 else 0) ∨ (if p then 0x34000 else 0x30000) ≤ a) → u.glade.byteAt a = s.glade.byteAt a)
  ∧ (∀ (s : State) (d : List Byte), s.glade.op = some (.commit d) → s.glade.pendEnd = none → s.glade.headerOk = true → s.glade.digest = d →
    s.glade.dead = [] → Does (.maintOpDone true) s fun u => u.glade.imageBad = false ∧ u.glade.ident = d ∧ u.glade.result = 0 ∧ u.glade.mem = s.glade.mem)

/-- R298, R304 to R306, R318 to R320. Where the manual leaves a choice it follows the model's, log entries 90, 92.
States that these commands complete (`exec` answers a next state), each under conditions on the state and its operands alone: add, nop. -/
def Obligations.TanumConditions : Prop :=
  (∀ (i : Instr) (c : CoreId) (p : Prefixes) (n : Nat) (s u : State), Executes i c p n s u →
    (u = { s with caches := u.caches, regs := u.regs, memst := u.memst, flash := u.flash, freeCtr := u.freeCtr }
      ∧ ∀ a, a ≠ SYS_MEM_ECC.addr → a ≠ SYS_MEM_ERRADDR.addr → a ≠ CACHE_STAT.addr → pageOf a ≠ Pg.FLC → u.rget a = s.rget a)
    ∧ (p.rep = none → (s.core c).holds p = false → Does i s fun t => t = u.setCore c (corePast (s.core c) n))
    ∧ (∀ r, p.rep = some r → (s.core c).repCount r = 0 → Does i s fun t =>
        t = u.setCore c { corePast (s.core c) n with rpc := 0, psw := putBit (s.core c).psw 16 false }))
  ∧ (∀ (c : CoreId) (k v : Byte) (d : RegNo) (n : Nat) (s u : State), Executes (.add c { rep := some (.rep k) } d (.imm8 v)) c { rep := some (.rep k) } n s u →
    (s.core c).rp = false → (s.core c).w.length = 15 → Does (.add c { rep := some (.rep k) } d (.imm8 v)) s fun t =>
      (t.core c).reg d = (s.core c).reg d + BitVec.ofNat 32 k.toNat * v.signExtend 32 ∧ (t.core c).pc = (s.core c).pc + BitVec.ofNat 32 n
      ∧ (t.core c).rpc = 0 ∧ (t.core c).rp = false ∧ (∀ j, j ≠ d → (t.core c).reg j = (s.core c).reg j) ∧ t = u.setCore c (t.core c))
  ∧ (∀ (c : CoreId) (k : Byte) (n : Nat) (s u : State), Executes (.nop c { rep := some (.repi k) }) c { rep := some (.repi k) } n s u →
    ((s.core c).rp = false → 1 < k.toNat → u.lineWaits c = true → Does (.nop c { rep := some (.repi k) }) s fun t =>
      t = u.setCore c { s.core c with rpc := BitVec.ofNat 32 (k.toNat - 1), psw := putBit (s.core c).psw 16 true, waiting := false, atomic := false, mpuOld := [] })
    ∧ ((s.core c).rp = true → (s.core c).rpc = 1#32 → Does (.nop c { rep := some (.repi k) }) s fun t =>
      t = u.setCore c { corePast (s.core c) n with rpc := 0, psw := putBit (s.core c).psw 16 false }))
  ∧ (∀ (c : CoreId) (i : Instr), (i = .reti c {} ∨ i = .wait c {} ∨ ∃ r, i = .movsToSpecial c {} 6 r) → ∀ (n : Nat) (s u : State), Executes i c {} n s u →
    (s.core c).user = true → StackReady u c → Does i s fun t => Entered u t c (s.core c).landAll 6 ∧ (t.core c).inFault = true
      ∧ (t.core c).ie = false)

/-- R307, R321, R323, R327. Where the manual leaves a choice it follows the model's, log entries 90, 92.
States that these commands complete (`exec` answers a next state), each under conditions on the state and its operands alone: bset, bclr,
btst, clz, mov, adc, sub, sbc, and, or, xor, cmp, tst, shl, shr, sar, ror, neg, not, add. -/
def Obligations.TanumArithmetic : Prop :=
  (∀ (op : AluOp) (c : CoreId) (p : Prefixes) (d : RegNo) (src : Src) (i : Instr) (n : Nat) (s u : State), aluInstr c p d src op = some i →
    RunsOnce i c p n s u → (s.core c).w.length = 15 →
    let x := s.core c
    let a := (x.reg d).setWidth p.bits
    let b := (x.src src).setWidth p.bits
    let isOpen := x.openCount op p src
    Does i s fun t => ∃ k, (isOpen = false → k = (x.src src).toNat % 32) ∧
      let y := t.core c
      let v := aluValue a b x.flagC k op
      let e := aluExact a b x.flagC k op
      let r : Word := if p.sat then BitVec.ofInt 32 (clampI (-131072) 131071 e) else v.setWidth 32
      t = (if isOpen then u.freeStep else u).setCore c y
      ∧ y = { corePast x n with w := y.w, ssp := y.ssp, usp := y.usp, psw := y.psw }
      ∧ (∀ j, j ≠ d → y.reg j = x.reg j)
      ∧ y.reg d = (if op = .cmp ∨ op = .tst then x.reg d
          else (x.reg d &&& ~~~((BitVec.allOnes p.bits).setWidth 32)) ||| (r &&& (BitVec.allOnes p.bits).setWidth 32))
      ∧ y.flagZ = (if op = .mov then x.flagZ else r.setWidth p.bits == 0#p.bits)
      ∧ y.flagN = (if op = .mov then x.flagN else (r.setWidth p.bits).msb)
      ∧ y.flagC = aluCarry a b x.flagC k op
      ∧ y.flagV = (if setsV op then decide (e < -(2 ^ (p.bits - 1)) ∨ 2 ^ (p.bits - 1) ≤ e) else x.flagV)
      ∧ y.psw.getLsbD 4 = (x.psw.getLsbD 4 || (p.sat && decide (e < -131072 ∨ 131071 < e)))
      ∧ ∀ j, 5 ≤ j → y.psw.getLsbD j = x.psw.getLsbD j)
  ∧ (∀ (c : CoreId) (p : Prefixes) (r : RegNo) (b : Fin 32) (n : Nat) (s u : State), (s.core c).w.length = 15 →
    (RunsOnce (.bset c p r b) c p n s u → Does (.bset c p r b) s fun t =>
      t = u.setCore c (corePast ((s.core c).setReg r ((s.core c).reg r ||| 1#32 <<< b.val)) n))
    ∧ (RunsOnce (.bclr c p r b) c p n s u → Does (.bclr c p r b) s fun t =>
      t = u.setCore c (corePast ((s.core c).setReg r ((s.core c).reg r &&& ~~~(1#32 <<< b.val))) n))
    ∧ (RunsOnce (.btst c p r b) c p n s u → Does (.btst c p r b) s fun t => t = u.setCore c (t.core c)
      ∧ (t.core c).flagZ = !((s.core c).reg r).getLsbD b.val ∧ ∀ j, j ≠ 1 → (t.core c).psw.getLsbD j = (s.core c).psw.getLsbD j
      ∧ { t.core c with psw := (s.core c).psw } = corePast (s.core c) n)
    ∧ ∀ q : RegNo, RunsOnce (.clz c p r q) c p n s u → Does (.clz c p r q) s fun t => ∃ k, k ≤ 32 ∧ (t.core c).reg r = BitVec.ofNat 32 k
      ∧ (∀ j, j < k → ((s.core c).reg q).getLsbD (31 - j) = false) ∧ (k < 32 → ((s.core c).reg q).getLsbD (31 - k) = true)
      ∧ (t.core c).flagZ = decide (k = 0) ∧ (t.core c).pc = (s.core c).pc + BitVec.ofNat 32 n
      ∧ (∀ j, j ≠ r → (t.core c).reg j = (s.core c).reg j) ∧ t = u.setCore c (t.core c))

/-- R301 to R303, R307, R324. Where the manual leaves a choice it follows the model's, log entries 90, 91.
States that these commands complete (`exec` answers a next state), each under conditions on the state and its operands alone: multiplyLands,
clracc, movsFromSpecial, movsToSpecial, muls, mulu, macs, macu, mul32s, mul32u. -/
def Obligations.TanumMultiplier : Prop :=
  (∀ (c : CoreId) (p : Prefixes) (ra rb : RegNo) (n : Nat) (s u : State),
    (∀ i sg wide, ((i, sg, wide) ∈ [(Instr.muls c p ra rb, true, false), (.mulu c p ra rb, false, false), (.mul32s c p ra rb, true, true),
        (.mul32u c p ra rb, false, true)]) → RunsOnce i c p n s u → Does i s fun t => t = u.setCore c (t.core c)
      ∧ { t.core c with mul := (s.core c).mul } = corePast (s.core c) n ∧ (t.core c).mul.length = (s.core c).mul.length + 1
      ∧ ((s.core c).mul = [] → Does (.multiplyLands c) t fun v =>
          let r := product sg wide ((s.core c).reg ra) ((s.core c).reg rb)
          v = u.setCore c { corePast (s.core c) n with prl := r.setWidth 32, prh := r.extractLsb' 32 32 }))
    ∧ (∀ i sg, ((i, sg) ∈ [(Instr.macs c p ra rb, true), (.macu c p ra rb, false)]) → RunsOnce i c p n s u → (s.core c).mul = [] →
      Does i s fun t => t = u.setCore c (t.core c) ∧ { t.core c with mul := [] } = corePast (s.core c) n ∧ Does (.multiplyLands c) t fun v =>
          let r := product sg false ((s.core c).reg ra) ((s.core c).reg rb)
          let e := (s.core c).pacc.toInt + r.toInt
          (v.core c).prl = r.setWidth 32 ∧ (v.core c).prh = r.extractLsb' 32 32
          ∧ (p.sat = false → (v.core c).pacc = (s.core c).pacc + r.setWidth 48 ∧ (v.core c).psw = (s.core c).psw)
          ∧ (p.sat = true → (v.core c).pacc.toInt = clampI (-(2 ^ 47)) (2 ^ 47 - 1) e
              ∧ (v.core c).psw = if e < -(2 ^ 47) ∨ 2 ^ 47 ≤ e then (s.core c).psw ||| 0x10#32 else (s.core c).psw)
          ∧ v = u.setCore c { corePast (s.core c) n with prl := (v.core c).prl, prh := (v.core c).prh, pacc := (v.core c).pacc, psw := (v.core c).psw })
    ∧ (RunsOnce (.clracc c p) c p n s u → (s.core c).mul = [] → Does (.clracc c p) s fun t => (t.core c).pacc = (s.core c).pacc
      ∧ Does (.multiplyLands c) t fun v => v = u.setCore c { corePast (s.core c) n with pacc := 0 }))
  ∧ (∀ (c : CoreId) (s : State) (m : MulOp) (l : List MulOp), (s.core c).mul = m :: l → Does (.multiplyLands c) s fun t => (t.core c).mul = l
      ∧ (t.core c).w = (s.core c).w ∧ (t.core c).pc = (s.core c).pc ∧ t = s.setCore c (t.core c)
      ∧ ∀ lo hi, m = .prod lo hi → t = s.setCore c { s.core c with mul := l, prl := lo, prh := hi })
  ∧ (∀ (c : CoreId) (p : Prefixes) (d : RegNo) (k : Fin 16) (n : Nat) (s u : State), (s.core c).w.length = 15 →
    RunsOnce (.movsFromSpecial c p d k) c p n s u → Does (.movsFromSpecial c p d k) s fun t =>
      let x := s.core c
      (k = 0 → (t.core c).reg d = x.psw) ∧ (k = 1 → (t.core c).reg d = x.prl) ∧ (k = 2 → (t.core c).reg d = x.prh)
      ∧ (k = 3 → (t.core c).reg d = x.pacc.setWidth 32) ∧ (k = 4 → (t.core c).reg d = (x.pacc.extractLsb' 32 16).signExtend 32)
      ∧ (k = 5 → (t.core c).reg d = x.rpc) ∧ (k = 6 → (t.core c).reg d = x.ssp) ∧ (k = 7 → (t.core c).reg d = x.usp)
      ∧ (∀ j, j ≠ d → (t.core c).reg j = x.reg j) ∧ (t.core c).psw = x.psw ∧ (t.core c).pc = x.pc + BitVec.ofNat 32 n
      ∧ t = u.setCore c (t.core c))
  ∧ (∀ (c : CoreId) (p : Prefixes) (k : Fin 16) (r : RegNo) (n : Nat) (s u : State), RunsOnce (.movsToSpecial c p k r) c p n s u →
    (s.core c).mul = [] →
    let x := corePast (s.core c) n
    let v := (s.core c).reg r
    (k = 0 → (s.core c).user = false → Does (.movsToSpecial c p k r) s fun t =>
        t = u.setCore c { x with psw := v &&& (match c with | .a => 0x1FF1F#32 | .g => 0x19F1F#32) })
    ∧ (k = 0 → (s.core c).user = true → Does (.movsToSpecial c p k r) s fun t =>
        t = u.setCore c { x with psw := (x.psw &&& ~~~0x1F#32) ||| (v &&& 0x1F#32) })
    ∧ (k = 5 → Does (.movsToSpecial c p k r) s fun t => t = u.setCore c { x with rpc := v })
    ∧ (k = 6 → (s.core c).user = false → Does (.movsToSpecial c p k r) s fun t => t = u.setCore c { x with ssp := v })
    ∧ (k = 7 → Does (.movsToSpecial c p k r) s fun t => t = u.setCore c { x with usp := v })
    ∧ (1 ≤ k.val ∧ k.val ≤ 4 → Does (.movsToSpecial c p k r) s fun t => (t.core c).prl = x.prl ∧ (t.core c).pacc = x.pacc
        ∧ Does (.multiplyLands c) t fun z => z = u.setCore c (match k.val with
          | 1 => { x with prl := v } | 2 => { x with prh := v } | 3 => { x with pacc := x.pacc.extractLsb' 32 16 ++ v }
          | _ => { x with pacc := v.setWidth 16 ++ x.pacc.setWidth 32 })))

/-- R322, R325, R326. Where the manual leaves a choice it follows the model's, log entries 90, 93.
States that these commands complete (`exec` answers a next state), each under conditions on the state and its operands alone: ld, st, push,
pop, lea, cpy, fill, scan, multiplyLands, macsm, macum. -/
def Obligations.TanumMemory : Prop :=
  (∀ (c : CoreId) (p : Prefixes) (r : RegNo) (mode : MemMode) (n : Nat) (s u : State), (s.core c).w.length = 15 → PlainFor s c →
    let x := s.core c
    let k := p.size
    let a := (match mode with
      | .base b | .postInc b => x.reg b
      | .disp8 b d => x.reg b + d.signExtend 32
      | .disp16 b d => x.reg b + d.signExtend 32
      | .preDec b => x.reg b - BitVec.ofNat 32 k
      | .pcRel d => x.pc + d.signExtend 32).toNat
    let y := match mode with
      | .postInc b => x.setReg b (x.reg b + BitVec.ofNat 32 k)
      | .preDec b => x.setReg b (x.reg b - BitVec.ofNat 32 k)
      | _ => x
    InRam c a k →
    (RunsOnce (.ld c p r mode) c p n s u → Does (.ld c p r mode) s fun t =>
      let m := coreBytes s c a k
      t = u.setCore c (corePast (y.setReg r (match p.width with
        | some .w8s => (BitVec.ofNat 8 m).signExtend 32
        | some .w16s => (BitVec.ofNat 16 m).signExtend 32
        | _ => BitVec.ofNat 32 m)) n))
    ∧ (RunsOnce (.st c p r mode) c p n s u → Does (.st c p r mode) s fun t => Stored u t c (corePast y n) a k (x.reg r).toNat))
  ∧ (∀ (c : CoreId) (p : Prefixes) (r : RegNo) (n : Nat) (s u : State), (s.core c).w.length = 15 → PlainFor s c →
    let x := s.core c
    (RunsOnce (.push c p r) c p n s u → InRam c (x.reg 15 - 4#32).toNat 4 → Does (.push c p r) s fun t =>
      Stored u t c (corePast (x.setReg 15 (x.reg 15 - 4#32)) n) (x.reg 15 - 4#32).toNat 4 (x.reg r).toNat)
    ∧ (RunsOnce (.pop c p r) c p n s u → InRam c (x.reg 15).toNat 4 → Does (.pop c p r) s fun t =>
      t = u.setCore c (corePast ((x.setReg 15 (x.reg 15 + 4#32)).setReg r (BitVec.ofNat 32 (coreBytes s c (x.reg 15).toNat 4))) n))
    ∧ ∀ (q : RegNo) (d : BitVec 16), RunsOnce (.lea c p r q d) c p n s u → Does (.lea c p r q d) s fun t =>
      t = u.setCore c (corePast (x.setReg r (x.reg q + d.signExtend 32)) n))
  ∧ (∀ (c : CoreId) (p : Prefixes) (n : Nat) (s u : State), (s.core c).w.length = 15 → PlainFor s c →
    let x := s.core c
    let k := p.size
    let up (z : Core) (r : RegNo) : Core := z.setReg r (z.reg r + BitVec.ofNat 32 k)
    (RunsOnce (.cpy c p) c p n s u → InRam c (x.reg 0).toNat k → InRam c (x.reg 1).toNat k → Does (.cpy c p) s fun t =>
      Stored u t c (corePast (up (up x 0) 1) n) (x.reg 1).toNat k (coreBytes s c (x.reg 0).toNat k))
    ∧ (RunsOnce (.fill c p) c p n s u → InRam c (x.reg 1).toNat k → Does (.fill c p) s fun t =>
      Stored u t c (corePast (up x 1) n) (x.reg 1).toNat k (x.reg 2).toNat)
    ∧ (RunsOnce (.scan c p) c p n s u → InRam c (x.reg 0).toNat k → Does (.scan c p) s fun t =>
      let v := p.extend (coreBytes s c (x.reg 0).toNat k)
      t = u.setCore c (t.core c) ∧ (t.core c).flagZ = decide (v = x.reg 2) ∧ (t.core c).flagC = decide ((x.reg 2).toNat ≤ v.toNat)
      ∧ (t.core c).flagN = (v - x.reg 2).msb
      ∧ (t.core c).flagV = decide (v.toInt - (x.reg 2).toInt < -(2 ^ 31) ∨ 2 ^ 31 ≤ v.toInt - (x.reg 2).toInt)
      ∧ { t.core c with psw := x.psw } = corePast (up x 0) n)
    ∧ (∀ i sg, ((i, sg) ∈ [(Instr.macsm c p, true), (.macum c p, false)]) → RunsOnce i c p n s u → InRam c (x.reg 0).toNat k →
      InRam c (x.reg 1).toNat k → x.mul = [] → Does i s fun t => t = u.setCore c (t.core c)
        ∧ { t.core c with mul := [] } = corePast (up (up x 0) 1) n
        ∧ (p.sat = false → Does (.multiplyLands c) t fun v => (v.core c).pacc = x.pacc
          + (product sg false (p.extend (coreBytes s c (x.reg 0).toNat k)) (p.extend (coreBytes s c (x.reg 1).toNat k))).setWidth 48)))
  ∧ (∀ (k : Byte) (n : Nat) (s u : State), Executes (.fill .g { rep := some (.rep k) }) .g { rep := some (.rep k) } n s u → s.coreG.rp = false →
    s.coreG.w.length = 15 → 0 < k.toNat → InRam .g (s.coreG.reg 1).toNat 4 → InRam .g ((s.coreG.reg 1).toNat + 4 * (k.toNat - 1)) 4 →
    Does (.fill .g { rep := some (.rep k) }) s fun t => t.coreG.reg 1 = s.coreG.reg 1 + BitVec.ofNat 32 (4 * k.toNat)
      ∧ (∀ j, j < k.toNat → t.glade.wordAt ((s.coreG.reg 1).toNat + 4 * j) = (s.coreG.reg 2).toNat)
      ∧ (∀ b, (b < (s.coreG.reg 1).toNat ∨ (s.coreG.reg 1).toNat + 4 * k.toNat ≤ b) → t.glade.byteAt b = s.glade.byteAt b)
      ∧ t.coreG.pc = s.coreG.pc + BitVec.ofNat 32 n ∧ t.coreG.rpc = 0)

/-- R311 to R313, R322, R325. Where the manual leaves a choice it follows the model's, log entries 90, 93, 94.
States that these commands complete (`exec` answers a next state), each under conditions on the state and its operands alone: br, call, jmp,
callr, dbnz, ret, wait, svc, reti, nop, sync. -/
def Obligations.TanumControl : Prop :=
  (∀ (c : CoreId) (p : Prefixes) (n : Nat) (s u : State), (s.core c).w.length = 15 →
    let x := s.core c
    let next := x.pc + BitVec.ofNat 32 n
    let go (z : Core) (a : Word) : State := u.setCore c { z with pc := a, matched := false, waiting := false, atomic := false, mpuOld := [] }
    (∀ d : Byte, RunsOnce (.br c p (.d8 d)) c p n s u → Does (.br c p (.d8 d)) s fun t => t = go x (next + d.signExtend 32))
    ∧ (∀ d : BitVec 16, (RunsOnce (.br c p (.d16 d)) c p n s u → Does (.br c p (.d16 d)) s fun t => t = go x (next + d.signExtend 32))
      ∧ (RunsOnce (.call c p (.d16 d)) c p n s u → Does (.call c p (.d16 d)) s fun t => t = go (x.setReg 14 next) (next + d.signExtend 32)))
    ∧ (∀ d : Word, RunsOnce (.call c p (.d32 d)) c p n s u → Does (.call c p (.d32 d)) s fun t => t = go (x.setReg 14 next) (next + d))
    ∧ (∀ r : RegNo, (RunsOnce (.jmp c p r) c p n s u → Does (.jmp c p r) s fun t => t = go x (x.reg r &&& ~~~1#32))
      ∧ (RunsOnce (.callr c p r) c p n s u → Does (.callr c p r) s fun t => t = go (x.setReg 14 next) (x.reg r &&& ~~~1#32))
      ∧ ∀ d : Byte, RunsOnce (.dbnz c p r d) c p n s u → Does (.dbnz c p r d) s fun t =>
          t = go (x.setReg r (x.reg r - 1#32)) (if x.reg r = 1#32 then next else next + d.signExtend 32))
    ∧ (RunsOnce (.ret c p) c p n s u → Does (.ret c p) s fun t => t = go x (x.reg 14))
    ∧ (∀ i ∈ [Instr.nop c p, .sync c p], RunsOnce i c p n s u → Does i s fun t => t = go x next))
  ∧ (∀ (n : Nat) (s u : State), RunsOnce (.wait .g {}) .g {} n s u → s.coreG.user = false → Does (.wait .g {}) s fun t =>
      t = u.setCore .g { corePast s.coreG n with waiting := true })
  ∧ (∀ (n : Nat) (s u : State), RunsOnce (.wait .a {}) .a {} n s u → s.coreA.user = false →
    let v := u.setCore .a (corePast s.coreA n)
    let q := v.pwrTarget
    (v.irqActs q = true → Does (.wait .a {}) s fun t => t = v)
    ∧ (v.irqActs q = false → v.wakeNow q ≠ 0 → Does (.wait .a {}) s fun t =>
        t = { v with pwr := { v.pwr with wakePend := v.pwr.wakePend - v.wakeNow q } })
    ∧ (v.irqActs q = false → v.wakeNow q = 0 → v.entryCause q = 0 → v.tst.banks = [] → Does (.wait .a {}) s fun t => t.coreA.waiting = true
        ∧ t.coreA.pc = s.coreA.pc + BitVec.ofNat 32 n ∧ t.pwr.st = q ∧ t.mem = u.mem ∧ t.cad = u.cad)
    ∧ (v.irqActs q = false → v.wakeNow q = 0 → v.entryCause q ≠ 0 → Does (.wait .a {}) s fun t => t.coreA = corePast s.coreA n
        ∧ t.fbit PWR_STAT.REFUSED = true ∧ t.fget PWR_STAT.CAUSE = v.entryCause q ∧ t.fget (INT_RAW.bit Pg.PWR 0) = 1 ∧ t.pwr.st = u.pwr.st
        ∧ t.mem = u.mem))
  ∧ (∀ (c : CoreId) (k : Byte) (n : Nat) (s u : State), RunsOnce (.svc c {} k) c {} n s u → StackReady u c → (s.core c).mul = [] →
      Does (.svc c {} k) s fun t => Entered u t c (corePast (s.core c) n) 8 ∧ (t.core c).ie = (s.core c).ie ∧ (t.core c).inFault = false)
  ∧ (∀ (c : CoreId) (n : Nat) (s u : State), RunsOnce (.reti c {}) c {} n s u → (s.core c).user = false → PlainFor s c →
    let sp := (s.core c).ssp.toNat
    let psw := BitVec.ofNat 32 (coreBytes s c (sp + 4) 4)
    let vec := coreBytes s c (sp + 12) 4
    InRam c sp 4 → InRam c (sp + 12) 4 → vec < 256 → (c = .g → psw.getLsbD 13 = false) → Does (.reti c {}) s fun t =>
      t.core c = { s.core c with pc := BitVec.ofNat 32 (coreBytes s c sp 4), psw := psw &&& (match c with | .a => 0x1FF1F#32 | .g => 0x19F1F#32)
                                 rpc := BitVec.ofNat 32 (coreBytes s c (sp + 8) 4), ssp := (s.core c).ssp + 16#32, matched := false, waiting := false
                                 atomic := false, mpuOld := [] }
      ∧ (c = .a → 32 ≤ vec → vec < 128 → bitOf (t.raw (ICU_ACT.addr ((vec - 32) / 32))) ((vec - 32) % 32) = false)
      ∧ (c = .g → 16 ≤ vec → vec < 32 → bitOf (t.raw GCORE_IACT.addr) (vec - 16) = false) ∧ t.mem = s.mem ∧ t.glade.mem = s.glade.mem)

/-- R308 to R312, R315, R316, R329, R461. Where the manual leaves a choice it follows the model's, log entries 93, 95, 96.
States that these commands complete (`exec` answers a next state), each under conditions on the state and its operands alone:
illegalEncoding, fetchBusError, ld, exceptionEntry, cacheInv, icacheInvalidateAll, dcacheInvalidateAll, invalidationDone, dbgHalt,
dbgResume, dbgStep, dbgRegDataAccess, breakpointMatch. -/
def Obligations.TanumExceptions : Prop :=
  (∀ (c : CoreId) (s : State), s.coreRuns c = true → s.coreA.stepping = false → s.bpStops c = none →
    (∀ l k v u, illegalAt l = some k → s.fetch c k = .ok v u → StackReady u c → Does (.illegalEncoding c l) s fun t =>
      Entered u t c (s.core c).landAll 5 ∧ (t.core c).inFault = true ∧ (t.core c).ie = false
      ∧ (c = .a → t.raw CORE_FAR.addr = s.coreA.pc.toNat ∧ t.raw CORE_FINFO.addr % 256 = 5))
    ∧ (∀ (k : Fin 8) f u, s.fetch c (k.val + 1) = .fault f u → StackReady u c → Does (.fetchBusError c k) s fun t => (f.vec = 1 ∨ f.vec = 3)
      ∧ (∃ j, j ≤ k.val ∧ f.far = (s.core c).pc.toNat + j) ∧ Entered u t c (s.core c).landAll f.vec ∧ (t.core c).inFault = true
      ∧ (c = .a → t.raw CORE_FAR.addr = f.far % 2 ^ 32 ∧ t.raw CORE_FINFO.addr % 256 = f.vec))
    ∧ (∀ (k : Fin 8) v u, s.fetch c (k.val + 1) = .ok v u → Does (.fetchBusError c k) s fun t => t = s))
  ∧ (∀ (p : Prefixes) (r b : RegNo) (n : Nat) (s u : State), RunsOnce (.ld .a p r (.base b)) .a p n s u → StackReady u .a →
    regionOf (s.coreA.reg b).toNat = .hole → Does (.ld .a p r (.base b)) s fun t => Entered u t .a s.coreA.landAll 2
      ∧ t.raw CORE_FAR.addr = (s.coreA.reg b).toNat ∧ t.raw CORE_FINFO.addr % 256 = 2)
  ∧ (∀ (s : State) (k : Fin 8) f u, s.flash.op.isSome → s.coreRuns .a = true → s.coreA.stepping = false → s.coreA.inFault = true →
    s.bpMatch = none → s.fetch .a (k.val + 1) = .fault f u → Does (.fetchBusError .a k) s fun t => t.coreA = { halted := s.coreA.halted } ∧ t.caches = {} ∧ t.sys = { s.sys with warm := true }
      ∧ t.raw SYS_RSTCAUSE.addr = s.raw SYS_RSTCAUSE.addr ||| 256 ∧ t.mem = s.mem ∧ t.ntu = s.ntu ∧ t.cad = s.cad ∧ t.glade = s.glade)
  ∧ (∀ (c : CoreId) (s : State), s.coreRuns c = true → s.coreA.stepping = false → (s.core c).atomic = false → StackReady s c →
    (∀ k, c = .a → s.irqTaken = some k → s.flashStalls k = false → Does (.exceptionEntry c) s fun t => Entered s t c s.coreA.landAll (32 + k)
      ∧ t.coreA.pri = s.irqLevel k ∧ t.coreA.ie = s.coreA.ie ∧ bitOf (t.raw (ICU_ACT.addr (k / 32))) (k % 32) = true
      ∧ (64 ≤ k → bitOf t.coreA.edge (k - 64) = false))
    ∧ (∀ k, c = .g → s.gTaken = some k → Does (.exceptionEntry c) s fun t => Entered s t c s.coreG.landAll (16 + k)
      ∧ t.coreG.pri = s.gLevel k ∧ bitOf (t.raw GCORE_IACT.addr) k = true)
    ∧ (s.lineWaits c = false → Does (.exceptionEntry c) s fun t => t = s))
  ∧ (∀ (s : State) (v : Word), s.coreRuns .a = true → s.coreA.user = false →
    (Does (.cacheInv v) s fun t => t = { s with caches := t.caches, coreA := { s.coreA with mpuOld := [] } } ∧ t.caches.inv = s.caches.inv
      ∧ (∀ l ∈ t.caches.dc ++ t.caches.ic, l.base ≠ v.toNat / 32 * 32)
      ∧ ∀ l, l.base ≠ v.toNat / 32 * 32 → (l ∈ t.caches.dc ↔ l ∈ s.caches.dc) ∧ (l ∈ t.caches.ic ↔ l ∈ s.caches.ic))
    ∧ (v.getLsbD 2 = true → v.getLsbD 3 = false → Does (.icacheInvalidateAll v) s fun t => t.caches = { s.caches with ic := [], inv := true }
      ∧ t = { s with caches := t.caches, regs := t.regs, coreA := { s.coreA with mpuOld := [] } } ∧ ∀ a, a ≠ CACHE_CTRL.addr → t.rget a = s.rget a)
    ∧ (v.getLsbD 3 = true → v.getLsbD 2 = false → Does (.dcacheInvalidateAll v) s fun t => t.caches = { s.caches with dc := [], inv := true }
      ∧ t = { s with caches := t.caches, regs := t.regs, coreA := { s.coreA with mpuOld := [] } } ∧ ∀ a, a ≠ CACHE_CTRL.addr → t.rget a = s.rget a))
  ∧ (∀ s : State, Does .invalidationDone s fun t => t = { s with caches := { s.caches with inv := false } })
  ∧ (∀ (s : State) (m : Master), NothingOwed s → Accepted s ⟨m, .base⟩ DBG_RUN.addr →
    (Does (.dbgHalt m) s fun t => t.coreA = { s.coreA.landAll with halted := true, stepping := false } ∧ t.mem = s.mem)
    ∧ (Does (.dbgResume m) s fun t => t.coreA = { s.coreA with halted := false, stepping := false } ∧ t.mem = s.mem)
    ∧ (s.coreA.halted = true → Does (.dbgStep m) s fun t => t.coreA = { s.coreA with stepping := true } ∧ t.mem = s.mem)
    ∧ (s.coreA.halted = false → Does (.dbgStep m) s fun t => t.coreA = s.coreA ∧ t.mem = s.mem))
  ∧ (∀ (s : State) (m : Master) (v : Word), NothingOwed s → s.coreA.halted = true → s.coreA.w.length = 15 →
    (Accepted s ⟨m, .base⟩ DBG_REG_DATA.addr → ∀ k : RegNo, s.fget DBG_REG_IDX.IDX = k.val → Does (.dbgRegDataAccess ⟨m, .base⟩ (some v)) s fun t =>
      t.coreA = s.coreA.setReg k v ∧ t.mem = s.mem)
    ∧ (MayRead s m DBG_REG_DATA.addr → (∀ k : RegNo, s.fget DBG_REG_IDX.IDX = k.val → Does (.dbgRegDataAccess ⟨m, .base⟩ none) s fun t =>
        t.bus.data = s.coreA.reg k ∧ t.coreA = s.coreA)
      ∧ (s.fget DBG_REG_IDX.IDX = 24 → Does (.dbgRegDataAccess ⟨m, .base⟩ none) s fun t => t.bus.data = s.coreA.pc)))
  ∧ (∀ (s : State) (k : Fin 4), s.coreRuns .a = true → s.bpMatch = some k.val →
    (s.fbit (DBG_BP_CFG.ACT k) = false → Does (.breakpointMatch k) s fun t => t.coreA = { s.coreA.landAll with halted := true, stepping := false, matched := true }
      ∧ t.fbit DBG_STAT.BKPT = true ∧ t.fget DBG_STAT.BKPT_IDX = k.val ∧ PagesOnly [Pg.DBG] { s with coreA := t.coreA } t)
    ∧ (s.fbit (DBG_BP_CFG.ACT k) = true → s.coreA.stepping = false → StackReady s .a → Does (.breakpointMatch k) s fun t =>
        ∃ m, PagesOnly [Pg.DBG] s m ∧ Entered m t .a s.coreA.landAll 10 ∧ t.fbit DBG_STAT.BKPT = true))

/-- R340 to R346, R348. Where the manual leaves a choice it follows the model's, log entry 100.
States that these commands complete (`exec` answers a next state), each under conditions on the state and its operands alone: flcKeyWrite,
eraseBlk, prog, setSlc, marginRd, suspend, flcResume, clrStat, eraseSuspended, flcWpWrite, flcDisable. -/
def Obligations.FlashCommands : Prop :=
  (∀ (s : State) (m : Master) (v : Word), Accepted s ⟨m, .base⟩ FLC_KEY.addr → s.fbit FLC_STAT.KEY_LOCK = false →
    let good := (s.flash.stage ≠ 1 ∧ v.toNat % 65536 = 0x7B3A) ∨ (s.flash.stage = 1 ∧ v.toNat % 65536 = 0xE41D)
    (good → Does (.flcKeyWrite m v) s fun u =>
      u.flash = { s.flash with stage := if s.flash.stage = 1 then 2 else 1, wrong := 0, data := [] }
      ∧ u = { s with flash := u.flash, regs := u.regs, bus := u.bus } ∧ RegsOff (fun _ => false) s u)
    ∧ (¬good → Does (.flcKeyWrite m v) s fun u => u.flash = { s.flash with stage := 0, wrong := s.flash.wrong + 1, data := [] }
      ∧ u.fbit FLC_STAT.REFUSED = true ∧ u.fget FLC_STAT.CAUSE = 2 ∧ u.fbit FLC_STAT.KEY_LOCK = decide (2 ≤ s.flash.wrong)
      ∧ RegsOff (· == FLC_STAT.addr) s u ∧ u.mem = s.mem))
  ∧ (∀ (s : State) (m : Master) (v : Word), Accepted s ⟨m, .base⟩ FLC_KEY.addr → s.fbit FLC_STAT.KEY_LOCK = true →
    Does (.flcKeyWrite m v) s fun u => u.flash.stage = 0 ∧ u.fget FLC_STAT.CAUSE = 2 ∧ u.fbit FLC_STAT.REFUSED = true ∧ u.flash.op = s.flash.op)
  ∧ (∀ (s : State) (m : Master) (v : Word), Accepted s ⟨m, .base⟩ FLC_ADDR.addr →
    let a := v.toNat % 2 ^ 23
    (s.flash.stage = 3 → s.flash.cmd = 2 → s.blockWp (a / 0x20000) = false →
      (s.fbit FLC_CTRL.EN = true → s.flash.op = none → s.flash.susp = none → s.updBusy = false → Does (.eraseBlk m v) s fun u =>
        u.flash = { s.flash with op := some ⟨2, a, [], false⟩, stage := 0, addr := a, data := [] }
        ∧ u.fget FLC_OPMARK.OP = 2 ∧ u.fget FLC_OPMARK.BLOCK = a / 0x20000 ∧ u.fbit FLC_OPMARK.DONE = false ∧ u.fbit FLC_OPMARK.VALID = true
        ∧ (∀ l ∈ u.caches.ic ++ u.caches.dc, l.base / 0x20000 ≠ a / 0x20000) ∧ RegsOff (· == FLC_OPMARK.addr) s u
        ∧ u = { s with flash := u.flash, regs := u.regs, bus := u.bus, caches := u.caches })
      ∧ ((s.fbit FLC_CTRL.EN = false ∨ s.flash.op.isSome ∨ s.flash.susp.isSome ∨ s.updBusy = true) → Does (.eraseBlk m v) s fun u =>
        u.fget FLC_STAT.CAUSE = 7 ∧ u.fbit FLC_STAT.REFUSED = true ∧ u.flash.op = s.flash.op ∧ u.flash.stage = 0 ∧ u.mem = s.mem))
    ∧ (s.flash.stage = 3 → s.flash.cmd = 2 → s.blockWp (a / 0x20000) = true → Does (.eraseBlk m v) s fun u => u.fget FLC_STAT.CAUSE = 4
        ∧ u.fbit FLC_STAT.REFUSED = true ∧ u.flash.op = s.flash.op ∧ u.flash.stage = 0 ∧ u.mem = s.mem)
    ∧ (s.flash.stage ≠ 3 → Does (.eraseBlk m v) s fun u => u.fget FLC_STAT.CAUSE = 1 ∧ u.fbit FLC_STAT.REFUSED = true ∧ u.flash.op = s.flash.op
        ∧ u.flash.stage = 0 ∧ u.mem = s.mem))
  ∧ (∀ (s : State) (m : Master) (v : Word), Accepted s ⟨m, .base⟩ FLC_DATA.addr → s.flash.stage = 4 →
    let a := s.flash.addr
    (s.flash.cmd = 1 →
      (s.flash.data.length < 511 → Does (.prog m v) s fun u => u.flash = { s.flash with data := s.flash.data ++ [v] }
        ∧ u = { s with flash := u.flash, regs := u.regs, bus := u.bus } ∧ RegsOff (fun _ => false) s u)
      ∧ (s.flash.data.length = 511 → a < 2 ^ 23 →
        (a % 2048 = 0 → s.inWindow a = true → s.blockWp (a / 0x20000) = false → s.pageErased a = true → s.blockSlc (a / 0x20000) = true →
          s.fbit FLC_CTRL.EN = true → s.flash.op = none → s.flash.susp = none → s.updBusy = false → Does (.prog m v) s fun u =>
            u.flash.op = some ⟨1, a, s.flash.data ++ [v], false⟩ ∧ u.fget FLC_OPMARK.OP = 1 ∧ u.fget FLC_OPMARK.PAGE = a % 0x20000 / 2048
            ∧ u.fget FLC_OPMARK.BLOCK = a / 0x20000 ∧ u.fbit FLC_OPMARK.DONE = false ∧ u.mem = s.mem ∧ RegsOff (· == FLC_OPMARK.addr) s u)
        ∧ (∀ c, (c = 3 ∧ (a % 2048 ≠ 0 ∨ s.inWindow a = false)) ∨ (c = 4 ∧ a % 2048 = 0 ∧ s.inWindow a = true ∧ s.blockWp (a / 0x20000) = true)
            ∨ (c = 5 ∧ a % 2048 = 0 ∧ s.inWindow a = true ∧ s.blockWp (a / 0x20000) = false ∧ s.pageErased a = false) →
          Does (.prog m v) s fun u => u.fget FLC_STAT.CAUSE = c ∧ u.fbit FLC_STAT.REFUSED = true ∧ u.flash.op = s.flash.op ∧ u.flash.stage = 0
            ∧ u.mem = s.mem)))
    ∧ (s.fbit FLC_CTRL.EN = true → s.flash.op = none → s.flash.susp = none → s.updBusy = false →
      (s.flash.cmd = 5 → s.blockWp (a / 0x20000) = false → Does (.setSlc m v) s fun u => u.flash.op = some ⟨5, a, [v], false⟩
        ∧ u.fget FLC_OPMARK.OP = 5 ∧ u.mem = s.mem)
      ∧ (s.flash.cmd = 6 → a % 2048 = 0 → s.inWindow a = true → Does (.marginRd m v) s fun u => u.flash.op = some ⟨6, a, [v], false⟩
        ∧ u.rget FLC_OPMARK.addr = s.rget FLC_OPMARK.addr ∧ u.mem = s.mem)))
  ∧ (∀ (s : State) (m : Master), Accepted s ⟨m, .base⟩ FLC_CMD.addr → s.fbit FLC_CTRL.EN = true →
    (∀ o, s.flash.op = some o → (o.cmd = 2 ∨ o.cmd = 5) → s.flash.suspReq = false → Does (.suspend m) s fun u =>
      u.flash = { s.flash with suspReq := true } ∧ u = { s with flash := u.flash, regs := u.regs, bus := u.bus } ∧ RegsOff (fun _ => false) s u)
    ∧ (s.flash.op = none → Does (.suspend m) s fun u => u.flash = s.flash ∧ u.fget FLC_STAT.CAUSE = 8 ∧ u.fbit FLC_STAT.REFUSED = true)
    ∧ (∀ o, s.flash.susp = some o → s.flash.op = none → Does (.flcResume m) s fun u => u.flash = { s.flash with op := some o, susp := none }
      ∧ u = { s with flash := u.flash, regs := u.regs, bus := u.bus } ∧ RegsOff (fun _ => false) s u)
    ∧ (s.flash.susp = none → Does (.flcResume m) s fun u => u.flash = s.flash ∧ u.fget FLC_STAT.CAUSE = 8 ∧ u.fbit FLC_STAT.REFUSED = true)
    ∧ (Does (.clrStat m) s fun u => u.fget FLC_STAT.SUSP_HIT = 0 ∧ u.fget FLC_STAT.PROG_FAIL = 0 ∧ u.fget FLC_STAT.ERASE_FAIL = 0
      ∧ u.fget FLC_STAT.WEAR = 0 ∧ u.fget FLC_STAT.UNCORR = 0 ∧ u.fget FLC_STAT.REFUSED = 0 ∧ u.fget FLC_STAT.EN_REFUSED = 0
      ∧ u.fget FLC_STAT.KEY_LOCK = s.fget FLC_STAT.KEY_LOCK ∧ u.flash = s.flash ∧ RegsOff (· == FLC_STAT.addr) s u))
  ∧ (∀ s : State, (s.flash.suspReq = true → s.upd.stop = false → s.upd.accept = false → Does .eraseSuspended s fun u => u = { s with flash := { s.flash with susp := s.flash.op, op := none, suspReq := false } })
      ∧ (s.flash.suspReq = false → Does .eraseSuspended s fun u => u = s))
  ∧ (∀ (s : State) (a : Acc) (hi : Bool) (v : Word),
    let x := if hi then FLC_WP_HI.addr else FLC_WP_LO.addr
    Accepted s a x → Does (.flcWpWrite a hi v) s fun u => u.rget x = (if a.view = .base ∨ a.view = .set then s.rget x ||| v else s.rget x)
      ∧ RegsOff (· == x) s u ∧ u = { s with regs := u.regs, bus := u.bus })
  ∧ (∀ (s : State) (m : Master), Accepted s ⟨m, .base⟩ FLC_CTRL.addr → s.fbit FLC_CTRL.EN = true →
    ((s.flash.op.isSome ∨ s.flash.susp.isSome) → Does (.flcDisable ⟨m, .base⟩ 0#32) s fun u => u.fbit FLC_CTRL.EN = true
      ∧ u.fbit FLC_STAT.EN_REFUSED = true ∧ u.flash = s.flash ∧ u.mem = s.mem)
    ∧ (s.flash.op = none → s.flash.susp = none → Does (.flcDisable ⟨m, .base⟩ 0#32) s fun u => u.fbit FLC_CTRL.EN = false
      ∧ u.fget FLC_STAT.EN_REFUSED = s.fget FLC_STAT.EN_REFUSED ∧ u.flash = s.flash ∧ u.mem = s.mem))

/-- R341, R347 to R349. Where the manual leaves a choice it follows the model's, log entries 100, 101.
States that these commands complete (`exec` answers a next state), each under conditions on the state and its operands alone: flashOpDone. -/
def Obligations.FlashOperations : Prop :=
  ∀ (s : State) (p : BitVec 5) (c : BitVec 9) (unc : Bool), NothingOwed s → s.upd.stop = false → s.upd.accept = false →
  (s.flash.op = none → ∀ ok, Does (.flashOpDone ok p c unc) s fun u => u = s)
  ∧ (∀ o, s.flash.op = some o → o.addr < 2 ^ 23 →
    let b := o.addr / 0x20000
    ((o.cmd = 2 ∨ o.cmd = 5) →
      (Does (.flashOpDone true p c unc) s fun u => u.flash.op = none ∧ u.flash.susp = s.flash.susp
        ∧ (∀ x, x / 0x20000 = b → u.byteAt x = 0xFF#8) ∧ (∀ x, x / 0x20000 ≠ b → u.byteAt x = s.byteAt x)
        ∧ (∀ k ∈ u.flash.indet, k / 64 ≠ b ∧ k ∈ s.flash.indet) ∧ u.fbit FLC_OPMARK.DONE = true ∧ u.fget (INT_RAW.bit Pg.FLC 0) = 1
        ∧ u.fget FLC_STAT.ERASE_FAIL = s.fget FLC_STAT.ERASE_FAIL
        ∧ (o.cmd = 2 → ∀ k, k < 64 → u.blockSlc k = s.blockSlc k)
        ∧ (o.cmd = 5 → ∀ k, k < 64 → u.blockSlc k = if k = b then ((o.data[0]?).getD 0#32).getLsbD 0 else s.blockSlc k))
      ∧ (Does (.flashOpDone false p c unc) s fun u => u.flash.op = none ∧ u.fbit FLC_STAT.ERASE_FAIL = true ∧ u.fget FLC_ERRINFO.KIND = 4
        ∧ u.fget FLC_ERRINFO.ADDR = o.addr ∧ u.fget (INT_RAW.bit Pg.FLC 1) = 1 ∧ u.mem = s.mem ∧ (∀ k, k / 64 = b → k ∈ u.flash.indet)
        ∧ (∀ k, k / 64 ≠ b → (k ∈ u.flash.indet ↔ k ∈ s.flash.indet)) ∧ u.fbit FLC_OPMARK.DONE = true))
    ∧ (o.cmd = 1 → o.addr % 2048 = 0 → o.data.length = 512 →
      (Does (.flashOpDone true p c unc) s fun u => u.flash.op = none ∧ (∀ i, i < 512 → u.wordAt (o.addr + 4 * i) = ((o.data[i]?).getD 0#32).toNat)
        ∧ (∀ x, x / 2048 ≠ o.addr / 2048 → u.byteAt x = s.byteAt x) ∧ (∀ k ∈ u.flash.indet, k ≠ o.addr / 2048) ∧ u.fbit FLC_OPMARK.DONE = true
        ∧ u.fget (INT_RAW.bit Pg.FLC 0) = 1 ∧ u.fget FLC_LASTPULSE.PULSES = p.toNat
        ∧ (s.wearLimit < p.toNat → u.fbit FLC_STAT.WEAR = true ∧ u.fget (INT_RAW.bit Pg.FLC 2) = 1))
      ∧ (Does (.flashOpDone false p c unc) s fun u => u.flash.op = none ∧ u.fbit FLC_STAT.PROG_FAIL = true ∧ u.fget FLC_ERRINFO.KIND = 3
        ∧ u.fget FLC_ERRINFO.ADDR = o.addr ∧ u.fget (INT_RAW.bit Pg.FLC 1) = 1 ∧ u.mem = s.mem ∧ o.addr / 2048 ∈ u.flash.indet
        ∧ (s.blockSlc b = true → ∀ k, k ≠ o.addr / 2048 → (k ∈ u.flash.indet ↔ k ∈ s.flash.indet))))
    ∧ (o.cmd = 6 → ∀ ok, Does (.flashOpDone ok p c unc) s fun u => u.flash = { s.flash with op := none, suspReq := false }
      ∧ u.fget FLC_MARGIN.LEVEL = ((o.data[0]?).getD 0#32).toNat % 4
      ∧ (if ((o.data[0]?).getD 0#32).toNat % 4 = 0 ∧ o.addr / 2048 ∉ s.flash.indet then
          let here := s.flash.lines.filter fun l => l.1 / 128 == o.addr / 2048
          u.fget FLC_MARGIN.CORR = min 256 ((here.filter fun l => l.2 < 3).map (·.2)).sum ∧ (u.fbit FLC_MARGIN.UNC = true ↔ ∃ l ∈ here, 3 ≤ l.2)
        else u.fget FLC_MARGIN.CORR = min 256 c.toNat ∧ u.fget FLC_MARGIN.UNC = unc.toNat)
      ∧ u.mem = s.mem ∧ u.rget FLC_OPMARK.addr = s.rget FLC_OPMARK.addr ∧ u.fget (INT_RAW.bit Pg.FLC 0) = 1))

/-- R354 to R358, R368. Where the manual leaves a choice it follows the model's, log entry 110.
States that these commands complete (`exec` answers a next state), each under conditions on the state and its operands alone:
ciphKeyIdxWrite, keyCommit, keyAttr, keyFc, keyErase, zeroise. -/
def Obligations.KeySlots : Prop :=
  (∀ (s : State) (a : Acc) (v : Word), Accepted s a CIPH_KEY_IDX.addr →
    let n := fieldGet (writtenTo s a CIPH_KEY_IDX.addr v) CIPH_KEY_IDX.SLOT
    Does (.ciphKeyIdxWrite a v) s fun u => u.fget CIPH_KEY_IDX.SLOT = n ∧ u.staged = [] ∧ u.keys = s.keys
      ∧ u.fbit CIPH_KEY_ATTR.SIZE = (s.keySlot n).size ∧ u.fbit CIPH_KEY_ATTR.RAD = (s.keySlot n).rad ∧ u.fbit CIPH_KEY_ATTR.SECK = (s.keySlot n).seck
      ∧ u.fget CIPH_KEY_ATTR.PGMASK = (s.keySlot n).pgmask % 256 ∧ u.raw CIPH_KEY_LIMIT.addr = (s.keySlot n).limit % 2 ^ 32
      ∧ u.raw CIPH_KEY_FC.addr = (s.keySlot n).txFc % 2 ^ 32 ∧ u = { s with regs := u.regs, bus := u.bus, staged := [] })
  ∧ (∀ (s : State) (m : Master), Accepted s ⟨m, .base⟩ CIPH_KEY_CMD.addr → s.keys.length = 32 →
    let n := s.fget CIPH_KEY_IDX.SLOT
    let k := s.keySlot n
    let others (u : State) : Prop := u.mem = s.mem ∧ u.cipu = s.cipu ∧ ∀ j, j ≠ n → u.keySlot j = s.keySlot j
    (∀ w : List Word, (∀ i, i < w.length → s.stagedWord i = w[i]?) → w.length = (if s.fbit CIPH_KEY_ATTR.SIZE then 8 else 4) →
      Does (.keyCommit m) s fun u => (u.keySlot n).key = w.flatMap (fun x => leBytesN 4 x.toNat) ∧ (u.keySlot n).valid = true ∧ (u.keySlot n).uses = 0
        ∧ (u.keySlot n).txFc = s.raw CIPH_KEY_FC.addr ∧ (u.keySlot n).limit = s.raw CIPH_KEY_LIMIT.addr
        ∧ (u.keySlot n).size = s.fbit CIPH_KEY_ATTR.SIZE ∧ (u.keySlot n).pgmask = s.fget CIPH_KEY_ATTR.PGMASK
        ∧ ((u.keySlot n).exhausted = true ↔ s.raw CIPH_KEY_LIMIT.addr = 0) ∧ (u.keySlot n).gen = k.gen + 1 ∧ u.staged = [] ∧ others u)
    ∧ ((∃ i, i < (if s.fbit CIPH_KEY_ATTR.SIZE then 8 else 4) ∧ s.stagedWord i = none) → Does (.keyCommit m) s fun u => u.keys = s.keys
        ∧ u.fbit CIPH_STAT.KEY_REFUSED = true ∧ u.fget CIPH_ERRINFO.CAUSE = 1 ∧ u.fget CIPH_ERRINFO.SLOT = n ∧ u.fget (INT_RAW.bit Pg.CIPH 1) = 1 ∧ others u)
    ∧ (s.fbit CIPH_KEY_ATTR.SIZE = k.size → Does (.keyAttr m) s fun u => (u.keySlot n).limit = s.raw CIPH_KEY_LIMIT.addr
        ∧ (u.keySlot n).pgmask = s.fget CIPH_KEY_ATTR.PGMASK ∧ (u.keySlot n).rad = s.fbit CIPH_KEY_ATTR.RAD ∧ (u.keySlot n).upd = s.fbit CIPH_KEY_ATTR.UPD
        ∧ (u.keySlot n).drv = s.fbit CIPH_KEY_ATTR.DRV ∧ (u.keySlot n).seck = s.fbit CIPH_KEY_ATTR.SECK ∧ (u.keySlot n).key = k.key
        ∧ (u.keySlot n).uses = k.uses ∧ (u.keySlot n).txFc = k.txFc ∧ (u.keySlot n).valid = k.valid ∧ others u)
    ∧ (s.fbit CIPH_KEY_ATTR.SIZE ≠ k.size → Does (.keyAttr m) s fun u => u.keys = s.keys ∧ u.fget CIPH_ERRINFO.CAUSE = 4
        ∧ u.fbit CIPH_STAT.KEY_REFUSED = true)
    ∧ (k.txFc ≤ s.raw CIPH_KEY_FC.addr → Does (.keyFc m) s fun u => u.keySlot n = { k with txFc := s.raw CIPH_KEY_FC.addr } ∧ others u)
    ∧ (s.raw CIPH_KEY_FC.addr < k.txFc → Does (.keyFc m) s fun u => u.keys = s.keys ∧ u.fget CIPH_ERRINFO.CAUSE = 2
        ∧ u.fbit CIPH_STAT.FC_REFUSED = true ∧ u.fbit CIPH_STAT.KEY_REFUSED = true)
    ∧ (Does (.keyErase m) s fun u => u.keySlot n = { gen := k.gen + 1 } ∧ others u)
    ∧ (s.cipu.length = 8 → Does (.zeroise m) s fun u => u.keyValid = 0 ∧ (∀ j, (u.keySlot j).key = []) ∧ (∀ j, (u.cipuGet j).job = none)
        ∧ u.prot.seq = (s.prot.seq + 1) % 65536 ∧ u.mem = s.mem))

/-- R360 to R367. Where the manual leaves a choice it follows the model's, log entries 110, 111.
States that these commands complete (`exec` answers a next state), each under conditions on the state and its operands alone: cipuStart,
cipuAbort, takeFc, cipuDinWrite, cipuDoutRead, cipuJobDone. -/
def Obligations.CipherJobs : Prop :=
  ∀ (s : State) (m : Master) (n : Fin 8), s.cipu.length = 8 → s.keys.length = 32 →
  let c := s.cipuGet n
  let k := s.keySlot (s.fget (CIPU_CFG.KEY n))
  (Accepted s ⟨m, .base⟩ (CIPU_CMD.addr n) →
    (∀ cause, (cause = 8 ∧ s.fbit (CIPU_CTRL.EN n) = false) ∨ (cause = 9 ∧ s.fbit (CIPU_CTRL.EN n) = true ∧ c.job.isSome)
        ∨ (cause = 6 ∧ s.fbit (CIPU_CTRL.EN n) = true ∧ c.job = none ∧ s.fget (CIPU_CFG.MODE n) = 0) →
      Does (.cipuStart m n) s fun u => u.cipu = s.cipu ∧ u.keys = s.keys ∧ u.fbit (CIPU_STAT.ERR n) = true ∧ u.fget (CIPU_ERRINFO.CAUSE n) = cause
        ∧ u.fget (CIPU_CNT.REFUSED n) = min (2 ^ (CIPU_CNT.REFUSED n).width - 1) (s.fget (CIPU_CNT.REFUSED n) + 1)
        ∧ u.fget (INT_RAW.bit (Pg.CIPU n) 1) = 1)
    ∧ (s.startCause n (s.sourceOf m).sec = 0 → Does (.cipuStart m n) s fun u => (∃ j, (u.cipuGet n).job = some j ∧ j.mode = s.fget (CIPU_CFG.MODE n)
        ∧ (j.mode ≠ 6 → j.key = k.key) ∧ j.aLen = s.fget (CIPU_ALEN.LEN n) ∧ j.mLen = s.raw (CIPU_MLEN.addr n) ∧ j.iv = s.cipuIv n
        ∧ j.aad = [] ∧ j.msg = [])
      ∧ (u.cipuGet n).din = [] ∧ u.fget (CIPU_STAT.ERR n) = 0
      ∧ u.fget (CIPU_STAT.STATE n) = (if 0 < s.fget (CIPU_ALEN.LEN n) then 1 else if 0 < s.raw (CIPU_MLEN.addr n) then 2 else 3)
      ∧ (u.keySlot (s.fget (CIPU_CFG.KEY n))).uses = (if s.cipuUses n = true ∧ c.took ≠ some (s.fget (CIPU_CFG.KEY n)) then min (2 ^ 32 - 1) (k.uses + 1) else k.uses)
      ∧ u.mem = s.mem ∧ ∀ i, i ≠ n.val → u.cipuGet i = s.cipuGet i)
    ∧ (c.job.isSome → Does (.cipuAbort m n) s fun u => (u.cipuGet n).job = none ∧ (u.cipuGet n).din = [] ∧ (u.cipuGet n).dout = []
        ∧ u.fget (CIPU_STAT.STATE n) = 0 ∧ u.fget (CIPU_ERRINFO.CAUSE n) = 10 ∧ u.fbit (CIPU_STAT.ERR n) = true
        ∧ (∀ i, i < 8 → u.raw (CIPU_TAG.addr n i) = 0) ∧ u.keys = s.keys)
    ∧ (c.job = none → Does (.cipuAbort m n) s fun u => u.fget (CIPU_STAT.ERR n) = s.fget (CIPU_STAT.ERR n) ∧ u.fget (CIPU_STAT.STATE n) = 0)
    ∧ (c.job = none → k.valid = true → k.exhausted = false → bitOf k.pgmask n = true → k.seck = false → k.txFc < 0xFFFFFFFF →
      Does (.takeFc m n) s fun u => u.raw (CIPU_IV.addr n 2) = leNatB (beBytes 4 k.txFc)
        ∧ (u.keySlot (s.fget (CIPU_CFG.KEY n))).txFc = k.txFc + 1
        ∧ (u.keySlot (s.fget (CIPU_CFG.KEY n))).uses = min (2 ^ 32 - 1) (k.uses + 1) ∧ (u.cipuGet n).took = some (s.fget (CIPU_CFG.KEY n)) ∧ u.mem = s.mem))
  ∧ (∀ v : Word, Accepted s ⟨m, .base⟩ (CIPU_DIN.addr n) →
    (c.job = none → Does (.cipuDinWrite ⟨m, .base⟩ n v) s fun u => u.fbit (CIPU_STAT.OVERFEED n) = true ∧ u.cipu = s.cipu)
    ∧ (∀ j, c.job = some j → j.mode = 6 → j.aLen = 0 → j.aad = [] → j.msg.length + 16 ≤ j.mLen → c.freed < 4 →
      (c.din.length < 3 → Does (.cipuDinWrite ⟨m, .base⟩ n v) s fun u => (u.cipuGet n).din = c.din ++ [v] ∧ (u.cipuGet n).job = some j)
      ∧ (c.din.length = 3 → Does (.cipuDinWrite ⟨m, .base⟩ n v) s fun u => (u.cipuGet n).din = []
          ∧ (u.cipuGet n).job = some { j with msg := j.msg ++ (c.din ++ [v]).flatMap fun w => leBytesN 4 w.toNat })))
  ∧ (MayRead s m (CIPU_DOUT.addr n) → c.job = none →
    (∀ w l, c.dout = w :: l → Does (.cipuDoutRead m n) s fun u => u.bus.data = w ∧ (u.cipuGet n).dout = l ∧ u.regs = s.regs)
    ∧ (c.dout = [] → Does (.cipuDoutRead m n) s fun u => u.bus.data = 0#32 ∧ u.fbit (CIPU_STAT.RD_EMPTY n) = true ∧ u.cipu = s.cipu))
  ∧ (∀ j, c.job = some j → s.fget (CIPU_STAT.STATE n) = 3 → j.mode = 5 → j.derive = false → (cmac j.key j.msg).length = 16 →
    Does (.cipuJobDone n) s fun u => (u.cipuGet n).job = none ∧ u.fget (CIPU_STAT.STATE n) = 4
      ∧ u.fget (CIPU_CNT.JOBS n) = min (2 ^ (CIPU_CNT.JOBS n).width - 1) (s.fget (CIPU_CNT.JOBS n) + 1)
      ∧ (∀ i, i < 4 → u.raw (CIPU_TAG.addr n i) = leNatB (((cmac j.key j.msg).drop (4 * i)).take 4))
      ∧ (j.chk = true → (cmac j.key j.msg).take j.tagLen ≠ j.expect.take j.tagLen → u.fbit (CIPU_STAT.AUTH_FAIL n) = true)
      ∧ u.fget (INT_RAW.bit (Pg.CIPU n) 0) = 1 ∧ u.keys = s.keys ∧ u.mem = s.mem)

/-- R371 to R375, R377, R380. Where the manual leaves a choice it follows the model's, log entry 115.
States that these commands complete (`exec` answers a next state), each under conditions on the state and its operands alone: loadTestDone,
firstPassDone, segmentDone, imageHashDone, updPause, updStart, updResume, activate, updAbort, updDisable. -/
def Obligations.UpdateRuns : Prop :=
  (∀ (s : State) (m : Master) (i : Instr) (cmd : Nat), Accepted s ⟨m, .base⟩ UPD_CMD.addr →
    (i, cmd) ∈ [(Instr.updStart m, 1), (.updResume m, 2), (.activate m, 3)] →
    (s.fbit UPD_CTRL.EN = true → s.updStateOk cmd = true → s.fbit PROT_CTRL.OLOCK = false → s.motionGate = false →
      Does i s fun u => u = { s with upd := { s.upd with test := some cmd }, regs := u.regs, bus := u.bus } ∧ RegsOff (fun _ => false) s u)
    ∧ (∀ c, (c = 14 ∧ s.fbit UPD_CTRL.EN = false) ∨ (c = 12 ∧ s.fbit UPD_CTRL.EN = true ∧ s.updStateOk cmd = false)
        ∨ (c = 3 ∧ s.fbit UPD_CTRL.EN = true ∧ s.updStateOk cmd = true ∧ s.fbit PROT_CTRL.OLOCK = true)
        ∨ (c = 1 ∧ s.fbit UPD_CTRL.EN = true ∧ s.updStateOk cmd = true ∧ s.fbit PROT_CTRL.OLOCK = false ∧ s.motionGate = true) →
      Does i s fun u => u.upd = s.upd ∧ u.fbit UPD_STAT.REFUSED = true ∧ u.fget UPD_ERRINFO.CAUSE = c ∧ u.fget UPD_STAT.STATE = s.fget UPD_STAT.STATE
        ∧ u.fget (INT_RAW.bit Pg.UPD 3) = 1 ∧ PagesOnly [Pg.UPD] { s with bus := u.bus } u))
  ∧ (∀ (s : State) (mv : BitVec 12), (s.upd.test = none → Does (.loadTestDone mv) s fun u => u = s)
    ∧ (∀ cmd, s.upd.test = some cmd →
      (mv.toNat < s.fget UPD_GATE.VMIN → Does (.loadTestDone mv) s fun u => u.upd = { s.upd with test := none } ∧ u.fget UPD_VLAST.MV = mv.toNat
        ∧ u.fget UPD_ERRINFO.CAUSE = 2 ∧ u.fbit UPD_STAT.REFUSED = true ∧ u.mem = s.mem)
      ∧ (s.fget UPD_GATE.VMIN ≤ mv.toNat → s.updKeyOk = true → s.updSlotOk = true →
        ((cmd = 1 ∨ cmd = 2) → Does (.loadTestDone mv) s fun u => u.fget UPD_STAT.STATE = 1 ∧ u.fget UPD_STAT.SEG = 0 ∧ u.raw UPD_PROG.addr = 0
          ∧ u.upd = { run := some { resume := decide (cmd = 2), key := (s.keySlot (s.fget UPD_CFG.KEY)).key } } ∧ u.mem = s.mem)
        ∧ (cmd = 3 → Does (.loadTestDone mv) s fun u => u.fget UPD_STAT.STATE = 4 ∧ u.mem = s.mem))
      ∧ (s.fget UPD_GATE.VMIN ≤ mv.toNat → (cmd = 1 ∨ cmd = 2) → s.updKeyOk = false → Does (.loadTestDone mv) s fun u =>
          u.fget UPD_ERRINFO.CAUSE = 4 ∧ u.fget UPD_STAT.STATE = s.fget UPD_STAT.STATE)))
  ∧ (∀ (s : State) (r : UpdRun), s.upd.run = some r → s.upd.srst = false → s.flash.susp = none → s.blockWp 2 = false → s.blockWp 3 = false →
    let p := s.updPkg
    let failed (u : State) (c : Nat) : Prop := u.fget UPD_STAT.STATE = 7 ∧ u.fget UPD_ERRINFO.CAUSE = c ∧ u.upd = {} ∧ u.fget (INT_RAW.bit Pg.UPD 1) = 1
      ∧ u.raw UPD_SLOT.addr = recSetState s.slotWord s.updTarget 5
    (s.fget UPD_STAT.STATE = 1 → s.flash.op = none →
      (p.limit = 0 → Does .firstPassDone s fun u => failed u 5)
      ∧ (∀ q, p.limit ≠ 0 → p.at' + 128 ≤ p.limit → s.rangeRead p.at' (min p.limit (s.pkgTag p + 16) - p.at') = (q, true) →
        let p := q.updPkg
        q.pkgFormat p = true → r.resume = false →
        p.oldLen = 0 → cmac r.key (q.listAt p.at' (q.pkgTag p - p.at')) = q.listAt (q.pkgTag p) 16 → sha256 [] = q.listAt (p.at' + 0x20) 32 →
        s.upd.stop = false → s.upd.pause = none → s.fbit PROT_CTRL.OLOCK = false → s.motionGate = false →
        Does .firstPassDone s fun u => u.fget UPD_STAT.STATE = 2 ∧ u.fget UPD_STAT.SEG = 0 ∧ (∃ o, u.flash.op = some o ∧ o.cmd = 2 ∧ o.eng = true)
          ∧ u.raw UPD_SLOT.addr = recPut (recSetState s.slotWord s.updTarget 1) 9 5 0))
    ∧ (s.fget UPD_STAT.STATE = 2 →
      let k := s.fget UPD_STAT.SEG
      let a := ((s.segAddrs p)[k]?).getD 0
      let b := slotBlock s.updTarget + k
      ∀ q, s.updRelease.segRead p k = (q, true) → s.blockWp b = false →
      (some (q.segDigest p k) ≠ r.digests[k]? → ∀ ok, Does (.segmentDone ok) s fun u => failed u 8)
      ∧ (some (q.segDigest p k) = r.digests[k]? → ∀ out, q.segOutput p k = some out → out.length ≤ 0x20000 →
        (Does (.segmentDone false) s fun u => u.fget UPD_STAT.STATE = 7 ∧ u.fget UPD_ERRINFO.CAUSE = 11)
        ∧ (s.blockSlc b = false → (a + 36 ≤ b * 0x20000 ∨ (b + 1) * 0x20000 ≤ a) → sha256 out = q.listAt (a + 4) 32 →
          Does (.segmentDone true) s fun u => (∀ i, i < out.length → some (u.byteAt (b * 0x20000 + i)) = out[i]?)
            ∧ (∀ x, x / 0x20000 ≠ b → x / 0x20000 ≠ 2 → x / 0x20000 ≠ 3 → u.byteAt x = q.byteAt x)
            ∧ u.fget UPD_PROG.BYTES = min (2 ^ UPD_PROG.BYTES.width - 1) (s.fget UPD_PROG.BYTES + out.length))))
    ∧ (s.fget UPD_STAT.STATE = 3 → s.flash.op = none →
      (∀ q, s.rangeRead (slotBase s.updTarget) p.newLen = (q, true) → sha256 (q.listAt (slotBase s.updTarget) p.newLen) = r.newHash → Does (.imageHashDone true) s fun u => u.fget UPD_STAT.STATE = 6 ∧ u.upd = {}
        ∧ u.fget (INT_RAW.bit Pg.UPD 0) = 1 ∧ u.raw UPD_SLOT.addr = recSetState s.slotWord s.updTarget 2)
      ∧ (∀ q, s.rangeRead (slotBase s.updTarget) p.newLen = (q, true) → sha256 (q.listAt (slotBase s.updTarget) p.newLen) ≠ r.newHash → Does (.imageHashDone true) s fun u => failed u 10)
      ∧ (Does (.imageHashDone false) s fun u => failed u 11)))
  ∧ (∀ s : State, (s.fget UPD_STAT.STATE = 3 → Does (.updPause 2) s fun u => u.fget UPD_STAT.STATE = 5 ∧ u.fget UPD_ERRINFO.CAUSE = 2 ∧ u.upd = {}
        ∧ u.fget (INT_RAW.bit Pg.UPD 2) = 1 ∧ PagesOnly [Pg.UPD] { s with upd := {} } u)
      ∧ ((s.fget UPD_STAT.STATE = 1 ∨ s.fget UPD_STAT.STATE = 2) → Does (.updPause 2) s fun u =>
        u = { s with upd := { s.upd with pause := some (s.upd.pause.getD 2) } })
      ∧ (s.fbit PROT_CTRL.OLOCK = false → Does (.updPause 3) s fun u => u = s))
  ∧ (∀ (s : State) (m : Master), s.upd.srst = false → s.flash.susp = none → s.blockWp 2 = false → s.blockWp 3 = false →
    ∀ i, ((i = .updAbort m ∧ Accepted s ⟨m, .base⟩ UPD_CMD.addr)
        ∨ (i = .updDisable ⟨m, .base⟩ 0#32 ∧ Accepted s ⟨m, .base⟩ UPD_CTRL.addr ∧ s.fbit UPD_CTRL.EN = true)) →
      let waits := (s.fget UPD_STAT.STATE = 1 ∨ s.fget UPD_STAT.STATE = 3 ∨ s.fget UPD_STAT.STATE = 5)
      ((s.fget UPD_STAT.STATE = 2 ∨ s.fget UPD_STAT.STATE = 4 ∨ (waits ∧ s.flash.op.isSome)) → Does i s fun u => u.upd = { s.upd with test := none, stop := true } ∧ u.mem = s.mem
        ∧ u.fget UPD_STAT.STATE = s.fget UPD_STAT.STATE)
      ∧ (waits → s.flash.op = none → Does i s fun u => u.fget UPD_STAT.STATE = 7
        ∧ u.fget UPD_ERRINFO.CAUSE = 14 ∧ u.upd = {} ∧ u.raw UPD_SLOT.addr = recSetState s.slotWord s.updTarget 5)
      ∧ ((s.fget UPD_STAT.STATE = 0 ∨ s.fget UPD_STAT.STATE = 6) → Does i s fun u => u.upd = { s.upd with test := none } ∧ u.mem = s.mem))

/-- R369, R378. Where the manual leaves a choice it follows the model's, log entry 115.
States that these commands complete (`exec` answers a next state), each under conditions on the state and its operands alone: activateDone,
accept. -/
def Obligations.UpdateActivation : Prop :=
  (∀ s : State, s.fget UPD_STAT.STATE = 4 → s.updFree = true → s.blockWp 2 = false → s.blockWp 3 = false → s.upd.stop = false → s.upd.srst = false →
    (s.updMerges = false → Does (.activateDone true) s fun u => u.fget UPD_STAT.STATE = 6 ∧ u.fget (INT_RAW.bit Pg.UPD 0) = 1
      ∧ u.raw UPD_SLOT.addr = recSetState s.slotWord s.updTarget 3
      ∧ ∀ x, x / 0x20000 ≠ 2 → x / 0x20000 ≠ 3 → u.byteAt x = s.byteAt x)
    ∧ (Does (.activateDone false) s fun u => u.fget UPD_STAT.STATE = 7 ∧ u.fget UPD_ERRINFO.CAUSE = 11 ∧ u.upd = {}))
  ∧ (∀ (s : State) (m : Master), Accepted s ⟨m, .base⟩ UPD_CMD.addr →
    (∀ k, k < 2 → s.fbit UPD_CTRL.EN = true → s.updBusy = false → s.upd.test = none → recState s.slotWord k = 3 →
      (k = 1 → recState s.slotWord 0 ≠ 3) → s.blockWp 2 = false → s.blockWp 3 = false →
      (s.flash.op.isSome → Does (.accept m) s fun u => u.upd = { s.upd with accept := true } ∧ u.mem = s.mem) ∧ (s.updFree = true → Does (.accept m) s fun u =>
        recState (u.raw UPD_SLOT.addr) k = 4 ∧ recState (u.raw UPD_SLOT.addr) (1 - k) = 2 ∧ recCfg (u.raw UPD_SLOT.addr) = 0
        ∧ recActive (u.raw UPD_SLOT.addr) = recActive s.slotWord ∧ recCkpt (u.raw UPD_SLOT.addr) = recCkpt s.slotWord
        ∧ ∀ x, x / 0x20000 ≠ 2 → x / 0x20000 ≠ 3 → u.byteAt x = s.byteAt x))
    ∧ (∀ c, (c = 14 ∧ s.fbit UPD_CTRL.EN = false) ∨ (c = 12 ∧ s.fbit UPD_CTRL.EN = true ∧ recState s.slotWord 0 ≠ 3 ∧ recState s.slotWord 1 ≠ 3)
        ∨ (c = 11 ∧ s.fbit UPD_CTRL.EN = true ∧ s.updBusy = false ∧ s.upd.test = none ∧ (recState s.slotWord 0 = 3 ∨ recState s.slotWord 1 = 3)
          ∧ s.blockWp 2 = true ∧ s.blockWp 3 = true) →
      Does (.accept m) s fun u => u.fbit UPD_STAT.REFUSED = true ∧ u.fget UPD_ERRINFO.CAUSE = c ∧ u.mem = s.mem ∧ u.upd = s.upd))
end

