-- ==== Sys2Proof/Laws/Regs.lean ====
section
/-!
SUPPORT. Laws of the register store: reading after writing, the canonical form, and the fields of a register (R4, R7, R8).
-/
namespace Sys2Proof.Machine
open Sys2Proof

/-! ## The store -/

theorem regGet_filter_ne (l : List (Nat × Word)) {a b : Nat} (h : b ≠ a) : regGet (l.filter fun r => r.1 != a) b = regGet l b := by
  induction l with
  | nil => rfl
  | cons x l ih =>
    obtain ⟨c, w⟩ := x
    by_cases hc : c = a
    · subst hc; simp [regGet, h, ih]
    · simp [hc, regGet, ih]

theorem regGet_filter_self (l : List (Nat × Word)) (a : Nat) : regGet (l.filter fun r => r.1 != a) a = resetOf a := by
  induction l with
  | nil => rfl
  | cons x l ih =>
    obtain ⟨c, w⟩ := x
    by_cases hc : c = a
    · subst hc; simp [ih]
    · simp [hc, regGet, ih, Ne.symm hc]

theorem regGet_regIns_ne (l : List (Nat × Word)) {a b : Nat} (v : Word) (h : b ≠ a) : regGet (regIns l a v) b = regGet l b := by
  induction l with
  | nil => simp [regIns, regGet, h]
  | cons x l ih =>
    obtain ⟨c, w⟩ := x
    simp only [regIns]
    split
    · simp [regGet, h]
    · simp only [regGet, ih]

theorem regGet_regIns_self (l : List (Nat × Word)) (a : Nat) (v : Word) (h : ∀ x ∈ l, x.1 ≠ a) : regGet (regIns l a v) a = v := by
  induction l with
  | nil => simp [regIns, regGet]
  | cons x l ih =>
    obtain ⟨c, w⟩ := x
    simp only [regIns]
    split
    · simp [regGet]
    · simp only [regGet, if_neg (Ne.symm (h (c, w) (List.mem_cons_self ..)))]
      exact ih fun y hy => h y (List.mem_cons_of_mem _ hy)

/-- A write leaves every other register alone. -/
theorem regGet_regPut_ne (l : List (Nat × Word)) {a b : Nat} (v : Word) (h : b ≠ a) : regGet (regPut l a v) b = regGet l b := by
  simp only [regPut]
  split
  · exact regGet_filter_ne l h
  · rw [regGet_regIns_ne _ _ h, regGet_filter_ne l h]

/-- A register reads as it was last written. -/
theorem regGet_regPut_self (l : List (Nat × Word)) (a : Nat) (v : Word) : regGet (regPut l a v) a = v := by
  simp only [regPut]
  split
  · rename_i h; rw [regGet_filter_self, h]
  · exact regGet_regIns_self _ a v fun x hx => by simpa using (List.mem_filter.1 hx).2

theorem regStore_wf_cons (a : Nat) (v : Word) (l : List (Nat × Word)) :
    RegStore.wf ((a, v) :: l) = true ↔ v ≠ resetOf a ∧ (∀ x, l.head? = some x → a < x.1) ∧ RegStore.wf l = true := by
  cases l <;> simp [RegStore.wf, and_assoc]

theorem regStore_wf_lt (l : List (Nat × Word)) (hw : RegStore.wf l = true) {a : Nat} (h : ∀ x, l.head? = some x → a < x.1) :
    ∀ x ∈ l, a < x.1 := by
  induction l generalizing a with
  | nil => simp
  | cons y l ih =>
    obtain ⟨c, w⟩ := y
    have h' := (regStore_wf_cons c w l).1 hw
    have hc : a < c := h (c, w) rfl
    intro x hx
    rcases List.mem_cons.1 hx with rfl | hx
    · exact hc
    · exact Nat.lt_trans hc (ih h'.2.2 h'.2.1 x hx)

/-- Removing registers keeps the canonical form. -/
theorem regFilter_wf (l : List (Nat × Word)) (hw : RegStore.wf l = true) (p : Nat × Word → Bool) : RegStore.wf (l.filter p) = true := by
  induction l with
  | nil => rfl
  | cons y l ih =>
    obtain ⟨c, w⟩ := y
    have h' := (regStore_wf_cons c w l).1 hw
    simp only [List.filter]
    split
    · refine (regStore_wf_cons c w _).2 ⟨h'.1, ?_, ih h'.2.2⟩
      intro x hx
      have hm : x ∈ l.filter p := List.mem_of_mem_head? hx
      exact regStore_wf_lt l h'.2.2 h'.2.1 x (List.mem_filter.1 hm).1
    · exact ih h'.2.2

theorem regIns_wf (l : List (Nat × Word)) (hw : RegStore.wf l = true) (a : Nat) (v : Word) (hv : v ≠ resetOf a) (h : ∀ x ∈ l, x.1 ≠ a) :
    RegStore.wf (regIns l a v) = true := by
  induction l with
  | nil => simp [regIns, RegStore.wf, hv]
  | cons y l ih =>
    obtain ⟨c, w⟩ := y
    have h' := (regStore_wf_cons c w l).1 hw
    have hc : c ≠ a := h (c, w) (List.mem_cons_self ..)
    simp only [regIns]
    split
    · rename_i h1
      exact (regStore_wf_cons a v _).2 ⟨hv, by intro y hy; simp at hy; subst hy; exact h1, hw⟩
    · refine (regStore_wf_cons c w _).2 ⟨h'.1, ?_, ih h'.2.2 fun x hx => h x (List.mem_cons_of_mem _ hx)⟩
      intro x hx
      cases l with
      | nil => simp [regIns] at hx; subst hx; simp only; omega
      | cons z l =>
        simp only [regIns] at hx
        split at hx
        · simp at hx; subst hx; simp only; omega
        · simp at hx; subst hx; exact h'.2.1 z rfl

/-- A write keeps the canonical form. -/
theorem regPut_wf (l : List (Nat × Word)) (hw : RegStore.wf l = true) (a : Nat) (v : Word) : RegStore.wf (regPut l a v) = true := by
  simp only [regPut]
  split
  · exact regFilter_wf l hw _
  · rename_i h
    exact regIns_wf _ (regFilter_wf l hw _) a v h fun x hx => by simpa using (List.mem_filter.1 hx).2

/-! ## Registers of the state -/

theorem rget_rset_self (s : State) (a : Nat) (v : Word) : (s.rset a v).rget a = v := regGet_regPut_self s.regs a v
theorem rget_rset_ne (s : State) {a b : Nat} (v : Word) (h : b ≠ a) : (s.rset a v).rget b = s.rget b := regGet_regPut_ne s.regs v h
theorem rset_wf (s : State) (hw : RegStore.wf s.regs = true) (a : Nat) (v : Word) : RegStore.wf (s.rset a v).regs = true :=
  regPut_wf s.regs hw a v

/-! ## Fields -/

theorem fieldGet_lt (v : Nat) (f : Fld) : fieldGet v f < 2 ^ f.width := Nat.mod_lt _ (Nat.two_pow_pos _)

theorem fieldGet_eq_extract (v : Nat) (f : Fld) (i : Nat) : (fieldGet v f).testBit i = (decide (i < f.width) && v.testBit (f.lo + i)) := by
  simp [fieldGet, Nat.testBit_mod_two_pow, Nat.testBit_div_two_pow, Nat.add_comm]

/-- A write of a field is the old word above and below it with the field between. -/
theorem fieldPut_eq (v : Nat) (f : Fld) (x : Nat) :
    fieldPut v f x = v / 2 ^ (f.lo + f.width) * 2 ^ (f.lo + f.width) + (x % 2 ^ f.width) * 2 ^ f.lo + v % 2 ^ f.lo := by
  unfold fieldPut fieldGet
  have h1 : v / 2 ^ f.lo % 2 ^ f.width * 2 ^ f.lo + v / 2 ^ (f.lo + f.width) * 2 ^ (f.lo + f.width) + v % 2 ^ f.lo = v := by
    have e1 := Nat.div_add_mod v (2 ^ f.lo)
    have e2 := Nat.div_add_mod (v / 2 ^ f.lo) (2 ^ f.width)
    rw [Nat.div_div_eq_div_mul, ← Nat.pow_add] at e2
    have e3 : 2 ^ (f.lo + f.width) = 2 ^ f.lo * 2 ^ f.width := Nat.pow_add ..
    generalize v / 2 ^ f.lo = q at *
    generalize q % 2 ^ f.width = r at *
    generalize v / 2 ^ (f.lo + f.width) = u at *
    rw [e3]
    calc r * 2 ^ f.lo + u * (2 ^ f.lo * 2 ^ f.width) + v % 2 ^ f.lo
        = 2 ^ f.lo * (2 ^ f.width * u + r) + v % 2 ^ f.lo := by ring
      _ = v := by rw [e2, e1]
  omega

theorem fieldPut_testBit (v : Nat) (f : Fld) (x i : Nat) :
    (fieldPut v f x).testBit i = if f.lo ≤ i ∧ i < f.lo + f.width then x.testBit (i - f.lo) else v.testBit i := by
  rw [fieldPut_eq]
  have hb : v % 2 ^ f.lo < 2 ^ f.lo := Nat.mod_lt _ (Nat.two_pow_pos _)
  have hx : x % 2 ^ f.width < 2 ^ f.width := Nat.mod_lt _ (Nat.two_pow_pos _)
  have e : v / 2 ^ (f.lo + f.width) * 2 ^ (f.lo + f.width) + (x % 2 ^ f.width) * 2 ^ f.lo + v % 2 ^ f.lo
      = 2 ^ f.lo * (2 ^ f.width * (v / 2 ^ (f.lo + f.width)) + x % 2 ^ f.width) + v % 2 ^ f.lo := by
    rw [Nat.pow_add]; ring
  rw [e, Nat.testBit_two_pow_mul_add _ hb, Nat.testBit_two_pow_mul_add _ hx]
  by_cases h1 : i < f.lo
  · simp [h1, Nat.testBit_mod_two_pow]
  · simp only [h1, if_false, Nat.testBit_mod_two_pow, Nat.testBit_div_two_pow]
    by_cases h2 : i - f.lo < f.width
    · have h3 : f.lo ≤ i ∧ i < f.lo + f.width := by omega
      simp [h2, h3]
    · have h3 : ¬ (f.lo ≤ i ∧ i < f.lo + f.width) := by omega
      simp only [h2, h3, if_false]
      congr 1; omega

theorem fieldPut_lt (v : Nat) (f : Fld) (x : Nat) (hv : v < 2 ^ 32) (hf : f.lo + f.width ≤ 32) : fieldPut v f x < 2 ^ 32 := by
  apply Nat.lt_pow_two_of_testBit
  intro i hi
  rw [fieldPut_testBit, if_neg (by omega)]
  exact Nat.testBit_lt_two_pow (Nat.lt_of_lt_of_le hv (Nat.pow_le_pow_right (by decide) hi))

/-- A field reads as it was last written, cut to its width. -/
theorem fieldGet_fieldPut_self (v : Nat) (f : Fld) (x : Nat) : fieldGet (fieldPut v f x) f = x % 2 ^ f.width := by
  apply Nat.eq_of_testBit_eq
  intro i
  rw [fieldGet_eq_extract, fieldPut_testBit, Nat.testBit_mod_two_pow]
  by_cases h : i < f.width
  · simp [h]
  · simp [h]

/-- A write of a field leaves the fields beside it alone. -/
theorem fieldGet_fieldPut_ne (v : Nat) (f g : Fld) (x : Nat) (h : g.lo + g.width ≤ f.lo ∨ f.lo + f.width ≤ g.lo) :
    fieldGet (fieldPut v f x) g = fieldGet v g := by
  apply Nat.eq_of_testBit_eq
  intro i
  rw [fieldGet_eq_extract, fieldGet_eq_extract, fieldPut_testBit]
  by_cases h1 : i < g.width
  · rw [if_neg (by omega)]
  · simp [h1]

theorem fset_wf (s : State) (hw : RegStore.wf s.regs = true) (f : Fld) (x : Nat) : RegStore.wf (s.fset f x).regs = true := rset_wf s hw _ _

theorem fget_fset_self (s : State) (f : Fld) (x : Nat) (hf : f.lo + f.width ≤ 32) :
    (s.fset f x).fget f = x % 2 ^ f.width := by
  unfold State.fset State.fget
  rw [rget_rset_self, BitVec.toNat_ofNat, Nat.mod_eq_of_lt (fieldPut_lt _ _ _ (BitVec.isLt _) hf), fieldGet_fieldPut_self]

theorem fget_fset_reg (s : State) (f g : Fld) (x : Nat) (h : g.addr ≠ f.addr) : (s.fset f x).fget g = s.fget g := by
  unfold State.fset State.fget
  rw [rget_rset_ne _ _ h]

theorem fget_fset_ne (s : State) (f g : Fld) (x : Nat) (hf : f.lo + f.width ≤ 32)
    (h : g.lo + g.width ≤ f.lo ∨ f.lo + f.width ≤ g.lo) : (s.fset f x).fget g = s.fget g := by
  by_cases ha : g.addr = f.addr
  · unfold State.fset State.fget
    rw [ha, rget_rset_self, BitVec.toNat_ofNat, Nat.mod_eq_of_lt (fieldPut_lt _ _ _ (BitVec.isLt _) hf), fieldGet_fieldPut_ne _ _ _ _ h]
  · exact fget_fset_reg s f g x ha

theorem rget_fset_ne (s : State) (f : Fld) (x a : Nat) (h : a ≠ f.addr) : (s.fset f x).rget a = s.rget a := rget_rset_ne _ _ h

/-- A counter field gains one, and stays at its greatest value. -/
theorem fget_finc (s : State) (f : Fld) (hf : f.lo + f.width ≤ 32) :
    (s.finc f).fget f = min (2 ^ f.width - 1) (s.fget f + 1) := by
  unfold State.finc State.fadd
  rw [fget_fset_self _ _ _ hf, Nat.mod_eq_of_lt]
  have := Nat.two_pow_pos f.width
  omega

end Sys2Proof.Machine
end

