-- ==== Sys2Proof/Laws/Events.lean ====
section
/-!
SUPPORT. What an event through the Culvert can do (R419 to R424), said once: `publishAll_only`; and what time can do: `advance_only`.
-/
namespace Sys2Proof
open Sys2Proof.Machine

theorem EventsOnly.refl (s : State) : EventsOnly s s := ⟨rfl, fun _ _ => rfl, id⟩

theorem EventsOnly.trans {s t u : State} (h : EventsOnly s t) (k : EventsOnly t u) : EventsOnly s u := by
  refine ⟨?_, fun a ha => (k.off a ha).trans (h.off a ha), fun hw => k.wf (h.wf hw)⟩
  have k1 := k.eq
  have h1 := h.eq
  generalize t.regs = r1 at h1
  generalize t.coreA.edge = r2 at h1
  generalize t.pwr.wakePend = r3 at h1
  generalize t.cul = r4 at h1
  generalize t.pads.adcRun = r5 at h1
  generalize t.dma = r6 at h1
  generalize t.tmr = r7 at h1
  subst h1
  exact k1

theorem eventsOnly_rset (s : State) (a : Nat) (v : Word) (h : pageOf a ∈ eventPages) : EventsOnly s (s.rset a v) :=
  ⟨rfl, fun b hb => rget_rset_ne s v (by rintro rfl; exact hb h), fun hw => rset_wf s hw a v⟩

theorem eventsOnly_fset (s : State) (f : Fld) (x : Nat) (h : pageOf f.addr ∈ eventPages) : EventsOnly s (s.fset f x) :=
  eventsOnly_rset s _ _ h

theorem eventsOnly_finc (s : State) (f : Fld) (h : pageOf f.addr ∈ eventPages) : EventsOnly s (s.finc f) := eventsOnly_rset s _ _ h

theorem pageOf_tmr {n : Nat} (h : n < 8) (o : Nat) (ho : o < 0x1000) : pageOf (0x4002D000 + o + 0x1000 * n) ∈ eventPages := by
  have : pageOf (0x4002D000 + o + 0x1000 * n) = 0x2D + n := by unfold pageOf; omega
  rw [this]
  interval_cases n <;> decide

theorem eventsOnly_tmrArm (s : State) {n : Nat} (h : n < 8) (k : Nat) : EventsOnly s (s.tmrArm n k) :=
  eventsOnly_fset s _ _ (pageOf_tmr h 8 (by decide))

theorem eventsOnly_foldl {α : Type} (f : State → α → State) (hf : ∀ s x, EventsOnly s (f s x)) (l : List α) (s : State) :
    EventsOnly s (l.foldl f s) := by
  induction l generalizing s with
  | nil => exact .refl s
  | cons x l ih => exact (hf s x).trans (ih _)

theorem eventsOnly_foldl₂ {α : Type} (f : State × List Nat → α → State × List Nat) (hf : ∀ r x, EventsOnly r.1 (f r x).1) (l : List α)
    (r : State × List Nat) : EventsOnly r.1 (l.foldl f r).1 := by
  induction l generalizing r with
  | nil => exact .refl _
  | cons x l ih => exact (hf r x).trans (ih _)

theorem eventsOnly_tmrArmAll (s : State) {n : Nat} (h : n < 8) : EventsOnly s (s.tmrArmAll n) :=
  eventsOnly_foldl _ (fun s k => eventsOnly_tmrArm s h k) _ _

theorem eventsOnly_tmrReset (s : State) {n : Nat} (h : n < 8) : EventsOnly s (s.tmrReset n) :=
  (eventsOnly_rset s _ _ (pageOf_tmr h 0x40 (by decide))).trans (eventsOnly_tmrArmAll _ h)

theorem eventsOnly_tmrStart (s : State) {n : Nat} (h : n < 8) : EventsOnly s (s.tmrStart n) :=
  (eventsOnly_fset s _ _ (by have := pageOf_tmr h 4 (by decide); simpa [TMR_CTRL.EN, TMR_CTRL.addr] using this)).trans
    (eventsOnly_tmrArmAll _ h)

theorem eventsOnly_tmrChain (s : State) {n : Nat} (h : n < 8) (src : Nat) : EventsOnly s (s.tmrChain n src) := by
  unfold State.tmrChain
  have hl : s.fget (TMR_CHAIN.LINK n) < 8 := fieldGet_lt _ (TMR_CHAIN.LINK n)
  split
  · exact .refl s
  · split
    · exact eventsOnly_tmrReset s h
    · exact eventsOnly_tmrStart s hl
    · exact eventsOnly_tmrReset s hl
    · exact .refl s

theorem eventsOnly_raise (s : State) {p : Nat} (h : p ∈ eventPages) (b : Nat) : EventsOnly s (s.raise p b) := by
  refine eventsOnly_fset s _ _ ?_
  have hp : p < 0x40 := by
    have h' : ∀ q ∈ eventPages, q < 0x40 := by decide
    exact h' p h
  have : pageOf (INT_RAW.bit p b).addr = p := by simp [INT_RAW.bit, pageAddr, pageOf]; omega
  rwa [this]

theorem tmr_page {n : Nat} (h : n < 8) : Pg.TMR n ∈ eventPages := by interval_cases n <;> decide

theorem eventsOnly_tmrSet (s : State) (n : Nat) (f : Tmr → Tmr) : EventsOnly s (s.tmrSet n f) := ⟨rfl, fun _ _ => rfl, id⟩

theorem eventsOnly_tmrTick (s : State) {n : Nat} (h : n < 8) : EventsOnly s (s.tmrTick n).1 := by
  unfold State.tmrTick
  split
  · exact .refl s
  · split
    · exact eventsOnly_rset s _ _ (pageOf_tmr h 0x40 (by decide))
    · exact ((eventsOnly_tmrReset s h).trans (eventsOnly_raise _ (tmr_page h) 0)).trans (eventsOnly_tmrChain _ h 1)

theorem eventsOnly_tmrClock (s : State) {n : Nat} (h : n < 8) : EventsOnly s (s.tmrClock n).1 := by
  unfold State.tmrClock
  split
  · exact .refl s
  · simp only []
    split
    · exact (eventsOnly_tmrSet s n _).trans (eventsOnly_tmrTick _ h)
    · dsimp only; exact eventsOnly_tmrSet s n _

theorem tmr_cap_page {n : Nat} (h : n < 8) (k : Nat) (hk : k < 4) : pageOf (TMR_CH_CAP.addr n k) ∈ eventPages := by
  have := pageOf_tmr h (0x68 + 0x10 * k) (by omega)
  simp only [TMR_CH_CAP.addr]
  rwa [show 0x4002D068 + 0x1000 * n + 0x10 * k = 0x4002D000 + (0x68 + 0x10 * k) + 0x1000 * n by omega]

theorem eventsOnly_tmrLand (s : State) {n k : Nat} (h : n < 8) (hk : k < 4) : EventsOnly s (s.tmrLand n k).1 := by
  unfold State.tmrLand
  have hs : ∀ j, pageOf (Fld.mk (TMR_STAT.addr n) j 1).addr ∈ eventPages := fun j => pageOf_tmr h 8 (by decide)
  have hp := tmr_page h
  simp only []
  refine EventsOnly.trans ?_ (eventsOnly_tmrChain _ h _)
  refine EventsOnly.trans ?_ (eventsOnly_raise _ hp _)
  refine EventsOnly.trans ?_ (eventsOnly_fset _ _ _ (hs _))
  refine (eventsOnly_rset s (TMR_CH_CAP.addr n k) (BitVec.ofNat 32 (s.tCount n)) (tmr_cap_page h k hk)).trans ?_
  split
  · exact (eventsOnly_fset _ _ _ (hs _)).trans (eventsOnly_raise _ hp _)
  · exact .refl _

theorem eventsOnly_tmrEdge (s : State) {n k : Nat} (h : n < 8) (hk : k < 4) : EventsOnly s (s.tmrEdge n k).1 := by
  unfold State.tmrEdge
  split
  · exact .refl s
  · split
    · simp only []
      split
      · dsimp only; exact eventsOnly_tmrSet s n _
      · exact (eventsOnly_tmrSet s n _).trans (eventsOnly_tmrLand _ h hk)
    · exact eventsOnly_tmrLand s h hk

theorem eventsOnly_onTimers (s : State) (f : Nat → State → State × List Nat) (hf : ∀ n s, n < 8 → EventsOnly s (f n s).1) :
    EventsOnly s (s.onTimers f).1 := by
  unfold State.onTimers
  have : ∀ (l : List Nat), (∀ n ∈ l, n < 8) → ∀ r : State × List Nat,
      EventsOnly r.1 (l.foldl (fun (r : State × List Nat) n => let q := f n r.1; (q.1, r.2 ++ q.2)) r).1 := by
    intro l
    induction l with
    | nil => intro _ r; exact .refl _
    | cons n l ih =>
      intro hl r
      have h1 := hf n r.1 (hl n (List.mem_cons_self ..))
      have h2 := ih (fun m hm => hl m (List.mem_cons_of_mem _ hm)) ((f n r.1).1, r.2 ++ (f n r.1).2)
      exact h1.trans h2
  exact this (List.range 8) (fun n hn => List.mem_range.1 hn) (s, [])

theorem eventsOnly_adcStart (s : State) : EventsOnly s s.adcStart := by
  unfold State.adcStart
  split
  · exact .refl s
  · split
    · exact eventsOnly_finc s _ (by decide)
    · exact ⟨rfl, fun _ _ => rfl, id⟩

theorem eventsOnly_dmaRequest (s : State) {ch : Nat} (h : ch < 8) : EventsOnly s (s.dmaRequest ch) := by
  unfold State.dmaRequest
  simp only []
  split
  · exact .refl s
  · split
    · exact ⟨rfl, fun _ _ => rfl, id⟩
    · exact eventsOnly_finc s _ (by interval_cases ch <;> decide)

theorem eventsOnly_irqLatch (s : State) (c : Nat) : EventsOnly s (s.irqLatch c) := by
  unfold State.irqLatch
  split
  · exact .refl s
  · exact ⟨rfl, fun _ _ => rfl, id⟩

theorem eventsOnly_wakeEvent (s : State) (b : Nat) : EventsOnly s (s.wakeEvent b) := by
  unfold State.wakeEvent
  split
  · exact .refl s
  · exact ⟨rfl, fun _ _ => rfl, id⟩

/-- What a consumer can do. -/
theorem eventsOnly_consume (s : State) (c : Nat) : EventsOnly s (s.consume c).1 := by
  unfold State.consume
  split
  · exact eventsOnly_irqLatch s c
  split
  · exact eventsOnly_dmaRequest s (by omega)
  split
  · exact eventsOnly_wakeEvent s 0
  split
  · exact ⟨rfl, fun _ _ => rfl, id⟩
  split
  · dsimp only
    split
    · exact eventsOnly_adcStart s
    · exact .refl s
  split
  · exact eventsOnly_tmrStart s (by omega)
  split
  · exact eventsOnly_tmrReset s (by omega)
  split
  · refine eventsOnly_onTimers s _ fun n s hn => ?_
    split
    · exact eventsOnly_tmrEdge s hn (by omega)
    · exact .refl s
  · exact eventsOnly_onTimers s _ fun n s hn => eventsOnly_tmrClock s hn

theorem eventsOnly_deliver (s : State) (c : Nat) : EventsOnly s (s.deliver c).1 := by
  unfold State.deliver
  split
  · exact eventsOnly_consume s c
  · exact ((eventsOnly_fset s _ _ (by decide)).trans (eventsOnly_finc _ _ (by decide))).trans (eventsOnly_raise _ (by decide) 1)

theorem eventsOnly_culMerge (s : State) (n : Nat) : EventsOnly s (s.culMerge n) := by
  unfold State.culMerge
  split
  · exact .refl s
  · exact (eventsOnly_fset s _ _ (by decide)).trans (eventsOnly_rset _ _ _ (by decide))

theorem eventsOnly_route (s : State) (cs : List Nat) : EventsOnly s (s.route cs).1 := by
  unfold State.route
  simp only []
  refine EventsOnly.trans ?_ (eventsOnly_foldl₂ (fun r c => ((r.1.deliver c).1, r.2 ++ (r.1.deliver c).2))
    (fun r c => eventsOnly_deliver r.1 c) _ (_, []))
  dsimp only
  split
  · exact (eventsOnly_culMerge s _).trans (eventsOnly_finc _ _ (by decide))
  · exact eventsOnly_culMerge s _

theorem eventsOnly_raiseAll (n : Nat) : ∀ (ps : List Nat) (s : State), EventsOnly s (s.raiseAll n ps) := by
  induction n with
  | zero =>
    intro ps s
    unfold State.raiseAll
    split
    · exact .refl s
    · exact ⟨rfl, fun _ _ => rfl, id⟩
  | succ n ih =>
    intro ps s
    unfold State.raiseAll
    split
    · exact .refl s
    · exact (eventsOnly_route s _).trans (ih _ _)

/-- Publishing events does what events do, and nothing else. -/
theorem publishAll_only (s : State) (ps : List Nat) : EventsOnly s (s.publishAll ps) := eventsOnly_raiseAll 8 ps s
theorem publish_only (s : State) (p : Nat) : EventsOnly s (s.publish p) := publishAll_only s [p]
theorem event_only (s : State) (page bit p : Nat) : EventsOnly s (s.event page bit p) := by
  unfold State.event
  split
  · exact publish_only s p
  · exact .refl s

/-! ## Time -/

theorem TimeOnly.refl (s : State) : TimeOnly s s := rfl
theorem TimeOnly.trans {s t u : State} (h : TimeOnly s t) (k : TimeOnly t u) : TimeOnly s u := by
  unfold TimeOnly at *
  generalize t.ntu = a at h
  generalize t.now = b at h
  subst h
  exact k

theorem slew_only (s : State) (el : Nat) : TimeOnly s (s.slew el) := by
  unfold State.slew
  split
  · exact .refl s
  · rfl

/-- Time moves the counter, the slew and `now`, and nothing else (R256). -/
theorem advance_only (s : State) (t : Frc) : TimeOnly s (s.advance t) := by
  unfold State.advance
  dsimp only
  split
  · exact .refl s
  · refine (slew_only s (s.landing t.toNat)).trans ?_
    split <;> rfl

/-- Awake, an instant is reached as it is; in a sleep, at the LFXO tick before it (R266). -/
theorem landing_awake (s : State) (n : Nat) (h : s.sleepStart = none) : s.landing n = n := by
  unfold State.landing; rw [h]

/-- An instant that is not in the past is reached exactly, outside a sleep. -/
theorem frc_advance (s : State) (t : Frc) (h : s.frcN ≤ t.toNat) (hs : s.sleepStart = none) : (s.advance t).ntu.frc = t := by
  unfold State.advance
  rw [landing_awake s _ hs]
  dsimp only
  split
  · rename_i h'
    exact BitVec.eq_of_toNat_eq (Nat.le_antisymm h h')
  · split
    · simp [State.reAnchorAt]
    · simp

theorem rget_advance (s : State) (t : Frc) (a : Nat) : (s.advance t).rget a = s.rget a := by
  have h := advance_only s t
  unfold TimeOnly at h
  unfold State.rget
  rw [h]

theorem fget_advance (s : State) (t : Frc) (f : Fld) : (s.advance t).fget f = s.fget f := by
  unfold State.fget; rw [rget_advance]

end Sys2Proof
end

