-- ==== Sys2Proof/Laws/State.lean ====
section
/-!
SUPPORT. One lemma per field and per update of the state: what each named update leaves alone. No proof need unfold a record update.
-/
namespace Sys2Proof.Machine
open Sys2Proof

/-! ## `rset` -/

@[simp] theorem rset_now (s : State) (a : Nat) (v : Word) : (s.rset a v).now = s.now := rfl
@[simp] theorem rset_freeCtr (s : State) (a : Nat) (v : Word) : (s.rset a v).freeCtr = s.freeCtr := rfl
@[simp] theorem rset_sys (s : State) (a : Nat) (v : Word) : (s.rset a v).sys = s.sys := rfl
@[simp] theorem rset_pwr (s : State) (a : Nat) (v : Word) : (s.rset a v).pwr = s.pwr := rfl
@[simp] theorem rset_bus (s : State) (a : Nat) (v : Word) : (s.rset a v).bus = s.bus := rfl
@[simp] theorem rset_prot (s : State) (a : Nat) (v : Word) : (s.rset a v).prot = s.prot := rfl
@[simp] theorem rset_ovl (s : State) (a : Nat) (v : Word) : (s.rset a v).ovl = s.ovl := rfl
@[simp] theorem rset_ntu (s : State) (a : Nat) (v : Word) : (s.rset a v).ntu = s.ntu := rfl
@[simp] theorem rset_cul (s : State) (a : Nat) (v : Word) : (s.rset a v).cul = s.cul := rfl
@[simp] theorem rset_rfe (s : State) (a : Nat) (v : Word) : (s.rset a v).rfe = s.rfe := rfl
@[simp] theorem rset_slot (s : State) (a : Nat) (v : Word) : (s.rset a v).slot = s.slot := rfl
@[simp] theorem rset_cad (s : State) (a : Nat) (v : Word) : (s.rset a v).cad = s.cad := rfl
@[simp] theorem rset_lanes (s : State) (a : Nat) (v : Word) : (s.rset a v).lanes = s.lanes := rfl
@[simp] theorem rset_fec (s : State) (a : Nat) (v : Word) : (s.rset a v).fec = s.fec := rfl
@[simp] theorem rset_trf (s : State) (a : Nat) (v : Word) : (s.rset a v).trf = s.trf := rfl
@[simp] theorem rset_hdr (s : State) (a : Nat) (v : Word) : (s.rset a v).hdr = s.hdr := rfl
@[simp] theorem rset_phase (s : State) (a : Nat) (v : Word) : (s.rset a v).phase = s.phase := rfl
@[simp] theorem rset_txm (s : State) (a : Nat) (v : Word) : (s.rset a v).txm = s.txm := rfl
@[simp] theorem rset_keys (s : State) (a : Nat) (v : Word) : (s.rset a v).keys = s.keys := rfl
@[simp] theorem rset_mem (s : State) (a : Nat) (v : Word) : (s.rset a v).mem = s.mem := rfl
@[simp] theorem rset_coreA (s : State) (a : Nat) (v : Word) : (s.rset a v).coreA = s.coreA := rfl
@[simp] theorem rset_coreG (s : State) (a : Nat) (v : Word) : (s.rset a v).coreG = s.coreG := rfl
@[simp] theorem rset_caches (s : State) (a : Nat) (v : Word) : (s.rset a v).caches = s.caches := rfl
@[simp] theorem rset_dma (s : State) (a : Nat) (v : Word) : (s.rset a v).dma = s.dma := rfl
@[simp] theorem rset_dmaLast (s : State) (a : Nat) (v : Word) : (s.rset a v).dmaLast = s.dmaLast := rfl
@[simp] theorem rset_flash (s : State) (a : Nat) (v : Word) : (s.rset a v).flash = s.flash := rfl
@[simp] theorem rset_memst (s : State) (a : Nat) (v : Word) : (s.rset a v).memst = s.memst := rfl
@[simp] theorem rset_staged (s : State) (a : Nat) (v : Word) : (s.rset a v).staged = s.staged := rfl
@[simp] theorem rset_cipu (s : State) (a : Nat) (v : Word) : (s.rset a v).cipu = s.cipu := rfl
@[simp] theorem rset_upd (s : State) (a : Nat) (v : Word) : (s.rset a v).upd = s.upd := rfl
@[simp] theorem rset_tmr (s : State) (a : Nat) (v : Word) : (s.rset a v).tmr = s.tmr := rfl
@[simp] theorem rset_rtc (s : State) (a : Nat) (v : Word) : (s.rset a v).rtc = s.rtc := rfl
@[simp] theorem rset_pads (s : State) (a : Nat) (v : Word) : (s.rset a v).pads = s.pads := rfl
@[simp] theorem rset_hsp (s : State) (a : Nat) (v : Word) : (s.rset a v).hsp = s.hsp := rfl
@[simp] theorem rset_psp (s : State) (a : Nat) (v : Word) : (s.rset a v).psp = s.psp := rfl
@[simp] theorem rset_tst (s : State) (a : Nat) (v : Word) : (s.rset a v).tst = s.tst := rfl
@[simp] theorem rset_glade (s : State) (a : Nat) (v : Word) : (s.rset a v).glade = s.glade := rfl
@[simp] theorem rset_pending (s : State) (a : Nat) (v : Word) : (s.rset a v).pending = s.pending := rfl

/-! ## `rsetN` -/

@[simp] theorem rsetN_now (s : State) (a v : Nat) : (s.rsetN a v).now = s.now := rfl
@[simp] theorem rsetN_freeCtr (s : State) (a v : Nat) : (s.rsetN a v).freeCtr = s.freeCtr := rfl
@[simp] theorem rsetN_sys (s : State) (a v : Nat) : (s.rsetN a v).sys = s.sys := rfl
@[simp] theorem rsetN_pwr (s : State) (a v : Nat) : (s.rsetN a v).pwr = s.pwr := rfl
@[simp] theorem rsetN_bus (s : State) (a v : Nat) : (s.rsetN a v).bus = s.bus := rfl
@[simp] theorem rsetN_prot (s : State) (a v : Nat) : (s.rsetN a v).prot = s.prot := rfl
@[simp] theorem rsetN_ovl (s : State) (a v : Nat) : (s.rsetN a v).ovl = s.ovl := rfl
@[simp] theorem rsetN_ntu (s : State) (a v : Nat) : (s.rsetN a v).ntu = s.ntu := rfl
@[simp] theorem rsetN_cul (s : State) (a v : Nat) : (s.rsetN a v).cul = s.cul := rfl
@[simp] theorem rsetN_rfe (s : State) (a v : Nat) : (s.rsetN a v).rfe = s.rfe := rfl
@[simp] theorem rsetN_slot (s : State) (a v : Nat) : (s.rsetN a v).slot = s.slot := rfl
@[simp] theorem rsetN_cad (s : State) (a v : Nat) : (s.rsetN a v).cad = s.cad := rfl
@[simp] theorem rsetN_lanes (s : State) (a v : Nat) : (s.rsetN a v).lanes = s.lanes := rfl
@[simp] theorem rsetN_fec (s : State) (a v : Nat) : (s.rsetN a v).fec = s.fec := rfl
@[simp] theorem rsetN_trf (s : State) (a v : Nat) : (s.rsetN a v).trf = s.trf := rfl
@[simp] theorem rsetN_hdr (s : State) (a v : Nat) : (s.rsetN a v).hdr = s.hdr := rfl
@[simp] theorem rsetN_phase (s : State) (a v : Nat) : (s.rsetN a v).phase = s.phase := rfl
@[simp] theorem rsetN_txm (s : State) (a v : Nat) : (s.rsetN a v).txm = s.txm := rfl
@[simp] theorem rsetN_keys (s : State) (a v : Nat) : (s.rsetN a v).keys = s.keys := rfl
@[simp] theorem rsetN_mem (s : State) (a v : Nat) : (s.rsetN a v).mem = s.mem := rfl
@[simp] theorem rsetN_coreA (s : State) (a v : Nat) : (s.rsetN a v).coreA = s.coreA := rfl
@[simp] theorem rsetN_coreG (s : State) (a v : Nat) : (s.rsetN a v).coreG = s.coreG := rfl
@[simp] theorem rsetN_caches (s : State) (a v : Nat) : (s.rsetN a v).caches = s.caches := rfl
@[simp] theorem rsetN_dma (s : State) (a v : Nat) : (s.rsetN a v).dma = s.dma := rfl
@[simp] theorem rsetN_dmaLast (s : State) (a v : Nat) : (s.rsetN a v).dmaLast = s.dmaLast := rfl
@[simp] theorem rsetN_flash (s : State) (a v : Nat) : (s.rsetN a v).flash = s.flash := rfl
@[simp] theorem rsetN_memst (s : State) (a v : Nat) : (s.rsetN a v).memst = s.memst := rfl
@[simp] theorem rsetN_staged (s : State) (a v : Nat) : (s.rsetN a v).staged = s.staged := rfl
@[simp] theorem rsetN_cipu (s : State) (a v : Nat) : (s.rsetN a v).cipu = s.cipu := rfl
@[simp] theorem rsetN_upd (s : State) (a v : Nat) : (s.rsetN a v).upd = s.upd := rfl
@[simp] theorem rsetN_tmr (s : State) (a v : Nat) : (s.rsetN a v).tmr = s.tmr := rfl
@[simp] theorem rsetN_rtc (s : State) (a v : Nat) : (s.rsetN a v).rtc = s.rtc := rfl
@[simp] theorem rsetN_pads (s : State) (a v : Nat) : (s.rsetN a v).pads = s.pads := rfl
@[simp] theorem rsetN_hsp (s : State) (a v : Nat) : (s.rsetN a v).hsp = s.hsp := rfl
@[simp] theorem rsetN_psp (s : State) (a v : Nat) : (s.rsetN a v).psp = s.psp := rfl
@[simp] theorem rsetN_tst (s : State) (a v : Nat) : (s.rsetN a v).tst = s.tst := rfl
@[simp] theorem rsetN_glade (s : State) (a v : Nat) : (s.rsetN a v).glade = s.glade := rfl
@[simp] theorem rsetN_pending (s : State) (a v : Nat) : (s.rsetN a v).pending = s.pending := rfl

/-! ## `fset` -/

@[simp] theorem fset_now (s : State) (f : Fld) (x : Nat) : (s.fset f x).now = s.now := rfl
@[simp] theorem fset_freeCtr (s : State) (f : Fld) (x : Nat) : (s.fset f x).freeCtr = s.freeCtr := rfl
@[simp] theorem fset_sys (s : State) (f : Fld) (x : Nat) : (s.fset f x).sys = s.sys := rfl
@[simp] theorem fset_pwr (s : State) (f : Fld) (x : Nat) : (s.fset f x).pwr = s.pwr := rfl
@[simp] theorem fset_bus (s : State) (f : Fld) (x : Nat) : (s.fset f x).bus = s.bus := rfl
@[simp] theorem fset_prot (s : State) (f : Fld) (x : Nat) : (s.fset f x).prot = s.prot := rfl
@[simp] theorem fset_ovl (s : State) (f : Fld) (x : Nat) : (s.fset f x).ovl = s.ovl := rfl
@[simp] theorem fset_ntu (s : State) (f : Fld) (x : Nat) : (s.fset f x).ntu = s.ntu := rfl
@[simp] theorem fset_cul (s : State) (f : Fld) (x : Nat) : (s.fset f x).cul = s.cul := rfl
@[simp] theorem fset_rfe (s : State) (f : Fld) (x : Nat) : (s.fset f x).rfe = s.rfe := rfl
@[simp] theorem fset_slot (s : State) (f : Fld) (x : Nat) : (s.fset f x).slot = s.slot := rfl
@[simp] theorem fset_cad (s : State) (f : Fld) (x : Nat) : (s.fset f x).cad = s.cad := rfl
@[simp] theorem fset_lanes (s : State) (f : Fld) (x : Nat) : (s.fset f x).lanes = s.lanes := rfl
@[simp] theorem fset_fec (s : State) (f : Fld) (x : Nat) : (s.fset f x).fec = s.fec := rfl
@[simp] theorem fset_trf (s : State) (f : Fld) (x : Nat) : (s.fset f x).trf = s.trf := rfl
@[simp] theorem fset_hdr (s : State) (f : Fld) (x : Nat) : (s.fset f x).hdr = s.hdr := rfl
@[simp] theorem fset_phase (s : State) (f : Fld) (x : Nat) : (s.fset f x).phase = s.phase := rfl
@[simp] theorem fset_txm (s : State) (f : Fld) (x : Nat) : (s.fset f x).txm = s.txm := rfl
@[simp] theorem fset_keys (s : State) (f : Fld) (x : Nat) : (s.fset f x).keys = s.keys := rfl
@[simp] theorem fset_mem (s : State) (f : Fld) (x : Nat) : (s.fset f x).mem = s.mem := rfl
@[simp] theorem fset_coreA (s : State) (f : Fld) (x : Nat) : (s.fset f x).coreA = s.coreA := rfl
@[simp] theorem fset_coreG (s : State) (f : Fld) (x : Nat) : (s.fset f x).coreG = s.coreG := rfl
@[simp] theorem fset_caches (s : State) (f : Fld) (x : Nat) : (s.fset f x).caches = s.caches := rfl
@[simp] theorem fset_dma (s : State) (f : Fld) (x : Nat) : (s.fset f x).dma = s.dma := rfl
@[simp] theorem fset_dmaLast (s : State) (f : Fld) (x : Nat) : (s.fset f x).dmaLast = s.dmaLast := rfl
@[simp] theorem fset_flash (s : State) (f : Fld) (x : Nat) : (s.fset f x).flash = s.flash := rfl
@[simp] theorem fset_memst (s : State) (f : Fld) (x : Nat) : (s.fset f x).memst = s.memst := rfl
@[simp] theorem fset_staged (s : State) (f : Fld) (x : Nat) : (s.fset f x).staged = s.staged := rfl
@[simp] theorem fset_cipu (s : State) (f : Fld) (x : Nat) : (s.fset f x).cipu = s.cipu := rfl
@[simp] theorem fset_upd (s : State) (f : Fld) (x : Nat) : (s.fset f x).upd = s.upd := rfl
@[simp] theorem fset_tmr (s : State) (f : Fld) (x : Nat) : (s.fset f x).tmr = s.tmr := rfl
@[simp] theorem fset_rtc (s : State) (f : Fld) (x : Nat) : (s.fset f x).rtc = s.rtc := rfl
@[simp] theorem fset_pads (s : State) (f : Fld) (x : Nat) : (s.fset f x).pads = s.pads := rfl
@[simp] theorem fset_hsp (s : State) (f : Fld) (x : Nat) : (s.fset f x).hsp = s.hsp := rfl
@[simp] theorem fset_psp (s : State) (f : Fld) (x : Nat) : (s.fset f x).psp = s.psp := rfl
@[simp] theorem fset_tst (s : State) (f : Fld) (x : Nat) : (s.fset f x).tst = s.tst := rfl
@[simp] theorem fset_glade (s : State) (f : Fld) (x : Nat) : (s.fset f x).glade = s.glade := rfl
@[simp] theorem fset_pending (s : State) (f : Fld) (x : Nat) : (s.fset f x).pending = s.pending := rfl

/-! ## `fsetB` -/

@[simp] theorem fsetB_now (s : State) (f : Fld) (b : Bool) : (s.fsetB f b).now = s.now := rfl
@[simp] theorem fsetB_freeCtr (s : State) (f : Fld) (b : Bool) : (s.fsetB f b).freeCtr = s.freeCtr := rfl
@[simp] theorem fsetB_sys (s : State) (f : Fld) (b : Bool) : (s.fsetB f b).sys = s.sys := rfl
@[simp] theorem fsetB_pwr (s : State) (f : Fld) (b : Bool) : (s.fsetB f b).pwr = s.pwr := rfl
@[simp] theorem fsetB_bus (s : State) (f : Fld) (b : Bool) : (s.fsetB f b).bus = s.bus := rfl
@[simp] theorem fsetB_prot (s : State) (f : Fld) (b : Bool) : (s.fsetB f b).prot = s.prot := rfl
@[simp] theorem fsetB_ovl (s : State) (f : Fld) (b : Bool) : (s.fsetB f b).ovl = s.ovl := rfl
@[simp] theorem fsetB_ntu (s : State) (f : Fld) (b : Bool) : (s.fsetB f b).ntu = s.ntu := rfl
@[simp] theorem fsetB_cul (s : State) (f : Fld) (b : Bool) : (s.fsetB f b).cul = s.cul := rfl
@[simp] theorem fsetB_rfe (s : State) (f : Fld) (b : Bool) : (s.fsetB f b).rfe = s.rfe := rfl
@[simp] theorem fsetB_slot (s : State) (f : Fld) (b : Bool) : (s.fsetB f b).slot = s.slot := rfl
@[simp] theorem fsetB_cad (s : State) (f : Fld) (b : Bool) : (s.fsetB f b).cad = s.cad := rfl
@[simp] theorem fsetB_lanes (s : State) (f : Fld) (b : Bool) : (s.fsetB f b).lanes = s.lanes := rfl
@[simp] theorem fsetB_fec (s : State) (f : Fld) (b : Bool) : (s.fsetB f b).fec = s.fec := rfl
@[simp] theorem fsetB_trf (s : State) (f : Fld) (b : Bool) : (s.fsetB f b).trf = s.trf := rfl
@[simp] theorem fsetB_hdr (s : State) (f : Fld) (b : Bool) : (s.fsetB f b).hdr = s.hdr := rfl
@[simp] theorem fsetB_phase (s : State) (f : Fld) (b : Bool) : (s.fsetB f b).phase = s.phase := rfl
@[simp] theorem fsetB_txm (s : State) (f : Fld) (b : Bool) : (s.fsetB f b).txm = s.txm := rfl
@[simp] theorem fsetB_keys (s : State) (f : Fld) (b : Bool) : (s.fsetB f b).keys = s.keys := rfl
@[simp] theorem fsetB_mem (s : State) (f : Fld) (b : Bool) : (s.fsetB f b).mem = s.mem := rfl
@[simp] theorem fsetB_coreA (s : State) (f : Fld) (b : Bool) : (s.fsetB f b).coreA = s.coreA := rfl
@[simp] theorem fsetB_coreG (s : State) (f : Fld) (b : Bool) : (s.fsetB f b).coreG = s.coreG := rfl
@[simp] theorem fsetB_caches (s : State) (f : Fld) (b : Bool) : (s.fsetB f b).caches = s.caches := rfl
@[simp] theorem fsetB_dma (s : State) (f : Fld) (b : Bool) : (s.fsetB f b).dma = s.dma := rfl
@[simp] theorem fsetB_dmaLast (s : State) (f : Fld) (b : Bool) : (s.fsetB f b).dmaLast = s.dmaLast := rfl
@[simp] theorem fsetB_flash (s : State) (f : Fld) (b : Bool) : (s.fsetB f b).flash = s.flash := rfl
@[simp] theorem fsetB_memst (s : State) (f : Fld) (b : Bool) : (s.fsetB f b).memst = s.memst := rfl
@[simp] theorem fsetB_staged (s : State) (f : Fld) (b : Bool) : (s.fsetB f b).staged = s.staged := rfl
@[simp] theorem fsetB_cipu (s : State) (f : Fld) (b : Bool) : (s.fsetB f b).cipu = s.cipu := rfl
@[simp] theorem fsetB_upd (s : State) (f : Fld) (b : Bool) : (s.fsetB f b).upd = s.upd := rfl
@[simp] theorem fsetB_tmr (s : State) (f : Fld) (b : Bool) : (s.fsetB f b).tmr = s.tmr := rfl
@[simp] theorem fsetB_rtc (s : State) (f : Fld) (b : Bool) : (s.fsetB f b).rtc = s.rtc := rfl
@[simp] theorem fsetB_pads (s : State) (f : Fld) (b : Bool) : (s.fsetB f b).pads = s.pads := rfl
@[simp] theorem fsetB_hsp (s : State) (f : Fld) (b : Bool) : (s.fsetB f b).hsp = s.hsp := rfl
@[simp] theorem fsetB_psp (s : State) (f : Fld) (b : Bool) : (s.fsetB f b).psp = s.psp := rfl
@[simp] theorem fsetB_tst (s : State) (f : Fld) (b : Bool) : (s.fsetB f b).tst = s.tst := rfl
@[simp] theorem fsetB_glade (s : State) (f : Fld) (b : Bool) : (s.fsetB f b).glade = s.glade := rfl
@[simp] theorem fsetB_pending (s : State) (f : Fld) (b : Bool) : (s.fsetB f b).pending = s.pending := rfl

/-! ## `fsetI` -/

@[simp] theorem fsetI_now (s : State) (f : Fld) (x : Int) : (s.fsetI f x).now = s.now := rfl
@[simp] theorem fsetI_freeCtr (s : State) (f : Fld) (x : Int) : (s.fsetI f x).freeCtr = s.freeCtr := rfl
@[simp] theorem fsetI_sys (s : State) (f : Fld) (x : Int) : (s.fsetI f x).sys = s.sys := rfl
@[simp] theorem fsetI_pwr (s : State) (f : Fld) (x : Int) : (s.fsetI f x).pwr = s.pwr := rfl
@[simp] theorem fsetI_bus (s : State) (f : Fld) (x : Int) : (s.fsetI f x).bus = s.bus := rfl
@[simp] theorem fsetI_prot (s : State) (f : Fld) (x : Int) : (s.fsetI f x).prot = s.prot := rfl
@[simp] theorem fsetI_ovl (s : State) (f : Fld) (x : Int) : (s.fsetI f x).ovl = s.ovl := rfl
@[simp] theorem fsetI_ntu (s : State) (f : Fld) (x : Int) : (s.fsetI f x).ntu = s.ntu := rfl
@[simp] theorem fsetI_cul (s : State) (f : Fld) (x : Int) : (s.fsetI f x).cul = s.cul := rfl
@[simp] theorem fsetI_rfe (s : State) (f : Fld) (x : Int) : (s.fsetI f x).rfe = s.rfe := rfl
@[simp] theorem fsetI_slot (s : State) (f : Fld) (x : Int) : (s.fsetI f x).slot = s.slot := rfl
@[simp] theorem fsetI_cad (s : State) (f : Fld) (x : Int) : (s.fsetI f x).cad = s.cad := rfl
@[simp] theorem fsetI_lanes (s : State) (f : Fld) (x : Int) : (s.fsetI f x).lanes = s.lanes := rfl
@[simp] theorem fsetI_fec (s : State) (f : Fld) (x : Int) : (s.fsetI f x).fec = s.fec := rfl
@[simp] theorem fsetI_trf (s : State) (f : Fld) (x : Int) : (s.fsetI f x).trf = s.trf := rfl
@[simp] theorem fsetI_hdr (s : State) (f : Fld) (x : Int) : (s.fsetI f x).hdr = s.hdr := rfl
@[simp] theorem fsetI_phase (s : State) (f : Fld) (x : Int) : (s.fsetI f x).phase = s.phase := rfl
@[simp] theorem fsetI_txm (s : State) (f : Fld) (x : Int) : (s.fsetI f x).txm = s.txm := rfl
@[simp] theorem fsetI_keys (s : State) (f : Fld) (x : Int) : (s.fsetI f x).keys = s.keys := rfl
@[simp] theorem fsetI_mem (s : State) (f : Fld) (x : Int) : (s.fsetI f x).mem = s.mem := rfl
@[simp] theorem fsetI_coreA (s : State) (f : Fld) (x : Int) : (s.fsetI f x).coreA = s.coreA := rfl
@[simp] theorem fsetI_coreG (s : State) (f : Fld) (x : Int) : (s.fsetI f x).coreG = s.coreG := rfl
@[simp] theorem fsetI_caches (s : State) (f : Fld) (x : Int) : (s.fsetI f x).caches = s.caches := rfl
@[simp] theorem fsetI_dma (s : State) (f : Fld) (x : Int) : (s.fsetI f x).dma = s.dma := rfl
@[simp] theorem fsetI_dmaLast (s : State) (f : Fld) (x : Int) : (s.fsetI f x).dmaLast = s.dmaLast := rfl
@[simp] theorem fsetI_flash (s : State) (f : Fld) (x : Int) : (s.fsetI f x).flash = s.flash := rfl
@[simp] theorem fsetI_memst (s : State) (f : Fld) (x : Int) : (s.fsetI f x).memst = s.memst := rfl
@[simp] theorem fsetI_staged (s : State) (f : Fld) (x : Int) : (s.fsetI f x).staged = s.staged := rfl
@[simp] theorem fsetI_cipu (s : State) (f : Fld) (x : Int) : (s.fsetI f x).cipu = s.cipu := rfl
@[simp] theorem fsetI_upd (s : State) (f : Fld) (x : Int) : (s.fsetI f x).upd = s.upd := rfl
@[simp] theorem fsetI_tmr (s : State) (f : Fld) (x : Int) : (s.fsetI f x).tmr = s.tmr := rfl
@[simp] theorem fsetI_rtc (s : State) (f : Fld) (x : Int) : (s.fsetI f x).rtc = s.rtc := rfl
@[simp] theorem fsetI_pads (s : State) (f : Fld) (x : Int) : (s.fsetI f x).pads = s.pads := rfl
@[simp] theorem fsetI_hsp (s : State) (f : Fld) (x : Int) : (s.fsetI f x).hsp = s.hsp := rfl
@[simp] theorem fsetI_psp (s : State) (f : Fld) (x : Int) : (s.fsetI f x).psp = s.psp := rfl
@[simp] theorem fsetI_tst (s : State) (f : Fld) (x : Int) : (s.fsetI f x).tst = s.tst := rfl
@[simp] theorem fsetI_glade (s : State) (f : Fld) (x : Int) : (s.fsetI f x).glade = s.glade := rfl
@[simp] theorem fsetI_pending (s : State) (f : Fld) (x : Int) : (s.fsetI f x).pending = s.pending := rfl

/-! ## `fadd` -/

@[simp] theorem fadd_now (s : State) (f : Fld) (n : Nat) : (s.fadd f n).now = s.now := rfl
@[simp] theorem fadd_freeCtr (s : State) (f : Fld) (n : Nat) : (s.fadd f n).freeCtr = s.freeCtr := rfl
@[simp] theorem fadd_sys (s : State) (f : Fld) (n : Nat) : (s.fadd f n).sys = s.sys := rfl
@[simp] theorem fadd_pwr (s : State) (f : Fld) (n : Nat) : (s.fadd f n).pwr = s.pwr := rfl
@[simp] theorem fadd_bus (s : State) (f : Fld) (n : Nat) : (s.fadd f n).bus = s.bus := rfl
@[simp] theorem fadd_prot (s : State) (f : Fld) (n : Nat) : (s.fadd f n).prot = s.prot := rfl
@[simp] theorem fadd_ovl (s : State) (f : Fld) (n : Nat) : (s.fadd f n).ovl = s.ovl := rfl
@[simp] theorem fadd_ntu (s : State) (f : Fld) (n : Nat) : (s.fadd f n).ntu = s.ntu := rfl
@[simp] theorem fadd_cul (s : State) (f : Fld) (n : Nat) : (s.fadd f n).cul = s.cul := rfl
@[simp] theorem fadd_rfe (s : State) (f : Fld) (n : Nat) : (s.fadd f n).rfe = s.rfe := rfl
@[simp] theorem fadd_slot (s : State) (f : Fld) (n : Nat) : (s.fadd f n).slot = s.slot := rfl
@[simp] theorem fadd_cad (s : State) (f : Fld) (n : Nat) : (s.fadd f n).cad = s.cad := rfl
@[simp] theorem fadd_lanes (s : State) (f : Fld) (n : Nat) : (s.fadd f n).lanes = s.lanes := rfl
@[simp] theorem fadd_fec (s : State) (f : Fld) (n : Nat) : (s.fadd f n).fec = s.fec := rfl
@[simp] theorem fadd_trf (s : State) (f : Fld) (n : Nat) : (s.fadd f n).trf = s.trf := rfl
@[simp] theorem fadd_hdr (s : State) (f : Fld) (n : Nat) : (s.fadd f n).hdr = s.hdr := rfl
@[simp] theorem fadd_phase (s : State) (f : Fld) (n : Nat) : (s.fadd f n).phase = s.phase := rfl
@[simp] theorem fadd_txm (s : State) (f : Fld) (n : Nat) : (s.fadd f n).txm = s.txm := rfl
@[simp] theorem fadd_keys (s : State) (f : Fld) (n : Nat) : (s.fadd f n).keys = s.keys := rfl
@[simp] theorem fadd_mem (s : State) (f : Fld) (n : Nat) : (s.fadd f n).mem = s.mem := rfl
@[simp] theorem fadd_coreA (s : State) (f : Fld) (n : Nat) : (s.fadd f n).coreA = s.coreA := rfl
@[simp] theorem fadd_coreG (s : State) (f : Fld) (n : Nat) : (s.fadd f n).coreG = s.coreG := rfl
@[simp] theorem fadd_caches (s : State) (f : Fld) (n : Nat) : (s.fadd f n).caches = s.caches := rfl
@[simp] theorem fadd_dma (s : State) (f : Fld) (n : Nat) : (s.fadd f n).dma = s.dma := rfl
@[simp] theorem fadd_dmaLast (s : State) (f : Fld) (n : Nat) : (s.fadd f n).dmaLast = s.dmaLast := rfl
@[simp] theorem fadd_flash (s : State) (f : Fld) (n : Nat) : (s.fadd f n).flash = s.flash := rfl
@[simp] theorem fadd_memst (s : State) (f : Fld) (n : Nat) : (s.fadd f n).memst = s.memst := rfl
@[simp] theorem fadd_staged (s : State) (f : Fld) (n : Nat) : (s.fadd f n).staged = s.staged := rfl
@[simp] theorem fadd_cipu (s : State) (f : Fld) (n : Nat) : (s.fadd f n).cipu = s.cipu := rfl
@[simp] theorem fadd_upd (s : State) (f : Fld) (n : Nat) : (s.fadd f n).upd = s.upd := rfl
@[simp] theorem fadd_tmr (s : State) (f : Fld) (n : Nat) : (s.fadd f n).tmr = s.tmr := rfl
@[simp] theorem fadd_rtc (s : State) (f : Fld) (n : Nat) : (s.fadd f n).rtc = s.rtc := rfl
@[simp] theorem fadd_pads (s : State) (f : Fld) (n : Nat) : (s.fadd f n).pads = s.pads := rfl
@[simp] theorem fadd_hsp (s : State) (f : Fld) (n : Nat) : (s.fadd f n).hsp = s.hsp := rfl
@[simp] theorem fadd_psp (s : State) (f : Fld) (n : Nat) : (s.fadd f n).psp = s.psp := rfl
@[simp] theorem fadd_tst (s : State) (f : Fld) (n : Nat) : (s.fadd f n).tst = s.tst := rfl
@[simp] theorem fadd_glade (s : State) (f : Fld) (n : Nat) : (s.fadd f n).glade = s.glade := rfl
@[simp] theorem fadd_pending (s : State) (f : Fld) (n : Nat) : (s.fadd f n).pending = s.pending := rfl

/-! ## `finc` -/

@[simp] theorem finc_now (s : State) (f : Fld) : (s.finc f).now = s.now := rfl
@[simp] theorem finc_freeCtr (s : State) (f : Fld) : (s.finc f).freeCtr = s.freeCtr := rfl
@[simp] theorem finc_sys (s : State) (f : Fld) : (s.finc f).sys = s.sys := rfl
@[simp] theorem finc_pwr (s : State) (f : Fld) : (s.finc f).pwr = s.pwr := rfl
@[simp] theorem finc_bus (s : State) (f : Fld) : (s.finc f).bus = s.bus := rfl
@[simp] theorem finc_prot (s : State) (f : Fld) : (s.finc f).prot = s.prot := rfl
@[simp] theorem finc_ovl (s : State) (f : Fld) : (s.finc f).ovl = s.ovl := rfl
@[simp] theorem finc_ntu (s : State) (f : Fld) : (s.finc f).ntu = s.ntu := rfl
@[simp] theorem finc_cul (s : State) (f : Fld) : (s.finc f).cul = s.cul := rfl
@[simp] theorem finc_rfe (s : State) (f : Fld) : (s.finc f).rfe = s.rfe := rfl
@[simp] theorem finc_slot (s : State) (f : Fld) : (s.finc f).slot = s.slot := rfl
@[simp] theorem finc_cad (s : State) (f : Fld) : (s.finc f).cad = s.cad := rfl
@[simp] theorem finc_lanes (s : State) (f : Fld) : (s.finc f).lanes = s.lanes := rfl
@[simp] theorem finc_fec (s : State) (f : Fld) : (s.finc f).fec = s.fec := rfl
@[simp] theorem finc_trf (s : State) (f : Fld) : (s.finc f).trf = s.trf := rfl
@[simp] theorem finc_hdr (s : State) (f : Fld) : (s.finc f).hdr = s.hdr := rfl
@[simp] theorem finc_phase (s : State) (f : Fld) : (s.finc f).phase = s.phase := rfl
@[simp] theorem finc_txm (s : State) (f : Fld) : (s.finc f).txm = s.txm := rfl
@[simp] theorem finc_keys (s : State) (f : Fld) : (s.finc f).keys = s.keys := rfl
@[simp] theorem finc_mem (s : State) (f : Fld) : (s.finc f).mem = s.mem := rfl
@[simp] theorem finc_coreA (s : State) (f : Fld) : (s.finc f).coreA = s.coreA := rfl
@[simp] theorem finc_coreG (s : State) (f : Fld) : (s.finc f).coreG = s.coreG := rfl
@[simp] theorem finc_caches (s : State) (f : Fld) : (s.finc f).caches = s.caches := rfl
@[simp] theorem finc_dma (s : State) (f : Fld) : (s.finc f).dma = s.dma := rfl
@[simp] theorem finc_dmaLast (s : State) (f : Fld) : (s.finc f).dmaLast = s.dmaLast := rfl
@[simp] theorem finc_flash (s : State) (f : Fld) : (s.finc f).flash = s.flash := rfl
@[simp] theorem finc_memst (s : State) (f : Fld) : (s.finc f).memst = s.memst := rfl
@[simp] theorem finc_staged (s : State) (f : Fld) : (s.finc f).staged = s.staged := rfl
@[simp] theorem finc_cipu (s : State) (f : Fld) : (s.finc f).cipu = s.cipu := rfl
@[simp] theorem finc_upd (s : State) (f : Fld) : (s.finc f).upd = s.upd := rfl
@[simp] theorem finc_tmr (s : State) (f : Fld) : (s.finc f).tmr = s.tmr := rfl
@[simp] theorem finc_rtc (s : State) (f : Fld) : (s.finc f).rtc = s.rtc := rfl
@[simp] theorem finc_pads (s : State) (f : Fld) : (s.finc f).pads = s.pads := rfl
@[simp] theorem finc_hsp (s : State) (f : Fld) : (s.finc f).hsp = s.hsp := rfl
@[simp] theorem finc_psp (s : State) (f : Fld) : (s.finc f).psp = s.psp := rfl
@[simp] theorem finc_tst (s : State) (f : Fld) : (s.finc f).tst = s.tst := rfl
@[simp] theorem finc_glade (s : State) (f : Fld) : (s.finc f).glade = s.glade := rfl
@[simp] theorem finc_pending (s : State) (f : Fld) : (s.finc f).pending = s.pending := rfl

/-! ## `raise` -/

@[simp] theorem raise_now (s : State) (p b : Nat) : (s.raise p b).now = s.now := rfl
@[simp] theorem raise_freeCtr (s : State) (p b : Nat) : (s.raise p b).freeCtr = s.freeCtr := rfl
@[simp] theorem raise_sys (s : State) (p b : Nat) : (s.raise p b).sys = s.sys := rfl
@[simp] theorem raise_pwr (s : State) (p b : Nat) : (s.raise p b).pwr = s.pwr := rfl
@[simp] theorem raise_bus (s : State) (p b : Nat) : (s.raise p b).bus = s.bus := rfl
@[simp] theorem raise_prot (s : State) (p b : Nat) : (s.raise p b).prot = s.prot := rfl
@[simp] theorem raise_ovl (s : State) (p b : Nat) : (s.raise p b).ovl = s.ovl := rfl
@[simp] theorem raise_ntu (s : State) (p b : Nat) : (s.raise p b).ntu = s.ntu := rfl
@[simp] theorem raise_cul (s : State) (p b : Nat) : (s.raise p b).cul = s.cul := rfl
@[simp] theorem raise_rfe (s : State) (p b : Nat) : (s.raise p b).rfe = s.rfe := rfl
@[simp] theorem raise_slot (s : State) (p b : Nat) : (s.raise p b).slot = s.slot := rfl
@[simp] theorem raise_cad (s : State) (p b : Nat) : (s.raise p b).cad = s.cad := rfl
@[simp] theorem raise_lanes (s : State) (p b : Nat) : (s.raise p b).lanes = s.lanes := rfl
@[simp] theorem raise_fec (s : State) (p b : Nat) : (s.raise p b).fec = s.fec := rfl
@[simp] theorem raise_trf (s : State) (p b : Nat) : (s.raise p b).trf = s.trf := rfl
@[simp] theorem raise_hdr (s : State) (p b : Nat) : (s.raise p b).hdr = s.hdr := rfl
@[simp] theorem raise_phase (s : State) (p b : Nat) : (s.raise p b).phase = s.phase := rfl
@[simp] theorem raise_txm (s : State) (p b : Nat) : (s.raise p b).txm = s.txm := rfl
@[simp] theorem raise_keys (s : State) (p b : Nat) : (s.raise p b).keys = s.keys := rfl
@[simp] theorem raise_mem (s : State) (p b : Nat) : (s.raise p b).mem = s.mem := rfl
@[simp] theorem raise_coreA (s : State) (p b : Nat) : (s.raise p b).coreA = s.coreA := rfl
@[simp] theorem raise_coreG (s : State) (p b : Nat) : (s.raise p b).coreG = s.coreG := rfl
@[simp] theorem raise_caches (s : State) (p b : Nat) : (s.raise p b).caches = s.caches := rfl
@[simp] theorem raise_dma (s : State) (p b : Nat) : (s.raise p b).dma = s.dma := rfl
@[simp] theorem raise_dmaLast (s : State) (p b : Nat) : (s.raise p b).dmaLast = s.dmaLast := rfl
@[simp] theorem raise_flash (s : State) (p b : Nat) : (s.raise p b).flash = s.flash := rfl
@[simp] theorem raise_memst (s : State) (p b : Nat) : (s.raise p b).memst = s.memst := rfl
@[simp] theorem raise_staged (s : State) (p b : Nat) : (s.raise p b).staged = s.staged := rfl
@[simp] theorem raise_cipu (s : State) (p b : Nat) : (s.raise p b).cipu = s.cipu := rfl
@[simp] theorem raise_upd (s : State) (p b : Nat) : (s.raise p b).upd = s.upd := rfl
@[simp] theorem raise_tmr (s : State) (p b : Nat) : (s.raise p b).tmr = s.tmr := rfl
@[simp] theorem raise_rtc (s : State) (p b : Nat) : (s.raise p b).rtc = s.rtc := rfl
@[simp] theorem raise_pads (s : State) (p b : Nat) : (s.raise p b).pads = s.pads := rfl
@[simp] theorem raise_hsp (s : State) (p b : Nat) : (s.raise p b).hsp = s.hsp := rfl
@[simp] theorem raise_psp (s : State) (p b : Nat) : (s.raise p b).psp = s.psp := rfl
@[simp] theorem raise_tst (s : State) (p b : Nat) : (s.raise p b).tst = s.tst := rfl
@[simp] theorem raise_glade (s : State) (p b : Nat) : (s.raise p b).glade = s.glade := rfl
@[simp] theorem raise_pending (s : State) (p b : Nat) : (s.raise p b).pending = s.pending := rfl

/-! ## `resetRegs` -/

@[simp] theorem resetRegs_now (s : State) (p : Nat → Bool) : (s.resetRegs p).now = s.now := rfl
@[simp] theorem resetRegs_freeCtr (s : State) (p : Nat → Bool) : (s.resetRegs p).freeCtr = s.freeCtr := rfl
@[simp] theorem resetRegs_sys (s : State) (p : Nat → Bool) : (s.resetRegs p).sys = s.sys := rfl
@[simp] theorem resetRegs_pwr (s : State) (p : Nat → Bool) : (s.resetRegs p).pwr = s.pwr := rfl
@[simp] theorem resetRegs_bus (s : State) (p : Nat → Bool) : (s.resetRegs p).bus = s.bus := rfl
@[simp] theorem resetRegs_prot (s : State) (p : Nat → Bool) : (s.resetRegs p).prot = s.prot := rfl
@[simp] theorem resetRegs_ovl (s : State) (p : Nat → Bool) : (s.resetRegs p).ovl = s.ovl := rfl
@[simp] theorem resetRegs_ntu (s : State) (p : Nat → Bool) : (s.resetRegs p).ntu = s.ntu := rfl
@[simp] theorem resetRegs_cul (s : State) (p : Nat → Bool) : (s.resetRegs p).cul = s.cul := rfl
@[simp] theorem resetRegs_rfe (s : State) (p : Nat → Bool) : (s.resetRegs p).rfe = s.rfe := rfl
@[simp] theorem resetRegs_slot (s : State) (p : Nat → Bool) : (s.resetRegs p).slot = s.slot := rfl
@[simp] theorem resetRegs_cad (s : State) (p : Nat → Bool) : (s.resetRegs p).cad = s.cad := rfl
@[simp] theorem resetRegs_lanes (s : State) (p : Nat → Bool) : (s.resetRegs p).lanes = s.lanes := rfl
@[simp] theorem resetRegs_fec (s : State) (p : Nat → Bool) : (s.resetRegs p).fec = s.fec := rfl
@[simp] theorem resetRegs_trf (s : State) (p : Nat → Bool) : (s.resetRegs p).trf = s.trf := rfl
@[simp] theorem resetRegs_hdr (s : State) (p : Nat → Bool) : (s.resetRegs p).hdr = s.hdr := rfl
@[simp] theorem resetRegs_phase (s : State) (p : Nat → Bool) : (s.resetRegs p).phase = s.phase := rfl
@[simp] theorem resetRegs_txm (s : State) (p : Nat → Bool) : (s.resetRegs p).txm = s.txm := rfl
@[simp] theorem resetRegs_keys (s : State) (p : Nat → Bool) : (s.resetRegs p).keys = s.keys := rfl
@[simp] theorem resetRegs_mem (s : State) (p : Nat → Bool) : (s.resetRegs p).mem = s.mem := rfl
@[simp] theorem resetRegs_coreA (s : State) (p : Nat → Bool) : (s.resetRegs p).coreA = s.coreA := rfl
@[simp] theorem resetRegs_coreG (s : State) (p : Nat → Bool) : (s.resetRegs p).coreG = s.coreG := rfl
@[simp] theorem resetRegs_caches (s : State) (p : Nat → Bool) : (s.resetRegs p).caches = s.caches := rfl
@[simp] theorem resetRegs_dma (s : State) (p : Nat → Bool) : (s.resetRegs p).dma = s.dma := rfl
@[simp] theorem resetRegs_dmaLast (s : State) (p : Nat → Bool) : (s.resetRegs p).dmaLast = s.dmaLast := rfl
@[simp] theorem resetRegs_flash (s : State) (p : Nat → Bool) : (s.resetRegs p).flash = s.flash := rfl
@[simp] theorem resetRegs_memst (s : State) (p : Nat → Bool) : (s.resetRegs p).memst = s.memst := rfl
@[simp] theorem resetRegs_staged (s : State) (p : Nat → Bool) : (s.resetRegs p).staged = s.staged := rfl
@[simp] theorem resetRegs_cipu (s : State) (p : Nat → Bool) : (s.resetRegs p).cipu = s.cipu := rfl
@[simp] theorem resetRegs_upd (s : State) (p : Nat → Bool) : (s.resetRegs p).upd = s.upd := rfl
@[simp] theorem resetRegs_tmr (s : State) (p : Nat → Bool) : (s.resetRegs p).tmr = s.tmr := rfl
@[simp] theorem resetRegs_rtc (s : State) (p : Nat → Bool) : (s.resetRegs p).rtc = s.rtc := rfl
@[simp] theorem resetRegs_pads (s : State) (p : Nat → Bool) : (s.resetRegs p).pads = s.pads := rfl
@[simp] theorem resetRegs_hsp (s : State) (p : Nat → Bool) : (s.resetRegs p).hsp = s.hsp := rfl
@[simp] theorem resetRegs_psp (s : State) (p : Nat → Bool) : (s.resetRegs p).psp = s.psp := rfl
@[simp] theorem resetRegs_tst (s : State) (p : Nat → Bool) : (s.resetRegs p).tst = s.tst := rfl
@[simp] theorem resetRegs_glade (s : State) (p : Nat → Bool) : (s.resetRegs p).glade = s.glade := rfl
@[simp] theorem resetRegs_pending (s : State) (p : Nat → Bool) : (s.resetRegs p).pending = s.pending := rfl

/-! ## `freeStep` -/

@[simp] theorem freeStep_regs (s : State) : (s.freeStep).regs = s.regs := rfl
@[simp] theorem freeStep_now (s : State) : (s.freeStep).now = s.now := rfl
@[simp] theorem freeStep_sys (s : State) : (s.freeStep).sys = s.sys := rfl
@[simp] theorem freeStep_pwr (s : State) : (s.freeStep).pwr = s.pwr := rfl
@[simp] theorem freeStep_bus (s : State) : (s.freeStep).bus = s.bus := rfl
@[simp] theorem freeStep_prot (s : State) : (s.freeStep).prot = s.prot := rfl
@[simp] theorem freeStep_ovl (s : State) : (s.freeStep).ovl = s.ovl := rfl
@[simp] theorem freeStep_ntu (s : State) : (s.freeStep).ntu = s.ntu := rfl
@[simp] theorem freeStep_cul (s : State) : (s.freeStep).cul = s.cul := rfl
@[simp] theorem freeStep_rfe (s : State) : (s.freeStep).rfe = s.rfe := rfl
@[simp] theorem freeStep_slot (s : State) : (s.freeStep).slot = s.slot := rfl
@[simp] theorem freeStep_cad (s : State) : (s.freeStep).cad = s.cad := rfl
@[simp] theorem freeStep_lanes (s : State) : (s.freeStep).lanes = s.lanes := rfl
@[simp] theorem freeStep_fec (s : State) : (s.freeStep).fec = s.fec := rfl
@[simp] theorem freeStep_trf (s : State) : (s.freeStep).trf = s.trf := rfl
@[simp] theorem freeStep_hdr (s : State) : (s.freeStep).hdr = s.hdr := rfl
@[simp] theorem freeStep_phase (s : State) : (s.freeStep).phase = s.phase := rfl
@[simp] theorem freeStep_txm (s : State) : (s.freeStep).txm = s.txm := rfl
@[simp] theorem freeStep_keys (s : State) : (s.freeStep).keys = s.keys := rfl
@[simp] theorem freeStep_mem (s : State) : (s.freeStep).mem = s.mem := rfl
@[simp] theorem freeStep_coreA (s : State) : (s.freeStep).coreA = s.coreA := rfl
@[simp] theorem freeStep_coreG (s : State) : (s.freeStep).coreG = s.coreG := rfl
@[simp] theorem freeStep_caches (s : State) : (s.freeStep).caches = s.caches := rfl
@[simp] theorem freeStep_dma (s : State) : (s.freeStep).dma = s.dma := rfl
@[simp] theorem freeStep_dmaLast (s : State) : (s.freeStep).dmaLast = s.dmaLast := rfl
@[simp] theorem freeStep_flash (s : State) : (s.freeStep).flash = s.flash := rfl
@[simp] theorem freeStep_memst (s : State) : (s.freeStep).memst = s.memst := rfl
@[simp] theorem freeStep_staged (s : State) : (s.freeStep).staged = s.staged := rfl
@[simp] theorem freeStep_cipu (s : State) : (s.freeStep).cipu = s.cipu := rfl
@[simp] theorem freeStep_upd (s : State) : (s.freeStep).upd = s.upd := rfl
@[simp] theorem freeStep_tmr (s : State) : (s.freeStep).tmr = s.tmr := rfl
@[simp] theorem freeStep_rtc (s : State) : (s.freeStep).rtc = s.rtc := rfl
@[simp] theorem freeStep_pads (s : State) : (s.freeStep).pads = s.pads := rfl
@[simp] theorem freeStep_hsp (s : State) : (s.freeStep).hsp = s.hsp := rfl
@[simp] theorem freeStep_psp (s : State) : (s.freeStep).psp = s.psp := rfl
@[simp] theorem freeStep_tst (s : State) : (s.freeStep).tst = s.tst := rfl
@[simp] theorem freeStep_glade (s : State) : (s.freeStep).glade = s.glade := rfl
@[simp] theorem freeStep_pending (s : State) : (s.freeStep).pending = s.pending := rfl

/-! ## `setByte` -/

@[simp] theorem setByte_regs (s : State) (a : Nat) (v : Byte) : (s.setByte a v).regs = s.regs := rfl
@[simp] theorem setByte_now (s : State) (a : Nat) (v : Byte) : (s.setByte a v).now = s.now := rfl
@[simp] theorem setByte_freeCtr (s : State) (a : Nat) (v : Byte) : (s.setByte a v).freeCtr = s.freeCtr := rfl
@[simp] theorem setByte_sys (s : State) (a : Nat) (v : Byte) : (s.setByte a v).sys = s.sys := rfl
@[simp] theorem setByte_pwr (s : State) (a : Nat) (v : Byte) : (s.setByte a v).pwr = s.pwr := rfl
@[simp] theorem setByte_bus (s : State) (a : Nat) (v : Byte) : (s.setByte a v).bus = s.bus := rfl
@[simp] theorem setByte_prot (s : State) (a : Nat) (v : Byte) : (s.setByte a v).prot = s.prot := rfl
@[simp] theorem setByte_ovl (s : State) (a : Nat) (v : Byte) : (s.setByte a v).ovl = s.ovl := rfl
@[simp] theorem setByte_ntu (s : State) (a : Nat) (v : Byte) : (s.setByte a v).ntu = s.ntu := rfl
@[simp] theorem setByte_cul (s : State) (a : Nat) (v : Byte) : (s.setByte a v).cul = s.cul := rfl
@[simp] theorem setByte_rfe (s : State) (a : Nat) (v : Byte) : (s.setByte a v).rfe = s.rfe := rfl
@[simp] theorem setByte_slot (s : State) (a : Nat) (v : Byte) : (s.setByte a v).slot = s.slot := rfl
@[simp] theorem setByte_cad (s : State) (a : Nat) (v : Byte) : (s.setByte a v).cad = s.cad := rfl
@[simp] theorem setByte_lanes (s : State) (a : Nat) (v : Byte) : (s.setByte a v).lanes = s.lanes := rfl
@[simp] theorem setByte_fec (s : State) (a : Nat) (v : Byte) : (s.setByte a v).fec = s.fec := rfl
@[simp] theorem setByte_trf (s : State) (a : Nat) (v : Byte) : (s.setByte a v).trf = s.trf := rfl
@[simp] theorem setByte_hdr (s : State) (a : Nat) (v : Byte) : (s.setByte a v).hdr = s.hdr := rfl
@[simp] theorem setByte_phase (s : State) (a : Nat) (v : Byte) : (s.setByte a v).phase = s.phase := rfl
@[simp] theorem setByte_txm (s : State) (a : Nat) (v : Byte) : (s.setByte a v).txm = s.txm := rfl
@[simp] theorem setByte_keys (s : State) (a : Nat) (v : Byte) : (s.setByte a v).keys = s.keys := rfl
@[simp] theorem setByte_coreA (s : State) (a : Nat) (v : Byte) : (s.setByte a v).coreA = s.coreA := rfl
@[simp] theorem setByte_coreG (s : State) (a : Nat) (v : Byte) : (s.setByte a v).coreG = s.coreG := rfl
@[simp] theorem setByte_caches (s : State) (a : Nat) (v : Byte) : (s.setByte a v).caches = s.caches := rfl
@[simp] theorem setByte_dma (s : State) (a : Nat) (v : Byte) : (s.setByte a v).dma = s.dma := rfl
@[simp] theorem setByte_dmaLast (s : State) (a : Nat) (v : Byte) : (s.setByte a v).dmaLast = s.dmaLast := rfl
@[simp] theorem setByte_flash (s : State) (a : Nat) (v : Byte) : (s.setByte a v).flash = s.flash := rfl
@[simp] theorem setByte_memst (s : State) (a : Nat) (v : Byte) : (s.setByte a v).memst = s.memst := rfl
@[simp] theorem setByte_staged (s : State) (a : Nat) (v : Byte) : (s.setByte a v).staged = s.staged := rfl
@[simp] theorem setByte_cipu (s : State) (a : Nat) (v : Byte) : (s.setByte a v).cipu = s.cipu := rfl
@[simp] theorem setByte_upd (s : State) (a : Nat) (v : Byte) : (s.setByte a v).upd = s.upd := rfl
@[simp] theorem setByte_tmr (s : State) (a : Nat) (v : Byte) : (s.setByte a v).tmr = s.tmr := rfl
@[simp] theorem setByte_rtc (s : State) (a : Nat) (v : Byte) : (s.setByte a v).rtc = s.rtc := rfl
@[simp] theorem setByte_pads (s : State) (a : Nat) (v : Byte) : (s.setByte a v).pads = s.pads := rfl
@[simp] theorem setByte_hsp (s : State) (a : Nat) (v : Byte) : (s.setByte a v).hsp = s.hsp := rfl
@[simp] theorem setByte_psp (s : State) (a : Nat) (v : Byte) : (s.setByte a v).psp = s.psp := rfl
@[simp] theorem setByte_tst (s : State) (a : Nat) (v : Byte) : (s.setByte a v).tst = s.tst := rfl
@[simp] theorem setByte_glade (s : State) (a : Nat) (v : Byte) : (s.setByte a v).glade = s.glade := rfl
@[simp] theorem setByte_pending (s : State) (a : Nat) (v : Byte) : (s.setByte a v).pending = s.pending := rfl

/-! ## `clearRange` -/

@[simp] theorem clearRange_regs (s : State) (lo hi : Nat) : (s.clearRange lo hi).regs = s.regs := rfl
@[simp] theorem clearRange_now (s : State) (lo hi : Nat) : (s.clearRange lo hi).now = s.now := rfl
@[simp] theorem clearRange_freeCtr (s : State) (lo hi : Nat) : (s.clearRange lo hi).freeCtr = s.freeCtr := rfl
@[simp] theorem clearRange_sys (s : State) (lo hi : Nat) : (s.clearRange lo hi).sys = s.sys := rfl
@[simp] theorem clearRange_pwr (s : State) (lo hi : Nat) : (s.clearRange lo hi).pwr = s.pwr := rfl
@[simp] theorem clearRange_bus (s : State) (lo hi : Nat) : (s.clearRange lo hi).bus = s.bus := rfl
@[simp] theorem clearRange_prot (s : State) (lo hi : Nat) : (s.clearRange lo hi).prot = s.prot := rfl
@[simp] theorem clearRange_ovl (s : State) (lo hi : Nat) : (s.clearRange lo hi).ovl = s.ovl := rfl
@[simp] theorem clearRange_ntu (s : State) (lo hi : Nat) : (s.clearRange lo hi).ntu = s.ntu := rfl
@[simp] theorem clearRange_cul (s : State) (lo hi : Nat) : (s.clearRange lo hi).cul = s.cul := rfl
@[simp] theorem clearRange_rfe (s : State) (lo hi : Nat) : (s.clearRange lo hi).rfe = s.rfe := rfl
@[simp] theorem clearRange_slot (s : State) (lo hi : Nat) : (s.clearRange lo hi).slot = s.slot := rfl
@[simp] theorem clearRange_cad (s : State) (lo hi : Nat) : (s.clearRange lo hi).cad = s.cad := rfl
@[simp] theorem clearRange_lanes (s : State) (lo hi : Nat) : (s.clearRange lo hi).lanes = s.lanes := rfl
@[simp] theorem clearRange_fec (s : State) (lo hi : Nat) : (s.clearRange lo hi).fec = s.fec := rfl
@[simp] theorem clearRange_trf (s : State) (lo hi : Nat) : (s.clearRange lo hi).trf = s.trf := rfl
@[simp] theorem clearRange_hdr (s : State) (lo hi : Nat) : (s.clearRange lo hi).hdr = s.hdr := rfl
@[simp] theorem clearRange_phase (s : State) (lo hi : Nat) : (s.clearRange lo hi).phase = s.phase := rfl
@[simp] theorem clearRange_txm (s : State) (lo hi : Nat) : (s.clearRange lo hi).txm = s.txm := rfl
@[simp] theorem clearRange_keys (s : State) (lo hi : Nat) : (s.clearRange lo hi).keys = s.keys := rfl
@[simp] theorem clearRange_coreA (s : State) (lo hi : Nat) : (s.clearRange lo hi).coreA = s.coreA := rfl
@[simp] theorem clearRange_coreG (s : State) (lo hi : Nat) : (s.clearRange lo hi).coreG = s.coreG := rfl
@[simp] theorem clearRange_caches (s : State) (lo hi : Nat) : (s.clearRange lo hi).caches = s.caches := rfl
@[simp] theorem clearRange_dma (s : State) (lo hi : Nat) : (s.clearRange lo hi).dma = s.dma := rfl
@[simp] theorem clearRange_dmaLast (s : State) (lo hi : Nat) : (s.clearRange lo hi).dmaLast = s.dmaLast := rfl
@[simp] theorem clearRange_flash (s : State) (lo hi : Nat) : (s.clearRange lo hi).flash = s.flash := rfl
@[simp] theorem clearRange_memst (s : State) (lo hi : Nat) : (s.clearRange lo hi).memst = s.memst := rfl
@[simp] theorem clearRange_staged (s : State) (lo hi : Nat) : (s.clearRange lo hi).staged = s.staged := rfl
@[simp] theorem clearRange_cipu (s : State) (lo hi : Nat) : (s.clearRange lo hi).cipu = s.cipu := rfl
@[simp] theorem clearRange_upd (s : State) (lo hi : Nat) : (s.clearRange lo hi).upd = s.upd := rfl
@[simp] theorem clearRange_tmr (s : State) (lo hi : Nat) : (s.clearRange lo hi).tmr = s.tmr := rfl
@[simp] theorem clearRange_rtc (s : State) (lo hi : Nat) : (s.clearRange lo hi).rtc = s.rtc := rfl
@[simp] theorem clearRange_pads (s : State) (lo hi : Nat) : (s.clearRange lo hi).pads = s.pads := rfl
@[simp] theorem clearRange_hsp (s : State) (lo hi : Nat) : (s.clearRange lo hi).hsp = s.hsp := rfl
@[simp] theorem clearRange_psp (s : State) (lo hi : Nat) : (s.clearRange lo hi).psp = s.psp := rfl
@[simp] theorem clearRange_tst (s : State) (lo hi : Nat) : (s.clearRange lo hi).tst = s.tst := rfl
@[simp] theorem clearRange_glade (s : State) (lo hi : Nat) : (s.clearRange lo hi).glade = s.glade := rfl
@[simp] theorem clearRange_pending (s : State) (lo hi : Nat) : (s.clearRange lo hi).pending = s.pending := rfl

/-! ## `setProt` -/

@[simp] theorem setProt_regs (s : State) (f : ProtState → ProtState) : (s.setProt f).regs = s.regs := rfl
@[simp] theorem setProt_now (s : State) (f : ProtState → ProtState) : (s.setProt f).now = s.now := rfl
@[simp] theorem setProt_freeCtr (s : State) (f : ProtState → ProtState) : (s.setProt f).freeCtr = s.freeCtr := rfl
@[simp] theorem setProt_sys (s : State) (f : ProtState → ProtState) : (s.setProt f).sys = s.sys := rfl
@[simp] theorem setProt_pwr (s : State) (f : ProtState → ProtState) : (s.setProt f).pwr = s.pwr := rfl
@[simp] theorem setProt_bus (s : State) (f : ProtState → ProtState) : (s.setProt f).bus = s.bus := rfl
@[simp] theorem setProt_ovl (s : State) (f : ProtState → ProtState) : (s.setProt f).ovl = s.ovl := rfl
@[simp] theorem setProt_ntu (s : State) (f : ProtState → ProtState) : (s.setProt f).ntu = s.ntu := rfl
@[simp] theorem setProt_cul (s : State) (f : ProtState → ProtState) : (s.setProt f).cul = s.cul := rfl
@[simp] theorem setProt_rfe (s : State) (f : ProtState → ProtState) : (s.setProt f).rfe = s.rfe := rfl
@[simp] theorem setProt_slot (s : State) (f : ProtState → ProtState) : (s.setProt f).slot = s.slot := rfl
@[simp] theorem setProt_cad (s : State) (f : ProtState → ProtState) : (s.setProt f).cad = s.cad := rfl
@[simp] theorem setProt_lanes (s : State) (f : ProtState → ProtState) : (s.setProt f).lanes = s.lanes := rfl
@[simp] theorem setProt_fec (s : State) (f : ProtState → ProtState) : (s.setProt f).fec = s.fec := rfl
@[simp] theorem setProt_trf (s : State) (f : ProtState → ProtState) : (s.setProt f).trf = s.trf := rfl
@[simp] theorem setProt_hdr (s : State) (f : ProtState → ProtState) : (s.setProt f).hdr = s.hdr := rfl
@[simp] theorem setProt_phase (s : State) (f : ProtState → ProtState) : (s.setProt f).phase = s.phase := rfl
@[simp] theorem setProt_txm (s : State) (f : ProtState → ProtState) : (s.setProt f).txm = s.txm := rfl
@[simp] theorem setProt_keys (s : State) (f : ProtState → ProtState) : (s.setProt f).keys = s.keys := rfl
@[simp] theorem setProt_mem (s : State) (f : ProtState → ProtState) : (s.setProt f).mem = s.mem := rfl
@[simp] theorem setProt_coreA (s : State) (f : ProtState → ProtState) : (s.setProt f).coreA = s.coreA := rfl
@[simp] theorem setProt_coreG (s : State) (f : ProtState → ProtState) : (s.setProt f).coreG = s.coreG := rfl
@[simp] theorem setProt_caches (s : State) (f : ProtState → ProtState) : (s.setProt f).caches = s.caches := rfl
@[simp] theorem setProt_dma (s : State) (f : ProtState → ProtState) : (s.setProt f).dma = s.dma := rfl
@[simp] theorem setProt_dmaLast (s : State) (f : ProtState → ProtState) : (s.setProt f).dmaLast = s.dmaLast := rfl
@[simp] theorem setProt_flash (s : State) (f : ProtState → ProtState) : (s.setProt f).flash = s.flash := rfl
@[simp] theorem setProt_memst (s : State) (f : ProtState → ProtState) : (s.setProt f).memst = s.memst := rfl
@[simp] theorem setProt_staged (s : State) (f : ProtState → ProtState) : (s.setProt f).staged = s.staged := rfl
@[simp] theorem setProt_cipu (s : State) (f : ProtState → ProtState) : (s.setProt f).cipu = s.cipu := rfl
@[simp] theorem setProt_upd (s : State) (f : ProtState → ProtState) : (s.setProt f).upd = s.upd := rfl
@[simp] theorem setProt_tmr (s : State) (f : ProtState → ProtState) : (s.setProt f).tmr = s.tmr := rfl
@[simp] theorem setProt_rtc (s : State) (f : ProtState → ProtState) : (s.setProt f).rtc = s.rtc := rfl
@[simp] theorem setProt_pads (s : State) (f : ProtState → ProtState) : (s.setProt f).pads = s.pads := rfl
@[simp] theorem setProt_hsp (s : State) (f : ProtState → ProtState) : (s.setProt f).hsp = s.hsp := rfl
@[simp] theorem setProt_psp (s : State) (f : ProtState → ProtState) : (s.setProt f).psp = s.psp := rfl
@[simp] theorem setProt_tst (s : State) (f : ProtState → ProtState) : (s.setProt f).tst = s.tst := rfl
@[simp] theorem setProt_glade (s : State) (f : ProtState → ProtState) : (s.setProt f).glade = s.glade := rfl
@[simp] theorem setProt_pending (s : State) (f : ProtState → ProtState) : (s.setProt f).pending = s.pending := rfl

/-! ## `setCad` -/

@[simp] theorem setCad_regs (s : State) (f : CadState → CadState) : (s.setCad f).regs = s.regs := rfl
@[simp] theorem setCad_now (s : State) (f : CadState → CadState) : (s.setCad f).now = s.now := rfl
@[simp] theorem setCad_freeCtr (s : State) (f : CadState → CadState) : (s.setCad f).freeCtr = s.freeCtr := rfl
@[simp] theorem setCad_sys (s : State) (f : CadState → CadState) : (s.setCad f).sys = s.sys := rfl
@[simp] theorem setCad_pwr (s : State) (f : CadState → CadState) : (s.setCad f).pwr = s.pwr := rfl
@[simp] theorem setCad_bus (s : State) (f : CadState → CadState) : (s.setCad f).bus = s.bus := rfl
@[simp] theorem setCad_prot (s : State) (f : CadState → CadState) : (s.setCad f).prot = s.prot := rfl
@[simp] theorem setCad_ovl (s : State) (f : CadState → CadState) : (s.setCad f).ovl = s.ovl := rfl
@[simp] theorem setCad_ntu (s : State) (f : CadState → CadState) : (s.setCad f).ntu = s.ntu := rfl
@[simp] theorem setCad_cul (s : State) (f : CadState → CadState) : (s.setCad f).cul = s.cul := rfl
@[simp] theorem setCad_rfe (s : State) (f : CadState → CadState) : (s.setCad f).rfe = s.rfe := rfl
@[simp] theorem setCad_slot (s : State) (f : CadState → CadState) : (s.setCad f).slot = s.slot := rfl
@[simp] theorem setCad_lanes (s : State) (f : CadState → CadState) : (s.setCad f).lanes = s.lanes := rfl
@[simp] theorem setCad_fec (s : State) (f : CadState → CadState) : (s.setCad f).fec = s.fec := rfl
@[simp] theorem setCad_trf (s : State) (f : CadState → CadState) : (s.setCad f).trf = s.trf := rfl
@[simp] theorem setCad_hdr (s : State) (f : CadState → CadState) : (s.setCad f).hdr = s.hdr := rfl
@[simp] theorem setCad_phase (s : State) (f : CadState → CadState) : (s.setCad f).phase = s.phase := rfl
@[simp] theorem setCad_txm (s : State) (f : CadState → CadState) : (s.setCad f).txm = s.txm := rfl
@[simp] theorem setCad_keys (s : State) (f : CadState → CadState) : (s.setCad f).keys = s.keys := rfl
@[simp] theorem setCad_mem (s : State) (f : CadState → CadState) : (s.setCad f).mem = s.mem := rfl
@[simp] theorem setCad_coreA (s : State) (f : CadState → CadState) : (s.setCad f).coreA = s.coreA := rfl
@[simp] theorem setCad_coreG (s : State) (f : CadState → CadState) : (s.setCad f).coreG = s.coreG := rfl
@[simp] theorem setCad_caches (s : State) (f : CadState → CadState) : (s.setCad f).caches = s.caches := rfl
@[simp] theorem setCad_dma (s : State) (f : CadState → CadState) : (s.setCad f).dma = s.dma := rfl
@[simp] theorem setCad_dmaLast (s : State) (f : CadState → CadState) : (s.setCad f).dmaLast = s.dmaLast := rfl
@[simp] theorem setCad_flash (s : State) (f : CadState → CadState) : (s.setCad f).flash = s.flash := rfl
@[simp] theorem setCad_memst (s : State) (f : CadState → CadState) : (s.setCad f).memst = s.memst := rfl
@[simp] theorem setCad_staged (s : State) (f : CadState → CadState) : (s.setCad f).staged = s.staged := rfl
@[simp] theorem setCad_cipu (s : State) (f : CadState → CadState) : (s.setCad f).cipu = s.cipu := rfl
@[simp] theorem setCad_upd (s : State) (f : CadState → CadState) : (s.setCad f).upd = s.upd := rfl
@[simp] theorem setCad_tmr (s : State) (f : CadState → CadState) : (s.setCad f).tmr = s.tmr := rfl
@[simp] theorem setCad_rtc (s : State) (f : CadState → CadState) : (s.setCad f).rtc = s.rtc := rfl
@[simp] theorem setCad_pads (s : State) (f : CadState → CadState) : (s.setCad f).pads = s.pads := rfl
@[simp] theorem setCad_hsp (s : State) (f : CadState → CadState) : (s.setCad f).hsp = s.hsp := rfl
@[simp] theorem setCad_psp (s : State) (f : CadState → CadState) : (s.setCad f).psp = s.psp := rfl
@[simp] theorem setCad_tst (s : State) (f : CadState → CadState) : (s.setCad f).tst = s.tst := rfl
@[simp] theorem setCad_glade (s : State) (f : CadState → CadState) : (s.setCad f).glade = s.glade := rfl
@[simp] theorem setCad_pending (s : State) (f : CadState → CadState) : (s.setCad f).pending = s.pending := rfl

/-! ## `setHsp` -/

@[simp] theorem setHsp_regs (s : State) (f : HspState → HspState) : (s.setHsp f).regs = s.regs := rfl
@[simp] theorem setHsp_now (s : State) (f : HspState → HspState) : (s.setHsp f).now = s.now := rfl
@[simp] theorem setHsp_freeCtr (s : State) (f : HspState → HspState) : (s.setHsp f).freeCtr = s.freeCtr := rfl
@[simp] theorem setHsp_sys (s : State) (f : HspState → HspState) : (s.setHsp f).sys = s.sys := rfl
@[simp] theorem setHsp_pwr (s : State) (f : HspState → HspState) : (s.setHsp f).pwr = s.pwr := rfl
@[simp] theorem setHsp_bus (s : State) (f : HspState → HspState) : (s.setHsp f).bus = s.bus := rfl
@[simp] theorem setHsp_prot (s : State) (f : HspState → HspState) : (s.setHsp f).prot = s.prot := rfl
@[simp] theorem setHsp_ovl (s : State) (f : HspState → HspState) : (s.setHsp f).ovl = s.ovl := rfl
@[simp] theorem setHsp_ntu (s : State) (f : HspState → HspState) : (s.setHsp f).ntu = s.ntu := rfl
@[simp] theorem setHsp_cul (s : State) (f : HspState → HspState) : (s.setHsp f).cul = s.cul := rfl
@[simp] theorem setHsp_rfe (s : State) (f : HspState → HspState) : (s.setHsp f).rfe = s.rfe := rfl
@[simp] theorem setHsp_slot (s : State) (f : HspState → HspState) : (s.setHsp f).slot = s.slot := rfl
@[simp] theorem setHsp_cad (s : State) (f : HspState → HspState) : (s.setHsp f).cad = s.cad := rfl
@[simp] theorem setHsp_lanes (s : State) (f : HspState → HspState) : (s.setHsp f).lanes = s.lanes := rfl
@[simp] theorem setHsp_fec (s : State) (f : HspState → HspState) : (s.setHsp f).fec = s.fec := rfl
@[simp] theorem setHsp_trf (s : State) (f : HspState → HspState) : (s.setHsp f).trf = s.trf := rfl
@[simp] theorem setHsp_hdr (s : State) (f : HspState → HspState) : (s.setHsp f).hdr = s.hdr := rfl
@[simp] theorem setHsp_phase (s : State) (f : HspState → HspState) : (s.setHsp f).phase = s.phase := rfl
@[simp] theorem setHsp_txm (s : State) (f : HspState → HspState) : (s.setHsp f).txm = s.txm := rfl
@[simp] theorem setHsp_keys (s : State) (f : HspState → HspState) : (s.setHsp f).keys = s.keys := rfl
@[simp] theorem setHsp_mem (s : State) (f : HspState → HspState) : (s.setHsp f).mem = s.mem := rfl
@[simp] theorem setHsp_coreA (s : State) (f : HspState → HspState) : (s.setHsp f).coreA = s.coreA := rfl
@[simp] theorem setHsp_coreG (s : State) (f : HspState → HspState) : (s.setHsp f).coreG = s.coreG := rfl
@[simp] theorem setHsp_caches (s : State) (f : HspState → HspState) : (s.setHsp f).caches = s.caches := rfl
@[simp] theorem setHsp_dma (s : State) (f : HspState → HspState) : (s.setHsp f).dma = s.dma := rfl
@[simp] theorem setHsp_dmaLast (s : State) (f : HspState → HspState) : (s.setHsp f).dmaLast = s.dmaLast := rfl
@[simp] theorem setHsp_flash (s : State) (f : HspState → HspState) : (s.setHsp f).flash = s.flash := rfl
@[simp] theorem setHsp_memst (s : State) (f : HspState → HspState) : (s.setHsp f).memst = s.memst := rfl
@[simp] theorem setHsp_staged (s : State) (f : HspState → HspState) : (s.setHsp f).staged = s.staged := rfl
@[simp] theorem setHsp_cipu (s : State) (f : HspState → HspState) : (s.setHsp f).cipu = s.cipu := rfl
@[simp] theorem setHsp_upd (s : State) (f : HspState → HspState) : (s.setHsp f).upd = s.upd := rfl
@[simp] theorem setHsp_tmr (s : State) (f : HspState → HspState) : (s.setHsp f).tmr = s.tmr := rfl
@[simp] theorem setHsp_rtc (s : State) (f : HspState → HspState) : (s.setHsp f).rtc = s.rtc := rfl
@[simp] theorem setHsp_pads (s : State) (f : HspState → HspState) : (s.setHsp f).pads = s.pads := rfl
@[simp] theorem setHsp_psp (s : State) (f : HspState → HspState) : (s.setHsp f).psp = s.psp := rfl
@[simp] theorem setHsp_tst (s : State) (f : HspState → HspState) : (s.setHsp f).tst = s.tst := rfl
@[simp] theorem setHsp_glade (s : State) (f : HspState → HspState) : (s.setHsp f).glade = s.glade := rfl
@[simp] theorem setHsp_pending (s : State) (f : HspState → HspState) : (s.setHsp f).pending = s.pending := rfl

/-! ## `setGlade` -/

@[simp] theorem setGlade_regs (s : State) (f : Glade → Glade) : (s.setGlade f).regs = s.regs := rfl
@[simp] theorem setGlade_now (s : State) (f : Glade → Glade) : (s.setGlade f).now = s.now := rfl
@[simp] theorem setGlade_freeCtr (s : State) (f : Glade → Glade) : (s.setGlade f).freeCtr = s.freeCtr := rfl
@[simp] theorem setGlade_sys (s : State) (f : Glade → Glade) : (s.setGlade f).sys = s.sys := rfl
@[simp] theorem setGlade_pwr (s : State) (f : Glade → Glade) : (s.setGlade f).pwr = s.pwr := rfl
@[simp] theorem setGlade_bus (s : State) (f : Glade → Glade) : (s.setGlade f).bus = s.bus := rfl
@[simp] theorem setGlade_prot (s : State) (f : Glade → Glade) : (s.setGlade f).prot = s.prot := rfl
@[simp] theorem setGlade_ovl (s : State) (f : Glade → Glade) : (s.setGlade f).ovl = s.ovl := rfl
@[simp] theorem setGlade_ntu (s : State) (f : Glade → Glade) : (s.setGlade f).ntu = s.ntu := rfl
@[simp] theorem setGlade_cul (s : State) (f : Glade → Glade) : (s.setGlade f).cul = s.cul := rfl
@[simp] theorem setGlade_rfe (s : State) (f : Glade → Glade) : (s.setGlade f).rfe = s.rfe := rfl
@[simp] theorem setGlade_slot (s : State) (f : Glade → Glade) : (s.setGlade f).slot = s.slot := rfl
@[simp] theorem setGlade_cad (s : State) (f : Glade → Glade) : (s.setGlade f).cad = s.cad := rfl
@[simp] theorem setGlade_lanes (s : State) (f : Glade → Glade) : (s.setGlade f).lanes = s.lanes := rfl
@[simp] theorem setGlade_fec (s : State) (f : Glade → Glade) : (s.setGlade f).fec = s.fec := rfl
@[simp] theorem setGlade_trf (s : State) (f : Glade → Glade) : (s.setGlade f).trf = s.trf := rfl
@[simp] theorem setGlade_hdr (s : State) (f : Glade → Glade) : (s.setGlade f).hdr = s.hdr := rfl
@[simp] theorem setGlade_phase (s : State) (f : Glade → Glade) : (s.setGlade f).phase = s.phase := rfl
@[simp] theorem setGlade_txm (s : State) (f : Glade → Glade) : (s.setGlade f).txm = s.txm := rfl
@[simp] theorem setGlade_keys (s : State) (f : Glade → Glade) : (s.setGlade f).keys = s.keys := rfl
@[simp] theorem setGlade_mem (s : State) (f : Glade → Glade) : (s.setGlade f).mem = s.mem := rfl
@[simp] theorem setGlade_coreA (s : State) (f : Glade → Glade) : (s.setGlade f).coreA = s.coreA := rfl
@[simp] theorem setGlade_coreG (s : State) (f : Glade → Glade) : (s.setGlade f).coreG = s.coreG := rfl
@[simp] theorem setGlade_caches (s : State) (f : Glade → Glade) : (s.setGlade f).caches = s.caches := rfl
@[simp] theorem setGlade_dma (s : State) (f : Glade → Glade) : (s.setGlade f).dma = s.dma := rfl
@[simp] theorem setGlade_dmaLast (s : State) (f : Glade → Glade) : (s.setGlade f).dmaLast = s.dmaLast := rfl
@[simp] theorem setGlade_flash (s : State) (f : Glade → Glade) : (s.setGlade f).flash = s.flash := rfl
@[simp] theorem setGlade_memst (s : State) (f : Glade → Glade) : (s.setGlade f).memst = s.memst := rfl
@[simp] theorem setGlade_staged (s : State) (f : Glade → Glade) : (s.setGlade f).staged = s.staged := rfl
@[simp] theorem setGlade_cipu (s : State) (f : Glade → Glade) : (s.setGlade f).cipu = s.cipu := rfl
@[simp] theorem setGlade_upd (s : State) (f : Glade → Glade) : (s.setGlade f).upd = s.upd := rfl
@[simp] theorem setGlade_tmr (s : State) (f : Glade → Glade) : (s.setGlade f).tmr = s.tmr := rfl
@[simp] theorem setGlade_rtc (s : State) (f : Glade → Glade) : (s.setGlade f).rtc = s.rtc := rfl
@[simp] theorem setGlade_pads (s : State) (f : Glade → Glade) : (s.setGlade f).pads = s.pads := rfl
@[simp] theorem setGlade_hsp (s : State) (f : Glade → Glade) : (s.setGlade f).hsp = s.hsp := rfl
@[simp] theorem setGlade_psp (s : State) (f : Glade → Glade) : (s.setGlade f).psp = s.psp := rfl
@[simp] theorem setGlade_tst (s : State) (f : Glade → Glade) : (s.setGlade f).tst = s.tst := rfl
@[simp] theorem setGlade_pending (s : State) (f : Glade → Glade) : (s.setGlade f).pending = s.pending := rfl

/-! ## `setKey` -/

@[simp] theorem setKey_regs (s : State) (n : Nat) (k : KeySlot) : (s.setKey n k).regs = s.regs := rfl
@[simp] theorem setKey_now (s : State) (n : Nat) (k : KeySlot) : (s.setKey n k).now = s.now := rfl
@[simp] theorem setKey_freeCtr (s : State) (n : Nat) (k : KeySlot) : (s.setKey n k).freeCtr = s.freeCtr := rfl
@[simp] theorem setKey_sys (s : State) (n : Nat) (k : KeySlot) : (s.setKey n k).sys = s.sys := rfl
@[simp] theorem setKey_pwr (s : State) (n : Nat) (k : KeySlot) : (s.setKey n k).pwr = s.pwr := rfl
@[simp] theorem setKey_bus (s : State) (n : Nat) (k : KeySlot) : (s.setKey n k).bus = s.bus := rfl
@[simp] theorem setKey_prot (s : State) (n : Nat) (k : KeySlot) : (s.setKey n k).prot = s.prot := rfl
@[simp] theorem setKey_ovl (s : State) (n : Nat) (k : KeySlot) : (s.setKey n k).ovl = s.ovl := rfl
@[simp] theorem setKey_ntu (s : State) (n : Nat) (k : KeySlot) : (s.setKey n k).ntu = s.ntu := rfl
@[simp] theorem setKey_cul (s : State) (n : Nat) (k : KeySlot) : (s.setKey n k).cul = s.cul := rfl
@[simp] theorem setKey_rfe (s : State) (n : Nat) (k : KeySlot) : (s.setKey n k).rfe = s.rfe := rfl
@[simp] theorem setKey_slot (s : State) (n : Nat) (k : KeySlot) : (s.setKey n k).slot = s.slot := rfl
@[simp] theorem setKey_cad (s : State) (n : Nat) (k : KeySlot) : (s.setKey n k).cad = s.cad := rfl
@[simp] theorem setKey_lanes (s : State) (n : Nat) (k : KeySlot) : (s.setKey n k).lanes = s.lanes := rfl
@[simp] theorem setKey_fec (s : State) (n : Nat) (k : KeySlot) : (s.setKey n k).fec = s.fec := rfl
@[simp] theorem setKey_trf (s : State) (n : Nat) (k : KeySlot) : (s.setKey n k).trf = s.trf := rfl
@[simp] theorem setKey_hdr (s : State) (n : Nat) (k : KeySlot) : (s.setKey n k).hdr = s.hdr := rfl
@[simp] theorem setKey_phase (s : State) (n : Nat) (k : KeySlot) : (s.setKey n k).phase = s.phase := rfl
@[simp] theorem setKey_txm (s : State) (n : Nat) (k : KeySlot) : (s.setKey n k).txm = s.txm := rfl
@[simp] theorem setKey_mem (s : State) (n : Nat) (k : KeySlot) : (s.setKey n k).mem = s.mem := rfl
@[simp] theorem setKey_coreA (s : State) (n : Nat) (k : KeySlot) : (s.setKey n k).coreA = s.coreA := rfl
@[simp] theorem setKey_coreG (s : State) (n : Nat) (k : KeySlot) : (s.setKey n k).coreG = s.coreG := rfl
@[simp] theorem setKey_caches (s : State) (n : Nat) (k : KeySlot) : (s.setKey n k).caches = s.caches := rfl
@[simp] theorem setKey_dma (s : State) (n : Nat) (k : KeySlot) : (s.setKey n k).dma = s.dma := rfl
@[simp] theorem setKey_dmaLast (s : State) (n : Nat) (k : KeySlot) : (s.setKey n k).dmaLast = s.dmaLast := rfl
@[simp] theorem setKey_flash (s : State) (n : Nat) (k : KeySlot) : (s.setKey n k).flash = s.flash := rfl
@[simp] theorem setKey_memst (s : State) (n : Nat) (k : KeySlot) : (s.setKey n k).memst = s.memst := rfl
@[simp] theorem setKey_staged (s : State) (n : Nat) (k : KeySlot) : (s.setKey n k).staged = s.staged := rfl
@[simp] theorem setKey_cipu (s : State) (n : Nat) (k : KeySlot) : (s.setKey n k).cipu = s.cipu := rfl
@[simp] theorem setKey_upd (s : State) (n : Nat) (k : KeySlot) : (s.setKey n k).upd = s.upd := rfl
@[simp] theorem setKey_tmr (s : State) (n : Nat) (k : KeySlot) : (s.setKey n k).tmr = s.tmr := rfl
@[simp] theorem setKey_rtc (s : State) (n : Nat) (k : KeySlot) : (s.setKey n k).rtc = s.rtc := rfl
@[simp] theorem setKey_pads (s : State) (n : Nat) (k : KeySlot) : (s.setKey n k).pads = s.pads := rfl
@[simp] theorem setKey_hsp (s : State) (n : Nat) (k : KeySlot) : (s.setKey n k).hsp = s.hsp := rfl
@[simp] theorem setKey_psp (s : State) (n : Nat) (k : KeySlot) : (s.setKey n k).psp = s.psp := rfl
@[simp] theorem setKey_tst (s : State) (n : Nat) (k : KeySlot) : (s.setKey n k).tst = s.tst := rfl
@[simp] theorem setKey_glade (s : State) (n : Nat) (k : KeySlot) : (s.setKey n k).glade = s.glade := rfl
@[simp] theorem setKey_pending (s : State) (n : Nat) (k : KeySlot) : (s.setKey n k).pending = s.pending := rfl

/-! ## `cipuSet` -/

@[simp] theorem cipuSet_regs (s : State) (n : Nat) (f : Cipu → Cipu) : (s.cipuSet n f).regs = s.regs := rfl
@[simp] theorem cipuSet_now (s : State) (n : Nat) (f : Cipu → Cipu) : (s.cipuSet n f).now = s.now := rfl
@[simp] theorem cipuSet_freeCtr (s : State) (n : Nat) (f : Cipu → Cipu) : (s.cipuSet n f).freeCtr = s.freeCtr := rfl
@[simp] theorem cipuSet_sys (s : State) (n : Nat) (f : Cipu → Cipu) : (s.cipuSet n f).sys = s.sys := rfl
@[simp] theorem cipuSet_pwr (s : State) (n : Nat) (f : Cipu → Cipu) : (s.cipuSet n f).pwr = s.pwr := rfl
@[simp] theorem cipuSet_bus (s : State) (n : Nat) (f : Cipu → Cipu) : (s.cipuSet n f).bus = s.bus := rfl
@[simp] theorem cipuSet_prot (s : State) (n : Nat) (f : Cipu → Cipu) : (s.cipuSet n f).prot = s.prot := rfl
@[simp] theorem cipuSet_ovl (s : State) (n : Nat) (f : Cipu → Cipu) : (s.cipuSet n f).ovl = s.ovl := rfl
@[simp] theorem cipuSet_ntu (s : State) (n : Nat) (f : Cipu → Cipu) : (s.cipuSet n f).ntu = s.ntu := rfl
@[simp] theorem cipuSet_cul (s : State) (n : Nat) (f : Cipu → Cipu) : (s.cipuSet n f).cul = s.cul := rfl
@[simp] theorem cipuSet_rfe (s : State) (n : Nat) (f : Cipu → Cipu) : (s.cipuSet n f).rfe = s.rfe := rfl
@[simp] theorem cipuSet_slot (s : State) (n : Nat) (f : Cipu → Cipu) : (s.cipuSet n f).slot = s.slot := rfl
@[simp] theorem cipuSet_cad (s : State) (n : Nat) (f : Cipu → Cipu) : (s.cipuSet n f).cad = s.cad := rfl
@[simp] theorem cipuSet_lanes (s : State) (n : Nat) (f : Cipu → Cipu) : (s.cipuSet n f).lanes = s.lanes := rfl
@[simp] theorem cipuSet_fec (s : State) (n : Nat) (f : Cipu → Cipu) : (s.cipuSet n f).fec = s.fec := rfl
@[simp] theorem cipuSet_trf (s : State) (n : Nat) (f : Cipu → Cipu) : (s.cipuSet n f).trf = s.trf := rfl
@[simp] theorem cipuSet_hdr (s : State) (n : Nat) (f : Cipu → Cipu) : (s.cipuSet n f).hdr = s.hdr := rfl
@[simp] theorem cipuSet_phase (s : State) (n : Nat) (f : Cipu → Cipu) : (s.cipuSet n f).phase = s.phase := rfl
@[simp] theorem cipuSet_txm (s : State) (n : Nat) (f : Cipu → Cipu) : (s.cipuSet n f).txm = s.txm := rfl
@[simp] theorem cipuSet_keys (s : State) (n : Nat) (f : Cipu → Cipu) : (s.cipuSet n f).keys = s.keys := rfl
@[simp] theorem cipuSet_mem (s : State) (n : Nat) (f : Cipu → Cipu) : (s.cipuSet n f).mem = s.mem := rfl
@[simp] theorem cipuSet_coreA (s : State) (n : Nat) (f : Cipu → Cipu) : (s.cipuSet n f).coreA = s.coreA := rfl
@[simp] theorem cipuSet_coreG (s : State) (n : Nat) (f : Cipu → Cipu) : (s.cipuSet n f).coreG = s.coreG := rfl
@[simp] theorem cipuSet_caches (s : State) (n : Nat) (f : Cipu → Cipu) : (s.cipuSet n f).caches = s.caches := rfl
@[simp] theorem cipuSet_dma (s : State) (n : Nat) (f : Cipu → Cipu) : (s.cipuSet n f).dma = s.dma := rfl
@[simp] theorem cipuSet_dmaLast (s : State) (n : Nat) (f : Cipu → Cipu) : (s.cipuSet n f).dmaLast = s.dmaLast := rfl
@[simp] theorem cipuSet_flash (s : State) (n : Nat) (f : Cipu → Cipu) : (s.cipuSet n f).flash = s.flash := rfl
@[simp] theorem cipuSet_memst (s : State) (n : Nat) (f : Cipu → Cipu) : (s.cipuSet n f).memst = s.memst := rfl
@[simp] theorem cipuSet_staged (s : State) (n : Nat) (f : Cipu → Cipu) : (s.cipuSet n f).staged = s.staged := rfl
@[simp] theorem cipuSet_upd (s : State) (n : Nat) (f : Cipu → Cipu) : (s.cipuSet n f).upd = s.upd := rfl
@[simp] theorem cipuSet_tmr (s : State) (n : Nat) (f : Cipu → Cipu) : (s.cipuSet n f).tmr = s.tmr := rfl
@[simp] theorem cipuSet_rtc (s : State) (n : Nat) (f : Cipu → Cipu) : (s.cipuSet n f).rtc = s.rtc := rfl
@[simp] theorem cipuSet_pads (s : State) (n : Nat) (f : Cipu → Cipu) : (s.cipuSet n f).pads = s.pads := rfl
@[simp] theorem cipuSet_hsp (s : State) (n : Nat) (f : Cipu → Cipu) : (s.cipuSet n f).hsp = s.hsp := rfl
@[simp] theorem cipuSet_psp (s : State) (n : Nat) (f : Cipu → Cipu) : (s.cipuSet n f).psp = s.psp := rfl
@[simp] theorem cipuSet_tst (s : State) (n : Nat) (f : Cipu → Cipu) : (s.cipuSet n f).tst = s.tst := rfl
@[simp] theorem cipuSet_glade (s : State) (n : Nat) (f : Cipu → Cipu) : (s.cipuSet n f).glade = s.glade := rfl
@[simp] theorem cipuSet_pending (s : State) (n : Nat) (f : Cipu → Cipu) : (s.cipuSet n f).pending = s.pending := rfl

/-! ## `tmrSet` -/

@[simp] theorem tmrSet_regs (s : State) (n : Nat) (f : Tmr → Tmr) : (s.tmrSet n f).regs = s.regs := rfl
@[simp] theorem tmrSet_now (s : State) (n : Nat) (f : Tmr → Tmr) : (s.tmrSet n f).now = s.now := rfl
@[simp] theorem tmrSet_freeCtr (s : State) (n : Nat) (f : Tmr → Tmr) : (s.tmrSet n f).freeCtr = s.freeCtr := rfl
@[simp] theorem tmrSet_sys (s : State) (n : Nat) (f : Tmr → Tmr) : (s.tmrSet n f).sys = s.sys := rfl
@[simp] theorem tmrSet_pwr (s : State) (n : Nat) (f : Tmr → Tmr) : (s.tmrSet n f).pwr = s.pwr := rfl
@[simp] theorem tmrSet_bus (s : State) (n : Nat) (f : Tmr → Tmr) : (s.tmrSet n f).bus = s.bus := rfl
@[simp] theorem tmrSet_prot (s : State) (n : Nat) (f : Tmr → Tmr) : (s.tmrSet n f).prot = s.prot := rfl
@[simp] theorem tmrSet_ovl (s : State) (n : Nat) (f : Tmr → Tmr) : (s.tmrSet n f).ovl = s.ovl := rfl
@[simp] theorem tmrSet_ntu (s : State) (n : Nat) (f : Tmr → Tmr) : (s.tmrSet n f).ntu = s.ntu := rfl
@[simp] theorem tmrSet_cul (s : State) (n : Nat) (f : Tmr → Tmr) : (s.tmrSet n f).cul = s.cul := rfl
@[simp] theorem tmrSet_rfe (s : State) (n : Nat) (f : Tmr → Tmr) : (s.tmrSet n f).rfe = s.rfe := rfl
@[simp] theorem tmrSet_slot (s : State) (n : Nat) (f : Tmr → Tmr) : (s.tmrSet n f).slot = s.slot := rfl
@[simp] theorem tmrSet_cad (s : State) (n : Nat) (f : Tmr → Tmr) : (s.tmrSet n f).cad = s.cad := rfl
@[simp] theorem tmrSet_lanes (s : State) (n : Nat) (f : Tmr → Tmr) : (s.tmrSet n f).lanes = s.lanes := rfl
@[simp] theorem tmrSet_fec (s : State) (n : Nat) (f : Tmr → Tmr) : (s.tmrSet n f).fec = s.fec := rfl
@[simp] theorem tmrSet_trf (s : State) (n : Nat) (f : Tmr → Tmr) : (s.tmrSet n f).trf = s.trf := rfl
@[simp] theorem tmrSet_hdr (s : State) (n : Nat) (f : Tmr → Tmr) : (s.tmrSet n f).hdr = s.hdr := rfl
@[simp] theorem tmrSet_phase (s : State) (n : Nat) (f : Tmr → Tmr) : (s.tmrSet n f).phase = s.phase := rfl
@[simp] theorem tmrSet_txm (s : State) (n : Nat) (f : Tmr → Tmr) : (s.tmrSet n f).txm = s.txm := rfl
@[simp] theorem tmrSet_keys (s : State) (n : Nat) (f : Tmr → Tmr) : (s.tmrSet n f).keys = s.keys := rfl
@[simp] theorem tmrSet_mem (s : State) (n : Nat) (f : Tmr → Tmr) : (s.tmrSet n f).mem = s.mem := rfl
@[simp] theorem tmrSet_coreA (s : State) (n : Nat) (f : Tmr → Tmr) : (s.tmrSet n f).coreA = s.coreA := rfl
@[simp] theorem tmrSet_coreG (s : State) (n : Nat) (f : Tmr → Tmr) : (s.tmrSet n f).coreG = s.coreG := rfl
@[simp] theorem tmrSet_caches (s : State) (n : Nat) (f : Tmr → Tmr) : (s.tmrSet n f).caches = s.caches := rfl
@[simp] theorem tmrSet_dma (s : State) (n : Nat) (f : Tmr → Tmr) : (s.tmrSet n f).dma = s.dma := rfl
@[simp] theorem tmrSet_dmaLast (s : State) (n : Nat) (f : Tmr → Tmr) : (s.tmrSet n f).dmaLast = s.dmaLast := rfl
@[simp] theorem tmrSet_flash (s : State) (n : Nat) (f : Tmr → Tmr) : (s.tmrSet n f).flash = s.flash := rfl
@[simp] theorem tmrSet_memst (s : State) (n : Nat) (f : Tmr → Tmr) : (s.tmrSet n f).memst = s.memst := rfl
@[simp] theorem tmrSet_staged (s : State) (n : Nat) (f : Tmr → Tmr) : (s.tmrSet n f).staged = s.staged := rfl
@[simp] theorem tmrSet_cipu (s : State) (n : Nat) (f : Tmr → Tmr) : (s.tmrSet n f).cipu = s.cipu := rfl
@[simp] theorem tmrSet_upd (s : State) (n : Nat) (f : Tmr → Tmr) : (s.tmrSet n f).upd = s.upd := rfl
@[simp] theorem tmrSet_rtc (s : State) (n : Nat) (f : Tmr → Tmr) : (s.tmrSet n f).rtc = s.rtc := rfl
@[simp] theorem tmrSet_pads (s : State) (n : Nat) (f : Tmr → Tmr) : (s.tmrSet n f).pads = s.pads := rfl
@[simp] theorem tmrSet_hsp (s : State) (n : Nat) (f : Tmr → Tmr) : (s.tmrSet n f).hsp = s.hsp := rfl
@[simp] theorem tmrSet_psp (s : State) (n : Nat) (f : Tmr → Tmr) : (s.tmrSet n f).psp = s.psp := rfl
@[simp] theorem tmrSet_tst (s : State) (n : Nat) (f : Tmr → Tmr) : (s.tmrSet n f).tst = s.tst := rfl
@[simp] theorem tmrSet_glade (s : State) (n : Nat) (f : Tmr → Tmr) : (s.tmrSet n f).glade = s.glade := rfl
@[simp] theorem tmrSet_pending (s : State) (n : Nat) (f : Tmr → Tmr) : (s.tmrSet n f).pending = s.pending := rfl

/-! ## `setMemst` -/

@[simp] theorem setMemst_regs (s : State) (f : MemState → MemState) : (s.setMemst f).regs = s.regs := rfl
@[simp] theorem setMemst_now (s : State) (f : MemState → MemState) : (s.setMemst f).now = s.now := rfl
@[simp] theorem setMemst_freeCtr (s : State) (f : MemState → MemState) : (s.setMemst f).freeCtr = s.freeCtr := rfl
@[simp] theorem setMemst_sys (s : State) (f : MemState → MemState) : (s.setMemst f).sys = s.sys := rfl
@[simp] theorem setMemst_pwr (s : State) (f : MemState → MemState) : (s.setMemst f).pwr = s.pwr := rfl
@[simp] theorem setMemst_bus (s : State) (f : MemState → MemState) : (s.setMemst f).bus = s.bus := rfl
@[simp] theorem setMemst_prot (s : State) (f : MemState → MemState) : (s.setMemst f).prot = s.prot := rfl
@[simp] theorem setMemst_ovl (s : State) (f : MemState → MemState) : (s.setMemst f).ovl = s.ovl := rfl
@[simp] theorem setMemst_ntu (s : State) (f : MemState → MemState) : (s.setMemst f).ntu = s.ntu := rfl
@[simp] theorem setMemst_cul (s : State) (f : MemState → MemState) : (s.setMemst f).cul = s.cul := rfl
@[simp] theorem setMemst_rfe (s : State) (f : MemState → MemState) : (s.setMemst f).rfe = s.rfe := rfl
@[simp] theorem setMemst_slot (s : State) (f : MemState → MemState) : (s.setMemst f).slot = s.slot := rfl
@[simp] theorem setMemst_cad (s : State) (f : MemState → MemState) : (s.setMemst f).cad = s.cad := rfl
@[simp] theorem setMemst_lanes (s : State) (f : MemState → MemState) : (s.setMemst f).lanes = s.lanes := rfl
@[simp] theorem setMemst_fec (s : State) (f : MemState → MemState) : (s.setMemst f).fec = s.fec := rfl
@[simp] theorem setMemst_trf (s : State) (f : MemState → MemState) : (s.setMemst f).trf = s.trf := rfl
@[simp] theorem setMemst_hdr (s : State) (f : MemState → MemState) : (s.setMemst f).hdr = s.hdr := rfl
@[simp] theorem setMemst_phase (s : State) (f : MemState → MemState) : (s.setMemst f).phase = s.phase := rfl
@[simp] theorem setMemst_txm (s : State) (f : MemState → MemState) : (s.setMemst f).txm = s.txm := rfl
@[simp] theorem setMemst_keys (s : State) (f : MemState → MemState) : (s.setMemst f).keys = s.keys := rfl
@[simp] theorem setMemst_mem (s : State) (f : MemState → MemState) : (s.setMemst f).mem = s.mem := rfl
@[simp] theorem setMemst_coreA (s : State) (f : MemState → MemState) : (s.setMemst f).coreA = s.coreA := rfl
@[simp] theorem setMemst_coreG (s : State) (f : MemState → MemState) : (s.setMemst f).coreG = s.coreG := rfl
@[simp] theorem setMemst_caches (s : State) (f : MemState → MemState) : (s.setMemst f).caches = s.caches := rfl
@[simp] theorem setMemst_dma (s : State) (f : MemState → MemState) : (s.setMemst f).dma = s.dma := rfl
@[simp] theorem setMemst_dmaLast (s : State) (f : MemState → MemState) : (s.setMemst f).dmaLast = s.dmaLast := rfl
@[simp] theorem setMemst_flash (s : State) (f : MemState → MemState) : (s.setMemst f).flash = s.flash := rfl
@[simp] theorem setMemst_staged (s : State) (f : MemState → MemState) : (s.setMemst f).staged = s.staged := rfl
@[simp] theorem setMemst_cipu (s : State) (f : MemState → MemState) : (s.setMemst f).cipu = s.cipu := rfl
@[simp] theorem setMemst_upd (s : State) (f : MemState → MemState) : (s.setMemst f).upd = s.upd := rfl
@[simp] theorem setMemst_tmr (s : State) (f : MemState → MemState) : (s.setMemst f).tmr = s.tmr := rfl
@[simp] theorem setMemst_rtc (s : State) (f : MemState → MemState) : (s.setMemst f).rtc = s.rtc := rfl
@[simp] theorem setMemst_pads (s : State) (f : MemState → MemState) : (s.setMemst f).pads = s.pads := rfl
@[simp] theorem setMemst_hsp (s : State) (f : MemState → MemState) : (s.setMemst f).hsp = s.hsp := rfl
@[simp] theorem setMemst_psp (s : State) (f : MemState → MemState) : (s.setMemst f).psp = s.psp := rfl
@[simp] theorem setMemst_tst (s : State) (f : MemState → MemState) : (s.setMemst f).tst = s.tst := rfl
@[simp] theorem setMemst_glade (s : State) (f : MemState → MemState) : (s.setMemst f).glade = s.glade := rfl
@[simp] theorem setMemst_pending (s : State) (f : MemState → MemState) : (s.setMemst f).pending = s.pending := rfl

/-! ## `setFlash` -/

@[simp] theorem setFlash_regs (s : State) (f : FlashState → FlashState) : (s.setFlash f).regs = s.regs := rfl
@[simp] theorem setFlash_now (s : State) (f : FlashState → FlashState) : (s.setFlash f).now = s.now := rfl
@[simp] theorem setFlash_freeCtr (s : State) (f : FlashState → FlashState) : (s.setFlash f).freeCtr = s.freeCtr := rfl
@[simp] theorem setFlash_sys (s : State) (f : FlashState → FlashState) : (s.setFlash f).sys = s.sys := rfl
@[simp] theorem setFlash_pwr (s : State) (f : FlashState → FlashState) : (s.setFlash f).pwr = s.pwr := rfl
@[simp] theorem setFlash_bus (s : State) (f : FlashState → FlashState) : (s.setFlash f).bus = s.bus := rfl
@[simp] theorem setFlash_prot (s : State) (f : FlashState → FlashState) : (s.setFlash f).prot = s.prot := rfl
@[simp] theorem setFlash_ovl (s : State) (f : FlashState → FlashState) : (s.setFlash f).ovl = s.ovl := rfl
@[simp] theorem setFlash_ntu (s : State) (f : FlashState → FlashState) : (s.setFlash f).ntu = s.ntu := rfl
@[simp] theorem setFlash_cul (s : State) (f : FlashState → FlashState) : (s.setFlash f).cul = s.cul := rfl
@[simp] theorem setFlash_rfe (s : State) (f : FlashState → FlashState) : (s.setFlash f).rfe = s.rfe := rfl
@[simp] theorem setFlash_slot (s : State) (f : FlashState → FlashState) : (s.setFlash f).slot = s.slot := rfl
@[simp] theorem setFlash_cad (s : State) (f : FlashState → FlashState) : (s.setFlash f).cad = s.cad := rfl
@[simp] theorem setFlash_lanes (s : State) (f : FlashState → FlashState) : (s.setFlash f).lanes = s.lanes := rfl
@[simp] theorem setFlash_fec (s : State) (f : FlashState → FlashState) : (s.setFlash f).fec = s.fec := rfl
@[simp] theorem setFlash_trf (s : State) (f : FlashState → FlashState) : (s.setFlash f).trf = s.trf := rfl
@[simp] theorem setFlash_hdr (s : State) (f : FlashState → FlashState) : (s.setFlash f).hdr = s.hdr := rfl
@[simp] theorem setFlash_phase (s : State) (f : FlashState → FlashState) : (s.setFlash f).phase = s.phase := rfl
@[simp] theorem setFlash_txm (s : State) (f : FlashState → FlashState) : (s.setFlash f).txm = s.txm := rfl
@[simp] theorem setFlash_keys (s : State) (f : FlashState → FlashState) : (s.setFlash f).keys = s.keys := rfl
@[simp] theorem setFlash_mem (s : State) (f : FlashState → FlashState) : (s.setFlash f).mem = s.mem := rfl
@[simp] theorem setFlash_coreA (s : State) (f : FlashState → FlashState) : (s.setFlash f).coreA = s.coreA := rfl
@[simp] theorem setFlash_coreG (s : State) (f : FlashState → FlashState) : (s.setFlash f).coreG = s.coreG := rfl
@[simp] theorem setFlash_caches (s : State) (f : FlashState → FlashState) : (s.setFlash f).caches = s.caches := rfl
@[simp] theorem setFlash_dma (s : State) (f : FlashState → FlashState) : (s.setFlash f).dma = s.dma := rfl
@[simp] theorem setFlash_dmaLast (s : State) (f : FlashState → FlashState) : (s.setFlash f).dmaLast = s.dmaLast := rfl
@[simp] theorem setFlash_memst (s : State) (f : FlashState → FlashState) : (s.setFlash f).memst = s.memst := rfl
@[simp] theorem setFlash_staged (s : State) (f : FlashState → FlashState) : (s.setFlash f).staged = s.staged := rfl
@[simp] theorem setFlash_cipu (s : State) (f : FlashState → FlashState) : (s.setFlash f).cipu = s.cipu := rfl
@[simp] theorem setFlash_upd (s : State) (f : FlashState → FlashState) : (s.setFlash f).upd = s.upd := rfl
@[simp] theorem setFlash_tmr (s : State) (f : FlashState → FlashState) : (s.setFlash f).tmr = s.tmr := rfl
@[simp] theorem setFlash_rtc (s : State) (f : FlashState → FlashState) : (s.setFlash f).rtc = s.rtc := rfl
@[simp] theorem setFlash_pads (s : State) (f : FlashState → FlashState) : (s.setFlash f).pads = s.pads := rfl
@[simp] theorem setFlash_hsp (s : State) (f : FlashState → FlashState) : (s.setFlash f).hsp = s.hsp := rfl
@[simp] theorem setFlash_psp (s : State) (f : FlashState → FlashState) : (s.setFlash f).psp = s.psp := rfl
@[simp] theorem setFlash_tst (s : State) (f : FlashState → FlashState) : (s.setFlash f).tst = s.tst := rfl
@[simp] theorem setFlash_glade (s : State) (f : FlashState → FlashState) : (s.setFlash f).glade = s.glade := rfl
@[simp] theorem setFlash_pending (s : State) (f : FlashState → FlashState) : (s.setFlash f).pending = s.pending := rfl

/-! ## `setNtu` -/

@[simp] theorem setNtu_regs (s : State) (f : NtuState → NtuState) : (s.setNtu f).regs = s.regs := rfl
@[simp] theorem setNtu_now (s : State) (f : NtuState → NtuState) : (s.setNtu f).now = s.now := rfl
@[simp] theorem setNtu_freeCtr (s : State) (f : NtuState → NtuState) : (s.setNtu f).freeCtr = s.freeCtr := rfl
@[simp] theorem setNtu_sys (s : State) (f : NtuState → NtuState) : (s.setNtu f).sys = s.sys := rfl
@[simp] theorem setNtu_pwr (s : State) (f : NtuState → NtuState) : (s.setNtu f).pwr = s.pwr := rfl
@[simp] theorem setNtu_bus (s : State) (f : NtuState → NtuState) : (s.setNtu f).bus = s.bus := rfl
@[simp] theorem setNtu_prot (s : State) (f : NtuState → NtuState) : (s.setNtu f).prot = s.prot := rfl
@[simp] theorem setNtu_ovl (s : State) (f : NtuState → NtuState) : (s.setNtu f).ovl = s.ovl := rfl
@[simp] theorem setNtu_cul (s : State) (f : NtuState → NtuState) : (s.setNtu f).cul = s.cul := rfl
@[simp] theorem setNtu_rfe (s : State) (f : NtuState → NtuState) : (s.setNtu f).rfe = s.rfe := rfl
@[simp] theorem setNtu_slot (s : State) (f : NtuState → NtuState) : (s.setNtu f).slot = s.slot := rfl
@[simp] theorem setNtu_cad (s : State) (f : NtuState → NtuState) : (s.setNtu f).cad = s.cad := rfl
@[simp] theorem setNtu_lanes (s : State) (f : NtuState → NtuState) : (s.setNtu f).lanes = s.lanes := rfl
@[simp] theorem setNtu_fec (s : State) (f : NtuState → NtuState) : (s.setNtu f).fec = s.fec := rfl
@[simp] theorem setNtu_trf (s : State) (f : NtuState → NtuState) : (s.setNtu f).trf = s.trf := rfl
@[simp] theorem setNtu_hdr (s : State) (f : NtuState → NtuState) : (s.setNtu f).hdr = s.hdr := rfl
@[simp] theorem setNtu_phase (s : State) (f : NtuState → NtuState) : (s.setNtu f).phase = s.phase := rfl
@[simp] theorem setNtu_txm (s : State) (f : NtuState → NtuState) : (s.setNtu f).txm = s.txm := rfl
@[simp] theorem setNtu_keys (s : State) (f : NtuState → NtuState) : (s.setNtu f).keys = s.keys := rfl
@[simp] theorem setNtu_mem (s : State) (f : NtuState → NtuState) : (s.setNtu f).mem = s.mem := rfl
@[simp] theorem setNtu_coreA (s : State) (f : NtuState → NtuState) : (s.setNtu f).coreA = s.coreA := rfl
@[simp] theorem setNtu_coreG (s : State) (f : NtuState → NtuState) : (s.setNtu f).coreG = s.coreG := rfl
@[simp] theorem setNtu_caches (s : State) (f : NtuState → NtuState) : (s.setNtu f).caches = s.caches := rfl
@[simp] theorem setNtu_dma (s : State) (f : NtuState → NtuState) : (s.setNtu f).dma = s.dma := rfl
@[simp] theorem setNtu_dmaLast (s : State) (f : NtuState → NtuState) : (s.setNtu f).dmaLast = s.dmaLast := rfl
@[simp] theorem setNtu_flash (s : State) (f : NtuState → NtuState) : (s.setNtu f).flash = s.flash := rfl
@[simp] theorem setNtu_memst (s : State) (f : NtuState → NtuState) : (s.setNtu f).memst = s.memst := rfl
@[simp] theorem setNtu_staged (s : State) (f : NtuState → NtuState) : (s.setNtu f).staged = s.staged := rfl
@[simp] theorem setNtu_cipu (s : State) (f : NtuState → NtuState) : (s.setNtu f).cipu = s.cipu := rfl
@[simp] theorem setNtu_upd (s : State) (f : NtuState → NtuState) : (s.setNtu f).upd = s.upd := rfl
@[simp] theorem setNtu_tmr (s : State) (f : NtuState → NtuState) : (s.setNtu f).tmr = s.tmr := rfl
@[simp] theorem setNtu_rtc (s : State) (f : NtuState → NtuState) : (s.setNtu f).rtc = s.rtc := rfl
@[simp] theorem setNtu_pads (s : State) (f : NtuState → NtuState) : (s.setNtu f).pads = s.pads := rfl
@[simp] theorem setNtu_hsp (s : State) (f : NtuState → NtuState) : (s.setNtu f).hsp = s.hsp := rfl
@[simp] theorem setNtu_psp (s : State) (f : NtuState → NtuState) : (s.setNtu f).psp = s.psp := rfl
@[simp] theorem setNtu_tst (s : State) (f : NtuState → NtuState) : (s.setNtu f).tst = s.tst := rfl
@[simp] theorem setNtu_glade (s : State) (f : NtuState → NtuState) : (s.setNtu f).glade = s.glade := rfl
@[simp] theorem setNtu_pending (s : State) (f : NtuState → NtuState) : (s.setNtu f).pending = s.pending := rfl

/-! ## `setOvl` -/

@[simp] theorem setOvl_regs (s : State) (f : OvlState → OvlState) : (s.setOvl f).regs = s.regs := rfl
@[simp] theorem setOvl_now (s : State) (f : OvlState → OvlState) : (s.setOvl f).now = s.now := rfl
@[simp] theorem setOvl_freeCtr (s : State) (f : OvlState → OvlState) : (s.setOvl f).freeCtr = s.freeCtr := rfl
@[simp] theorem setOvl_sys (s : State) (f : OvlState → OvlState) : (s.setOvl f).sys = s.sys := rfl
@[simp] theorem setOvl_pwr (s : State) (f : OvlState → OvlState) : (s.setOvl f).pwr = s.pwr := rfl
@[simp] theorem setOvl_bus (s : State) (f : OvlState → OvlState) : (s.setOvl f).bus = s.bus := rfl
@[simp] theorem setOvl_prot (s : State) (f : OvlState → OvlState) : (s.setOvl f).prot = s.prot := rfl
@[simp] theorem setOvl_ntu (s : State) (f : OvlState → OvlState) : (s.setOvl f).ntu = s.ntu := rfl
@[simp] theorem setOvl_cul (s : State) (f : OvlState → OvlState) : (s.setOvl f).cul = s.cul := rfl
@[simp] theorem setOvl_rfe (s : State) (f : OvlState → OvlState) : (s.setOvl f).rfe = s.rfe := rfl
@[simp] theorem setOvl_slot (s : State) (f : OvlState → OvlState) : (s.setOvl f).slot = s.slot := rfl
@[simp] theorem setOvl_cad (s : State) (f : OvlState → OvlState) : (s.setOvl f).cad = s.cad := rfl
@[simp] theorem setOvl_lanes (s : State) (f : OvlState → OvlState) : (s.setOvl f).lanes = s.lanes := rfl
@[simp] theorem setOvl_fec (s : State) (f : OvlState → OvlState) : (s.setOvl f).fec = s.fec := rfl
@[simp] theorem setOvl_trf (s : State) (f : OvlState → OvlState) : (s.setOvl f).trf = s.trf := rfl
@[simp] theorem setOvl_hdr (s : State) (f : OvlState → OvlState) : (s.setOvl f).hdr = s.hdr := rfl
@[simp] theorem setOvl_phase (s : State) (f : OvlState → OvlState) : (s.setOvl f).phase = s.phase := rfl
@[simp] theorem setOvl_txm (s : State) (f : OvlState → OvlState) : (s.setOvl f).txm = s.txm := rfl
@[simp] theorem setOvl_keys (s : State) (f : OvlState → OvlState) : (s.setOvl f).keys = s.keys := rfl
@[simp] theorem setOvl_mem (s : State) (f : OvlState → OvlState) : (s.setOvl f).mem = s.mem := rfl
@[simp] theorem setOvl_coreA (s : State) (f : OvlState → OvlState) : (s.setOvl f).coreA = s.coreA := rfl
@[simp] theorem setOvl_coreG (s : State) (f : OvlState → OvlState) : (s.setOvl f).coreG = s.coreG := rfl
@[simp] theorem setOvl_caches (s : State) (f : OvlState → OvlState) : (s.setOvl f).caches = s.caches := rfl
@[simp] theorem setOvl_dma (s : State) (f : OvlState → OvlState) : (s.setOvl f).dma = s.dma := rfl
@[simp] theorem setOvl_dmaLast (s : State) (f : OvlState → OvlState) : (s.setOvl f).dmaLast = s.dmaLast := rfl
@[simp] theorem setOvl_flash (s : State) (f : OvlState → OvlState) : (s.setOvl f).flash = s.flash := rfl
@[simp] theorem setOvl_memst (s : State) (f : OvlState → OvlState) : (s.setOvl f).memst = s.memst := rfl
@[simp] theorem setOvl_staged (s : State) (f : OvlState → OvlState) : (s.setOvl f).staged = s.staged := rfl
@[simp] theorem setOvl_cipu (s : State) (f : OvlState → OvlState) : (s.setOvl f).cipu = s.cipu := rfl
@[simp] theorem setOvl_upd (s : State) (f : OvlState → OvlState) : (s.setOvl f).upd = s.upd := rfl
@[simp] theorem setOvl_tmr (s : State) (f : OvlState → OvlState) : (s.setOvl f).tmr = s.tmr := rfl
@[simp] theorem setOvl_rtc (s : State) (f : OvlState → OvlState) : (s.setOvl f).rtc = s.rtc := rfl
@[simp] theorem setOvl_pads (s : State) (f : OvlState → OvlState) : (s.setOvl f).pads = s.pads := rfl
@[simp] theorem setOvl_hsp (s : State) (f : OvlState → OvlState) : (s.setOvl f).hsp = s.hsp := rfl
@[simp] theorem setOvl_psp (s : State) (f : OvlState → OvlState) : (s.setOvl f).psp = s.psp := rfl
@[simp] theorem setOvl_tst (s : State) (f : OvlState → OvlState) : (s.setOvl f).tst = s.tst := rfl
@[simp] theorem setOvl_glade (s : State) (f : OvlState → OvlState) : (s.setOvl f).glade = s.glade := rfl
@[simp] theorem setOvl_pending (s : State) (f : OvlState → OvlState) : (s.setOvl f).pending = s.pending := rfl

/-! ## `adcSet` -/

@[simp] theorem adcSet_regs (s : State) (b : Bool) : (s.adcSet b).regs = s.regs := rfl
@[simp] theorem adcSet_now (s : State) (b : Bool) : (s.adcSet b).now = s.now := rfl
@[simp] theorem adcSet_freeCtr (s : State) (b : Bool) : (s.adcSet b).freeCtr = s.freeCtr := rfl
@[simp] theorem adcSet_sys (s : State) (b : Bool) : (s.adcSet b).sys = s.sys := rfl
@[simp] theorem adcSet_pwr (s : State) (b : Bool) : (s.adcSet b).pwr = s.pwr := rfl
@[simp] theorem adcSet_bus (s : State) (b : Bool) : (s.adcSet b).bus = s.bus := rfl
@[simp] theorem adcSet_prot (s : State) (b : Bool) : (s.adcSet b).prot = s.prot := rfl
@[simp] theorem adcSet_ovl (s : State) (b : Bool) : (s.adcSet b).ovl = s.ovl := rfl
@[simp] theorem adcSet_ntu (s : State) (b : Bool) : (s.adcSet b).ntu = s.ntu := rfl
@[simp] theorem adcSet_cul (s : State) (b : Bool) : (s.adcSet b).cul = s.cul := rfl
@[simp] theorem adcSet_rfe (s : State) (b : Bool) : (s.adcSet b).rfe = s.rfe := rfl
@[simp] theorem adcSet_slot (s : State) (b : Bool) : (s.adcSet b).slot = s.slot := rfl
@[simp] theorem adcSet_cad (s : State) (b : Bool) : (s.adcSet b).cad = s.cad := rfl
@[simp] theorem adcSet_lanes (s : State) (b : Bool) : (s.adcSet b).lanes = s.lanes := rfl
@[simp] theorem adcSet_fec (s : State) (b : Bool) : (s.adcSet b).fec = s.fec := rfl
@[simp] theorem adcSet_trf (s : State) (b : Bool) : (s.adcSet b).trf = s.trf := rfl
@[simp] theorem adcSet_hdr (s : State) (b : Bool) : (s.adcSet b).hdr = s.hdr := rfl
@[simp] theorem adcSet_phase (s : State) (b : Bool) : (s.adcSet b).phase = s.phase := rfl
@[simp] theorem adcSet_txm (s : State) (b : Bool) : (s.adcSet b).txm = s.txm := rfl
@[simp] theorem adcSet_keys (s : State) (b : Bool) : (s.adcSet b).keys = s.keys := rfl
@[simp] theorem adcSet_mem (s : State) (b : Bool) : (s.adcSet b).mem = s.mem := rfl
@[simp] theorem adcSet_coreA (s : State) (b : Bool) : (s.adcSet b).coreA = s.coreA := rfl
@[simp] theorem adcSet_coreG (s : State) (b : Bool) : (s.adcSet b).coreG = s.coreG := rfl
@[simp] theorem adcSet_caches (s : State) (b : Bool) : (s.adcSet b).caches = s.caches := rfl
@[simp] theorem adcSet_dma (s : State) (b : Bool) : (s.adcSet b).dma = s.dma := rfl
@[simp] theorem adcSet_dmaLast (s : State) (b : Bool) : (s.adcSet b).dmaLast = s.dmaLast := rfl
@[simp] theorem adcSet_flash (s : State) (b : Bool) : (s.adcSet b).flash = s.flash := rfl
@[simp] theorem adcSet_memst (s : State) (b : Bool) : (s.adcSet b).memst = s.memst := rfl
@[simp] theorem adcSet_staged (s : State) (b : Bool) : (s.adcSet b).staged = s.staged := rfl
@[simp] theorem adcSet_cipu (s : State) (b : Bool) : (s.adcSet b).cipu = s.cipu := rfl
@[simp] theorem adcSet_upd (s : State) (b : Bool) : (s.adcSet b).upd = s.upd := rfl
@[simp] theorem adcSet_tmr (s : State) (b : Bool) : (s.adcSet b).tmr = s.tmr := rfl
@[simp] theorem adcSet_rtc (s : State) (b : Bool) : (s.adcSet b).rtc = s.rtc := rfl
@[simp] theorem adcSet_hsp (s : State) (b : Bool) : (s.adcSet b).hsp = s.hsp := rfl
@[simp] theorem adcSet_psp (s : State) (b : Bool) : (s.adcSet b).psp = s.psp := rfl
@[simp] theorem adcSet_tst (s : State) (b : Bool) : (s.adcSet b).tst = s.tst := rfl
@[simp] theorem adcSet_glade (s : State) (b : Bool) : (s.adcSet b).glade = s.glade := rfl
@[simp] theorem adcSet_pending (s : State) (b : Bool) : (s.adcSet b).pending = s.pending := rfl

/-! ## `setTrf` -/

@[simp] theorem setTrf_regs (s : State) (f : TrfState → TrfState) : (s.setTrf f).regs = s.regs := rfl
@[simp] theorem setTrf_now (s : State) (f : TrfState → TrfState) : (s.setTrf f).now = s.now := rfl
@[simp] theorem setTrf_freeCtr (s : State) (f : TrfState → TrfState) : (s.setTrf f).freeCtr = s.freeCtr := rfl
@[simp] theorem setTrf_sys (s : State) (f : TrfState → TrfState) : (s.setTrf f).sys = s.sys := rfl
@[simp] theorem setTrf_pwr (s : State) (f : TrfState → TrfState) : (s.setTrf f).pwr = s.pwr := rfl
@[simp] theorem setTrf_bus (s : State) (f : TrfState → TrfState) : (s.setTrf f).bus = s.bus := rfl
@[simp] theorem setTrf_prot (s : State) (f : TrfState → TrfState) : (s.setTrf f).prot = s.prot := rfl
@[simp] theorem setTrf_ovl (s : State) (f : TrfState → TrfState) : (s.setTrf f).ovl = s.ovl := rfl
@[simp] theorem setTrf_ntu (s : State) (f : TrfState → TrfState) : (s.setTrf f).ntu = s.ntu := rfl
@[simp] theorem setTrf_cul (s : State) (f : TrfState → TrfState) : (s.setTrf f).cul = s.cul := rfl
@[simp] theorem setTrf_rfe (s : State) (f : TrfState → TrfState) : (s.setTrf f).rfe = s.rfe := rfl
@[simp] theorem setTrf_slot (s : State) (f : TrfState → TrfState) : (s.setTrf f).slot = s.slot := rfl
@[simp] theorem setTrf_cad (s : State) (f : TrfState → TrfState) : (s.setTrf f).cad = s.cad := rfl
@[simp] theorem setTrf_lanes (s : State) (f : TrfState → TrfState) : (s.setTrf f).lanes = s.lanes := rfl
@[simp] theorem setTrf_fec (s : State) (f : TrfState → TrfState) : (s.setTrf f).fec = s.fec := rfl
@[simp] theorem setTrf_hdr (s : State) (f : TrfState → TrfState) : (s.setTrf f).hdr = s.hdr := rfl
@[simp] theorem setTrf_phase (s : State) (f : TrfState → TrfState) : (s.setTrf f).phase = s.phase := rfl
@[simp] theorem setTrf_txm (s : State) (f : TrfState → TrfState) : (s.setTrf f).txm = s.txm := rfl
@[simp] theorem setTrf_keys (s : State) (f : TrfState → TrfState) : (s.setTrf f).keys = s.keys := rfl
@[simp] theorem setTrf_mem (s : State) (f : TrfState → TrfState) : (s.setTrf f).mem = s.mem := rfl
@[simp] theorem setTrf_coreA (s : State) (f : TrfState → TrfState) : (s.setTrf f).coreA = s.coreA := rfl
@[simp] theorem setTrf_coreG (s : State) (f : TrfState → TrfState) : (s.setTrf f).coreG = s.coreG := rfl
@[simp] theorem setTrf_caches (s : State) (f : TrfState → TrfState) : (s.setTrf f).caches = s.caches := rfl
@[simp] theorem setTrf_dma (s : State) (f : TrfState → TrfState) : (s.setTrf f).dma = s.dma := rfl
@[simp] theorem setTrf_dmaLast (s : State) (f : TrfState → TrfState) : (s.setTrf f).dmaLast = s.dmaLast := rfl
@[simp] theorem setTrf_flash (s : State) (f : TrfState → TrfState) : (s.setTrf f).flash = s.flash := rfl
@[simp] theorem setTrf_memst (s : State) (f : TrfState → TrfState) : (s.setTrf f).memst = s.memst := rfl
@[simp] theorem setTrf_staged (s : State) (f : TrfState → TrfState) : (s.setTrf f).staged = s.staged := rfl
@[simp] theorem setTrf_cipu (s : State) (f : TrfState → TrfState) : (s.setTrf f).cipu = s.cipu := rfl
@[simp] theorem setTrf_upd (s : State) (f : TrfState → TrfState) : (s.setTrf f).upd = s.upd := rfl
@[simp] theorem setTrf_tmr (s : State) (f : TrfState → TrfState) : (s.setTrf f).tmr = s.tmr := rfl
@[simp] theorem setTrf_rtc (s : State) (f : TrfState → TrfState) : (s.setTrf f).rtc = s.rtc := rfl
@[simp] theorem setTrf_pads (s : State) (f : TrfState → TrfState) : (s.setTrf f).pads = s.pads := rfl
@[simp] theorem setTrf_hsp (s : State) (f : TrfState → TrfState) : (s.setTrf f).hsp = s.hsp := rfl
@[simp] theorem setTrf_psp (s : State) (f : TrfState → TrfState) : (s.setTrf f).psp = s.psp := rfl
@[simp] theorem setTrf_tst (s : State) (f : TrfState → TrfState) : (s.setTrf f).tst = s.tst := rfl
@[simp] theorem setTrf_glade (s : State) (f : TrfState → TrfState) : (s.setTrf f).glade = s.glade := rfl
@[simp] theorem setTrf_pending (s : State) (f : TrfState → TrfState) : (s.setTrf f).pending = s.pending := rfl

/-! ## `setPwr` -/

@[simp] theorem setPwr_regs (s : State) (f : PwrS → PwrS) : (s.setPwr f).regs = s.regs := rfl
@[simp] theorem setPwr_now (s : State) (f : PwrS → PwrS) : (s.setPwr f).now = s.now := rfl
@[simp] theorem setPwr_freeCtr (s : State) (f : PwrS → PwrS) : (s.setPwr f).freeCtr = s.freeCtr := rfl
@[simp] theorem setPwr_sys (s : State) (f : PwrS → PwrS) : (s.setPwr f).sys = s.sys := rfl
@[simp] theorem setPwr_bus (s : State) (f : PwrS → PwrS) : (s.setPwr f).bus = s.bus := rfl
@[simp] theorem setPwr_prot (s : State) (f : PwrS → PwrS) : (s.setPwr f).prot = s.prot := rfl
@[simp] theorem setPwr_ovl (s : State) (f : PwrS → PwrS) : (s.setPwr f).ovl = s.ovl := rfl
@[simp] theorem setPwr_ntu (s : State) (f : PwrS → PwrS) : (s.setPwr f).ntu = s.ntu := rfl
@[simp] theorem setPwr_cul (s : State) (f : PwrS → PwrS) : (s.setPwr f).cul = s.cul := rfl
@[simp] theorem setPwr_rfe (s : State) (f : PwrS → PwrS) : (s.setPwr f).rfe = s.rfe := rfl
@[simp] theorem setPwr_slot (s : State) (f : PwrS → PwrS) : (s.setPwr f).slot = s.slot := rfl
@[simp] theorem setPwr_cad (s : State) (f : PwrS → PwrS) : (s.setPwr f).cad = s.cad := rfl
@[simp] theorem setPwr_lanes (s : State) (f : PwrS → PwrS) : (s.setPwr f).lanes = s.lanes := rfl
@[simp] theorem setPwr_fec (s : State) (f : PwrS → PwrS) : (s.setPwr f).fec = s.fec := rfl
@[simp] theorem setPwr_trf (s : State) (f : PwrS → PwrS) : (s.setPwr f).trf = s.trf := rfl
@[simp] theorem setPwr_hdr (s : State) (f : PwrS → PwrS) : (s.setPwr f).hdr = s.hdr := rfl
@[simp] theorem setPwr_phase (s : State) (f : PwrS → PwrS) : (s.setPwr f).phase = s.phase := rfl
@[simp] theorem setPwr_txm (s : State) (f : PwrS → PwrS) : (s.setPwr f).txm = s.txm := rfl
@[simp] theorem setPwr_keys (s : State) (f : PwrS → PwrS) : (s.setPwr f).keys = s.keys := rfl
@[simp] theorem setPwr_mem (s : State) (f : PwrS → PwrS) : (s.setPwr f).mem = s.mem := rfl
@[simp] theorem setPwr_coreA (s : State) (f : PwrS → PwrS) : (s.setPwr f).coreA = s.coreA := rfl
@[simp] theorem setPwr_coreG (s : State) (f : PwrS → PwrS) : (s.setPwr f).coreG = s.coreG := rfl
@[simp] theorem setPwr_caches (s : State) (f : PwrS → PwrS) : (s.setPwr f).caches = s.caches := rfl
@[simp] theorem setPwr_dma (s : State) (f : PwrS → PwrS) : (s.setPwr f).dma = s.dma := rfl
@[simp] theorem setPwr_dmaLast (s : State) (f : PwrS → PwrS) : (s.setPwr f).dmaLast = s.dmaLast := rfl
@[simp] theorem setPwr_flash (s : State) (f : PwrS → PwrS) : (s.setPwr f).flash = s.flash := rfl
@[simp] theorem setPwr_memst (s : State) (f : PwrS → PwrS) : (s.setPwr f).memst = s.memst := rfl
@[simp] theorem setPwr_staged (s : State) (f : PwrS → PwrS) : (s.setPwr f).staged = s.staged := rfl
@[simp] theorem setPwr_cipu (s : State) (f : PwrS → PwrS) : (s.setPwr f).cipu = s.cipu := rfl
@[simp] theorem setPwr_upd (s : State) (f : PwrS → PwrS) : (s.setPwr f).upd = s.upd := rfl
@[simp] theorem setPwr_tmr (s : State) (f : PwrS → PwrS) : (s.setPwr f).tmr = s.tmr := rfl
@[simp] theorem setPwr_rtc (s : State) (f : PwrS → PwrS) : (s.setPwr f).rtc = s.rtc := rfl
@[simp] theorem setPwr_pads (s : State) (f : PwrS → PwrS) : (s.setPwr f).pads = s.pads := rfl
@[simp] theorem setPwr_hsp (s : State) (f : PwrS → PwrS) : (s.setPwr f).hsp = s.hsp := rfl
@[simp] theorem setPwr_psp (s : State) (f : PwrS → PwrS) : (s.setPwr f).psp = s.psp := rfl
@[simp] theorem setPwr_tst (s : State) (f : PwrS → PwrS) : (s.setPwr f).tst = s.tst := rfl
@[simp] theorem setPwr_glade (s : State) (f : PwrS → PwrS) : (s.setPwr f).glade = s.glade := rfl
@[simp] theorem setPwr_pending (s : State) (f : PwrS → PwrS) : (s.setPwr f).pending = s.pending := rfl

/-! ## `setSys` -/

@[simp] theorem setSys_regs (s : State) (f : SysS → SysS) : (s.setSys f).regs = s.regs := rfl
@[simp] theorem setSys_now (s : State) (f : SysS → SysS) : (s.setSys f).now = s.now := rfl
@[simp] theorem setSys_freeCtr (s : State) (f : SysS → SysS) : (s.setSys f).freeCtr = s.freeCtr := rfl
@[simp] theorem setSys_pwr (s : State) (f : SysS → SysS) : (s.setSys f).pwr = s.pwr := rfl
@[simp] theorem setSys_bus (s : State) (f : SysS → SysS) : (s.setSys f).bus = s.bus := rfl
@[simp] theorem setSys_prot (s : State) (f : SysS → SysS) : (s.setSys f).prot = s.prot := rfl
@[simp] theorem setSys_ovl (s : State) (f : SysS → SysS) : (s.setSys f).ovl = s.ovl := rfl
@[simp] theorem setSys_ntu (s : State) (f : SysS → SysS) : (s.setSys f).ntu = s.ntu := rfl
@[simp] theorem setSys_cul (s : State) (f : SysS → SysS) : (s.setSys f).cul = s.cul := rfl
@[simp] theorem setSys_rfe (s : State) (f : SysS → SysS) : (s.setSys f).rfe = s.rfe := rfl
@[simp] theorem setSys_slot (s : State) (f : SysS → SysS) : (s.setSys f).slot = s.slot := rfl
@[simp] theorem setSys_cad (s : State) (f : SysS → SysS) : (s.setSys f).cad = s.cad := rfl
@[simp] theorem setSys_lanes (s : State) (f : SysS → SysS) : (s.setSys f).lanes = s.lanes := rfl
@[simp] theorem setSys_fec (s : State) (f : SysS → SysS) : (s.setSys f).fec = s.fec := rfl
@[simp] theorem setSys_trf (s : State) (f : SysS → SysS) : (s.setSys f).trf = s.trf := rfl
@[simp] theorem setSys_hdr (s : State) (f : SysS → SysS) : (s.setSys f).hdr = s.hdr := rfl
@[simp] theorem setSys_phase (s : State) (f : SysS → SysS) : (s.setSys f).phase = s.phase := rfl
@[simp] theorem setSys_txm (s : State) (f : SysS → SysS) : (s.setSys f).txm = s.txm := rfl
@[simp] theorem setSys_keys (s : State) (f : SysS → SysS) : (s.setSys f).keys = s.keys := rfl
@[simp] theorem setSys_mem (s : State) (f : SysS → SysS) : (s.setSys f).mem = s.mem := rfl
@[simp] theorem setSys_coreA (s : State) (f : SysS → SysS) : (s.setSys f).coreA = s.coreA := rfl
@[simp] theorem setSys_coreG (s : State) (f : SysS → SysS) : (s.setSys f).coreG = s.coreG := rfl
@[simp] theorem setSys_caches (s : State) (f : SysS → SysS) : (s.setSys f).caches = s.caches := rfl
@[simp] theorem setSys_dma (s : State) (f : SysS → SysS) : (s.setSys f).dma = s.dma := rfl
@[simp] theorem setSys_dmaLast (s : State) (f : SysS → SysS) : (s.setSys f).dmaLast = s.dmaLast := rfl
@[simp] theorem setSys_flash (s : State) (f : SysS → SysS) : (s.setSys f).flash = s.flash := rfl
@[simp] theorem setSys_memst (s : State) (f : SysS → SysS) : (s.setSys f).memst = s.memst := rfl
@[simp] theorem setSys_staged (s : State) (f : SysS → SysS) : (s.setSys f).staged = s.staged := rfl
@[simp] theorem setSys_cipu (s : State) (f : SysS → SysS) : (s.setSys f).cipu = s.cipu := rfl
@[simp] theorem setSys_upd (s : State) (f : SysS → SysS) : (s.setSys f).upd = s.upd := rfl
@[simp] theorem setSys_tmr (s : State) (f : SysS → SysS) : (s.setSys f).tmr = s.tmr := rfl
@[simp] theorem setSys_rtc (s : State) (f : SysS → SysS) : (s.setSys f).rtc = s.rtc := rfl
@[simp] theorem setSys_pads (s : State) (f : SysS → SysS) : (s.setSys f).pads = s.pads := rfl
@[simp] theorem setSys_hsp (s : State) (f : SysS → SysS) : (s.setSys f).hsp = s.hsp := rfl
@[simp] theorem setSys_psp (s : State) (f : SysS → SysS) : (s.setSys f).psp = s.psp := rfl
@[simp] theorem setSys_tst (s : State) (f : SysS → SysS) : (s.setSys f).tst = s.tst := rfl
@[simp] theorem setSys_glade (s : State) (f : SysS → SysS) : (s.setSys f).glade = s.glade := rfl
@[simp] theorem setSys_pending (s : State) (f : SysS → SysS) : (s.setSys f).pending = s.pending := rfl

/-! ## `setPsp` -/

@[simp] theorem setPsp_regs (s : State) (f : PspState → PspState) : (s.setPsp f).regs = s.regs := rfl
@[simp] theorem setPsp_now (s : State) (f : PspState → PspState) : (s.setPsp f).now = s.now := rfl
@[simp] theorem setPsp_freeCtr (s : State) (f : PspState → PspState) : (s.setPsp f).freeCtr = s.freeCtr := rfl
@[simp] theorem setPsp_sys (s : State) (f : PspState → PspState) : (s.setPsp f).sys = s.sys := rfl
@[simp] theorem setPsp_pwr (s : State) (f : PspState → PspState) : (s.setPsp f).pwr = s.pwr := rfl
@[simp] theorem setPsp_bus (s : State) (f : PspState → PspState) : (s.setPsp f).bus = s.bus := rfl
@[simp] theorem setPsp_prot (s : State) (f : PspState → PspState) : (s.setPsp f).prot = s.prot := rfl
@[simp] theorem setPsp_ovl (s : State) (f : PspState → PspState) : (s.setPsp f).ovl = s.ovl := rfl
@[simp] theorem setPsp_ntu (s : State) (f : PspState → PspState) : (s.setPsp f).ntu = s.ntu := rfl
@[simp] theorem setPsp_cul (s : State) (f : PspState → PspState) : (s.setPsp f).cul = s.cul := rfl
@[simp] theorem setPsp_rfe (s : State) (f : PspState → PspState) : (s.setPsp f).rfe = s.rfe := rfl
@[simp] theorem setPsp_slot (s : State) (f : PspState → PspState) : (s.setPsp f).slot = s.slot := rfl
@[simp] theorem setPsp_cad (s : State) (f : PspState → PspState) : (s.setPsp f).cad = s.cad := rfl
@[simp] theorem setPsp_lanes (s : State) (f : PspState → PspState) : (s.setPsp f).lanes = s.lanes := rfl
@[simp] theorem setPsp_fec (s : State) (f : PspState → PspState) : (s.setPsp f).fec = s.fec := rfl
@[simp] theorem setPsp_trf (s : State) (f : PspState → PspState) : (s.setPsp f).trf = s.trf := rfl
@[simp] theorem setPsp_hdr (s : State) (f : PspState → PspState) : (s.setPsp f).hdr = s.hdr := rfl
@[simp] theorem setPsp_phase (s : State) (f : PspState → PspState) : (s.setPsp f).phase = s.phase := rfl
@[simp] theorem setPsp_txm (s : State) (f : PspState → PspState) : (s.setPsp f).txm = s.txm := rfl
@[simp] theorem setPsp_keys (s : State) (f : PspState → PspState) : (s.setPsp f).keys = s.keys := rfl
@[simp] theorem setPsp_mem (s : State) (f : PspState → PspState) : (s.setPsp f).mem = s.mem := rfl
@[simp] theorem setPsp_coreA (s : State) (f : PspState → PspState) : (s.setPsp f).coreA = s.coreA := rfl
@[simp] theorem setPsp_coreG (s : State) (f : PspState → PspState) : (s.setPsp f).coreG = s.coreG := rfl
@[simp] theorem setPsp_caches (s : State) (f : PspState → PspState) : (s.setPsp f).caches = s.caches := rfl
@[simp] theorem setPsp_dma (s : State) (f : PspState → PspState) : (s.setPsp f).dma = s.dma := rfl
@[simp] theorem setPsp_dmaLast (s : State) (f : PspState → PspState) : (s.setPsp f).dmaLast = s.dmaLast := rfl
@[simp] theorem setPsp_flash (s : State) (f : PspState → PspState) : (s.setPsp f).flash = s.flash := rfl
@[simp] theorem setPsp_memst (s : State) (f : PspState → PspState) : (s.setPsp f).memst = s.memst := rfl
@[simp] theorem setPsp_staged (s : State) (f : PspState → PspState) : (s.setPsp f).staged = s.staged := rfl
@[simp] theorem setPsp_cipu (s : State) (f : PspState → PspState) : (s.setPsp f).cipu = s.cipu := rfl
@[simp] theorem setPsp_upd (s : State) (f : PspState → PspState) : (s.setPsp f).upd = s.upd := rfl
@[simp] theorem setPsp_tmr (s : State) (f : PspState → PspState) : (s.setPsp f).tmr = s.tmr := rfl
@[simp] theorem setPsp_rtc (s : State) (f : PspState → PspState) : (s.setPsp f).rtc = s.rtc := rfl
@[simp] theorem setPsp_pads (s : State) (f : PspState → PspState) : (s.setPsp f).pads = s.pads := rfl
@[simp] theorem setPsp_hsp (s : State) (f : PspState → PspState) : (s.setPsp f).hsp = s.hsp := rfl
@[simp] theorem setPsp_tst (s : State) (f : PspState → PspState) : (s.setPsp f).tst = s.tst := rfl
@[simp] theorem setPsp_glade (s : State) (f : PspState → PspState) : (s.setPsp f).glade = s.glade := rfl
@[simp] theorem setPsp_pending (s : State) (f : PspState → PspState) : (s.setPsp f).pending = s.pending := rfl

/-! ## `setLane` -/

@[simp] theorem setLane_regs (s : State) (n : Nat) (l : Lane) : (s.setLane n l).regs = s.regs := rfl
@[simp] theorem setLane_now (s : State) (n : Nat) (l : Lane) : (s.setLane n l).now = s.now := rfl
@[simp] theorem setLane_freeCtr (s : State) (n : Nat) (l : Lane) : (s.setLane n l).freeCtr = s.freeCtr := rfl
@[simp] theorem setLane_sys (s : State) (n : Nat) (l : Lane) : (s.setLane n l).sys = s.sys := rfl
@[simp] theorem setLane_pwr (s : State) (n : Nat) (l : Lane) : (s.setLane n l).pwr = s.pwr := rfl
@[simp] theorem setLane_bus (s : State) (n : Nat) (l : Lane) : (s.setLane n l).bus = s.bus := rfl
@[simp] theorem setLane_prot (s : State) (n : Nat) (l : Lane) : (s.setLane n l).prot = s.prot := rfl
@[simp] theorem setLane_ovl (s : State) (n : Nat) (l : Lane) : (s.setLane n l).ovl = s.ovl := rfl
@[simp] theorem setLane_ntu (s : State) (n : Nat) (l : Lane) : (s.setLane n l).ntu = s.ntu := rfl
@[simp] theorem setLane_cul (s : State) (n : Nat) (l : Lane) : (s.setLane n l).cul = s.cul := rfl
@[simp] theorem setLane_rfe (s : State) (n : Nat) (l : Lane) : (s.setLane n l).rfe = s.rfe := rfl
@[simp] theorem setLane_slot (s : State) (n : Nat) (l : Lane) : (s.setLane n l).slot = s.slot := rfl
@[simp] theorem setLane_cad (s : State) (n : Nat) (l : Lane) : (s.setLane n l).cad = s.cad := rfl
@[simp] theorem setLane_fec (s : State) (n : Nat) (l : Lane) : (s.setLane n l).fec = s.fec := rfl
@[simp] theorem setLane_trf (s : State) (n : Nat) (l : Lane) : (s.setLane n l).trf = s.trf := rfl
@[simp] theorem setLane_hdr (s : State) (n : Nat) (l : Lane) : (s.setLane n l).hdr = s.hdr := rfl
@[simp] theorem setLane_phase (s : State) (n : Nat) (l : Lane) : (s.setLane n l).phase = s.phase := rfl
@[simp] theorem setLane_txm (s : State) (n : Nat) (l : Lane) : (s.setLane n l).txm = s.txm := rfl
@[simp] theorem setLane_keys (s : State) (n : Nat) (l : Lane) : (s.setLane n l).keys = s.keys := rfl
@[simp] theorem setLane_mem (s : State) (n : Nat) (l : Lane) : (s.setLane n l).mem = s.mem := rfl
@[simp] theorem setLane_coreA (s : State) (n : Nat) (l : Lane) : (s.setLane n l).coreA = s.coreA := rfl
@[simp] theorem setLane_coreG (s : State) (n : Nat) (l : Lane) : (s.setLane n l).coreG = s.coreG := rfl
@[simp] theorem setLane_caches (s : State) (n : Nat) (l : Lane) : (s.setLane n l).caches = s.caches := rfl
@[simp] theorem setLane_dma (s : State) (n : Nat) (l : Lane) : (s.setLane n l).dma = s.dma := rfl
@[simp] theorem setLane_dmaLast (s : State) (n : Nat) (l : Lane) : (s.setLane n l).dmaLast = s.dmaLast := rfl
@[simp] theorem setLane_flash (s : State) (n : Nat) (l : Lane) : (s.setLane n l).flash = s.flash := rfl
@[simp] theorem setLane_memst (s : State) (n : Nat) (l : Lane) : (s.setLane n l).memst = s.memst := rfl
@[simp] theorem setLane_staged (s : State) (n : Nat) (l : Lane) : (s.setLane n l).staged = s.staged := rfl
@[simp] theorem setLane_cipu (s : State) (n : Nat) (l : Lane) : (s.setLane n l).cipu = s.cipu := rfl
@[simp] theorem setLane_upd (s : State) (n : Nat) (l : Lane) : (s.setLane n l).upd = s.upd := rfl
@[simp] theorem setLane_tmr (s : State) (n : Nat) (l : Lane) : (s.setLane n l).tmr = s.tmr := rfl
@[simp] theorem setLane_rtc (s : State) (n : Nat) (l : Lane) : (s.setLane n l).rtc = s.rtc := rfl
@[simp] theorem setLane_pads (s : State) (n : Nat) (l : Lane) : (s.setLane n l).pads = s.pads := rfl
@[simp] theorem setLane_hsp (s : State) (n : Nat) (l : Lane) : (s.setLane n l).hsp = s.hsp := rfl
@[simp] theorem setLane_psp (s : State) (n : Nat) (l : Lane) : (s.setLane n l).psp = s.psp := rfl
@[simp] theorem setLane_tst (s : State) (n : Nat) (l : Lane) : (s.setLane n l).tst = s.tst := rfl
@[simp] theorem setLane_glade (s : State) (n : Nat) (l : Lane) : (s.setLane n l).glade = s.glade := rfl
@[simp] theorem setLane_pending (s : State) (n : Nat) (l : Lane) : (s.setLane n l).pending = s.pending := rfl

/-! ## `setRtc` -/

@[simp] theorem setRtc_regs (s : State) (f : RtcState → RtcState) : (s.setRtc f).regs = s.regs := rfl
@[simp] theorem setRtc_now (s : State) (f : RtcState → RtcState) : (s.setRtc f).now = s.now := rfl
@[simp] theorem setRtc_freeCtr (s : State) (f : RtcState → RtcState) : (s.setRtc f).freeCtr = s.freeCtr := rfl
@[simp] theorem setRtc_sys (s : State) (f : RtcState → RtcState) : (s.setRtc f).sys = s.sys := rfl
@[simp] theorem setRtc_pwr (s : State) (f : RtcState → RtcState) : (s.setRtc f).pwr = s.pwr := rfl
@[simp] theorem setRtc_bus (s : State) (f : RtcState → RtcState) : (s.setRtc f).bus = s.bus := rfl
@[simp] theorem setRtc_prot (s : State) (f : RtcState → RtcState) : (s.setRtc f).prot = s.prot := rfl
@[simp] theorem setRtc_ovl (s : State) (f : RtcState → RtcState) : (s.setRtc f).ovl = s.ovl := rfl
@[simp] theorem setRtc_ntu (s : State) (f : RtcState → RtcState) : (s.setRtc f).ntu = s.ntu := rfl
@[simp] theorem setRtc_cul (s : State) (f : RtcState → RtcState) : (s.setRtc f).cul = s.cul := rfl
@[simp] theorem setRtc_rfe (s : State) (f : RtcState → RtcState) : (s.setRtc f).rfe = s.rfe := rfl
@[simp] theorem setRtc_slot (s : State) (f : RtcState → RtcState) : (s.setRtc f).slot = s.slot := rfl
@[simp] theorem setRtc_cad (s : State) (f : RtcState → RtcState) : (s.setRtc f).cad = s.cad := rfl
@[simp] theorem setRtc_lanes (s : State) (f : RtcState → RtcState) : (s.setRtc f).lanes = s.lanes := rfl
@[simp] theorem setRtc_fec (s : State) (f : RtcState → RtcState) : (s.setRtc f).fec = s.fec := rfl
@[simp] theorem setRtc_trf (s : State) (f : RtcState → RtcState) : (s.setRtc f).trf = s.trf := rfl
@[simp] theorem setRtc_hdr (s : State) (f : RtcState → RtcState) : (s.setRtc f).hdr = s.hdr := rfl
@[simp] theorem setRtc_phase (s : State) (f : RtcState → RtcState) : (s.setRtc f).phase = s.phase := rfl
@[simp] theorem setRtc_txm (s : State) (f : RtcState → RtcState) : (s.setRtc f).txm = s.txm := rfl
@[simp] theorem setRtc_keys (s : State) (f : RtcState → RtcState) : (s.setRtc f).keys = s.keys := rfl
@[simp] theorem setRtc_mem (s : State) (f : RtcState → RtcState) : (s.setRtc f).mem = s.mem := rfl
@[simp] theorem setRtc_coreA (s : State) (f : RtcState → RtcState) : (s.setRtc f).coreA = s.coreA := rfl
@[simp] theorem setRtc_coreG (s : State) (f : RtcState → RtcState) : (s.setRtc f).coreG = s.coreG := rfl
@[simp] theorem setRtc_caches (s : State) (f : RtcState → RtcState) : (s.setRtc f).caches = s.caches := rfl
@[simp] theorem setRtc_dma (s : State) (f : RtcState → RtcState) : (s.setRtc f).dma = s.dma := rfl
@[simp] theorem setRtc_dmaLast (s : State) (f : RtcState → RtcState) : (s.setRtc f).dmaLast = s.dmaLast := rfl
@[simp] theorem setRtc_flash (s : State) (f : RtcState → RtcState) : (s.setRtc f).flash = s.flash := rfl
@[simp] theorem setRtc_memst (s : State) (f : RtcState → RtcState) : (s.setRtc f).memst = s.memst := rfl
@[simp] theorem setRtc_staged (s : State) (f : RtcState → RtcState) : (s.setRtc f).staged = s.staged := rfl
@[simp] theorem setRtc_cipu (s : State) (f : RtcState → RtcState) : (s.setRtc f).cipu = s.cipu := rfl
@[simp] theorem setRtc_upd (s : State) (f : RtcState → RtcState) : (s.setRtc f).upd = s.upd := rfl
@[simp] theorem setRtc_tmr (s : State) (f : RtcState → RtcState) : (s.setRtc f).tmr = s.tmr := rfl
@[simp] theorem setRtc_pads (s : State) (f : RtcState → RtcState) : (s.setRtc f).pads = s.pads := rfl
@[simp] theorem setRtc_hsp (s : State) (f : RtcState → RtcState) : (s.setRtc f).hsp = s.hsp := rfl
@[simp] theorem setRtc_psp (s : State) (f : RtcState → RtcState) : (s.setRtc f).psp = s.psp := rfl
@[simp] theorem setRtc_tst (s : State) (f : RtcState → RtcState) : (s.setRtc f).tst = s.tst := rfl
@[simp] theorem setRtc_glade (s : State) (f : RtcState → RtcState) : (s.setRtc f).glade = s.glade := rfl
@[simp] theorem setRtc_pending (s : State) (f : RtcState → RtcState) : (s.setRtc f).pending = s.pending := rfl

/-! ## `setTst` -/

@[simp] theorem setTst_regs (s : State) (f : TstState → TstState) : (s.setTst f).regs = s.regs := rfl
@[simp] theorem setTst_now (s : State) (f : TstState → TstState) : (s.setTst f).now = s.now := rfl
@[simp] theorem setTst_freeCtr (s : State) (f : TstState → TstState) : (s.setTst f).freeCtr = s.freeCtr := rfl
@[simp] theorem setTst_sys (s : State) (f : TstState → TstState) : (s.setTst f).sys = s.sys := rfl
@[simp] theorem setTst_pwr (s : State) (f : TstState → TstState) : (s.setTst f).pwr = s.pwr := rfl
@[simp] theorem setTst_bus (s : State) (f : TstState → TstState) : (s.setTst f).bus = s.bus := rfl
@[simp] theorem setTst_prot (s : State) (f : TstState → TstState) : (s.setTst f).prot = s.prot := rfl
@[simp] theorem setTst_ovl (s : State) (f : TstState → TstState) : (s.setTst f).ovl = s.ovl := rfl
@[simp] theorem setTst_ntu (s : State) (f : TstState → TstState) : (s.setTst f).ntu = s.ntu := rfl
@[simp] theorem setTst_cul (s : State) (f : TstState → TstState) : (s.setTst f).cul = s.cul := rfl
@[simp] theorem setTst_rfe (s : State) (f : TstState → TstState) : (s.setTst f).rfe = s.rfe := rfl
@[simp] theorem setTst_slot (s : State) (f : TstState → TstState) : (s.setTst f).slot = s.slot := rfl
@[simp] theorem setTst_cad (s : State) (f : TstState → TstState) : (s.setTst f).cad = s.cad := rfl
@[simp] theorem setTst_lanes (s : State) (f : TstState → TstState) : (s.setTst f).lanes = s.lanes := rfl
@[simp] theorem setTst_fec (s : State) (f : TstState → TstState) : (s.setTst f).fec = s.fec := rfl
@[simp] theorem setTst_trf (s : State) (f : TstState → TstState) : (s.setTst f).trf = s.trf := rfl
@[simp] theorem setTst_hdr (s : State) (f : TstState → TstState) : (s.setTst f).hdr = s.hdr := rfl
@[simp] theorem setTst_phase (s : State) (f : TstState → TstState) : (s.setTst f).phase = s.phase := rfl
@[simp] theorem setTst_txm (s : State) (f : TstState → TstState) : (s.setTst f).txm = s.txm := rfl
@[simp] theorem setTst_keys (s : State) (f : TstState → TstState) : (s.setTst f).keys = s.keys := rfl
@[simp] theorem setTst_mem (s : State) (f : TstState → TstState) : (s.setTst f).mem = s.mem := rfl
@[simp] theorem setTst_coreA (s : State) (f : TstState → TstState) : (s.setTst f).coreA = s.coreA := rfl
@[simp] theorem setTst_coreG (s : State) (f : TstState → TstState) : (s.setTst f).coreG = s.coreG := rfl
@[simp] theorem setTst_caches (s : State) (f : TstState → TstState) : (s.setTst f).caches = s.caches := rfl
@[simp] theorem setTst_dma (s : State) (f : TstState → TstState) : (s.setTst f).dma = s.dma := rfl
@[simp] theorem setTst_dmaLast (s : State) (f : TstState → TstState) : (s.setTst f).dmaLast = s.dmaLast := rfl
@[simp] theorem setTst_flash (s : State) (f : TstState → TstState) : (s.setTst f).flash = s.flash := rfl
@[simp] theorem setTst_memst (s : State) (f : TstState → TstState) : (s.setTst f).memst = s.memst := rfl
@[simp] theorem setTst_staged (s : State) (f : TstState → TstState) : (s.setTst f).staged = s.staged := rfl
@[simp] theorem setTst_cipu (s : State) (f : TstState → TstState) : (s.setTst f).cipu = s.cipu := rfl
@[simp] theorem setTst_upd (s : State) (f : TstState → TstState) : (s.setTst f).upd = s.upd := rfl
@[simp] theorem setTst_tmr (s : State) (f : TstState → TstState) : (s.setTst f).tmr = s.tmr := rfl
@[simp] theorem setTst_rtc (s : State) (f : TstState → TstState) : (s.setTst f).rtc = s.rtc := rfl
@[simp] theorem setTst_pads (s : State) (f : TstState → TstState) : (s.setTst f).pads = s.pads := rfl
@[simp] theorem setTst_hsp (s : State) (f : TstState → TstState) : (s.setTst f).hsp = s.hsp := rfl
@[simp] theorem setTst_psp (s : State) (f : TstState → TstState) : (s.setTst f).psp = s.psp := rfl
@[simp] theorem setTst_glade (s : State) (f : TstState → TstState) : (s.setTst f).glade = s.glade := rfl
@[simp] theorem setTst_pending (s : State) (f : TstState → TstState) : (s.setTst f).pending = s.pending := rfl

/-! ## `setRfe` -/

@[simp] theorem setRfe_regs (s : State) (f : RfeState → RfeState) : (s.setRfe f).regs = s.regs := rfl
@[simp] theorem setRfe_now (s : State) (f : RfeState → RfeState) : (s.setRfe f).now = s.now := rfl
@[simp] theorem setRfe_freeCtr (s : State) (f : RfeState → RfeState) : (s.setRfe f).freeCtr = s.freeCtr := rfl
@[simp] theorem setRfe_sys (s : State) (f : RfeState → RfeState) : (s.setRfe f).sys = s.sys := rfl
@[simp] theorem setRfe_pwr (s : State) (f : RfeState → RfeState) : (s.setRfe f).pwr = s.pwr := rfl
@[simp] theorem setRfe_bus (s : State) (f : RfeState → RfeState) : (s.setRfe f).bus = s.bus := rfl
@[simp] theorem setRfe_prot (s : State) (f : RfeState → RfeState) : (s.setRfe f).prot = s.prot := rfl
@[simp] theorem setRfe_ovl (s : State) (f : RfeState → RfeState) : (s.setRfe f).ovl = s.ovl := rfl
@[simp] theorem setRfe_ntu (s : State) (f : RfeState → RfeState) : (s.setRfe f).ntu = s.ntu := rfl
@[simp] theorem setRfe_cul (s : State) (f : RfeState → RfeState) : (s.setRfe f).cul = s.cul := rfl
@[simp] theorem setRfe_slot (s : State) (f : RfeState → RfeState) : (s.setRfe f).slot = s.slot := rfl
@[simp] theorem setRfe_cad (s : State) (f : RfeState → RfeState) : (s.setRfe f).cad = s.cad := rfl
@[simp] theorem setRfe_lanes (s : State) (f : RfeState → RfeState) : (s.setRfe f).lanes = s.lanes := rfl
@[simp] theorem setRfe_fec (s : State) (f : RfeState → RfeState) : (s.setRfe f).fec = s.fec := rfl
@[simp] theorem setRfe_trf (s : State) (f : RfeState → RfeState) : (s.setRfe f).trf = s.trf := rfl
@[simp] theorem setRfe_hdr (s : State) (f : RfeState → RfeState) : (s.setRfe f).hdr = s.hdr := rfl
@[simp] theorem setRfe_phase (s : State) (f : RfeState → RfeState) : (s.setRfe f).phase = s.phase := rfl
@[simp] theorem setRfe_txm (s : State) (f : RfeState → RfeState) : (s.setRfe f).txm = s.txm := rfl
@[simp] theorem setRfe_keys (s : State) (f : RfeState → RfeState) : (s.setRfe f).keys = s.keys := rfl
@[simp] theorem setRfe_mem (s : State) (f : RfeState → RfeState) : (s.setRfe f).mem = s.mem := rfl
@[simp] theorem setRfe_coreA (s : State) (f : RfeState → RfeState) : (s.setRfe f).coreA = s.coreA := rfl
@[simp] theorem setRfe_coreG (s : State) (f : RfeState → RfeState) : (s.setRfe f).coreG = s.coreG := rfl
@[simp] theorem setRfe_caches (s : State) (f : RfeState → RfeState) : (s.setRfe f).caches = s.caches := rfl
@[simp] theorem setRfe_dma (s : State) (f : RfeState → RfeState) : (s.setRfe f).dma = s.dma := rfl
@[simp] theorem setRfe_dmaLast (s : State) (f : RfeState → RfeState) : (s.setRfe f).dmaLast = s.dmaLast := rfl
@[simp] theorem setRfe_flash (s : State) (f : RfeState → RfeState) : (s.setRfe f).flash = s.flash := rfl
@[simp] theorem setRfe_memst (s : State) (f : RfeState → RfeState) : (s.setRfe f).memst = s.memst := rfl
@[simp] theorem setRfe_staged (s : State) (f : RfeState → RfeState) : (s.setRfe f).staged = s.staged := rfl
@[simp] theorem setRfe_cipu (s : State) (f : RfeState → RfeState) : (s.setRfe f).cipu = s.cipu := rfl
@[simp] theorem setRfe_upd (s : State) (f : RfeState → RfeState) : (s.setRfe f).upd = s.upd := rfl
@[simp] theorem setRfe_tmr (s : State) (f : RfeState → RfeState) : (s.setRfe f).tmr = s.tmr := rfl
@[simp] theorem setRfe_rtc (s : State) (f : RfeState → RfeState) : (s.setRfe f).rtc = s.rtc := rfl
@[simp] theorem setRfe_pads (s : State) (f : RfeState → RfeState) : (s.setRfe f).pads = s.pads := rfl
@[simp] theorem setRfe_hsp (s : State) (f : RfeState → RfeState) : (s.setRfe f).hsp = s.hsp := rfl
@[simp] theorem setRfe_psp (s : State) (f : RfeState → RfeState) : (s.setRfe f).psp = s.psp := rfl
@[simp] theorem setRfe_tst (s : State) (f : RfeState → RfeState) : (s.setRfe f).tst = s.tst := rfl
@[simp] theorem setRfe_glade (s : State) (f : RfeState → RfeState) : (s.setRfe f).glade = s.glade := rfl
@[simp] theorem setRfe_pending (s : State) (f : RfeState → RfeState) : (s.setRfe f).pending = s.pending := rfl

/-! ## `setHdr` -/

@[simp] theorem setHdr_regs (s : State) (f : HdrState → HdrState) : (s.setHdr f).regs = s.regs := rfl
@[simp] theorem setHdr_now (s : State) (f : HdrState → HdrState) : (s.setHdr f).now = s.now := rfl
@[simp] theorem setHdr_freeCtr (s : State) (f : HdrState → HdrState) : (s.setHdr f).freeCtr = s.freeCtr := rfl
@[simp] theorem setHdr_sys (s : State) (f : HdrState → HdrState) : (s.setHdr f).sys = s.sys := rfl
@[simp] theorem setHdr_pwr (s : State) (f : HdrState → HdrState) : (s.setHdr f).pwr = s.pwr := rfl
@[simp] theorem setHdr_bus (s : State) (f : HdrState → HdrState) : (s.setHdr f).bus = s.bus := rfl
@[simp] theorem setHdr_prot (s : State) (f : HdrState → HdrState) : (s.setHdr f).prot = s.prot := rfl
@[simp] theorem setHdr_ovl (s : State) (f : HdrState → HdrState) : (s.setHdr f).ovl = s.ovl := rfl
@[simp] theorem setHdr_ntu (s : State) (f : HdrState → HdrState) : (s.setHdr f).ntu = s.ntu := rfl
@[simp] theorem setHdr_cul (s : State) (f : HdrState → HdrState) : (s.setHdr f).cul = s.cul := rfl
@[simp] theorem setHdr_rfe (s : State) (f : HdrState → HdrState) : (s.setHdr f).rfe = s.rfe := rfl
@[simp] theorem setHdr_slot (s : State) (f : HdrState → HdrState) : (s.setHdr f).slot = s.slot := rfl
@[simp] theorem setHdr_cad (s : State) (f : HdrState → HdrState) : (s.setHdr f).cad = s.cad := rfl
@[simp] theorem setHdr_lanes (s : State) (f : HdrState → HdrState) : (s.setHdr f).lanes = s.lanes := rfl
@[simp] theorem setHdr_fec (s : State) (f : HdrState → HdrState) : (s.setHdr f).fec = s.fec := rfl
@[simp] theorem setHdr_trf (s : State) (f : HdrState → HdrState) : (s.setHdr f).trf = s.trf := rfl
@[simp] theorem setHdr_phase (s : State) (f : HdrState → HdrState) : (s.setHdr f).phase = s.phase := rfl
@[simp] theorem setHdr_txm (s : State) (f : HdrState → HdrState) : (s.setHdr f).txm = s.txm := rfl
@[simp] theorem setHdr_keys (s : State) (f : HdrState → HdrState) : (s.setHdr f).keys = s.keys := rfl
@[simp] theorem setHdr_mem (s : State) (f : HdrState → HdrState) : (s.setHdr f).mem = s.mem := rfl
@[simp] theorem setHdr_coreA (s : State) (f : HdrState → HdrState) : (s.setHdr f).coreA = s.coreA := rfl
@[simp] theorem setHdr_coreG (s : State) (f : HdrState → HdrState) : (s.setHdr f).coreG = s.coreG := rfl
@[simp] theorem setHdr_caches (s : State) (f : HdrState → HdrState) : (s.setHdr f).caches = s.caches := rfl
@[simp] theorem setHdr_dma (s : State) (f : HdrState → HdrState) : (s.setHdr f).dma = s.dma := rfl
@[simp] theorem setHdr_dmaLast (s : State) (f : HdrState → HdrState) : (s.setHdr f).dmaLast = s.dmaLast := rfl
@[simp] theorem setHdr_flash (s : State) (f : HdrState → HdrState) : (s.setHdr f).flash = s.flash := rfl
@[simp] theorem setHdr_memst (s : State) (f : HdrState → HdrState) : (s.setHdr f).memst = s.memst := rfl
@[simp] theorem setHdr_staged (s : State) (f : HdrState → HdrState) : (s.setHdr f).staged = s.staged := rfl
@[simp] theorem setHdr_cipu (s : State) (f : HdrState → HdrState) : (s.setHdr f).cipu = s.cipu := rfl
@[simp] theorem setHdr_upd (s : State) (f : HdrState → HdrState) : (s.setHdr f).upd = s.upd := rfl
@[simp] theorem setHdr_tmr (s : State) (f : HdrState → HdrState) : (s.setHdr f).tmr = s.tmr := rfl
@[simp] theorem setHdr_rtc (s : State) (f : HdrState → HdrState) : (s.setHdr f).rtc = s.rtc := rfl
@[simp] theorem setHdr_pads (s : State) (f : HdrState → HdrState) : (s.setHdr f).pads = s.pads := rfl
@[simp] theorem setHdr_hsp (s : State) (f : HdrState → HdrState) : (s.setHdr f).hsp = s.hsp := rfl
@[simp] theorem setHdr_psp (s : State) (f : HdrState → HdrState) : (s.setHdr f).psp = s.psp := rfl
@[simp] theorem setHdr_tst (s : State) (f : HdrState → HdrState) : (s.setHdr f).tst = s.tst := rfl
@[simp] theorem setHdr_glade (s : State) (f : HdrState → HdrState) : (s.setHdr f).glade = s.glade := rfl
@[simp] theorem setHdr_pending (s : State) (f : HdrState → HdrState) : (s.setHdr f).pending = s.pending := rfl

/-! ## `setSlot` -/

@[simp] theorem setSlot_regs (s : State) (f : Slot → Slot) : (s.setSlot f).regs = s.regs := rfl
@[simp] theorem setSlot_now (s : State) (f : Slot → Slot) : (s.setSlot f).now = s.now := rfl
@[simp] theorem setSlot_freeCtr (s : State) (f : Slot → Slot) : (s.setSlot f).freeCtr = s.freeCtr := rfl
@[simp] theorem setSlot_sys (s : State) (f : Slot → Slot) : (s.setSlot f).sys = s.sys := rfl
@[simp] theorem setSlot_pwr (s : State) (f : Slot → Slot) : (s.setSlot f).pwr = s.pwr := rfl
@[simp] theorem setSlot_bus (s : State) (f : Slot → Slot) : (s.setSlot f).bus = s.bus := rfl
@[simp] theorem setSlot_prot (s : State) (f : Slot → Slot) : (s.setSlot f).prot = s.prot := rfl
@[simp] theorem setSlot_ovl (s : State) (f : Slot → Slot) : (s.setSlot f).ovl = s.ovl := rfl
@[simp] theorem setSlot_ntu (s : State) (f : Slot → Slot) : (s.setSlot f).ntu = s.ntu := rfl
@[simp] theorem setSlot_cul (s : State) (f : Slot → Slot) : (s.setSlot f).cul = s.cul := rfl
@[simp] theorem setSlot_rfe (s : State) (f : Slot → Slot) : (s.setSlot f).rfe = s.rfe := rfl
@[simp] theorem setSlot_cad (s : State) (f : Slot → Slot) : (s.setSlot f).cad = s.cad := rfl
@[simp] theorem setSlot_lanes (s : State) (f : Slot → Slot) : (s.setSlot f).lanes = s.lanes := rfl
@[simp] theorem setSlot_fec (s : State) (f : Slot → Slot) : (s.setSlot f).fec = s.fec := rfl
@[simp] theorem setSlot_trf (s : State) (f : Slot → Slot) : (s.setSlot f).trf = s.trf := rfl
@[simp] theorem setSlot_hdr (s : State) (f : Slot → Slot) : (s.setSlot f).hdr = s.hdr := rfl
@[simp] theorem setSlot_phase (s : State) (f : Slot → Slot) : (s.setSlot f).phase = s.phase := rfl
@[simp] theorem setSlot_txm (s : State) (f : Slot → Slot) : (s.setSlot f).txm = s.txm := rfl
@[simp] theorem setSlot_keys (s : State) (f : Slot → Slot) : (s.setSlot f).keys = s.keys := rfl
@[simp] theorem setSlot_mem (s : State) (f : Slot → Slot) : (s.setSlot f).mem = s.mem := rfl
@[simp] theorem setSlot_coreA (s : State) (f : Slot → Slot) : (s.setSlot f).coreA = s.coreA := rfl
@[simp] theorem setSlot_coreG (s : State) (f : Slot → Slot) : (s.setSlot f).coreG = s.coreG := rfl
@[simp] theorem setSlot_caches (s : State) (f : Slot → Slot) : (s.setSlot f).caches = s.caches := rfl
@[simp] theorem setSlot_dma (s : State) (f : Slot → Slot) : (s.setSlot f).dma = s.dma := rfl
@[simp] theorem setSlot_dmaLast (s : State) (f : Slot → Slot) : (s.setSlot f).dmaLast = s.dmaLast := rfl
@[simp] theorem setSlot_flash (s : State) (f : Slot → Slot) : (s.setSlot f).flash = s.flash := rfl
@[simp] theorem setSlot_memst (s : State) (f : Slot → Slot) : (s.setSlot f).memst = s.memst := rfl
@[simp] theorem setSlot_staged (s : State) (f : Slot → Slot) : (s.setSlot f).staged = s.staged := rfl
@[simp] theorem setSlot_cipu (s : State) (f : Slot → Slot) : (s.setSlot f).cipu = s.cipu := rfl
@[simp] theorem setSlot_upd (s : State) (f : Slot → Slot) : (s.setSlot f).upd = s.upd := rfl
@[simp] theorem setSlot_tmr (s : State) (f : Slot → Slot) : (s.setSlot f).tmr = s.tmr := rfl
@[simp] theorem setSlot_rtc (s : State) (f : Slot → Slot) : (s.setSlot f).rtc = s.rtc := rfl
@[simp] theorem setSlot_pads (s : State) (f : Slot → Slot) : (s.setSlot f).pads = s.pads := rfl
@[simp] theorem setSlot_hsp (s : State) (f : Slot → Slot) : (s.setSlot f).hsp = s.hsp := rfl
@[simp] theorem setSlot_psp (s : State) (f : Slot → Slot) : (s.setSlot f).psp = s.psp := rfl
@[simp] theorem setSlot_tst (s : State) (f : Slot → Slot) : (s.setSlot f).tst = s.tst := rfl
@[simp] theorem setSlot_glade (s : State) (f : Slot → Slot) : (s.setSlot f).glade = s.glade := rfl
@[simp] theorem setSlot_pending (s : State) (f : Slot → Slot) : (s.setSlot f).pending = s.pending := rfl

/-! ## `setTx` -/

@[simp] theorem setTx_regs (s : State) (x : Option Tx) : (s.setTx x).regs = s.regs := rfl
@[simp] theorem setTx_now (s : State) (x : Option Tx) : (s.setTx x).now = s.now := rfl
@[simp] theorem setTx_freeCtr (s : State) (x : Option Tx) : (s.setTx x).freeCtr = s.freeCtr := rfl
@[simp] theorem setTx_sys (s : State) (x : Option Tx) : (s.setTx x).sys = s.sys := rfl
@[simp] theorem setTx_pwr (s : State) (x : Option Tx) : (s.setTx x).pwr = s.pwr := rfl
@[simp] theorem setTx_bus (s : State) (x : Option Tx) : (s.setTx x).bus = s.bus := rfl
@[simp] theorem setTx_prot (s : State) (x : Option Tx) : (s.setTx x).prot = s.prot := rfl
@[simp] theorem setTx_ovl (s : State) (x : Option Tx) : (s.setTx x).ovl = s.ovl := rfl
@[simp] theorem setTx_ntu (s : State) (x : Option Tx) : (s.setTx x).ntu = s.ntu := rfl
@[simp] theorem setTx_cul (s : State) (x : Option Tx) : (s.setTx x).cul = s.cul := rfl
@[simp] theorem setTx_rfe (s : State) (x : Option Tx) : (s.setTx x).rfe = s.rfe := rfl
@[simp] theorem setTx_slot (s : State) (x : Option Tx) : (s.setTx x).slot = s.slot := rfl
@[simp] theorem setTx_cad (s : State) (x : Option Tx) : (s.setTx x).cad = s.cad := rfl
@[simp] theorem setTx_lanes (s : State) (x : Option Tx) : (s.setTx x).lanes = s.lanes := rfl
@[simp] theorem setTx_fec (s : State) (x : Option Tx) : (s.setTx x).fec = s.fec := rfl
@[simp] theorem setTx_trf (s : State) (x : Option Tx) : (s.setTx x).trf = s.trf := rfl
@[simp] theorem setTx_hdr (s : State) (x : Option Tx) : (s.setTx x).hdr = s.hdr := rfl
@[simp] theorem setTx_phase (s : State) (x : Option Tx) : (s.setTx x).phase = s.phase := rfl
@[simp] theorem setTx_keys (s : State) (x : Option Tx) : (s.setTx x).keys = s.keys := rfl
@[simp] theorem setTx_mem (s : State) (x : Option Tx) : (s.setTx x).mem = s.mem := rfl
@[simp] theorem setTx_coreA (s : State) (x : Option Tx) : (s.setTx x).coreA = s.coreA := rfl
@[simp] theorem setTx_coreG (s : State) (x : Option Tx) : (s.setTx x).coreG = s.coreG := rfl
@[simp] theorem setTx_caches (s : State) (x : Option Tx) : (s.setTx x).caches = s.caches := rfl
@[simp] theorem setTx_dma (s : State) (x : Option Tx) : (s.setTx x).dma = s.dma := rfl
@[simp] theorem setTx_dmaLast (s : State) (x : Option Tx) : (s.setTx x).dmaLast = s.dmaLast := rfl
@[simp] theorem setTx_flash (s : State) (x : Option Tx) : (s.setTx x).flash = s.flash := rfl
@[simp] theorem setTx_memst (s : State) (x : Option Tx) : (s.setTx x).memst = s.memst := rfl
@[simp] theorem setTx_staged (s : State) (x : Option Tx) : (s.setTx x).staged = s.staged := rfl
@[simp] theorem setTx_cipu (s : State) (x : Option Tx) : (s.setTx x).cipu = s.cipu := rfl
@[simp] theorem setTx_upd (s : State) (x : Option Tx) : (s.setTx x).upd = s.upd := rfl
@[simp] theorem setTx_tmr (s : State) (x : Option Tx) : (s.setTx x).tmr = s.tmr := rfl
@[simp] theorem setTx_rtc (s : State) (x : Option Tx) : (s.setTx x).rtc = s.rtc := rfl
@[simp] theorem setTx_pads (s : State) (x : Option Tx) : (s.setTx x).pads = s.pads := rfl
@[simp] theorem setTx_hsp (s : State) (x : Option Tx) : (s.setTx x).hsp = s.hsp := rfl
@[simp] theorem setTx_psp (s : State) (x : Option Tx) : (s.setTx x).psp = s.psp := rfl
@[simp] theorem setTx_tst (s : State) (x : Option Tx) : (s.setTx x).tst = s.tst := rfl
@[simp] theorem setTx_glade (s : State) (x : Option Tx) : (s.setTx x).glade = s.glade := rfl
@[simp] theorem setTx_pending (s : State) (x : Option Tx) : (s.setTx x).pending = s.pending := rfl

/-! ## `setUpd` -/

@[simp] theorem setUpd_regs (s : State) (f : UpdState → UpdState) : (s.setUpd f).regs = s.regs := rfl
@[simp] theorem setUpd_now (s : State) (f : UpdState → UpdState) : (s.setUpd f).now = s.now := rfl
@[simp] theorem setUpd_freeCtr (s : State) (f : UpdState → UpdState) : (s.setUpd f).freeCtr = s.freeCtr := rfl
@[simp] theorem setUpd_sys (s : State) (f : UpdState → UpdState) : (s.setUpd f).sys = s.sys := rfl
@[simp] theorem setUpd_pwr (s : State) (f : UpdState → UpdState) : (s.setUpd f).pwr = s.pwr := rfl
@[simp] theorem setUpd_bus (s : State) (f : UpdState → UpdState) : (s.setUpd f).bus = s.bus := rfl
@[simp] theorem setUpd_prot (s : State) (f : UpdState → UpdState) : (s.setUpd f).prot = s.prot := rfl
@[simp] theorem setUpd_ovl (s : State) (f : UpdState → UpdState) : (s.setUpd f).ovl = s.ovl := rfl
@[simp] theorem setUpd_ntu (s : State) (f : UpdState → UpdState) : (s.setUpd f).ntu = s.ntu := rfl
@[simp] theorem setUpd_cul (s : State) (f : UpdState → UpdState) : (s.setUpd f).cul = s.cul := rfl
@[simp] theorem setUpd_rfe (s : State) (f : UpdState → UpdState) : (s.setUpd f).rfe = s.rfe := rfl
@[simp] theorem setUpd_slot (s : State) (f : UpdState → UpdState) : (s.setUpd f).slot = s.slot := rfl
@[simp] theorem setUpd_cad (s : State) (f : UpdState → UpdState) : (s.setUpd f).cad = s.cad := rfl
@[simp] theorem setUpd_lanes (s : State) (f : UpdState → UpdState) : (s.setUpd f).lanes = s.lanes := rfl
@[simp] theorem setUpd_fec (s : State) (f : UpdState → UpdState) : (s.setUpd f).fec = s.fec := rfl
@[simp] theorem setUpd_trf (s : State) (f : UpdState → UpdState) : (s.setUpd f).trf = s.trf := rfl
@[simp] theorem setUpd_hdr (s : State) (f : UpdState → UpdState) : (s.setUpd f).hdr = s.hdr := rfl
@[simp] theorem setUpd_phase (s : State) (f : UpdState → UpdState) : (s.setUpd f).phase = s.phase := rfl
@[simp] theorem setUpd_txm (s : State) (f : UpdState → UpdState) : (s.setUpd f).txm = s.txm := rfl
@[simp] theorem setUpd_keys (s : State) (f : UpdState → UpdState) : (s.setUpd f).keys = s.keys := rfl
@[simp] theorem setUpd_mem (s : State) (f : UpdState → UpdState) : (s.setUpd f).mem = s.mem := rfl
@[simp] theorem setUpd_coreA (s : State) (f : UpdState → UpdState) : (s.setUpd f).coreA = s.coreA := rfl
@[simp] theorem setUpd_coreG (s : State) (f : UpdState → UpdState) : (s.setUpd f).coreG = s.coreG := rfl
@[simp] theorem setUpd_caches (s : State) (f : UpdState → UpdState) : (s.setUpd f).caches = s.caches := rfl
@[simp] theorem setUpd_dma (s : State) (f : UpdState → UpdState) : (s.setUpd f).dma = s.dma := rfl
@[simp] theorem setUpd_dmaLast (s : State) (f : UpdState → UpdState) : (s.setUpd f).dmaLast = s.dmaLast := rfl
@[simp] theorem setUpd_flash (s : State) (f : UpdState → UpdState) : (s.setUpd f).flash = s.flash := rfl
@[simp] theorem setUpd_memst (s : State) (f : UpdState → UpdState) : (s.setUpd f).memst = s.memst := rfl
@[simp] theorem setUpd_staged (s : State) (f : UpdState → UpdState) : (s.setUpd f).staged = s.staged := rfl
@[simp] theorem setUpd_cipu (s : State) (f : UpdState → UpdState) : (s.setUpd f).cipu = s.cipu := rfl
@[simp] theorem setUpd_tmr (s : State) (f : UpdState → UpdState) : (s.setUpd f).tmr = s.tmr := rfl
@[simp] theorem setUpd_rtc (s : State) (f : UpdState → UpdState) : (s.setUpd f).rtc = s.rtc := rfl
@[simp] theorem setUpd_pads (s : State) (f : UpdState → UpdState) : (s.setUpd f).pads = s.pads := rfl
@[simp] theorem setUpd_hsp (s : State) (f : UpdState → UpdState) : (s.setUpd f).hsp = s.hsp := rfl
@[simp] theorem setUpd_psp (s : State) (f : UpdState → UpdState) : (s.setUpd f).psp = s.psp := rfl
@[simp] theorem setUpd_tst (s : State) (f : UpdState → UpdState) : (s.setUpd f).tst = s.tst := rfl
@[simp] theorem setUpd_glade (s : State) (f : UpdState → UpdState) : (s.setUpd f).glade = s.glade := rfl
@[simp] theorem setUpd_pending (s : State) (f : UpdState → UpdState) : (s.setUpd f).pending = s.pending := rfl

/-! ## `advance` (from `advance_only`) -/

@[simp] theorem advance_regs (s : State) (t : Frc) : (s.advance t).regs = s.regs := by
  have h := advance_only s t; unfold TimeOnly at h; rw [h]
@[simp] theorem advance_freeCtr (s : State) (t : Frc) : (s.advance t).freeCtr = s.freeCtr := by
  have h := advance_only s t; unfold TimeOnly at h; rw [h]
@[simp] theorem advance_sys (s : State) (t : Frc) : (s.advance t).sys = s.sys := by
  have h := advance_only s t; unfold TimeOnly at h; rw [h]
@[simp] theorem advance_pwr (s : State) (t : Frc) : (s.advance t).pwr = s.pwr := by
  have h := advance_only s t; unfold TimeOnly at h; rw [h]
@[simp] theorem advance_bus (s : State) (t : Frc) : (s.advance t).bus = s.bus := by
  have h := advance_only s t; unfold TimeOnly at h; rw [h]
@[simp] theorem advance_prot (s : State) (t : Frc) : (s.advance t).prot = s.prot := by
  have h := advance_only s t; unfold TimeOnly at h; rw [h]
@[simp] theorem advance_ovl (s : State) (t : Frc) : (s.advance t).ovl = s.ovl := by
  have h := advance_only s t; unfold TimeOnly at h; rw [h]
@[simp] theorem advance_cul (s : State) (t : Frc) : (s.advance t).cul = s.cul := by
  have h := advance_only s t; unfold TimeOnly at h; rw [h]
@[simp] theorem advance_rfe (s : State) (t : Frc) : (s.advance t).rfe = s.rfe := by
  have h := advance_only s t; unfold TimeOnly at h; rw [h]
@[simp] theorem advance_slot (s : State) (t : Frc) : (s.advance t).slot = s.slot := by
  have h := advance_only s t; unfold TimeOnly at h; rw [h]
@[simp] theorem advance_cad (s : State) (t : Frc) : (s.advance t).cad = s.cad := by
  have h := advance_only s t; unfold TimeOnly at h; rw [h]
@[simp] theorem advance_lanes (s : State) (t : Frc) : (s.advance t).lanes = s.lanes := by
  have h := advance_only s t; unfold TimeOnly at h; rw [h]
@[simp] theorem advance_fec (s : State) (t : Frc) : (s.advance t).fec = s.fec := by
  have h := advance_only s t; unfold TimeOnly at h; rw [h]
@[simp] theorem advance_trf (s : State) (t : Frc) : (s.advance t).trf = s.trf := by
  have h := advance_only s t; unfold TimeOnly at h; rw [h]
@[simp] theorem advance_hdr (s : State) (t : Frc) : (s.advance t).hdr = s.hdr := by
  have h := advance_only s t; unfold TimeOnly at h; rw [h]
@[simp] theorem advance_phase (s : State) (t : Frc) : (s.advance t).phase = s.phase := by
  have h := advance_only s t; unfold TimeOnly at h; rw [h]
@[simp] theorem advance_txm (s : State) (t : Frc) : (s.advance t).txm = s.txm := by
  have h := advance_only s t; unfold TimeOnly at h; rw [h]
@[simp] theorem advance_keys (s : State) (t : Frc) : (s.advance t).keys = s.keys := by
  have h := advance_only s t; unfold TimeOnly at h; rw [h]
@[simp] theorem advance_mem (s : State) (t : Frc) : (s.advance t).mem = s.mem := by
  have h := advance_only s t; unfold TimeOnly at h; rw [h]
@[simp] theorem advance_coreA (s : State) (t : Frc) : (s.advance t).coreA = s.coreA := by
  have h := advance_only s t; unfold TimeOnly at h; rw [h]
@[simp] theorem advance_coreG (s : State) (t : Frc) : (s.advance t).coreG = s.coreG := by
  have h := advance_only s t; unfold TimeOnly at h; rw [h]
@[simp] theorem advance_caches (s : State) (t : Frc) : (s.advance t).caches = s.caches := by
  have h := advance_only s t; unfold TimeOnly at h; rw [h]
@[simp] theorem advance_dma (s : State) (t : Frc) : (s.advance t).dma = s.dma := by
  have h := advance_only s t; unfold TimeOnly at h; rw [h]
@[simp] theorem advance_dmaLast (s : State) (t : Frc) : (s.advance t).dmaLast = s.dmaLast := by
  have h := advance_only s t; unfold TimeOnly at h; rw [h]
@[simp] theorem advance_flash (s : State) (t : Frc) : (s.advance t).flash = s.flash := by
  have h := advance_only s t; unfold TimeOnly at h; rw [h]
@[simp] theorem advance_memst (s : State) (t : Frc) : (s.advance t).memst = s.memst := by
  have h := advance_only s t; unfold TimeOnly at h; rw [h]
@[simp] theorem advance_staged (s : State) (t : Frc) : (s.advance t).staged = s.staged := by
  have h := advance_only s t; unfold TimeOnly at h; rw [h]
@[simp] theorem advance_cipu (s : State) (t : Frc) : (s.advance t).cipu = s.cipu := by
  have h := advance_only s t; unfold TimeOnly at h; rw [h]
@[simp] theorem advance_upd (s : State) (t : Frc) : (s.advance t).upd = s.upd := by
  have h := advance_only s t; unfold TimeOnly at h; rw [h]
@[simp] theorem advance_tmr (s : State) (t : Frc) : (s.advance t).tmr = s.tmr := by
  have h := advance_only s t; unfold TimeOnly at h; rw [h]
@[simp] theorem advance_rtc (s : State) (t : Frc) : (s.advance t).rtc = s.rtc := by
  have h := advance_only s t; unfold TimeOnly at h; rw [h]
@[simp] theorem advance_pads (s : State) (t : Frc) : (s.advance t).pads = s.pads := by
  have h := advance_only s t; unfold TimeOnly at h; rw [h]
@[simp] theorem advance_hsp (s : State) (t : Frc) : (s.advance t).hsp = s.hsp := by
  have h := advance_only s t; unfold TimeOnly at h; rw [h]
@[simp] theorem advance_psp (s : State) (t : Frc) : (s.advance t).psp = s.psp := by
  have h := advance_only s t; unfold TimeOnly at h; rw [h]
@[simp] theorem advance_tst (s : State) (t : Frc) : (s.advance t).tst = s.tst := by
  have h := advance_only s t; unfold TimeOnly at h; rw [h]
@[simp] theorem advance_glade (s : State) (t : Frc) : (s.advance t).glade = s.glade := by
  have h := advance_only s t; unfold TimeOnly at h; rw [h]
@[simp] theorem advance_pending (s : State) (t : Frc) : (s.advance t).pending = s.pending := by
  have h := advance_only s t; unfold TimeOnly at h; rw [h]

/-! ## `publishAll` and `event` (from `publishAll_only`) -/

@[simp] theorem publishAll_now (s : State) (l : List Nat) : (s.publishAll l).now = s.now := by rw [(publishAll_only s l).eq]
@[simp] theorem publish_now (s : State) (p : Nat) : (s.publish p).now = s.now := publishAll_now s [p]
@[simp] theorem event_now (s : State) (p b e : Nat) : (s.event p b e).now = s.now := by rw [(event_only s p b e).eq]
@[simp] theorem publishAll_freeCtr (s : State) (l : List Nat) : (s.publishAll l).freeCtr = s.freeCtr := by rw [(publishAll_only s l).eq]
@[simp] theorem publish_freeCtr (s : State) (p : Nat) : (s.publish p).freeCtr = s.freeCtr := publishAll_freeCtr s [p]
@[simp] theorem event_freeCtr (s : State) (p b e : Nat) : (s.event p b e).freeCtr = s.freeCtr := by rw [(event_only s p b e).eq]
@[simp] theorem publishAll_sys (s : State) (l : List Nat) : (s.publishAll l).sys = s.sys := by rw [(publishAll_only s l).eq]
@[simp] theorem publish_sys (s : State) (p : Nat) : (s.publish p).sys = s.sys := publishAll_sys s [p]
@[simp] theorem event_sys (s : State) (p b e : Nat) : (s.event p b e).sys = s.sys := by rw [(event_only s p b e).eq]
@[simp] theorem publishAll_bus (s : State) (l : List Nat) : (s.publishAll l).bus = s.bus := by rw [(publishAll_only s l).eq]
@[simp] theorem publish_bus (s : State) (p : Nat) : (s.publish p).bus = s.bus := publishAll_bus s [p]
@[simp] theorem event_bus (s : State) (p b e : Nat) : (s.event p b e).bus = s.bus := by rw [(event_only s p b e).eq]
@[simp] theorem publishAll_prot (s : State) (l : List Nat) : (s.publishAll l).prot = s.prot := by rw [(publishAll_only s l).eq]
@[simp] theorem publish_prot (s : State) (p : Nat) : (s.publish p).prot = s.prot := publishAll_prot s [p]
@[simp] theorem event_prot (s : State) (p b e : Nat) : (s.event p b e).prot = s.prot := by rw [(event_only s p b e).eq]
@[simp] theorem publishAll_ovl (s : State) (l : List Nat) : (s.publishAll l).ovl = s.ovl := by rw [(publishAll_only s l).eq]
@[simp] theorem publish_ovl (s : State) (p : Nat) : (s.publish p).ovl = s.ovl := publishAll_ovl s [p]
@[simp] theorem event_ovl (s : State) (p b e : Nat) : (s.event p b e).ovl = s.ovl := by rw [(event_only s p b e).eq]
@[simp] theorem publishAll_ntu (s : State) (l : List Nat) : (s.publishAll l).ntu = s.ntu := by rw [(publishAll_only s l).eq]
@[simp] theorem publish_ntu (s : State) (p : Nat) : (s.publish p).ntu = s.ntu := publishAll_ntu s [p]
@[simp] theorem event_ntu (s : State) (p b e : Nat) : (s.event p b e).ntu = s.ntu := by rw [(event_only s p b e).eq]
@[simp] theorem publishAll_rfe (s : State) (l : List Nat) : (s.publishAll l).rfe = s.rfe := by rw [(publishAll_only s l).eq]
@[simp] theorem publish_rfe (s : State) (p : Nat) : (s.publish p).rfe = s.rfe := publishAll_rfe s [p]
@[simp] theorem event_rfe (s : State) (p b e : Nat) : (s.event p b e).rfe = s.rfe := by rw [(event_only s p b e).eq]
@[simp] theorem publishAll_slot (s : State) (l : List Nat) : (s.publishAll l).slot = s.slot := by rw [(publishAll_only s l).eq]
@[simp] theorem publish_slot (s : State) (p : Nat) : (s.publish p).slot = s.slot := publishAll_slot s [p]
@[simp] theorem event_slot (s : State) (p b e : Nat) : (s.event p b e).slot = s.slot := by rw [(event_only s p b e).eq]
@[simp] theorem publishAll_cad (s : State) (l : List Nat) : (s.publishAll l).cad = s.cad := by rw [(publishAll_only s l).eq]
@[simp] theorem publish_cad (s : State) (p : Nat) : (s.publish p).cad = s.cad := publishAll_cad s [p]
@[simp] theorem event_cad (s : State) (p b e : Nat) : (s.event p b e).cad = s.cad := by rw [(event_only s p b e).eq]
@[simp] theorem publishAll_lanes (s : State) (l : List Nat) : (s.publishAll l).lanes = s.lanes := by rw [(publishAll_only s l).eq]
@[simp] theorem publish_lanes (s : State) (p : Nat) : (s.publish p).lanes = s.lanes := publishAll_lanes s [p]
@[simp] theorem event_lanes (s : State) (p b e : Nat) : (s.event p b e).lanes = s.lanes := by rw [(event_only s p b e).eq]
@[simp] theorem publishAll_fec (s : State) (l : List Nat) : (s.publishAll l).fec = s.fec := by rw [(publishAll_only s l).eq]
@[simp] theorem publish_fec (s : State) (p : Nat) : (s.publish p).fec = s.fec := publishAll_fec s [p]
@[simp] theorem event_fec (s : State) (p b e : Nat) : (s.event p b e).fec = s.fec := by rw [(event_only s p b e).eq]
@[simp] theorem publishAll_trf (s : State) (l : List Nat) : (s.publishAll l).trf = s.trf := by rw [(publishAll_only s l).eq]
@[simp] theorem publish_trf (s : State) (p : Nat) : (s.publish p).trf = s.trf := publishAll_trf s [p]
@[simp] theorem event_trf (s : State) (p b e : Nat) : (s.event p b e).trf = s.trf := by rw [(event_only s p b e).eq]
@[simp] theorem publishAll_hdr (s : State) (l : List Nat) : (s.publishAll l).hdr = s.hdr := by rw [(publishAll_only s l).eq]
@[simp] theorem publish_hdr (s : State) (p : Nat) : (s.publish p).hdr = s.hdr := publishAll_hdr s [p]
@[simp] theorem event_hdr (s : State) (p b e : Nat) : (s.event p b e).hdr = s.hdr := by rw [(event_only s p b e).eq]
@[simp] theorem publishAll_phase (s : State) (l : List Nat) : (s.publishAll l).phase = s.phase := by rw [(publishAll_only s l).eq]
@[simp] theorem publish_phase (s : State) (p : Nat) : (s.publish p).phase = s.phase := publishAll_phase s [p]
@[simp] theorem event_phase (s : State) (p b e : Nat) : (s.event p b e).phase = s.phase := by rw [(event_only s p b e).eq]
@[simp] theorem publishAll_txm (s : State) (l : List Nat) : (s.publishAll l).txm = s.txm := by rw [(publishAll_only s l).eq]
@[simp] theorem publish_txm (s : State) (p : Nat) : (s.publish p).txm = s.txm := publishAll_txm s [p]
@[simp] theorem event_txm (s : State) (p b e : Nat) : (s.event p b e).txm = s.txm := by rw [(event_only s p b e).eq]
@[simp] theorem publishAll_keys (s : State) (l : List Nat) : (s.publishAll l).keys = s.keys := by rw [(publishAll_only s l).eq]
@[simp] theorem publish_keys (s : State) (p : Nat) : (s.publish p).keys = s.keys := publishAll_keys s [p]
@[simp] theorem event_keys (s : State) (p b e : Nat) : (s.event p b e).keys = s.keys := by rw [(event_only s p b e).eq]
@[simp] theorem publishAll_mem (s : State) (l : List Nat) : (s.publishAll l).mem = s.mem := by rw [(publishAll_only s l).eq]
@[simp] theorem publish_mem (s : State) (p : Nat) : (s.publish p).mem = s.mem := publishAll_mem s [p]
@[simp] theorem event_mem (s : State) (p b e : Nat) : (s.event p b e).mem = s.mem := by rw [(event_only s p b e).eq]
@[simp] theorem publishAll_coreG (s : State) (l : List Nat) : (s.publishAll l).coreG = s.coreG := by rw [(publishAll_only s l).eq]
@[simp] theorem publish_coreG (s : State) (p : Nat) : (s.publish p).coreG = s.coreG := publishAll_coreG s [p]
@[simp] theorem event_coreG (s : State) (p b e : Nat) : (s.event p b e).coreG = s.coreG := by rw [(event_only s p b e).eq]
@[simp] theorem publishAll_caches (s : State) (l : List Nat) : (s.publishAll l).caches = s.caches := by rw [(publishAll_only s l).eq]
@[simp] theorem publish_caches (s : State) (p : Nat) : (s.publish p).caches = s.caches := publishAll_caches s [p]
@[simp] theorem event_caches (s : State) (p b e : Nat) : (s.event p b e).caches = s.caches := by rw [(event_only s p b e).eq]
@[simp] theorem publishAll_dmaLast (s : State) (l : List Nat) : (s.publishAll l).dmaLast = s.dmaLast := by rw [(publishAll_only s l).eq]
@[simp] theorem publish_dmaLast (s : State) (p : Nat) : (s.publish p).dmaLast = s.dmaLast := publishAll_dmaLast s [p]
@[simp] theorem event_dmaLast (s : State) (p b e : Nat) : (s.event p b e).dmaLast = s.dmaLast := by rw [(event_only s p b e).eq]
@[simp] theorem publishAll_flash (s : State) (l : List Nat) : (s.publishAll l).flash = s.flash := by rw [(publishAll_only s l).eq]
@[simp] theorem publish_flash (s : State) (p : Nat) : (s.publish p).flash = s.flash := publishAll_flash s [p]
@[simp] theorem event_flash (s : State) (p b e : Nat) : (s.event p b e).flash = s.flash := by rw [(event_only s p b e).eq]
@[simp] theorem publishAll_memst (s : State) (l : List Nat) : (s.publishAll l).memst = s.memst := by rw [(publishAll_only s l).eq]
@[simp] theorem publish_memst (s : State) (p : Nat) : (s.publish p).memst = s.memst := publishAll_memst s [p]
@[simp] theorem event_memst (s : State) (p b e : Nat) : (s.event p b e).memst = s.memst := by rw [(event_only s p b e).eq]
@[simp] theorem publishAll_staged (s : State) (l : List Nat) : (s.publishAll l).staged = s.staged := by rw [(publishAll_only s l).eq]
@[simp] theorem publish_staged (s : State) (p : Nat) : (s.publish p).staged = s.staged := publishAll_staged s [p]
@[simp] theorem event_staged (s : State) (p b e : Nat) : (s.event p b e).staged = s.staged := by rw [(event_only s p b e).eq]
@[simp] theorem publishAll_cipu (s : State) (l : List Nat) : (s.publishAll l).cipu = s.cipu := by rw [(publishAll_only s l).eq]
@[simp] theorem publish_cipu (s : State) (p : Nat) : (s.publish p).cipu = s.cipu := publishAll_cipu s [p]
@[simp] theorem event_cipu (s : State) (p b e : Nat) : (s.event p b e).cipu = s.cipu := by rw [(event_only s p b e).eq]
@[simp] theorem publishAll_upd (s : State) (l : List Nat) : (s.publishAll l).upd = s.upd := by rw [(publishAll_only s l).eq]
@[simp] theorem publish_upd (s : State) (p : Nat) : (s.publish p).upd = s.upd := publishAll_upd s [p]
@[simp] theorem event_upd (s : State) (p b e : Nat) : (s.event p b e).upd = s.upd := by rw [(event_only s p b e).eq]
@[simp] theorem publishAll_rtc (s : State) (l : List Nat) : (s.publishAll l).rtc = s.rtc := by rw [(publishAll_only s l).eq]
@[simp] theorem publish_rtc (s : State) (p : Nat) : (s.publish p).rtc = s.rtc := publishAll_rtc s [p]
@[simp] theorem event_rtc (s : State) (p b e : Nat) : (s.event p b e).rtc = s.rtc := by rw [(event_only s p b e).eq]
@[simp] theorem publishAll_hsp (s : State) (l : List Nat) : (s.publishAll l).hsp = s.hsp := by rw [(publishAll_only s l).eq]
@[simp] theorem publish_hsp (s : State) (p : Nat) : (s.publish p).hsp = s.hsp := publishAll_hsp s [p]
@[simp] theorem event_hsp (s : State) (p b e : Nat) : (s.event p b e).hsp = s.hsp := by rw [(event_only s p b e).eq]
@[simp] theorem publishAll_psp (s : State) (l : List Nat) : (s.publishAll l).psp = s.psp := by rw [(publishAll_only s l).eq]
@[simp] theorem publish_psp (s : State) (p : Nat) : (s.publish p).psp = s.psp := publishAll_psp s [p]
@[simp] theorem event_psp (s : State) (p b e : Nat) : (s.event p b e).psp = s.psp := by rw [(event_only s p b e).eq]
@[simp] theorem publishAll_tst (s : State) (l : List Nat) : (s.publishAll l).tst = s.tst := by rw [(publishAll_only s l).eq]
@[simp] theorem publish_tst (s : State) (p : Nat) : (s.publish p).tst = s.tst := publishAll_tst s [p]
@[simp] theorem event_tst (s : State) (p b e : Nat) : (s.event p b e).tst = s.tst := by rw [(event_only s p b e).eq]
@[simp] theorem publishAll_glade (s : State) (l : List Nat) : (s.publishAll l).glade = s.glade := by rw [(publishAll_only s l).eq]
@[simp] theorem publish_glade (s : State) (p : Nat) : (s.publish p).glade = s.glade := publishAll_glade s [p]
@[simp] theorem event_glade (s : State) (p b e : Nat) : (s.event p b e).glade = s.glade := by rw [(event_only s p b e).eq]
@[simp] theorem publishAll_pending (s : State) (l : List Nat) : (s.publishAll l).pending = s.pending := by rw [(publishAll_only s l).eq]
@[simp] theorem publish_pending (s : State) (p : Nat) : (s.publish p).pending = s.pending := publishAll_pending s [p]
@[simp] theorem event_pending (s : State) (p b e : Nat) : (s.event p b e).pending = s.pending := by rw [(event_only s p b e).eq]

end Sys2Proof.Machine
end

