-- ==== Sys2Proof/Laws/Access.lean ====
section
/-!
SUPPORT. An accepted write of a register, said once: `writeReg_ok` (R4 to R6, R47, R48, R75); a refused one: `writeReg_busError`,
`writeReg_reject` (R45, R56).
-/
namespace Sys2Proof.Machine
open Sys2Proof

/-- A register that a write stores plainly: no protection register, no INT_PEND, no half of a wide value. -/
def plainReg (a : Nat) : Bool :=
  isPage a && decide (a % 0x1000 < 0x400) && !isProtReg (pageOf a) (baseOff a) && baseOff a != 0x014 && !wideLows.contains a
    && !wideLows.contains (a - 4)

/-- The context of a write of a register row. -/
def wctxOf (s : State) (acc : Acc) (a : Nat) (d : RegDesc) (v : Word) : WCtx :=
  { m := acc.m, src := s.sourceOf acc.m, page := pageOf a, off := baseOff a, view := acc.view, v := v.toNat
    old := (s.rget a).toNat, new := (writeValue d acc.view (s.rget a) v).toNat
    ones := if acc.view = .base || acc.view = .set then (v &&& d.w1s).toNat else 0
    wo := if acc.view = .base then (v &&& d.wo).toNat else 0
    lowOld := s.raw (a - 4) }

/-- The state that the block effect of an accepted write starts from: no bus error, the dirty bit, the register stored. -/
def storedBy (s : State) (acc : Acc) (a : Nat) (d : RegDesc) (v : Word) : State :=
  let s' : State := { s with bus := { s.bus with err := false } }
  (if overlayNames (pageOf a) (baseOff a) then s'.dirty (pageOf a) else s').rset a (writeValue d acc.view (s.rget a) v)

theorem view_page (v : View) (a : Nat) (h : a % 0x1000 < 0x400) (hp : isPage a = true) : pageOf (viewAddr v a) = pageOf a := by
  simp [isPage] at hp
  cases v <;> simp [viewAddr, viewOffset, pageOf] <;> omega
theorem view_off (v : View) (a : Nat) (_h : a % 0x1000 < 0x400) : baseOff (viewAddr v a) = baseOff a := by
  cases v <;> simp only [viewAddr, viewOffset, baseOff] <;> omega
theorem view_view (v : View) (a : Nat) (h : a % 0x1000 < 0x400) : viewOf (viewAddr v a) = v := by
  have h0 : a % 0x1000 / 0x400 = 0 := by omega
  have h1 : (a + 0x400) % 0x1000 / 0x400 = 1 := by omega
  have h2 : (a + 0x800) % 0x1000 / 0x400 = 2 := by omega
  have h3 : (a + 0xC00) % 0x1000 / 0x400 = 3 := by omega
  cases v <;> simp [viewAddr, viewOffset, viewOf, h0, h1, h2, h3]

theorem page_off (a : Nat) (h : a % 0x1000 < 0x400) (hp : isPage a = true) : pageAddr (pageOf a) (baseOff a) = a := by
  simp [isPage] at hp
  simp [pageAddr, pageOf, baseOff]
  omega

/-- An accepted write of a plain register stores its new value and runs the block's effect. -/
theorem writeReg_ok (hook : WCtx → State → State) (s : State) (acc : Acc) (a : Nat) (v : Word) (d : RegDesc)
    (h : Accepted s acc a) (hp : plainReg a = true) (hd : descOf a = some d) :
    s.writeReg hook acc a v = hook (wctxOf s acc a d v) (storedBy s acc a d v) := by
  simp only [plainReg, Bool.and_eq_true, Bool.not_eq_true', bne_iff_ne, decide_eq_true_eq] at hp
  obtain ⟨⟨⟨⟨⟨h1, h2⟩, h3⟩, h4⟩, h5⟩, h6⟩ := hp
  unfold Accepted at h
  have e1 := view_page acc.view a h2 h1
  have e2 := view_off acc.view a h2
  have e3 := view_view acc.view a h2
  have e4 := page_off a h2 h1
  rw [State.writeReg, State.write, State.writeAs, h]
  dsimp only
  rw [State.applyWrite]
  dsimp only
  rw [e1, e2, e3, e4, hd, Option.elim_some]
  rw [if_neg (by rw [h3]; exact Bool.false_ne_true), if_neg h4, if_neg (by rw [h5]; exact Bool.false_ne_true),
    if_neg (by rw [h6]; exact Bool.false_ne_true)]
  dsimp only [storedBy, wctxOf]
  rfl

/-- A write that ends with a plain bus error changes nothing else (R45). -/
theorem writeReg_busError (hook : WCtx → State → State) (s : State) (acc : Acc) (a : Nat) (v : Word)
    (h : s.judge acc.m (s.sourceOf acc.m) (viewAddr acc.view a) true = .busError) :
    s.writeReg hook acc a v = { s with bus := { s.bus with err := true } } := by
  simp only [State.writeReg, State.write, State.writeAs, h]

/-- A rejected write is recorded and changes nothing else (R56). -/
theorem writeReg_reject (hook : WCtx → State → State) (s : State) (acc : Acc) (a : Nat) (v : Word) (c : Nat)
    (h : s.judge acc.m (s.sourceOf acc.m) (viewAddr acc.view a) true = .reject c) :
    s.writeReg hook acc a v = s.reject (s.sourceOf acc.m) (pageOf (viewAddr acc.view a)) (viewAddr acc.view a % 0x1000) true c := by
  simp only [State.writeReg, State.write, State.writeAs, h]

end Sys2Proof.Machine
end

