-- ==== Sys2Proof/Laws/Mem.lean ====
section
/-!
SUPPORT. Laws of memory: reading after writing, and that every operation keeps the canonical form (R8, R43).
-/
namespace Sys2Proof.Machine
open Sys2Proof

theorem cellGet_filter_ne (d : Nat → Byte) (l : List Host.Cell) {a b : Nat} (h : b ≠ a) :
    cellGet d (l.filter fun c => c.1 != a) b = cellGet d l b := by
  induction l with
  | nil => rfl
  | cons x l ih =>
    obtain ⟨c, w⟩ := x
    by_cases hc : c = a
    · subst hc; simp [cellGet, h, ih]
    · simp [hc, cellGet, ih]

theorem cellGet_filter_self (d : Nat → Byte) (l : List Host.Cell) (a : Nat) : cellGet d (l.filter fun c => c.1 != a) a = d a := by
  induction l with
  | nil => rfl
  | cons x l ih =>
    obtain ⟨c, w⟩ := x
    by_cases hc : c = a
    · subst hc; simp [ih]
    · simp [hc, cellGet, ih, Ne.symm hc]

theorem cellGet_cellIns_ne (d : Nat → Byte) (l : List Host.Cell) {a b : Nat} (v : Byte) (h : b ≠ a) :
    cellGet d (cellIns l a v) b = cellGet d l b := by
  induction l with
  | nil => simp [cellIns, cellGet, h]
  | cons x l ih =>
    obtain ⟨c, w⟩ := x
    simp only [cellIns]
    split
    · simp [cellGet, h]
    · simp only [cellGet, ih]

theorem cellGet_cellIns_self (d : Nat → Byte) (l : List Host.Cell) (a : Nat) (v : Byte) (h : ∀ x ∈ l, x.1 ≠ a) :
    cellGet d (cellIns l a v) a = v := by
  induction l with
  | nil => simp [cellIns, cellGet]
  | cons x l ih =>
    obtain ⟨c, w⟩ := x
    simp only [cellIns]
    split
    · simp [cellGet]
    · simp only [cellGet, if_neg (Ne.symm (h (c, w) (List.mem_cons_self ..)))]
      exact ih fun y hy => h y (List.mem_cons_of_mem _ hy)

/-- A write leaves every other byte alone. -/
theorem cellGet_cellPut_ne (d : Nat → Byte) (l : List Host.Cell) {a b : Nat} (v : Byte) (h : b ≠ a) :
    cellGet d (cellPut d l a v) b = cellGet d l b := by
  simp only [cellPut]
  split
  · exact cellGet_filter_ne d l h
  · rw [cellGet_cellIns_ne d _ _ h, cellGet_filter_ne d l h]

/-- A byte reads as it was last written. -/
theorem cellGet_cellPut_self (d : Nat → Byte) (l : List Host.Cell) (a : Nat) (v : Byte) : cellGet d (cellPut d l a v) a = v := by
  simp only [cellPut]
  split
  · rename_i h; rw [cellGet_filter_self, h]
  · exact cellGet_cellIns_self d _ a v fun x hx => by simpa using (List.mem_filter.1 hx).2

theorem cellIns_mem (l : List Host.Cell) (a : Nat) (v : Byte) {x : Host.Cell} (hx : x ∈ cellIns l a v) : x = (a, v) ∨ x ∈ l := by
  induction l with
  | nil => simpa [cellIns] using hx
  | cons y l ih =>
    obtain ⟨c, w⟩ := y
    simp only [cellIns] at hx
    split at hx
    · exact List.mem_cons.1 hx
    · rcases List.mem_cons.1 hx with h | h
      · exact .inr (h ▸ List.mem_cons_self ..)
      · exact (ih h).imp id (List.mem_cons_of_mem _)

theorem cells_wf_cons (d : Nat → Byte) (a : Nat) (v : Byte) (l : List Host.Cell) :
    Cells.wf d ((a, v) :: l) ↔ v ≠ d a ∧ (∀ x ∈ l, a < x.1) ∧ Cells.wf d l := by
  simp only [Cells.wf, List.pairwise_cons, List.forall_mem_cons]
  tauto

theorem cellIns_wf (d : Nat → Byte) (l : List Host.Cell) (hw : Cells.wf d l) (a : Nat) (v : Byte) (hv : v ≠ d a) (h : ∀ x ∈ l, x.1 ≠ a) :
    Cells.wf d (cellIns l a v) := by
  induction l with
  | nil => simp [cellIns, Cells.wf, hv]
  | cons x l ih =>
    obtain ⟨c, w⟩ := x
    have h' := (cells_wf_cons d c w l).1 hw
    have hc : c ≠ a := h (c, w) (List.mem_cons_self ..)
    simp only [cellIns]
    split
    · rename_i h1
      refine (cells_wf_cons d a v _).2 ⟨hv, ?_, hw⟩
      intro y hy
      rcases List.mem_cons.1 hy with rfl | hy
      · exact h1
      · exact Nat.lt_trans h1 (h'.2.1 y hy)
    · refine (cells_wf_cons d c w _).2 ⟨h'.1, ?_, ih h'.2.2 fun y hy => h y (List.mem_cons_of_mem _ hy)⟩
      intro y hy
      rcases cellIns_mem l a v hy with rfl | hy
      · simp only; omega
      · exact h'.2.1 y hy

/-- Returning cells to what an unlisted address reads as keeps the canonical form. -/
theorem cellFilter_wf (d : Nat → Byte) (l : List Host.Cell) (hw : Cells.wf d l) (p : Host.Cell → Bool) : Cells.wf d (l.filter p) :=
  ⟨hw.1.filter p, fun c hc => hw.2 c (List.mem_filter.1 hc).1⟩

/-- A write keeps the canonical form. -/
theorem cellPut_wf (d : Nat → Byte) (l : List Host.Cell) (hw : Cells.wf d l) (a : Nat) (v : Byte) : Cells.wf d (cellPut d l a v) := by
  simp only [cellPut]
  split
  · exact cellFilter_wf d l hw _
  · rename_i h
    exact cellIns_wf d _ (cellFilter_wf d l hw _) a v h fun x hx => by simpa using (List.mem_filter.1 hx).2

/-! ## Memory of the state -/

theorem byteAt_setByte_self (s : State) (a : Nat) (v : Byte) : (s.setByte a v).byteAt a = v :=
  cellGet_cellPut_self _ _ a v
theorem byteAt_setByte_ne (s : State) {a b : Nat} (v : Byte) (h : b ≠ a) : (s.setByte a v).byteAt b = s.byteAt b :=
  cellGet_cellPut_ne _ _ v h
theorem setByte_wf (s : State) (hw : Memory.wf s.mem) (a : Nat) (v : Byte) : Memory.wf (s.setByte a v).mem := cellPut_wf _ _ hw a v

theorem setBytes_wf (n : Nat) : ∀ (s : State), Memory.wf s.mem → ∀ a v, Memory.wf (s.setBytes a n v).mem := by
  induction n with
  | zero => intro s hw a v; exact hw
  | succ n ih => intro s hw a v; exact ih _ (setByte_wf s hw a _) _ _

/-- A store of `n` bytes leaves every byte outside them alone. -/
theorem byteAt_setBytes_ne (n : Nat) : ∀ (s : State) (a v b : Nat), b < a ∨ a + n ≤ b → (s.setBytes a n v).byteAt b = s.byteAt b := by
  induction n with
  | zero => intro s a v b _; rfl
  | succ n ih =>
    intro s a v b h
    show ((s.setByte a (BitVec.ofNat 8 v)).setBytes (a + 1) n (v / 256)).byteAt b = _
    rw [ih _ _ _ _ (by omega), byteAt_setByte_ne _ _ (by omega)]

/-- A store of `n` bytes reads back, least significant byte first. -/
theorem bytesAt_setBytes (n : Nat) : ∀ (s : State) (a v : Nat), (s.setBytes a n v).bytesAt a n = v % 256 ^ n := by
  induction n with
  | zero => intro s a v; simp [State.bytesAt, Nat.mod_one]
  | succ n ih =>
    intro s a v
    show (((s.setByte a (BitVec.ofNat 8 v)).setBytes (a + 1) n (v / 256)).byteAt a).toNat
      + 256 * ((s.setByte a (BitVec.ofNat 8 v)).setBytes (a + 1) n (v / 256)).bytesAt (a + 1) n = _
    rw [byteAt_setBytes_ne _ _ _ _ _ (by omega), byteAt_setByte_self, ih, BitVec.toNat_ofNat,
      show 256 ^ (n + 1) = 256 * 256 ^ n from Nat.pow_succ', Nat.mod_mul]

theorem setList_wf (l : List Byte) : ∀ (s : State), Memory.wf s.mem → ∀ a, Memory.wf (s.setList a l).mem := by
  induction l with
  | nil => intro s hw a; exact hw
  | cons b l ih => intro s hw a; exact ih _ (setByte_wf s hw a b) _

theorem clearRange_wf (s : State) (hw : Memory.wf s.mem) (lo hi : Nat) : Memory.wf (s.clearRange lo hi).mem :=
  cellFilter_wf _ _ hw _

/-- Memory operations touch nothing but memory. -/
theorem setBytes_eq (n : Nat) : ∀ (s : State) (a v : Nat), s.setBytes a n v = { s with mem := (s.setBytes a n v).mem } := by
  induction n with
  | zero => intro s a v; rfl
  | succ n ih => intro s a v; exact ih (s.setByte a (BitVec.ofNat 8 v)) (a + 1) (v / 256)

/-! ## The Glade's memory -/

theorem glade_setByte_wf (g : Glade) (hw : Cells.wf g.default g.mem) (a : Nat) (v : Byte) :
    Cells.wf (g.setByte a v).default (g.setByte a v).mem := cellPut_wf _ _ hw a v
theorem glade_clear_wf (g : Glade) (hw : Cells.wf g.default g.mem) (lo hi : Nat) :
    Cells.wf (g.clear lo hi).default (g.clear lo hi).mem := cellFilter_wf _ _ hw _

end Sys2Proof.Machine
end

