-- ==== Sys2Proof/Tests/Slice0.lean ====
section
/-!
SUPPORT. Tests: for every obligation with premises a state that meets them, clause by clause, at which its conclusion is checked too
(`wit_…`); ill-formed commands that WellFormed refuses (`test_illformed_…`); and values that the manual's own text gives (`test_…`).
-/
namespace Sys2Proof.Tests
set_option Elab.async false
open Sys2Proof Sys2Proof.Machine

/-- A command answers a next state that satisfies `p`. -/
def ok (c : Instr) (s : State) (p : State → Bool) : Bool := match exec c s with | .next t => p t | _ => false

/-- Tanum-A through the base view; the state after reset; the state after a command. -/
def tA : Acc := ⟨.tanumA, .base⟩
def s0 : State := State.reset
def after (c : Instr) (s : State) : State := match exec c s with | .next t => t | _ => s

/-- The next state of an outcome. -/
def got (o : Host.Outcome State Fault Refusal) : State := match o with | .next t => t | _ => s0

/-- An instruction's core executes it, and its bytes are fetched without a trace (Executes, at the state itself). -/
def executesAt (i : Instr) (s : State) : Bool :=
  match tanumForm i with
  | some (c, p, op, imm) => i.wellFormed && s.coreRuns c && (s.bpStops c).isNone && !s.coreA.stepping
      && (match opInfo op with | some x => (match s.fetch c (insLen p x imm) with | .ok _ u => u == s | _ => false) | none => false)
  | none => false
/-- It also runs once (RunsOnce). -/
def runs (i : Instr) (s : State) : Bool :=
  executesAt i s && (match tanumForm i with | some (c, p, _, _) => (s.core c).holds p && p.rep.isNone | none => false)
/-! ## The bus -/

theorem wit_stores : (s0.setBytes 0x20000000 4 0x12345678).wordAt 0x20000000 = 0x12345678 ∧ Memory.wf (s0.setBytes 0x20000000 4 0x12345678).mem
    ∧ (AVS_CLK.REQ).lo + (AVS_CLK.REQ).width ≤ 32 ∧ s0.pending = [] := by
  and_intros <;> decide +kernel

/-- An audit entry, selected by PROT_AUD_IDX, and an index without one. -/
def sAud : State := after (.olockSet tA 1#32) s0
theorem wit_audit_index : Accepted sAud tA PROT_AUD_IDX.addr ∧ NothingOwed sAud ∧ sAud.prot.ring.length = 1
    ∧ ok (.protAudIdxWrite tA 0#32) sAud (fun u => decide (u.prot = sAud.prot ∧ (sAud.prot.ring[0]?).map AuditEntry.words
        = some ((List.range 6).map fun n => u.rget (PROT_AUD_W.addr n)))) = true
    ∧ ok (.protAudIdxWrite tA 5#32) sAud (fun u => (List.range 6).all fun n => u.rget (PROT_AUD_W.addr n) == 0#32) = true := by
  and_intros <;> decide +kernel

theorem wit_register_writes : Accepted s0 ⟨.tanumA, .set⟩ (INT_EN.addr Pg.AGC) ∧ Accepted s0 tA (INT_PEND.addr 0) ∧ Accepted s0 tA (CTRL.addr Pg.NBR)
    ∧ NothingOwed s0
    ∧ ok (.registerWrite .tanumA (BitVec.ofNat 32 (viewAddr .set (INT_EN.addr Pg.AGC))) 3#32) s0 (fun u =>
        decide (u.raw (INT_EN.addr Pg.AGC) = writtenTo s0 ⟨.tanumA, .set⟩ (INT_EN.addr Pg.AGC) 3#32 ∧ u = { s0 with regs := u.regs, bus := u.bus }
          ∧ bitOf (u.raw OVL_DIRTY_LO.addr + u.raw OVL_DIRTY_HI.addr * 2 ^ 32) Pg.AGC = true)) = true
    ∧ ok (.registerWrite .tanumA (BitVec.ofNat 32 (INT_PEND.addr 0)) 1#32) ((s0.raise 0 0).raise 0 1) (fun u => decide (u.raw (INT_RAW.addr 0) = 2)) = true
    ∧ ok (.softReset tA (BitVec.ofNat 6 Pg.NBR) 2#32) (s0.rsetN (INT_EN.addr Pg.NBR) 1) (fun u => decide (u.raw (INT_EN.addr Pg.NBR) = 0)) = true := by
  and_intros <;> decide +kernel

/-- Page 3 asks for a secure source, and Tanum-A is in user mode; the owner lock is set. -/
def sSec : State := { s0.fset (OWN.SEC 3) 1 with coreA := { psw := 0x6800#32 } }
def sLock : State := s0.fset PROT_CTRL.OLOCK 1
theorem wit_rejected : s0.busUp = true ∧ sSec.fbit (OWN.SEC 3) = true ∧ (sSec.sourceOf .tanumA).sec = false
    ∧ sSec.judge .tanumA (sSec.sourceOf .tanumA) (pageAddr 3 0x10) true = .reject 0
    ∧ s0.judge .tanumA (s0.sourceOf .tanumA) (OWN.addr Pg.PROT) true = .reject 2 ∧ sLock.judge .hsp (sLock.sourceOf .hsp) (OWN.addr 3) true = .reject 3
    ∧ s0.judge .tanumA (s0.sourceOf .tanumA) (pageAddr Pg.DBG 4) true = .reject 6
    ∧ s0.judge .tanumA (s0.sourceOf .tanumA) 0x40000402 true = .busError
    ∧ s0.portCur (baseAddr (OWN.addr Pg.PROT)) = none ∧ s0.portCur (baseAddr 0x40000402) = none
    ∧ ok (.ownWrite .tanumA (BitVec.ofNat 32 (OWN.addr Pg.PROT)) 1#32) s0 (fun u => decide (u.fget PROT_REJ.CAUSE = 2 ∧ u.fget PROT_REJ.WR = 1
        ∧ u.fget PROT_REJ_CNT.CNT = 1 ∧ u.rget (OWN.addr Pg.PROT) = s0.rget (OWN.addr Pg.PROT) ∧ u.bus.err = true)) = true
    ∧ ok (.ownWrite .tanumA 0x40000402#32 1#32) s0 (fun u => decide (u = { s0 with bus := { s0.bus with err := true } })) = true := by
  and_intros <;> decide +kernel

/-- Page 3 is CAD's, and locked. -/
def sOwned : State := (s0.fset (OWN.LOCKW 3) 1).fset (OWN.OWNER 3) 3
theorem wit_owners : Accepted s0 tA (OWN.addr 3) ∧ NothingOwed s0 ∧ Accepted s0 tA PROT_CTRL.addr
    ∧ ok (.ownWrite .tanumA (BitVec.ofNat 32 (OWN.addr 3)) 0x13#32) s0 (fun u => decide (u.fget (OWN.OWNER 3) = 3 ∧ u.fget (OWN.LOCKW 3) = 1
        ∧ u.prot.seq = 1 ∧ u.prot.next = 1 ∧ u.fget (INT_RAW.bit Pg.PROT 2) = 1)) = true
    ∧ ok (.ownWrite .tanumA (BitVec.ofNat 32 (OWN.addr 3)) 5#32) s0 (fun u => decide (u.fbit PROT_STAT.BAD_OWNER = true ∧ u.prot.seq = 1
        ∧ u.fget (OWN.OWNER 3) = s0.fget (OWN.OWNER 3))) = true
    ∧ ok (.olockSet tA 1#32) s0 (fun u => decide (u.fbit PROT_CTRL.OLOCK = (fieldGet 1 PROT_CTRL.OLOCK = 1))) = true
    ∧ sOwned.fbit (OWN.LOCKW 3) = true ∧ (sOwned.sourceOf .hsp).hits 3 (sOwned.fget (OWN.OWNER 3)) = false
    ∧ sOwned.judge .hsp (sOwned.sourceOf .hsp) (pageAddr 3 0x10) true = .reject 1 := by
  and_intros <;> decide +kernel

theorem wit_wide_values : NTU_FRC_LO.addr ∈ pairLows ∧ MayRead s0 .tanumA NTU_FRC_LO.addr ∧ NTU_STEP_LO.addr ∈ wideLows
    ∧ Accepted s0 tA NTU_STEP_LO.addr ∧ Accepted s0 tA NTU_STEP_HI.addr ∧ NothingOwed s0
    ∧ ok (.latchPairLowRead .tanumA (BitVec.ofNat 32 NTU_FRC_LO.addr)) { s0 with ntu := { s0.ntu with frc := 0x500000007#64, anchor := 0x500000007#64 } }
        (fun u => decide (u.bus.data = 7#32 ∧ u.latchGet .tanumA NTU_FRC_HI.addr = 5)) = true
    ∧ ok (.latchPairLowWrite .tanumA (BitVec.ofNat 32 NTU_STEP_LO.addr) 9#32) s0 (fun u => decide (u.rget NTU_STEP_LO.addr = 0#32
        ∧ u.bus.held.length = 1)) = true
    ∧ ok (.latchPairHighWrite .tanumA (BitVec.ofNat 32 NTU_STEP_HI.addr) 1#32) (after (.latchPairLowWrite .tanumA (BitVec.ofNat 32 NTU_STEP_LO.addr) 9#32) s0)
        (fun u => decide (u.rget NTU_STEP_LO.addr = 9#32 ∧ u.raw NTU_STEP_HI.addr = writtenTo s0 tA NTU_STEP_HI.addr 1#32 ∧ u.bus.held = [])) = true := by
  and_intros <;> decide +kernel

/-- PRESENCE_N low since 0, now at 2 s; and a long low period that ended at 0. -/
def sLow : State := { s0 with now := 2 * second, prot := { s0.prot with lowFrom := some 0 } }
def sLong : State := { s0 with now := 58 * second, prot := { s0.prot with lastLong := some 0 } }
theorem wit_token : s0.prot.lowFrom = none ∧ sLow.prot.lowFrom = some 0 ∧ sLow.token = true ∧ sLong.token = true
    ∧ ({ sLow with now := 2 * second - 1 } : State).token = false ∧ ({ sLong with now := 58 * second + 1 } : State).token = false
    ∧ (sLow.advance 0).token = true ∧ (s0.advance 0).token = false
    ∧ ok (.presenceNFilteredChange 0 true) s0 (fun u => decide (u.prot.lowFrom = some 0)) = true
    ∧ ok (.presenceNFilteredChange 0 false) sLow (fun u => decide (u.prot.lowFrom = none ∧ u.prot.lastLong = some (2 * second))) = true
    ∧ ok (.tokenGain 0) sLow (fun u => decide (u.fget (INT_RAW.bit Pg.PROT 3) = 1 ∧ u.prot.gained = true)) = true
    ∧ ok (.tokenLapse 0) { s0 with prot := { s0.prot with gained := true } } (fun u => decide (u.prot.gained = false)) = true := by
  and_intros <;> decide +kernel
/-! ## System -/

/-- OVL enabled; a mode loaded with no records; Cadence running; a LOAD in progress over erased flash (cause MAGIC). -/
def sOvl0 : State := s0.fset OVL_CTRL.EN 0
def sOvl : State := s0.fset OVL_CTRL.EN 1
def sOvl1 : State := { (sOvl.fset CAD_CTRL.EN 1) with ovl := { s0.ovl with store := [(2, [])] } }
def sLoading : State := { sOvl with ovl := { s0.ovl with loading := true } }
theorem wit_overlay : Accepted sOvl tA OVL_CMD.addr ∧ Accepted sOvl1 tA OVL_REQ.addr ∧ NothingOwed sOvl ∧ sOvl.fbit OVL_CTRL.EN = true
    ∧ NothingOwed sOvl1 ∧ Accepted sOvl0 tA OVL_CMD.addr ∧ sOvl0.fbit OVL_CTRL.EN = false ∧ sOvl.ovl.loading = false
    ∧ ok (.ovlLoad .tanumA) sOvl (fun u => decide (u.ovl = { sOvl.ovl with loading := true } ∧ u.fbit OVL_STAT.BUSY = true)) = true
    ∧ ok (.ovlLoad .tanumA) sOvl0 (fun u => decide (u.fbit OVL_STAT.REQ_REFUSED = true ∧ u.ovl = s0.ovl)) = true
    ∧ ok (.applyBase .tanumA) sOvl1 (fun u => decide (u.fbit OVL_STAT.REQ_REFUSED = true)) = true
    ∧ ok (.applyBase .tanumA) { sOvl with ovl := { s0.ovl with base := [(INT_EN.addr Pg.AGC, 3#32)] } } (fun u =>
        decide (u.raw (INT_EN.addr Pg.AGC) = 3 ∧ u.raw OVL_DIRTY_LO.addr = 0)) = true
    ∧ ok (.ovlReqGo tA (BitVec.ofNat 32 (2 * 2 ^ OVL_REQ.MODE.lo + 2 ^ OVL_REQ.GO.lo))) sOvl1 (fun u =>
        decide (u.ovl.pending = some (2, false) ∧ u.fbit OVL_STAT.PENDING = true ∧ u.fget OVL_MODE.PEND = 2)) = true
    ∧ ok (.ovlReqGo tA (BitVec.ofNat 32 (3 * 2 ^ OVL_REQ.MODE.lo + 2 ^ OVL_REQ.GO.lo))) sOvl1 (fun u =>
        decide (u.ovl.pending = none ∧ u.fbit OVL_STAT.REQ_REFUSED = true)) = true
    ∧ ok (.ovlCancel .tanumA) sOvl (fun u => decide (u.ovl.pending = none)) = true
    ∧ (sOvl.fset CAD_TMPL0.TX_OFFSET 0).applyCause 7 ≠ 0 ∧ ((sOvl.fset CAD_TMPL0.TX_OFFSET 0).modeApply coreHook 7).fbit OVL_STAT.APPLY_REJ = true := by
  and_intros <;> decide +kernel

/-- An image of one base section without records: its header, and the same with the CRC. -/
def secHead : List Byte := leBytesN 4 0x434F5050 ++ leBytesN 2 1 ++ leBytesN 2 0x7716 ++ List.replicate 16 0#8
def sImage (crc : Nat) : State := (sLoading.rsetN OVL_IMG_ADDR.addr 0).setList 0 (secHead ++ leBytesN 4 crc ++ List.replicate 4 0#8)
def goodCrc : Nat := crc32 (secHead ++ List.replicate 8 0#8)
theorem wit_load : ((sImage goodCrc).sectionsRead 0).2.map (fun x => (x.1.overlay, x.2)) = [(false, 0)] ∧ (sImage 1).flash.op = none
    ∧ ((sImage 1).sectionsRead 0).2.map (fun x => (x.1.overlay, x.2)) = [(false, 5)]
    ∧ ok .loadDone (sImage goodCrc) (fun u => decide (u.fget OVL_STAT.LOAD_CAUSE = 0 ∧ u.fget (INT_RAW.bit Pg.OVL 2) = 1 ∧ u.fbit OVL_STAT.BASE_OK = true
        ∧ u.ovl.base = [] ∧ u.ovl.loading = false)) = true
    ∧ ok .loadDone (sImage 1) (fun u => decide (u.fget OVL_STAT.LOAD_CAUSE = 5 ∧ u.fbit OVL_STAT.LOAD_ERR = true
        ∧ u.fget (INT_RAW.bit Pg.OVL 3) = 1)) = true := by
  and_intros <;> decide +kernel

/-- The watchdog runs. -/
def sWdt : State := (s0.fset SYS_WDT_CFG.EN 1).fset SYS_WDT_CFG.TO 1000
def sRunning : State := { s0 with sys := { s0.sys with st := .run } }
theorem wit_start : Accepted s0 tA SYS_STATE.addr ∧ Accepted s0 tA SYS_WDT_KICK.addr ∧ NothingOwed s0 ∧ sWdt.wdtCounts = true ∧ s0.wdtCounts = false
    ∧ NoImage s0 ∧ Accepted s0 tA SYS_CMD.addr
    ∧ ok (.sysStateReq tA 0x10#32) s0 (fun u => decide (u.sys.st = .run)) = true
    ∧ ok (.sysStateReq tA 0x20#32) { s0 with sys := { s0.sys with dbgUnlocked := true } } (fun u => decide (u.sys.st = .test)) = true
    ∧ ok (.sysStateReq tA 0x10#32) sRunning (fun u => decide (u.sys.st = .run ∧ u.fbit SYS_STAT.STATE_REFUSED = true)) = true
    ∧ ok (.wdtKick tA 0xC35A#32) sWdt (fun u => u.fget SYS_WDT_CNT.VAL = 1000) = true
    ∧ ok (.wdtKick tA 0xC35B#32) sWdt (fun u => u.fget SYS_WDT_CNT.VAL = sWdt.fget SYS_WDT_CNT.VAL) = true
    ∧ ok .wdtWarn (sWdt.fset SYS_WDT_CFG.WARN 7) (fun u => u.fget SYS_WDT_CNT.VAL = 7) = true := by
  and_intros <;> decide +kernel

theorem wit_loader_por : ok (.powerOnReset 0 false) s0 (fun u => decide (bitOf (u.raw SYS_BOOT.addr) 4 = true ∧ u.fbit HSP_CTRL.EN = true
    ∧ u.sys.st = .start ∧ u.sys.held = none ∧ u.raw SYS_RSTCAUSE.addr = 1)) = true := by decide +kernel
theorem wit_loader_release : ok (.resetRelease 0) (s0.sysReset .pin) (fun u => decide (bitOf (u.raw SYS_BOOT.addr) 4 = true
    ∧ u.fbit HSP_CTRL.EN = true ∧ u.sys.held = none)) = true := by decide +kernel
theorem wit_loader_sys : ok (.sysCmdSystemReset tA 0x15EC0#32 0) s0 (fun u => decide (bitOf (u.raw SYS_BOOT.addr) 4 = true
    ∧ u.fbit HSP_CTRL.EN = true ∧ bitOf (u.raw SYS_RSTCAUSE.addr) 3 = true ∧ u.sys.held = none)) = true := by decide +kernel
theorem wit_loader_wdt : NoImage sWdt ∧ ok (.watchdogExpiry 0) (sWdt.fset SYS_WDT_CFG.SYS 1) (fun u => decide (bitOf (u.raw SYS_BOOT.addr) 4 = true
    ∧ bitOf (u.raw SYS_RSTCAUSE.addr) 4 = true ∧ u.sys.held = none)) = true := by and_intros <;> decide +kernel
/-- The device is off, and a pin can wake it. -/
def sOff : State := { (s0.rsetN PWR_WAKE_EN.addr 63) with pwr := { s0.pwr with st := .off } }
theorem wit_loader_off : NoImage sOff ∧ sOff.canWake (actsIn .off) = true ∧ ok (.wake (BitVec.ofNat 6 (actsIn .off)) 0) sOff (fun u =>
    decide (bitOf (u.raw SYS_BOOT.addr) 4 = true ∧ u.pwr.st = .run ∧ bitOf (u.raw SYS_RSTCAUSE.addr) 5 = true)) = true := by
  and_intros <;> decide +kernel

/-- A flash erase runs. -/
def sErasing : State := { s0 with flash := { s0.flash with op := some ⟨2, 0x100000, [], false⟩ } }
def sBackup : State := { s0 with pwr := { s0.pwr with st := .backup } }
theorem wit_resets : s0.pwr.st ≠ .backup ∧ s0.pwr.leaving = none ∧ s0.flash.op = none ∧ s0.flash.susp = none ∧ s0.updBusy = false
    ∧ Accepted sErasing tA SYS_CMD.addr ∧ NothingOwed sErasing ∧ sErasing.flash.op.isSome ∧ sBackup.pwr.st = .backup
    ∧ ok .pinReset (s0.rsetN (INT_EN.addr 1) 5) (fun u => decide (u.sys.held = some .pin ∧ u.raw SYS_RSTCAUSE.addr = 5 ∧ u.raw (INT_EN.addr 1) = 0
        ∧ u.cad = {} ∧ u.trf = {} ∧ u.frcN = 0 ∧ u.glade = { s0.glade with snaps := [] } ∧ u.prot = s0.prot ∧ u.rtc = s0.rtc)) = true
    ∧ ok .brownOutReset (s0.setByte 0x20000000 1#8) (fun u => decide (u.sys.held = some .bor ∧ u.raw SYS_RSTCAUSE.addr = 3
        ∧ u.fbit RTC_STAT.LOCKOUT = true ∧ u.byteAt 0x20000000 = 0#8)) = true
    ∧ ok .vddLoss s0 (fun u => decide (u.pwr.st = .backup ∧ u.sys.held = some .por ∧ u.raw SYS_RSTCAUSE.addr = 1 ∧ u.glade.powered = false)) = true
    ∧ ok .pinReset sBackup (fun u => u = sBackup) = true ∧ ok (.resetRelease 0) sBackup (fun u => u = sBackup) = true
    ∧ ok (.sysCmdCoreReset tA 0x25EC0#32) sErasing (fun u => decide (u.coreA = {} ∧ u.caches = {} ∧ u.sys = { s0.sys with warm := true }
        ∧ u.raw SYS_RSTCAUSE.addr = 513)) = true
    ∧ ok (.watchdogExpiry 0) { sWdt with flash := sErasing.flash } (fun u => decide (u.coreA = {} ∧ u.raw SYS_RSTCAUSE.addr = 129
        ∧ u.fget SYS_WDT_CNT.VAL = 1000)) = true := by
  and_intros <;> decide +kernel

theorem wit_clocks : NothingOwed s0 ∧ s0.pwr.st = .run ∧ s0.pwr.exc = false ∧ s0.sys.held = none ∧ s0.fbit SYS_STAT.LFXO_FAIL = false
    ∧ ok (.hfxoLoss 0) { s0 with sys := { s0.sys with hfxoStable := true } } (fun u => decide (u.sys.st = .recovery ∧ u.fget SYS_FAULT.CODE = 4
        ∧ u.ntu.handoff = true ∧ u.fbit SYS_STAT.HFXO_FAIL = true ∧ u.fget (INT_RAW.bit Pg.SYS 0) = 1)) = true
    ∧ ok (.lfxoLoss 5) s0 (fun u => decide (u.fbit SYS_STAT.LFXO_FAIL = true ∧ u.fget (INT_RAW.bit Pg.SYS 2) = 1 ∧ u.fget SYS_FAULT.CODE = 5)) = true
    ∧ ok .lfxoEdgesReturn (s0.fset SYS_STAT.LFXO_FAIL 1) (fun u => u.fbit SYS_STAT.LFXO_FAIL = false) = true
    ∧ ok (.slewEnd 2000000) { s0 with ntu := { s0.ntu with pend := -2 } } (fun u => decide (u.ntu.pend = 0 ∧ u.ntu.offset = BitVec.ofInt 64 (-2)
        ∧ u.ntu.corr = BitVec.ofInt 64 (-2) ∧ u.frcN = 2000000)) = true
    ∧ s0.sleepStart = none ∧ (2 : Int) ≤ 2000000 + (s0.rateTerm 2000000 - s0.rateTerm 0) ∧ s0.ntu.slewHold = 0
    ∧ (2 : Nat) * 1000000 ≤ s0.slewMax * (2000000 - s0.frcN) + s0.ntu.slewFrac
    ∧ s0.domUp .app = true ∧ ok (.avsUpdate 900 0 0 0) s0 (fun u => decide (u.pwr.need = [900, 0, 0, 0]
        ∧ ((u.fget AVS_VAL.CUR : Int) - s0.fget AVS_VAL.CUR).natAbs ≤ 10)) = true
    ∧ Accepted s0 tA AVS_CLK.addr ∧ ok (.avsClkReq tA 0#32) (s0.fset AVS_STAT.STEP 1) (fun u => decide (u.fget AVS_STAT.STEP = 0
        ∧ u.fget AVS_CLK.GRANT = 0 ∧ u.fget (INT_RAW.bit Pg.AVS 1) = 1)) = true
    ∧ ok (.avsClkReq tA 2#32) s0 (fun u => decide (u.fget AVS_CLK.REQ = 2 ∧ u.fget AVS_STAT.STEP = s0.fget AVS_STAT.STEP)) = true
    ∧ Accepted s0 tA CLK_HFXO.addr ∧ ok (.clkTrimWrite tA false 9#32) s0 (fun u => u.raw CLK_HFXO.addr = writtenTo s0 tA CLK_HFXO.addr 9#32) = true
    ∧ Accepted sOvl1 tA CLK_LFXO.addr ∧ ok (.clkTrimWrite tA true 9#32) sOvl1 (fun u => decide (u.raw CLK_LFXO.addr = sOvl1.raw CLK_LFXO.addr
        ∧ u.fbit CLK_STAT.TRIM_REF = true)) = true
    ∧ s0.hfxoOn = true ∧ ok .hfxoStable s0 (fun u => u.sys.hfxoStable) = true
    ∧ ok .syspllLock { s0 with sys := { s0.sys with hfxoStable := true } } (fun u => u.sys.syspllLock) = true
    ∧ s0.fbit PWR_STAT.BOD_WARN = false ∧ ok .bodWarn s0 (fun u => decide (u.fbit PWR_STAT.BOD_WARN = true ∧ u.fget (INT_RAW.bit Pg.PWR 3) = 1)) = true
    ∧ ok .bodWarnClear (s0.fset PWR_STAT.BOD_WARN 1) (fun u => u.fbit PWR_STAT.BOD_WARN = false) = true := by
  and_intros <;> decide +kernel

/-- A slot of a kind; Cadence runs; it runs with a slot in progress. -/
def slotOf (k : SlotKind) : Slot := { asn := 0, tickNt := 0, kind := k, cand := none, cands := [], freq := 0, canopy := false, listen := false, served := [] }
def sCad : State := s0.fset CAD_CTRL.EN 1
def sSlot (k : SlotKind) : State := { sCad with slot := some (slotOf k), ntu := { s0.ntu with lastAsn := some 0 } }
theorem wit_slot_tick : (sCad.advance 0).tickDue = true ∧ sCad.cad.stopping = false ∧ sCad.cad.silentNow = false ∧ ((sSlot .idle).advance 159999).tickDue = false
    ∧ ((sSlot .idle).advance (BitVec.ofNat 64 (sSlot .idle).slotLen)).tickDue = true ∧ NothingOwed (sSlot .idle) ∧ (sSlot .idle).slot.isSome
    ∧ ok (.slotTick 0) sCad (fun u => decide (u.ntu.lastAsn = some 0 ∧ u.slot.map (·.asn) = some 0)) = true
    ∧ ok (.slotTick (BitVec.ofNat 64 (sSlot .idle).slotLen)) { sSlot .idle with cad := { s0.cad with stopping := true } } (fun u =>
        decide (u.slot = none ∧ u.fbit CAD_CTRL.EN = false ∧ u.cad.stopping = false)) = true
    ∧ ok (.slotTick 100) (sSlot .idle) (fun u => u = (sSlot .idle).advance 100) = true := by
  and_intros <;> decide +kernel

/-- A phase of the slot in progress, in which two replays have failed. -/
def sPhase : State := { sSlot .idle with cad := { s0.cad with replays := 2 }, phase := { s0.phase with on := true } }
theorem wit_tailrace : (sSlot .idle).slot = some (slotOf .idle) ∧ (sSlot .idle).cad.replaying = false ∧ (sSlot .idle).ntu.step = none
    ∧ us (sSlot .idle).tailFrom ≤ ((sSlot .idle).advance 310000).frcN ∧ s0.dom .rad = .on ∧ s0.sys.st ≠ .recovery
    ∧ ok (.tailrace 310000 0 1) (sSlot .idle) (fun u => decide (u.slot = some { slotOf .idle with tail := true })) = true
    ∧ ok (.tailrace 310000 7 5) (sSlot .idle) (fun u => decide (u.fget HDR_TAIL.DONE = 127 ∧ u.fget HDR_TAIL.DUR = 5 ∧ u.slot.map (·.tailDone) = some 7)) = true
    ∧ (sPhase.advance 8000).phaseDue = true ∧ (s0.advance 7).phaseDue = false
    ∧ ok (.phaseCheckpoint 8000) sPhase (fun u => decide (u.cad = { s0.cad with phaseAt := 8000 } ∧ u.phase.mem = [] ∧ u.phase.slot = sPhase.slot)) = true
    ∧ ok (.phaseCheckpoint 7) s0 (fun u => u = s0.advance 7) = true
    ∧ (sPhase.hold (sPhase.setByte 0x30000010 5#8)).shownByte 0x30000010 = 0#8 ∧ (sPhase.hold (sPhase.setByte 0x30000010 5#8)).byteAt 0x30000010 = 5#8
    ∧ ok (.lockstepFault 0 true 2) sCad (fun u => decide (u.cad.replaying = true ∧ u.cad.replays = 1 ∧ u.fget CAD_LS_CNT.FAULTS = 1
        ∧ u.fget CAD_LS_STAT.SIG = 1 ∧ u.fget (INT_RAW.bit Pg.CAD 5) = 1)) = true
    ∧ ok (.replayEnd 3 true) { s0 with cad := { s0.cad with replaying := true, replays := 2 } } (fun u =>
        decide (u.cad = { s0.cad with phaseAt := 3 } ∧ u.phase.on = true)) = true
    ∧ ok (.replayEnd 3 false) { s0 with cad := { s0.cad with replaying := true, replays := 2 } } (fun u => decide (u.cad.replays = 3)) = true
    ∧ ok (.replayEnd 3 false) { s0 with cad := { s0.cad with replaying := true, replays := 3 } } (fun u => decide (u.sys.st = .recovery
        ∧ u.fget SYS_FAULT.CODE = 2 ∧ u.fget (INT_RAW.bit Pg.SYS 0) = 1)) = true
    ∧ ok (.appSilent 0) { sCad with cad := { s0.cad with silentNow := true } } (fun u => decide (u.sys.st = .recovery ∧ u.fget SYS_FAULT.CODE = 6
        ∧ u.fbit CAD_STAT.APP_SILENT = true ∧ u.fbit CAD_CTRL.EN = false)) = true
    ∧ ok (.appSilent 0) { sCad.fset SYS_FAULT_CFG.SILENT_RST 1 with cad := { s0.cad with silentNow := true } } (fun u =>
        decide (u.sys.held = some .swsys ∧ bitOf (u.raw SYS_RSTCAUSE.addr) 3 = true)) = true := by
  and_intros <;> decide +kernel

/-- Asleep in a state, with every wake source enabled and Tanum-A in its WAIT. -/
def sSleep (p : PwrState) : State :=
  { (s0.rsetN PWR_WAKE_EN.addr 63) with pwr := { s0.pwr with st := p }, coreA := { s0.coreA with waiting := true } }
/-- In NAP with Cadence running and a pinned lane for the next slot. -/
def sPinned : State := ((((sSleep .nap).fset CAD_CTRL.EN 1).fset CNP_CTRL.EN 1).fset (LANE_CTRL.EN 0) 1).fset (LANE_CFG.PIN 0) 1
theorem wit_wakes : (sSleep .doze).canWake 1 = true ∧ (sSleep .slumber).canWake 1 = true ∧ s0.canWake 1 = false ∧ lastAbortEp .nap = 4
    ∧ ok (.wake 1 0) (sSleep .doze) (fun u => decide (u.pwr.st = .run ∧ u.coreA.waiting = false ∧ u.fget PWR_WAKE_SRC.SRC = 1
        ∧ u.fget PWR_WAKE_SRC.FROM = pwrCode .doze ∧ u.fget (INT_RAW.bit Pg.PWR 2) = 1)) = true
    ∧ ok (.wake 1 0) (sSleep .slumber) (fun u => decide (u.pwr.st = .run ∧ u.coreA.pc = s0.rget PWR_RESUME.addr ∧ u.fget PWR_WAKE_SRC.FROM = 3)) = true
    ∧ ok (.entryAbort 4 1) { sSleep .nap with pwr := { s0.pwr with st := .nap, leaving := some .run } } (fun u => decide (u.pwr.st = .run
        ∧ u.fbit PWR_STAT.ABORTED = true ∧ u.fget PWR_STAT.ABORT_EP = 4 ∧ u.fget PWR_CNT.ABORTS = 1 ∧ u.fget (INT_RAW.bit Pg.PWR 1) = 1)) = true
    ∧ (sPinned.advance 0).cadRuns = true ∧ (sPinned.advance 0).slotActive (sPinned.advance 0).excursionSlot = true
    ∧ ok (.excursionStart 0) sPinned (fun u => decide (u.pwr.st = .doze ∧ u.pwr.exc = true ∧ u.pwr.home = .nap ∧ u.fget PWR_CNT.EXC = 1)) = true
    ∧ ok (.wake 1 0) s0 (fun u => u = s0) = true := by
  and_intros <;> decide +kernel
/-! ## The radio -/

def sTx : State := { sSlot .tx with slot := some { slotOf .tx with lockSeen := true } }
def sRx : State := { sSlot .rx with slot := some { slotOf .rx with lockSeen := true } }
def txOf (w : TxWhat) : Tx := { what := w, asn := 0, mode := 0, freq := 0, launchAt := 0, headEnd := 10, spliceAt := some 5, endAt := 20, rampEnd := 30, launched := true }
theorem wit_lock : (slotOf .tx).kind = .tx ∧ (slotOf .tx).lockSeen = false ∧ 1280 ≤ ((sSlot .tx).advance 1280).frcN
    ∧ bitOf ((sSlot .tx).fget RFE_CAL_STAT.VALID) 0 = false
    ∧ ok (.lockSample 1280 true) ((sSlot .tx).fset RFE_CAL_STAT.VALID 1) (fun u => decide (u.fbit RFE_STAT.LOCK = true
        ∧ u.slot = some { slotOf .tx with lockSeen := true })) = true
    ∧ ok (.lockSample 1280 false) (sSlot .rx) (fun u => decide (u.fbit RFE_STAT.UNLOCK = true ∧ u.slot = some { slotOf .rx with lockSeen := true, lost := true })) = true
    ∧ sRx.txBusy = false ∧ ok (.lossOfLock 1300) { sRx with rfe := { s0.rfe with window := true } } (fun u => decide (u.rfe.window = false
        ∧ u.slot.map (·.lost) = some true)) = true
    ∧ ok (.lossOfLock 1300) { sTx.fset TXM_STAT.STATE 3 with txm := { s0.txm with cur := some (txOf .test) } } (fun u =>
        decide (u.fget TXM_STAT.STATE = 5 ∧ u.fget TXM_ERRINFO.CAUSE = 3 ∧ u.txm.cur.map (fun x => (x.aborted, x.endAt)) = some (true, 1300))) = true
    ∧ Accepted s0 tA RFE_CTRL.addr ∧ Accepted s0 tA RFE_SYN_MAN.addr := by
  and_intros <;> decide +kernel

/-- The front end is enabled, and under manual tuning. -/
def sRfe : State := s0.fset RFE_CTRL.EN 1
def manOn : Word := BitVec.ofNat 32 ((sRfe.raw RFE_CTRL.addr) + 2 ^ RFE_CTRL.MAN.lo)
theorem wit_manual : sRfe.fbit RFE_CTRL.MAN = false ∧ fieldGet (writtenTo sRfe tA RFE_CTRL.addr manOn) RFE_CTRL.MAN = 1 ∧ bitOf manOn.toNat 1 = false
    ∧ fieldGet (writtenTo sRfe tA RFE_CTRL.addr manOn) RFE_CTRL.EN = sRfe.fget RFE_CTRL.EN
    ∧ ok (.rfeManWrite tA manOn) sRfe (fun u => u.fbit RFE_CTRL.MAN) = true
    ∧ ok (.rfeManWrite tA manOn) (sRfe.fset CAD_CTRL.EN 1) (fun u => decide (u.fbit RFE_CTRL.MAN = false ∧ u.fbit RFE_STAT.MAN_REFUSED = true)) = true
    ∧ ok (.rfeSynManWrite tA 700#32) (sRfe.fset RFE_CTRL.MAN 1) (fun u => decide (u.fget RFE_SYN_CUR.FREQ
        = fieldGet (writtenTo (sRfe.fset RFE_CTRL.MAN 1) tA RFE_SYN_MAN.addr 700#32) RFE_SYN_MAN.FREQ ∧ u.fbit RFE_STAT.LOCK = false)) = true
    ∧ ok (.rfeDisable tA 0#32) { sRfe with rfe := { s0.rfe with window := true, running := some 0 } } (fun u => decide (u.rfe.window = false
        ∧ u.rfe.running = none ∧ u.fbit RFE_STAT.LOCK = false)) = true := by
  and_intros <;> decide +kernel

/-- A narrow and a Canopy receive slot with its window open. -/
def sNarrow : State := ({ sRx with rfe := { s0.rfe with window := true } }).fset (LANE_STAT.STATE 0) 1
def sCanopy : State := { sRx.fset AGC_CNP_GAIN.CUR 5 with rfe := { s0.rfe with window := true }, slot := some { slotOf .rx with canopy := true, lockSeen := true } }
theorem wit_gain : sNarrow.fget (LANE_STAT.STATE 0) = 1 ∧ sNarrow.fbit AGC_STAT.NB_FROZEN = false ∧ sCanopy.fbit AGC_CTRL.EN = true
    ∧ sCanopy.fbit AGC_CTRL.CNP_HOLD = false ∧ min 11 (sCanopy.fget AGC_CNP_LIM.LIMIT_LO) < sCanopy.fget AGC_CNP_GAIN.CUR
    ∧ ok (.narrowAgcStep 100) (sNarrow.fset AGC_NB_GAIN.CUR 5) (fun u => u.fget AGC_NB_GAIN.WANT = 4) = true
    ∧ ok (.narrowAgcStep (-100)) (sNarrow.fset AGC_NB_GAIN.CUR 11) (fun u => u.fget AGC_NB_GAIN.WANT = 11) = true
    ∧ ok (.clipInterval 200) sCanopy (fun u => decide (u.fget AGC_CNP_GAIN.CUR = 4 ∧ u.fbit AGC_STAT.CLIP_NOW = true ∧ u.fget AGC_CLIP_CNT.CNT = 1)) = true := by
  and_intros <;> decide +kernel

/-- One slot later than a request at reset, with a deadline of one slot. -/
def sAge : State := (s0.fset RFE_CAL_CFG.DEADLINE 1).advance (BitVec.ofNat 64 s0.slotLen)
theorem wit_calibration : Accepted s0 tA RFE_CAL_REQ.addr ∧ (slotOf .clearing).tail = false
    ∧ ok (.rfeCalReq tA 0x80#32) s0 (fun u => u.fget ⟨RFE_CAL_STAT.addr, 15, 1⟩ = 1) = true
    ∧ ok (.tempUpdate 40#8) ((s0.fset RFE_CTRL.TEMP_AUTO 1).fset RFE_CTRL.EN 1) (fun u => decide (u.fget RFE_CAL_TEMP.T_NOW = 40 ∧ u.fget TST_TEMP.T = 40
        ∧ u.fbit RFE_STAT.CAL_STALE = true ∧ u.fget ⟨RFE_CAL_STAT.addr, 8, 1⟩ = 1)) = true
    ∧ ok (.tempUpdate 40#8) ((s0.fset RFE_CTRL.TEMP_AUTO 1).fset RFE_STAT.CAL_STALE 1) (fun u => u.raw RFE_CAL_STAT.addr = s0.raw RFE_CAL_STAT.addr) = true
    ∧ max 1 (s0.fget RFE_CAL_CFG.TEMP_DELTA) ≤ ((40 : Int) - s0.fgetI RFE_CAL_TEMP.T_CAL).natAbs
    ∧ ok (.clearingWorkStart 1920) (sSlot .clearing) (fun u => decide (u.rfe.clearingEnd = some (s0.slotLen - us s0.tmpl.tailMin))) = true
    ∧ ok (.calDone 0 3 true) { s0.fset ⟨RFE_CAL_STAT.addr, 11, 1⟩ 1 with rfe := { s0.rfe with running := some 3 } } (fun u =>
        decide (u.fget ⟨RFE_CAL_STAT.addr, 11, 1⟩ = 0 ∧ u.fget ⟨RFE_CAL_STAT.addr, 3, 1⟩ = 1 ∧ u.rfe.running = none)) = true
    ∧ ok (.calDone 0 3 false) { s0.fset ⟨RFE_CAL_STAT.addr, 11, 1⟩ 1 with rfe := { s0.rfe with running := some 3 } } (fun u =>
        decide (u.fget ⟨RFE_CAL_STAT.addr, 27, 1⟩ = 1 ∧ u.fget ⟨RFE_CAL_STAT.addr, 3, 1⟩ = 0)) = true
    ∧ max 1 (sAge.fget RFE_CAL_CFG.DEADLINE) ≤ sAge.asnNow - 0
    ∧ ok (.calTimeout 0) { sAge.fset ⟨RFE_CAL_STAT.addr, 8, 1⟩ 1 with rfe := { s0.rfe with age := [(0, 0)] } } (fun u =>
        decide (u.fget ⟨RFE_CAL_STAT.addr, 8, 1⟩ = 0 ∧ u.fget ⟨RFE_CAL_STAT.addr, 16, 1⟩ = 1)) = true
    ∧ ok (.calTimeout 8) { sAge.fset TXM_MCHK_REQ.PEND 1 with rfe := { s0.rfe with age := [(8, 0)] } } (fun u =>
        decide (u.fbit TXM_MCHK_REQ.PEND = false ∧ u.fget TXM_MCHK_RES.RESULT = 3)) = true
    ∧ ok (.calTimeout 9) { sAge.fset TST_CAP_REQ.PEND 1 with rfe := { s0.rfe with age := [(9, 0)] } } (fun u =>
        decide (u.fbit TST_CAP_REQ.PEND = false ∧ u.fget TST_CAP_REQ.RESULT = 1)) = true := by
  and_intros <;> decide +kernel

/-- Lane 0 serves a cell between 50 us and 2 ms of the slot. -/
def served0 : Served := { cells := [], lane := 0, bin := 0, wide := false, mode := 0, freq := 0, rank := 0, pinned := false, opens := 50, closes := 2000 }
def laneIn (st : Nat) (l : Lane) : State := { (sRx.fset (LANE_STAT.STATE 0) st).fset (LANE_CTRL.EN 0) 1 with lanes := l :: List.replicate 15 {} }
theorem wit_lane_search : (laneIn 0 { serves := some served0 }).laneSt 0 = 0 ∧ (laneIn 0 { serves := some served0 }).fbit (LANE_CTRL.EN 0) = true
    ∧ us (max 40 50) ≤ (sRx.advance 1600).frcN ∧ (sRx.advance 1600).frcN < us 2000 ∧ 0 < (laneIn 1 {}).branches 0
    ∧ ok (.laneArm 1600 0) (laneIn 0 { serves := some served0 }) (fun u => u.laneSt 0 = 1) = true
    ∧ ok (.searchEnd 0) (laneIn 1 { serves := some served0, searching := true }) (fun u => u.laneSt 0 = 0) = true
    ∧ ok (.preambleDetect ⟨0, 7⟩ [(0, 40, 9)]) (laneIn 1 { serves := some served0 }) (fun u => decide (u.laneSt 0 = 2 ∧ (u.lane 0).hyp = 0
        ∧ u.fget (LANE_CNT.DET 0) = 1)) = true
    ∧ syncHits ((laneIn 2 {}).laneWords 0) 0 (sunSfd true) = [(8, false)] ∧ (laneIn 2 {}).sfdInTime 0 7 8 false = true ∧ (laneIn 2 {}).sfdLimit 0 ≤ 1000000
    ∧ syncHits ((laneIn 2 {}).laneWords 0) ((laneIn 2 {}).pdField 0 LANE_PD.SFD_ERR) (List.replicate 16 false) = []
    ∧ ok (.sfdMatch ⟨0, 0x700000001⟩ 0 0 0 (sunSfd false)) (laneIn 2 { serves := some served0, detAt := 0x700000000 }) (fun u => decide (u.laneSt 0 = 3
        ∧ (u.lane 0).code = 0 ∧ u.raw (LANE_TS_LO.addr 0) = 1 ∧ u.raw (LANE_TS_HI.addr 0) = 7)) = true
    ∧ ok (.sfdMatch ⟨0, 7⟩ 0 0 0 (List.replicate 16 false)) (laneIn 2 {}) (fun u => u = (laneIn 2 {}).advance 7) = true
    ∧ ok (.sfdTimeout ⟨0, 1000000⟩) (laneIn 2 { serves := some served0, searching := true }) (fun u => decide (u.laneSt 0 = 1
        ∧ u.fget (LANE_CNT.SFD_MISS 0) = 1)) = true := by
  and_intros <;> decide +kernel

/-- A PHR of a frame of 20 octets; the frame; a lane that has received it. -/
def phr0 : Phr := { mode := 0, len := 20, wht := true }
def frame0 (good : Bool) : RxFrame := { octets := List.replicate 20 0#8, crcOk := good }
def lane4 (good : Bool) : Lane := { serves := some served0, phr := some phr0, cells := [3], frame := some (frame0 good) }
/-- A wM-Bus frame, which has no MAC header. -/
def phrW : Phr := { mode := 0x20, len := 20, fcs := 0 }
/-- What a lane of code 0 makes of the bits behind its synchronisation word. -/
def head0 (l : List Bool) : Head := headOf 0 false (viterbiDepth s0.fecCfg) true true l
/-- A secured data frame from short address 0x1234 (R163), and neighbour 0 with that address and key slot 5. -/
def secHdr : List Byte := [0x09#8, 0xA0#8, 1#8, 2#8, 0#8, 0x34#8, 0x12#8, 5#8, 0#8, 0#8, 0#8, 0#8]
def sNbr : State := { (s0.setWord 0x30020000 0x831234).setWord 0x30020010 0x25 with keys := setAt s0.keys 5 { rad := true, valid := true } }
theorem wit_lane_head : (s0.takeCells (cellsFor 20)).isSome = true ∧ (laneIn 3 {}).inAckWindow = false ∧ (laneIn 3 {}).lanes.length = 16
    ∧ head0 (sunPhr 4 20) = .frame phr0 ∧ head0 (sunPhr 4 4) = .bad ∧ head0 (switchPhr 1) = .switch 1
    ∧ ((parseHead secHdr).map fun x => (x.1.secured, sNbr.laneKey x.1)) = some (true, some 5)
    ∧ modeWide 1 = modeWide ((laneIn 3 {}).laneMode 0) ∧ headOf 0x22 false 24 true true (List.replicate 12 false) = .symbol
    ∧ ok (.phrParsed ⟨0, 9⟩ ⟨(sunPhr 4 4), true, true, []⟩) (laneIn 3 { searching := true }) (fun u => decide (u.laneSt 0 = 1
        ∧ u.fget (LANE_CNT.PHR_ERR 0) = 1)) = true
    ∧ ok (.phrParsed ⟨0, 9⟩ ⟨(List.replicate 12 false), true, true, []⟩) (laneIn 3 { code := 0x22 }) (fun u => decide (u.laneSt 0 = 0
        ∧ u.fget CNP_DROP_CNT.CRC = 1)) = true
    ∧ ok (.phrParsed ⟨0, 9⟩ ⟨(switchPhr 1), true, true, []⟩) (laneIn 3 {}) (fun u => decide (u.laneSt 0 = 2 ∧ (u.lane 0).toMode = some 1)) = true
    ∧ isRill phr0.mode = false ∧ ok (.lastBitDecoded 0 9 []) (laneIn 3 { phr := some phr0 }) (fun u => decide (u.laneSt 0 = 4
        ∧ (u.lane 0).frame = some (frameOf phr0 (viterbiDepth s0.fecCfg) [] []) ∧ u.fget (INT_RAW.bit (Pg.LANE 0) 0) = 1)) = true := by
  and_intros <;> decide +kernel

theorem wit_lane_frame : isWmbus phrW.mode = true ∧ (laneIn 4 (lane4 true)).inAckWindow = false
    ∧ ((laneIn 4 (lane4 false)).advance 9).frameCheck 0 0 false (frame0 false) (parseMhr (frame0 false).octets 4 s0.depEid) = .drop (some CNP_DROP_CNT.CRC) false
    ∧ ok (.frameChecks 1 9) (laneIn 4 (lane4 false)) (fun u => decide (u.trf.rxq = [] ∧ u.laneSt 0 = 0 ∧ u.fget CNP_DROP_CNT.CRC = 1)) = true
    ∧ ((laneIn 4 { lane4 true with phr := some phrW }).advance 9).frameCheck 0 0 true (frame0 true) none = .good (frame0 true).octets
    ∧ ok (.frameChecks 1 9) (laneIn 4 { lane4 true with phr := some phrW }) (fun u => decide (u.trf.rxq = [3])) = true
    ∧ ok (.frameChecks 1 9) { laneIn 4 (lane4 true) with slot := some { slotOf .tx with lockSeen := true } } (fun u => decide (u.trf.rxq = [] ∧ u.laneSt 0 = 4)) = true := by
  and_intros <;> decide +kernel

def rillPhr : Phr := { mode := 0x10, len := 20 }
def ack0 : AckBuild := { lane := 0, nbr := none, frame := 3, frameEnd := 0, launchAt := 2000, mode := 0, freq := 77, fc := none, key := none, octets := [], fcs := 2, rank := 0, ready := true }
theorem wit_canopy : (laneIn 1 {}).laneSt 0 = 1 ∧ isRill rillPhr.mode = true ∧ sRx.txBusy = false
    ∧ Accepted s0 tA CNP_CTRL.addr ∧ Accepted s0 tA (LANE_CTRL.addr 0) ∧ Accepted s0 tA FEC_CTRL.addr ∧ s0.fbit FEC_CTRL.EN = true
    ∧ ok (.thresholdBlock 0 (-80 * 256) true) (laneIn 1 {}) (fun u => decide ((u.lane 0).den = 1 ∧ (u.lane 0).nf = 15 * (-96 * 256) - 80 * 256)) = true
    ∧ ok (.ldpcCodewordReceived ⟨0, 9⟩) (laneIn 3 { phr := some rillPhr }) (fun u => (u.lane 0).cwIn = 1) = true
    ∧ ok (.ldpcDecodeDone 0 9 ⟨1, true :: List.replicate 575 false⟩) { laneIn 3 { phr := some rillPhr, cwIn := 1 } with
        fec := { dec := [some ⟨0, 0, 0⟩, none, none, none] } } (fun u =>
        decide ((u.lane 0).cwOut = 1 ∧ (u.lane 0).info.length = cwInfo rillPhr 0 ∧ u.fget FEC_CNT.CW = 1 ∧ u.fget FEC_CNT.FAIL = 1)) = true
    ∧ ok (.ackDecision 1000 0) { sRx with txm := { s0.txm with acks := [ack0] } } (fun u => decide (u.fget RFE_SYN_CUR.FREQ = 77 ∧ u.txm.acks.any (·.go) = true)) = true
    ∧ ok (.ackDecision 1000 0) { sCanopy with txm := { s0.txm with acks := [ack0] } } (fun u => decide (u.fget RFE_SYN_CUR.FREQ = 77 ∧ u.txm.away = true
        ∧ u.rfe.ackSpan = true)) = true
    ∧ ok (.canopyWindowReturn 3000) { sCanopy with txm := { s0.txm with away := true } } (fun u => decide (u.txm.away = false ∧ u.rfe.ackSpan = false)) = true
    ∧ ok (.cnpEnWrite tA 1#32) s0 (fun u => u.fget CNP_CTRL.EN = fieldGet (writtenTo s0 tA CNP_CTRL.addr 1#32) CNP_CTRL.EN) = true
    ∧ ok (.laneDisable tA 0 0#32) (laneIn 3 (lane4 true)) (fun u => decide (u.laneSt 0 = 0 ∧ u.fbit (LANE_CTRL.EN 0) = false)) = true
    ∧ ok (.fecDisable tA 0#32) s0 (fun u => decide (u.fbit FEC_CTRL.EN = false ∧ u.fec = {})) = true := by
  and_intros <;> decide +kernel

/-- A PREPARED ticket for the present TX slot, which launches at 3 ms. -/
def cand0 : Cand := { cell := 0, sf := 0, prio := 0, kind := 0, classA := false, shared := false, ackEn := true, nbr := none, mode := 0, classes := 0, pwr := 0, chan := 0, freq := 113770496, guard := 0 }
def tick0 : Ticket := { st := 3, exp := false, expNew := false, ka := false, cls := 0, queue := 0, frame := 3, nbr := none, cand := cand0, asn := 0, attempt := 0, fc := none, key := none, mode := 0, fmtB := false, ackReq := true, octets := List.replicate 20 0#8, fine := 0, resv := none, weir := none, demos := [] }
def sReady : State := { ((sTx.fset RFE_CTRL.EN 1).fset TXM_CTRL.EN 1).fset TXM_REGION.PROFILE 1 with hdr := { s0.hdr with entries := [some tick0, none, none, none] } }
def atTx (st : Nat) : State := { sReady.fset TXM_STAT.STATE st with txm := { s0.txm with cur := some (txOf (.ticket 0)) } }
theorem wit_transmission : sReady.txBusy = false ∧ sReady.txm.acks.find? (·.go) = none ∧ sReady.ticketAt 0 = some (0, tick0)
    ∧ sReady.txBlock 113770496 = none
    ∧ ok (.rampUp (BitVec.ofNat 64 (us sReady.tmpl.txOffset - 1))) sReady (fun u => decide (u.fget TXM_STAT.STATE = 1 ∧ u.txm.cur.map (·.what) = some (.ticket 0))) = true
    ∧ ok (.launch (BitVec.ofNat 64 (us sReady.tmpl.txOffset))) sReady (fun u => decide (u.fget TXM_STAT.STATE = 2
        ∧ u.ticket 0 = some { tick0 with st := 4, launched := true } ∧ u.fget TXM_CNT.STARTS = 1)) = true
    ∧ ok (.headEnd 10) (atTx 2) (fun u => u.fget TXM_STAT.STATE = 3) = true
    ∧ ok .splicePoint (atTx 3) (fun u => u.fget TXM_STAT.STATE = 4) = true
    ∧ ok .tagComplete { atTx 3 with txm := { s0.txm with cur := some { txOf (.ticket 0) with key := some [] } } } (fun u => u.txm.cur.map (·.tagged) = some true) = true
    ∧ ok (.frameEnd 20) (atTx 4) (fun u => decide (u.fget TXM_STAT.STATE = 5 ∧ u.ticket 0 = some { tick0 with sent := true } ∧ u.cad.ack.isSome = true)) = true
    ∧ ok (.rampDownEnd 30) (atTx 5) (fun u => decide (u.fget TXM_STAT.STATE = 0 ∧ u.txm.cur = none ∧ u.fget (INT_RAW.bit Pg.TXM 0) = 1)) = true := by
  and_intros <;> decide +kernel
/-! ## ACKs, transmitter requests, Cadence -/

def ackGo : AckBuild := { ack0 with go := true, freq := 113770496 }
def sTestTx : State := { ((((s0.fset RFE_CTRL.MAN 1).fset TXM_CTRL.EN 1).fset RFE_SYN_MAN.FREQ 113770496)) with sys := { s0.sys with st := .test } }
theorem wit_acks : Accepted s0 tA TXM_TEST.addr ∧ Accepted s0 tA TXM_CTRL.addr ∧ Accepted s0 tA TXM_MCHK_REQ.addr
    ∧ Accepted s0 tA TXM_FIR_DATA.addr ∧ MayRead s0 .tanumA TXM_FIR_DATA.addr
    ∧ ok (.ackBuildDone 5) { sRx with txm := { s0.txm with acks := [ack0, { ack0 with ready := false }] } } (fun u => decide (u.txm.acks = [ack0, ack0])) = true
    ∧ sReady.sys.st ≠ .recovery ∧ sReady.txBlock ackGo.freq = none
    ∧ (({ sReady with txm := { s0.txm with acks := [ackGo] } }.advance 2000).ackDrop 3).dutyAdmits 113770496 1 false = true
    ∧ ok (.ackLaunch 2000) { sReady with txm := { s0.txm with acks := [ackGo] } } (fun u => decide (u.fget TXM_STAT.STATE = 2
        ∧ u.txm.cur.map (fun x => (x.what, x.launched)) = some (.ack, true) ∧ u.txm.acks = [])) = true
    ∧ ok (.liveEccError 15) (atTx 3) (fun u => decide (u.fget TXM_STAT.STATE = 5 ∧ u.fget TXM_ERRINFO.CAUSE = 4 ∧ u.fbit TXM_STAT.LIVE_ERR = true
        ∧ u.txm.cur.map (fun x => (x.aborted, x.endAt)) = some (true, 15))) = true
    ∧ ok (.mchkReq tA 1#32) (s0.fset RFE_CAL_STAT.VALID 0x25) (fun u => u.fbit TXM_MCHK_REQ.PEND) = true
    ∧ ok (.mchkReq tA 1#32) s0 (fun u => decide (u.fget TXM_MCHK_RES.RESULT = 2 ∧ u.fbit TXM_MCHK_REQ.PEND = false)) = true
    ∧ ok (.mchkDone 0xD8#8 0xCE#8) { s0.fset TXM_MCHK_REQ.PEND 1 with rfe := { s0.rfe with running := some 8 } } (fun u =>
        decide (u.fget TXM_MCHK_RES.ACP1 = 0xD8 ∧ u.fbit TXM_MCHK_RES.PASS = true ∧ u.fbit TXM_MCHK_REQ.PEND = false)) = true
    ∧ ok (.txmDisable tA 0#32) (atTx 3) (fun u => decide (u.fbit TXM_CTRL.EN = false ∧ u.fget TXM_STAT.STATE = 5 ∧ u.txm.cur.isSome = true)) = true
    ∧ sTestTx.regionOk 113770496 = true ∧ sTestTx.txBusy = false
    ∧ fieldGet (writtenTo sTestTx tA TXM_TEST.addr 1#32) TXM_TEST.MODE = 1
    ∧ ok (.txmTestWrite tA 1#32) sTestTx (fun u => decide (u.fget TXM_STAT.STATE = 3 ∧ u.txm.cur.map (fun x => (x.what, x.freq)) = some (.test, 113770496))) = true
    ∧ ok (.txmTestWrite tA 1#32) s0 (fun u => decide (u.fbit TXM_STAT.TEST_REFUSED = true ∧ u.fget TXM_TEST.MODE = 0 ∧ u.txm = s0.txm)) = true
    ∧ ok (.txmFirDataAccess tA none) { s0.fset TXM_FIR_IDX.IDX 63 with txm := { s0.txm with fir := [(63, 5#16)] } } (fun u =>
        decide (u.bus.err = false ∧ u.fget TXM_FIR_IDX.IDX = 0 ∧ u.bus.data = 5)) = true
    ∧ ok (.txmFirDataAccess tA (some 9#32)) { s0.fset TXM_MCHK_RES.VALID 1 with txm := { s0.txm with fir := [(0, 5#16)] } } (fun u => decide (u.tap 0 = 9 ∧ u.fget TXM_FIR_IDX.IDX = 1
        ∧ u.fbit TXM_MCHK_RES.VALID = false)) = true := by
  and_intros <;> decide +kernel

/-- Cadence may be enabled; it runs and holds PREPARED work. -/
def sStop : State := { (((s0.fset (CAD_SF.EN 0) 1).fset CAD_SELF_SHORT.EXT_V 1)) with sys := { s0.sys with st := .run } }
def sWork : State := { sStop.fset CAD_CTRL.EN 1 with hdr := { s0.hdr with entries := [some tick0, some { tick0 with st := 2, nbr := some 0 }, none, none] } }
theorem wit_cadence : Accepted sStop tA CAD_CTRL.addr ∧ sStop.fbit CAD_CTRL.EN = false ∧ sStop.templateOk = true
    ∧ fieldGet (writtenTo sStop tA CAD_CTRL.addr 1#32) CAD_CTRL.EN = 1 ∧ NothingOwed sWork ∧ sWork.fbit CAD_CTRL.EN = true
    ∧ ok (.cadEnable tA 1#32) sStop (fun u => decide (u.fbit CAD_CTRL.EN = true ∧ u.cad.startAt = 3200)) = true
    ∧ ok (.cadEnable tA 1#32) s0 (fun u => decide (u.fbit CAD_CTRL.EN = false ∧ u.fbit CAD_STAT.EN_REFUSED = true)) = true
    ∧ NothingOwed { sWork with slot := some (slotOf .tx) }
    ∧ ok (.cadDisable tA 0#32) { sWork with slot := some (slotOf .tx) } (fun u => decide (u.fbit CAD_CTRL.EN = false ∧ u.cad.stopping = true
        ∧ u.slot = some (slotOf .tx))) = true
    ∧ ok (.cadDisable tA 0#32) sWork (fun u => decide (u.fbit CAD_CTRL.EN = false ∧ u.slot = none ∧ u.cad.stopping = false ∧ 0 ∈ u.hdr.undoing
        ∧ 1 ∈ u.hdr.undoing)) = true
    ∧ Accepted s0 tA CAD_TBLCHG.addr ∧ Accepted s0 tA NBR_CHG.addr ∧ Accepted s0 tA CAD_HOP_DATA.addr ∧ MayRead s0 .tanumA CAD_HOP_DATA.addr
    ∧ Accepted s0 tA CAD_APPHB.addr ∧ Accepted s0 tA CAD_LS_INJ.addr
    ∧ ok (.cadTblchg tA (BitVec.ofNat 32 (2 ^ CAD_TBLCHG.GO.lo + 2 ^ CAD_TBLCHG.ALL.lo))) sWork (fun u => 1 ∈ u.hdr.undoing) = true
    ∧ ok (.nbrChg tA (BitVec.ofNat 32 (2 ^ NBR_CHG.GO.lo))) sWork (fun u => decide (1 ∈ u.hdr.undoing)) = true
    ∧ ok (.cadHopDataAccess tA none) s0 (fun u => decide (u.bus.data = 0 ∧ u.bus.err = false ∧ u.fget CAD_HOP_IDX.POS = 1)) = true
    ∧ ok (.cadHopDataAccess tA (some 300#32)) (s0.fset CAD_HOP_IDX.POS 127) (fun u => decide (((u.cad.hop[0]?).getD [])[127]? = some 44
        ∧ u.fget CAD_HOP_IDX.POS = 0)) = true
    ∧ ok (.cadApphb tA 1#32) (s0.fset CAD_APPCFG.SILENT 3) (fun u => decide (u.fget CAD_APPCFG.SILENT = 0 ∧ u.cad.beat = true)) = true
    ∧ ok (.cadLsInj tA (BitVec.ofNat 32 (2 ^ CAD_LS_INJ.GO.lo))) { s0 with sys := { s0.sys with st := .test } } (fun u => u.cad.inject.isSome) = true
    ∧ ok (.cadLsInj tA (BitVec.ofNat 32 (2 ^ CAD_LS_INJ.GO.lo))) s0 (fun u => decide (u.fbit CAD_STAT.INJ_REFUSED = true ∧ u.cad = s0.cad)) = true := by
  and_intros <;> decide +kernel

/-- An attempt waits for its ACK from 4 ms to 5 ms; the ACK carries no address and no IE. -/
def wait0 : AckWait := { opens := 4000, closes := 5000 }
def sAckWait (w : AckWait) : State := { (sTx.fset RFE_CTRL.EN 1).fset (LANE_CTRL.EN 0) 1 with cad := { s0.cad with ack := some w },
                                                                                              hdr := { s0.hdr with entries := [some { tick0 with st := 4 }, none, none, none] } }
def ackFrame : RxFrame := { octets := [0x02#8, 0x21#8, 0#8, 0#8], crcOk := true, fcs := 2 }
/-- The window is open, and lane 0 has decoded a frame. -/
def sAckIn (f : RxFrame) : State :=
  { ((sAckWait { wait0 with isOpen := true }).fset (LANE_STAT.STATE 0) 4) with lanes := { frame := some f } :: List.replicate 15 {} }
theorem wit_ack_window : ((sAckWait wait0).advance 4000).frcN = 4000 ∧ (sAckWait wait0).laneSt 0 < 3
    ∧ ok (.ackWindowOpen 4000) (sAckWait wait0) (fun u => decide (u.cad.ack = some { wait0 with isOpen := true } ∧ u.laneSt 0 = 1 ∧ u.rfe.window = true)) = true
    ∧ ok (.ackWindowClose 5000) (sAckWait { wait0 with isOpen := true }) (fun u => decide (u.cad.ack = some { wait0 with isOpen := true, shut := true }
        ∧ u.rfe.window = false)) = true
    ∧ (sAckWait wait0).ticketAt 0 = some (0, { tick0 with st := 4 })
    ∧ ((parseMhr ackFrame.octets ackFrame.fcs none).map fun i => ((sAckIn ackFrame).advance 4500).ackValid 0 { tick0 with st := 4 } i ackFrame) = some true
    ∧ ok (.ackReceived 4500 0) (sAckIn ackFrame) (fun u => decide (u.cad.ack = some { wait0 with isOpen := true, shut := true }
        ∧ u.ticket 0 = some { tick0 with st := 4, acked := some false } ∧ u.laneSt 0 = 0)) = true
    ∧ parseMhr [] 4 none = none ∧ ok (.ackReceived 4500 0) (sAckIn { octets := [], crcOk := true }) (fun u => decide (u.cad = (sAckIn ackFrame).cad
        ∧ u.laneSt 0 = 1)) = true := by
  and_intros <;> decide +kernel

/-- R129: 31,250 Hz is 4,096 units, and the rectangular preset holds each symbol for 8 samples from the 29th. -/
theorem test_shaping_rect : shaped .rect [31250, -31250] =
    List.replicate 28 0 ++ List.replicate 8 4096 ++ List.replicate 8 (-4096) ++ List.replicate 28 0 := by decide
/-! ## Headrace, frame pool, Sluices, duty cycle -/

/-- Queue 0 holds in cell 5 a broadcast data frame of 20 octets without addresses; a shared TX cell of mode 0 is the slot's. -/
def candS : Cand := { cand0 with shared := true, classes := 15 }
def sFrame : State := ((((s0.setWord (cellAddr 5) (2 ^ 10)).setWord (cellAddr 5 + 4) 20).setList (cellAddr 5 + 32) [0x01#8, 0x21#8]).fset (TRF_Q_CFG.EN 0) 1).fset
  (TRF_Q_CFG.SFMASK 0) 1
def sFw : State := { sFrame with trf := { s0.trf with cells := [(5, .firmware)] } }
def sQueued : State := { sFrame with trf := { s0.trf with cells := [(5, .queued)], queues := [5] :: List.replicate 63 [] } }
def sOffer : State := { (sQueued.fset TRF_CTRL.EN 1).fset CAD_CTRL.EN 1 with slot := some { slotOf .tx with cand := some candS },
                                                                              ntu := { s0.ntu with lastAsn := some 0 } }
def sConsider : State := (sOffer.advance 10).consider
theorem wit_preparation : sConsider.prepFree = true ∧ sConsider.freeEntry = some 0 ∧ sConsider.beforeLock = true ∧ sConsider.hdr.plans = []
    ∧ (sConsider.justInTime || sConsider.cad.stopping) = false ∧ sConsider.hdrDepth < sConsider.runAhead ∧ sConsider.fbit HDR_CTRL.EXP_EN = true
    ∧ (firstOffer (sConsider.horizon + sConsider.slotAsn + 1 - sConsider.slotAsn) sConsider.slotAsn sConsider).1 = some (0, candS, .frame 0 5)
    ∧ (firstOffer (sConsider.horizon + sConsider.slotAsn + 1 - sConsider.slotAsn) sConsider.slotAsn sConsider).2 = sConsider
    ∧ prepCounts 20 ≤ sConsider.toNextTick ∧ (prepChoose 4096 sConsider candS 0 none [] []).1 = some ⟨0, 5, none⟩
    ∧ ok (.preparationStart 10) sOffer (fun u => decide ((u.ticket 0).map (fun k => (k.st, k.asn, k.queue, k.frame, k.exp)) = some (1, 0, 0, 5, false))) = true := by
  and_intros <;> decide +kernel

def sTick (k : Ticket) : State := { sSlot .tx with hdr := { s0.hdr with entries := [some k, none, none, none] } }
theorem wit_headrace : (sTick { tick0 with st := 1 }).ticketAt 0 = some (0, { tick0 with st := 1 })
    ∧ ok (.preparationDone 9) (sTick { tick0 with st := 1 }) (fun u => decide (u.ticket 0 = some { tick0 with st := 2 } ∧ u.fget HDR_CNT.PREP = 1)) = true
    ∧ us ((sTick tick0).tmpl.txOffset - 100) ≤ 200000
    ∧ ok (.ticketLock 200000) (sTick { tick0 with st := 2 }) (fun u => decide (u.ticket 0 = some { tick0 with st := 3 } ∧ u.hdr.undoing = [])) = true
    ∧ ok (.ticketLock 200000) (sTick { tick0 with st := 1 }) (fun u => decide (0 ∈ u.hdr.undoing ∧ u.fbit HDR_STAT.LATE = true
        ∧ u.slot.map (·.kind) = some .idle)) = true
    ∧ ok (.squashDone 9) { sQueued with hdr := { s0.hdr with entries := [some { tick0 with frame := 5 }, none, none, none], undoing := [0] } } (fun u =>
        decide (u.hdr.undoing = [] ∧ u.ticket 0 = none ∧ u.fget HDR_SQ_LAST.COUNT = 1 ∧ u.fget (INT_RAW.bit Pg.HDR 0) = 1)) = true
    ∧ Accepted s0 tA HDR_CTRL.addr ∧ Accepted s0 tA HDR_CFG.addr ∧ Accepted s0 tA HDR_TKT_IDX.addr
    ∧ ok (.hdrCtrlWrite tA 0#32) ((sTick tick0).fset HDR_CTRL.EN 1) (fun u => decide (u.fbit HDR_CTRL.EN = false ∧ 0 ∈ u.hdr.undoing)) = true
    ∧ ok (.hdrCtrlWrite tA 1#32) (s0.fset HDR_CTRL.EN 0) (fun u => decide (u.fbit HDR_CTRL.EN = true ∧ u.hdr.waitVerdict = true)) = true
    ∧ ok (.hdrCfgWrite tA (BitVec.ofNat 32 (5 + 2000 * 2 ^ HDR_CFG.HORIZON.lo))) s0 (fun u => decide (u.raw HDR_CFG.addr
        = writtenTo s0 tA HDR_CFG.addr (BitVec.ofNat 32 (5 + 2000 * 2 ^ HDR_CFG.HORIZON.lo)) ∧ u.hdr = s0.hdr)) = true
    ∧ ok (.hdrTktIdxWrite tA 0#32) (sTick { tick0 with fc := some 77 }) (fun u => decide (u.fget HDR_TKT_W0.STATE = 3 ∧ u.raw HDR_TKT_W2.addr = 77)) = true := by
  and_intros <;> decide +kernel

/-- Some cells are always given where any is free. -/
theorem takeCells_one (s : State) (h : s.freeCells ≠ []) : ∃ c l s', s.takeCells 1 = some (c :: l, s') := by
  unfold State.takeCells
  have h' := List.length_pos_iff.mpr h
  simp only []
  rw [if_neg (by omega)]
  generalize (if s.freeCells.length = 0 then 0 else s.free % s.freeCells.length) = k
  cases hx : s.freeCells.drop k ++ s.freeCells.take k with
  | nil =>
    have hz := congrArg List.length hx
    simp only [List.length_append, List.length_drop, List.length_take, List.length_nil] at hz
    omega
  | cons c l => exact ⟨c, _, _, rfl⟩

theorem wit_alloc : MayRead s0 .tanumA TRF_ALLOC.addr ∧ s0.fget TRF_POOL.RX_RSV < s0.freeCount ∧ ∃ c l s', s0.takeCells 1 = some (c :: l, s') :=
  ⟨by decide +kernel, by decide +kernel, takeCells_one s0 (by decide +kernel)⟩

theorem wit_pool : Accepted s0 tA TRF_FREE.addr ∧ MayRead s0 .tanumA TRF_DONE.addr ∧ MayRead s0 .tanumA TRF_RXQ.addr ∧ sFw.chain 5 = some [5]
    ∧ sFw.walk 17 5 = [5] ∧ (sFw.trf.cells.map (·.1)).Nodup
    ∧ ok (.trfFree tA 5#32) sFw (fun u => decide (u.cellState 5 = none)) = true
    ∧ ok (.trfFree tA 5#32) sQueued (fun u => decide (u.fbit TRF_STAT.FREE_ERR = true ∧ u.trf = sQueued.trf)) = true
    ∧ ok (.trfDonePop .tanumA) { sFrame with trf := { s0.trf with cells := [(5, .done)], done := [5] } } (fun u => decide (u.bus.data = 0x80000005#32
        ∧ u.trf.done = [] ∧ u.cellState 5 = some .firmware)) = true
    ∧ ok (.trfRxqPop .tanumA) { sFrame with trf := { s0.trf with cells := [(5, .rxq)], rxq := [5] } } (fun u => decide (u.bus.data = 0x80000005#32
        ∧ u.trf.rxq = [] ∧ u.cellState 5 = some .firmware)) = true := by
  and_intros <;> decide +kernel

theorem wit_sluice_duty : Accepted s0 tA (pageAddr Pg.SLU 0x48) ∧ (descOf (pageAddr Pg.SLU 0x48)).isSome = true ∧ Accepted s0 tA DCA_CTRL.addr
    ∧ Accepted s0 tA (pageAddr Pg.SLU 0x80) ∧ (descOf (pageAddr Pg.SLU 0x80)).isSome = true
    ∧ ok (.sluiceConfigWrite tA 0x48 7#32) (sTick { tick0 with st := 2, cls := 1 }) (fun u => decide (0 ∈ u.hdr.undoing
        ∧ u.raw (pageAddr Pg.SLU 0x48) = writtenTo s0 tA (pageAddr Pg.SLU 0x48) 7#32)) = true
    ∧ ok (.subWindowAdvance 1 false) { s0.fset DCA_CTRL.EN 1 with trf := { s0.trf with subs := [[5], List.replicate 65 2] ++ List.replicate 6 [] } } (fun u =>
        decide (u.sbUsed 1 = 128 ∧ u.sbUsed 0 = 5)) = true
    ∧ ok (.subWindowAdvance 1 true) (s0.fset DCA_CTRL.EN 1) (fun u => u.dwellUsed 9 = 0) = true
    ∧ fieldGet (writtenTo s0 tA DCA_CTRL.addr (BitVec.ofNat 32 (1 + 2 ^ DCA_CTRL.COLD_FULL.lo))) DCA_CTRL.COLD_FULL = 1
    ∧ ok (.dcaEnable tA (BitVec.ofNat 32 (1 + 2 ^ DCA_CTRL.COLD_FULL.lo))) s0 (fun u => decide (u.fbit DCA_CTRL.EN = true ∧ u.trf.dcaLost = false
        ∧ u.sbUsed 3 = s0.sbBudget 3)) = true := by
  and_intros <;> decide +kernel

theorem wit_queues : Accepted sFw tA TRF_ENQ.addr ∧ Accepted sQueued tA TRF_CMD.addr ∧ Accepted s0 tA TRF_HIST_IDX.addr ∧ sFw.fLen 5 = 20 ∧ sFw.qEn 0 = true
    ∧ sFw.trf.queues.length = 64
    ∧ ok (.trfEnq tA 5#32) sFw (fun u => decide (u.queue 0 = [5] ∧ u.cellState 5 = some .queued)) = true
    ∧ ok (.trfEnq tA 5#32) (sFw.setWord (cellAddr 5 + 4) 97) (fun u => decide (u.fbit TRF_STAT.ENQ_ERR = true ∧ u.trf = sFw.trf)) = true
    ∧ ok (.removeHead .tanumA 0) sQueued (fun u => decide (u.queue 0 = [] ∧ u.trf.done = [5] ∧ u.fget TRF_DROP.REMOVED = 1)) = true
    ∧ ok (.removeHead .tanumA 0) { sQueued with hdr := { s0.hdr with entries := [some { tick0 with frame := 5 }, none, none, none] } } (fun u =>
        decide (u.fbit TRF_STAT.CMD_REFUSED = true ∧ u.queue 0 = [5])) = true
    ∧ ok (.flush .tanumA 0) sQueued (fun u => decide (u.queue 0 = [] ∧ u.trf.done = [5])) = true
    ∧ ok (.trfHistIdxWrite tA 3#32) { s0 with trf := { s0.trf with hist := [(3, 8#32, 9#32)] } } (fun u => decide (u.rget TRF_HIST_W0.addr = 8
        ∧ u.rget TRF_HIST_W1.addr = 9)) = true := by
  and_intros <;> decide +kernel
/-! ## Network time, timers, calendar -/

def sStep : State := (s0.rsetN NTU_STEP_LO.addr (2 ^ 32 - 5)).rsetN NTU_STEP_HI.addr (2 ^ 32 - 1)
def sHf : State := { s0 with sys := { s0.sys with hfxoStable := true } }
theorem wit_network_time : Accepted s0 tA NTU_RATE.addr ∧ Accepted s0 tA NTU_CMD.addr ∧ s0.txBusy = false ∧ s0.cadRuns = false
    ∧ (sSlot .idle).cadRuns = true ∧ sHf.sys.hfxoStable = true ∧ s0.ntu.entry = none ∧ s0.fbit SYS_STAT.LFXO_FAIL = false
    ∧ ok (.reAnchor 77) s0 (fun u => decide (u.nt = (s0.advance 77).nt ∧ u.ntu.anchor = 77 ∧ u.frcN = 77)) = true
    ∧ ok (.ntuRateWrite tA 0x7FFFFFFF#32) s0 (fun u => decide (u.nt = s0.nt ∧ signed 32 (u.raw NTU_RATE.addr) = rateLimit)) = true
    ∧ ok (.ntuStep .tanumA) sStep (fun u => decide (u.nt = 2 ^ 64 - 5 ∧ u.fget NTU_CNT.STEPS = 1)) = true
    ∧ ok (.ntuStep .tanumA) { sSlot .idle with regs := (sStep.fset CAD_CTRL.EN 1).regs } (fun u => decide (u.nt = 0 ∧ u.ntu.step = some (-5, false))) = true
    ∧ ok (.ntuCancel .tanumA) { s0 with ntu := { s0.ntu with step := some (9, false) } } (fun u => u.ntu.step = none) = true
    ∧ ok (.wakeHandoff 32#32) { sHf.fset NTU_LFCAL.COUNT 8000 with ntu := { s0.ntu with entry := some (100, true), handoff := true } } (fun u =>
        decide (u.frcN = 131 ∧ u.ntu.entry = none ∧ u.rget NTU_SLP_TICKS.addr = 32)) = true
    ∧ ok (.wakeHandoff 32#32) { sHf with ntu := { s0.ntu with entry := some (100, false), handoff := true } } (fun u => u.frcN = 31350) = true
    ∧ sHf.sleepStart = none ∧ ok (.lfcalWindow 5 8000000) sHf (fun u => decide (u.fget NTU_LFCAL.COUNT = 8000000 ∧ u.fbit NTU_LFCAL.VALID = true)) = true
    ∧ ok .frcVote s0 (fun u => u.fget NTU_STAT.FRC_VOTE = 1) = true := by
  and_intros <;> decide +kernel

def sSel (n : Nat) : State := s0.fset NTU_SRC.SEL n
theorem wit_sync : (sSel 1).considered ⟨(-40#32).toInt, 1, 0, false⟩ = true ∧ Accepted s0 tA NTU_FWCORR.addr ∧ Accepted s0 tA NTU_EPOCH_HI.addr
    ∧ Accepted s0 tA NTU_EPOCH_LO.addr
    ∧ ok (.syncClr .tanumA) (s0.fset NTU_STAT.SYNC 1) (fun u => u.fbit NTU_STAT.SYNC = false) = true
    ∧ ok (.syncSet .tanumA) s0 (fun u => u.fbit NTU_STAT.SYNC) = true
    ∧ ok (.ntuFwcorr tA (-40#32)) (sSel 1) (fun u => decide (u.raw NTU_SAMPLE.addr = 2 ^ 32 - 40 ∧ u.fget NTU_CNT.ACCEPTED = 1)) = true
    ∧ ((sSel 2).fset NTU_EXT.PERIOD 1000).considered ⟨-40, 2, 0, false⟩ = true
    ∧ ok (.externalCapture 32000040) ((sSel 2).fset NTU_EXT.PERIOD 1000) (fun u => decide (u.raw NTU_SAMPLE.addr = 2 ^ 32 - 40
        ∧ u.fget NTU_CNT.ACCEPTED = 1)) = true
    ∧ ok (.holdover 32000000) ((s0.fset NTU_STAT.SYNC 1).fset NTU_HOLD.ENTER 1) (fun u => decide (u.fbit NTU_STAT.HOLDOVER = true
        ∧ u.ntu.holdEnter = 32000000 ∧ u.fget (INT_RAW.bit Pg.NTU 2) = 1)) = true
    ∧ ok (.syncLost 64000000) (((s0.fset NTU_STAT.SYNC 1).fset NTU_STAT.HOLDOVER 1).fset NTU_HOLD.MAX 2) (fun u => decide (u.fbit NTU_STAT.SYNC = false
        ∧ u.fbit NTU_STAT.HOLDOVER = false)) = true
    ∧ ok (.ntuEpochWrite tA true 1#32) (after (.ntuEpochWrite tA false 7#32) s0) (fun u => decide (u.rget NTU_EPOCH_LO.addr = 7 ∧ u.epoch = 2 ^ 32 + 7)) = true
    ∧ ok (.ntuEpochWrite tA true 1#32) sCad (fun u => decide (u.epoch = s0.epoch ∧ u.fbit NTU_STAT.EPOCH_REFUSED = true)) = true
    ∧ ok (.ntuEpochWrite tA false 7#32) s0 (fun u => u.epoch = s0.epoch) = true := by
  and_intros <;> decide +kernel

def sPulse (m : Nat) : State := { s0.fset (NTU_PUL_CFG.MODE 1) m with ntu := { s0.ntu with armed := [1] } }
theorem wit_pulses : (sPulse 2).pulT 1 ≤ ((sPulse 2).advance 9).nt ∧ Accepted s0 tA (NTU_PUL_CFG.addr 1) ∧ Accepted s0 tA (NTU_PUL_T_HI.addr 1)
    ∧ ok (.pulseStart 9 1) (sPulse 2) (fun u => decide ((1, 9) ∈ u.ntu.pulseOn ∧ u.pulT 1 = 32000000 ∧ 1 ∈ u.ntu.armed)) = true
    ∧ ok (.pulseStart 9 1) (sPulse 1) (fun u => decide ((1, 9) ∈ u.ntu.pulseOn ∧ u.pulT 1 = 0 ∧ u.ntu.armed = [])) = true
    ∧ ok (.pulseEnd 100 1) { (sPulse 2).fset (NTU_PUL_CFG.WIDTH 1) 2 with ntu := { s0.ntu with pulseOn := [(1, 9)] } } (fun u => u.ntu.pulseOn = []) = true
    ∧ ok (.ntuPulWrite tA 1 0 1#32) s0 (fun u => decide (u.ntu.armed = [1])) = true
    ∧ ok (.ntuPulWrite tA 1 0 3#32) { sPulse 1 with ntu := { s0.ntu with armed := [1], pulseOn := [(1, 0)] } } (fun u => decide (u.ntu.armed = [] ∧ u.ntu.pulseOn = [])) = true
    ∧ ok (.ntuPulWrite tA 1 2 3#32) (s0.fset (NTU_PUL_CFG.MODE 1) 2) (fun u => decide (u.ntu.armed = [1] ∧ u.raw (NTU_PUL_T_HI.addr 1) = 3)) = true := by
  and_intros <;> decide +kernel

/-- Timer 2 counts to 9; its channel 1 compares; the same in system state RUN, and with a capturing channel. -/
def sTim : State := { ((s0.fset (TMR_CTRL.EN 2) 1).rsetN (TMR_RELOAD.addr 2) 9).fset (TMR_CH_CFG.MODE 2 1) 1 with sys := { s0.sys with st := .run } }
def sCmp (oact : Nat) : State := got (execTmrCmpWrite tA 2 1 4#32 <| (sTim.rsetN (TMR_COUNT.addr 2) 4).fset (TMR_CH_CFG.OACT 2 1) oact)
def sCapt : State := sTim.fset (TMR_CH_CFG.MODE 2 1) 2
theorem wit_timer : sTim.tmrClocked 2 = true ∧ sTim.tmrCounts 2 = true ∧ sTim.fbit (TMR_CTRL.EN 2) = true ∧ s0.fbit (TMR_CTRL.EN 2) = false ∧ sTim.sys.st = .run
    ∧ sTim.fbit (EVT_EN.bit (Pg.TMR 2) 0) = false ∧ sTim.fbit (EVT_EN.bit (Pg.TMR 2) 2) = false ∧ sTim.isCompare 2 1 = true
    ∧ ok (.tmrTick 2) (sTim.rsetN (TMR_COUNT.addr 2) 8) (fun u => u.tCount 2 = 9) = true
    ∧ ok (.tmrTick 2) (sTim.rsetN (TMR_COUNT.addr 2) 9) (fun u => decide (u.tCount 2 = 0 ∧ u.fget (INT_RAW.bit (Pg.TMR 2) 0) = 1 ∧ u.tmrArmed 2 1 = true)) = true
    ∧ (sCmp 0).compareDue 2 1 = true ∧ (sCmp 3).compareDue 2 1 = true ∧ (sCmp 0).sys.st = .run
    ∧ ok (.compareFiring 2 1) (sCmp 0) (fun u => decide (u.tmrArmed 2 1 = false ∧ u.fget (INT_RAW.bit (Pg.TMR 2) 2) = 1)) = true
    ∧ ok (.compareFiring 2 1) (sCmp 3) (fun u => bitOf (u.tmrGet 2).out 1) = true
    ∧ sCapt.isCapture 2 1 = true ∧ sCapt.fget (TMR_CH_CFG.EDGE 2 1) = 0 ∧ sCapt.fbit (TMR_CH_CFG.METER 2 1) = false
    ∧ sCapt.fbit (TMR_CH_CFG.SRC 2 1) = false
    ∧ ok (.tmrCapture 2 1 true false) (sCapt.rsetN (TMR_COUNT.addr 2) 6) (fun u => decide (u.raw (TMR_CH_CAP.addr 2 1) = 6
        ∧ bitOf (u.fget (TMR_STAT.VALID 2)) 1 = true ∧ u.fget (TMR_STAT.OVR 2) = 0)) = true
    ∧ ok (.tmrCapture 2 1 true false) (sCapt.fset (TMR_STAT.VALID 2) 2) (fun u => decide (bitOf (u.fget (TMR_STAT.OVR 2)) 1 = true
        ∧ u.fget (INT_RAW.bit (Pg.TMR 2) 6) = 1)) = true := by
  and_intros <;> decide +kernel

theorem wit_timer_registers : Accepted s0 tA (TMR_COUNT.addr 2) ∧ Accepted s0 tA (TMR_RELOAD.addr 2) ∧ Accepted s0 tA (TMR_CH_CMP.addr 2 1)
    ∧ Accepted s0 tA (TMR_CTRL.addr 2) ∧ MayRead s0 .tanumA (TMR_CH_CAP.addr 2 1) ∧ s0.domUp .lp = true
    ∧ ok (.tmrCountWrite tA 2 9#32) sTim (fun u => u.tCount 2 = 9) = true
    ∧ ok (.tmrCountWrite tA 2 10#32) sTim (fun u => decide (u.tCount 2 = 0 ∧ u.tmrArmed 2 1 = true ∧ u.fget (INT_RAW.bit (Pg.TMR 2) 0) = 0)) = true
    ∧ ok (.tmrReloadWrite tA 2 3#32) (sTim.rsetN (TMR_COUNT.addr 2) 8) (fun u => decide (u.tReload 2 = 3 ∧ u.tCount 2 = 8)) = true
    ∧ ok (.tmrCmpWrite tA 2 1 4#32) sTim (fun u => decide (u.raw (TMR_CH_CMP.addr 2 1) = 4 ∧ u.tmrArmed 2 1 = true)) = true
    ∧ ok (.tmrEnable tA 2 1#32) (sTim.fset (TMR_CTRL.EN 2) 0) (fun u => decide (u.fbit (TMR_CTRL.EN 2) = true ∧ u.tmrArmed 2 1 = true)) = true
    ∧ ok (.tmrDisable tA 2 0#32) (sTim.rsetN (TMR_COUNT.addr 2) 8) (fun u => decide (u.fbit (TMR_CTRL.EN 2) = false ∧ u.tCount 2 = 8)) = true
    ∧ ok (.tmrStartEvent 2) s0 (fun u => u.fbit (TMR_CTRL.EN 2)) = true
    ∧ ok (.tmrResetEvent 2) (sTim.rsetN (TMR_COUNT.addr 2) 8) (fun u => decide (u.tCount 2 = 0 ∧ u.tmrArmed 2 1 = true)) = true
    ∧ ok (.tmrCapRead .tanumA 2 1 false) ((sCapt.fset (TMR_STAT.VALID 2) 2).rsetN (TMR_CH_CAP.addr 2 1) 55) (fun u => decide (u.bus.data = 55
        ∧ u.fget (TMR_STAT.VALID 2) = 0)) = true
    ∧ ok (.tmrCapRead .tanumA 2 1 true) ((sCapt.rsetN (TMR_COUNT.addr 2) 6).rsetN (TMR_CH_CAP.addr 2 1) 55) (fun u => decide (u.bus.data = 55
        ∧ u.raw (TMR_CH_CAP.addr 2 1) = 6 ∧ bitOf (u.fget (TMR_STAT.VALID 2)) 1 = true)) = true := by
  and_intros <;> decide +kernel

/-- The calendar runs; 2000-02-28 23:59:59 plus one second is 2000-02-29, a Tuesday. -/
def sRtc : State := (s0.fset RTC_STAT.LOCKOUT 0).fset RTC_CTRL.EN 1
def sRtc0 : State := sRtc.fset RTC_CTRL.EN 0
def atCal (c : Nat) (s : State) : State := { s with rtc := { s.rtc with cal := c } }
theorem wit_calendar : sRtc.fbit RTC_CTRL.EN = true ∧ sRtc0.fbit RTC_CTRL.EN = false ∧ ok .rtcSecond sRtc0 (fun u => u == sRtc0) = true ∧ Accepted sRtc tA RTC_CMD.addr ∧ MayRead sRtc .tanumA RTC_TIME.addr
    ∧ MayRead sRtc .tanumA RTC_DATE.addr
    ∧ ok .rtcSecond (atCal (calSpan - 1) sRtc) (fun u => decide (u.rtc.cal = 0 ∧ u.fbit RTC_STAT.YWRAP = true ∧ u.fget (INT_RAW.bit Pg.RTC 2) = 1)) = true
    ∧ ok .rtcSecond (atCal (dayOf 0 2 28 * 86400 + 86399) sRtc) (fun u => decide (dateOf (u.rtc.cal / 86400) = (0, 2, 29))) = true
    ∧ (sRtc.rsetN RTC_SET_DATE.addr (1 + 2 ^ 8)).setValue = some 0 ∧ s0.fbit RTC_STAT.BUSY = false
    ∧ ok (.rtcSet tA 1#32) (sRtc.rsetN RTC_SET_DATE.addr (1 + 2 ^ 8)) (fun u => decide (u.rtc.setTo = some 0 ∧ u.fbit RTC_STAT.BUSY = true)) = true
    ∧ ok (.rtcSet tA 1#32) (sRtc.rsetN RTC_SET_DATE.addr (32 + 2 ^ 8)) (fun u => decide (u.rtc.setTo = none ∧ u.fbit RTC_STAT.SET_REFUSED = true)) = true
    ∧ ok .rtcSetLoad { s0 with rtc := { s0.rtc with setTo := some 99 } } (fun u => decide (u.rtc.cal = 99 ∧ u.fbit RTC_STAT.TIME_VALID = true)) = true
    ∧ ok .rtcCalCorrection (sRtc.fset RTC_CAL.CAL 3) (fun u => u.rtc.sub = 3) = true
    ∧ ok (.rtcShadowRead .tanumA 0) (atCal 3661 sRtc) (fun u => decide (u.bus.data = BitVec.ofNat 32 (timeWord 3661) ∧ u.rtc.shadows.map (·.left) = [[1, 2]])) = true
    ∧ ok (.rtcShadowRead .tanumA 1) (atCal 86400 sRtc) (fun u => u.bus.data = BitVec.ofNat 32 (dateWord 86400)) = true
    ∧ ok (.rtcShadowRead .tanumA 1) { atCal 86400 sRtc with rtc := { s0.rtc with shadows := [⟨masterCode .tanumA, 86399, 0, [1, 2]⟩] } } (fun u =>
        u.bus.data = BitVec.ofNat 32 (dateWord 86399)) = true
    ∧ ok (.shadowTimeout .tanumA) { s0 with rtc := { s0.rtc with shadows := [⟨masterCode .tanumA, 86399, 0, [1, 2]⟩] } } (fun u =>
        decide (u.rtc.shadows = [] ∧ u.fbit RTC_STAT.SH_TIMEOUT = true)) = true := by
  and_intros <;> decide +kernel

/-- Alarm 1 is armed for minute 1, whatever the hour and the day. -/
def sAlm : State := got (execRtcAlarmWrite tA 1 0 0x100#32 ((sRtc.fset (RTC_ALM_CFG.EN 1) 1).fset (RTC_ALM_CFG.MASK 1) 0x3C))
theorem wit_alarms : sAlm.almMatches 1 60 = true ∧ sAlm.almReady 1 = true ∧ sAlm.almAfter 1 60 = true ∧ sAlm.almMatches 1 61 = false
    ∧ Accepted sRtc tA (RTC_ALM_TIME.addr 1) ∧ Accepted s0 tA RTC_UNLOCK.addr
    ∧ ok .rtcSecond (atCal 59 sAlm) (fun u => decide (u.fbit (RTC_ALM_CFG.FIRED 1) = true ∧ u.fbit (RTC_ALM_CFG.ARMED 1) = false
        ∧ u.fget (INT_RAW.bit Pg.RTC 1) = 1)) = true
    ∧ ok .rtcSecond (atCal 60 sAlm) (fun u => decide (u.fbit (RTC_ALM_CFG.FIRED 1) = false ∧ u.fbit (RTC_ALM_CFG.ARMED 1) = true)) = true
    ∧ ok (.rtcUnlock tA 0x1A7C#32) ((s0.fset RTC_STAT.LOCKOUT 1).fset RTC_STAT.VDD_STABLE 1) (fun u => u.fbit RTC_STAT.LOCKOUT = false) = true
    ∧ ok (.rtcUnlock tA 0x1A7D#32) ((s0.fset RTC_STAT.LOCKOUT 1).fset RTC_STAT.VDD_STABLE 1) (fun u => u.fbit RTC_STAT.LOCKOUT) = true
    ∧ ok .rtcLockout s0 (fun u => decide (u.fbit RTC_STAT.LOCKOUT = true ∧ u.fbit RTC_STAT.VDD_STABLE = false)) = true
    ∧ s0.pwr.st ≠ .backup ∧ ok .vddStable s0 (fun u => u.fbit RTC_STAT.VDD_STABLE) = true
    ∧ ok (.backupSwitch 3000 2899) { s0 with rtc := { s0.rtc with onVdd := false } } (fun u => u.rtc.onVdd) = true
    ∧ ok (.backupSwitch 1799 1800) s0 (fun u => decide (u.rtc.onVdd = false ∧ u.fbit RTC_STAT.LOCKOUT = true)) = true
    ∧ ok .backupRetentionLoss (atCal 9 (s0.rsetN (RTC_BKP.addr 3) 5)) (fun u => decide (u.rtc.cal = 0 ∧ u.fbit RTC_STAT.BK_LOST = true
        ∧ u.rget (RTC_BKP.addr 3) = 0 ∧ u.fget (INT_RAW.bit Pg.RTC 3) = 1)) = true := by
  and_intros <;> decide +kernel
/-! ## Events, DMA, pins, serial ports -/

/-- Channel 3 carries producer 20 to consumer 5; channel 4 too. -/
def sCul : State := ((((s0.rsetN (CUL_CH_P.addr 3 0) (2 ^ 20)).rsetN (CUL_CH_C0.addr 3) (2 ^ 5)).rsetN (CUL_CH_C0.addr 4) (2 ^ 5)).rsetN CUL_CHEN.addr (2 ^ 3))
def sCulU : State := { sCul with sys := { s0.sys with st := .run } }
/-- The same with D_APP down. -/
def sCulNap : State := { sCul with pwr := { s0.pwr with st := .hibernate } }
theorem wit_culvert : sCul.culRoutes = true ∧ sCul.chansOf 20 = [3] ∧ sCul.consOf 3 = [5] ∧ sCul.consOf 4 = [5] ∧ sCul.domUp .app = true
    ∧ sCul.cul.inMatrix = [] ∧ sCul.domUp (producerDomain 20) = true
    ∧ ok (.producerEvent 20) sCul (fun u => bitOf u.coreA.edge 5) = true
    ∧ (sCul.fset CUL_CTRL.EN 0).culRoutes = false
    ∧ ok (.producerEvent 20) (sCul.fset CUL_CTRL.EN 0) (fun u => u == sCul.fset CUL_CTRL.EN 0) = true
    ∧ sCul.fget CUL_CNT.MERGE = 0 ∧ (bitOf (sCul.route [3, 4]).1.coreA.edge 5 = true ∧ (sCul.route [3, 4]).2 = []
      ∧ (sCul.route [3, 4]).1.fget CUL_CNT.MERGE = 1)
    ∧ Accepted sCul tA CUL_SWTRIG.addr ∧ Accepted sCul tA CUL_CHEN.addr ∧ Accepted sCul tA CUL_CMD.addr ∧ bitOf (sCul.raw CUL_CHEN.addr) 3 = true
    ∧ sCul.chanAdmits (sCul.sourceOf .tanumA) 3 = true
    ∧ ok (.culSwtrig tA 8#32) sCul (fun u => decide (bitOf u.coreA.edge 5 = true ∧ u.fbit CUL_STAT.OWN_IGN = false)) = true
    ∧ (sCul.rsetN (CUL_OWN.addr 0) (3 * 2 ^ 12)).chanAdmits (s0.sourceOf .tanumA) 3 = false
    ∧ ok (.culSwtrig tA 8#32) (sCul.rsetN (CUL_OWN.addr 0) (3 * 2 ^ 12)) (fun u => decide (u.fbit CUL_STAT.OWN_IGN = true ∧ u.coreA = s0.coreA)) = true
    ∧ ok (.culChenWrite tA 0x30#32) sCul (fun u => u.raw CUL_CHEN.addr = 0x30) = true
    ∧ ok (.routingFault 3 2) sCul (fun u => decide (bitOf (u.raw CUL_CHEN.addr) 3 = false ∧ u.fbit CUL_STAT.FAULT = true ∧ u.culSafe = true
        ∧ u.fget CUL_ERRINFO.CHAN = 3 ∧ u.fget CUL_ERRINFO.WORD = 2 ∧ u.fget SYS_FAULT.CODE = 7)) = true
    ∧ ok (.culExit tA 1#32) (sCulU.fset CUL_STAT.SAFE 1) (fun u => u.fbit CUL_STAT.SAFE = false) = true
    ∧ ok (.culExit tA 1#32) { sCul with cul := { s0.cul with parity := [(3, 2)] } } (fun u => u.fbit CUL_STAT.EXIT_REF) = true := by
  and_intros <;> decide +kernel
theorem wit_culvert_dropped : ∃ p : Fin 96, sCulNap.domUp (producerDomain p) = true ∧ sCulNap.culRoutes = true ∧ sCulNap.domUp .app = false
    ∧ ok (.producerEvent p) (sCulNap.rsetN (CUL_CH_P.addr 3 (p / 32)) (2 ^ (p.val % 32))) (fun u => decide (u.fbit CUL_STAT.DROP = true ∧ u.fget CUL_CNT.DROP = 1)) = true :=
  ⟨72, by decide +kernel⟩

/-- DMA channel 1 moves two words of SRAM. -/
def sDma0 : State := ((((s0.fset DMA_CTRL.EN 1).rsetN (DMA_SRCn.addr 1) 0x20001000).rsetN (DMA_DSTn.addr 1) 0x20002000).fset (DMA_CNTn.CNT 1) 2).fset (DMA_CFGn.SIZE 1) 2
def sDma : State := { (sDma0.fset (DMA_CFGn.EN 1) 1).setWord 0x20001000 0xCAFE with dma := s0.dma.set 1 { owner := 0, sec := true, burst := 2 } }
theorem wit_dma : Accepted sDma0 tA (DMA_CFGn.addr 1) ∧ NothingOwed sDma0 ∧ 1 < sDma0.dma.length ∧ sDma0.fbit (DMA_CFGn.EN 1) = false
    ∧ bitOf (writtenTo sDma0 tA (DMA_CFGn.addr 1) 3#32) 0 = true
    ∧ ok (.dmaChannelEnable tA 1 3#32) sDma0 (fun u => decide (u.fbit (DMA_CFGn.EN 1) = true ∧ (u.dmaGet 1).burst = 0)) = true
    ∧ ok (.dmaChannelEnable tA 1 3#32) (sDma0.fset (DMA_CNTn.CNT 1) 0) (fun u => decide (u.fbit (DMA_CFGn.EN 1) = false ∧ u.fbit (DMA_STATn.DONE 1) = true)) = true
    ∧ NothingOwed sDma ∧ bitOf (writtenTo sDma tA (DMA_CFGn.addr 1) 2#32) 0 = false
    ∧ ok (.dmaDisable tA 1 2#32) sDma (fun u => decide (u.fbit (DMA_CFGn.EN 1) = false ∧ (u.dmaGet 1).burst = 0)) = true
    ∧ sDma.domUp .app = true ∧ sDma.fbit (DMA_CFGn.FREE 1) = false
    ∧ ok (.dmaRequest 1) { sDma.fset (DMA_CFGn.BURST 1) 3 with dma := s0.dma } (fun u => (u.dmaGet 1).burst = 4) = true
    ∧ ok (.dmaRequest 1) (sDma.fset (DMA_STATn.PENDREQ 1) 255) (fun u => u.fget (DMA_STATn.PENDREQ 1) = 255) = true
    ∧ ok (.dmaRequest 2) sDma (fun u => u == sDma) = true
    ∧ sDma.dmaNext = some 1 ∧ sDma.busUp = true ∧ sDma.memst = {} ∧ sDma.tst.banks = []
    ∧ ok .dmaBeat sDma (fun u => decide (u.wordAt 0x20002000 = 0xCAFE ∧ u.raw (DMA_CNTn.addr 1) = 1 ∧ u.dmaLast = 1)) = true
    ∧ ok .dmaBeat (sDma.rsetN (DMA_SRCn.addr 1) 0x28000000) (fun u => decide (u.fbit (DMA_STATn.ERR 1) = true ∧ u.fget (DMA_STATn.CAUSE 1) = 1
        ∧ u.raw (DMA_ERRADDRn.addr 1) = 0x28000000 ∧ u.fbit (DMA_CFGn.EN 1) = false)) = true
    ∧ regionOf 0x28000000 = .hole ∧ s0.dmaNext = none ∧ ok .dmaBeat s0 (fun u => u == s0) = true := by
  and_intros <;> decide +kernel

/-- Event unit 2 watches both edges of pin A3. -/
def sPin : State := s0.rsetN (GPIO_EV.addr 2) (3 + 2 * 64 + 2 ^ 8)
/-- The same with the board driving pin A3 low. -/
def sPinLow : State := { sPin with pads := { s0.pads with drvA := 8 } }
def sPinHigh : State := { sPin with pads := { s0.pads with a := 8, drvA := 8 } }
def sAdc : State := (s0.fset ADC_CTRL.EN 1).fset ADC_CFG.TRIG 1
def sConv : State := { sAdc with pads := { s0.pads with adcRun := true } }
theorem wit_pins : bitOf sPin.pads.a 3 = false ∧ sPin.dom .lp = .on
    ∧ sPinHigh.evFires sPin.inBoth sPinHigh.inBoth 2 = true ∧ sPin.padDriven false 3 = false ∧ sPinLow.padDriven false 3 = true ∧ sPin.padDriven true 17 = false
    ∧ ok (.gpioEvent false 3 true) sPin (fun u => decide (u.pads.a = 8 ∧ u.fget (INT_RAW.bit Pg.GPIO 2) = 1)) = true
    ∧ ok (.gpioEvent false 3 true) sPinLow (fun u => decide (u.pads = sPinHigh.pads ∧ u.fget (INT_RAW.bit Pg.GPIO 2) = 1)) = true
    ∧ ok (.gpioEvent false 3 false) sPin (fun u => decide (u.pads = sPinLow.pads ∧ u.fget (INT_RAW.bit Pg.GPIO 2) = 0)) = true
    ∧ ok (.gpioEvent false 3 false) sPinLow (fun u => u == sPinLow) = true
    ∧ ok (.gpioEvent true 17 true) sPin (fun u => decide (u.pads.b = 2 ^ 17 ∧ u.pads.a = 0)) = true
    ∧ Accepted sAdc tA ADC_CMD.addr ∧ sAdc.fbit ADC_CTRL.EN = true ∧ sAdc.fbit (EVT_EN.bit Pg.ADC 0) = false ∧ MayRead sAdc .tanumA ADC_RES.addr
    ∧ ok (.adcStart (some .tanumA)) sAdc (fun u => u.pads.adcRun) = true
    ∧ ok (.adcStart (some .tanumA)) sConv (fun u => u.fget ADC_CNT.MISSED = 1) = true
    ∧ ok (.adcStart none) sAdc (fun u => u.pads.adcRun) = true
    ∧ ok (.adcResult 0x7FF) sConv (fun u => decide (u.fget ADC_RES.DATA = 0x7FF ∧ u.fbit ADC_RES.VALID = true ∧ u.fbit ADC_STAT.OVR = false
        ∧ u.pads.adcRun = false)) = true
    ∧ ok (.adcResult 0x7FF) (sConv.fset ADC_RES.VALID 1) (fun u => decide (u.fbit ADC_STAT.OVR = true ∧ u.fget (INT_RAW.bit Pg.ADC 1) = 1)) = true
    ∧ ok (.adcResult 0x7FF) sAdc (fun u => u == sAdc) = true
    ∧ ok (.adcResRead .tanumA none) ((sAdc.fset ADC_RES.VALID 1).fset ADC_RES.DATA 5) (fun u => decide (u.bus.data.toNat % 4096 = 5 ∧ u.fbit ADC_RES.VALID = false)) = true
    ∧ ok (.adcResRead .tanumA (some 9)) ((sConv.fset ADC_RES.VALID 1).fset ADC_RES.DATA 5) (fun u => decide (u.bus.data.toNat % 4096 = 5
        ∧ u.fget ADC_RES.DATA = 9 ∧ u.fbit ADC_STAT.OVR = false)) = true := by
  and_intros <;> decide +kernel

/-- The port is ready to send 40 bits; it sends, with a word in its FIFO. -/
def sPsp : State := ((s0.fset PSP_CTRL.EN 1).fset PSP_CLK.SRC 1).fset PSP_LEN.LEN 40
def sSend (sent tx : List Word) : State := { sPsp with psp := { s0.psp with running := true, len := 40, sel := some 0, sent := sent, tx := tx } }
/-- It receives eight bits on lane 1. -/
def sRecv : State := { sPsp with psp := { s0.psp with running := true, recv := true, len := 8, frame := 2 ^ PSP_FRAME.DIR.lo } }
theorem wit_port : Accepted sPsp tA PSP_GO.addr ∧ Accepted sPsp tA PSP_TXD.addr ∧ MayRead sPsp .tanumA PSP_RXD.addr ∧ sPsp.pspCause = 0
    ∧ (sPsp.fset PSP_LEN.LEN 8193).pspCause = 2
    ∧ ok (.pspGo tA 1#32) sPsp (fun u => decide (u.psp.running = true ∧ u.psp.len = 40 ∧ u.psp.sel = some 0 ∧ u.psp.recv = false)) = true
    ∧ ok (.pspGo tA 1#32) (sPsp.fset PSP_LEN.LEN 8193) (fun u => decide (u.psp.running = false ∧ u.fbit PSP_STAT.REFUSED = true ∧ u.fget PSP_ERRINFO.CAUSE = 2)) = true
    ∧ ok (.pspStop tA 2#32 8 3 []) (sSend [] [7#32]) (fun u => decide (u.psp.running = false ∧ u.psp.tx = [] ∧ u.psp.moved = 8 ∧ u.fbit PSP_STAT.ABORTED = true
        ∧ u.fget PSP_DONE_BITS.BITS = 8 ∧ u.fget PSP_ERRINFO.CAUSE = 5)) = true
    ∧ ok (.pspStop tA 2#32 40 0 []) (sSend [] [7#32, 8#32]) (fun u => decide (u.psp.moved = 40 ∧ u.fget PSP_DONE_BITS.BITS = 40 ∧ u.fbit PSP_STAT.ABORTED = true)) = true
    ∧ ok (.pspTxdWrite tA 7#32) sPsp (fun u => u.psp.tx = [7#32]) = true
    ∧ ok (.pspTxdWrite tA 7#32) { sPsp with psp := { s0.psp with tx := List.replicate 8 1#32 } } (fun u => decide (u.psp.tx = List.replicate 8 1#32
        ∧ u.fbit PSP_STAT.OVF = true)) = true
    ∧ ok (.pspRxdRead .tanumA) { sPsp with psp := { s0.psp with rx := [3#32, 4#32] } } (fun u => decide (u.bus.data = 3 ∧ u.psp.rx = [4#32])) = true
    ∧ ok (.pspRxdRead .tanumA) sPsp (fun u => decide (u.bus.data = 0 ∧ u.fbit PSP_STAT.UNF = true)) = true
    ∧ ok (.pspPause 32 []) { sSend [1#32] [] with psp := { (sSend [1#32] []).psp with moved := 32 } } (fun u => decide (u.fbit PSP_STAT.PAUSED = true ∧ u.psp.moved = 32)) = true
    ∧ ok .pspFifoResume ((sSend [1#32] [2#32]).fset PSP_STAT.PAUSED 1) (fun u => u.fbit PSP_STAT.PAUSED = false) = true
    ∧ ok (.pspTransferEnd []) (sSend [1#32] [2#32]) (fun u => decide (u.psp.running = false ∧ u.psp.sent = [1#32, 2#32] ∧ u.psp.sel = none
        ∧ u.fget PSP_DONE_BITS.BITS = 40 ∧ u.fbit PSP_STAT.DONE = true)) = true
    ∧ ok .pspFifoResume (sRecv.fset PSP_STAT.PAUSED 1) (fun u => u.fbit PSP_STAT.PAUSED = false) = true
    ∧ ok (.pspTransferEnd [0#8, 2#8, 2#8, 0#8, 2#8, 0#8, 2#8, 2#8]) sRecv (fun u => decide (u.psp.running = false ∧ u.psp.rx.length = 1
        ∧ u.fbit PSP_STAT.DONE = true)) = true
    ∧ laneByte 1 false (byteLanes 1 false 0xA7) = 0xA7 ∧ laneByte 8 true (byteLanes 8 true 0xA7) = 0xA7 := by
  and_intros <;> decide +kernel

/-- The host port is enabled, its window on the AGC page. -/
def sHsp : State := { (s0.fset HSP_CTRL.EN 1).fset HSP_WIN.PAGE Pg.AGC with sys := { s0.sys with strapsDue := none } }
def sHspD : State := sHsp.fset HSP_WIN.PAGE Pg.DBG
theorem wit_host : sHsp.hsp.cs = false ∧ sHsp.hspServes = true ∧ sHsp.pwr.st = .run ∧ sHsp.pwr.exc = false ∧ sHsp.fbit HSP_CTRL.EN = true ∧ NothingOwed sHsp
    ∧ sHsp.portCur (baseAddr (sHsp.hspAddr 4)) = none ∧ sHsp.frcWaits .hsp (sHsp.hspAddr 4) = false ∧ MayRead sHsp .hsp (sHsp.hspAddr 4) ∧ sHsp.hspAddr 4 = INT_EN.addr Pg.AGC
    ∧ Accepted sHsp ⟨.hsp, .base⟩ (INT_EN.addr Pg.AGC) ∧ sHsp.hsp.cfg = none
    ∧ ok (.hspRead 4 1 none) (sHsp.rsetN (INT_EN.addr Pg.AGC) 3) (fun u => decide (u.hsp.out = [3#32] ∧ u.hsp.cs = true)) = true
    ∧ sHspD.judge .hsp (sHspD.sourceOf .hsp) (sHspD.hspAddr 63) false = .reject 6
    ∧ ok (.hspRead 63 1 none) sHspD (fun u => decide (u.hsp.out = [0#32] ∧ u.fbit HSP_STAT.BUSERR = true ∧ u.fget HSP_ERRINFO.CAUSE = 1)) = true
    ∧ ok (.hspWrite 4 [3#32] (some 0) false) sHsp (fun u => decide (u.hsp.posted = [(INT_EN.addr Pg.AGC, 3#32)])) = true
    ∧ ok (.hspWrite 4 [3#32] none false) sHsp (fun u => decide (u.hsp.posted = [] ∧ u.raw (INT_EN.addr Pg.AGC) = 3)) = true
    ∧ ok (.hspWrite 63 [3#32, 4#32] (some 0) false) sHsp (fun u => decide (u.fbit HSP_STAT.WRAP_W = true ∧ u.hsp.posted.length = 1)) = true
    ∧ ok (.hspWindow 0x3F 0xF) sHsp (fun u => u.hsp.win = some 0xF3F) = true
    ∧ ok (.hspWindow 0x40 0xF) sHsp (fun u => u.fbit HSP_STAT.BADWIN) = true
    ∧ ok (.extNop 0 0) sHsp (fun u => decide (u.hsp.cs = true ∧ u.fget HSP_CNT.XFER = 1)) = true
    ∧ ok (.extStatus 1) (sHsp.fset HSP_STAT.WRAP 1) (fun u => decide (u.hsp.out.length = 4 ∧ u.fget HSP_STAT.WRAP = 0)) = true
    ∧ ok (.extStatus 0) (sHsp.fset HSP_STAT.WRAP 1) (fun u => decide (u.rget HSP_STAT.addr = (sHsp.fset HSP_STAT.WRAP 1).rget HSP_STAT.addr)) = true
    ∧ ok (.presenceQuery 0) sHsp (fun u => u.hsp.out.length = 2) = true
    ∧ ok (.privCmd 1 (some 0xCE)) sHsp (fun u => decide (u.hsp.priv.map (fun p => (p.code, p.good)) = some (1, true))) = true
    ∧ ok (.privCmd 1 none) sHsp (fun u => decide (u.hsp.priv.map (fun p => (p.code, p.good)) = some (1, false))) = true
    ∧ ok (.laneSet 0x9) sHsp (fun u => decide (u.hsp.cfg.map (fun c => (fieldGet c.toNat HSP_CFG.CMDW, fieldGet c.toNat HSP_CFG.DATAW)) = some (1, 2))) = true
    ∧ ok .postedWriteDone { sHsp with hsp := { sHsp.hsp with posted := [(INT_EN.addr Pg.AGC, 3#32)] } } (fun u => decide (u.hsp.posted = []
        ∧ u.raw (INT_EN.addr Pg.AGC) = 3)) = true := by
  and_intros <;> decide +kernel

/-- A presence token is held. -/
def sTok : State := { sHsp.fset PROT_CTRL.OLOCK 0 with prot := { s0.prot with lastLong := some 0 } }
theorem wit_privileged : sHsp.busUp = true ∧ sHsp.sys.strapsDue = none ∧ sHsp.hsp.priv = none ∧ sHsp.hsp.srst = false ∧ sHsp.hsp.en = none ∧ sHsp.token = false
    ∧ sTok.token = true ∧ sTok.hspServes = true ∧ NoImage sTok
    ∧ ok .hspCsDeassert { sHsp with hsp := { sHsp.hsp with cs := true, win := some 0x105, cfg := some 0x3C#32 } } (fun u => decide (u.hsp.cs = false
        ∧ u.raw HSP_WIN.addr = 0x105 ∧ u.rget HSP_CFG.addr = 0x3C#32 ∧ u.hsp.win = none)) = true
    ∧ ok .debugUnlock sHsp (fun u => decide (u.fget HSP_PRIV.RESULT = 1 ∧ u.sys.dbgUnlocked = false ∧ u.prot.seq = 1)) = true
    ∧ ok .debugUnlock sTok (fun u => decide (u.fget HSP_PRIV.RESULT = 0 ∧ u.sys.dbgUnlocked = true ∧ u.fget HSP_PRIV.CMD = 1)) = true
    ∧ ok .debugUnlock (sTok.fset PROT_CTRL.OLOCK 1) (fun u => decide (u.fget HSP_PRIV.RESULT = 3 ∧ u.sys.dbgUnlocked = false)) = true
    ∧ ok .ownerLockRelease (sTok.fset PROT_CTRL.OLOCK 1) (fun u => decide (u.fbit PROT_CTRL.OLOCK = false ∧ u.fget HSP_PRIV.RESULT = 0)) = true
    ∧ ok .gladeMaintenance { sTok with glade := { s0.glade with sealOpen := true, grant := true } } (fun u => decide (u.hsp.routed = true)) = true
    ∧ ok .gladeMaintenance { sTok with glade := { s0.glade with sealOpen := false } } (fun u => u.fget HSP_PRIV.RESULT = 2) = true
    ∧ ok (.boundaryScan .idcode) s0 (fun u => u.sys.tap = .idcode) = true
    ∧ ok (.boundaryScan .extest) s0 (fun u => u.sys.tap = .bypass) = true
    ∧ ok (.debugAccess 0x20001000 .word none) s0 (fun u => u.bus.err) = true
    ∧ ok (.debugAccess 0x20001000 .word (some 7#32)) { s0 with sys := { s0.sys with dbgUnlocked := true } } (fun u => decide (u.wordAt 0x20001000 = 7
        ∧ u.bus.err = false)) = true := by
  and_intros <;> decide +kernel
theorem wit_factory : ok (.factoryDefaults 0) sTok (fun u => decide (u.keyValid = 0 ∧ bitOf (u.raw SYS_RSTCAUSE.addr) 6 = true ∧ u.sys.dbgUnlocked = false)) = true := by
  decide +kernel
/-! ## Self-tests, Glade -/

def sTst : State := s0.fset TST_CTRL.EN 1
def sTstT : State := { sTst with sys := { s0.sys with st := .test } }
theorem wit_selftest : Accepted sTst tA TST_BIST_REQ.addr ∧ Accepted sTst tA TST_SELF.addr ∧ Accepted sTst tA TST_CAP_REQ.addr ∧ sTst.tst = {}
    ∧ (sTst.rsetN SYS_SRAM_USE.addr 0).bankInUse 5 = false ∧ (sTst.rsetN SYS_SRAM_USE.addr 0x20).bankInUse 5 = true
    ∧ ok (.tstBistReq tA 0x20#32) (sTst.rsetN SYS_SRAM_USE.addr 0) (fun u => decide (u.tst.banks = [5] ∧ u.fget TST_BIST_REQ.BANKS = 0x20)) = true
    ∧ ok (.tstBistReq tA 0x20#32) (sTst.rsetN SYS_SRAM_USE.addr 0x20) (fun u => decide (u.tst.banks = [] ∧ bitOf (u.fget TST_BIST_REF.BANKS) 5 = true)) = true
    ∧ ok (.bistBankDone false) { (sTst.setWord 0x20050000 7).setWord 0x20060000 7 with tst := { s0.tst with banks := [5] } } (fun u => decide (u.tst.banks = []
        ∧ bitOf (u.fget TST_BIST_FAIL.BANKS) 5 = true ∧ u.byteAt 0x20050000 = memDefault 0x20050000 ∧ u.byteAt 0x20060000 = 7)) = true
    ∧ ok (.bistBankDone true) { sTst with tst := { s0.tst with banks := [23] } } (fun u => decide (bitOf (u.fget TST_BIST_PASS.BANKS) 23 = true
        ∧ u.fget (INT_RAW.bit Pg.TST 0) = 1)) = true
    ∧ Accepted sTstT tA TST_SELF.addr ∧ sTstT.fbit CAD_CTRL.EN = false
    ∧ ok (.lbist tA 1#32) sTstT (fun u => decide (u.tst = { lbist := true })) = true
    ∧ ok (.rramBist tA 2#32) sTstT (fun u => decide (u.tst = { rram := true })) = true
    ∧ ok (.lbist tA 1#32) sTst (fun u => decide (u.tst = {} ∧ u.fget TST_STAT.CAUSE = 1)) = true
    ∧ ok (.lbist tA 1#32) (sTstT.fset CAD_CTRL.EN 1) (fun u => decide (u.tst = {} ∧ u.fget TST_STAT.CAUSE = 2)) = true
    ∧ ok (.selfTestDone true) { sTstT with tst := { lbist := true } } (fun u => decide (u.tst = {} ∧ u.fbit TST_SELF.LBIST_DONE = true ∧ u.fbit TST_SELF.LBIST_PASS = true)) = true
    ∧ ok (.selfTestDone false) { sTstT.setWord 0x30000000 7 with tst := { rram := true } } (fun u => decide (u.fbit TST_SELF.RRAM_DONE = true
        ∧ u.fbit TST_SELF.RRAM_PASS = false ∧ u.byteAt 0x30000000 = memDefault 0x30000000)) = true
    ∧ ok (.tstCapReq tA 1#32) sTst (fun u => decide (u.fget TST_CAP_REQ.RESULT = 2 ∧ u.fbit TST_STAT.REFUSED = true)) = true
    ∧ ok (.tstCapReq tA 1#32) ((sTst.fset RFE_CAL_STAT.VALID 1).fset CAD_CTRL.EN 1) (fun u => decide (u.fbit TST_CAP_REQ.PEND = true ∧ (9, 0) ∈ u.rfe.age)) = true
    ∧ ok (.captureDone [0x20001#32, 5#32]) { (sTst.fset TST_CAP_REQ.PEND 1).fset CAD_CTRL.EN 1 with rfe := { s0.rfe with running := some 9 } } (fun u =>
        decide (u.wordAt 0x30038000 = 0xFFFE0001 ∧ u.wordAt 0x30038004 = 5 ∧ u.fbit TST_CAP_REQ.PEND = false)) = true
    ∧ ok .bankClearDone { s0 with memst := { s0.memst with clear := [3] } } (fun u => u.memst.clear = []) = true
    ∧ Accepted s0 tA SYS_SRAM_USE.addr ∧ ok (.sysSramUseWrite tA 6#32) s0 (fun u => u.raw SYS_SRAM_USE.addr = writtenTo s0 tA SYS_SRAM_USE.addr 6#32) = true := by
  and_intros <;> decide +kernel

/-- The Glade has VDD and runs its firmware. -/
def gl (f : Glade → Glade) : State := { s0 with glade := f { s0.glade with powered := true, run := true } }
def sGl : State := gl id
/-- Channel 1 of the pulse counters in a mode, its inputs as they last stood. -/
def sGpc (m : Nat) (a b : Bool) : State := { sGl.fset (GPC_CFG.MODE 1) m with glade := { sGl.glade with gpc := setAt s0.glade.gpc 1 { a := a, b := b, count := 5 } } }
def snapMail : State := gl fun g => { g with box := setAt g.box 0 0x9#32 }
theorem wit_metrology : sGl.glade.gpc.length = 4 ∧ (sGpc 1 false false).fget (GPC_CFG.PRESC 1) = 0 ∧ s0.glade.powered = false ∧ s0.glade.run = false
    ∧ ok (.gpcEdge 1 true false) (sGpc 1 false false) (fun u => decide ((u.gpcGet 1).count = 6 ∧ bitOf u.coreG.edge 1 = true)) = true
    ∧ ok (.gpcEdge 1 true true) (sGpc 3 false false) (fun u => (u.gpcGet 1).count = 4) = true
    ∧ ok (.gpcEdge 1 true true) (sGpc 5 false false) (fun u => decide ((u.gpcGet 1).count = 5 ∧ u.fget (GPC_STAT.QERR 1) = 1)) = true
    ∧ ok (.gpcEdge 1 true false) (sGpc 5 false false) (fun u => (u.gpcGet 1).count = 6) = true
    ∧ ok (.gpcEdge 1 false true) (sGpc 5 false false) (fun u => (u.gpcGet 1).count = 4) = true
    ∧ ok (.gpcEdge 1 true false) s0 (fun u => u == s0) = true ∧ ok .gsecIncrement s0 (fun u => u == s0) = true
    ∧ ok .gsecIncrement (((sGpc 1 false false).fset (GPC_CFG.CAP_SEC 1) 1).fset GCORE_WDT_CFG.EN 1 |>.fset GCORE_WDT_CFG.CNT 9) (fun u => decide (u.glade.gsec = 1
        ∧ (u.gpcGet 1).cap = 5 ∧ u.fbit (GPC_STAT.VALID 1) = true ∧ u.fget GCORE_WDT_CFG.CNT = 8)) = true
    ∧ ok (.gpcCapture 1 0x20000#32) ((sGpc 0 false false).fset (GPC_STAT.VALID 1) 1) (fun u => decide ((u.gpcGet 1).cap = 5 ∧ u.fbit (GPC_STAT.OVR 1) = true)) = true
    ∧ ok (.gpcCapRead 1 false) { (sGpc 0 false false).fset (GPC_STAT.VALID 1) 1 with glade := { (sGpc 0 false false).glade with gpc := setAt s0.glade.gpc 1 { cap := 7 } } }
        (fun u => decide (u.glade.rd = 7 ∧ u.fbit (GPC_STAT.VALID 1) = false)) = true
    ∧ ok (.gcoreMbsrc 0x12347FFF#32) (gl fun g => g.setByte (gladeSram + 0x7FFC) 9) (fun u => decide (u.glade.copy.map (fun l => (l.length, l[0]?)) = some (64, some 9#32))) = true
    ∧ ok (.glogAppend 9#32) (gl fun g => { g with app0 := 0x180, app1 := 8 }) (fun u => decide (u.glade.logQ.map (fun e => (e.hw, e.w2, e.w3)) = [(false, 8, 9)]
        ∧ u.glade.logSeq = 1)) = true
    ∧ ok (.glogAppend 9#32) (gl fun g => { g with app0 := 0x17F }) (fun u => decide (u.glade.logQ = [] ∧ u.fbit GLOG_STAT.APP_REF = true)) = true
    ∧ ok (.gadcStart 0x200#32) sGl (fun u => decide (u.glade.adcRun = true ∧ u.fbit GADC_CFG.START = false)) = true
    ∧ ok (.gdspFrame 5#32) sGl (fun u => decide (u.fbit GCORE_DSP_CFG.BUSY = true ∧ u.glade.dspOut.getLast? = some true)) = true
    ∧ ok (.gdspFrame 5#32) (sGl.fset GCORE_DSP_CFG.BUSY 1) (fun u => decide (u.glade = sGl.glade ∧ u.fbit GCORE_DSP_CFG.OVF = true)) = true
    ∧ ok .mbCopyDone { snapMail with glade := { snapMail.glade with copy := some (List.replicate 64 3#32) } } (fun u => decide (u.glade.copy = none
        ∧ u.glade.box[1]? = some 3#32 ∧ (u.glade.box[0]?).map (fun w => w.toNat % 65536) = some 10)) = true
    ∧ MayRead snapMail .tanumA (GMB_MB.addr 0)
    ∧ ok (.mailboxWord0Read .tanumA false) snapMail (fun u => decide (u.bus.data = 9 ∧ u.snapOf .tanumA = snapMail.glade.box)) = true
    ∧ ok .glogWriteDone (gl fun g => { g with logQ := [⟨true, 7, 8, 9, 10⟩] }) (fun u => decide (u.glade.hwN = 1 ∧ u.glade.wordAt 0x38800 = 7)) = true
    ∧ ok .glogWriteDone (gl fun g => { g with ringNext := 1663, logQ := [⟨false, 7, 8, 9, 10⟩] }) (fun u => decide (u.glade.ringNext = 0
        ∧ u.glade.wordAt (0x39800 + 16 * 1663) = 7)) = true
    ∧ ok (.gadcResult 0x2001) { sGl.fset GADC_CFG.CONT 1 with glade := { sGl.glade with adcRun := true } } (fun u => decide (u.fget GADC_RES.DATA = 0xE001
        ∧ u.fbit GADC_RES.RDY = true ∧ u.glade.adcRun = true)) = true
    ∧ ok .gdspFrameDone (sGl.fset GCORE_DSP_CFG.BUSY 1) (fun u => decide (u.fbit GCORE_DSP_CFG.BUSY = false ∧ bitOf u.coreG.edge 8 = true)) = true := by
  and_intros <;> decide +kernel

/-- A maintenance session; no operation runs in it. -/
def sMaint : State := { gl (fun g => { g with run := false, session := true, sealOpen := true, token := true, grant := true, codeErased := true, parErased := true }) with hsp := { s0.hsp with routed := true } }
def routedTo (f : Glade → Glade) : State := { gl f with hsp := { s0.hsp with routed := true } }
theorem wit_lifecycle : sGl.glade.cnt.length = 5
    ∧ ok (.sealCheck false) (gl fun g => { g with sealBad := 1, sealOpen := false, sealKnown := true }) (fun u => decide (u.glade.sealOpen = true ∧ u.gCnt cSEAL = 1)) = true
    ∧ ok (.sealCheck true) (gl fun g => { g with sealGood := 3, sealOpen := true }) (fun u => decide (u.glade.sealOpen = false ∧ u.glade.sealKnown = true)) = true
    ∧ ok (.gladeTokenChange 9) (gl fun g => { g with token := true, grant := true }) (fun u => decide (u.glade.token = false ∧ u.glade.grant = false)) = true
    ∧ ok .grantChange (gl fun g => { g with sealOpen := true, token := true }) (fun u => u.glade.grant) = true
    ∧ ok .gladePowerOnReset s0 (fun u => decide (u.glade.powered = true ∧ u.glade.booting = true ∧ u.gCnt cPWR = 1 ∧ u.gCnt cRESET = 1)) = true
    ∧ ok .gladeWatchdogExpiry ((sGl.fset GCORE_WDT_CFG.EN 1).fset GCORE_WDT_CFG.CNT 0) (fun u => decide (u.glade.booting = true ∧ u.gCnt cRESET = 1)) = true
    ∧ ok (.gladeSelfReset 0xA5C3#32) sGl (fun u => decide (u.glade.booting = true ∧ u.glade.run = false)) = true
    ∧ ok (.gladeWdtEnable 0x103#32) sGl (fun u => decide (u.fbit GCORE_WDT_CFG.EN = true ∧ u.fget GCORE_WDT_CFG.TO = 3 ∧ u.fget GCORE_WDT_CFG.CNT = 3)) = true
    ∧ ok (.gladeWdtEnable 0x103#32) (sGl.fset GCORE_WDT_CFG.EN 1) (fun u => u == sGl.fset GCORE_WDT_CFG.EN 1) = true
    ∧ ok (.gladeWdtKick 0x3C96#32) ((sGl.fset GCORE_WDT_CFG.EN 1).fset GCORE_WDT_CFG.TO 1) (fun u => u.fget GCORE_WDT_CFG.CNT = 2) = true
    ∧ ok .gladeWdtWarning ((sGl.fset GCORE_WDT_CFG.EN 1).fset GCORE_WDT_CFG.CNT 1) (fun u => bitOf u.coreG.edge 11) = true
    ∧ ok .maintStatus (routedTo fun g => { g with sealOpen := true, token := true }) (fun u => decide (u.glade.session = true ∧ u.glade.run = false ∧ u.gCnt cMAINT = 1
        ∧ u.glade.reply.length = 4)) = true
    ∧ ok .maintStatus (routedTo fun g => { g with sealOpen := true }) (fun u => decide (u.glade.session = false ∧ u.gCnt cMAINT = 0)) = true
    ∧ ok (.maintErase 1) sMaint (fun u => decide (u.glade.op = some (.erase true) ∧ u.glade.imageBad = true ∧ u.gCnt cFWCHG = 1)) = true
    ∧ ok (.maintErase 2) sMaint (fun u => decide (u.glade.op = none ∧ u.glade.result = 3)) = true
    ∧ ok (.maintProg 0x33FF0 (List.replicate 16 5)) sMaint (fun u => decide (u.glade.op = some (.prog 0x33FF0 (List.replicate 16 5)))) = true
    ∧ sMaint.glade.hwUsed < 256
    ∧ ok .gladeBootDone (gl fun g => { g with booting := true, run := false, codeErased := true }) (fun u => decide (u.glade.noImage = true ∧ u.glade.run = false)) = true
    ∧ ok (.maintRead ⟨0x33FF0, true⟩) sMaint (fun u => decide (u.glade.dead = [0x33FF0] ∧ u.glade.logSeq = 1)) = true
    ∧ ok (.maintRead ⟨0x33FF0, false⟩) { sMaint with glade := sMaint.glade.setList 0x33FF0 (List.replicate 16 5) } (fun u => decide (u.glade.reply = List.replicate 16 5)) = true
    ∧ ok (.maintCommit (List.replicate 32 5)) sMaint (fun u => decide (u.glade.op = some (.commit (List.replicate 32 5)))) = true
    ∧ ok .maintExit sMaint (fun u => decide (u.glade.session = false ∧ u.glade.booting = true ∧ u.gCnt cRESET = 1)) = true
    ∧ ok .maintTimeout sMaint (fun u => decide (u.glade.session = false ∧ u.glade.booting = true ∧ u.glade.grant = false)) = true
    ∧ ok (.maintErase 1) { sMaint with glade := { sMaint.glade with op := some (.erase true) } } (fun u => u.glade.result = 1) = true
    ∧ ok (.maintOpDone true) { sMaint with glade := { sMaint.glade.setByte 0x30000 5 with op := some (.erase true) } } (fun u => decide (u.glade.op = none
        ∧ u.glade.byteAt 0x30000 = 0xFF)) = true := by
  and_intros <;> decide +kernel
/-- The ball went low at count 0, with the seal loop open; `grcSecond` is free, so the token is shown from its bounds. -/
def sLowBall : State := gl fun g => { g with sealOpen := true, presLow := some 0 }
theorem wit_glade_token : (sLowBall.advance (2 ^ 27)).gToken = true ∧ sLowBall.glade.token = false ∧ (sGl.advance 9).gToken = false := by
  have h : (sLowBall.advance (2 ^ 27)).glade.presLow = some 0 ∧ (sLowBall.advance (2 ^ 27)).now = 2 ^ 27 := by decide +kernel
  refine ⟨?_, rfl, by decide +kernel⟩
  unfold State.gToken
  rw [h.1, h.2]
  simp [grcSecond]
  omega
/-- The premises of the boot and of COMMIT: an image whose header holds is one of some digest; `booting` and the digest are free
to choose. -/
theorem wit_boot : ({ sGl with glade := { sGl.glade with booting := true } } : State).glade.booting = true
    ∧ ((((({ sGl.glade with codeErased := true } : Glade).setList 0 (leBytesN 4 0x47444C47)).setList 8 (leBytesN 4 16)).setList 12 (leBytesN 4 (crc32 [])))).headerOk = true := by
  and_intros <;> decide +kernel
/-! ## Tanum -/

/-- Both cores run from their RAM, each register pointing into it; the vectors of Tanum-A lie there too. -/
def regsFrom (a : Nat) : List Word := (List.range 15).map fun i => BitVec.ofNat 32 (a + 16 * i)
def sA : State := { s0.rsetN ICU_VBAR.addr 0x20003000 with coreA := { s0.coreA with w := regsFrom 0x20001000, ssp := 0x20002000, pc := 0x20000100 } }
def sG : State := { s0 with coreG := { s0.coreG with w := regsFrom 0x20001000, ssp := 0x20002000, pc := 0x20000100 },
                            glade := { s0.glade with powered := true, run := true, codeErased := true, parErased := true } }
def pswA (v : Word) (s : State) : State := { s with coreA := { s.coreA with psw := v } }
def wA (i : Nat) (v : Word) (s : State) : State := { s with coreA := { s.coreA with w := setAt s.coreA.w i v } }
/-- User mode, with a USP. -/
def sU : State := { sA with coreA := { sA.coreA with psw := 0x6800, usp := 0x20002800 } }

theorem plain_A : PlainSram sA := by constructor <;> decide +kernel
theorem ready_A : StackReady sA .a := by
  refine ⟨plain_A, by decide +kernel, ?_, fun _ => ?_⟩ <;> · unfold InRam; decide +kernel
theorem ready_U : StackReady sU .a := by
  refine ⟨by constructor <;> decide +kernel, by decide +kernel, ?_, fun _ => ?_⟩ <;> · unfold InRam; decide +kernel
theorem ready_G : StackReady sG .g := by
  refine ⟨trivial, by decide +kernel, ?_, fun h => nomatch h⟩; unfold InRam; decide +kernel

/-- A REPEAT prefix; a conditional one. -/
def rp (k : Byte) : Prefixes := { rep := some (.rep k) }
def rpi (k : Byte) : Prefixes := { rep := some (.repi k) }
def whenZ : Prefixes := { cond := some 0 }
/-- The interrupts of Tanum-A are open, and line 70 waits. -/
def sIrq : State := { ((sA.rsetN (ICU_EN.addr 2) (2 ^ 6))) with coreA := { sA.coreA with psw := 0x5800, edge := 2 ^ 6 } }
theorem wit_conditions : executesAt (.nop .a whenZ) sA = true ∧ sA.coreA.holds whenZ = false ∧ sA.coreA.user = false
    ∧ ok (.nop .a whenZ) sA (fun t => decide (t = sA.setCore .a (corePast sA.coreA 3))) = true
    ∧ executesAt (.add .a (rp 0) 1 (.imm8 5)) sA = true ∧ sA.coreA.repCount (.rep 0) = 0
    ∧ ok (.add .a (rp 0) 1 (.imm8 5)) sA (fun t => decide (t.coreA.reg 1 = sA.coreA.reg 1 ∧ t.coreA.rpc = 0 ∧ t.coreA.rp = false)) = true
    ∧ executesAt (.add .a (rp 200) 1 (.imm8 0xFE)) sA = true ∧ sA.coreA.rp = false ∧ sA.coreA.w.length = 15
    ∧ ok (.add .a (rp 200) 1 (.imm8 0xFE)) sA (fun t => decide (t.coreA.reg 1 = sA.coreA.reg 1 - 400 ∧ t.coreA.rpc = 0)) = true
    ∧ executesAt (.nop .a (rpi 9)) sIrq = true ∧ sIrq.lineWaits .a = true
    ∧ ok (.nop .a (rpi 9)) sIrq (fun t => decide (t.coreA.rpc = 8 ∧ t.coreA.rp = true ∧ t.coreA.pc = sIrq.coreA.pc)) = true
    ∧ executesAt (.nop .a (rpi 9)) { sA with coreA := { sA.coreA with rpc := 1, psw := 0x14800 } } = true
    ∧ ok (.nop .a (rpi 9)) { sA with coreA := { sA.coreA with rpc := 1, psw := 0x14800 } } (fun t => decide (t.coreA.rpc = 0 ∧ t.coreA.rp = false)) = true
    ∧ executesAt (.reti .a {}) sU = true ∧ executesAt (.wait .a {}) sU = true ∧ executesAt (.movsToSpecial .a {} 6 3) sU = true
    ∧ [Instr.reti .a {}, .wait .a {}, .movsToSpecial .a {} 6 3].all (fun i => ok i sU fun t => decide (t.coreA.ssp = 0x20001FF0
        ∧ coreBytes t .a 0x20001FFC 4 = 6 ∧ t.coreA.inFault = true ∧ t.coreA.user = false ∧ t.coreA.usp = 0x20002800)) = true := by
  and_intros <;> decide +kernel

def satP : Prefixes := { sat := true }
theorem wit_arithmetic : runs (.add .a {} 1 (.imm8 0xFF)) sA = true ∧ sA.coreA.openCount .add {} (.imm8 0xFF) = false
    ∧ ok (.add .a {} 1 (.imm8 0xFF)) (wA 1 0#32 sA) (fun t => decide (t.coreA.reg 1 = 0xFFFFFFFF ∧ t.coreA.flagN = true ∧ t.coreA.flagC = false)) = true
    ∧ ok (.sub .g {} 1 (.reg 2)) sG (fun t => decide (t.coreG.reg 1 = 0xFFFFFFF0 ∧ t.coreG.flagC = false ∧ t.coreG.flagN = true)) = true
    ∧ runs (.sub .g {} 1 (.reg 2)) sG = true
    ∧ runs (.add .a satP 1 (.imm32 1)) sA = true
    ∧ ok (.add .a satP 1 (.imm32 1)) (wA 1 0x1FFFF#32 sA) (fun t => decide (t.coreA.reg 1 = 0x1FFFF ∧ t.coreA.psw.getLsbD 4 = true)) = true
    ∧ ok (.add .a { width := some .w8z } 1 (.imm8 0x80)) (wA 1 0x12345680#32 sA) (fun t => decide (t.coreA.reg 1 = 0x12345600 ∧ t.coreA.flagZ = true
        ∧ t.coreA.flagC = true ∧ t.coreA.flagV = true)) = true
    ∧ sA.coreA.openCount .shl {} (.reg 2) = true ∧ runs (.shl .a {} 1 (.reg 2)) sA = true
    ∧ ok (.shl .a {} 1 (.imm8 31)) (wA 1 3#32 sA) (fun t => decide (t.coreA.reg 1 = 0x80000000 ∧ t.coreA.flagC = true)) = true
    ∧ runs (.bset .a {} 1 31) sA = true ∧ ok (.bset .a {} 1 31) (wA 1 0#32 sA) (fun t => t.coreA.reg 1 = 0x80000000) = true
    ∧ runs (.bclr .a {} 1 12) sA = true ∧ ok (.bclr .a {} 1 12) (wA 1 0x1000#32 sA) (fun t => t.coreA.reg 1 = 0) = true
    ∧ runs (.btst .a {} 1 12) sA = true ∧ ok (.btst .a {} 1 12) (wA 1 0x1000#32 sA) (fun t => t.coreA.flagZ = false) = true
    ∧ runs (.clz .a {} 1 2) sA = true ∧ ok (.clz .a {} 1 2) (wA 2 1#32 sA) (fun t => t.coreA.reg 1 = 31) = true
    ∧ ok (.clz .a {} 1 2) (wA 2 0#32 sA) (fun t => t.coreA.reg 1 = 32) = true := by
  and_intros <;> decide +kernel

/-- After an instruction, one multiplier operation lands. -/
def landed (i : Instr) (c : CoreId) (s : State) (p : State → Bool) : Bool := ok i s fun t => ok (.multiplyLands c) t p
theorem wit_multiplier : runs (.muls .a {} 1 2) sA = true ∧ runs (.mulu .a {} 1 2) sA = true ∧ runs (.mul32s .g {} 1 2) sG = true
    ∧ runs (.mul32u .g {} 1 2) sG = true ∧ runs (.macs .a satP 1 2) sA = true ∧ runs (.macu .a {} 1 2) sA = true ∧ runs (.clracc .a {}) sA = true
    ∧ landed (.muls .a {} 1 2) .a (wA 1 0x3FFFF#32 (wA 2 5#32 sA)) (fun t => decide (t.coreA.prl = 0xFFFFFFFB ∧ t.coreA.prh = 0xFFFFFFFF)) = true
    ∧ landed (.mulu .a {} 1 2) .a (wA 1 0x3FFFF#32 (wA 2 5#32 sA)) (fun t => decide (t.coreA.prl = 0x13FFFB ∧ t.coreA.prh = 0)) = true
    ∧ landed (.mul32u .a {} 1 2) .a (wA 1 0xFFFFFFFF#32 (wA 2 2#32 sA)) (fun t => decide (t.coreA.prl = 0xFFFFFFFE ∧ t.coreA.prh = 1)) = true
    ∧ landed (.macs .a satP 1 2) .a (wA 1 1#32 (wA 2 1#32 { sA with coreA := { sA.coreA with pacc := 0x7FFFFFFFFFFF } })) (fun t =>
        decide (t.coreA.pacc = 0x7FFFFFFFFFFF ∧ t.coreA.psw.getLsbD 4 = true)) = true
    ∧ landed (.macu .a {} 1 2) .a (wA 1 1#32 (wA 2 1#32 { sA with coreA := { sA.coreA with pacc := 0x7FFFFFFFFFFF } })) (fun t => t.coreA.pacc = 0x800000000000) = true
    ∧ landed (.clracc .a {}) .a { sA with coreA := { sA.coreA with pacc := 9 } } (fun t => t.coreA.pacc = 0) = true
    ∧ ((List.finRange 16).filter (·.val < 8)).all (fun k => runs (.movsFromSpecial .a {} 1 k) sA) = true
    ∧ ok (.movsFromSpecial .a {} 1 4) { sA with coreA := { sA.coreA with pacc := 0x800000000000 } } (fun t => t.coreA.reg 1 = 0xFFFF8000) = true
    ∧ ok (.movsFromSpecial .a {} 1 0) sA (fun t => t.coreA.reg 1 = 0x4800) = true
    ∧ ((List.finRange 16).filter (·.val < 8)).all (fun k => runs (.movsToSpecial .a {} k 1) sA) = true ∧ runs (.movsToSpecial .a {} 0 1) sU = true
    ∧ ok (.movsToSpecial .a {} 0 1) (wA 1 0xFFFFFFFF#32 sA) (fun t => t.coreA.psw = 0x1FF1F) = true
    ∧ ok (.movsToSpecial .a {} 0 1) (wA 1 0xFFFFFFFF#32 sU) (fun t => t.coreA.psw = 0x681F) = true
    ∧ ok (.movsToSpecial .a {} 5 1) sA (fun t => t.coreA.rpc = 0x20001010) = true
    ∧ ok (.movsToSpecial .a {} 6 1) sA (fun t => t.coreA.ssp = 0x20001010) = true
    ∧ ok (.movsToSpecial .a {} 7 1) sA (fun t => t.coreA.usp = 0x20001010) = true
    ∧ landed (.movsToSpecial .a {} 3 1) .a { sA with coreA := { sA.coreA with pacc := 0x7FFFFFFFFFFF } } (fun t => t.coreA.pacc = 0x7FFF20001010) = true := by
  and_intros <;> decide +kernel

def memA : State := { sA.setBytes 0x20001010 4 0x8081FF82 with memst := sA.memst }
theorem plain_memA : PlainSram memA := by constructor <;> decide +kernel
theorem inRam_examples : InRam .a 0x20001010 4 ∧ InRam .a 0x2017FFFF 1 ∧ InRam .g 0x20007FFC 4 := by unfold InRam; decide +kernel
theorem wit_memory : runs (.ld .a { width := some .w8s } 3 (.disp8 1 1)) memA = true
    ∧ ok (.ld .a { width := some .w8s } 3 (.disp8 1 1)) memA (fun t => decide (t = memA.setCore .a (corePast (memA.coreA.setReg 3 0xFFFFFFFF) 5))) = true
    ∧ runs (.ld .a { width := some .w16z } 3 (.postInc 1)) memA = true
    ∧ ok (.ld .a { width := some .w16z } 3 (.postInc 1)) memA (fun t => decide (t.coreA.reg 3 = 0xFF82 ∧ t.coreA.reg 1 = 0x20001012)) = true
    ∧ runs (.st .a { width := some .w8z } 3 (.preDec 1)) memA = true
    ∧ ok (.st .a { width := some .w8z } 3 (.preDec 1)) memA (fun t => decide (t.byteAt 0x2000100F = 0x30 ∧ t.byteAt 0x20001010 = 0x82 ∧ t.coreA.reg 1 = 0x2000100F)) = true
    ∧ runs (.st .g {} 3 (.base 1)) sG = true
    ∧ ok (.st .g {} 3 (.base 1)) sG (fun t => decide (coreBytes t .g 0x20001010 4 = 0x20001030)) = true
    ∧ runs (.push .a {} 3) memA = true ∧ ok (.push .a {} 3) memA (fun t => decide (t.coreA.ssp = 0x20001FFC ∧ coreBytes t .a 0x20001FFC 4 = 0x20001030)) = true
    ∧ runs (.pop .a {} 3) memA = true
    ∧ ok (.pop .a {} 3) { memA with coreA := { memA.coreA with ssp := 0x20001010 } } (fun t => decide (t.coreA.ssp = 0x20001014 ∧ t.coreA.reg 3 = 0x8081FF82)) = true
    ∧ runs (.lea .a {} 3 1 0x8000) memA = true ∧ ok (.lea .a {} 3 1 0x8000) memA (fun t => t.coreA.reg 3 = 0x1FFF9010) = true
    ∧ runs (.cpy .a {}) (wA 0 0x20001010#32 (wA 1 0x20001100#32 memA)) = true
    ∧ ok (.cpy .a {}) (wA 0 0x20001010#32 (wA 1 0x20001100#32 memA)) (fun t => decide (coreBytes t .a 0x20001100 4 = 0x8081FF82 ∧ t.coreA.reg 0 = 0x20001014
        ∧ t.coreA.reg 1 = 0x20001104)) = true
    ∧ runs (.fill .g {}) sG = true ∧ ok (.fill .g {}) sG (fun t => decide (coreBytes t .g 0x20001010 4 = 0x20001020)) = true
    ∧ runs (.scan .a { width := some .w8z }) (wA 0 0x20001010#32 (wA 2 0x82#32 memA)) = true
    ∧ ok (.scan .a { width := some .w8z }) (wA 0 0x20001010#32 (wA 2 0x82#32 memA)) (fun t => decide (t.coreA.flagZ = true ∧ t.coreA.reg 0 = 0x20001011)) = true
    ∧ runs (.macsm .a { width := some .w8s }) (wA 0 0x20001010#32 (wA 1 0x20001011#32 memA)) = true
    ∧ landed (.macsm .a { width := some .w8s }) .a (wA 0 0x20001010#32 (wA 1 0x20001011#32 memA)) (fun t => t.coreA.pacc = 126) = true
    ∧ runs (.macum .a { width := some .w8z }) (wA 0 0x20001010#32 (wA 1 0x20001011#32 memA)) = true
    ∧ executesAt (.fill .g (rp 3)) sG = true ∧ sG.coreG.rp = false
    ∧ ok (.fill .g (rp 3)) sG (fun t => decide (t.glade.wordAt 0x20001018 = 0x20001020 ∧ t.glade.byteAt 0x2000101C = sG.glade.byteAt 0x2000101C
        ∧ t.coreG.reg 1 = 0x2000101C)) = true := by
  and_intros <;> decide +kernel

/-- A stack frame for RETI: it leads to 0x20000200 in user mode, from line 70. -/
def sFrameA : State := ((((sA.setBytes 0x20002000 4 0x20000200).setBytes 0x20002004 4 0x6805).setBytes 0x20002008 4 7).setBytes 0x2000200C 4 102).rsetN (ICU_ACT.addr 2) (2 ^ 6)
theorem wit_control : (sA.coreA.w.length = 15) ∧ runs (.br .a {} (.d8 0x80)) sA = true
    ∧ ok (.br .a {} (.d8 0x80)) sA (fun t => t.coreA.pc = 0x20000082) = true
    ∧ runs (.br .g {} (.d16 0x7FFF)) sG = true ∧ ok (.br .g {} (.d16 0x7FFF)) sG (fun t => t.coreG.pc = 0x20008102) = true
    ∧ runs (.call .a {} (.d16 0x10)) sA = true ∧ ok (.call .a {} (.d16 0x10)) sA (fun t => decide (t.coreA.pc = 0x20000113 ∧ t.coreA.reg 14 = 0x20000103)) = true
    ∧ runs (.call .a {} (.d32 0xFFFFFFFB)) sA = true ∧ ok (.call .a {} (.d32 0xFFFFFFFB)) sA (fun t => decide (t.coreA.pc = 0x20000100 ∧ t.coreA.reg 14 = 0x20000105)) = true
    ∧ runs (.jmp .a {} 3) sA = true ∧ ok (.jmp .a {} 3) (wA 3 0x20000301#32 sA) (fun t => t.coreA.pc = 0x20000300) = true
    ∧ runs (.callr .a {} 3) sA = true ∧ ok (.callr .a {} 3) sA (fun t => decide (t.coreA.pc = 0x20001030 ∧ t.coreA.reg 14 = 0x20000102)) = true
    ∧ runs (.dbnz .a {} 3 0xF0) sA = true ∧ ok (.dbnz .a {} 3 0xF0) (wA 3 1#32 sA) (fun t => decide (t.coreA.pc = 0x20000103 ∧ t.coreA.reg 3 = 0)) = true
    ∧ ok (.dbnz .a {} 3 0xF0) (wA 3 0#32 sA) (fun t => decide (t.coreA.pc = 0x200000F3 ∧ t.coreA.reg 3 = 0xFFFFFFFF)) = true
    ∧ runs (.ret .a {}) sA = true ∧ ok (.ret .a {}) sA (fun t => t.coreA.pc = 0x200010E0) = true
    ∧ runs (.nop .a {}) sA = true ∧ runs (.sync .a {}) sA = true ∧ runs (.wait .g {}) sG = true
    ∧ ok (.wait .g {}) sG (fun t => decide (t.coreG.waiting = true ∧ t.coreG.pc = 0x20000101)) = true
    ∧ runs (.wait .a {}) sIrq = true ∧ sIrq.irqActs sIrq.pwrTarget = true ∧ ok (.wait .a {}) sIrq (fun t => t.coreA.waiting = false) = true
    ∧ ok (.wait .a {}) { sA.rsetN PWR_WAKE_EN.addr 63 with pwr := { s0.pwr with wakePend := 63 } } (fun t => decide (t.coreA.waiting = false
        ∧ t.pwr.wakePend < 63)) = true
    ∧ ok (.wait .a {}) { sA with sys := { s0.sys with st := .run } } (fun t => decide (t.coreA.waiting = true ∧ t.pwr.st = .doze)) = true
    ∧ sA.entryCause .doze = 1 ∧ ok (.wait .a {}) sA (fun t => decide (t.coreA.waiting = false ∧ t.fbit PWR_STAT.REFUSED = true ∧ t.fget PWR_STAT.CAUSE = 1)) = true
    ∧ runs (.svc .a {} 7) sU = true ∧ ok (.svc .a {} 7) sU (fun t => decide (coreBytes t .a 0x20001FF0 4 = 0x20000102 ∧ coreBytes t .a 0x20001FFC 4 = 8
        ∧ t.coreA.user = false ∧ t.coreA.inFault = false)) = true
    ∧ runs (.reti .a {}) sFrameA = true
    ∧ ok (.reti .a {}) sFrameA (fun t => decide (t.coreA.pc = 0x20000200 ∧ t.coreA.psw = 0x6805 ∧ t.coreA.rpc = 7 ∧ t.coreA.ssp = 0x20002010
        ∧ bitOf (t.raw (ICU_ACT.addr 2)) 6 = false)) = true := by
  and_intros <;> decide +kernel

theorem ready_irq : StackReady sIrq .a := by
  refine ⟨by constructor <;> decide +kernel, by decide +kernel, ?_, fun _ => ?_⟩ <;> · unfold InRam; decide +kernel
def sHalted : State := { sA.fset DBG_REG_IDX.IDX 3 with coreA := { sA.coreA with halted := true }, sys := { s0.sys with dbgUnlocked := true } }
def dbg : Acc := ⟨.debug, .base⟩
def sBp (act : Nat) : State := ((sA.fset (DBG_BP_CFG.EN 2) 1).fset (DBG_BP_CFG.ACT 2) act).rsetN (DBG_BP_ADDR.addr 2) 0x20000100
theorem ready_bp : StackReady (sBp 1) .a := by
  refine ⟨by constructor <;> decide +kernel, by decide +kernel, ?_, fun _ => ?_⟩ <;> · unfold InRam; decide +kernel
/-- Lines of the Glade: 9 waits, enabled and above PRI. -/
def sGLine : State := { sG.rsetN GCORE_IEN.addr (2 ^ 9) with coreG := { sG.coreG with psw := 0x1800, edge := 2 ^ 9 } }
/-- What fetching some bytes ends in: the vector and the address of a fault. -/
def fetches (s : State) (c : CoreId) (n : Nat) : Option (Nat × Nat) := match s.fetch c n with | .fault f _ => some (f.vec, f.far) | _ => none
/-- Tanum-G two bytes before the end of its RAM; Tanum-A at a hole. -/
def sEndG : State := { sG with coreG := { sG.coreG with pc := 0x20007FFE } }
def sHoleA : State := { sA with coreA := { sA.coreA with pc := 0x28000000 } }
theorem ready_hole : StackReady sHoleA .a := by
  refine ⟨by constructor <;> decide +kernel, by decide +kernel, ?_, fun _ => ?_⟩ <;> · unfold InRam; decide +kernel
theorem ready_end : StackReady sEndG .g := by
  refine ⟨trivial, by decide +kernel, ?_, fun h => nomatch h⟩; unfold InRam; decide +kernel
theorem wit_exceptions : sA.coreRuns .a = true ∧ sG.coreRuns .g = true ∧ illegalBytes [0x06#8] = true ∧ sA.bpStops .a = none
    ∧ ok (.illegalEncoding .a [0x06#8]) sA (fun t => decide (coreBytes t .a 0x20001FFC 4 = 5 ∧ t.coreA.inFault = true ∧ t.raw CORE_FAR.addr = 0x20000100)) = true
    ∧ illegalAt [0x06#8] = some 1 ∧ fetches sA .a 1 = none ∧ fetches sEndG .g 2 = none ∧ fetches sEndG .g 4 = some (1, 0x20008000)
    ∧ ok (.fetchBusError .g 3) sEndG (fun t => decide (coreBytes t .g 0x20001FFC 4 = 1 ∧ t.coreG.inFault = true)) = true
    ∧ ok (.fetchBusError .g 1) sEndG (fun t => t == sEndG) = true ∧ fetches sHoleA .a 4 = some (1, 0x28000000)
    ∧ ok (.fetchBusError .a 3) sHoleA (fun t => decide (coreBytes t .a 0x20001FFC 4 = 1 ∧ t.raw CORE_FAR.addr = 0x28000000)) = true
    ∧ sHoleA.bpMatch = none
    ∧ runs (.ld .a {} 3 (.base 1)) (wA 1 0x28000000#32 sA) = true ∧ regionOf 0x28000000 = .hole
    ∧ ok (.ld .a {} 3 (.base 1)) (wA 1 0x28000000#32 sA) (fun t => decide (coreBytes t .a 0x20001FFC 4 = 2 ∧ t.raw CORE_FAR.addr = 0x28000000)) = true
    ∧ ok (.fetchBusError .a 3) { pswA 0xC800 sHoleA with flash := { s0.flash with op := some ⟨1, 0, [], false⟩ } } (fun t => decide (t.sys.warm = true
        ∧ bitOf (t.raw SYS_RSTCAUSE.addr) 8 = true)) = true
    ∧ sIrq.coreRuns .a = true ∧ sIrq.irqTaken = some 70 ∧ sIrq.flashStalls 70 = false ∧ sA.lineWaits .a = false
    ∧ ok (.exceptionEntry .a) sIrq (fun t => decide (coreBytes t .a 0x20001FFC 4 = 102 ∧ t.coreA.pri = 7 ∧ t.coreA.ie = true
        ∧ bitOf (t.raw (ICU_ACT.addr 2)) 6 = true ∧ t.coreA.edge = 0)) = true
    ∧ sGLine.coreRuns .g = true ∧ sGLine.gTaken = some 9
    ∧ ok (.exceptionEntry .g) sGLine (fun t => decide (coreBytes t .g 0x20001FFC 4 = 25 ∧ bitOf (t.raw GCORE_IACT.addr) 9 = true)) = true
    ∧ ok (.exceptionEntry .a) sA (fun t => t == sA) = true
    ∧ ok (.cacheInv 0x20000110#32) { sA with caches := { ic := [⟨0x20000100, [], false⟩, ⟨0x20000120, [], false⟩] } } (fun t => decide (t.caches.ic = [⟨0x20000120, [], false⟩])) = true
    ∧ ok (.icacheInvalidateAll 4#32) { sA with caches := { ic := [⟨0x20000100, [], false⟩], dc := [⟨0x20000120, [], false⟩] } } (fun t => decide (t.caches.ic = []
        ∧ t.caches.dc.length = 1 ∧ t.caches.inv = true)) = true
    ∧ ok (.dcacheInvalidateAll 8#32) { sA with caches := { ic := [⟨0x20000100, [], false⟩], dc := [⟨0x20000120, [], false⟩] } } (fun t => decide (t.caches.dc = [])) = true
    ∧ ok .invalidationDone { sA with caches := { inv := true } } (fun t => t.caches.inv = false) = true
    ∧ Accepted sHalted dbg DBG_RUN.addr ∧ Accepted sHalted dbg DBG_REG_DATA.addr ∧ MayRead sHalted .debug DBG_REG_DATA.addr ∧ NothingOwed sHalted
    ∧ ok (.dbgHalt .debug) { sHalted with coreA := sA.coreA } (fun t => t.coreA.halted) = true
    ∧ ok (.dbgResume .debug) sHalted (fun t => t.coreA.halted = false) = true
    ∧ ok (.dbgStep .debug) sHalted (fun t => t.coreA.stepping) = true
    ∧ ok (.dbgRegDataAccess dbg (some 77#32)) sHalted (fun t => t.coreA.reg 3 = 77) = true
    ∧ ok (.dbgRegDataAccess dbg none) sHalted (fun t => t.bus.data = 0x20001030) = true
    ∧ ok (.dbgRegDataAccess dbg none) (sHalted.fset DBG_REG_IDX.IDX 24) (fun t => t.bus.data = 0x20000100) = true
    ∧ (sBp 0).bpMatch = some 2 ∧ (sBp 1).bpMatch = some 2
    ∧ ok (.breakpointMatch 2) (sBp 0) (fun t => decide (t.coreA.halted = true ∧ t.fbit DBG_STAT.BKPT = true ∧ t.fget DBG_STAT.BKPT_IDX = 2)) = true
    ∧ ok (.breakpointMatch 2) (sBp 1) (fun t => decide (coreBytes t .a 0x20001FFC 4 = 10 ∧ t.coreA.halted = false)) = true := by
  and_intros <;> decide +kernel
/-! ## Flash, cipher, update -/

/-- The flash controller is enabled, at a stage of the command sequence. -/
def sFlc (f : FlashState → FlashState) : State := { s0.fset FLC_CTRL.EN 1 with flash := f s0.flash }
def atCmd (c st a : Nat) : State := sFlc fun f => { f with stage := st, cmd := c, addr := a }
def lastWord (a : Nat) : State := sFlc fun f => { f with stage := 4, cmd := 1, addr := a, data := List.replicate 511 7#32 }
def flOp (o : FlashOp) : State := sFlc fun f => { f with op := some o }
theorem wit_flash : Accepted (sFlc id) tA FLC_KEY.addr ∧ Accepted (sFlc id) tA FLC_ADDR.addr ∧ Accepted (sFlc id) tA FLC_DATA.addr
    ∧ Accepted (sFlc id) tA FLC_CMD.addr ∧ Accepted (sFlc id) tA FLC_WP_LO.addr ∧ Accepted (sFlc id) tA FLC_WP_HI.addr ∧ Accepted (sFlc id) tA FLC_CTRL.addr
    ∧ (sFlc id).updBusy = false
    ∧ ok (.flcKeyWrite .tanumA 0x7B3A#32) (sFlc id) (fun u => u.flash.stage = 1) = true
    ∧ ok (.flcKeyWrite .tanumA 0xE41D#32) (atCmd 0 1 0) (fun u => u.flash.stage = 2) = true
    ∧ ok (.flcKeyWrite .tanumA 0xE41D#32) (sFlc fun f => { f with wrong := 2 }) (fun u => decide (u.flash.stage = 0 ∧ u.flash.wrong = 3
        ∧ u.fbit FLC_STAT.KEY_LOCK = true ∧ u.fget FLC_STAT.CAUSE = 2)) = true
    ∧ ok (.flcKeyWrite .tanumA 0x7B3A#32) ((sFlc id).fset FLC_STAT.KEY_LOCK 1) (fun u => decide (u.flash.stage = 0 ∧ u.fget FLC_STAT.CAUSE = 2)) = true
    ∧ ok (.eraseBlk .tanumA 0x20010#32) (atCmd 2 3 0) (fun u => decide (u.flash.op = some ⟨2, 0x20010, [], false⟩ ∧ u.fget FLC_OPMARK.BLOCK = 1
        ∧ u.fbit FLC_OPMARK.DONE = false)) = true
    ∧ ok (.eraseBlk .tanumA 0#32) { atCmd 2 3 0 with flash := { (atCmd 2 3 0).flash with op := some ⟨1, 0, [], false⟩ } } (fun u => u.fget FLC_STAT.CAUSE = 7) = true
    ∧ ok (.eraseBlk .tanumA 0#32) ((atCmd 2 3 0).rsetN FLC_WP_LO.addr 1) (fun u => u.fget FLC_STAT.CAUSE = 4) = true
    ∧ ok (.eraseBlk .tanumA 0#32) (atCmd 2 2 0) (fun u => u.fget FLC_STAT.CAUSE = 1) = true
    ∧ ok (.prog .tanumA 9#32) (atCmd 1 4 0x800) (fun u => u.flash.data = [9#32]) = true
    ∧ ((lastWord 0x800).inWindow 0x800 = true ∧ (lastWord 0x800).pageErased 0x800 = true ∧ (lastWord 0x800).blockWp 0 = false)
    ∧ ((lastWord 0x800).rsetN FLC_MODE_LO.addr 1).blockSlc 0 = true
    ∧ ok (.prog .tanumA 9#32) ((lastWord 0x800).rsetN FLC_MODE_LO.addr 1) (fun u => decide (u.flash.op.map (fun o => (o.cmd, o.addr, o.data.length)) = some (1, 0x800, 512)
        ∧ u.fget FLC_OPMARK.PAGE = 1)) = true
    ∧ ok (.prog .tanumA 9#32) (lastWord 0x804) (fun u => u.fget FLC_STAT.CAUSE = 3) = true
    ∧ ok (.prog .tanumA 9#32) ((lastWord 0x800).rsetN FLC_WP_LO.addr 1) (fun u => u.fget FLC_STAT.CAUSE = 4) = true
    ∧ ok (.prog .tanumA 9#32) ((lastWord 0x800).setByte 0xFFF 0) (fun u => u.fget FLC_STAT.CAUSE = 5) = true
    ∧ ok (.setSlc .tanumA 1#32) (atCmd 5 4 0) (fun u => u.flash.op = some ⟨5, 0, [1#32], false⟩) = true
    ∧ ok (.marginRd .tanumA 1#32) (atCmd 6 4 0x800) (fun u => u.flash.op = some ⟨6, 0x800, [1#32], false⟩) = true
    ∧ ok (.suspend .tanumA) (flOp ⟨2, 0, [], false⟩) (fun u => u.flash.suspReq) = true
    ∧ ok (.suspend .tanumA) (sFlc id) (fun u => u.fget FLC_STAT.CAUSE = 8) = true
    ∧ ok (.flcResume .tanumA) (sFlc fun f => { f with susp := some ⟨2, 0, [], false⟩ }) (fun u => decide (u.flash.op.isSome = true ∧ u.flash.susp = none)) = true
    ∧ ok (.flcResume .tanumA) (sFlc id) (fun u => u.fget FLC_STAT.CAUSE = 8) = true
    ∧ ok (.clrStat .tanumA) ((sFlc id).fset FLC_STAT.UNCORR 1) (fun u => u.fget FLC_STAT.UNCORR = 0) = true
    ∧ ok .eraseSuspended (sFlc fun f => { f with op := some ⟨2, 0, [], false⟩, suspReq := true }) (fun u => decide (u.flash.susp.isSome = true ∧ u.flash.op = none)) = true
    ∧ ok (.flcWpWrite tA true 0x80#32) (sFlc id) (fun u => u.rget FLC_WP_HI.addr = 0x80) = true
    ∧ ok (.flcDisable tA 0#32) (flOp ⟨1, 0, [], false⟩) (fun u => decide (u.fbit FLC_CTRL.EN = true ∧ u.fbit FLC_STAT.EN_REFUSED = true)) = true
    ∧ ok (.flcDisable tA 0#32) (sFlc id) (fun u => u.fbit FLC_CTRL.EN = false) = true := by
  and_intros <;> decide +kernel

theorem wit_flash_operations : NothingOwed (flOp ⟨2, 0x20000, [], false⟩)
    ∧ ok (.flashOpDone true 0 0 false) ((flOp ⟨2, 0x20000, [], false⟩).setByte 0x3FFFF 0) (fun u => decide (u.flash.op = none ∧ u.byteAt 0x3FFFF = 0xFF
        ∧ u.fbit FLC_OPMARK.DONE = true ∧ u.fget (INT_RAW.bit Pg.FLC 0) = 1)) = true
    ∧ ok (.flashOpDone true 0 0 false) (flOp ⟨5, 0x20000, [1#32], false⟩) (fun u => decide (u.blockSlc 1 = true ∧ u.blockSlc 0 = (flOp ⟨5, 0, [], false⟩).blockSlc 0)) = true
    ∧ ok (.flashOpDone false 0 0 false) (flOp ⟨2, 0x20000, [], false⟩) (fun u => decide (u.fbit FLC_STAT.ERASE_FAIL = true ∧ 64 ∈ u.flash.indet ∧ 127 ∈ u.flash.indet
        ∧ 128 ∉ u.flash.indet)) = true
    ∧ ok (.flashOpDone true 24 0 false) (flOp ⟨1, 0x800, [7#32, 9#32], false⟩) (fun u => decide (u.wordAt 0x804 = 9 ∧ u.byteAt 0x808 = 0xFF
        ∧ u.fget FLC_LASTPULSE.PULSES = 24 ∧ u.fbit FLC_STAT.WEAR = true)) = true
    ∧ ok (.flashOpDone false 24 0 false) (flOp ⟨1, 0x800, [7#32], false⟩) (fun u => decide (u.fbit FLC_STAT.PROG_FAIL = true ∧ 1 ∈ u.flash.indet)) = true
    ∧ ok (.flashOpDone true 0 300 true) { flOp ⟨6, 0x800, [4#32], false⟩ with flash := { (flOp ⟨6, 0x800, [4#32], false⟩).flash with lines := [(0x80, 2), (0x9F, 3), (0x100, 1)] } }
        (fun u => decide (u.fget FLC_MARGIN.CORR = 2 ∧ u.fbit FLC_MARGIN.UNC = true ∧ u.fget FLC_MARGIN.LEVEL = 0)) = true
    ∧ (flOp ⟨2, 0, [], false⟩).upd.stop = false ∧ (flOp ⟨2, 0, [], false⟩).upd.accept = false
    ∧ ok (.flashOpDone true 0 300 true) (flOp ⟨6, 0x800, [2#32], false⟩) (fun u => decide (u.fget FLC_MARGIN.CORR = 256 ∧ u.fget FLC_MARGIN.UNC = 1
        ∧ u.fget FLC_MARGIN.LEVEL = 2)) = true
    ∧ ok (.flashOpDone true 0 0 false) (sFlc id) (fun u => u == sFlc id) = true := by
  and_intros <;> decide +kernel

/-- Slot 3 is selected, with a valid key of CIPU1; its new words are staged. -/
def key3 : KeySlot := { key := List.replicate 16 0x5A, valid := true, pgmask := 2, limit := 9, txFc := 7, uses := 1, gen := 4 }
def sKey : State := { s0.fset CIPH_KEY_IDX.SLOT 3 with keys := setAt s0.keys 3 key3 }
def stagedAll : State := { sKey with staged := [(0, 1#32), (1, 2#32), (2, 3#32), (3, 4#32)] }
theorem wit_keys : Accepted s0 tA CIPH_KEY_IDX.addr ∧ Accepted sKey tA CIPH_KEY_CMD.addr ∧ sKey.keys.length = 32 ∧ sKey.fget CIPH_KEY_IDX.SLOT = 3
    ∧ sKey.fbit CIPH_KEY_ATTR.SIZE = false ∧ (List.range 4).all (fun i => stagedAll.stagedWord i == [1#32, 2#32, 3#32, 4#32][i]?) = true
    ∧ ok (.ciphKeyIdxWrite tA 3#32) { sKey with regs := s0.regs } (fun u => decide (u.fget CIPH_KEY_IDX.SLOT = 3 ∧ u.fget CIPH_KEY_ATTR.PGMASK = 2
        ∧ u.raw CIPH_KEY_LIMIT.addr = 9 ∧ u.raw CIPH_KEY_FC.addr = 7)) = true
    ∧ ok (.keyCommit .tanumA) (stagedAll.rsetN CIPH_KEY_LIMIT.addr 5) (fun u => decide ((u.keySlot 3).key = [1, 0, 0, 0, 2, 0, 0, 0, 3, 0, 0, 0, 4, 0, 0, 0]
        ∧ (u.keySlot 3).limit = 5 ∧ (u.keySlot 3).gen = 5 ∧ (u.keySlot 3).uses = 0 ∧ u.staged = [])) = true
    ∧ ok (.keyCommit .tanumA) { stagedAll with staged := [(0, 1#32)] } (fun u => decide (u.keySlot 3 = key3 ∧ u.fget CIPH_ERRINFO.CAUSE = 1
        ∧ u.fget CIPH_ERRINFO.SLOT = 3)) = true
    ∧ ok (.keyAttr .tanumA) (sKey.fset CIPH_KEY_ATTR.PGMASK 0x81) (fun u => decide ((u.keySlot 3).pgmask = 0x81 ∧ (u.keySlot 3).key = key3.key)) = true
    ∧ ok (.keyAttr .tanumA) (sKey.fset CIPH_KEY_ATTR.SIZE 1) (fun u => decide (u.keySlot 3 = key3 ∧ u.fget CIPH_ERRINFO.CAUSE = 4)) = true
    ∧ ok (.keyFc .tanumA) (sKey.rsetN CIPH_KEY_FC.addr 7) (fun u => u.keySlot 3 = { key3 with txFc := 7 }) = true
    ∧ ok (.keyFc .tanumA) (sKey.rsetN CIPH_KEY_FC.addr 6) (fun u => decide (u.keySlot 3 = key3 ∧ u.fget CIPH_ERRINFO.CAUSE = 2 ∧ u.fbit CIPH_STAT.FC_REFUSED = true)) = true
    ∧ ok (.keyErase .tanumA) sKey (fun u => u.keySlot 3 = { gen := 5 }) = true
    ∧ ok (.zeroise .tanumA) sKey (fun u => decide (u.keyValid = 0 ∧ u.prot.seq = 1 ∧ (u.keySlot 3).key = [])) = true := by
  and_intros <;> decide +kernel

/-- CIPU1 is enabled for CMAC under slot 3; a job works. -/
def sCip : State := ((sKey.fset (CIPU_CTRL.EN 1) 1).fset (CIPU_CFG.KEY 1) 3).fset (CIPU_CFG.MODE 1) 5 |>.rsetN (CIPU_MLEN.addr 1) 32
def jobOf (m : Nat) : CipJob := { mode := m, dec := false, chk := true, derive := false, slot := 3, key := List.replicate 16 0x5A, tagLen := 16, aLen := 0, mLen := 32, dslot := 0, iv := [], expect := [] }
def working (c : Cipu) : State := { sCip with cipu := setAt s0.cipu 1 c }
theorem wit_cipher : sCip.cipu.length = 8 ∧ Accepted sCip tA (CIPU_CMD.addr 1) ∧ Accepted sCip tA (CIPU_DIN.addr 1) ∧ MayRead sCip .tanumA (CIPU_DOUT.addr 1)
    ∧ sCip.startCause 1 (sCip.sourceOf .tanumA).sec = 0
    ∧ ok (.cipuStart .tanumA 1) sCip (fun u => decide ((u.cipuGet 1).job.map (fun j => (j.mode, j.mLen, j.key)) = some (5, 32, key3.key)
        ∧ u.fget (CIPU_STAT.STATE 1) = 2)) = true
    ∧ ok (.cipuStart .tanumA 1) (sCip.fset (CIPU_CTRL.EN 1) 0) (fun u => decide (u.fget (CIPU_ERRINFO.CAUSE 1) = 8 ∧ u.fbit (CIPU_STAT.ERR 1) = true)) = true
    ∧ ok (.cipuStart .tanumA 1) (working { job := some (jobOf 5) }) (fun u => u.fget (CIPU_ERRINFO.CAUSE 1) = 9) = true
    ∧ ok (.cipuStart .tanumA 1) (sCip.fset (CIPU_CFG.MODE 1) 0) (fun u => u.fget (CIPU_ERRINFO.CAUSE 1) = 6) = true
    ∧ ok (.cipuAbort .tanumA 1) (working { job := some (jobOf 5), din := [1#32] }) (fun u => decide (u.cipuGet 1 = { (u.cipuGet 1) with job := none, din := [] }
        ∧ u.fget (CIPU_ERRINFO.CAUSE 1) = 10)) = true
    ∧ ok (.cipuAbort .tanumA 1) sCip (fun u => u.fget (CIPU_STAT.ERR 1) = 0) = true
    ∧ ok (.takeFc .tanumA 1) sCip (fun u => decide (u.raw (CIPU_IV.addr 1 2) = 0x07000000 ∧ (u.keySlot 3).txFc = 8 ∧ (u.keySlot 3).uses = 2)) = true
    ∧ ok (.cipuDinWrite tA 1 9#32) sCip (fun u => u.fbit (CIPU_STAT.OVERFEED 1)) = true
    ∧ ok (.cipuDinWrite tA 1 9#32) (working { job := some (jobOf 6) }) (fun u => (u.cipuGet 1).din = [9#32]) = true
    ∧ ok (.cipuDinWrite tA 1 9#32) (working { job := some (jobOf 6), din := [1#32, 2#32, 3#32] }) (fun u => decide ((u.cipuGet 1).din = []
        ∧ (u.cipuGet 1).job.map (fun j => j.msg.length) = some 16)) = true
    ∧ ok (.cipuDoutRead .tanumA 1) (working { dout := [9#32, 8#32] }) (fun u => decide (u.bus.data = 9 ∧ (u.cipuGet 1).dout = [8#32])) = true
    ∧ ok (.cipuDoutRead .tanumA 1) sCip (fun u => decide (u.bus.data = 0 ∧ u.fbit (CIPU_STAT.RD_EMPTY 1) = true)) = true := by
  and_intros <;> decide +kernel
/-- Values that FIPS 197 prints: the S-box of 53, MixColumns of a column, the first new word of the key schedule of its example key. -/
def fipsKey : List Byte := [0x2B, 0x7E, 0x15, 0x16, 0x28, 0xAE, 0xD2, 0xA6, 0xAB, 0xF7, 0x15, 0x88, 0x09, 0xCF, 0x4F, 0x3C]
theorem test_aes_parts : sbox 0x53 = 0xED ∧ invSbox 0xED = 0x53 ∧ (mixColumns ([0xD4, 0xBF, 0x5D, 0x30] ++ List.replicate 12 0)).take 4 = [0x04, 0x66, 0x81, 0xE5]
    ∧ keyWord 4 4 1 [0x09, 0xCF, 0x4F, 0x3C] [0x2B, 0x7E, 0x15, 0x16] = [0xA0, 0xFA, 0xFE, 0x17] := by and_intros <;> decide +kernel
def sMac : State := (working { job := some { jobOf 5 with key := fipsKey } }).fset (CIPU_STAT.STATE 1) 3
theorem wit_cmac_job : (sMac.cipuGet 1).job = some { jobOf 5 with key := fipsKey } ∧ sMac.fget (CIPU_STAT.STATE 1) = 3 ∧ (cmac fipsKey []).length = 16 := by
  and_intros <;> decide +kernel

/-- The engine is enabled, its update key is usable, its blocks are free; a package in SRAM makes the image 01 02 03 04. -/
def updKey : KeySlot := { key := List.replicate 32 0x5A, valid := true, size := true, upd := true, limit := 9 }
def sUpd : State := { (s0.fset UPD_CTRL.EN 1).fset PROT_CTRL.OLOCK 0 |>.rsetN UPD_PKG.addr 0x20010000 |>.fset UPD_CFG.CFGBLK 54 |>.fset UPD_CFG.JBLK 55
                      |>.rsetN FLC_MODE_HI.addr 0xFFFFFFFF with keys := setAt s0.keys (s0.fget UPD_CFG.KEY) updKey }
def image : List Byte := [1, 2, 3, 4]
def imageSha : List Byte := [159, 100, 167, 71, 225, 185, 127, 19, 31, 171, 182, 180, 71, 41, 108, 155, 111, 2, 1, 231, 159, 179, 197, 53, 110, 108, 119, 232, 155, 106, 128, 106]
def segSha : List Byte := [23, 101, 176, 23, 52, 75, 214, 138, 107, 95, 169, 87, 92, 190, 215, 205, 182, 227, 143, 16, 161, 69, 202, 200, 117, 225, 149, 61, 149, 228, 45, 5]
theorem test_image_hash : sha256 image = imageSha := by decide +kernel
/-- The package with its tag, byte by byte. -/
def pkgCells : List Host.Cell := [(0x20010000, 65), (0x20010001, 84), (0x20010002, 76), (0x20010003, 68), (0x20010004, 1), (0x20010006, 22), (0x20010007, 119), (0x20010008, 4), (0x20010010, 1),
  (0x20010012, 1), (0x20010014, 255), (0x20010015, 255), (0x20010016, 255), (0x20010017, 255), (0x20010020, 227), (0x20010021, 176), (0x20010022, 196), (0x20010023, 66),
  (0x20010024, 152), (0x20010025, 252), (0x20010026, 28), (0x20010027, 20), (0x20010028, 154), (0x20010029, 251), (0x2001002A, 244), (0x2001002B, 200), (0x2001002C, 153),
  (0x2001002D, 111), (0x2001002E, 185), (0x2001002F, 36), (0x20010030, 39), (0x20010031, 174), (0x20010032, 65), (0x20010033, 228), (0x20010034, 100), (0x20010035, 155),
  (0x20010036, 147), (0x20010037, 76), (0x20010038, 164), (0x20010039, 149), (0x2001003A, 153), (0x2001003B, 27), (0x2001003C, 120), (0x2001003D, 82), (0x2001003E, 184),
  (0x2001003F, 85), (0x20010040, 159), (0x20010041, 100), (0x20010042, 167), (0x20010043, 71), (0x20010044, 225), (0x20010045, 185), (0x20010046, 127), (0x20010047, 19),
  (0x20010048, 31), (0x20010049, 171), (0x2001004A, 182), (0x2001004B, 180), (0x2001004C, 71), (0x2001004D, 41), (0x2001004E, 108), (0x2001004F, 155), (0x20010050, 111),
  (0x20010051, 2), (0x20010052, 1), (0x20010053, 231)]
  ++ [(0x20010054, 159), (0x20010055, 179), (0x20010056, 197), (0x20010057, 53), (0x20010058, 110), (0x20010059, 108), (0x2001005A, 119), (0x2001005B, 232), (0x2001005C, 155),
  (0x2001005D, 106), (0x2001005E, 128), (0x2001005F, 106), (0x20010080, 9), (0x20010084, 159), (0x20010085, 100), (0x20010086, 167), (0x20010087, 71), (0x20010088, 225),
  (0x20010089, 185), (0x2001008A, 127), (0x2001008B, 19), (0x2001008C, 31), (0x2001008D, 171), (0x2001008E, 182), (0x2001008F, 180), (0x20010090, 71), (0x20010091, 41),
  (0x20010092, 108), (0x20010093, 155), (0x20010094, 111), (0x20010095, 2), (0x20010096, 1), (0x20010097, 231), (0x20010098, 159), (0x20010099, 179), (0x2001009A, 197),
  (0x2001009B, 53), (0x2001009C, 110), (0x2001009D, 108), (0x2001009E, 119), (0x2001009F, 232), (0x200100A0, 155), (0x200100A1, 106), (0x200100A2, 128), (0x200100A3, 106),
  (0x200100A4, 3), (0x200100A5, 4), (0x200100A9, 1), (0x200100AA, 2), (0x200100AB, 3), (0x200100AC, 4), (0x200100AD, 17), (0x200100AE, 243), (0x200100AF, 43),
  (0x200100B0, 30), (0x200100B1, 126), (0x200100B2, 101), (0x200100B3, 105), (0x200100B4, 14), (0x200100B5, 145), (0x200100B6, 45), (0x200100B7, 105), (0x200100B8, 80),
  (0x200100B9, 83), (0x200100BA, 179), (0x200100BB, 213), (0x200100BC, 119)]
def sPkg : State := { sUpd with mem := pkgCells }
/-- A record of slot 1: EMPTY or INVALID (1), VALID (2), PENDING (3), with no NEW_HASH and the CRC R369 gives. -/
def recCells (w2 : Byte) (crc : List Byte) : List Host.Cell := [(0x40000, 84), (0x40001, 79), (0x40002, 76), (0x40003, 83), (0x40004, 1), (0x40005, 0), (0x40006, 0), (0x40007, 0), (0x40008, w2)]
  ++ (List.range 35).map (fun i => (0x40009 + i, 0#8)) ++ (List.range 4).map (fun i => (0x4002C + i, crc[i]?.getD 0))
def slot1 (st : Nat) : State := { sUpd with mem := if st = 1 then recCells 16 [45, 188, 251, 27] else if st = 2 then recCells 32 [136, 28, 73, 227] else recCells 48 [212, 126, 8, 2] }
def inState (st : Nat) (r : Option UpdRun) (s : State) : State := { s.fset UPD_STAT.STATE st with upd := { run := r } }
def run0 : UpdRun := { resume := false, key := updKey.key }
theorem wit_update : Accepted sUpd tA UPD_CMD.addr ∧ Accepted sUpd tA UPD_CTRL.addr ∧ sUpd.updStateOk 1 = true ∧ sUpd.motionGate = false ∧ sUpd.updKeyOk = true
    ∧ sPkg.updSlotOk = true
    ∧ ok (.updStart .tanumA) sUpd (fun u => u.upd.test = some 1) = true
    ∧ (inState 6 none (slot1 2)).updStateOk 3 = true
    ∧ (slot1 1).updStateOk 2 = true
    ∧ ok (.updStart .tanumA) (sUpd.fset UPD_CTRL.EN 0) (fun u => decide (u.fbit UPD_STAT.REFUSED = true ∧ u.fget UPD_ERRINFO.CAUSE = 14)) = true
    ∧ ok (.updResume .tanumA) sUpd (fun u => u.fget UPD_ERRINFO.CAUSE = 12) = true
    ∧ ok (.activate .tanumA) sUpd (fun u => u.fget UPD_ERRINFO.CAUSE = 12) = true
    ∧ ok (.updStart .tanumA) (sUpd.fset PROT_CTRL.OLOCK 1) (fun u => u.fget UPD_ERRINFO.CAUSE = 3) = true
    ∧ ok (.loadTestDone 3000) { (sPkg.fset UPD_GATE.VMIN 3000) with upd := { test := some 1 } } (fun u => decide (u.fget UPD_STAT.STATE = 1 ∧ u.upd.run.isSome = true)) = true
    ∧ ok (.loadTestDone 3000) { (sPkg.fset UPD_GATE.VMIN 3000) with upd := { test := some 3 } } (fun u => u.fget UPD_STAT.STATE = 4) = true
    ∧ ok (.loadTestDone 2999) { (sPkg.fset UPD_GATE.VMIN 3000) with upd := { test := some 1 } } (fun u => decide (u.fget UPD_ERRINFO.CAUSE = 2 ∧ u.fget UPD_STAT.STATE = 0)) = true
    ∧ ok (.loadTestDone 4000) { sPkg with upd := { test := some 1 }, keys := s0.keys } (fun u => u.fget UPD_ERRINFO.CAUSE = 4) = true
    ∧ ok .firstPassDone (inState 1 (some run0) (sUpd.rsetN UPD_PKG.addr 0x30000000)) (fun u => decide (u.fget UPD_STAT.STATE = 7 ∧ u.fget UPD_ERRINFO.CAUSE = 5)) = true
    ∧ ok (.updPause 2) (inState 3 (some run0) sPkg) (fun u => decide (u.fget UPD_STAT.STATE = 5 ∧ u.fget UPD_ERRINFO.CAUSE = 2)) = true
    ∧ ok (.updPause 2) (inState 2 (some run0) sPkg) (fun u => u.upd.pause = some 2) = true
    ∧ ok (.updAbort .tanumA) (inState 2 (some run0) sPkg) (fun u => u.upd.stop) = true
    ∧ ok (.updDisable tA 0#32) (inState 1 (some run0) sPkg) (fun u => decide (u.fget UPD_STAT.STATE = 7 ∧ u.fget UPD_ERRINFO.CAUSE = 14)) = true
    ∧ ok (.updAbort .tanumA) { inState 3 (some run0) sPkg with flash := { s0.flash with op := some ⟨1, 0, [], false⟩ } } (fun u => decide (u.upd.stop = true
        ∧ u.fget UPD_STAT.STATE = 3)) = true
    ∧ ok (.updAbort .tanumA) { sUpd with upd := { test := some 1 } } (fun u => u.upd = {}) = true := by
  and_intros <;> decide +kernel

/-- Its bytes up to the tag; the 16 bytes after them are their CMAC under the update key (eleven blocks, computed outside: the kernel takes minutes for them). -/
def pkgBytes : List Byte := [65, 84, 76, 68, 1, 0, 22, 119, 4, 0, 0, 0, 0, 0, 0, 0, 1, 0, 1, 0, 255, 255, 255, 255, 0, 0, 0, 0, 0, 0, 0, 0, 227, 176, 196, 66, 152, 252, 28, 20,
  154, 251, 244, 200, 153, 111, 185, 36, 39, 174, 65, 228, 100, 155, 147, 76, 164, 149, 153, 27, 120, 82, 184, 85, 159, 100, 167, 71, 225, 185, 127, 19, 31, 171, 182, 180, 71, 41, 108, 155,
  111, 2, 1, 231, 159, 179, 197, 53, 110, 108]
  ++ [119, 232, 155, 106, 128, 106, 0, 0, 0, 0, 0, 0, 0, 0, 0, 0, 0, 0, 0, 0, 0, 0, 0, 0, 0, 0, 0, 0, 0, 0, 0, 0, 0, 0, 0, 0, 0, 0, 9, 0,
  0, 0, 159, 100, 167, 71, 225, 185, 127, 19, 31, 171, 182, 180, 71, 41, 108, 155, 111, 2, 1, 231, 159, 179, 197, 53, 110, 108, 119, 232, 155, 106, 128, 106, 3, 4, 0, 0, 0, 1,
  2, 3, 4]
def sFirst : State := inState 1 (some run0) sPkg
theorem wit_update_first : sFirst.upd.stop = false ∧ sFirst.upd.pause = none ∧ sFirst.flash.op = none ∧ sFirst.blockWp 2 = false ∧ sFirst.blockWp 3 = false
    ∧ sFirst.updPkg.at' + 128 ≤ sFirst.updPkg.limit
    ∧ decide (sFirst.rangeRead 0x20010000 (min sFirst.updPkg.limit (sFirst.pkgTag sFirst.updPkg + 16) - 0x20010000) = (sFirst, true)) = true
    ∧ sPkg.pkgFormat sPkg.updPkg = true ∧ sPkg.updPkg.oldLen = 0 ∧ sPkg.pkgTag sPkg.updPkg = 0x200100AD
    ∧ sPkg.listAt 0x20010000 173 = pkgBytes ∧ sPkg.listAt 0x200100AD 16 = [17, 243, 43, 30, 126, 101, 105, 14, 145, 45, 105, 80, 83, 179, 213, 119] ∧ sha256 [] = sPkg.listAt 0x20010020 32 ∧ sPkg.motionGate = false
    ∧ sPkg.fbit PROT_CTRL.OLOCK = false := by
  and_intros <;> decide +kernel
def sSegm : State := inState 2 (some { run0 with digests := [segSha], newHash := imageSha }) sPkg
theorem wit_update_segment : sSegm.upd.srst = false ∧ sSegm.flash.susp = none ∧ (sSegm.segAddrs sSegm.updPkg)[0]? = some 0x20010080 ∧ sSegm.wordAt 0x20010080 = 9
    ∧ decide (sSegm.updRelease.segRead sSegm.updPkg 0 = (sSegm, true)) = true ∧ sSegm.blockWp 30 = false ∧ sSegm.segDigest sSegm.updPkg 0 = segSha ∧ sSegm.segOutput sSegm.updPkg 0 = some image ∧ sSegm.blockSlc 30 = false
    ∧ imageSha = sSegm.listAt 0x20010084 32
    ∧ ok (.segmentDone true) (inState 2 (some run0) sPkg) (fun u => decide (u.fget UPD_STAT.STATE = 7 ∧ u.fget UPD_ERRINFO.CAUSE = 8)) = true := by
  and_intros <;> decide +kernel
def sImg : State := inState 3 (some { run0 with newHash := imageSha }) { sUpd with mem := [(0x3C0000, 1), (0x3C0001, 2), (0x3C0002, 3), (0x3C0003, 4)] ++ pkgCells }
theorem wit_update_image : decide (sImg.rangeRead (slotBase sImg.updTarget) sImg.updPkg.newLen = (sImg, true)) = true
    ∧ ok (.imageHashDone true) sImg (fun u => decide (u.fget UPD_STAT.STATE = 6 ∧ recState (u.raw UPD_SLOT.addr) 1 = 2)) = true
    ∧ ok (.imageHashDone true) (sImg.setByte 0x3C0000 9) (fun u => u.fget UPD_ERRINFO.CAUSE = 10) = true
    ∧ ok (.imageHashDone false) sImg (fun u => u.fget UPD_ERRINFO.CAUSE = 11) = true := by
  and_intros <;> decide +kernel
theorem wit_activation : (slot1 3).updFree = true ∧ (inState 4 none (slot1 2)).updFree = true ∧ (slot1 3).updBusy = false
    ∧ ok (.accept .tanumA) { slot1 3 with flash := { s0.flash with op := some ⟨1, 0, [], false⟩ } } (fun u => u.upd.accept) = true
    ∧ ((slot1 3).rsetN FLC_WP_LO.addr 12).blockWp 2 = true ∧ ((slot1 3).rsetN FLC_WP_LO.addr 12).blockWp 3 = true
    ∧ ok (.accept .tanumA) ((slot1 3).rsetN FLC_WP_LO.addr 12) (fun u => decide (u.fbit UPD_STAT.REFUSED = true ∧ u.fget UPD_ERRINFO.CAUSE = 11)) = true
    ∧ ((inState 4 none (slot1 2)).fset UPD_CFG.MERGE 0).updMerges = false ∧ recState (slot1 3).slotWord 1 = 3 ∧ recState (slot1 3).slotWord 0 = 0
    ∧ ok (.activateDone true) ((inState 4 none (slot1 2)).fset UPD_CFG.MERGE 0) (fun u => decide (u.fget UPD_STAT.STATE = 6 ∧ recState (u.raw UPD_SLOT.addr) 1 = 3)) = true
    ∧ ok (.activateDone false) (inState 4 none (slot1 2)) (fun u => decide (u.fget UPD_STAT.STATE = 7 ∧ u.fget UPD_ERRINFO.CAUSE = 11)) = true
    ∧ ok (.accept .tanumA) (slot1 3) (fun u => decide (recState (u.raw UPD_SLOT.addr) 1 = 4 ∧ recState (u.raw UPD_SLOT.addr) 0 = 2)) = true
    ∧ ok (.accept .tanumA) (slot1 2) (fun u => decide (u.fbit UPD_STAT.REFUSED = true ∧ u.fget UPD_ERRINFO.CAUSE = 12)) = true := by
  and_intros <;> decide +kernel
/-! ## Ill-formed commands, the step law, reset -/

def plain : Prefixes := {}
def reps : Prefixes := { rep := some (.rep 3) }

theorem test_illformed_prefix : (Instr.sync .a { plain with width := some .w8z }).wellFormed = false ∧ (Instr.sync .a plain).wellFormed = true
    ∧ (Instr.ret .a { plain with sat := true }).wellFormed = false ∧ (Instr.br .a reps (.d8 4)).wellFormed = false := by and_intros <;> decide +kernel
theorem test_illformed_length : (Instr.add .a { rep := some (.rep 3), cond := some 0, sat := true } 1 (.imm32 5)).wellFormed = false
    ∧ (Instr.add .a plain 1 (.imm32 5)).wellFormed = true := by and_intros <;> decide +kernel
theorem test_illformed_special : (Instr.movsToSpecial .a plain 8 1).wellFormed = false ∧ (Instr.movsToSpecial .a plain 7 1).wellFormed = true
    ∧ (Instr.movsFromSpecial .g plain 1 8).wellFormed = false ∧ (Instr.movsFromSpecial .g plain 1 7).wellFormed = true := by and_intros <;> decide +kernel
theorem test_illformed_branch : (Instr.br .a plain (.d32 4)).wellFormed = false ∧ (Instr.call .a plain (.d8 4)).wellFormed = false
    ∧ (Instr.br .a plain (.d16 4)).wellFormed = true ∧ (Instr.call .a plain (.d32 4)).wellFormed = true := by and_intros <;> decide +kernel
theorem test_illformed_illegal : (Instr.illegalEncoding .a [0x00]).wellFormed = false ∧ (Instr.illegalEncoding .a [0x06]).wellFormed = true := by
  and_intros <;> decide +kernel
theorem test_illformed_own : (Instr.ownWrite .tanumA (BitVec.ofNat 32 (OWN.addr 3)) 0).wellFormed = true
    ∧ (Instr.ownWrite .tanumA (BitVec.ofNat 32 (INT_EN.addr 3)) 0).wellFormed = false := by and_intros <;> decide +kernel
theorem test_illformed_pairs : (Instr.latchPairLowRead .hsp (BitVec.ofNat 32 (pairLows.headD 0))).wellFormed = true
    ∧ (Instr.latchPairLowRead .hsp 0x40000000).wellFormed = false
    ∧ (Instr.latchPairLowWrite .hsp (BitVec.ofNat 32 (wideLows.headD 0)) 1).wellFormed = true ∧ (Instr.latchPairLowWrite .hsp 0x40000000 1).wellFormed = false
    ∧ (Instr.latchPairHighWrite .hsp (BitVec.ofNat 32 (wideLows.headD 0 + 4)) 1).wellFormed = true
    ∧ (Instr.latchPairHighWrite .hsp 0x40000000 1).wellFormed = false := by and_intros <;> decide +kernel
theorem test_illformed_branches : (Instr.preambleDetect ⟨0, 9⟩ []).wellFormed = false ∧ (Instr.preambleDetect ⟨0, 9⟩ [(1, 5, 0), (1, 6, 0)]).wellFormed = false
    ∧ (Instr.preambleDetect ⟨0, 9⟩ [(1, 5, 0), (2, 6, 0)]).wellFormed = true := by and_intros <;> decide +kernel
theorem test_illformed_bits : (Instr.lastBitDecoded 0 9 (List.replicate 32801 false)).wellFormed = false
    ∧ (Instr.lastBitDecoded 0 9 (List.replicate 32800 false)).wellFormed = true
    ∧ (Instr.ldpcDecodeDone 0 9 ⟨0, List.replicate 575 false⟩).wellFormed = false ∧ (Instr.ldpcDecodeDone 0 9 ⟨0, List.replicate 576 false⟩).wellFormed = true := by
  and_intros <;> decide +kernel
theorem test_illformed_sluice : (Instr.sluiceConfigWrite tA 0x102 0).wellFormed = false ∧ (Instr.sluiceConfigWrite tA 0x104 0).wellFormed = true := by
  and_intros <;> decide +kernel
theorem test_illformed_abort : (Instr.entryAbort 1 0).wellFormed = false ∧ (Instr.entryAbort 2 0).wellFormed = true := by and_intros <;> decide +kernel
theorem test_illformed_nop : (Instr.extNop 3 0).wellFormed = false ∧ (Instr.extNop 0 7).wellFormed = true ∧ (Instr.extNop 5 0).wellFormed = true := by
  and_intros <;> decide +kernel

/-- A waiting command runs on the rest of the queue; an empty queue idles; commands that wait are well formed. -/
def sQueue : State := { s0 with pending := [.squashDone 0, .phaseCheckpoint 5] }
theorem wit_step : (match step sQueue with | .next t => decide (t.pending = [.phaseCheckpoint 5]) | _ => false) = true
    ∧ (match step s0 with | .next t => decide (t = s0) | _ => false) = true ∧ sQueue.pending.all Instr.wellFormed = true := by
  and_intros <;> decide +kernel
/-- The invariants hold after reset, and so in the state that the queue above stands in. -/
theorem wit_canonical : Canonical sQueue := by unfold Canonical; decide +kernel
theorem wit_shape : Shape sQueue := by constructor <;> decide +kernel
/-- The host's queries: no row gives bits, so no word spells a command. -/
theorem test_table_words : decodeTableWord 32 0x12345678 = none ∧ State.reset.withFetchWord 16 5 = State.reset := by and_intros <;> decide +kernel

end Sys2Proof.Tests
end

section
/-!
THE STORES (O6), THE OTHER VIEWS (O8) AND THE STATE AFTER RESET (O2). What returning entries to their unlisted values reads as, a
write through the SET, CLR or TGL view bit by bit, and the registers after a power-on reset.
-/
namespace Sys2Proof.Machine
open Sys2Proof

/-! ## Entries returned to what they read as unlisted -/

theorem regGet_filter (l : List (Nat × Word)) (p : Nat → Bool) (a : Nat) :
    regGet (l.filter fun r => !p r.1) a = if p a then resetOf a else regGet l a := by
  induction l with
  | nil => simp [regGet]
  | cons x l ih =>
    obtain ⟨b, v⟩ := x
    by_cases hb : p b = true
    · by_cases hab : a = b
      · subst hab
        simp [hb, ih]
      · simp [regGet, hb, hab, ih]
    · by_cases hab : a = b
      · subst hab
        simp [regGet, hb]
      · simp [regGet, hb, hab, ih]

@[simp] theorem rget_resetRegs (s : State) (p : Nat → Bool) (a : Nat) : (s.resetRegs p).rget a = if p a then resetOf a else s.rget a :=
  regGet_filter s.regs p a

theorem cellGet_filter (d : Nat → Byte) (l : List Host.Cell) (p : Nat → Bool) (a : Nat) :
    cellGet d (l.filter fun c => !p c.1) a = if p a then d a else cellGet d l a := by
  induction l with
  | nil => simp [cellGet]
  | cons x l ih =>
    obtain ⟨b, v⟩ := x
    by_cases hb : p b = true
    · by_cases hab : a = b
      · subst hab
        simp [hb, ih]
      · simp [cellGet, hb, hab, ih]
    · by_cases hab : a = b
      · subst hab
        simp [cellGet, hb]
      · simp [cellGet, hb, hab, ih]

theorem byteAt_clearRange (s : State) (lo hi b : Nat) :
    (s.clearRange lo hi).byteAt b = if lo ≤ b ∧ b < hi then memDefault b else s.byteAt b := by
  have h : (s.clearRange lo hi).byteAt b = if (lo ≤ b && b < hi : Bool) then memDefault b else s.byteAt b :=
    cellGet_filter memDefault s.mem (fun a => lo ≤ a && a < hi) b
  simpa using h

/-! ## Reading after writing, at any address -/

theorem rget_rset (s : State) (a b : Nat) (v : Word) : (s.rset a v).rget b = if b = a then v else s.rget b := by
  split
  · next h => rw [h, rget_rset_self]
  · next h => exact rget_rset_ne s v h

theorem byteAt_setByte (s : State) (a b : Nat) (v : Byte) : (s.setByte a v).byteAt b = if b = a then v else s.byteAt b := by
  split
  · next h => rw [h, byteAt_setByte_self]
  · next h => exact byteAt_setByte_ne s v h

/-- A field keeps its value when a field apart from it is written, in the same register or in another. -/
theorem fget_fset_apart (s : State) (f g : Fld) (x : Nat) (hf : f.lo + f.width ≤ 32)
    (h : g.addr ≠ f.addr ∨ g.lo + g.width ≤ f.lo ∨ f.lo + f.width ≤ g.lo) : (s.fset f x).fget g = s.fget g := by
  rcases h with h | h
  · exact fget_fset_reg s f g x h
  · exact fget_fset_ne s f g x hf h

theorem wordAt_setWord (s : State) (a v : Nat) (hv : v < 2 ^ 32) : (s.setWord a v).wordAt a = v := by
  unfold State.wordAt State.setWord
  rw [bytesAt_setBytes]
  exact Nat.mod_eq_of_lt hv

theorem byteAt_setWord_ne (s : State) (a v b : Nat) (h : b < a ∨ a + 4 ≤ b) : (s.setWord a v).byteAt b = s.byteAt b :=
  byteAt_setBytes_ne 4 s a v b h

/-- Settles O6, from the laws of the register store and of memory. -/
theorem storesReadAsWritten : Obligations.StoresReadAsWritten :=
  ⟨⟨rget_rset, fget_fset_self, fget_fset_apart, fget_finc, rget_resetRegs⟩,
    byteAt_setByte, fun s a v hv => ⟨wordAt_setWord s a v hv, byteAt_setWord_ne s a v⟩, byteAt_clearRange,
    fun s a v hw => setByte_wf s hw a v, fun s a n v hw => setBytes_wf n s hw a v, fun s lo hi hw => clearRange_wf s hw lo hi⟩

/-! ## Writes through the SET, CLR and TGL views -/

/-- A bit that is neither RW nor W1S keeps its value through these views. -/
theorem writeValue_view_other (d : RegDesc) (view : View) (old v : Word) (i : Nat) (hi : i < 32) (hv : view ≠ .base)
    (hrw : d.rw.getLsbD i = false) (hw1s : d.w1s.getLsbD i = false) : (writeValue d view old v).getLsbD i = old.getLsbD i := by
  cases view with
  | base => exact absurd rfl hv
  | set => simp [writeValue, hrw, hw1s]
  | clr =>
    simp only [writeValue, BitVec.getLsbD_and, BitVec.getLsbD_not, hrw, hi, decide_true, Bool.and_false, Bool.not_false, Bool.and_true]
  | tgl => simp [writeValue, hrw]

/-- An RW bit is set, cleared or inverted where the value has a one. -/
theorem writeValue_view_rw (d : RegDesc) (old v : Word) (i : Nat) (hi : i < 32) (hrw : d.rw.getLsbD i = true) :
    (writeValue d .set old v).getLsbD i = (old.getLsbD i || v.getLsbD i)
      ∧ (writeValue d .clr old v).getLsbD i = (old.getLsbD i && !v.getLsbD i)
      ∧ (writeValue d .tgl old v).getLsbD i = (old.getLsbD i ^^ v.getLsbD i) := by
  refine ⟨?_, ?_, ?_⟩
  · simp [writeValue, hrw]
  · simp only [writeValue, BitVec.getLsbD_and, BitVec.getLsbD_not, hrw, hi, decide_true, Bool.true_and, Bool.and_true]
  · simp [writeValue, hrw]

/-- Settles O8, bit by bit through `writeValue`. -/
theorem aliasWrites : Obligations.AliasWrites := fun d old v i hi =>
  ⟨fun view hv => writeValue_view_other d view old v i hi hv, writeValue_view_rw d old v i hi⟩

/-! ## The registers after a power-on reset -/

/-- After reset only SYS_RSTCAUSE differs from its reset value. -/
theorem rget_reset (a : Nat) (h : a ≠ SYS_RSTCAUSE.addr) : State.reset.rget a = resetOf a := if_neg h

theorem pageOf_pageAddr (p o : Nat) (hp : p < 0x40) (ho : o < 0x1000) : pageOf (pageAddr p o) = p := by
  unfold pageOf pageAddr
  omega

theorem offOf_pageAddr (p o : Nat) (ho : o < 0x1000) : offOf (pageAddr p o) = o := by
  unfold offOf pageAddr
  omega

theorem resetOf_own (p : Nat) (hp : p < 0x40) : resetOf (OWN.addr p) = ownReset p := by
  unfold OWN.addr
  simp [resetOf, pageOf_pageAddr p 0x01C hp (by decide), offOf_pageAddr p 0x01C (by decide), hp]

theorem rget_reset_own (p : Nat) (hp : p < 0x40) : State.reset.rget (OWN.addr p) = ownReset p := by
  rw [rget_reset, resetOf_own p hp]
  unfold OWN.addr pageAddr SYS_RSTCAUSE.addr
  omega

theorem canonical_reset : Canonical State.reset := by
  unfold Canonical
  decide +kernel

/-- Settles O2: the parts of the state at their initial values, the registers by `rget_reset`. -/
theorem resetLeaves : Obligations.ResetLeaves := by
  have hlanes : ∀ n, n < 16 → State.reset.laneSt n = 0 := by decide +kernel
  have htimers : ∀ n, n < 8 → State.reset.tCount n = 0 := by decide +kernel
  refine ⟨⟨by decide +kernel, rfl, rfl, rfl, rfl, rfl, by decide +kernel, by decide +kernel, by decide +kernel, rget_reset_own, ?_, ?_,
    rget_reset, hlanes, htimers, by decide +kernel, by decide +kernel, rfl⟩, canonical_reset⟩
  · exact rget_reset_own Pg.PROT (by decide)
  · exact rget_reset_own Pg.GMB (by decide)

end Sys2Proof.Machine
end

section
/-!
REGISTER WRITES (O10). The registers that every page has for its interrupts and events have no effect of a block (R47, R49); a soft
reset returns the page's registers (R50).
-/
namespace Sys2Proof.Machine
open Sys2Proof

/-! ## Dirty bits (R75) -/

theorem rget_dirty_ne (s : State) (p b : Nat) (hlo : b ≠ OVL_DIRTY_LO.addr) (hhi : b ≠ OVL_DIRTY_HI.addr) :
    (s.dirty p).rget b = s.rget b := by
  unfold State.dirty
  split
  · exact rget_fset_ne s _ _ b hlo
  · exact rget_fset_ne s _ _ b hhi

/-- A dirty bit is a register's bit. -/
theorem dirty_eq (s : State) (p : Nat) : s.dirty p = { s with regs := (s.dirty p).regs } := by
  unfold State.dirty
  split <;> rfl

/-- The registers OVL_DIRTY_LO and OVL_DIRTY_HI together, page by page. -/
theorem bitOf_dirty_pair (lo hi p : Nat) (hlo : lo < 2 ^ 32) :
    bitOf (lo + hi * 2 ^ 32) p = if p < 32 then bitOf lo p else bitOf hi (p - 32) := by
  have e (v n : Nat) : bitOf v n = v.testBit n := by
    simp [bitOf, Nat.testBit_eq_decide_div_mod_eq, Bool.beq_eq_decide_eq]
  rw [e, e, e, Nat.add_comm, Nat.mul_comm, Nat.testBit_two_pow_mul_add hi hlo]

theorem bitOf_raw (s : State) (a i : Nat) (h : s.fget ⟨a, i, 1⟩ = 1) : bitOf (s.raw a) i = true := by
  simpa [bitOf, State.raw, State.fget, fieldGet] using h

/-- The page's dirty bit is set. -/
theorem bitOf_dirty (s : State) (p : Nat) (hp : p < 0x40) :
    bitOf ((s.dirty p).raw OVL_DIRTY_LO.addr + (s.dirty p).raw OVL_DIRTY_HI.addr * 2 ^ 32) p = true := by
  rw [bitOf_dirty_pair ((s.dirty p).raw OVL_DIRTY_LO.addr) _ _ (BitVec.isLt _)]
  unfold State.dirty
  by_cases h : p < 32
  · rw [if_pos h, if_pos h]
    exact bitOf_raw _ _ _ (fget_fset_self s ⟨OVL_DIRTY_LO.addr, p, 1⟩ 1 (by simpa using h))
  · rw [if_neg h, if_neg h]
    have h32 : p - 32 < 32 := by omega
    exact bitOf_raw _ _ _ (fget_fset_self s ⟨OVL_DIRTY_HI.addr, p - 32, 1⟩ 1 (by simpa using h32))

/-! ## What a page's hook does with the registers of interrupts and events -/

/-- Offsets of INT_EN, INT_PEND and EVT_EN in every page (R47). -/
def EventOff (off : Nat) : Prop := off = 0x010 ∨ off = 0x014 ∨ off = 0x018

section
variable {w : WCtx} {s : State} (h : EventOff w.off)
include h

theorem cadHook_eventOff : cadHook w s = s := by
  have hinj : w.addr ≠ CAD_LS_INJ.addr := by
    unfold EventOff at h
    unfold WCtx.addr pageAddr CAD_LS_INJ.addr
    omega
  have hself : ¬ (w.addr = CAD_SELF_EXT_LO.addr ∨ w.addr = CAD_SELF_EXT_HI.addr ∨ w.addr = CAD_SELF_SHORT.addr
      ∨ w.addr = CAD_SELF_PAN.addr) := by
    unfold EventOff at h
    unfold WCtx.addr pageAddr CAD_SELF_EXT_LO.addr CAD_SELF_EXT_HI.addr CAD_SELF_SHORT.addr CAD_SELF_PAN.addr
    omega
  rcases h with h | h | h <;> simp [cadHook, h, hinj, hself]

theorem nbrHook_eventOff : nbrHook w s = s := by
  have hchg : w.addr ≠ NBR_CHG.addr := by
    unfold EventOff at h
    unfold WCtx.addr pageAddr NBR_CHG.addr
    omega
  rcases h with h | h | h <;> simp [nbrHook, h, hchg]

theorem tmrHook_eventOff : tmrHook w s = s := by
  rcases h with h | h | h <;> simp [tmrHook, State.tmrWrite, h]

/-- No block gives these registers an effect. -/
theorem coreHook_eventOff : coreHook w s = s := by
  unfold coreHook
  rw [cadHook_eventOff h, nbrHook_eventOff h, tmrHook_eventOff h]
  rcases h with h | h | h <;>
    simp [h, sysHook, pwrHook, avsHook, clkHook, protHook, rfeHook, agcHook, cnpHook, laneHook, fecHook, txmHook, hdrHook, trfHook,
      weirHook, sluHook, ntuHook, flcHook, ciphHook, cipuHook, updHook, rtcHook, culHook, hspHook, pspHook, gpioHook, adcHook, tstHook,
      dmaHook, dcaHook, dbgHook]

theorem anyHook_eventOff : anyHook w s = s := by
  unfold anyHook
  rw [coreHook_eventOff h]
  rcases h with h | h | h <;> simp [ovlHook, h]

end

/-- With nothing owed, a write ends with its page's own effect. -/
theorem pageHook_of_nothingOwed (w : WCtx) (s : State) (h : NothingOwed (anyHook w s)) : pageHook w s = anyHook w s := by
  obtain ⟨hovl, hwarm⟩ := h
  simp [pageHook, State.ovlSettle, hovl, State.bootPending, hwarm]

theorem pageHook_eventOff (w : WCtx) (s : State) (hw : EventOff w.off) (h : NothingOwed s) : pageHook w s = s := by
  have e : anyHook w s = s := anyHook_eventOff hw
  rw [pageHook_of_nothingOwed w s (by rw [e]; exact h), e]

/-! ## A master's write of a register of interrupts or events -/

theorem descOf_eventOff (p off : Nat) (hp : p < 0x40) (ho : EventOff off) : ∃ d, descOf (pageAddr p off) = some d := by
  have hall : ∀ p, p < 0x40 → (descOf (pageAddr p 0x010)).isSome ∧ (descOf (pageAddr p 0x014)).isSome
      ∧ (descOf (pageAddr p 0x018)).isSome := by decide +kernel
  obtain ⟨h10, h14, h18⟩ := hall p hp
  rcases ho with rfl | rfl | rfl
  · exact Option.isSome_iff_exists.1 h10
  · exact Option.isSome_iff_exists.1 h14
  · exact Option.isSome_iff_exists.1 h18

theorem baseOff_pageAddr (p o : Nat) (ho : o < 0x400) : baseOff (pageAddr p o) = o := by
  unfold baseOff pageAddr
  omega

theorem viewAddr_toNat (vw : View) (p o : Nat) (hp : p < 0x40) (ho : o < 0x400) :
    (BitVec.ofNat 32 (viewAddr vw (pageAddr p o))).toNat = viewAddr vw (pageAddr p o) := by
  have hv : viewOffset vw ≤ 0xC00 := by cases vw <;> decide
  rw [BitVec.toNat_ofNat, Nat.mod_eq_of_lt]
  unfold viewAddr pageAddr
  omega

theorem isPage_pageAddr (p o : Nat) (hp : p < 0x40) (ho : o < 0x1000) : isPage (pageAddr p o) = true := by
  unfold isPage pageAddr
  simp
  omega

theorem baseAddr_viewAddr (vw : View) (p o : Nat) (hp : p < 0x40) (ho : o < 0x400) :
    baseAddr (viewAddr vw (pageAddr p o)) = pageAddr p o := by
  have hoff : pageAddr p o % 0x1000 = o := offOf_pageAddr p o (by omega)
  unfold baseAddr
  rw [view_page vw _ (by omega) (isPage_pageAddr p o hp (by omega)), view_off vw _ (by omega), pageOf_pageAddr p o hp (by omega),
    baseOff_pageAddr p o ho]

theorem portCur_eventOff (s : State) (p off : Nat) (ho : EventOff off) : s.portCur (pageAddr p off) = none := by
  have hne : pageAddr p off ≠ CAD_HOP_DATA.addr ∧ pageAddr p off ≠ TXM_FIR_DATA.addr ∧ pageAddr p off ≠ DBG_REG_DATA.addr := by
    unfold EventOff at ho
    unfold pageAddr CAD_HOP_DATA.addr TXM_FIR_DATA.addr DBG_REG_DATA.addr
    omega
  simp [State.portCur, State.radioPort, hne]

/-- REGISTER_WRITE of these registers is the page's write. -/
theorem exec_registerWrite_eventOff (s : State) (m : Master) (vw : View) (p off : Nat) (v : Word) (hp : p < 0x40) (ho : EventOff off) :
    exec (.registerWrite m (BitVec.ofNat 32 (viewAddr vw (pageAddr p off))) v) s
      = .next (s.writeReg pageHook ⟨m, vw⟩ (pageAddr p off) v) := by
  have hlt : off < 0x400 := by unfold EventOff at ho; omega
  show Host.Outcome.next (s.busWrite pageHook m _ v) = _
  rw [viewAddr_toNat vw p off hp hlt]
  unfold State.busWrite
  rw [baseAddr_viewAddr vw p off hp hlt, portCur_eventOff s p off ho]
  rfl

/-! ## The store's part of a write -/

theorem storedBy_eq (s : State) (acc : Acc) (a : Nat) (d : RegDesc) (v : Word) :
    storedBy s acc a d v = { s with regs := (storedBy s acc a d v).regs, bus := { s.bus with err := false } } := by
  unfold storedBy
  dsimp only
  split
  · unfold State.dirty
    split <;> rfl
  · rfl

theorem rget_storedBy_self (s : State) (acc : Acc) (a : Nat) (d : RegDesc) (v : Word) :
    (storedBy s acc a d v).rget a = writeValue d acc.view (s.rget a) v := rget_rset_self _ a _

theorem rget_storedBy_ne (s : State) (acc : Acc) (a b : Nat) (d : RegDesc) (v : Word) (hb : b ≠ a) (hlo : b ≠ OVL_DIRTY_LO.addr)
    (hhi : b ≠ OVL_DIRTY_HI.addr) : (storedBy s acc a d v).rget b = s.rget b := by
  unfold storedBy
  dsimp only
  rw [rget_rset_ne _ _ hb]
  split
  · exact rget_dirty_ne _ _ b hlo hhi
  · rfl

/-- A register that an overlay may name leaves its page dirty (R75). -/
theorem bitOf_dirty_storedBy (s : State) (acc : Acc) (p off : Nat) (d : RegDesc) (v : Word) (hp : p < 0x40) (ho : off < 0x400)
    (hovl : p ≠ Pg.OVL) (hn : overlayNames p off = true) :
    bitOf ((storedBy s acc (pageAddr p off) d v).raw OVL_DIRTY_LO.addr
      + (storedBy s acc (pageAddr p off) d v).raw OVL_DIRTY_HI.addr * 2 ^ 32) p = true := by
  have hlo : OVL_DIRTY_LO.addr ≠ pageAddr p off := by
    unfold Pg.OVL at hovl
    unfold OVL_DIRTY_LO.addr pageAddr
    omega
  have hhi : OVL_DIRTY_HI.addr ≠ pageAddr p off := by
    unfold Pg.OVL at hovl
    unfold OVL_DIRTY_HI.addr pageAddr
    omega
  unfold storedBy State.raw
  dsimp only
  rw [pageOf_pageAddr p off hp (by omega), baseOff_pageAddr p off ho, if_pos hn, rget_rset_ne _ _ hlo, rget_rset_ne _ _ hhi]
  exact bitOf_dirty _ p hp

/-! ## INT_EN and EVT_EN -/

theorem plainReg_enables (p off : Nat) (hp : p < 0x40) (ho : off = 0x010 ∨ off = 0x018) : plainReg (pageAddr p off) = true := by
  have hall : ∀ p, p < 0x40 → plainReg (pageAddr p 0x010) = true ∧ plainReg (pageAddr p 0x018) = true := by decide +kernel
  rcases ho with rfl | rfl
  · exact (hall p hp).1
  · exact (hall p hp).2

theorem overlayNames_enables (p off : Nat) (hp : p < 0x40) (ho : off = 0x010 ∨ off = 0x018) (hprot : p ≠ Pg.PROT) (hovl : p ≠ Pg.OVL)
    (hgmb : p ≠ Pg.GMB) (hdbg : p ≠ Pg.DBG) : overlayNames p off = true := by
  rcases ho with rfl | rfl <;> simp [overlayNames, hp, hprot, hovl, hgmb, hdbg]

/-- A write of INT_EN or EVT_EN stores its value and ends. -/
theorem writeReg_enables (s : State) (acc : Acc) (p off : Nat) (v : Word) (d : RegDesc) (hp : p < 0x40) (ho : off = 0x010 ∨ off = 0x018)
    (ha : Accepted s acc (pageAddr p off)) (hn : NothingOwed s) (hd : descOf (pageAddr p off) = some d) :
    s.writeReg pageHook acc (pageAddr p off) v = storedBy s acc (pageAddr p off) d v := by
  have he : EventOff off := by unfold EventOff; omega
  have hoff : baseOff (pageAddr p off) = off := baseOff_pageAddr p off (by omega)
  rw [writeReg_ok pageHook s acc _ v d ha (plainReg_enables p off hp ho) hd]
  refine pageHook_eventOff _ _ ?_ ?_
  · show EventOff (baseOff (pageAddr p off))
    rw [hoff]
    exact he
  · rw [storedBy_eq]
    exact hn

theorem registerWrite_enables (s : State) (m : Master) (vw : View) (p off : Nat) (v : Word) (hp : p < 0x40)
    (ho : off = 0x010 ∨ off = 0x018) (ha : Accepted s ⟨m, vw⟩ (pageAddr p off)) (hn : NothingOwed s) :
    Does (.registerWrite m (BitVec.ofNat 32 (viewAddr vw (pageAddr p off))) v) s fun u =>
      u.raw (pageAddr p off) = writtenTo s ⟨m, vw⟩ (pageAddr p off) v ∧ u.bus = { s.bus with err := false }
      ∧ u = { s with regs := u.regs, bus := u.bus }
      ∧ (∀ b, b ≠ pageAddr p off → b ≠ OVL_DIRTY_LO.addr → b ≠ OVL_DIRTY_HI.addr → u.rget b = s.rget b)
      ∧ (p ≠ Pg.PROT → p ≠ Pg.OVL → p ≠ Pg.GMB → p ≠ Pg.DBG →
          bitOf (u.raw OVL_DIRTY_LO.addr + u.raw OVL_DIRTY_HI.addr * 2 ^ 32) p = true) := by
  have he : EventOff off := by unfold EventOff; omega
  obtain ⟨d, hd⟩ := descOf_eventOff p off hp he
  have eq := storedBy_eq s ⟨m, vw⟩ (pageAddr p off) d v
  refine ⟨storedBy s ⟨m, vw⟩ (pageAddr p off) d v, ?_, ?_, ?_, ?_, ?_, ?_⟩
  · rw [exec_registerWrite_eventOff s m vw p off v hp he, writeReg_enables s ⟨m, vw⟩ p off v d hp ho ha hn hd]
  · simp [State.raw, rget_storedBy_self, writtenTo, hd]
  · rw [eq]
  · rw [eq]
  · exact fun b hb hlo hhi => rget_storedBy_ne s _ _ b d v hb hlo hhi
  · intro hprot hovl hgmb hdbg
    exact bitOf_dirty_storedBy s _ p off d v hp (by omega) hovl (overlayNames_enables p off hp ho hprot hovl hgmb hdbg)

/-! ## INT_PEND -/

/-- A write of INT_PEND clears the INT_RAW bits written with 1, and ends. -/
theorem writeReg_intPend (s : State) (m : Master) (p : Nat) (v : Word) (hp : p < 0x40) (ha : Accepted s ⟨m, .base⟩ (INT_PEND.addr p))
    (hn : NothingOwed s) :
    s.writeReg pageHook ⟨m, .base⟩ (INT_PEND.addr p) v
      = ({ s with bus := { s.bus with err := false } } : State).rset (INT_RAW.addr p) (s.rget (INT_RAW.addr p) &&& ~~~v) := by
  obtain ⟨d, hd⟩ := descOf_eventOff p 0x014 hp (.inr (.inl rfl))
  have hpage : pageOf (INT_PEND.addr p) = p := pageOf_pageAddr p 0x014 hp (by decide)
  have hoff : baseOff (INT_PEND.addr p) = 0x014 := baseOff_pageAddr p 0x014 (by decide)
  have hlt : INT_PEND.addr p % 0x1000 < 0x400 := (offOf_pageAddr p 0x014 (by decide)).trans_lt (by decide)
  have hview : viewOf (INT_PEND.addr p) = .base := view_view .base _ hlt
  have hprot : isProtReg p 0x014 = false := by simp [isProtReg]
  have hover : overlayNames p 0x014 = false := by simp [overlayNames]
  have hacc : s.judge m (s.sourceOf m) (INT_PEND.addr p) true = .ok := ha
  show s.writeAs pageHook m (s.sourceOf m) (INT_PEND.addr p) v = _
  rw [State.writeAs, hacc]
  dsimp only
  rw [State.applyWrite]
  dsimp only
  rw [hpage, hoff, hview]
  rw [hd, Option.elim_some]
  simp only [hover, hprot, Bool.false_eq_true, if_false, if_true]
  exact pageHook_eventOff _ _ (.inr (.inl rfl)) hn

theorem registerWrite_intPend (s : State) (m : Master) (p : Nat) (v : Word) (hp : p < 0x40) (ha : Accepted s ⟨m, .base⟩ (INT_PEND.addr p))
    (hn : NothingOwed s) :
    Does (.registerWrite m (BitVec.ofNat 32 (INT_PEND.addr p)) v) s fun u =>
      u.rget (INT_RAW.addr p) = s.rget (INT_RAW.addr p) &&& ~~~v ∧ u = { s with regs := u.regs, bus := u.bus }
      ∧ ∀ b, b ≠ INT_RAW.addr p → u.rget b = s.rget b := by
  refine ⟨_, exec_registerWrite_eventOff s m .base p 0x014 v hp (.inr (.inl rfl)), ?_⟩
  have e : s.writeReg pageHook ⟨m, .base⟩ (pageAddr p 0x014) v = _ := writeReg_intPend s m p v hp ha hn
  rw [e]
  exact ⟨rget_rset_self _ _ _, rfl, fun b hb => rget_rset_ne _ _ hb⟩

/-! ## Soft reset -/

/-- `t` is `s` but for registers of a page, dirty bits, the bus and what a phase holds back; the page's OWN stands. -/
structure PageOnly (p : Nat) (s t : State) : Prop where
  eq : t = { s with regs := t.regs, bus := t.bus, phase := t.phase }
  own : t.rget (OWN.addr p) = s.rget (OWN.addr p)
  off : ∀ b, pageOf b ≠ p → b ≠ OVL_DIRTY_LO.addr → b ≠ OVL_DIRTY_HI.addr → t.rget b = s.rget b

theorem dirty_addr_ne (p o : Nat) (ho : o < 0x1000) (hovl : p ≠ Pg.OVL) :
    pageAddr p o ≠ OVL_DIRTY_LO.addr ∧ pageAddr p o ≠ OVL_DIRTY_HI.addr := by
  unfold Pg.OVL at hovl
  unfold pageAddr OVL_DIRTY_LO.addr OVL_DIRTY_HI.addr
  omega

theorem PageOnly.storedBy (s : State) (acc : Acc) (p : Nat) (d : RegDesc) (v : Word) (hp : p < 0x40) (hovl : p ≠ Pg.OVL) :
    PageOnly p s (storedBy s acc (CTRL.addr p) d v) := by
  obtain ⟨hlo, hhi⟩ := dirty_addr_ne p 0x01C (by decide) hovl
  refine ⟨?_, rget_storedBy_ne s acc _ _ d v ?_ hlo hhi, fun b hb => rget_storedBy_ne s acc _ b d v ?_⟩
  · rw [storedBy_eq]
  · unfold OWN.addr CTRL.addr pageAddr
    omega
  · rintro rfl
    exact hb (pageOf_pageAddr p 0x004 hp (by decide))

theorem PageOnly.fset {p : Nat} {s t : State} (h : PageOnly p s t) (f : Fld) (x : Nat) (hf : pageOf f.addr = p)
    (hown : f.addr ≠ OWN.addr p) :
    PageOnly p s (t.fset f x) := by
  refine ⟨?_, (rget_fset_ne t f x _ hown.symm).trans h.own, fun b hb hlo hhi => (rget_fset_ne t f x b ?_).trans (h.off b hb hlo hhi)⟩
  · exact congrArg (·.fset f x) h.eq
  · rintro rfl
    exact hb hf

theorem rget_srstPage (t : State) (p b : Nat) (hlo : b ≠ OVL_DIRTY_LO.addr) (hhi : b ≠ OVL_DIRTY_HI.addr) :
    (t.srstPage p).rget b = if srstClears p b then resetOf b else t.rget b := by
  have e : (t.srstPage p).rget b = (((t.resetRegs (srstClears p)).dropHeld p).dirty p).rget b := rfl
  rw [e, rget_dirty_ne _ p b hlo hhi]
  exact rget_resetRegs t (srstClears p) b

theorem srstPage_eq (t : State) (p : Nat) :
    t.srstPage p = { t with regs := (t.srstPage p).regs, bus := (t.srstPage p).bus, phase := (t.srstPage p).phase } := by
  unfold State.srstPage
  rw [dirty_eq]
  rfl

theorem srstPage_held (t : State) (p : Nat) : (t.srstPage p).bus.held = t.bus.held.filter fun h => pageOf h.2.1 != p := by
  unfold State.srstPage
  rw [dirty_eq]
  rfl

/-- What a soft reset of a page leaves (R50). -/
theorem PageOnly.srstPage {p : Nat} {s t : State} (h : PageOnly p s t) (hp : p < 0x40) (hovl : p ≠ Pg.OVL) (hcul : p ≠ Pg.CUL) :
    (∀ o, 4 ≤ o → o < 0x400 → o ≠ 0x01C → (t.srstPage p).rget (pageAddr p o) = resetOf (pageAddr p o))
      ∧ (t.srstPage p).rget (OWN.addr p) = s.rget (OWN.addr p)
      ∧ (∀ b, pageOf b ≠ p → b ≠ OVL_DIRTY_LO.addr → b ≠ OVL_DIRTY_HI.addr → (t.srstPage p).rget b = s.rget b)
      ∧ (∀ x ∈ (t.srstPage p).bus.held, pageOf x.2.1 ≠ p)
      ∧ t.srstPage p = { s with regs := (t.srstPage p).regs, bus := (t.srstPage p).bus, phase := (t.srstPage p).phase } := by
  refine ⟨fun o _ ho hown => ?_, ?_, fun b hb hlo hhi => ?_, fun x hx => ?_, ?_⟩
  · obtain ⟨hlo, hhi⟩ := dirty_addr_ne p o (by omega) hovl
    have hc : srstClears p (pageAddr p o) = true := by
      simp [srstClears, pageOf_pageAddr p o hp (by omega), offOf_pageAddr p o (by omega), hown, hcul]
    rw [rget_srstPage t p _ hlo hhi, if_pos hc]
  · obtain ⟨hlo, hhi⟩ := dirty_addr_ne p 0x01C (by decide) hovl
    have hc : srstClears p (OWN.addr p) = false := by
      simp [srstClears, OWN.addr, offOf_pageAddr p 0x01C (by decide)]
    rw [rget_srstPage t p (OWN.addr p) hlo hhi, hc, if_neg Bool.false_ne_true, h.own]
  · have hc : srstClears p b = false := by simp [srstClears, hb]
    rw [rget_srstPage t p b hlo hhi, hc, if_neg Bool.false_ne_true, h.off b hb hlo hhi]
  · rw [srstPage_held] at hx
    simpa using (List.mem_filter.1 hx).2
  · exact (srstPage_eq t p).trans (congrArg (fun u : State =>
      { u with regs := (t.srstPage p).regs, bus := (t.srstPage p).bus, phase := (t.srstPage p).phase }) h.eq)

theorem wctxOf_one_srst (s : State) (acc : Acc) (a x : Nat) (d : RegDesc) (v : Word) (hv : acc.view = .base ∨ acc.view = .set)
    (hd : d.w1s.getLsbD 1 = true) (h1 : v.getLsbD 1 = true) : (wctxOf s acc a d v).one ⟨x, 1, 1⟩ = true := by
  have hb : (v &&& d.w1s).toNat.testBit 1 = true := by
    rw [BitVec.testBit_toNat, BitVec.getLsbD_and, h1, hd]
    rfl
  have hones : (wctxOf s acc a d v).ones = (v &&& d.w1s).toNat := by
    rcases hv with hv | hv <;> simp [wctxOf, hv]
  unfold WCtx.one
  rw [hones]
  simp [fieldGet, Nat.testBit_eq_decide_div_mod_eq] at hb ⊢
  omega

/-- The pages whose soft reset meets no work in flight. -/
def QuietPage (p : Nat) : Prop := p = Pg.AGC ∨ p = Pg.NBR ∨ p = Pg.CNP

theorem QuietPage.bounds {p : Nat} (h : QuietPage p) : p < 0x40 ∧ p ≠ Pg.OVL ∧ p ≠ Pg.CUL := by
  rcases h with rfl | rfl | rfl <;> decide

/-- CTRL of these pages takes plain writes, and its SRST is a W1S bit. -/
theorem QuietPage.ctrl {p : Nat} (h : QuietPage p) :
    plainReg (CTRL.addr p) = true ∧ ∃ d, descOf (CTRL.addr p) = some d ∧ d.w1s.getLsbD 1 = true := by
  rcases h with rfl | rfl | rfl
  · exact ⟨by decide +kernel, _, rfl, by decide⟩
  · exact ⟨by decide +kernel, _, rfl, by decide⟩
  · exact ⟨by decide +kernel, _, rfl, by decide⟩

/-- A gain held at the same write lies in the page, which is reset after it. -/
theorem agcHook_srst (w : WCtx) {s t : State} (hoff : w.off = 0x004) (h1 : w.one AGC_CTRL.SRST = true) (h : PageOnly Pg.AGC s t) :
    ∃ t', PageOnly Pg.AGC s t' ∧ agcHook w t = t'.srstPage Pg.AGC := by
  have held {t : State} {c : Bool} {f : Fld} {x : Nat} (h : PageOnly Pg.AGC s t) (hf : pageOf f.addr = Pg.AGC)
      (hown : f.addr ≠ OWN.addr Pg.AGC) : PageOnly Pg.AGC s (if c then t.fset f x else t) := by
    split
    · exact h.fset f x hf hown
    · exact h
  unfold agcHook
  rw [if_pos hoff]
  dsimp only
  rw [if_pos h1]
  exact ⟨_, held (held h (by decide) (by decide)) (by decide) (by decide), rfl⟩

/-- Where SRST is written, the page's hook ends with the soft reset of the page. -/
theorem anyHook_srst (w : WCtx) {s t : State} (hq : QuietPage w.page) (hoff : w.off = 0x004) (h1 : w.one ⟨CTRL.addr w.page, 1, 1⟩ = true)
    (h : PageOnly w.page s t) : ∃ t', PageOnly w.page s t' ∧ anyHook w t = t'.srstPage w.page := by
  unfold anyHook
  rw [if_neg hq.bounds.2.1]
  rcases hq with hq | hq | hq <;> rw [hq] at h h1 ⊢
  · have e : coreHook w t = agcHook w t := by unfold coreHook; rw [hq]; rfl
    rw [e]
    exact agcHook_srst w hoff h1 h
  · have e : coreHook w t = nbrHook w t := by unfold coreHook; rw [hq]; rfl
    rw [e, nbrHook, if_pos hoff]
    exact ⟨t, h, if_pos h1⟩
  · have e : coreHook w t = cnpHook w t := by unfold coreHook; rw [hq]; rfl
    have h1' : w.one CNP_CTRL.SRST = true := h1
    rw [e, cnpHook, if_pos (by simp [hoff, h1'])]
    exact ⟨t, h, rfl⟩

theorem softReset_resets (s : State) (a : Acc) (p : BitVec 6) (v : Word) (hq : QuietPage p.toNat) (ha : Accepted s a (CTRL.addr p.toNat))
    (hn : NothingOwed s) (hv : a.view = .base ∨ a.view = .set) (h1 : v.getLsbD 1 = true) :
    Does (.softReset a p v) s fun u =>
      (∀ o, 4 ≤ o → o < 0x400 → o ≠ 0x01C → u.rget (pageAddr p.toNat o) = resetOf (pageAddr p.toNat o))
      ∧ u.rget (OWN.addr p.toNat) = s.rget (OWN.addr p.toNat)
      ∧ (∀ b, pageOf b ≠ p.toNat → b ≠ OVL_DIRTY_LO.addr → b ≠ OVL_DIRTY_HI.addr → u.rget b = s.rget b)
      ∧ (∀ h ∈ u.bus.held, pageOf h.2.1 ≠ p.toNat) ∧ u = { s with regs := u.regs, bus := u.bus, phase := u.phase } := by
  obtain ⟨hp, hovl, hcul⟩ := hq.bounds
  obtain ⟨hplain, d, hd, hw1s⟩ := hq.ctrl
  have hpage : (wctxOf s a (CTRL.addr p.toNat) d v).page = p.toNat := pageOf_pageAddr p.toNat 0x004 hp (by decide)
  have hoff : (wctxOf s a (CTRL.addr p.toNat) d v).off = 0x004 := baseOff_pageAddr p.toNat 0x004 (by decide)
  have hany := anyHook_srst (wctxOf s a (CTRL.addr p.toNat) d v) (s := s) (t := storedBy s a (CTRL.addr p.toNat) d v)
    (by rw [hpage]; exact hq) hoff
    (wctxOf_one_srst s a _ _ d v hv hw1s h1) (by rw [hpage]; exact .storedBy s a p.toNat d v hp hovl)
  rw [hpage] at hany
  obtain ⟨t, ht, e⟩ := hany
  obtain ⟨hregs, hown, hother, hheld, hframe⟩ := ht.srstPage hp hovl hcul
  refine ⟨t.srstPage p.toNat, ?_, hregs, hown, hother, hheld, hframe⟩
  show Host.Outcome.next (s.writeReg pageHook a (CTRL.addr p.toNat) v) = _
  rw [writeReg_ok pageHook s a _ v d ha hplain hd, pageHook_of_nothingOwed, e]
  rw [e, hframe]
  exact hn

/-- Settles O10: INT_EN and EVT_EN, INT_PEND, and the soft reset of AGC, NBR and CNP. -/
theorem registerWrites : Obligations.RegisterWrites :=
  ⟨registerWrite_enables, registerWrite_intPend, softReset_resets⟩

end Sys2Proof.Machine
end

section
/-!
THE STORES STAY CANONICAL (O3). Every operation of the model, from a field's write to a command, is followed from a state `s₀`: the
relation `Kept s₀` holds at `s₀`, each operation keeps it, and a command completes in a state that has it. One lemma `Kept.<operation>`
per operation of the model, in the model's order; a proof names the operations that the operation is made of.
-/
namespace Sys2Proof.Machine
open Sys2Proof
-- A thousand lemmas checked at once take more threads than the check's memory limit allows: check them one after another.
set_option Elab.async false

/-! ## The relation -/

/-- `s` has come from `s₀` by effects of the block: the queue stands, and the stores are canonical if they were. -/
def Kept (s₀ s : State) : Prop := s.pending = s₀.pending ∧ (Canonical s₀ → Canonical s)

/-- The state with which an access of a core ends, if it ends, has come from `s₀`. -/
inductive GotKept (s₀ : State) : Got → Prop where
  | ok {v : Nat} {t : State} (h : Kept s₀ t) : GotKept s₀ (.ok v t)
  | fault {f : Flt} {t : State} (h : Kept s₀ t) : GotKept s₀ (.fault f t)
  | stall : GotKept s₀ .stall

/-- A state that may be missing has come from `s₀`. -/
inductive OptKept (s₀ : State) : Option State → Prop where
  | some {t : State} (h : Kept s₀ t) : OptKept s₀ (some t)
  | none : OptKept s₀ none

/-- What a read with an effect of its own leaves, where the register has one, has come from `s₀`. -/
inductive ReadKept (s₀ : State) : Option (State × Nat) → Prop where
  | some {r : State × Nat} (h : Kept s₀ r.1) : ReadKept s₀ (some r)
  | none : ReadKept s₀ none

/-- A command completes, and its next state has come from `s₀`. -/
inductive OutKept (s₀ : State) : Host.Outcome State Fault Refusal → Prop where
  | next {t : State} (h : Kept s₀ t) : OutKept s₀ (.next t)

variable {s₀ s : State}

theorem GotKept.ofOk {g : Got} {v : Nat} {t : State} (hg : GotKept s₀ g) (e : g = .ok v t) : Kept s₀ t := by
  subst e; cases hg; assumption
theorem GotKept.ofFault {g : Got} {f : Flt} {t : State} (hg : GotKept s₀ g) (e : g = .fault f t) : Kept s₀ t := by
  subst e; cases hg; assumption
theorem OptKept.ofSome {o : Option State} {t : State} (ho : OptKept s₀ o) (e : o = .some t) : Kept s₀ t := by
  subst e; cases ho; assumption

theorem ReadKept.ofSome {o : Option (State × Nat)} {r : State × Nat} (ho : ReadKept s₀ o) (e : o = .some r) : Kept s₀ r.1 := by
  subst e; cases ho; assumption

theorem Kept.refl (s : State) : Kept s s := ⟨rfl, id⟩
theorem Kept.ofFst {α : Type} {p : State × α} {t : State} {x : α} (h : Kept s₀ p.1) (e : p = (t, x)) : Kept s₀ t := by subst e; exact h
theorem Kept.ofSnd {α : Type} {p : α × State} {t : State} {x : α} (h : Kept s₀ p.2) (e : p = (x, t)) : Kept s₀ t := by subst e; exact h
theorem Kept.ofSnd₂ {α β : Type} {p : α × β × State} {t : State} {x : α} {y : β} (h : Kept s₀ p.2.2) (e : p = (x, y, t)) : Kept s₀ t := by
  subst e; exact h

/-! ## Branches and loops -/

section
variable {α β : Type} {c : Prop} {d : Decidable c}

protected theorem Kept.ite {a b : State} (ha : Kept s₀ a) (hb : Kept s₀ b) : Kept s₀ (@ite _ c d a b) := by split <;> assumption
protected theorem Kept.iteFst {a b : State × α} (ha : Kept s₀ a.1) (hb : Kept s₀ b.1) : Kept s₀ (@ite _ c d a b).1 := by
  split <;> assumption
protected theorem Kept.iteSnd {a b : α × State} (ha : Kept s₀ a.2) (hb : Kept s₀ b.2) : Kept s₀ (@ite _ c d a b).2 := by
  split <;> assumption
protected theorem Kept.iteSnd₂ {a b : α × β × State} (ha : Kept s₀ a.2.2) (hb : Kept s₀ b.2.2) : Kept s₀ (@ite _ c d a b).2.2 := by
  split <;> assumption
protected theorem GotKept.ite {a b : Got} (ha : GotKept s₀ a) (hb : GotKept s₀ b) : GotKept s₀ (@ite _ c d a b) := by split <;> assumption
protected theorem OptKept.ite {a b : Option State} (ha : OptKept s₀ a) (hb : OptKept s₀ b) :
    OptKept s₀ (@ite _ c d a b) := by split <;> assumption
protected theorem ReadKept.ite {a b : Option (State × Nat)} (ha : ReadKept s₀ a) (hb : ReadKept s₀ b) : ReadKept s₀ (@ite _ c d a b) := by
  split <;> assumption
protected theorem OutKept.ite {a b : Host.Outcome State Fault Refusal} (ha : OutKept s₀ a) (hb : OutKept s₀ b) :
    OutKept s₀ (@ite _ c d a b) := by
  split <;> assumption

/-- Something is done to a state when a condition holds. -/
theorem Kept.when {t : State} (h : Kept s₀ s) (hf : Kept s₀ s → Kept s₀ t) : Kept s₀ (@ite _ c d t s) := .ite (hf h) h
/-- Something is done to a state unless a condition holds. -/
theorem Kept.unless {t : State} (h : Kept s₀ s) (hf : Kept s₀ s → Kept s₀ t) : Kept s₀ (@ite _ c d s t) := .ite h (hf h)
/-- One of two things is done to a state. -/
theorem Kept.either {t u : State} (h : Kept s₀ s) (hf : Kept s₀ s → Kept s₀ t) (hg : Kept s₀ s → Kept s₀ u) : Kept s₀ (@ite _ c d t u) :=
  .ite (hf h) (hg h)

theorem Kept.foldl {f : State → α → State} {l : List α} (h : Kept s₀ s) (hf : ∀ {t x}, Kept s₀ t → Kept s₀ (f t x)) :
    Kept s₀ (l.foldl f s) := by
  induction l generalizing s with
  | nil => exact h
  | cons x l ih => exact ih (hf h)

theorem Kept.foldlFst {f : State × β → α → State × β} {l : List α} {r : State × β} (h : Kept s₀ r.1)
    (hf : ∀ {t x}, Kept s₀ t.1 → Kept s₀ (f t x).1) : Kept s₀ (l.foldl f r).1 := by
  induction l generalizing r with
  | nil => exact h
  | cons x l ih => exact ih (hf h)

theorem Kept.foldlSnd {f : β × State → α → β × State} {l : List α} {r : β × State} (h : Kept s₀ r.2)
    (hf : ∀ {t x}, Kept s₀ t.2 → Kept s₀ (f t x).2) : Kept s₀ (l.foldl f r).2 := by
  induction l generalizing r with
  | nil => exact h
  | cons x l ih => exact ih (hf h)

theorem Kept.foldr {f : α → State → State} {l : List α} (h : Kept s₀ s) (hf : ∀ {x t}, Kept s₀ t → Kept s₀ (f x t)) :
    Kept s₀ (l.foldr f s) := by
  induction l with
  | nil => exact h
  | cons x l ih => exact hf ih

theorem Kept.elim {o : Option α} {f : α → State} (h : Kept s₀ s) (hf : ∀ {x}, Kept s₀ (f x)) : Kept s₀ (o.elim s f) := by
  cases o with
  | none => exact h
  | some x => exact hf

theorem Kept.elimFst {o : Option α} {r : State × β} {f : α → State × β} (h : Kept s₀ r.1) (hf : ∀ {x}, Kept s₀ (f x).1) :
    Kept s₀ (o.elim r f).1 := by
  cases o with
  | none => exact h
  | some x => exact hf

theorem OptKept.getD {o : Option State} (ho : OptKept s₀ o) (h : Kept s₀ s) : Kept s₀ (o.getD s) := by
  cases ho with
  | some ht => exact ht
  | none => exact h

theorem OptKept.map {o : Option State} {f : State → State} (ho : OptKept s₀ o) (hf : ∀ {t}, Kept s₀ t → Kept s₀ (f t)) :
    OptKept s₀ (o.map f) := by
  cases ho with
  | some ht => exact .some (hf ht)
  | none => exact .none

end

/-! ## Parts of the state outside the stores -/

theorem Kept.withNow {x : Nat} (h : Kept s₀ s) : Kept s₀ { s with now := x } := h
theorem Kept.withFreeCtr {x : Nat} (h : Kept s₀ s) : Kept s₀ { s with freeCtr := x } := h
theorem Kept.withSys {x : SysS} (h : Kept s₀ s) : Kept s₀ { s with sys := x } := h
theorem Kept.withPwr {x : PwrS} (h : Kept s₀ s) : Kept s₀ { s with pwr := x } := h
theorem Kept.withBus {x : BusState} (h : Kept s₀ s) : Kept s₀ { s with bus := x } := h
theorem Kept.withProt {x : ProtState} (h : Kept s₀ s) : Kept s₀ { s with prot := x } := h
theorem Kept.withOvl {x : OvlState} (h : Kept s₀ s) : Kept s₀ { s with ovl := x } := h
theorem Kept.withNtu {x : NtuState} (h : Kept s₀ s) : Kept s₀ { s with ntu := x } := h
theorem Kept.withCul {x : CulState} (h : Kept s₀ s) : Kept s₀ { s with cul := x } := h
theorem Kept.withRfe {x : RfeState} (h : Kept s₀ s) : Kept s₀ { s with rfe := x } := h
theorem Kept.withSlot {x : Option Slot} (h : Kept s₀ s) : Kept s₀ { s with slot := x } := h
theorem Kept.withCad {x : CadState} (h : Kept s₀ s) : Kept s₀ { s with cad := x } := h
theorem Kept.withLanes {x : List Lane} (h : Kept s₀ s) : Kept s₀ { s with lanes := x } := h
theorem Kept.withFec {x : FecState} (h : Kept s₀ s) : Kept s₀ { s with fec := x } := h
theorem Kept.withTrf {x : TrfState} (h : Kept s₀ s) : Kept s₀ { s with trf := x } := h
theorem Kept.withHdr {x : HdrState} (h : Kept s₀ s) : Kept s₀ { s with hdr := x } := h
theorem Kept.withPhase {x : Phase} (h : Kept s₀ s) : Kept s₀ { s with phase := x } := h
theorem Kept.withTxm {x : TxmState} (h : Kept s₀ s) : Kept s₀ { s with txm := x } := h
theorem Kept.withKeys {x : List KeySlot} (h : Kept s₀ s) : Kept s₀ { s with keys := x } := h
theorem Kept.withCoreA {x : Core} (h : Kept s₀ s) : Kept s₀ { s with coreA := x } := h
theorem Kept.withCoreG {x : Core} (h : Kept s₀ s) : Kept s₀ { s with coreG := x } := h
theorem Kept.withCaches {x : Caches} (h : Kept s₀ s) : Kept s₀ { s with caches := x } := h
theorem Kept.withDma {x : List DmaCh} (h : Kept s₀ s) : Kept s₀ { s with dma := x } := h
theorem Kept.withDmaLast {x : Nat} (h : Kept s₀ s) : Kept s₀ { s with dmaLast := x } := h
theorem Kept.withFlash {x : FlashState} (h : Kept s₀ s) : Kept s₀ { s with flash := x } := h
theorem Kept.withMemst {x : MemState} (h : Kept s₀ s) : Kept s₀ { s with memst := x } := h
theorem Kept.withStaged {x : List (Nat × Word)} (h : Kept s₀ s) : Kept s₀ { s with staged := x } := h
theorem Kept.withCipu {x : List Cipu} (h : Kept s₀ s) : Kept s₀ { s with cipu := x } := h
theorem Kept.withUpd {x : UpdState} (h : Kept s₀ s) : Kept s₀ { s with upd := x } := h
theorem Kept.withTmr {x : List Tmr} (h : Kept s₀ s) : Kept s₀ { s with tmr := x } := h
theorem Kept.withRtc {x : RtcState} (h : Kept s₀ s) : Kept s₀ { s with rtc := x } := h
theorem Kept.withPads {x : Pads} (h : Kept s₀ s) : Kept s₀ { s with pads := x } := h
theorem Kept.withHsp {x : HspState} (h : Kept s₀ s) : Kept s₀ { s with hsp := x } := h
theorem Kept.withPsp {x : PspState} (h : Kept s₀ s) : Kept s₀ { s with psp := x } := h
theorem Kept.withTst {x : TstState} (h : Kept s₀ s) : Kept s₀ { s with tst := x } := h
/-- Several parts beside the stores at once. -/
theorem Kept.withParts {t : State} (h : Kept s₀ s) (hr : t.regs = s.regs := by rfl) (hm : t.mem = s.mem := by rfl)
    (hg : t.glade = s.glade := by rfl) (hp : t.pending = s.pending := by rfl) : Kept s₀ t := by
  unfold Kept Canonical
  rw [hr, hm, hg, hp]
  exact h

/-! ## The stores -/

theorem Kept.rset {a : Nat} {v : Word} (h : Kept s₀ s) : Kept s₀ (s.rset a v) :=
  ⟨h.1, fun h₀ => ⟨regPut_wf _ (h.2 h₀).1 a v, (h.2 h₀).2⟩⟩
theorem Kept.filterRegs {p : Nat × Word → Bool} (h : Kept s₀ s) : Kept s₀ { s with regs := s.regs.filter p } :=
  ⟨h.1, fun h₀ => ⟨regFilter_wf _ (h.2 h₀).1 p, (h.2 h₀).2⟩⟩
theorem Kept.resetRegs {p : Nat → Bool} (h : Kept s₀ s) : Kept s₀ (s.resetRegs p) := h.filterRegs
theorem Kept.setByte {a : Nat} {v : Byte} (h : Kept s₀ s) : Kept s₀ (s.setByte a v) :=
  ⟨h.1, fun h₀ => ⟨(h.2 h₀).1, cellPut_wf _ _ (h.2 h₀).2.1 a v, (h.2 h₀).2.2⟩⟩
theorem Kept.setBytes {a n v : Nat} (h : Kept s₀ s) : Kept s₀ (s.setBytes a n v) := by
  induction n generalizing s a v with
  | zero => exact h
  | succ n ih => exact ih h.setByte
theorem Kept.setList {a : Nat} {l : List Byte} (h : Kept s₀ s) : Kept s₀ (s.setList a l) := by
  induction l generalizing s a with
  | nil => exact h
  | cons b l ih => exact ih h.setByte
theorem Kept.clearRange {lo hi : Nat} (h : Kept s₀ s) : Kept s₀ (s.clearRange lo hi) :=
  ⟨h.1, fun h₀ => ⟨(h.2 h₀).1, cellFilter_wf _ _ (h.2 h₀).2.1 _, (h.2 h₀).2.2⟩⟩

/-- The canonical form of the Glade's memory. -/
abbrev Glade.wf (g : Glade) : Prop := Cells.wf g.default g.mem

theorem Kept.gladeTo {g : Glade} (h : Kept s₀ s) (hg : s.glade.wf → g.wf) : Kept s₀ { s with glade := g } :=
  ⟨h.1, fun h₀ => ⟨(h.2 h₀).1, (h.2 h₀).2.1, hg (h.2 h₀).2.2⟩⟩
theorem Kept.withGlade {g : Glade} (h : Kept s₀ s) (hg : s.glade.wf → g.wf := by exact id) : Kept s₀ { s with glade := g } := h.gladeTo hg
theorem Kept.setGlade {f : Glade → Glade} (h : Kept s₀ s) (hf : s.glade.wf → (f s.glade).wf := by exact id) : Kept s₀ (s.setGlade f) :=
  h.gladeTo hf

/-! ## Time and events -/

theorem Kept.advance {t : Frc} (h : Kept s₀ s) : Kept s₀ (s.advance t) := by
  have e := advance_only s t
  unfold TimeOnly at e
  rw [e]
  exact h
/-- Events do nothing but what `EventsOnly` says. -/
theorem Kept.events {t : State} (h : Kept s₀ s) (e : EventsOnly s t) : Kept s₀ t := by
  obtain ⟨he, -, hw⟩ := e
  rw [he]
  exact ⟨h.1, fun h₀ => ⟨hw (h.2 h₀).1, (h.2 h₀).2⟩⟩
theorem Kept.raiseAll {n : Nat} {ps : List Nat} (h : Kept s₀ s) : Kept s₀ (s.raiseAll n ps) := h.events (eventsOnly_raiseAll n ps s)
theorem Kept.publishAll {ps : List Nat} (h : Kept s₀ s) : Kept s₀ (s.publishAll ps) := h.raiseAll

/-! ## The operations of Machine/Ops.lean -/

theorem Kept.fset {f : Fld} {x : Nat} (h : Kept s₀ s) : Kept s₀ (s.fset f x) := h.rset
theorem Kept.fsetB {f : Fld} {b : Bool} (h : Kept s₀ s) : Kept s₀ (s.fsetB f b) := h.fset
theorem Kept.fsetI {f : Fld} {x : Int} (h : Kept s₀ s) : Kept s₀ (s.fsetI f x) := h.fset
theorem Kept.fadd {f : Fld} {n : Nat} (h : Kept s₀ s) : Kept s₀ (s.fadd f n) := h.fset
theorem Kept.finc {f : Fld} (h : Kept s₀ s) : Kept s₀ (s.finc f) := h.fadd
theorem Kept.rsetN {a v : Nat} (h : Kept s₀ s) : Kept s₀ (s.rsetN a v) := h.rset
theorem Kept.raise {p bit : Nat} (h : Kept s₀ s) : Kept s₀ (s.raise p bit) := h.fset
theorem Kept.freeStep (h : Kept s₀ s) : Kept s₀ s.freeStep := h.withFreeCtr
theorem Kept.reAnchorAt (h : Kept s₀ s) : Kept s₀ s.reAnchorAt := h.withNtu
theorem Kept.slew {t : Nat} (h : Kept s₀ s) : Kept s₀ (s.slew t) := .ite h h.withNtu
theorem Kept.audit {src : Source} {kind page off count old new : Nat} (h : Kept s₀ s) :
    Kept s₀ (s.audit src kind page off count old new) :=
  h.withProt.fset.raise
theorem Kept.reject {src : Source} {page off : Nat} {wr : Bool} {cause : Nat} (h : Kept s₀ s) :
    Kept s₀ (s.reject src page off wr cause) :=
  h.rsetN.finc.fset.raise.withBus

/-! ## The operations of Machine/Events.lean -/

theorem Kept.tmrSet {n : Nat} {f : Tmr → Tmr} (h : Kept s₀ s) : Kept s₀ (s.tmrSet n f) := h.withTmr
theorem Kept.tmrArm {n k : Nat} (h : Kept s₀ s) : Kept s₀ (s.tmrArm n k) := h.fset
theorem Kept.tmrDisarm {n k : Nat} (h : Kept s₀ s) : Kept s₀ (s.tmrDisarm n k) := h.fset
theorem Kept.tmrArmAll {n : Nat} (h : Kept s₀ s) : Kept s₀ (s.tmrArmAll n) := h.foldl fun h => h.tmrArm
theorem Kept.tmrReset {n : Nat} (h : Kept s₀ s) : Kept s₀ (s.tmrReset n) := h.rsetN.tmrArmAll
theorem Kept.tmrStart {n : Nat} (h : Kept s₀ s) : Kept s₀ (s.tmrStart n) := h.fset.tmrArmAll
theorem Kept.tmrChain {n src : Nat} (h : Kept s₀ s) : Kept s₀ (s.tmrChain n src) := by
  unfold State.tmrChain
  split
  · exact h
  · split
    · exact h.tmrReset
    · exact h.tmrStart
    · exact h.tmrReset
    · exact h
theorem Kept.tmrTick {n : Nat} (h : Kept s₀ s) : Kept s₀ (s.tmrTick n).1 := .iteFst h (.iteFst h.rsetN h.rsetN.tmrArmAll.raise.tmrChain)
theorem Kept.tmrClock {n : Nat} (h : Kept s₀ s) : Kept s₀ (s.tmrClock n).1 := .iteFst h (.iteFst h.tmrSet.tmrTick h.tmrSet)
theorem Kept.tmrLand {n k : Nat} (h : Kept s₀ s) : Kept s₀ (s.tmrLand n k).1 := (h.rsetN.when fun h => h.fset.raise).fset.raise.tmrChain
theorem Kept.tmrEdge {n k : Nat} (h : Kept s₀ s) : Kept s₀ (s.tmrEdge n k).1 :=
  .iteFst h (.iteFst (.iteFst h.tmrSet h.tmrSet.tmrLand) h.tmrLand)
theorem Kept.onTimers {f : Nat → State → State × List Nat} (h : Kept s₀ s) (hf : ∀ {x0 t}, Kept s₀ t → Kept s₀ (f x0 t).1) :
    Kept s₀ (s.onTimers f).1 :=
  h.foldlFst hf
theorem Kept.adcStart (h : Kept s₀ s) : Kept s₀ s.adcStart := .ite h (.ite h.finc h.withPads)
theorem Kept.dmaRequest {ch : Nat} (h : Kept s₀ s) : Kept s₀ (s.dmaRequest ch) := .ite h (.ite h.withDma h.finc)
theorem Kept.irqLatch {c : Nat} (h : Kept s₀ s) : Kept s₀ (s.irqLatch c) := .ite h h.withCoreA
theorem Kept.wakeEvent {b : Nat} (h : Kept s₀ s) : Kept s₀ (s.wakeEvent b) := .ite h h.withPwr
theorem Kept.consume {c : Nat} (h : Kept s₀ s) : Kept s₀ (s.consume c).1 :=
  .iteFst h.irqLatch (.iteFst h.dmaRequest (.iteFst h.wakeEvent (.iteFst h.withCul (.iteFst (.ite h.adcStart h) (.iteFst h.tmrStart
    (.iteFst h.tmrReset (.iteFst (h.onTimers (fun h => .iteFst h.tmrEdge h)) (h.onTimers (fun h => h.tmrClock)))))))))
theorem Kept.deliver {c : Nat} (h : Kept s₀ s) : Kept s₀ (s.deliver c).1 := .iteFst h.consume h.fset.finc.raise
theorem Kept.culMerge {n : Nat} (h : Kept s₀ s) : Kept s₀ (s.culMerge n) := .ite h h.fset.fadd
theorem Kept.route {cs : List Nat} (h : Kept s₀ s) : Kept s₀ (s.route cs).1 :=
  (h.culMerge.when fun h => h.finc).foldlFst fun h => h.deliver
theorem Kept.publish {p : Nat} (h : Kept s₀ s) : Kept s₀ (s.publish p) := h.publishAll
theorem Kept.event {page bit p : Nat} (h : Kept s₀ s) : Kept s₀ (s.event page bit p) := .ite h.publish h

/-! ## The operations of Machine/Access.lean -/

theorem Kept.dirty {p : Nat} (h : Kept s₀ s) : Kept s₀ (s.dirty p) := .ite h.fset h.fset
theorem Kept.holdLow {m : Master} {a : Nat} {v : Word} (h : Kept s₀ s) : Kept s₀ (s.holdLow m a v) := h.withBus
theorem Kept.landLow {m : Master} {a : Nat} (h : Kept s₀ s) : Kept s₀ (s.landLow m a) := by
  unfold State.landLow
  split
  · exact h.rset.withBus
  · exact h
theorem Kept.applyWrite {m : Master} {src : Source} {a : Nat} {v : Word} (h : Kept s₀ s) : Kept s₀ (s.applyWrite m src a v).1 := by
  unfold State.applyWrite
  extract_lets p off view ra old b
  have hb : Kept s₀ b := h.when fun h => h.dirty
  exact .elimFst h (.iteFst (.iteFst hb.fset.raise.audit hb.rset.audit)
    (.iteFst (hb.when fun h => h.rset) (.iteFst hb.holdLow (.iteFst hb.landLow.rset hb.rset))))
theorem Kept.writeAs {hook : WCtx → State → State} {m : Master} {src : Source} {a : Nat} {v : Word} (hf : ∀ {x0 t}, Kept s₀ t → Kept s₀
    (hook x0 t)) (h : Kept s₀ s) :
    Kept s₀ (State.writeAs hook m src a v s) := by
  unfold State.writeAs
  split
  · exact h.withBus
  · exact h.reject
  · split
    · next e => exact hf (h.withBus.applyWrite.ofFst e)
    · next e => exact (h.withBus.applyWrite.ofFst e)
theorem Kept.write {hook : WCtx → State → State} {m : Master} {a : Nat} {v : Word} (hf : ∀ {x0 t}, Kept s₀ t → Kept s₀ (hook x0 t))
    (h : Kept s₀ s) :
    Kept s₀ (State.write hook m a v s) :=
  h.writeAs hf
theorem Kept.writeReg {hook : WCtx → State → State} {acc : Acc} {a : Nat} {v : Word} (hf : ∀ {x0 t}, Kept s₀ t → Kept s₀ (hook x0 t))
    (h : Kept s₀ s) :
    Kept s₀ (State.writeReg hook acc a v s) :=
  h.write hf
theorem Kept.readAs {m : Master} {a : Nat} {f : State → State × Nat} (h : Kept s₀ s) (hf : ∀ {t}, Kept s₀ t → Kept s₀ (f t).1) :
    Kept s₀ (s.readAs m a f) := by
  unfold State.readAs
  dsimp only
  split
  · exact h.withBus
  · exact h.reject
  · exact (hf h).withBus
theorem Kept.portWrite {hook : WCtx → State → State} {acc : Acc} {a cur : Nat} {v : Word} (hf : ∀ {x0 t}, Kept s₀ t → Kept s₀ (hook x0 t))
    (h : Kept s₀ s) :
    Kept s₀ (State.portWrite hook acc a cur v s) :=
  (h.rsetN.writeReg hf).rset
theorem Kept.dropHeld {p : Nat} (h : Kept s₀ s) : Kept s₀ (s.dropHeld p) := h.withBus
theorem Kept.srstPage {p : Nat} (h : Kept s₀ s) : Kept s₀ (s.srstPage p) := h.resetRegs.dropHeld.dirty.withPhase

/-! ## The operations of Machine/Mem.lean -/

theorem Kept.setWord {a v : Nat} (h : Kept s₀ s) : Kept s₀ (s.setWord a v) := h.setBytes
theorem Kept.eccUe {a : Nat} (h : Kept s₀ s) : Kept s₀ (s.eccUe a) := h.finc.rsetN
theorem Kept.setMemst {f : MemState → MemState} (h : Kept s₀ s) : Kept s₀ (s.setMemst f) := h.withMemst
theorem Kept.eccFix {a : Nat} (h : Kept s₀ s) : Kept s₀ (s.eccFix a) := h.setMemst
theorem Kept.eccCheck {a : Nat} (h : Kept s₀ s) : Kept s₀ (s.eccCheck a).1 := by
  unfold State.eccCheck
  split
  · exact h
  · exact h.eccFix.finc
  · exact h.eccUe
theorem Kept.eccSweep {p : Nat → Bool} (h : Kept s₀ s) : Kept s₀ (s.eccSweep p).1 := h.foldlFst fun h => h.eccCheck
theorem Kept.fabricSet {a v : Nat} (h : Kept s₀ s) : Kept s₀ (s.fabricSet a v) := h.eccCheck.unless fun h => h.setWord
theorem Kept.mset {a lo w x : Nat} (h : Kept s₀ s) : Kept s₀ (s.mset a lo w x) := h.fabricSet

/-! ## The operations of Machine/Commit.lean -/

theorem Kept.phaseBegin (h : Kept s₀ s) : Kept s₀ s.phaseBegin := h
theorem Kept.hold {t : State} (h2 : Kept s₀ t) : Kept s₀ (s.hold t) := h2.withPhase
theorem Kept.seen {a : Nat} (h : Kept s₀ s) : Kept s₀ (s.seen a) := by
  unfold State.seen
  split
  · refine ⟨h.1, fun h₀ => ⟨?_, (h.2 h₀).2⟩⟩
    exact List.foldlRecOn (motive := fun l => RegStore.wf l = true) _ _ (h.2 h₀).1 fun l hl q _ => regPut_wf l hl _ _
  · exact h
theorem Kept.unhold {a n : Nat} (h : Kept s₀ s) : Kept s₀ (s.unhold a n) := h.withPhase
theorem Kept.rcShown {a : Nat} {rc : Word} (h : Kept s₀ s) : Kept s₀ (s.rcShown a rc) := by
  unfold State.rcShown
  split
  · exact h.rset.withPhase
  · exact h.rset

/-! ## The operations of Machine/Memory.lean -/

theorem Kept.ramRead {a n : Nat} (h : Kept s₀ s) : Kept s₀ (s.ramRead a n).1 := .iteFst h (.iteFst h.eccCheck h.eccCheck)
theorem Kept.sramUse {a : Nat} (h : Kept s₀ s) : Kept s₀ (s.sramUse a) := .ite h.fset.setMemst h
theorem Kept.ramNote {a : Nat} (h : Kept s₀ s) : Kept s₀ (s.ramNote a) := .ite h.withCad (.ite (.ite h h.setWord) h.sramUse)
theorem Kept.ramWrite {a n v : Nat} (h : Kept s₀ s) : Kept s₀ (s.ramWrite a n v).1 :=
  .iteFst h (.iteFst h.eccFix.setBytes.ramNote.unhold (.iteFst h.eccCheck h.eccCheck.setBytes.ramNote.unhold))
theorem Kept.setFlash {f : FlashState → FlashState} (h : Kept s₀ s) : Kept s₀ (s.setFlash f) := h.withFlash
theorem Kept.flashError {kind a : Nat} (h : Kept s₀ s) : Kept s₀ (s.flashError kind a) :=
  h.fset.fset.either (fun h => h.fset.raise) fun h => h.fset.raise
theorem Kept.flashCorr {b n : Nat} (h : Kept s₀ s) : Kept s₀ (s.flashCorr b n) := h.setFlash
theorem Kept.flashRead {a n : Nat} (h : Kept s₀ s) : Kept s₀ (s.flashRead a n).1 := by
  unfold State.flashRead
  split
  · exact h
  · split
    · exact h
    · split
      · exact h.flashError
      · split
        · exact .iteFst h.freeStep.flashError h.freeStep
        · split
          · exact .iteFst h.flashError h.flashCorr
          · exact h
theorem Kept.flashLoose {a n : Nat} (h : Kept s₀ s) : Kept s₀ (s.flashLoose a n) := h.foldl fun h => h.setList.withFreeCtr.setFlash
theorem Kept.flashSweep {a n : Nat} (h : Kept s₀ s) : Kept s₀ (s.flashSweep a n) := h.foldl fun h => h.flashCorr
theorem Kept.flashTake {a n : Nat} (h : Kept s₀ s) : Kept s₀ (s.flashTake a n).1 := by
  unfold State.flashTake
  split
  · exact h
  · split
    · exact h
    · split
      · exact h.flashSweep.flashError
      · exact h.flashSweep
theorem Kept.rangeRead {a n : Nat} (h : Kept s₀ s) : Kept s₀ (s.rangeRead a n).1 := by
  unfold State.rangeRead
  split
  · exact h.flashLoose.flashTake
  · exact .iteFst h h.eccSweep
  · exact h
theorem Kept.memRead {m : Master} {a n : Nat} (h : Kept s₀ s) : Kept s₀ (s.memRead m a n).1 := by
  unfold State.memRead
  dsimp only
  split
  · exact h
  · split
    · exact h
    · split
      · exact h
      · split
        · exact h
        · split
          · exact h.flashRead
          · split
            · split <;> exact h
            · exact h.ramRead
theorem Kept.memWrite {m : Master} {a n v : Nat} (h : Kept s₀ s) : Kept s₀ (s.memWrite m a n v).1 :=
  .iteFst h (.iteFst (.iteFst h (.iteFst h h.ramWrite)) h)
theorem Kept.execBankClearDone (h : Kept s₀ s) : OutKept s₀ (execBankClearDone s) := .next h.setMemst
theorem Kept.execSysSramUseWrite {a : Acc} {v : Word} (h : Kept s₀ s) : OutKept s₀ (execSysSramUseWrite a v s) :=
  .next (h.writeReg (fun h => h))

/-! ## The operations of Machine/Keys.lean -/

theorem Kept.setKey {n : Nat} {k : KeySlot} (h : Kept s₀ s) : Kept s₀ (s.setKey n k) := h.withKeys
theorem Kept.keyExhaust {n : Nat} (h : Kept s₀ s) : Kept s₀ (s.keyExhaust n) := .ite h h.setKey.finc.raise.event
theorem Kept.keyUse {n : Nat} (h : Kept s₀ s) : Kept s₀ (s.keyUse n) := h.setKey.when fun h => h.keyExhaust
theorem Kept.takeCounter {n : Nat} (h : Kept s₀ s) : Kept s₀ (s.takeCounter n).2 :=
  .ite (h.setKey.keyUse.when fun h => h.rsetN).keyExhaust h.setKey.keyUse

/-! ## The operations of Machine/Pool.lean -/

theorem Kept.descSet {c word lo w x : Nat} (h : Kept s₀ s) : Kept s₀ (s.descSet c word lo w x) := h.mset
theorem Kept.setTrf {f : TrfState → TrfState} (h : Kept s₀ s) : Kept s₀ (s.setTrf f) := h.withTrf
theorem Kept.cellsTo {cs : List Nat} {st : Option CellState} (h : Kept s₀ s) : Kept s₀ (s.cellsTo cs st) := h.setTrf
theorem Kept.putOctets {l : List Nat} {bs : List Byte} {first : Bool} (h : Kept s₀ s) : Kept s₀ (s.putOctets l bs first) := by
  induction l generalizing s bs first with
  | nil => exact h
  | cons c l ih => exact ih h.setList
theorem Kept.linkChain {l : List Nat} (h : Kept s₀ s) : Kept s₀ (s.linkChain l) := by
  induction l generalizing s with
  | nil => exact h
  | cons c l ih =>
    cases l with
    | nil => exact h.setWord
    | cons d l =>
      unfold State.linkChain
      exact ih h.setWord
theorem Kept.freeChain {cs : List Nat} (h : Kept s₀ s) : Kept s₀ (s.freeChain cs) := h.cellsTo
theorem Kept.setQueue {q : Nat} {l : List Nat} (h : Kept s₀ s) : Kept s₀ (s.setQueue q l) := h.setTrf
theorem Kept.frameLeaves {q c result : Nat} (h : Kept s₀ s) : Kept s₀ (s.frameLeaves q c result) := by
  unfold State.frameLeaves
  extract_lets a b cs d e f
  have hd : Kept s₀ d := h.setQueue.setTrf.descSet.descSet
  have he : Kept s₀ e := .ite hd.finc (.ite hd.finc (.ite hd.finc hd.finc))
  exact .ite he.freeChain he.cellsTo.setTrf.raise.event

/-! ## The operations of Machine/Tables.lean -/

theorem Kept.cellUsed {i asn : Nat} (h : Kept s₀ s) : Kept s₀ (s.cellUsed i asn) := h.mset.fabricSet
theorem Kept.cellFail {i : Nat} (h : Kept s₀ s) : Kept s₀ (s.cellFail i) := h.mset
theorem Kept.nbrSet {n word lo w x : Nat} (h : Kept s₀ s) : Kept s₀ (s.nbrSet n word lo w x) := h.mset
theorem Kept.nbrInit {n : Nat} (h : Kept s₀ s) : Kept s₀ (s.nbrInit n) := by
  unfold State.nbrInit
  exact h.withCad.nbrSet.nbrSet.nbrSet.nbrSet.nbrSet.nbrSet
    |>.fabricSet.fabricSet.fabricSet.fabricSet.fabricSet.fabricSet.fabricSet.fabricSet.fabricSet.fabricSet
theorem Kept.guardUpdate {n asn : Nat} (h : Kept s₀ s) : Kept s₀ (s.guardUpdate n asn) := by
  unfold State.guardUpdate
  dsimp only
  refine .when ?_ fun h => h.nbrSet.raise.event
  split
  · exact .ite (h.nbrSet.nbrSet.finc.raise.event.when fun h => h.raise) h.nbrSet
  · exact h.nbrSet
theorem Kept.estUpdate {n : Nat} {want : Int} (h : Kept s₀ s) : Kept s₀ (s.estUpdate n want) :=
  .ite h (.ite (.ite h.withCad.fabricSet h) h.withCad.fabricSet)
theorem Kept.wantFit {w : Int} (h : Kept s₀ s) : Kept s₀ (s.wantFit w).1 := .iteFst h h.freeStep
theorem Kept.contact {n asn : Nat} {e : Int} (h : Kept s₀ s) : Kept s₀ (s.contact n asn e) := by
  unfold State.contact
  dsimp only
  refine .nbrSet <| .nbrSet <| .fabricSet <| .fabricSet <| .nbrSet <| .nbrSet <| .fabricSet ?_
  split
  · exact h.estUpdate
  · exact .ite h.estUpdate (.ite h.finc.fset.raise.estUpdate h.wantFit.fabricSet.withCad.estUpdate)

/-! ## The operations of Machine/Radio.lean -/

theorem Kept.setLane {n : Nat} {l : Lane} (h : Kept s₀ s) : Kept s₀ (s.setLane n l) := h.withLanes
theorem Kept.cwQueue {x : Codeword} (h : Kept s₀ s) : Kept s₀ (s.cwQueue x) := h.withFec
theorem Kept.fecFill (h : Kept s₀ s) : Kept s₀ s.fecFill := by
  refine h.foldl fun h => ?_
  split
  · exact h.withFec
  · exact h
theorem Kept.laneDrop {n : Nat} (h : Kept s₀ s) : Kept s₀ (s.laneDrop n) := h.freeChain.setLane.withFec.fecFill.when fun h => h.fset
theorem Kept.laneTo {n st : Nat} (h : Kept s₀ s) : Kept s₀ (s.laneTo n st) := h.fset
theorem Kept.laneSearch {n : Nat} (h : Kept s₀ s) : Kept s₀ (s.laneSearch n) := h.laneTo.setLane
theorem Kept.laneRest {n : Nat} (h : Kept s₀ s) : Kept s₀ (s.laneRest n) := .ite h.laneSearch h.laneTo
theorem Kept.laneAbort {n cause : Nat} (h : Kept s₀ s) : Kept s₀ (s.laneAbort n cause) :=
  .ite h (Kept.ite h.finc h).fset.fset.finc.fset.raise.laneDrop.laneTo
theorem Kept.laneStop {n : Nat} (h : Kept s₀ s) : Kept s₀ (s.laneStop n) := h.laneAbort.laneTo.setLane
theorem Kept.laneLost {n cause : Nat} (h : Kept s₀ s) : Kept s₀ (s.laneLost n cause) := (Kept.ite h h.laneAbort.laneTo).setLane
theorem Kept.setRfe {f : RfeState → RfeState} (h : Kept s₀ s) : Kept s₀ (s.setRfe f) := h.withRfe
theorem Kept.windowShut (h : Kept s₀ s) : Kept s₀ s.windowShut := (Kept.ite h.fset.fset.fset h).fset.withRfe
theorem Kept.setTicket {e : Nat} {t : Option Ticket} (h : Kept s₀ s) : Kept s₀ (s.setTicket e t) := h.withHdr
theorem Kept.onTicket {e : Nat} {f : Ticket → Ticket} (h : Kept s₀ s) : Kept s₀ (s.onTicket e f) := by
  unfold State.onTicket
  split
  · exact h.setTicket
  · exact h
theorem Kept.txAbort {cause : Nat} (h : Kept s₀ s) : Kept s₀ (s.txAbort cause) := by
  unfold State.txAbort
  split
  · exact h
  · exact .ite h (.ite h.withTxm
      ((h.withTxm.withSlot.fset.fset.finc.fset.fset.raise.when fun h => h.fset.raise).when fun h => h.fset))

/-! ## The operations of Machine/Duty.lean -/

theorem Kept.dwellTrack {n f : Nat} (h : Kept s₀ s) : OptKept s₀ (s.dwellTrack n f) := .ite (.some h) (.ite .none (.some h.setTrf))
theorem Kept.dutyReserve {f a : Nat} (h : Kept s₀ s) : Kept s₀ (s.dutyReserve f a).2 := by
  unfold State.dutyReserve
  split
  · exact h
  · split
    · exact h
    · exact .ite (h.dwellTrack.getD h) h
theorem Kept.dutyNote (h : Kept s₀ s) : Kept s₀ s.dutyNote := h.fset.when fun h => h.raise.event
theorem Kept.dutyCharge {f a : Nat} (h : Kept s₀ s) : Kept s₀ (s.dutyCharge f a) := by
  unfold State.dutyCharge
  split
  · exact h
  · split
    · exact h
    · exact (Kept.ite (h.setTrf.dwellTrack.getD h.setTrf).setTrf h.setTrf).dutyNote
theorem Kept.dutyLose (h : Kept s₀ s) : Kept s₀ s.dutyLose := h.setTrf
theorem Kept.dutyEnable (h : Kept s₀ s) : Kept s₀ s.dutyEnable := .ite h h.setTrf
theorem Kept.dutyAdvance {n : Nat} {dwell : Bool} (h : Kept s₀ s) : Kept s₀ (s.dutyAdvance n dwell) := .ite h (.ite h.setTrf h.setTrf)

/-! ## The operations of Machine/Resolve.lean -/

theorem Kept.resolveCell {asn n i : Nat} (h : Kept s₀ s) : Kept s₀ (s.resolveCell asn n i) := by
  unfold State.resolveCell
  split
  · exact .ite h h.withCad.rsetN.fset.finc.raise
  · dsimp only
    split
    · split
      · exact h.withCad.guardUpdate
      · exact h.withCad
    · exact h.withCad
theorem Kept.resolveEcc {asn : Nat} (h : Kept s₀ s) : Kept s₀ (s.resolveEcc asn) := h.eccSweep
theorem Kept.resolveSlot {asn : Nat} (h : Kept s₀ s) : Kept s₀ (s.resolveSlot asn) := (h.resolveEcc.foldl fun h => h.resolveCell).withCad

/-! ## The operations of Machine/Sluice.lean -/

theorem Kept.sluEvaluate {l : Nat} (h : Kept s₀ s) : Kept s₀ (s.sluEvaluate l) := by
  unfold State.sluEvaluate
  dsimp only
  split
  · exact h.fset.fset.fsetB.fsetB.setTrf
  · exact .unless h.fset.fset.fsetB.fsetB.setTrf fun h => .unless (h.unless fun h => h.fadd.raise.event) fun h => h.event

/-! ## The operations of Machine/Weir.lean -/

theorem Kept.setMeter {m : Nat} {x : Meter} (h : Kept s₀ s) : Kept s₀ (s.setMeter m x) := h.setTrf
theorem Kept.weirFill (h : Kept s₀ s) : Kept s₀ s.weirFill := h.setTrf
theorem Kept.meterFull {m : Nat} (h : Kept s₀ s) : Kept s₀ (s.meterFull m) := h.setMeter
theorem Kept.colourCount {m colour : Nat} {classA : Bool} (h : Kept s₀ s) : Kept s₀ (s.colourCount m colour classA) := by
  unfold State.colourCount
  dsimp only
  split
  · exact h.setMeter
  · exact h.setMeter
  · exact (h.setMeter.fset.raise.when fun h => h.raise).event
theorem Kept.weirUndo {w : WeirUse} (h : Kept s₀ s) : Kept s₀ (s.weirUndo w) := h.setMeter

/-! ## The operations of Machine/Elig.lean -/

theorem Kept.unprepReport {q c cause asn : Nat} (h : Kept s₀ s) : Kept s₀ (s.unprepReport q c cause asn) :=
  .ite h (h.setTrf.fset.finc.raise.rsetN.when fun h => h.fset.raise.rsetN)
theorem Kept.consider (h : Kept s₀ s) : Kept s₀ s.consider := h.setTrf
theorem Kept.admitLaunch {asn cls id fine : Nat} {ackReq : Bool} {cand : Cand} (h : Kept s₀ s) :
    Kept s₀ (s.admitLaunch asn cls id fine ackReq cand).2 :=
  .iteSnd (.iteSnd h h.setTrf.finc.raise) (.iteSnd (.iteSnd h h.setTrf.finc) h)
theorem Kept.judge1 {cand : Cand} {asn q c : Nat} (h : Kept s₀ s) : Kept s₀ (s.judge1 cand asn q c).2 := by
  unfold State.judge1
  split
  · exact h
  · split
    · exact h.unprepReport
    · split
      · next e => exact (h.admitLaunch.ofSnd e)
      · next e => exact (h.admitLaunch.ofSnd e)
theorem Kept.firstEligible {cand : Cand} {asn : Nat} {l : List (Nat × Nat)} (h : Kept s₀ s) : Kept s₀ (s.firstEligible cand asn l).2 := by
  induction l generalizing s with
  | nil => exact h
  | cons x l ih =>
    unfold State.firstEligible
    split
    · next e => exact h.judge1.ofSnd e
    · next e => exact ih (h.judge1.ofSnd e)
theorem Kept.eligible {cand : Cand} {asn : Nat} (h : Kept s₀ s) : Kept s₀ (s.eligible cand asn).2 := by
  unfold State.eligible
  split
  · exact h
  · split
    · next e => exact h.firstEligible.ofSnd e
    · next e =>
      have h := h.firstEligible.ofSnd e
      split
      · exact h
      · split
        · next e => exact h.admitLaunch.ofSnd e
        · next e => exact h.admitLaunch.ofSnd e

/-! ## The operations of Machine/Squash.lean -/

theorem Kept.squash {cause : SqCause} {locked : Bool} {roots : List Nat} (h : Kept s₀ s) : Kept s₀ (s.squash cause locked roots) :=
  .ite h (h.finc.when fun h => h.fset).withHdr
theorem Kept.squashWhere {cause : SqCause} {locked : Bool} {p : Ticket → Bool} (h : Kept s₀ s) : Kept s₀ (s.squashWhere cause locked p) :=
  h.squash
theorem Kept.squashDependants {k : Ticket} (h : Kept s₀ s) : Kept s₀ (s.squashDependants k) := h.squashWhere
theorem Kept.undoDemotion {d : Demotion} (h : Kept s₀ s) : Kept s₀ (s.undoDemotion d) := by
  unfold State.undoDemotion
  split
  · exact h
  · dsimp only
    refine .when ?_ fun h => h.fset
    split
    · exact h.setQueue.setQueue.descSet.weirUndo
    · exact h.setQueue.setQueue.descSet
theorem Kept.undoTicket {e : Nat} (h : Kept s₀ s) : Kept s₀ (s.undoTicket e) := by
  unfold State.undoTicket
  split
  · exact h
  · refine .finc (.when (.when (.foldr ?_ fun h => h.undoDemotion) fun h => h.finc) fun h => h.withHdr)
    split
    · exact h.setTicket.dutyNote.weirUndo
    · exact h.setTicket.dutyNote
theorem Kept.squashEnd {dur : Nat} (h : Kept s₀ s) : Kept s₀ (s.squashEnd dur) :=
  .ite h (h.foldl fun h => h.undoTicket).withHdr.fset.fset.fset.raise.event
theorem Kept.squashDone (h : Kept s₀ s) : Kept s₀ s.squashDone := h.squashEnd
theorem Kept.squashNow (h : Kept s₀ s) : Kept s₀ s.squashNow := h.freeStep.squashEnd

/-! ## The operations of Machine/Overlay.lean -/

theorem Kept.setOvl {f : OvlState → OvlState} (h : Kept s₀ s) : Kept s₀ (s.setOvl f) := h.withOvl
theorem Kept.loadShow {x : Section} {cause : Nat} (h : Kept s₀ s) : Kept s₀ (s.loadShow x cause) := h.fset.rsetN
theorem Kept.sectionsRead {img : Nat} (h : Kept s₀ s) : Kept s₀ (s.sectionsRead img).1 := h.flashLoose.foldlFst fun h => h.flashTake
theorem Kept.loadEnd (h : Kept s₀ s) : Kept s₀ s.loadEnd := by
  unfold State.loadEnd
  dsimp only
  split
  · exact h.sectionsRead.setOvl.fset.loadShow.fset.raise
  · refine .raise <| .fset <| .rsetN <| .fsetB <| .fset <| .setOvl ?_
    split
    · exact h.sectionsRead.setOvl.fset.loadShow
    · exact h.sectionsRead.setOvl.fset.fset
theorem Kept.ovlEmpty (h : Kept s₀ s) : Kept s₀ s.ovlEmpty := h.setOvl.fset.fset.rsetN.fset
theorem Kept.coppiceWrite {hook : WCtx → State → State} {a : Nat} {v : Word} (hf : ∀ {w t}, Kept s₀ t → Kept s₀ (hook w t))
    (h : Kept s₀ s) :
    Kept s₀ (State.coppiceWrite hook a v s) := by
  unfold State.coppiceWrite
  split
  · exact h.reject
  · refine .withBus (.when ?_ fun h => h.rset)
    have hp : Kept s₀ (match s.radioPort a with | some n => s.rsetN a n | none => s) := by
      split
      · exact h.rsetN
      · exact h
    split
    · next e => exact hf (hp.withBus.applyWrite.ofFst e)
    · next e => exact hp.withBus.applyWrite.ofFst e
theorem Kept.dirtyClear (h : Kept s₀ s) : Kept s₀ s.dirtyClear := h.rsetN.rsetN
theorem Kept.applyBase {hook : WCtx → State → State} (hf : ∀ {x0 t}, Kept s₀ t → Kept s₀ (hook x0 t)) (h : Kept s₀ s) :
    Kept s₀ (State.applyBase hook s) :=
  (h.foldl fun h => h.coppiceWrite hf).dirtyClear
theorem Kept.afterWrites {l : List (Nat × Word × Word)} (h : Kept s₀ s) : Kept s₀ (s.afterWrites l) := h.foldl fun h => h.rset
theorem Kept.modeApply {hook : WCtx → State → State} {m : Nat} (hf : ∀ {x0 t}, Kept s₀ t → Kept s₀ (hook x0 t)) (h : Kept s₀ s) :
    Kept s₀ (State.modeApply hook m s) := by
  unfold State.modeApply
  dsimp only
  split
  · exact ((h.setOvl.fset.when fun h => h.squashWhere).foldl fun h => h.coppiceWrite hf).dirtyClear.fset.raise.audit.setOvl.unless
      fun h => h.fset.event
  · exact h.setOvl.fset.fset.fset.raise.audit
theorem Kept.modeAtTick {asn : Nat} (h : Kept s₀ s) : Kept s₀ (s.modeAtTick asn) := by
  unfold State.modeAtTick
  split
  · exact h
  · exact h.setOvl.rsetN.rsetN.when fun h => h.fset.event
theorem Kept.modeAtTail {hook : WCtx → State → State} {next : Nat} (hf : ∀ {x0 t}, Kept s₀ t → Kept s₀ (hook x0 t)) (h : Kept s₀ s) :
    Kept s₀ (State.modeAtTail hook next s) := by
  unfold State.modeAtTail
  split
  · exact h
  · exact .ite ((h.modeApply hf).unless fun h => h.resolveSlot) h
theorem Kept.modeAtStop (h : Kept s₀ s) : Kept s₀ s.modeAtStop := by
  unfold State.modeAtStop
  split
  · exact h.setOvl.fset.event
  · exact h
theorem Kept.ovlSettle {hook : WCtx → State → State} (hf : ∀ {x0 t}, Kept s₀ t → Kept s₀ (hook x0 t)) (h : Kept s₀ s) :
    Kept s₀ (State.ovlSettle hook s) := by
  unfold State.ovlSettle
  split
  · exact .ite h (h.modeApply hf)
  · exact h
theorem Kept.ovlRefuse (h : Kept s₀ s) : Kept s₀ s.ovlRefuse := h.fset
theorem Kept.ovlRequest (h : Kept s₀ s) : Kept s₀ s.ovlRequest := .ite h.ovlRefuse (Kept.ite h.fset h).setOvl.fset.fset
theorem Kept.ovlCmd {hook : WCtx → State → State} {c : Nat} (hf : ∀ {x0 t}, Kept s₀ t → Kept s₀ (hook x0 t)) (h : Kept s₀ s) :
    Kept s₀ (State.ovlCmd hook c s) := by
  unfold State.ovlCmd
  split
  · exact h
  · split
    · exact h.ovlRefuse
    · split
      · exact h.setOvl.fset
      · exact .ite h.ovlRefuse (h.applyBase hf)
      · exact h.setOvl.fset
theorem Kept.ovlHook {hook : WCtx → State → State} {w : WCtx} (hf : ∀ {x0 t}, Kept s₀ t → Kept s₀ (hook x0 t)) (h : Kept s₀ s) :
    Kept s₀ (ovlHook hook w s) :=
  .ite (.ite h.ovlEmpty.setOvl.srstPage h) (.ite (h.fset.when fun h => h.ovlRequest) (.ite (h.ovlCmd hf) (.ite h.fset h)))
theorem Kept.execLoadDone (h : Kept s₀ s) : OutKept s₀ (execLoadDone s) := .next (.ite h.loadEnd h)

/-! ## The operations of Machine/Pins.lean -/

theorem Kept.pinEdges {b : Nat × Nat} (h : Kept s₀ s) : Kept s₀ (s.pinEdges b) := .ite h (h.foldl fun h => h.raise).publishAll
theorem Kept.withPins {f : State → State} (h : Kept s₀ s) (hf : ∀ {t}, Kept s₀ t → Kept s₀ (f t)) : Kept s₀ (s.withPins f) :=
  (hf h).pinEdges
theorem Kept.pinWrite {w : WCtx} (h : Kept s₀ s) : Kept s₀ (s.pinWrite w) := h.pinEdges
theorem Kept.pinWake {bank : Bool} {pin : Nat} (h : Kept s₀ s) : Kept s₀ (s.pinWake bank pin) := .ite h.wakeEvent h
theorem Kept.gpioHook {w : WCtx} (h : Kept s₀ s) : Kept s₀ (gpioHook w s) :=
  .ite (.ite (h.withPins (fun h => h.srstPage)) h) (.ite h.pinWrite h)
theorem Kept.execGpioEvent {bank : Bool} {pin : Fin 18} {level : Bool} (h : Kept s₀ s) : OutKept s₀ (execGpioEvent bank pin level s) :=
  .ite (.next h) (.next ((h.withPins (fun h => h.withPads)).unless fun h => h.pinWake))
theorem Kept.adcSet {b : Bool} (h : Kept s₀ s) : Kept s₀ (s.adcSet b) := h.withPads
theorem Kept.adcLand {data : BitVec 12} (h : Kept s₀ s) : Kept s₀ (s.adcLand data) :=
  (Kept.ite h.fset.raise h).fset.fset.raise.adcSet.event
theorem Kept.adcHook {w : WCtx} (h : Kept s₀ s) : Kept s₀ (adcHook w s) :=
  .ite (.ite (Kept.ite h.adcSet h).adcSet.srstPage (.ite h.adcSet h)) (.ite (h.fset.when fun h => h.adcStart) h)
theorem Kept.execAdcStart {m : Option Master} (h : Kept s₀ s) : OutKept s₀ (execAdcStart m s) := by
  unfold Machine.execAdcStart
  split
  · exact .next (h.writeReg (fun h => h.adcHook))
  · exact .next h.deliver
theorem Kept.execAdcResult {data : BitVec 12} (h : Kept s₀ s) : OutKept s₀ (execAdcResult data s) := .next (.ite h.adcLand h)
theorem Kept.execAdcResRead {m : Master} {sameCycleResult : Option (BitVec 12)} (h : Kept s₀ s) :
    OutKept s₀ (execAdcResRead m sameCycleResult s) := by
  unfold Machine.execAdcResRead
  dsimp only
  split
  · exact .next ((h.readAs (fun h => h.fset)).when fun h => h.adcLand)
  · exact .next (h.readAs (fun h => h.fset))

/-! ## The operations of Machine/NetTime.lean -/

theorem Kept.setNtu {f : NtuState → NtuState} (h : Kept s₀ s) : Kept s₀ (s.setNtu f) := h.withNtu
theorem Kept.rateMark {r : Int} (h : Kept s₀ s) : Kept s₀ (s.rateMark r) := .ite h.fset h
theorem Kept.setRate {r : Int} (h : Kept s₀ s) : Kept s₀ (s.setRate r) := h.reAnchorAt.rsetN.rateMark
theorem Kept.setP {d : Int} (h : Kept s₀ s) : Kept s₀ (s.setP d) := h.setNtu
theorem Kept.setRateWhenIdle {r : Int} (h : Kept s₀ s) : Kept s₀ (s.setRateWhenIdle r) := .ite h.setNtu h.setRate
theorem Kept.setPWhenIdle {d : Int} (h : Kept s₀ s) : Kept s₀ (s.setPWhenIdle d) := .ite h.setNtu h.setP
theorem Kept.setPulT {c t : Nat} (h : Kept s₀ s) : Kept s₀ (s.setPulT c t) := h.rsetN.rsetN
theorem Kept.pulseFire {c : Nat} (h : Kept s₀ s) : Kept s₀ (s.pulseFire c) := (h.setNtu.unless fun h => h.setNtu).event
theorem Kept.pulseRelease {c : Nat} (h : Kept s₀ s) : Kept s₀ (s.pulseRelease c) := h.setNtu.when fun h => h.fset
theorem Kept.pulseStepped {old new c : Nat} (h : Kept s₀ s) : Kept s₀ (s.pulseStepped old new c) :=
  .ite (h.pulseFire.fset.raise.when fun h => h.setPulT) h
theorem Kept.syncGain (h : Kept s₀ s) : Kept s₀ s.syncGain := h.fset.raise.setNtu
theorem Kept.asnSkip (h : Kept s₀ s) : Kept s₀ s.asnSkip := h.fset.raise
theorem Kept.stepApply (h : Kept s₀ s) : Kept s₀ s.stepApply := by
  unfold State.stepApply
  split
  · exact h
  · exact .ite (((h.setNtu.squashWhere.finc.raise.event.fset.when fun h => h.syncGain).foldl fun h => h.pulseStepped).when
      fun h => h.asnSkip.setNtu) (h.setNtu.squashWhere.finc.raise.event.fset.when fun h => h.syncGain)
theorem Kept.stepTry (h : Kept s₀ s) : Kept s₀ s.stepTry := .ite h h.stepApply
theorem Kept.stepAtTail (h : Kept s₀ s) : Kept s₀ s.stepAtTail := .ite h (.ite h.setNtu h.stepApply)
theorem Kept.ntuIdle (h : Kept s₀ s) : Kept s₀ s.ntuIdle := by
  unfold State.ntuIdle
  dsimp only
  refine .when ?_ fun h => h.stepApply
  split
  · refine .setNtu <| .setP ?_
    split
    · exact h.setRate.setNtu
    · exact h
  · split
    · exact h.setRate.setNtu
    · exact h
theorem Kept.setTx {x : Option Tx} (h : Kept s₀ s) : Kept s₀ (s.setTx x) := h.withTxm
theorem Kept.txToIdle (h : Kept s₀ s) : Kept s₀ s.txToIdle := h.setTx.fset.setRfe.withTxm.ntuIdle
theorem Kept.rampStop (h : Kept s₀ s) : Kept s₀ s.rampStop := .ite h.txToIdle h
theorem Kept.sampleReject {x : Sample} (h : Kept s₀ s) : Kept s₀ (s.sampleReject x) :=
  .ite (h.finc.rsetN.raise.setNtu.when fun h => h.fset.raise) h.finc.rsetN.raise
theorem Kept.sampleSlew {x : Sample} {prev : Option Nat} (h : Kept s₀ s) : Kept s₀ (s.sampleSlew x prev) := by
  unfold State.sampleSlew
  dsimp only
  refine .setPWhenIdle ?_
  split
  · exact .ite h.setRateWhenIdle h
  · exact h
theorem Kept.ntuSample {x : Sample} (h : Kept s₀ s) : Kept s₀ (s.ntuSample x) :=
  .ite h (.ite h.sampleReject (.ite (h.setNtu.when fun h => h.fset.fset).finc.rsetN.fset.setNtu.stepTry
    ((h.setNtu.when fun h => h.fset.fset).finc.rsetN.fset.unless fun h => h.syncGain).sampleSlew))
theorem Kept.ntuCapture (h : Kept s₀ s) : Kept s₀ s.ntuCapture := .ite h h.ntuSample
theorem Kept.execExternalCapture {t : Frc} (h : Kept s₀ s) : OutKept s₀ (execExternalCapture t s) := .next h.withCul.advance.ntuCapture
theorem Kept.ntuCmd {c : Nat} (h : Kept s₀ s) : Kept s₀ (s.ntuCmd c) := by
  unfold State.ntuCmd
  split
  · exact h.setNtu.stepTry
  · exact h.setNtu
  · exact h.fset.fset
  · exact h.fset.fset.setNtu
  · exact h
theorem Kept.pulseArm {c : Nat} (h : Kept s₀ s) : Kept s₀ (s.pulseArm c) := h.setNtu.unless fun h => h.setNtu
theorem Kept.ntuHook {w : WCtx} (h : Kept s₀ s) : Kept s₀ (ntuHook w s) :=
  .ite h.rsetN.setRateWhenIdle (.ite h.ntuCmd (.ite (.ite h.ntuSample h) (.ite (.ite h.rsetN.rsetN.fset h) (.ite h.pulseArm.pinEdges h))))
theorem Kept.ntuCmdWrite {m : Master} {c : Nat} (h : Kept s₀ s) : Kept s₀ (s.ntuCmdWrite m c) := h.writeReg (fun h => h.ntuHook)
theorem Kept.execNtuStep {m : Master} (h : Kept s₀ s) : OutKept s₀ (execNtuStep m s) := .next h.ntuCmdWrite
theorem Kept.execNtuCancel {m : Master} (h : Kept s₀ s) : OutKept s₀ (execNtuCancel m s) := .next h.ntuCmdWrite
theorem Kept.execSyncClr {m : Master} (h : Kept s₀ s) : OutKept s₀ (execSyncClr m s) := .next h.ntuCmdWrite
theorem Kept.execSyncSet {m : Master} (h : Kept s₀ s) : OutKept s₀ (execSyncSet m s) := .next h.ntuCmdWrite
theorem Kept.execNtuFwcorr {a : Acc} {v : Word} (h : Kept s₀ s) : OutKept s₀ (execNtuFwcorr a v s) :=
  .next (h.writeReg (fun h => h.ntuHook))
theorem Kept.execNtuRateWrite {a : Acc} {v : Word} (h : Kept s₀ s) : OutKept s₀ (execNtuRateWrite a v s) :=
  .next (h.writeReg (fun h => h.ntuHook))
theorem Kept.execNtuEpochWrite {a : Acc} {hi : Bool} {v : Word} (h : Kept s₀ s) : OutKept s₀ (execNtuEpochWrite a hi v s) :=
  .next (h.writeReg (fun h => h.ntuHook))
theorem Kept.execNtuPulWrite {a : Acc} {ch reg : Fin 4} {v : Word} (h : Kept s₀ s) : OutKept s₀ (execNtuPulWrite a ch reg v s) :=
  .next (h.writeReg (fun h => h.ntuHook))
theorem Kept.execReAnchor {t : Frc} (h : Kept s₀ s) : OutKept s₀ (execReAnchor t s) := .next h.advance.reAnchorAt
theorem Kept.execHoldover {t : Frc} (h : Kept s₀ s) : OutKept s₀ (execHoldover t s) :=
  .ite (.next h.advance.fset.raise.setNtu) (.next h.advance)
theorem Kept.execSyncLost {t : Frc} (h : Kept s₀ s) : OutKept s₀ (execSyncLost t s) :=
  .ite (.next h.advance.fset.fset.raise.event) (.next h.advance)
theorem Kept.execLfcalWindow {t : Frc} {count : BitVec 27} (h : Kept s₀ s) : OutKept s₀ (execLfcalWindow t count s) :=
  .ite (.next h.advance) (.next h.advance.fset.fset)
theorem Kept.sleepHandoff (h : Kept s₀ s) : Kept s₀ s.sleepHandoff := (Kept.ite h h.fset).setNtu
theorem Kept.execWakeHandoff {ticks : Word} (h : Kept s₀ s) : OutKept s₀ (execWakeHandoff ticks s) := by
  unfold Machine.execWakeHandoff
  split
  · exact .next h
  · exact .ite (.next h) (.next (h.setNtu.advance.rsetN.rset.when fun h => h.fset))
theorem Kept.execFrcVote (h : Kept s₀ s) : OutKept s₀ (execFrcVote s) := .next h.fset
theorem Kept.execPulseStart {t : Frc} {ch : Fin 4} (h : Kept s₀ s) : OutKept s₀ (execPulseStart t ch s) :=
  .ite (.next ((h.advance.withPins (fun h => h.pulseFire)).when fun h => h.setPulT)) (.next h.advance)
theorem Kept.execPulseEnd {t : Frc} {ch : Fin 4} (h : Kept s₀ s) : OutKept s₀ (execPulseEnd t ch s) := by
  unfold Machine.execPulseEnd
  dsimp only
  split
  · exact .next (h.advance.when fun h => h.withPins (fun h => h.pulseRelease))
  · exact .next h.advance

/-! ## The operations of Machine/Headrace.lean -/

theorem Kept.aDemote (h : Kept s₀ s) : Kept s₀ s.aDemote := h.fset.raise.event
theorem Kept.prepChoose {n asn : Nat} {cand : Cand} {forced : Option (Nat × Nat)} {skip : List Nat} {demos : List Demotion}
    (h : Kept s₀ s) :
    Kept s₀ (prepChoose n s cand asn forced skip demos).2.2 := by
  induction n generalizing s forced skip demos with
  | zero => exact h
  | succ n ih =>
    unfold Machine.prepChoose
    dsimp only
    split
    · exact h
    · next q c _ _ =>
      have next {t : State} {skip demos} (h : Kept s₀ t) :
          Kept s₀ (if forced.isSome then (none, demos, t) else Machine.prepChoose n t cand asn none skip demos).2.2 := by
        split
        · exact h
        · exact ih h
      split
      · next e => exact next (h.judge1.ofSnd e)
      · next e =>
        have h := h.judge1.ofSnd e
        split
        · exact h
        · split
          · exact h.setMeter.colourCount
          · exact next h
          · refine .iteSnd₂ (next h) (.iteSnd₂ (next (Kept.frameLeaves ?_)) (ih (Kept.descSet (.setQueue (.setQueue ?_)))))
            · exact h.colourCount.when fun h => h.aDemote
            · exact h.colourCount.when fun h => h.aDemote
          · exact next h.colourCount.frameLeaves
theorem Kept.offerIn {asn : Nat} {l : List Cand} (h : Kept s₀ s) : Kept s₀ (offerIn asn l s).2 := by
  induction l generalizing s with
  | nil => exact h
  | cons c l ih =>
    unfold Machine.offerIn
    split
    · split
      · exact h
      · split
        · next e => exact h.eligible.ofSnd e
        · next e => exact ih (h.eligible.ofSnd e)
    · exact .iteSnd h (.iteSnd h (ih h))
theorem Kept.firstOffer {n asn : Nat} (h : Kept s₀ s) : Kept s₀ (firstOffer n asn s).2 := by
  induction n generalizing s asn with
  | zero => exact h
  | succ n ih =>
    unfold Machine.firstOffer
    split
    · next e => exact h.offerIn.ofSnd e
    · next e => exact ih (h.offerIn.ofSnd e)
theorem Kept.prepBegun (h : Kept s₀ s) : Kept s₀ s.prepBegun := h.withHdr
theorem Kept.build {e : Nat} {cand : Cand} {asn : Nat} {exp : Bool} {q c : Nat} {use : Option WeirUse} {demos : List Demotion}
    (h : Kept s₀ s) :
    Kept s₀ (s.build e cand asn exp q c use demos) := by
  unfold State.build
  dsimp only
  refine .prepBegun <| .dutyNote <| .setTicket ?_
  split
  · exact h.dutyReserve.takeCounter
  · exact h.dutyReserve
theorem Kept.buildKa {e : Nat} {cand : Cand} {asn n : Nat} {demos : List Demotion} (h : Kept s₀ s) :
    Kept s₀ (s.buildKa e cand asn n demos) := by
  unfold State.buildKa
  dsimp only
  refine .prepBegun <| .dutyNote <| .setTicket ?_
  refine .unless ?_ fun h => h.withHdr
  split
  · exact h.dutyReserve.takeCounter
  · exact h.dutyReserve
theorem Kept.prepare {e : Nat} {cand : Cand} {asn : Nat} {forced : Option (Nat × Nat)} (h : Kept s₀ s) :
    Kept s₀ (s.prepare e cand asn forced) := by
  unfold State.prepare
  dsimp only
  split
  · next e => exact .ite (h.prepChoose.ofSnd₂ e).build h
  · next e =>
    have hs := h.prepChoose.ofSnd₂ e
    split
    · next e => exact .ite ((Kept.iteSnd hs hs.eligible).ofSnd e).buildKa h
    · next e => exact (Kept.iteSnd hs hs.eligible).ofSnd e
theorem Kept.expressCell {asn q c : Nat} {l : List Cand} (h : Kept s₀ s) : Kept s₀ (expressCell asn q c l s).2 := by
  induction l generalizing s with
  | nil => exact h
  | cons d l ih =>
    unfold Machine.expressCell
    split
    · split
      · next e => exact h.eligible.ofSnd e
      · next e => exact .iteSnd (h.eligible.ofSnd e) (ih (h.eligible.ofSnd e))
    · exact .iteSnd h (.iteSnd h (ih h))
theorem Kept.expressSlot {q c n asn : Nat} (h : Kept s₀ s) : Kept s₀ (expressSlot q c n asn s).2 := by
  induction n generalizing s asn with
  | zero => exact h
  | succ n ih =>
    unfold Machine.expressSlot
    dsimp only
    split
    · split
      · next e => exact h.expressCell.ofSnd e
      · next e => exact ih (h.expressCell.ofSnd e)
    · exact ih h
theorem Kept.planStart {e : Nat} {p : Plan} {rest : List Plan} (h : Kept s₀ s) : Kept s₀ (s.planStart e p rest) := by
  unfold State.planStart
  split
  · exact h
  · dsimp only
    split
    · next e => exact ((Kept.iteSnd h.withHdr.expressCell h.withHdr).ofSnd e).prepare.when fun h => h.finc.raise.event
    · next e => exact ((Kept.iteSnd h.withHdr.expressCell h.withHdr).ofSnd e)
theorem Kept.execPreparationStart {t : Frc} (h : Kept s₀ s) : OutKept s₀ (execPreparationStart t s) := by
  unfold Machine.execPreparationStart
  dsimp only
  split
  · split
    · exact .next h.advance.consider.planStart.hold
    · split
      · exact .next h.advance.consider.hold
      · split
        · next e => exact .next (h.advance.consider.firstOffer.ofSnd e).hold
        · next e => exact .next ((h.advance.consider.firstOffer.ofSnd e).unless fun h => h.prepare).hold
  · exact .next h.advance
theorem Kept.execPreparationDone {t : Frc} (h : Kept s₀ s) : OutKept s₀ (execPreparationDone t s) := by
  unfold Machine.execPreparationDone
  dsimp only
  split
  · exact .next h.advance.setTicket.finc.hold
  · exact .next h.advance
theorem Kept.slotIdle (h : Kept s₀ s) : Kept s₀ s.slotIdle := by
  unfold State.slotIdle
  dsimp only
  refine .setRfe <| .rsetN <| .fset ?_
  split
  · exact h.withSlot
  · exact h
theorem Kept.execTicketLock {t : Frc} (h : Kept s₀ s) : OutKept s₀ (execTicketLock t s) := by
  unfold Machine.execTicketLock
  dsimp only
  split
  · exact .next h.advance
  · split
    · exact .next h.advance
    · split
      · exact .ite (.next h.advance.setTicket) (.ite (.next h.advance.fset.finc.raise.squash.slotIdle.hold) (.next h.advance))
      · exact .next h.advance
theorem Kept.execSquashDone {t : Frc} (h : Kept s₀ s) : OutKept s₀ (execSquashDone t s) := .next h.advance.squashDone.hold
theorem Kept.express {q c : Nat} (h : Kept s₀ s) : Kept s₀ (s.express q c) := by
  unfold State.express
  split
  · exact h
  · split
    · next e => exact (h.expressSlot.ofSnd e)
    · next e => exact (h.expressSlot.ofSnd e).unless fun h => h.squash.withHdr
theorem Kept.rampGone (h : Kept s₀ s) : Kept s₀ s.rampGone := by
  unfold State.rampGone
  split
  · split
    · exact .ite h.txToIdle h
    · exact h
  · exact h
theorem Kept.hdrCtrl {w : WCtx} (h : Kept s₀ s) : Kept s₀ (hdrCtrl w s) :=
  .ite (Kept.ite (Kept.ite h.srstPage h).squashWhere.withHdr.rampGone (.ite h.srstPage h)).withHdr (.ite
    (Kept.ite h.srstPage h).squashWhere.withHdr.rampGone (.ite h.srstPage h))
theorem Kept.hdrHook {w : WCtx} (h : Kept s₀ s) : Kept s₀ (hdrHook w s) :=
  .ite h.hdrCtrl (.ite (.ite h.squash h) (.ite h.rsetN.rsetN.rsetN.rsetN h))
theorem Kept.execHdrCtrlWrite {a : Acc} {v : Word} (h : Kept s₀ s) : OutKept s₀ (execHdrCtrlWrite a v s) :=
  .next (h.writeReg (fun h => h.hdrHook))
theorem Kept.execHdrCfgWrite {a : Acc} {v : Word} (h : Kept s₀ s) : OutKept s₀ (execHdrCfgWrite a v s) :=
  .next (h.writeReg (fun h => h.hdrHook))
theorem Kept.execHdrTktIdxWrite {a : Acc} {v : Word} (h : Kept s₀ s) : OutKept s₀ (execHdrTktIdxWrite a v s) :=
  .next (h.writeReg (fun h => h.hdrHook))

/-! ## The operations of Machine/Traffic.lean -/

theorem Kept.poolNote {old : State} (h1 : Kept s₀ s) : Kept s₀ (s.poolNote old) := .ite h1.raise h1
/-- Cells taken from the pool change nothing but the free values read. -/
theorem Kept.takeCells {n : Nat} {cs : List Nat} {t : State} (h : Kept s₀ s) (e : s.takeCells n = some (cs, t)) : Kept s₀ t := by
  unfold State.takeCells at e
  dsimp only at e
  split at e
  · exact absurd e nofun
  · cases e
    exact h.freeStep
theorem Kept.trfAllocPop (h : Kept s₀ s) : Kept s₀ s.trfAllocPop.1 := by
  unfold State.trfAllocPop
  split
  · exact h
  · split
    · next e => exact (h.takeCells e).cellsTo.poolNote
    · exact h
theorem Kept.execTrfAlloc {m : Master} (h : Kept s₀ s) : OutKept s₀ (execTrfAlloc m s) := .next (h.readAs (fun h => h.trfAllocPop))
theorem Kept.popChain {l : List Nat} {put : List Nat → TrfState → TrfState} (h : Kept s₀ s) : Kept s₀ (s.popChain l put).1 := by
  unfold State.popChain
  split
  · exact h
  · exact h.cellsTo.setTrf
theorem Kept.execTrfDonePop {m : Master} (h : Kept s₀ s) : OutKept s₀ (execTrfDonePop m s) := .next (h.readAs (fun h => h.popChain))
theorem Kept.execTrfRxqPop {m : Master} (h : Kept s₀ s) : OutKept s₀ (execTrfRxqPop m s) := .next (h.readAs (fun h => h.popChain))
theorem Kept.trfRefuse {f : Fld} {c q cause : Nat} (h : Kept s₀ s) : Kept s₀ (s.trfRefuse f c q cause) := h.fset.rsetN
theorem Kept.freeCmd {c : Nat} (h : Kept s₀ s) : Kept s₀ (s.freeCmd c) := .ite h.trfRefuse (.ite h.trfRefuse h.freeChain)
theorem Kept.enqueue {c q : Nat} (h : Kept s₀ s) : Kept s₀ (s.enqueue c q) :=
  .ite h.trfRefuse.raise (.ite h.trfRefuse.raise (.ite h.trfRefuse.raise (.ite h.trfRefuse.raise
    h.setWord.descSet.descSet.descSet.descSet.descSet.descSet.setWord.cellsTo.setQueue.consider.express)))
theorem Kept.removeFrame {q c : Nat} (h : Kept s₀ s) : Kept s₀ (s.removeFrame q c) := h.squashWhere.withHdr.frameLeaves
theorem Kept.removeHeadCmd {q : Nat} (h : Kept s₀ s) : Kept s₀ (s.removeHeadCmd q) := by
  unfold State.removeHeadCmd
  split
  · exact h
  · exact .ite h.fset h.removeFrame
theorem Kept.flushCmd {q : Nat} (h : Kept s₀ s) : Kept s₀ (s.flushCmd q) :=
  (h.foldl fun h => h.removeFrame).when fun h => h.fset
theorem Kept.trfReset (h : Kept s₀ s) : Kept s₀ s.trfReset := .ite h.fset h.squashWhere.withHdr.setTrf.srstPage
theorem Kept.trfHook {w : WCtx} (h : Kept s₀ s) : Kept s₀ (trfHook w s) := by
  unfold Machine.trfHook
  split
  · exact .ite h.trfReset h
  · split
    · exact h.poolNote
    · split
      · exact h.freeCmd
      · split
        · exact h.enqueue
        · split
          · dsimp only
            split
            · exact h.removeHeadCmd
            · exact h.flushCmd
            · exact h
          · split
            · split
              · exact h.rset.rset
              · exact h.rsetN.rsetN
            · exact .ite (.ite h.fset.fset h) h
theorem Kept.execTrfFree {a : Acc} {v : Word} (h : Kept s₀ s) : OutKept s₀ (execTrfFree a v s) := .next (h.writeReg (fun h => h.trfHook))
theorem Kept.execTrfEnq {a : Acc} {v : Word} (h : Kept s₀ s) : OutKept s₀ (execTrfEnq a v s) := .next (h.writeReg (fun h => h.trfHook))
theorem Kept.execRemoveHead {m : Master} {q : BitVec 6} (h : Kept s₀ s) : OutKept s₀ (execRemoveHead m q s) :=
  .next (h.writeReg (fun h => h.trfHook))
theorem Kept.execFlush {m : Master} {q : BitVec 6} (h : Kept s₀ s) : OutKept s₀ (execFlush m q s) :=
  .next (h.writeReg (fun h => h.trfHook))
theorem Kept.execTrfHistIdxWrite {a : Acc} {v : Word} (h : Kept s₀ s) : OutKept s₀ (execTrfHistIdxWrite a v s) :=
  .next (h.writeReg (fun h => h.trfHook))
theorem Kept.weirHook {w : WCtx} (h : Kept s₀ s) : Kept s₀ (weirHook w s) :=
  .ite (h.srstPage.foldl fun h => h.setMeter.meterFull) (.ite (.ite h.meterFull h) h)
theorem Kept.sluHook {w : WCtx} (h : Kept s₀ s) : Kept s₀ (sluHook w s) :=
  .ite (h.squashWhere.when fun h => h.srstPage) (.ite h.squashWhere h)
theorem Kept.dcaHook {w : WCtx} (h : Kept s₀ s) : Kept s₀ (dcaHook w s) :=
  .ite (.ite (Kept.ite h.dutyEnable h).dutyLose.srstPage (Kept.ite h.dutyEnable h).dutyNote) (.ite h.dutyNote h)
theorem Kept.execSluiceConfigWrite {a : Acc} {off : BitVec 10} {v : Word} (h : Kept s₀ s) :
    OutKept s₀ (execSluiceConfigWrite a off v s) :=
  .next (h.writeReg (fun h => h.sluHook))
theorem Kept.execDcaEnable {a : Acc} {v : Word} (h : Kept s₀ s) : OutKept s₀ (execDcaEnable a v s) :=
  .next (h.writeReg (fun h => h.dcaHook))
theorem Kept.execSubWindowAdvance {sb : Fin 8} {dwell : Bool} (h : Kept s₀ s) : OutKept s₀ (execSubWindowAdvance sb dwell s) :=
  .next h.dutyAdvance.dutyNote

/-! ## The operations of Machine/FrontEnd.lean -/

theorem Kept.workStart {i : Nat} (h : Kept s₀ s) : Kept s₀ (s.workStart i) :=
  .ite h.withRfe.fset (.ite h.withRfe.fset h.withRfe.fset.fset)
theorem Kept.workNext {after : Option Nat} (h : Kept s₀ s) : Kept s₀ (s.workNext after) := by
  unfold State.workNext
  split
  · exact h
  · split
    · split
      · exact h.workStart
      · exact h
    · split
      · exact h
      · dsimp only
        split
        · exact h.workStart
        · exact h
theorem Kept.workAge {items : List Nat} (h : Kept s₀ s) : Kept s₀ (s.workAge items) := h.setRfe
theorem Kept.workGone {item : Nat} (h : Kept s₀ s) : Kept s₀ (s.workGone item) := h.setRfe
theorem Kept.calRequest {bits : Nat} (h : Kept s₀ s) : Kept s₀ (s.calRequest bits) := (h.foldl fun h => h.fset).workAge.workNext
theorem Kept.workAbort (h : Kept s₀ s) : Kept s₀ s.workAbort := h.withRfe.fset.fset
theorem Kept.slotCut (h : Kept s₀ s) : Kept s₀ s.slotCut := by
  unfold State.slotCut
  split
  · exact .ite h h.withSlot.finc
  · exact h
theorem Kept.rfeOff (h : Kept s₀ s) : Kept s₀ s.rfeOff := (h.slotCut.txAbort.foldl fun h => h.laneStop).workAbort.windowShut.fset
theorem Kept.manTune (h : Kept s₀ s) : Kept s₀ s.manTune := h.fset.fset
theorem Kept.rfeReset (h : Kept s₀ s) : Kept s₀ s.rfeReset := h.srstPage.fset.rfeOff
theorem Kept.rfeCtrlHook {w : WCtx} (h : Kept s₀ s) : Kept s₀ (rfeCtrlHook w s) := by
  unfold Machine.rfeCtrlHook
  extract_lets a b c
  have ha : Kept s₀ a := h.when fun h => h.fset.fset
  have hc : Kept s₀ c := (ha.when fun h => h.fset).when fun h => h.manTune
  exact .ite hc.rfeReset (.ite hc.rfeOff (hc.when fun h => h.withRfe.workNext))
theorem Kept.rfeHook {w : WCtx} (h : Kept s₀ s) : Kept s₀ (rfeHook w s) :=
  .ite h.rfeCtrlHook (.ite (.ite h.manTune h) (.ite h.fset.calRequest h))
theorem Kept.execRfeManWrite {a : Acc} {v : Word} (h : Kept s₀ s) : OutKept s₀ (execRfeManWrite a v s) :=
  .next (h.writeReg (fun h => h.rfeHook))
theorem Kept.execRfeSynManWrite {a : Acc} {v : Word} (h : Kept s₀ s) : OutKept s₀ (execRfeSynManWrite a v s) :=
  .next (h.writeReg (fun h => h.rfeHook))
theorem Kept.execRfeDisable {a : Acc} {v : Word} (h : Kept s₀ s) : OutKept s₀ (execRfeDisable a v s) :=
  .next (h.writeReg (fun h => h.rfeHook))
theorem Kept.execRfeCalReq {a : Acc} {v : Word} (h : Kept s₀ s) : OutKept s₀ (execRfeCalReq a v s) :=
  .next (h.writeReg (fun h => h.rfeHook))
theorem Kept.execClearingWorkStart {t : Frc} (h : Kept s₀ s) : OutKept s₀ (execClearingWorkStart t s) := by
  unfold Machine.execClearingWorkStart
  dsimp only
  split
  · exact .ite (.next h.advance.withRfe.workNext) (.next h.advance)
  · exact .next h.advance
theorem Kept.calEnds {b : Nat} {inLimits : Bool} (h : Kept s₀ s) : Kept s₀ (s.calEnds b inLimits) := by
  have he {t : State} {f g : Fld} {x y : Nat} (h : Kept s₀ t) : Kept s₀ (if inLimits then t.fset f x else t.fset g y) := .ite h.fset
    h.fset
  exact .ite ((he h.workGone.setRfe.fset.fset).when fun h => h.fset.fset).raise.event.workNext h
theorem Kept.execCalTimeout {item : Fin 10} (h : Kept s₀ s) : OutKept s₀ (execCalTimeout item s) :=
  .ite (.ite (.next h.workGone.fset.fset.raise) (.ite (.next h.workGone.fset.fset.raise.raise) (.next h.workGone.fset.fset.raise)))
    (.next h)
theorem Kept.execTempUpdate {temp : BitVec 8} (h : Kept s₀ s) : OutKept s₀ (execTempUpdate temp s) :=
  .ite (.next h.fset.fset.fset.raise.calRequest) (.next h.fset.fset)
theorem Kept.canopyGainSet {sl : Slot} (h : Kept s₀ s) : Kept s₀ (s.canopyGainSet sl) := h.fset.fset.fsetI.fset.setRfe
theorem Kept.narrowGainOpen (h : Kept s₀ s) : Kept s₀ s.narrowGainOpen := h.fset.withRfe
theorem Kept.unlockShown {sl : Slot} {mid : Bool} (h : Kept s₀ s) : Kept s₀ (s.unlockShown sl mid) := h.fset.finc.raise.rsetN.event
theorem Kept.execLockSample {t : Frc} {locked : Bool} (h : Kept s₀ s) : OutKept s₀ (execLockSample t locked s) := by
  unfold Machine.execLockSample
  dsimp only
  split
  · exact .next (h.advance.when fun h => h.fsetB)
  · exact .ite (.next h.advance) (.ite (.next h.advance) (.ite (.next h.advance) (.ite (.next h.advance.withSlot.fsetB) (.ite (.next
      (h.advance.withSlot.fsetB.when fun h => h.canopyGainSet)) (.next h.advance.withSlot.fsetB.unlockShown.finc)))))
theorem Kept.execLossOfLock {t : Frc} (h : Kept s₀ s) : OutKept s₀ (execLossOfLock t s) := by
  unfold Machine.execLossOfLock
  dsimp only
  split
  · exact .next h.advance.fset.txAbort
  · exact .ite (.next h.advance.fset) (.ite (.next h.advance.fset.unlockShown.txAbort) (.next
      (h.advance.fset.unlockShown.foldl fun h => h.laneLost).windowShut.withSlot))
theorem Kept.execNarrowAgcStep {power : Int} (h : Kept s₀ s) : OutKept s₀ (execNarrowAgcStep power s) :=
  .ite (.next (h.fset.unless fun h => h.fset)) (.next h)
theorem Kept.canopyBackOff (h : Kept s₀ s) : Kept s₀ s.canopyBackOff := h.fset
theorem Kept.execClipInterval {samples : Nat} (h : Kept s₀ s) : OutKept s₀ (execClipInterval samples s) :=
  .ite (.next h.setRfe) (.ite (.ite (.next h.fsetB.withRfe) (.ite (.next h.fsetB.finc.canopyBackOff.setRfe.raise.event) (.ite
    (.next h.fsetB.finc.withRfe) (.next (h.fsetB.finc.withRfe.canopyBackOff.setRfe.when fun h => h.fset.raise.event))))) (.ite
    (.next h.finc) (.next h)))
theorem Kept.agcHook {w : WCtx} (h : Kept s₀ s) : Kept s₀ (agcHook w s) :=
  .ite (.ite (Kept.ite (Kept.ite h.fset h).fset (.ite h.fset h)).srstPage (.ite (Kept.ite h.fset h).fset (.ite h.fset h))) (.ite h.fset h)

/-! ## The operations of Machine/Transmit.lean -/

theorem Kept.txBlocked {cause asn : Nat} (h : Kept s₀ s) : Kept s₀ (s.txBlocked cause asn) :=
  h.finc.unless fun h => h.fset.fset.fset.raise
theorem Kept.txPowerSet {sources : List Nat} {f port : Nat} (h : Kept s₀ s) : Kept s₀ (s.txPowerSet sources f port) :=
  h.rsetN.when fun h => h.fset
theorem Kept.departure {fine : Nat} (h : Kept s₀ s) : Kept s₀ (s.departure fine) := h.setNtu.rsetN.rsetN.rsetN.rsetN
theorem Kept.txStart {x : Tx} (h : Kept s₀ s) : Kept s₀ (s.txStart x) := h.setTx.fset.finc.event
theorem Kept.commitTicket {e : Nat} {launched : Bool} (h : Kept s₀ s) : Kept s₀ (s.commitTicket e launched) := h.onTicket
theorem Kept.kaSent {k : Ticket} (h : Kept s₀ s) : Kept s₀ (s.kaSent k) := by
  unfold State.kaSent
  split
  · exact h.withHdr.finc
  · exact h
theorem Kept.launchTicket {sl : Slot} {e : Nat} {k : Ticket} (h : Kept s₀ s) : Kept s₀ (s.launchTicket sl e k) :=
  h.departure.commitTicket.txPowerSet.kaSent.txStart
theorem Kept.execRampUp {t : Frc} (h : Kept s₀ s) : OutKept s₀ (execRampUp t s) := by
  unfold Machine.execRampUp
  dsimp only
  split
  · exact .next h.advance
  · split
    · exact .next (h.advance.when fun h => h.setTx.fset)
    · split
      · split
        · exact .next (.ite (h.advance.when fun h => h.setTx.fset) h.advance)
        · exact .next h.advance
      · exact .next h.advance
theorem Kept.execLaunch {t : Frc} (h : Kept s₀ s) : OutKept s₀ (execLaunch t s) := by
  unfold Machine.execLaunch
  dsimp only
  split
  · exact .next h.advance
  · split
    · exact .next h.advance
    · split
      · exact .next h.advance.rampStop
      · split
        · exact .next h.advance
        · split
          · exact .next h.advance.commitTicket
          · split
            · exact .next h.advance.withSlot.commitTicket.finc
            · split
              · exact .next h.advance.launchTicket
              · exact .next (h.advance.commitTicket.txBlocked.when fun h => h.withSlot.finc).rampStop
theorem Kept.execHeadEnd {t : Frc} (h : Kept s₀ s) : OutKept s₀ (execHeadEnd t s) := by
  unfold Machine.execHeadEnd
  dsimp only
  split
  · exact .next (h.advance.when fun h => h.fset)
  · exact .next h.advance
theorem Kept.execSplicePoint (h : Kept s₀ s) : OutKept s₀ (execSplicePoint s) := by
  unfold Machine.execSplicePoint
  split
  · split
    · exact .ite (.next h.advance.fset.setTx) (.next h)
    · exact .next h
  · exact .next h
theorem Kept.execTagComplete (h : Kept s₀ s) : OutKept s₀ (execTagComplete s) := by
  unfold Machine.execTagComplete
  split
  · exact .next (.ite h.setTx h)
  · exact .next h
theorem Kept.execFrameEnd {t : Frc} (h : Kept s₀ s) : OutKept s₀ (execFrameEnd t s) := by
  unfold Machine.execFrameEnd
  dsimp only
  split
  · exact .next h.advance
  · split
    · exact .next h.advance
    · split
      · split
        · exact .next (h.advance.fset.withTxm.setTicket.when fun h => h.withCad)
        · exact .next h.advance.fset.withTxm
      · exact .next h.advance.fset.withTxm
theorem Kept.execRampDownEnd {t : Frc} (h : Kept s₀ s) : OutKept s₀ (execRampDownEnd t s) := by
  unfold Machine.execRampDownEnd
  dsimp only
  split
  · exact .next h.advance
  · split
    · exact .next h.advance
    · refine .next ?_
      refine .txToIdle ?_
      split
      · exact (h.advance.event.unless fun h => h.raise).onTicket
      · exact (h.advance.event.unless fun h => h.raise).dutyCharge
      · exact h.advance.event.unless fun h => h.raise
theorem Kept.execLiveEccError {t : Frc} (h : Kept s₀ s) : OutKept s₀ (execLiveEccError t s) := .next h.advance.txAbort
theorem Kept.execAckBuildDone {t : Frc} (h : Kept s₀ s) : OutKept s₀ (execAckBuildDone t s) := .next h.advance.withTxm
theorem Kept.ackDrop {frame : Nat} (h : Kept s₀ s) : Kept s₀ (s.ackDrop frame) := h.withTxm
theorem Kept.execAckLaunch {t : Frc} (h : Kept s₀ s) : OutKept s₀ (execAckLaunch t s) := by
  have ha := h.advance (t := t)
  unfold Machine.execAckLaunch
  dsimp only
  split
  · exact .next ha
  · refine .ite (.next ha) (.ite (.next ha.ackDrop.withTxm) ?_)
    split
    · refine .next (.txBlocked ?_)
      exact .ite ha.ackDrop.txToIdle ha.ackDrop.withTxm
    · refine .ite (.next (.raise (.finc ?_))) ?_
      · exact .ite ha.ackDrop.txToIdle ha.ackDrop.withTxm
      · exact .next ha.ackDrop.departure.descSet.txPowerSet.txStart
theorem Kept.mchkRequest (h : Kept s₀ s) : Kept s₀ s.mchkRequest := .ite h.fset.raise (.ite h h.fset.workAge.workNext)
theorem Kept.execMchkDone {acp1 acp2 : BitVec 8} (h : Kept s₀ s) : OutKept s₀ (execMchkDone acp1 acp2 s) :=
  .ite (.next h.workGone.setRfe.fset.fset.rsetN.raise.workNext) (.next h)
theorem Kept.txTest (h : Kept s₀ s) : Kept s₀ s.txTest := by
  unfold State.txTest
  dsimp only
  split
  · split
    · exact .ite h.withTxm.setTx.fset h
    · exact h
  · exact .ite (.ite h.setTx h.txPowerSet.txStart.fset) h.fset.fset
theorem Kept.firNext (h : Kept s₀ s) : Kept s₀ s.firNext := h.fset
theorem Kept.txmReset (h : Kept s₀ s) : Kept s₀ s.txmReset := h.srstPage.withTxm.fset.txAbort.when fun h => h.workAbort
theorem Kept.txmHook {w : WCtx} (h : Kept s₀ s) : Kept s₀ (txmHook w s) :=
  .ite (.ite h.txmReset (.ite h.txAbort h)) (.ite h.fset (.ite h.withTxm.fset.firNext (.ite (h.fset.when fun h => h.mchkRequest)
    (.ite h.txTest h))))
theorem Kept.execTxmFirDataAccess {a : Acc} {w : Option Word} (h : Kept s₀ s) : OutKept s₀ (execTxmFirDataAccess a w s) := by
  unfold Machine.execTxmFirDataAccess
  dsimp only
  split
  · exact .next (h.readAs (fun h => h.firNext))
  · exact .next (h.portWrite (fun h => h.txmHook))
theorem Kept.execTxmDisable {a : Acc} {v : Word} (h : Kept s₀ s) : OutKept s₀ (execTxmDisable a v s) :=
  .next (h.writeReg (fun h => h.txmHook))
theorem Kept.execMchkReq {a : Acc} {v : Word} (h : Kept s₀ s) : OutKept s₀ (execMchkReq a v s) := .next (h.writeReg (fun h => h.txmHook))
theorem Kept.execTxmTestWrite {a : Acc} {v : Word} (h : Kept s₀ s) : OutKept s₀ (execTxmTestWrite a v s) :=
  .next (h.writeReg (fun h => h.txmHook))

/-! ## The operations of Machine/Canopy.lean -/

theorem Kept.missNote {asn : Nat} {x : WinCand × Nat} (h : Kept s₀ s) : Kept s₀ (s.missNote asn x) := by
  unfold State.missNote
  split
  · dsimp only
    refine .event <| .raise <| .fset <| .rsetN ?_
    split
    · exact h.finc.finc
    · exact h.finc.finc
    · exact h.finc.finc
    · exact h.finc.finc
    · exact h.finc
  · exact h.fset
  · exact h
theorem Kept.laneAssign {n : Nat} {sv : Option Served} (h : Kept s₀ s) : Kept s₀ (s.laneAssign n sv) := by
  unfold State.laneAssign
  dsimp only
  split <;> exact h.setLane.rsetN
theorem Kept.laneLatch {n : Nat} (h : Kept s₀ s) : Kept s₀ (s.laneLatch n) := h.setLane.when fun h => h.fsetI
theorem Kept.openWindow {asn : Nat} {p : Placed} {listen : Bool} (h : Kept s₀ s) : Kept s₀ (s.openWindow asn p listen) :=
  (((h.foldl fun h => h.missNote).foldl fun h => h.fset).rsetN.unless fun h => h.fset).fsetB.foldl fun h => h.laneAssign
theorem Kept.windowNote {ended : Nat} (h : Kept s₀ s) : Kept s₀ (s.windowNote ended) := by
  unfold State.windowNote
  split
  · exact .ite h.windowShut h
  · exact h
theorem Kept.execLaneArm {t : Frc} {lane : Fin 16} (h : Kept s₀ s) : OutKept s₀ (execLaneArm t lane s) := by
  unfold Machine.execLaneArm
  dsimp only
  split
  · exact .ite (.next h.advance)
      (.next ((h.advance.setLane.laneSearch.when fun h => h.fset.finc.raise).unless fun h => h.narrowGainOpen))
  · exact .next h.advance
theorem Kept.execSearchEnd {lane : Fin 16} (h : Kept s₀ s) : OutKept s₀ (execSearchEnd lane s) :=
  .ite (.next h.windowNote) (.next (h.setLane.when fun h => h.laneTo).windowNote)
theorem Kept.execPreambleDetect {at' : LaneAt} {branches : List (Fin 5 × Nat × Nat)} (h : Kept s₀ s) :
    OutKept s₀ (execPreambleDetect at' branches s) :=
  .ite (.next h.advance) (.next (h.advance.laneTo.setLane.fadd.when fun h => h.fset))
theorem Kept.execSfdMatch {at' : LaneAt} {afc : Int} {rssi : BitVec 8} {snrMilliDb : Int} {word : List Bool} (h : Kept s₀ s) :
    OutKept s₀ (execSfdMatch at' afc rssi snrMilliDb word s) := by
  unfold Machine.execSfdMatch
  dsimp only
  split
  · exact .next h
  · split
    · exact .next h.advance
    · exact .next h.advance.laneTo.setLane.rsetN.rsetN.rsetN.freeStep.freeStep.event
theorem Kept.execSfdTimeout {at' : LaneAt} (h : Kept s₀ s) : OutKept s₀ (execSfdTimeout at' s) :=
  .ite (.next h.advance) (.next h.advance.finc.laneDrop.laneRest.windowNote)
theorem Kept.frameDrop {n : Nat} (h : Kept s₀ s) : Kept s₀ (s.frameDrop n) := h.finc.laneDrop.laneRest.windowNote
theorem Kept.stage {n : Nat} {p : Phr} {i : Option MacInfo} (h : Kept s₀ s) : Kept s₀ (s.stage n p i) := by
  unfold State.stage
  dsimp only
  split
  · exact h.setLane
  · split
    · exact h.finc.frameDrop
    · next e =>
      split
      · exact (h.takeCells e).cellsTo.poolNote.setLane
      · split
        · exact (h.takeCells e).cellsTo.poolNote.setLane.setLane
        · exact .ite (h.takeCells e).cellsTo.poolNote.setLane.setLane (h.takeCells e).cellsTo.poolNote.setLane.finc.frameDrop
theorem Kept.execPhrParsed {at' : LaneAt} {phr : PhrBits} (h : Kept s₀ s) : OutKept s₀ (execPhrParsed at' phr s) := by
  unfold Machine.execPhrParsed
  dsimp only
  split
  · exact .next h.advance
  · split
    · exact .next h.advance.finc.frameDrop
    · exact .next h.advance.finc.frameDrop
    · exact .ite (.next h.advance.setLane.laneTo) (.next h.advance.finc.frameDrop)
    · exact .next h.advance.stage
theorem Kept.execLastBitDecoded {lane : Fin 16} {t : Frc} {bits : List Bool} (h : Kept s₀ s) :
    OutKept s₀ (execLastBitDecoded lane t bits s) := by
  unfold Machine.execLastBitDecoded
  dsimp only
  split
  · exact .next h.advance
  · exact .ite (.next h.advance) (.next h.advance.laneTo.setLane.raise.event)
theorem Kept.execThresholdBlock {lane : Fin 16} {power : Int} {quiet : Bool} (h : Kept s₀ s) :
    OutKept s₀ (execThresholdBlock lane power quiet s) :=
  .ite (.next h) (.next h.setLane.fsetI.fsetI.fsetI)
theorem Kept.fecRecall (h : Kept s₀ s) : Kept s₀ s.fecRecall := h.withFec.foldl fun h => h.cwQueue
theorem Kept.execLdpcCodewordReceived {at' : LaneAt} (h : Kept s₀ s) : OutKept s₀ (execLdpcCodewordReceived at' s) :=
  .ite (.next h.advance) (.ite (.next h.advance.laneAbort.windowNote) (.next h.advance.setLane.fecRecall.cwQueue.fecFill))
theorem Kept.execLdpcDecodeDone {dec : Fin 4} {t : Frc} {res : Decoded} (h : Kept s₀ s) :
    OutKept s₀ (execLdpcDecodeDone dec t res s) := by
  unfold Machine.execLdpcDecodeDone
  dsimp only
  split
  · exact .next h.advance
  · split
    · exact .next h.advance
    · exact .next (h.advance.withFec.finc.fadd.fset.unless fun h => h.finc.raise).setLane.fecFill
theorem Kept.replayAdvance {m asn : Nat} {i : MacInfo} {l : List Byte} (h : Kept s₀ s) : Kept s₀ (s.replayAdvance m asn i l) :=
  .ite h.nbrSet.nbrSet.nbrSet h.nbrSet.nbrSet
theorem Kept.ackBuild {n : Nat} {l : Lane} {v : Served} {c : Cand} {m : Option Nat} {i : MacInfo} {f : RxFrame} {first : Nat}
    (h : Kept s₀ s) :
    Kept s₀ (s.ackBuild n l v c m i f first) := by
  unfold State.ackBuild
  dsimp only
  split
  · exact h
  · split
    · exact h.withTxm
    · split
      · exact h.finc
      · exact .ite h.finc h.takeCounter.withTxm
theorem Kept.publishFrame {n : Nat} {sl : Slot} {v : Served} {p : Phr} {f : RxFrame} {info : Option MacInfo} {oct : List Byte}
    (h : Kept s₀ s) :
    Kept s₀ (s.publishFrame n sl v p f info oct) := by
  unfold State.publishFrame
  extract_lets l c0 m cred rssi lqi a1 w1 a a2 a3 a4 a5 a6 a7 cad a8
  have h6 : Kept s₀ a6 :=
    h.linkChain.putOctets.setWord.setWord.setWord.setWord.setWord.setWord.setWord.cellsTo.setTrf.finc.raise.event
  have h7 : Kept s₀ a7 := by
    unfold a7
    cases cred with
    | none => exact h6
    | some c => exact h6.withSlot
  have h8 : Kept s₀ a8 := by
    unfold a8
    split
    · exact h7.withCad
    · exact h7
  have answer {t : State} {x : Option Nat} {i : MacInfo} (h : Kept s₀ t) :
      Kept s₀ (match cred with | some c => t.ackBuild n l v c x i f c0 | none => t) := by
    cases cred with
    | none => exact h
    | some c => exact h.ackBuild
  clear_value a8 m
  cases info with
  | none => exact h8
  | some i =>
    cases m with
    | none => exact answer h8
    | some x => exact answer <| ((h8.when fun h => h.replayAdvance).nbrSet.nbrSet.nbrSet.contact).when fun h => h.rsetN.ntuSample
theorem Kept.laneReleased {n : Nat} {v : Served} (h : Kept s₀ s) : Kept s₀ (s.laneReleased n v) :=
  (h.setLane.laneDrop.either (fun h => h.laneRest) fun h => h.laneTo).windowNote
theorem Kept.checkLane {n : Nat} (h : Kept s₀ s) : Kept s₀ (s.checkLane n) := by
  unfold State.checkLane
  dsimp only
  split
  · exact h
  · split
    · split
      · exact (Kept.ite h.fset.fset h).publishFrame.laneReleased
      · refine .frameDrop ?_
        refine .when ?_ fun h => h.fset.raise
        split
        · exact (Kept.ite h.fset.fset h).finc
        · exact .ite h.fset.fset h
    · exact h.laneDrop.laneRest
theorem Kept.execFrameChecks {lanes : BitVec 16} {t : Frc} (h : Kept s₀ s) : OutKept s₀ (execFrameChecks lanes t s) :=
  .ite (.next h.advance) (.next (h.advance.foldl fun h => h.checkLane))
theorem Kept.ackSkip (h : Kept s₀ s) : Kept s₀ s.ackSkip := h.finc.fset.raise
theorem Kept.lanesForAck (h : Kept s₀ s) : Kept s₀ s.lanesForAck := h.foldl fun h => .ite h.finc.laneAbort (.ite h.setLane h)
theorem Kept.execAckDecision {t : Frc} {lane : Fin 16} (h : Kept s₀ s) : OutKept s₀ (execAckDecision t lane s) := by
  have ha := h.advance (t := t)
  unfold Machine.execAckDecision
  dsimp only
  split
  · refine .ite (.next ha.ackDrop.ackSkip) (.next (.when (.fset ?_) fun h => h.lanesForAck))
    exact ha
  · exact .next (ha.when fun h => h.setLane.ackSkip)
theorem Kept.execCanopyWindowReturn {t : Frc} (h : Kept s₀ s) : OutKept s₀ (execCanopyWindowReturn t s) := by
  have ha := h.advance (t := t)
  unfold Machine.execCanopyWindowReturn
  dsimp only
  split
  · exact .next ha
  · refine .next (.withLanes ?_)
    split
    · refine .fset ?_
      exact ha
    · exact ha
theorem Kept.laneThrReset {n : Nat} (h : Kept s₀ s) : Kept s₀ (s.laneThrReset n) := h.setLane.fsetI.fsetI
theorem Kept.laneReset {n : Nat} (h : Kept s₀ s) : Kept s₀ (s.laneReset n) := h.srstPage.laneThrReset.laneTo.laneStop
theorem Kept.laneHook {n : Nat} {w : WCtx} (h : Kept s₀ s) : Kept s₀ (laneHook n w s) :=
  .ite (.ite h.laneReset (.ite (Kept.ite h.laneStop h).fset (.ite h.laneStop h))) h
theorem Kept.cnpHook {w : WCtx} (h : Kept s₀ s) : Kept s₀ (cnpHook w s) := .ite h.srstPage h
theorem Kept.fecOff (h : Kept s₀ s) : Kept s₀ s.fecOff := (h.foldl fun h => h.laneAbort).withFec
theorem Kept.fecHook {w : WCtx} (h : Kept s₀ s) : Kept s₀ (fecHook w s) :=
  .ite (.ite (Kept.ite h.fecOff h).fecOff.srstPage (.ite h.fecOff h)) h
theorem Kept.execCnpEnWrite {a : Acc} {v : Word} (h : Kept s₀ s) : OutKept s₀ (execCnpEnWrite a v s) :=
  .next (h.writeReg (fun h => h.cnpHook))
theorem Kept.execLaneDisable {a : Acc} {lane : Fin 16} {v : Word} (h : Kept s₀ s) : OutKept s₀ (execLaneDisable a lane v s) :=
  .next (h.writeReg (fun h => h.laneHook))
theorem Kept.execFecDisable {a : Acc} {v : Word} (h : Kept s₀ s) : OutKept s₀ (execFecDisable a v s) :=
  .next (h.writeReg (fun h => h.fecHook))

/-! ## The operations of Machine/Glade.lean -/

theorem Kept.gLine {n : Nat} (h : Kept s₀ s) : Kept s₀ (s.gLine n) := .ite h h.withCoreG
theorem Kept.gUnline {n : Nat} (h : Kept s₀ s) : Kept s₀ (s.gUnline n) := .ite h.withCoreG h
theorem Kept.gInc {k : Nat} (h : Kept s₀ s) : Kept s₀ (s.gInc k) := h.setGlade
theorem Kept.gLog {code d0 d1 : Nat} {recovered : Bool} (h : Kept s₀ s) : Kept s₀ (s.gLog code d0 d1 recovered) := by
  refine h.setGlade fun hg => ?_
  split <;> exact hg
theorem Kept.gRecover (h : Kept s₀ s) : Kept s₀ s.gRecover := h.foldl fun h => h.foldl fun h1 => .ite h1.gLog h1.gLog.freeStep
/-- Bytes read as free values move the counter of free values alone. -/
theorem Kept.freeBytes {l : List Nat} {bs : List Byte} (h : Kept s₀ s) :
    Kept s₀ (l.foldl (fun (r : State × List Byte) _ => (r.1.freeStep, r.2 ++ [BitVec.ofNat 8 r.1.free])) (s, bs)).1 :=
  .foldlFst h fun h => h.freeStep
theorem Glade.wf_setList {g : Glade} {a : Nat} {l : List Byte} (h : g.wf) : (g.setList a l).wf := by
  induction l generalizing g a with
  | nil => exact h
  | cons b l ih => exact ih (glade_setByte_wf g h a b)
theorem Kept.gReadErr {a : Nat} (h : Kept s₀ s) : Kept s₀ (s.gReadErr a) := (h.freeBytes.setGlade Glade.wf_setList).gLog
theorem Kept.gReads {lo hi : Nat} (h : Kept s₀ s) : Kept s₀ (s.gReads lo hi) := h.foldl fun h => h.gReadErr
theorem Kept.dropGrant (h : Kept s₀ s) : Kept s₀ s.dropGrant := .ite h h
theorem Kept.grantStep (h : Kept s₀ s) : Kept s₀ s.grantStep := .ite h.setGlade h.dropGrant
theorem Kept.gladeReset {cause : Nat} (h : Kept s₀ s) : Kept s₀ (s.gladeReset cause) :=
  (Kept.ite h.dropGrant h).resetRegs.withCoreG.setGlade.gInc.gLog.publish
theorem Kept.sessionEnd {reason : Nat} (h : Kept s₀ s) : Kept s₀ (s.sessionEnd reason) := h.gLog.publish.setGlade.dropGrant.gladeReset
theorem Kept.endSession {reason : Nat} (h : Kept s₀ s) : Kept s₀ (s.endSession reason) := .ite h (.ite h.setGlade h.sessionEnd)
theorem Kept.sealDecide {op : Bool} (h : Kept s₀ s) : Kept s₀ (s.sealDecide op) :=
  .ite h (.ite h.setGlade ((Kept.ite h.setGlade.gInc.gLog h.setGlade.gLog).gLine.publish.either
    (fun h => h.grantStep) fun h => h.endSession.grantStep))
theorem Kept.execSealCheck {matched : Bool} (h : Kept s₀ s) : OutKept s₀ (execSealCheck matched s) :=
  .ite (.next h) (.next (.ite h.setGlade.sealDecide (h.setGlade.when fun h => h.sealDecide)))
theorem Kept.gPresence {low : Bool} (h : Kept s₀ s) : Kept s₀ (s.gPresence low) := by
  unfold State.gPresence
  split
  · exact h
  · split
    · exact .ite h.setGlade h
    · exact .ite h h.setGlade
theorem Kept.execGladeTokenChange {t : Frc} (h : Kept s₀ s) : OutKept s₀ (execGladeTokenChange t s) :=
  .next (h.advance.unless fun h => h.setGlade.gLine.grantStep)
theorem Kept.execGrantChange (h : Kept s₀ s) : OutKept s₀ (execGrantChange s) := .next (.ite h.grantStep h)
theorem Kept.gpcSet {n : Nat} {f : Gpc → Gpc} (h : Kept s₀ s) : Kept s₀ (s.gpcSet n f) := h.setGlade
theorem Kept.gpcCount {n : Nat} {up : Bool} (h : Kept s₀ s) : Kept s₀ (s.gpcCount n up) := .ite h.fset h.fset.gpcSet.gLine.publish
theorem Kept.gpcEdge {n : Nat} {pa pb : Bool} (h : Kept s₀ s) : Kept s₀ (s.gpcEdge n pa pb) := by
  unfold State.gpcEdge
  dsimp only
  split
  · exact h.gpcSet.when fun h => h.gpcCount
  · exact h.gpcSet.when fun h => h.gpcCount
  · exact h.gpcSet.when fun h => h.gpcCount
  · exact .ite h.gpcSet.fadd (.ite h.gpcSet (.ite h.gpcSet.gpcSet.gpcCount h.gpcSet.gpcSet))
  · exact .ite h.gpcSet.fadd (h.gpcSet.unless fun h => h.gpcCount)
  · exact h.gpcSet
theorem Kept.execGpcEdge {ch : Fin 4} {pa pb : Bool} (h : Kept s₀ s) : OutKept s₀ (execGpcEdge ch pa pb s) := .next (.ite h.gpcEdge h)
theorem Kept.gpcCapture {n : Nat} (h : Kept s₀ s) : Kept s₀ (s.gpcCapture n) := (Kept.ite h.fset h).gpcSet.fset
theorem Kept.execGsecIncrement (h : Kept s₀ s) : OutKept s₀ (execGsecIncrement s) :=
  .ite (.next h) (.next ((h.setGlade.gLine.foldl fun h => h.gpcCapture).when fun h => h.fset))
theorem Kept.mbStart {a : Nat} (h : Kept s₀ s) : Kept s₀ (s.mbStart a) := h.setGlade
theorem Kept.mbDone (h : Kept s₀ s) : Kept s₀ s.mbDone := by
  unfold State.mbDone
  split
  · exact h
  · exact h.setGlade.gLine.publish
theorem Kept.execMbCopyDone (h : Kept s₀ s) : OutKept s₀ (execMbCopyDone s) := .next h.mbDone
theorem Kept.mbRead0 {m : Master} (h : Kept s₀ s) : Kept s₀ (s.mbRead0 m).1 := h.mbDone.setGlade
theorem Kept.windowRead {m : Master} {f : State → State × Nat} (h : Kept s₀ s) (hf : ∀ {t}, Kept s₀ t → Kept s₀ (f t).1) :
    Kept s₀ (s.windowRead m f) :=
  .ite h.withBus (hf h).withBus
theorem Kept.execMailboxWord0Read {m : Master} {viaWindow : Bool} (h : Kept s₀ s) : OutKept s₀ (execMailboxWord0Read m viaWindow s) :=
  .next (.ite (h.windowRead (fun h => h.mbRead0)) (h.readAs (fun h => h.mbRead0)))
theorem Kept.gladeRead {a : Nat} (h : Kept s₀ s) : Kept s₀ (s.gladeRead a).1 :=
  .iteFst (h.setGlade.when fun h => h.fset) (.iteFst h (.iteFst h.fset (.iteFst h.fset h)))
theorem Kept.gAppend {w2 : Nat} (h : Kept s₀ s) : Kept s₀ (s.gAppend w2) := .ite h.fset h.setGlade
theorem Kept.gdspSend {v : Nat} (h : Kept s₀ s) : Kept s₀ (s.gdspSend v) := .ite h.fset h.setGlade.fset
theorem Kept.gladeSrst {p : Nat} (h : Kept s₀ s) : Kept s₀ (s.gladeSrst p) := by
  unfold State.gladeSrst
  dsimp only
  refine .ite ?_ (.ite h.resetRegs.setGlade (h.resetRegs.setGlade fun hg => ?_))
  · exact (h.resetRegs.setGlade (f := fun g => { g with copy := none })).withCoreG
  · split <;> exact hg
theorem Kept.gladeWrite {a : Nat} {v : Word} (h : Kept s₀ s) : Kept s₀ (s.gladeWrite a v) :=
  .elim h (.ite h (.ite (.ite h.rset h) (.ite (h.rset.when fun h => h.gladeSrst) (.ite (.ite h.mbStart h) (.ite (.ite
    (h.foldl fun h => .ite h.gUnline h) h) (.ite (.ite h (h.rset.when fun h => h.fset)) (.ite (.ite h.fset.gUnline h) (.ite
    (.ite h.gladeReset h) (.ite (.ite h.gdspSend h) (.ite (h.rset.fset.when fun h => h.gpcCapture) (.ite
    (h.rset.fset.when fun h => h.setGlade) (.ite (.ite h.setGlade h) (.ite (.ite h.setGlade h) (.ite
    (.ite h.gAppend h) h.rset))))))))))))))
theorem Kept.byFirmware {f : State → State} (h : Kept s₀ s) (hf : ∀ {t}, Kept s₀ t → Kept s₀ (f t)) : OutKept s₀ (s.byFirmware f) :=
  .next (.ite (hf h) h)
theorem Kept.execGcoreMbsrc {v : Word} (h : Kept s₀ s) : OutKept s₀ (execGcoreMbsrc v s) := h.byFirmware (fun h => h.gladeWrite)
theorem Kept.execGpcCapture {ch : Fin 4} {v : Word} (h : Kept s₀ s) : OutKept s₀ (execGpcCapture ch v s) :=
  h.byFirmware (fun h => h.gladeWrite)
theorem Kept.execGladeWdtKick {v : Word} (h : Kept s₀ s) : OutKept s₀ (execGladeWdtKick v s) := h.byFirmware (fun h => h.gladeWrite)
theorem Kept.execGladeWdtEnable {v : Word} (h : Kept s₀ s) : OutKept s₀ (execGladeWdtEnable v s) := h.byFirmware (fun h => h.gladeWrite)
theorem Kept.execGladeSelfReset {v : Word} (h : Kept s₀ s) : OutKept s₀ (execGladeSelfReset v s) := h.byFirmware (fun h => h.gladeWrite)
theorem Kept.execGlogAppend {v : Word} (h : Kept s₀ s) : OutKept s₀ (execGlogAppend v s) := h.byFirmware (fun h => h.gladeWrite)
theorem Kept.execGadcStart {v : Word} (h : Kept s₀ s) : OutKept s₀ (execGadcStart v s) := h.byFirmware (fun h => h.gladeWrite)
theorem Kept.execGdspFrame {v : Word} (h : Kept s₀ s) : OutKept s₀ (execGdspFrame v s) := h.byFirmware (fun h => h.gladeWrite)
theorem Kept.execGpcCapRead {ch : Fin 4} {sameCycleCapture : Bool} (h : Kept s₀ s) : OutKept s₀ (execGpcCapRead ch sameCycleCapture s) :=
  h.byFirmware (fun h => h.gladeRead.setGlade.when fun h => h.gpcCapture)
theorem Kept.execGladeWdtWarning (h : Kept s₀ s) : OutKept s₀ (execGladeWdtWarning s) := .next (.ite h.gLine h)
theorem Kept.execGladeWatchdogExpiry (h : Kept s₀ s) : OutKept s₀ (execGladeWatchdogExpiry s) := .next (.ite h.gladeReset h)
theorem Glade.wf_withHw {g : Glade} {n : Nat} (h : g.wf) : Glade.wf { g with hwN := n } := h
theorem Glade.wf_withRing {g : Glade} {n : Nat} {b : Bool} (h : g.wf) : Glade.wf { g with ringNext := n, ringWrap := b } := h
theorem Glade.wf_writeEntry {g : Glade} {e : GLogWr} (h : g.wf) : (g.writeEntry e).wf := by
  unfold Glade.writeEntry
  dsimp only
  split
  · exact Glade.wf_withHw (Glade.wf_setList h)
  · refine Glade.wf_withRing (Glade.wf_setList ?_)
    split
    · exact glade_clear_wf g h _ _
    · exact h
theorem Kept.execGlogWriteDone (h : Kept s₀ s) : OutKept s₀ (execGlogWriteDone s) := by
  unfold Machine.execGlogWriteDone
  split
  · exact .next (h.when fun h => (h.setGlade fun hg => Glade.wf_writeEntry hg).gLine)
  · exact .next h
theorem Kept.execGadcResult {data : BitVec 14} (h : Kept s₀ s) : OutKept s₀ (execGadcResult data s) := .next (.ite h.fset.fset.setGlade h)
theorem Kept.execGdspFrameDone (h : Kept s₀ s) : OutKept s₀ (execGdspFrameDone s) := .next (.ite h.fset.gLine h)
theorem Kept.gladeLoss (h : Kept s₀ s) : Kept s₀ s.gladeLoss := h.setGlade.fset
/-- Where Glade SRAM begins, no unlisted byte changes when the domain loses its supply. -/
theorem Kept.execGladePowerOnReset (h : Kept s₀ s) : OutKept s₀ (execGladePowerOnReset s) := by
  have hp := ((h.resetRegs (p := fun a => pageOf a = Pg.GPC)).setGlade (f := fun g =>
    { g with powered := true, gsec := 0, box := List.replicate 64 0, snaps := [], token := false, sealOpen := true
             sealKnown := s.glade.sealLost, sealBad := 0, sealGood := 0, sealLost := false, logQ := [], presLow := none, presLong := none
             logSeq := (g.logSeq + 65536 - g.logQ.length % 65536) % 65536
             mem := g.mem.filter (fun c => c.1 < 0x40000) }) fun hg => cellFilter_wf _ _ hg _).gRecover.dropGrant.gladeReset (cause := 0)
  exact .next (hp.gInc.gLog.when fun h => h.gInc.gLog.gLine.publish)
theorem Kept.execGladeBootDone (h : Kept s₀ s) : OutKept s₀ (execGladeBootDone s) :=
  .ite (.next h) (.ite (.next h.gReads.setGlade.grantStep) (.next h.gReads.setGlade.grantStep.freeStep.freeStep.withCoreG))
theorem Kept.maintResult {r : Nat} (h : Kept s₀ s) : Kept s₀ (s.maintResult r) := h.setGlade
theorem Kept.maintOpen (h : Kept s₀ s) : Kept s₀ s.maintOpen :=
  .ite h (.ite h.gLog.dropGrant (.ite h.gLog.dropGrant h.gInc.gLog.publish.setGlade))
theorem Kept.maintCmd {f : State → State} (h : Kept s₀ s) (hf : ∀ {t}, Kept s₀ t → Kept s₀ (f t)) : OutKept s₀ (s.maintCmd f) :=
  .ite (.next h) (.ite (.next h.maintOpen) (.ite (.next h.maintOpen.maintResult) (.next (hf h.maintOpen))))
theorem Kept.maintChange (h : Kept s₀ s) : Kept s₀ s.maintChange := h.setGlade.unless fun h => h.gInc.setGlade.gLog
theorem Kept.execMaintStatus (h : Kept s₀ s) : OutKept s₀ (execMaintStatus s) := .ite (.next h) (.next h.maintOpen.setGlade)
theorem Kept.execMaintErase {area : Byte} (h : Kept s₀ s) : OutKept s₀ (execMaintErase area s) :=
  h.maintCmd (fun h => .ite h.maintChange.maintResult h.maintChange.setGlade)
theorem Kept.execMaintProg {addr : BitVec 24} {data : List Byte} (h : Kept s₀ s) : OutKept s₀ (execMaintProg addr data s) :=
  h.maintCmd (fun h => .ite h.maintChange.maintResult (.ite h.maintChange.maintResult h.maintChange.setGlade))
theorem Kept.execMaintRead {rd : MaintRd} (h : Kept s₀ s) : OutKept s₀ (execMaintRead rd s) :=
  h.maintCmd (fun h => .ite h.maintResult (Kept.ite h.setGlade h).gReads.setGlade.maintResult)
theorem Kept.maintSpoilt {r : Nat} (h : Kept s₀ s) : Kept s₀ (s.maintSpoilt r) := h.setGlade.maintResult
theorem Kept.execMaintCommit {digest : List Byte} (h : Kept s₀ s) : OutKept s₀ (execMaintCommit digest s) :=
  h.maintCmd (fun h => .ite h.maintSpoilt h.setGlade)
theorem Kept.maintCode {code : Nat} (h : Kept s₀ s) : OutKept s₀ (s.maintCode code) := by
  unfold State.maintCode
  split
  · exact h.execMaintStatus
  · exact h.maintCmd (fun h => h.maintChange.maintResult)
  · exact h.maintCmd (fun h => h.maintChange.maintResult)
  · exact h.maintCmd (fun h => h.maintSpoilt)
  · exact h.maintCmd (fun h => h.maintResult.endSession)
  · exact h.maintCmd (fun h => h.maintResult)
theorem Kept.execMaintExit (h : Kept s₀ s) : OutKept s₀ (execMaintExit s) := h.maintCmd (fun h => h.maintResult.endSession)
/-- Erasing a part of the Glade's flash: no byte of the part is listed, whatever it now reads as. -/
theorem Glade.wf_erase {g g' : Glade} {lo hi : Nat} (h : g.wf) (hm : g'.mem = (g.clear lo hi).mem)
    (hd : ∀ a, ¬ (lo ≤ a ∧ a < hi) → g'.default a = g.default a) : g'.wf := by
  have hw := glade_clear_wf g h lo hi
  unfold Glade.wf
  rw [hm]
  refine ⟨hw.1, fun c hc => ?_⟩
  have hout := (List.mem_filter.1 hc).2
  rw [hd c.1 (by simpa [Decidable.imp_iff_not_or] using hout)]
  exact hw.2 c hc
theorem Glade.wf_eraseCode {g : Glade} (h : g.wf) : Glade.wf { g.clear 0 0x30000 with codeErased := true } := by
  refine Glade.wf_erase h rfl fun a ha => ?_
  unfold Glade.default
  have hc : ¬ a < 0x30000 := fun hlt => ha ⟨a.zero_le, hlt⟩
  simp [hc, Glade.clear]
theorem Glade.wf_erasePar {g : Glade} (h : g.wf) : Glade.wf { g.clear 0x30000 0x34000 with parErased := true } := by
  refine Glade.wf_erase h rfl fun a ha => ?_
  unfold Glade.default
  by_cases hc : a < 0x30000
  · simp [hc, Glade.clear]
  · have hp : ¬ a < 0x34000 := fun hlt => ha ⟨Nat.le_of_not_lt hc, hlt⟩
    simp [hc, hp]
theorem Kept.maintErased {params ok : Bool} (h : Kept s₀ s) : Kept s₀ (s.maintErased params ok) := by
  unfold State.maintErased
  extract_lets lo hi t k
  have ht : Kept s₀ t := h.setGlade fun hg => by
    cases params with
    | true => exact Glade.wf_erasePar hg
    | false => exact Glade.wf_eraseCode hg
  refine .ite (ht.setGlade (f := fun g => g.renew lo hi)).maintResult ?_
  exact (ht.freeStep.setGlade fun hg => glade_setByte_wf _ hg _ _).gLog.maintResult
theorem Kept.maintProgged {a : Nat} {data : List Byte} {ok : Bool} (h : Kept s₀ s) : Kept s₀ (s.maintProgged a data ok) := by
  unfold State.maintProgged
  split
  · exact (h.setGlade fun hg => Glade.wf_setList hg).maintResult
  · exact (h.freeBytes.setGlade Glade.wf_setList).gLog.maintResult
theorem Kept.maintCommitted {d : List Byte} (h : Kept s₀ s) : Kept s₀ (s.maintCommitted d) :=
  .ite h.maintSpoilt (.ite h.setGlade.maintSpoilt h.setGlade.gLog.maintResult)
theorem Kept.execMaintOpDone {verified : Bool} (h : Kept s₀ s) : OutKept s₀ (execMaintOpDone verified s) := by
  have ended {t : State} (h : Kept s₀ t) : OutKept s₀ (.next (match t.glade.pendEnd with
      | some r => t.sessionEnd r
      | none => t)) := by
    split
    · exact .next h.sessionEnd
    · exact .next h
  unfold Machine.execMaintOpDone
  split
  · exact .next h
  · refine ended (Kept.setGlade (f := fun g => { g with op := none }) ?_)
    split
    · exact h.maintErased
    · exact h.maintProgged
    · exact (h.unless fun h => h.freeStep.setGlade).gReads.maintCommitted
theorem Kept.execMaintTimeout (h : Kept s₀ s) : OutKept s₀ (execMaintTimeout s) := .next h.endSession

/-! ## The operations of Machine/Psp.lean -/

theorem Kept.setPsp {f : PspState → PspState} (h : Kept s₀ s) : Kept s₀ (s.setPsp f) := h.withPsp
theorem Kept.pspEnd {bits phase : Nat} {hold : Bool} (h : Kept s₀ s) : Kept s₀ (s.pspEnd bits phase hold) :=
  h.setPsp.fset.fset.fset.fset.raise.event
theorem Kept.pspStop {cause moved phase : Nat} {rx : List Byte} (h : Kept s₀ s) : Kept s₀ (s.pspStop cause moved phase rx) :=
  .ite (h.withPins (fun h => h.setPsp.fset.raise.fset.pspEnd)) (h.withPins (fun h => h.setPsp))
theorem Kept.freeLanes {n : Nat} (h : Kept s₀ s) : Kept s₀ (s.freeLanes n).1 := by
  induction n generalizing s with
  | zero => exact h
  | succ n ih => exact ih h.freeStep
theorem Kept.pspStopNow {cause : Nat} (h : Kept s₀ s) : Kept s₀ (s.pspStopNow cause) :=
  .ite h.freeStep.freeStep.freeLanes.pspStop h.pspStop
theorem Kept.pspGo (h : Kept s₀ s) : Kept s₀ s.pspGo := by
  unfold State.pspGo
  split
  · exact h.withPins (fun h => h.setPsp)
  · exact h.fset.raise.fset
theorem Kept.pspPush {v : Word} (h : Kept s₀ s) : Kept s₀ (s.pspPush v) := by
  unfold State.pspPush
  split
  · exact .ite h.setPsp (.ite h.setPsp h.fset)
  · exact h.setPsp
theorem Kept.pspPop (h : Kept s₀ s) : Kept s₀ s.pspPop.1 := by
  unfold State.pspPop
  split
  · exact h.setPsp
  · exact .iteFst h.freeStep.setPsp h.fset
theorem Kept.pspReset (h : Kept s₀ s) : Kept s₀ s.pspReset := (h.withPins (fun h => h.srstPage)).setPsp.pspStopNow.setPsp
theorem Kept.pspHook {w : WCtx} (h : Kept s₀ s) : Kept s₀ (pspHook w s) :=
  .ite (.ite h.pspReset (.ite h.pspStopNow h)) (.ite h.pinWrite (.ite ((h.rsetN.when fun h => h.pspGo).when fun h => h.pspStopNow) (.ite
    (.ite h.pspPush h) h)))
theorem Kept.execPspGo {a : Acc} {v : Word} (h : Kept s₀ s) : OutKept s₀ (execPspGo a v s) := .next (h.writeReg (fun h => h.pspHook))
theorem Kept.pspStopHook {moved phase : Nat} {rx : List Byte} {w : WCtx} (h : Kept s₀ s) : Kept s₀ (pspStopHook moved phase rx w s) :=
  (h.rsetN.when fun h => h.pspGo).when fun h => h.pspStop
theorem Kept.execPspStop {a : Acc} {v : Word} {moved : Nat} {phase : Fin 4} {rx : List Byte} (h : Kept s₀ s) :
    OutKept s₀ (execPspStop a v moved phase rx s) :=
  .next (h.writeReg (fun h => h.pspStopHook))
theorem Kept.execPspTxdWrite {a : Acc} {v : Word} (h : Kept s₀ s) : OutKept s₀ (execPspTxdWrite a v s) :=
  .next (h.writeReg (fun h => h.pspHook))
theorem Kept.execPspRxdRead {m : Master} (h : Kept s₀ s) : OutKept s₀ (execPspRxdRead m s) := .next (h.readAs (fun h => h.pspPop))
theorem Kept.execPspPause {moved : Nat} {rx : List Byte} (h : Kept s₀ s) : OutKept s₀ (execPspPause moved rx s) :=
  .ite (.next h.setPsp.fset) (.next h)
theorem Kept.execPspFifoResume (h : Kept s₀ s) : OutKept s₀ (execPspFifoResume s) := .ite (.next h.fset) (.next h)
theorem Kept.execPspTransferEnd {rx : List Byte} (h : Kept s₀ s) : OutKept s₀ (execPspTransferEnd rx s) :=
  .ite (.next h) (.next (h.withPins (fun h => h.setPsp.pspEnd)))

/-! ## The operations of Machine/Cadence.lean -/

theorem Kept.setCad {f : CadState → CadState} (h : Kept s₀ s) : Kept s₀ (s.setCad f) := h.withCad
theorem Kept.cadStart (h : Kept s₀ s) : Kept s₀ s.cadStart :=
  .ite h.setCad ((h.fset.fset.unless fun h => h.fset.raise).unless fun h => h.fset)
theorem Kept.cadHalt {cause : SqCause} (h : Kept s₀ s) : Kept s₀ (s.cadHalt cause) := by
  refine (Kept.fset (.fset (.fset (.setCad ?_)))).windowShut.setRfe.stepTry.modeAtStop.workNext
  exact h.squashWhere
theorem Kept.cadStop (h : Kept s₀ s) : Kept s₀ s.cadStop := h.cadHalt
theorem Kept.cadDisable (h : Kept s₀ s) : Kept s₀ s.cadDisable := by
  unfold State.cadDisable
  split
  · exact .ite h.cadStop h.setCad
  · exact h.cadStop
theorem Kept.tableChanged {p : Ticket → Bool} (h : Kept s₀ s) : Kept s₀ (s.tableChanged p) := h.squashWhere
theorem Kept.hopNext (h : Kept s₀ s) : Kept s₀ s.hopNext := h.fset
theorem Kept.hopSet {ch : Nat} (h : Kept s₀ s) : Kept s₀ (s.hopSet ch) := h.setCad.tableChanged.hopNext
theorem Kept.cadCtrl {w : WCtx} (h : Kept s₀ s) : Kept s₀ (cadCtrl w s) :=
  .ite (Kept.ite (Kept.ite h.cadStart (.ite h.cadDisable h)).cadDisable (.ite h.cadStart (.ite h.cadDisable h))).setCad.srstPage
    (.ite h.cadStart (.ite h.cadDisable h))
theorem Kept.cadSlotframe {w : WCtx} {n : Nat} (h : Kept s₀ s) : Kept s₀ (cadSlotframe w n s) :=
  .ite (Kept.ite h.fset.fset h).tableChanged (.ite h.fset.fset h)
theorem Kept.cadHook {w : WCtx} (h : Kept s₀ s) : Kept s₀ (cadHook w s) :=
  .ite h.cadCtrl (.ite (.ite h.rsetN.fset h) (.ite h.cadSlotframe (.ite (.ite h.fset.setCad h) (.ite h.hopSet (.ite h.tableChanged (.ite
    (h.fset.when fun h => h.tableChanged) (.ite (.ite h.fset.rsetN.fset (h.fset.when fun h => h.setCad)) (.ite
    (.ite h.rsetN.fset h) h))))))))
theorem Kept.nbrHook {w : WCtx} (h : Kept s₀ s) : Kept s₀ (nbrHook w s) :=
  .ite (.ite h.srstPage h) (.ite (.ite (h.fset.when fun h => h.nbrInit).tableChanged h.fset) h)
theorem Kept.execCadTblchg {a : Acc} {v : Word} (h : Kept s₀ s) : OutKept s₀ (execCadTblchg a v s) :=
  .next (h.writeReg (fun h => h.cadHook))
theorem Kept.execNbrChg {a : Acc} {v : Word} (h : Kept s₀ s) : OutKept s₀ (execNbrChg a v s) := .next (h.writeReg (fun h => h.nbrHook))
theorem Kept.execCadApphb {a : Acc} {v : Word} (h : Kept s₀ s) : OutKept s₀ (execCadApphb a v s) :=
  .next (h.writeReg (fun h => h.cadHook))
theorem Kept.execCadLsInj {a : Acc} {v : Word} (h : Kept s₀ s) : OutKept s₀ (execCadLsInj a v s) :=
  .next (h.writeReg (fun h => h.cadHook))
theorem Kept.execCadEnable {a : Acc} {v : Word} (h : Kept s₀ s) : OutKept s₀ (execCadEnable a v s) :=
  .next (h.writeReg (fun h => h.cadHook))
theorem Kept.execCadHopDataAccess {a : Acc} {w : Option Word} (h : Kept s₀ s) : OutKept s₀ (execCadHopDataAccess a w s) := by
  unfold Machine.execCadHopDataAccess
  split
  · exact .next (h.readAs (fun h => h.hopNext))
  · exact .next (h.portWrite (fun h => h.cadHook))
theorem Kept.setAck {a : Option AckWait} (h : Kept s₀ s) : Kept s₀ (s.setAck a) := h.setCad
theorem Kept.ackWindowShut (h : Kept s₀ s) : Kept s₀ s.ackWindowShut := h.laneDrop.laneTo.setLane.withRfe
theorem Kept.execAckWindowOpen {t : Frc} (h : Kept s₀ s) : OutKept s₀ (execAckWindowOpen t s) := by
  unfold Machine.execAckWindowOpen
  dsimp only
  split
  · exact .ite (.next h.advance) (.next (h.advance.setAck.when fun h => h.setLane.laneTo.narrowGainOpen))
  · exact .next h.advance
theorem Kept.execAckWindowClose {t : Frc} (h : Kept s₀ s) : OutKept s₀ (execAckWindowClose t s) := by
  unfold Machine.execAckWindowClose
  dsimp only
  split
  · exact .ite (.next h.advance) (.next h.advance.setAck.ackWindowShut)
  · exact .next h.advance
theorem Kept.ackTake {asn e : Nat} {k : Ticket} {i : MacInfo} {f : RxFrame} (h : Kept s₀ s) : Kept s₀ (s.ackTake asn e k i f) := by
  unfold State.ackTake
  extract_lets nack a b sec
  have hb : Kept s₀ b := h.setTicket.when fun h => h.finc
  split
  · exact hb
  · extract_lets c
    have hc : Kept s₀ c := hb.when fun h => h.replayAdvance
    split
    · exact hc
    · exact hc.contact.when fun h => h.rsetN.ntuSample
theorem Kept.execAckReceived {t : Frc} {lane : Fin 16} (h : Kept s₀ s) : OutKept s₀ (execAckReceived t lane s) := by
  unfold Machine.execAckReceived
  dsimp only
  split
  · split
    · exact .next h.advance
    · split
      · exact .ite (.next h.advance.setAck.ackWindowShut.ackTake) (.next (.ite h.advance.setAck.ackWindowShut h.advance.laneDrop.laneTo))
      · exact .next (.ite h.advance.setAck.ackWindowShut h.advance.laneDrop.laneTo)
  · exact .next h.advance

/-! ## The operations of Machine/Culvert.lean -/

theorem Kept.routeOn {cs : List Nat} (h : Kept s₀ s) : Kept s₀ (s.routeOn cs) := h.route.raiseAll
theorem Kept.sysFault {code : Nat} (h : Kept s₀ s) : Kept s₀ (s.sysFault code) := .ite h.fset.fset h
theorem Kept.ownIgnore {any : Bool} (h : Kept s₀ s) : Kept s₀ (s.ownIgnore any) := .ite h.fset h
theorem Kept.swTrig {src : Source} {v : Nat} (h : Kept s₀ s) : Kept s₀ (s.swTrig src v) := h.ownIgnore.when fun h => h.routeOn
theorem Kept.chenWrite {src : Source} {old new : Nat} (h : Kept s₀ s) : Kept s₀ (s.chenWrite src old new) := h.ownIgnore.rsetN.withCul
theorem Kept.culLeave (h : Kept s₀ s) : Kept s₀ s.culLeave := .ite h.fset h.fset
theorem Kept.culHook {w : WCtx} (h : Kept s₀ s) : Kept s₀ (culHook w s) :=
  .ite (.ite h.withCul.srstPage h) (.ite (h.fset.when fun h => h.culLeave) (.ite h.swTrig (.ite h.chenWrite (.ite h.rsetN
    (.ite h.withCul h)))))
theorem Kept.execCulSwtrig {a : Acc} {v : Word} (h : Kept s₀ s) : OutKept s₀ (execCulSwtrig a v s) :=
  .next (h.writeReg (fun h => h.culHook))
theorem Kept.execCulChenWrite {a : Acc} {v : Word} (h : Kept s₀ s) : OutKept s₀ (execCulChenWrite a v s) :=
  .next (h.writeReg (fun h => h.culHook))
theorem Kept.execCulExit {a : Acc} {v : Word} (h : Kept s₀ s) : OutKept s₀ (execCulExit a v s) := .next (h.writeReg (fun h => h.culHook))
theorem Kept.execProducerEvent {p : Fin 96} (h : Kept s₀ s) : OutKept s₀ (execProducerEvent p s) :=
  .ite (.next h.withCul.publish) (.next (.ite h.publish h))
theorem Kept.execRoutingFault {ch : Fin 32} {word : Fin 6} (h : Kept s₀ s) : OutKept s₀ (execRoutingFault ch word s) :=
  .next h.withCul.fset.fset.fset.rsetN.raise.sysFault

/-! ## The operations of Machine/Flash.lean -/

theorem Kept.flcRefuse {cause : Nat} (h : Kept s₀ s) : Kept s₀ (s.flcRefuse cause) := h.fset.fset.setFlash
theorem Kept.flcKey {v : Nat} (h : Kept s₀ s) : Kept s₀ (s.flcKey v) :=
  .ite h.flcRefuse (.ite h.setFlash (h.flcRefuse.setFlash.when fun h => h.fset))
theorem Kept.cacheDrop {lo hi : Nat} (h : Kept s₀ s) : Kept s₀ (s.cacheDrop lo hi) := h.withCaches
theorem Kept.flashStart {o : FlashOp} (h : Kept s₀ s) : Kept s₀ (s.flashStart o) :=
  .ite h.setFlash (h.setFlash.rsetN.unless fun h => h.cacheDrop)
theorem Kept.flcTrigger {data : List Word} (h : Kept s₀ s) : Kept s₀ (s.flcTrigger data) :=
  .ite (Kept.ite h.freeStep h).flcRefuse (Kept.ite h.freeStep h).flashStart
theorem Kept.flcRefuseNow {cause : Nat} (h : Kept s₀ s) : Kept s₀ (s.flcRefuseNow cause) := h.fset.fset
theorem Kept.flcSuspend (h : Kept s₀ s) : Kept s₀ s.flcSuspend := by
  unfold State.flcSuspend
  split
  · exact .ite h.setFlash h.flcRefuseNow
  · exact h.flcRefuseNow
theorem Kept.flcResume (h : Kept s₀ s) : Kept s₀ s.flcResume := by
  unfold State.flcResume
  split
  · exact h.flcRefuseNow
  · exact .ite h.flcRefuseNow h.setFlash
theorem Kept.flcClear (h : Kept s₀ s) : Kept s₀ s.flcClear := h.rset
theorem Kept.flcCmd {c : Nat} (h : Kept s₀ s) : Kept s₀ (s.flcCmd c) :=
  .ite (.ite h.flcRefuseNow (.ite h.flcSuspend (.ite h.flcResume h.flcClear))) (.ite h.setFlash h.flcRefuse)
theorem Kept.flcAddr {a : Nat} (h : Kept s₀ s) : Kept s₀ (s.flcAddr a) := .ite h.flcRefuse (h.setFlash.when fun h => h.flcTrigger)
theorem Kept.flcData {v : Word} (h : Kept s₀ s) : Kept s₀ (s.flcData v) :=
  .ite h.flcRefuse (.ite h.flcTrigger (.ite h.setFlash h.flcTrigger))
theorem Kept.flashSpoil {pages : List Nat} (h : Kept s₀ s) : Kept s₀ (s.flashSpoil pages) := h.setFlash
theorem Kept.spoilPage {a : Nat} (h : Kept s₀ s) : Kept s₀ (s.spoilPage a) := h.flashSpoil
theorem Kept.flashFresh {lo hi : Nat} (h : Kept s₀ s) : Kept s₀ (s.flashFresh lo hi) := h.setFlash
theorem Kept.eraseBlock {b : Nat} (h : Kept s₀ s) : Kept s₀ (s.eraseBlock b) := h.clearRange.flashFresh
theorem Kept.flashWords {a : Nat} {l : List Word} (h : Kept s₀ s) : Kept s₀ (s.flashWords a l) := by
  induction l generalizing s a with
  | nil => exact h
  | cons w l ih =>
    unfold State.flashWords
    exact ih h.setWord
theorem Kept.setMode {b : Nat} {slc : Bool} (h : Kept s₀ s) : Kept s₀ (s.setMode b slc) := h.fset
theorem Kept.flashFail {kind a : Nat} (h : Kept s₀ s) : Kept s₀ (s.flashFail kind a) :=
  (h.fset.fset.either (fun h => h.fset.spoilPage) fun h => h.fset.flashSpoil).raise
theorem Kept.flashEffect {o : FlashOp} {ok : Bool} {pulses corr : Nat} {unc : Bool} (h : Kept s₀ s) :
    Kept s₀ (s.flashEffect o ok pulses corr unc) := by
  unfold State.flashEffect
  dsimp only
  split
  · exact (Kept.ite (h.fset.when fun h => h.fset.raise).flashFresh.flashWords (h.fset.when fun h => h.fset.raise).flashFail).cacheDrop
  · exact (Kept.ite h.eraseBlock h.flashFail).cacheDrop
  · exact (Kept.ite h.eraseBlock.setMode h.flashFail).cacheDrop
  · exact h.rsetN
theorem Kept.flashEnds {ok : Bool} {pulses : BitVec 5} {corr : BitVec 9} {unc : Bool} (h : Kept s₀ s) :
    Kept s₀ (s.flashEnds ok pulses corr unc) := by
  unfold State.flashEnds
  split
  · exact h
  · exact (h.setFlash.flashEffect.unless fun h => h.fset).when fun h => h.raise.event
theorem Kept.flashCut (h : Kept s₀ s) : Kept s₀ s.flashCut :=
  ((h.foldl fun h => .ite h.spoilPage (.ite h h.flashSpoil)).foldl fun h => .ite h.spoilPage (.ite h h.flashSpoil)).setFlash
theorem Kept.flcHook {w : WCtx} (h : Kept s₀ s) : Kept s₀ (flcHook w s) :=
  .ite (.ite (.ite h.rsetN.fset h) (.ite h.resetRegs.dropHeld.dirty.fset.setFlash h)) (.ite (.ite h.flcKey h) (.ite (.ite h.flcCmd h)
    (.ite (.ite h.flcAddr h) (.ite (.ite h.flcData h) h))))
theorem Kept.flcCount (h : Kept s₀ s) : Kept s₀ s.flcCount.1 := h.setFlash
theorem Kept.flcWrite {m : Master} {a : Nat} {v : Word} (h : Kept s₀ s) : OutKept s₀ (s.flcWrite m a v) :=
  .next (h.writeReg (fun h => h.flcHook))
theorem Kept.execFlcKeyWrite {m : Master} {v : Word} (h : Kept s₀ s) : OutKept s₀ (execFlcKeyWrite m v s) := h.flcWrite
theorem Kept.execProg {m : Master} {v : Word} (h : Kept s₀ s) : OutKept s₀ (execProg m v s) := h.flcWrite
theorem Kept.execEraseBlk {m : Master} {v : Word} (h : Kept s₀ s) : OutKept s₀ (execEraseBlk m v s) := h.flcWrite
theorem Kept.execSetSlc {m : Master} {v : Word} (h : Kept s₀ s) : OutKept s₀ (execSetSlc m v s) := h.flcWrite
theorem Kept.execMarginRd {m : Master} {v : Word} (h : Kept s₀ s) : OutKept s₀ (execMarginRd m v s) := h.flcWrite
theorem Kept.execSuspend {m : Master} (h : Kept s₀ s) : OutKept s₀ (execSuspend m s) := h.flcWrite
theorem Kept.execFlcResume {m : Master} (h : Kept s₀ s) : OutKept s₀ (execFlcResume m s) := h.flcWrite
theorem Kept.execClrStat {m : Master} (h : Kept s₀ s) : OutKept s₀ (execClrStat m s) := h.flcWrite
theorem Kept.execFlcWpWrite {a : Acc} {hi : Bool} {v : Word} (h : Kept s₀ s) : OutKept s₀ (execFlcWpWrite a hi v s) :=
  .next (h.writeReg (fun h => h.flcHook))
theorem Kept.execFlcDisable {a : Acc} {v : Word} (h : Kept s₀ s) : OutKept s₀ (execFlcDisable a v s) :=
  .next (h.writeReg (fun h => h.flcHook))

/-! ## The operations of Machine/Cipher.lean -/

theorem Kept.keyChange {n : Nat} (h : Kept s₀ s) : Kept s₀ (s.keyChange n) := h.setKey.squashWhere
theorem Kept.keyLimit {n : Nat} (h : Kept s₀ s) : Kept s₀ (s.keyLimit n) := .ite h.keyExhaust h
theorem Kept.keySelect (h : Kept s₀ s) : Kept s₀ s.keySelect := h.rsetN.rsetN.rsetN.withStaged
theorem Kept.keyRefuse {cause : Nat} (h : Kept s₀ s) : Kept s₀ (s.keyRefuse cause) := h.fset.fset.fset.raise
theorem Kept.keyCommit (h : Kept s₀ s) : Kept s₀ s.keyCommit := .ite h.keyRefuse h.setKey.withStaged.keyChange.keyLimit
theorem Kept.keyAttr (h : Kept s₀ s) : Kept s₀ s.keyAttr := .ite h.keyRefuse h.setKey.keyChange.keyLimit
theorem Kept.keyFc (h : Kept s₀ s) : Kept s₀ s.keyFc := .ite h.fset.keyRefuse h.setKey
theorem Kept.keyClear {n : Nat} (h : Kept s₀ s) : Kept s₀ (s.keyClear n) := h.setKey.keyChange
theorem Kept.cipuSet {n : Nat} {f : Cipu → Cipu} (h : Kept s₀ s) : Kept s₀ (s.cipuSet n f) := h.withCipu
theorem Kept.cipuError {n cause : Nat} (h : Kept s₀ s) : Kept s₀ (s.cipuError n cause) := h.fset.fset.raise
theorem Kept.cipuDrain {n : Nat} (h : Kept s₀ s) : Kept s₀ (s.cipuDrain n) := h.cipuSet.foldl fun h => h.rsetN
theorem Kept.cipuEnd {n cause : Nat} (h : Kept s₀ s) : Kept s₀ (s.cipuEnd n cause) := h.cipuDrain.fset.when fun h => h.cipuError
theorem Kept.zeroise (h : Kept s₀ s) : Kept s₀ s.zeroise := (h.foldl fun h => h.keyClear).foldl fun h => h.cipuEnd
theorem Kept.cipuPump {n : Nat} (h : Kept s₀ s) : Kept s₀ (s.cipuPump n) := by
  unfold State.cipuPump
  dsimp only
  split
  · exact h.cipuSet
  · exact (h.cipuSet.fset.cipuSet.when fun h => h.event).when fun h => h.event
theorem Kept.cipuStart {n : Nat} {sec : Bool} (h : Kept s₀ s) : Kept s₀ (s.cipuStart n sec) :=
  .ite h.cipuError.finc (Kept.ite h.keyUse h).fset.cipuSet.cipuPump
theorem Kept.cipuTake {n : Nat} {sec : Bool} (h : Kept s₀ s) : Kept s₀ (s.cipuTake n sec) :=
  .ite h.cipuError (.ite h.cipuError h.takeCounter.rsetN.cipuSet)
theorem Kept.cipuFeed {n : Nat} {v : Word} (h : Kept s₀ s) : Kept s₀ (s.cipuFeed n v) := by
  unfold State.cipuFeed
  dsimp only
  split
  · exact h.fset
  · exact .ite h.fset (.ite h.cipuEnd h.cipuSet.cipuPump)
theorem Kept.cipuPop {n : Nat} (h : Kept s₀ s) : Kept s₀ (s.cipuPop n).1 := by
  unfold State.cipuPop
  split
  · exact h.fset
  · exact h.cipuSet.cipuPump
theorem Kept.keyDerive {d : Nat} {key : List Byte} (h : Kept s₀ s) : Kept s₀ (s.keyDerive d key) := h.setKey.keyChange.keyLimit.finc
theorem Kept.cipuDone {n : Nat} {j : CipJob} (h : Kept s₀ s) : Kept s₀ (s.cipuDone n j) :=
  (Kept.ite (Kept.ite h.cipuSet.keyDerive (h.cipuSet.unless fun h => h.foldl fun h => h.rset)).fset (.ite h.cipuSet.keyDerive
    (h.cipuSet.unless fun h => h.foldl fun h => h.rset))).fset.finc.raise.event
theorem Kept.ciphHook {w : WCtx} (h : Kept s₀ s) : Kept s₀ (ciphHook w s) := by
  unfold Machine.ciphHook
  split
  · exact h.keySelect
  · split
    · exact .ite h.rsetN.withStaged h
    · split
      · split
        · exact h.keyCommit
        · exact h.keyAttr
        · exact h.keyFc
        · exact h.keyClear
        · exact h.zeroise.audit
        · exact h
      · exact h
theorem Kept.cipuHook {n : Nat} {w : WCtx} (h : Kept s₀ s) : Kept s₀ (cipuHook n w s) := by
  unfold Machine.cipuHook
  split
  · exact (h.cipuEnd.rset.foldl fun h => h.rsetN).cipuSet
  · split
    · exact .ite (h.cipuDrain.cipuSet.srstPage.when fun h => h.fset) h
    · split
      · exact h.cipuSet
      · split
        · split
          · exact h.cipuStart
          · exact h.cipuEnd
          · exact h.cipuTake
          · exact h
        · exact .ite (.ite h.cipuFeed h) (.ite (.ite h.rsetN h) h)
theorem Kept.execCiphKeyIdxWrite {a : Acc} {v : Word} (h : Kept s₀ s) : OutKept s₀ (execCiphKeyIdxWrite a v s) :=
  .next (h.writeReg (fun h => h.ciphHook))
theorem Kept.keyCmd {m : Master} {c : Word} (h : Kept s₀ s) : OutKept s₀ (s.keyCmd m c) := .next (h.writeReg (fun h => h.ciphHook))
theorem Kept.execKeyCommit {m : Master} (h : Kept s₀ s) : OutKept s₀ (execKeyCommit m s) := h.keyCmd
theorem Kept.execKeyAttr {m : Master} (h : Kept s₀ s) : OutKept s₀ (execKeyAttr m s) := h.keyCmd
theorem Kept.execKeyFc {m : Master} (h : Kept s₀ s) : OutKept s₀ (execKeyFc m s) := h.keyCmd
theorem Kept.execKeyErase {m : Master} (h : Kept s₀ s) : OutKept s₀ (execKeyErase m s) := h.keyCmd
theorem Kept.execZeroise {m : Master} (h : Kept s₀ s) : OutKept s₀ (execZeroise m s) := h.keyCmd
theorem Kept.cipuCmd {m : Master} {n : Nat} {c : Word} (h : Kept s₀ s) : OutKept s₀ (s.cipuCmd m n c) :=
  .next (h.writeReg (fun h => h.cipuHook))
theorem Kept.execCipuStart {m : Master} {n : Fin 8} (h : Kept s₀ s) : OutKept s₀ (execCipuStart m n s) := h.cipuCmd
theorem Kept.execCipuAbort {m : Master} {n : Fin 8} (h : Kept s₀ s) : OutKept s₀ (execCipuAbort m n s) := h.cipuCmd
theorem Kept.execTakeFc {m : Master} {n : Fin 8} (h : Kept s₀ s) : OutKept s₀ (execTakeFc m n s) := h.cipuCmd
theorem Kept.execCipuDinWrite {a : Acc} {n : Fin 8} {v : Word} (h : Kept s₀ s) : OutKept s₀ (execCipuDinWrite a n v s) :=
  .next (h.writeReg (fun h => h.cipuHook))
theorem Kept.execCipuDoutRead {m : Master} {n : Fin 8} (h : Kept s₀ s) : OutKept s₀ (execCipuDoutRead m n s) :=
  .next (h.readAs (fun h => h.cipuPop))
theorem Kept.execCipuJobDone {n : Fin 8} (h : Kept s₀ s) : OutKept s₀ (execCipuJobDone n s) := by
  unfold Machine.execCipuJobDone
  split
  · exact .next (.ite h.cipuDone h)
  · exact .next h

/-! ## The operations of Machine/Icu.lean -/

theorem Kept.irqClear {n : Nat} (h : Kept s₀ s) : Kept s₀ (s.irqClear n) := h.fset.when fun h => h.withCoreA

/-! ## The operations of Machine/Rtc.lean -/

theorem Kept.setRtc {f : RtcState → RtcState} (h : Kept s₀ s) : Kept s₀ (s.setRtc f) := h.withRtc
theorem Kept.almFire {n : Nat} {late : Bool} (h : Kept s₀ s) : Kept s₀ (s.almFire n late) :=
  (h.fset.fset.raise.when fun h => h.fset).setRtc.wakeEvent
theorem Kept.almCompare {n : Nat} (h : Kept s₀ s) : Kept s₀ (s.almCompare n).1 := .iteFst h.fset (.iteFst h.almFire h)
theorem Kept.almBoth (h : Kept s₀ s) : Kept s₀ s.almBoth.1 := h.almCompare.almCompare
theorem Kept.almLoad {n old : Nat} (h : Kept s₀ s) : Kept s₀ (s.almLoad n old).1 :=
  .iteFst (h.almFire.unless fun h => h.fset) h.almCompare
theorem Kept.execRtcSecond (h : Kept s₀ s) : OutKept s₀ (execRtcSecond s) :=
  .ite (.next h) (.next (h.setRtc.when fun h => h.fset).raise.almBoth.publishAll)
theorem Kept.rtcSetReq (h : Kept s₀ s) : Kept s₀ s.rtcSetReq := by
  unfold State.rtcSetReq
  split
  · exact .ite h.fset h.fset.setRtc
  · exact h.fset
theorem Kept.rtcHook {w : WCtx} (h : Kept s₀ s) : Kept s₀ (rtcHook w s) :=
  .ite (.ite h.fset h) (.ite (h.fset.when fun h => h.rtcSetReq) (.ite h.fset.setRtc h))
theorem Kept.execRtcSet {a : Acc} {v : Word} (h : Kept s₀ s) : OutKept s₀ (execRtcSet a v s) := .next (h.writeReg (fun h => h.rtcHook))
theorem Kept.execRtcUnlock {a : Acc} {v : Word} (h : Kept s₀ s) : OutKept s₀ (execRtcUnlock a v s) :=
  .next (h.writeReg (fun h => h.rtcHook))
theorem Kept.execRtcAlarmWrite {a : Acc} {n : Fin 2} {reg : Fin 3} {v : Word} (h : Kept s₀ s) :
    OutKept s₀ (execRtcAlarmWrite a n reg v s) :=
  .next (h.writeReg (fun h => h.rtcHook))
theorem Kept.execRtcSetLoad (h : Kept s₀ s) : OutKept s₀ (execRtcSetLoad s) := by
  unfold Machine.execRtcSetLoad
  split
  · exact .next h
  · exact .next h.setRtc.fset.fset.almLoad.almLoad.publishAll
theorem Kept.execRtcCalCorrection (h : Kept s₀ s) : OutKept s₀ (execRtcCalCorrection s) := .next (.ite h.setRtc h)
theorem Kept.subNow (h : Kept s₀ s) : Kept s₀ s.subNow.1 := .iteFst h h.freeStep
theorem Kept.shadowOf {m : Nat} (h : Kept s₀ s) : Kept s₀ (s.shadowOf m).1 := by
  unfold State.shadowOf
  split
  · exact h
  · exact h.subNow
theorem Kept.shadowRead {m reg : Nat} (h : Kept s₀ s) : Kept s₀ (s.shadowRead m reg).1 := h.shadowOf.setRtc
theorem Kept.execRtcShadowRead {m : Master} {reg : Fin 3} (h : Kept s₀ s) : OutKept s₀ (execRtcShadowRead m reg s) :=
  .next (h.readAs (fun h => h.shadowRead))
theorem Kept.execShadowTimeout {m : Master} (h : Kept s₀ s) : OutKept s₀ (execShadowTimeout m s) := .next (.ite h.setRtc.fset h)
theorem Kept.execVddStable (h : Kept s₀ s) : OutKept s₀ (execVddStable s) := .next (.ite h h.fset)
theorem Kept.rtcLock (h : Kept s₀ s) : Kept s₀ s.rtcLock := h.fset.fset
theorem Kept.execRtcLockout (h : Kept s₀ s) : OutKept s₀ (execRtcLockout s) := .next h.rtcLock
theorem Kept.execBackupSwitch {vdd vbkup : Nat} (h : Kept s₀ s) : OutKept s₀ (execBackupSwitch vdd vbkup s) :=
  .next (Kept.ite h.rtcLock h).setRtc
theorem Kept.execBackupRetentionLoss (h : Kept s₀ s) : OutKept s₀ (execBackupRetentionLoss s) := .next h.resetRegs.setRtc.raise

/-! ## The operations of Machine/SelfTest.lean -/

theorem Kept.setTst {f : TstState → TstState} (h : Kept s₀ s) : Kept s₀ (s.setTst f) := h.withTst
theorem Kept.tstRefuse {cause : Nat} (h : Kept s₀ s) : Kept s₀ (s.tstRefuse cause) := h.fset.fset
theorem Kept.bankZero {n : Nat} (h : Kept s₀ s) : Kept s₀ (s.bankZero n) := h.clearRange.setMemst
theorem Kept.bistRequest {bits : Nat} (h : Kept s₀ s) : Kept s₀ (s.bistRequest bits) :=
  .ite h.fset.tstRefuse (h.foldl fun h => h.fset.fset).setTst.fset
theorem Kept.bistNext (h : Kept s₀ s) : Kept s₀ s.bistNext := (h.foldl fun h => h.fset.fset).setTst.fset
theorem Kept.bistAbort (h : Kept s₀ s) : Kept s₀ s.bistAbort := by
  unfold State.bistAbort
  split
  · exact h
  · exact h.fset.bankZero.bistNext
theorem Kept.bistStop (h : Kept s₀ s) : Kept s₀ s.bistStop := by
  unfold State.bistStop
  split
  · exact h
  · exact h.fset.bankZero.setTst.fset
theorem Kept.execBistBankDone {pass : Bool} (h : Kept s₀ s) : OutKept s₀ (execBistBankDone pass s) := by
  unfold Machine.execBistBankDone
  split
  · exact .next h
  · exact .next ((h.fset.unless fun h => h.fset).bankZero.bistNext.when fun h => h.raise)
theorem Kept.selfRequest {lbist rram : Bool} (h : Kept s₀ s) : Kept s₀ (s.selfRequest lbist rram) :=
  .ite h (.ite h.tstRefuse (.ite h.tstRefuse (.ite h.tstRefuse ((h.setTst.when fun h => h.fset.fset).when fun h => h.fset.fset))))
theorem Kept.lockstepReset (h : Kept s₀ s) : Kept s₀ s.lockstepReset := by
  unfold State.lockstepReset
  extract_lets p
  exact h.resetRegs (p := p)
theorem Kept.rramZero (h : Kept s₀ s) : Kept s₀ s.rramZero := h.clearRange.setMemst
theorem Kept.execSelfTestDone {pass : Bool} (h : Kept s₀ s) : OutKept s₀ (execSelfTestDone pass s) :=
  .ite (.next h.setTst.lockstepReset.fset.fsetB.raise) (.ite (.next h.setTst.rramZero.fset.fsetB.raise) (.next h))
theorem Kept.capRequest (h : Kept s₀ s) : Kept s₀ s.capRequest := .ite h.tstRefuse (.ite h.fset.fset (.ite h h.fset.workAge.workNext))
theorem Kept.capStore {a : Nat} {l : List Word} (h : Kept s₀ s) : Kept s₀ (s.capStore a l) := by
  induction l generalizing s a with
  | nil => exact h
  | cons w l ih =>
    unfold State.capStore
    exact ih h.setWord
theorem Kept.execCaptureDone {samples : List Word} (h : Kept s₀ s) : OutKept s₀ (execCaptureDone samples s) :=
  .ite (.next h) (.next h.workGone.setRfe.setMemst.capStore.fset.fset.raise.workNext)
theorem Kept.tstReset (h : Kept s₀ s) : Kept s₀ s.tstReset :=
  ((h.srstPage.fset.bistStop.when fun h => h.lockstepReset).when fun h => h.rramZero).setTst.when fun h => h.setRfe
theorem Kept.tstHook {w : WCtx} (h : Kept s₀ s) : Kept s₀ (tstHook w s) :=
  .ite (.ite h.tstReset h) (.ite h.bistRequest (.ite h.fset.fset.selfRequest (.ite (h.fset.when fun h => h.capRequest) h)))
theorem Kept.execTstBistReq {a : Acc} {v : Word} (h : Kept s₀ s) : OutKept s₀ (execTstBistReq a v s) :=
  .next (h.writeReg (fun h => h.tstHook))
theorem Kept.execLbist {a : Acc} {v : Word} (h : Kept s₀ s) : OutKept s₀ (execLbist a v s) := .next (h.writeReg (fun h => h.tstHook))
theorem Kept.execRramBist {a : Acc} {v : Word} (h : Kept s₀ s) : OutKept s₀ (execRramBist a v s) :=
  .next (h.writeReg (fun h => h.tstHook))
theorem Kept.execTstCapReq {a : Acc} {v : Word} (h : Kept s₀ s) : OutKept s₀ (execTstCapReq a v s) :=
  .next (h.writeReg (fun h => h.tstHook))

/-! ## The operations of Machine/Update.lean -/

theorem Kept.setUpd {f : UpdState → UpdState} (h : Kept s₀ s) : Kept s₀ (s.setUpd f) := h.withUpd
theorem Kept.opMark {cmd a : Nat} (h : Kept s₀ s) : Kept s₀ (s.opMark cmd a) := h.rsetN
theorem Kept.progList {a : Nat} {l : List Byte} (h : Kept s₀ s) : Kept s₀ (s.progList a l) := h.flashFresh.setList.cacheDrop.opMark
theorem Kept.writeRecord {w2 : Nat} {hash : List Byte} (h : Kept s₀ s) : Kept s₀ (s.writeRecord w2 hash) := by
  unfold State.writeRecord
  dsimp only
  split
  · exact h
  · refine .rsetN ?_
    split
    · exact h.progList
    · exact h.eraseBlock.cacheDrop.progList
theorem Kept.segRead {p : Pkg} {k : Nat} (h : Kept s₀ s) : Kept s₀ (s.segRead p k).1 :=
  .iteFst h.rangeRead (h.rangeRead.foldlFst fun h => .iteFst h.rangeRead h)
theorem Kept.updRefuse {cause : Nat} (h : Kept s₀ s) : Kept s₀ (s.updRefuse cause) := h.fset.rsetN.raise
theorem Kept.updBegin {cmd : Nat} (h : Kept s₀ s) : Kept s₀ (s.updBegin cmd) := .ite h.updRefuse h.setUpd
theorem Kept.updState {st : Nat} (h : Kept s₀ s) : Kept s₀ (s.updState st) := h.fset
theorem Kept.updRelease (h : Kept s₀ s) : Kept s₀ s.updRelease := h.setFlash
theorem Kept.updReset (h : Kept s₀ s) : Kept s₀ s.updReset := h.setUpd.srstPage.rsetN
theorem Kept.updFail {cause : Nat} (h : Kept s₀ s) : Kept s₀ (s.updFail cause) :=
  (h.updRelease.writeRecord.when fun h => h.updReset).rsetN.updState.setUpd.raise
theorem Kept.updPaused {cause : Nat} (h : Kept s₀ s) : Kept s₀ (s.updPaused cause) := h.rsetN.updState.setUpd.raise
theorem Kept.segStart {k : Nat} (h : Kept s₀ s) : Kept s₀ (s.segStart k) := by
  unfold State.segStart
  exact h.fset.flashStart
theorem Kept.updBoundary {k nseg : Nat} (h : Kept s₀ s) : Kept s₀ (s.updBoundary k nseg) := by
  unfold State.updBoundary
  split
  · exact h.updFail
  · split
    · exact h.updPaused
    · exact .ite h.updState.segStart h.updState
theorem Kept.updStop (h : Kept s₀ s) : Kept s₀ s.updStop :=
  .ite h.setUpd.setUpd (.ite h.setUpd.updFail (h.setUpd.when fun h => h.updReset))
theorem Kept.execLoadTestDone {mv : BitVec 12} (h : Kept s₀ s) : OutKept s₀ (execLoadTestDone mv s) := by
  unfold Machine.execLoadTestDone
  split
  · exact .next h
  · exact .ite (.next h.setUpd.fset.updRefuse) (.ite (.next h.setUpd.fset.updRefuse) (.ite (.next h.setUpd.fset.updRefuse) (.ite
      (.next h.setUpd.fset.updState) (.next h.setUpd.fset.updState.rsetN.fset.setUpd))))
theorem Kept.updSecond {r : UpdRun} {p : Pkg} (h : Kept s₀ s) : Kept s₀ (s.updSecond r p) :=
  .ite h.updFail (.ite h.updFail (.ite h.rangeRead.updFail (.ite h.rangeRead.updFail (.ite h.rangeRead.setUpd.updState.updRefuse
    (.ite h.rangeRead.updFail h.rangeRead.setUpd.writeRecord.updBoundary)))))
theorem Kept.updFirst {r : UpdRun} (h : Kept s₀ s) : Kept s₀ (s.updFirst r) :=
  .ite h.updFail (.ite h.rangeRead.updSecond h.rangeRead.updFail)
theorem Kept.execFirstPassDone (h : Kept s₀ s) : OutKept s₀ (execFirstPassDone s) := by
  unfold Machine.execFirstPassDone
  split
  · exact .next (.ite h.updFirst h)
  · exact .next h
theorem Kept.updSegment {r : UpdRun} {flashOk : Bool} (h : Kept s₀ s) : Kept s₀ (s.updSegment r flashOk) := by
  have hq := h.updRelease.segRead (p := s.updPkg) (k := s.fget UPD_STAT.SEG)
  unfold State.updSegment
  dsimp only
  refine .ite hq.updFail (.ite hq.updFail ?_)
  split
  · exact hq.updFail
  · refine .ite hq.eraseBlock.cacheDrop.flashSpoil.updFail (.ite hq.eraseBlock.cacheDrop.progList.updFail ?_)
    exact .ite hq.eraseBlock.cacheDrop.progList.fadd.updFail hq.eraseBlock.cacheDrop.progList.fadd.writeRecord.updBoundary
theorem Kept.execSegmentDone {flashOk : Bool} (h : Kept s₀ s) : OutKept s₀ (execSegmentDone flashOk s) := by
  unfold Machine.execSegmentDone
  split
  · exact .next (.ite h.updSegment h)
  · exact .next h
theorem Kept.updImage {r : UpdRun} {flashOk : Bool} (h : Kept s₀ s) : Kept s₀ (s.updImage r flashOk) :=
  .ite h.rangeRead.updFail (.ite h.rangeRead.updFail h.rangeRead.writeRecord.updState.setUpd.raise.event)
theorem Kept.execImageHashDone {flashOk : Bool} (h : Kept s₀ s) : OutKept s₀ (execImageHashDone flashOk s) := by
  unfold Machine.execImageHashDone
  split
  · exact .next (.ite h.updImage h)
  · exact .next h
theorem Kept.execUpdPause {cause : Fin 4} (h : Kept s₀ s) : OutKept s₀ (execUpdPause cause s) :=
  .ite (.next h) (.ite (.next h.updPaused) (.ite (.next h.setUpd) (.next h)))
theorem Kept.updJournal (h : Kept s₀ s) : Kept s₀ s.updJournal := (h.eraseBlock.cacheDrop.foldl fun h => h.setByte).writeRecord
theorem Kept.updMerge (h : Kept s₀ s) : Kept s₀ s.updMerge := h.eraseBlock.cacheDrop.progList.writeRecord
theorem Kept.updTrial (h : Kept s₀ s) : Kept s₀ s.updTrial := h.writeRecord
theorem Kept.updSettings {merge : Bool} (h : Kept s₀ s) : Kept s₀ (s.updSettings merge) :=
  .ite (Kept.ite h h.updJournal).updMerge (.ite h h.updJournal)
theorem Kept.updActReady (h : Kept s₀ s) : Kept s₀ s.updActReady.1 := .iteFst h (.iteFst h.rangeRead.rangeRead h.rangeRead)
theorem Kept.execActivateDone {flashOk : Bool} (h : Kept s₀ s) : OutKept s₀ (execActivateDone flashOk s) :=
  .ite (.next h) (.ite (.next h.updActReady.updFail) (.ite (.next (h.updActReady.freeStep.when fun h => h.updSettings).updFail) (.next
    (h.updActReady.when fun h => h.updSettings).updTrial.updState.raise.event)))
theorem Kept.updAccept (h : Kept s₀ s) : Kept s₀ s.updAccept :=
  .ite h.updRefuse (.ite h.updRefuse (.ite h.updRefuse (.ite h.updRefuse (.ite h.setUpd h.writeRecord))))
theorem Kept.updSettle (h : Kept s₀ s) : Kept s₀ s.updSettle := .ite h (.ite h.updFail (.ite h.setUpd.updAccept h))
theorem Kept.updCut (h : Kept s₀ s) : Kept s₀ s.updCut := by
  unfold State.updCut
  split
  · exact h.flashSpoil
  · exact .ite h (.ite h.freeStep.flashSpoil (.ite h.freeStep.updSettings.flashSpoil h.freeStep.updSettings))
  · exact h
theorem Kept.updHook {w : WCtx} (h : Kept s₀ s) : Kept s₀ (updHook w s) := by
  unfold Machine.updHook
  split
  · exact .ite h.fset.setUpd.updStop (.ite h.updStop h)
  · split
    · split
      · exact h.updBegin
      · exact h.updBegin
      · exact h.updBegin
      · exact h.updAccept
      · exact h.updStop
      · exact h
    · exact h
theorem Kept.updCmd {m : Master} {c : Word} (h : Kept s₀ s) : OutKept s₀ (s.updCmd m c) := .next (h.writeReg (fun h => h.updHook))
theorem Kept.execUpdStart {m : Master} (h : Kept s₀ s) : OutKept s₀ (execUpdStart m s) := h.updCmd
theorem Kept.execUpdResume {m : Master} (h : Kept s₀ s) : OutKept s₀ (execUpdResume m s) := h.updCmd
theorem Kept.execActivate {m : Master} (h : Kept s₀ s) : OutKept s₀ (execActivate m s) := h.updCmd
theorem Kept.execAccept {m : Master} (h : Kept s₀ s) : OutKept s₀ (execAccept m s) := h.updCmd
theorem Kept.execUpdAbort {m : Master} (h : Kept s₀ s) : OutKept s₀ (execUpdAbort m s) := h.updCmd
theorem Kept.execUpdDisable {a : Acc} {v : Word} (h : Kept s₀ s) : OutKept s₀ (execUpdDisable a v s) :=
  .next (h.writeReg (fun h => h.updHook))

/-! ## The operations of Machine/Power.lean -/

theorem Kept.setPwr {f : PwrS → PwrS} (h : Kept s₀ s) : Kept s₀ (s.setPwr f) := h.withPwr
theorem Kept.setSys {f : SysS → SysS} (h : Kept s₀ s) : Kept s₀ (s.setSys f) := h.withSys
theorem Kept.entryRefuse {cause : Nat} (h : Kept s₀ s) : Kept s₀ (s.entryRefuse cause) := h.fset.fset.finc.raise
theorem Kept.enterState {p : PwrState} (h : Kept s₀ s) : Kept s₀ (s.enterState p) := h.bistStop.withPins (fun h => h.setPwr)
theorem Kept.waitRequest (h : Kept s₀ s) : Kept s₀ s.waitRequest.1 := by
  unfold State.waitRequest
  dsimp only
  split
  · exact h
  · split
    · exact h.setPwr
    · split
      · exact h.enterState
      · exact h.entryRefuse
theorem Kept.appRegs (h : Kept s₀ s) : Kept s₀ s.appRegs := h.resetRegs.rsetN.fset.rsetN.fset.rsetN.fset.fset.fset.rsetN
theorem Kept.appHidden (h : Kept s₀ s) : Kept s₀ s.appHidden := by
  unfold State.appHidden
  extract_lets t
  have ht : Kept s₀ t := h.resetRegs
  exact ht
theorem Kept.loseSram {banks : List Nat} (h : Kept s₀ s) : Kept s₀ (s.loseSram banks) := h.foldl fun h => h.clearRange.fset.setMemst
theorem Kept.loseRram (h : Kept s₀ s) : Kept s₀ s.loseRram := h.clearRange.setMemst
theorem Kept.storeLost (h : Kept s₀ s) : Kept s₀ s.storeLost := by
  unfold State.storeLost
  extract_lets t u
  have hu : Kept s₀ u := h.squashWhere.squashNow.fset.foldl fun h => h.when fun h => h.dutyCharge
  exact hu
theorem Kept.loseContents (h : Kept s₀ s) : Kept s₀ s.loseContents :=
  .ite h (.ite h.setPwr (h.sleepHandoff.setPwr.storeLost.appRegs.appHidden.setSys.loseSram.when fun h => h.resetRegs.ovlEmpty.withTmr))
theorem Kept.avsStep {k : Nat} (h : Kept s₀ s) : Kept s₀ (s.avsStep k) := h.fset.fset.raise
theorem Kept.avsClamp (h : Kept s₀ s) : Kept s₀ s.avsClamp := h.setPwr.when fun h => h.fset.raise.event
theorem Kept.avsClock (h : Kept s₀ s) : Kept s₀ s.avsClock := .ite h.avsStep (.ite h.avsStep h)
theorem Kept.avsUpdate (h : Kept s₀ s) : Kept s₀ s.avsUpdate := h.fset.unless fun h => h.fset.avsClamp.avsClock
theorem Kept.avsHook {w : WCtx} (h : Kept s₀ s) : Kept s₀ (avsHook w s) :=
  .ite (.ite h.srstPage.fset h) (.ite (.ite h.fset h) (.ite (h.avsClamp.when fun h => h.avsStep) h))
theorem Kept.execAvsUpdate {need0 need1 need2 need3 : Nat} (h : Kept s₀ s) : OutKept s₀ (execAvsUpdate need0 need1 need2 need3 s) :=
  .next (h.setPwr.unless fun h => h.avsUpdate)
theorem Kept.execAvsClkReq {a : Acc} {v : Word} (h : Kept s₀ s) : OutKept s₀ (execAvsClkReq a v s) :=
  .next (h.writeReg (fun h => h.avsHook))
theorem Kept.clkHook {w : WCtx} (h : Kept s₀ s) : Kept s₀ (clkHook w s) := .ite h.rsetN.fset.raise h
theorem Kept.execClkTrimWrite {a : Acc} {lfxo : Bool} {v : Word} (h : Kept s₀ s) : OutKept s₀ (execClkTrimWrite a lfxo v s) :=
  .next (h.writeReg (fun h => h.clkHook))
theorem Kept.execHfxoStable (h : Kept s₀ s) : OutKept s₀ (execHfxoStable s) := .next (.ite h.setSys h)
theorem Kept.execSyspllLock (h : Kept s₀ s) : OutKept s₀ (execSyspllLock s) := .ite (.next h.setSys) (.next h)
theorem Kept.execBodWarn (h : Kept s₀ s) : OutKept s₀ (execBodWarn s) := .ite (.next h) (.next h.fset.raise.wakeEvent.event)
theorem Kept.execBodWarnClear (h : Kept s₀ s) : OutKept s₀ (execBodWarnClear s) := .next (.ite h h.fset)

/-! ## The operations of Machine/Reset.lean -/

theorem Kept.resetCause {bit : Nat} (h : Kept s₀ s) : Kept s₀ (s.resetCause bit) := h.fset
theorem Kept.sysReset {k : ResetKind} (h : Kept s₀ s) : Kept s₀ (s.sysReset k) := by
  unfold State.sysReset
  extract_lets t u v por base pads glade x y
  have hu : Kept s₀ u := h.loseContents.updCut.flashCut
  have hv : Kept s₀ v := hu.when fun h => h.loseSram.loseRram
  have hx : Kept s₀ x := ⟨hv.1, fun h₀ => ⟨regFilter_wf _ (hv.2 h₀).1 _, (hv.2 h₀).2⟩⟩
  exact hx.resetCause.when fun h => h.rtcLock
theorem Kept.hspStraps {straps : Nat} (h : Kept s₀ s) : Kept s₀ (s.hspStraps straps) := h.fset.fset.fset.fset.rsetN.setSys
theorem Kept.sampleStraps {straps : Nat} (h : Kept s₀ s) : Kept s₀ (s.sampleStraps straps) := .ite h.setSys h.setSys.hspStraps
theorem Kept.release {straps : Nat} (h : Kept s₀ s) : Kept s₀ (s.release straps) := (Kept.ite h.setMemst h).setSys.sampleStraps
theorem Kept.coreReset {cause : Nat} (h : Kept s₀ s) : Kept s₀ (s.coreReset cause) := by
  unfold State.coreReset
  extract_lets halted t u
  have ht : Kept s₀ t := h.resetRegs
  have hu : Kept s₀ u := ht
  exact (hu.when fun h => h.setPwr).setSys.resetCause

/-! ## The operations of Machine/Control.lean -/

theorem Kept.stateRefuse (h : Kept s₀ s) : Kept s₀ s.stateRefuse := h.fset.raise
theorem Kept.stateRequest {req : Nat} (h : Kept s₀ s) : Kept s₀ (s.stateRequest req) := by
  unfold State.stateRequest
  split
  · exact .ite h.setSys h.stateRefuse
  · exact .ite h.setSys h.stateRefuse
  · exact h
theorem Kept.wdtLoad (h : Kept s₀ s) : Kept s₀ s.wdtLoad := .ite h.rsetN h
theorem Kept.sysCmd {wo : Nat} (h : Kept s₀ s) : Kept s₀ (s.sysCmd wo) := by
  unfold State.sysCmd
  split
  · exact h
  · split
    · exact h.sysReset
    · exact h.coreReset.wdtLoad
    · exact h
theorem Kept.sysHook {w : WCtx} (h : Kept s₀ s) : Kept s₀ (sysHook w s) :=
  .ite h.stateRequest (.ite h.sysCmd (.ite (.ite h.rsetN h.wdtLoad) (.ite (.ite h.wdtLoad h) h)))
theorem Kept.pwrHook {w : WCtx} (h : Kept s₀ s) : Kept s₀ (pwrHook w s) := by
  unfold Machine.pwrHook
  split
  · split
    · exact .ite h.bistAbort h
    · exact h
  · exact h
theorem Kept.protHook {w : WCtx} (h : Kept s₀ s) : Kept s₀ (protHook w s) := .ite (h.foldl fun h => h.rset) h
theorem Kept.dmaPut {ch : Nat} {d : DmaCh} (h : Kept s₀ s) : Kept s₀ (s.dmaPut ch d) := h.withDma
theorem Kept.dmaStop {ch : Nat} (h : Kept s₀ s) : Kept s₀ (s.dmaStop ch) := h.dmaPut.fset.fset
theorem Kept.dmaDone {ch : Nat} (h : Kept s₀ s) : Kept s₀ (s.dmaDone ch) := h.dmaStop.fset.raise.event
theorem Kept.dmaStart {ch : Nat} {src : Source} (h : Kept s₀ s) : Kept s₀ (s.dmaStart ch src) := h.dmaPut.fset.when fun h => h.dmaDone
theorem Kept.dmaHook {w : WCtx} (h : Kept s₀ s) : Kept s₀ (dmaHook w s) :=
  .ite (.ite h.srstPage.withDma h) (.ite h (.ite (.ite h.rsetN h) (.ite (.ite h.dmaStart (.ite h.dmaStop h)) h)))
theorem Kept.setHsp {f : HspState → HspState} (h : Kept s₀ s) : Kept s₀ (s.setHsp f) := h.withHsp
theorem Kept.hspHook {w : WCtx} (h : Kept s₀ s) : Kept s₀ (hspHook w s) := by
  have hs {c : Bool} {f : HspState → HspState} : Kept s₀ (if c then (s.fset HSP_CTRL.SRST 0).setHsp f else s.fset HSP_CTRL.SRST 0) :=
    h.fset.when fun h => h.setHsp
  exact .ite (.ite hs.fset.setHsp (hs.when fun h => h.setHsp)) (.ite h.rsetN.setHsp h)

/-! ## The operations of Machine/TanumCore.lean -/

theorem Kept.setCore {x : CoreId} {x1 : Core} (h : Kept s₀ s) : Kept s₀ (s.setCore x x1) := by
  unfold State.setCore
  split
  · exact h.withCoreA
  · exact h.withCoreG
theorem Kept.dbgHalt (h : Kept s₀ s) : Kept s₀ s.dbgHalt := h.withCoreA
theorem Kept.dbgResume (h : Kept s₀ s) : Kept s₀ s.dbgResume := h.withCoreA
theorem Kept.dbgStep (h : Kept s₀ s) : Kept s₀ s.dbgStep := .ite h.withCoreA h
theorem Kept.dbgHook {w : WCtx} (h : Kept s₀ s) : Kept s₀ (dbgHook w s) :=
  .ite (((h.rsetN.when fun h => h.dbgHalt).when fun h => h.dbgResume).when fun h => h.dbgStep) (.ite
    (h.rsetN.when fun h => h.withCoreA) h)

/-! ## The operations of Machine/Timers.lean -/

theorem Kept.raised {r : State × List Nat} (h : Kept s₀ r.1) : Kept s₀ (raised r) := h.publishAll
theorem Kept.tmrFire {n k : Nat} (h : Kept s₀ s) : Kept s₀ (s.tmrFire n k) :=
  (h.tmrDisarm.raise.withPins (fun h => h.tmrSet)).tmrChain.publishAll
theorem Kept.tmrCountSet {n : Nat} (h : Kept s₀ s) : Kept s₀ (s.tmrCountSet n) := h.tmrSet.when fun h => h.tmrReset
theorem Kept.tmrChCfg {n k : Nat} (h : Kept s₀ s) : Kept s₀ (s.tmrChCfg n k) := .ite h.tmrSet.tmrArm h.tmrSet.tmrDisarm
theorem Kept.tmrWrite {w : WCtx} {n : Nat} (h : Kept s₀ s) : Kept s₀ (s.tmrWrite w n) :=
  .ite (.ite ((Kept.ite h.tmrArmAll h).withPins (fun h => h.tmrSet.srstPage)) (.ite h.tmrArmAll h)) (.ite h.tmrCountSet (.ite h.tmrSet
    (.ite (.ite h.tmrChCfg.pinWrite (.ite h.tmrArm h)) h)))
theorem Kept.tmrHook {w : WCtx} (h : Kept s₀ s) : Kept s₀ (tmrHook w s) := h.tmrWrite
theorem Kept.execTmrTick {n : Fin 8} (h : Kept s₀ s) : OutKept s₀ (execTmrTick n s) := .next h.tmrTick.raised
theorem Kept.execCompareFiring {n : Fin 8} {k : Fin 4} (h : Kept s₀ s) : OutKept s₀ (execCompareFiring n k s) := .next (.ite h.tmrFire h)
theorem Kept.execTmrCountWrite {a : Acc} {n : Fin 8} {v : Word} (h : Kept s₀ s) : OutKept s₀ (execTmrCountWrite a n v s) :=
  .next (h.writeReg (fun h => h.tmrHook))
theorem Kept.execTmrReloadWrite {a : Acc} {n : Fin 8} {v : Word} (h : Kept s₀ s) : OutKept s₀ (execTmrReloadWrite a n v s) :=
  .next (h.writeReg (fun h => h.tmrHook))
theorem Kept.execTmrCmpWrite {a : Acc} {n : Fin 8} {k : Fin 4} {v : Word} (h : Kept s₀ s) : OutKept s₀ (execTmrCmpWrite a n k v s) :=
  .next (h.writeReg (fun h => h.tmrHook))
theorem Kept.execTmrEnable {a : Acc} {n : Fin 8} {v : Word} (h : Kept s₀ s) : OutKept s₀ (execTmrEnable a n v s) :=
  .next (h.writeReg (fun h => h.tmrHook))
theorem Kept.execTmrDisable {a : Acc} {n : Fin 8} {v : Word} (h : Kept s₀ s) : OutKept s₀ (execTmrDisable a n v s) :=
  .next (h.writeReg (fun h => h.tmrHook))
theorem Kept.captureEdge {n k : Nat} {rising culvert : Bool} (h : Kept s₀ s) : Kept s₀ (s.captureEdge n k rising culvert) :=
  .ite h h.tmrEdge.raised
theorem Kept.execTmrCapture {n : Fin 8} {k : Fin 4} {rising culvert : Bool} (h : Kept s₀ s) :
    OutKept s₀ (execTmrCapture n k rising culvert s) :=
  .next h.captureEdge
theorem Kept.execTmrCapRead {m : Master} {n : Fin 8} {k : Fin 4} {sameCycleCapture : Bool} (h : Kept s₀ s) :
    OutKept s₀ (execTmrCapRead m n k sameCycleCapture s) :=
  .next ((h.readAs (fun h => h.fset)).when fun h => h.tmrLand.raised)
theorem Kept.execTmrStartEvent {n : Fin 8} (h : Kept s₀ s) : OutKept s₀ (execTmrStartEvent n s) := .next h.deliver
theorem Kept.execTmrResetEvent {n : Fin 8} (h : Kept s₀ s) : OutKept s₀ (execTmrResetEvent n s) := .next h.deliver

/-! ## The operations of Machine/Bus.lean -/

theorem Kept.coreHook {w : WCtx} (h : Kept s₀ s) : Kept s₀ (coreHook w s) :=
  .ite h.sysHook (.ite h.pwrHook (.ite h.avsHook (.ite h.clkHook (.ite h.protHook (.ite h.rfeHook (.ite h.agcHook (.ite h.cnpHook
    (.ite h.laneHook (.ite h.fecHook (.ite h.txmHook (.ite h.cadHook (.ite h.nbrHook (.ite h.hdrHook (.ite h.trfHook (.ite h.weirHook
    (.ite h.sluHook (.ite h.ntuHook (.ite h.flcHook (.ite h.ciphHook (.ite h.cipuHook (.ite h.updHook (.ite h.tmrHook (.ite h.rtcHook
    (.ite h.culHook (.ite h.hspHook (.ite h.pspHook (.ite h.gpioHook (.ite h.adcHook (.ite h.tstHook (.ite h.dmaHook (.ite h.dcaHook
    (.ite h.dbgHook h))))))))))))))))))))))))))))))))
theorem Kept.busWrite {hook : WCtx → State → State} {m : Master} {a : Nat} {v : Word} (hf : ∀ {x0 t}, Kept s₀ t → Kept s₀ (hook x0 t))
    (h : Kept s₀ s) :
    Kept s₀ (State.busWrite hook m a v s) :=
  .elim (h.write hf) (h.rsetN.write hf).rset
theorem Kept.latchPut {m : Master} {a v : Nat} (h : Kept s₀ s) : Kept s₀ (s.latchPut m a v) := h.withBus
theorem Kept.freeBelow {n : Nat} (h : Kept s₀ s) : Kept s₀ (s.freeBelow n).1 := h.freeStep
theorem Kept.rcClear {a : Nat} (h : Kept s₀ s) : Kept s₀ (s.rcClear a) := .elim h (.ite h h.rcShown)
theorem Kept.openRead {a : Nat} (h : Kept s₀ s) : ReadKept s₀ (s.openRead a) := by
  unfold State.openRead
  exact .ite (.some h.freeBelow) (.ite (.some (h.freeBelow (n := 2))) (.ite (.some (h.freeBelow (n := 2))) (.ite (.ite (.some h)
    (.some h.freeBelow)) .none)))
theorem Kept.portRead {m : Master} {a : Nat} (h : Kept s₀ s) : ReadKept s₀ (s.portRead m a) := by
  unfold State.portRead
  extract_lets p n
  refine .ite (.some h.trfAllocPop) (.ite (.some h.popChain) (.ite (.some h.popChain) (.ite (.some h.pspPop)
    (.ite (.some h.cipuPop) (.ite (.some h.flcCount) (.ite (.some h.setMeter) (.ite (.some h.setMeter) (.ite (.some h.setMeter)
    (.ite (.some h.hopNext) (.ite (.some h.firNext) (.ite (.some h) (.ite (.some h.shadowRead) (.ite (.some h.shadowRead)
    (.ite (.some h.shadowRead) (.ite (.some h.mbRead0) (.ite (.some h) (.ite ?_ .none)))))))))))))))))
  split
  · exact .some h.fset
  · exact .none
theorem Kept.readReg {m : Master} {a : Nat} (h : Kept s₀ s) : Kept s₀ (s.readReg m a).1 := by
  unfold State.readReg
  split
  · exact h.latchPut
  · split
    · exact h
    · split
      · next e => exact h.portRead.ofSome e
      · split
        · next e => exact h.openRead.ofSome e
        · exact h.rcClear
theorem Kept.busRead {m : Master} {a : Nat} (h : Kept s₀ s) : Kept s₀ (s.busRead m a) := .ite h (h.readAs (fun h => h.readReg))
theorem Kept.windowWord {m : Master} {o : Nat} (h : Kept s₀ s) : Kept s₀ (s.windowWord m o).1 :=
  .iteFst h.mbRead0 (.iteFst h (.iteFst (.iteFst h.latchPut (.iteFst h h)) (.iteFst h h)))
theorem Kept.windowRd {m : Master} {o : Nat} (h : Kept s₀ s) : Kept s₀ (s.windowRead m (·.windowWord m o)) :=
  h.windowRead fun h => h.windowWord
theorem Kept.gladeRd {m : Master} {a : Nat} (h : Kept s₀ s) : Kept s₀ (s.gladeRd m a) := by
  unfold State.gladeRd
  exact h.windowRd

/-! ## The operations of Machine/Boot.lean -/

theorem Kept.anyHook {w : WCtx} (h : Kept s₀ s) : Kept s₀ (anyHook w s) := .ite (h.ovlHook (fun h => h.coreHook)) h.coreHook
theorem Kept.romWrite {a v : Nat} (h : Kept s₀ s) : Kept s₀ (s.romWrite a v) := h.busWrite (fun h => h.anyHook)
theorem Kept.bootBit {n : Nat} (h : Kept s₀ s) : Kept s₀ (s.bootBit n) := h.fset
theorem Kept.bootClock (h : Kept s₀ s) : Kept s₀ s.bootClock := h.setSys.romWrite.fset.avsClamp.avsClock
theorem Kept.romErase {b : Nat} (h : Kept s₀ s) : Kept s₀ (s.romErase b) := .ite h h.eraseBlock.cacheDrop.opMark
theorem Kept.bootRepair (h : Kept s₀ s) : Kept s₀ s.bootRepair := by
  unfold State.bootRepair
  dsimp only
  split
  · exact h
  · split
    · exact h.bootBit
    · split
      · exact h.bootBit.romErase
      · exact .ite h.bootBit.romErase (h.bootBit.unless fun h => h.romErase.progList.romErase)
theorem Kept.imgCheck {slot : Nat} (h : Kept s₀ s) : Kept s₀ (s.imgCheck slot).1 := .iteFst h.rangeRead h.rangeRead.rangeRead
theorem Kept.checkSlot {k : Nat} {trial : Bool} (h : Kept s₀ s) : Kept s₀ (s.checkSlot k trial).1 :=
  .iteFst h.imgCheck (.iteFst (.iteFst h.imgCheck.imgCheck.writeRecord.bootBit h.imgCheck.imgCheck) h.imgCheck)
theorem Kept.journalBack (h : Kept s₀ s) : Kept s₀ s.journalBack :=
  .ite h.rangeRead (h.rangeRead.romErase.foldl fun h => h.setByte).opMark.bootBit
theorem Kept.selectImage (h : Kept s₀ s) : Kept s₀ s.selectImage.1 :=
  .iteFst (h.rsetN.bootBit.when fun h => h.journalBack).writeRecord.checkSlot (.iteFst h.rsetN.writeRecord.bootBit.checkSlot
    h.rsetN.checkSlot)
theorem Kept.bootConfig (h : Kept s₀ s) : Kept s₀ s.bootConfig :=
  .ite (h.romWrite.fset.romWrite.when fun h => h.loadEnd).bootBit ((h.romWrite.fset.romWrite.when fun h => h.loadEnd).fset.romWrite.when
    fun h => h.romWrite.ovlSettle (fun h => h.coreHook))
theorem Kept.bootCal (h : Kept s₀ s) : Kept s₀ s.bootCal := h.romWrite.romWrite
theorem Kept.bootFinish {e : BootEnd} (h : Kept s₀ s) : Kept s₀ (s.bootFinish e) := by
  unfold State.bootFinish
  dsimp only
  refine .withCoreA ?_
  refine .setSys ?_
  split
  · exact h.romWrite
  · exact h
theorem Kept.bootGo (h : Kept s₀ s) : Kept s₀ s.bootGo := by
  unfold State.bootGo
  split
  · exact .ite h.bootBit.bootFinish h
  · exact h
theorem Kept.bootLoader (h : Kept s₀ s) : Kept s₀ s.bootLoader :=
  h.bootBit.romWrite.freeStep.withCoreA.waitRequest.when fun h => h.withCoreA
theorem Kept.boot {warm : Bool} (h : Kept s₀ s) : Kept s₀ (s.boot warm) := by
  unfold State.boot
  extract_lets a b r c
  have hb : Kept s₀ b := h.setSys.rsetN.when fun h => h.bootBit
  have hr : Kept s₀ r.1 := hb.bootClock.bootRepair.selectImage
  have hc : Kept s₀ c := hr.when fun h => h.updState
  split
  · exact hc.bootLoader
  · extract_lets base flags e d f
    have hd : Kept s₀ d := hc.when fun h => h.bootBit
    have hf : Kept s₀ f := hd.when fun h => h.bootConfig
    exact .ite hf.bootCal.setSys.bootGo hf.bootFinish
theorem Kept.bootPending (h : Kept s₀ s) : Kept s₀ s.bootPending := .ite h.boot h
theorem Kept.releaseBoot {straps : Nat} (h : Kept s₀ s) : Kept s₀ (s.releaseBoot straps) := .ite h.release.boot h
theorem Kept.pageHook {w : WCtx} (h : Kept s₀ s) : Kept s₀ (pageHook w s) := (h.anyHook.ovlSettle (fun h => h.coreHook)).bootPending
theorem Kept.execCalDone {t : Frc} {bit : Fin 8} {inLimits : Bool} (h : Kept s₀ s) : OutKept s₀ (execCalDone t bit inLimits s) :=
  .next h.advance.calEnds.bootGo
theorem Kept.execFlashOpDone {ok : Bool} {pulses : BitVec 5} {corr : BitVec 9} {unc : Bool} (h : Kept s₀ s) :
    OutKept s₀ (execFlashOpDone ok pulses corr unc s) :=
  .next h.flashEnds.updSettle.bootPending
theorem Kept.execEraseSuspended (h : Kept s₀ s) : OutKept s₀ (execEraseSuspended s) := .next (.ite h.setFlash.updSettle h)

/-! ## The operations of Machine/BusRows.lean -/

theorem Kept.execRegisterWrite {m : Master} {addr v : Word} (h : Kept s₀ s) : OutKept s₀ (execRegisterWrite m addr v s) :=
  .next (h.busWrite (fun h => h.pageHook))
theorem Kept.execSoftReset {a : Acc} {page : BitVec 6} {v : Word} (h : Kept s₀ s) : OutKept s₀ (execSoftReset a page v s) :=
  .next (h.writeReg (fun h => h.pageHook))
theorem Kept.execOwnWrite {m : Master} {addr v : Word} (h : Kept s₀ s) : OutKept s₀ (execOwnWrite m addr v s) :=
  .next (h.busWrite (fun h => h.pageHook))
theorem Kept.execOlockSet {a : Acc} {v : Word} (h : Kept s₀ s) : OutKept s₀ (execOlockSet a v s) :=
  .next (h.writeReg (fun h => h.pageHook))
theorem Kept.execProtAudIdxWrite {a : Acc} {v : Word} (h : Kept s₀ s) : OutKept s₀ (execProtAudIdxWrite a v s) :=
  .next (h.writeReg (fun h => h.pageHook))
theorem Kept.execLatchPairLowRead {m : Master} {addr : Word} (h : Kept s₀ s) : OutKept s₀ (execLatchPairLowRead m addr s) :=
  .next h.busRead
theorem Kept.execLatchPairLowWrite {m : Master} {addr v : Word} (h : Kept s₀ s) : OutKept s₀ (execLatchPairLowWrite m addr v s) :=
  .next (h.busWrite (fun h => h.pageHook))
theorem Kept.execLatchPairHighWrite {m : Master} {addr v : Word} (h : Kept s₀ s) : OutKept s₀ (execLatchPairHighWrite m addr v s) :=
  .next (h.busWrite (fun h => h.pageHook))
theorem Kept.ovlCmdWrite {m : Master} {c : Word} (h : Kept s₀ s) : Kept s₀ (s.ovlCmdWrite m c) := h.writeReg (fun h => h.pageHook)
theorem Kept.execOvlLoad {m : Master} (h : Kept s₀ s) : OutKept s₀ (execOvlLoad m s) := .next h.ovlCmdWrite
theorem Kept.execApplyBase {m : Master} (h : Kept s₀ s) : OutKept s₀ (execApplyBase m s) := .next h.ovlCmdWrite
theorem Kept.execOvlCancel {m : Master} (h : Kept s₀ s) : OutKept s₀ (execOvlCancel m s) := .next h.ovlCmdWrite
theorem Kept.execOvlReqGo {a : Acc} {v : Word} (h : Kept s₀ s) : OutKept s₀ (execOvlReqGo a v s) :=
  .next (h.writeReg (fun h => h.pageHook))
theorem Kept.execCadDisable {a : Acc} {v : Word} (h : Kept s₀ s) : OutKept s₀ (execCadDisable a v s) :=
  .next (h.writeReg (fun h => h.pageHook))
theorem Kept.setProt {f : ProtState → ProtState} (h : Kept s₀ s) : Kept s₀ (s.setProt f) := h.withProt
theorem Kept.execPresenceNFilteredChange {t : Frc} {low : Bool} (h : Kept s₀ s) : OutKept s₀ (execPresenceNFilteredChange t low s) := by
  unfold Machine.execPresenceNFilteredChange
  dsimp only
  split
  · exact .next (h.advance.gPresence.when fun h => h.setProt)
  · exact .ite (.next h.advance.gPresence) (.next h.advance.gPresence.setProt)
theorem Kept.execTokenGain {t : Frc} (h : Kept s₀ s) : OutKept s₀ (execTokenGain t s) := .next (h.advance.when fun h => h.setProt.raise)
theorem Kept.execTokenLapse {t : Frc} (h : Kept s₀ s) : OutKept s₀ (execTokenLapse t s) := .next (h.advance.unless fun h => h.setProt)

/-! ## The operations of Machine/Dma.lean -/

theorem Kept.pageReach (h : Kept s₀ s) : Kept s₀ s.pageReach.1 := h
theorem Kept.busLoad {m : Master} {a n : Nat} (h : Kept s₀ s) : Kept s₀ (s.busLoad m a n).1 := by
  unfold State.busLoad
  split
  · exact .iteFst (.iteFst h h.busRead.pageReach) h
  · exact .iteFst h.gladeRd.pageReach h
  · exact h.memRead
theorem Kept.busStore {m : Master} {a n v : Nat} (h : Kept s₀ s) : Kept s₀ (s.busStore m a n v).1 := by
  unfold State.busStore
  split
  · exact .iteFst (h.busWrite (fun h => h.pageHook)) h
  · exact h.memWrite
theorem Kept.execDmaChannelEnable {a : Acc} {ch : Fin 8} {v : Word} (h : Kept s₀ s) : OutKept s₀ (execDmaChannelEnable a ch v s) :=
  .next (h.writeReg (fun h => h.pageHook))
theorem Kept.execDmaDisable {a : Acc} {ch : Fin 8} {v : Word} (h : Kept s₀ s) : OutKept s₀ (execDmaDisable a ch v s) :=
  .next (h.writeReg (fun h => h.pageHook))
theorem Kept.execDmaRequest {ch : Fin 8} (h : Kept s₀ s) : OutKept s₀ (execDmaRequest ch s) := .next h.deliver
theorem Kept.dmaFail {ch cause a : Nat} (h : Kept s₀ s) : Kept s₀ (s.dmaFail ch cause a) := h.dmaStop.fset.fset.rsetN.raise
theorem Kept.dmaBurst {ch : Nat} (h : Kept s₀ s) : Kept s₀ (s.dmaBurst ch) := .ite h (.ite h.fset.dmaPut h.dmaPut)
theorem Kept.dmaAdvance {ch src dst cnt n : Nat} (h : Kept s₀ s) : Kept s₀ (s.dmaAdvance ch src dst cnt n) :=
  .ite h (h.rsetN.rsetN.rsetN.dmaBurst.when fun h => h.dmaDone)
theorem Kept.dmaBeat {ch : Fin 8} (h : Kept s₀ s) : Kept s₀ (s.dmaBeat ch) := by
  unfold State.dmaBeat
  dsimp only
  split
  · exact h
  · split
    · exact h
    · split
      · exact h.busLoad.withDmaLast.busStore.dmaAdvance
      · exact h
      · exact h.busLoad.withDmaLast.busStore.dmaFail
      · exact h.busLoad.withDmaLast.busStore.dmaFail
    · exact h.busLoad.withDmaLast.dmaFail
theorem Kept.execDmaBeat (h : Kept s₀ s) : OutKept s₀ (execDmaBeat s) := by
  unfold Machine.execDmaBeat
  split
  · exact .next h
  · split
    · split
      · exact .next h.dmaBeat
      · exact .next h
    · exact .next h

/-! ## The operations of Machine/CoreMem.lean -/

theorem Kept.mpuKeep {a : Nat} (h : Kept s₀ s) : Kept s₀ (s.mpuKeep a) := .ite h.withCoreA h
theorem Kept.lineRead {a : Nat} (h : Kept s₀ s) : Kept s₀ (s.lineRead a) := by
  unfold State.lineRead
  split
  · exact h.flashRead
  · exact h.eccSweep
  · exact h
theorem Kept.dFill {a : Nat} (h : Kept s₀ s) : Kept s₀ (s.dFill a) := h.lineRead.when fun h => h.freeStep.withCaches
theorem Kept.iFill {a : Nat} (h : Kept s₀ s) : Kept s₀ (s.iFill a) := h.lineRead.when fun h => h.freeStep.withCaches
theorem Kept.dParity {a : Nat} (h : Kept s₀ s) : Kept s₀ (s.dParity a) := .ite h.withCaches.finc h
theorem Kept.iParity {a : Nat} (h : Kept s₀ s) : Kept s₀ (s.iParity a) := .ite h.withCaches.finc h
theorem Kept.dWrite {a n v : Nat} (h : Kept s₀ s) : Kept s₀ (s.dWrite a n v) := h.withCaches
theorem Kept.privRead {a : Nat} (h : Kept s₀ s) : Kept s₀ (s.privRead a).1 := .elimFst h (.iteFst h (.iteFst h (.iteFst h.fset h)))
theorem Kept.cacheCtrl {i d : Bool} (h : Kept s₀ s) : Kept s₀ (s.cacheCtrl i d) := h.fset.fset.withCaches
theorem Kept.privWrite {a : Nat} {v : Word} (h : Kept s₀ s) : Kept s₀ (s.privWrite a v) :=
  .elim h (.ite (h.foldl fun h => h.irqClear) (.ite h.cacheDrop (h.rset.when fun h => h.cacheCtrl)))
theorem Kept.gotOf {wr : Bool} {a n : Nat} {r : State × Reach} (h : Kept s₀ r.1) : GotKept s₀ (gotOf wr a n r) := by
  unfold Machine.gotOf
  split
  · exact .ok h
  · exact .stall
  · exact .fault h
theorem Kept.loadA {a n : Nat} (h : Kept s₀ s) : GotKept s₀ (s.loadA a n) := by
  unfold State.loadA
  split
  · exact .fault h
  · split
    · exact .ok h.privRead
    · split
      · exact h.busLoad.gotOf
      · split
        · exact .stall
        · dsimp only
          split
          · exact .ok h.dParity
          · have hg := (h.dParity (a := a)).busLoad (m := .tanumA) (a := a) (n := n) |>.gotOf (wr := false) (a := a) (n := n)
            split
            · next e => exact .ok (hg.ofOk e).dFill
            · exact hg
theorem Kept.storeA {a n v : Nat} {fin : Core → Core} (h : Kept s₀ s) : GotKept s₀ (s.storeA a n v fin) := by
  unfold State.storeA
  split
  · exact .fault h
  · dsimp only
    split
    · exact .ok h.withCoreA.mpuKeep.privWrite
    · split
      · exact .stall
      · split
        · next e => exact .ok (h.withCoreA.busStore.gotOf.ofOk e).dWrite
        · next e => exact .fault (h.withCoreA.busStore.gotOf.ofFault e).withCoreA
        · exact .stall
theorem Kept.gFault {vec a n : Nat} {wr : Bool} (h : Kept s₀ s) : GotKept s₀ (gFault vec a n wr s) := .fault h
theorem Kept.loadG {a n : Nat} (h : Kept s₀ s) : GotKept s₀ (s.loadG a n) :=
  .ite (.ite (.ok h.gladeRead) h.gFault) (.ite h.gFault (.ite h.gFault (.ite (.ok h.freeStep) (.ok h.gReads))))
theorem Kept.storeG {a n v : Nat} {fin : Core → Core} (h : Kept s₀ s) : GotKept s₀ (s.storeG a n v fin) := by
  unfold State.storeG
  dsimp only
  split
  · exact .ite (.ok h.withCoreG.gladeWrite) h.withCoreG.gFault
  · split
    · exact h.withCoreG.gFault
    · split
      · exact h.withCoreG.gFault
      · exact .ite (.ok (h.withCoreG.setGlade Glade.wf_setList)) h.withCoreG.gFault
theorem Kept.load {c : CoreId} {a n : Nat} (h : Kept s₀ s) : GotKept s₀ (s.load c a n) := by
  unfold State.load
  split
  · exact h.loadA
  · exact h.loadG
theorem Kept.store {c : CoreId} {a n v : Nat} {fin : Core → Core} (h : Kept s₀ s) : GotKept s₀ (s.store c a n v fin) := by
  unfold State.store
  split
  · exact h.storeA
  · exact h.storeG
theorem Kept.fetchByte {a : Nat} (h : Kept s₀ s) : GotKept s₀ (s.fetchByte a) := by
  have hp : Kept s₀ (if s.iCacheable a then s.iParity a else s) := h.when fun h => h.iParity
  unfold State.fetchByte
  extract_lets r bad s' t
  split
  · exact .fault h
  · split
    · exact .fault h
    · split
      · exact .stall
      · split
        · exact .ok hp
        · split
          · exact .ok (.when hp.memRead fun h => h.iFill)
          · exact .stall
          · exact .fault hp.memRead
theorem Kept.fetchBytes {a n : Nat} (h : Kept s₀ s) : GotKept s₀ (s.fetchBytes a n) := by
  induction n generalizing s a with
  | zero => exact .ok h
  | succ n ih =>
    unfold State.fetchBytes
    split
    · next e => exact ih (h.fetchByte.ofOk e)
    · exact h.fetchByte
theorem Kept.fetch {c : CoreId} {n : Nat} (h : Kept s₀ s) : GotKept s₀ (s.fetch c n) := by
  unfold State.fetch
  dsimp only
  split
  · exact h.fetchBytes
  · split
    · exact .fault h
    · exact .ok h

/-! ## The operations of Machine/Except.lean -/

theorem Kept.doubleFault {x : CoreId} (h : Kept s₀ s) : Kept s₀ (s.doubleFault x) := by
  unfold State.doubleFault
  split
  · exact h.coreReset.wdtLoad.bootPending
  · exact h.freeStep.gladeReset
theorem Kept.pushWords {c : CoreId} {a : Nat} {l : List Word} (h : Kept s₀ s) : GotKept s₀ (s.pushWords c a l) := by
  induction l generalizing s a with
  | nil => exact .ok h
  | cons w l ih =>
    unfold State.pushWords
    split
    · next e => exact ih (h.store.ofOk e)
    · exact h.store
theorem Kept.lineEntered {c : CoreId} {n : Nat} (h : Kept s₀ s) : Kept s₀ (s.lineEntered c n) := by
  unfold State.lineEntered
  split
  · exact h.irqClear.fset
  · exact (Kept.ite h h.gUnline).fset
theorem Kept.lineLeft {c : CoreId} {vec : Nat} (h : Kept s₀ s) : Kept s₀ (s.lineLeft c vec) := by
  unfold State.lineLeft
  split <;> exact .ite h.fset h
theorem Kept.enter {c : CoreId} {vec : Nat} {k : Cause} (h : Kept s₀ s) : OptKept s₀ (s.enter c vec k) := by
  unfold State.enter
  dsimp only
  split
  · exact .some h.setCore.doubleFault
  · split
    · exact .none
    · next e => exact .some (h.setCore.setCore.pushWords.ofFault e).doubleFault
    · next e =>
      have hp := h.setCore.setCore.pushWords.ofOk e
      split
      · exact .none
      · next e => exact .some (hp.load.ofFault e).doubleFault
      · next e =>
        have hl := hp.load.ofOk e
        refine .some ?_
        split
        · exact hl.setCore.lineEntered
        · exact hl.setCore
theorem Kept.faultInfo {c : CoreId} {f : Flt} (h : Kept s₀ s) : Kept s₀ (s.faultInfo c f) := by
  unfold State.faultInfo
  split
  · exact h
  · exact h.rsetN.rsetN
theorem Kept.takeFault {c : CoreId} {f : Flt} (h : Kept s₀ s) : OptKept s₀ (s.takeFault c f) := h.faultInfo.enter
theorem Kept.stepEnd (h : Kept s₀ s) : Kept s₀ s.stepEnd := .ite h.withCoreA h
theorem Kept.orStall {c : CoreId} {o : Option State} (h : Kept s₀ s) (ho : OptKept s₀ o) : Kept s₀ (s.orStall c o) := by
  cases ho with
  | none => exact h
  | some ht => cases c with
    | a => exact ht.stepEnd
    | g => exact ht
theorem Kept.bpTake {n : Nat} (h : Kept s₀ s) : Kept s₀ (s.bpTake n) := .ite (h.orStall h.fset.fset.enter) h.fset.fset.withCoreA
theorem Kept.repStop {c : CoreId} {k : Nat} {atomic : Bool} (h : Kept s₀ s) : Kept s₀ (s.repStop c k atomic) := h.setCore
theorem Kept.repRun {c : CoreId} {p : Prefixes} {next : Word} {intr : Bool} {b : Body} {n : Nat}
    (hf : ∀ {x t}, Kept s₀ t → GotKept s₀ (b x t)) (h : Kept s₀ s) : OptKept s₀ (State.repRun c p next intr b n s) := by
  induction n generalizing s with
  | zero => exact .some h.setCore
  | succ n ih =>
    unfold State.repRun
    dsimp only
    split
    · exact .some h.setCore
    · split
      · exact .some h.repStop
      · next e => exact ((hf h).ofFault e).repStop.takeFault
      · next e =>
        have ht := (hf h).ofOk e
        exact .ite (.some ht) (.ite (.some ht.repStop) (ih ht))
theorem Kept.runBody {c : CoreId} {p : Prefixes} {next : Word} {b : Body} (h : Kept s₀ s) (hf : ∀ {x0 t}, Kept s₀ t → GotKept s₀
    (b x0 t)) :
    OptKept s₀ (s.runBody c p next b) := by
  unfold State.runBody
  split
  · exact h.repRun hf
  · split
    · exact .some h.setCore
    · split
      · next e => exact .some ((hf h).ofOk e)
      · next e => exact ((hf h).ofFault e).takeFault
      · exact .none
theorem Kept.mpuLand {c : CoreId} (h : Kept s₀ s) : Kept s₀ (State.mpuLand c s) := h.setCore
theorem Kept.instr {c : CoreId} {p : Prefixes} {op imm : Nat} {priv : Bool} {b : Body} (h : Kept s₀ s)
    (hf : ∀ {x t}, Kept s₀ t → GotKept s₀ (b x t)) : OutKept s₀ (s.instr c p op imm priv b) := by
  unfold State.instr
  split
  · exact .next h
  · split
    · exact .next h.bpTake
    · dsimp only
      split
      · exact .next (h.orStall h.takeFault)
      · split
        · exact .next h
        · next e => exact .next (h.orStall (h.fetch.ofFault e).takeFault)
        · next e =>
          have ht := h.fetch.ofOk e
          exact .ite (.next (h.orStall ht.takeFault))
            (.ite (.next (h.orStall ht.takeFault)) (.next (h.orStall ((ht.runBody hf).map fun h => h.mpuLand))))
theorem Kept.coreBody {c : CoreId} {f : Core → Core} {x : Option Word → Core → Core} (h : Kept s₀ s) : GotKept s₀ (coreBody c f x s) :=
  .ok h.setCore
theorem Kept.execExceptionEntry {c : CoreId} (h : Kept s₀ s) : OutKept s₀ (execExceptionEntry c s) := by
  unfold Machine.execExceptionEntry
  split
  · exact .next h
  · split
    · split
      · exact .ite (.next h) (.next (h.orStall h.enter))
      · exact .next h
    · split
      · exact .next (h.orStall h.enter)
      · exact .next h
theorem Kept.execFetchBusError {c : CoreId} {k : Fin 8} (h : Kept s₀ s) : OutKept s₀ (execFetchBusError c k s) := by
  unfold Machine.execFetchBusError
  split
  · exact .next h
  · split
    · exact .next h.bpTake
    · split
      · next e => exact .next (h.orStall (h.fetch.ofFault e).takeFault)
      · exact .next h
theorem Kept.execIllegalEncoding {c : CoreId} {bytes : List Byte} (h : Kept s₀ s) : OutKept s₀ (execIllegalEncoding c bytes s) := by
  unfold Machine.execIllegalEncoding
  split
  · exact .next h
  · split
    · exact .next h.bpTake
    · split
      · exact .next h
      · next e => exact .next (h.orStall (h.fetch.ofFault e).takeFault)
      · next e => exact .next (h.orStall (h.fetch.ofOk e).takeFault)
theorem Kept.execMultiplyLands {c : CoreId} (h : Kept s₀ s) : OutKept s₀ (execMultiplyLands c s) := .next h.setCore
theorem Kept.execBreakpointMatch {n : Fin 4} (h : Kept s₀ s) : OutKept s₀ (execBreakpointMatch n s) := .next (.ite h.bpTake h)
theorem Kept.privStore {a : Nat} {v : Word} (h : Kept s₀ s) : OutKept s₀ (s.privStore a v) := by
  unfold State.privStore
  split
  · exact .next h
  · split
    · next e => exact .next (h.storeA.ofOk e).mpuLand
    · next e => exact .next (h.orStall (h.storeA.ofFault e).takeFault)
    · exact .next h
theorem Kept.execCacheInv {v : Word} (h : Kept s₀ s) : OutKept s₀ (execCacheInv v s) := h.privStore
theorem Kept.execIcacheInvalidateAll {v : Word} (h : Kept s₀ s) : OutKept s₀ (execIcacheInvalidateAll v s) := h.privStore
theorem Kept.execDcacheInvalidateAll {v : Word} (h : Kept s₀ s) : OutKept s₀ (execDcacheInvalidateAll v s) := h.privStore
theorem Kept.execInvalidationDone (h : Kept s₀ s) : OutKept s₀ (execInvalidationDone s) := .next h.withCaches
theorem Kept.execDbgHalt {m : Master} (h : Kept s₀ s) : OutKept s₀ (execDbgHalt m s) := .next (h.busWrite (fun h => h.pageHook))
theorem Kept.execDbgResume {m : Master} (h : Kept s₀ s) : OutKept s₀ (execDbgResume m s) := .next (h.busWrite (fun h => h.pageHook))
theorem Kept.execDbgStep {m : Master} (h : Kept s₀ s) : OutKept s₀ (execDbgStep m s) := .next (h.busWrite (fun h => h.pageHook))
theorem Kept.execDbgRegDataAccess {a : Acc} {w : Option Word} (h : Kept s₀ s) : OutKept s₀ (execDbgRegDataAccess a w s) := by
  unfold Machine.execDbgRegDataAccess
  refine .next ?_
  split
  · exact h.busRead
  · exact h.busWrite (fun h => h.pageHook)

/-! ## The operations of Machine/Slot.lean -/

theorem Kept.setHdr {f : HdrState → HdrState} (h : Kept s₀ s) : Kept s₀ (s.setHdr f) := h.withHdr
theorem Kept.setSlot {f : Slot → Slot} (h : Kept s₀ s) : Kept s₀ (s.setSlot f) := h.withSlot
theorem Kept.arbitrate {asn : Nat} {l : List Cand} (h : Kept s₀ s) : Kept s₀ (arbitrate asn l s).2 := by
  induction l generalizing s with
  | nil => exact h
  | cons c l ih =>
    unfold Machine.arbitrate
    split
    · split
      · exact h
      · split
        · next e => exact h.eligible.ofSnd e
        · next e => exact ih (h.eligible.ofSnd e)
    · exact .iteSnd h (.iteSnd h (ih h))
theorem Kept.overrun (h : Kept s₀ s) : Kept s₀ s.overrun := h.finc.raise
theorem Kept.cutLanes (h : Kept s₀ s) : Kept s₀ s.cutLanes := h.foldl fun h => (Kept.ite h.laneAbort.overrun h).laneTo.setLane.laneAssign
theorem Kept.cutAcks (h : Kept s₀ s) : Kept s₀ s.cutAcks := (h.foldl fun h => h.overrun).withTxm
theorem Kept.withdraw {asn : Nat} (h : Kept s₀ s) : Kept s₀ (s.withdraw asn) := by
  unfold State.withdraw
  split
  · exact .ite h h.setTicket.dutyCharge.fset
  · exact h
theorem Kept.cutTail (h : Kept s₀ s) : Kept s₀ s.cutTail := by
  unfold State.cutTail
  split
  · exact h
  · exact .ite h (Kept.ite (Kept.ite (Kept.ite h h.rsetN).withdraw (.ite h h.rsetN)).fset (.ite (Kept.ite h h.rsetN).withdraw
      (.ite h h.rsetN))).squashWhere.overrun
theorem Kept.cutBuild (h : Kept s₀ s) : Kept s₀ s.cutBuild := by
  unfold State.cutBuild
  split
  · exact h.finc.squash.overrun
  · exact h
theorem Kept.cutWork (h : Kept s₀ s) : Kept s₀ s.cutWork :=
  .ite (Kept.ite h.workAbort.overrun h).setCad.overrun (.ite h.workAbort.overrun h)
theorem Kept.cutJobs (h : Kept s₀ s) : Kept s₀ s.cutJobs := h.cutLanes.cutAcks.cutBuild.cutTail.cutWork
theorem Kept.silenceCount {asn : Nat} (h : Kept s₀ s) : Kept s₀ (s.silenceCount asn) := .ite h h.fadd.setCad
theorem Kept.tune {f : Nat} {tx wide : Bool} (h : Kept s₀ s) : Kept s₀ (s.tune f tx wide) :=
  .ite h.fset.finc h.fset.fset.fset.fsetB.setRfe
theorem Kept.slotBegin {sl : Slot} (h : Kept s₀ s) : Kept s₀ (s.slotBegin sl) := h.fset.rsetN.withSlot
theorem Kept.slotCanopy {asn : Nat} {cells : List Cand} (h : Kept s₀ s) : Kept s₀ (s.slotCanopy asn cells) :=
  h.openWindow.slotBegin.unless fun h => h.tune
theorem Kept.slotNarrow {asn : Nat} {cells : List Cand} (h : Kept s₀ s) : Kept s₀ (s.slotNarrow asn cells) := by
  unfold State.slotNarrow
  split
  · exact h.slotBegin
  · exact h.fadd.laneAssign.slotBegin.tune
theorem Kept.slotTx {asn : Nat} {c : Cand} (h : Kept s₀ s) : Kept s₀ (s.slotTx asn c) := h.slotBegin.tune
theorem Kept.slotClearing {asn : Nat} {c : Cand} (h : Kept s₀ s) : Kept s₀ (s.slotClearing asn c) := h.slotBegin
theorem Kept.slotDecide {asn : Nat} {l : List Cand} (h : Kept s₀ s) : Kept s₀ (s.slotDecide asn l) := by
  unfold State.slotDecide
  split
  · next e =>
    have ha := h.arbitrate.ofSnd e
    exact .ite ha.slotTx (.ite (.ite ha.slotCanopy ha.slotNarrow) ha.slotClearing)
  · next e =>
    have ha := h.arbitrate.ofSnd e
    exact .ite ha.slotCanopy ha.slotBegin
theorem Kept.slotClear (h : Kept s₀ s) : Kept s₀ s.slotClear := h.windowShut.setRfe.fset.setCad.foldl fun h => h.laneLatch
theorem Kept.slotStart {asn : Nat} (h : Kept s₀ s) : Kept s₀ (s.slotStart asn) := by
  unfold State.slotStart
  dsimp only
  refine .slotDecide <| .setCad ?_
  split
  · exact h.silenceCount.slotClear.setNtu.modeAtTick
  · exact h.silenceCount.slotClear.setNtu.modeAtTick.resolveSlot
theorem Kept.execSlotTick {t : Frc} (h : Kept s₀ s) : OutKept s₀ (execSlotTick t s) :=
  .ite (.next h.advance) (.ite (.next (h.advance.phaseBegin.cutJobs.consider.cadStop.publishAll.ovlSettle (fun h => h.coreHook)))
    (.next h.advance.phaseBegin.cutJobs.consider.slotStart.publishAll.hold))
theorem Kept.attemptCount {k : Ticket} (h : Kept s₀ s) : Kept s₀ (s.attemptCount k) := .ite h.setHdr h.descSet.descSet.descSet
theorem Kept.recover {code : Nat} (h : Kept s₀ s) : Kept s₀ (s.recover code) := by
  unfold State.recover
  split
  · exact h
  · extract_lets air t u v w x
    have hu : Kept s₀ u := by
      unfold u
      cases air with
      | none => exact h.txAbort
      | some k => exact h.txAbort.unless fun h => h.attemptCount
    have hx : Kept s₀ x := (hu.cadHalt.foldl fun h => h.laneStop).setSys.setCad
    exact (hx.sysFault.raise).ovlSettle fun h => h.coreHook

/-! ## The operations of Machine/Tailrace.lean -/

theorem Kept.backoffServed (h : Kept s₀ s) : Kept s₀ s.backoffServed := h.foldl fun h => h.nbrSet
theorem Kept.backoffOutcome {k : Ticket} {ok : Bool} (h : Kept s₀ s) : Kept s₀ (s.backoffOutcome k ok) := by
  unfold State.backoffOutcome
  split
  · exact h
  · exact .ite h.nbrSet.nbrSet (.ite h h.nbrSet.nbrSet.freeStep)
theorem Kept.countOutcome {k : Ticket} (h : Kept s₀ s) : Kept s₀ (s.countOutcome k) := by
  unfold State.countOutcome
  split
  · exact h.finc
  · split
    · dsimp only
      split
      · exact h.finc.nbrSet
      · exact h.finc
    · exact h
theorem Kept.frameOutcome {k : Ticket} {ok final : Bool} (h : Kept s₀ s) : Kept s₀ (s.frameOutcome k ok final) :=
  .ite h (.ite h.setHdr h.frameLeaves)
theorem Kept.retire {e : Nat} {k : Ticket} (h : Kept s₀ s) : Kept s₀ (s.retire e k) :=
  h.attemptCount.countOutcome.backoffOutcome.frameOutcome.setTicket.dutyCharge.dutyNote.fset.unless fun h => h.squashDependants.squashNow
theorem Kept.tailCommit {sl : Slot} (h : Kept s₀ s) : Kept s₀ (s.tailCommit sl) := by
  unfold State.tailCommit
  dsimp only
  split
  · refine .when ?_ fun h => h.retire
    split
    · exact .ite h.backoffServed h
    · exact h
  · split
    · exact .ite h.backoffServed h
    · exact h
theorem Kept.cellStats {sl : Slot} {failed : Bool} {c : Cand} (h : Kept s₀ s) : Kept s₀ (s.cellStats sl failed c) :=
  h.cellUsed.when fun h => h.cellFail
theorem Kept.queueSample {q : Nat} (h : Kept s₀ s) : Kept s₀ (s.queueSample q) := h.fset.fset
theorem Kept.historyEntry {asn : Nat} (h : Kept s₀ s) : Kept s₀ (s.historyEntry asn) := .ite h h.setTrf.fset.fsetB
theorem Kept.tailStats {sl : Slot} (h : Kept s₀ s) : Kept s₀ (s.tailStats sl) :=
  ((h.foldl fun h => h.cellStats).foldl fun h => h.queueSample).historyEntry
theorem Kept.tailGates {next : Nat} (h : Kept s₀ s) : Kept s₀ (s.tailGates next) := h.sluEvaluate.setHdr.dutyNote
theorem Kept.squashContra {e : Nat} (h : Kept s₀ s) : Kept s₀ (s.squashContra e) := .ite h.squash.finc.raise h
theorem Kept.tailVerdict {next : Nat} (h : Kept s₀ s) : Kept s₀ (s.tailVerdict next) :=
  (h.squashWhere.foldl fun h => h.squashContra).squashNow.setHdr
theorem Kept.tailNext {sl : Slot} {stepped : Bool} {dur : Nat} (h : Kept s₀ s) : Kept s₀ (s.tailNext sl stepped dur).2 :=
  .iteSnd h (Kept.ite h.asnSkip h).setNtu
theorem Kept.tailStep {sl : Slot} {next i : Nat} (h : Kept s₀ s) : Kept s₀ (s.tailStep sl next i) := by
  unfold State.tailStep
  split
  · exact h.resolveSlot
  · exact h.tailCommit
  · exact h.tailStats
  · exact h.weirFill
  · exact h.tailGates
  · exact h.modeAtTail (fun h => h.coreHook)
  · exact h.tailVerdict
theorem Kept.excursionEnd {next dur : Nat} (h : Kept s₀ s) : Kept s₀ (s.excursionEnd next dur) := by
  unfold State.excursionEnd
  dsimp only
  refine .ite h (.ite h ?_)
  split
  · exact h.enterState
  · exact h.entryRefuse
theorem Kept.tailEnd {next dur : Nat} (h : Kept s₀ s) : Kept s₀ (s.tailEnd next dur) :=
  ((h.windowShut.setRfe.when fun h => h.cadStop).ovlSettle (fun h => h.coreHook)).excursionEnd
theorem Kept.execTailrace {t : Frc} {steps : Fin 8} {dur : BitVec 10} (h : Kept s₀ s) : OutKept s₀ (execTailrace t steps dur s) := by
  unfold Machine.execTailrace
  extract_lets a p b c d stepped e n
  have ha : Kept s₀ a := h.advance
  have hc : Kept s₀ c := ha.phaseBegin.setSlot.rsetN.setRfe.setHdr
  have hd : Kept s₀ d := by
    unfold d
    split
    · exact .ite hc.setAck.ackWindowShut hc
    · exact hc
  split
  · exact .next ha
  · refine .ite (.next ha) ?_
    split
    · next x =>
      extract_lets f g k
      have hf : Kept s₀ f := (hd.stepAtTail.tailNext.ofSnd x).foldl fun h => h.tailStep
      have hk : Kept s₀ k := hf.setSlot.fset.fset
      exact .next (.hold (.ite hk.tailEnd hk))
theorem Kept.execPhaseCheckpoint {t : Frc} (h : Kept s₀ s) : OutKept s₀ (execPhaseCheckpoint t s) :=
  .next (h.advance.unless fun h => h.phaseBegin)
theorem Kept.replayBegin (h : Kept s₀ s) : Kept s₀ s.replayBegin := h.setCad.fset.finc.raise.event
theorem Kept.execLockstepFault {t : Frc} {sig : Bool} {grp : Fin 4} (h : Kept s₀ s) : OutKept s₀ (execLockstepFault t sig grp s) :=
  .ite (.next h.advance) (.next h.advance.setCad.finc.rsetN.txAbort.squashWhere.replayBegin)
theorem Kept.execReplayEnd {t : Frc} {agree : Bool} (h : Kept s₀ s) : OutKept s₀ (execReplayEnd t agree s) :=
  .ite (.next h.advance) (.ite (.next h.advance.setCad.phaseBegin) (.ite (.next h.advance.replayBegin) (.next h.advance.setCad.recover)))
theorem Kept.execAppSilent {t : Frc} (h : Kept s₀ s) : OutKept s₀ (execAppSilent t s) :=
  .ite (.next h.advance) (.next ((h.advance.when fun h => h.cadStop).setCad.fset.raise.event.either
    (fun h => h.sysReset) fun h => h.recover))

/-! ## The operations of Machine/System.lean -/

theorem Kept.execSysStateReq {a : Acc} {v : Word} (h : Kept s₀ s) : OutKept s₀ (execSysStateReq a v s) :=
  .next (h.writeReg (fun h => h.pageHook))
theorem Kept.execPowerOnReset {straps : BitVec 5} {tcxo : Bool} (h : Kept s₀ s) : OutKept s₀ (execPowerOnReset straps tcxo s) :=
  .next h.sysReset.setSys.releaseBoot
theorem Kept.execBrownOutReset (h : Kept s₀ s) : OutKept s₀ (execBrownOutReset s) := .next (.ite h h.sysReset)
theorem Kept.execPinReset (h : Kept s₀ s) : OutKept s₀ (execPinReset s) := .next (.ite h h.sysReset)
theorem Kept.execResetRelease {straps : BitVec 5} (h : Kept s₀ s) : OutKept s₀ (execResetRelease straps s) := .next (.ite h h.releaseBoot)
theorem Kept.execSysCmdSystemReset {a : Acc} {v : Word} {straps : BitVec 5} (h : Kept s₀ s) :
    OutKept s₀ (execSysCmdSystemReset a v straps s) :=
  .next ((h.writeReg (fun h => h.pageHook)).unless fun h => h.releaseBoot)
theorem Kept.execSysCmdCoreReset {a : Acc} {v : Word} (h : Kept s₀ s) : OutKept s₀ (execSysCmdCoreReset a v s) :=
  .next (h.writeReg (fun h => h.pageHook))
theorem Kept.execWatchdogExpiry {straps : BitVec 5} (h : Kept s₀ s) : OutKept s₀ (execWatchdogExpiry straps s) :=
  .ite (.next h) (.ite (.next h.sysReset.releaseBoot) (.next h.coreReset.wdtLoad.bootPending))
theorem Kept.execWdtWarn (h : Kept s₀ s) : OutKept s₀ (execWdtWarn s) := .next (.ite h.rsetN.raise h)
theorem Kept.execWdtKick {a : Acc} {v : Word} (h : Kept s₀ s) : OutKept s₀ (execWdtKick a v s) := .next (h.writeReg (fun h => h.pageHook))
theorem Kept.execHfxoLoss {t : Frc} (h : Kept s₀ s) : OutKept s₀ (execHfxoLoss t s) :=
  .ite (.next h) (.next (h.advance.fset.setSys.when fun h => h.avsStep).sleepHandoff.recover)
theorem Kept.execLfxoLoss {t : Frc} (h : Kept s₀ s) : OutKept s₀ (execLfxoLoss t s) :=
  .ite (.next h) (.next h.advance.fset.raise.sysFault.fset)
theorem Kept.execLfxoEdgesReturn (h : Kept s₀ s) : OutKept s₀ (execLfxoEdgesReturn s) := .next h.fset
theorem Kept.execSlewEnd {t : Frc} (h : Kept s₀ s) : OutKept s₀ (execSlewEnd t s) := .next h.advance
theorem Kept.execVddLoss (h : Kept s₀ s) : OutKept s₀ (execVddLoss s) := .next h.sysReset.setPwr.gladeLoss
theorem Kept.wakeCs {src : Nat} (h : Kept s₀ s) : Kept s₀ (s.wakeCs src) := .ite h.setHsp h
theorem Kept.coreGo (h : Kept s₀ s) : Kept s₀ s.coreGo := h.withCoreA
theorem Kept.wakeRecord {src : Nat} {irq : Bool} {p : PwrState} (h : Kept s₀ s) : Kept s₀ (s.wakeRecord src irq p) :=
  h.fset.fsetB.fset.raise
theorem Kept.resumeCore (h : Kept s₀ s) : Kept s₀ s.resumeCore := h.withCoreA
theorem Kept.wakeUp {src straps : Nat} (h : Kept s₀ s) : Kept s₀ (s.wakeUp src straps) :=
  .ite h.wakeCs.loseContents.sysReset.wakeRecord.releaseBoot.event (Kept.ite
    (h.wakeCs.loseContents.withPins (fun h => h.setPwr)).resumeCore.sampleStraps.wdtLoad
    (h.wakeCs.loseContents.withPins (fun h => h.setPwr)).coreGo).wakeRecord.event
theorem Kept.execWake {src : BitVec 6} {straps : BitVec 5} (h : Kept s₀ s) : OutKept s₀ (execWake src straps s) := .next (.ite h.wakeUp h)
theorem Kept.execEntryAbort {ep : Fin 6} {src : BitVec 6} (h : Kept s₀ s) : OutKept s₀ (execEntryAbort ep src s) := by
  unfold Machine.execEntryAbort
  extract_lets p m a
  have ha : Kept s₀ a := h.fset.fset.finc.raise
  split
  · exact .next h
  · refine .ite (.next h) (.ite ?_ ?_)
    · exact .next ((ha.withPins fun h => h.setPwr).when fun h => h.pspStopNow).wakeCs.coreGo
    · exact .next (ha.withPins fun h => h.setPwr).wakeUp
theorem Kept.execExcursionStart {t : Frc} (h : Kept s₀ s) : OutKept s₀ (execExcursionStart t s) :=
  .ite (.next h.advance) (.next (h.advance.loseContents.withPins (fun h => h.setPwr)).finc)

/-! ## The operations of Machine/Tanum.lean -/

theorem Kept.aluBody {c : CoreId} {op : AluOp} {p : Prefixes} {d : RegNo} {src : Src} {x : Option Word → Core → Core} (h : Kept s₀ s) :
    GotKept s₀ (aluBody c op p d src x s) :=
  .ok (Kept.ite h.freeStep h).setCore
theorem Kept.aluIns {c : CoreId} {op : AluOp} {p : Prefixes} {d : RegNo} {src : Src} (h : Kept s₀ s) :
    OutKept s₀ (s.aluIns c op p d src) :=
  h.instr (fun h => h.aluBody)
theorem Kept.execMov {c : CoreId} {p : Prefixes} {d : RegNo} {src : Src} (h : Kept s₀ s) : OutKept s₀ (execMov c p d src s) := h.aluIns
theorem Kept.execAdd {c : CoreId} {p : Prefixes} {d : RegNo} {src : Src} (h : Kept s₀ s) : OutKept s₀ (execAdd c p d src s) := h.aluIns
theorem Kept.execAdc {c : CoreId} {p : Prefixes} {d : RegNo} {src : Src} (h : Kept s₀ s) : OutKept s₀ (execAdc c p d src s) := h.aluIns
theorem Kept.execSub {c : CoreId} {p : Prefixes} {d : RegNo} {src : Src} (h : Kept s₀ s) : OutKept s₀ (execSub c p d src s) := h.aluIns
theorem Kept.execSbc {c : CoreId} {p : Prefixes} {d : RegNo} {src : Src} (h : Kept s₀ s) : OutKept s₀ (execSbc c p d src s) := h.aluIns
theorem Kept.execAnd {c : CoreId} {p : Prefixes} {d : RegNo} {src : Src} (h : Kept s₀ s) : OutKept s₀ (execAnd c p d src s) := h.aluIns
theorem Kept.execOr {c : CoreId} {p : Prefixes} {d : RegNo} {src : Src} (h : Kept s₀ s) : OutKept s₀ (execOr c p d src s) := h.aluIns
theorem Kept.execXor {c : CoreId} {p : Prefixes} {d : RegNo} {src : Src} (h : Kept s₀ s) : OutKept s₀ (execXor c p d src s) := h.aluIns
theorem Kept.execCmp {c : CoreId} {p : Prefixes} {d : RegNo} {src : Src} (h : Kept s₀ s) : OutKept s₀ (execCmp c p d src s) := h.aluIns
theorem Kept.execTst {c : CoreId} {p : Prefixes} {d : RegNo} {src : Src} (h : Kept s₀ s) : OutKept s₀ (execTst c p d src s) := h.aluIns
theorem Kept.execShl {c : CoreId} {p : Prefixes} {d : RegNo} {src : Src} (h : Kept s₀ s) : OutKept s₀ (execShl c p d src s) := h.aluIns
theorem Kept.execShr {c : CoreId} {p : Prefixes} {d : RegNo} {src : Src} (h : Kept s₀ s) : OutKept s₀ (execShr c p d src s) := h.aluIns
theorem Kept.execSar {c : CoreId} {p : Prefixes} {d : RegNo} {src : Src} (h : Kept s₀ s) : OutKept s₀ (execSar c p d src s) := h.aluIns
theorem Kept.execRor {c : CoreId} {p : Prefixes} {d : RegNo} {src : Src} (h : Kept s₀ s) : OutKept s₀ (execRor c p d src s) := h.aluIns
theorem Kept.execNeg {c : CoreId} {p : Prefixes} {d src : RegNo} (h : Kept s₀ s) : OutKept s₀ (execNeg c p d src s) := h.aluIns
theorem Kept.execNot {c : CoreId} {p : Prefixes} {d src : RegNo} (h : Kept s₀ s) : OutKept s₀ (execNot c p d src s) := h.aluIns
theorem Kept.execBset {c : CoreId} {p : Prefixes} {rd : RegNo} {n : Fin 32} (h : Kept s₀ s) : OutKept s₀ (execBset c p rd n s) :=
  h.instr (fun h => h.coreBody)
theorem Kept.execBclr {c : CoreId} {p : Prefixes} {rd : RegNo} {n : Fin 32} (h : Kept s₀ s) : OutKept s₀ (execBclr c p rd n s) :=
  h.instr (fun h => h.coreBody)
theorem Kept.execBtst {c : CoreId} {p : Prefixes} {rd : RegNo} {n : Fin 32} (h : Kept s₀ s) : OutKept s₀ (execBtst c p rd n s) :=
  h.instr (fun h => h.coreBody)
theorem Kept.execClz {c : CoreId} {p : Prefixes} {rd rs : RegNo} (h : Kept s₀ s) : OutKept s₀ (execClz c p rd rs s) :=
  h.instr (fun h => h.coreBody)
theorem Kept.execMuls {c : CoreId} {p : Prefixes} {ra rb : RegNo} (h : Kept s₀ s) : OutKept s₀ (execMuls c p ra rb s) :=
  h.instr (fun h => h.coreBody)
theorem Kept.execMulu {c : CoreId} {p : Prefixes} {ra rb : RegNo} (h : Kept s₀ s) : OutKept s₀ (execMulu c p ra rb s) :=
  h.instr (fun h => h.coreBody)
theorem Kept.execMacs {c : CoreId} {p : Prefixes} {ra rb : RegNo} (h : Kept s₀ s) : OutKept s₀ (execMacs c p ra rb s) :=
  h.instr (fun h => h.coreBody)
theorem Kept.execMacu {c : CoreId} {p : Prefixes} {ra rb : RegNo} (h : Kept s₀ s) : OutKept s₀ (execMacu c p ra rb s) :=
  h.instr (fun h => h.coreBody)
theorem Kept.execMul32s {c : CoreId} {p : Prefixes} {ra rb : RegNo} (h : Kept s₀ s) : OutKept s₀ (execMul32s c p ra rb s) :=
  h.instr (fun h => h.coreBody)
theorem Kept.execMul32u {c : CoreId} {p : Prefixes} {ra rb : RegNo} (h : Kept s₀ s) : OutKept s₀ (execMul32u c p ra rb s) :=
  h.instr (fun h => h.coreBody)
theorem Kept.execClracc {c : CoreId} {p : Prefixes} (h : Kept s₀ s) : OutKept s₀ (execClracc c p s) := h.instr (fun h => h.coreBody)
theorem Kept.illegalBody {c : CoreId} {x : Option Word → Core → Core} (h : Kept s₀ s) : GotKept s₀ (illegalBody c x s) := .fault h
theorem Kept.execMovsFromSpecial {c : CoreId} {p : Prefixes} {d : RegNo} {sx : Fin 16} (h : Kept s₀ s) :
    OutKept s₀ (execMovsFromSpecial c p d sx s) :=
  .ite (h.instr (fun h => h.illegalBody)) (h.instr (fun h => h.coreBody))
theorem Kept.execMovsToSpecial {c : CoreId} {p : Prefixes} {sx : Fin 16} {src : RegNo} (h : Kept s₀ s) :
    OutKept s₀ (execMovsToSpecial c p sx src s) :=
  .ite (h.instr (fun h => h.illegalBody)) (h.instr (fun h => h.coreBody))

/-! ## The operations of Machine/TanumMem.lean -/

theorem GotKept.andThen {g : Got} {f : Nat → State → Got} (h : GotKept s₀ g) (hf : ∀ {v t}, Kept s₀ t → GotKept s₀ (f v t)) :
    GotKept s₀ (g.andThen f) := by
  cases h with
  | ok h => exact hf h
  | fault h => exact .fault h
  | stall => exact .stall
theorem Kept.ldBody {c : CoreId} {p : Prefixes} {rt : RegNo} {mode : MemMode} {x : Option Word → Core → Core} (h : Kept s₀ s) :
    GotKept s₀ (ldBody c p rt mode x s) :=
  h.load.andThen (fun h => .ok h.setCore)
theorem Kept.stBody {c : CoreId} {p : Prefixes} {rt : RegNo} {mode : MemMode} {x : Option Word → Core → Core} (h : Kept s₀ s) :
    GotKept s₀ (stBody c p rt mode x s) :=
  h.store
theorem Kept.execLd {c : CoreId} {p : Prefixes} {rt : RegNo} {mode : MemMode} (h : Kept s₀ s) : OutKept s₀ (execLd c p rt mode s) :=
  h.instr (fun h => h.ldBody)
theorem Kept.execSt {c : CoreId} {p : Prefixes} {rt : RegNo} {mode : MemMode} (h : Kept s₀ s) : OutKept s₀ (execSt c p rt mode s) :=
  h.instr (fun h => h.stBody)
theorem Kept.execLea {c : CoreId} {p : Prefixes} {rt rb : RegNo} {d : BitVec 16} (h : Kept s₀ s) : OutKept s₀ (execLea c p rt rb d s) :=
  h.instr (fun h => h.coreBody)
theorem Kept.execPush {c : CoreId} {p : Prefixes} {rs : RegNo} (h : Kept s₀ s) : OutKept s₀ (execPush c p rs s) :=
  h.instr (fun h => h.stBody)
theorem Kept.execPop {c : CoreId} {p : Prefixes} {rd : RegNo} (h : Kept s₀ s) : OutKept s₀ (execPop c p rd s) :=
  h.instr (fun h => h.ldBody)
theorem Kept.cpyBody {c : CoreId} {p : Prefixes} {x : Option Word → Core → Core} (h : Kept s₀ s) : GotKept s₀ (cpyBody c p x s) :=
  h.load.andThen (fun h => h.store)
theorem Kept.fillBody {c : CoreId} {p : Prefixes} {x : Option Word → Core → Core} (h : Kept s₀ s) : GotKept s₀ (fillBody c p x s) :=
  h.store
theorem Kept.scanBody {c : CoreId} {p : Prefixes} {x : Option Word → Core → Core} (h : Kept s₀ s) : GotKept s₀ (scanBody c p x s) :=
  h.load.andThen (fun h => .ok h.setCore)
theorem Kept.macmBody {c : CoreId} {sg : Bool} {p : Prefixes} {x : Option Word → Core → Core} (h : Kept s₀ s) :
    GotKept s₀ (macmBody c sg p x s) :=
  h.load.andThen (fun h => h.load.andThen (fun h1 => .ok h1.setCore))
theorem Kept.execCpy {c : CoreId} {p : Prefixes} (h : Kept s₀ s) : OutKept s₀ (execCpy c p s) := h.instr (fun h => h.cpyBody)
theorem Kept.execFill {c : CoreId} {p : Prefixes} (h : Kept s₀ s) : OutKept s₀ (execFill c p s) := h.instr (fun h => h.fillBody)
theorem Kept.execScan {c : CoreId} {p : Prefixes} (h : Kept s₀ s) : OutKept s₀ (execScan c p s) := h.instr (fun h => h.scanBody)
theorem Kept.execMacsm {c : CoreId} {p : Prefixes} (h : Kept s₀ s) : OutKept s₀ (execMacsm c p s) := h.instr (fun h => h.macmBody)
theorem Kept.execMacum {c : CoreId} {p : Prefixes} (h : Kept s₀ s) : OutKept s₀ (execMacum c p s) := h.instr (fun h => h.macmBody)
theorem Kept.branchBody {c : CoreId} {next : Core → Word} {f : Word → Core → Word × Core} {x : Option Word → Core → Core}
    (h : Kept s₀ s) :
    GotKept s₀ (branchBody c next f x s) :=
  .ok h.setCore
theorem Kept.branch {c : CoreId} {p : Prefixes} {op imm : Nat} {f : Word → Core → Word × Core} (h : Kept s₀ s) :
    OutKept s₀ (s.branch c p op imm f) :=
  h.instr (fun h => h.branchBody)
theorem Kept.execBr {c : CoreId} {p : Prefixes} {d : Disp} (h : Kept s₀ s) : OutKept s₀ (execBr c p d s) := by
  unfold Machine.execBr
  split
  · exact h.branch
  · exact h.branch
  · exact h.instr (fun h => h.illegalBody)
theorem Kept.execCall {c : CoreId} {p : Prefixes} {d : Disp} (h : Kept s₀ s) : OutKept s₀ (execCall c p d s) := by
  unfold Machine.execCall
  split
  · exact h.instr (fun h => h.illegalBody)
  · exact h.branch
  · exact h.branch
theorem Kept.execJmp {c : CoreId} {p : Prefixes} {rs : RegNo} (h : Kept s₀ s) : OutKept s₀ (execJmp c p rs s) := h.branch
theorem Kept.execCallr {c : CoreId} {p : Prefixes} {rs : RegNo} (h : Kept s₀ s) : OutKept s₀ (execCallr c p rs s) := h.branch
theorem Kept.execRet {c : CoreId} {p : Prefixes} (h : Kept s₀ s) : OutKept s₀ (execRet c p s) := h.branch
theorem Kept.execDbnz {c : CoreId} {p : Prefixes} {rd : RegNo} {d : Byte} (h : Kept s₀ s) : OutKept s₀ (execDbnz c p rd d s) := h.branch
theorem Kept.execNop {c : CoreId} {p : Prefixes} (h : Kept s₀ s) : OutKept s₀ (execNop c p s) := h.instr (fun h => h.coreBody)
theorem Kept.execSync {c : CoreId} {p : Prefixes} (h : Kept s₀ s) : OutKept s₀ (execSync c p s) := h.instr (fun h => h.coreBody)
theorem Kept.waitBody {c : CoreId} {x : Option Word → Core → Core} (h : Kept s₀ s) : GotKept s₀ (waitBody c x s) := by
  unfold Machine.waitBody
  dsimp only
  split
  · exact .ok h.setCore.waitRequest.withCoreA
  · exact .ok h.setCore.withCoreG
theorem Kept.execWait {c : CoreId} {p : Prefixes} (h : Kept s₀ s) : OutKept s₀ (execWait c p s) := h.instr (fun h => h.waitBody)
theorem Kept.svcBody {c : CoreId} {x : Option Word → Core → Core} (h : Kept s₀ s) : GotKept s₀ (svcBody c x s) := by
  unfold Machine.svcBody
  split
  · next e => exact .ok (h.setCore.enter.ofSome e)
  · exact .stall
theorem Kept.execSvc {c : CoreId} {p : Prefixes} {x : Byte} (h : Kept s₀ s) : OutKept s₀ (execSvc c p x s) := h.instr (fun h => h.svcBody)
theorem Kept.retiBody {c : CoreId} {x : Option Word → Core → Core} (h : Kept s₀ s) : GotKept s₀ (retiBody c x s) :=
  h.load.andThen (fun h => h.load.andThen (fun h1 => h1.load.andThen (fun h2 => h2.load.andThen (fun h3 => .ite (.fault h3)
    (.ok h3.setCore.lineLeft)))))
theorem Kept.execReti {c : CoreId} {p : Prefixes} (h : Kept s₀ s) : OutKept s₀ (execReti c p s) := h.instr (fun h => h.retiBody)

/-! ## The operations of Machine/Hsp.lean -/

theorem Kept.hspBegin {byte : Nat} {f : State → State} (h : Kept s₀ s) (hf : ∀ {t}, Kept s₀ t → Kept s₀ (f t)) :
    OutKept s₀ (s.hspBegin byte f) :=
  .ite h.maintCode (.ite (.next h) (.next (.ite (hf (h.setHsp.unless fun h => h.wakeEvent).finc) (h.setHsp.unless fun h => h.wakeEvent))))
theorem Kept.hspSticky {f : Fld} {bit : Nat} (h : Kept s₀ s) : Kept s₀ (s.hspSticky f bit) := h.fset.raise
theorem Kept.hspError {a : Nat} {wr : Bool} {cause : Nat} (h : Kept s₀ s) : Kept s₀ (s.hspError a wr cause) := h.hspSticky.finc.rsetN
theorem Kept.hspJudged {a : Nat} {wr : Bool} {x : Verdict} (h : Kept s₀ s) : Kept s₀ (s.hspJudged a wr x) := by
  unfold State.hspJudged
  split
  · exact h
  · exact h.hspError
  · exact h.hspError
theorem Kept.hspRead1 {a : Nat} (h : Kept s₀ s) : Kept s₀ (s.hspRead1 a).1 := h.busRead.hspJudged
theorem Kept.hspWrite1 {a : Nat} {w : Word} (h : Kept s₀ s) : Kept s₀ (s.hspWrite1 a w) := (h.busWrite (fun h => h.pageHook)).hspJudged
theorem Kept.hspFlush (h : Kept s₀ s) : Kept s₀ s.hspFlush := h.setHsp.foldl fun h => .ite h.hspWrite1 h
theorem Kept.hspLate {a : Nat} (h : Kept s₀ s) : Kept s₀ (s.hspLate a) := (Kept.iteFst h.freeStep h.hspRead1).hspSticky.finc.rset.rsetN
theorem Kept.hspSend {w : Word} (h : Kept s₀ s) : Kept s₀ (s.hspSend w) := h.setHsp
theorem Kept.hspReads {i : Nat} {lateAt : Option Nat} {n : Nat} (h : Kept s₀ s) : Kept s₀ (s.hspReads i lateAt n) := by
  induction n generalizing s i lateAt with
  | zero => exact h
  | succ n ih =>
    unfold State.hspReads
    dsimp only
    split
    · exact (h.when fun h => h.fset).hspLate.setHsp
    · exact ih (h.when fun h => h.fset).hspRead1.hspSend
theorem Kept.execHspRead {idx : BitVec 6} {n : Nat} {lateAt : Option Nat} (h : Kept s₀ s) : OutKept s₀ (execHspRead idx n lateAt s) :=
  h.hspBegin (fun h => .ite h.hspFlush.hspReads h.setHsp)
theorem Kept.hspPost {a : Nat} {w : Word} {pend : Bool} (h : Kept s₀ s) : Kept s₀ (s.hspPost a w pend) :=
  .ite h (.ite h.hspWrite1 (.ite h.setHsp h.hspSticky))
theorem Kept.hspWrites {i : Nat} {pendFrom : Option Nat} {l : List Word} (h : Kept s₀ s) : Kept s₀ (s.hspWrites i pendFrom l) := by
  induction l generalizing s i pendFrom with
  | nil => exact h
  | cons w l ih =>
    unfold State.hspWrites
    exact .ite h.fset (ih h.hspPost)
theorem Kept.execHspWrite {idx : BitVec 6} {ws : List Word} {pendFrom : Option Nat} {partialWord : Bool} (h : Kept s₀ s) :
    OutKept s₀ (execHspWrite idx ws pendFrom partialWord s) :=
  h.hspBegin (fun h => .ite (h.hspWrites.when fun h => h.hspSticky) h)
theorem Kept.execPostedWriteDone (h : Kept s₀ s) : OutKept s₀ (execPostedWriteDone s) := by
  unfold Machine.execPostedWriteDone
  split
  · exact .next h
  · exact .next (.ite h.setHsp.hspWrite1 h)
theorem Kept.execHspWindow {b0 b1 : Byte} (h : Kept s₀ s) : OutKept s₀ (execHspWindow b0 b1 s) :=
  h.hspBegin (fun h => .ite h (.ite h.fset h.setHsp))
theorem Kept.execExtNop {x x1 : BitVec 4} (h : Kept s₀ s) : OutKept s₀ (execExtNop x x1 s) := h.hspBegin (fun h => h)
theorem Kept.execExtStatus {arg : BitVec 4} (h : Kept s₀ s) : OutKept s₀ (execExtStatus arg s) :=
  h.hspBegin (fun h => h.setHsp.when fun h => h.foldl fun h1 => h1.fset)
theorem Kept.execPresenceQuery {x : BitVec 4} (h : Kept s₀ s) : OutKept s₀ (execPresenceQuery x s) := h.hspBegin (fun h => h.setHsp)
theorem Kept.execPrivCmd {code : BitVec 4} {conf : Option Byte} (h : Kept s₀ s) : OutKept s₀ (execPrivCmd code conf s) :=
  h.hspBegin (fun h => h.setHsp)
theorem Kept.execLaneSet {arg : BitVec 4} (h : Kept s₀ s) : OutKept s₀ (execLaneSet arg s) := h.hspBegin (fun h => .ite h.setHsp h)
theorem Kept.privEffect {code : Nat} (h : Kept s₀ s) : Kept s₀ (s.privEffect code) := by
  unfold State.privEffect
  split
  · exact h.setSys
  · exact h.fset
  · exact h.zeroise.sysReset
  · exact h.setHsp
  · exact h
theorem Kept.privRun {p : PrivCmd} (h : Kept s₀ s) : Kept s₀ (s.privRun p) := h.setHsp.rsetN.raise.audit.when fun h => h.privEffect
theorem Kept.hspRoute (h : Kept s₀ s) : Kept s₀ s.hspRoute := h.setHsp
theorem Kept.hspApply (h : Kept s₀ s) : Kept s₀ s.hspApply := by
  unfold State.hspApply
  dsimp only
  refine .when ?_ fun h => h.srstPage.setHsp.hspStraps
  split
  · refine .fsetB ?_
    split
    · refine .rsetN ?_
      split
      · exact h.setHsp.rset
      · exact h.setHsp
    · split
      · exact h.setHsp.rset
      · exact h.setHsp
  · split
    · refine .rsetN ?_
      split
      · exact h.setHsp.rset
      · exact h.setHsp
    · split
      · exact h.setHsp.rset
      · exact h.setHsp
theorem Kept.hspDeassert (h : Kept s₀ s) : Kept s₀ s.hspDeassert := by
  unfold State.hspDeassert
  extract_lets t u v w
  have hu : Kept s₀ u := by
    unfold u
    split
    · exact h.setHsp.sampleStraps
    · exact h.setHsp
  have hw : Kept s₀ w := by
    unfold w
    split
    · exact hu.hspApply.privRun
    · exact hu.hspApply
  exact .ite hu hw.hspRoute
theorem Kept.execHspCsDeassert (h : Kept s₀ s) : OutKept s₀ (execHspCsDeassert s) := .next h.hspDeassert
theorem Kept.privTransaction {code : Nat} (h : Kept s₀ s) : Kept s₀ (s.privTransaction code) := by
  unfold State.privTransaction
  split
  · exact .ite h.hspDeassert h
  · exact .ite h.finc.privRun.hspRoute h
theorem Kept.execDebugUnlock (h : Kept s₀ s) : OutKept s₀ (execDebugUnlock s) := .next h.privTransaction
theorem Kept.execOwnerLockRelease (h : Kept s₀ s) : OutKept s₀ (execOwnerLockRelease s) := .next h.privTransaction
theorem Kept.execFactoryDefaults {straps : BitVec 5} (h : Kept s₀ s) : OutKept s₀ (execFactoryDefaults straps s) :=
  .next (h.privTransaction.unless fun h => h.releaseBoot)
theorem Kept.execGladeMaintenance (h : Kept s₀ s) : OutKept s₀ (execGladeMaintenance s) := .next h.privTransaction
theorem Kept.execBoundaryScan {i : ScanInstr} (h : Kept s₀ s) : OutKept s₀ (execBoundaryScan i s) := .next h.setSys
theorem Kept.dbgReturn {x : State × Reach} (h : Kept s₀ s) (hx : Kept s₀ x.1) : Kept s₀ (s.dbgReturn x) := by
  obtain ⟨t, r⟩ := x
  cases r with
  | stall => exact h
  | ok v => exact hx.withBus
  | _ => exact hx.withBus
theorem Kept.execDebugAccess {addr : Word} {size : AccSize} {w : Option Word} (h : Kept s₀ s) :
    OutKept s₀ (execDebugAccess addr size w s) := by
  refine .next (.dbgReturn h ?_)
  split
  · exact h
  · split
    · refine .iteFst h ?_
      split
      · exact h.privRead
      · exact h.privWrite
    · split
      · exact h.busLoad
      · exact h.busStore

/-! ## The operations of Machine/Dispatch.lean -/

theorem Kept.exec {i : Instr} (h : Kept s₀ s) : OutKept s₀ (exec i s) := by
  cases i with
  | slotTick => exact h.execSlotTick
  | tailrace => exact h.execTailrace
  | squashDone => exact h.execSquashDone
  | phaseCheckpoint => exact h.execPhaseCheckpoint
  | lockstepFault => exact h.execLockstepFault
  | replayEnd => exact h.execReplayEnd
  | frcVote => exact h.execFrcVote
  | appSilent => exact h.execAppSilent
  | sysStateReq => exact h.execSysStateReq
  | powerOnReset => exact h.execPowerOnReset
  | brownOutReset => exact h.execBrownOutReset
  | pinReset => exact h.execPinReset
  | sysCmdSystemReset => exact h.execSysCmdSystemReset
  | sysCmdCoreReset => exact h.execSysCmdCoreReset
  | watchdogExpiry => exact h.execWatchdogExpiry
  | wdtWarn => exact h.execWdtWarn
  | wdtKick => exact h.execWdtKick
  | hfxoLoss => exact h.execHfxoLoss
  | lfxoLoss => exact h.execLfxoLoss
  | vddLoss => exact h.execVddLoss
  | registerWrite => exact h.execRegisterWrite
  | softReset => exact h.execSoftReset
  | ownWrite => exact h.execOwnWrite
  | olockSet => exact h.execOlockSet
  | protAudIdxWrite => exact h.execProtAudIdxWrite
  | latchPairLowRead => exact h.execLatchPairLowRead
  | latchPairLowWrite => exact h.execLatchPairLowWrite
  | latchPairHighWrite => exact h.execLatchPairHighWrite
  | presenceNFilteredChange => exact h.execPresenceNFilteredChange
  | tokenGain => exact h.execTokenGain
  | tokenLapse => exact h.execTokenLapse
  | ovlLoad => exact h.execOvlLoad
  | loadDone => exact h.execLoadDone
  | applyBase => exact h.execApplyBase
  | ovlCancel => exact h.execOvlCancel
  | ovlReqGo => exact h.execOvlReqGo
  | lockSample => exact h.execLockSample
  | lossOfLock => exact h.execLossOfLock
  | rfeManWrite => exact h.execRfeManWrite
  | rfeSynManWrite => exact h.execRfeSynManWrite
  | rfeDisable => exact h.execRfeDisable
  | narrowAgcStep => exact h.execNarrowAgcStep
  | clipInterval => exact h.execClipInterval
  | rfeCalReq => exact h.execRfeCalReq
  | clearingWorkStart => exact h.execClearingWorkStart
  | calDone => exact h.execCalDone
  | calTimeout => exact h.execCalTimeout
  | tempUpdate => exact h.execTempUpdate
  | cnpEnWrite => exact h.execCnpEnWrite
  | laneArm => exact h.execLaneArm
  | searchEnd => exact h.execSearchEnd
  | preambleDetect => exact h.execPreambleDetect
  | sfdMatch => exact h.execSfdMatch
  | sfdTimeout => exact h.execSfdTimeout
  | phrParsed => exact h.execPhrParsed
  | lastBitDecoded => exact h.execLastBitDecoded
  | frameChecks => exact h.execFrameChecks
  | thresholdBlock => exact h.execThresholdBlock
  | ldpcDecodeDone => exact h.execLdpcDecodeDone
  | ackDecision => exact h.execAckDecision
  | canopyWindowReturn => exact h.execCanopyWindowReturn
  | laneDisable => exact h.execLaneDisable
  | fecDisable => exact h.execFecDisable
  | rampUp => exact h.execRampUp
  | launch => exact h.execLaunch
  | tagComplete => exact h.execTagComplete
  | splicePoint => exact h.execSplicePoint
  | frameEnd => exact h.execFrameEnd
  | rampDownEnd => exact h.execRampDownEnd
  | txmDisable => exact h.execTxmDisable
  | liveEccError => exact h.execLiveEccError
  | ackLaunch => exact h.execAckLaunch
  | mchkReq => exact h.execMchkReq
  | mchkDone => exact h.execMchkDone
  | txmTestWrite => exact h.execTxmTestWrite
  | txmFirDataAccess => exact h.execTxmFirDataAccess
  | cadEnable => exact h.execCadEnable
  | cadDisable => exact h.execCadDisable
  | cadTblchg => exact h.execCadTblchg
  | nbrChg => exact h.execNbrChg
  | cadHopDataAccess => exact h.execCadHopDataAccess
  | cadApphb => exact h.execCadApphb
  | cadLsInj => exact h.execCadLsInj
  | ackWindowOpen => exact h.execAckWindowOpen
  | ackWindowClose => exact h.execAckWindowClose
  | ackReceived => exact h.execAckReceived
  | preparationStart => exact h.execPreparationStart
  | preparationDone => exact h.execPreparationDone
  | ticketLock => exact h.execTicketLock
  | hdrCtrlWrite => exact h.execHdrCtrlWrite
  | hdrCfgWrite => exact h.execHdrCfgWrite
  | hdrTktIdxWrite => exact h.execHdrTktIdxWrite
  | trfAlloc => exact h.execTrfAlloc
  | trfFree => exact h.execTrfFree
  | trfEnq => exact h.execTrfEnq
  | trfDonePop => exact h.execTrfDonePop
  | trfRxqPop => exact h.execTrfRxqPop
  | removeHead => exact h.execRemoveHead
  | flush => exact h.execFlush
  | trfHistIdxWrite => exact h.execTrfHistIdxWrite
  | sluiceConfigWrite => exact h.execSluiceConfigWrite
  | subWindowAdvance => exact h.execSubWindowAdvance
  | dcaEnable => exact h.execDcaEnable
  | ntuStep => exact h.execNtuStep
  | ntuCancel => exact h.execNtuCancel
  | syncClr => exact h.execSyncClr
  | syncSet => exact h.execSyncSet
  | ntuFwcorr => exact h.execNtuFwcorr
  | externalCapture => exact h.execExternalCapture
  | reAnchor => exact h.execReAnchor
  | ntuRateWrite => exact h.execNtuRateWrite
  | holdover => exact h.execHoldover
  | syncLost => exact h.execSyncLost
  | lfcalWindow => exact h.execLfcalWindow
  | wakeHandoff => exact h.execWakeHandoff
  | ntuEpochWrite => exact h.execNtuEpochWrite
  | pulseStart => exact h.execPulseStart
  | pulseEnd => exact h.execPulseEnd
  | ntuPulWrite => exact h.execNtuPulWrite
  | gcoreMbsrc => exact h.execGcoreMbsrc
  | mbCopyDone => exact h.execMbCopyDone
  | mailboxWord0Read => exact h.execMailboxWord0Read
  | gpcEdge => exact h.execGpcEdge
  | gpcCapture => exact h.execGpcCapture
  | gpcCapRead => exact h.execGpcCapRead
  | gsecIncrement => exact h.execGsecIncrement
  | sealCheck => exact h.execSealCheck
  | gladeTokenChange => exact h.execGladeTokenChange
  | grantChange => exact h.execGrantChange
  | gladePowerOnReset => exact h.execGladePowerOnReset
  | gladeWatchdogExpiry => exact h.execGladeWatchdogExpiry
  | gladeWdtWarning => exact h.execGladeWdtWarning
  | gladeWdtKick => exact h.execGladeWdtKick
  | gladeWdtEnable => exact h.execGladeWdtEnable
  | gladeSelfReset => exact h.execGladeSelfReset
  | gladeBootDone => exact h.execGladeBootDone
  | glogAppend => exact h.execGlogAppend
  | glogWriteDone => exact h.execGlogWriteDone
  | gadcStart => exact h.execGadcStart
  | gadcResult => exact h.execGadcResult
  | gdspFrame => exact h.execGdspFrame
  | gdspFrameDone => exact h.execGdspFrameDone
  | maintStatus => exact h.execMaintStatus
  | maintErase => exact h.execMaintErase
  | maintProg => exact h.execMaintProg
  | maintRead => exact h.execMaintRead
  | maintCommit => exact h.execMaintCommit
  | maintExit => exact h.execMaintExit
  | maintOpDone => exact h.execMaintOpDone
  | maintTimeout => exact h.execMaintTimeout
  | nop => exact h.execNop
  | sync => exact h.execSync
  | wait => exact h.execWait
  | reti => exact h.execReti
  | svc _ _ n => exact h.execSvc (x := n)
  | ret => exact h.execRet
  | mov => exact h.execMov
  | add => exact h.execAdd
  | adc => exact h.execAdc
  | sub => exact h.execSub
  | sbc => exact h.execSbc
  | and => exact h.execAnd
  | or => exact h.execOr
  | xor => exact h.execXor
  | cmp => exact h.execCmp
  | tst => exact h.execTst
  | shl => exact h.execShl
  | shr => exact h.execShr
  | sar => exact h.execSar
  | ror => exact h.execRor
  | neg => exact h.execNeg
  | not => exact h.execNot
  | muls => exact h.execMuls
  | mulu => exact h.execMulu
  | macs => exact h.execMacs
  | macu => exact h.execMacu
  | mul32s => exact h.execMul32s
  | mul32u => exact h.execMul32u
  | clracc => exact h.execClracc
  | multiplyLands => exact h.execMultiplyLands
  | movsFromSpecial => exact h.execMovsFromSpecial
  | movsToSpecial => exact h.execMovsToSpecial
  | ld => exact h.execLd
  | lea => exact h.execLea
  | st => exact h.execSt
  | push => exact h.execPush
  | pop => exact h.execPop
  | cpy => exact h.execCpy
  | fill => exact h.execFill
  | scan => exact h.execScan
  | macsm => exact h.execMacsm
  | macum => exact h.execMacum
  | br => exact h.execBr
  | call => exact h.execCall
  | jmp => exact h.execJmp
  | callr => exact h.execCallr
  | dbnz => exact h.execDbnz
  | bset => exact h.execBset
  | bclr => exact h.execBclr
  | btst => exact h.execBtst
  | clz => exact h.execClz
  | illegalEncoding => exact h.execIllegalEncoding
  | fetchBusError => exact h.execFetchBusError
  | exceptionEntry => exact h.execExceptionEntry
  | cacheInv => exact h.execCacheInv
  | icacheInvalidateAll => exact h.execIcacheInvalidateAll
  | dcacheInvalidateAll => exact h.execDcacheInvalidateAll
  | invalidationDone => exact h.execInvalidationDone
  | dbgHalt => exact h.execDbgHalt
  | dbgResume => exact h.execDbgResume
  | dbgStep => exact h.execDbgStep
  | dbgRegDataAccess => exact h.execDbgRegDataAccess
  | breakpointMatch => exact h.execBreakpointMatch
  | flcKeyWrite => exact h.execFlcKeyWrite
  | prog => exact h.execProg
  | eraseBlk => exact h.execEraseBlk
  | suspend => exact h.execSuspend
  | eraseSuspended => exact h.execEraseSuspended
  | flcResume => exact h.execFlcResume
  | setSlc => exact h.execSetSlc
  | marginRd => exact h.execMarginRd
  | clrStat => exact h.execClrStat
  | flashOpDone => exact h.execFlashOpDone
  | flcWpWrite => exact h.execFlcWpWrite
  | flcDisable => exact h.execFlcDisable
  | dmaChannelEnable => exact h.execDmaChannelEnable
  | dmaDisable => exact h.execDmaDisable
  | dmaRequest => exact h.execDmaRequest
  | dmaBeat => exact h.execDmaBeat
  | bankClearDone => exact h.execBankClearDone
  | sysSramUseWrite => exact h.execSysSramUseWrite
  | ciphKeyIdxWrite => exact h.execCiphKeyIdxWrite
  | keyCommit => exact h.execKeyCommit
  | keyAttr => exact h.execKeyAttr
  | keyFc => exact h.execKeyFc
  | keyErase => exact h.execKeyErase
  | zeroise => exact h.execZeroise
  | cipuStart => exact h.execCipuStart
  | cipuAbort => exact h.execCipuAbort
  | takeFc => exact h.execTakeFc
  | cipuDinWrite => exact h.execCipuDinWrite
  | cipuDoutRead => exact h.execCipuDoutRead
  | cipuJobDone => exact h.execCipuJobDone
  | updStart => exact h.execUpdStart
  | loadTestDone => exact h.execLoadTestDone
  | firstPassDone => exact h.execFirstPassDone
  | segmentDone => exact h.execSegmentDone
  | imageHashDone => exact h.execImageHashDone
  | updPause => exact h.execUpdPause
  | updResume => exact h.execUpdResume
  | activate => exact h.execActivate
  | activateDone => exact h.execActivateDone
  | accept => exact h.execAccept
  | updAbort => exact h.execUpdAbort
  | updDisable => exact h.execUpdDisable
  | tmrTick => exact h.execTmrTick
  | compareFiring => exact h.execCompareFiring
  | tmrCountWrite => exact h.execTmrCountWrite
  | tmrReloadWrite => exact h.execTmrReloadWrite
  | tmrCmpWrite => exact h.execTmrCmpWrite
  | tmrEnable => exact h.execTmrEnable
  | tmrDisable => exact h.execTmrDisable
  | tmrCapture => exact h.execTmrCapture
  | tmrCapRead => exact h.execTmrCapRead
  | tmrStartEvent => exact h.execTmrStartEvent
  | tmrResetEvent => exact h.execTmrResetEvent
  | rtcSecond => exact h.execRtcSecond
  | rtcSet => exact h.execRtcSet
  | rtcSetLoad => exact h.execRtcSetLoad
  | rtcCalCorrection => exact h.execRtcCalCorrection
  | rtcShadowRead => exact h.execRtcShadowRead
  | shadowTimeout => exact h.execShadowTimeout
  | rtcUnlock => exact h.execRtcUnlock
  | vddStable => exact h.execVddStable
  | rtcAlarmWrite => exact h.execRtcAlarmWrite
  | backupSwitch => exact h.execBackupSwitch
  | backupRetentionLoss => exact h.execBackupRetentionLoss
  | entryAbort => exact h.execEntryAbort
  | excursionStart => exact h.execExcursionStart
  | wake => exact h.execWake
  | bodWarn => exact h.execBodWarn
  | avsUpdate => exact h.execAvsUpdate
  | avsClkReq => exact h.execAvsClkReq
  | clkTrimWrite => exact h.execClkTrimWrite
  | hfxoStable => exact h.execHfxoStable
  | syspllLock => exact h.execSyspllLock
  | producerEvent => exact h.execProducerEvent
  | culSwtrig => exact h.execCulSwtrig
  | culChenWrite => exact h.execCulChenWrite
  | routingFault => exact h.execRoutingFault
  | culExit => exact h.execCulExit
  | hspRead => exact h.execHspRead
  | hspWrite => exact h.execHspWrite
  | hspWindow => exact h.execHspWindow
  | extNop x y => exact h.execExtNop (x := x) (x1 := y)
  | extStatus => exact h.execExtStatus
  | presenceQuery x => exact h.execPresenceQuery (x := x)
  | privCmd => exact h.execPrivCmd
  | laneSet => exact h.execLaneSet
  | hspCsDeassert => exact h.execHspCsDeassert
  | debugUnlock => exact h.execDebugUnlock
  | ownerLockRelease => exact h.execOwnerLockRelease
  | factoryDefaults => exact h.execFactoryDefaults
  | gladeMaintenance => exact h.execGladeMaintenance
  | postedWriteDone => exact h.execPostedWriteDone
  | pspGo => exact h.execPspGo
  | pspStop => exact h.execPspStop
  | pspTxdWrite => exact h.execPspTxdWrite
  | pspRxdRead => exact h.execPspRxdRead
  | pspPause => exact h.execPspPause
  | pspFifoResume => exact h.execPspFifoResume
  | pspTransferEnd => exact h.execPspTransferEnd
  | tstBistReq => exact h.execTstBistReq
  | bistBankDone => exact h.execBistBankDone
  | lbist => exact h.execLbist
  | rramBist => exact h.execRramBist
  | selfTestDone => exact h.execSelfTestDone
  | tstCapReq => exact h.execTstCapReq
  | captureDone => exact h.execCaptureDone
  | gpioEvent => exact h.execGpioEvent
  | adcStart => exact h.execAdcStart
  | adcResult => exact h.execAdcResult
  | adcResRead => exact h.execAdcResRead
  | headEnd => exact h.execHeadEnd
  | ldpcCodewordReceived => exact h.execLdpcCodewordReceived
  | ackBuildDone => exact h.execAckBuildDone
  | slewEnd => exact h.execSlewEnd
  | lfxoEdgesReturn => exact h.execLfxoEdgesReturn
  | rtcLockout => exact h.execRtcLockout
  | bodWarnClear => exact h.execBodWarnClear
  | resetRelease => exact h.execResetRelease
  | boundaryScan => exact h.execBoundaryScan
  | debugAccess => exact h.execDebugAccess

/-! ## The step -/

theorem OutKept.ofNext {o : Host.Outcome State Fault Refusal} {t : State} (ho : OutKept s₀ o) (e : o = .next t) : Kept s₀ t := by
  subst e; cases ho; assumption

/-- A command taken from the queue leaves the rest of the queue, and the stores canonical. -/
theorem exec_front_kept {c : Instr} {l : List Instr} {t : State} (e : exec c { s with pending := l } = .next t) :
    t.pending = l ∧ (Canonical s → Canonical t) :=
  (Kept.refl { s with pending := l }).exec.ofNext e

/-- Settles O3: a step is idle or a command, and a command keeps `Kept`. -/
theorem canonicalKept : Obligations.CanonicalKept := by
  unfold Obligations.CanonicalKept step
  intro s t hs e
  split at e
  · cases e
    exact hs
  · exact (exec_front_kept e).2 hs

end Sys2Proof.Machine
end

section
/-!
READING AFTER WRITING, CONTINUED. A field or a register after each way of writing another one, and after events.
-/
namespace Sys2Proof.Machine
open Sys2Proof

/-! ## Fields -/

theorem fget_rset_ne (s : State) (a : Nat) (v : Word) (g : Fld) (h : g.addr ≠ a) : (s.rset a v).fget g = s.fget g := by
  unfold State.fget
  rw [rget_rset_ne s v h]
theorem fget_rsetN_ne (s : State) (a v : Nat) (g : Fld) (h : g.addr ≠ a) : (s.rsetN a v).fget g = s.fget g := fget_rset_ne s a _ g h
theorem fget_rsetN_self (s : State) (v : Nat) (g : Fld) : (s.rsetN g.addr v).fget g = fieldGet (v % 2 ^ 32) g := by
  unfold State.rsetN State.fget
  rw [rget_rset_self, BitVec.toNat_ofNat]
theorem fget_finc_apart (s : State) (f g : Fld) (hf : f.lo + f.width ≤ 32)
    (h : g.addr ≠ f.addr ∨ g.lo + g.width ≤ f.lo ∨ f.lo + f.width ≤ g.lo) : (s.finc f).fget g = s.fget g :=
  fget_fset_apart s f g _ hf h
theorem fget_raise_apart (s : State) (p b : Nat) (g : Fld) (hb : b < 32)
    (h : g.addr ≠ (INT_RAW.bit p b).addr ∨ g.lo + g.width ≤ b ∨ b + 1 ≤ g.lo) : (s.raise p b).fget g = s.fget g :=
  fget_fset_apart s (INT_RAW.bit p b) g 1 (by simp only [INT_RAW.bit]; omega) h
theorem fget_raise_self (s : State) (p b : Nat) (hb : b < 32) : (s.raise p b).fget (INT_RAW.bit p b) = 1 :=
  fget_fset_self s (INT_RAW.bit p b) 1 (by simp only [INT_RAW.bit]; omega)

/-! ## Registers -/

theorem rget_rsetN_ne (s : State) (a v : Nat) (b : Nat) (h : b ≠ a) : (s.rsetN a v).rget b = s.rget b := rget_rset_ne s _ h
theorem raw_rsetN_self (s : State) (a v : Nat) : (s.rsetN a v).raw a = v % 2 ^ 32 := by
  unfold State.raw State.rsetN
  rw [rget_rset_self, BitVec.toNat_ofNat]
theorem rget_finc_ne (s : State) (f : Fld) (a : Nat) (h : a ≠ f.addr) : (s.finc f).rget a = s.rget a := rget_fset_ne s f _ a h
theorem rget_raise_ne (s : State) (p b a : Nat) (h : a ≠ (INT_RAW.bit p b).addr) : (s.raise p b).rget a = s.rget a :=
  rget_fset_ne s (INT_RAW.bit p b) 1 a h

/-! ## Events -/

theorem rget_event (s : State) (p b e a : Nat) (h : pageOf a ∉ eventPages) : (s.event p b e).rget a = s.rget a :=
  (event_only s p b e).off a h
theorem fget_event (s : State) (p b e : Nat) (g : Fld) (h : pageOf g.addr ∉ eventPages) : (s.event p b e).fget g = s.fget g := by
  unfold State.fget
  rw [rget_event s p b e g.addr h]

/-! ## Parts beside the registers -/

@[simp] theorem fget_setPwr (s : State) (f : PwrS → PwrS) (g : Fld) : (s.setPwr f).fget g = s.fget g := rfl
@[simp] theorem fget_setHsp (s : State) (f : HspState → HspState) (g : Fld) : (s.setHsp f).fget g = s.fget g := rfl
@[simp] theorem fget_setNtu (s : State) (f : NtuState → NtuState) (g : Fld) : (s.setNtu f).fget g = s.fget g := rfl
@[simp] theorem rget_setCad (s : State) (f : CadState → CadState) (a : Nat) : (s.setCad f).rget a = s.rget a := rfl
@[simp] theorem rget_setSys (s : State) (f : SysS → SysS) (a : Nat) : (s.setSys f).rget a = s.rget a := rfl
@[simp] theorem rget_setHsp (s : State) (f : HspState → HspState) (a : Nat) : (s.setHsp f).rget a = s.rget a := rfl
@[simp] theorem rget_setNtu (s : State) (f : NtuState → NtuState) (a : Nat) : (s.setNtu f).rget a = s.rget a := rfl

/-! ## Pages -/


/-- A write inside the pages leaves the registers outside them. -/
theorem regsOff_rset {l : List Nat} {s t : State} (h : RegsOff (onPages l) s t) (a : Nat) (v : Word) (ha : onPages l a = true) :
    RegsOff (onPages l) s (t.rset a v) := by
  intro b hb
  rw [rget_rset_ne t v (by rintro rfl; simp [ha] at hb), h b hb]
theorem regsOff_fset {l : List Nat} {s t : State} (h : RegsOff (onPages l) s t) (f : Fld) (x : Nat) (hf : onPages l f.addr = true) :
    RegsOff (onPages l) s (t.fset f x) :=
  regsOff_rset h f.addr _ hf

theorem pagesOnly_fset {l : List Nat} {s t : State} (h : PagesOnly l s t) (f : Fld) (x : Nat) (hf : onPages l f.addr = true) :
    PagesOnly l s (t.fset f x) :=
  ⟨congrArg (·.fset f x) h.1, regsOff_fset h.2 f x hf⟩
theorem pagesOnly_rset {l : List Nat} {s t : State} (h : PagesOnly l s t) (a : Nat) (v : Word) (ha : onPages l a = true) :
    PagesOnly l s (t.rset a v) :=
  ⟨congrArg (·.rset a v) h.1, regsOff_rset h.2 a v ha⟩
theorem pagesOnly_refl (l : List Nat) (s : State) : PagesOnly l s s := ⟨rfl, fun _ _ => rfl⟩

end Sys2Proof.Machine
end

section
/-!
WHAT THE RADIO'S WORK LEAVES ALONE. The work of a slot, of the Headrace, of the traffic scheduler and of the Culvert changes neither the
clock nor the state of the system, network time, the keys or the Glade, nor some registers: `State.still` gathers these, and one lemma
`Calm.<operation>` says of each such operation that it keeps them.
-/
namespace Sys2Proof.Machine
open Sys2Proof
set_option Elab.async false

/-- Registers that the radio's work does not write. -/
def stillRegs : List Nat :=
  [SYS_STAT.addr, SYS_RSTCAUSE.addr, SYS_BOOT.addr, NTU_EPOCH_LO.addr, NTU_EPOCH_HI.addr, NTU_RATE.addr, NTU_CNT.addr, CAD_TMPL0.addr,
    CAD_CTRL.addr]

/-- The parts of the state that the radio's work leaves alone. Of network time the pulse outputs are left out. -/
structure Still where
  now : Nat
  sys : SysS
  power : PwrState
  home : PwrState
  exc : Bool
  ovl : OvlState
  ntu : NtuState
  keys : List KeySlot
  glade : Glade
  /-- No slot is in progress. -/
  idle : Bool
  stopping : Bool
  silentNow : Bool
  regs : List Word

def State.still (s : State) : Still :=
  { now := s.now, sys := s.sys, power := s.pwr.st, home := s.pwr.home, exc := s.pwr.exc, ovl := s.ovl
    ntu := { s.ntu with pulseOn := [], armed := [] }, keys := s.keys, glade := s.glade
    idle := s.slot.isNone, stopping := s.cad.stopping, silentNow := s.cad.silentNow, regs := stillRegs.map s.rget }

/-- The still parts of `s` are `x`. -/
structure Calm (x : Still) (s : State) : Prop where
  eq : s.still = x

/-- The state that an outcome may lack has the still parts `x`. -/
inductive OptCalm (x : Still) : Option State → Prop where
  | some {t : State} (h : Calm x t) : OptCalm x (some t)
  | none : OptCalm x none

variable {x : Still} {s : State}

theorem Calm.refl (s : State) : Calm s.still s := ⟨rfl⟩

/-! ## Branches and loops -/

section
variable {α β : Type} {c : Prop} {d : Decidable c}

protected theorem Calm.ite {a b : State} (ha : Calm x a) (hb : Calm x b) : Calm x (@ite _ c d a b) := by split <;> assumption
protected theorem Calm.iteSnd {a b : α × State} (ha : Calm x a.2) (hb : Calm x b.2) : Calm x (@ite _ c d a b).2 := by split <;> assumption
protected theorem OptCalm.ite {a b : Option State} (ha : OptCalm x a) (hb : OptCalm x b) : OptCalm x (@ite _ c d a b) := by
  split <;> assumption
/-- Something is done to a state when a condition holds. -/
theorem Calm.when {t : State} (h : Calm x s) (hf : Calm x s → Calm x t) : Calm x (@ite _ c d t s) := .ite (hf h) h
/-- Something is done to a state unless a condition holds. -/
theorem Calm.unless {t : State} (h : Calm x s) (hf : Calm x s → Calm x t) : Calm x (@ite _ c d s t) := .ite h (hf h)

theorem Calm.foldl {f : State → α → State} {l : List α} (h : Calm x s) (hf : ∀ {t y}, Calm x t → Calm x (f t y)) :
    Calm x (l.foldl f s) := by
  induction l generalizing s with
  | nil => exact h
  | cons y l ih => exact ih (hf h)

theorem Calm.foldlFst {f : State × β → α → State × β} {l : List α} {r : State × β} (h : Calm x r.1)
    (hf : ∀ {t y}, Calm x t.1 → Calm x (f t y).1) : Calm x (l.foldl f r).1 := by
  induction l generalizing r with
  | nil => exact h
  | cons y l ih => exact ih (hf h)

theorem Calm.foldr {f : α → State → State} {l : List α} (h : Calm x s) (hf : ∀ {y t}, Calm x t → Calm x (f y t)) :
    Calm x (l.foldr f s) := by
  induction l with
  | nil => exact h
  | cons y l ih => exact hf ih

theorem Calm.ofSnd {p : α × State} {t : State} {y : α} (h : Calm x p.2) (e : p = (y, t)) : Calm x t := by subst e; exact h

theorem OptCalm.getD {o : Option State} (ho : OptCalm x o) (h : Calm x s) : Calm x (o.getD s) := by
  cases ho with
  | some ht => exact ht
  | none => exact h
end

/-! ## Parts of the state beside the still ones -/

theorem Calm.withFreeCtr {v : Nat} (h : Calm x s) : Calm x { s with freeCtr := v } := ⟨h.eq⟩
theorem Calm.withBus {v : BusState} (h : Calm x s) : Calm x { s with bus := v } := ⟨h.eq⟩
theorem Calm.withRfe {v : RfeState} (h : Calm x s) : Calm x { s with rfe := v } := ⟨h.eq⟩
theorem Calm.withLanes {v : List Lane} (h : Calm x s) : Calm x { s with lanes := v } := ⟨h.eq⟩
theorem Calm.withFec {v : FecState} (h : Calm x s) : Calm x { s with fec := v } := ⟨h.eq⟩
theorem Calm.withTrf {v : TrfState} (h : Calm x s) : Calm x { s with trf := v } := ⟨h.eq⟩
theorem Calm.withHdr {v : HdrState} (h : Calm x s) : Calm x { s with hdr := v } := ⟨h.eq⟩
theorem Calm.withPhase {v : Phase} (h : Calm x s) : Calm x { s with phase := v } := ⟨h.eq⟩
theorem Calm.withTxm {v : TxmState} (h : Calm x s) : Calm x { s with txm := v } := ⟨h.eq⟩
theorem Calm.withFlash {v : FlashState} (h : Calm x s) : Calm x { s with flash := v } := ⟨h.eq⟩
theorem Calm.withMemst {v : MemState} (h : Calm x s) : Calm x { s with memst := v } := ⟨h.eq⟩
theorem Calm.withMem {v : List Host.Cell} (h : Calm x s) : Calm x { s with mem := v } := ⟨h.eq⟩
theorem Calm.withCad {v : CadState} (h : Calm x s) (hs : v.stopping = s.cad.stopping := by rfl)
    (hn : v.silentNow = s.cad.silentNow := by rfl) : Calm x { s with cad := v } := by
  refine ⟨.trans ?_ h.eq⟩
  unfold State.still
  rw [← hs, ← hn]
  rfl
theorem Calm.mapSlot {f : Slot → Slot} (h : Calm x s) : Calm x { s with slot := s.slot.map f } := by
  refine ⟨.trans ?_ h.eq⟩
  unfold State.still
  rw [Option.isNone_map]
  rfl

/-! ## Registers and events -/

theorem Calm.rset {a : Nat} {v : Word} (h : Calm x s) (ha : a ∉ stillRegs := by decide) : Calm x (s.rset a v) := by
  have e : stillRegs.map (s.rset a v).rget = stillRegs.map s.rget :=
    List.map_congr_left fun b hb => rget_rset_ne s v (by rintro rfl; exact ha hb)
  refine ⟨.trans ?_ h.eq⟩
  unfold State.still
  rw [e]
  rfl
theorem Calm.rsetN {a v : Nat} (h : Calm x s) (ha : a ∉ stillRegs := by decide) : Calm x (s.rsetN a v) := h.rset ha
theorem Calm.fset {f : Fld} {v : Nat} (h : Calm x s) (hf : f.addr ∉ stillRegs := by decide) : Calm x (s.fset f v) := h.rset hf
theorem Calm.fsetB {f : Fld} {b : Bool} (h : Calm x s) (hf : f.addr ∉ stillRegs := by decide) : Calm x (s.fsetB f b) := h.rset hf
theorem Calm.fsetI {f : Fld} {v : Int} (h : Calm x s) (hf : f.addr ∉ stillRegs := by decide) : Calm x (s.fsetI f v) := h.rset hf
theorem Calm.fadd {f : Fld} {n : Nat} (h : Calm x s) (hf : f.addr ∉ stillRegs := by decide) : Calm x (s.fadd f n) := h.rset hf
theorem Calm.finc {f : Fld} (h : Calm x s) (hf : f.addr ∉ stillRegs := by decide) : Calm x (s.finc f) := h.rset hf

theorem not_still {a : Nat} (h : a ≠ 0x40000008 ∧ a ≠ 0x40000044 ∧ a ≠ 0x4000004C ∧ a ≠ 0x40021098 ∧ a ≠ 0x4002109C ∧ a ≠ 0x40021060
    ∧ a ≠ 0x400210B0 ∧ a ≠ 0x4001B040 ∧ a ≠ 0x4001B004) : a ∉ stillRegs := by
  obtain ⟨h1, h2, h3, h4, h5, h6, h7, h8, h9⟩ := h
  simp [stillRegs, SYS_STAT.addr, SYS_RSTCAUSE.addr, SYS_BOOT.addr, NTU_EPOCH_LO.addr, NTU_EPOCH_HI.addr, NTU_RATE.addr, NTU_CNT.addr,
    CAD_TMPL0.addr, CAD_CTRL.addr, *]
/-- None of the registers has the offset of INT_RAW. -/
theorem intRaw_not_still (p b : Nat) : (INT_RAW.bit p b).addr ∉ stillRegs := by
  refine not_still ?_
  simp only [INT_RAW.bit, pageAddr]
  omega
theorem Calm.raise {p b : Nat} (h : Calm x s) : Calm x (s.raise p b) := h.rset (intRaw_not_still p b)

theorem Calm.events {t : State} (h : Calm x s) (e : EventsOnly s t) : Calm x t := by
  have er : stillRegs.map t.rget = stillRegs.map s.rget := by
    refine List.map_congr_left fun a ha => e.off a ?_
    revert a
    decide
  refine ⟨.trans ?_ h.eq⟩
  unfold State.still
  rw [er, e.eq]
theorem Calm.publishAll {ps : List Nat} (h : Calm x s) : Calm x (s.publishAll ps) := h.events (publishAll_only s ps)
theorem Calm.event {p b e : Nat} (h : Calm x s) : Calm x (s.event p b e) := h.events (event_only s p b e)

/-- A lane's registers lie above those of SYS, at other offsets than those of NTU and CAD. -/
theorem laneReg_not_still (n o : Nat) (ho : o < 0x1000) (h : o ∉ [0x004, 0x040, 0x060, 0x098, 0x09C, 0x0B0]) :
    0x40009000 + o + 0x1000 * n ∉ stillRegs := by
  simp only [List.mem_cons, List.not_mem_nil, or_false, not_or] at h
  refine not_still ?_
  omega

/-! ## Memory (R331, R334) -/

theorem Calm.setBytes {a n v : Nat} (h : Calm x s) : Calm x (s.setBytes a n v) := by
  rw [setBytes_eq]
  exact h.withMem
theorem Calm.setMemst {f : MemState → MemState} (h : Calm x s) : Calm x (s.setMemst f) := h.withMemst
theorem Calm.eccFix {a : Nat} (h : Calm x s) : Calm x (s.eccFix a) := h.setMemst
theorem Calm.eccCheck {a : Nat} (h : Calm x s) : Calm x (s.eccCheck a).1 := by
  unfold State.eccCheck
  split
  · exact h
  · exact h.eccFix.finc (by split <;> decide)
  · exact (h.finc (by split <;> decide)).rsetN
theorem Calm.eccSweep {p : Nat → Bool} (h : Calm x s) : Calm x (s.eccSweep p).1 := h.foldlFst fun h => h.eccCheck
theorem Calm.fabricSet {a v : Nat} (h : Calm x s) : Calm x (s.fabricSet a v) := h.eccCheck.unless fun h => h.setBytes
theorem Calm.mset {a lo w v : Nat} (h : Calm x s) : Calm x (s.mset a lo w v) := h.fabricSet

/-! ## Pool, neighbours, lanes -/

theorem Calm.setTrf {f : TrfState → TrfState} (h : Calm x s) : Calm x (s.setTrf f) := h.withTrf
theorem Calm.setRfe {f : RfeState → RfeState} (h : Calm x s) : Calm x (s.setRfe f) := h.withRfe
theorem Calm.setHdr {f : HdrState → HdrState} (h : Calm x s) : Calm x (s.setHdr f) := h.withHdr
theorem Calm.freeStep (h : Calm x s) : Calm x s.freeStep := h.withFreeCtr
theorem Calm.setQueue {q : Nat} {l : List Nat} (h : Calm x s) : Calm x (s.setQueue q l) := h.setTrf
theorem Calm.descSet {c word lo w v : Nat} (h : Calm x s) : Calm x (s.descSet c word lo w v) := h.mset
theorem Calm.freeChain {cs : List Nat} (h : Calm x s) : Calm x (s.freeChain cs) := h.withTrf
theorem Calm.nbrSet {n word lo w v : Nat} (h : Calm x s) : Calm x (s.nbrSet n word lo w v) := h.mset
theorem Calm.guardUpdate {n asn : Nat} (h : Calm x s) : Calm x (s.guardUpdate n asn) := by
  unfold State.guardUpdate
  dsimp only
  refine .when ?_ fun h => h.nbrSet.raise.event
  split
  · exact .ite (h.nbrSet.nbrSet.finc.raise.event.when fun h => h.raise) h.nbrSet
  · exact h.nbrSet

theorem Calm.setLane {n : Nat} {l : Lane} (h : Calm x s) : Calm x (s.setLane n l) := h.withLanes
theorem Calm.fecFill (h : Calm x s) : Calm x s.fecFill := by
  refine h.foldl fun h => ?_
  split
  · exact h.withFec
  · exact h
theorem Calm.laneDrop {n : Nat} (h : Calm x s) : Calm x (s.laneDrop n) := h.freeChain.setLane.withFec.fecFill.when fun h => h.fset
theorem Calm.laneTo {n st : Nat} (h : Calm x s) : Calm x (s.laneTo n st) := h.fset (laneReg_not_still n 0x008 (by decide) (by decide))
theorem Calm.laneAbort {n cause : Nat} (h : Calm x s) : Calm x (s.laneAbort n cause) :=
  .ite h ((h.when fun h => h.finc).fset (laneReg_not_still n 0x008 (by decide) (by decide))
    |>.fset (laneReg_not_still n 0x008 (by decide) (by decide)) |>.finc (laneReg_not_still n 0x064 (by decide) (by decide))
    |>.fset (laneReg_not_still n 0x020 (by decide) (by decide))).raise.laneDrop.laneTo
theorem Calm.laneStop {n : Nat} (h : Calm x s) : Calm x (s.laneStop n) := h.laneAbort.laneTo.setLane
theorem Calm.windowShut (h : Calm x s) : Calm x s.windowShut := (h.when fun h => h.fset.fset.fset).fset.withRfe

/-! ## Transmitter, tickets, duty cycle -/

theorem Calm.setTicket {e : Nat} {t : Option Ticket} (h : Calm x s) : Calm x (s.setTicket e t) := h.withHdr
theorem Calm.txAbort {cause : Nat} (h : Calm x s) : Calm x (s.txAbort cause) := by
  unfold State.txAbort
  split
  · exact h
  · exact .ite h (.ite h.withTxm
      ((h.withTxm.mapSlot.fset.fset.finc.fset.fset.raise.when fun h => h.fset.raise).when fun h => h.fset))

theorem Calm.dwellTrack {n f : Nat} (h : Calm x s) : OptCalm x (s.dwellTrack n f) := .ite (.some h) (.ite .none (.some h.setTrf))
theorem Calm.dutyNote (h : Calm x s) : Calm x s.dutyNote := h.fset.when fun h => h.raise.event
theorem Calm.dutyCharge {f a : Nat} (h : Calm x s) : Calm x (s.dutyCharge f a) := by
  unfold State.dutyCharge
  split
  · exact h
  · split
    · exact h
    · exact (Calm.ite (h.setTrf.dwellTrack.getD h.setTrf).setTrf h.setTrf).dutyNote

/-! ## Squashes (R216 to R220) -/

theorem Calm.weirUndo {w : WeirUse} (h : Calm x s) : Calm x (s.weirUndo w) := h.withTrf
theorem sqCause_not_still (c : SqCause) : c.fld.addr ∉ stillRegs := by cases c <;> decide
theorem Calm.squash {cause : SqCause} {locked : Bool} {roots : List Nat} (h : Calm x s) : Calm x (s.squash cause locked roots) :=
  .ite h ((h.finc (sqCause_not_still cause)).when fun h => h.fset).withHdr
theorem Calm.squashWhere {cause : SqCause} {locked : Bool} {p : Ticket → Bool} (h : Calm x s) : Calm x (s.squashWhere cause locked p) :=
  h.squash
theorem Calm.undoDemotion {d : Demotion} (h : Calm x s) : Calm x (s.undoDemotion d) := by
  unfold State.undoDemotion
  split
  · exact h
  · dsimp only
    refine .when ?_ fun h => h.fset
    split
    · exact h.setQueue.setQueue.descSet.weirUndo
    · exact h.setQueue.setQueue.descSet
theorem Calm.undoTicket {e : Nat} (h : Calm x s) : Calm x (s.undoTicket e) := by
  unfold State.undoTicket
  split
  · exact h
  · refine .finc (.when (.when (.foldr ?_ fun h => h.undoDemotion) fun h => h.finc) fun h => h.withHdr)
    split
    · exact h.setTicket.dutyNote.weirUndo
    · exact h.setTicket.dutyNote
theorem Calm.squashEnd {dur : Nat} (h : Calm x s) : Calm x (s.squashEnd dur) :=
  .ite h (h.foldl fun h => h.undoTicket).withHdr.fset.fset.fset.raise.event
theorem Calm.squashNow (h : Calm x s) : Calm x s.squashNow := h.freeStep.squashEnd

/-! ## Eligibility (R210, R211, R230) -/

theorem Calm.unprepReport {q c cause asn : Nat} (h : Calm x s) : Calm x (s.unprepReport q c cause asn) :=
  .ite h (h.setTrf.fset.finc.raise.rsetN.when fun h => h.fset.raise.rsetN)
theorem Calm.consider (h : Calm x s) : Calm x s.consider := h.setTrf
theorem Calm.admitLaunch {asn cls id fine : Nat} {ackReq : Bool} {cand : Cand} (h : Calm x s) :
    Calm x (s.admitLaunch asn cls id fine ackReq cand).2 :=
  .iteSnd (.iteSnd h h.setTrf.finc.raise) (.iteSnd (.iteSnd h h.setTrf.finc) h)
theorem Calm.judge1 {cand : Cand} {asn q c : Nat} (h : Calm x s) : Calm x (s.judge1 cand asn q c).2 := by
  unfold State.judge1
  split
  · exact h
  · split
    · exact h.unprepReport
    · split
      · next e => exact h.admitLaunch.ofSnd e
      · next e => exact h.admitLaunch.ofSnd e
theorem Calm.firstEligible {cand : Cand} {asn : Nat} {l : List (Nat × Nat)} (h : Calm x s) : Calm x (s.firstEligible cand asn l).2 := by
  induction l generalizing s with
  | nil => exact h
  | cons y l ih =>
    unfold State.firstEligible
    split
    · next e => exact h.judge1.ofSnd e
    · next e => exact ih (h.judge1.ofSnd e)
theorem Calm.eligible {cand : Cand} {asn : Nat} (h : Calm x s) : Calm x (s.eligible cand asn).2 := by
  unfold State.eligible
  split
  · exact h
  · split
    · next e => exact h.firstEligible.ofSnd e
    · next e =>
      have h := h.firstEligible.ofSnd e
      split
      · exact h
      · split
        · next e => exact h.admitLaunch.ofSnd e
        · next e => exact h.admitLaunch.ofSnd e

end Sys2Proof.Machine
end

section
/-!
NETWORK TIME IS CONTINUOUS (O34). NT is compared modulo 2^64; the passing of time, the re-anchoring, a rate and an explicit step each have
one lemma that says what they do to it.
-/
namespace Sys2Proof.Machine
open Sys2Proof
set_option Elab.async false

/-! ## Two's complement fields -/

theorem toField_eq_of_modEq {w : Nat} {a b : Int} (h : a ≡ b [ZMOD ((2 ^ w : Nat) : Int)]) : toField w a = toField w b := by
  unfold toField
  rw [h]

theorem toField_modEq (w : Nat) (a : Int) : (toField w a : Int) ≡ a [ZMOD ((2 ^ w : Nat) : Int)] := by
  unfold toField
  rw [Int.toNat_of_nonneg (Int.emod_nonneg _ (by positivity))]
  exact Int.mod_modEq a _

theorem signed_toNat {w : Nat} (b : BitVec w) (hw : 0 < w) : signed w b.toNat = b.toInt := by
  have hp : 2 ^ w = 2 * 2 ^ (w - 1) := by rw [← pow_succ', Nat.sub_add_cancel hw]
  unfold signed
  rw [Nat.mod_eq_of_lt b.isLt, BitVec.toInt_eq_toNat_cond]
  simp only [hp, Nat.mul_lt_mul_left (a := 2) two_pos]

theorem signed_toField (c : Int) (hlo : -2 ^ 31 ≤ c) (hhi : c < 2 ^ 31) : signed 32 (toField 32 c) = c := by
  unfold signed toField
  split <;> omega

/-- What a 64-bit sum means as a number, modulo 2^64. -/
theorem toInt_add_ofInt (o : BitVec 64) (d : Int) : (o + BitVec.ofInt 64 d).toInt ≡ o.toInt + d [ZMOD ((2 ^ 64 : Nat) : Int)] := by
  rw [BitVec.toInt_add, BitVec.toInt_ofInt]
  refine (Int.ModEq.trans (Int.bmod_emod ..) ?_)
  exact Int.ModEq.add_left _ (Int.bmod_emod ..)

/-! ## NT and its parts (R257) -/

theorem nt_eq (s : State) : s.nt = toField 64 (s.frcN + s.ntu.offset.toInt + s.rateTerm s.frcN) := by
  unfold State.nt State.ntAt State.rateTerm
  rw [signed_toNat _ (by decide)]

theorem rate_congr {s t : State} (h : t.rget NTU_RATE.addr = s.rget NTU_RATE.addr) : t.rate = s.rate := by
  unfold State.rate State.raw
  rw [h]

/-- NT is a function of four counters of the NTU and RATE. -/
theorem nt_of_counters {s t : State} (ho : t.ntu.offset = s.ntu.offset) (hf : t.ntu.frc = s.ntu.frc) (ha : t.ntu.anchor = s.ntu.anchor)
    (hc : t.ntu.frac = s.ntu.frac) (hr : t.rget NTU_RATE.addr = s.rget NTU_RATE.addr) : t.nt = s.nt := by
  rw [nt_eq, nt_eq]
  unfold State.frcN State.rateTerm
  rw [ho, hf, ha, hc, rate_congr hr]
theorem nt_congr {s t : State} (hn : t.ntu = s.ntu) (hr : t.rget NTU_RATE.addr = s.rget NTU_RATE.addr) : t.nt = s.nt :=
  nt_of_counters (by rw [hn]) (by rw [hn]) (by rw [hn]) (by rw [hn]) hr

/-- At its own anchor the rate term is 0, whatever the rate. -/
theorem nt_anchored {s : State} (ha : s.ntu.anchor = s.ntu.frc) (hf : s.ntu.frac < 2 ^ 40) :
    s.nt = toField 64 (s.frcN + s.ntu.offset.toInt) := by
  have h0 : s.rateTerm s.frcN = 0 := by
    unfold State.rateTerm State.frcN
    rw [ha, sub_self, mul_zero, zero_add]
    exact_mod_cast Nat.div_eq_of_lt hf
  rw [nt_eq, h0, add_zero]

theorem reAnchorAt_frac_lt (s : State) : s.reAnchorAt.ntu.frac < 2 ^ 40 := by
  have h := Int.emod_lt_of_pos (s.rate * ((s.frcN : Int) - s.ntu.anchor.toNat) + s.ntu.frac) (b := ((2 ^ 40 : Nat) : Int)) (by decide)
  unfold State.reAnchorAt
  dsimp only
  omega

/-- Re-anchoring leaves NT as it was (R257). -/
theorem reAnchorAt_nt (s : State) : s.reAnchorAt.nt = s.nt := by
  rw [nt_anchored rfl (reAnchorAt_frac_lt s), nt_eq]
  refine toField_eq_of_modEq ?_
  rw [add_assoc]
  exact Int.ModEq.add_left _ (toInt_add_ofInt s.ntu.offset (s.rateTerm s.frcN))

/-- An offset gained is network time gained. -/
theorem nt_offset {s t : State} (d : Int) (ho : t.ntu.offset = s.ntu.offset + BitVec.ofInt 64 d) (hf : t.ntu.frc = s.ntu.frc)
    (ha : t.ntu.anchor = s.ntu.anchor) (hc : t.ntu.frac = s.ntu.frac) (hr : t.rget NTU_RATE.addr = s.rget NTU_RATE.addr) :
    t.nt = toField 64 (s.nt + d) := by
  rw [nt_eq t, nt_eq s]
  refine toField_eq_of_modEq (Int.ModEq.trans ?_ (Int.ModEq.add_right d (toField_modEq 64 _).symm))
  unfold State.frcN State.rateTerm
  rw [ho, hf, ha, hc, rate_congr hr]
  have h := toInt_add_ofInt s.ntu.offset d
  unfold Int.ModEq at h ⊢
  omega

/-! ## Time passing -/

/-- An instant is reached at the latest when it comes: in a sleep FRC stands at an LFXO tick before it (R266). -/
theorem landing_le (s : State) (n : Nat) : s.landing n ≤ n := by
  unfold State.landing
  split
  next f comp _ =>
    split
    · exact le_rfl
    · have h := Nat.div_mul_le_self ((n - f + 1) * 8192 - 1) (s.tickGain comp)
      dsimp only
      omega
  · exact le_rfl

/-- FRC never decreases as time passes (R256). -/
theorem frcN_le_advance (s : State) (t : Frc) : s.frcN ≤ (s.advance t).frcN := by
  have ht : s.landing t.toNat < 2 ^ 64 := (landing_le s t.toNat).trans_lt t.isLt
  unfold State.advance
  dsimp only
  split
  · exact le_rfl
  next h =>
    have hx : s.frcN ≤ (BitVec.ofNat 64 (s.landing t.toNat)).toNat := by
      rw [BitVec.toNat_ofNat, Nat.mod_eq_of_lt ht]
      exact Nat.le_of_not_le h
    split <;> exact hx

theorem sleepStart_none {s : State} (h : s.sleepStart = none) :
    s.ntu.entry = none ∧ (s.pwr.leaving.isSome && (s.pwr.st = .slumber || s.pwr.st = .hibernate)) = false := by
  unfold State.sleepStart at h
  split at h
  · exact absurd h (by simp)
  · next he =>
    split at h
    · exact absurd h (by simp)
    · next hc => exact ⟨he, by simpa using hc⟩

/-- Awake, time passing starts no sleep and ends no handoff. -/
theorem advance_awake (s : State) (t : Frc) (h : s.sleepStart = none) :
    (s.advance t).ntu.entry = s.ntu.entry ∧ (s.advance t).ntu.handoff = s.ntu.handoff := by
  unfold State.advance State.entryBy
  rw [h]
  dsimp only
  split
  · exact ⟨rfl, rfl⟩
  · have hs : (s.slew (s.landing t.toNat)).ntu.handoff = s.ntu.handoff := by
      unfold State.slew
      split <;> rfl
    split <;> exact ⟨rfl, hs⟩

theorem sleepStart_advance (s : State) (t : Frc) (h : s.sleepStart = none) : (s.advance t).sleepStart = none := by
  obtain ⟨he, hl⟩ := sleepStart_none h
  unfold State.sleepStart
  rw [(advance_awake s t h).1, he, advance_pwr, hl]
  rfl

/-! ## Re-anchoring and RATE -/

/-- Settles the part of O34 that speaks of a re-anchoring. -/
theorem reAnchor_continuous (s : State) (t : Frc) : Does (.reAnchor t) s fun u => u.nt = (s.advance t).nt
    ∧ u.ntu.anchor = (s.advance t).ntu.frc ∧ s.frcN ≤ u.frcN ∧ u = { s.advance t with ntu := u.ntu } :=
  ⟨_, rfl, reAnchorAt_nt _, rfl, frcN_le_advance s t, rfl⟩

/-- A new rate re-anchors first, so NT stands. -/
theorem setRate_nt (s : State) (r : Int) : (s.setRate r).nt = s.nt := by
  have hn : (s.setRate r).ntu = s.reAnchorAt.ntu := by
    unfold State.setRate State.rateMark
    split <;> rfl
  have hf := reAnchorAt_frac_lt s
  rw [← reAnchorAt_nt s, nt_anchored (s := s.reAnchorAt) rfl hf, nt_anchored (by rw [hn]; rfl) (by rw [hn]; exact hf)]
  unfold State.frcN
  rw [hn]

/-- The rate stored is the one written, within the limits (R257). -/
theorem setRate_raw (s : State) (r : Int) : signed 32 ((s.setRate r).raw NTU_RATE.addr) = clampI (-rateLimit) rateLimit r := by
  have hr : (s.setRate r).raw NTU_RATE.addr = toField 32 (clampI (-rateLimit) rateLimit r) % 2 ^ 32 := by
    unfold State.setRate State.rateMark
    split
    · unfold State.raw
      rw [rget_fset_ne _ _ _ _ (by decide)]
      exact raw_rsetN_self _ _ _
    · exact raw_rsetN_self _ _ _
  have hc : -2 ^ 31 ≤ clampI (-rateLimit) rateLimit r ∧ clampI (-rateLimit) rateLimit r < 2 ^ 31 := by
    unfold clampI rateLimit
    split <;> [skip; split] <;> omega
  rw [hr, Nat.mod_eq_of_lt (by unfold toField; omega), signed_toField _ hc.1 hc.2]

theorem setRate_frame (s : State) (r : Int) :
    (s.setRate r).ntu.frc = s.ntu.frc ∧ (s.setRate r).mem = s.mem ∧ (s.setRate r).slot = s.slot := by
  unfold State.setRate State.rateMark
  split <;> exact ⟨rfl, rfl, rfl⟩

/-- A write of RATE outside a transmission takes effect on the value that stood. -/
theorem writeReg_ntuRate (s : State) (a : Acc) (v : Word) (ha : Accepted s a NTU_RATE.addr) (htx : s.txBusy = false) :
    ∃ t : State, t.nt = s.nt ∧ t.ntu = s.ntu ∧ t.mem = s.mem ∧ t.slot = s.slot
      ∧ s.writeReg ntuHook a NTU_RATE.addr v = t.setRate (signed 32 (writtenTo s a NTU_RATE.addr v)) := by
  have hd : ∃ d, descOf NTU_RATE.addr = some d := ⟨_, rfl⟩
  obtain ⟨d, hd⟩ := hd
  have hw : writtenTo s a NTU_RATE.addr v = (wctxOf s a NTU_RATE.addr d v).new := by
    unfold writtenTo
    rw [hd]
    rfl
  have eq := storedBy_eq s a NTU_RATE.addr d v
  let t := (storedBy s a NTU_RATE.addr d v).rsetN NTU_RATE.addr (s.rget NTU_RATE.addr).toNat
  have hr : t.rget NTU_RATE.addr = s.rget NTU_RATE.addr := by
    show (State.rset _ _ _).rget _ = _
    rw [rget_rset_self, BitVec.ofNat_toNat, BitVec.setWidth_eq]
  have hb : t.txBusy = false := by
    rw [← htx]
    show (State.fget _ _ != 0) = (s.fget TXM_STAT.STATE != 0)
    rw [fget_rsetN_ne _ _ _ _ (by decide)]
    unfold State.fget
    rw [rget_storedBy_ne s a _ _ d v (by decide) (by decide) (by decide)]
  have hn : t.ntu = s.ntu := by
    show (storedBy s a NTU_RATE.addr d v).ntu = _
    rw [eq]
  refine ⟨t, nt_congr hn hr, hn, ?_, ?_, ?_⟩
  · show (storedBy s a NTU_RATE.addr d v).mem = _
    rw [eq]
  · show (storedBy s a NTU_RATE.addr d v).slot = _
    rw [eq]
  · rw [writeReg_ok ntuHook s a _ v d ha (by decide +kernel) hd, hw]
    show t.setRateWhenIdle _ = _
    unfold State.setRateWhenIdle
    rw [hb]
    rfl

theorem ntuRateWrite_continuous (s : State) (a : Acc) (v : Word) (ha : Accepted s a NTU_RATE.addr) (htx : s.txBusy = false) :
    Does (.ntuRateWrite a v) s fun u => u.nt = s.nt
      ∧ signed 32 (u.raw NTU_RATE.addr) = clampI (-rateLimit) rateLimit (signed 32 (writtenTo s a NTU_RATE.addr v))
      ∧ u.ntu.frc = s.ntu.frc ∧ u.mem = s.mem ∧ u.slot = s.slot := by
  obtain ⟨t, hnt, hntu, hmem, hslot, hw⟩ := writeReg_ntuRate s a v ha htx
  refine ⟨_, congrArg Host.Outcome.next hw, ?_⟩
  obtain ⟨hf, hm, hsl⟩ := setRate_frame t (signed 32 (writtenTo s a NTU_RATE.addr v))
  exact ⟨(setRate_nt t _).trans hnt, setRate_raw t _, hf.trans (by rw [hntu]), hm.trans hmem, hsl.trans hslot⟩

end Sys2Proof.Machine
end

section
/-!
EXPLICIT STEPS AND THE SLEEP COUNTER (O34). NTU_CMD's STEP and CANCEL, the wake handoff, the calibration window, the FRC vote.
-/
namespace Sys2Proof.Machine
open Sys2Proof
set_option Elab.async false

variable {x : Still} {s : State}

/-! ## Reading what is calm -/

theorem Calm.rget {t : State} (h : Calm s.still t) {a : Nat} (ha : a ∈ stillRegs := by decide) : t.rget a = s.rget a :=
  List.map_inj_left.1 (congrArg Still.regs h.eq) a ha
theorem Calm.fget {t : State} (h : Calm s.still t) {f : Fld} (hf : f.addr ∈ stillRegs := by decide) : t.fget f = s.fget f := by
  unfold State.fget
  rw [h.rget hf]
/-- The counters of network time stand. -/
theorem Calm.ntu {t : State} (h : Calm s.still t) : t.ntu = { s.ntu with pulseOn := t.ntu.pulseOn, armed := t.ntu.armed } := by
  have e : { t.ntu with pulseOn := [], armed := [] } = { s.ntu with pulseOn := [], armed := [] } := congrArg Still.ntu h.eq
  exact congrArg (fun n : NtuState => { n with pulseOn := t.ntu.pulseOn, armed := t.ntu.armed }) e

/-! ## Pulses (R269, R270) -/

theorem Calm.withPulses {p : List (Nat × Nat)} {l : List Nat} (h : Calm x s) :
    Calm x { s with ntu := { s.ntu with pulseOn := p, armed := l } } := ⟨h.eq⟩
/-- The registers of the pulse channels lie above the others of NTU. -/
theorem pulseReg_not_still (c o : Nat) (ho : 0xC0 ≤ o) : 0x40021000 + o + 0x10 * c ∉ stillRegs := by
  refine not_still ?_
  omega
theorem Calm.pulseFire {c : Nat} (h : Calm x s) : Calm x (s.pulseFire c) :=
  ((h.withPulses (l := s.ntu.armed)).unless fun h => h.withPulses).event
theorem Calm.setPulT {c t : Nat} (h : Calm x s) : Calm x (s.setPulT c t) :=
  (h.rsetN (pulseReg_not_still c 0xC4 (by decide))).rsetN (pulseReg_not_still c 0xC8 (by decide))
theorem Calm.pulseStepped {old new c : Nat} (h : Calm x s) : Calm x (s.pulseStepped old new c) :=
  .when h fun h => (h.pulseFire.fset (pulseReg_not_still c 0xC0 (by decide))).raise.when fun h => h.setPulT

theorem pulseFire_mem (s : State) (c : Nat) : (s.pulseFire c).mem = s.mem := by
  unfold State.pulseFire
  dsimp only
  rw [event_mem]
  split <;> rfl
theorem setPulT_mem (s : State) (c t : Nat) : (s.setPulT c t).mem = s.mem := rfl
theorem pulseStepped_mem (s : State) (old new c : Nat) : (s.pulseStepped old new c).mem = s.mem := by
  unfold State.pulseStepped
  dsimp only
  split
  · split
    · rw [setPulT_mem, raise_mem, fset_mem, pulseFire_mem]
    · rw [raise_mem, fset_mem, pulseFire_mem]
  · rfl
theorem squashWhere_mem (s : State) (cause : SqCause) (locked : Bool) (p : Ticket → Bool) : (s.squashWhere cause locked p).mem = s.mem := by
  unfold State.squashWhere State.squash
  dsimp only
  split
  · rfl
  · split <;> rfl

/-! ## STEP and CANCEL (R263) -/

/-- The counters after a step of `d`: the offset and the accumulator have gained it, no slew and no request is left. -/
def stepped (n : NtuState) (d : Int) : NtuState :=
  { n with offset := n.offset + BitVec.ofInt 64 d, corr := n.corr + BitVec.ofInt 64 d, pend := 0, slewFrac := 0, step := none
           stepDue := false, rejRun := 0 }

/-- What a step of `d` counts before it tells anyone: the squashed tickets and itself. -/
def State.stepCounted (s : State) (d : Int) : State := ((s.setNtu fun n => stepped n d).squashWhere .ctrl false fun _ => true).finc NTU_CNT.STEPS

/-- What follows the count of a step, while Cadence is stopped: interrupt, event, and the pulses that it passed. -/
def State.stepTold (s : State) (old new : Nat) (d : Int) : State :=
  let s := ((s.raise Pg.NTU 3).event Pg.NTU 5 21).fset NTU_STAT.STEP_ADVISE 0
  if 0 < d then (List.range 4).foldl (fun s c => s.pulseStepped old new c) s else s

theorem stepCounted_calm (s : State) (d : Int) :
    Calm (s.setNtu fun n => stepped n d).still ((s.setNtu fun n => stepped n d).squashWhere .ctrl false fun _ => true) :=
  (Calm.refl _).squashWhere
theorem stepCounted_ntu (s : State) (d : Int) : (s.stepCounted d).ntu = { stepped s.ntu d with
    pulseOn := (s.stepCounted d).ntu.pulseOn, armed := (s.stepCounted d).ntu.armed } := by
  unfold State.stepCounted
  rw [finc_ntu]
  exact (stepCounted_calm s d).ntu
theorem stepCounted_rate (s : State) (d : Int) : (s.stepCounted d).rget NTU_RATE.addr = s.rget NTU_RATE.addr := by
  unfold State.stepCounted
  rw [rget_finc_ne _ _ _ (by decide), (stepCounted_calm s d).rget, rget_setNtu]
theorem stepCounted_count (s : State) (d : Int) :
    (s.stepCounted d).fget NTU_CNT.STEPS = min (2 ^ NTU_CNT.STEPS.width - 1) (s.fget NTU_CNT.STEPS + 1) := by
  unfold State.stepCounted
  rw [fget_finc _ _ (by decide), (stepCounted_calm s d).fget, fget_setNtu]
theorem stepCounted_mem (s : State) (d : Int) : (s.stepCounted d).mem = s.mem := by
  unfold State.stepCounted
  rw [finc_mem, squashWhere_mem, setNtu_mem]

theorem Calm.stepTold {old new : Nat} {d : Int} (h : Calm x s) : Calm x (s.stepTold old new d) :=
  h.raise.event.fset.when fun h => h.foldl fun h => h.pulseStepped
theorem foldl_pulseStepped_mem (old new : Nat) (l : List Nat) (s : State) : (l.foldl (fun s c => s.pulseStepped old new c) s).mem = s.mem := by
  induction l generalizing s with
  | nil => rfl
  | cons c l ih => exact (ih _).trans (pulseStepped_mem s old new c)
theorem stepTold_mem (s : State) (old new : Nat) (d : Int) : (s.stepTold old new d).mem = s.mem := by
  unfold State.stepTold
  dsimp only
  split
  · rw [foldl_pulseStepped_mem, fset_mem, event_mem, raise_mem]
  · rw [fset_mem, event_mem, raise_mem]

theorem cadRuns_calm {t : State} (h : Calm s.still t) : t.cadRuns = s.cadRuns := by
  have hs : t.cad.stopping = s.cad.stopping := congrArg Still.stopping h.eq
  unfold State.cadRuns State.fbit
  rw [h.fget, hs]

/-- While Cadence is stopped a step is counted and told, and that is all. -/
theorem stepApply_stopped {s : State} {d : Int} (hstep : s.ntu.step = some (d, false)) (hrun : s.cadRuns = false) :
    s.stepApply = (s.stepCounted d).stepTold s.nt (s.setNtu fun n => stepped n d).nt d := by
  have hr : ((s.stepCounted d).stepTold s.nt (s.setNtu fun n => stepped n d).nt d).cadRuns = false := by
    rw [cadRuns_calm (Calm.refl _).stepTold, ← hrun]
    unfold State.stepCounted
    have hc := cadRuns_calm (stepCounted_calm s d)
    unfold State.cadRuns State.fbit at *
    rw [fget_finc_apart _ _ _ (by decide) (by decide), finc_cad]
    exact hc
  unfold State.stepTold at hr ⊢
  unfold State.stepApply
  rw [hstep]
  dsimp only [Bool.false_and, Bool.false_eq_true, if_false] at hr ⊢
  split
  · next hd =>
    rw [if_pos hd] at hr
    exact if_neg fun hc => Bool.false_ne_true (hr.symm.trans (Bool.and_eq_true_iff.1 hc).1)
  · rfl

/-- What a step applied while Cadence is stopped leaves. -/
theorem stepApply_moves {s : State} {d : Int} (hstep : s.ntu.step = some (d, false)) (hrun : s.cadRuns = false) :
    s.stepApply.nt = toField 64 ((s.nt : Int) + d) ∧ s.stepApply.ntu.pend = 0 ∧ s.stepApply.ntu.step = none
      ∧ s.stepApply.fget NTU_CNT.STEPS = min (2 ^ NTU_CNT.STEPS.width - 1) (s.fget NTU_CNT.STEPS + 1) ∧ s.stepApply.mem = s.mem := by
  rw [stepApply_stopped hstep hrun]
  generalize (s.setNtu fun n => stepped n d).nt = new
  have hc : Calm (s.stepCounted d).still ((s.stepCounted d).stepTold s.nt new d) := (Calm.refl _).stepTold
  have hn := hc.ntu
  rw [stepCounted_ntu] at hn
  have hrate := hc.rget (a := NTU_RATE.addr)
  have hcount := hc.fget (f := NTU_CNT.STEPS)
  have hmem := stepTold_mem (s.stepCounted d) s.nt new d
  generalize (s.stepCounted d).stepTold s.nt new d = u at *
  refine ⟨nt_offset d ?_ ?_ ?_ ?_ (hrate.trans (stepCounted_rate s d)), ?_, ?_, hcount.trans (stepCounted_count s d),
    hmem.trans (stepCounted_mem s d)⟩ <;> rw [hn] <;> rfl

/-! ## NTU_CMD -/


/-- A command of NTU_CMD runs on a state of the same network time, memory and requests. -/
theorem ntuCmdWrite_eq (s : State) (m : Master) (c : Nat) (hc : c = 1 ∨ c = 2) (ha : Accepted s ⟨m, .base⟩ NTU_CMD.addr) :
    ∃ t : State, s.ntuCmdWrite m c = t.ntuCmd c ∧ t.ntu = s.ntu ∧ t.mem = s.mem ∧ t.hdr = s.hdr ∧ t.nt = s.nt
      ∧ t.cadRuns = s.cadRuns ∧ t.txBusy = s.txBusy ∧ t.fget NTU_CNT.STEPS = s.fget NTU_CNT.STEPS
      ∧ t.raw NTU_STEP_LO.addr = s.raw NTU_STEP_LO.addr ∧ t.raw NTU_STEP_HI.addr = s.raw NTU_STEP_HI.addr := by
  let d : RegDesc := (descOf NTU_CMD.addr).getD { off := 0 }
  have hd : descOf NTU_CMD.addr = some d := rfl
  let t := storedBy s ⟨m, .base⟩ NTU_CMD.addr d (BitVec.ofNat 32 c)
  have eq : t = _ := storedBy_eq s ⟨m, .base⟩ NTU_CMD.addr d (BitVec.ofNat 32 c)
  have hg (a : Nat) (h1 : a ≠ NTU_CMD.addr := by decide) (h2 : a ≠ OVL_DIRTY_LO.addr := by decide)
      (h3 : a ≠ OVL_DIRTY_HI.addr := by decide) : t.rget a = s.rget a :=
    rget_storedBy_ne s _ _ a d _ h1 h2 h3
  have hntu : t.ntu = s.ntu := by rw [eq]
  have hwo : fieldGet (BitVec.ofNat 32 c &&& d.wo).toNat NTU_CMD.CMD = c := by rcases hc with rfl | rfl <;> decide +kernel
  refine ⟨t, ?_, hntu, by rw [eq], by rw [eq], nt_congr hntu (hg _), ?_, ?_, ?_, ?_, ?_⟩
  · unfold State.ntuCmdWrite
    rw [writeReg_ok ntuHook s _ _ _ d ha (by decide +kernel) hd]
    show t.ntuCmd (fieldGet (BitVec.ofNat 32 c &&& d.wo).toNat NTU_CMD.CMD) = _
    rw [hwo]
  · unfold State.cadRuns State.fbit State.fget
    rw [hg _, eq]
  · unfold State.txBusy State.fget
    rw [hg _]
  · unfold State.fget
    rw [hg _]
  · unfold State.raw
    rw [hg _]
  · unfold State.raw
    rw [hg _]

/-- The step that the registers ask for. -/
abbrev State.stepAsked (s : State) : Int := signed 64 (s.raw NTU_STEP_LO.addr + s.raw NTU_STEP_HI.addr * 2 ^ 32)

/-- A request of STEP, noted. -/
def State.stepNoted (s : State) (d : Int) : State := s.setNtu fun n => { n with step := some (d, false), stepDue := false }

theorem stepNoted_nt (s : State) (d : Int) : (s.stepNoted d).nt = s.nt := nt_of_counters rfl rfl rfl rfl rfl

theorem ntuCmd_step (s : State) : s.ntuCmd 1 = (s.stepNoted s.stepAsked).stepTry := rfl

/-- STEP while Cadence is stopped and the transmitter idle: NT moves by the step. -/
theorem ntuStep_stopped (s : State) (m : Master) (ha : Accepted s ⟨m, .base⟩ NTU_CMD.addr) (hrun : s.cadRuns = false)
    (htx : s.txBusy = false) :
    Does (.ntuStep m) s fun u => u.nt = toField 64 ((s.nt : Int) + s.stepAsked) ∧ u.ntu.pend = 0 ∧ u.ntu.step = none
      ∧ u.fget NTU_CNT.STEPS = min (2 ^ NTU_CNT.STEPS.width - 1) (s.fget NTU_CNT.STEPS + 1) ∧ u.mem = s.mem := by
  obtain ⟨t, hw, -, hmem, -, hnt, hr, hb, hcnt, hlo, hhi⟩ := ntuCmdWrite_eq s m 1 (.inl rfl) ha
  have hd : t.stepAsked = s.stepAsked := by rw [State.stepAsked, hlo, hhi]
  have hu : s.ntuCmdWrite m 1 = (t.stepNoted s.stepAsked).stepApply := by
    rw [hw, ntuCmd_step, hd]
    exact if_neg (by rw [show (t.stepNoted s.stepAsked).cadRuns = t.cadRuns from rfl,
      show (t.stepNoted s.stepAsked).txBusy = t.txBusy from rfl, hr, hb, hrun, htx, Bool.or_self]; exact Bool.false_ne_true)
  have h := stepApply_moves (s := t.stepNoted s.stepAsked) rfl (hr.trans hrun)
  rw [← hu, stepNoted_nt, hnt] at h
  obtain ⟨h1, h2, h3, h4, h5⟩ := h
  refine ⟨_, rfl, h1, h2, h3, h4.trans ?_, h5.trans hmem⟩
  rw [← hcnt]
  rfl

/-- STEP while Cadence runs waits. -/
theorem ntuStep_running (s : State) (m : Master) (ha : Accepted s ⟨m, .base⟩ NTU_CMD.addr) (hrun : s.cadRuns = true) :
    Does (.ntuStep m) s fun u => u.nt = s.nt ∧ u.ntu.step = some (s.stepAsked, false) ∧ u.mem = s.mem ∧ u.hdr = s.hdr := by
  obtain ⟨t, hw, -, hmem, hhdr, hnt, hr, -, -, hlo, hhi⟩ := ntuCmdWrite_eq s m 1 (.inl rfl) ha
  have hd : t.stepAsked = s.stepAsked := by rw [State.stepAsked, hlo, hhi]
  have hu : s.ntuCmdWrite m 1 = t.stepNoted s.stepAsked := by
    rw [hw, ntuCmd_step, hd]
    exact if_pos (by rw [show (t.stepNoted s.stepAsked).cadRuns = t.cadRuns from rfl, hr, hrun, Bool.true_or])
  exact ⟨_, congrArg Host.Outcome.next hu, (stepNoted_nt t _).trans hnt, rfl, hmem, hhdr⟩

/-- CANCEL drops what waits. -/
theorem ntuCancel_drops (s : State) (m : Master) (ha : Accepted s ⟨m, .base⟩ NTU_CMD.addr) :
    Does (.ntuCancel m) s fun u =>
      u.nt = s.nt ∧ u.ntu = { s.ntu with step := none, stepDue := false } ∧ u.mem = s.mem ∧ u.hdr = s.hdr := by
  obtain ⟨t, hw, hntu, hmem, hhdr, hnt, -⟩ := ntuCmdWrite_eq s m 2 (.inr rfl) ha
  refine ⟨_, congrArg Host.Outcome.next hw, (nt_of_counters rfl rfl rfl rfl rfl).trans hnt, ?_, hmem, hhdr⟩
  rw [← hntu]
  rfl

/-! ## The sleep counter and the votes (R33, R266, R267) -/

/-- The two registers that report a sleep, and the note of a slot that it made late. -/
def State.sleepReported (s : State) (err : Nat) (ticks : Word) (late : Bool) : State :=
  let s := (s.rsetN NTU_SLP_ERR.addr err).rset NTU_SLP_TICKS.addr ticks
  if late then s.fset NTU_STAT.LATE_WAKE 1 else s

theorem sleepReported_ticks (s : State) (err : Nat) (ticks : Word) (late : Bool) :
    (s.sleepReported err ticks late).rget NTU_SLP_TICKS.addr = ticks := by
  unfold State.sleepReported
  dsimp only
  split
  · rw [rget_fset_ne _ _ _ _ (by decide)]
    exact rget_rset_self _ _ _
  · exact rget_rset_self _ _ _
theorem sleepReported_only (s : State) (err : Nat) (ticks : Word) (late : Bool) :
    PagesOnly [Pg.NTU] s (s.sleepReported err ticks late) := by
  have h := pagesOnly_rset (pagesOnly_rset (pagesOnly_refl [Pg.NTU] s) NTU_SLP_ERR.addr (BitVec.ofNat 32 err) (by decide))
    NTU_SLP_TICKS.addr ticks (by decide)
  unfold State.sleepReported
  dsimp only
  split
  · exact pagesOnly_fset h _ _ (by decide)
  · exact h

/-- The state of a wake, before time passes. -/
def State.sleepLeft (s : State) : State := s.setNtu fun n => { n with entry := none, handoff := false }

/-- What the wake handoff does: FRC advances, and the sleep is reported. -/
theorem exec_wakeHandoff (s : State) (ticks : Word) (f : Nat) (comp : Bool) (he : s.ntu.entry = some (f, comp))
    (hx : s.sys.hfxoStable = true) :
    ∃ err late, exec (.wakeHandoff ticks) s
      = .next ((s.sleepLeft.advance (BitVec.ofNat 64 (f + s.sleepAdvance comp ticks.toNat))).sleepReported err ticks late) := by
  show ∃ err late, execWakeHandoff ticks s = _
  unfold execWakeHandoff
  rw [he]
  dsimp only
  rw [hx]
  exact ⟨_, _, rfl⟩

/-- The wake handoff advances FRC by the ticks slept. -/
theorem wakeHandoff_advances (s : State) (ticks : Word) (f : Nat) (comp : Bool) (he : s.ntu.entry = some (f, comp))
    (hx : s.sys.hfxoStable = true) (hl : s.pwr.leaving = none) (hle : s.frcN ≤ f + s.sleepAdvance comp ticks.toNat)
    (hlt : f + s.sleepAdvance comp ticks.toNat < 2 ^ 64) :
    Does (.wakeHandoff ticks) s fun u => u.frcN = f + s.sleepAdvance comp ticks.toNat ∧ u.ntu.entry = none ∧ u.ntu.handoff = false
      ∧ u.rget NTU_SLP_TICKS.addr = ticks ∧ u.mem = s.mem ∧ u.slot = s.slot := by
  obtain ⟨err, late, hexec⟩ := exec_wakeHandoff s ticks f comp he hx
  generalize f + s.sleepAdvance comp ticks.toNat = n at *
  have hs : s.sleepLeft.sleepStart = none := by
    show (if s.pwr.leaving.isSome && _ then _ else _) = none
    rw [hl]
    rfl
  have hn : (BitVec.ofNat 64 n).toNat = n := by rw [BitVec.toNat_ofNat, Nat.mod_eq_of_lt hlt]
  have hfrc : (s.sleepLeft.advance (BitVec.ofNat 64 n)).frcN = n := by
    unfold State.frcN
    rw [frc_advance s.sleepLeft _ (hn.symm ▸ hle) hs, hn]
  obtain ⟨hent, hho⟩ := advance_awake s.sleepLeft (BitVec.ofNat 64 n) hs
  have hm : (s.sleepLeft.advance (BitVec.ofNat 64 n)).mem = s.mem := advance_mem _ _
  have hsl : (s.sleepLeft.advance (BitVec.ofNat 64 n)).slot = s.slot := advance_slot _ _
  generalize s.sleepLeft.advance (BitVec.ofNat 64 n) = b at *
  refine ⟨_, hexec, ?_, ?_, ?_, sleepReported_ticks b err ticks late, ?_, ?_⟩ <;> rw [(sleepReported_only b err ticks late).1]
  · exact hfrc
  · exact hent
  · exact hho
  · exact hm
  · exact hsl

/-- The calibration window stores its count while both oscillators run (R266). -/
theorem lfcalWindow_stores (s : State) (t : Frc) (n : BitVec 27) (hs : s.sleepStart = none) (hh : s.ntu.handoff = false)
    (hx : s.sys.hfxoStable = true) (hl : s.fbit SYS_STAT.LFXO_FAIL = false) :
    Does (.lfcalWindow t n) s fun u => u.fget NTU_LFCAL.COUNT = n.toNat % 2 ^ NTU_LFCAL.COUNT.width ∧ u.fbit NTU_LFCAL.VALID = true
      ∧ PagesOnly [Pg.NTU] (s.advance t) u := by
  refine ⟨((s.advance t).fset NTU_LFCAL.COUNT n.toNat).fset NTU_LFCAL.VALID 1, ?_, ?_, ?_, ?_⟩
  · show execLfcalWindow t n s = _
    have hv : (s.advance t).fbit SYS_STAT.LFXO_FAIL = false := by
      unfold State.fbit at *
      rw [fget_advance, hl]
    unfold execLfcalWindow
    dsimp only
    rw [sleepStart_advance s t hs, (advance_awake s t hs).2, hh, advance_sys, hx, hv]
    rfl
  · rw [fget_fset_apart _ _ _ _ (by decide) (by decide), fget_fset_self _ _ _ (by decide)]
  · unfold State.fbit
    rw [fget_fset_self _ _ _ (by decide)]
    rfl
  · exact pagesOnly_fset (pagesOnly_fset (pagesOnly_refl _ _) _ _ (by decide)) _ _ (by decide)

theorem frcVote_counts (s : State) : Does .frcVote s fun u =>
    u.fget NTU_STAT.FRC_VOTE = (s.fget NTU_STAT.FRC_VOTE + 1) % 2 ^ NTU_STAT.FRC_VOTE.width ∧ PagesOnly [Pg.NTU] s u :=
  ⟨_, rfl, fget_fset_self _ _ _ (by decide), pagesOnly_fset (pagesOnly_refl _ _) _ _ (by decide)⟩

/-- Settles O34: re-anchoring, RATE, STEP and CANCEL, the wake handoff, the calibration window and the FRC vote. -/
theorem networkTimeContinuity : Obligations.NetworkTimeContinuity := by
  have hcmd (s : State) (m : Master) (ha : Accepted s ⟨m, .base⟩ NTU_CMD.addr) :=
    And.intro (ntuStep_stopped s m ha) (And.intro (ntuStep_running s m ha) (ntuCancel_drops s m ha))
  exact ⟨reAnchor_continuous, ntuRateWrite_continuous, hcmd, wakeHandoff_advances, lfcalWindow_stores, frcVote_counts⟩

end Sys2Proof.Machine
end

section
/-!
A TICK'S CUTS AND CADENCE'S STOP. What the tick cuts short leaves the still parts alone; a stop of Cadence changes known ones among them,
and what else it leaves is `Loose`.
-/
namespace Sys2Proof.Machine
open Sys2Proof
set_option Elab.async false

variable {x : Still} {s : State}

/-! ## Resolution, the window, the lanes' latches -/

theorem Calm.setCad {f : CadState → CadState} (h : Calm x s) (hs : (f s.cad).stopping = s.cad.stopping := by rfl)
    (hn : (f s.cad).silentNow = s.cad.silentNow := by rfl) : Calm x (s.setCad f) := h.withCad hs hn
theorem Calm.resolveCell {asn n i : Nat} (h : Calm x s) : Calm x (s.resolveCell asn n i) := by
  unfold State.resolveCell
  split
  · exact .ite h (h.withCad.rsetN.fset.finc.raise)
  · dsimp only
    split
    · split
      · exact h.withCad.guardUpdate
      · exact h.withCad
    · exact h.withCad
theorem Calm.resolveSlot {asn : Nat} (h : Calm x s) : Calm x (s.resolveSlot asn) := (h.eccSweep.foldl fun h => h.resolveCell).withCad

theorem Calm.laneAssign {n : Nat} {sv : Option Served} (h : Calm x s) : Calm x (s.laneAssign n sv) := by
  unfold State.laneAssign
  dsimp only
  split <;> exact h.setLane.rsetN (laneReg_not_still n 0x068 (by decide) (by decide))
theorem Calm.laneLatch {n : Nat} (h : Calm x s) : Calm x (s.laneLatch n) :=
  h.setLane.when fun h => h.fsetI (laneReg_not_still n 0x050 (by decide) (by decide))
theorem Calm.missNote {asn : Nat} {y : WinCand × Nat} (h : Calm x s) : Calm x (s.missNote asn y) := by
  unfold State.missNote
  split
  · dsimp only
    refine .event <| .raise <| .fset (.rsetN ?_)
    split
    · exact h.finc.finc
    · exact h.finc.finc
    · exact h.finc.finc
    · exact h.finc.finc
    · exact h.finc
  · next n _ _ => exact h.fset (laneReg_not_still n 0x008 (by decide) (by decide))
  · exact h
theorem Calm.openWindow {asn : Nat} {p : Placed} {listen : Bool} (h : Calm x s) : Calm x (s.openWindow asn p listen) :=
  Calm.foldl (Calm.fsetB (.unless (.rsetN (.foldl (h.foldl fun h => h.missNote)
    fun {_ n} h => h.fset (laneReg_not_still n 0x008 (by decide) (by decide)))) fun h => h.fset)) fun h => h.laneAssign

/-! ## What the tick cuts (R19 to R21, R38) -/

theorem Calm.workAbort (h : Calm x s) : Calm x s.workAbort := h.withRfe.fset.fset
theorem Calm.workStart {i : Nat} (h : Calm x s) : Calm x (s.workStart i) :=
  .ite h.withRfe.fset (.ite h.withRfe.fset h.withRfe.fset.fset)
theorem Calm.workNext {after : Option Nat} (h : Calm x s) : Calm x (s.workNext after) := by
  unfold State.workNext
  split
  · exact h
  · split
    · split
      · exact h.workStart
      · exact h
    · split
      · exact h
      · dsimp only
        split
        · exact h.workStart
        · exact h
theorem Calm.overrun (h : Calm x s) : Calm x s.overrun := h.finc.raise
theorem Calm.cutLanes (h : Calm x s) : Calm x s.cutLanes := h.foldl fun h => (h.when fun h => h.laneAbort.overrun).laneTo.setLane.laneAssign
theorem Calm.cutAcks (h : Calm x s) : Calm x s.cutAcks := (h.foldl fun h => h.overrun).withTxm
theorem Calm.withdraw {asn : Nat} (h : Calm x s) : Calm x (s.withdraw asn) := by
  unfold State.withdraw
  split
  · exact .ite h h.setTicket.dutyCharge.fset
  · exact h
theorem Calm.cutTail (h : Calm x s) : Calm x s.cutTail := by
  unfold State.cutTail
  split
  · exact h
  · refine .ite h (((Calm.unless h fun h => h.rsetN).when fun h => h.withdraw).when fun h => h.fset).squashWhere.overrun
theorem Calm.cutBuild (h : Calm x s) : Calm x s.cutBuild := by
  unfold State.cutBuild
  split
  · exact h.finc.squash.overrun
  · exact h
theorem Calm.cutWork (h : Calm x s) : Calm x s.cutWork := (h.when fun h => h.workAbort.overrun).when fun h => h.setCad.overrun
theorem Calm.cutJobs (h : Calm x s) : Calm x s.cutJobs := h.cutLanes.cutAcks.cutBuild.cutTail.cutWork
theorem Calm.phaseBegin (h : Calm x s) : Calm x s.phaseBegin := (h.withCad (v := { s.cad with phaseAt := s.frcN, replays := 0 })).withPhase
theorem Calm.attemptCount {k : Ticket} (h : Calm x s) : Calm x (s.attemptCount k) := .ite h.setHdr h.descSet.descSet.descSet

/-! ## Loosely the same -/

/-- `s` agrees with `a` in what a stop of Cadence leaves alone: an explicit step, and the mode that shows, may have come between. -/
structure Loose (a s : State) : Prop where
  sys : s.sys = a.sys
  power : s.pwr.st = a.pwr.st
  exc : s.pwr.exc = a.pwr.exc
  pending : s.ovl.pending = a.ovl.pending
  entry : s.ntu.entry = a.ntu.entry
  handoff : s.ntu.handoff = a.ntu.handoff
  idle : s.slot.isNone = a.slot.isNone
  stopping : s.cad.stopping = a.cad.stopping
  regs : ∀ r ∈ stillRegs, r ≠ NTU_CNT.addr → s.rget r = a.rget r

variable {a : State}

theorem Loose.refl (a : State) : Loose a a := ⟨rfl, rfl, rfl, rfl, rfl, rfl, rfl, rfl, fun _ _ _ => rfl⟩

/-- What is calm stays loosely the same. -/
theorem Loose.calm {t : State} (h : Loose a s) (hc : Calm s.still s → Calm s.still t) : Loose a t := by
  have hc := hc (.refl s)
  have he : t.ntu.entry = s.ntu.entry := by rw [hc.ntu]
  have hh : t.ntu.handoff = s.ntu.handoff := by rw [hc.ntu]
  exact
    { sys := (congrArg Still.sys hc.eq).trans h.sys
      power := (congrArg Still.power hc.eq).trans h.power
      exc := (congrArg Still.exc hc.eq).trans h.exc
      pending := (congrArg (fun y => y.ovl.pending) hc.eq).trans h.pending
      entry := he.trans h.entry
      handoff := hh.trans h.handoff
      idle := (congrArg Still.idle hc.eq).trans h.idle
      stopping := (congrArg Still.stopping hc.eq).trans h.stopping
      regs := fun r hr hne => (hc.rget hr).trans (h.regs r hr hne) }

protected theorem Loose.ite {c : Prop} {d : Decidable c} {t u : State} (ht : Loose a t) (hu : Loose a u) : Loose a (@ite _ c d t u) := by
  split <;> assumption

theorem Loose.setNtu {f : NtuState → NtuState} (h : Loose a s) (he : (f s.ntu).entry = s.ntu.entry := by rfl)
    (hh : (f s.ntu).handoff = s.ntu.handoff := by rfl) : Loose a (s.setNtu f) :=
  { h with entry := he.trans h.entry, handoff := hh.trans h.handoff }
theorem Loose.countStep {f : Fld} (h : Loose a s) (hf : f.addr = NTU_CNT.addr) : Loose a (s.finc f) :=
  { h with regs := fun r hr hne => (rget_finc_ne s f r (hf ▸ hne)).trans (h.regs r hr hne) }

theorem Loose.syncGain (h : Loose a s) : Loose a s.syncGain := by
  have h₁ : Loose a ((s.fset NTU_STAT.SYNC 1).raise Pg.NTU 0) := h.calm fun h => h.fset.raise
  unfold State.syncGain
  generalize (s.fset NTU_STAT.SYNC 1).raise Pg.NTU 0 = t at *
  exact h₁.setNtu

theorem Loose.stepApply (h : Loose a s) : Loose a s.stepApply := by
  unfold State.stepApply
  split
  · exact h
  next d sampled _ =>
    extract_lets old s₁ new s₂ s₃ s₄ s₅ s₆
    have h₁ : Loose a s₁ := h.setNtu
    clear_value s₁
    have h₂ : Loose a s₂ := h₁.calm fun h => h.squashWhere
    clear_value s₂
    have h₃ : Loose a s₃ := (h₂.countStep (f := NTU_CNT.STEPS) rfl).calm fun h => h.raise.event
    clear_value s₃
    have h₄ : Loose a s₄ := h₃.calm fun h => h.fset
    clear_value s₄
    have h₅ : Loose a s₅ := .ite h₄.syncGain h₄
    clear_value s₅
    have h₆ : Loose a s₆ := h₅.calm fun h => h.foldl fun h => h.pulseStepped
    clear_value s₆
    exact .ite (.ite ((h₆.calm fun h => h.fset.raise).setNtu) h₆) h₅
theorem Loose.stepTry (h : Loose a s) : Loose a s.stepTry := .ite h h.stepApply
theorem Loose.modeAtStop (h : Loose a s) : Loose a s.modeAtStop := by
  unfold State.modeAtStop
  split
  next m _ =>
    have hs : Loose a (s.setOvl fun o => { o with atTick := some (m, false) }) := { h with }
    exact hs.calm fun h => h.fset.event
  · exact h

/-- `s` with no slot and Cadence disabled. -/
def State.quietened (s : State) : State :=
  (({ s with slot := none } : State).setCad fun c => { c with stopping := false }).fset CAD_CTRL.EN 0

theorem Loose.fsetBoth {f : Fld} {v : Nat} (h : Loose a s) : Loose (a.fset f v) (s.fset f v) := by
  refine { h with regs := fun r hr hne => ?_ }
  by_cases hf : r = f.addr
  · subst hf
    unfold State.fset
    rw [rget_rset_self, rget_rset_self, h.regs _ hr hne]
  · rw [rget_fset_ne s f v r hf, rget_fset_ne a f v r hf, h.regs r hr hne]

/-- A stop of Cadence leaves what it finds, but for the slot, EN and the stop that waited. -/
theorem Loose.cadHalt {cause : SqCause} (hs : Loose a s) : Loose a.quietened (s.cadHalt cause) := by
  unfold State.cadHalt State.quietened
  extract_lets s₁ h t s₂ s₃ s₄ s₅
  have h₁ : Loose a s₁ := hs.calm fun h => h.squashWhere
  clear_value s₁
  have h₂ : Loose { a with slot := none } s₂ := { h₁ with idle := rfl }
  clear_value s₂
  have h₃ : Loose (({ a with slot := none } : State).setCad fun c => { c with stopping := false }) s₃ := { h₂ with stopping := rfl }
  clear_value s₃
  have h₄ : Loose _ s₄ := (h₃.fsetBoth (f := CAD_CTRL.EN) (v := 0)).calm fun h => h.fset.fset
  clear_value s₄
  have h₅ : Loose _ s₅ := h₄.calm fun h => h.windowShut.setRfe
  exact h₅.stepTry.modeAtStop.calm fun h => h.workNext

theorem quietened_en (a : State) : a.quietened.fbit CAD_CTRL.EN = false := by
  unfold State.quietened State.fbit
  rw [fget_fset_self _ _ _ (by decide)]
  rfl
theorem quietened_rget (a : State) (r : Nat) (h : r ≠ CAD_CTRL.addr) : a.quietened.rget r = a.rget r := rget_fset_ne _ CAD_CTRL.EN 0 r h

/-- After a stop there is no slot, Cadence is disabled, no stop waits, and no request of the overlay is left that was not there before. -/
theorem cadHalt_stops (s : State) (cause : SqCause) : (s.cadHalt cause).slot = none ∧ (s.cadHalt cause).fbit CAD_CTRL.EN = false
    ∧ (s.cadHalt cause).cad.stopping = false ∧ (s.cadHalt cause).ovl.pending = s.ovl.pending := by
  have h := (Loose.refl s).cadHalt (cause := cause)
  refine ⟨Option.isNone_iff_eq_none.1 h.idle, ?_, h.stopping, h.pending⟩
  have he := quietened_en s
  unfold State.fbit State.fget at *
  rw [h.regs _ (by decide) (by decide)]
  exact he

end Sys2Proof.Machine
end

section
/-!
THE TICK (O18). A tick that is due starts the slot of its time, or completes the stop that waited.
-/
namespace Sys2Proof.Machine
open Sys2Proof
set_option Elab.async false

variable {x : Still} {s a : State} {asn : Nat}

/-! ## What the slot is counted from -/

theorem epoch_calm {t : State} (h : Calm s.still t) : t.epoch = s.epoch := by
  unfold State.epoch State.raw
  rw [h.rget, h.rget]
theorem slotLen_calm {t : State} (h : Calm s.still t) : t.slotLen = s.slotLen := by
  unfold State.slotLen
  rw [h.fget]

/-- `s` counts its slots as `a` does, and the slot `asn` is the last that was served. -/
structure Serves (a : State) (asn : Nat) (s : State) : Prop where
  epoch : s.epoch = a.epoch
  slotLen : s.slotLen = a.slotLen
  last : s.ntu.lastAsn = some asn

theorem Serves.calm {t : State} (h : Serves a asn s) (hc : Calm s.still s → Calm s.still t) : Serves a asn t := by
  have hc := hc (.refl s)
  have hl : t.ntu.lastAsn = s.ntu.lastAsn := by rw [hc.ntu]
  exact ⟨(epoch_calm hc).trans h.epoch, (slotLen_calm hc).trans h.slotLen, hl.trans h.last⟩

protected theorem Serves.ite {c : Prop} {d : Decidable c} {t u : State} (ht : Serves a asn t) (hu : Serves a asn u) :
    Serves a asn (@ite _ c d t u) := by
  split <;> assumption

/-- The count of silent cycles keeps the still registers (R41). -/
theorem silenceCount_rget (s : State) (asn : Nat) {r : Nat} (hr : r ∈ stillRegs) : (s.silenceCount asn).rget r = s.rget r := by
  unfold State.silenceCount
  extract_lets n k t full
  split
  · rfl
  · have h : Calm s.still t := (Calm.refl s).fadd
    exact (rget_setCad t _ r).trans (h.rget hr)
theorem Calm.slotClear (h : Calm x s) : Calm x s.slotClear := h.windowShut.setRfe.fset.setCad.foldl fun h => h.laneLatch

theorem silenceCount_counts (s : State) (asn : Nat) :
    (s.silenceCount asn).slotClear.epoch = s.epoch ∧ (s.silenceCount asn).slotClear.slotLen = s.slotLen := by
  have hr {r : Nat} := silenceCount_rget s asn (r := r)
  generalize s.silenceCount asn = t at *
  have hc : Calm t.still t.slotClear := (Calm.refl t).slotClear
  rw [epoch_calm hc, slotLen_calm hc]
  unfold State.epoch State.slotLen State.fget State.raw
  rw [hr (by decide), hr (by decide), hr (by decide)]
  exact ⟨rfl, rfl⟩

theorem Serves.modeAtTick {n : Nat} (h : Serves a asn s) : Serves a asn (s.modeAtTick n) := by
  unfold State.modeAtTick
  split
  · exact h
  · have ho : Serves a asn (s.setOvl fun o => { o with atTick := none }) := ⟨h.epoch, h.slotLen, h.last⟩
    exact ho.calm fun h => h.rsetN.rsetN.when fun h => h.fset.event

/-! ## The slot that a tick starts -/

/-- A slot record of `asn`, at the network time of its boundary, before any step of its Tailrace. -/
structure StartsAt (a : State) (asn : Nat) (sl : Slot) : Prop where
  number : sl.asn = asn
  tick : sl.tickNt = a.epoch + asn * a.slotLen
  tail : sl.tail = false
  done : sl.tailDone = 0

/-- The slot `asn` has begun. -/
structure Begun (a : State) (asn : Nat) (s : State) : Prop where
  last : s.ntu.lastAsn = some asn
  slot : ∃ sl, s.slot = some sl ∧ StartsAt a asn sl

theorem Serves.slotBase (h : Serves a asn s) : StartsAt a asn (s.slotBase asn) :=
  ⟨rfl, by rw [← h.epoch, ← h.slotLen]; rfl, rfl, rfl⟩
theorem Serves.slotBegin {sl : Slot} (h : Serves a asn s) (hs : StartsAt a asn sl) : Begun a asn (s.slotBegin sl) :=
  ⟨h.last, sl, rfl, hs⟩

theorem Begun.fset {f : Fld} {v : Nat} (h : Begun a asn s) : Begun a asn (s.fset f v) := ⟨h.last, h.slot⟩
theorem Begun.fsetB {f : Fld} {b : Bool} (h : Begun a asn s) : Begun a asn (s.fsetB f b) := ⟨h.last, h.slot⟩
theorem Begun.finc {f : Fld} (h : Begun a asn s) : Begun a asn (s.finc f) := ⟨h.last, h.slot⟩
theorem Begun.setRfe {f : RfeState → RfeState} (h : Begun a asn s) : Begun a asn (s.setRfe f) := ⟨h.last, h.slot⟩
theorem Begun.tune {f : Nat} {tx wide : Bool} (h : Begun a asn s) : Begun a asn (s.tune f tx wide) := by
  unfold State.tune
  dsimp only
  split
  · exact h.fset.finc
  · exact h.fset.fset.fset.fsetB.setRfe

protected theorem Begun.ite {c : Prop} {d : Decidable c} {t u : State} (ht : Begun a asn t) (hu : Begun a asn u) :
    Begun a asn (@ite _ c d t u) := by
  split <;> assumption

theorem Serves.slotCanopy {cells : List Cand} (h : Serves a asn s) : Begun a asn (s.slotCanopy asn cells) := by
  obtain ⟨h1, h2, h3, h4⟩ := h.slotBase
  unfold State.slotCanopy
  extract_lets p mine ranked _ sl w b
  have hsl : StartsAt a asn sl := ⟨h1, h2, h3, h4⟩
  have hw : Serves a asn w := h.calm fun h => h.openWindow
  clear_value sl w
  have hb : Begun a asn b := hw.slotBegin hsl
  exact .ite hb hb.tune
theorem Serves.slotNarrow {cells : List Cand} (h : Serves a asn s) : Begun a asn (s.slotNarrow asn cells) := by
  obtain ⟨h1, h2, h3, h4⟩ := h.slotBase
  unfold State.slotNarrow
  split
  · exact h.slotBegin h.slotBase
  · refine .tune (Serves.slotBegin (h.calm fun h => h.fadd.laneAssign) ?_)
    exact ⟨h1, h2, h3, h4⟩
theorem Serves.slotTx {c : Cand} (h : Serves a asn s) : Begun a asn (s.slotTx asn c) := by
  obtain ⟨h1, h2, h3, h4⟩ := h.slotBase
  refine .tune (h.slotBegin ?_)
  exact ⟨h1, h2, h3, h4⟩
theorem Serves.slotClearing {c : Cand} (h : Serves a asn s) : Begun a asn (s.slotClearing asn c) := by
  obtain ⟨h1, h2, h3, h4⟩ := h.slotBase
  exact h.slotBegin ⟨h1, h2, h3, h4⟩

theorem Calm.arbitrate {l : List Cand} (h : Calm x s) : Calm x (arbitrate asn l s).2 := by
  induction l generalizing s with
  | nil => exact h
  | cons c l ih =>
    unfold Machine.arbitrate
    split
    · split
      · exact h
      · split
        · next e => exact h.eligible.ofSnd e
        · next e => exact ih (h.eligible.ofSnd e)
    · exact .iteSnd h (.iteSnd h (ih h))

theorem Serves.slotDecide {l : List Cand} (h : Serves a asn s) : Begun a asn (s.slotDecide asn l) := by
  have ha : Serves a asn (arbitrate asn l s).2 := h.calm fun h => h.arbitrate
  unfold State.slotDecide
  split
  · next e =>
    rw [e] at ha
    exact .ite ha.slotTx (.ite (.ite ha.slotCanopy ha.slotNarrow) ha.slotClearing)
  · next e =>
    rw [e] at ha
    exact .ite ha.slotCanopy (ha.slotBegin ha.slotBase)

/-- The start of a slot: whatever decides it, the slot has begun. -/
theorem slotStart_begun (s : State) (asn : Nat) : Begun s asn (s.slotStart asn) := by
  obtain ⟨he, hl⟩ := silenceCount_counts s asn
  unfold State.slotStart
  dsimp only
  generalize (s.silenceCount asn).slotClear = t at *
  have ht : Serves s asn (t.setNtu fun n => { n with lastAsn := some asn }) := ⟨he, hl, rfl⟩
  refine Serves.slotDecide (Serves.calm ?_ fun h => h.setCad)
  split
  · exact ht.modeAtTick
  · exact ht.modeAtTick.calm fun h => h.resolveSlot

/-! ## The tick -/

/-- What the tick of a slot cuts leaves the state that time left, but for the radio's work. -/
theorem tick_cuts (s : State) : Calm s.still s.phaseBegin.cutJobs.consider := (Calm.refl s).phaseBegin.cutJobs.consider

/-- A tick that is due, with no stop waiting. -/
theorem slotTick_serves (s : State) (t : Frc) (hd : (s.advance t).tickDue = true) (hs : s.cad.stopping = false)
    (hn : s.cad.silentNow = false) :
    Does (.slotTick t) s fun u => u.ntu.lastAsn = some (s.advance t).asnNow
      ∧ ∃ sl, u.slot = some sl ∧ sl.asn = (s.advance t).asnNow ∧ sl.tickNt = s.epoch + sl.asn * s.slotLen ∧ sl.tail = false
        ∧ sl.tailDone = 0 := by
  have hc := tick_cuts (s.advance t)
  have hstop : (s.advance t).phaseBegin.cutJobs.consider.cad.stopping = false :=
    (congrArg Still.stopping hc.eq).trans ((congrArg CadState.stopping (advance_cad s t)).trans hs)
  have hsilent : (s.advance t).phaseBegin.cutJobs.consider.cad.silentNow = false :=
    (congrArg Still.silentNow hc.eq).trans ((congrArg CadState.silentNow (advance_cad s t)).trans hn)
  have hexec : ∃ l, exec (.slotTick t) s = .next ((s.advance t).phaseBegin.hold
      (((s.advance t).phaseBegin.cutJobs.consider.slotStart (s.advance t).asnNow).publishAll l)) := by
    show ∃ l, execSlotTick t s = _
    unfold execSlotTick
    dsimp only
    rw [hd, hstop, hsilent]
    exact ⟨_, rfl⟩
  obtain ⟨l, hexec⟩ := hexec
  refine ⟨_, hexec, ?_⟩
  obtain ⟨hlast, sl, hsl, hasn, htick, htail, hdone⟩ := slotStart_begun (s.advance t).phaseBegin.cutJobs.consider (s.advance t).asnNow
  have he : (s.advance t).phaseBegin.cutJobs.consider.epoch = s.epoch := by
    rw [epoch_calm hc]
    unfold State.epoch State.raw
    rw [rget_advance, rget_advance]
  have hlen : (s.advance t).phaseBegin.cutJobs.consider.slotLen = s.slotLen := by
    rw [slotLen_calm hc]
    unfold State.slotLen
    rw [fget_advance]
  refine ⟨?_, sl, ?_, hasn, ?_, htail, hdone⟩
  · show (State.publishAll _ _).ntu.lastAsn = _
    rw [publishAll_ntu, hlast]
  · show (State.publishAll _ _).slot = _
    rw [publishAll_slot, hsl]
  · rw [htick, he, hlen, hasn]

/-- A tick that is due completes the stop that waited (R174). -/
theorem slotTick_stops (s : State) (t : Frc) (ho : NothingOwed s) (hd : (s.advance t).tickDue = true) (hs : s.cad.stopping = true)
    (hb : s.slot.isSome) :
    Does (.slotTick t) s fun u => u.slot = none ∧ u.fbit CAD_CTRL.EN = false ∧ u.cad.stopping = false := by
  have hc := tick_cuts (s.advance t)
  have hstop : (s.advance t).phaseBegin.cutJobs.consider.cad.stopping = true :=
    (congrArg Still.stopping hc.eq).trans ((congrArg CadState.stopping (advance_cad s t)).trans hs)
  have hpend : (s.advance t).phaseBegin.cutJobs.consider.ovl.pending = none :=
    (congrArg (fun y => y.ovl.pending) hc.eq).trans ((congrArg OvlState.pending (advance_ovl s t)).trans ho.1)
  have hbusy : (s.advance t).slot.isSome = true := by rw [advance_slot, hb]
  have hexec : ∃ l, exec (.slotTick t) s
      = .next (((s.advance t).phaseBegin.cutJobs.consider.cadStop.publishAll l).ovlSettle coreHook) := by
    show ∃ l, execSlotTick t s = _
    unfold execSlotTick
    dsimp only
    rw [hd, hstop, hbusy]
    exact ⟨_, rfl⟩
  obtain ⟨l, hexec⟩ := hexec
  obtain ⟨hslot, hen, hst, hp⟩ := cadHalt_stops (s.advance t).phaseBegin.cutJobs.consider .ctrl
  have hq : ((s.advance t).phaseBegin.cutJobs.consider.cadStop.publishAll l).ovl.pending = none := by
    rw [publishAll_ovl]
    exact hp.trans hpend
  have hsettle : (((s.advance t).phaseBegin.cutJobs.consider.cadStop.publishAll l).ovlSettle coreHook)
      = (s.advance t).phaseBegin.cutJobs.consider.cadStop.publishAll l := by
    unfold State.ovlSettle
    rw [hq]
  refine ⟨_, hexec, ?_⟩
  rw [hsettle]
  refine ⟨by rw [publishAll_slot]; exact hslot, ?_, by rw [publishAll_cad]; exact hst⟩
  unfold State.fbit State.fget at *
  rw [(publishAll_only _ l).off _ (by decide)]
  exact hen

/-- A tick that is not due lets time pass. -/
theorem slotTick_idle (s : State) (t : Frc) (hd : (s.advance t).tickDue = false) :
    Does (.slotTick t) s fun u => u = s.advance t ∧ TimeOnly s u := by
  refine ⟨s.advance t, ?_, rfl, advance_only s t⟩
  show execSlotTick t s = _
  unfold execSlotTick
  dsimp only
  rw [hd]
  rfl

/-- Settles O18: the slot of its time is served, a stop that waited is completed, and a tick that is not due does nothing. -/
theorem slotTick : Obligations.SlotTick := ⟨slotTick_serves, slotTick_stops, slotTick_idle⟩

end Sys2Proof.Machine
end

section
/-!
OSCILLATORS (O17). The loss of the HFXO leads to RECOVERY, that of the LFXO to its fault record; a slew that ends has been applied whole.
-/
namespace Sys2Proof.Machine
open Sys2Proof
set_option Elab.async false

variable {s a : State}

/-! ## RECOVERY (R455) -/

theorem domUp_app_of_run {s : State} (hs : s.pwr.st = .run) (he : s.pwr.exc = false) : s.domUp .app = true := by
  unfold State.domUp State.dom
  rw [hs, he]
  rfl

/-- Where D_APP holds its registers, a fault is recorded with the slot that it met (R459). -/
theorem sysFault_up {s : State} (h : s.domUp .app = true) (code : Nat) :
    s.sysFault code = (s.fset SYS_FAULT.CODE code).fset SYS_FAULT.ASN s.asnNow := if_pos h
theorem pagesOnly_sysFault {l : List Nat} {s t : State} (h : PagesOnly l s t) (code : Nat) (hl : onPages l SYS_FAULT.addr = true) :
    PagesOnly l s (t.sysFault code) := by
  unfold State.sysFault
  split
  · exact pagesOnly_fset (pagesOnly_fset h _ _ hl) _ _ hl
  · exact h

theorem ovlSettle_none {s : State} (hook : WCtx → State → State) (h : s.ovl.pending = none) : s.ovlSettle hook = s := by
  unfold State.ovlSettle
  rw [h]

/-- RECOVERY begins: `s` with the fault recorded, the interrupt raised and the state shown. -/
def State.recovering (s : State) (code : Nat) : State :=
  (((s.setSys fun y => { y with st := .recovery }).setCad fun c => { c with silentNow := false }).sysFault code).raise Pg.SYS 0

/-- Beside registers RECOVERY's start changes the state shown and the autonomy limit. -/
theorem recovering_only (s : State) (code : Nat) : s.recovering code =
    { (s.setSys fun y => { y with st := .recovery }).setCad fun c => { c with silentNow := false } with regs := (s.recovering code).regs } :=
  (pagesOnly_fset (pagesOnly_sysFault (pagesOnly_refl [Pg.SYS] _) code (by decide)) _ _ (by decide)).1
theorem recovering_parts (s : State) (code : Nat) : (s.recovering code).sys = { s.sys with st := .recovery }
    ∧ (s.recovering code).ntu = s.ntu ∧ (s.recovering code).slot = s.slot := by
  rw [recovering_only]
  exact ⟨rfl, rfl, rfl⟩

/-- What comes before the fault record of RECOVERY leaves as a stop of Cadence does. -/
theorem recover_eq {s : State} (code : Nat) (hh : s.sys.held = none) (hp : s.ovl.pending = none) :
    ∃ t, s.recover code = t.recovering code ∧ Loose s.quietened t := by
  unfold State.recover
  rw [hh]
  extract_lets air s₁ s₂ s₃ s₄ s₅
  have h₁ : Loose s s₁ := (Loose.refl s).calm fun h => h.txAbort
  clear_value s₁ air
  have h₂ : Loose s s₂ := by
    unfold s₂
    cases air with
    | some k => exact .ite h₁ (h₁.calm fun h => h.attemptCount)
    | none => exact h₁
  clear_value s₂
  have h₄ : Loose s.quietened s₄ := h₂.cadHalt.calm fun h => h.foldl fun h => h.laneStop
  clear_value s₄
  have hq : (s₄.recovering code).ovl.pending = none := by
    have hs : s.quietened.ovl.pending = none := hp
    rw [← hs, ← h₄.pending, recovering_only]
    rfl
  exact ⟨s₄, ovlSettle_none coreHook hq, h₄⟩

/-- Of the registers those of SYS_FAULT and of the page's interrupts change. -/
theorem recovering_rget (s : State) (code r : Nat) (hf : r ≠ SYS_FAULT.addr) (hi : r ≠ (INT_RAW.bit Pg.SYS 0).addr) :
    (s.recovering code).rget r = s.rget r := by
  unfold State.recovering State.sysFault
  rw [rget_raise_ne _ _ _ _ hi]
  split
  · rw [rget_fset_ne _ _ _ _ hf, rget_fset_ne _ _ _ _ hf]
    rfl
  · rfl
theorem recovering_code {s : State} (code : Nat) (h : s.domUp .app = true) :
    (s.recovering code).fget SYS_FAULT.CODE = code % 2 ^ SYS_FAULT.CODE.width := by
  unfold State.recovering
  rw [sysFault_up (by exact h), fget_raise_apart _ _ _ _ (by decide) (by decide), fget_fset_apart _ _ _ _ (by decide) (by decide),
    fget_fset_self _ _ _ (by decide)]

/-- RECOVERY after a fault in RUN. -/
theorem recover_leaves {s : State} (code : Nat) (hh : s.sys.held = none) (hp : s.ovl.pending = none) (hs : s.pwr.st = .run)
    (he : s.pwr.exc = false) :
    (s.recover code).sys = { s.sys with st := .recovery } ∧ (s.recover code).slot = none ∧ (s.recover code).fbit CAD_CTRL.EN = false
      ∧ (s.recover code).fget SYS_FAULT.CODE = code % 2 ^ SYS_FAULT.CODE.width ∧ (s.recover code).fget (INT_RAW.bit Pg.SYS 0) = 1
      ∧ (s.recover code).ntu.handoff = s.ntu.handoff ∧ (s.recover code).ntu.entry = s.ntu.entry
      ∧ (s.recover code).rget SYS_STAT.addr = s.rget SYS_STAT.addr := by
  obtain ⟨t, e, h⟩ := recover_eq code hh hp
  obtain ⟨hsys, hntu, hslot⟩ := recovering_parts t code
  have hup : t.domUp .app = true := domUp_app_of_run (h.power.trans hs) (h.exc.trans he)
  have hen : t.fbit CAD_CTRL.EN = false := by
    have hq := quietened_en s
    unfold State.fbit State.fget at *
    rw [h.regs _ (by decide) (by decide)]
    exact hq
  rw [e]
  refine ⟨?_, ?_, ?_, recovering_code code hup, fget_raise_self _ _ _ (by decide), ?_, ?_, ?_⟩
  · rw [hsys, h.sys]
    rfl
  · rw [hslot]
    exact Option.isNone_iff_eq_none.1 h.idle
  · unfold State.fbit State.fget at *
    rw [recovering_rget t code _ (by decide) (by decide)]
    exact hen
  · rw [hntu]
    exact h.handoff
  · rw [hntu]
    exact h.entry
  · rw [recovering_rget t code _ (by decide) (by decide), h.regs _ (by decide) (by decide)]
    exact quietened_rget s _ (by decide)

/-! ## HFXO (R459, R266) -/

/-- The clocks that the HFXO feeds are gone, and the clock is at step 0. -/
def State.hfxoGone (s : State) : State :=
  let s := (s.fset SYS_STAT.HFXO_FAIL 1).setSys fun y => { y with hfxoStable := false, syspllLock := false }
  if 0 < s.fget AVS_STAT.STEP then s.avsStep 0 else s

theorem Calm.avsStep {x : Still} {k : Nat} (h : Calm x s) : Calm x (s.avsStep k) := h.fset.fset.raise

theorem hfxoGone_leaves (s : State) : s.hfxoGone.sys = { s.sys with hfxoStable := false, syspllLock := false } ∧ s.hfxoGone.ovl = s.ovl
    ∧ s.hfxoGone.pwr.st = s.pwr.st ∧ s.hfxoGone.pwr.exc = s.pwr.exc
    ∧ s.hfxoGone.rget SYS_STAT.addr = (s.fset SYS_STAT.HFXO_FAIL 1).rget SYS_STAT.addr := by
  have h : Calm ((s.fset SYS_STAT.HFXO_FAIL 1).setSys fun y => { y with hfxoStable := false, syspllLock := false }).still s.hfxoGone :=
    (Calm.refl _).when fun h => h.avsStep
  exact ⟨congrArg Still.sys h.eq, congrArg Still.ovl h.eq, congrArg Still.power h.eq, congrArg Still.exc h.eq, h.rget⟩

/-- FRC handed to the sleep counter: an entry is noted, and nothing else changes but a note that it is not calibrated (R266). -/
theorem sleepHandoff_leaves (s : State) : s.sleepHandoff.ntu.handoff = true ∧ s.sleepHandoff.ntu.entry.isSome
    ∧ s.sleepHandoff.sys = s.sys ∧ s.sleepHandoff.ovl = s.ovl ∧ s.sleepHandoff.pwr = s.pwr
    ∧ s.sleepHandoff.rget SYS_STAT.addr = s.rget SYS_STAT.addr := by
  unfold State.sleepHandoff
  extract_lets valid t now
  have ht : PagesOnly [Pg.NTU] s t := by
    unfold t
    split
    · exact pagesOnly_refl _ _
    · exact pagesOnly_fset (pagesOnly_refl _ _) _ _ (by decide)
  obtain ⟨hregs, hoff⟩ := ht
  clear_value t now
  refine ⟨rfl, rfl, ?_, ?_, ?_, hoff SYS_STAT.addr (by decide)⟩ <;> rw [hregs] <;> rfl

/-- The loss of a running HFXO leads to RECOVERY with fault 4. -/
theorem hfxoLoss_recovers (s : State) (t : Frc) (ho : NothingOwed s) (hs : s.pwr.st = .run) (he : s.pwr.exc = false)
    (hx : s.sys.hfxoStable = true) (hh : s.sys.held = none) :
    Does (.hfxoLoss t) s fun u => u.sys.st = .recovery ∧ u.sys.hfxoStable = false ∧ u.sys.syspllLock = false
      ∧ u.fbit SYS_STAT.HFXO_FAIL = true ∧ u.fget SYS_FAULT.CODE = 4 ∧ u.fget (INT_RAW.bit Pg.SYS 0) = 1 ∧ u.ntu.handoff = true
      ∧ u.ntu.entry.isSome ∧ u.slot = none ∧ u.fbit CAD_CTRL.EN = false := by
  have hexec : exec (.hfxoLoss t) s = .next ((s.advance t).hfxoGone.sleepHandoff.recover 4) := by
    show execHfxoLoss t s = _
    have hc : (!(s.hfxoOn && s.sys.hfxoStable && s.sys.held.isNone)) = false := by
      unfold State.hfxoOn
      rw [hs, hx, hh]
      rfl
    unfold execHfxoLoss State.hfxoGone
    rw [hc, if_neg Bool.false_ne_true]
  obtain ⟨gsys, govl, gst, gexc, gstat⟩ := hfxoGone_leaves (s.advance t)
  obtain ⟨fhand, fentry, fsys, fovl, fpwr, fstat⟩ := sleepHandoff_leaves (s.advance t).hfxoGone
  rw [advance_sys] at gsys
  rw [advance_ovl] at govl
  rw [advance_pwr] at gst gexc
  obtain ⟨rsys, rslot, ren, rcode, rraw, rhand, rentry, rstat⟩ := recover_leaves (s := (s.advance t).hfxoGone.sleepHandoff) 4
    (by rw [fsys, gsys]; exact hh) (by rw [fovl, govl]; exact ho.1) (by rw [fpwr, gst, hs]) (by rw [fpwr, gexc, he])
  refine ⟨_, hexec, ?_, ?_, ?_, ?_, rcode, rraw, rhand.trans fhand, by rw [rentry]; exact fentry, rslot, ren⟩
  · rw [rsys]
  · rw [rsys, fsys, gsys]
  · rw [rsys, fsys, gsys]
  · unfold State.fbit State.fget
    rw [show SYS_STAT.HFXO_FAIL.addr = SYS_STAT.addr from rfl, rstat, fstat, gstat]
    show ((State.fset _ SYS_STAT.HFXO_FAIL 1).fget SYS_STAT.HFXO_FAIL != 0) = true
    rw [fget_fset_self _ _ _ (by decide)]
    rfl

/-! ## LFXO -/

theorem sysFault_fget (s : State) (code : Nat) (g : Fld) (h : g.addr ≠ SYS_FAULT.addr) : (s.sysFault code).fget g = s.fget g := by
  unfold State.sysFault
  split
  · rw [fget_fset_reg _ _ _ _ h, fget_fset_reg _ _ _ _ h]
  · rfl

/-- The loss of the LFXO is marked and recorded, and takes the calibration. -/
theorem lfxoLoss_records (s : State) (t : Frc) (hf : s.fbit SYS_STAT.LFXO_FAIL = false) (hh : s.sys.held = none) :
    Does (.lfxoLoss t) s fun u => u.fbit SYS_STAT.LFXO_FAIL = true ∧ u.fget (INT_RAW.bit Pg.SYS 2) = 1 ∧ u.fbit NTU_LFCAL.VALID = false
      ∧ (s.pwr.st = .run → s.pwr.exc = false → u.fget SYS_FAULT.CODE = 5) ∧ PagesOnly [Pg.SYS, Pg.NTU] (s.advance t) u := by
  refine ⟨((((s.advance t).fset SYS_STAT.LFXO_FAIL 1).raise Pg.SYS 2).sysFault 5).fset NTU_LFCAL.VALID 0, ?_, ?_, ?_, ?_, ?_, ?_⟩
  · show execLfxoLoss t s = _
    unfold execLfxoLoss
    rw [hf, hh]
    rfl
  · unfold State.fbit
    rw [fget_fset_apart _ _ _ _ (by decide) (by decide), sysFault_fget _ _ _ (by decide), fget_raise_apart _ _ _ _ (by decide) (by decide),
      fget_fset_self _ _ _ (by decide)]
    rfl
  · rw [fget_fset_apart _ _ _ _ (by decide) (by decide), sysFault_fget _ _ _ (by decide), fget_raise_self _ _ _ (by decide)]
  · unfold State.fbit
    rw [fget_fset_self _ _ _ (by decide)]
    rfl
  · intro hs he
    have hup : (((s.advance t).fset SYS_STAT.LFXO_FAIL 1).raise Pg.SYS 2).domUp .app = true :=
      domUp_app_of_run ((congrArg PwrS.st (advance_pwr s t)).trans hs) ((congrArg PwrS.exc (advance_pwr s t)).trans he)
    rw [sysFault_up hup, fget_fset_apart _ _ _ _ (by decide) (by decide), fget_fset_apart _ _ _ _ (by decide) (by decide),
      fget_fset_self _ _ _ (by decide)]
    rfl
  · exact pagesOnly_fset (pagesOnly_sysFault (pagesOnly_fset (pagesOnly_fset (pagesOnly_refl _ _) _ _ (by decide)) _ _ (by decide)) _
      (by decide)) _ _ (by decide)

theorem lfxoEdgesReturn_clears (s : State) :
    Does .lfxoEdgesReturn s fun u => u.fbit SYS_STAT.LFXO_FAIL = false ∧ PagesOnly [Pg.SYS] s u := by
  refine ⟨_, rfl, ?_, pagesOnly_fset (pagesOnly_refl _ _) _ _ (by decide)⟩
  unfold State.fbit
  rw [fget_fset_self _ _ _ (by decide)]
  rfl

/-! ## The end of a slew (R262) -/

/-- A correction that the time and NT's growth leave room for is slewed whole. -/
theorem slew_whole (s : State) (n : Nat) (hx : s.ntu.pend.natAbs * 1000000 ≤ s.slewMax * (n - max s.frcN s.ntu.slewHold) + s.ntu.slewFrac)
    (hroom : s.ntu.pend < 0 → (s.ntu.pend.natAbs : Int) ≤ (n : Int) - s.frcN + (s.rateTerm n - s.rateTerm s.frcN)) :
    (s.slew n).ntu.pend = 0 ∧ (s.slew n).ntu.offset = s.ntu.offset + BitVec.ofInt 64 s.ntu.pend
      ∧ (s.slew n).ntu.corr = s.ntu.corr + BitVec.ofInt 64 s.ntu.pend ∧ (s.slew n).ntu.anchor = s.ntu.anchor := by
  unfold State.slew
  split
  · next h0 => simp [h0]
  next h0 =>
    extract_lets x room inc sg p
    have hle : s.ntu.pend.natAbs ≤ x / 1000000 := (Nat.le_div_iff_mul_le (by decide)).2 hx
    have hinc : inc = s.ntu.pend.natAbs := by
      unfold inc
      rw [Nat.min_eq_right hle]
      refine Nat.min_eq_left ?_
      split
      · next hneg => exact Int.le_toNat (le_trans (Int.natCast_nonneg _) (hroom hneg)) |>.2 (hroom hneg)
      · exact hle
    have hsg : sg = s.ntu.pend := by
      unfold sg
      rw [hinc]
      split <;> omega
    have hp : p = 0 := by
      unfold p
      rw [hsg, sub_self]
    exact ⟨hp, by rw [← hsg], by rw [← hsg], rfl⟩

/-- Awake, and no more than 2^31 counts from the anchor, time passing slews and counts. -/
theorem advance_slews {s : State} {t : Frc} (hs : s.sleepStart = none) (ht : s.frcN < t.toNat)
    (ha : t.toNat - (s.slew t.toNat).ntu.anchor.toNat < 2 ^ 31) :
    (s.advance t).ntu = { (s.slew t.toNat).ntu with frc := BitVec.ofNat 64 t.toNat, entry := s.entryBy t.toNat } := by
  unfold State.advance
  rw [landing_awake s _ hs]
  dsimp only
  rw [if_neg (not_le.2 ht)]
  split
  · next hc =>
    unfold State.frcN at hc
    dsimp only at hc
    rw [BitVec.toNat_ofNat, Nat.mod_eq_of_lt t.isLt] at hc
    exact absurd hc (not_le.2 ha)
  · rfl

theorem slewEnd_applies (s : State) (t : Frc) (hs : s.sleepStart = none) (ht : s.frcN < t.toNat)
    (ha : t.toNat - s.ntu.anchor.toNat < 2 ^ 31)
    (hx : s.ntu.pend.natAbs * 1000000 ≤ s.slewMax * (t.toNat - max s.frcN s.ntu.slewHold) + s.ntu.slewFrac)
    (hroom : s.ntu.pend < 0 → (s.ntu.pend.natAbs : Int) ≤ (t.toNat : Int) - s.frcN + (s.rateTerm t.toNat - s.rateTerm s.frcN)) :
    Does (.slewEnd t) s fun u => u.ntu.pend = 0 ∧ u.ntu.frc = t ∧ u.ntu.offset = s.ntu.offset + BitVec.ofInt 64 s.ntu.pend
      ∧ u.ntu.corr = s.ntu.corr + BitVec.ofInt 64 s.ntu.pend ∧ TimeOnly s u := by
  obtain ⟨hpend, hoff, hcorr, hanchor⟩ := slew_whole s t.toNat hx hroom
  have hntu := advance_slews hs ht (by rw [hanchor]; exact ha)
  refine ⟨s.advance t, rfl, ?_, frc_advance s t ht.le hs, ?_, ?_, advance_only s t⟩ <;> rw [hntu]
  · exact hpend
  · exact hoff
  · exact hcorr

end Sys2Proof.Machine
end

section
/-!
VOLTAGE AND CLOCKS (O17). The voltage loop, the clock steps, the trims, the brown-out warning.
-/
namespace Sys2Proof.Machine
open Sys2Proof
set_option Elab.async false

variable {s t : State}

/-! ## The voltage loop (R413, R414) -/

/-- `t` is `s` but for the clock's step, the override and what their events do. -/
structure AvsKeeps (s t : State) : Prop where
  val : t.rget AVS_VAL.addr = s.rget AVS_VAL.addr
  req : t.fget AVS_CLK.REQ = s.fget AVS_CLK.REQ
  need : t.pwr.need = s.pwr.need
  mem : t.mem = s.mem
  ntu : t.ntu = s.ntu

theorem AvsKeeps.refl (s : State) : AvsKeeps s s := ⟨rfl, rfl, rfl, rfl, rfl⟩
theorem AvsKeeps.fset {f : Fld} {v : Nat} (h : AvsKeeps s t) (hv : AVS_VAL.addr ≠ f.addr) (hf : f.lo + f.width ≤ 32)
    (hr : AVS_CLK.REQ.addr ≠ f.addr ∨ AVS_CLK.REQ.lo + AVS_CLK.REQ.width ≤ f.lo ∨ f.lo + f.width ≤ AVS_CLK.REQ.lo) :
    AvsKeeps s (t.fset f v) :=
  ⟨(rget_fset_ne t f v _ hv).trans h.val, (fget_fset_apart t f _ v hf hr).trans h.req, h.need, h.mem, h.ntu⟩
theorem AvsKeeps.event {p b e : Nat} (h : AvsKeeps s t) : AvsKeeps s (t.event p b e) := by
  have he := event_only t p b e
  refine ⟨(he.off _ (by decide)).trans h.val, ?_, ?_, ?_, ?_⟩
  · rw [fget_event _ _ _ _ _ (by decide), h.req]
  · rw [he.eq]
    exact h.need
  · rw [event_mem, h.mem]
  · rw [event_ntu, h.ntu]
theorem AvsKeeps.withOver {b : Bool} (h : AvsKeeps s t) : AvsKeeps s (t.setPwr fun w => { w with avsOver := b }) :=
  ⟨h.val, h.req, h.need, h.mem, h.ntu⟩

theorem AvsKeeps.avsStep {k : Nat} (h : AvsKeeps s t) : AvsKeeps s (t.avsStep k) :=
  ((h.fset (by decide) (by decide) (by decide)).fset (by decide) (by decide) (by decide)).fset (by decide) (by decide) (by decide)
theorem AvsKeeps.avsClamp (h : AvsKeeps s t) : AvsKeeps s t.avsClamp := by
  unfold State.avsClamp
  extract_lets on was u
  have hu : AvsKeeps s u := h.withOver
  clear_value u
  split
  · exact ((hu.fset (by decide) (by decide) (by decide)).fset (by decide) (by decide) (by decide)).event
  · exact hu
theorem AvsKeeps.avsClock (h : AvsKeeps s t) : AvsKeeps s t.avsClock := by
  unfold State.avsClock
  dsimp only
  split
  · exact h.avsStep
  · split
    · exact h.avsStep
    · exact h

/-! ### Where the rail goes -/

theorem fget_lt (s : State) (f : Fld) : s.fget f < 2 ^ f.width := fieldGet_lt _ f
theorem avsCeiling_lt (s : State) : s.avsCeiling < 1024 := by
  have hcur : s.fget AVS_VAL.CUR < 1024 := fget_lt s AVS_VAL.CUR
  have hheld : s.fget AVS_HOLD.HELD < 1024 := fget_lt s AVS_HOLD.HELD
  have hlo : s.fget AVS_LIM.LIMIT_LO < 1024 := fget_lt s AVS_LIM.LIMIT_LO
  have hhi : s.fget AVS_LIM.LIMIT_HI < 1024 := fget_lt s AVS_LIM.LIMIT_HI
  unfold State.avsCeiling
  split
  · exact hcur
  · split <;> omega
theorem clampN_le (lo hi v : Nat) (h : lo ≤ hi) : clampN lo hi v ≤ hi := by
  unfold clampN
  split
  · exact h
  · split <;> omega
theorem avsTarget_lt (s : State) (want : Nat) : s.avsTarget want < 1024 := by
  refine lt_of_le_of_lt ?_ (avsCeiling_lt s)
  unfold State.avsTarget
  dsimp only
  split
  · exact le_rfl
  · exact clampN_le _ _ _ (Nat.min_le_left _ _)

/-- The rail moves by at most 10 mV, and stays within its field. -/
theorem avsMove_near {cur target : Nat} (hc : cur < 1024) (ht : target < 1024) :
    avsMove cur target < 1024 ∧ ((avsMove cur target : Int) - cur).natAbs ≤ 10 := by
  unfold avsMove
  split <;> omega

theorem AvsKeeps.fget {f : Fld} (h : AvsKeeps s t) (hf : f.addr = AVS_VAL.addr) : t.fget f = s.fget f := by
  unfold State.fget
  rw [hf, h.val]

/-- The wish is published, and the loop's inputs stand; in NAP and deeper that is all (R414). -/
theorem avsUpdate_want (s : State) : ∃ w : State, w = s.fset AVS_VAL.WANT s.avsWant
    ∧ s.avsUpdate = (if !(w.pwr.st = .run || w.pwr.st = .doze) then w
        else (w.fset AVS_VAL.CUR (avsMove (w.fget AVS_VAL.CUR) (w.avsTarget s.avsWant))).avsClamp.avsClock)
    ∧ w.fget AVS_VAL.WANT = s.avsWant % 1024 ∧ w.fget AVS_VAL.CUR = s.fget AVS_VAL.CUR
    ∧ w.fget AVS_STAT.STEP = s.fget AVS_STAT.STEP ∧ w.fget AVS_CLK.REQ = s.fget AVS_CLK.REQ :=
  ⟨_, rfl, rfl, fget_fset_self _ _ _ (by decide), fget_fset_apart _ _ _ _ (by decide) (by decide), fget_fset_reg _ _ _ _ (by decide),
    fget_fset_reg _ _ _ _ (by decide)⟩

/-- In RUN and DOZE the rail moves toward its target, by at most 10 mV. -/
theorem railMoved (w : State) (target : Nat) (ht : target < 1024) :
    ∃ v : State, v = w.fset AVS_VAL.CUR (avsMove (w.fget AVS_VAL.CUR) target) ∧ v.fget AVS_VAL.WANT = w.fget AVS_VAL.WANT
      ∧ ((v.fget AVS_VAL.CUR : Int) - w.fget AVS_VAL.CUR).natAbs ≤ 10 ∧ v.fget AVS_CLK.REQ = w.fget AVS_CLK.REQ := by
  obtain ⟨hlt, hnear⟩ := avsMove_near (fget_lt w AVS_VAL.CUR) ht
  refine ⟨_, rfl, fget_fset_apart _ _ _ _ (by decide) (by decide), ?_, fget_fset_reg _ _ _ _ (by decide)⟩
  rw [fget_fset_self _ _ _ (by decide), Nat.mod_eq_of_lt (show _ < 2 ^ AVS_VAL.CUR.width from hlt)]
  exact hnear

/-- An update of the loop (R414). -/
theorem avsUpdate_moves (s : State) :
    s.avsUpdate.fget AVS_VAL.WANT = s.avsWant % 1024 ∧ ((s.avsUpdate.fget AVS_VAL.CUR : Int) - s.fget AVS_VAL.CUR).natAbs ≤ 10
      ∧ (s.pwr.st ≠ .run → s.pwr.st ≠ .doze →
          s.avsUpdate.fget AVS_VAL.CUR = s.fget AVS_VAL.CUR ∧ s.avsUpdate.fget AVS_STAT.STEP = s.fget AVS_STAT.STEP)
      ∧ s.avsUpdate.fget AVS_CLK.REQ = s.fget AVS_CLK.REQ ∧ s.avsUpdate.pwr.need = s.pwr.need ∧ s.avsUpdate.mem = s.mem
      ∧ s.avsUpdate.ntu = s.ntu := by
  obtain ⟨w, hw, hu, hwant, hcur, hstep, hreq⟩ := avsUpdate_want s
  have hparts : w.pwr = s.pwr ∧ w.mem = s.mem ∧ w.ntu = s.ntu := by
    rw [hw, fset_pwr, fset_mem, fset_ntu]
    exact ⟨rfl, rfl, rfl⟩
  obtain ⟨hpwr, hmem, hntu⟩ := hparts
  rw [hu, hpwr]
  split
  · exact ⟨hwant, by rw [hcur]; omega, fun _ _ => ⟨hcur, hstep⟩, hreq, congrArg PwrS.need hpwr, hmem, hntu⟩
  next hrun =>
    obtain ⟨v, hv, hvwant, hvcur, hvreq⟩ := railMoved w _ (avsTarget_lt w s.avsWant)
    have hvparts : v.pwr = w.pwr ∧ v.mem = w.mem ∧ v.ntu = w.ntu := by
      rw [hv, fset_pwr, fset_mem, fset_ntu]
      exact ⟨rfl, rfl, rfl⟩
    obtain ⟨hvpwr, hvmem, hvntu⟩ := hvparts
    rw [← hv]
    have hk : AvsKeeps v v.avsClamp.avsClock := (AvsKeeps.refl v).avsClamp.avsClock
    refine ⟨by rw [hk.fget rfl, hvwant, hwant], by rw [hk.fget rfl, ← hcur]; exact hvcur, fun h1 h2 => ?_,
      hk.req.trans (hvreq.trans hreq), by rw [hk.need, hvpwr, hpwr], by rw [hk.mem, hvmem, hmem], by rw [hk.ntu, hvntu, hntu]⟩
    exact absurd (by simp [h1, h2]) hrun

theorem avsUpdate_publishes (s : State) (a b c d : Nat) (hoff : s.pwr.st ≠ .off) (hbackup : s.pwr.st ≠ .backup) :
    let s' : State := { s with pwr := { s.pwr with need := [a, b, c, d] } }
    Does (.avsUpdate a b c d) s fun u => u.pwr.need = [a, b, c, d] ∧ u.fget AVS_VAL.WANT = s'.avsWant % 1024
      ∧ ((u.fget AVS_VAL.CUR : Int) - s.fget AVS_VAL.CUR).natAbs ≤ 10
      ∧ (s.pwr.st ≠ .run → s.pwr.st ≠ .doze → u.fget AVS_VAL.CUR = s.fget AVS_VAL.CUR ∧ u.fget AVS_STAT.STEP = s.fget AVS_STAT.STEP)
      ∧ u.fget AVS_CLK.REQ = s.fget AVS_CLK.REQ ∧ u.mem = s.mem ∧ u.ntu = s.ntu := by
  intro s'
  have hexec : exec (.avsUpdate a b c d) s = .next s'.avsUpdate := by
    show Host.Outcome.next (if s.pwr.st = .off || s.pwr.st = .backup then s' else s'.avsUpdate) = _
    rw [if_neg (by simp [hoff, hbackup])]
  obtain ⟨hwant, hcur, hfrozen, hreq, hneed, hmem, hntu⟩ := avsUpdate_moves s'
  exact ⟨_, hexec, hneed, hwant, hcur, hfrozen, hreq, hmem, hntu⟩

/-! ## The request of a clock (R415) -/

/-- The override's note leaves the step that runs. -/
theorem avsClamp_step (s : State) : s.avsClamp.fget AVS_STAT.STEP = s.fget AVS_STAT.STEP := by
  unfold State.avsClamp
  extract_lets on was u
  have hu : u.fget AVS_STAT.STEP = s.fget AVS_STAT.STEP := rfl
  clear_value u
  split
  · rw [fget_event _ _ _ _ _ (by decide), fget_raise_apart _ _ _ _ (by decide) (by decide), fget_fset_apart _ _ _ _ (by decide) (by decide), hu]
  · exact hu

theorem avsStep_grants (s : State) (k : Nat) (hk : k < 4) : (s.avsStep k).fget AVS_STAT.STEP = k ∧ (s.avsStep k).fget AVS_CLK.GRANT = k
    ∧ (s.avsStep k).fget (INT_RAW.bit Pg.AVS 1) = 1 := by
  unfold State.avsStep
  refine ⟨?_, ?_, fget_raise_self _ _ _ (by decide)⟩
  · rw [fget_raise_apart _ _ _ _ (by decide) (by decide), fget_fset_reg _ _ _ _ (by decide), fget_fset_self _ _ _ (by decide)]
    exact Nat.mod_eq_of_lt hk
  · rw [fget_raise_apart _ _ _ _ (by decide) (by decide), fget_fset_self _ _ _ (by decide)]
    exact Nat.mod_eq_of_lt hk

/-- A write of AVS_CLK: the override follows the request, and a lower step is granted at once. -/
theorem writeReg_avsClk (s : State) (a : Acc) (v : Word) (ha : Accepted s a AVS_CLK.addr) :
    ∃ t : State, s.writeReg avsHook a AVS_CLK.addr v = (if t.fget AVS_CLK.REQ < t.fget AVS_STAT.STEP then t.avsStep (t.fget AVS_CLK.REQ) else t)
      ∧ t.fget AVS_CLK.REQ = fieldGet (writtenTo s a AVS_CLK.addr v) AVS_CLK.REQ ∧ t.fget AVS_STAT.STEP = s.fget AVS_STAT.STEP
      ∧ t.mem = s.mem ∧ t.ntu = s.ntu := by
  have hd : ∃ d, descOf AVS_CLK.addr = some d := ⟨_, rfl⟩
  obtain ⟨d, hd⟩ := hd
  have eq := storedBy_eq s a AVS_CLK.addr d v
  have hw : (storedBy s a AVS_CLK.addr d v).fget AVS_CLK.REQ = fieldGet (writtenTo s a AVS_CLK.addr v) AVS_CLK.REQ := by
    unfold State.fget writtenTo
    rw [hd, show AVS_CLK.REQ.addr = AVS_CLK.addr from rfl, rget_storedBy_self]
  have hs : (storedBy s a AVS_CLK.addr d v).fget AVS_STAT.STEP = s.fget AVS_STAT.STEP := by
    unfold State.fget
    rw [rget_storedBy_ne s a _ _ d v (by decide) (by decide) (by decide)]
  have hm : (storedBy s a AVS_CLK.addr d v).mem = s.mem ∧ (storedBy s a AVS_CLK.addr d v).ntu = s.ntu := by
    rw [eq]
    exact ⟨rfl, rfl⟩
  have hwrite : s.writeReg avsHook a AVS_CLK.addr v = avsHook (wctxOf s a AVS_CLK.addr d v) (storedBy s a AVS_CLK.addr d v) :=
    writeReg_ok avsHook s a _ v d ha (by decide +kernel) hd
  generalize storedBy s a AVS_CLK.addr d v = b at *
  have hk : AvsKeeps b b.avsClamp := (AvsKeeps.refl b).avsClamp
  refine ⟨b.avsClamp, hwrite.trans rfl, hk.req.trans hw, (avsClamp_step b).trans hs, hk.mem.trans hm.1, hk.ntu.trans hm.2⟩

theorem avsClkReq_grants (s : State) (a : Acc) (v : Word) (ha : Accepted s a AVS_CLK.addr) :
    let r := fieldGet (writtenTo s a AVS_CLK.addr v) AVS_CLK.REQ
    Does (.avsClkReq a v) s fun u => u.fget AVS_CLK.REQ = r
      ∧ (r < s.fget AVS_STAT.STEP → u.fget AVS_STAT.STEP = r ∧ u.fget AVS_CLK.GRANT = r ∧ u.fget (INT_RAW.bit Pg.AVS 1) = 1)
      ∧ (s.fget AVS_STAT.STEP ≤ r → u.fget AVS_STAT.STEP = s.fget AVS_STAT.STEP) ∧ u.mem = s.mem ∧ u.ntu = s.ntu := by
  intro r
  obtain ⟨t, hw, hreq, hstep, hmem, hntu⟩ := writeReg_avsClk s a v ha
  have hr : r < 4 := fieldGet_lt _ AVS_CLK.REQ
  change t.fget AVS_CLK.REQ = r at hreq
  refine ⟨_, congrArg Host.Outcome.next hw, ?_⟩
  rw [hreq, hstep]
  split
  next hlt =>
    obtain ⟨h1, h2, h3⟩ := avsStep_grants t r hr
    have hk : AvsKeeps t (t.avsStep r) := (AvsKeeps.refl t).avsStep
    exact ⟨hk.req.trans hreq, fun _ => ⟨h1, h2, h3⟩, fun hle => absurd hlt (not_lt.2 hle), hk.mem.trans hmem, hk.ntu.trans hntu⟩
  next hge => exact ⟨hreq, fun hlt => absurd hlt hge, fun _ => hstep, hmem, hntu⟩

/-! ## Trims and clocks (R416) -/

/-- Registers changed after a write that changed registers and the bus. -/
theorem regsBus_of_regs {s b u : State} {e : BusState} (hb : b = { s with regs := b.regs, bus := e }) (hu : u = { b with regs := u.regs }) :
    u = { s with regs := u.regs, bus := u.bus } := by
  have hbus : u.bus = b.bus := by rw [hu]
  rw [hbus]
  exact hu.trans (by rw [hb])

/-- The context of a trim's write. -/
theorem clkHook_eq (w : WCtx) (s : State) (hw : w.off = 0x040 ∨ w.off = 0x044) :
    clkHook w s = if s.fbit CAD_CTRL.EN then ((s.rsetN w.addr w.old).fset CLK_STAT.TRIM_REF 1).raise Pg.CLK 0 else s := by
  unfold clkHook
  rcases hw with hw | hw <;> rw [hw] <;> rfl

/-- A trim is stored while Cadence is disabled, and refused while it is enabled. -/
theorem trimWrite_settles (s : State) (a : Acc) (v : Word) (x : Nat) (ha : Accepted s a x) (hp : plainReg x = true)
    (hd : (descOf x).isSome) (hpage : pageAddr (pageOf x) (baseOff x) = x) (hclk : onPages [Pg.CLK] x = true)
    (hoff : baseOff x = 0x040 ∨ baseOff x = 0x044)
    (hx : x ≠ OVL_DIRTY_LO.addr ∧ x ≠ OVL_DIRTY_HI.addr ∧ x ≠ CLK_STAT.addr ∧ x ≠ (INT_RAW.bit Pg.CLK 0).addr ∧ x ≠ CAD_CTRL.addr) :
    (s.fbit CAD_CTRL.EN = false → (s.writeReg clkHook a x v).raw x = writtenTo s a x v
        ∧ s.writeReg clkHook a x v = { s with regs := (s.writeReg clkHook a x v).regs, bus := (s.writeReg clkHook a x v).bus })
      ∧ (s.fbit CAD_CTRL.EN = true → (s.writeReg clkHook a x v).raw x = s.raw x ∧ (s.writeReg clkHook a x v).fbit CLK_STAT.TRIM_REF = true
        ∧ (s.writeReg clkHook a x v).fget (INT_RAW.bit Pg.CLK 0) = 1
        ∧ s.writeReg clkHook a x v = { s with regs := (s.writeReg clkHook a x v).regs, bus := (s.writeReg clkHook a x v).bus }) := by
  obtain ⟨hlo, hhi, hstat, hraw, hcad⟩ := hx
  obtain ⟨d, hd⟩ := Option.isSome_iff_exists.1 hd
  have hwrite := writeReg_ok clkHook s a x v d ha hp hd
  rw [clkHook_eq _ _ hoff] at hwrite
  have haddr : (wctxOf s a x d v).addr = x := hpage
  have hold : (wctxOf s a x d v).old = (s.rget x).toNat := rfl
  rw [haddr, hold] at hwrite
  have eq := storedBy_eq s a x d v
  have hself := rget_storedBy_self s a x d v
  have hen : (storedBy s a x d v).fbit CAD_CTRL.EN = s.fbit CAD_CTRL.EN := by
    unfold State.fbit State.fget
    rw [rget_storedBy_ne s a x CAD_CTRL.EN.addr d v hcad.symm (by decide) (by decide)]
  generalize storedBy s a x d v = b at *
  rw [hwrite, hen]
  constructor
  · intro he
    rw [he, if_neg Bool.false_ne_true]
    refine ⟨?_, by rw [eq]⟩
    unfold State.raw writtenTo
    rw [hself, hd]
  · intro he
    rw [he, if_pos rfl]
    refine ⟨?_, ?_, fget_raise_self _ _ _ (by decide), ?_⟩
    · unfold State.raw
      rw [rget_raise_ne _ _ _ _ hraw, rget_fset_ne _ _ _ _ hstat]
      show (State.raw _ _) = _
      rw [raw_rsetN_self, Nat.mod_eq_of_lt (s.rget x).isLt]
    · unfold State.fbit
      rw [fget_raise_apart _ _ _ _ (by decide) (by decide), fget_fset_self _ _ _ (by decide)]
      rfl
    · exact regsBus_of_regs eq (pagesOnly_fset (pagesOnly_fset (pagesOnly_rset (pagesOnly_refl [Pg.CLK] b) x _ hclk) _ _ (by decide)) _ _
        (by decide)).1

theorem clkTrimWrite_settles (s : State) (a : Acc) (lf : Bool) (v : Word) :
    let x := if lf then CLK_LFXO.addr else CLK_HFXO.addr
    Accepted s a x →
      (s.fbit CAD_CTRL.EN = false → Does (.clkTrimWrite a lf v) s fun u => u.raw x = writtenTo s a x v ∧ u = { s with regs := u.regs, bus := u.bus })
      ∧ (s.fbit CAD_CTRL.EN = true → Does (.clkTrimWrite a lf v) s fun u => u.raw x = s.raw x ∧ u.fbit CLK_STAT.TRIM_REF = true
          ∧ u.fget (INT_RAW.bit Pg.CLK 0) = 1 ∧ u = { s with regs := u.regs, bus := u.bus }) := by
  intro x ha
  have hx := trimWrite_settles s a v x ha (by cases lf <;> decide +kernel) (by cases lf <;> decide +kernel) (by cases lf <;> decide)
    (by cases lf <;> decide)
    (by cases lf <;> decide) (by cases lf <;> decide)
  exact ⟨fun he => ⟨_, rfl, hx.1 he⟩, fun he => ⟨_, rfl, hx.2 he⟩⟩

theorem hfxoStable_marks (s : State) (h : s.hfxoOn = true) :
    Does .hfxoStable s fun u => u = { s with sys := { s.sys with hfxoStable := true } } :=
  ⟨_, congrArg Host.Outcome.next (if_pos h), rfl⟩
theorem syspllLock_marks (s : State) (hx : s.sys.hfxoStable = true) (hup : s.domUp .app = true) :
    Does .syspllLock s fun u => u = { s with sys := { s.sys with syspllLock := true } } := by
  refine ⟨_, ?_, rfl⟩
  show execSyspllLock s = _
  unfold execSyspllLock
  rw [hx, hup]
  rfl

/-! ## The brown-out warning (R417) -/

theorem wakeEvent_only (s : State) (b : Nat) : s.wakeEvent b = s.setPwr fun _ => (s.wakeEvent b).pwr := by
  unfold State.wakeEvent
  split <;> rfl

/-- The warning's mark and its interrupt. -/
def State.bodMarked (s : State) : State := (s.fset PWR_STAT.BOD_WARN 1).raise Pg.PWR 3

theorem bodMarked_leaves (s : State) : s.bodMarked.fget PWR_STAT.BOD_WARN = 1 ∧ s.bodMarked.fget (INT_RAW.bit Pg.PWR 3) = 1
    ∧ s.bodMarked.mem = s.mem ∧ s.bodMarked.ntu = s.ntu ∧ s.bodMarked.cad = s.cad := by
  unfold State.bodMarked
  refine ⟨?_, fget_raise_self _ _ _ (by decide), by rw [raise_mem, fset_mem], by rw [raise_ntu, fset_ntu], by rw [raise_cad, fset_cad]⟩
  rw [fget_raise_apart _ _ _ _ (by decide) (by decide), fget_fset_self _ _ _ (by decide)]
  rfl

/-- A warning is marked and raised once. -/
theorem bodWarn_marks (s : State) (hs : s.pwr.st ≠ .backup) (hw : s.fbit PWR_STAT.BOD_WARN = false) :
    Does .bodWarn s fun u => u.fbit PWR_STAT.BOD_WARN = true ∧ u.fget (INT_RAW.bit Pg.PWR 3) = 1 ∧ u.mem = s.mem ∧ u.ntu = s.ntu
      ∧ u.cad = s.cad := by
  have hexec : exec .bodWarn s = .next ((s.bodMarked.wakeEvent 5).event Pg.PWR 0 75) := by
    refine if_neg ?_
    rw [hw]
    simp [hs]
  obtain ⟨hflag, hint, hparts⟩ := bodMarked_leaves s
  refine ⟨_, hexec, ?_⟩
  generalize s.bodMarked = t at *
  have hget (f : Fld) : (t.wakeEvent 5).fget f = t.fget f := by rw [wakeEvent_only, fget_setPwr]
  unfold State.fbit
  rw [fget_event _ _ _ _ _ (by decide), fget_event _ _ _ _ _ (by decide), event_mem, event_ntu, event_cad, hget, hget, hflag, wakeEvent_only,
    setPwr_mem, setPwr_ntu, setPwr_cad]
  exact ⟨rfl, hint, hparts⟩

theorem bodWarn_once (s : State) (hs : s.pwr.st ≠ .backup) :
    (s.fbit PWR_STAT.BOD_WARN = false → Does .bodWarn s fun u => u.fbit PWR_STAT.BOD_WARN = true ∧ u.fget (INT_RAW.bit Pg.PWR 3) = 1
        ∧ u.mem = s.mem ∧ u.ntu = s.ntu ∧ u.cad = s.cad)
      ∧ (s.fbit PWR_STAT.BOD_WARN = true → Does .bodWarn s fun u => u = s)
      ∧ Does .bodWarnClear s fun u => u.fbit PWR_STAT.BOD_WARN = false ∧ PagesOnly [Pg.PWR] s u := by
  refine ⟨bodWarn_marks s hs, fun hw => ⟨s, ?_, rfl⟩, s.fset PWR_STAT.BOD_WARN 0, congrArg Host.Outcome.next (if_neg hs), ?_,
    pagesOnly_fset (pagesOnly_refl _ _) _ _ (by decide)⟩
  · show execBodWarn s = _
    unfold execBodWarn
    rw [hw, Bool.or_true, if_pos rfl]
  · unfold State.fbit
    rw [fget_fset_self _ _ _ (by decide)]
    rfl

/-- Settles O17: the oscillators and the slew, then the voltage loop, the clocks and the warning. -/
theorem clocksAndVoltage : Obligations.ClocksAndVoltage :=
  ⟨⟨hfxoLoss_recovers, lfxoLoss_records, lfxoEdgesReturn_clears, slewEnd_applies⟩,
    avsUpdate_publishes, avsClkReq_grants, clkTrimWrite_settles, hfxoStable_marks, syspllLock_marks, bodWarn_once⟩

end Sys2Proof.Machine
end

section
/-!
THE HOST'S PRIVILEGED COMMANDS AND THE DEBUG PORTS (O45). The deassertion, the record of a privileged command and its effects, boundary
scan, and accesses of the debug port. Factory defaults follow in a section of their own, with the boot ROM.
-/
namespace Sys2Proof.Machine
open Sys2Proof
set_option Elab.async false

variable {s t : State}

/-! ## The deassertion (R430, R433, R441) -/

/-- A configuration and a window, where there are, take effect. -/
def State.portSet (s : State) (cfg : Option Word) (win : Option Nat) : State :=
  let s := match cfg with | some c => s.rset HSP_CFG.addr c | none => s
  match win with | some w => s.rsetN HSP_WIN.addr w | none => s

theorem portSet_only (s : State) (cfg : Option Word) (win : Option Nat) : PagesOnly [Pg.HSP] s (s.portSet cfg win) := by
  have h := pagesOnly_refl [Pg.HSP] s
  unfold State.portSet
  cases cfg with
  | none =>
    cases win with
    | none => exact h
    | some w => exact pagesOnly_rset h _ _ (by decide)
  | some c =>
    cases win with
    | none => exact pagesOnly_rset h _ _ (by decide)
    | some w => exact pagesOnly_rset (pagesOnly_rset h _ _ (by decide)) _ _ (by decide)
theorem portSet_cfg (s : State) (cfg : Option Word) (win : Option Nat) :
    (s.portSet cfg win).rget HSP_CFG.addr = cfg.getD (s.rget HSP_CFG.addr) := by
  unfold State.portSet
  cases cfg with
  | none =>
    cases win with
    | none => rfl
    | some w => exact rget_rsetN_ne s _ w _ (by decide)
  | some c =>
    cases win with
    | none => exact rget_rset_self s _ c
    | some w => exact (rget_rsetN_ne (s.rset HSP_CFG.addr c) _ w _ (by decide)).trans (rget_rset_self s _ c)
theorem portSet_win (s : State) (cfg : Option Word) (w : Nat) : (s.portSet cfg (some w)).raw HSP_WIN.addr = w % 2 ^ 32 := by
  unfold State.portSet
  exact raw_rsetN_self _ _ _

/-- The port after a deassertion that no reset and no command waited for. -/
def State.deasserted (s : State) : State := s.setHsp fun h => { h with cs := false, cfg := none, win := none, en := none, srst := false }

theorem hspDeassert_eq (s : State) (hb : s.busUp = true) (hd : s.domUp .app = true) (hs : s.sys.strapsDue = none) (hp : s.hsp.priv = none)
    (hr : s.hsp.srst = false) (he : s.hsp.en = none) : s.hspDeassert = (s.deasserted.portSet s.hsp.cfg s.hsp.win).hspRoute := by
  have happly : (s.setHsp fun h => { h with cs := false }).hspApply = s.deasserted.portSet s.hsp.cfg s.hsp.win := by
    unfold State.hspApply State.deasserted State.portSet State.setHsp
    dsimp only
    rw [he, hr, if_neg Bool.false_ne_true] <;> rfl
  have hpriv : (s.deasserted.portSet s.hsp.cfg s.hsp.win).hsp.priv = none := by
    rw [(portSet_only _ _ _).1]
    exact hp
  unfold State.hspDeassert
  dsimp only
  rw [setHsp_sys, hs]
  dsimp only
  rw [show (s.setHsp fun h => { h with cs := false }).busUp = true from hb,
    show (s.setHsp fun h => { h with cs := false }).domUp .app = true from hd, Bool.and_self, Bool.not_true, if_neg Bool.false_ne_true,
    happly, hpriv]

theorem hspCsDeassert_applies (s : State) (hb : s.busUp = true) (hd : s.domUp .app = true) (hs : s.sys.strapsDue = none)
    (hp : s.hsp.priv = none) (hr : s.hsp.srst = false) (he : s.hsp.en = none) :
    Does .hspCsDeassert s fun u => u.hsp.cs = false ∧ u.hsp.cfg = none ∧ u.hsp.win = none
      ∧ (∀ c, s.hsp.cfg = some c → u.rget HSP_CFG.addr = c) ∧ (∀ w, s.hsp.win = some w → u.raw HSP_WIN.addr = w % 2 ^ 32)
      ∧ (s.hsp.cfg = none → u.rget HSP_CFG.addr = s.rget HSP_CFG.addr) ∧ RegsOff (onPages [Pg.HSP]) s u
      ∧ u = { s with hsp := u.hsp, regs := u.regs } := by
  refine ⟨_, congrArg Host.Outcome.next (hspDeassert_eq s hb hd hs hp hr he), ?_⟩
  obtain ⟨honly, hoff⟩ := portSet_only s.deasserted s.hsp.cfg s.hsp.win
  have hcfg := portSet_cfg s.deasserted s.hsp.cfg s.hsp.win
  have hwin := portSet_win s.deasserted s.hsp.cfg
  have hhsp : (s.deasserted.portSet s.hsp.cfg s.hsp.win).hsp = s.deasserted.hsp := by rw [honly]
  have hw (w : Nat) (e : s.hsp.win = some w) : (s.deasserted.portSet s.hsp.cfg s.hsp.win).raw HSP_WIN.addr = w % 2 ^ 32 := by
    rw [e]
    exact hwin w
  generalize s.deasserted.portSet s.hsp.cfg s.hsp.win = t at *
  refine ⟨?_, ?_, ?_, fun c e => hcfg.trans (by rw [e]; rfl), hw, fun e => hcfg.trans (by rw [e]; rfl), hoff, ?_⟩
  · show t.hsp.cs = false
    rw [hhsp]
    rfl
  · show t.hsp.cfg = none
    rw [hhsp]
    rfl
  · show t.hsp.win = none
    rw [hhsp]
    rfl
  · unfold State.hspRoute State.setHsp
    rw [honly]
    rfl

/-! ## The record of a privileged command (R63) -/

/-- A privileged command's word in HSP_PRIV. -/
def State.privWord (s : State) (code res : Nat) : Nat :=
  code + res * 2 ^ 4 + s.token.toNat * 2 ^ 7 + s.glade.sealOpen.toNat * 2 ^ 8 + s.prot.seq * 2 ^ 16

/-- The record and the interrupt of a privileged command. -/
def State.privNoted (s : State) (p : PrivCmd) : State :=
  ((s.setHsp fun h => { h with priv := none }).rsetN HSP_PRIV.addr (s.privWord p.code (s.privResult p))).raise Pg.HSP 2
/-- And its audit. -/
def State.privRecorded (s : State) (p : PrivCmd) : State :=
  (s.privNoted p).audit hostSource 2 Pg.HSP p.code 0 ((s.privNoted p).token.toNat + s.glade.sealOpen.toNat * 2) (s.privResult p)

theorem privRun_eq (s : State) (p : PrivCmd) :
    s.privRun p = if s.privResult p = 0 then (s.privRecorded p).privEffect p.code else s.privRecorded p := rfl

/-- The audit's entry: the ring takes it, OWN of the page names it, and PROT's interrupt is raised (R60, R61). -/
theorem audit_eq (s : State) (src : Source) (kind page off count old new : Nat) : ∃ p : ProtState, p.seq = (s.prot.seq + 1) % 65536
    ∧ s.audit src kind page off count old new = (({ s with prot := p } : State).fset (OWN.AUDSEQ page) (s.prot.seq % 256)).raise Pg.PROT 2 :=
  ⟨_, rfl, rfl⟩
theorem fset_fset_only (s : State) (f g : Fld) (x y : Nat) : (s.fset f x).fset g y = { s with regs := ((s.fset f x).fset g y).regs } := rfl
theorem audit_only (s : State) (src : Source) (kind page off count old new : Nat) :
    s.audit src kind page off count old new =
      { s with prot := (s.audit src kind page off count old new).prot, regs := (s.audit src kind page off count old new).regs } := by
  obtain ⟨p, -, e⟩ := audit_eq s src kind page off count old new
  rw [e, raise_prot, fset_prot]
  exact fset_fset_only { s with prot := p } _ _ _ _
theorem audit_seq (s : State) (src : Source) (kind page off count old new : Nat) :
    (s.audit src kind page off count old new).prot.seq = (s.prot.seq + 1) % 65536 := by
  obtain ⟨p, hp, e⟩ := audit_eq s src kind page off count old new
  rw [e, raise_prot, fset_prot]
  exact hp
theorem audit_rget (s : State) (src : Source) (kind page off count old new a : Nat) (h1 : a ≠ OWN.addr page)
    (h2 : a ≠ (INT_RAW.bit Pg.PROT 2).addr) : (s.audit src kind page off count old new).rget a = s.rget a := by
  obtain ⟨p, -, e⟩ := audit_eq s src kind page off count old new
  rw [e, rget_raise_ne _ _ _ _ h2, rget_fset_ne _ _ _ _ h1]
  rfl
theorem audit_fget (s : State) (src : Source) (kind page off count old new : Nat) (f : Fld) (h1 : f.addr ≠ OWN.addr page)
    (h2 : f.addr ≠ (INT_RAW.bit Pg.PROT 2).addr) : (s.audit src kind page off count old new).fget f = s.fget f := by
  unfold State.fget
  rw [audit_rget s src kind page off count old new f.addr h1 h2]

/-- What a privileged command leaves before its effect. -/
theorem privRecorded_leaves (s : State) (p : PrivCmd) :
    s.privRecorded p = { s with hsp := { s.hsp with priv := none }, prot := (s.privRecorded p).prot, regs := (s.privRecorded p).regs }
      ∧ (s.privRecorded p).prot.seq = (s.prot.seq + 1) % 65536
      ∧ (s.privRecorded p).raw HSP_PRIV.addr = s.privWord p.code (s.privResult p) % 2 ^ 32
      ∧ (s.privRecorded p).fget (INT_RAW.bit Pg.HSP 2) = 1
      ∧ (s.privRecorded p).fget PROT_CTRL.OLOCK = s.fget PROT_CTRL.OLOCK
      ∧ RegsOff (onPages [Pg.HSP, Pg.PROT]) s (s.privRecorded p) := by
  unfold State.privRecorded
  generalize (s.privNoted p).token.toNat + s.glade.sealOpen.toNat * 2 = x
  unfold State.privNoted
  generalize s.privWord p.code (s.privResult p) = w
  generalize s.privResult p = res
  refine ⟨?_, ?_, ?_, ?_, ?_, fun a ha => ?_⟩
  · have ht : ((s.setHsp fun h => { h with priv := none }).rsetN HSP_PRIV.addr w).raise Pg.HSP 2 = _ :=
      (pagesOnly_fset (pagesOnly_rset (pagesOnly_refl [Pg.HSP] (s.setHsp fun h => { h with priv := none })) _ _ (by decide)) _ _ (by decide)).1
    rw [audit_only]
    generalize (State.audit _ hostSource 2 Pg.HSP p.code 0 x res).regs = r
    generalize (State.audit _ hostSource 2 Pg.HSP p.code 0 x res).prot = q
    exact congrArg (fun y : State => { y with prot := q, regs := r }) ht
  · rw [audit_seq, raise_prot, rsetN_prot, setHsp_prot]
  · unfold State.raw
    rw [audit_rget _ _ _ _ _ _ _ _ _ (by decide) (by decide), rget_raise_ne _ _ _ _ (by decide)]
    exact raw_rsetN_self _ _ _
  · rw [audit_fget _ _ _ _ _ _ _ _ _ (by decide) (by decide)]
    exact fget_raise_self _ _ _ (by decide)
  · rw [audit_fget _ _ _ _ _ _ _ _ _ (by decide) (by decide), fget_raise_apart _ _ _ _ (by decide) (by decide),
      fget_rsetN_ne _ _ _ _ (by decide), fget_setHsp]
  · have hne {b : Nat} (hb : onPages [Pg.HSP, Pg.PROT] b = true) : a ≠ b := by
      rintro rfl
      simp [ha] at hb
    rw [audit_rget _ _ _ _ _ _ _ _ _ (hne (by decide)) (hne (by decide)), rget_raise_ne _ _ _ _ (hne (by decide)),
      rget_rsetN_ne _ _ _ _ (hne (by decide)), rget_setHsp]

/-- The fields of HSP_PRIV that a command shows. -/
theorem privWord_fields (s : State) (code res : Nat) (hc : code < 16) (hr : res < 8) :
    fieldGet (s.privWord code res % 2 ^ 32) HSP_PRIV.RESULT = res ∧ fieldGet (s.privWord code res % 2 ^ 32) HSP_PRIV.CMD = code
      ∧ fieldGet (s.privWord code res % 2 ^ 32) HSP_PRIV.TOKEN = s.token.toNat := by
  have ht : s.token.toNat ≤ 1 := Bool.toNat_le _
  have hg : s.glade.sealOpen.toNat ≤ 1 := Bool.toNat_le _
  unfold State.privWord
  generalize s.token.toNat = t at *
  generalize s.glade.sealOpen.toNat = g at *
  simp only [fieldGet, HSP_PRIV.RESULT, HSP_PRIV.CMD, HSP_PRIV.TOKEN]
  omega

/-! ## A transaction of its own -/

/-- The transaction that carries a command. -/
def State.privBegun (s : State) : State := s.finc HSP_CNT.XFER

theorem privBegun_leaves (s : State) : s.privBegun.token = s.token ∧ s.privBegun.glade = s.glade ∧ s.privBegun.prot = s.prot
    ∧ s.privBegun.fget PROT_CTRL.OLOCK = s.fget PROT_CTRL.OLOCK ∧ PagesOnly [Pg.HSP] s s.privBegun := by
  unfold State.privBegun
  have ho : PagesOnly [Pg.HSP] s (s.finc HSP_CNT.XFER) := pagesOnly_fset (pagesOnly_refl _ _) _ _ (by decide)
  have hl : (s.finc HSP_CNT.XFER).fget SYS_STAT.LFXO_FAIL = s.fget SYS_STAT.LFXO_FAIL := fget_finc_apart _ _ _ (by decide) (by decide)
  have hlock : (s.finc HSP_CNT.XFER).fget PROT_CTRL.OLOCK = s.fget PROT_CTRL.OLOCK := fget_finc_apart _ _ _ (by decide) (by decide)
  have hp : (s.finc HSP_CNT.XFER).prot = s.prot := finc_prot _ _
  have hn : (s.finc HSP_CNT.XFER).now = s.now := finc_now _ _
  have hg : (s.finc HSP_CNT.XFER).glade = s.glade := finc_glade _ _
  refine ⟨?_, hg, hp, hlock, ho⟩
  unfold State.token State.slowSecond State.fbit
  rw [hp, hn, hl]

/-- A command as a transaction of its own runs, then the routing follows. -/
theorem privTransaction_runs (s : State) (code : Nat) (hs : s.hspServes = true) (hc : s.hsp.cs = false) (hp : s.hsp.priv = none) :
    s.privTransaction code = (s.privBegun.privRun ⟨code, true⟩).hspRoute := by
  unfold State.privTransaction
  rw [hp]
  dsimp only
  rw [hs, hc]
  rfl

/-- `t` is `s` with a privileged command and its result on record. -/
structure Recorded (s t : State) (code res : Nat) : Prop where
  eq : t = { s with hsp := { s.hsp with priv := none }, prot := t.prot, regs := t.regs }
  seq : t.prot.seq = (s.prot.seq + 1) % 65536
  result : t.fget HSP_PRIV.RESULT = res
  cmd : t.fget HSP_PRIV.CMD = code
  token : t.fget HSP_PRIV.TOKEN = s.token.toNat
  int : t.fget (INT_RAW.bit Pg.HSP 2) = 1
  lock : t.fget PROT_CTRL.OLOCK = s.fget PROT_CTRL.OLOCK
  off : RegsOff (onPages [Pg.HSP, Pg.PROT]) s t

theorem privResult_begun (s : State) (p : PrivCmd) : s.privBegun.privResult p = s.privResult p := by
  obtain ⟨htok, hglade, -, hlock, -⟩ := privBegun_leaves s
  unfold State.privResult State.fbit
  rw [htok, hglade, hlock]

/-- A command that the host runs is recorded with its result; its effect follows where it is accepted. -/
theorem privTransaction_recorded {s : State} (code res : Nat) (hs : s.hspServes = true) (hc : s.hsp.cs = false) (hp : s.hsp.priv = none)
    (hres : s.privResult ⟨code, true⟩ = res) (hcode : code < 16) (hlt : res < 8) :
    ∃ t, s.privTransaction code = (if res = 0 then t.privEffect code else t).hspRoute ∧ Recorded s t code res := by
  obtain ⟨htok, hglade, hprot, hlock, honly, hoff⟩ := privBegun_leaves s
  have hb := (privResult_begun s ⟨code, true⟩).trans hres
  obtain ⟨req, rseq, rword, rint, rlock, roff⟩ := privRecorded_leaves s.privBegun ⟨code, true⟩
  refine ⟨s.privBegun.privRecorded ⟨code, true⟩, ?_, ?_⟩
  · rw [privTransaction_runs s code hs hc hp, privRun_eq, hb]
  · rw [hb] at rword
    obtain ⟨fres, fcmd, ftok⟩ := privWord_fields s.privBegun code res hcode hlt
    rw [← rword] at fres fcmd ftok
    refine ⟨?_, by rw [rseq, hprot], fres, fcmd, ftok.trans (by rw [htok]), rint, rlock.trans hlock, fun a ha => (roff a ha).trans (hoff a ?_)⟩
    · generalize s.privBegun.privRecorded ⟨code, true⟩ = t at *
      generalize t.prot = q at *
      generalize t.regs = r at *
      rw [req, honly]
    · simp only [onPages, List.contains_cons, Bool.or_eq_false_iff] at ha
      simp only [onPages, List.contains_cons, Bool.or_eq_false_iff]
      exact ⟨ha.1, rfl⟩

/-! ## Refused without a token -/

theorem privResult_noToken {s : State} (h : s.token = false) (p : PrivCmd) : s.privResult p = 1 := by
  unfold State.privResult
  rw [h]
  rfl

theorem held_of_hspServes {s : State} (h : s.hspServes = true) : s.sys.held = none := by
  unfold State.hspServes State.busUp at h
  simp only [Bool.and_eq_true, Option.isNone_iff_eq_none] at h
  exact h.1.1.1.2
theorem releaseBoot_running {s : State} (h : s.sys.held = none) (straps : Nat) : s.releaseBoot straps = s := by
  unfold State.releaseBoot
  rw [h]
  rfl

/-- A refused command leaves its record, and nothing else. -/
theorem noToken_refuses {s : State} (code : Nat) (hs : s.hspServes = true) (hc : s.hsp.cs = false) (hp : s.hsp.priv = none)
    (ht : s.token = false) (hcode : code < 16) :
    (s.privTransaction code).fget HSP_PRIV.RESULT = 1 ∧ (s.privTransaction code).fget HSP_PRIV.TOKEN = 0
      ∧ (s.privTransaction code).prot.seq = (s.prot.seq + 1) % 65536 ∧ (s.privTransaction code).sys = s.sys
      ∧ (s.privTransaction code).keys = s.keys ∧ (s.privTransaction code).mem = s.mem
      ∧ (s.privTransaction code).fget PROT_CTRL.OLOCK = s.fget PROT_CTRL.OLOCK
      ∧ RegsOff (onPages [Pg.HSP, Pg.PROT]) s (s.privTransaction code) := by
  obtain ⟨t, e, r⟩ := privTransaction_recorded code 1 hs hc hp (privResult_noToken ht _) hcode (by decide)
  have he := r.eq
  have htok := r.token
  rw [ht] at htok
  rw [e, if_neg (by decide)]
  refine ⟨r.result, htok, r.seq, ?_, ?_, ?_, r.lock, r.off⟩
  · show t.sys = s.sys
    rw [he]
  · show t.keys = s.keys
    rw [he]
  · show t.mem = s.mem
    rw [he]

theorem exec_privileged_noToken {s : State} (x : BitVec 5) (hs : s.hspServes = true) (hc : s.hsp.cs = false) (hp : s.hsp.priv = none)
    (ht : s.token = false) : ∀ c ∈ [Instr.debugUnlock, .ownerLockRelease, .factoryDefaults x, .gladeMaintenance], Does c s fun u =>
      u.fget HSP_PRIV.RESULT = 1 ∧ u.fget HSP_PRIV.TOKEN = 0 ∧ u.prot.seq = (s.prot.seq + 1) % 65536 ∧ u.sys = s.sys ∧ u.keys = s.keys
      ∧ u.mem = s.mem ∧ u.fget PROT_CTRL.OLOCK = s.fget PROT_CTRL.OLOCK ∧ RegsOff (onPages [Pg.HSP, Pg.PROT]) s u := by
  have hdefaults : exec (.factoryDefaults x) s = .next (s.privTransaction 3) := by
    have hsys := (noToken_refuses 3 hs hc hp ht (by decide)).2.2.2.1
    have hheld := held_of_hspServes hs
    show execFactoryDefaults x s = _
    unfold execFactoryDefaults
    dsimp only
    rw [hheld, releaseBoot_running (by rw [hsys, hheld])]
    rfl
  have hall (code : Nat) (hcode : code < 16) := noToken_refuses code hs hc hp ht hcode
  intro c hm
  simp only [List.mem_cons, List.not_mem_nil, or_false] at hm
  rcases hm with rfl | rfl | rfl | rfl
  · exact ⟨_, rfl, hall 1 (by decide)⟩
  · exact ⟨_, rfl, hall 2 (by decide)⟩
  · exact ⟨_, hdefaults, hall 3 (by decide)⟩
  · exact ⟨_, rfl, hall 4 (by decide)⟩

/-! ## With a token -/

section
variable (hs : s.hspServes = true) (hc : s.hsp.cs = false) (hp : s.hsp.priv = none) (ht : s.token = true)
include hs hc hp ht

theorem debugUnlock_unlocks (hl : s.fbit PROT_CTRL.OLOCK = false) :
    Does .debugUnlock s fun u => u.sys = { s.sys with dbgUnlocked := true } ∧ u.fget HSP_PRIV.RESULT = 0
      ∧ u.fget HSP_PRIV.CMD = 1 ∧ u.fget (INT_RAW.bit Pg.HSP 2) = 1 ∧ u.prot.seq = (s.prot.seq + 1) % 65536 ∧ u.mem = s.mem := by
  have hres : s.privResult ⟨1, true⟩ = 0 := by
    unfold State.privResult
    rw [ht, hl]
    rfl
  obtain ⟨t, e, r⟩ := privTransaction_recorded 1 0 hs hc hp hres (by decide) (by decide)
  have he := r.eq
  refine ⟨_, congrArg Host.Outcome.next e, ?_, r.result, r.cmd, r.int, r.seq, ?_⟩
  · show ({ t.sys with dbgUnlocked := true } : SysS) = _
    rw [he]
  · show t.mem = s.mem
    rw [he]

theorem debugUnlock_ownerLocked (hl : s.fbit PROT_CTRL.OLOCK = true) :
    Does .debugUnlock s fun u => u.sys = s.sys ∧ u.fget HSP_PRIV.RESULT = 3 := by
  have hres : s.privResult ⟨1, true⟩ = 3 := by
    unfold State.privResult
    rw [ht, hl]
    rfl
  obtain ⟨t, e, r⟩ := privTransaction_recorded 1 3 hs hc hp hres (by decide) (by decide)
  have he := r.eq
  refine ⟨_, congrArg Host.Outcome.next e, ?_, r.result⟩
  show t.sys = s.sys
  rw [he]

theorem ownerLockRelease_clears :
    Does .ownerLockRelease s fun u => u.fbit PROT_CTRL.OLOCK = false ∧ u.fget HSP_PRIV.RESULT = 0 ∧ u.sys = s.sys
      ∧ u.prot.seq = (s.prot.seq + 1) % 65536 ∧ u.mem = s.mem := by
  have hres : s.privResult ⟨2, true⟩ = 0 := by
    unfold State.privResult
    rw [ht]
    rfl
  obtain ⟨t, e, r⟩ := privTransaction_recorded 2 0 hs hc hp hres (by decide) (by decide)
  have he := r.eq
  have hlock : (t.fset PROT_CTRL.OLOCK 0).fget PROT_CTRL.OLOCK = 0 := fget_fset_self _ _ _ (by decide)
  have hresult : (t.fset PROT_CTRL.OLOCK 0).fget HSP_PRIV.RESULT = 0 := (fget_fset_reg _ _ _ _ (by decide)).trans r.result
  have hsys : (t.fset PROT_CTRL.OLOCK 0).sys = s.sys := by rw [fset_sys, he]
  have hseq : (t.fset PROT_CTRL.OLOCK 0).prot.seq = (s.prot.seq + 1) % 65536 := by rw [fset_prot, r.seq]
  have hmem : (t.fset PROT_CTRL.OLOCK 0).mem = s.mem := by rw [fset_mem, he]
  refine ⟨(t.fset PROT_CTRL.OLOCK 0).hspRoute, congrArg Host.Outcome.next e, ?_, hresult, hsys, hseq, hmem⟩
  show (State.fget _ PROT_CTRL.OLOCK != 0) = false
  rw [show (t.fset PROT_CTRL.OLOCK 0).hspRoute.fget PROT_CTRL.OLOCK = (t.fset PROT_CTRL.OLOCK 0).fget PROT_CTRL.OLOCK from fget_setHsp _ _ _,
    hlock]
  rfl

theorem gladeMaintenance_asks (ho : s.glade.sealOpen = true) :
    Does .gladeMaintenance s fun u => u.hsp.routeReq = true ∧ u.hsp.routed = s.glade.grant ∧ u.fget HSP_PRIV.RESULT = 0
      ∧ u.glade = s.glade ∧ u.mem = s.mem := by
  have hres : s.privResult ⟨4, true⟩ = 0 := by
    unfold State.privResult
    rw [ht, ho]
    rfl
  obtain ⟨t, e, r⟩ := privTransaction_recorded 4 0 hs hc hp hres (by decide) (by decide)
  have he := r.eq
  refine ⟨_, congrArg Host.Outcome.next e, rfl, ?_, r.result, ?_, ?_⟩
  · show (true && t.glade.grant) = _
    rw [he]
    rfl
  · show t.glade = s.glade
    rw [he]
  · show t.mem = s.mem
    rw [he]

theorem gladeMaintenance_sealed (ho : s.glade.sealOpen = false) :
    Does .gladeMaintenance s fun u => u.fget HSP_PRIV.RESULT = 2 ∧ u.hsp.routeReq = s.hsp.routeReq := by
  have hres : s.privResult ⟨4, true⟩ = 2 := by
    unfold State.privResult
    rw [ht, ho]
    rfl
  obtain ⟨t, e, r⟩ := privTransaction_recorded 4 2 hs hc hp hres (by decide) (by decide)
  have he := r.eq
  refine ⟨_, congrArg Host.Outcome.next e, r.result, ?_⟩
  show t.hsp.routeReq = _
  rw [he]

end

/-! ## Boundary scan and the debug port (R11, R460) -/

theorem boundaryScan_taps (s : State) (i : ScanInstr) : Does (.boundaryScan i) s fun u => u = { s with sys := u.sys }
    ∧ (i = .bypass ∨ i = .idcode ∨ i = .samplePreload → u.sys = { s.sys with tap := i })
    ∧ (i = .other → u.sys = { s.sys with tap := .bypass })
    ∧ (i = .extest → u.sys = { s.sys with tap := if s.sys.dbgUnlocked then .extest else .bypass }) := by
  refine ⟨_, rfl, rfl, ?_, ?_, ?_⟩
  · rintro (rfl | rfl | rfl) <;> rfl
  · rintro rfl
    rfl
  · rintro rfl
    rfl

theorem debugAccess_locked (s : State) (a : Word) (z : AccSize) (w : Option Word) (h : s.sys.dbgUnlocked = false ∨ s.busUp = false) :
    Does (.debugAccess a z w) s fun u => u = { s with bus := { s.bus with err := true } } := by
  have hdead : (!s.sys.dbgUnlocked || !s.busUp) = true := by
    rcases h with h | h
    · rw [h]
      rfl
    · rw [h, Bool.not_false, Bool.or_true]
  refine ⟨_, ?_, rfl⟩
  show execDebugAccess a z w s = _
  unfold execDebugAccess
  rw [hdead]
  rfl

/-- Bytes of memory that stand read as they did. -/
theorem bytesAt_congr {s t : State} (h : t.mem = s.mem) (n a : Nat) : t.bytesAt a n = s.bytesAt a n := by
  induction n generalizing a with
  | zero => rfl
  | succ n ih =>
    unfold State.bytesAt State.byteAt
    rw [h, ih]

theorem bytesAt_lt (s : State) (n a : Nat) : s.bytesAt a n < 256 ^ n := by
  induction n generalizing a with
  | zero => exact Nat.one_pos
  | succ n ih =>
    have hb : (s.byteAt a).toNat < 256 := (s.byteAt a).isLt
    have h := ih (a + 1)
    unfold State.bytesAt
    rw [pow_succ]
    omega
/-- What a write puts into memory depends on memory alone. -/
theorem setBytes_mem_congr {s t : State} (h : t.mem = s.mem) (n a v : Nat) : (t.setBytes a n v).mem = (s.setBytes a n v).mem := by
  induction n generalizing s t a v with
  | zero => exact h
  | succ n ih =>
    have hb : (t.setByte a (BitVec.ofNat 8 v)).mem = (s.setByte a (BitVec.ofNat 8 v)).mem :=
      congrArg (fun m => cellPut memDefault m a (BitVec.ofNat 8 v)) h
    exact ih hb (a + 1) (v / 256)
theorem sramUse_mem (s : State) (a : Nat) : (s.sramUse a).mem = s.mem := by
  unfold State.sramUse
  split
  · rw [setMemst_mem, fset_mem]
  · rfl

theorem sram_bounds {a : Nat} (h : regionOf a = .sram) : 0x20000000 ≤ a ∧ a < 0x20180000 := by
  unfold regionOf at h
  split at h
  · cases h
  · split at h
    · cases h
    · split at h
      · assumption
      · repeat (split at h <;> [cases h; skip])
        cases h

/-- What the phase holds of radio RAM does not hide other bytes. -/
theorem cellGet_none {d : Nat → Byte} {l : List Host.Cell} {a : Nat} (h : ∀ q ∈ l, q.1 ≠ a) : cellGet d l a = d a := by
  induction l with
  | nil => rfl
  | cons q l ih =>
    obtain ⟨b, v⟩ := q
    have hb : b ≠ a := h (b, v) (by simp)
    unfold cellGet
    rw [if_neg hb.symm]
    exact ih fun q hq => h q (List.mem_cons_of_mem _ hq)
theorem shownBytes_plain {s : State} (hq : ∀ q ∈ s.phase.mem, 0x30000000 ≤ q.1) (n a : Nat) (ha : a + n ≤ 0x30000000) :
    s.shownBytes a n = s.bytesAt a n := by
  induction n generalizing a with
  | zero => rfl
  | succ n ih =>
    have hb : s.shownByte a = s.byteAt a := cellGet_none fun q hm => by have := hq q hm; omega
    unfold State.shownBytes State.bytesAt
    rw [hb, ih (a + 1) (by omega)]

section
/-- No test keeps the port from SRAM. -/
theorem underTest_free {a : Nat} (hr : regionOf a = .sram) (ht : s.tst.banks = []) : s.underTest a = false := by
  unfold State.underTest
  rw [hr, ht]
  rfl

variable {a : Word} (hu : s.sys.dbgUnlocked = true) (hb : s.busUp = true) (hr : regionOf a.toNat = .sram) (ha : a.toNat % 4 = 0)
  (hm : s.memst = {}) (ht : s.tst.banks = [])
include hu hb hr ha hm ht

theorem memRead_sram : s.memRead .debug a.toNat 4 = (s, .ok (s.shownBytes a.toNat 4)) := by
  have hecc : s.eccCheck a.toNat = (s, false) := by
    unfold State.eccCheck State.eccAt
    rw [hm]
    rfl
  unfold State.memRead
  rw [hb, hu, hr, ha, underTest_free hr ht]
  unfold State.ramRead
  rw [hecc, hm]
  rfl

theorem debugAccess_reads (hq : ∀ q ∈ s.phase.mem, 0x30000000 ≤ q.1) :
    Does (.debugAccess a .word none) s fun u => u.bus.data.toNat = s.wordAt a.toNat ∧ u.bus.err = false ∧ u.mem = s.mem := by
  obtain ⟨-, hhi⟩ := sram_bounds hr
  have hread := memRead_sram hu hb hr ha hm ht
  rw [shownBytes_plain hq 4 _ (by omega)] at hread
  have hexec : exec (.debugAccess a .word none) s
      = .next { s with bus := { s.bus with err := false, data := BitVec.ofNat 32 (s.wordAt a.toNat) } } := by
    show execDebugAccess a .word none s = _
    unfold execDebugAccess State.busLoad
    dsimp only
    rw [hu, hb, hr]
    dsimp only
    rw [hread]
    rfl
  refine ⟨_, hexec, ?_, rfl, rfl⟩
  show (BitVec.ofNat 32 (s.wordAt a.toNat)).toNat = _
  rw [BitVec.toNat_ofNat]
  exact Nat.mod_eq_of_lt (bytesAt_lt s 4 _)

/-- A word written to SRAM lies in memory, and no other byte changes. -/
theorem memWrite_sram (v : Nat) : ∃ t, s.memWrite .debug a.toNat 4 v = (t, .ok 0) ∧ t.mem = (s.setWord a.toNat v).mem := by
  obtain ⟨-, hhi⟩ := sram_bounds hr
  refine ⟨(((s.eccFix a.toNat).setBytes a.toNat 4 v).ramNote a.toNat).unhold a.toNat 4, ?_, ?_⟩
  · unfold State.memWrite
    rw [hb, hu, hr, ha, underTest_free hr ht]
    unfold State.ramWrite
    rw [hm]
    rfl
  · have hnote (t : State) : (t.ramNote a.toNat).mem = t.mem := by
      unfold State.ramNote
      dsimp only
      rw [if_neg (by simp; omega), if_neg (by simp; omega)]
      exact sramUse_mem t _
    show ((State.setBytes _ _ 4 v).ramNote a.toNat).mem = _
    rw [hnote]
    exact setBytes_mem_congr rfl 4 _ v

theorem debugAccess_writes (v : Word) :
    Does (.debugAccess a .word (some v)) s fun u => u.wordAt a.toNat = v.toNat ∧ u.bus.err = false
        ∧ ∀ b, (b < a.toNat ∨ a.toNat + 4 ≤ b) → u.byteAt b = s.byteAt b := by
  obtain ⟨t, hwrite, hmem⟩ := memWrite_sram hu hb hr ha hm ht v.toNat
  have hexec : exec (.debugAccess a .word (some v)) s
      = .next { t with bus := { t.bus with err := false, data := BitVec.ofNat 32 0 } } := by
    show execDebugAccess a .word (some v) s = _
    unfold execDebugAccess State.busStore
    dsimp only
    rw [hu, hb, hr]
    dsimp only
    rw [hwrite]
    rfl
  refine ⟨_, hexec, ?_, rfl, fun b hout => ?_⟩
  · exact (bytesAt_congr (s := s.setWord a.toNat v.toNat) hmem 4 _).trans (wordAt_setWord s a.toNat v.toNat v.isLt)
  · show cellGet memDefault t.mem b = _
    rw [hmem]
    exact byteAt_setWord_ne s a.toNat v.toNat b hout

end

theorem debugAccess_sram (s : State) (a : Word) (hu : s.sys.dbgUnlocked = true) (hb : s.busUp = true) (hr : regionOf a.toNat = .sram)
    (ha : a.toNat % 4 = 0) (hm : s.memst = {}) (ht : s.tst.banks = []) (hq : ∀ q ∈ s.phase.mem, 0x30000000 ≤ q.1) :
    (Does (.debugAccess a .word none) s fun u => u.bus.data.toNat = s.wordAt a.toNat ∧ u.bus.err = false ∧ u.mem = s.mem)
    ∧ ∀ v : Word, Does (.debugAccess a .word (some v)) s fun u => u.wordAt a.toNat = v.toNat ∧ u.bus.err = false
        ∧ ∀ b, (b < a.toNat ∨ a.toNat + 4 ≤ b) → u.byteAt b = s.byteAt b :=
  ⟨debugAccess_reads hu hb hr ha hm ht hq, debugAccess_writes hu hb hr ha hm ht⟩

end Sys2Proof.Machine
end

section
/-!
RESETS (O16). What a system reset and a core reset clear, keep and record.
-/
namespace Sys2Proof.Machine
open Sys2Proof
set_option Elab.async false

variable {s t : State}

/-! ## Reset causes (R449) -/

/-- A one-bit field that is set is the register's bit. -/
theorem fieldPut_bit (v a b : Nat) : fieldPut v ⟨a, b, 1⟩ 1 = v ||| 2 ^ b := by
  refine Nat.eq_of_testBit_eq fun i => ?_
  rw [fieldPut_testBit, Nat.testBit_or, Nat.testBit_two_pow]
  by_cases h : b = i
  · subst h
    simp
  · rw [if_neg (by dsimp only; omega)]
    simp [h]
theorem raw_lt (s : State) (a : Nat) : s.raw a < 2 ^ 32 := (s.rget a).isLt
theorem raw_fset_bit (s : State) (a b : Nat) (hb : b < 32) : (s.fset ⟨a, b, 1⟩ 1).raw a = s.raw a ||| 2 ^ b := by
  show ((s.rsetN a (fieldPut (s.raw a) ⟨a, b, 1⟩ 1)).raw a) = _
  rw [raw_rsetN_self, fieldPut_bit]
  exact Nat.mod_eq_of_lt (Nat.or_lt_two_pow (raw_lt s a) (Nat.pow_lt_pow_right (by decide) hb))
theorem raw_resetCause (s : State) (b : Nat) (hb : b < 32) : (s.resetCause b).raw SYS_RSTCAUSE.addr = s.raw SYS_RSTCAUSE.addr ||| 2 ^ b :=
  raw_fset_bit s _ b hb
theorem rget_resetCause_ne (s : State) (b a : Nat) (h : a ≠ SYS_RSTCAUSE.addr) : (s.resetCause b).rget a = s.rget a :=
  rget_fset_ne s _ 1 a h
theorem resetCause_only (s : State) (b : Nat) : s.resetCause b = { s with regs := (s.resetCause b).regs } := rfl

/-! ## System resets (R448) -/

/-- What a system reset finds: the operations in progress are cut off, and a cold one has lost the memories. -/
def State.cutOff (s : State) (k : ResetKind) : State :=
  let s := s.loseContents.updCut.flashCut
  if k.cold then (s.loseSram (List.range 24)).loseRram else s

/-- The device in reset, its cause not yet entered. -/
def State.inReset (s : State) (k : ResetKind) : State :=
  { State.reset with
    regs := s.regs.filter fun r => sysKeeps r.1 && !(decide (k = .por) && r.1 = SYS_RSTCAUSE.addr)
    now := s.now
    freeCtr := s.freeCtr
    mem := s.mem
    memst := s.memst
    coreG := s.coreG
    glade := { s.glade with snaps := [] }
    rtc := s.rtc
    pads := { s.pads with adcRun := false }
    flash := { lines := s.flash.lines, indet := s.flash.indet }
    prot := if k = .por then { lowFrom := s.prot.lowFrom, lastLong := s.prot.lastLong, gained := s.prot.gained } else s.prot
    pwr := { need := s.pwr.need }
    sys := { held := some k, tcxo := s.sys.tcxo }
    hsp := { cs := s.hsp.cs }
    pending := s.pending }

/-- The device in reset, its cause entered. -/
def State.heldReset (s : State) (k : ResetKind) : State := ((s.cutOff k).inReset k).resetCause k.bit

theorem sysReset_warm (s : State) (k : ResetKind) (h : k ≠ .por ∧ k ≠ .bor) : s.sysReset k = s.heldReset k := by
  cases k with
  | por => exact absurd rfl h.1
  | bor => exact absurd rfl h.2
  | pin | swsys | syswdt | offWake | factory => rfl
theorem sysReset_supply (s : State) (k : ResetKind) (h : k = .por ∨ k = .bor) : s.sysReset k = (s.heldReset k).rtcLock := by
  rcases h with rfl | rfl <;> rfl

theorem inReset_prot (s : State) (k : ResetKind) (hk : k ≠ .por) : (s.inReset k).prot = s.prot := if_neg hk
theorem rget_inReset (s : State) (k : ResetKind) (a : Nat) :
    (s.inReset k).rget a = if sysKeeps a && !(decide (k = .por) && a = SYS_RSTCAUSE.addr) then s.rget a else resetOf a := by
  have h := regGet_filter s.regs (fun a => !(sysKeeps a && !(decide (k = .por) && a = SYS_RSTCAUSE.addr))) a
  simp only [Bool.not_not] at h
  refine h.trans ?_
  cases sysKeeps a && !(decide (k = .por) && a = SYS_RSTCAUSE.addr) <;> rfl
theorem rget_heldReset (s : State) (k : ResetKind) (a : Nat) (ha : a ≠ SYS_RSTCAUSE.addr) :
    (s.heldReset k).rget a = if sysKeeps a then (s.cutOff k).rget a else resetOf a := by
  unfold State.heldReset
  rw [rget_resetCause_ne _ _ _ ha, rget_inReset]
  simp [ha]

theorem ResetKind.bit_lt (k : ResetKind) : k.bit < 32 := by cases k <;> decide

/-- A reset enters its cause beside the earlier ones. -/
theorem raw_heldReset (s : State) (k : ResetKind) (hk : k ≠ .por) :
    (s.heldReset k).raw SYS_RSTCAUSE.addr = (s.cutOff k).raw SYS_RSTCAUSE.addr ||| 2 ^ k.bit := by
  have h : (s.cutOff k |>.inReset k).raw SYS_RSTCAUSE.addr = (s.cutOff k).raw SYS_RSTCAUSE.addr := by
    unfold State.raw
    rw [rget_inReset, decide_eq_false hk, Bool.false_and, Bool.not_false, Bool.and_true, if_pos (by decide)]
  unfold State.heldReset
  rw [raw_resetCause _ _ k.bit_lt, h]
/-- A power-on reset is the only cause that its record shows. -/
theorem raw_heldReset_por (s : State) : (s.heldReset .por).raw SYS_RSTCAUSE.addr = 1 := by
  have h : (s.cutOff .por |>.inReset .por).raw SYS_RSTCAUSE.addr = 0 := by
    unfold State.raw
    rw [rget_inReset, if_neg (by decide)]
    decide
  unfold State.heldReset
  rw [raw_resetCause _ _ (by decide), h]
  decide

/-- Beside the registers the device in reset is as `inReset` says. -/
theorem heldReset_only (s : State) (k : ResetKind) : s.heldReset k = { (s.cutOff k).inReset k with regs := (s.heldReset k).regs } :=
  resetCause_only _ _

/-- No operation is in progress that a reset cuts off, and no sleep state is being left. -/
structure Settled (s : State) : Prop where
  leaving : s.pwr.leaving = none
  op : s.flash.op = none
  susp : s.flash.susp = none
  upd : s.updBusy = false

theorem updCut_idle (h : s.updBusy = false) : s.updCut = s := by
  unfold State.updBusy at h
  unfold State.updCut
  split
  next h2 => rw [h2] at h; exact absurd h (by decide)
  next h4 => rw [h4] at h; exact absurd h (by decide)
  next => rfl
/-- The flash controller's command is dropped. -/
def State.flashQuiet (s : State) : State :=
  s.setFlash fun f => { f with op := none, susp := none, suspReq := false, stage := 0, data := [], wrong := 0 }
theorem flashCut_idle (ho : s.flash.op = none) (hs : s.flash.susp = none) :
    s.flashCut = s.flashQuiet := by
  unfold State.flashCut
  rw [ho, hs]
  rfl
theorem loseContents_stays (h : s.pwr.leaving = none) : s.loseContents = s := by
  unfold State.loseContents
  rw [h]
  rfl
/-- A warm reset of a settled device finds it as it stands, but for the flash controller's command. -/
theorem cutOff_warm (h : Settled s) (k : ResetKind) (hk : k.cold = false) :
    s.cutOff k = s.flashQuiet := by
  unfold State.cutOff
  rw [loseContents_stays h.leaving, updCut_idle h.upd, flashCut_idle h.op h.susp, hk]
  rfl

theorem pinReset_holds (s : State) (hb : s.pwr.st ≠ .backup) (h : Settled s) :
    Does .pinReset s fun u => u.sys.held = some .pin ∧ u.sys.st = .start ∧ u.raw SYS_RSTCAUSE.addr = s.raw SYS_RSTCAUSE.addr ||| 4
      ∧ u.mem = s.mem ∧ u.now = s.now ∧ u.pending = s.pending ∧ u.slot = none ∧ u.cad = {} ∧ u.trf = {} ∧ u.frcN = 0 ∧ u.prot = s.prot
      ∧ u.glade = { s.glade with snaps := [] } ∧ u.coreG = s.coreG ∧ u.rtc = s.rtc
      ∧ (∀ a, pageOf a = Pg.RTC → u.rget a = s.rget a)
      ∧ ∀ a, sysKeeps a = false → u.rget a = resetOf a := by
  have hexec : exec .pinReset s = .next (s.heldReset .pin) := congrArg Host.Outcome.next ((if_neg hb).trans (sysReset_warm s .pin (by decide)))
  have hcut := cutOff_warm h .pin rfl
  have hget := rget_heldReset s .pin
  have hcause := raw_heldReset s .pin (by decide)
  have hrest := heldReset_only s .pin
  rw [hcut] at hget hcause hrest
  refine ⟨_, hexec, ?_⟩
  generalize s.heldReset .pin = u at *
  rw [hrest] at hget hcause ⊢
  refine ⟨rfl, rfl, hcause, rfl, rfl, rfl, rfl, rfl, rfl, rfl, rfl, rfl, rfl, rfl, fun a ha => ?_, fun a ha => ?_⟩
  · rw [hget a (by rintro rfl; exact absurd ha (by decide)), if_pos (by unfold sysKeeps; simp [ha])]
    rfl
  · rw [hget a (by rintro rfl; exact absurd ha (by decide)), if_neg (by rw [ha]; exact Bool.false_ne_true)]

/-! ## What a cold reset loses -/

/-- Banks that lose their contents change memory, what stands beside it, and registers. -/
theorem loseSram_only (s : State) (banks : List Nat) :
    s.loseSram banks = { s with regs := (s.loseSram banks).regs, mem := (s.loseSram banks).mem, memst := (s.loseSram banks).memst } := by
  induction banks generalizing s with
  | nil => rfl
  | cons n l ih => exact ih _
/-- The banks are lost one by one. -/
theorem loseSram_cons (s : State) (n : Nat) (l : List Nat) : s.loseSram (n :: l) = (s.loseSram [n]).loseSram l := rfl
theorem rget_loseBank (s : State) (n a : Nat) (h : a ≠ SYS_SRAM_USE.addr) : (s.loseSram [n]).rget a = s.rget a :=
  rget_fset_ne _ ⟨SYS_SRAM_USE.addr, n, 1⟩ 0 a h
theorem rget_loseSram (s : State) (banks : List Nat) (a : Nat) (h : a ≠ SYS_SRAM_USE.addr) : (s.loseSram banks).rget a = s.rget a := by
  induction banks generalizing s with
  | nil => rfl
  | cons n l ih => rw [loseSram_cons, ih, rget_loseBank s n a h]

/-- The bytes of a bank. -/
def inBank (n a : Nat) : Prop := 0x20000000 + n * 0x10000 ≤ a ∧ a < 0x20000000 + (n + 1) * 0x10000

theorem byteAt_loseBank_in (s : State) (n a : Nat) (h : inBank n a) : (s.loseSram [n]).byteAt a = memDefault a :=
  (byteAt_clearRange s _ _ a).trans (if_pos h)
theorem byteAt_loseBank_out (s : State) (n a : Nat) (h : ¬ inBank n a) : (s.loseSram [n]).byteAt a = s.byteAt a :=
  (byteAt_clearRange s _ _ a).trans (if_neg h)
theorem byteAt_loseSram_default (s : State) (banks : List Nat) (a : Nat) (h : s.byteAt a = memDefault a) :
    (s.loseSram banks).byteAt a = memDefault a := by
  induction banks generalizing s with
  | nil => exact h
  | cons n l ih =>
    rw [loseSram_cons]
    refine ih _ ?_
    by_cases hn : inBank n a
    · exact byteAt_loseBank_in s n a hn
    · rw [byteAt_loseBank_out s n a hn, h]
theorem byteAt_loseSram_in (s : State) (banks : List Nat) (a : Nat) (h : ∃ n ∈ banks, inBank n a) :
    (s.loseSram banks).byteAt a = memDefault a := by
  obtain ⟨n, hn, hin⟩ := h
  induction banks generalizing s with
  | nil => cases hn
  | cons m l ih =>
    rw [loseSram_cons]
    rcases List.mem_cons.1 hn with rfl | hn
    · exact byteAt_loseSram_default _ _ _ (byteAt_loseBank_in s n a hin)
    · exact ih _ hn
theorem byteAt_loseSram_out (s : State) (banks : List Nat) (a : Nat) (h : ∀ n ∈ banks, ¬ inBank n a) :
    (s.loseSram banks).byteAt a = s.byteAt a := by
  induction banks generalizing s with
  | nil => rfl
  | cons m l ih =>
    rw [loseSram_cons, ih _ fun n hn => h n (List.mem_cons_of_mem _ hn), byteAt_loseBank_out s m a (h m List.mem_cons_self)]

/-- Banks and the radio RAM are lost. -/
def State.loseRam (s : State) (banks : List Nat) : State := (s.loseSram banks).loseRram

theorem loseRram_of_only {s t : State} (h : t = { s with regs := t.regs, mem := t.mem, memst := t.memst }) :
    t.loseRram = { s with regs := t.loseRram.regs, mem := t.loseRram.mem, memst := t.loseRram.memst } := by
  rw [h]
  rfl
theorem loseRam_only (s : State) (banks : List Nat) :
    s.loseRam banks = { s with regs := (s.loseRam banks).regs, mem := (s.loseRam banks).mem, memst := (s.loseRam banks).memst } :=
  loseRram_of_only (loseSram_only s banks)
theorem rget_loseRram (s : State) (a : Nat) : s.loseRram.rget a = s.rget a := rfl
theorem rget_loseRam (s : State) (banks : List Nat) (a : Nat) (h : a ≠ SYS_SRAM_USE.addr) : (s.loseRam banks).rget a = s.rget a :=
  (rget_loseRram _ a).trans (rget_loseSram s _ a h)
theorem byteAt_loseRram (s : State) (a : Nat) : s.loseRram.byteAt a = if 0x30000000 ≤ a ∧ a < 0x30040000 then memDefault a else s.byteAt a :=
  byteAt_clearRange s _ _ a
theorem byteAt_loseRam_sram (s : State) (a : Nat) (h1 : 0x20000000 ≤ a) (h2 : a < 0x20180000) :
    (s.loseRam (List.range 24)).byteAt a = memDefault a := by
  unfold State.loseRam
  rw [byteAt_loseRram, if_neg (by omega)]
  refine byteAt_loseSram_in s _ a ⟨(a - 0x20000000) / 0x10000, List.mem_range.2 (by omega), ?_⟩
  unfold inBank
  omega
theorem byteAt_loseRam_rram (s : State) (banks : List Nat) (a : Nat) (h1 : 0x30000000 ≤ a) (h2 : a < 0x30040000) :
    (s.loseRam banks).byteAt a = memDefault a := by
  unfold State.loseRam
  rw [byteAt_loseRram, if_pos ⟨h1, h2⟩]
theorem byteAt_loseRam_flash (s : State) (banks : List Nat) (a : Nat) (h : a < 0x20000000) : (s.loseRam banks).byteAt a = s.byteAt a := by
  unfold State.loseRam
  rw [byteAt_loseRram, if_neg (by omega)]
  refine byteAt_loseSram_out s _ a fun n _ => ?_
  unfold inBank
  omega

/-- A cold reset of a settled device finds its memories lost. -/
theorem cutOff_cold (h : Settled s) (k : ResetKind) (hk : k.cold = true) :
    s.cutOff k = s.flashQuiet.loseRam (List.range 24) := by
  unfold State.cutOff
  rw [loseContents_stays h.leaving, updCut_idle h.upd, flashCut_idle h.op h.susp, hk]
  rfl

/-! ## The RTC's lockout (R399) -/

theorem rtcLock_only (s : State) : s.rtcLock = { s with regs := s.rtcLock.regs } := rfl
theorem rtcLock_lockout (s : State) : s.rtcLock.fbit RTC_STAT.LOCKOUT = true := by
  unfold State.rtcLock State.fbit
  rw [fget_fset_apart _ _ _ _ (by decide) (by decide), fget_fset_self _ _ _ (by decide)]
  rfl
theorem rget_rtcLock_ne (s : State) (a : Nat) (h : a ≠ RTC_STAT.addr) : s.rtcLock.rget a = s.rget a := by
  unfold State.rtcLock
  rw [rget_fset_ne _ _ _ _ h, rget_fset_ne _ _ _ _ h]

theorem brownOutReset_holds (s : State) (hb : s.pwr.st ≠ .backup) (h : Settled s) :
    Does .brownOutReset s fun u => u.sys.held = some .bor ∧ u.raw SYS_RSTCAUSE.addr = s.raw SYS_RSTCAUSE.addr ||| 2
      ∧ u.fbit RTC_STAT.LOCKOUT = true ∧ u.glade = { s.glade with snaps := [] } ∧ u.slot = none ∧ u.cad = {} ∧ u.prot = s.prot
      ∧ (∀ a, 0x20000000 ≤ a → a < 0x20180000 → u.byteAt a = memDefault a) ∧ (∀ a, 0x30000000 ≤ a → a < 0x30040000 → u.byteAt a = memDefault a)
      ∧ ∀ a, a < 0x20000000 → u.byteAt a = s.byteAt a := by
  have hexec : exec .brownOutReset s = .next (s.heldReset .bor).rtcLock :=
    congrArg Host.Outcome.next ((if_neg hb).trans (sysReset_supply s .bor (by decide)))
  have hcause := raw_heldReset s .bor (by decide)
  have hrest := heldReset_only s .bor
  rw [cutOff_cold h .bor rfl] at hcause hrest
  have hr := rget_loseRam s.flashQuiet (List.range 24) SYS_RSTCAUSE.addr (by decide)
  have ho := loseRam_only s.flashQuiet (List.range 24)
  have h1 := byteAt_loseRam_sram s.flashQuiet
  have h2 := byteAt_loseRam_rram s.flashQuiet (List.range 24)
  have h3 := byteAt_loseRam_flash s.flashQuiet (List.range 24)
  refine ⟨_, hexec, ?_⟩
  generalize s.heldReset .bor = u at *
  generalize s.flashQuiet.loseRam (List.range 24) = c at *
  have hlock := rtcLock_lockout u
  have hkeep := rget_rtcLock_ne u SYS_RSTCAUSE.addr (by decide)
  have honly := rtcLock_only u
  generalize u.rtcLock = v at *
  have hmem : v.mem = c.mem := by rw [honly, hrest]; rfl
  have hbyte (a : Nat) : v.byteAt a = c.byteAt a := by unfold State.byteAt; rw [hmem]
  refine ⟨by rw [honly, hrest]; rfl, ?_, hlock, ?_, by rw [honly, hrest]; rfl, by rw [honly, hrest]; rfl, ?_, ?_, ?_, ?_⟩
  · unfold State.raw at *
    rw [hkeep, hcause, hr]
    rfl
  · rw [honly, hrest]
    show ({ c.glade with snaps := [] } : Glade) = _
    rw [ho]
    rfl
  · rw [honly, hrest]
    exact (inReset_prot c .bor (by decide)).trans (by rw [ho]; rfl)
  · exact fun a ha hb => (hbyte a).trans (h1 a ha hb)
  · exact fun a ha hb => (hbyte a).trans (h2 a ha hb)
  · exact fun a ha => (hbyte a).trans (h3 a ha)


/-! ## What a cut leaves alone -/

section
variable {x : Still}

theorem Calm.setFlash {f : FlashState → FlashState} (h : Calm x s) : Calm x (s.setFlash f) := h.withFlash
theorem Calm.cacheDrop {lo hi : Nat} (h : Calm x s) : Calm x (s.cacheDrop lo hi) := ⟨h.eq⟩
theorem Calm.setByte {a : Nat} {v : Byte} (h : Calm x s) : Calm x (s.setByte a v) := h.withMem
theorem Calm.setList {a : Nat} {l : List Byte} (h : Calm x s) : Calm x (s.setList a l) := by
  induction l generalizing s a with
  | nil => exact h
  | cons b l ih => exact ih h.setByte
theorem Calm.clearRange {lo hi : Nat} (h : Calm x s) : Calm x (s.clearRange lo hi) := h.withMem
theorem Calm.flashSpoil {pages : List Nat} (h : Calm x s) : Calm x (s.flashSpoil pages) := h.setFlash
theorem Calm.spoilPage {a : Nat} (h : Calm x s) : Calm x (s.spoilPage a) := h.flashSpoil
theorem Calm.flashCut (h : Calm x s) : Calm x s.flashCut := by
  unfold State.flashCut
  extract_lets cut u
  have hcut {t : State} {o : FlashOp} (h : Calm x t) : Calm x (cut t o) := .ite h.spoilPage (.ite h h.flashSpoil)
  have hu : Calm x u := (h.foldl hcut).foldl hcut
  exact hu.setFlash
theorem Calm.flashFresh {lo hi : Nat} (h : Calm x s) : Calm x (s.flashFresh lo hi) := h.setFlash
theorem Calm.eraseBlock {b : Nat} (h : Calm x s) : Calm x (s.eraseBlock b) := h.clearRange.flashFresh
theorem Calm.opMark {cmd a : Nat} (h : Calm x s) : Calm x (s.opMark cmd a) := h.rsetN
theorem Calm.progList {a : Nat} {l : List Byte} (h : Calm x s) : Calm x (s.progList a l) := h.flashFresh.setList.cacheDrop.opMark
theorem Calm.writeRecord {w : Nat} {hash : List Byte} (h : Calm x s) : Calm x (s.writeRecord w hash) := by
  unfold State.writeRecord
  dsimp only
  split
  · exact h
  · refine .rsetN ?_
    split
    · exact h.progList
    · exact h.eraseBlock.cacheDrop.progList
theorem Calm.updJournal (h : Calm x s) : Calm x s.updJournal := (h.eraseBlock.cacheDrop.foldl fun h => h.setByte).writeRecord
theorem Calm.updMerge (h : Calm x s) : Calm x s.updMerge := by
  unfold State.updMerge
  extract_lets dst p l t
  have ht : Calm x t := h.eraseBlock.cacheDrop.progList
  exact ht.writeRecord
theorem Calm.updSettings {merge : Bool} (h : Calm x s) : Calm x (s.updSettings merge) :=
  .ite (Calm.unless h fun h => h.updJournal).updMerge (h.unless fun h => h.updJournal)
theorem Calm.updCut (h : Calm x s) : Calm x s.updCut := by
  unfold State.updCut
  split
  · exact h.flashSpoil
  · exact h.unless fun h => .ite h.freeStep.flashSpoil (.ite h.freeStep.updSettings.flashSpoil h.freeStep.updSettings)
  · exact h
theorem Calm.loseSram {banks : List Nat} (h : Calm x s) : Calm x (s.loseSram banks) :=
  h.foldl fun h => (h.clearRange.fset (show SYS_SRAM_USE.addr ∉ stillRegs by decide)).setMemst
theorem Calm.loseRram (h : Calm x s) : Calm x s.loseRram := h.clearRange.setMemst
end

/-- The clock of the board and the Glade's counters read as in `s`. -/
structure OnClock (s t : State) : Prop where
  now : t.now = s.now
  cnt : t.glade.cnt = s.glade.cnt

theorem OnClock.refl (s : State) : OnClock s s := ⟨rfl, rfl⟩
theorem OnClock.calm {u : State} (h : OnClock s t) (hu : Calm t.still t → Calm t.still u) : OnClock s u :=
  have hc := hu (Calm.refl t)
  ⟨(congrArg Still.now hc.eq).trans h.now, (congrArg (fun x => x.glade.cnt) hc.eq).trans h.cnt⟩
theorem OnClock.ite {c : Prop} {d : Decidable c} {u v : State} (hu : OnClock s u) (hv : OnClock s v) : OnClock s (@ite _ c d u v) := by
  split <;> assumption
theorem OnClock.rset {a : Nat} {v : Word} (h : OnClock s t) : OnClock s (t.rset a v) := ⟨h.now, h.cnt⟩
theorem OnClock.rsetN {a v : Nat} (h : OnClock s t) : OnClock s (t.rsetN a v) := h.rset
theorem OnClock.fset {f : Fld} {v : Nat} (h : OnClock s t) : OnClock s (t.fset f v) := h.rset
theorem OnClock.resetRegs {p : Nat → Bool} (h : OnClock s t) : OnClock s (t.resetRegs p) := ⟨h.now, h.cnt⟩
theorem OnClock.setPwr {f : PwrS → PwrS} (h : OnClock s t) : OnClock s (t.setPwr f) := ⟨h.now, h.cnt⟩
theorem OnClock.setSys {f : SysS → SysS} (h : OnClock s t) : OnClock s (t.setSys f) := ⟨h.now, h.cnt⟩
theorem OnClock.setNtu {f : NtuState → NtuState} (h : OnClock s t) : OnClock s (t.setNtu f) := ⟨h.now, h.cnt⟩
theorem OnClock.setOvl {f : OvlState → OvlState} (h : OnClock s t) : OnClock s (t.setOvl f) := ⟨h.now, h.cnt⟩
theorem OnClock.sleepHandoff (h : OnClock s t) : OnClock s t.sleepHandoff := by
  unfold State.sleepHandoff
  extract_lets valid u now
  have hu : OnClock s u := .ite h h.fset
  exact hu.setNtu
theorem OnClock.appRegs (h : OnClock s t) : OnClock s t.appRegs := h.resetRegs.rsetN.fset.rsetN.fset.rsetN.fset.fset.fset.rsetN
theorem OnClock.appHidden (h : OnClock s t) : OnClock s t.appHidden := ⟨h.now, h.cnt⟩
theorem OnClock.ovlEmpty (h : OnClock s t) : OnClock s t.ovlEmpty := h.setOvl.fset.fset.rsetN.fset
theorem OnClock.storeLost (h : OnClock s t) : OnClock s t.storeLost := by
  unfold State.storeLost
  extract_lets u v
  have hv : OnClock s v := h.calm fun h => h.squashWhere.squashNow.fset.foldl fun h => h.when fun h => h.dutyCharge
  exact ⟨hv.now, hv.cnt⟩
theorem OnClock.loseContents (h : OnClock s t) : OnClock s t.loseContents := by
  unfold State.loseContents
  refine .ite h (.ite h.setPwr ?_)
  extract_lets v₁ v₂ v₃ v₄ lost v₅ v₆
  have h₄ : OnClock s v₄ := h.sleepHandoff.setPwr.storeLost.appRegs.appHidden.setSys
  have h₅ : OnClock s v₅ := h₄.calm fun h => h.loseSram
  have h₆ : OnClock s v₆.ovlEmpty := h₅.resetRegs.ovlEmpty
  exact .ite ⟨h₆.now, h₆.cnt⟩ h₅
theorem OnClock.cutOff (h : OnClock s t) (k : ResetKind) : OnClock s (t.cutOff k) :=
  h.loseContents.calm fun h => h.updCut.flashCut.when fun h => h.loseSram.loseRram


/-! ## The loss of VDD (R24) -/

theorem gladeLoss_only (s : State) : s.gladeLoss = { s.setGlade fun g =>
    { g with powered := false, booting := false, run := false, adcRun := false, copy := none } with regs := s.gladeLoss.regs } := rfl
theorem rget_gladeLoss_ne (s : State) (a : Nat) (h : a ≠ GCORE_DSP_CFG.addr) : s.gladeLoss.rget a = s.rget a := rget_fset_ne _ _ _ a h

/-- The RTC locked out, the power state BACKUP and the Glade without VDD. -/
def State.vddGone (s : State) : State := (s.rtcLock.setPwr fun w => { w with st := .backup }).gladeLoss

theorem vddGone_parts (s : State) : s.vddGone.pwr.st = .backup ∧ s.vddGone.sys = s.sys ∧ s.vddGone.now = s.now
    ∧ s.vddGone.glade.powered = false ∧ s.vddGone.glade.run = false ∧ s.vddGone.glade.cnt = s.glade.cnt := by
  unfold State.vddGone
  have h := rtcLock_only s
  generalize s.rtcLock = t at *
  rw [gladeLoss_only, h]
  exact ⟨rfl, rfl, rfl, rfl, rfl, rfl⟩
theorem rget_vddGone (s : State) (a : Nat) (h : a ≠ GCORE_DSP_CFG.addr) : s.vddGone.rget a = s.rtcLock.rget a :=
  rget_gladeLoss_ne _ a h

/-- The device in reset, beside its registers. -/
theorem heldReset_parts (s : State) (k : ResetKind) : (s.heldReset k).sys = { held := some k, tcxo := (s.cutOff k).sys.tcxo }
    ∧ (s.heldReset k).now = (s.cutOff k).now ∧ (s.heldReset k).glade = { (s.cutOff k).glade with snaps := [] } := by
  have h := heldReset_only s k
  generalize s.heldReset k = u at *
  generalize s.cutOff k = c at *
  rw [h]
  exact ⟨rfl, rfl, rfl⟩

/-- The loss of VDD is a power-on reset's, left in BACKUP. -/
theorem vddLoss_holds (s : State) :
    Does .vddLoss s fun u => u.pwr.st = .backup ∧ u.sys.held = some .por ∧ u.raw SYS_RSTCAUSE.addr = 1 ∧ u.glade.powered = false
      ∧ u.glade.run = false ∧ u.glade.cnt = s.glade.cnt ∧ u.fbit RTC_STAT.LOCKOUT = true ∧ u.now = s.now := by
  have hexec : exec .vddLoss s = .next (s.heldReset .por).vddGone :=
    congrArg (fun t : State => Host.Outcome.next (t.setPwr fun w => { w with st := .backup }).gladeLoss) (sysReset_supply s .por (by decide))
  have hcause := raw_heldReset_por s
  obtain ⟨hsys, hnow, hglade⟩ := heldReset_parts s .por
  obtain ⟨hnow', hcnt'⟩ := (OnClock.refl s).cutOff .por
  refine ⟨_, hexec, ?_⟩
  generalize s.heldReset .por = u at *
  generalize s.cutOff .por = c at *
  obtain ⟨hpwr, hsys', hnow'', hpowered, hrun, hcnt⟩ := vddGone_parts u
  refine ⟨hpwr, by rw [hsys', hsys], ?_, hpowered, hrun, ?_, ?_, by rw [hnow'', hnow, hnow']⟩
  · unfold State.raw at *
    rw [rget_vddGone u _ (by decide), rget_rtcLock_ne u _ (by decide), hcause]
  · rw [hcnt, hglade]
    exact hcnt'
  · have hlock := rtcLock_lockout u
    unfold State.fbit State.fget at *
    rw [rget_vddGone u _ (by decide), hlock]


/-! ## Core resets (R448, R456) -/

/-- The registers of the core's own space. -/
def inCore (a : Nat) : Bool := 0xE0000000 ≤ a && a < 0xE0100000

/-- A core reset changes the core, the caches, the supply's state of a sleep, its mark and registers. -/
theorem coreReset_only (s : State) (cause : Nat) : s.coreReset cause =
    { s with regs := (s.coreReset cause).regs, coreA := { halted := s.coreA.halted }, caches := {}, pwr := (s.coreReset cause).pwr
             sys := { s.sys with warm := true } } := by
  unfold State.coreReset
  extract_lets halted t u v
  have hv : v = { s with regs := t.regs, coreA := { halted := s.coreA.halted }, caches := {}, pwr := v.pwr } := by
    unfold v
    split <;> rfl
  clear_value v t
  rw [resetCause_only, hv]
  rfl
theorem rget_coreReset (s : State) (cause a : Nat) (ha : inCore a = false) (hc : a ≠ SYS_RSTCAUSE.addr) : (s.coreReset cause).rget a = s.rget a := by
  unfold State.coreReset
  extract_lets halted t u v
  have ht : t.rget a = s.rget a := (rget_resetRegs s inCore a).trans (by rw [ha]; rfl)
  have hv : v.rget a = t.rget a := by
    unfold v
    split <;> rfl
  rw [rget_resetCause_ne _ _ _ hc, rget_setSys, hv, ht]
theorem raw_coreReset (s : State) (cause : Nat) (h : cause < 32) :
    (s.coreReset cause).raw SYS_RSTCAUSE.addr = s.raw SYS_RSTCAUSE.addr ||| 2 ^ cause := by
  unfold State.coreReset
  extract_lets halted t u v
  have ht : t.rget SYS_RSTCAUSE.addr = s.rget SYS_RSTCAUSE.addr := (rget_resetRegs s inCore _).trans (if_neg (by decide))
  have hv : v.rget SYS_RSTCAUSE.addr = t.rget SYS_RSTCAUSE.addr := by
    unfold v
    split <;> rfl
  rw [raw_resetCause _ _ h]
  unfold State.raw
  rw [rget_setSys, hv, ht]

theorem wdtLoad_only (s : State) : s.wdtLoad = { s with regs := s.wdtLoad.regs } := by
  unfold State.wdtLoad
  split <;> rfl
theorem rget_wdtLoad_ne (s : State) (a : Nat) (h : a ≠ SYS_WDT_CNT.addr) : s.wdtLoad.rget a = s.rget a := by
  unfold State.wdtLoad
  split
  · exact rget_rsetN_ne _ _ _ _ h
  · rfl
/-- While a flash operation runs the boot after a core reset waits. -/
theorem bootPending_waits (s : State) (h : s.flash.op.isSome) : s.bootPending = s := by
  unfold State.bootPending
  obtain ⟨o, ho⟩ := Option.isSome_iff_exists.1 h
  rw [ho, Option.isNone_some, Bool.and_false, Bool.false_and]
  rfl

/-- A core reset with the watchdog's count reloaded. -/
def State.coreRestart (s : State) (cause : Nat) : State := (s.coreReset cause).wdtLoad

theorem coreRestart_only (s : State) (cause : Nat) : s.coreRestart cause =
    { s with regs := (s.coreRestart cause).regs, coreA := { halted := s.coreA.halted }, caches := {}, pwr := (s.coreRestart cause).pwr
             sys := { s.sys with warm := true } } := by
  have h := coreReset_only s cause
  unfold State.coreRestart
  generalize s.coreReset cause = t at *
  rw [wdtLoad_only, h]
theorem raw_coreRestart (s : State) (cause : Nat) (h : cause < 32) :
    (s.coreRestart cause).raw SYS_RSTCAUSE.addr = s.raw SYS_RSTCAUSE.addr ||| 2 ^ cause := by
  rw [← raw_coreReset s cause h]
  exact congrArg BitVec.toNat (rget_wdtLoad_ne _ _ (by decide))

/-- What a core reset puts at reset and records, and what it leaves alone. -/
structure CoreRestarted (s u : State) (bit : Nat) : Prop where
  core : u.coreA = { halted := s.coreA.halted }
  caches : u.caches = {}
  sys : u.sys = { s.sys with warm := true }
  cause : u.raw SYS_RSTCAUSE.addr = s.raw SYS_RSTCAUSE.addr ||| bit
  mem : u.mem = s.mem
  ntu : u.ntu = s.ntu
  cad : u.cad = s.cad
  slot : u.slot = s.slot
  glade : u.glade = s.glade
  prot : u.prot = s.prot

theorem coreRestart_leaves (s : State) (cause : Nat) (h : cause < 32) : CoreRestarted s (s.coreRestart cause) (2 ^ cause) := by
  have hc := raw_coreRestart s cause h
  have ho := coreRestart_only s cause
  generalize s.coreRestart cause = t at *
  refine ⟨?_, ?_, ?_, hc, ?_, ?_, ?_, ?_, ?_, ?_⟩ <;> rw [ho]

theorem watchdogExpiry_restarts (s : State) (x : BitVec 5) (hw : s.wdtCounts = true) (hs : s.fbit SYS_WDT_CFG.SYS = false)
    (hf : s.flash.op.isSome) :
    Does (.watchdogExpiry x) s fun u => u.coreA = { halted := s.coreA.halted } ∧ u.caches = {} ∧ u.sys = { s.sys with warm := true }
      ∧ u.raw SYS_RSTCAUSE.addr = s.raw SYS_RSTCAUSE.addr ||| 128 ∧ u.mem = s.mem ∧ u.ntu = s.ntu ∧ u.cad = s.cad ∧ u.slot = s.slot
      ∧ u.glade = s.glade ∧ u.fget SYS_WDT_CNT.VAL = max 1 (s.fget SYS_WDT_CFG.TO) := by
  have hflash : (s.coreRestart cCWDT).flash = s.flash := by rw [coreRestart_only]
  have hexec : exec (.watchdogExpiry x) s = .next (s.coreRestart cCWDT) := by
    show execWatchdogExpiry x s = _
    unfold execWatchdogExpiry
    rw [hw, hs, Bool.not_true, if_neg Bool.false_ne_true, if_neg Bool.false_ne_true]
    exact congrArg Host.Outcome.next (bootPending_waits (s.coreRestart cCWDT) (by rw [hflash]; exact hf))
  obtain ⟨hcore, hcaches, hsys, hcause, hmem, hntu, hcad, hslot, hglade, _⟩ := coreRestart_leaves s cCWDT (by decide)
  refine ⟨_, hexec, hcore, hcaches, hsys, hcause, hmem, hntu, hcad, hslot, hglade, ?_⟩
  have hen : s.fbit SYS_WDT_CFG.EN = true := by
    unfold State.wdtCounts at hw
    simp only [Bool.and_eq_true] at hw
    exact hw.1.1.1
  have hcfg := rget_coreReset s cCWDT SYS_WDT_CFG.addr (by decide) (by decide)
  unfold State.coreRestart
  generalize s.coreReset cCWDT = t at *
  have hto : t.fget SYS_WDT_CFG.TO = s.fget SYS_WDT_CFG.TO := congrArg (fun w : Word => fieldGet w.toNat SYS_WDT_CFG.TO) hcfg
  have hen' : t.fbit SYS_WDT_CFG.EN = true := by
    rw [← hen]
    exact congrArg (fun w : Word => fieldGet w.toNat SYS_WDT_CFG.EN != 0) hcfg
  unfold State.wdtLoad State.wdtTO
  rw [hen', if_pos rfl, hto]
  have hlt : s.fget SYS_WDT_CFG.TO < 2 ^ 16 := fget_lt s SYS_WDT_CFG.TO
  rw [show SYS_WDT_CNT.addr = SYS_WDT_CNT.VAL.addr from rfl, fget_rsetN_self]
  have hget (n : Nat) (h : n < 2 ^ 16) : fieldGet (n % 2 ^ 32) SYS_WDT_CNT.VAL = n := by
    show n % 2 ^ 32 / 2 ^ 0 % 2 ^ 16 = n
    omega
  exact hget _ (by omega)

/-- A write of SYS_CMD with the key and OP 2 restarts the core. -/
theorem sysCmd_restarts (s : State) (wo : Nat) (h : wo = 0x25EC0) : s.sysCmd wo = s.coreRestart cSWCORE := by
  have hkey : fieldGet wo SYS_CMD.KEY = 0x5EC0 := by rw [h]; decide
  have hop : fieldGet wo SYS_CMD.OP = 2 := by rw [h]; decide
  unfold State.sysCmd
  rw [hkey, hop]
  rfl
theorem writeReg_sysCmd (s : State) (m : Master) (v : Word) (ha : Accepted s ⟨m, .base⟩ SYS_CMD.addr) (hv : v.toNat % 2 ^ 18 = 0x25EC0) :
    ∃ t : State, s.writeReg pageHook ⟨m, .base⟩ SYS_CMD.addr v = ((t.coreRestart cSWCORE).ovlSettle coreHook).bootPending
      ∧ t = { s with regs := t.regs, bus := t.bus } ∧ t.raw SYS_RSTCAUSE.addr = s.raw SYS_RSTCAUSE.addr := by
  have hd : ∃ d, descOf SYS_CMD.addr = some d ∧ d.wo = 0x3FFFF#32 := ⟨_, rfl, by decide⟩
  obtain ⟨d, hd, hwo⟩ := hd
  have hwrite := writeReg_ok pageHook s ⟨m, .base⟩ SYS_CMD.addr v d ha (by decide +kernel) hd
  have heq := storedBy_eq s ⟨m, .base⟩ SYS_CMD.addr d v
  have hget := rget_storedBy_ne s ⟨m, .base⟩ SYS_CMD.addr SYS_RSTCAUSE.addr d v (by decide) (by decide) (by decide)
  have hword : (wctxOf s ⟨m, .base⟩ SYS_CMD.addr d v).wo = 0x25EC0 := by
    show (v &&& d.wo).toNat = _
    rw [hwo, BitVec.toNat_and, ← hv]
    exact Nat.and_two_pow_sub_one_eq_mod v.toNat 18
  generalize storedBy s ⟨m, .base⟩ SYS_CMD.addr d v = b at *
  have hhook : anyHook (wctxOf s ⟨m, .base⟩ SYS_CMD.addr d v) b = b.coreRestart cSWCORE := by
    rw [← sysCmd_restarts b _ hword]
    rfl
  refine ⟨b, hwrite.trans ?_, ?_, congrArg BitVec.toNat hget⟩
  · unfold pageHook
    rw [hhook]
  · rw [heq]

theorem sysCmdCoreReset_restarts (s : State) (m : Master) (v : Word) (ha : Accepted s ⟨m, .base⟩ SYS_CMD.addr) (hn : NothingOwed s)
    (hf : s.flash.op.isSome) (hv : v.toNat % 2 ^ 18 = 0x25EC0) :
    Does (.sysCmdCoreReset ⟨m, .base⟩ v) s fun u => u.coreA = { halted := s.coreA.halted } ∧ u.caches = {} ∧ u.sys = { s.sys with warm := true }
      ∧ u.raw SYS_RSTCAUSE.addr = s.raw SYS_RSTCAUSE.addr ||| 512 ∧ u.mem = s.mem ∧ u.ntu = s.ntu ∧ u.cad = s.cad ∧ u.slot = s.slot
      ∧ u.glade = s.glade ∧ u.prot = s.prot := by
  obtain ⟨t, hw, ht, hcause⟩ := writeReg_sysCmd s m v ha hv
  have hr := coreRestart_leaves t cSWCORE (by decide)
  have ho := coreRestart_only t cSWCORE
  generalize t.coreRestart cSWCORE = u at *
  have hpend : u.ovl.pending = none := by
    rw [ho, ht]
    exact hn.1
  have hop : u.flash.op.isSome := by
    rw [ho, ht]
    exact hf
  rw [ovlSettle_none coreHook hpend, bootPending_waits u hop] at hw
  obtain ⟨hcore, hcaches, hsys, hbit, hmem, hntu, hcad, hslot, hglade, hprot⟩ := hr
  rw [hcause] at hbit
  rw [ht] at hcore hsys hmem hntu hcad hslot hglade hprot
  exact ⟨u, congrArg Host.Outcome.next hw, hcore, hcaches, hsys, hbit, hmem, hntu, hcad, hslot, hglade, hprot⟩

/-! ## BACKUP -/

theorem backup_holds (s : State) (h : s.pwr.st = .backup) : Does .pinReset s (fun u => u = s) ∧ Does .brownOutReset s (fun u => u = s)
    ∧ ∀ x, Does (.resetRelease x) s fun u => u = s :=
  ⟨⟨s, congrArg Host.Outcome.next (if_pos h), rfl⟩, ⟨s, congrArg Host.Outcome.next (if_pos h), rfl⟩,
    fun _ => ⟨s, congrArg Host.Outcome.next (if_pos h), rfl⟩⟩

/-- Settles O16: what each reset clears, keeps and records. -/
theorem resets : Obligations.Resets :=
  ⟨fun s hb hl ho hs hu => pinReset_holds s hb ⟨hl, ho, hs, hu⟩, fun s hb hl ho hs hu => brownOutReset_holds s hb ⟨hl, ho, hs, hu⟩,
    vddLoss_holds, backup_holds, sysCmdCoreReset_restarts, watchdogExpiry_restarts⟩

end Sys2Proof.Machine
end

section
/-!
THE BOOT ROM WITHOUT AN IMAGE (O45). It reads the slot records and the slots' headers, starts nothing, and waits for the host.
-/
namespace Sys2Proof.Machine
open Sys2Proof
set_option Elab.async false

variable {s t : State}

/-! ## What the ROM's reads depend on -/

theorem wordAt_congr (h : t.mem = s.mem) (a : Nat) : t.wordAt a = s.wordAt a := bytesAt_congr h 4 a
theorem listAt_congr (h : t.mem = s.mem) (n a : Nat) : t.listAt a n = s.listAt a n := by
  induction n generalizing a with
  | zero => rfl
  | succ n ih =>
    unfold State.listAt State.byteAt
    rw [h, ih]
theorem flashStop_congr (hs : t.flash.susp = s.flash.susp) (hl : t.flash.lines = s.flash.lines) (a n : Nat) :
    t.flashStop a n = s.flashStop a n := by
  unfold State.flashStop
  rw [hs, hl]

/-- The governing record depends on memory and on what of it cannot be read. -/
theorem slotWord_congr (hm : t.mem = s.mem) (hs : t.flash.susp = s.flash.susp) (hl : t.flash.lines = s.flash.lines)
    (hi : t.flash.indet = s.flash.indet) : t.slotWord = s.slotWord := by
  have hrec : t.recAt = s.recAt := by
    funext a
    unfold State.recAt
    simp only [wordAt_congr hm, listAt_congr hm, flashStop_congr hs hl, hi]
  unfold State.slotWord State.govern
  rw [hrec]

/-! ## What the ROM keeps while it finds nothing -/

/-- Registers that show a reset's cause, the boot's result and the flash controller's last operation. -/
def romRegs : List Nat := [SYS_RSTCAUSE.addr, SYS_BOOT.addr, FLC_OPMARK.addr]

/-- `t` holds what the ROM finds in `s`: keys, the system's state, memory, flash, and `romRegs`. -/
structure RomKeeps (s t : State) : Prop where
  keys : t.keys = s.keys
  st : t.sys.st = s.sys.st
  unlocked : t.sys.dbgUnlocked = s.sys.dbgUnlocked
  mem : t.mem = s.mem
  susp : t.flash.susp = s.flash.susp
  lines : t.flash.lines = s.flash.lines
  indet : t.flash.indet = s.flash.indet
  regs : ∀ a ∈ romRegs, t.rget a = s.rget a

theorem RomKeeps.refl (s : State) : RomKeeps s s := ⟨rfl, rfl, rfl, rfl, rfl, rfl, rfl, fun _ _ => rfl⟩
protected theorem RomKeeps.ite {c : Prop} {d : Decidable c} {u v : State} (hu : RomKeeps s u) (hv : RomKeeps s v) : RomKeeps s (@ite _ c d u v) := by
  split <;> assumption
theorem RomKeeps.when {c : Prop} {d : Decidable c} {u : State} (h : RomKeeps s t) (hu : RomKeeps s t → RomKeeps s u) :
    RomKeeps s (@ite _ c d u t) := .ite (hu h) h

theorem RomKeeps.rset {a : Nat} {v : Word} (h : RomKeeps s t) (ha : a ∉ romRegs := by decide) : RomKeeps s (t.rset a v) :=
  ⟨h.keys, h.st, h.unlocked, h.mem, h.susp, h.lines, h.indet,
    fun b hb => (rget_rset_ne t v (by rintro rfl; exact ha hb)).trans (h.regs b hb)⟩
theorem RomKeeps.rsetN {a v : Nat} (h : RomKeeps s t) (ha : a ∉ romRegs := by decide) : RomKeeps s (t.rsetN a v) := h.rset ha
theorem RomKeeps.fset {f : Fld} {v : Nat} (h : RomKeeps s t) (hf : f.addr ∉ romRegs := by decide) : RomKeeps s (t.fset f v) := h.rset hf
theorem RomKeeps.finc {f : Fld} (h : RomKeeps s t) (hf : f.addr ∉ romRegs := by decide) : RomKeeps s (t.finc f) := h.rset hf
/-- None of the registers has the offset of INT_RAW. -/
theorem intRaw_not_rom (p b : Nat) : (INT_RAW.bit p b).addr ∉ romRegs := by
  simp only [romRegs, INT_RAW.bit, pageAddr, SYS_RSTCAUSE.addr, SYS_BOOT.addr, FLC_OPMARK.addr, List.mem_cons, List.not_mem_nil, or_false]
  omega
theorem RomKeeps.raise {p b : Nat} (h : RomKeeps s t) : RomKeeps s (t.raise p b) := h.rset (intRaw_not_rom p b)
theorem RomKeeps.event {p b e : Nat} (h : RomKeeps s t) : RomKeeps s (t.event p b e) := by
  have he := event_only t p b e
  have hr (a : Nat) (ha : a ∈ romRegs) : (t.event p b e).rget a = s.rget a :=
    (he.off a (by revert a; decide)).trans (h.regs a ha)
  have heq := he.eq
  generalize t.event p b e = u at *
  exact ⟨by rw [heq]; exact h.keys, by rw [heq]; exact h.st, by rw [heq]; exact h.unlocked, by rw [heq]; exact h.mem,
    by rw [heq]; exact h.susp, by rw [heq]; exact h.lines, by rw [heq]; exact h.indet, hr⟩

theorem RomKeeps.withBus {b : BusState} (h : RomKeeps s t) : RomKeeps s { t with bus := b } := { h with }
theorem RomKeeps.withCoreA {c : Core} (h : RomKeeps s t) : RomKeeps s { t with coreA := c } := { h with }
theorem RomKeeps.setPwr {f : PwrS → PwrS} (h : RomKeeps s t) : RomKeeps s (t.setPwr f) := { h with }
theorem RomKeeps.setHsp {f : HspState → HspState} (h : RomKeeps s t) : RomKeeps s (t.setHsp f) := { h with }
theorem RomKeeps.freeStep (h : RomKeeps s t) : RomKeeps s t.freeStep := { h with }
theorem RomKeeps.flashCorr {b n : Nat} (h : RomKeeps s t) : RomKeeps s (t.flashCorr b n) := { h with }
theorem RomKeeps.setSys {f : SysS → SysS} (h : RomKeeps s t) (hs : (f t.sys).st = t.sys.st := by rfl)
    (hu : (f t.sys).dbgUnlocked = t.sys.dbgUnlocked := by rfl) : RomKeeps s (t.setSys f) :=
  { h with st := hs.trans h.st, unlocked := hu.trans h.unlocked }

/-! ## Reading a slot's header -/

/-- The boot ROM finds nothing to start. -/
structure Imageless (s : State) : Prop where
  image : ∀ k < 2, s.wordAt (slotBase k) ≠ 0x494D4731
  trial : ∀ k < 2, recState s.slotWord k ≠ 3
  indet : ∀ k < 2, s.flash.indet.contains (slotBase k / 2048) = false
  mark : s.fbit FLC_OPMARK.VALID = false ∨ s.fbit FLC_OPMARK.DONE = true

theorem Imageless.of_noImage (h : NoImage s) : Imageless s := by
  obtain ⟨h0, h1, t0, t1, -, -, -, hm, i0, i1⟩ := h
  refine ⟨fun k hk => ?_, fun k hk => ?_, fun k hk => ?_, hm⟩ <;> interval_cases k <;> assumption
theorem Imageless.congr (h : Imageless s) (hm : t.mem = s.mem) (hs : t.flash.susp = s.flash.susp) (hl : t.flash.lines = s.flash.lines)
    (hi : t.flash.indet = s.flash.indet) (hr : t.rget FLC_OPMARK.addr = s.rget FLC_OPMARK.addr) : Imageless t := by
  refine ⟨fun k hk => ?_, fun k hk => ?_, fun k hk => ?_, ?_⟩
  · rw [wordAt_congr hm]
    exact h.image k hk
  · rw [slotWord_congr hm hs hl hi]
    exact h.trial k hk
  · rw [hi]
    exact h.indet k hk
  · have hget (f : Fld) (hf : f.addr = FLC_OPMARK.addr) : t.fget f = s.fget f := by
      unfold State.fget
      rw [hf, hr]
    unfold State.fbit
    rw [hget _ rfl, hget _ rfl]
    exact h.mark
theorem Imageless.keeps (h : Imageless s) (ht : RomKeeps s t) : Imageless t :=
  h.congr ht.mem ht.susp ht.lines ht.indet (ht.regs _ (by decide))

theorem RomKeeps.flashError {kind a : Nat} (h : RomKeeps s t) : RomKeeps s (t.flashError kind a) := .ite h.fset.fset.fset.raise h.fset.fset.fset.raise
theorem RomKeeps.flashSweep {a n : Nat} (h : RomKeeps s t) : RomKeeps s (t.flashSweep a n) := by
  unfold State.flashSweep
  generalize t.flash.lines.filter _ = l
  induction l generalizing t with
  | nil => exact h
  | cons y l ih => exact ih h.flashCorr
theorem RomKeeps.flashTake {a n : Nat} (h : RomKeeps s t) : RomKeeps s (t.flashTake a n).1 := by
  unfold State.flashTake
  split
  · exact h
  · split
    · exact h
    · split
      · exact h.flashSweep.flashError
      · exact h.flashSweep

/-- A slot's first page is determinate: its header reads as it stands. -/
theorem flashLoose_header (k : Nat) (hk : k < 2) (h : s.flash.indet.contains (slotBase k / 2048) = false) : s.flashLoose (slotBase k) 32 = s := by
  have hnone : (s.flash.indet.filter fun p => meets (slotBase k) 32 (p * 2048) 2048) = [] := by
    refine List.filter_eq_nil_iff.2 fun p hp hmeets => ?_
    have hne : p ≠ slotBase k / 2048 := by
      rintro rfl
      rw [List.contains_iff_mem.2 hp] at h
      exact absurd h (by decide)
    simp only [meets, Bool.and_eq_true, decide_eq_true_eq] at hmeets
    have hbase : slotBase k % 2048 = 0 := by interval_cases k <;> decide
    omega
  unfold State.flashLoose
  rw [hnone]
  rfl
theorem rangeRead_flash (s : State) (a n : Nat) (h : regionOf a = .flash) : s.rangeRead a n = (s.flashLoose a n).flashTake a n := by
  unfold State.rangeRead
  rw [h]
theorem RomKeeps.header {k : Nat} (h : RomKeeps s t) (hs : Imageless s) (hk : k < 2) : RomKeeps s (t.rangeRead (slotBase k) 32).1 := by
  have hregion : regionOf (slotBase k) = .flash := by interval_cases k <;> decide
  rw [rangeRead_flash _ _ _ hregion, flashLoose_header k hk ((hs.keeps h).indet k hk)]
  exact h.flashTake

/-- The check ends with a header that is none. -/
theorem imgCheck_of_header {k : Nat} {r : State × Bool} (h : s.rangeRead (slotBase k) 32 = r) (hno : r.1.imgHeader (slotBase k) = false) :
    s.imgCheck k = (r.1, false) := by
  unfold State.imgCheck
  simp only [h, hno, Bool.and_false, Bool.not_false, if_true]
theorem imgHeader_of_magic {a : Nat} (h : s.wordAt a ≠ 0x494D4731) : s.imgHeader a = false := by
  unfold State.imgHeader
  simp only [h, decide_false, Bool.false_and]
/-- A slot without an image fails its check. -/
theorem imgCheck_fails {k : Nat} (h : RomKeeps s t) (hs : Imageless s) (hk : k < 2) : ∃ u, t.imgCheck k = (u, false) ∧ RomKeeps s u := by
  obtain ⟨r, hr⟩ : ∃ r, t.rangeRead (slotBase k) 32 = r := ⟨_, rfl⟩
  have hu := h.header hs hk
  rw [hr] at hu
  exact ⟨r.1, imgCheck_of_header hr (imgHeader_of_magic ((hs.keeps hu).image k hk)), hu⟩
theorem checkSlot_fails {k : Nat} {trial : Bool} (h : RomKeeps s t) (hs : Imageless s) (hk : k < 2) :
    ∃ u, t.checkSlot k trial = (u, none) ∧ RomKeeps s u := by
  obtain ⟨c, hc, h1⟩ := imgCheck_fails h hs hk
  obtain ⟨d, hd, h2⟩ := imgCheck_fails h1 hs (show 1 - k < 2 by omega)
  unfold State.checkSlot
  rw [hc]
  extract_lets w o st c' d'
  have hd' : d' = (d, false) := hd
  rw [if_neg Bool.false_ne_true, hd', if_neg Bool.false_ne_true]
  split
  · exact ⟨d, rfl, h2⟩
  · exact ⟨c, rfl, h1⟩

/-- No image is selected. -/
theorem selectImage_fails (h : RomKeeps s t) (hs : Imageless s) : ∃ u, t.selectImage = (u, none) ∧ RomKeeps s u := by
  have ht := (hs.keeps h).trial
  have ha : recActive t.slotWord < 2 := Nat.mod_lt _ (by decide)
  obtain ⟨u, hu, hk⟩ := checkSlot_fails (trial := false) (h.rsetN (a := UPD_SLOT.addr) (v := t.slotWord)) hs ha
  refine ⟨u, ?_, hk⟩
  unfold State.selectImage
  extract_lets w a o st v v₁ v₂ v₃
  have hst : ¬ st = 3 := ht _ ha
  have ho : ¬ recState w o = 3 := ht _ (show 1 - recActive t.slotWord < 2 by omega)
  rw [if_neg hst, decide_eq_false ho, Bool.and_false, if_neg Bool.false_ne_true]
  exact hu

/-- Nothing is repaired. -/
theorem bootRepair_idle (h : Imageless s) : s.bootRepair = s := by
  unfold State.bootRepair
  dsimp only
  rw [if_pos]
  rcases h.mark with h | h <;> simp [h]


/-! ## Writes of the ROM -/

theorem RomKeeps.dirty {p : Nat} (h : RomKeeps s t) : RomKeeps s (t.dirty p) :=
  .ite (h.fset (show OVL_DIRTY_LO.addr ∉ romRegs by decide)) (h.fset (show OVL_DIRTY_HI.addr ∉ romRegs by decide))
theorem RomKeeps.reject {src : Source} {page off cause : Nat} {wr : Bool} (h : RomKeeps s t) : RomKeeps s (t.reject src page off wr cause) :=
  h.rsetN.finc.fset.raise.withBus
theorem RomKeeps.storedBy {acc : Acc} {a : Nat} {d : RegDesc} {v : Word} (h : RomKeeps s t) (ha : a ∉ romRegs) :
    RomKeeps s (storedBy t acc a d v) :=
  .rset (.ite h.withBus.dirty h.withBus) ha
/-- A write whose block effect keeps what the ROM finds keeps it, accepted or not. -/
theorem RomKeeps.writeReg {hook : WCtx → State → State} {acc : Acc} {a : Nat} {v : Word} (h : RomKeeps s t) (ha : a ∉ romRegs)
    (hp : plainReg a = true) (hd : (descOf a).isSome)
    (hf : ∀ w u, w.page = pageOf a → w.off = baseOff a → RomKeeps s u → RomKeeps s (hook w u)) : RomKeeps s (t.writeReg hook acc a v) := by
  obtain ⟨d, hd⟩ := Option.isSome_iff_exists.1 hd
  cases hj : t.judge acc.m (t.sourceOf acc.m) (viewAddr acc.view a) true with
  | ok =>
    rw [writeReg_ok hook t acc a v d hj hp hd]
    exact hf _ _ rfl rfl (h.storedBy ha)
  | busError =>
    rw [writeReg_busError hook t acc a v hj]
    exact h.withBus
  | reject c =>
    rw [writeReg_reject hook t acc a v c hj]
    exact h.reject

/-- A register that is no data port is written as by any master. -/
theorem romWrite_eq (s : State) (acc : View) (a v : Nat) (h : s.portCur (baseAddr (viewAddr acc a)) = none) :
    s.romWrite (viewAddr acc a) v = s.writeReg anyHook ⟨.tanumA, acc⟩ a (BitVec.ofNat 32 v) := by
  unfold State.romWrite State.busWrite
  rw [h]
  rfl
theorem portCur_none (s : State) (a : Nat) (h : a ≠ CAD_HOP_DATA.addr ∧ a ≠ TXM_FIR_DATA.addr ∧ a ≠ DBG_REG_DATA.addr) : s.portCur a = none := by
  obtain ⟨h1, h2, h3⟩ := h
  have hr : s.radioPort a = none := by
    unfold State.radioPort
    rw [if_neg h1, if_neg h2]
  unfold State.portCur
  rw [hr, if_neg h3]
  rfl

theorem RomKeeps.avsStep {k : Nat} (h : RomKeeps s t) : RomKeeps s (t.avsStep k) := h.fset.fset.raise
theorem RomKeeps.avsClamp (h : RomKeeps s t) : RomKeeps s t.avsClamp := by
  unfold State.avsClamp
  extract_lets on was u
  have hu : RomKeeps s u := h.setPwr
  exact .ite hu.fset.raise.event hu
theorem RomKeeps.avsClock (h : RomKeeps s t) : RomKeeps s t.avsClock := .ite h.avsStep (.ite h.avsStep h)

theorem anyHook_avs (w : WCtx) (s : State) (h : w.page = Pg.AVS) : anyHook w s = avsHook w s := by
  unfold anyHook coreHook
  rw [h]
  rfl
theorem anyHook_hsp (w : WCtx) (s : State) (h : w.page = Pg.HSP) : anyHook w s = hspHook w s := by
  unfold anyHook coreHook
  rw [h]
  rfl
theorem RomKeeps.clockHook {w : WCtx} (h : RomKeeps s t) (hw : w.off = 0x04C) : RomKeeps s (avsHook w t) := by
  unfold avsHook
  rw [hw]
  exact h.avsClamp.when fun h => h.avsStep
theorem RomKeeps.portHook {w : WCtx} (h : RomKeeps s t) (hw : w.off = 0x004) : RomKeeps s (hspHook w t) := by
  unfold hspHook
  rw [if_pos hw]
  extract_lets u v
  have hu : RomKeeps s u := h.fset
  have hv : RomKeeps s v := hu.when fun h => h.setHsp
  exact .ite hv.fset.setHsp (.ite hv.setHsp hv)

theorem RomKeeps.writeClock {v : Nat} (h : RomKeeps s t) : RomKeeps s (t.romWrite AVS_CLK.addr v) := by
  rw [show AVS_CLK.addr = viewAddr .base AVS_CLK.addr from rfl, romWrite_eq _ _ _ _ (portCur_none _ _ (by decide))]
  refine h.writeReg (by decide) (by decide +kernel) (by decide +kernel) fun w u hp ho hu => ?_
  rw [anyHook_avs w u hp]
  exact hu.clockHook ho
theorem RomKeeps.writePort {v : Nat} (h : RomKeeps s t) : RomKeeps s (t.romWrite (viewAddr .set HSP_CTRL.addr) v) := by
  rw [romWrite_eq _ _ _ _ (portCur_none _ _ (by decide))]
  refine h.writeReg (by decide) (by decide +kernel) (by decide +kernel) fun w u hp ho hu => ?_
  rw [anyHook_hsp w u hp]
  exact hu.portHook ho

/-! ## The boot -/

theorem RomKeeps.bootClock (h : RomKeeps s t) : RomKeeps s t.bootClock :=
  (RomKeeps.setSys (f := fun y => { y with hfxoStable := true, syspllLock := true }) h).writeClock.fset.avsClamp.avsClock

/-- In START no sleep state is entered (R24). -/
theorem entryCause_start (s : State) (p : PwrState) (hs : s.sys.st = .start) (hp : p ≠ .run) : s.entryCause p = 1 := by
  unfold State.entryCause
  rw [hs]
  cases p with
  | run => exact absurd rfl hp
  | doze | nap | slumber | hibernate | off | backup => rfl
theorem pwrTarget_sleeps (s : State) : s.pwrTarget ≠ .run := by
  unfold State.pwrTarget
  split <;> decide
theorem RomKeeps.waitRequest (h : RomKeeps s t) (hs : s.sys.st = .start) : RomKeeps s t.waitRequest.1 := by
  unfold State.waitRequest
  dsimp only
  split
  · exact h
  · split
    · exact RomKeeps.setPwr (f := fun w => { w with wakePend := w.wakePend - t.wakeNow t.pwrTarget }) h
    · rw [entryCause_start t t.pwrTarget (h.st.trans hs) (pwrTarget_sleeps t)]
      exact h.fset.fset.finc.raise

/-- In loader mode the ROM waits for the host. -/
theorem RomKeeps.bootLoader (hs : s.sys.st = .start) : RomKeeps (s.bootBit 4) s.bootLoader := by
  have h : RomKeeps (s.bootBit 4) ((s.bootBit 4).romWrite (viewAddr .set HSP_CTRL.addr) 1) := (RomKeeps.refl _).writePort
  unfold State.bootLoader
  extract_lets u _ _ v r
  have hv : RomKeeps (s.bootBit 4) v := h.freeStep.withCoreA
  have hr : RomKeeps (s.bootBit 4) r.1 := hv.waitRequest hs
  exact .ite hr.withCoreA hr

/-- The boot's start: no result yet. -/
def State.bootStart (s : State) : State := (s.setSys fun y => { y with warm := false, boot := none }).rsetN SYS_BOOT.addr 0

theorem bootStart_imageless (h : Imageless s) : Imageless s.bootStart :=
  h.congr rfl rfl rfl rfl ((rget_rsetN_ne _ _ _ _ (by decide)).trans rfl)

/-- A boot that finds no image leads to loader mode. -/
theorem boot_loads (h : Imageless s) : ∃ u, s.boot false = u.bootLoader ∧ RomKeeps s.bootStart u := by
  have hb := bootStart_imageless h
  have hclock : RomKeeps s.bootStart s.bootStart.bootClock := (RomKeeps.refl _).bootClock
  obtain ⟨u, hu, hk⟩ := selectImage_fails hclock hb
  have hselect : s.bootStart.bootClock.bootRepair.selectImage = (u, none) := by
    rw [bootRepair_idle (hb.keeps hclock), hu]
  refine ⟨if recCfg u.slotWord = 1 then u.updState 6 else u, ?_, hk.when fun h => h.fset⟩
  unfold State.boot
  unfold State.bootStart at hselect
  simp only [hselect, if_neg Bool.false_ne_true, Bool.not_false, Bool.true_and, decide_eq_true_eq]

/-- A boot that finds no image ends in loader mode, with the resets' causes and the keys as they were. -/
theorem boot_imageless (h : Imageless s) (hs : s.sys.st = .start) : (s.boot false).keys = s.keys
    ∧ (s.boot false).sys.dbgUnlocked = s.sys.dbgUnlocked ∧ (s.boot false).rget SYS_RSTCAUSE.addr = s.rget SYS_RSTCAUSE.addr
    ∧ bitOf ((s.boot false).raw SYS_BOOT.addr) 4 = true := by
  obtain ⟨u, hu, hk⟩ := boot_loads h
  have hl := RomKeeps.bootLoader (s := u) (hk.st.trans hs)
  have hbit : bitOf ((u.bootBit 4).raw SYS_BOOT.addr) 4 = true := bitOf_raw _ _ _ (fget_fset_self _ _ _ (by decide))
  have hcause : (u.bootBit 4).rget SYS_RSTCAUSE.addr = u.rget SYS_RSTCAUSE.addr := rget_fset_ne _ _ _ _ (by decide)
  rw [hu]
  refine ⟨hl.keys.trans hk.keys, hl.unlocked.trans hk.unlocked, ?_, ?_⟩
  · rw [hl.regs _ (by decide), hcause, hk.regs _ (by decide)]
    exact rget_rsetN_ne _ _ _ _ (by decide)
  · unfold State.raw at *
    rw [hl.regs _ (by decide), hbit]

end Sys2Proof.Machine
end

section
/-!
FACTORY DEFAULTS (O45). Every key is erased, the device is reset and, where no image stands, boots to loader mode.
-/
namespace Sys2Proof.Machine
open Sys2Proof
set_option Elab.async false

variable {s t : State}

/-! ## Zeroise (R368) -/

/-- `t` is `s` but for keys, the Headrace's marks, cipher jobs and registers other than the flash controller's mark and UPD_STAT. -/
structure Zeroes (s t : State) : Prop where
  eq : t = { s with keys := t.keys, hdr := t.hdr, cipu := t.cipu, regs := t.regs }
  mark : t.rget FLC_OPMARK.addr = s.rget FLC_OPMARK.addr
  upd : t.rget UPD_STAT.addr = s.rget UPD_STAT.addr

theorem Zeroes.refl (s : State) : Zeroes s s := ⟨rfl, rfl, rfl⟩
theorem Zeroes.rset {a : Nat} {v : Word} (h : Zeroes s t) (ha : a ≠ FLC_OPMARK.addr ∧ a ≠ UPD_STAT.addr) : Zeroes s (t.rset a v) :=
  ⟨congrArg (·.rset a v) h.eq, (rget_rset_ne t v ha.1.symm).trans h.mark, (rget_rset_ne t v ha.2.symm).trans h.upd⟩
theorem Zeroes.fset {f : Fld} {v : Nat} (h : Zeroes s t) (hf : f.addr ≠ FLC_OPMARK.addr ∧ f.addr ≠ UPD_STAT.addr) : Zeroes s (t.fset f v) :=
  h.rset hf
theorem Zeroes.withKeys {k : List KeySlot} (h : Zeroes s t) : Zeroes s { t with keys := k } :=
  ⟨congrArg (fun u : State => { u with keys := k }) h.eq, h.mark, h.upd⟩
theorem Zeroes.withHdr {x : HdrState} (h : Zeroes s t) : Zeroes s { t with hdr := x } :=
  ⟨congrArg (fun u : State => { u with hdr := x }) h.eq, h.mark, h.upd⟩
theorem Zeroes.withCipu {l : List Cipu} (h : Zeroes s t) : Zeroes s { t with cipu := l } :=
  ⟨congrArg (fun u : State => { u with cipu := l }) h.eq, h.mark, h.upd⟩
protected theorem Zeroes.ite {c : Prop} {d : Decidable c} {u v : State} (hu : Zeroes s u) (hv : Zeroes s v) : Zeroes s (@ite _ c d u v) := by
  split <;> assumption
theorem Zeroes.foldl {α : Type} {f : State → α → State} {l : List α} (h : Zeroes s t) (hf : ∀ {u y}, y ∈ l → Zeroes s u → Zeroes s (f u y)) :
    Zeroes s (l.foldl f t) := by
  induction l generalizing t with
  | nil => exact h
  | cons y l ih => exact ih (hf List.mem_cons_self h) fun hm => hf (List.mem_cons_of_mem _ hm)

theorem Zeroes.squash {cause : SqCause} {locked : Bool} {roots : List Nat} (h : Zeroes s t) : Zeroes s (t.squash cause locked roots) := by
  have hc : Zeroes s (t.finc cause.fld) := h.rset (by cases cause <;> decide)
  exact .ite h (Zeroes.withHdr (.ite (hc.fset (by decide)) hc))
theorem Zeroes.keyClear {n : Nat} (h : Zeroes s t) : Zeroes s (t.keyClear n) := h.withKeys.withKeys.squash

theorem Zeroes.cipuEnd {n cause : Nat} (hn : n < 8) (h : Zeroes s t) : Zeroes s (t.cipuEnd n cause) := by
  have htag (k : Nat) (hk : k < 8) : CIPU_TAG.addr n k ≠ FLC_OPMARK.addr ∧ CIPU_TAG.addr n k ≠ UPD_STAT.addr := by
    unfold CIPU_TAG.addr FLC_OPMARK.addr UPD_STAT.addr
    omega
  have hstat : CIPU_STAT.addr n ≠ FLC_OPMARK.addr ∧ CIPU_STAT.addr n ≠ UPD_STAT.addr := by
    unfold CIPU_STAT.addr FLC_OPMARK.addr UPD_STAT.addr
    omega
  have hinfo : CIPU_ERRINFO.addr n ≠ FLC_OPMARK.addr ∧ CIPU_ERRINFO.addr n ≠ UPD_STAT.addr := by
    unfold CIPU_ERRINFO.addr FLC_OPMARK.addr UPD_STAT.addr
    omega
  have hraw : (INT_RAW.bit (Pg.CIPU n) 1).addr ≠ FLC_OPMARK.addr ∧ (INT_RAW.bit (Pg.CIPU n) 1).addr ≠ UPD_STAT.addr := by
    simp only [INT_RAW.bit, pageAddr, FLC_OPMARK.addr, UPD_STAT.addr]
    omega
  have hdrain : Zeroes s (t.cipuDrain n) := h.withCipu.foldl fun hk h => h.rset (htag _ (List.mem_range.1 hk))
  have hu : Zeroes s ((t.cipuDrain n).fset (CIPU_STAT.STATE n) 0) := hdrain.fset hstat
  unfold State.cipuEnd
  exact .ite (((hu.fset hstat).fset hinfo).fset hraw) hu

theorem Zeroes.zeroise (h : Zeroes s t) : Zeroes s t.zeroise :=
  (h.foldl fun _ h => h.keyClear).foldl fun hn h => h.cipuEnd (List.mem_range.1 hn)


/-! ## The reset -/

theorem loseContents_awake (hs : s.pwr.st ≠ .slumber) (hh : s.pwr.st ≠ .hibernate) : ∃ p : PwrS, s.loseContents = { s with pwr := p } := by
  unfold State.loseContents
  split
  · exact ⟨s.pwr, rfl⟩
  · refine ⟨{ s.pwr with leaving := none }, ?_⟩
    extract_lets p
    exact if_pos (by rw [decide_eq_false (show ¬ p = .slumber from hs), decide_eq_false (show ¬ p = .hibernate from hh)]; rfl)
/-- A warm reset of a device that is awake and works at no flash finds it as it stands. -/
theorem cutOff_awake (k : ResetKind) (hk : k.cold = false) (hs : s.pwr.st ≠ .slumber) (hh : s.pwr.st ≠ .hibernate) (ho : s.flash.op = none)
    (hp : s.flash.susp = none) (hu : s.updBusy = false) : ∃ p : PwrS, s.cutOff k = ({ s with pwr := p } : State).flashQuiet := by
  obtain ⟨p, e⟩ := loseContents_awake hs hh
  refine ⟨p, ?_⟩
  unfold State.cutOff
  rw [e, hk, updCut_idle (by exact hu), flashCut_idle (by exact ho) (by exact hp)]
  rfl

theorem heldReset_stores (s : State) (k : ResetKind) : (s.heldReset k).keys = List.replicate 32 {}
    ∧ (s.heldReset k).mem = (s.cutOff k).mem ∧ (s.heldReset k).flash = { lines := (s.cutOff k).flash.lines, indet := (s.cutOff k).flash.indet } := by
  have h := heldReset_only s k
  generalize s.heldReset k = u at *
  generalize s.cutOff k = c at *
  rw [h]
  exact ⟨rfl, rfl, rfl⟩

theorem RomKeeps.hspStraps {n : Nat} (h : RomKeeps s t) : RomKeeps s (t.hspStraps n) := by
  unfold State.hspStraps
  extract_lets w u v
  have hv : RomKeeps s v := h.fset.fset.fset.fset.rsetN
  exact hv.setSys
theorem RomKeeps.release {x : Nat} (h : RomKeeps s t) (hk : t.sys.held = some .factory) : RomKeeps s (t.release x) := by
  have hw : RomKeeps s (t.setSys fun y => { y with held := none }) := h.setSys
  unfold State.release
  rw [hk, if_neg (by decide)]
  exact .ite hw.setSys hw.setSys.hspStraps


/-! ## The command -/

/-- The host is served by a device that is awake. -/
theorem awake_of_hspServes (h : s.hspServes = true) : s.pwr.st ≠ .slumber ∧ s.pwr.st ≠ .hibernate := by
  have hup : s.busUp = true := by
    unfold State.hspServes at h
    simp only [Bool.and_eq_true] at h
    exact h.1.1.1
  unfold State.busUp at hup
  constructor <;> intro he <;> rw [he] at hup <;> exact absurd hup (by simp)

/-- The device that factory defaults leave in reset: no image, no key, and the reset's cause. -/
theorem erased_leaves (hless : Imageless s) (hop : s.flash.op = none) (hsusp : s.flash.susp = none) (hbusy : s.updBusy = false) (hs : s.pwr.st ≠ .slumber) (hh : s.pwr.st ≠ .hibernate) :
    Imageless (s.zeroise.sysReset .factory) ∧ (s.zeroise.sysReset .factory).keys = List.replicate 32 {}
      ∧ (s.zeroise.sysReset .factory).sys.st = .start ∧ (s.zeroise.sysReset .factory).sys.dbgUnlocked = false
      ∧ (s.zeroise.sysReset .factory).sys.held = some .factory
      ∧ bitOf ((s.zeroise.sysReset .factory).raw SYS_RSTCAUSE.addr) 6 = true := by
  obtain ⟨heq, hmark, hupd⟩ := (Zeroes.refl s).zeroise
  rw [sysReset_warm _ .factory (by decide)]
  generalize s.zeroise = z at *
  have hbusy' : z.updBusy = false := by
    unfold State.updBusy State.fget at *
    rw [show UPD_STAT.STATE.addr = UPD_STAT.addr from rfl] at *
    rw [hupd, hbusy]
  obtain ⟨p, hcut⟩ := cutOff_awake (s := z) .factory rfl (by rw [heq]; exact hs) (by rw [heq]; exact hh) (by rw [heq]; exact hop)
    (by rw [heq]; exact hsusp) hbusy'
  obtain ⟨hkeys, hmem, hflash⟩ := heldReset_stores z .factory
  obtain ⟨hsys, -, -⟩ := heldReset_parts z .factory
  have hget := rget_heldReset z .factory FLC_OPMARK.addr (by decide)
  have hcause : bitOf ((z.heldReset .factory).raw SYS_RSTCAUSE.addr) 6 = true := bitOf_raw _ _ _ (fget_fset_self _ _ _ (by decide))
  rw [hcut] at hmem hflash hget
  generalize z.heldReset .factory = u at *
  refine ⟨hless.congr ?_ ?_ ?_ ?_ ?_, hkeys, by rw [hsys], by rw [hsys], by rw [hsys], hcause⟩
  · rw [hmem]
    show z.mem = _
    rw [heq]
  · rw [hflash, hsusp]
  · rw [hflash]
    show z.flash.lines = _
    rw [heq]
  · rw [hflash]
    show z.flash.indet = _
    rw [heq]
  · rw [hget, if_pos (by decide), ← hmark]
    rfl

/-- What the boot ROM will find stands while a command is recorded. -/
theorem recorded_finds {code res : Nat} (r : Recorded s t code res) (hi : NoImage s) :
    Imageless t ∧ t.flash.op = none ∧ t.flash.susp = none ∧ t.updBusy = false := by
  have hless := Imageless.of_noImage hi
  obtain ⟨-, -, -, -, hop, hsusp, hbusy, -⟩ := hi
  have hmem : t.mem = s.mem := by rw [r.eq]
  have hflash : t.flash = s.flash := by rw [r.eq]
  refine ⟨hless.congr hmem (by rw [hflash]) (by rw [hflash]) (by rw [hflash]) (r.off _ (by decide)), by rw [hflash, hop], by rw [hflash, hsusp], ?_⟩
  unfold State.updBusy State.fget at *
  rw [show UPD_STAT.STATE.addr = UPD_STAT.addr from rfl] at *
  rw [r.off _ (by decide), hbusy]

/-- A device held by factory defaults is released to the boot. -/
theorem releaseBoot_held (h : s.sys.held = some .factory) (x : Nat) : s.releaseBoot x = (s.release x).boot false := by
  unfold State.releaseBoot
  rw [h]
  rfl
theorem keyValid_reset (h : s.keys = List.replicate 32 {}) : s.keyValid = 0 := by
  unfold State.keyValid State.keySlot
  rw [h]
  decide

theorem factoryDefaults_erases (hs : s.hspServes = true) (hc : s.hsp.cs = false) (hp : s.hsp.priv = none) (ht : s.token = true)
    (hi : NoImage s) (x : BitVec 5) : Does (.factoryDefaults x) s fun u => u.keyValid = 0 ∧ bitOf (u.raw SYS_RSTCAUSE.addr) 6 = true
      ∧ bitOf (u.raw SYS_BOOT.addr) 4 = true ∧ u.sys.dbgUnlocked = false := by
  have hres : s.privResult ⟨3, true⟩ = 0 := by
    unfold State.privResult
    rw [ht]
    rfl
  obtain ⟨t, e, r⟩ := privTransaction_recorded 3 0 hs hc hp hres (by decide) (by decide)
  obtain ⟨hslumber, hhibernate⟩ := awake_of_hspServes hs
  obtain ⟨hless, hop, hsusp, hbusy⟩ := recorded_finds r hi
  have hpwr : t.pwr = s.pwr := by rw [r.eq]
  obtain ⟨hless, hkeys, hst, hunlocked, hheld, hcause⟩ :=
    erased_leaves hless hop hsusp hbusy (by rw [hpwr]; exact hslumber) (by rw [hpwr]; exact hhibernate)
  have hpriv : s.privTransaction 3 = (t.zeroise.sysReset .factory).hspRoute := e
  generalize t.zeroise.sysReset .factory = v at *
  have hw : RomKeeps v (v.hspRoute.release x.toNat) := RomKeeps.release (RomKeeps.refl v).setHsp hheld
  obtain ⟨bkeys, bunlocked, bcause, bboot⟩ := boot_imageless (hless.keeps hw) (hw.st.trans hst)
  have hexec : exec (.factoryDefaults x) s = .next ((v.hspRoute.release x.toNat).boot false) := by
    show execFactoryDefaults x s = _
    unfold execFactoryDefaults
    dsimp only
    rw [held_of_hspServes hs, hpriv, releaseBoot_held (by exact hheld)]
    rfl
  refine ⟨_, hexec, keyValid_reset (bkeys.trans (hw.keys.trans hkeys)), ?_, bboot, bunlocked.trans (hw.unlocked.trans hunlocked)⟩
  unfold State.raw at *
  rw [bcause, hw.regs _ (by decide), hcause]

/-- Settles O45: the deassertion, the commands without and with a token, and the debug and boundary-scan port. -/
theorem privilegedCommands : Obligations.PrivilegedCommands :=
  ⟨hspCsDeassert_applies, fun _ x hs hc hp ht => exec_privileged_noToken x hs hc hp ht,
    fun _ hs hc hp ht => ⟨debugUnlock_unlocks hs hc hp ht, debugUnlock_ownerLocked hs hc hp ht, ownerLockRelease_clears hs hc hp ht,
      gladeMaintenance_asks hs hc hp ht, gladeMaintenance_sealed hs hc hp ht, factoryDefaults_erases hs hc hp ht⟩,
    boundaryScan_taps, debugAccess_locked, debugAccess_sram⟩

end Sys2Proof.Machine
end

section
/-!
THE AUDIT RING SHOWN (O9). A write of PROT_AUD_IDX puts the selected entry into PROT_AUD_W0 to W5, and no later entry changes them (R64).
-/
namespace Sys2Proof.Machine
open Sys2Proof

/-! ## The six words -/

/-- The words that the entry at an index shows: zeros where the ring holds none. -/
def State.audShown (s : State) (i : Nat) : List Word := ((s.prot.ring[i]?).map AuditEntry.words).getD (List.replicate 6 0#32)
/-- The first `k` words of a list, put into PROT_AUD_W. -/
def State.audPut (s : State) (e : List Word) (k : Nat) : State :=
  (List.range k).foldl (fun s n => s.rset (PROT_AUD_W.addr n) ((e[n]?).getD 0#32)) s

theorem audPut_succ (s : State) (e : List Word) (k : Nat) :
    s.audPut e (k + 1) = (s.audPut e k).rset (PROT_AUD_W.addr k) ((e[k]?).getD 0#32) := by
  unfold State.audPut
  rw [List.range_succ, List.foldl_append]
  rfl
theorem audPut_only (s : State) (e : List Word) (k : Nat) : s.audPut e k = { s with regs := (s.audPut e k).regs } := by
  induction k with
  | zero => rfl
  | succ k ih =>
    rw [audPut_succ, ih]
    rfl
theorem rget_audPut_ne (s : State) (e : List Word) (k a : Nat) (h : a < PROT_AUD_W.addr 0) : (s.audPut e k).rget a = s.rget a := by
  induction k with
  | zero => rfl
  | succ k ih =>
    rw [audPut_succ, rget_rset_ne, ih]
    unfold PROT_AUD_W.addr at *
    omega
theorem rget_audPut (s : State) (e : List Word) (k n : Nat) (h : n < k) :
    (s.audPut e k).rget (PROT_AUD_W.addr n) = (e[n]?).getD 0#32 := by
  induction k with
  | zero => omega
  | succ k ih =>
    rw [audPut_succ]
    by_cases hn : n = k
    · rw [hn, rget_rset_self]
    · rw [rget_rset_ne, ih (by omega)]
      unfold PROT_AUD_W.addr
      omega

/-- An entry shows its own words. -/
theorem audShown_some (s : State) (i : Nat) (e : AuditEntry) (h : s.prot.ring[i]? = some e) (n : Nat) (hn : n < 6) :
    some (((s.audShown i)[n]?).getD 0#32) = e.words[n]? := by
  have hlen : n < e.words.length := hn
  unfold State.audShown
  rw [h, Option.map_some, Option.getD_some, List.getElem?_eq_getElem hlen, Option.getD_some]
/-- Without an entry zeros are shown. -/
theorem audShown_none (s : State) (i : Nat) (h : s.prot.ring[i]? = none) (n : Nat) (hn : n < 6) :
    ((s.audShown i)[n]?).getD 0#32 = 0#32 := by
  unfold State.audShown
  rw [h, Option.map_none, Option.getD_none, List.getElem?_replicate, if_pos hn, Option.getD_some]

/-! ## The write of PROT_AUD_IDX -/

theorem anyHook_prot (w : WCtx) (s : State) (h : w.page = Pg.PROT) : anyHook w s = protHook w s := by
  unfold anyHook coreHook
  rw [h]
  rfl
theorem protHook_audIdx (w : WCtx) (s : State) (h : w.off = 0x04C) : protHook w s = s.audPut (s.audShown (s.fget PROT_AUD_IDX.IDX)) 6 :=
  if_pos h

/-- The value that a write leaves, with the register's description at hand. -/
theorem writtenTo_eq (s : State) (acc : Acc) (a : Nat) (v : Word) (d : RegDesc) (h : descOf a = some d) :
    writtenTo s acc a v = (writeValue d acc.view (s.rget a) v).toNat := by
  unfold writtenTo
  rw [h]

/-- An accepted write of PROT_AUD_IDX stores it and shows the entry that it selects. -/
theorem protAudIdxWrite_shows (s : State) (a : Acc) (v : Word) (ha : Accepted s a PROT_AUD_IDX.addr) (hn : NothingOwed s) :
    ∃ t : State, exec (.protAudIdxWrite a v) s = .next (t.audPut (t.audShown (t.fget PROT_AUD_IDX.IDX)) 6)
      ∧ t = { s with regs := t.regs, bus := t.bus } ∧ t.raw PROT_AUD_IDX.addr = writtenTo s a PROT_AUD_IDX.addr v := by
  obtain ⟨d, hd⟩ : ∃ d, descOf PROT_AUD_IDX.addr = some d := ⟨_, rfl⟩
  have heq := storedBy_eq s a PROT_AUD_IDX.addr d v
  have hself := rget_storedBy_self s a PROT_AUD_IDX.addr d v
  have hwrite := writeReg_ok pageHook s a PROT_AUD_IDX.addr v d ha (by decide +kernel) hd
  generalize storedBy s a PROT_AUD_IDX.addr d v = t at *
  have hhook : anyHook (wctxOf s a PROT_AUD_IDX.addr d v) t = t.audPut (t.audShown (t.fget PROT_AUD_IDX.IDX)) 6 :=
    (anyHook_prot _ _ rfl).trans (protHook_audIdx _ _ rfl)
  refine ⟨t, ?_, ?_, ?_⟩
  · rw [pageHook_of_nothingOwed, hhook] at hwrite
    · exact congrArg Host.Outcome.next hwrite
    · rw [hhook, audPut_only, heq]
      exact hn
  · rw [heq]
  · rw [writtenTo_eq s a _ v d hd, ← hself]
    rfl

theorem protAudIdxWrite_reads (s : State) (a : Acc) (v : Word) (ha : Accepted s a PROT_AUD_IDX.addr) (hn : NothingOwed s) :
    Does (.protAudIdxWrite a v) s fun u =>
      u.raw PROT_AUD_IDX.addr = writtenTo s a PROT_AUD_IDX.addr v ∧ u.prot = s.prot ∧ u.mem = s.mem
      ∧ (∀ e, s.prot.ring[u.fget PROT_AUD_IDX.IDX]? = some e → ∀ n, n < 6 → some (u.rget (PROT_AUD_W.addr n)) = e.words[n]?)
      ∧ (s.prot.ring[u.fget PROT_AUD_IDX.IDX]? = none → ∀ n, n < 6 → u.rget (PROT_AUD_W.addr n) = 0#32) := by
  obtain ⟨t, hexec, ht, hraw⟩ := protAudIdxWrite_shows s a v ha hn
  have hprot : t.prot = s.prot := by rw [ht]
  have hreads := rget_audPut t (t.audShown (t.fget PROT_AUD_IDX.IDX)) 6
  have hidx := rget_audPut_ne t (t.audShown (t.fget PROT_AUD_IDX.IDX)) 6 PROT_AUD_IDX.addr (by decide)
  have hfget : (t.audPut (t.audShown (t.fget PROT_AUD_IDX.IDX)) 6).fget PROT_AUD_IDX.IDX = t.fget PROT_AUD_IDX.IDX :=
    congrArg (fun w : Word => fieldGet w.toNat PROT_AUD_IDX.IDX) hidx
  refine ⟨_, hexec, (congrArg BitVec.toNat hidx).trans hraw, ?_, ?_, fun e he n h6 => ?_, fun he n h6 => ?_⟩
  · rw [audPut_only, ht]
  · rw [audPut_only, ht]
  · rw [hfget, ← hprot] at he
    rw [hreads n h6]
    exact audShown_some t _ e he n h6
  · rw [hfget, ← hprot] at he
    rw [hreads n h6]
    exact audShown_none t _ he n h6

/-- An entry names itself in OWN of its page and raises PROT's interrupt: the six words stand. -/
theorem audit_keeps_audWords (s : State) (src : Source) (kind page off count old new n : Nat) (hn : n < 6) :
    (s.audit src kind page off count old new).rget (PROT_AUD_W.addr n) = s.rget (PROT_AUD_W.addr n) := by
  refine audit_rget s src kind page off count old new _ ?_ ?_
  · unfold PROT_AUD_W.addr OWN.addr pageAddr
    omega
  · show PROT_AUD_W.addr n ≠ 0x4000400C
    unfold PROT_AUD_W.addr
    omega

/-- Settles O9: the write that shows an entry, and the entries written after it. -/
theorem auditIndex : Obligations.AuditIndex :=
  ⟨protAudIdxWrite_reads, fun s src kind page off count old new n hn _ => audit_keeps_audWords s src kind page off count old new n hn⟩

end Sys2Proof.Machine
end

section
/-!
REJECTED ACCESSES (O11). What a rejection records (R56), what a write that does not pass its checks leaves (R45), and the checks in the order
of their causes (R51, R56 to R59, R461).
-/
namespace Sys2Proof.Machine
open Sys2Proof

/-! ## The record of a rejection -/

/-- The word that PROT_REJ takes. -/
def rejWord (src : Source) (page off : Nat) (wr : Bool) (cause : Nat) : Nat :=
  off + page * 2 ^ 12 + src.owner * 2 ^ 18 + (if src.sec then 2 ^ 21 else 0) + (if wr then 2 ^ 22 else 0) + cause * 2 ^ 23

/-- The record in PROT_REJ, in a count, a status bit and an interrupt; and the master's bus error. -/
def State.rejRecord (s : State) (w : Nat) (cnt rej int : Fld) : State :=
  let s := (((s.rsetN PROT_REJ.addr w).finc cnt).fset rej 1).fset int 1
  { s with bus := { s.bus with err := true } }
theorem rejRecord_only (s : State) (w : Nat) (cnt rej int : Fld) :
    s.rejRecord w cnt rej int = { s with regs := (s.rejRecord w cnt rej int).regs, bus := { s.bus with err := true } } := rfl
theorem rejRecord_rget (s : State) (w : Nat) (cnt rej int : Fld) (a : Nat) :
    (s.rejRecord w cnt rej int).rget a = ((((s.rsetN PROT_REJ.addr w).finc cnt).fset rej 1).fset int 1).rget a := rfl

/-- What a rejection leaves of `s`, with the word that it records. -/
structure Rejected (s u : State) (w : Nat) : Prop where
  eq : u = { s with regs := u.regs, bus := { s.bus with err := true } }
  word : u.raw PROT_REJ.addr = w % 2 ^ 32
  cnt : u.fget PROT_REJ_CNT.CNT = min (2 ^ 32 - 1) (s.fget PROT_REJ_CNT.CNT + 1)
  stat : u.fbit PROT_STAT.REJ = true
  int : u.fget (INT_RAW.bit Pg.PROT 0) = 1
  off : ∀ b, b ≠ PROT_REJ.addr → b ≠ PROT_REJ_CNT.addr → b ≠ PROT_STAT.addr → b ≠ INT_RAW.addr Pg.PROT → u.rget b = s.rget b

theorem reject_rejected (s : State) (src : Source) (page off : Nat) (wr : Bool) (cause : Nat) :
    Rejected s (s.reject src page off wr cause) (rejWord src page off wr cause) := by
  have e : s.reject src page off wr cause
      = s.rejRecord (rejWord src page off wr cause) PROT_REJ_CNT.CNT PROT_STAT.REJ (INT_RAW.bit Pg.PROT 0) := by
    unfold State.reject State.rejRecord rejWord State.raise
    with_reducible rfl
  rw [e]
  generalize rejWord src page off wr cause = w
  have hget := rejRecord_rget s w PROT_REJ_CNT.CNT PROT_STAT.REJ (INT_RAW.bit Pg.PROT 0)
  refine ⟨rejRecord_only .., ?_, ?_, ?_, ?_, fun b h1 h2 h3 h4 => ?_⟩
  · unfold State.raw
    rw [hget, rget_fset_ne _ _ _ _ (by decide), rget_fset_ne _ _ _ _ (by decide), rget_finc_ne _ _ _ (by decide)]
    exact raw_rsetN_self s PROT_REJ.addr w
  · unfold State.fget
    rw [hget]
    show State.fget _ PROT_REJ_CNT.CNT = _
    rw [fget_fset_reg _ _ _ _ (by decide), fget_fset_reg _ _ _ _ (by decide), fget_finc _ _ (by decide), fget_rsetN_ne _ _ _ _ (by decide)]
    rfl
  · unfold State.fbit State.fget
    rw [hget]
    show (State.fget _ PROT_STAT.REJ != 0) = _
    rw [fget_fset_reg _ _ _ _ (by decide), fget_fset_self _ _ _ (by decide)]
    rfl
  · unfold State.fget
    rw [hget]
    exact fget_fset_self _ (INT_RAW.bit Pg.PROT 0) 1 (by decide)
  · rw [hget, rget_fset_ne _ _ _ _ h4, rget_fset_ne _ _ _ _ h3, rget_finc_ne _ _ _ h2, rget_rsetN_ne _ _ _ _ h1]

/-- The fields of the record, where the parts are within their fields. -/
theorem rejWord_fields (src : Source) (page off cause : Nat) (hoff : off < 0x1000) (hpage : page < 64) (ho : src.owner < 8) (hc : cause < 7) :
    rejWord src page off true cause % 2 ^ 32 / 2 ^ 23 % 2 ^ 3 = cause ∧ rejWord src page off true cause % 2 ^ 32 / 2 ^ 0 % 2 ^ 12 = off
      ∧ rejWord src page off true cause % 2 ^ 32 / 2 ^ 12 % 2 ^ 6 = page ∧ rejWord src page off true cause % 2 ^ 32 / 2 ^ 22 % 2 ^ 1 = 1 := by
  have hsec : ∃ b, b < 2 ∧ rejWord src page off true cause = off + page * 4096 + src.owner * 262144 + b * 2097152 + 4194304 + cause * 8388608 := by
    refine ⟨if src.sec then 1 else 0, by split <;> omega, ?_⟩
    unfold rejWord
    cases src.sec <;> rfl
  obtain ⟨b, hb, e⟩ := hsec
  rw [e]
  omega

/-! ## Writes that do not pass -/

/-- A master's write of a register that is no data port. -/
theorem busWrite_of_portCur (hook : WCtx → State → State) (s : State) (m : Master) (a : Nat) (v : Word) (h : s.portCur (baseAddr a) = none) :
    s.busWrite hook m a v = s.writeReg hook ⟨m, .base⟩ a v := by
  unfold State.busWrite
  rw [h]
  rfl
theorem exec_ownWrite (s : State) (m : Master) (addr v : Word) (h : s.portCur (baseAddr addr.toNat) = none) :
    exec (.ownWrite m addr v) s = .next (s.writeReg pageHook ⟨m, .base⟩ addr.toNat v) :=
  congrArg Host.Outcome.next (busWrite_of_portCur pageHook s m addr.toNat v h)

/-- A rejected address names a page of the map. -/
theorem pageOf_of_judge_reject {s : State} {m : Master} {src : Source} {a c : Nat} {wr : Bool} (h : s.judge m src a wr = .reject c) :
    pageOf a < 64 := by
  have hp : isPage a = true := by
    by_contra hno
    rw [Bool.not_eq_true] at hno
    rw [State.judge, hno] at h
    cases h
  unfold isPage at hp
  unfold pageOf
  simp at hp
  omega

theorem ownWrite_reject (s : State) (m : Master) (addr v : Word) (c : Nat) (hp : s.portCur (baseAddr addr.toNat) = none)
    (hj : s.judge m (s.sourceOf m) addr.toNat true = .reject c) (hc : c < 7) (ho : (s.sourceOf m).owner < 8) :
    Does (.ownWrite m addr v) s fun u => u.bus = { s.bus with err := true } ∧ u = { s with regs := u.regs, bus := u.bus }
      ∧ u.fget PROT_REJ.CAUSE = c ∧ u.fget PROT_REJ.OFFSET = addr.toNat % 0x1000 ∧ u.fget PROT_REJ.PAGE = pageOf addr.toNat % 64
      ∧ u.fget PROT_REJ.WR = 1 ∧ u.fget PROT_REJ_CNT.CNT = min (2 ^ 32 - 1) (s.fget PROT_REJ_CNT.CNT + 1) ∧ u.fbit PROT_STAT.REJ = true
      ∧ u.fget (INT_RAW.bit Pg.PROT 0) = 1
      ∧ ∀ b, b ≠ PROT_REJ.addr → b ≠ PROT_REJ_CNT.addr → b ≠ PROT_STAT.addr → b ≠ INT_RAW.addr Pg.PROT → u.rget b = s.rget b := by
  have hpage := pageOf_of_judge_reject hj
  obtain ⟨hcause, hoff, hpg, hwr⟩ := rejWord_fields (s.sourceOf m) (pageOf addr.toNat) (addr.toNat % 0x1000) c (Nat.mod_lt _ (by decide)) hpage ho hc
  have hexec : exec (.ownWrite m addr v) s = .next (s.reject (s.sourceOf m) (pageOf addr.toNat) (addr.toNat % 0x1000) true c) :=
    (exec_ownWrite s m addr v hp).trans (congrArg Host.Outcome.next (writeReg_reject pageHook s ⟨m, .base⟩ addr.toNat v c hj))
  obtain ⟨heq, hword, hcnt, hstat, hint, hrest⟩ := reject_rejected s (s.sourceOf m) (pageOf addr.toNat) (addr.toNat % 0x1000) true c
  generalize s.reject (s.sourceOf m) (pageOf addr.toNat) (addr.toNat % 0x1000) true c = u at *
  rw [← hword] at hcause hoff hpg hwr
  refine ⟨u, hexec, ?_, ?_, hcause, hoff, hpg.trans (Nat.mod_eq_of_lt hpage).symm, hwr, hcnt, hstat, hint, hrest⟩
  · rw [heq]
  · rw [heq]

theorem ownWrite_busError (s : State) (m : Master) (addr v : Word) (hp : s.portCur (baseAddr addr.toNat) = none)
    (hj : s.judge m (s.sourceOf m) addr.toNat true = .busError) :
    Does (.ownWrite m addr v) s fun u => u = { s with bus := { s.bus with err := true } } :=
  ⟨_, (exec_ownWrite s m addr v hp).trans (congrArg Host.Outcome.next (writeReg_busError pageHook s ⟨m, .base⟩ addr.toNat v hj)), rfl⟩

/-! ## The checks, in the order of their causes -/

/-- An access to an aligned base address of the map that the interconnect carries and no debug lock stops. -/
structure Reaches (s : State) (m : Master) (p off : Nat) : Prop where
  page : p < 0x40
  offset : off < 0x400
  word : off % 4 = 0
  up : s.busUp = true
  free : m = .debug → s.sys.dbgUnlocked = true

/-- The checks that follow the plain bus errors, on a page without a lockout. -/
theorem judge_of_reaches {s : State} {m : Master} {p off : Nat} (h : Reaches s m p off) (hr : p ≠ Pg.RTC) (src : Source) (wr : Bool) :
    s.judge m src (pageAddr p off) wr =
      if p = Pg.DBG && !(m = .debug && s.sys.dbgUnlocked) then .reject 6
      else if wr && off = 0x1C && (p = Pg.PROT || p = Pg.GMB) then .reject 2
      else if !src.sec && (s.fbit (OWN.SEC p)
          || (p = Pg.CUL && (rowChannel off).any s.chanSec)) then .reject 0
      else if wr && isProtReg p off && src.owner = 2 && s.fbit PROT_CTRL.OLOCK then .reject 3
      else if wr && isProtReg p off && !src.hits p 0 then .reject 4
      else if wr && s.fbit (OWN.LOCKW p) && !src.hits p (s.fget (OWN.OWNER p)) then .reject 1
      else if 0x24 ≤ p && p ≤ 0x2B && 0x040 ≤ off && !src.hits p (s.fget (OWN.OWNER p)) then .reject 5
      else if p = Pg.CUL && wr && ((rowChannel off).any fun c => !src.hits p (s.chanOwner c)) then .reject 5
      else .ok := by
  obtain ⟨hp, ho, hw, hup, hfree⟩ := h
  have hpage : isPage (pageAddr p off) = true := isPage_pageAddr p off hp (by omega)
  have hword : (pageAddr p off % 4 != 0) = false := by
    have : pageAddr p off % 4 = 0 := by unfold pageAddr; omega
    rw [this]
    rfl
  have hdebug : (m = .debug && !s.sys.dbgUnlocked : Bool) = false := by
    by_cases hm : m = .debug
    · simp [hm, hfree hm]
    · simp [hm]
  unfold State.judge
  dsimp only
  rw [pageOf_pageAddr p off hp (by omega), baseOff_pageAddr p off ho, hpage, hword, hup, hdebug]
  simp only [hr, decide_false, Bool.false_and, Bool.not_true, Bool.or_self, Bool.false_eq_true, if_false]
  cases rowChannel off <;> rfl

/-- An access by another master than the debug port to a base address of the map. -/
theorem Reaches.of_ne_debug {s : State} {m : Master} {p off : Nat} (hp : p < 0x40) (ho : off < 0x400) (hw : off % 4 = 0) (hup : s.busUp = true)
    (hm : m ≠ .debug) : Reaches s m p off := ⟨hp, ho, hw, hup, fun h => absurd h hm⟩

/-- OWN of PROT and of GMB takes no write. -/
theorem judge_fixedOwner (s : State) (m : Master) (src : Source) (p : Nat) (hp : p = Pg.PROT ∨ p = Pg.GMB) (hm : m ≠ .debug)
    (hup : s.busUp = true) : s.judge m src (OWN.addr p) true = .reject 2 := by
  have hpage : p < 0x40 ∧ p ≠ Pg.RTC ∧ p ≠ Pg.DBG := by rcases hp with rfl | rfl <;> decide
  obtain ⟨hlt, hrtc, hdbg⟩ := hpage
  unfold OWN.addr
  rw [judge_of_reaches (.of_ne_debug hlt (by decide) (by decide) hup hm) hrtc, if_neg (by simp [hdbg]), if_pos (by simpa using hp)]

/-- A secure page rejects a non-secure access. -/
theorem judge_nonSecure (s : State) (m : Master) (p off : Nat) (wr : Bool) (h : Reaches s m p off) (hrtc : p ≠ Pg.RTC) (hdbg : p ≠ Pg.DBG)
    (hown : wr = true → ¬ (off = 0x1C ∧ (p = Pg.PROT ∨ p = Pg.GMB))) (hsec : s.fbit (OWN.SEC p) = true)
    (hsrc : (s.sourceOf m).sec = false) : s.judge m (s.sourceOf m) (pageAddr p off) wr = .reject 0 := by
  rw [judge_of_reaches h hrtc, if_neg (by simp [hdbg]), if_neg, if_pos (by simp [hsec, hsrc])]
  cases wr with
  | false => simp
  | true => simpa using hown rfl

/-- The owner lock keeps the host from OWN. -/
theorem judge_ownerLock (s : State) (p : Nat) (hp : p < 0x40) (hprot : p ≠ Pg.PROT) (hgmb : p ≠ Pg.GMB) (hdbg : p ≠ Pg.DBG)
    (hrtc : p ≠ Pg.RTC) (hup : s.busUp = true) (hlock : s.fbit PROT_CTRL.OLOCK = true) :
    s.judge .hsp (s.sourceOf .hsp) (OWN.addr p) true = .reject 3 := by
  have hsrc : s.sourceOf .hsp = ⟨2, true⟩ := rfl
  unfold OWN.addr
  rw [judge_of_reaches (.of_ne_debug hp (by decide) (by decide) hup (by decide)) hrtc, hsrc, if_neg (by simp [hdbg]),
    if_neg (by simp [hprot, hgmb]), if_neg (by simp), if_pos (by simp [isProtReg, hlock])]

/-- DBG answers the debug port alone. -/
theorem judge_debugPage (s : State) (m : Master) (off : Nat) (wr : Bool) (ho : off < 0x400) (hw : off % 4 = 0) (hup : s.busUp = true)
    (hm : m ≠ .debug) : s.judge m (s.sourceOf m) (pageAddr Pg.DBG off) wr = .reject 6 := by
  rw [judge_of_reaches (.of_ne_debug (by decide) ho hw hup hm) (by decide), if_pos (by simp [hm])]

/-- A page with LOCKW takes writes of its owner alone. -/
theorem judge_lockedPage (s : State) (m : Master) (p off : Nat) (h : Reaches s m p off) (hdbg : p ≠ Pg.DBG) (hprot : p ≠ Pg.PROT)
    (hrtc : p ≠ Pg.RTC) (hoff : off ≠ 0x1C) (hcul : p ≠ Pg.CUL) (hsec : (s.sourceOf m).sec = true ∨ s.fbit (OWN.SEC p) = false)
    (hlock : s.fbit (OWN.LOCKW p) = true) (hown : (s.sourceOf m).hits p (s.fget (OWN.OWNER p)) = false) :
    s.judge m (s.sourceOf m) (pageAddr p off) true = .reject 1 := by
  have hplain : isProtReg p off = false := by simp [isProtReg, hoff, hprot, hcul]
  rw [judge_of_reaches h hrtc, if_neg (by simp [hdbg]), if_neg (by simp [hoff]), if_neg, if_neg (by simp [hplain]), if_neg (by simp [hplain]),
    if_pos (by simp [hlock, hown])]
  rcases hsec with hsec | hsec
  · simp [hsec]
  · simp [hsec, hcul]

/-- Settles O11: the record of a rejection, the plain bus error, and the checks by their causes. -/
theorem rejectedAccess : Obligations.RejectedAccess :=
  ⟨ownWrite_reject, ownWrite_busError, judge_fixedOwner,
    fun s m p off wr hp ho hw hup hm hrtc hdbg hown => judge_nonSecure s m p off wr ⟨hp, ho, hw, hup, hm⟩ hrtc hdbg hown,
    judge_ownerLock, judge_debugPage⟩

end Sys2Proof.Machine
end

section
/-!
OWN AND THE OWNER LOCK (O12). An accepted write of a protection register, with the owner rules (R57, R59) and its audit entry (R60, R61).
-/
namespace Sys2Proof.Machine
open Sys2Proof

/-! ## The audit entry -/

theorem mem_setAt {α : Type} (l : List α) (n : Nat) (x : α) (h : n < l.length) : x ∈ setAt l n x := by
  induction l generalizing n with
  | nil => exact absurd h (Nat.not_lt_zero n)
  | cons y l ih =>
    cases n with
    | zero => exact List.mem_cons_self
    | succ n => exact List.mem_cons_of_mem y (ih n (Nat.lt_of_succ_lt_succ h))

/-- The first word of an entry (R61). -/
def auditWord0 (src : Source) (kind page seq : Nat) : Nat := src.owner + (if src.sec then 8 else 0) + kind * 16 + page * 256 + seq * 65536

/-- The ring holds the new entry, and the next one goes behind it. -/
theorem audit_prot (s : State) (src : Source) (kind page off count old new : Nat) :
    (∃ e ∈ (s.audit src kind page off count old new).prot.ring, e.w0 = BitVec.ofNat 32 (auditWord0 src kind page s.prot.seq)
        ∧ e.w2 = BitVec.ofNat 32 old ∧ e.w3 = BitVec.ofNat 32 new)
      ∧ (s.audit src kind page off count old new).prot.next = (s.prot.next + 1) % 128 := by
  have hmem (e : AuditEntry) :
      e ∈ if s.prot.next < s.prot.ring.length then setAt s.prot.ring s.prot.next e else s.prot.ring ++ [e] := by
    split
    · next h => exact mem_setAt _ _ _ h
    · exact List.mem_append_right _ (List.mem_singleton.2 rfl)
  unfold State.audit auditWord0
  dsimp only
  rw [raise_prot, fset_prot]
  exact ⟨⟨_, hmem _, rfl, rfl, rfl⟩, rfl⟩

/-- A source's page and number in the entry. -/
theorem auditWord0_fields (src : Source) (page seq : Nat) (ho : src.owner < 8) (hp : page < 64) :
    (BitVec.ofNat 32 (auditWord0 src 0 page seq)).toNat / 256 % 64 = page
      ∧ (BitVec.ofNat 32 (auditWord0 src 0 page seq)).toNat / 65536 = seq % 65536 := by
  have hlow : ∃ b, b < 16 ∧ auditWord0 src 0 page seq = b + page * 256 + seq * 65536 := by
    refine ⟨src.owner + (if src.sec then 8 else 0), by split <;> omega, ?_⟩
    unfold auditWord0
    omega
  obtain ⟨b, hb, e⟩ := hlow
  rw [BitVec.toNat_ofNat, e]
  omega

/-- What the entry leaves in the registers: its number in OWN of its page, and PROT's interrupt. -/
theorem audit_audseq (s : State) (src : Source) (kind page off count old new : Nat) :
    (s.audit src kind page off count old new).fget (OWN.AUDSEQ page) = s.prot.seq % 256
      ∧ ∀ f : Fld, f.addr = OWN.addr page → f.lo + f.width ≤ 24 → (s.audit src kind page off count old new).fget f = s.fget f := by
  obtain ⟨p, -, e⟩ := audit_eq s src kind page off count old new
  have hne : OWN.addr page ≠ (INT_RAW.bit Pg.PROT 2).addr := by
    show pageAddr page 0x01C ≠ 0x4000400C
    unfold pageAddr
    omega
  rw [e]
  refine ⟨?_, fun f hf hlo => ?_⟩
  · rw [fget_raise_apart _ _ _ _ (by decide) (.inl hne), fget_fset_self _ _ _ (by simp [OWN.AUDSEQ])]
    simp [OWN.AUDSEQ]
  · rw [fget_raise_apart _ _ _ _ (by decide) (.inl (by rw [hf]; exact hne)), fget_fset_ne _ _ _ _ (by simp [OWN.AUDSEQ]) (.inl hlo)]
    rfl
/-- `u` is `s` with one more audit entry of a page: in the ring, in AUDSEQ and as PROT's interrupt (R60, R61). -/
structure Audited (s u : State) (src : Source) (page old new : Nat) : Prop where
  eq : u = { s with prot := u.prot, regs := u.regs }
  seq : u.prot.seq = (s.prot.seq + 1) % 65536
  next : u.prot.next = (s.prot.next + 1) % 128
  entry : ∃ e ∈ u.prot.ring, e.w0 = BitVec.ofNat 32 (auditWord0 src 0 page s.prot.seq) ∧ e.w2 = BitVec.ofNat 32 old ∧ e.w3 = BitVec.ofNat 32 new
  audseq : u.fget (OWN.AUDSEQ page) = s.prot.seq % 256
  int : u.fget (INT_RAW.bit Pg.PROT 2) = 1
  own : ∀ f : Fld, f.addr = OWN.addr page → f.lo + f.width ≤ 24 → u.fget f = s.fget f
  apart : ∀ f : Fld, f.addr ≠ OWN.addr page → (f.addr ≠ (INT_RAW.bit Pg.PROT 2).addr ∨ f.lo + f.width ≤ 2 ∨ 3 ≤ f.lo) → u.fget f = s.fget f
  off : ∀ a, a ≠ OWN.addr page → a ≠ INT_RAW.addr Pg.PROT → u.rget a = s.rget a

theorem audit_fget_apart (s : State) (src : Source) (kind page off count old new : Nat) (f : Fld) (h1 : f.addr ≠ OWN.addr page)
    (h2 : f.addr ≠ (INT_RAW.bit Pg.PROT 2).addr ∨ f.lo + f.width ≤ 2 ∨ 3 ≤ f.lo) :
    (s.audit src kind page off count old new).fget f = s.fget f := by
  obtain ⟨p, -, e⟩ := audit_eq s src kind page off count old new
  rw [e, fget_raise_apart _ _ _ _ (by decide) h2, fget_fset_reg _ _ _ _ h1]
  rfl
theorem audit_audited (s : State) (src : Source) (page off count old new : Nat) : Audited s (s.audit src 0 page off count old new) src page old new :=
  { eq := audit_only .., seq := audit_seq .., next := (audit_prot ..).2, entry := (audit_prot ..).1, audseq := (audit_audseq ..).1
    int := fget_raise_self _ Pg.PROT 2 (by decide), own := (audit_audseq ..).2, apart := audit_fget_apart s src 0 page off count old new
    off := audit_rget s src 0 page off count old new }

/-- What a state that differs in registers and bus alone makes of it. -/
theorem Audited.frame {s t u : State} {src : Source} {page old new : Nat} (h : Audited t u src page old new)
    (ht : t = { s with regs := t.regs, bus := t.bus }) : u = { s with regs := u.regs, bus := u.bus, prot := u.prot } := by
  rw [h.eq, ht]

/-! ## A write of a protection register -/

/-- No bus error stands. -/
def State.noErr (s : State) : State := { s with bus := { s.bus with err := false } }
@[simp] theorem rget_noErr (s : State) (a : Nat) : s.noErr.rget a = s.rget a := rfl
@[simp] theorem prot_noErr (s : State) : s.noErr.prot = s.prot := rfl
theorem noErr_fset_raise_only (s : State) (f : Fld) (x p b : Nat) :
    (s.noErr.fset f x).raise p b = { s with regs := ((s.noErr.fset f x).raise p b).regs, bus := ((s.noErr.fset f x).raise p b).bus } := rfl

/-- What a check that does not give the verdict leaves to those behind it. -/
theorem eq_of_ite_eq {c : Prop} [Decidable c] {x y z : Verdict} (h : (if c then x else y) = z) (hx : x ≠ z) : y = z := by
  split at h
  · exact absurd h hx
  · exact h

section
variable {hook : WCtx → State → State} {s : State} {acc : Acc} {a : Nat} {v : Word} {d : RegDesc}
  (h : Accepted s acc a) (hp : isPage a = true) (ho : a % 0x1000 < 0x400) (hr : isProtReg (pageOf a) (baseOff a) = true) (hd : descOf a = some d)
include h hp ho hr hd

/-- A legal value is stored and audited, and the block's effect follows (R60). -/
theorem writeReg_protReg_ok (hb : badOwner (pageOf a) (baseOff a) (writeValue d acc.view (s.rget a) v).toNat = false) :
    s.writeReg hook acc a v = hook (wctxOf s acc a d v) ((storedBy s acc a d v).audit (s.sourceOf acc.m) 0 (pageOf a)
      (offOf (viewAddr acc.view a)) 0 (s.rget a).toNat (writeValue d acc.view (s.rget a) v).toNat) := by
  unfold Accepted at h
  rw [State.writeReg, State.write, State.writeAs, h]
  dsimp only
  rw [State.applyWrite]
  dsimp only
  rw [view_page acc.view a ho hp, view_off acc.view a ho, view_view acc.view a ho, page_off a ho hp, hd, Option.elim_some, if_pos hr]
  have hget : State.rget { s with bus := { s.bus with err := false } } a = s.rget a := rfl
  rw [hget, hb]
  rfl

/-- A reserved owner code is discarded; the write is audited all the same (R57). -/
theorem writeReg_protReg_bad (hn : overlayNames (pageOf a) (baseOff a) = false)
    (hb : badOwner (pageOf a) (baseOff a) (writeValue d acc.view (s.rget a) v).toNat = true) :
    s.writeReg hook acc a v = ((s.noErr.fset PROT_STAT.BAD_OWNER 1).raise Pg.PROT 1).audit
      (s.sourceOf acc.m) 0 (pageOf a) (offOf (viewAddr acc.view a)) 0 (s.rget a).toNat v.toNat := by
  unfold Accepted at h
  rw [State.writeReg, State.write, State.writeAs, h]
  dsimp only
  rw [State.applyWrite]
  dsimp only
  rw [view_page acc.view a ho hp, view_off acc.view a ho, view_view acc.view a ho, page_off a ho hp, hd, Option.elim_some, if_pos hr]
  have hget : State.rget { s with bus := { s.bus with err := false } } a = s.rget a := rfl
  rw [hget, hb, hn]
  rfl

omit hd in
/-- Only SUP and the host write protection registers (R59). -/
theorem owner_of_accepted_protReg : (s.sourceOf acc.m).owner < 8 := by
  have hhits : (s.sourceOf acc.m).hits (pageOf a) 0 = true := by
    by_contra hno
    rw [Bool.not_eq_true] at hno
    unfold Accepted State.judge at h
    dsimp only at h
    rw [view_page acc.view a ho hp, view_off acc.view a ho, hr, hno] at h
    iterate 7 replace h := eq_of_ite_eq h nofun
    exact absurd h (by simp)
  unfold Source.hits at hhits
  simp at hhits
  omega

end

/-! ## OWN has no effect of a block but CIPU's -/

/-- The page is none of the user cipher's. -/
def NoCipu (p : Nat) : Prop := ¬ (0x24 ≤ p ∧ p ≤ 0x2B)

section
variable {w : WCtx} {s : State} (h : w.off = 0x01C)
include h

theorem cadHook_own : cadHook w s = s := by
  have hinj : w.addr ≠ CAD_LS_INJ.addr := by
    unfold WCtx.addr pageAddr CAD_LS_INJ.addr
    omega
  have hself : ¬ (w.addr = CAD_SELF_EXT_LO.addr ∨ w.addr = CAD_SELF_EXT_HI.addr ∨ w.addr = CAD_SELF_SHORT.addr
      ∨ w.addr = CAD_SELF_PAN.addr) := by
    unfold WCtx.addr pageAddr CAD_SELF_EXT_LO.addr CAD_SELF_EXT_HI.addr CAD_SELF_SHORT.addr CAD_SELF_PAN.addr
    omega
  simp [cadHook, h, hinj, hself]
theorem nbrHook_own : nbrHook w s = s := by
  have hchg : w.addr ≠ NBR_CHG.addr := by
    unfold WCtx.addr pageAddr NBR_CHG.addr
    omega
  simp [nbrHook, h, hchg]
theorem coreHook_own (hp : NoCipu w.page) : coreHook w s = s := by
  have hcipu : ¬ (Pg.CIPU 0 ≤ w.page ∧ w.page ≤ Pg.CIPU 7) := hp
  unfold coreHook
  dsimp only
  rw [cadHook_own h, nbrHook_own h, if_neg hcipu]
  simp [h, sysHook, pwrHook, avsHook, clkHook, protHook, rfeHook, agcHook, cnpHook, laneHook, fecHook, txmHook, hdrHook, trfHook,
    weirHook, sluHook, ntuHook, flcHook, ciphHook, updHook, tmrHook, State.tmrWrite, rtcHook, culHook, hspHook, pspHook, gpioHook, adcHook,
    tstHook, dmaHook, dcaHook, dbgHook]
theorem pageHook_own (hp : NoCipu w.page) (hn : NothingOwed s) : pageHook w s = s := by
  have e : anyHook w s = s := by
    unfold anyHook
    rw [coreHook_own h hp]
    simp [h, ovlHook]
  rw [pageHook_of_nothingOwed w s (by rw [e]; exact hn), e]

end

/-! ## A master's write of OWN -/

/-- OWN's row in the common layout (R47): OWNER, SEC and LOCKW are RW. -/
def ownDesc : RegDesc := { off := 0x01C, rw := 0x1F#32 }
theorem descOf_own (p : Nat) (hp : p < 0x40) : descOf (OWN.addr p) = some ownDesc := by
  have hall : ∀ p, p < 0x40 → descOf (OWN.addr p) = some ownDesc := by decide +kernel
  exact hall p hp

/-- A bit that is not RW, W1C or W1S stands; an RW bit takes the value written. -/
theorem getLsbD_writeValue_base (d : RegDesc) (old v : Word) (i : Nat) (hi : i < 32) (hc : d.w1c.getLsbD i = false) (hs : d.w1s.getLsbD i = false) :
    (writeValue d .base old v).getLsbD i = if d.rw.getLsbD i then v.getLsbD i else old.getLsbD i := by
  cases hrw : d.rw.getLsbD i <;>
    simp only [writeValue, BitVec.getLsbD_or, BitVec.getLsbD_and, BitVec.getLsbD_not, hi, hrw, hc, hs, decide_true] <;> simp
theorem writeValue_own_mod (old v : Word) : (writeValue ownDesc .base old v).toNat % 2 ^ 5 = v.toNat % 2 ^ 5 := by
  have hmask : ∀ i, i < 5 → ownDesc.rw.getLsbD i = true := by decide
  apply Nat.eq_of_testBit_eq
  intro i
  rw [Nat.testBit_mod_two_pow, Nat.testBit_mod_two_pow, BitVec.testBit_toNat, BitVec.testBit_toNat]
  by_cases h : i < 5
  · rw [getLsbD_writeValue_base ownDesc old v i (by omega) (by simp [ownDesc]) (by simp [ownDesc]), hmask i h, if_pos rfl]
  · simp [h]

theorem badOwner_own (p x : Nat) : badOwner p 0x01C x = (x % 8 = 5 || x % 8 = 6) := if_pos rfl

section
variable {s : State} {m : Master} {p : Nat} {v : Word} (hp : p < 0x40) (h : Accepted s ⟨m, .base⟩ (OWN.addr p))
include hp

/-- OWN_WRITE at OWN of a page is the page's write. -/
theorem exec_ownWrite_own : exec (.ownWrite m (BitVec.ofNat 32 (OWN.addr p)) v) s = .next (s.writeReg pageHook ⟨m, .base⟩ (OWN.addr p) v) := by
  have hnat : (BitVec.ofNat 32 (OWN.addr p)).toNat = OWN.addr p := viewAddr_toNat .base p 0x01C hp (by decide)
  have hbase : baseAddr (OWN.addr p) = OWN.addr p := baseAddr_viewAddr .base p 0x01C hp (by decide)
  have hport : s.portCur (OWN.addr p) = none := by
    refine portCur_none s _ ?_
    unfold OWN.addr pageAddr CAD_HOP_DATA.addr TXM_FIR_DATA.addr DBG_REG_DATA.addr
    omega
  have e := exec_ownWrite s m (BitVec.ofNat 32 (OWN.addr p)) v (by rw [hnat, hbase]; exact hport)
  rw [hnat] at e
  exact e

/-- Where OWN stands, what kind of register it is, and who may write it. -/
theorem own_place : pageOf (OWN.addr p) = p ∧ baseOff (OWN.addr p) = 0x01C ∧ offOf (OWN.addr p) = 0x01C ∧ isPage (OWN.addr p) = true
    ∧ OWN.addr p % 0x1000 < 0x400 ∧ isProtReg p 0x01C = true ∧ overlayNames p 0x01C = false :=
  ⟨pageOf_pageAddr p 0x01C hp (by decide), baseOff_pageAddr p 0x01C (by decide), offOf_pageAddr p 0x01C (by decide),
    isPage_pageAddr p 0x01C hp (by decide), (offOf_pageAddr p 0x01C (by decide)).trans_lt (by decide), by simp [isProtReg],
    by simp [overlayNames]⟩

include h

/-- A legal owner code is stored and audited. -/
theorem writeReg_own (hc : NoCipu p) (hn : NothingOwed s) (h5 : v.toNat % 8 ≠ 5) (h6 : v.toNat % 8 ≠ 6) :
    s.writeReg pageHook ⟨m, .base⟩ (OWN.addr p) v =
      (s.noErr.rset (OWN.addr p) (writeValue ownDesc .base (s.rget (OWN.addr p)) v)).audit
        (s.sourceOf m) 0 p 0x01C 0 (s.rget (OWN.addr p)).toNat (writeValue ownDesc .base (s.rget (OWN.addr p)) v).toNat := by
  obtain ⟨hpage, hoff, hofs, hmap, hlow, hprot, hovl⟩ := own_place hp
  have hmod := writeValue_own_mod (s.rget (OWN.addr p)) v
  have hb : badOwner p 0x01C (writeValue ownDesc .base (s.rget (OWN.addr p)) v).toNat = false := by
    rw [badOwner_own]
    simp
    omega
  rw [writeReg_protReg_ok h hmap hlow (by rw [hpage, hoff]; exact hprot) (descOf_own p hp) (by rw [hpage, hoff]; exact hb), pageHook_own hoff]
  · unfold storedBy
    dsimp only
    rw [hpage, hoff, hovl]
    show State.audit _ _ _ _ (offOf (OWN.addr p)) _ _ _ = _
    rw [hofs]
    rfl
  · show NoCipu (pageOf (OWN.addr p))
    rw [hpage]
    exact hc
  · rw [audit_only, storedBy_eq]
    exact hn

/-- A reserved one is not. -/
theorem writeReg_own_bad (hv : v.toNat % 8 = 5 ∨ v.toNat % 8 = 6) :
    s.writeReg pageHook ⟨m, .base⟩ (OWN.addr p) v =
      ((s.noErr.fset PROT_STAT.BAD_OWNER 1).raise Pg.PROT 1).audit
        (s.sourceOf m) 0 p 0x01C 0 (s.rget (OWN.addr p)).toNat v.toNat := by
  obtain ⟨hpage, hoff, hofs, hmap, hlow, hprot, hovl⟩ := own_place hp
  have hmod := writeValue_own_mod (s.rget (OWN.addr p)) v
  have hb : badOwner p 0x01C (writeValue ownDesc .base (s.rget (OWN.addr p)) v).toNat = true := by
    rw [badOwner_own]
    simp
    omega
  rw [writeReg_protReg_bad h hmap hlow (by rw [hpage, hoff]; exact hprot) (descOf_own p hp) (by rw [hpage, hoff]; exact hovl)
    (by rw [hpage, hoff]; exact hb), hpage]
  show State.audit _ _ _ _ (offOf (OWN.addr p)) _ _ _ = _
  rw [hofs]

end

/-- A field of a word that is in the register. -/
theorem fget_of_rget {s : State} {w : Word} (f : Fld) (h : s.rget f.addr = w) : s.fget f = fieldGet w.toNat f := by
  unfold State.fget
  rw [h]
theorem ofNat_toNat_word (w : Word) : BitVec.ofNat 32 w.toNat = w := by simp

theorem ownWrite_stores (s : State) (m : Master) (p : Nat) (v : Word) (hp : p < 0x40) (hc : NoCipu p)
    (ha : Accepted s ⟨m, .base⟩ (OWN.addr p)) (hn : NothingOwed s) (h5 : v.toNat % 8 ≠ 5) (h6 : v.toNat % 8 ≠ 6) :
    Does (.ownWrite m (BitVec.ofNat 32 (OWN.addr p)) v) s fun u =>
      u.fget (OWN.OWNER p) = v.toNat % 8 ∧ u.fget (OWN.SEC p) = v.toNat / 8 % 2 ∧ u.fget (OWN.LOCKW p) = v.toNat / 16 % 2
      ∧ u.fget (OWN.AUDSEQ p) = s.prot.seq % 256 ∧ u.prot.seq = (s.prot.seq + 1) % 65536 ∧ u.prot.next = (s.prot.next + 1) % 128
      ∧ (∃ e, e ∈ u.prot.ring ∧ e.w2 = s.rget (OWN.addr p) ∧ e.w3.toNat % 32 = v.toNat % 32
          ∧ e.w0.toNat / 256 % 64 = p ∧ e.w0.toNat / 65536 = s.prot.seq % 65536)
      ∧ u.fget (INT_RAW.bit Pg.PROT 2) = 1 ∧ u = { s with regs := u.regs, bus := u.bus, prot := u.prot }
      ∧ ∀ b, b ≠ OWN.addr p → b ≠ INT_RAW.addr Pg.PROT → u.rget b = s.rget b := by
  obtain ⟨hpage, hoff, -, hmap, hlow, hprot, -⟩ := own_place hp
  have hsrc : (s.sourceOf m).owner < 8 := owner_of_accepted_protReg ha hmap hlow (by rw [hpage, hoff]; exact hprot)
  obtain ⟨hnum, hseq⟩ := auditWord0_fields (s.sourceOf m) p s.prot.seq hsrc hp
  have hmod := writeValue_own_mod (s.rget (OWN.addr p)) v
  have hexec := (exec_ownWrite_own hp (s := s) (m := m) (v := v)).trans (congrArg Host.Outcome.next (writeReg_own hp ha hc hn h5 h6))
  generalize writeValue ownDesc .base (s.rget (OWN.addr p)) v = new at *
  have haud := audit_audited (s.noErr.rset (OWN.addr p) new) (s.sourceOf m) p 0x01C 0 (s.rget (OWN.addr p)).toNat new.toNat
  generalize State.audit _ _ _ _ _ _ _ _ = u at *
  have hframe := haud.frame (s := s) rfl
  obtain ⟨-, hcount, hnext, ⟨e, he, hw0, hw2, hw3⟩, haudseq, hint, hown, -, hrest⟩ := haud
  rw [ofNat_toNat_word] at hw2 hw3
  have hfld (f : Fld) (hf : f.addr = OWN.addr p) (hlo : f.lo + f.width ≤ 24) : u.fget f = fieldGet new.toNat f :=
    (hown f hf hlo).trans (fget_of_rget f (by rw [hf, rget_rset_self]))
  refine ⟨u, hexec, ?_, ?_, ?_, haudseq, hcount, hnext, ⟨e, he, hw2, ?_, ?_, ?_⟩, hint, hframe, fun b h1 h2 =>
    (hrest b h1 h2).trans (rget_rset_ne _ new h1)⟩
  · rw [hfld _ rfl (by simp [OWN.OWNER])]
    simp [fieldGet, OWN.OWNER]
    omega
  · rw [hfld _ rfl (by simp [OWN.SEC])]
    simp [fieldGet, OWN.SEC]
    omega
  · rw [hfld _ rfl (by simp [OWN.LOCKW])]
    simp [fieldGet, OWN.LOCKW]
    omega
  · rw [hw3]
    exact hmod
  · rw [hw0]
    exact hnum
  · rw [hw0]
    exact hseq

theorem ownWrite_reserved (s : State) (m : Master) (p : Nat) (v : Word) (hp : p < 0x40)
    (ha : Accepted s ⟨m, .base⟩ (OWN.addr p)) (hv : v.toNat % 8 = 5 ∨ v.toNat % 8 = 6) :
    Does (.ownWrite m (BitVec.ofNat 32 (OWN.addr p)) v) s fun u =>
      u.raw (OWN.addr p) % 2 ^ 24 = s.raw (OWN.addr p) % 2 ^ 24 ∧ u.fbit PROT_STAT.BAD_OWNER = true ∧ u.fget (INT_RAW.bit Pg.PROT 1) = 1
      ∧ u.prot.seq = (s.prot.seq + 1) % 65536 ∧ u = { s with regs := u.regs, bus := u.bus, prot := u.prot } := by
  have hexec := (exec_ownWrite_own hp (s := s) (m := m) (v := v)).trans (congrArg Host.Outcome.next (writeReg_own_bad hp ha hv))
  have haud := audit_audited ((s.noErr.fset PROT_STAT.BAD_OWNER 1).raise Pg.PROT 1) (s.sourceOf m) p 0x01C 0 (s.rget (OWN.addr p)).toNat v.toNat
  have hstat : PROT_STAT.addr ≠ OWN.addr p := by
    unfold PROT_STAT.addr OWN.addr pageAddr
    omega
  have hraw : OWN.addr p ≠ (INT_RAW.bit Pg.PROT 1).addr := by
    show OWN.addr p ≠ 0x4000400C
    unfold OWN.addr pageAddr
    omega
  have hlow : ((s.noErr.fset PROT_STAT.BAD_OWNER 1).raise Pg.PROT 1).rget (OWN.addr p) = s.rget (OWN.addr p) := by
    rw [rget_raise_ne _ _ _ _ hraw, rget_fset_ne _ _ _ _ hstat.symm, rget_noErr]
  have hint : ((s.noErr.fset PROT_STAT.BAD_OWNER 1).raise Pg.PROT 1).fget (INT_RAW.bit Pg.PROT 1) = 1 := fget_raise_self _ Pg.PROT 1 (by decide)
  have hbad : ((s.noErr.fset PROT_STAT.BAD_OWNER 1).raise Pg.PROT 1).fget PROT_STAT.BAD_OWNER = 1 := by
    rw [fget_raise_apart _ _ _ _ (by decide) (.inl (by decide)), fget_fset_self _ _ _ (by decide)]
    rfl
  refine ⟨State.audit _ _ _ _ _ _ _ _, hexec, ?_, ?_, ?_, haud.seq, haud.frame (noErr_fset_raise_only ..)⟩
  · have h24 := (haud.own ⟨OWN.addr p, 0, 24⟩ rfl (Nat.le_refl 24)).trans (fget_of_rget ⟨OWN.addr p, 0, 24⟩ hlow)
    simpa [State.fget, State.raw, fieldGet] using h24
  · unfold State.fbit
    rw [haud.apart PROT_STAT.BAD_OWNER hstat (.inl (by decide)), hbad]
    rfl
  · exact (haud.apart (INT_RAW.bit Pg.PROT 1) hraw.symm (.inr (.inl (by decide)))).trans hint

/-! ## The owner lock -/

/-- PROT_CTRL's row: OLOCK is W1S. -/
def protCtrlDesc : RegDesc := { off := 0x4, w1s := 0x100#32, reset := 0x1#32 }
/-- A write through the base or the SET view sets OLOCK where it writes a one; nothing clears it. -/
theorem olock_writeValue (view : View) (old v : Word) :
    (writeValue protCtrlDesc view old v).getLsbD 8 = (old.getLsbD 8 || (view = .base || view = .set) && v.getLsbD 8) := by
  cases view <;> simp [writeValue, protCtrlDesc]

/-- A field of one bit is the bit. -/
theorem fieldGet_bit (w : Word) (a n : Nat) : fieldGet w.toNat ⟨a, n, 1⟩ = (w.getLsbD n).toNat := by
  show w.toNat / 2 ^ n % 2 = _
  rw [← BitVec.testBit_toNat, Nat.toNat_testBit]

theorem olockSet_locks (s : State) (a : Acc) (v : Word) (ha : Accepted s a PROT_CTRL.addr) (hn : NothingOwed s) :
    Does (.olockSet a v) s fun u =>
      u.fbit PROT_CTRL.OLOCK = (s.fbit PROT_CTRL.OLOCK || (a.view = .base || a.view = .set) && fieldGet v.toNat PROT_CTRL.OLOCK = 1)
      ∧ u.prot.seq = (s.prot.seq + 1) % 65536 ∧ u.mem = s.mem ∧ u.pwr = s.pwr := by
  have hd : descOf PROT_CTRL.addr = some protCtrlDesc := by decide +kernel
  have hwrite := writeReg_protReg_ok (hook := pageHook) (v := v) ha (by decide) (by decide) (by decide) hd (by rfl)
  have hbit := olock_writeValue a.view (s.rget PROT_CTRL.addr) v
  have hget := rget_storedBy_self s a PROT_CTRL.addr protCtrlDesc v
  have hstored := storedBy_eq s a PROT_CTRL.addr protCtrlDesc v
  generalize writeValue protCtrlDesc a.view (s.rget PROT_CTRL.addr) v = new at *
  generalize storedBy s a PROT_CTRL.addr protCtrlDesc v = t at *
  have haud := audit_audited t (s.sourceOf a.m) (pageOf PROT_CTRL.addr) (offOf (viewAddr a.view PROT_CTRL.addr)) 0 (s.rget PROT_CTRL.addr).toNat new.toNat
  generalize State.audit _ _ _ _ _ _ _ _ = u at *
  have hframe := haud.frame (s := s) (by rw [hstored])
  have hhook : pageHook (wctxOf s a PROT_CTRL.addr protCtrlDesc v) u = u := by
    have e : anyHook (wctxOf s a PROT_CTRL.addr protCtrlDesc v) u = u := (anyHook_prot _ u rfl).trans (if_neg (show ¬ baseOff PROT_CTRL.addr = 0x04C by decide))
    rw [pageHook_of_nothingOwed _ u (by rw [e, hframe]; exact hn), e]
  rw [hhook] at hwrite
  refine ⟨u, congrArg Host.Outcome.next hwrite, ?_, ?_, ?_, ?_⟩
  · have hlock : u.fget PROT_CTRL.OLOCK = fieldGet new.toNat PROT_CTRL.OLOCK :=
      (haud.apart PROT_CTRL.OLOCK (by decide) (.inl (by decide))).trans (fget_of_rget _ hget)
    have hold : s.fget PROT_CTRL.OLOCK = ((s.rget PROT_CTRL.addr).getLsbD 8).toNat := fieldGet_bit _ _ 8
    unfold State.fbit
    rw [hlock, hold, PROT_CTRL.OLOCK, fieldGet_bit, fieldGet_bit, hbit]
    cases (s.rget PROT_CTRL.addr).getLsbD 8 <;> cases v.getLsbD 8 <;> simp
  · rw [haud.seq, hstored]
  · rw [hframe]
  · rw [hframe]

/-- Settles O12: OWN with a legal and with a reserved owner code, OLOCK, and LOCKW. -/
theorem ownersAndLock : Obligations.OwnersAndLock :=
  ⟨fun s m p v hp _ _ hc => ownWrite_stores s m p v hp hc, fun s m p v hp _ _ ha _ => ownWrite_reserved s m p v hp ha, olockSet_locks,
    fun s m p off hp ho hw hdbg hprot _ hrtc hoff hcul hup hm =>
      judge_lockedPage s m p off (.of_ne_debug hp ho hw hup hm) hdbg hprot hrtc hoff hcul⟩

end Sys2Proof.Machine
end

section
/-!
WIDE VALUES (O13). The latch pairs of reads and the held low words of writes (R54): each is kept per master, and a high word takes effect
with the low word that its master holds.
-/
namespace Sys2Proof.Machine
open Sys2Proof

/-! ## Words kept per master and address -/

/-- The word is kept for this master at this address. -/
def keptFor (m : Master) (a : Nat) (h : Nat × Nat × Word) : Bool := h.1 == masterCode m && h.2.1 == a

theorem masterCode_inj {m m' : Master} (h : masterCode m = masterCode m') : m = m' := by
  cases m <;> cases m' <;> grind [masterCode]

theorem keptFor_self (m : Master) (a : Nat) (w : Word) : keptFor m a (masterCode m, a, w) = true := by simp [keptFor]
/-- No word is kept for two masters or at two addresses. -/
theorem keptFor_other {m m' : Master} {a b : Nat} (h : m' ≠ m ∨ b ≠ a) (x : Nat × Nat × Word) (hx : keptFor m' b x = true) : keptFor m a x = false := by
  obtain ⟨c, d, w⟩ := x
  simp only [keptFor, Bool.and_eq_true, beq_iff_eq] at hx
  obtain ⟨rfl, rfl⟩ := hx
  rcases h with h | h
  · simp [keptFor, show masterCode m' ≠ masterCode m from fun e => h (masterCode_inj e)]
  · simp [keptFor, h]

section
variable (l : List (Nat × Nat × Word)) (m : Master) (a : Nat)

theorem find_dropped : (l.filter fun h => !keptFor m a h).find? (keptFor m a) = none := by
  rw [List.find?_filter]
  simp
theorem find_dropped_other {m' : Master} {b : Nat} (h : m' ≠ m ∨ b ≠ a) :
    (l.filter fun h => !keptFor m a h).find? (keptFor m' b) = l.find? (keptFor m' b) := by
  rw [List.find?_filter]
  congr 1
  funext x
  cases hx : keptFor m' b x with
  | false => simp
  | true => simp [keptFor_other h x hx]
theorem find_put (w : Word) : ((masterCode m, a, w) :: l.filter fun h => !keptFor m a h).find? (keptFor m a) = some (masterCode m, a, w) :=
  List.find?_cons_of_pos (keptFor_self m a w)
theorem find_put_other (w : Word) {m' : Master} {b : Nat} (h : m' ≠ m ∨ b ≠ a) :
    ((masterCode m, a, w) :: l.filter fun h => !keptFor m a h).find? (keptFor m' b) = l.find? (keptFor m' b) := by
  rw [List.find?_cons_of_neg, find_dropped_other l m a h]
  intro hx
  have hself := keptFor_self m a w
  rw [keptFor_other h _ hx] at hself
  exact Bool.false_ne_true hself

end

/-! ## Reads through a latch pair -/

theorem latchGet_eq (s : State) (m : Master) (a : Nat) :
    s.latchGet m a = (((s.bus.latches.find? (keptFor m a)).map fun h => h.2.2).getD 0#32).toNat := rfl
theorem latchGet_latchPut (s : State) (m : Master) (a v : Nat) : (s.latchPut m a v).latchGet m a = v % 2 ^ 32 := by
  have hfind : (s.latchPut m a v).bus.latches.find? (keptFor m a) = some (masterCode m, a, BitVec.ofNat 32 v) := find_put s.bus.latches m a _
  rw [latchGet_eq, hfind]
  exact BitVec.toNat_ofNat v 32
theorem latchGet_latchPut_other (s : State) {m m' : Master} {a b : Nat} (v : Nat) (h : m' ≠ m ∨ b ≠ a) :
    (s.latchPut m a v).latchGet m' b = s.latchGet m' b := by
  have hfind : (s.latchPut m a v).bus.latches.find? (keptFor m' b) = s.bus.latches.find? (keptFor m' b) := find_put_other s.bus.latches m a _ h
  rw [latchGet_eq, hfind, latchGet_eq]

/-- The low words of latch pairs are base registers. -/
theorem baseAddr_pairLow {a : Nat} (h : a ∈ pairLows) : a < 2 ^ 32 ∧ baseAddr a = a := by
  have hall : ∀ a ∈ pairLows, a < 2 ^ 32 ∧ baseAddr a = a := by decide +kernel
  exact hall a h

/-- A read that passes its checks ends with its data and without a bus error. -/
theorem readAs_ok {s : State} {m : Master} {a : Nat} (f : State → State × Nat) (h : MayRead s m a) : s.readAs m a f =
    { (f s).1 with bus := { (f s).1.bus with err := false, data := BitVec.ofNat 32 (f s).2 } } := by
  have hacc : s.judge m (s.sourceOf m) a false = .ok := h
  unfold State.readAs
  dsimp only
  rw [hacc]

/-- An accepted read that no handoff stalls reads the low word and latches the high one. -/
theorem busRead_pairLow (s : State) (m : Master) (a : Nat) (h : a ∈ pairLows) (hr : MayRead s m a) (hh : s.ntu.handoff = false) :
    s.busRead m a = { s.latchPut m (a + 4) ((s.seen a).view (a + 4)) with
      bus := { (s.latchPut m (a + 4) ((s.seen a).view (a + 4))).bus with err := false, data := BitVec.ofNat 32 ((s.seen a).view a) } } := by
  obtain ⟨-, hbase⟩ := baseAddr_pairLow h
  have hwait : s.frcWaits m a = false := by
    unfold State.frcWaits
    rw [hh]
    rfl
  have hread : s.readReg m a = (s.latchPut m (a + 4) ((s.seen a).view (a + 4)), (s.seen a).view a) := if_pos (List.contains_iff_mem.2 h)
  unfold State.busRead
  rw [hwait, if_neg Bool.false_ne_true, readAs_ok _ hr, hbase, hread]

theorem latchPairLowRead_latches (s : State) (m : Master) (a : Nat) (h : a ∈ pairLows) (hr : MayRead s m a) (hh : s.ntu.handoff = false) :
    Does (.latchPairLowRead m (BitVec.ofNat 32 a)) s fun u =>
      u.bus.data = BitVec.ofNat 32 ((s.seen a).view a) ∧ u.bus.err = false ∧ u.latchGet m (a + 4) = (s.seen a).view (a + 4) % 2 ^ 32
      ∧ (∀ (m' : Master) (b : Nat), (m' ≠ m ∨ b ≠ a + 4) → u.latchGet m' b = s.latchGet m' b)
      ∧ u = { s with bus := u.bus } ∧ u.bus.held = s.bus.held := by
  have hnat : (BitVec.ofNat 32 a).toNat = a := by rw [BitVec.toNat_ofNat, Nat.mod_eq_of_lt (baseAddr_pairLow h).1]
  have hexec : exec (.latchPairLowRead m (BitVec.ofNat 32 a)) s = .next (s.busRead m (BitVec.ofNat 32 a).toNat) := rfl
  rw [hnat, busRead_pairLow s m a h hr hh] at hexec
  exact ⟨_, hexec, rfl, rfl, latchGet_latchPut s m (a + 4) _, fun m' b hb => latchGet_latchPut_other s _ hb, rfl, rfl⟩

/-! ## Writes of a wide value -/

/-- The low word held for a master. -/
theorem holdLow_held (s : State) (m : Master) (a : Nat) (v : Word) :
    (s.holdLow m a v).bus.held.find? (keptFor m a) = some (masterCode m, a, v) := find_put s.bus.held m a v
theorem holdLow_held_other (s : State) {m m' : Master} {a b : Nat} (v : Word) (h : m' ≠ m ∨ b ≠ a) :
    (s.holdLow m a v).bus.held.find? (keptFor m' b) = s.bus.held.find? (keptFor m' b) := find_put_other s.bus.held m a v h

/-- A low word that is held lands with the high word, and is held no more. -/
theorem landLow_held {s : State} {m : Master} {a : Nat} {h : Nat × Nat × Word} (hh : s.bus.held.find? (keptFor m a) = some h) :
    (s.landLow m a).rget a = h.2.2 ∧ (s.landLow m a).bus.held.find? (keptFor m a) = none := by
  have e : s.landLow m a = { s.rset a h.2.2 with bus := { s.bus with held := s.bus.held.filter fun h => !keptFor m a h } } := by
    unfold State.landLow
    rw [show s.bus.held.find? (fun h => h.1 == masterCode m && h.2.1 == a) = some h from hh]
    rfl
  rw [e]
  exact ⟨rget_rset_self s a h.2.2, find_dropped s.bus.held m a⟩
/-- Without one nothing lands. -/
theorem landLow_none {s : State} {m : Master} {a : Nat} (hh : s.bus.held.find? (keptFor m a) = none) : s.landLow m a = s := by
  unfold State.landLow
  rw [show s.bus.held.find? (fun h => h.1 == masterCode m && h.2.1 == a) = none from hh]

/-- Where the low words of wide values stand: base registers of pages, no data ports. -/
theorem wideLow_place {a : Nat} (h : a ∈ wideLows) : a < 2 ^ 32 ∧ baseAddr a = a ∧ isPage a = true ∧ a % 0x1000 < 0x400 ∧ (descOf a).isSome
    ∧ isProtReg (pageOf a) (baseOff a) = false ∧ baseOff a ≠ 0x014
    ∧ (a ≠ CAD_HOP_DATA.addr ∧ a ≠ TXM_FIR_DATA.addr ∧ a ≠ DBG_REG_DATA.addr) := by
  have hall : ∀ a ∈ wideLows, a < 2 ^ 32 ∧ baseAddr a = a ∧ isPage a = true ∧ a % 0x1000 < 0x400 ∧ (descOf a).isSome
      ∧ isProtReg (pageOf a) (baseOff a) = false ∧ baseOff a ≠ 0x014
      ∧ (a ≠ CAD_HOP_DATA.addr ∧ a ≠ TXM_FIR_DATA.addr ∧ a ≠ DBG_REG_DATA.addr) := by decide +kernel
  exact hall a h

/-- The dirty bit that a write of a register leaves, where an overlay may name it. -/
def State.noted (s : State) (p off : Nat) : State := if overlayNames p off then s.dirty p else s
theorem noted_only (s : State) (p off : Nat) : s.noted p off = { s with regs := (s.noted p off).regs } := by
  unfold State.noted
  split
  · exact dirty_eq s p
  · rfl
theorem rget_noted_ne (s : State) (p off b : Nat) (hlo : b ≠ OVL_DIRTY_LO.addr) (hhi : b ≠ OVL_DIRTY_HI.addr) :
    (s.noted p off).rget b = s.rget b := by
  unfold State.noted
  split
  · exact rget_dirty_ne s p b hlo hhi
  · rfl

/-- An accepted write of a low word holds it and ends. -/
theorem writeReg_wideLow (hook : WCtx → State → State) (s : State) (m : Master) (a : Nat) (v : Word) (d : RegDesc) (h : a ∈ wideLows)
    (ha : Accepted s ⟨m, .base⟩ a) (hd : descOf a = some d) :
    s.writeReg hook ⟨m, .base⟩ a v = (s.noErr.noted (pageOf a) (baseOff a)).holdLow m a (writeValue d .base (s.rget a) v) := by
  obtain ⟨-, hbase, hp, ho, -, hprot, hpend, -⟩ := wideLow_place h
  have hview : viewOf a = .base := view_view .base a ho
  have hacc : s.judge m (s.sourceOf m) a true = .ok := ha
  have hpage : pageAddr (pageOf a) (baseOff a) = a := hbase
  show s.writeAs hook m (s.sourceOf m) a v = _
  rw [State.writeAs, hacc]
  dsimp only
  rw [State.applyWrite]
  dsimp only
  rw [hpage, hview, hd, Option.elim_some, hprot, if_neg Bool.false_ne_true, if_neg hpend, if_pos (List.contains_iff_mem.2 h)]
  rfl

theorem latchPairLowWrite_holds (s : State) (m : Master) (a : Nat) (v : Word) (h : a ∈ wideLows) (ha : Accepted s ⟨m, .base⟩ a) :
    Does (.latchPairLowWrite m (BitVec.ofNat 32 a) v) s fun u =>
      u.bus.held.find? (fun h => h.1 == masterCode m && h.2.1 == a)
        = some (masterCode m, a, BitVec.ofNat 32 (writtenTo s ⟨m, .base⟩ a v))
      ∧ (∀ (m' : Master) (b : Nat), (m' ≠ m ∨ b ≠ a) → u.bus.held.find? (fun h => h.1 == masterCode m' && h.2.1 == b)
          = s.bus.held.find? (fun h => h.1 == masterCode m' && h.2.1 == b))
      ∧ (∀ b, b ≠ OVL_DIRTY_LO.addr → b ≠ OVL_DIRTY_HI.addr → u.rget b = s.rget b)
      ∧ u = { s with regs := u.regs, bus := u.bus } := by
  obtain ⟨hlt, hbase, -, -, hd, -, -, hport⟩ := wideLow_place h
  obtain ⟨d, hd⟩ := Option.isSome_iff_exists.1 hd
  have hnat : (BitVec.ofNat 32 a).toNat = a := by rw [BitVec.toNat_ofNat, Nat.mod_eq_of_lt hlt]
  have hexec : exec (.latchPairLowWrite m (BitVec.ofNat 32 a) v) s = .next (s.busWrite pageHook m (BitVec.ofNat 32 a).toNat v) := rfl
  rw [hnat, busWrite_of_portCur pageHook s m a v (by rw [hbase]; exact portCur_none s a hport), writeReg_wideLow pageHook s m a v d h ha hd] at hexec
  rw [writtenTo_eq s ⟨m, .base⟩ a v d hd, ofNat_toNat_word]
  have hbus : (s.noErr.noted (pageOf a) (baseOff a)).bus = s.noErr.bus := by rw [noted_only]
  refine ⟨_, hexec, holdLow_held _ m a _, fun m' b hb => ?_, fun b hlo hhi => ?_, ?_⟩
  · refine (holdLow_held_other _ _ hb).trans ?_
    rw [hbus]
    rfl
  · exact rget_noted_ne s.noErr _ _ b hlo hhi
  · show State.holdLow _ _ _ _ = _
    unfold State.holdLow
    rw [noted_only]
    rfl

/-! ## NTU_STEP -/

/-- The high word of NTU_STEP has no further effect. -/
theorem pageHook_ntuStepHi (w : WCtx) (s : State) (hp : w.page = Pg.NTU) (ho : w.off = 0x08C) (hn : NothingOwed s) : pageHook w s = s := by
  have e : anyHook w s = s := by
    unfold anyHook coreHook
    rw [hp]
    show ntuHook w s = s
    simp [ntuHook, ho]
  rw [pageHook_of_nothingOwed w s (by rw [e]; exact hn), e]

theorem landLow_only (s : State) (m : Master) (a : Nat) : s.landLow m a = { s with regs := (s.landLow m a).regs, bus := (s.landLow m a).bus } := by
  unfold State.landLow
  split <;> rfl

/-- An accepted write of the high word lands the held low word and stores. -/
theorem writeReg_ntuStepHi (s : State) (m : Master) (v : Word) (d : RegDesc) (ha : Accepted s ⟨m, .base⟩ NTU_STEP_HI.addr)
    (hd : descOf NTU_STEP_HI.addr = some d) (hn : NothingOwed s) :
    s.writeReg pageHook ⟨m, .base⟩ NTU_STEP_HI.addr v =
      ((s.noErr.noted Pg.NTU 0x08C).landLow m NTU_STEP_LO.addr).rset NTU_STEP_HI.addr (writeValue d .base (s.rget NTU_STEP_HI.addr) v) := by
  have hacc : s.judge m (s.sourceOf m) NTU_STEP_HI.addr true = .ok := ha
  have hpage : pageAddr (pageOf NTU_STEP_HI.addr) (baseOff NTU_STEP_HI.addr) = NTU_STEP_HI.addr := by decide
  have hview : viewOf NTU_STEP_HI.addr = .base := by decide
  have hprot : isProtReg (pageOf NTU_STEP_HI.addr) (baseOff NTU_STEP_HI.addr) = false := by decide
  have hpend : ¬ baseOff NTU_STEP_HI.addr = 0x014 := by decide
  have hlow : wideLows.contains NTU_STEP_HI.addr = false := by decide
  have hhigh : wideLows.contains (NTU_STEP_HI.addr - 4) = true := by decide
  show s.writeAs pageHook m (s.sourceOf m) NTU_STEP_HI.addr v = _
  rw [State.writeAs, hacc]
  dsimp only
  rw [State.applyWrite]
  dsimp only
  rw [hpage, hview, hd, Option.elim_some, hprot, if_neg Bool.false_ne_true, if_neg hpend, hlow, if_neg Bool.false_ne_true, hhigh, if_pos rfl]
  refine pageHook_ntuStepHi _ _ rfl rfl ?_
  show NothingOwed (((s.noErr.noted Pg.NTU 0x08C).landLow m NTU_STEP_LO.addr).rset NTU_STEP_HI.addr _)
  rw [landLow_only, noted_only]
  exact hn

theorem latchPairHighWrite_lands (s : State) (m : Master) (v : Word) (ha : Accepted s ⟨m, .base⟩ NTU_STEP_HI.addr) (hn : NothingOwed s) :
    Does (.latchPairHighWrite m (BitVec.ofNat 32 NTU_STEP_HI.addr) v) s fun u =>
      u.raw NTU_STEP_HI.addr = writtenTo s ⟨m, .base⟩ NTU_STEP_HI.addr v
      ∧ (∀ h, s.bus.held.find? (fun h => h.1 == masterCode m && h.2.1 == NTU_STEP_LO.addr) = some h →
          u.rget NTU_STEP_LO.addr = h.2.2
          ∧ u.bus.held.find? (fun h => h.1 == masterCode m && h.2.1 == NTU_STEP_LO.addr) = none)
      ∧ (s.bus.held.find? (fun h => h.1 == masterCode m && h.2.1 == NTU_STEP_LO.addr) = none →
          u.rget NTU_STEP_LO.addr = s.rget NTU_STEP_LO.addr)
      ∧ u = { s with regs := u.regs, bus := u.bus } := by
  obtain ⟨d, hd⟩ : ∃ d, descOf NTU_STEP_HI.addr = some d := ⟨_, rfl⟩
  have hexec : exec (.latchPairHighWrite m (BitVec.ofNat 32 NTU_STEP_HI.addr) v) s = .next (s.busWrite pageHook m NTU_STEP_HI.addr v) := rfl
  rw [busWrite_of_portCur pageHook s m _ v (portCur_none s _ (by decide)), writeReg_ntuStepHi s m v d ha hd hn] at hexec
  have hbus : (s.noErr.noted Pg.NTU 0x08C).bus.held = s.bus.held := by
    rw [noted_only]
    rfl
  have hlow : NTU_STEP_LO.addr ≠ NTU_STEP_HI.addr := by decide
  have hget : (s.noErr.noted Pg.NTU 0x08C).rget NTU_STEP_LO.addr = s.rget NTU_STEP_LO.addr :=
    rget_noted_ne s.noErr Pg.NTU 0x08C NTU_STEP_LO.addr (by decide) (by decide)
  refine ⟨_, hexec, ?_, fun h hh => ?_, fun hh => ?_, ?_⟩
  · rw [writtenTo_eq s ⟨m, .base⟩ _ v d hd]
    exact congrArg BitVec.toNat (rget_rset_self _ _ _)
  · rw [← hbus] at hh
    obtain ⟨hland, hdrop⟩ := landLow_held hh
    rw [rget_rset_ne _ _ hlow]
    exact ⟨hland, hdrop⟩
  · rw [← hbus] at hh
    rw [rget_rset_ne _ _ hlow, landLow_none hh, hget]
  · rw [landLow_only, noted_only]
    rfl

end Sys2Proof.Machine
end

section
/-!
THE PRESENCE TOKEN (O13). The low periods of PRESENCE_N, when a token exists, and its interrupt (R62).
-/
namespace Sys2Proof.Machine
open Sys2Proof

theorem gPresence_only (s : State) (low : Bool) : s.gPresence low = { s with glade := (s.gPresence low).glade } := by
  unfold State.gPresence
  split
  · rfl
  · split
    · split <;> rfl
    · split <;> rfl

theorem slowSecond_congr {s t : State} (h : t.regs = s.regs) : t.slowSecond = s.slowSecond := by
  unfold State.slowSecond State.fbit State.fget State.rget
  rw [h]

/-- The fall of PRESENCE_N starts a low period. -/
theorem presence_falls (s : State) (t : Frc) (h : s.prot.lowFrom = none) :
    Does (.presenceNFilteredChange t true) s fun u => u.prot = { s.prot with lowFrom := some (s.advance t).now }
      ∧ u = { s.advance t with prot := u.prot, glade := u.glade } := by
  have hexec : exec (.presenceNFilteredChange t true) s
      = .next (((s.advance t).gPresence true).setProt fun p => { p with lowFrom := some ((s.advance t).gPresence true).now }) := by
    show execPresenceNFilteredChange t true s = _
    unfold execPresenceNFilteredChange
    dsimp only
    rw [gPresence_only, advance_prot, h]
    rfl
  have honly := gPresence_only (s.advance t) true
  generalize (s.advance t).gPresence true = g at *
  refine ⟨_, hexec, ?_, ?_⟩
  · show { g.prot with lowFrom := some g.now } = _
    rw [honly]
    simp
  · rw [honly]
    rfl

/-- Its end closes it; a long one is remembered. -/
theorem presence_rises (s : State) (t : Frc) (a : Nat) (h : s.prot.lowFrom = some a) :
    Does (.presenceNFilteredChange t false) s fun u => u.prot.lowFrom = none
      ∧ (a + 2 * s.slowSecond ≤ (s.advance t).now → u.prot.lastLong = some (s.advance t).now)
      ∧ ((s.advance t).now < a + 2 * s.slowSecond → u.prot.lastLong = s.prot.lastLong) ∧ u.regs = s.regs ∧ u.mem = s.mem := by
  have honly := gPresence_only (s.advance t) false
  have hexec : exec (.presenceNFilteredChange t false) s = .next (((s.advance t).gPresence false).setProt fun p => { p with
      lowFrom := none
      lastLong := if a + 2 * s.slowSecond ≤ (s.advance t).now then some (s.advance t).now else p.lastLong }) := by
    have hslow : ((s.advance t).gPresence false).slowSecond = s.slowSecond := slowSecond_congr (by rw [honly]; exact advance_regs s t)
    have hnow : ((s.advance t).gPresence false).now = (s.advance t).now := by rw [honly]
    have hprot : ((s.advance t).gPresence false).prot = s.prot := by rw [honly]; exact advance_prot s t
    show execPresenceNFilteredChange t false s = _
    unfold execPresenceNFilteredChange
    dsimp only
    rw [hprot, h, hslow, hnow]
    rfl
  generalize (s.advance t).gPresence false = g at *
  refine ⟨_, hexec, rfl, fun hlong => ?_, fun hshort => ?_, ?_, ?_⟩
  · show (if _ then _ else _) = _
    rw [if_pos hlong]
  · show (if _ then _ else _) = _
    rw [if_neg (by omega), honly, advance_prot]
  · show g.regs = _
    rw [honly]
    exact advance_regs s t
  · show g.mem = _
    rw [honly]
    exact advance_mem s t

/-- A token exists during a low period of 2 s and for 58 s after its end. -/
theorem token_iff (s : State) : s.token = true ↔ (∃ a, s.prot.lowFrom = some a ∧ a + 2 * s.slowSecond ≤ s.now)
    ∨ ∃ b, s.prot.lastLong = some b ∧ s.now ≤ b + 58 * s.slowSecond := by
  unfold State.token
  cases s.prot.lowFrom <;> cases s.prot.lastLong <;> simp

theorem exec_tokenGain (s : State) (t : Frc) : exec (.tokenGain t) s = .next (if (s.advance t).token && !(s.advance t).prot.gained then
    ((s.advance t).setProt fun p => { p with gained := true }).raise Pg.PROT 3 else s.advance t) := rfl
theorem exec_tokenLapse (s : State) (t : Frc) : exec (.tokenLapse t) s = .next (if (s.advance t).token then s.advance t else
    (s.advance t).setProt fun p => { p with gained := false }) := rfl

/-- While a token exists, TOKEN_GAIN raises the interrupt once, and TOKEN_LAPSE does nothing. -/
theorem token_stands (s : State) (t : Frc) (h : (s.advance t).token = true) :
    (s.prot.gained = false → Does (.tokenGain t) s fun u => u.fget (INT_RAW.bit Pg.PROT 3) = 1 ∧ u.prot.gained = true
      ∧ RegsOff (onPages [Pg.PROT]) s u ∧ u.mem = s.mem)
    ∧ (s.prot.gained = true → Does (.tokenGain t) s fun u => u = s.advance t) ∧ Does (.tokenLapse t) s fun u => u = s.advance t := by
  have hgain := exec_tokenGain s t
  have hlapse := exec_tokenLapse s t
  rw [h, if_pos rfl] at hlapse
  rw [h, advance_prot] at hgain
  refine ⟨fun hg => ?_, fun hg => ?_, ⟨_, hlapse, rfl⟩⟩
  · rw [hg] at hgain
    refine ⟨_, hgain, fget_raise_self _ Pg.PROT 3 (by decide), rfl, ?_, advance_mem s t⟩
    exact regsOff_fset (fun a _ => rget_advance s t a) (INT_RAW.bit Pg.PROT 3) 1 (by decide)
  · rw [hg] at hgain
    exact ⟨_, hgain, rfl⟩

/-- Without one, TOKEN_GAIN does nothing, and TOKEN_LAPSE re-arms the interrupt. -/
theorem token_gone (s : State) (t : Frc) (h : (s.advance t).token = false) : Does (.tokenGain t) s (fun u => u = s.advance t)
    ∧ Does (.tokenLapse t) s fun u => u.prot = { s.prot with gained := false } ∧ u = { s.advance t with prot := u.prot } := by
  have hgain := exec_tokenGain s t
  have hlapse := exec_tokenLapse s t
  rw [h] at hgain hlapse
  refine ⟨⟨_, hgain, rfl⟩, ⟨_, hlapse, ?_, rfl⟩⟩
  show { (s.advance t).prot with gained := false } = _
  rw [advance_prot]

/-- Settles O13: the latch pairs, the held low words, and the presence token. -/
theorem wideValuesAndToken : Obligations.WideValuesAndToken :=
  ⟨⟨latchPairLowRead_latches, fun s m a v h ha _ => latchPairLowWrite_holds s m a v h ha, latchPairHighWrite_lands⟩,
    presence_falls, presence_rises, token_iff, token_stands, token_gone⟩

end Sys2Proof.Machine
end

section
/-!
DMA CHANNELS (O41). Enabling, disabling and requests (R350, R351).
-/
namespace Sys2Proof.Machine
open Sys2Proof

/-! ## The channels -/

theorem getElem?_setAt {α : Type} (l : List α) (n k : Nat) (x : α) : (setAt l n x)[k]? = if k = n ∧ n < l.length then some x else l[k]? := by
  induction l generalizing n k with
  | nil => simp [setAt]
  | cons y l ih =>
    cases n with
    | zero => cases k <;> simp [setAt]
    | succ n => cases k <;> simp [setAt, ih]

theorem dmaGet_dmaPut_self (s : State) (ch : Nat) (d : DmaCh) (h : ch < s.dma.length) : (s.dmaPut ch d).dmaGet ch = d := by
  unfold State.dmaGet State.dmaPut
  rw [getElem?_setAt, if_pos ⟨rfl, h⟩, Option.getD_some]
theorem dmaGet_dmaPut_ne (s : State) (ch : Nat) (d : DmaCh) (k : Nat) (h : k ≠ ch) : (s.dmaPut ch d).dmaGet k = s.dmaGet k := by
  unfold State.dmaGet State.dmaPut
  rw [getElem?_setAt, if_neg (fun e => h e.1)]
@[simp] theorem dmaGet_fset (s : State) (f : Fld) (x k : Nat) : (s.fset f x).dmaGet k = s.dmaGet k := rfl
@[simp] theorem rget_dmaPut (s : State) (ch : Nat) (d : DmaCh) (a : Nat) : (s.dmaPut ch d).rget a = s.rget a := rfl
@[simp] theorem fget_dmaPut (s : State) (ch : Nat) (d : DmaCh) (f : Fld) : (s.dmaPut ch d).fget f = s.fget f := rfl

/-! ## The rows of a channel -/

section
variable (ch : Nat)

/-- Every row lies behind the common registers. -/
theorem dmaCfg_ne_stat : DMA_CFGn.addr ch ≠ DMA_STATn.addr ch := by
  unfold DMA_CFGn.addr DMA_STATn.addr
  omega
theorem dmaCnt_apart : DMA_CNTn.addr ch ≠ DMA_CFGn.addr ch ∧ DMA_CNTn.addr ch ≠ DMA_STATn.addr ch ∧ DMA_CNTn.addr ch ≠ OVL_DIRTY_LO.addr
    ∧ DMA_CNTn.addr ch ≠ OVL_DIRTY_HI.addr := by
  unfold DMA_CNTn.addr DMA_CFGn.addr DMA_STATn.addr OVL_DIRTY_LO.addr OVL_DIRTY_HI.addr
  omega
theorem dmaErr_apart : DMA_ERRADDRn.addr ch ≠ DMA_CFGn.addr ch ∧ DMA_ERRADDRn.addr ch ≠ DMA_STATn.addr ch := by
  unfold DMA_ERRADDRn.addr DMA_CFGn.addr DMA_STATn.addr
  omega
/-- The common registers lie before every row. -/
theorem dmaCommon_apart {a : Nat} (h : a < 0x4003C080) : a ≠ DMA_CFGn.addr ch ∧ a ≠ DMA_STATn.addr ch ∧ a ≠ DMA_ERRADDRn.addr ch := by
  unfold DMA_CFGn.addr DMA_STATn.addr DMA_ERRADDRn.addr
  omega

end

/-! ## A channel that stops -/

/-- `u` is `s` with a channel stopped: disabled, no burst, no request waiting (R350). -/
structure DmaStopped (s u : State) (ch : Nat) : Prop where
  eq : u = { s with regs := u.regs, dma := u.dma }
  en : u.fbit (DMA_CFGn.EN ch) = false
  pend : u.fget (DMA_STATn.PENDREQ ch) = 0
  burst : ch < s.dma.length → (u.dmaGet ch).burst = 0
  off : ∀ a, a ≠ DMA_CFGn.addr ch → a ≠ DMA_STATn.addr ch → u.rget a = s.rget a

theorem dmaPut_fset_only (s : State) (ch : Nat) (d : DmaCh) (f : Fld) (x : Nat) :
    (s.dmaPut ch d).fset f x = { s with regs := ((s.dmaPut ch d).fset f x).regs, dma := ((s.dmaPut ch d).fset f x).dma } := rfl
theorem dmaPut_fset_fset_only (s : State) (ch : Nat) (d : DmaCh) (f g : Fld) (x y : Nat) : ((s.dmaPut ch d).fset f x).fset g y =
    { s with regs := (((s.dmaPut ch d).fset f x).fset g y).regs, dma := (((s.dmaPut ch d).fset f x).fset g y).dma } := rfl
theorem dmaStop_eq (s : State) (ch : Nat) : s.dmaStop ch =
    ((s.dmaPut ch { s.dmaGet ch with burst := 0 }).fset (DMA_CFGn.EN ch) 0).fset (DMA_STATn.PENDREQ ch) 0 := rfl
theorem dmaStop_stopped (s : State) (ch : Nat) : DmaStopped s (s.dmaStop ch) ch := by
  rw [dmaStop_eq]
  refine ⟨dmaPut_fset_fset_only .., ?_, ?_, fun h => ?_, fun a hcfg hstat => ?_⟩
  · unfold State.fbit
    rw [fget_fset_reg _ _ _ _ (dmaCfg_ne_stat ch), fget_fset_self _ _ _ (by simp [DMA_CFGn.EN])]
    rfl
  · rw [fget_fset_self _ _ _ (by simp [DMA_STATn.PENDREQ]), Nat.zero_mod]
  · rw [dmaGet_fset, dmaGet_fset, dmaGet_dmaPut_self s ch _ h]
  · rw [rget_fset_ne _ _ _ _ hstat, rget_fset_ne _ _ _ _ hcfg, rget_dmaPut]

/-! ## A write of CFG -/

/-- CFG of a channel takes plain writes. -/
theorem dmaCfg_plain (ch : Fin 8) : plainReg (DMA_CFGn.addr ch) = true ∧ (descOf (DMA_CFGn.addr ch)).isSome := by
  have hall : ∀ ch : Fin 8, plainReg (DMA_CFGn.addr ch) = true ∧ (descOf (DMA_CFGn.addr ch)).isSome := by decide +kernel
  exact hall ch

/-- EN going to 1 starts the channel; EN going to 0 stops it. -/
theorem dmaHook_cfg (w : WCtx) (s : State) (ch : Nat) (h : w.off = 0x08C + 0x20 * ch) : dmaHook w s =
    if w.sets (DMA_CFGn.EN ch) then s.dmaStart ch w.src else if w.clears (DMA_CFGn.EN ch) then s.dmaStop ch else s := by
  have hch : (0x08C + 0x20 * ch - 0x080) / 0x20 = ch := by omega
  have hrow : (0x08C + 0x20 * ch - 0x080) % 0x20 = 0x0C := by omega
  unfold dmaHook
  rw [h, if_neg (by omega), if_neg (by omega), hch, hrow]
  rfl

theorem fieldGet_en (ch x : Nat) : (fieldGet x (DMA_CFGn.EN ch) != 0) = bitOf x 0 := by
  unfold fieldGet bitOf DMA_CFGn.EN
  simp

/-- `t` is `s` with the value `x` in a channel's CFG, before the channel starts or stops. -/
structure DmaCfgStored (s t : State) (ch x : Nat) : Prop where
  eq : t = { s with regs := t.regs, bus := t.bus }
  en : t.fbit (DMA_CFGn.EN ch) = bitOf x 0
  off : ∀ b, b ≠ DMA_CFGn.addr ch → b ≠ OVL_DIRTY_LO.addr → b ≠ OVL_DIRTY_HI.addr → t.rget b = s.rget b

@[simp] theorem dmaPut_ovl (s : State) (ch : Nat) (d : DmaCh) : (s.dmaPut ch d).ovl = s.ovl := rfl
@[simp] theorem dmaPut_mem (s : State) (ch : Nat) (d : DmaCh) : (s.dmaPut ch d).mem = s.mem := rfl
@[simp] theorem dmaPut_sys (s : State) (ch : Nat) (d : DmaCh) : (s.dmaPut ch d).sys = s.sys := rfl
theorem dmaStop_parts (s : State) (ch : Nat) : (s.dmaStop ch).ovl = s.ovl ∧ (s.dmaStop ch).sys = s.sys := by simp [dmaStop_eq]
theorem dmaStart_parts (s : State) (ch : Nat) (src : Source) : (s.dmaStart ch src).ovl = s.ovl ∧ (s.dmaStart ch src).sys = s.sys := by
  unfold State.dmaStart
  dsimp only
  split
  · simp [State.dmaDone, dmaStop_eq]
  · simp

/-- EN as the write finds it, and as it leaves it. -/
theorem sets_en (w : WCtx) (f : Fld) {b : Bool} (h : (fieldGet w.old f != 0) = b) (h' : (fieldGet w.new f != 0) = !b) :
    w.sets f = !b ∧ w.clears f = b := by
  unfold WCtx.sets WCtx.clears
  cases b <;> simp_all

/-- An accepted write of CFG that turns EN starts or stops the channel. -/
theorem writeReg_dmaCfg (s : State) (a : Acc) (ch : Fin 8) (v : Word) (ha : Accepted s a (DMA_CFGn.addr ch)) (hn : NothingOwed s) :
    ∃ t, DmaCfgStored s t ch (writtenTo s a (DMA_CFGn.addr ch) v)
      ∧ (s.fbit (DMA_CFGn.EN ch) = false → bitOf (writtenTo s a (DMA_CFGn.addr ch) v) 0 = true →
          s.writeReg pageHook a (DMA_CFGn.addr ch) v = t.dmaStart ch (s.sourceOf a.m))
      ∧ (s.fbit (DMA_CFGn.EN ch) = true → bitOf (writtenTo s a (DMA_CFGn.addr ch) v) 0 = false →
          s.writeReg pageHook a (DMA_CFGn.addr ch) v = t.dmaStop ch) := by
  obtain ⟨hplain, hd⟩ := dmaCfg_plain ch
  obtain ⟨d, hd⟩ := Option.isSome_iff_exists.1 hd
  have hlt := ch.isLt
  have hpage : pageOf (DMA_CFGn.addr ch) = Pg.DMA := by
    unfold pageOf DMA_CFGn.addr Pg.DMA
    omega
  have hoff : baseOff (DMA_CFGn.addr ch) = 0x08C + 0x20 * ch.val := by
    unfold baseOff DMA_CFGn.addr
    omega
  have hwrite := writeReg_ok pageHook s a (DMA_CFGn.addr ch) v d ha hplain hd
  have hself := rget_storedBy_self s a (DMA_CFGn.addr ch) d v
  have hstored := storedBy_eq s a (DMA_CFGn.addr ch) d v
  have hrest := fun b => rget_storedBy_ne s a (DMA_CFGn.addr ch) b d v
  generalize storedBy s a (DMA_CFGn.addr ch) d v = t at *
  have hany : anyHook (wctxOf s a (DMA_CFGn.addr ch) d v) t = dmaHook (wctxOf s a (DMA_CFGn.addr ch) d v) t := by
    unfold anyHook coreHook
    rw [show (wctxOf s a (DMA_CFGn.addr ch) d v).page = Pg.DMA from hpage]
    rfl
  rw [dmaHook_cfg _ t ch hoff] at hany
  have hold : (fieldGet (wctxOf s a (DMA_CFGn.addr ch) d v).old (DMA_CFGn.EN ch) != 0) = s.fbit (DMA_CFGn.EN ch) := rfl
  have hnew : (fieldGet (wctxOf s a (DMA_CFGn.addr ch) d v).new (DMA_CFGn.EN ch) != 0) = bitOf (writtenTo s a (DMA_CFGn.addr ch) v) 0 := by
    rw [fieldGet_en, writtenTo_eq s a _ v d hd]
    rfl
  have hhook {u : State} (he : anyHook (wctxOf s a (DMA_CFGn.addr ch) d v) t = u) (ho : u.ovl = t.ovl) (hs : u.sys = t.sys) :
      s.writeReg pageHook a (DMA_CFGn.addr ch) v = u := by
    rw [hwrite, pageHook_of_nothingOwed _ t, he]
    rw [he, NothingOwed, ho, hs, hstored]
    exact hn
  refine ⟨t, ⟨by rw [hstored], ?_, hrest⟩, fun h0 h1 => hhook ?_ (dmaStart_parts ..).1 (dmaStart_parts ..).2,
    fun h1 h0 => hhook ?_ (dmaStop_parts ..).1 (dmaStop_parts ..).2⟩
  · rw [← hnew]
    unfold State.fbit
    rw [fget_of_rget _ hself]
    rfl
  · obtain ⟨hsets, -⟩ := sets_en _ _ (hold.trans h0) (hnew.trans h1)
    rw [hany, if_pos (by rw [hsets]; rfl)]
    rfl
  · obtain ⟨hsets, hclears⟩ := sets_en _ _ (hold.trans h1) (hnew.trans h0)
    rw [hany, if_neg (by rw [hsets]; exact Bool.false_ne_true), if_pos hclears]

/-! ## A channel that is done -/

/-- INT_RAW and EVT_EN of the page. -/
theorem dmaCommon_place (b : Nat) : (INT_RAW.bit Pg.DMA b).addr = 0x4003C00C ∧ (EVT_EN.bit Pg.DMA b).addr = 0x4003C018 := ⟨rfl, rfl⟩

/-- Where its event is not enabled, a channel that is done stops, and says so. -/
theorem dmaDone_quiet (s : State) (ch : Nat) (hch : ch < 32) (h : s.fbit (EVT_EN.bit Pg.DMA ch) = false) :
    (s.dmaDone ch).fbit (DMA_CFGn.EN ch) = false ∧ (s.dmaDone ch).fbit (DMA_STATn.DONE ch) = true
      ∧ (s.dmaDone ch).fget (INT_RAW.bit Pg.DMA ch) = 1 ∧ (s.dmaDone ch).mem = s.mem := by
  obtain ⟨hint, hevt⟩ := dmaCommon_place ch
  have hne : (EVT_EN.bit Pg.DMA ch).addr ≠ (INT_RAW.bit Pg.DMA ch).addr := by rw [hint, hevt]; decide
  obtain ⟨hrawcfg, hrawstat, -⟩ := dmaCommon_apart ch (a := (INT_RAW.bit Pg.DMA ch).addr) (by rw [hint]; decide)
  obtain ⟨hevtcfg, hevtstat, -⟩ := dmaCommon_apart ch (a := (EVT_EN.bit Pg.DMA ch).addr) (by rw [hevt]; decide)
  have hstop := dmaStop_stopped s ch
  have e : s.dmaDone ch = ((s.dmaStop ch).fset (DMA_STATn.DONE ch) 1).raise Pg.DMA ch := by
    refine if_neg ?_
    unfold State.fbit at h ⊢
    rw [fget_raise_apart _ _ _ _ hch (.inl hne), fget_fset_reg _ _ _ _ hevtstat, fget_of_rget _ (hstop.off _ hevtcfg hevtstat)]
    exact Bool.eq_false_iff.1 h
  rw [e]
  refine ⟨?_, ?_, fget_raise_self _ _ _ hch, ?_⟩
  · have hen := hstop.en
    unfold State.fbit at hen ⊢
    rw [fget_raise_apart _ _ _ _ hch (.inl hrawcfg.symm), fget_fset_reg _ _ _ _ (dmaCfg_ne_stat ch)]
    exact hen
  · unfold State.fbit
    rw [fget_raise_apart _ _ _ _ hch (.inl hrawstat.symm), fget_fset_self _ _ _ (by simp [DMA_STATn.DONE])]
    rfl
  · rw [raise_mem, fset_mem, hstop.eq]

/-! ## Enabling and disabling -/

section
variable {s : State} {a : Acc} {ch : Fin 8} {v : Word} (ha : Accepted s a (DMA_CFGn.addr ch)) (hn : NothingOwed s) (hlen : ch.val < s.dma.length)
include ha hn hlen

/-- A channel with beats to move starts without requests. -/
theorem dmaChannelEnable_starts (hen : s.fbit (DMA_CFGn.EN ch) = false) (hv : bitOf (writtenTo s a (DMA_CFGn.addr ch) v) 0 = true)
    (hcnt : s.fget (DMA_CNTn.CNT ch) ≠ 0) :
    Does (.dmaChannelEnable a ch v) s fun u => u.fbit (DMA_CFGn.EN ch) = true
      ∧ u.dmaGet ch = { owner := (s.sourceOf a.m).owner, sec := (s.sourceOf a.m).sec, burst := 0 } ∧ u.fget (DMA_STATn.PENDREQ ch) = 0
      ∧ u.raw (DMA_CNTn.addr ch) = s.raw (DMA_CNTn.addr ch) ∧ u = { s with regs := u.regs, bus := u.bus, dma := u.dma }
      ∧ ∀ k, k ≠ ch.val → u.dmaGet k = s.dmaGet k := by
  obtain ⟨t, ⟨heq, ht, hoff⟩, hstart, -⟩ := writeReg_dmaCfg s a ch v ha hn
  have hexec : exec (.dmaChannelEnable a ch v) s = .next (t.dmaStart ch (s.sourceOf a.m)) := congrArg Host.Outcome.next (hstart hen hv)
  obtain ⟨hcfg, hstat, hlo, hhi⟩ := dmaCnt_apart ch
  have hget : t.rget (DMA_CNTn.addr ch) = s.rget (DMA_CNTn.addr ch) := hoff _ hcfg hlo hhi
  have hdma : t.dma = s.dma := by rw [heq]
  have hrun : t.dmaStart ch (s.sourceOf a.m)
      = (t.dmaPut ch { owner := (s.sourceOf a.m).owner, sec := (s.sourceOf a.m).sec }).fset (DMA_STATn.PENDREQ ch) 0 := by
    refine if_neg ?_
    rw [fget_fset_reg _ _ _ _ hstat, fget_dmaPut, fget_of_rget _ hget]
    exact hcnt
  rw [hrun] at hexec
  refine ⟨_, hexec, ?_, ?_, ?_, ?_, ?_, fun k hk => ?_⟩
  · unfold State.fbit
    rw [fget_fset_reg _ _ _ _ (dmaCfg_ne_stat ch), fget_dmaPut]
    exact ht.trans hv
  · rw [dmaGet_fset, dmaGet_dmaPut_self _ _ _ (by rw [hdma]; exact hlen)]
  · rw [fget_fset_self _ _ _ (by simp [DMA_STATn.PENDREQ]), Nat.zero_mod]
  · unfold State.raw
    rw [rget_fset_ne _ _ _ _ hstat, rget_dmaPut, hget]
  · rw [dmaPut_fset_only, heq]
  · rw [dmaGet_fset, dmaGet_dmaPut_ne _ _ _ _ hk]
    unfold State.dmaGet
    rw [hdma]

omit hlen in
/-- One without is done at once. -/
theorem dmaChannelEnable_done (hen : s.fbit (DMA_CFGn.EN ch) = false) (hv : bitOf (writtenTo s a (DMA_CFGn.addr ch) v) 0 = true)
    (hcnt : s.fget (DMA_CNTn.CNT ch) = 0) (hevt : s.fbit (EVT_EN.bit Pg.DMA ch) = false) :
    Does (.dmaChannelEnable a ch v) s fun u => u.fbit (DMA_CFGn.EN ch) = false ∧ u.fbit (DMA_STATn.DONE ch) = true
      ∧ u.fget (INT_RAW.bit Pg.DMA ch) = 1 ∧ u.mem = s.mem := by
  obtain ⟨t, ⟨heq, -, hoff⟩, hstart, -⟩ := writeReg_dmaCfg s a ch v ha hn
  have hexec : exec (.dmaChannelEnable a ch v) s = .next (t.dmaStart ch (s.sourceOf a.m)) := congrArg Host.Outcome.next (hstart hen hv)
  obtain ⟨hcfg, hstat, hlo, hhi⟩ := dmaCnt_apart ch
  have hget : t.rget (DMA_CNTn.addr ch) = s.rget (DMA_CNTn.addr ch) := hoff _ hcfg hlo hhi
  have hrun : t.dmaStart ch (s.sourceOf a.m) = ((t.dmaPut ch { owner := (s.sourceOf a.m).owner, sec := (s.sourceOf a.m).sec }).fset
      (DMA_STATn.PENDREQ ch) 0).dmaDone ch := by
    refine if_pos ?_
    rw [fget_fset_reg _ _ _ _ hstat, fget_dmaPut, fget_of_rget _ hget]
    exact hcnt
  have hquiet : ((t.dmaPut ch { owner := (s.sourceOf a.m).owner, sec := (s.sourceOf a.m).sec }).fset (DMA_STATn.PENDREQ ch) 0).fbit
      (EVT_EN.bit Pg.DMA ch) = false := by
    obtain ⟨-, hplace⟩ := dmaCommon_place ch
    obtain ⟨hevtcfg, hevtstat, -⟩ := dmaCommon_apart ch (a := (EVT_EN.bit Pg.DMA ch).addr) (by rw [hplace]; decide)
    unfold State.fbit at hevt ⊢
    rw [fget_fset_reg _ _ _ _ hevtstat, fget_dmaPut, fget_of_rget _ (hoff _ hevtcfg (by rw [hplace]; decide) (by rw [hplace]; decide))]
    exact hevt
  obtain ⟨hoff', hdone, hint, hmem⟩ := dmaDone_quiet _ ch (by omega) hquiet
  rw [← hrun] at hoff' hdone hint hmem
  exact ⟨_, hexec, hoff', hdone, hint, hmem.trans (by rw [fset_mem, dmaPut_mem, heq])⟩

/-- A channel that is disabled stops with its count. -/
theorem dmaDisable_stops (hen : s.fbit (DMA_CFGn.EN ch) = true) (hv : bitOf (writtenTo s a (DMA_CFGn.addr ch) v) 0 = false) :
    Does (.dmaDisable a ch v) s fun u => u.fbit (DMA_CFGn.EN ch) = false ∧ u.raw (DMA_CNTn.addr ch) = s.raw (DMA_CNTn.addr ch)
      ∧ (u.dmaGet ch).burst = 0 ∧ u.fget (DMA_STATn.PENDREQ ch) = 0 ∧ u = { s with regs := u.regs, bus := u.bus, dma := u.dma } := by
  obtain ⟨t, ⟨heq, -, hoff⟩, -, hstop⟩ := writeReg_dmaCfg s a ch v ha hn
  have hexec : exec (.dmaDisable a ch v) s = .next (t.dmaStop ch) := congrArg Host.Outcome.next (hstop hen hv)
  obtain ⟨hcfg, hstat, hlo, hhi⟩ := dmaCnt_apart ch
  have hu := dmaStop_stopped t ch
  generalize t.dmaStop ch = u at *
  refine ⟨u, hexec, hu.en, ?_, hu.burst (by rw [heq]; exact hlen), hu.pend, by rw [hu.eq, heq]⟩
  exact congrArg BitVec.toNat ((hu.off _ hcfg hstat).trans (hoff _ hcfg hlo hhi))

end

/-! ## Requests -/

/-- In the application's domain the event reaches the channel. -/
theorem exec_dmaRequest (s : State) (ch : Fin 8) (h : s.domUp .app = true) : exec (.dmaRequest ch) s = .next (s.dmaRequest ch) := by
  have hlt := ch.isLt
  have hdom : consumerDomain (32 + ch.val) = .app := if_pos (by omega)
  have e : s.deliver (32 + ch.val) = (s.dmaRequest ch, []) := by
    unfold State.deliver State.consume
    rw [hdom, if_pos h, if_neg (by omega), if_pos (by omega), Nat.add_sub_cancel_left]
  exact congrArg (fun r : State × List Nat => Host.Outcome.next r.1) e

theorem dmaRequest_opens (s : State) (ch : Fin 8) (h : s.domUp .app = true) (hlen : ch.val < s.dma.length)
    (hen : s.fbit (DMA_CFGn.EN ch) = true) (hfree : s.fbit (DMA_CFGn.FREE ch) = false) :
    ((s.dmaGet ch).burst = 0 → Does (.dmaRequest ch) s fun u => (u.dmaGet ch).burst = s.fget (DMA_CFGn.BURST ch) + 1 ∧ u = { s with dma := u.dma })
    ∧ ((s.dmaGet ch).burst ≠ 0 → Does (.dmaRequest ch) s fun u =>
        u.fget (DMA_STATn.PENDREQ ch) = min 255 (s.fget (DMA_STATn.PENDREQ ch) + 1) ∧ PagesOnly [Pg.DMA] s u) := by
  have hexec := exec_dmaRequest s ch h
  have hreq : s.dmaRequest ch = if (s.dmaGet ch).burst = 0 then s.dmaPut ch { s.dmaGet ch with burst := s.fget (DMA_CFGn.BURST ch) + 1 }
      else s.finc (DMA_STATn.PENDREQ ch) := by
    unfold State.dmaRequest
    rw [hen, hfree]
    rfl
  rw [hreq] at hexec
  refine ⟨fun hb => ?_, fun hb => ?_⟩
  · rw [if_pos hb] at hexec
    exact ⟨_, hexec, congrArg DmaCh.burst (dmaGet_dmaPut_self s ch _ hlen), rfl⟩
  · rw [if_neg hb] at hexec
    have hpage : onPages [Pg.DMA] (DMA_STATn.PENDREQ ch).addr = true := by
      have hall : ∀ ch : Fin 8, onPages [Pg.DMA] (DMA_STATn.PENDREQ ch).addr = true := by decide
      exact hall ch
    exact ⟨_, hexec, fget_finc s (DMA_STATn.PENDREQ ch) (by simp [DMA_STATn.PENDREQ]), pagesOnly_fset (pagesOnly_refl _ s) _ _ hpage⟩

/-- A disabled or free-running channel ignores a request. -/
theorem dmaRequest_ignored (s : State) (ch : Fin 8) (h : s.domUp .app = true)
    (hoff : s.fbit (DMA_CFGn.EN ch) = false ∨ s.fbit (DMA_CFGn.FREE ch) = true) : Does (.dmaRequest ch) s fun u => u = s := by
  refine ⟨_, exec_dmaRequest s ch h, ?_⟩
  unfold State.dmaRequest
  exact if_pos (by rcases hoff with hoff | hoff <;> simp [hoff])

end Sys2Proof.Machine
end

section
/-!
DMA BEATS (O41). A word moved from SRAM to SRAM, a source that does not exist, and the beats that are not taken (R351, R352).
-/
namespace Sys2Proof.Machine
open Sys2Proof

/-! ## The beat that is taken -/

theorem exec_dmaBeat (s : State) (ch : Fin 8) (hen : s.fbit DMA_CTRL.EN = true) (hup : s.busUp = true) (hnext : s.dmaNext = some ch.val) :
    exec .dmaBeat s = .next (s.dmaBeat ch) := by
  show execDmaBeat s = _
  unfold execDmaBeat
  rw [hen, hup, hnext]
  exact dif_pos ch.isLt
theorem dmaBeat_idle (s : State) (h : s.fbit DMA_CTRL.EN = false ∨ s.busUp = false ∨ s.dmaNext = none) : Does .dmaBeat s fun u => u = s := by
  have hexec : exec .dmaBeat s = .next s := by
    show execDmaBeat s = _
    unfold execDmaBeat
    rcases h with h | h | h
    · rw [h]
      rfl
    · rw [h, Bool.not_false, Bool.or_true]
      rfl
    · rw [h]
      exact ite_self _
  exact ⟨s, hexec, rfl⟩

theorem dmaSize_word (s : State) (ch : Nat) (h : s.fget (DMA_CFGn.SIZE ch) = 2) : s.dmaSize ch = 4 := by
  simp [State.dmaSize, h]

/-! ## A beat whose source does not exist -/

/-- The failing beat: the channel stops, and its status says why and where (R352). -/
theorem dmaFail_leaves (s : State) (ch cause x : Nat) (hch : ch < 8) (hc : cause < 4) (hx : x < 2 ^ 32) :
    (s.dmaFail ch cause x).fbit (DMA_STATn.ERR ch) = true ∧ (s.dmaFail ch cause x).fget (DMA_STATn.CAUSE ch) = cause
      ∧ (s.dmaFail ch cause x).raw (DMA_ERRADDRn.addr ch) = x ∧ (s.dmaFail ch cause x).fbit (DMA_CFGn.EN ch) = false
      ∧ (s.dmaFail ch cause x).fget (INT_RAW.bit Pg.DMA (8 + ch)) = 1 ∧ (s.dmaFail ch cause x).mem = s.mem := by
  obtain ⟨hint, -⟩ := dmaCommon_place (8 + ch)
  obtain ⟨hrawcfg, hrawstat, hrawerr⟩ := dmaCommon_apart ch (a := (INT_RAW.bit Pg.DMA (8 + ch)).addr) (by rw [hint]; decide)
  obtain ⟨herrcfg, herrstat⟩ := dmaErr_apart ch
  have h8 : 8 + ch < 32 := by omega
  have hstop := dmaStop_stopped s ch
  have e : s.dmaFail ch cause x = (((((s.dmaStop ch).fset (DMA_STATn.ERR ch) 1).fset (DMA_STATn.CAUSE ch) cause).rsetN (DMA_ERRADDRn.addr ch) x).raise
      Pg.DMA (8 + ch)) := rfl
  generalize s.dmaStop ch = t at *
  rw [e]
  refine ⟨?_, ?_, ?_, ?_, fget_raise_self _ _ _ h8, ?_⟩
  · unfold State.fbit
    rw [fget_raise_apart _ _ _ _ h8 (.inl hrawstat.symm), fget_rsetN_ne _ _ _ _ herrstat.symm,
      fget_fset_ne _ _ _ _ (by simp [DMA_STATn.CAUSE]) (.inl (by simp [DMA_STATn.ERR, DMA_STATn.CAUSE])),
      fget_fset_self _ _ _ (by simp [DMA_STATn.ERR])]
    rfl
  · rw [fget_raise_apart _ _ _ _ h8 (.inl hrawstat.symm), fget_rsetN_ne _ _ _ _ herrstat.symm, fget_fset_self _ _ _ (by simp [DMA_STATn.CAUSE])]
    exact Nat.mod_eq_of_lt hc
  · unfold State.raw
    rw [rget_raise_ne _ _ _ _ hrawerr.symm]
    exact (raw_rsetN_self _ _ _).trans (Nat.mod_eq_of_lt hx)
  · have hen := hstop.en
    unfold State.fbit at hen ⊢
    rw [fget_raise_apart _ _ _ _ h8 (.inl hrawcfg.symm), fget_rsetN_ne _ _ _ _ herrcfg.symm, fget_fset_reg _ _ _ _ (dmaCfg_ne_stat ch),
      fget_fset_reg _ _ _ _ (dmaCfg_ne_stat ch)]
    exact hen
  · rw [raise_mem, rsetN_mem, fset_mem, fset_mem, hstop.eq]

/-- A hole of the map answers a bus error. -/
theorem busLoad_hole (s : State) (m : Master) (x n : Nat) (h : regionOf x = .hole) : s.busLoad m x n = (s, .bus) := by
  unfold State.busLoad State.memRead
  rw [h]
  simp

theorem dmaBeat_noSource (s : State) (ch : Fin 8) (hen : s.fbit DMA_CTRL.EN = true) (hup : s.busUp = true) (hnext : s.dmaNext = some ch.val)
    (hsrc : regionOf (s.raw (DMA_SRCn.addr ch)) = .hole) (hmem : s.memst = {}) :
    Does .dmaBeat s fun u => u.fbit (DMA_STATn.ERR ch) = true
        ∧ u.fget (DMA_STATn.CAUSE ch) = 1 ∧ u.raw (DMA_ERRADDRn.addr ch) = s.raw (DMA_SRCn.addr ch) ∧ u.fbit (DMA_CFGn.EN ch) = false
        ∧ u.fget (INT_RAW.bit Pg.DMA (8 + ch)) = 1 ∧ u.mem = s.mem := by
  have e : s.dmaBeat ch = ({ s with dmaLast := ch.val } : State).dmaFail ch 1 (s.raw (DMA_SRCn.addr ch)) := by
    unfold State.dmaBeat
    dsimp only
    rw [if_neg (by simp [hmem]), busLoad_hole _ _ _ _ hsrc]
  have hexec := exec_dmaBeat s ch hen hup hnext
  rw [e] at hexec
  exact ⟨_, hexec, dmaFail_leaves { s with dmaLast := ch.val } ch 1 _ ch.isLt (by decide) (raw_lt s _)⟩

/-! ## A word beat from SRAM to SRAM -/

/-- A word of SRAM, read by a channel. -/
theorem dmaRead_sram (s : State) (ch : Fin 8) (x : Nat) (hup : s.busUp = true) (hr : regionOf x = .sram) (hx : x % 4 = 0) (hm : s.memst = {})
    (ht : s.tst.banks = []) (hq : ∀ q ∈ s.phase.mem, 0x30000000 ≤ q.1) : s.busLoad (.dma ch) x 4 = (s, .ok (s.wordAt x)) := by
  obtain ⟨-, hhi⟩ := sram_bounds hr
  have hecc : s.eccCheck x = (s, false) := by
    unfold State.eccCheck State.eccAt
    rw [hm]
    rfl
  have hword : s.wordAt x = s.shownBytes x 4 := (shownBytes_plain hq 4 x (by omega)).symm
  unfold State.busLoad State.memRead
  rw [hup, hr, hx, underTest_free hr ht, hword]
  unfold State.ramRead
  rw [hecc, hm]
  rfl

/-- `t` is `s` with the word `v` stored at `x` of SRAM: its bank is declared in use (R333). -/
structure SramStored (s t : State) (x v : Nat) : Prop where
  mem : t.mem = (s.setWord x v).mem
  used : bitOf (t.raw SYS_SRAM_USE.addr) (bankOf x) = true
  off : ∀ a, a ≠ SYS_SRAM_USE.addr → t.rget a = s.rget a
  eq : t = { s with mem := t.mem, regs := t.regs, memst := t.memst, phase := t.phase }

theorem fset_memst_only (s : State) (f : Fld) (x : Nat) (g : MemState → MemState) :
    (s.fset f x).setMemst g = { s with regs := (s.fset f x).regs, memst := g s.memst } := rfl

/-- The first write to a bank since it was cleared. -/
theorem ramNote_sram (s : State) (x : Nat) (hr : regionOf x = .sram) (hw : s.memst.written = []) :
    bitOf ((s.ramNote x).raw SYS_SRAM_USE.addr) (bankOf x) = true ∧ (∀ a, a ≠ SYS_SRAM_USE.addr → (s.ramNote x).rget a = s.rget a)
      ∧ s.ramNote x = { s with regs := (s.ramNote x).regs, memst := (s.ramNote x).memst } := by
  obtain ⟨hlo, hhi⟩ := sram_bounds hr
  have hbank : bankOf x < 32 := by
    unfold bankOf
    split <;> omega
  have hnote : s.ramNote x = (s.fset ⟨SYS_SRAM_USE.addr, bankOf x, 1⟩ 1).setMemst fun m => { m with written := bankOf x :: m.written } := by
    unfold State.ramNote
    dsimp only
    rw [if_neg (by simp; omega), if_neg (by simp; omega)]
    exact if_pos (by rw [hw]; simp; omega)
  rw [hnote]
  refine ⟨?_, fun a ha => ?_, fset_memst_only ..⟩
  · refine bitOf_raw _ _ _ ?_
    exact fget_fset_self s ⟨SYS_SRAM_USE.addr, bankOf x, 1⟩ 1 (by simp; omega)
  · exact rget_fset_ne s ⟨SYS_SRAM_USE.addr, bankOf x, 1⟩ 1 a ha

theorem eccFix_only (s : State) (x : Nat) : s.eccFix x = { s with memst := (s.eccFix x).memst } := rfl
theorem eccFix_written (s : State) (x : Nat) : (s.eccFix x).memst.written = s.memst.written := rfl
theorem unhold_only (s : State) (x n : Nat) : s.unhold x n = { s with phase := (s.unhold x n).phase } := rfl

/-- The word put into memory, its bank noted and what the phase holds of it dropped. -/
theorem sramStored_write (s : State) (x v : Nat) (hr : regionOf x = .sram) (hw : s.memst.written = []) :
    SramStored s ((((s.eccFix x).setBytes x 4 v).ramNote x).unhold x 4) x v := by
  have hmem : ((s.eccFix x).setBytes x 4 v).mem = (s.setWord x v).mem := setBytes_mem_congr rfl 4 x v
  have hput := setBytes_eq 4 (s.eccFix x) x v
  have hwritten : ((s.eccFix x).setBytes x 4 v).memst.written = [] := by
    rw [hput]
    exact (eccFix_written s x).trans hw
  have hfix := eccFix_only s x
  obtain ⟨hused, hoff, hnote⟩ := ramNote_sram ((s.eccFix x).setBytes x 4 v) x hr hwritten
  generalize (s.eccFix x).setBytes x 4 v = p at *
  generalize s.eccFix x = e at *
  generalize p.ramNote x = q at *
  refine ⟨?_, hused, fun a ha => ?_, ?_⟩
  · rw [unhold_only, hnote]
    exact hmem
  · refine (hoff a ha).trans ?_
    rw [hput, hfix]
    rfl
  · rw [unhold_only, hnote, hput, hfix]

/-- A word of SRAM, written by a channel. -/
theorem dmaWrite_sram (s : State) (ch : Fin 8) (x v : Nat) (hup : s.busUp = true) (hr : regionOf x = .sram) (hx : x % 4 = 0) (hm : s.memst = {})
    (ht : s.tst.banks = []) : ∃ t, s.busStore (.dma ch) x 4 v = (t, .ok 0) ∧ SramStored s t x v := by
  refine ⟨_, ?_, sramStored_write s x v hr (by rw [hm])⟩
  unfold State.busStore State.memWrite
  rw [hup, hr, hx, underTest_free hr ht]
  unfold State.ramWrite
  rw [hm]
  rfl

/-- A beat that has been moved counts in its burst. -/
theorem dmaBurst_only (s : State) (ch : Nat) : s.dmaBurst ch = { s with regs := (s.dmaBurst ch).regs, dma := (s.dmaBurst ch).dma }
    ∧ ∀ a, a ≠ DMA_STATn.addr ch → (s.dmaBurst ch).rget a = s.rget a := by
  unfold State.dmaBurst
  dsimp only
  split
  · exact ⟨rfl, fun _ _ => rfl⟩
  · split
    · exact ⟨rfl, fun a ha => (rget_dmaPut ..).trans (rget_fset_ne _ _ _ _ ha)⟩
    · exact ⟨rfl, fun a _ => rget_dmaPut ..⟩

/-- The three registers a beat steps, and the two it reads. -/
theorem dmaStepped_apart (ch : Nat) : DMA_SRCn.addr ch ≠ DMA_DSTn.addr ch ∧ DMA_SRCn.addr ch ≠ DMA_CNTn.addr ch ∧ DMA_DSTn.addr ch ≠ DMA_CNTn.addr ch
    ∧ DMA_SRCn.addr ch ≠ DMA_STATn.addr ch ∧ DMA_DSTn.addr ch ≠ DMA_STATn.addr ch ∧ DMA_SRCn.addr ch ≠ DMA_CFGn.addr ch := by
  unfold DMA_SRCn.addr DMA_DSTn.addr DMA_CNTn.addr DMA_STATn.addr DMA_CFGn.addr
  omega
/-- The system's registers lie before them. -/
theorem dmaStepped_ne_use (ch : Nat) : SYS_SRAM_USE.addr ≠ DMA_SRCn.addr ch ∧ SYS_SRAM_USE.addr ≠ DMA_DSTn.addr ch
    ∧ SYS_SRAM_USE.addr ≠ DMA_CNTn.addr ch ∧ SYS_SRAM_USE.addr ≠ DMA_STATn.addr ch ∧ SYS_SRAM_USE.addr ≠ DMA_CFGn.addr ch := by
  unfold SYS_SRAM_USE.addr DMA_SRCn.addr DMA_DSTn.addr DMA_CNTn.addr DMA_STATn.addr DMA_CFGn.addr
  omega

theorem dmaBurst_frame (s : State) (ch a b c x y z : Nat) : (((s.rsetN a x).rsetN b y).rsetN c z).dmaBurst ch
    = { s with regs := ((((s.rsetN a x).rsetN b y).rsetN c z).dmaBurst ch).regs, dma := ((((s.rsetN a x).rsetN b y).rsetN c z).dmaBurst ch).dma } :=
  (dmaBurst_only _ ch).1

/-- A number that fits a word is stored as it is. -/
theorem raw_rsetN_lt (s : State) {a v : Nat} (h : v < 2 ^ 32) : (s.rsetN a v).raw a = v :=
  (raw_rsetN_self s a v).trans (Nat.mod_eq_of_lt h)

/-- A beat before the last one steps the addresses and counts (R351). -/
theorem dmaAdvance_steps (s : State) (ch src dst cnt : Nat) (hcnt : s.raw (DMA_CNTn.addr ch) = cnt) (h2 : 2 ≤ cnt)
    (hsrc : src + 4 < 2 ^ 32) (hdst : dst + 4 < 2 ^ 32) :
    (s.dmaAdvance ch src dst cnt 4).raw (DMA_SRCn.addr ch) = (if s.fbit (DMA_CFGn.SINC ch) then src + 4 else src)
      ∧ (s.dmaAdvance ch src dst cnt 4).raw (DMA_DSTn.addr ch) = (if s.fbit (DMA_CFGn.DINC ch) then dst + 4 else dst)
      ∧ (s.dmaAdvance ch src dst cnt 4).raw (DMA_CNTn.addr ch) = cnt - 1
      ∧ (s.dmaAdvance ch src dst cnt 4).rget SYS_SRAM_USE.addr = s.rget SYS_SRAM_USE.addr
      ∧ s.dmaAdvance ch src dst cnt 4
        = { s with regs := (s.dmaAdvance ch src dst cnt 4).regs, dma := (s.dmaAdvance ch src dst cnt 4).dma } := by
  obtain ⟨hsd, hsc, hdc, hsst, hdst', hscfg⟩ := dmaStepped_apart ch
  obtain ⟨hus, hud, huc, hust, -⟩ := dmaStepped_ne_use ch
  obtain ⟨-, hcst, -, -⟩ := dmaCnt_apart ch
  have hlt : cnt < 2 ^ 32 := hcnt ▸ raw_lt s _
  have hdinc (x : Nat) : (s.rsetN (DMA_SRCn.addr ch) x).fbit (DMA_CFGn.DINC ch) = s.fbit (DMA_CFGn.DINC ch) :=
    congrArg (· != 0) (fget_rsetN_ne s (DMA_SRCn.addr ch) x (DMA_CFGn.DINC ch) hscfg.symm)
  have hstep : s.dmaAdvance ch src dst cnt 4 = (((s.rsetN (DMA_SRCn.addr ch) (if s.fbit (DMA_CFGn.SINC ch) then src + 4 else src)).rsetN
      (DMA_DSTn.addr ch) (if s.fbit (DMA_CFGn.DINC ch) then dst + 4 else dst)).rsetN (DMA_CNTn.addr ch) (cnt - 1)).dmaBurst ch := by
    unfold State.dmaAdvance
    dsimp only
    rw [if_neg (by simp [hcnt]), if_neg (show cnt ≠ 1 by omega), hdinc, Nat.mod_eq_of_lt hsrc, Nat.mod_eq_of_lt hdst]
  have hx : (if s.fbit (DMA_CFGn.SINC ch) then src + 4 else src) < 2 ^ 32 := by split <;> omega
  have hy : (if s.fbit (DMA_CFGn.DINC ch) then dst + 4 else dst) < 2 ^ 32 := by split <;> omega
  generalize (if s.fbit (DMA_CFGn.SINC ch) then src + 4 else src) = x at *
  generalize (if s.fbit (DMA_CFGn.DINC ch) then dst + 4 else dst) = y at *
  rw [hstep]
  have hburst := (dmaBurst_only (((s.rsetN (DMA_SRCn.addr ch) x).rsetN (DMA_DSTn.addr ch) y).rsetN (DMA_CNTn.addr ch) (cnt - 1)) ch).2
  refine ⟨?_, ?_, ?_, ?_, dmaBurst_frame ..⟩
  · refine Eq.trans (congrArg BitVec.toNat ?_) (raw_rsetN_lt s (a := DMA_SRCn.addr ch) hx)
    rw [hburst _ hsst, rget_rsetN_ne _ _ _ _ hsc, rget_rsetN_ne _ _ _ _ hsd]
  · refine Eq.trans (congrArg BitVec.toNat ?_) (raw_rsetN_lt (s.rsetN (DMA_SRCn.addr ch) x) (a := DMA_DSTn.addr ch) hy)
    rw [hburst _ hdst', rget_rsetN_ne _ _ _ _ hdc]
  · exact (congrArg BitVec.toNat (hburst _ hcst)).trans (raw_rsetN_lt _ (by omega))
  · rw [hburst _ hust, rget_rsetN_ne _ _ _ _ huc, rget_rsetN_ne _ _ _ _ hud, rget_rsetN_ne _ _ _ _ hus]

theorem dmaLast_only (s t : State) (k : Nat) (h : t = { ({ s with dmaLast := k } : State) with mem := t.mem, regs := t.regs, memst := t.memst, phase := t.phase }) :
    t.dmaLast = k ∧ t.ntu = s.ntu ∧ t.cad = s.cad := by
  rw [h]
  exact ⟨rfl, rfl, rfl⟩

/-- A word beat copies the word and steps (R351). -/
theorem dmaBeat_moves (s : State) (ch : Fin 8) (hen : s.fbit DMA_CTRL.EN = true) (hup : s.busUp = true) (hnext : s.dmaNext = some ch.val)
    (hsize : s.fget (DMA_CFGn.SIZE ch) = 2) (hsrc : regionOf (s.raw (DMA_SRCn.addr ch)) = .sram) (hdst : regionOf (s.raw (DMA_DSTn.addr ch)) = .sram)
    (hsrc4 : s.raw (DMA_SRCn.addr ch) % 4 = 0) (hdst4 : s.raw (DMA_DSTn.addr ch) % 4 = 0) (hm : s.memst = {}) (ht : s.tst.banks = [])
    (hq : ∀ q ∈ s.phase.mem, 0x30000000 ≤ q.1) (h2 : 2 ≤ s.raw (DMA_CNTn.addr ch)) :
    Does .dmaBeat s fun u => u.wordAt (s.raw (DMA_DSTn.addr ch)) = s.wordAt (s.raw (DMA_SRCn.addr ch))
      ∧ (∀ b, (b < s.raw (DMA_DSTn.addr ch) ∨ s.raw (DMA_DSTn.addr ch) + 4 ≤ b) → u.byteAt b = s.byteAt b)
      ∧ u.raw (DMA_CNTn.addr ch) = s.raw (DMA_CNTn.addr ch) - 1
      ∧ u.raw (DMA_SRCn.addr ch) = (if s.fbit (DMA_CFGn.SINC ch) then s.raw (DMA_SRCn.addr ch) + 4 else s.raw (DMA_SRCn.addr ch))
      ∧ u.raw (DMA_DSTn.addr ch) = (if s.fbit (DMA_CFGn.DINC ch) then s.raw (DMA_DSTn.addr ch) + 4 else s.raw (DMA_DSTn.addr ch))
      ∧ u.dmaLast = ch ∧ bitOf (u.raw SYS_SRAM_USE.addr) (bankOf (s.raw (DMA_DSTn.addr ch))) = true ∧ u.ntu = s.ntu ∧ u.cad = s.cad := by
  have hexec := exec_dmaBeat s ch hen hup hnext
  generalize hx : s.raw (DMA_SRCn.addr ch) = x at *
  generalize hy : s.raw (DMA_DSTn.addr ch) = y at *
  have hread := dmaRead_sram s ch x hup hsrc hsrc4 hm ht hq
  obtain ⟨t, hwrite, hput⟩ := dmaWrite_sram { s with dmaLast := ch.val } ch y (s.wordAt x) hup hdst hdst4 hm ht
  have hbeat : s.dmaBeat ch = t.dmaAdvance ch x y (s.raw (DMA_CNTn.addr ch)) 4 := by
    unfold State.dmaBeat
    dsimp only
    rw [hx, hy, dmaSize_word s ch hsize, if_neg (by simp [hm]), hread]
    dsimp only
    rw [hwrite]
  obtain ⟨hmem, hused, hoff, heq⟩ := hput
  obtain ⟨hlast, hntu, hcad⟩ := dmaLast_only s t ch.val heq
  obtain ⟨-, -, hcuse, -, hcfguse⟩ := dmaStepped_ne_use ch
  obtain ⟨-, hxhi⟩ := sram_bounds hsrc
  obtain ⟨-, hyhi⟩ := sram_bounds hdst
  have hcnt : t.raw (DMA_CNTn.addr ch) = s.raw (DMA_CNTn.addr ch) := congrArg BitVec.toNat (hoff _ hcuse.symm)
  obtain ⟨husrc, hudst, hucnt, huse, hu⟩ := dmaAdvance_steps t ch x y _ hcnt h2 (by omega) (by omega)
  rw [hbeat] at hexec
  generalize t.dmaAdvance ch x y (s.raw (DMA_CNTn.addr ch)) 4 = u at *
  have humem : u.mem = (s.setWord y (s.wordAt x)).mem := by
    rw [hu]
    exact hmem.trans (setBytes_mem_congr rfl 4 y _)
  have hcfg (f : Fld) (hf : f.addr = DMA_CFGn.addr ch) : t.fbit f = s.fbit f :=
    congrArg (· != 0) (fget_of_rget f (hf ▸ hoff _ hcfguse.symm))
  refine ⟨u, hexec, ?_, fun b hb => ?_, hucnt, ?_, ?_, ?_, ?_, ?_, ?_⟩
  · exact (bytesAt_congr humem 4 y).trans (wordAt_setWord s y _ (bytesAt_lt s 4 x))
  · show cellGet memDefault u.mem b = _
    rw [humem]
    exact byteAt_setWord_ne s y _ b hb
  · rw [husrc, hcfg _ rfl]
  · rw [hudst, hcfg _ rfl]
  · rw [hu]
    exact hlast
  · unfold State.raw at hused ⊢
    rw [huse]
    exact hused
  · rw [hu]
    exact hntu
  · rw [hu]
    exact hcad

end Sys2Proof.Machine
end

section
/-!
DMA CHANNELS SETTLED (O41).
-/
namespace Sys2Proof.Machine
open Sys2Proof

/-- Settles O41, clause by clause from `dmaChannelEnable_starts` to `dmaBeat_idle`. -/
theorem dmaChannels : Obligations.DmaChannels :=
  ⟨fun _ _ _ _ ha hn hlen hen hv hcnt => dmaChannelEnable_starts ha hn hlen hen hv hcnt,
    fun _ _ _ _ ha hn _ hen hv hcnt hevt => dmaChannelEnable_done ha hn hen hv hcnt hevt,
    fun _ _ _ _ ha hn hlen hen hv => dmaDisable_stops ha hn hlen hen hv,
    dmaRequest_opens, dmaRequest_ignored,
    fun s ch hen hup hnext hsize =>
      ⟨dmaBeat_moves s ch hen hup hnext hsize, fun hsrc _ hm => dmaBeat_noSource s ch hen hup hnext hsrc hm⟩,
    dmaBeat_idle⟩

end Sys2Proof.Machine
end

section
/-!
THE GAIN LOOPS (O22). One step of the narrow loop, and one clipped interval of a Canopy window: the state after each is written out,
and read field by field (R89, R92, R93).
-/
namespace Sys2Proof.Machine
open Sys2Proof

/-! ## Reading -/

theorem fbit_of_fget_one {s : State} {f : Fld} (h : s.fget f = 1) : s.fbit f = true := by
  unfold State.fbit
  rw [h]
  rfl
theorem fbit_of_fget_zero {s : State} {f : Fld} (h : s.fget f = 0) : s.fbit f = false := by
  unfold State.fbit
  rw [h]
  rfl
theorem fbit_congr {s t : State} {f g : Fld} (h : t.fget g = s.fget f) : t.fbit g = s.fbit f := by
  unfold State.fbit
  rw [h]
theorem fget_fsetB_self (s : State) (f : Fld) (b : Bool) (hf : f.lo + f.width ≤ 32) (hw : 1 < 2 ^ f.width) :
    (s.fsetB f b).fget f = if b then 1 else 0 := by
  unfold State.fsetB
  rw [fget_fset_self s f _ hf, Nat.mod_eq_of_lt (by split <;> omega)]
theorem fget_fsetB_apart (s : State) (f g : Fld) (b : Bool) (hf : f.lo + f.width ≤ 32)
    (h : g.addr ≠ f.addr ∨ g.lo + g.width ≤ f.lo ∨ f.lo + f.width ≤ g.lo) : (s.fsetB f b).fget g = s.fget g :=
  fget_fset_apart s f g _ hf h
@[simp] theorem fget_setRfe (s : State) (f : RfeState → RfeState) (g : Fld) : (s.setRfe f).fget g = s.fget g := rfl

/-! ## The narrow loop (R89) -/

/-- The gain that R89 wishes for after a window of power `p`. -/
def State.narrowWish (s : State) (p : Int) : Nat :=
  if s.fgetI AGC_NB_CFG.TGT < p then s.fget AGC_NB_GAIN.CUR - 1
  else if p < s.fgetI AGC_NB_CFG.TGT - 6 then min 11 (s.fget AGC_NB_GAIN.CUR + 1) else s.fget AGC_NB_GAIN.CUR

theorem narrowWish_lt (s : State) (p : Int) : s.narrowWish p < 16 := by
  have hg : s.fget AGC_NB_GAIN.CUR < 16 := fget_lt s AGC_NB_GAIN.CUR
  unfold State.narrowWish
  split
  · omega
  · split <;> omega

/-- The gain within the limits of the narrow loop. -/
def State.narrowClamp (s : State) (g : Nat) : Nat :=
  clampN (idx (s.fget AGC_NB_LIM.LIMIT_LO)) (max (idx (s.fget AGC_NB_LIM.LIMIT_LO)) (idx (s.fget AGC_NB_LIM.LIMIT_HI))) g

theorem narrowClamp_lt (s : State) (g : Nat) : s.narrowClamp g < 16 := by
  refine lt_of_le_of_lt (clampN_le _ _ _ (le_max_left ..)) ?_
  unfold idx
  omega

/-- The narrow gain does not move. -/
def State.narrowHeld (s : State) : Bool := s.fbit AGC_CTRL.NB_HOLD || !s.fbit AGC_CTRL.EN

/-- What a measurement window of power `p` leaves: the wish is shown, and the gain moves to it unless held. -/
def State.narrowMoved (s : State) (p : Int) : State :=
  if s.narrowHeld then s.fset AGC_NB_GAIN.WANT (s.narrowWish p)
  else (s.fset AGC_NB_GAIN.WANT (s.narrowWish p)).fset AGC_NB_GAIN.CUR (s.narrowClamp (s.narrowWish p))

theorem narrowMoved_reads (s : State) (p : Int) : (s.narrowMoved p).fget AGC_NB_GAIN.WANT = s.narrowWish p
    ∧ (s.narrowMoved p).fget AGC_NB_GAIN.CUR = (if s.narrowHeld then s.fget AGC_NB_GAIN.CUR else s.narrowClamp (s.narrowWish p))
    ∧ PagesOnly [Pg.AGC] s (s.narrowMoved p) := by
  have hwish : (s.fset AGC_NB_GAIN.WANT (s.narrowWish p)).fget AGC_NB_GAIN.WANT = s.narrowWish p :=
    (fget_fset_self _ _ _ (by decide)).trans (Nat.mod_eq_of_lt (narrowWish_lt s p))
  have hpages : PagesOnly [Pg.AGC] s (s.fset AGC_NB_GAIN.WANT (s.narrowWish p)) := pagesOnly_fset (pagesOnly_refl _ s) _ _ (by decide)
  unfold State.narrowMoved
  split
  · exact ⟨hwish, fget_fset_apart _ _ _ _ (by decide) (by decide), hpages⟩
  · exact ⟨(fget_fset_apart _ _ _ _ (by decide) (by decide)).trans hwish,
      (fget_fset_self _ _ _ (by decide)).trans (Nat.mod_eq_of_lt (narrowClamp_lt s _)), pagesOnly_fset hpages _ _ (by decide)⟩

theorem narrowAgcStep_moves (s : State) (p : Int) (sl : Slot) (hw : s.rfe.window = true) (hs : s.slot = some sl) (hc : sl.canopy = false)
    (hl : s.fget (LANE_STAT.STATE 0) = 1) (hf : s.fbit AGC_STAT.NB_FROZEN = false) :
    Does (.narrowAgcStep p) s fun u => u.fget AGC_NB_GAIN.WANT = s.narrowWish p
      ∧ u.fget AGC_NB_GAIN.CUR = (if s.narrowHeld then s.fget AGC_NB_GAIN.CUR else s.narrowClamp (s.narrowWish p))
      ∧ PagesOnly [Pg.AGC] s u := by
  have hheld : (s.fset AGC_NB_GAIN.WANT (s.narrowWish p)).narrowHeld = s.narrowHeld := by
    unfold State.narrowHeld State.fbit
    rw [fget_fset_reg _ _ _ _ (by decide), fget_fset_reg _ _ _ _ (by decide)]
  refine ⟨s.narrowMoved p, ?_, narrowMoved_reads s p⟩
  show execNarrowAgcStep p s = _
  unfold execNarrowAgcStep
  rw [hw, hs, hl, hf]
  dsimp only
  rw [hc, if_pos (by decide)]
  change Host.Outcome.next (if (s.fset AGC_NB_GAIN.WANT (s.narrowWish p)).narrowHeld then _ else _) = _
  rw [hheld]
  rfl

/-! ## A clipped interval (R92, R93) -/

/-- A back-off lowers the gain by one, and writes no other field. -/
theorem fget_canopyBackOff_cur (s : State) : s.canopyBackOff.fget AGC_CNP_GAIN.CUR = s.fget AGC_CNP_GAIN.CUR - 1 := by
  have hg : s.fget AGC_CNP_GAIN.CUR < 16 := fget_lt s AGC_CNP_GAIN.CUR
  refine (fget_fset_self s AGC_CNP_GAIN.CUR _ (by decide)).trans (Nat.mod_eq_of_lt ?_)
  show _ < 16
  omega
theorem fget_canopyBackOff (s : State) (g : Fld) (h : g.addr ≠ AGC_CNP_GAIN.addr) : s.canopyBackOff.fget g = s.fget g :=
  fget_fset_reg s AGC_CNP_GAIN.CUR g _ h

/-- What a back-off makes of a lane in the state `st` (R93, R95). -/
def Lane.backedOff (l : Lane) (st : Nat) : Lane :=
  if st = 3 then { l with disturbed := true } else if st = 1 || st = 2 then { l with dgain := l.dgain + 6 } else l

/-- The registers of the lanes come after those of AGC. -/
theorem laneStat_ne (n : Nat) {a : Nat} (h : a < 0x40009000) : (LANE_STAT.STATE n).addr ≠ a := by
  show 0x40009008 + 0x1000 * n ≠ a
  omega
theorem lane_canopyBackOff (s : State) {n : Nat} (hn : n < 16) : s.canopyBackOff.lane n = (s.lane n).backedOff (s.laneSt n) := by
  have hst : (s.fset AGC_CNP_GAIN.CUR (s.fget AGC_CNP_GAIN.CUR - 1)).laneSt n = s.laneSt n :=
    fget_fset_reg _ _ _ _ (laneStat_ne n (by decide))
  rw [← hst, State.lane, State.canopyBackOff]
  dsimp only
  rw [List.getElem?_map, List.getElem?_range hn]
  rfl

/-- A clipped interval is shown and counted. -/
def State.clipCounted (s : State) : State := (s.fsetB AGC_STAT.CLIP_NOW true).finc AGC_CLIP_CNT.CNT
/-- The back-off that follows it, before its event. -/
def State.clipBackedOff (s : State) : State := (s.clipCounted.canopyBackOff.setRfe fun r => { r with clipRun := 0 }).raise Pg.AGC 1

theorem fget_clipCounted (s : State) (g : Fld) (hstat : g.addr ≠ AGC_STAT.addr) (hcnt : g.addr ≠ AGC_CLIP_CNT.addr) :
    s.clipCounted.fget g = s.fget g :=
  (fget_fset_reg _ _ _ _ hcnt).trans (fget_fset_reg _ _ _ _ hstat)

theorem regsOff_clipBackedOff (s : State) : RegsOff (onPages [Pg.AGC]) s s.clipBackedOff := by
  have h : RegsOff (onPages [Pg.AGC]) s s.clipCounted :=
    regsOff_fset (regsOff_fset (fun _ _ => rfl) AGC_STAT.CLIP_NOW 1 (by decide)) AGC_CLIP_CNT.CNT _ (by decide)
  have hback : RegsOff (onPages [Pg.AGC]) s (s.clipCounted.canopyBackOff.setRfe fun r => { r with clipRun := 0 }) :=
    regsOff_fset h AGC_CNP_GAIN.CUR _ (by decide)
  exact regsOff_fset hback _ 1 (by decide)

theorem exec_clipInterval {s : State} {n : Nat} {sl : Slot} (hw : s.rfe.window = true) (ha : s.rfe.ackSpan = false)
    (ht : s.rfe.spanTail = false) (hs : s.slot = some sl) (hk : sl.kind = .rx) (hc : sl.canopy = true)
    (hn : clampN 1 102 (s.fget AGC_CNP_CFG.CLIP_THR) ≤ n) (hlo : min 11 (s.fget AGC_CNP_LIM.LIMIT_LO) < s.fget AGC_CNP_GAIN.CUR)
    (hh : s.fbit AGC_CTRL.CNP_HOLD = false) (he : s.fbit AGC_CTRL.EN = true) :
    exec (.clipInterval n) s = .next (s.clipBackedOff.event Pg.AGC 1 30) := by
  have hread (g : Fld) (hstat : g.addr ≠ AGC_STAT.addr) (hcnt : g.addr ≠ AGC_CLIP_CNT.addr) :
      ((s.fsetB AGC_STAT.CLIP_NOW true).finc AGC_CLIP_CNT.CNT).fget g = s.fget g := fget_clipCounted s g hstat hcnt
  have hmoves : (decide (idx (s.fget AGC_CNP_LIM.LIMIT_LO) < s.fget AGC_CNP_GAIN.CUR)
      && !(s.fbit AGC_CTRL.CNP_HOLD || !s.fbit AGC_CTRL.EN)) = true := by
    rw [hh, he, Bool.and_eq_true]
    exact ⟨decide_eq_true hlo, rfl⟩
  show execClipInterval n s = _
  unfold execClipInterval
  rw [hw, ha, ht, hs, decide_eq_true hn]
  dsimp only
  rw [hk, hc, if_neg (by decide), if_pos (by decide), if_neg (by decide)]
  unfold State.fbit at hmoves ⊢
  rw [hread _ (by decide) (by decide), hread _ (by decide) (by decide), hread _ (by decide) (by decide), hread _ (by decide) (by decide),
    if_pos hmoves]
  rfl

theorem clipInterval_backsOff (s : State) (n : Nat) (sl : Slot) (hw : s.rfe.window = true) (ha : s.rfe.ackSpan = false)
    (ht : s.rfe.spanTail = false) (hs : s.slot = some sl) (hk : sl.kind = .rx) (hc : sl.canopy = true)
    (hn : clampN 1 102 (s.fget AGC_CNP_CFG.CLIP_THR) ≤ n) (hlo : min 11 (s.fget AGC_CNP_LIM.LIMIT_LO) < s.fget AGC_CNP_GAIN.CUR)
    (hh : s.fbit AGC_CTRL.CNP_HOLD = false) (he : s.fbit AGC_CTRL.EN = true) :
    Does (.clipInterval n) s fun u => u.fget AGC_CNP_GAIN.CUR = s.fget AGC_CNP_GAIN.CUR - 1 ∧ u.fbit AGC_STAT.CLIP_NOW = true
      ∧ (∀ l, l < 16 → (s.laneSt l = 3 → (u.lane l).disturbed = true) ∧ (s.laneSt l = 1 ∨ s.laneSt l = 2 → (u.lane l).dgain = (s.lane l).dgain + 6))
      ∧ u.fget AGC_CLIP_CNT.CNT = min (2 ^ AGC_CLIP_CNT.CNT.width - 1) (s.fget AGC_CLIP_CNT.CNT + 1)
      ∧ ∃ m, m = { s with regs := m.regs, rfe := { s.rfe with clipRun := 0, backoffs := s.rfe.backoffs + 1 }, lanes := m.lanes }
        ∧ AfterEvents [Pg.AGC] s m u := by
  refine ⟨_, exec_clipInterval hw ha ht hs hk hc hn hlo hh he, ?_, ?_, ?_, ?_, s.clipBackedOff, rfl, regsOff_clipBackedOff s,
    event_only _ _ _ _⟩
  · rw [fget_event _ _ _ _ _ (by decide), State.clipBackedOff, fget_raise_apart _ _ _ _ (by decide) (by decide), fget_setRfe,
      fget_canopyBackOff_cur, fget_clipCounted _ _ (by decide) (by decide)]
  · refine fbit_of_fget_one ?_
    rw [fget_event _ _ _ _ _ (by decide), State.clipBackedOff, fget_raise_apart _ _ _ _ (by decide) (by decide), fget_setRfe,
      fget_canopyBackOff _ _ (by decide), State.clipCounted, fget_finc_apart _ _ _ (by decide) (by decide)]
    exact fget_fsetB_self _ _ _ (by decide) (by decide)
  · intro l hl
    have hst : s.clipCounted.laneSt l = s.laneSt l :=
      fget_clipCounted s _ (laneStat_ne l (by decide)) (laneStat_ne l (by decide))
    have hlane : (s.clipBackedOff.event Pg.AGC 1 30).lane l = (s.lane l).backedOff (s.laneSt l) := by
      unfold State.lane
      rw [(event_only s.clipBackedOff Pg.AGC 1 30).eq]
      exact (lane_canopyBackOff s.clipCounted hl).trans (by rw [hst]; rfl)
    rw [hlane]
    unfold Lane.backedOff
    constructor
    · intro h3
      rw [if_pos h3]
    · intro h12
      rw [if_neg (by omega), if_pos (by simpa using h12)]
  · rw [fget_event _ _ _ _ _ (by decide), State.clipBackedOff, fget_raise_apart _ _ _ _ (by decide) (by decide), fget_setRfe,
      fget_canopyBackOff _ _ (by decide), State.clipCounted, fget_finc _ _ (by decide), fget_fsetB_apart _ _ _ _ (by decide) (by decide)]

/-- Settles O22, by `narrowAgcStep_moves` and `clipInterval_backsOff`. -/
theorem gainLoops : Obligations.GainLoops :=
  ⟨fun s p sl hw hs hc hl hf => narrowAgcStep_moves s p sl hw hs hc hl hf,
    fun s n sl hw ha ht hs hk hc hn hlo hh he => clipInterval_backsOff s n sl hw ha ht hs hk hc hn hlo hh he⟩

end Sys2Proof.Machine
end

section
/-!
CALIBRATIONS (O23). Pending work is a set of bits; what the start of an item may change is said once (`workNext_only`), so that each
command is read at the state before it (R98 to R102).
-/
namespace Sys2Proof.Machine
open Sys2Proof

/-! ## Bits of a field -/

theorem bitOf_eq_testBit (v n : Nat) : bitOf v n = v.testBit n := by
  simp [bitOf, Nat.testBit_eq_decide_div_mod_eq, Bool.beq_eq_decide_eq]
theorem bitOf_fieldGet (v : Nat) (f : Fld) {n : Nat} (hn : n < f.width) : bitOf (fieldGet v f) n = bitOf v (f.lo + n) := by
  rw [bitOf_eq_testBit, bitOf_eq_testBit, fieldGet_eq_extract, decide_eq_true hn, Bool.true_and]
theorem bitOf_iff_fieldGet (v a n : Nat) : bitOf v n = true ↔ fieldGet v ⟨a, n, 1⟩ = 1 := by
  simp [bitOf, fieldGet]
theorem mem_onesOf {w v n : Nat} : n ∈ onesOf w v ↔ n < w ∧ bitOf v n = true := by simp [onesOf]

/-! ## What is pending (R99) -/

/-- PEND of one calibration. -/
abbrev pendBit (b : Nat) : Fld := ⟨RFE_CAL_STAT.addr, 8 + b, 1⟩

/-- A bit of the calibrations' status reads as written, and the others stand. -/
theorem fget_calBit_self (s : State) (x : Nat) {n : Nat} (hn : n < 32) :
    (s.fset ⟨RFE_CAL_STAT.addr, n, 1⟩ x).fget ⟨RFE_CAL_STAT.addr, n, 1⟩ = x % 2 := fget_fset_self s _ x hn
theorem fget_calBit_ne (s : State) (x : Nat) {m n : Nat} (hn : n < 32) (h : m ≠ n) :
    (s.fset ⟨RFE_CAL_STAT.addr, n, 1⟩ x).fget ⟨RFE_CAL_STAT.addr, m, 1⟩ = s.fget ⟨RFE_CAL_STAT.addr, m, 1⟩ :=
  fget_fset_apart s _ _ x hn (.inr (by dsimp only; omega))

theorem bitOf_pend_iff (s : State) {b : Nat} (hb : b < 8) : bitOf (s.fget RFE_CAL_STAT.PEND) b = true ↔ s.fget (pendBit b) = 1 := by
  unfold State.fget
  rw [bitOf_fieldGet _ _ hb]
  exact bitOf_iff_fieldGet _ _ _
theorem mem_workPending_cal (s : State) {b : Nat} (hb : b < 8) : b ∈ s.workPending ↔ s.fget (pendBit b) = 1 := by
  have hother (c : Bool) (k : Nat) (hk : 8 ≤ k) : b ∉ (if c then [k] else []) := by
    split
    · rw [List.mem_singleton]
      omega
    · exact List.not_mem_nil
  rw [← bitOf_pend_iff s hb, State.workPending, List.mem_append, List.mem_append, mem_onesOf]
  simp [hother, hb]
theorem mem_workPending_mask {s : State} (h : s.fbit TXM_MCHK_REQ.PEND = true) : 8 ∈ s.workPending := by
  simp [State.workPending, h]
theorem mem_workPending_capture {s : State} (h : s.fbit TST_CAP_REQ.PEND = true) : 9 ∈ s.workPending := by
  simp [State.workPending, h]

/-! ## The start of an item -/

/-- Fields that the start of an item writes. -/
def workFlds : List Fld := [RFE_STAT.CAL_RUN, TXM_STAT.MCHK_RUN, RFE_SYN_CUR.FREQ, AGC_CNP_GAIN.CUR]

/-- Two fields share no bit. -/
abbrev Fld.Apart (f g : Fld) : Prop := g.addr ≠ f.addr ∨ g.lo + g.width ≤ f.lo ∨ f.lo + f.width ≤ g.lo

/-- `t` is `s` but for the item that runs, and what its start writes. -/
structure WorkOnly (s t : State) : Prop where
  eq : t = { s with regs := t.regs, rfe := { s.rfe with running := t.rfe.running } }
  fld : ∀ g : Fld, (∀ f ∈ workFlds, f.Apart g) → t.fget g = s.fget g

theorem WorkOnly.refl (s : State) : WorkOnly s s := ⟨rfl, fun _ _ => rfl⟩
theorem WorkOnly.fset {s t : State} (h : WorkOnly s t) {f : Fld} (x : Nat) (hf : f ∈ workFlds) : WorkOnly s (t.fset f x) := by
  have hw : ∀ f ∈ workFlds, f.lo + f.width ≤ 32 := by decide
  exact ⟨congrArg (·.fset f x) h.eq, fun g hg => (fget_fset_apart t f g x (hw f hf) (hg f hf)).trans (h.fld g hg)⟩

theorem workStart_only (s : State) (i : Nat) : WorkOnly s (s.workStart i) ∧ (s.workStart i).rfe.running = some i := by
  have h : WorkOnly s { s with rfe := { s.rfe with running := some i } } := ⟨rfl, fun _ _ => rfl⟩
  unfold State.workStart
  dsimp only
  split
  · exact ⟨h.fset _ (by decide), rfl⟩
  · split
    · exact ⟨h.fset _ (by decide), rfl⟩
    · exact ⟨(h.fset _ (by decide)).fset _ (by decide), rfl⟩

/-- Nothing starts, or a pending item does. -/
theorem workNext_cases (s : State) (after : Option Nat) :
    s.workNext after = s ∨ ∃ i ∈ s.workPending, s.workNext after = s.workStart i := by
  unfold State.workNext
  split
  · exact .inl rfl
  · split
    · split
      next i l hl => exact .inr ⟨i, hl ▸ List.mem_cons_self, rfl⟩
      · exact .inl rfl
    · split
      · exact .inl rfl
      · dsimp only
        split
        next i hi =>
          refine .inr ⟨i, ?_, rfl⟩
          have hmem := List.mem_of_find?_eq_some hi
          cases after with
          | none => exact hmem
          | some k => exact (List.mem_filter.1 hmem).1
        · exact .inl rfl

theorem workNext_only (s : State) (after : Option Nat) : WorkOnly s (s.workNext after) := by
  rcases workNext_cases s after with h | ⟨i, -, h⟩
  · rw [h]
    exact .refl s
  · rw [h]
    exact (workStart_only s i).1

/-- No item starts that is not pending. -/
theorem workNext_running {s : State} {b : Nat} (after : Option Nat) (hr : s.rfe.running ≠ some b) (hb : b ∉ s.workPending) :
    (s.workNext after).rfe.running ≠ some b := by
  rcases workNext_cases s after with h | ⟨i, hi, h⟩
  · rw [h]
    exact hr
  · rw [h, (workStart_only s i).2]
    rintro ⟨⟩
    exact hb hi

/-- The status of the calibrations is none of these fields. -/
theorem calStat_apart (lo w : Nat) : ∀ f ∈ workFlds, f.Apart ⟨RFE_CAL_STAT.addr, lo, w⟩ := by
  have h : ∀ f ∈ workFlds, RFE_CAL_STAT.addr ≠ f.addr := by decide
  exact fun f hf => .inl (h f hf)

/-! ## Requests (R99) -/

/-- The calibrations of a list become pending. -/
def State.pendAll (s : State) (l : List Nat) : State := l.foldl (fun s b => s.fset (pendBit b) 1) s

theorem fget_pendAll_reg (s : State) (l : List Nat) (g : Fld) (hg : g.addr ≠ RFE_CAL_STAT.addr) : (s.pendAll l).fget g = s.fget g := by
  induction l generalizing s with
  | nil => rfl
  | cons b l ih => exact (ih _).trans (fget_fset_reg s (pendBit b) g 1 hg)

theorem fget_pendAll_pend {s : State} {l : List Nat} {b : Nat} (hl : ∀ c ∈ l, c < 8) (h : b ∈ l ∨ s.fget (pendBit b) = 1) :
    (s.pendAll l).fget (pendBit b) = 1 := by
  induction l generalizing s with
  | nil => exact h.resolve_left (List.not_mem_nil)
  | cons c l ih =>
    have hc : 8 + c < 32 := by
      have := hl c List.mem_cons_self
      omega
    refine ih (s := s.fset (pendBit c) 1) (fun d hd => hl d (List.mem_cons_of_mem _ hd)) ?_
    by_cases hbc : b = c
    · subst hbc
      exact .inr (fget_calBit_self s 1 hc)
    · refine (h.imp_left fun hb => (List.mem_cons.1 hb).resolve_left hbc).imp_right fun hb => ?_
      exact (fget_calBit_ne s 1 hc (by omega)).trans hb

/-- The calibrations of a request that are not pending yet. -/
def State.freshOf (s : State) (bits : Nat) : List Nat := (onesOf 8 bits).filter fun b => !bitOf (s.fget RFE_CAL_STAT.PEND) b

theorem calRequest_eq (s : State) (bits : Nat) :
    s.calRequest bits = ((s.pendAll (s.freshOf bits)).workAge (s.freshOf bits)).workNext none := rfl

theorem calRequest_pends (s : State) (bits : Nat) {b : Nat} (hb : b < 8) (h : bitOf bits b = true) :
    (s.calRequest bits).fget (pendBit b) = 1 := by
  rw [calRequest_eq, (workNext_only _ none).fld _ (calStat_apart _ _)]
  refine fget_pendAll_pend (fun c hc => (mem_onesOf.1 (List.mem_filter.1 hc).1).1) ?_
  by_cases hp : bitOf (s.fget RFE_CAL_STAT.PEND) b = true
  · exact .inr ((bitOf_pend_iff s hb).1 hp)
  · exact .inl (List.mem_filter.2 ⟨mem_onesOf.2 ⟨hb, h⟩, by simpa using hp⟩)

theorem fget_calRequest (s : State) (bits : Nat) (g : Fld) (hg : g.addr ≠ RFE_CAL_STAT.addr) (hw : ∀ f ∈ workFlds, f.Apart g) :
    (s.calRequest bits).fget g = s.fget g := by
  rw [calRequest_eq, (workNext_only _ none).fld g hw]
  exact fget_pendAll_reg s _ g hg

theorem rfeHook_calReq (w : WCtx) (s : State) (h : w.off = 0x054) :
    rfeHook w s = (s.fset RFE_CAL_REQ.REQ 0).calRequest (fieldGet w.ones RFE_CAL_REQ.REQ) := by
  unfold rfeHook
  rw [h]
  rfl

theorem rfeCalReq_pends (s : State) (a : Acc) (v : Word) (b : Nat) (ha : Accepted s a RFE_CAL_REQ.addr)
    (hview : a.view = .base ∨ a.view = .set) (hb : b < 8) (hv : bitOf v.toNat b = true) :
    Does (.rfeCalReq a v) s fun u => u.fget (pendBit b) = 1 := by
  obtain ⟨d, hd, hw1s⟩ : ∃ d, descOf RFE_CAL_REQ.addr = some d ∧ d.w1s = 0xFF#32 := ⟨_, rfl, by decide⟩
  have hwrite := writeReg_ok rfeHook s a RFE_CAL_REQ.addr v d ha (by decide +kernel) hd
  rw [rfeHook_calReq _ _ rfl] at hwrite
  refine ⟨_, congrArg Host.Outcome.next hwrite, calRequest_pends _ _ hb ?_⟩
  have hones : (wctxOf s a RFE_CAL_REQ.addr d v).ones = (v &&& 0xFF#32).toNat := by
    rcases hview with h | h <;> simp [wctxOf, h, hw1s]
  have hmask : (0xFF#32).getLsbD b = true := by interval_cases b <;> rfl
  rw [bitOf_eq_testBit, BitVec.testBit_toNat] at hv
  rw [hones, bitOf_fieldGet _ _ hb, show RFE_CAL_REQ.REQ.lo + b = b from Nat.zero_add b, bitOf_eq_testBit, BitVec.testBit_toNat,
    BitVec.getLsbD_and, hv, hmask]
  rfl

/-! ## The die temperature (R102) -/

/-- The temperature is published. -/
def State.tempShown (s : State) (temp : BitVec 8) : State := (s.fset TST_TEMP.T temp.toNat).fset RFE_CAL_TEMP.T_NOW temp.toNat
/-- A drift that requests calibrations. -/
def State.drifts (s : State) (temp : BitVec 8) : Bool :=
  s.fbit RFE_CTRL.TEMP_AUTO && !s.fbit RFE_STAT.CAL_STALE
    && decide (max 1 (s.fget RFE_CAL_CFG.TEMP_DELTA) ≤ (temp.toInt - s.fgetI RFE_CAL_TEMP.T_CAL).natAbs)
/-- The calibrations that the drift requests. -/
def State.driftNoted (s : State) : State := ((s.fset RFE_STAT.CAL_STALE 1).raise Pg.RFE 4).calRequest 0b00011001

theorem fget_tempShown_now (s : State) (temp : BitVec 8) : (s.tempShown temp).fget RFE_CAL_TEMP.T_NOW = temp.toNat :=
  (fget_fset_self _ _ _ (by decide)).trans (Nat.mod_eq_of_lt temp.isLt)
theorem fget_tempShown_die (s : State) (temp : BitVec 8) : (s.tempShown temp).fget TST_TEMP.T = temp.toNat :=
  (fget_fset_reg _ _ _ _ (by decide)).trans ((fget_fset_self _ _ _ (by decide)).trans (Nat.mod_eq_of_lt temp.isLt))
theorem fget_tempShown_apart (s : State) (temp : BitVec 8) (g : Fld) (hg : RFE_CAL_TEMP.T_NOW.Apart g) (ht : g.addr ≠ TST_TEMP.addr) :
    (s.tempShown temp).fget g = s.fget g :=
  (fget_fset_apart _ _ _ _ (by decide) hg).trans (fget_fset_reg _ _ _ _ ht)

theorem exec_tempUpdate (s : State) (temp : BitVec 8) :
    exec (.tempUpdate temp) s = .next (if s.drifts temp then (s.tempShown temp).driftNoted else s.tempShown temp) := by
  have hnow : (s.tempShown temp).fgetI RFE_CAL_TEMP.T_NOW = temp.toInt := by
    unfold State.fgetI
    rw [fget_tempShown_now]
    exact signed_toNat temp (by decide)
  have hdrift : s.drifts temp = ((s.tempShown temp).fbit RFE_CTRL.TEMP_AUTO && !(s.tempShown temp).fbit RFE_STAT.CAL_STALE
      && decide (max 1 ((s.tempShown temp).fget RFE_CAL_CFG.TEMP_DELTA)
        ≤ ((s.tempShown temp).fgetI RFE_CAL_TEMP.T_NOW - (s.tempShown temp).fgetI RFE_CAL_TEMP.T_CAL).natAbs)) := by
    rw [hnow]
    unfold State.fbit State.fgetI
    rw [fget_tempShown_apart _ _ _ (by decide) (by decide), fget_tempShown_apart _ _ _ (by decide) (by decide),
      fget_tempShown_apart _ _ _ (by decide) (by decide), fget_tempShown_apart _ _ _ (by decide) (by decide)]
    rfl
  rw [hdrift, apply_ite Host.Outcome.next]
  rfl

theorem driftNoted_leaves (s : State) : s.driftNoted.fbit RFE_STAT.CAL_STALE = true
    ∧ (∀ b, b < 8 → bitOf 0b00011001 b = true → s.driftNoted.fget (pendBit b) = 1)
    ∧ s.driftNoted.fget RFE_CAL_TEMP.T_NOW = s.fget RFE_CAL_TEMP.T_NOW ∧ s.driftNoted.fget TST_TEMP.T = s.fget TST_TEMP.T := by
  unfold State.driftNoted
  refine ⟨fbit_of_fget_one ?_, fun b hb h => calRequest_pends _ _ hb h, ?_, ?_⟩
  · rw [fget_calRequest _ _ _ (by decide) (by decide), fget_raise_apart _ _ _ _ (by decide) (by decide)]
    exact fget_fset_self _ _ _ (by decide)
  · rw [fget_calRequest _ _ _ (by decide) (by decide), fget_raise_apart _ _ _ _ (by decide) (by decide), fget_fset_reg _ _ _ _ (by decide)]
  · rw [fget_calRequest _ _ _ (by decide) (by decide), fget_raise_apart _ _ _ _ (by decide) (by decide), fget_fset_reg _ _ _ _ (by decide)]

theorem tempUpdate_publishes (s : State) (temp : BitVec 8) :
    Does (.tempUpdate temp) s fun u => u.fget RFE_CAL_TEMP.T_NOW = temp.toNat ∧ u.fget TST_TEMP.T = temp.toNat := by
  refine ⟨_, exec_tempUpdate s temp, ?_⟩
  split
  · obtain ⟨-, -, hnow, hdie⟩ := driftNoted_leaves (s.tempShown temp)
    exact ⟨hnow.trans (fget_tempShown_now s temp), hdie.trans (fget_tempShown_die s temp)⟩
  · exact ⟨fget_tempShown_now s temp, fget_tempShown_die s temp⟩

/-- A drift is noted once, until VCO_BAND completes. -/
theorem tempUpdate_stale (s : State) (temp : BitVec 8) (h : s.fbit RFE_STAT.CAL_STALE = true) :
    Does (.tempUpdate temp) s fun u => u.raw RFE_CAL_STAT.addr = s.raw RFE_CAL_STAT.addr ∧ u.fbit RFE_STAT.CAL_STALE = true := by
  have hn : s.drifts temp = false := by
    unfold State.drifts
    rw [h, Bool.not_true, Bool.and_false]
    rfl
  have hexec := exec_tempUpdate s temp
  rw [hn, if_neg Bool.false_ne_true] at hexec
  refine ⟨_, hexec, congrArg BitVec.toNat ?_, (fbit_congr (fget_tempShown_apart s temp _ (by decide) (by decide))).trans h⟩
  exact (rget_fset_ne _ _ _ _ (by decide)).trans (rget_fset_ne _ _ _ _ (by decide))

theorem tempUpdate_requests (s : State) (temp : BitVec 8) (ha : s.fbit RFE_CTRL.TEMP_AUTO = true)
    (hs : s.fbit RFE_STAT.CAL_STALE = false)
    (hd : max 1 (s.fget RFE_CAL_CFG.TEMP_DELTA) ≤ (temp.toInt - s.fgetI RFE_CAL_TEMP.T_CAL).natAbs) :
    Does (.tempUpdate temp) s fun u => u.fbit RFE_STAT.CAL_STALE = true
      ∧ u.fget (pendBit 0) = 1 ∧ u.fget (pendBit 3) = 1 ∧ u.fget (pendBit 4) = 1 := by
  have hexec := exec_tempUpdate s temp
  obtain ⟨hstale, hpend, -, -⟩ := driftNoted_leaves (s.tempShown temp)
  rw [State.drifts, ha, hs, decide_eq_true hd, if_pos (by decide)] at hexec
  exact ⟨_, hexec, hstale, hpend 0 (by decide) (by decide), hpend 3 (by decide) (by decide), hpend 4 (by decide) (by decide)⟩

/-! ## A Clearing's work (R99) -/

theorem clearingWorkStart_limits (s : State) (t : Frc) (sl : Slot) (hs : s.slot = some sl) (hk : sl.kind = .clearing)
    (hl : sl.tail = false) (ht : sl.tickNt + 1920 ≤ (s.advance t).nt) :
    Does (.clearingWorkStart t) s fun u =>
      u.rfe.clearingEnd = some ((s.advance t).frcN + (sl.tickNt + s.slotLen - us s.tmpl.tailMin - (s.advance t).nt)) ∧ u.slot = s.slot
      ∧ u.mem = s.mem := by
  have hlen : (s.advance t).slotLen = s.slotLen := by
    unfold State.slotLen
    rw [fget_advance]
  have htail : (s.advance t).tmpl = s.tmpl := by
    unfold State.tmpl
    simp only [fget_advance]
  have hslot := (advance_slot s t).trans hs
  have hmem := advance_mem s t
  have hat : (s.advance t).atOffset sl 60 = true := decide_eq_true ht
  rw [← hlen, ← htail, ← advance_slot s t, ← hmem]
  have hexec : exec (.clearingWorkStart t) s = .next (({ s.advance t with rfe := { (s.advance t).rfe with
      clearingEnd := some ((s.advance t).frcN + (sl.tickNt + (s.advance t).slotLen - us (s.advance t).tmpl.tailMin - (s.advance t).nt)) } }
        : State).workNext none) := by
    show execClearingWorkStart t s = _
    unfold execClearingWorkStart
    dsimp only
    rw [hslot]
    dsimp only
    rw [hk, hl, hat, if_pos (by decide)]
  refine ⟨_, hexec, ?_⟩
  rw [(workNext_only _ none).eq]
  exact ⟨rfl, rfl, rfl⟩

/-! ## The end of a calibration (R101, R102) -/

/-- A calibration's end as RFE_CAL_STAT shows it: PEND is clear, and VALID or FAIL set. -/
def State.calShown (s : State) (b : Nat) (ok : Bool) : State :=
  if ok then (s.fset (pendBit b) 0).fset ⟨RFE_CAL_STAT.addr, b, 1⟩ 1 else (s.fset (pendBit b) 0).fset ⟨RFE_CAL_STAT.addr, 24 + b, 1⟩ 1

theorem calShown_reads (s : State) {b : Nat} (hb : b < 8) (ok : Bool) : (s.calShown b ok).fget (pendBit b) = 0
    ∧ (s.calShown b ok).fget ⟨RFE_CAL_STAT.addr, b, 1⟩ = (if ok then 1 else s.fget ⟨RFE_CAL_STAT.addr, b, 1⟩)
    ∧ (s.calShown b ok).fget ⟨RFE_CAL_STAT.addr, 24 + b, 1⟩ = (if ok then s.fget ⟨RFE_CAL_STAT.addr, 24 + b, 1⟩ else 1) := by
  cases ok with
  | true =>
    refine ⟨(fget_calBit_ne _ _ (by omega) (by omega)).trans (fget_calBit_self _ _ (by omega)), fget_calBit_self _ _ (by omega), ?_⟩
    exact (fget_calBit_ne _ _ (by omega) (by omega)).trans (fget_calBit_ne _ _ (by omega) (by omega))
  | false =>
    refine ⟨(fget_calBit_ne _ _ (by omega) (by omega)).trans (fget_calBit_self _ _ (by omega)), ?_, fget_calBit_self _ _ (by omega)⟩
    exact (fget_calBit_ne _ _ (by omega) (by omega)).trans (fget_calBit_ne _ _ (by omega) (by omega))

/-- What the end of VCO_BAND renews. -/
def State.tempRenewed (s : State) (b : Nat) : State :=
  if b = 0 then (s.fset RFE_CAL_TEMP.T_CAL (s.fget RFE_CAL_TEMP.T_NOW)).fset RFE_STAT.CAL_STALE 0 else s

/-- A calibration's end, before the next item. -/
def State.calEnded (s : State) (b : Nat) (ok : Bool) : State :=
  (((((s.workGone b).setRfe fun r => { r with running := none }).fset RFE_STAT.CAL_RUN 0).calShown b ok).tempRenewed b
    |>.raise Pg.RFE 1).event Pg.RFE 1 29

theorem calEnds_eq {s : State} {b : Nat} (ok : Bool) (h : s.rfe.running = some b) :
    s.calEnds b ok = (s.calEnded b ok).workNext (some b) := if_pos h

theorem calShown_only (s : State) (b : Nat) (ok : Bool) : s.calShown b ok = { s with regs := (s.calShown b ok).regs } := by
  unfold State.calShown
  split <;> rfl
theorem tempRenewed_only (s : State) (b : Nat) : s.tempRenewed b = { s with regs := (s.tempRenewed b).regs } := by
  unfold State.tempRenewed
  split <;> rfl

theorem calEnded_parts (s : State) (b : Nat) (ok : Bool) : (s.calEnded b ok).rfe.running = none ∧ (s.calEnded b ok).mem = s.mem
    ∧ (s.calEnded b ok).sys = s.sys := by
  unfold State.calEnded
  rw [(event_only _ Pg.RFE 1 29).eq, tempRenewed_only, calShown_only]
  exact ⟨rfl, rfl, rfl⟩

theorem fget_calEnded (s : State) {b : Nat} (ok : Bool) (n : Nat) : (s.calEnded b ok).fget ⟨RFE_CAL_STAT.addr, n, 1⟩
    = ((((s.workGone b).setRfe fun r => { r with running := none }).fset RFE_STAT.CAL_RUN 0).calShown b ok).fget
        ⟨RFE_CAL_STAT.addr, n, 1⟩ := by
  unfold State.calEnded
  rw [fget_event _ _ _ _ _ (by decide : pageOf RFE_CAL_STAT.addr ∉ eventPages),
    fget_raise_apart _ _ _ _ (by decide) (.inl (by decide : RFE_CAL_STAT.addr ≠ _))]
  unfold State.tempRenewed
  split
  · rw [fget_fset_reg _ _ _ _ (by decide : RFE_CAL_STAT.addr ≠ _), fget_fset_reg _ _ _ _ (by decide : RFE_CAL_STAT.addr ≠ _)]
  · rfl

theorem bootGo_none {s : State} (h : s.sys.boot = none) : s.bootGo = s := by
  unfold State.bootGo
  rw [h]

theorem calDone_completes (s : State) (t : Frc) (b : Fin 8) (ok : Bool) (hr : s.rfe.running = some b.val) (hboot : s.sys.boot = none) :
    Does (.calDone t b ok) s fun u => u.fget (pendBit b) = 0
      ∧ u.fget ⟨RFE_CAL_STAT.addr, b.val, 1⟩ = (if ok then 1 else s.fget ⟨RFE_CAL_STAT.addr, b.val, 1⟩)
      ∧ u.fget ⟨RFE_CAL_STAT.addr, 24 + b.val, 1⟩ = (if ok then s.fget ⟨RFE_CAL_STAT.addr, 24 + b.val, 1⟩ else 1)
      ∧ u.rfe.running ≠ some b.val ∧ u.mem = s.mem := by
  obtain ⟨hrun, hmem, hsys⟩ := calEnded_parts (s.advance t) b ok
  obtain ⟨hpend, hvalid, hfail⟩ := calShown_reads
    ((((s.advance t).workGone b).setRfe fun r => { r with running := none }).fset RFE_STAT.CAL_RUN 0) b.isLt ok
  have hbefore (n : Nat) : ((((s.advance t).workGone b).setRfe fun r => { r with running := none }).fset RFE_STAT.CAL_RUN 0).fget
      ⟨RFE_CAL_STAT.addr, n, 1⟩ = s.fget ⟨RFE_CAL_STAT.addr, n, 1⟩ :=
    (fget_fset_reg _ _ _ _ (by decide : RFE_CAL_STAT.addr ≠ _)).trans (fget_advance s t _)
  rw [← fget_calEnded] at hpend hvalid hfail
  rw [hbefore] at hvalid hfail
  have honly := workNext_only ((s.advance t).calEnded b ok) (some b.val)
  have hnot : b.val ∉ ((s.advance t).calEnded b ok).workPending := by
    rw [mem_workPending_cal _ b.isLt, hpend]
    decide
  have hexec : exec (.calDone t b ok) s = .next (((s.advance t).calEnded b ok).workNext (some b.val)) := by
    show Host.Outcome.next ((s.advance t).calEnds b.val ok).bootGo = _
    rw [calEnds_eq ok ((congrArg RfeState.running (advance_rfe s t)).trans hr), bootGo_none]
    rw [honly.eq]
    show ((s.advance t).calEnded b ok).sys.boot = none
    rw [hsys, advance_sys, hboot]
  refine ⟨_, hexec, (honly.fld _ (calStat_apart _ _)).trans hpend, (honly.fld _ (calStat_apart _ _)).trans hvalid,
    (honly.fld _ (calStat_apart _ _)).trans hfail, workNext_running _ (by rw [hrun]; exact Option.some_ne_none _ ∘ Eq.symm) hnot, ?_⟩
  rw [honly.eq]
  exact hmem.trans (advance_mem s t)

/-! ## A deadline that passed (R100) -/

section
variable {s : State} {i : Fin 10} {n : Nat} (hage : (s.rfe.age.find? fun e => e.1 == i.val) = some (i.val, n))
  (hr : s.rfe.running ≠ some i.val) (hlate : max 1 (s.fget RFE_CAL_CFG.DEADLINE) ≤ s.asnNow - n)
include hage hr hlate

/-- A pending item whose deadline has passed is withdrawn, and shown as its kind has it. -/
theorem exec_calTimeout (hp : i.val ∈ s.workPending) : exec (.calTimeout i) s = .next (
    if i.val < 8 then (((s.workGone i.val).fset (pendBit i.val) 0).fset ⟨RFE_CAL_STAT.addr, 16 + i.val, 1⟩ 1).raise Pg.RFE 2
    else if i.val = 8 then
      (((s.workGone i.val).fset TXM_MCHK_REQ.PEND 0).fset TXM_MCHK_RES.RESULT 3 |>.raise Pg.TXM 3 |>.raise Pg.RFE 2)
    else (((s.workGone i.val).fset TST_CAP_REQ.PEND 0).fset TST_CAP_REQ.RESULT 1).raise Pg.TST 2) := by
  show execCalTimeout i s = _
  have hc : (s.workPending.contains i.val && s.rfe.running != some i.val
      && decide (max 1 (s.fget RFE_CAL_CFG.DEADLINE) ≤ s.asnNow - n)) = true := by
    rw [List.contains_iff_mem.2 hp, bne_iff_ne.2 hr, decide_eq_true hlate]
    rfl
  unfold execCalTimeout
  dsimp only
  rw [hage, Option.map_some, Option.getD_some, if_pos hc]
  split
  · rfl
  · split <;> rfl

theorem calTimeout_cal (hi : i.val < 8) (hp : s.fget (pendBit i.val) = 1) :
    Does (.calTimeout i) s fun u => u.fget (pendBit i.val) = 0 ∧ u.fget ⟨RFE_CAL_STAT.addr, 16 + i.val, 1⟩ = 1
      ∧ u = { s with regs := u.regs, rfe := { s.rfe with age := u.rfe.age } } ∧ RegsOff (onPages [Pg.RFE]) s u := by
  have hexec := exec_calTimeout hage hr hlate ((mem_workPending_cal s hi).2 hp)
  rw [if_pos hi] at hexec
  refine ⟨_, hexec, ?_, ?_, rfl, ?_⟩
  · rw [fget_raise_apart _ _ _ _ (by decide) (.inl (by decide : RFE_CAL_STAT.addr ≠ _)), fget_calBit_ne _ _ (by omega) (by omega),
      fget_calBit_self _ _ (by omega)]
  · rw [fget_raise_apart _ _ _ _ (by decide) (.inl (by decide : RFE_CAL_STAT.addr ≠ _)), fget_calBit_self _ _ (by omega)]
  · exact regsOff_fset (regsOff_fset (regsOff_fset (fun _ _ => rfl) (pendBit i.val) 0 (by decide : onPages _ RFE_CAL_STAT.addr = true))
      ⟨RFE_CAL_STAT.addr, 16 + i.val, 1⟩ 1 (by decide : onPages _ RFE_CAL_STAT.addr = true)) _ 1 (by decide)

theorem calTimeout_mask (hi : i.val = 8) (hp : s.fbit TXM_MCHK_REQ.PEND = true) :
    Does (.calTimeout i) s fun u => u.fbit TXM_MCHK_REQ.PEND = false ∧ u.fget TXM_MCHK_RES.RESULT = 3
      ∧ RegsOff (onPages [Pg.RFE, Pg.TXM]) s u := by
  have hexec := exec_calTimeout hage hr hlate (hi ▸ mem_workPending_mask hp)
  rw [if_neg (by omega), if_pos hi] at hexec
  refine ⟨_, hexec, fbit_of_fget_zero ?_, ?_, ?_⟩
  · rw [fget_raise_apart _ _ _ _ (by decide) (by decide), fget_raise_apart _ _ _ _ (by decide) (by decide),
      fget_fset_reg _ _ _ _ (by decide)]
    exact fget_fset_self _ _ _ (by decide)
  · rw [fget_raise_apart _ _ _ _ (by decide) (by decide), fget_raise_apart _ _ _ _ (by decide) (by decide)]
    exact fget_fset_self _ _ _ (by decide)
  · exact regsOff_fset (regsOff_fset (regsOff_fset (regsOff_fset (fun _ _ => rfl) TXM_MCHK_REQ.PEND 0 (by decide)) TXM_MCHK_RES.RESULT 3
      (by decide)) _ 1 (by decide)) _ 1 (by decide)

theorem calTimeout_capture (hi : i.val = 9) (hp : s.fbit TST_CAP_REQ.PEND = true) :
    Does (.calTimeout i) s fun u => u.fbit TST_CAP_REQ.PEND = false ∧ u.fget TST_CAP_REQ.RESULT = 1
      ∧ RegsOff (onPages [Pg.TST]) s u := by
  have hexec := exec_calTimeout hage hr hlate (hi ▸ mem_workPending_capture hp)
  rw [if_neg (by omega), if_neg (by omega)] at hexec
  refine ⟨_, hexec, fbit_of_fget_zero ?_, ?_, ?_⟩
  · rw [fget_raise_apart _ _ _ _ (by decide) (by decide), fget_fset_apart _ _ _ _ (by decide) (by decide)]
    exact fget_fset_self _ _ _ (by decide)
  · rw [fget_raise_apart _ _ _ _ (by decide) (by decide)]
    exact fget_fset_self _ _ _ (by decide)
  · exact regsOff_fset (regsOff_fset (regsOff_fset (fun _ _ => rfl) TST_CAP_REQ.PEND 0 (by decide)) TST_CAP_REQ.RESULT 1 (by decide)) _ 1
      (by decide)

end

/-- Settles O23, command by command: requests, temperature, a Clearing's work, completion and withdrawal. -/
theorem calibrations : Obligations.Calibrations :=
  ⟨rfeCalReq_pends, tempUpdate_publishes, tempUpdate_stale, tempUpdate_requests, clearingWorkStart_limits, calDone_completes,
    fun _ _ _ hage hr hlate => ⟨calTimeout_cal hage hr hlate, calTimeout_mask hage hr hlate, calTimeout_capture hage hr hlate⟩⟩

end Sys2Proof.Machine
end

section
/-!
LOCK AND TUNING (O21). What an abort of lanes and an abort of the transmitter may change is said once (`LaneWork`, `txAbort_cases`); the
lock check, a loss of lock, manual tuning and a disable are read from it (R79 to R81, R84, R85).
-/
namespace Sys2Proof.Machine
open Sys2Proof

/-! ## Branches -/

theorem rget_when {c : Prop} {d : Decidable c} {s t : State} {a : Nat} (h : t.rget a = s.rget a) :
    (@ite _ c d t s).rget a = s.rget a := by
  split
  · exact h
  · rfl
theorem fget_when {c : Prop} {d : Decidable c} {s t : State} {g : Fld} (h : t.fget g = s.fget g) :
    (@ite _ c d t s).fget g = s.fget g := by
  split
  · exact h
  · rfl

/-! ## Lanes that drop their frames (R111, R124, R127) -/

/-- AGC, CNP and the lanes. -/
def lanePages : List Nat := List.range' Pg.AGC 18

/-- `t` is `s` after lanes dropped their frames. -/
structure LaneWork (s t : State) : Prop where
  eq : t = { s with regs := t.regs, lanes := t.lanes, trf := t.trf, fec := t.fec }
  off : RegsOff (onPages lanePages) s t

section
variable {s t : State}

theorem LaneWork.refl (s : State) : LaneWork s s := ⟨rfl, fun _ _ => rfl⟩
theorem LaneWork.slot (h : LaneWork s t) : t.slot = s.slot := by rw [h.eq]
theorem LaneWork.fset {f : Fld} {x : Nat} (h : LaneWork s t) (hf : onPages lanePages f.addr = true := by decide) :
    LaneWork s (t.fset f x) := ⟨congrArg (·.fset f x) h.eq, regsOff_fset h.off f x hf⟩
theorem LaneWork.withLanes {l : List Lane} (h : LaneWork s t) : LaneWork s { t with lanes := l } :=
  ⟨congrArg (fun u : State => { u with lanes := l }) h.eq, h.off⟩
theorem LaneWork.withTrf {x : TrfState} (h : LaneWork s t) : LaneWork s { t with trf := x } :=
  ⟨congrArg (fun u : State => { u with trf := x }) h.eq, h.off⟩
theorem LaneWork.withFec {x : FecState} (h : LaneWork s t) : LaneWork s { t with fec := x } :=
  ⟨congrArg (fun u : State => { u with fec := x }) h.eq, h.off⟩
protected theorem LaneWork.ite {c : Prop} {d : Decidable c} {a b : State} (ha : LaneWork s a) (hb : LaneWork s b) :
    LaneWork s (@ite _ c d a b) := by split <;> assumption
theorem LaneWork.when {c : Prop} {d : Decidable c} {u : State} (h : LaneWork s t) (hf : LaneWork s t → LaneWork s u) :
    LaneWork s (@ite _ c d u t) := .ite (hf h) h
theorem LaneWork.foldl {α : Type} {f : State → α → State} {l : List α} (h : LaneWork s t)
    (hf : ∀ {u y}, y ∈ l → LaneWork s u → LaneWork s (f u y)) : LaneWork s (l.foldl f t) := by
  induction l generalizing t with
  | nil => exact h
  | cons y l ih => exact ih (hf List.mem_cons_self h) fun hy => hf (List.mem_cons_of_mem _ hy)

theorem laneReg_onPages {n o : Nat} (hn : n < 16) (ho : o < 0x1000) : onPages lanePages (0x40009000 + o + 0x1000 * n) = true := by
  have hpage : pageOf (0x40009000 + o + 0x1000 * n) = 9 + n := by
    unfold pageOf
    omega
  unfold onPages
  rw [hpage, List.contains_iff_mem]
  simp only [lanePages, Pg.AGC, List.mem_range'_1]
  omega
theorem laneRaw_onPages {n : Nat} (b : Nat) (hn : n < 16) : onPages lanePages (INT_RAW.bit (Pg.LANE n) b).addr = true := by
  have haddr : (INT_RAW.bit (Pg.LANE n) b).addr = 0x40009000 + 0x00C + 0x1000 * n := by
    show 0x40000000 + (9 + n) * 0x1000 + 0x00C = _
    omega
  rw [haddr]
  exact laneReg_onPages hn (by decide)

theorem LaneWork.fecFill (h : LaneWork s t) : LaneWork s t.fecFill := by
  refine h.foldl fun _ h => ?_
  split
  · exact h.withFec
  · exact h
theorem LaneWork.freeChain {cs : List Nat} (h : LaneWork s t) : LaneWork s (t.freeChain cs) := h.withTrf
theorem LaneWork.setLane {n : Nat} {l : Lane} (h : LaneWork s t) : LaneWork s (t.setLane n l) := h.withLanes
theorem LaneWork.laneDrop {n : Nat} (h : LaneWork s t) : LaneWork s (t.laneDrop n) :=
  h.freeChain.setLane.withFec.fecFill.when fun h => h.fset
theorem LaneWork.laneTo {n st : Nat} (hn : n < 16) (h : LaneWork s t) : LaneWork s (t.laneTo n st) :=
  h.fset (laneReg_onPages (o := 0x008) hn (by decide))
theorem LaneWork.laneAbort {n cause : Nat} (hn : n < 16) (h : LaneWork s t) : LaneWork s (t.laneAbort n cause) := by
  have hreg (o : Nat) (ho : o < 0x1000) := laneReg_onPages (o := o) hn ho
  unfold State.laneAbort
  dsimp only
  refine .ite h (.laneTo hn (.laneDrop (.fset ?_ (laneRaw_onPages 1 hn))))
  refine .fset (.fset (.fset (.fset ?_ (hreg 0x008 (by decide))) (hreg 0x008 (by decide))) (hreg 0x064 (by decide))) (hreg 0x020 (by decide))
  exact .ite h.fset h
theorem LaneWork.laneStop {n : Nat} (hn : n < 16) (h : LaneWork s t) : LaneWork s (t.laneStop n) :=
  ((h.laneAbort hn).laneTo hn).setLane
theorem LaneWork.laneLost {n cause : Nat} (hn : n < 16) (h : LaneWork s t) : LaneWork s (t.laneLost n cause) :=
  LaneWork.setLane (.ite h ((h.laneAbort hn).laneTo hn))

end

/-! ## The receive window closes (R87, R91 to R94) -/

theorem windowShut_rfe (s : State) : s.windowShut.rfe = { s.rfe with window := false, cnpOpen := false, shut := true } := by
  have hslot : (if s.rfe.cnpOpen then ((s.fset AGC_CNP_SLOT.END (s.fget AGC_CNP_GAIN.CUR)).fset AGC_CNP_SLOT.BACKOFFS
      (min 15 s.rfe.backoffs)).fset AGC_CNP_SLOT.OVERRIDE (if s.rfe.override then 1 else 0) else s).rfe = s.rfe := by
    split
    · rw [fset_rfe, fset_rfe, fset_rfe]
    · rfl
  unfold State.windowShut
  dsimp only
  rw [hslot]
theorem windowShut_wideband (s : State) : s.windowShut.fget RFE_STAT.WB_ON = 0 := fget_fset_self _ RFE_STAT.WB_ON 0 (by decide)
theorem rget_windowShut (s : State) {a : Nat} (hslot : a ≠ AGC_CNP_SLOT.addr) (hstat : a ≠ RFE_STAT.addr) :
    s.windowShut.rget a = s.rget a :=
  (rget_fset_ne _ RFE_STAT.WB_ON 0 a hstat).trans
    (rget_when (((rget_fset_ne _ _ _ a hslot).trans (rget_fset_ne _ _ _ a hslot)).trans (rget_fset_ne _ _ _ a hslot)))

/-! ## The transmitter's abort (R134) -/

/-- The transmission ends before its last symbol. -/
def State.txCut (s : State) (x : Tx) : State :=
  { s with
    txm := { s.txm with
      cur := some { x with aborted := true, endAt := s.frcN, rampEnd := s.frcN + us (min x.ramp 8) }
      acks := if x.what = .ack && !x.launched then s.txm.acks.filter (fun a => !a.go) else s.txm.acks }
    slot := s.slot.map fun (sl : Slot) => ({ sl with lost := sl.lost || (!x.launched && sl.kind == SlotKind.tx) } : Slot) }
/-- What the registers show of it. -/
def State.txTold (s : State) (x : Tx) (cause : Nat) : State :=
  let s := ((s.fset TXM_STAT.STATE 5).fset TXM_STAT.ABORTED 1).finc TXM_CNT.ABORTS
  let s := ((s.fset TXM_ERRINFO.ASN x.asn).fset TXM_ERRINFO.CAUSE cause).raise Pg.TXM 1
  let s := if cause = 4 then (s.fset TXM_STAT.LIVE_ERR 1).raise Pg.TXM 4 else s
  if x.what = .test then s.fset TXM_TEST.MODE 0 else s

theorem txAbort_cuts {s : State} {x : Tx} (cause : Nat) (hx : s.txm.cur = some x) (h0 : s.fget TXM_STAT.STATE ≠ 0)
    (h5 : s.fget TXM_STAT.STATE ≠ 5) : s.txAbort cause = (s.txCut x).txTold x cause := by
  unfold State.txAbort
  rw [hx]
  dsimp only
  rw [if_neg h0, if_neg h5]
  rfl

/-- An abort finds nothing to end, shortens a ramp, or ends the transmission. -/
theorem txAbort_cases (s : State) (cause : Nat) : (∃ r, s.txAbort cause = { s with txm := r })
    ∨ ∃ x, s.txAbort cause = (s.txCut x).txTold x cause := by
  cases hx : s.txm.cur with
  | none =>
    refine .inl ⟨s.txm, ?_⟩
    unfold State.txAbort
    rw [hx]
  | some x =>
    by_cases h0 : s.fget TXM_STAT.STATE = 0
    · refine .inl ⟨s.txm, ?_⟩
      unfold State.txAbort
      rw [hx]
      exact if_pos h0
    by_cases h5 : s.fget TXM_STAT.STATE = 5
    · refine .inl ⟨{ s.txm with cur := some { x with rampEnd := min x.rampEnd (s.frcN + us (min x.ramp 8)) } }, ?_⟩
      unfold State.txAbort
      rw [hx]
      exact (if_neg h0).trans (if_pos h5)
    · exact .inr ⟨x, txAbort_cuts cause hx h0 h5⟩

theorem txTold_reads (s : State) (x : Tx) {cause : Nat} (hc : cause < 16) :
    (s.txTold x cause).fget TXM_STAT.STATE = 5 ∧ (s.txTold x cause).fget TXM_ERRINFO.CAUSE = cause := by
  unfold State.txTold
  dsimp only
  have hlive {t : State} (g : Fld) (hg : TXM_STAT.LIVE_ERR.Apart g) (hr : g.addr ≠ (INT_RAW.bit Pg.TXM 4).addr) :
      ((t.fset TXM_STAT.LIVE_ERR 1).raise Pg.TXM 4).fget g = t.fget g :=
    (fget_raise_apart _ _ _ g (by decide) (.inl hr)).trans (fget_fset_apart _ _ g _ (by decide) hg)
  constructor
  · rw [fget_when (fget_fset_reg _ _ _ _ (by decide)), fget_when (hlive _ (by decide) (by decide)),
      fget_raise_apart _ _ _ _ (by decide) (by decide), fget_fset_reg _ _ _ _ (by decide), fget_fset_reg _ _ _ _ (by decide),
      fget_finc_apart _ _ _ (by decide) (by decide), fget_fset_apart _ _ _ _ (by decide) (by decide)]
    exact fget_fset_self _ _ _ (by decide)
  · rw [fget_when (fget_fset_reg _ _ _ _ (by decide)), fget_when (hlive _ (by decide) (by decide)),
      fget_raise_apart _ _ _ _ (by decide) (by decide)]
    exact (fget_fset_self _ _ _ (by decide)).trans (Nat.mod_eq_of_lt hc)

theorem txTold_txm (s : State) (x : Tx) (cause : Nat) : (s.txTold x cause).txm = s.txm := by
  unfold State.txTold
  dsimp only
  have hwhen {c : Prop} {d : Decidable c} {t u : State} (h : t.txm = u.txm) : (@ite _ c d t u).txm = u.txm := by
    split
    · exact h
    · rfl
  rw [hwhen (fset_txm ..), hwhen ((raise_txm ..).trans (fset_txm ..)), raise_txm, fset_txm, fset_txm, finc_txm, fset_txm, fset_txm]

theorem rget_txTold (s : State) (x : Tx) (cause : Nat) {a : Nat} (h : pageOf a ≠ Pg.TXM) : (s.txTold x cause).rget a = s.rget a := by
  have hf {t : State} {f : Fld} {y : Nat} (hf : pageOf f.addr = Pg.TXM) : (t.fset f y).rget a = t.rget a :=
    rget_fset_ne _ _ _ _ (by rintro rfl; exact h hf)
  have hraise {t : State} {b : Nat} : (t.raise Pg.TXM b).rget a = t.rget a :=
    hf (by decide : pageOf (INT_RAW.addr Pg.TXM) = Pg.TXM)
  unfold State.txTold
  dsimp only
  rw [rget_when (hf (by decide)), rget_when (hraise.trans (hf (by decide))), hraise, hf (by decide), hf (by decide)]
  exact ((hf (by decide)).trans (hf (by decide))).trans (hf (by decide))

theorem rget_txAbort (s : State) (cause : Nat) {a : Nat} (h : pageOf a ≠ Pg.TXM) : (s.txAbort cause).rget a = s.rget a := by
  rcases txAbort_cases s cause with ⟨r, e⟩ | ⟨x, e⟩
  · rw [e]
    rfl
  · rw [e, rget_txTold _ _ _ h]
    rfl

/-! ## The indications of a loss of lock (R80, R81) -/

/-- Before their event. -/
def State.unlockNoted (s : State) (sl : Slot) (mid : Bool) : State :=
  (((s.fset RFE_STAT.UNLOCK 1).finc RFE_CNT.UNLOCK).raise Pg.RFE 0).rsetN RFE_ERRINFO.addr
    (sl.asn % 2 ^ 24 + (if sl.kind = .tx then 2 ^ 24 else 0) + (if mid then 2 ^ 25 else 0))

theorem unlockShown_event (s : State) (sl : Slot) (mid : Bool) : EventsOnly (s.unlockNoted sl mid) (s.unlockShown sl mid) :=
  event_only (s.unlockNoted sl mid) Pg.RFE 0 28
theorem rget_unlockShown_stat (s : State) (sl : Slot) (mid : Bool) :
    (s.unlockShown sl mid).rget RFE_STAT.addr = (s.fset RFE_STAT.UNLOCK 1).rget RFE_STAT.addr := by
  rw [(unlockShown_event s sl mid).off _ (by decide), State.unlockNoted, rget_rsetN_ne _ _ _ _ (by decide),
    rget_raise_ne _ _ _ _ (by decide), rget_finc_ne _ _ _ (by decide)]
theorem rget_unlockShown (s : State) (sl : Slot) (mid : Bool) {a : Nat} (he : pageOf a ∉ eventPages) (h : pageOf a ≠ Pg.RFE) :
    (s.unlockShown sl mid).rget a = s.rget a := by
  have hne {b : Nat} (hb : pageOf b = Pg.RFE) : a ≠ b := by
    rintro rfl
    exact h hb
  rw [(unlockShown_event s sl mid).off _ he, State.unlockNoted, rget_rsetN_ne _ _ _ _ (hne (by decide)),
    rget_raise_ne _ _ _ _ (hne (by decide)), rget_finc_ne _ _ _ (hne (by decide)), rget_fset_ne _ _ _ _ (hne (by decide))]
theorem unlockShown_parts (s : State) (sl : Slot) (mid : Bool) : (s.unlockShown sl mid).slot = s.slot
    ∧ (s.unlockShown sl mid).rfe = s.rfe ∧ (s.unlockShown sl mid).lanes = s.lanes ∧ (s.unlockShown sl mid).txm = s.txm
    ∧ (s.unlockShown sl mid).frcN = s.frcN := by
  unfold State.frcN
  rw [(unlockShown_event s sl mid).eq]
  exact ⟨rfl, rfl, rfl, rfl, rfl⟩

/-! ## The lock check (R79, R80) -/

/-- The registers of a Canopy window: its wish, its gain and the level expected (R91). -/
def State.canopyShown (s : State) (wish g : Nat) (rssi : Int) : State :=
  (((s.fset AGC_CNP_GAIN.WANT wish).fset AGC_CNP_GAIN.CUR g).fsetI AGC_CNP_SLOT.RSSI_MAX rssi).fset AGC_CNP_SLOT.SET g

theorem pagesOnly_fsetI {l : List Nat} {s t : State} (h : PagesOnly l s t) (f : Fld) (x : Int) (hf : onPages l f.addr = true) :
    PagesOnly l s (t.fsetI f x) := pagesOnly_fset h f _ hf
theorem canopyShown_only (s : State) (wish g : Nat) (rssi : Int) : PagesOnly [Pg.AGC] s (s.canopyShown wish g rssi) :=
  pagesOnly_fset (pagesOnly_fsetI (pagesOnly_fset (pagesOnly_fset (pagesOnly_refl _ s) _ _ (by decide)) _ _ (by decide)) _ _ (by decide)) _ _
    (by decide)
/-- A Canopy window opens: its registers, and the window itself. -/
theorem canopyGainSet_opens (s : State) (sl : Slot) : ∃ m f, PagesOnly [Pg.AGC] s m ∧ s.canopyGainSet sl = m.setRfe f := by
  unfold State.canopyGainSet
  extract_lets unk cellRssi cells rssi wish lo hi g
  exact ⟨s.canopyShown wish g rssi, _, canopyShown_only s wish g rssi, rfl⟩

theorem regsOff_cons {p : Nat} {l : List Nat} {s t : State} (h : RegsOff (onPages l) s t) : RegsOff (onPages (p :: l)) s t := by
  intro a ha
  refine h a ?_
  simp only [onPages, List.contains_cons, Bool.or_eq_false_iff] at ha
  exact ha.2

/-- A change of the slot and then one of the window. -/
theorem slotThenWindow_only {s m n : State} (f : RfeState → RfeState) (hm : m = { s with regs := m.regs, slot := m.slot })
    (hn : n = { m with regs := n.regs }) :
    n.setRfe f = { s with regs := n.regs, slot := m.slot, rfe := f s.rfe } := by
  generalize m.regs = r at hm
  generalize m.slot = x at hm ⊢
  subst hm
  rw [hn]
  rfl

/-- The check is done, and the slot is lost where it failed. -/
def State.lockShown (s : State) (sl : Slot) (ok : Bool) : State :=
  { s with slot := some { sl with lockSeen := true, lost := !ok } }.fsetB RFE_STAT.LOCK ok

section
variable {s : State} {sl : Slot} (hs : s.slot = some sl) (hl : sl.lockSeen = false) (hlost : sl.lost = false)
  (hk : sl.kind = .tx ∨ sl.kind = .rx)
include hs hl hlost hk

theorem exec_lockSample (t : Frc) (locked : Bool) (ht : sl.tickNt + 1280 ≤ (s.advance t).nt) {ok : Bool}
    (hok : (locked && bitOf (s.fget RFE_CAL_STAT.VALID) 0) = ok) :
    exec (.lockSample t locked) s = .next (
      if ok then
        if sl.kind = .rx && sl.canopy then ((s.advance t).lockShown sl ok).canopyGainSet sl else (s.advance t).lockShown sl ok
      else (((s.advance t).lockShown sl ok).unlockShown sl false).finc RFE_CNT.LOST) := by
  have hslot := (advance_slot s t).trans hs
  have hidle : sl.kind ≠ .idle := by rcases hk with h | h <;> rw [h] <;> decide
  have hclear : sl.kind ≠ .clearing := by rcases hk with h | h <;> rw [h] <;> decide
  have hat : (s.advance t).atOffset sl 40 = true := decide_eq_true ht
  rw [← fget_advance s t] at hok
  show execLockSample t locked s = _
  unfold execLockSample
  dsimp only
  rw [hok, hslot]
  dsimp only
  rw [hl, hlost, hat, bne_iff_ne.2 hclear, if_neg (by decide), if_neg (by decide), if_neg hidle, if_neg hclear, Bool.false_or,
    Bool.and_true]
  cases ok with
  | true => rfl
  | false => rfl

/-- With lock the slot goes on. -/
theorem lockSample_locks (t : Frc) (ht : sl.tickNt + 1280 ≤ (s.advance t).nt) (hv : bitOf (s.fget RFE_CAL_STAT.VALID) 0 = true) :
    Does (.lockSample t true) s fun u => u.fbit RFE_STAT.LOCK = true ∧ u.slot = some { sl with lockSeen := true }
      ∧ u = { s.advance t with regs := u.regs, slot := u.slot, rfe := u.rfe } ∧ RegsOff (onPages [Pg.RFE, Pg.AGC]) s u := by
  have hexec := exec_lockSample hs hl hlost hk t true ht (ok := true) (by rw [hv]; rfl)
  rw [if_pos rfl] at hexec
  have hslot : some { sl with lockSeen := true, lost := !true } = some { sl with lockSeen := true } := by
    rw [Bool.not_true, ← hlost]
  have hlock : ((s.advance t).lockShown sl true).fget RFE_STAT.LOCK = 1 := fget_fsetB_self _ _ _ (by decide) (by decide)
  have hoff : RegsOff (onPages [Pg.RFE, Pg.AGC]) s ((s.advance t).lockShown sl true) :=
    regsOff_fset (fun a _ => rget_advance s t a) RFE_STAT.LOCK 1 (by decide)
  generalize hm : (s.advance t).lockShown sl true = m at *
  have hparts : m.slot = some { sl with lockSeen := true } ∧ m.rfe = (s.advance t).rfe
      ∧ m = { s.advance t with regs := m.regs, slot := m.slot } := hm ▸ ⟨hslot, rfl, rfl⟩
  obtain ⟨hmslot, hmrfe, hmeq⟩ := hparts
  split at hexec
  · obtain ⟨n, f, ⟨hneq, hnoff⟩, hopen⟩ := canopyGainSet_opens m sl
    have hu := slotThenWindow_only f hmeq hneq
    rw [hopen, hu] at hexec
    refine ⟨_, hexec, fbit_of_fget_one ((fget_of_rget _ (hnoff RFE_STAT.addr (by decide))).trans hlock), hmslot, rfl, fun a ha => ?_⟩
    exact (regsOff_cons hnoff a ha).trans (hoff a ha)
  · refine ⟨m, hexec, fbit_of_fget_one hlock, hmslot, ?_, hoff⟩
    rw [hmrfe]
    exact hmeq

/-- Without lock, or without a table for VCO_BAND, the slot is lost. -/
theorem lockSample_loses (t : Frc) (locked : Bool) (ht : sl.tickNt + 1280 ≤ (s.advance t).nt)
    (hv : (locked && bitOf (s.fget RFE_CAL_STAT.VALID) 0) = false) :
    Does (.lockSample t locked) s fun u => u.fbit RFE_STAT.LOCK = false ∧ u.fbit RFE_STAT.UNLOCK = true
      ∧ u.slot = some { sl with lockSeen := true, lost := true } ∧ u.rfe = s.rfe ∧ u.lanes = s.lanes ∧ u.txm = s.txm := by
  have hexec := exec_lockSample hs hl hlost hk t locked ht hv
  rw [if_neg Bool.false_ne_true] at hexec
  obtain ⟨hslot, hrfe, hlanes, htxm, -⟩ := unlockShown_parts ((s.advance t).lockShown sl false) sl false
  have hread (g : Fld) (hg : g.addr = RFE_STAT.addr) :
      ((((s.advance t).lockShown sl false).unlockShown sl false).finc RFE_CNT.LOST).fget g
        = (((s.advance t).lockShown sl false).fset RFE_STAT.UNLOCK 1).fget g := by
    unfold State.fget
    rw [hg, rget_finc_ne _ _ _ (by decide), rget_unlockShown_stat]
  refine ⟨_, hexec, fbit_of_fget_zero ?_, fbit_of_fget_one ?_, hslot, ?_, ?_, ?_⟩
  · rw [hread _ rfl, fget_fset_apart _ _ _ _ (by decide) (by decide)]
    exact fget_fsetB_self _ _ _ (by decide) (by decide)
  · rw [hread _ rfl]
    exact fget_fset_self _ _ _ (by decide)
  · exact hrfe.trans (advance_rfe s t)
  · exact hlanes.trans (advance_lanes s t)
  · exact htxm.trans (advance_txm s t)

end

/-! ## A loss of lock (R81) -/

/-- The loss is shown. -/
def State.lossNoted (s : State) (sl : Slot) : State := (s.fset RFE_STAT.LOCK 0).unlockShown sl true
/-- Every lane that waits or receives loses the window. -/
def State.lanesLost (s : State) : State := (List.range 16).foldl (fun s n => s.laneLost n 4) s

theorem lanesLost_work (s : State) : LaneWork s s.lanesLost :=
  (LaneWork.refl s).foldl fun hn h => h.laneLost (List.mem_range.1 hn)

section
variable {s : State} {sl : Slot} (hs : s.slot = some sl) (hl : sl.lockSeen = true) (hlost : sl.lost = false)
include hs

omit hs in
theorem lossNoted_txm (t : Frc) : ((s.advance t).lossNoted sl).txm = s.txm ∧ ((s.advance t).lossNoted sl).frcN = (s.advance t).frcN
    ∧ ((s.advance t).lossNoted sl).fget TXM_STAT.STATE = s.fget TXM_STAT.STATE := by
  obtain ⟨-, -, -, htxm, hfrc⟩ := unlockShown_parts ((s.advance t).fset RFE_STAT.LOCK 0) sl true
  refine ⟨htxm.trans (advance_txm s t), hfrc, ?_⟩
  unfold State.fget
  rw [State.lossNoted, rget_unlockShown _ _ _ (by decide) (by decide), rget_fset_ne _ _ _ _ (by decide), rget_advance]
theorem lossNoted_slot (t : Frc) : ((s.advance t).lossNoted sl).slot = some sl :=
  (unlockShown_parts _ sl true).1.trans ((advance_slot s t).trans hs)

include hl hlost

theorem exec_lossOfLock (t : Frc) (hk : sl.kind = .tx ∨ sl.kind = .rx) : exec (.lossOfLock t) s = .next (
    if s.txBusy then ((s.advance t).lossNoted sl).txAbort 3
    else { ((s.advance t).lossNoted sl).lanesLost.windowShut with
      slot := ((s.advance t).lossNoted sl).lanesLost.slot.map fun x => { x with lost := x.lost || x.kind = .rx } }) := by
  have hslot : ((s.advance t).fset RFE_STAT.LOCK 0).slot = some sl := (advance_slot s t).trans hs
  have hkind : (!(decide (sl.kind = .tx) || decide (sl.kind = .rx))) = false := by rcases hk with h | h <;> rw [h] <;> rfl
  have hbusy : s.txBusy = ((s.advance t).lossNoted sl).txBusy := by
    unfold State.txBusy
    rw [(lossNoted_txm t).2.2]
  show execLossOfLock t s = _
  unfold execLossOfLock
  dsimp only
  rw [hslot]
  dsimp only
  rw [hl, hlost, hkind, if_neg (by decide), hbusy, apply_ite Host.Outcome.next]
  rfl

/-- Without a transmission the receive window closes, and the slot is lost. -/
theorem lossOfLock_receiving (t : Frc) (hk : sl.kind = .rx) (hb : s.txBusy = false) :
    Does (.lossOfLock t) s fun u => u.rfe.window = false ∧ ∃ x, u.slot = some x ∧ x.asn = sl.asn ∧ x.lost = true := by
  have hexec := exec_lossOfLock hs hl hlost t (.inr hk)
  rw [hb, if_neg Bool.false_ne_true] at hexec
  have hslot : ((s.advance t).lossNoted sl).lanesLost.slot = some sl := (lanesLost_work _).slot.trans (lossNoted_slot hs t)
  rw [hslot, Option.map_some] at hexec
  refine ⟨_, hexec, ?_, _, rfl, rfl, ?_⟩
  · dsimp only
    rw [windowShut_rfe]
  · dsimp only
    rw [hk, hlost]
    rfl

/-- A transmission before its last symbol is cut off. -/
theorem lossOfLock_transmitting (t : Frc) (x : Tx) (hk : sl.kind = .tx) (hx : s.txm.cur = some x) (hb : s.txBusy = true)
    (h5 : s.fget TXM_STAT.STATE ≠ 5) :
    Does (.lossOfLock t) s fun u => u.fget TXM_STAT.STATE = 5 ∧ u.fget TXM_ERRINFO.CAUSE = 3
      ∧ ∃ y, u.txm.cur = some y ∧ y.aborted = true ∧ y.endAt = (s.advance t).frcN := by
  obtain ⟨htxm, hfrc, hstate⟩ := lossNoted_txm (s := s) (sl := sl) t
  have hexec := exec_lossOfLock hs hl hlost t (.inl hk)
  rw [hb, if_pos rfl, txAbort_cuts 3 (by rw [htxm, hx]) (by rw [hstate]; exact bne_iff_ne.1 hb) (by rw [hstate]; exact h5)] at hexec
  obtain ⟨hdown, hcause⟩ := txTold_reads (((s.advance t).lossNoted sl).txCut x) x (cause := 3) (by decide)
  refine ⟨_, hexec, hdown, hcause, ?_⟩
  rw [txTold_txm]
  exact ⟨_, rfl, rfl, hfrc⟩

end

/-! ## Writes of a register (R4, R48) -/

/-- `t` is `s` with the value `x` stored in a register by a write, before the block's effect. -/
structure JustStored (s t : State) (a x : Nat) : Prop where
  eq : t = { s with regs := t.regs, bus := t.bus }
  self : t.raw a = x
  off : ∀ b, b ≠ a → b ≠ OVL_DIRTY_LO.addr → b ≠ OVL_DIRTY_HI.addr → t.rget b = s.rget b

theorem JustStored.fget_self {s t : State} {f : Fld} {x : Nat} (h : JustStored s t f.addr x) : t.fget f = fieldGet x f :=
  congrArg (fieldGet · f) h.self
theorem JustStored.fget_off {s t : State} {a x : Nat} (h : JustStored s t a x) (g : Fld) (ha : g.addr ≠ a) (hlo : g.addr ≠ OVL_DIRTY_LO.addr)
    (hhi : g.addr ≠ OVL_DIRTY_HI.addr) : t.fget g = s.fget g := fget_of_rget g (h.off g.addr ha hlo hhi)

/-- The context of a register's write as a block sees it. -/
structure WritesTo (s : State) (a x : Nat) (v : Word) (w : WCtx) : Prop where
  off : w.off = baseOff a
  old : w.old = s.raw a
  new : w.new = x
  quiet : ∀ n, bitOf v.toNat n = false → w.one ⟨a, n, 1⟩ = false

theorem wctxOf_one_quiet (s : State) (acc : Acc) (a b : Nat) (d : RegDesc) (v : Word) {n : Nat} (h : bitOf v.toNat n = false) :
    (wctxOf s acc a d v).one ⟨b, n, 1⟩ = false := by
  have hbit : (v &&& d.w1s).getLsbD n = false := by
    rw [bitOf_eq_testBit, BitVec.testBit_toNat] at h
    rw [BitVec.getLsbD_and, h, Bool.false_and]
  unfold WCtx.one wctxOf
  dsimp only
  split
  · rw [fieldGet_bit, hbit]
    rfl
  · simp [fieldGet]

/-- An accepted write of a plain register stores its value, and the block's effect follows. -/
theorem writeReg_stores (hook : WCtx → State → State) {s : State} {acc : Acc} {a : Nat} (v : Word) (ha : Accepted s acc a)
    (hp : plainReg a = true) (hd : (descOf a).isSome) : ∃ w t, s.writeReg hook acc a v = hook w t
      ∧ WritesTo s a (writtenTo s acc a v) v w ∧ JustStored s t a (writtenTo s acc a v) := by
  obtain ⟨d, hd⟩ := Option.isSome_iff_exists.1 hd
  rw [writtenTo_eq s acc a v d hd]
  refine ⟨_, _, writeReg_ok hook s acc a v d ha hp hd, ⟨rfl, rfl, rfl, fun n hn => wctxOf_one_quiet s acc a a d v hn⟩, ?_⟩
  refine ⟨?_, congrArg BitVec.toNat (rget_storedBy_self s acc a d v), fun b hb hlo hhi => rget_storedBy_ne s acc a b d v hb hlo hhi⟩
  rw [storedBy_eq]

/-! ## Manual tuning (R84) -/

/-- Setting MAN is refused while Cadence is enabled. -/
def State.manRefused (s : State) (w : WCtx) : State :=
  if w.sets RFE_CTRL.MAN && s.fbit CAD_CTRL.EN then (s.fset RFE_CTRL.MAN 0).fset RFE_STAT.MAN_REFUSED 1 else s
/-- Under MAN the port follows RFE_CTRL. -/
def State.portShown (s : State) : State := if s.fbit RFE_CTRL.MAN then s.fset RFE_STAT.PORT (s.fget RFE_CTRL.PORT) else s
/-- MAN that goes to 1 hops to the manual frequency. -/
def State.manHopped (s : State) (w : WCtx) : State := if w.sets RFE_CTRL.MAN && s.fbit RFE_CTRL.MAN then s.manTune else s
/-- What a write of RFE_CTRL does with MAN. -/
def State.manSettled (s : State) (w : WCtx) : State := (s.manRefused w).portShown.manHopped w

theorem manSettled_refused {s : State} {w : WCtx} (hset : w.sets RFE_CTRL.MAN = true) (hc : s.fbit CAD_CTRL.EN = true) :
    s.manSettled w = (s.fset RFE_CTRL.MAN 0).fset RFE_STAT.MAN_REFUSED 1 := by
  have hman : ((s.fset RFE_CTRL.MAN 0).fset RFE_STAT.MAN_REFUSED 1).fbit RFE_CTRL.MAN = false := by
    refine fbit_of_fget_zero ?_
    rw [fget_fset_reg _ _ _ _ (by decide)]
    exact fget_fset_self _ _ _ (by decide)
  rw [State.manSettled, State.manRefused, hset, hc, if_pos (by decide), State.portShown, hman, if_neg (by decide), State.manHopped, hman,
    Bool.and_false, if_neg (by decide)]

theorem manSettled_taken {s : State} {w : WCtx} (hset : w.sets RFE_CTRL.MAN = true) (hc : s.fbit CAD_CTRL.EN = false)
    (hm : s.fbit RFE_CTRL.MAN = true) : s.manSettled w = (s.fset RFE_STAT.PORT (s.fget RFE_CTRL.PORT)).manTune := by
  have hman : (s.fset RFE_STAT.PORT (s.fget RFE_CTRL.PORT)).fbit RFE_CTRL.MAN = true :=
    (fbit_congr (fget_fset_reg _ _ _ _ (by decide))).trans hm
  rw [State.manSettled, State.manRefused, hc, Bool.and_false, if_neg (by decide), State.portShown, hm, if_pos rfl, State.manHopped, hset, hman,
    if_pos (by decide)]

theorem rget_manSettled (s : State) (w : WCtx) {a : Nat} (hctrl : a ≠ RFE_CTRL.addr) (hstat : a ≠ RFE_STAT.addr)
    (hcur : a ≠ RFE_SYN_CUR.addr) : (s.manSettled w).rget a = s.rget a := by
  have hrefused : (s.manRefused w).rget a = s.rget a := rget_when ((rget_fset_ne _ _ _ _ hstat).trans (rget_fset_ne _ _ _ _ hctrl))
  have hport : (s.manRefused w).portShown.rget a = (s.manRefused w).rget a := rget_when (rget_fset_ne _ _ _ _ hstat)
  refine Eq.trans ?_ (hport.trans hrefused)
  exact rget_when ((rget_fset_ne _ _ _ _ hstat).trans (rget_fset_ne _ _ _ _ hcur))

/-- A write of RFE_CTRL without SRST settles MAN, and may turn the front end off or on. -/
theorem rfeHook_ctrl {w : WCtx} (s : State) (h : w.off = 0x004) (hr : w.one RFE_CTRL.SRST = false) : rfeHook w s =
    if w.clears RFE_CTRL.EN then (s.manSettled w).rfeOff
    else if w.sets RFE_CTRL.EN then
      { s.manSettled w with rfe := { (s.manSettled w).rfe with servesFrom := (s.manSettled w).frcN + us 40 } }.workNext none
    else s.manSettled w := by
  have hctrl : rfeHook w s = rfeCtrlHook w s := if_pos h
  rw [hctrl]
  unfold rfeCtrlHook
  dsimp only
  rw [hr, if_neg Bool.false_ne_true]
  rfl

/-- A field that a write leaves is neither set nor cleared. -/
theorem sets_clears_same {w : WCtx} {f : Fld} (h : fieldGet w.new f = fieldGet w.old f) : w.sets f = false ∧ w.clears f = false := by
  unfold WCtx.sets WCtx.clears
  rw [h]
  cases hx : fieldGet w.old f == 0 <;> simp [bne, hx]

section
variable {s : State} {a : Acc} {v : Word} (ha : Accepted s a RFE_CTRL.addr)
include ha

/-- A write that sets MAN and leaves EN does what `manSettled` says. -/
theorem exec_rfeManWrite (hm : s.fbit RFE_CTRL.MAN = false) (hman : fieldGet (writtenTo s a RFE_CTRL.addr v) RFE_CTRL.MAN = 1)
    (hen : fieldGet (writtenTo s a RFE_CTRL.addr v) RFE_CTRL.EN = s.fget RFE_CTRL.EN) (hv : bitOf v.toNat 1 = false) :
    ∃ w t, exec (.rfeManWrite a v) s = .next (t.manSettled w) ∧ w.sets RFE_CTRL.MAN = true
      ∧ JustStored s t RFE_CTRL.addr (writtenTo s a RFE_CTRL.addr v) := by
  obtain ⟨w, t, hwrite, ⟨hoff, hold, hnew, hquiet⟩, hstored⟩ := writeReg_stores rfeHook v ha (by decide +kernel) (by decide +kernel)
  have hset : w.sets RFE_CTRL.MAN = true := by
    refine (sets_en w RFE_CTRL.MAN (b := false) ?_ ?_).1
    · rw [hold]
      exact hm
    · rw [hnew, hman]
      rfl
  obtain ⟨hnoset, hnoclear⟩ := sets_clears_same (w := w) (f := RFE_CTRL.EN) (by rw [hnew, hold, hen]; rfl)
  rw [rfeHook_ctrl t hoff (hquiet 1 hv), hnoclear, if_neg Bool.false_ne_true, hnoset, if_neg Bool.false_ne_true] at hwrite
  exact ⟨w, t, congrArg Host.Outcome.next hwrite, hset, hstored⟩

theorem rfeManWrite_settles (hm : s.fbit RFE_CTRL.MAN = false) (hman : fieldGet (writtenTo s a RFE_CTRL.addr v) RFE_CTRL.MAN = 1)
    (hen : fieldGet (writtenTo s a RFE_CTRL.addr v) RFE_CTRL.EN = s.fget RFE_CTRL.EN) (hv : bitOf v.toNat 1 = false) :
    (s.fbit CAD_CTRL.EN = false → Does (.rfeManWrite a v) s fun u =>
        u.fbit RFE_CTRL.MAN = true ∧ u.fbit RFE_STAT.MAN_REFUSED = s.fbit RFE_STAT.MAN_REFUSED)
      ∧ (s.fbit CAD_CTRL.EN = true → Does (.rfeManWrite a v) s fun u =>
        u.fbit RFE_CTRL.MAN = false ∧ u.fbit RFE_STAT.MAN_REFUSED = true) := by
  obtain ⟨w, t, hexec, hset, hstored⟩ := exec_rfeManWrite ha hm hman hen hv
  have hcad : t.fbit CAD_CTRL.EN = s.fbit CAD_CTRL.EN := fbit_congr (hstored.fget_off _ (by decide) (by decide) (by decide))
  constructor
  · intro hc
    have htman : t.fget RFE_CTRL.MAN = 1 := (JustStored.fget_self hstored).trans hman
    rw [manSettled_taken hset (hcad.trans hc) (fbit_of_fget_one htman), State.manTune] at hexec
    refine ⟨_, hexec, fbit_of_fget_one ?_, fbit_congr ?_⟩
    · rw [fget_fset_reg _ _ _ _ (by decide), fget_fset_reg _ _ _ _ (by decide), fget_fset_reg _ _ _ _ (by decide), htman]
    · rw [fget_fset_apart _ _ _ _ (by decide) (by decide), fget_fset_reg _ _ _ _ (by decide),
        fget_fset_apart _ _ _ _ (by decide) (by decide)]
      exact hstored.fget_off _ (by decide) (by decide) (by decide)
  · intro hc
    rw [manSettled_refused hset (hcad.trans hc)] at hexec
    refine ⟨_, hexec, fbit_of_fget_zero ?_, fbit_of_fget_one (fget_fset_self _ _ _ (by decide))⟩
    rw [fget_fset_reg _ _ _ _ (by decide)]
    exact fget_fset_self _ _ _ (by decide)

end

theorem rfeSynManWrite_tunes (s : State) (a : Acc) (v : Word) (ha : Accepted s a RFE_SYN_MAN.addr) (hm : s.fbit RFE_CTRL.MAN = true) :
    Does (.rfeSynManWrite a v) s fun u =>
      u.fget RFE_SYN_CUR.FREQ = fieldGet (writtenTo s a RFE_SYN_MAN.addr v) RFE_SYN_MAN.FREQ ∧ u.fbit RFE_STAT.LOCK = false := by
  obtain ⟨w, t, hwrite, ⟨hoff, -, -, -⟩, hstored⟩ := writeReg_stores rfeHook v ha (by decide +kernel) (by decide +kernel)
  have hman : t.fbit RFE_CTRL.MAN = true := (fbit_congr (hstored.fget_off _ (by decide) (by decide) (by decide))).trans hm
  have hhook : rfeHook w t = t.manTune := by
    unfold rfeHook
    rw [hoff, hman]
    rfl
  rw [hhook] at hwrite
  refine ⟨_, congrArg Host.Outcome.next hwrite, ?_, fbit_of_fget_zero (fget_fset_self _ _ _ (by decide))⟩
  rw [State.manTune, fget_fset_reg _ _ _ _ (by decide), fget_fset_self _ _ _ (by decide), ← JustStored.fget_self hstored]
  exact Nat.mod_eq_of_lt (fget_lt t RFE_SYN_MAN.FREQ)

/-! ## A disable (R85) -/

theorem rget_slotCut (s : State) {a : Nat} (h : a ≠ RFE_CNT.addr) : s.slotCut.rget a = s.rget a := by
  unfold State.slotCut
  split
  · dsimp only
    split
    · rfl
    · exact rget_finc_ne _ RFE_CNT.LOST a h
  · rfl

/-- The transmission and the lanes have stopped. -/
def State.radioStopped (s : State) : State := (List.range 16).foldl (fun s n => s.laneStop n) (s.slotCut.txAbort 1)

theorem rget_radioStopped (s : State) {a : Nat} (h : onPages [Pg.TXM] a = false) (hl : onPages lanePages a = false)
    (hc : a ≠ RFE_CNT.addr) : s.radioStopped.rget a = s.rget a := by
  have hlanes : LaneWork (s.slotCut.txAbort 1) s.radioStopped := (LaneWork.refl _).foldl fun hn h => h.laneStop (List.mem_range.1 hn)
  have htxm : pageOf a ≠ Pg.TXM := by simpa [onPages] using h
  rw [hlanes.off a hl, rget_txAbort _ _ htxm, rget_slotCut _ hc]

/-- A front end that is turned off has no lock, no wideband path, no running calibration and no window; requests stand. -/
theorem rfeOff_leaves (s : State) : s.rfeOff.fbit RFE_STAT.LOCK = false ∧ s.rfeOff.fbit RFE_STAT.WB_ON = false
    ∧ s.rfeOff.rfe.running = none ∧ s.rfeOff.rfe.window = false ∧ s.rfeOff.rget RFE_CAL_STAT.addr = s.rget RFE_CAL_STAT.addr := by
  have hoff : s.rfeOff = s.radioStopped.workAbort.windowShut.fset RFE_STAT.LOCK 0 := rfl
  rw [hoff]
  refine ⟨fbit_of_fget_zero (fget_fset_self _ _ _ (by decide)), fbit_of_fget_zero ?_, ?_, ?_, ?_⟩
  · exact (fget_fset_apart _ _ _ _ (by decide) (by decide)).trans (windowShut_wideband _)
  · rw [fset_rfe, windowShut_rfe]
    rfl
  · rw [fset_rfe, windowShut_rfe]
  · rw [rget_fset_ne _ _ _ _ (by decide), rget_windowShut _ (by decide) (by decide), State.workAbort, rget_fset_ne _ _ _ _ (by decide),
      rget_fset_ne _ _ _ _ (by decide)]
    exact rget_radioStopped s (by decide) (by decide) (by decide)

theorem rfeDisable_stops (s : State) (a : Acc) (v : Word) (ha : Accepted s a RFE_CTRL.addr) (he : s.fbit RFE_CTRL.EN = true)
    (hen : fieldGet (writtenTo s a RFE_CTRL.addr v) RFE_CTRL.EN = 0) (hv : bitOf v.toNat 1 = false) :
    Does (.rfeDisable a v) s fun u => u.fbit RFE_STAT.LOCK = false ∧ u.fbit RFE_STAT.WB_ON = false ∧ u.rfe.running = none
      ∧ u.rfe.window = false ∧ u.fget RFE_CAL_STAT.PEND = s.fget RFE_CAL_STAT.PEND := by
  obtain ⟨w, t, hwrite, ⟨hoff, hold, hnew, hquiet⟩, hstored⟩ := writeReg_stores rfeHook v ha (by decide +kernel) (by decide +kernel)
  have hclears : w.clears RFE_CTRL.EN = true := by
    refine (sets_en w RFE_CTRL.EN (b := true) ?_ ?_).2
    · rw [hold]
      exact he
    · rw [hnew, hen]
      rfl
  rw [rfeHook_ctrl t hoff (hquiet 1 hv), hclears, if_pos rfl] at hwrite
  obtain ⟨hlock, hwide, hrun, hwin, hcal⟩ := rfeOff_leaves (t.manSettled w)
  refine ⟨_, congrArg Host.Outcome.next hwrite, hlock, hwide, hrun, hwin, fget_of_rget RFE_CAL_STAT.PEND ?_⟩
  rw [show RFE_CAL_STAT.PEND.addr = RFE_CAL_STAT.addr from rfl, hcal, rget_manSettled _ _ (by decide) (by decide) (by decide)]
  exact hstored.off _ (by decide) (by decide) (by decide)

/-- Settles O21: the lock check, a loss of lock, manual tuning and a disable. -/
theorem lockAndTuning : Obligations.LockAndTuning :=
  ⟨⟨fun _ t _ hs hl hlost hk ht hv => lockSample_locks hs hl hlost hk t ht hv,
      fun _ t locked _ hs hl hlost hk ht hv => lockSample_loses hs hl hlost hk t locked ht hv,
      fun _ t _ hs hl hlost hk hb => lossOfLock_receiving hs hl hlost t hk hb,
      fun _ t _ x hs hl hlost hk hx hb h5 => lossOfLock_transmitting hs hl hlost t x hk hx hb h5⟩,
    fun _ _ _ ha hm hman hen hv => rfeManWrite_settles ha hm hman hen hv, rfeSynManWrite_tunes, rfeDisable_stops⟩

end Sys2Proof.Machine
end

section
/-!
THE COUNTS STAY (O7). Every operation of the model, from a field's write to a command, keeps `Shaped`: one lemma `Shaped.<operation>` per
operation of the model, in the model's order; a proof names the operations that the operation is made of.
-/
namespace Sys2Proof.Machine
open Sys2Proof
-- A thousand lemmas checked at once take more threads than the check's memory limit allows: check them one after another.
set_option Elab.async false

/-- The counts of `Shape` as a conjunction: of a state with other parts updated it is the same proposition. -/
def Shaped (s : State) : Prop :=
  s.coreA.w.length = 15 ∧ s.coreG.w.length = 15 ∧ s.lanes.length = 16 ∧ s.keys.length = 32 ∧ s.cipu.length = 8 ∧ s.tmr.length = 8
    ∧ s.dma.length = 8 ∧ s.trf.queues.length = 64 ∧ s.trf.subs.length = 8 ∧ s.hdr.entries.length = 4 ∧ s.glade.gpc.length = 4
    ∧ s.glade.cnt.length = 5

theorem shaped_iff {s : State} : Shaped s ↔ Sys2Proof.Shape s :=
  ⟨fun ⟨wA, wG, lanes, keys, cipu, tmr, dma, queues, subs, tickets, gpc, cnt⟩ =>
      { wA, wG, lanes, keys, cipu, tmr, dma, queues, subs, tickets, gpc, cnt },
    fun h => ⟨h.wA, h.wG, h.lanes, h.keys, h.cipu, h.tmr, h.dma, h.queues, h.subs, h.tickets, h.gpc, h.cnt⟩⟩

theorem Shaped.shape {s : State} (h : Shaped s) : Sys2Proof.Shape s := shaped_iff.1 h

/-! ## Answers that carry a state -/

/-- The state with which an access of a core ends, if it ends, has its counts. -/
inductive GotShaped : Got → Prop where
  | ok {v : Nat} {t : State} (h : Shaped t) : GotShaped (.ok v t)
  | fault {f : Flt} {t : State} (h : Shaped t) : GotShaped (.fault f t)
  | stall : GotShaped .stall

/-- A state that may be missing has its counts. -/
inductive OptShaped : Option State → Prop where
  | some {t : State} (h : Shaped t) : OptShaped (some t)
  | none : OptShaped none

/-- What a read with an effect of its own leaves, where the register has one, has its counts. -/
inductive ReadShaped : Option (State × Nat) → Prop where
  | some {r : State × Nat} (h : Shaped r.1) : ReadShaped (some r)
  | none : ReadShaped none

/-- A command completes, and its next state has its counts. -/
inductive OutShaped : Host.Outcome State Fault Refusal → Prop where
  | next {t : State} (h : Shaped t) : OutShaped (.next t)

variable {s : State}

theorem GotShaped.ofOk {g : Got} {v : Nat} {t : State} (hg : GotShaped g) (e : g = .ok v t) : Shaped t := by
  subst e; cases hg; assumption
theorem GotShaped.ofFault {g : Got} {f : Flt} {t : State} (hg : GotShaped g) (e : g = .fault f t) : Shaped t := by
  subst e; cases hg; assumption
theorem OptShaped.ofSome {o : Option State} {t : State} (ho : OptShaped o) (e : o = .some t) : Shaped t := by
  subst e; cases ho; assumption

theorem ReadShaped.ofSome {o : Option (State × Nat)} {r : State × Nat} (ho : ReadShaped o) (e : o = .some r) : Shaped r.1 := by
  subst e; cases ho; assumption

theorem Shaped.ofFst {α : Type} {p : State × α} {t : State} {x : α} (h : Shaped p.1) (e : p = (t, x)) : Shaped t := by subst e; exact h
theorem Shaped.ofSnd {α : Type} {p : α × State} {t : State} {x : α} (h : Shaped p.2) (e : p = (x, t)) : Shaped t := by subst e; exact h
theorem Shaped.ofSnd₂ {α β : Type} {p : α × β × State} {t : State} {x : α} {y : β} (h : Shaped p.2.2) (e : p = (x, y, t)) : Shaped t := by
  subst e; exact h

/-! ## Branches and loops -/

section
variable {α β : Type} {c : Prop} {d : Decidable c}

protected theorem Shaped.ite {a b : State} (ha : Shaped a) (hb : Shaped b) : Shaped (@ite _ c d a b) := by split <;> assumption
protected theorem Shaped.iteFst {a b : State × α} (ha : Shaped a.1) (hb : Shaped b.1) : Shaped (@ite _ c d a b).1 := by
  split <;> assumption
protected theorem Shaped.iteSnd {a b : α × State} (ha : Shaped a.2) (hb : Shaped b.2) : Shaped (@ite _ c d a b).2 := by
  split <;> assumption
protected theorem Shaped.iteSnd₂ {a b : α × β × State} (ha : Shaped a.2.2) (hb : Shaped b.2.2) : Shaped (@ite _ c d a b).2.2 := by
  split <;> assumption
protected theorem GotShaped.ite {a b : Got} (ha : GotShaped a) (hb : GotShaped b) : GotShaped (@ite _ c d a b) := by split <;> assumption
protected theorem OptShaped.ite {a b : Option State} (ha : OptShaped a) (hb : OptShaped b) :
    OptShaped (@ite _ c d a b) := by split <;> assumption
protected theorem ReadShaped.ite {a b : Option (State × Nat)} (ha : ReadShaped a) (hb : ReadShaped b) : ReadShaped (@ite _ c d a b) := by
  split <;> assumption
protected theorem OutShaped.ite {a b : Host.Outcome State Fault Refusal} (ha : OutShaped a) (hb : OutShaped b) :
    OutShaped (@ite _ c d a b) := by
  split <;> assumption

/-- Something is done to a state when a condition holds. -/
theorem Shaped.when {t : State} (h : Shaped s) (hf : Shaped s → Shaped t) : Shaped (@ite _ c d t s) := .ite (hf h) h
/-- Something is done to a state unless a condition holds. -/
theorem Shaped.unless {t : State} (h : Shaped s) (hf : Shaped s → Shaped t) : Shaped (@ite _ c d s t) := .ite h (hf h)
/-- One of two things is done to a state. -/
theorem Shaped.either {t u : State} (h : Shaped s) (hf : Shaped s → Shaped t) (hg : Shaped s → Shaped u) : Shaped (@ite _ c d t u) :=
  .ite (hf h) (hg h)

theorem Shaped.foldl {f : State → α → State} {l : List α} (h : Shaped s) (hf : ∀ {t x}, Shaped t → Shaped (f t x)) :
    Shaped (l.foldl f s) := by
  induction l generalizing s with
  | nil => exact h
  | cons x l ih => exact ih (hf h)

theorem Shaped.foldlFst {f : State × β → α → State × β} {l : List α} {r : State × β} (h : Shaped r.1)
    (hf : ∀ {t x}, Shaped t.1 → Shaped (f t x).1) : Shaped (l.foldl f r).1 := by
  induction l generalizing r with
  | nil => exact h
  | cons x l ih => exact ih (hf h)

theorem Shaped.foldlSnd {f : β × State → α → β × State} {l : List α} {r : β × State} (h : Shaped r.2)
    (hf : ∀ {t x}, Shaped t.2 → Shaped (f t x).2) : Shaped (l.foldl f r).2 := by
  induction l generalizing r with
  | nil => exact h
  | cons x l ih => exact ih (hf h)

theorem Shaped.foldr {f : α → State → State} {l : List α} (h : Shaped s) (hf : ∀ {x t}, Shaped t → Shaped (f x t)) :
    Shaped (l.foldr f s) := by
  induction l with
  | nil => exact h
  | cons x l ih => exact hf ih

theorem Shaped.elim {o : Option α} {f : α → State} (h : Shaped s) (hf : ∀ {x}, Shaped (f x)) : Shaped (o.elim s f) := by
  cases o with
  | none => exact h
  | some x => exact hf

theorem Shaped.elimFst {o : Option α} {r : State × β} {f : α → State × β} (h : Shaped r.1) (hf : ∀ {x}, Shaped (f x).1) :
    Shaped (o.elim r f).1 := by
  cases o with
  | none => exact h
  | some x => exact hf

theorem OptShaped.getD {o : Option State} (ho : OptShaped o) (h : Shaped s) : Shaped (o.getD s) := by
  cases ho with
  | some ht => exact ht
  | none => exact h

theorem OptShaped.map {o : Option State} {f : State → State} (ho : OptShaped o) (hf : ∀ {t}, Shaped t → Shaped (f t)) :
    OptShaped (o.map f) := by
  cases ho with
  | some ht => exact .some (hf ht)
  | none => exact .none

end

/-! ## Parts of the state -/

/-- Nothing is changed but what the counts do not see, or lists that keep their lengths. -/
theorem Shaped.ofLengths {t : State} (h : Shaped s) (hwA : t.coreA.w.length = s.coreA.w.length := by rfl)
    (hwG : t.coreG.w.length = s.coreG.w.length := by rfl) (hlanes : t.lanes.length = s.lanes.length := by rfl)
    (hkeys : t.keys.length = s.keys.length := by rfl) (hcipu : t.cipu.length = s.cipu.length := by rfl)
    (htmr : t.tmr.length = s.tmr.length := by rfl) (hdma : t.dma.length = s.dma.length := by rfl)
    (hqueues : t.trf.queues.length = s.trf.queues.length := by rfl) (hsubs : t.trf.subs.length = s.trf.subs.length := by rfl)
    (htickets : t.hdr.entries.length = s.hdr.entries.length := by rfl) (hgpc : t.glade.gpc.length = s.glade.gpc.length := by rfl)
    (hcnt : t.glade.cnt.length = s.glade.cnt.length := by rfl) : Shaped t := by
  unfold Shaped
  rw [hwA, hwG, hlanes, hkeys, hcipu, htmr, hdma, hqueues, hsubs, htickets, hgpc, hcnt]
  exact h

@[simp] theorem length_setAt {α : Type} (l : List α) (n : Nat) (x : α) : (setAt l n x).length = l.length := by
  induction l generalizing n with
  | nil => rfl
  | cons y l ih =>
    cases n with
    | zero => rfl
    | succ n => exact congrArg (· + 1) (ih n)

/-- Counts of the traffic scheduler: queues and subbands. -/
def TrfState.counts (x : TrfState) : Nat × Nat := (x.queues.length, x.subs.length)
/-- Counts of the Glade: pulse channels and legal counters. -/
def Glade.counts (g : Glade) : Nat × Nat := (g.gpc.length, g.cnt.length)

theorem Shaped.withNow {x : Nat} (h : Shaped s) : Shaped { s with now := x } := h
theorem Shaped.withFreeCtr {x : Nat} (h : Shaped s) : Shaped { s with freeCtr := x } := h
theorem Shaped.withSys {x : SysS} (h : Shaped s) : Shaped { s with sys := x } := h
theorem Shaped.withPwr {x : PwrS} (h : Shaped s) : Shaped { s with pwr := x } := h
theorem Shaped.withBus {x : BusState} (h : Shaped s) : Shaped { s with bus := x } := h
theorem Shaped.withProt {x : ProtState} (h : Shaped s) : Shaped { s with prot := x } := h
theorem Shaped.withOvl {x : OvlState} (h : Shaped s) : Shaped { s with ovl := x } := h
theorem Shaped.withNtu {x : NtuState} (h : Shaped s) : Shaped { s with ntu := x } := h
theorem Shaped.withCul {x : CulState} (h : Shaped s) : Shaped { s with cul := x } := h
theorem Shaped.withRfe {x : RfeState} (h : Shaped s) : Shaped { s with rfe := x } := h
theorem Shaped.withSlot {x : Option Slot} (h : Shaped s) : Shaped { s with slot := x } := h
theorem Shaped.withCad {x : CadState} (h : Shaped s) : Shaped { s with cad := x } := h
theorem Shaped.withFec {x : FecState} (h : Shaped s) : Shaped { s with fec := x } := h
theorem Shaped.withPhase {x : Phase} (h : Shaped s) : Shaped { s with phase := x } := h
theorem Shaped.withTxm {x : TxmState} (h : Shaped s) : Shaped { s with txm := x } := h
theorem Shaped.withCaches {x : Caches} (h : Shaped s) : Shaped { s with caches := x } := h
theorem Shaped.withDmaLast {x : Nat} (h : Shaped s) : Shaped { s with dmaLast := x } := h
theorem Shaped.withFlash {x : FlashState} (h : Shaped s) : Shaped { s with flash := x } := h
theorem Shaped.withMemst {x : MemState} (h : Shaped s) : Shaped { s with memst := x } := h
theorem Shaped.withStaged {x : List (Nat × Word)} (h : Shaped s) : Shaped { s with staged := x } := h
theorem Shaped.withUpd {x : UpdState} (h : Shaped s) : Shaped { s with upd := x } := h
theorem Shaped.withRtc {x : RtcState} (h : Shaped s) : Shaped { s with rtc := x } := h
theorem Shaped.withPads {x : Pads} (h : Shaped s) : Shaped { s with pads := x } := h
theorem Shaped.withHsp {x : HspState} (h : Shaped s) : Shaped { s with hsp := x } := h
theorem Shaped.withPsp {x : PspState} (h : Shaped s) : Shaped { s with psp := x } := h
theorem Shaped.withTst {x : TstState} (h : Shaped s) : Shaped { s with tst := x } := h
theorem Shaped.withLanes {x : List Lane} (h : Shaped s) (hx : x.length = s.lanes.length) : Shaped { s with lanes := x } :=
  h.ofLengths (hlanes := hx)
theorem Shaped.withKeys {x : List KeySlot} (h : Shaped s) (hx : x.length = s.keys.length) : Shaped { s with keys := x } :=
  h.ofLengths (hkeys := hx)
theorem Shaped.withDma {x : List DmaCh} (h : Shaped s) (hx : x.length = s.dma.length) : Shaped { s with dma := x } :=
  h.ofLengths (hdma := hx)
theorem Shaped.withCipu {x : List Cipu} (h : Shaped s) (hx : x.length = s.cipu.length) : Shaped { s with cipu := x } :=
  h.ofLengths (hcipu := hx)
theorem Shaped.withTmr {x : List Tmr} (h : Shaped s) (hx : x.length = s.tmr.length) : Shaped { s with tmr := x } :=
  h.ofLengths (htmr := hx)
theorem Shaped.withTrf {x : TrfState} (h : Shaped s) (hx : x.counts = s.trf.counts := by rfl) : Shaped { s with trf := x } :=
  h.ofLengths (hqueues := congrArg Prod.fst hx) (hsubs := congrArg Prod.snd hx)
theorem Shaped.withHdr {x : HdrState} (h : Shaped s) (hx : x.entries.length = s.hdr.entries.length := by rfl) : Shaped { s with hdr := x } :=
  h.ofLengths (htickets := hx)
theorem Shaped.withCoreA {x : Core} (h : Shaped s) (hx : x.w.length = s.coreA.w.length := by rfl) : Shaped { s with coreA := x } :=
  h.ofLengths (hwA := hx)
theorem Shaped.withCoreG {x : Core} (h : Shaped s) (hx : x.w.length = s.coreG.w.length := by rfl) : Shaped { s with coreG := x } :=
  h.ofLengths (hwG := hx)
theorem Shaped.withGlade {g : Glade} (h : Shaped s) (hg : g.counts = s.glade.counts := by rfl) : Shaped { s with glade := g } :=
  h.ofLengths (hgpc := congrArg Prod.fst hg) (hcnt := congrArg Prod.snd hg)
theorem Shaped.setGlade {f : Glade → Glade} (h : Shaped s) (hg : (f s.glade).counts = s.glade.counts := by rfl) : Shaped (s.setGlade f) :=
  h.withGlade hg

/-! ## The stores -/

theorem Shaped.withRegs {x : List (Nat × Word)} (h : Shaped s) : Shaped { s with regs := x } := h
theorem Shaped.rset {a : Nat} {v : Word} (h : Shaped s) : Shaped (s.rset a v) := h.withRegs
theorem Shaped.filterRegs {p : Nat × Word → Bool} (h : Shaped s) : Shaped { s with regs := s.regs.filter p } := h.withRegs
theorem Shaped.resetRegs {p : Nat → Bool} (h : Shaped s) : Shaped (s.resetRegs p) := h.filterRegs
theorem Shaped.withMem {x : List Host.Cell} (h : Shaped s) : Shaped { s with mem := x } := h
theorem Shaped.setByte {a : Nat} {v : Byte} (h : Shaped s) : Shaped (s.setByte a v) := h.withMem
theorem Shaped.setBytes {a n v : Nat} (h : Shaped s) : Shaped (s.setBytes a n v) := by
  induction n generalizing s a v with
  | zero => exact h
  | succ n ih => exact ih h.setByte
theorem Shaped.setList {a : Nat} {l : List Byte} (h : Shaped s) : Shaped (s.setList a l) := by
  induction l generalizing s a with
  | nil => exact h
  | cons b l ih => exact ih h.setByte
theorem Shaped.clearRange {lo hi : Nat} (h : Shaped s) : Shaped (s.clearRange lo hi) := h.withMem

/-! ## Time -/

theorem Shaped.advance {t : Frc} (h : Shaped s) : Shaped (s.advance t) := by
  have e := advance_only s t
  unfold TimeOnly at e
  rw [e]
  exact h.ofLengths

/-! ## The operations of Machine/Ops.lean -/

theorem Shaped.fset {f : Fld} {x : Nat} (h : Shaped s) : Shaped (s.fset f x) := h.rset
theorem Shaped.fsetB {f : Fld} {b : Bool} (h : Shaped s) : Shaped (s.fsetB f b) := h.fset
theorem Shaped.fsetI {f : Fld} {x : Int} (h : Shaped s) : Shaped (s.fsetI f x) := h.fset
theorem Shaped.fadd {f : Fld} {n : Nat} (h : Shaped s) : Shaped (s.fadd f n) := h.fset
theorem Shaped.finc {f : Fld} (h : Shaped s) : Shaped (s.finc f) := h.fadd
theorem Shaped.rsetN {a v : Nat} (h : Shaped s) : Shaped (s.rsetN a v) := h.rset
theorem Shaped.raise {p bit : Nat} (h : Shaped s) : Shaped (s.raise p bit) := h.fset
theorem Shaped.freeStep (h : Shaped s) : Shaped s.freeStep := h.withFreeCtr
theorem Shaped.reAnchorAt (h : Shaped s) : Shaped s.reAnchorAt := h.withNtu
theorem Shaped.slew {t : Nat} (h : Shaped s) : Shaped (s.slew t) := .ite h h.withNtu
theorem Shaped.audit {src : Source} {kind page off count old new : Nat} (h : Shaped s) :
    Shaped (s.audit src kind page off count old new) :=
  h.withProt.fset.raise
theorem Shaped.reject {src : Source} {page off : Nat} {wr : Bool} {cause : Nat} (h : Shaped s) :
    Shaped (s.reject src page off wr cause) :=
  h.rsetN.finc.fset.raise.withBus

/-! ## The operations of Machine/Events.lean -/

theorem Shaped.tmrSet {n : Nat} {f : Tmr → Tmr} (h : Shaped s) : Shaped (s.tmrSet n f) :=
  h.withTmr (length_setAt _ _ _)
theorem Shaped.tmrArm {n k : Nat} (h : Shaped s) : Shaped (s.tmrArm n k) := h.fset
theorem Shaped.tmrDisarm {n k : Nat} (h : Shaped s) : Shaped (s.tmrDisarm n k) := h.fset
theorem Shaped.tmrArmAll {n : Nat} (h : Shaped s) : Shaped (s.tmrArmAll n) := h.foldl fun h => h.tmrArm
theorem Shaped.tmrReset {n : Nat} (h : Shaped s) : Shaped (s.tmrReset n) := h.rsetN.tmrArmAll
theorem Shaped.tmrStart {n : Nat} (h : Shaped s) : Shaped (s.tmrStart n) := h.fset.tmrArmAll
theorem Shaped.tmrChain {n src : Nat} (h : Shaped s) : Shaped (s.tmrChain n src) := by
  unfold State.tmrChain
  split
  · exact h
  · split
    · exact h.tmrReset
    · exact h.tmrStart
    · exact h.tmrReset
    · exact h
theorem Shaped.tmrTick {n : Nat} (h : Shaped s) : Shaped (s.tmrTick n).1 := .iteFst h (.iteFst h.rsetN h.rsetN.tmrArmAll.raise.tmrChain)
theorem Shaped.tmrClock {n : Nat} (h : Shaped s) : Shaped (s.tmrClock n).1 := .iteFst h (.iteFst h.tmrSet.tmrTick h.tmrSet)
theorem Shaped.tmrLand {n k : Nat} (h : Shaped s) : Shaped (s.tmrLand n k).1 := (h.rsetN.when fun h => h.fset.raise).fset.raise.tmrChain
theorem Shaped.tmrEdge {n k : Nat} (h : Shaped s) : Shaped (s.tmrEdge n k).1 :=
  .iteFst h (.iteFst (.iteFst h.tmrSet h.tmrSet.tmrLand) h.tmrLand)
theorem Shaped.onTimers {f : Nat → State → State × List Nat} (h : Shaped s) (hf : ∀ {x0 t}, Shaped t → Shaped (f x0 t).1) :
    Shaped (s.onTimers f).1 :=
  h.foldlFst hf
theorem Shaped.adcStart (h : Shaped s) : Shaped s.adcStart := .ite h (.ite h.finc h.withPads)
theorem Shaped.dmaRequest {ch : Nat} (h : Shaped s) : Shaped (s.dmaRequest ch) := .ite h (.ite (h.withDma (length_setAt _ _ _)) h.finc)
theorem Shaped.irqLatch {c : Nat} (h : Shaped s) : Shaped (s.irqLatch c) := .ite h h.withCoreA
theorem Shaped.wakeEvent {b : Nat} (h : Shaped s) : Shaped (s.wakeEvent b) := .ite h h.withPwr
theorem Shaped.consume {c : Nat} (h : Shaped s) : Shaped (s.consume c).1 :=
  .iteFst h.irqLatch (.iteFst h.dmaRequest (.iteFst h.wakeEvent (.iteFst h.withCul (.iteFst (.ite h.adcStart h) (.iteFst h.tmrStart
    (.iteFst h.tmrReset (.iteFst (h.onTimers (fun h => .iteFst h.tmrEdge h)) (h.onTimers (fun h => h.tmrClock)))))))))
theorem Shaped.deliver {c : Nat} (h : Shaped s) : Shaped (s.deliver c).1 := .iteFst h.consume h.fset.finc.raise
theorem Shaped.culMerge {n : Nat} (h : Shaped s) : Shaped (s.culMerge n) := .ite h h.fset.fadd
theorem Shaped.route {cs : List Nat} (h : Shaped s) : Shaped (s.route cs).1 :=
  (h.culMerge.when fun h => h.finc).foldlFst fun h => h.deliver
theorem Shaped.raiseAll {n : Nat} {ps : List Nat} (h : Shaped s) : Shaped (s.raiseAll n ps) := by
  induction n generalizing s ps with
  | zero => exact .ite h h.withCul
  | succ n ih => exact .ite h (ih h.route)
theorem Shaped.publishAll {ps : List Nat} (h : Shaped s) : Shaped (s.publishAll ps) := h.raiseAll
theorem Shaped.publish {p : Nat} (h : Shaped s) : Shaped (s.publish p) := h.publishAll
theorem Shaped.event {page bit p : Nat} (h : Shaped s) : Shaped (s.event page bit p) := .ite h.publish h

/-! ## The operations of Machine/Access.lean -/

theorem Shaped.dirty {p : Nat} (h : Shaped s) : Shaped (s.dirty p) := .ite h.fset h.fset
theorem Shaped.holdLow {m : Master} {a : Nat} {v : Word} (h : Shaped s) : Shaped (s.holdLow m a v) := h.withBus
theorem Shaped.landLow {m : Master} {a : Nat} (h : Shaped s) : Shaped (s.landLow m a) := by
  unfold State.landLow
  split
  · exact h.rset.withBus
  · exact h
theorem Shaped.applyWrite {m : Master} {src : Source} {a : Nat} {v : Word} (h : Shaped s) : Shaped (s.applyWrite m src a v).1 := by
  unfold State.applyWrite
  extract_lets p off view ra old b
  have hb : Shaped b := h.when fun h => h.dirty
  exact .elimFst h (.iteFst (.iteFst hb.fset.raise.audit hb.rset.audit)
    (.iteFst (hb.when fun h => h.rset) (.iteFst hb.holdLow (.iteFst hb.landLow.rset hb.rset))))
theorem Shaped.writeAs {hook : WCtx → State → State} {m : Master} {src : Source} {a : Nat} {v : Word} (hf : ∀ {x0 t}, Shaped t → Shaped
    (hook x0 t)) (h : Shaped s) :
    Shaped (State.writeAs hook m src a v s) := by
  unfold State.writeAs
  split
  · exact h.withBus
  · exact h.reject
  · split
    · next e => exact hf (h.withBus.applyWrite.ofFst e)
    · next e => exact (h.withBus.applyWrite.ofFst e)
theorem Shaped.write {hook : WCtx → State → State} {m : Master} {a : Nat} {v : Word} (hf : ∀ {x0 t}, Shaped t → Shaped (hook x0 t))
    (h : Shaped s) :
    Shaped (State.write hook m a v s) :=
  h.writeAs hf
theorem Shaped.writeReg {hook : WCtx → State → State} {acc : Acc} {a : Nat} {v : Word} (hf : ∀ {x0 t}, Shaped t → Shaped (hook x0 t))
    (h : Shaped s) :
    Shaped (State.writeReg hook acc a v s) :=
  h.write hf
theorem Shaped.readAs {m : Master} {a : Nat} {f : State → State × Nat} (h : Shaped s) (hf : ∀ {t}, Shaped t → Shaped (f t).1) :
    Shaped (s.readAs m a f) := by
  unfold State.readAs
  dsimp only
  split
  · exact h.withBus
  · exact h.reject
  · exact (hf h).withBus
theorem Shaped.portWrite {hook : WCtx → State → State} {acc : Acc} {a cur : Nat} {v : Word} (hf : ∀ {x0 t}, Shaped t → Shaped (hook x0 t))
    (h : Shaped s) :
    Shaped (State.portWrite hook acc a cur v s) :=
  (h.rsetN.writeReg hf).rset
theorem Shaped.dropHeld {p : Nat} (h : Shaped s) : Shaped (s.dropHeld p) := h.withBus
theorem Shaped.srstPage {p : Nat} (h : Shaped s) : Shaped (s.srstPage p) := h.resetRegs.dropHeld.dirty.withPhase

/-! ## The operations of Machine/Mem.lean -/

theorem Shaped.setWord {a v : Nat} (h : Shaped s) : Shaped (s.setWord a v) := h.setBytes
theorem Shaped.eccUe {a : Nat} (h : Shaped s) : Shaped (s.eccUe a) := h.finc.rsetN
theorem Shaped.setMemst {f : MemState → MemState} (h : Shaped s) : Shaped (s.setMemst f) := h.withMemst
theorem Shaped.eccFix {a : Nat} (h : Shaped s) : Shaped (s.eccFix a) := h.setMemst
theorem Shaped.eccCheck {a : Nat} (h : Shaped s) : Shaped (s.eccCheck a).1 := by
  unfold State.eccCheck
  split
  · exact h
  · exact h.eccFix.finc
  · exact h.eccUe
theorem Shaped.eccSweep {p : Nat → Bool} (h : Shaped s) : Shaped (s.eccSweep p).1 := h.foldlFst fun h => h.eccCheck
theorem Shaped.fabricSet {a v : Nat} (h : Shaped s) : Shaped (s.fabricSet a v) := h.eccCheck.unless fun h => h.setWord
theorem Shaped.mset {a lo w x : Nat} (h : Shaped s) : Shaped (s.mset a lo w x) := h.fabricSet

/-! ## The operations of Machine/Commit.lean -/

theorem Shaped.phaseBegin (h : Shaped s) : Shaped s.phaseBegin := h.ofLengths
theorem Shaped.hold {t : State} (h2 : Shaped t) : Shaped (s.hold t) := h2.withPhase
theorem Shaped.unhold {a n : Nat} (h : Shaped s) : Shaped (s.unhold a n) := h.withPhase
theorem Shaped.rcShown {a : Nat} {rc : Word} (h : Shaped s) : Shaped (s.rcShown a rc) := by
  unfold State.rcShown
  split
  · exact h.rset.withPhase
  · exact h.rset

/-! ## The operations of Machine/Memory.lean -/

theorem Shaped.ramRead {a n : Nat} (h : Shaped s) : Shaped (s.ramRead a n).1 := .iteFst h (.iteFst h.eccCheck h.eccCheck)
theorem Shaped.sramUse {a : Nat} (h : Shaped s) : Shaped (s.sramUse a) := .ite h.fset.setMemst h
theorem Shaped.ramNote {a : Nat} (h : Shaped s) : Shaped (s.ramNote a) := .ite h.withCad (.ite (.ite h h.setWord) h.sramUse)
theorem Shaped.ramWrite {a n v : Nat} (h : Shaped s) : Shaped (s.ramWrite a n v).1 :=
  .iteFst h (.iteFst h.eccFix.setBytes.ramNote.unhold (.iteFst h.eccCheck h.eccCheck.setBytes.ramNote.unhold))
theorem Shaped.setFlash {f : FlashState → FlashState} (h : Shaped s) : Shaped (s.setFlash f) := h.withFlash
theorem Shaped.flashError {kind a : Nat} (h : Shaped s) : Shaped (s.flashError kind a) :=
  h.fset.fset.either (fun h => h.fset.raise) fun h => h.fset.raise
theorem Shaped.flashCorr {b n : Nat} (h : Shaped s) : Shaped (s.flashCorr b n) := h.setFlash
theorem Shaped.flashRead {a n : Nat} (h : Shaped s) : Shaped (s.flashRead a n).1 := by
  unfold State.flashRead
  split
  · exact h
  · split
    · exact h
    · split
      · exact h.flashError
      · split
        · exact .iteFst h.freeStep.flashError h.freeStep
        · split
          · exact .iteFst h.flashError h.flashCorr
          · exact h
theorem Shaped.flashLoose {a n : Nat} (h : Shaped s) : Shaped (s.flashLoose a n) := h.foldl fun h => h.setList.withFreeCtr.setFlash
theorem Shaped.flashSweep {a n : Nat} (h : Shaped s) : Shaped (s.flashSweep a n) := h.foldl fun h => h.flashCorr
theorem Shaped.flashTake {a n : Nat} (h : Shaped s) : Shaped (s.flashTake a n).1 := by
  unfold State.flashTake
  split
  · exact h
  · split
    · exact h
    · split
      · exact h.flashSweep.flashError
      · exact h.flashSweep
theorem Shaped.rangeRead {a n : Nat} (h : Shaped s) : Shaped (s.rangeRead a n).1 := by
  unfold State.rangeRead
  split
  · exact h.flashLoose.flashTake
  · exact .iteFst h h.eccSweep
  · exact h
theorem Shaped.memRead {m : Master} {a n : Nat} (h : Shaped s) : Shaped (s.memRead m a n).1 := by
  unfold State.memRead
  dsimp only
  split
  · exact h
  · split
    · exact h
    · split
      · exact h
      · split
        · exact h
        · split
          · exact h.flashRead
          · split
            · split <;> exact h
            · exact h.ramRead
theorem Shaped.memWrite {m : Master} {a n v : Nat} (h : Shaped s) : Shaped (s.memWrite m a n v).1 :=
  .iteFst h (.iteFst (.iteFst h (.iteFst h h.ramWrite)) h)
theorem Shaped.execBankClearDone (h : Shaped s) : OutShaped (execBankClearDone s) := .next h.setMemst
theorem Shaped.execSysSramUseWrite {a : Acc} {v : Word} (h : Shaped s) : OutShaped (execSysSramUseWrite a v s) :=
  .next (h.writeReg (fun h => h))

/-! ## The operations of Machine/Keys.lean -/

theorem Shaped.setKey {n : Nat} {k : KeySlot} (h : Shaped s) : Shaped (s.setKey n k) := h.withKeys (length_setAt _ _ _)
theorem Shaped.keyExhaust {n : Nat} (h : Shaped s) : Shaped (s.keyExhaust n) := .ite h h.setKey.finc.raise.event
theorem Shaped.keyUse {n : Nat} (h : Shaped s) : Shaped (s.keyUse n) := h.setKey.when fun h => h.keyExhaust
theorem Shaped.takeCounter {n : Nat} (h : Shaped s) : Shaped (s.takeCounter n).2 :=
  .ite (h.setKey.keyUse.when fun h => h.rsetN).keyExhaust h.setKey.keyUse

/-! ## The operations of Machine/Pool.lean -/

theorem Shaped.descSet {c word lo w x : Nat} (h : Shaped s) : Shaped (s.descSet c word lo w x) := h.mset
theorem Shaped.setTrf {f : TrfState → TrfState} (h : Shaped s) (hx : (f s.trf).counts = s.trf.counts := by rfl) : Shaped (s.setTrf f) :=
  h.withTrf hx
theorem Shaped.cellsTo {cs : List Nat} {st : Option CellState} (h : Shaped s) : Shaped (s.cellsTo cs st) := h.setTrf
theorem Shaped.putOctets {l : List Nat} {bs : List Byte} {first : Bool} (h : Shaped s) : Shaped (s.putOctets l bs first) := by
  induction l generalizing s bs first with
  | nil => exact h
  | cons c l ih => exact ih h.setList
theorem Shaped.linkChain {l : List Nat} (h : Shaped s) : Shaped (s.linkChain l) := by
  induction l generalizing s with
  | nil => exact h
  | cons c l ih =>
    cases l with
    | nil => exact h.setWord
    | cons d l =>
      unfold State.linkChain
      exact ih h.setWord
theorem Shaped.freeChain {cs : List Nat} (h : Shaped s) : Shaped (s.freeChain cs) := h.cellsTo
theorem Shaped.setQueue {q : Nat} {l : List Nat} (h : Shaped s) : Shaped (s.setQueue q l) := h.setTrf (Prod.ext (length_setAt _ _ _) rfl)
theorem Shaped.frameLeaves {q c result : Nat} (h : Shaped s) : Shaped (s.frameLeaves q c result) := by
  unfold State.frameLeaves
  extract_lets a b cs d e f
  have hd : Shaped d := h.setQueue.setTrf.descSet.descSet
  have he : Shaped e := .ite hd.finc (.ite hd.finc (.ite hd.finc hd.finc))
  exact .ite he.freeChain he.cellsTo.setTrf.raise.event

/-! ## The operations of Machine/Tables.lean -/

theorem Shaped.cellUsed {i asn : Nat} (h : Shaped s) : Shaped (s.cellUsed i asn) := h.mset.fabricSet
theorem Shaped.cellFail {i : Nat} (h : Shaped s) : Shaped (s.cellFail i) := h.mset
theorem Shaped.nbrSet {n word lo w x : Nat} (h : Shaped s) : Shaped (s.nbrSet n word lo w x) := h.mset
theorem Shaped.nbrInit {n : Nat} (h : Shaped s) : Shaped (s.nbrInit n) := by
  unfold State.nbrInit
  exact h.withCad.nbrSet.nbrSet.nbrSet.nbrSet.nbrSet.nbrSet
    |>.fabricSet.fabricSet.fabricSet.fabricSet.fabricSet.fabricSet.fabricSet.fabricSet.fabricSet.fabricSet
theorem Shaped.guardUpdate {n asn : Nat} (h : Shaped s) : Shaped (s.guardUpdate n asn) := by
  unfold State.guardUpdate
  dsimp only
  refine .when ?_ fun h => h.nbrSet.raise.event
  split
  · exact .ite (h.nbrSet.nbrSet.finc.raise.event.when fun h => h.raise) h.nbrSet
  · exact h.nbrSet
theorem Shaped.estUpdate {n : Nat} {want : Int} (h : Shaped s) : Shaped (s.estUpdate n want) :=
  .ite h (.ite (.ite h.withCad.fabricSet h) h.withCad.fabricSet)
theorem Shaped.wantFit {w : Int} (h : Shaped s) : Shaped (s.wantFit w).1 := .iteFst h h.freeStep
theorem Shaped.contact {n asn : Nat} {e : Int} (h : Shaped s) : Shaped (s.contact n asn e) := by
  unfold State.contact
  dsimp only
  refine .nbrSet <| .nbrSet <| .fabricSet <| .fabricSet <| .nbrSet <| .nbrSet <| .fabricSet ?_
  split
  · exact h.estUpdate
  · exact .ite h.estUpdate (.ite h.finc.fset.raise.estUpdate h.wantFit.fabricSet.withCad.estUpdate)

/-! ## The operations of Machine/Radio.lean -/

theorem Shaped.setLane {n : Nat} {l : Lane} (h : Shaped s) : Shaped (s.setLane n l) := h.withLanes (length_setAt _ _ _)
theorem Shaped.cwQueue {x : Codeword} (h : Shaped s) : Shaped (s.cwQueue x) := h.withFec
theorem Shaped.fecFill (h : Shaped s) : Shaped s.fecFill := by
  refine h.foldl fun h => ?_
  split
  · exact h.withFec
  · exact h
theorem Shaped.laneDrop {n : Nat} (h : Shaped s) : Shaped (s.laneDrop n) := h.freeChain.setLane.withFec.fecFill.when fun h => h.fset
theorem Shaped.laneTo {n st : Nat} (h : Shaped s) : Shaped (s.laneTo n st) := h.fset
theorem Shaped.laneSearch {n : Nat} (h : Shaped s) : Shaped (s.laneSearch n) := h.laneTo.setLane
theorem Shaped.laneRest {n : Nat} (h : Shaped s) : Shaped (s.laneRest n) := .ite h.laneSearch h.laneTo
theorem Shaped.laneAbort {n cause : Nat} (h : Shaped s) : Shaped (s.laneAbort n cause) :=
  .ite h (Shaped.ite h.finc h).fset.fset.finc.fset.raise.laneDrop.laneTo
theorem Shaped.laneStop {n : Nat} (h : Shaped s) : Shaped (s.laneStop n) := h.laneAbort.laneTo.setLane
theorem Shaped.laneLost {n cause : Nat} (h : Shaped s) : Shaped (s.laneLost n cause) := (Shaped.ite h h.laneAbort.laneTo).setLane
theorem Shaped.setRfe {f : RfeState → RfeState} (h : Shaped s) : Shaped (s.setRfe f) := h.withRfe
theorem Shaped.windowShut (h : Shaped s) : Shaped s.windowShut := (Shaped.ite h.fset.fset.fset h).fset.withRfe
theorem Shaped.setTicket {e : Nat} {t : Option Ticket} (h : Shaped s) : Shaped (s.setTicket e t) := h.withHdr (length_setAt _ _ _)
theorem Shaped.onTicket {e : Nat} {f : Ticket → Ticket} (h : Shaped s) : Shaped (s.onTicket e f) := by
  unfold State.onTicket
  split
  · exact h.setTicket
  · exact h
theorem Shaped.txAbort {cause : Nat} (h : Shaped s) : Shaped (s.txAbort cause) := by
  unfold State.txAbort
  split
  · exact h
  · exact .ite h (.ite h.withTxm
      ((h.withTxm.withSlot.fset.fset.finc.fset.fset.raise.when fun h => h.fset.raise).when fun h => h.fset))

/-! ## The operations of Machine/Duty.lean -/

theorem Shaped.dwellTrack {n f : Nat} (h : Shaped s) : OptShaped (s.dwellTrack n f) := .ite (.some h) (.ite .none (.some h.setTrf))
theorem Shaped.dutyReserve {f a : Nat} (h : Shaped s) : Shaped (s.dutyReserve f a).2 := by
  unfold State.dutyReserve
  split
  · exact h
  · split
    · exact h
    · exact .ite (h.dwellTrack.getD h) h
theorem Shaped.dutyNote (h : Shaped s) : Shaped s.dutyNote := h.fset.when fun h => h.raise.event
theorem Shaped.dutyCharge {f a : Nat} (h : Shaped s) : Shaped (s.dutyCharge f a) := by
  unfold State.dutyCharge
  split
  · exact h
  · split
    · exact h
    · extract_lets add t
      have ht : Shaped t := h.setTrf (Prod.ext rfl (length_setAt _ _ _))
      exact (Shaped.ite (ht.dwellTrack.getD ht).setTrf ht).dutyNote
theorem Shaped.dutyLose (h : Shaped s) : Shaped s.dutyLose := h.setTrf (Prod.ext rfl h.shape.subs.symm)
theorem Shaped.dutyEnable (h : Shaped s) : Shaped s.dutyEnable := .ite h (h.setTrf (Prod.ext rfl h.shape.subs.symm))
theorem Shaped.dutyAdvance {n : Nat} {dwell : Bool} (h : Shaped s) : Shaped (s.dutyAdvance n dwell) := 
  .ite h (.ite h.setTrf (h.setTrf (Prod.ext rfl (length_setAt _ _ _))))

/-! ## The operations of Machine/Resolve.lean -/

theorem Shaped.resolveCell {asn n i : Nat} (h : Shaped s) : Shaped (s.resolveCell asn n i) := by
  unfold State.resolveCell
  split
  · exact .ite h h.withCad.rsetN.fset.finc.raise
  · dsimp only
    split
    · split
      · exact h.withCad.guardUpdate
      · exact h.withCad
    · exact h.withCad
theorem Shaped.resolveEcc {asn : Nat} (h : Shaped s) : Shaped (s.resolveEcc asn) := h.eccSweep
theorem Shaped.resolveSlot {asn : Nat} (h : Shaped s) : Shaped (s.resolveSlot asn) := (h.resolveEcc.foldl fun h => h.resolveCell).withCad

/-! ## The operations of Machine/Sluice.lean -/

theorem Shaped.sluEvaluate {l : Nat} (h : Shaped s) : Shaped (s.sluEvaluate l) := by
  unfold State.sluEvaluate
  dsimp only
  split
  · exact h.fset.fset.fsetB.fsetB.setTrf
  · exact .unless h.fset.fset.fsetB.fsetB.setTrf fun h => .unless (h.unless fun h => h.fadd.raise.event) fun h => h.event

/-! ## The operations of Machine/Weir.lean -/

theorem Shaped.setMeter {m : Nat} {x : Meter} (h : Shaped s) : Shaped (s.setMeter m x) := h.setTrf
theorem Shaped.weirFill (h : Shaped s) : Shaped s.weirFill := h.setTrf
theorem Shaped.meterFull {m : Nat} (h : Shaped s) : Shaped (s.meterFull m) := h.setMeter
theorem Shaped.colourCount {m colour : Nat} {classA : Bool} (h : Shaped s) : Shaped (s.colourCount m colour classA) := by
  unfold State.colourCount
  dsimp only
  split
  · exact h.setMeter
  · exact h.setMeter
  · exact (h.setMeter.fset.raise.when fun h => h.raise).event
theorem Shaped.weirUndo {w : WeirUse} (h : Shaped s) : Shaped (s.weirUndo w) := h.setMeter

/-! ## The operations of Machine/Elig.lean -/

theorem Shaped.unprepReport {q c cause asn : Nat} (h : Shaped s) : Shaped (s.unprepReport q c cause asn) :=
  .ite h (h.setTrf.fset.finc.raise.rsetN.when fun h => h.fset.raise.rsetN)
theorem Shaped.consider (h : Shaped s) : Shaped s.consider := h.setTrf
theorem Shaped.admitLaunch {asn cls id fine : Nat} {ackReq : Bool} {cand : Cand} (h : Shaped s) :
    Shaped (s.admitLaunch asn cls id fine ackReq cand).2 :=
  .iteSnd (.iteSnd h h.setTrf.finc.raise) (.iteSnd (.iteSnd h h.setTrf.finc) h)
theorem Shaped.judge1 {cand : Cand} {asn q c : Nat} (h : Shaped s) : Shaped (s.judge1 cand asn q c).2 := by
  unfold State.judge1
  split
  · exact h
  · split
    · exact h.unprepReport
    · split
      · next e => exact (h.admitLaunch.ofSnd e)
      · next e => exact (h.admitLaunch.ofSnd e)
theorem Shaped.firstEligible {cand : Cand} {asn : Nat} {l : List (Nat × Nat)} (h : Shaped s) : Shaped (s.firstEligible cand asn l).2 := by
  induction l generalizing s with
  | nil => exact h
  | cons x l ih =>
    unfold State.firstEligible
    split
    · next e => exact h.judge1.ofSnd e
    · next e => exact ih (h.judge1.ofSnd e)
theorem Shaped.eligible {cand : Cand} {asn : Nat} (h : Shaped s) : Shaped (s.eligible cand asn).2 := by
  unfold State.eligible
  split
  · exact h
  · split
    · next e => exact h.firstEligible.ofSnd e
    · next e =>
      have h := h.firstEligible.ofSnd e
      split
      · exact h
      · split
        · next e => exact h.admitLaunch.ofSnd e
        · next e => exact h.admitLaunch.ofSnd e

/-! ## The operations of Machine/Squash.lean -/

theorem Shaped.squash {cause : SqCause} {locked : Bool} {roots : List Nat} (h : Shaped s) : Shaped (s.squash cause locked roots) :=
  .ite h (h.finc.when fun h => h.fset).withHdr
theorem Shaped.squashWhere {cause : SqCause} {locked : Bool} {p : Ticket → Bool} (h : Shaped s) : Shaped (s.squashWhere cause locked p) :=
  h.squash
theorem Shaped.squashDependants {k : Ticket} (h : Shaped s) : Shaped (s.squashDependants k) := h.squashWhere
theorem Shaped.undoDemotion {d : Demotion} (h : Shaped s) : Shaped (s.undoDemotion d) := by
  unfold State.undoDemotion
  split
  · exact h
  · dsimp only
    refine .when ?_ fun h => h.fset
    split
    · exact h.setQueue.setQueue.descSet.weirUndo
    · exact h.setQueue.setQueue.descSet
theorem Shaped.undoTicket {e : Nat} (h : Shaped s) : Shaped (s.undoTicket e) := by
  unfold State.undoTicket
  split
  · exact h
  · refine .finc (.when (.when (.foldr ?_ fun h => h.undoDemotion) fun h => h.finc) fun h => h.withHdr)
    split
    · exact h.setTicket.dutyNote.weirUndo
    · exact h.setTicket.dutyNote
theorem Shaped.squashEnd {dur : Nat} (h : Shaped s) : Shaped (s.squashEnd dur) :=
  .ite h (h.foldl fun h => h.undoTicket).withHdr.fset.fset.fset.raise.event
theorem Shaped.squashDone (h : Shaped s) : Shaped s.squashDone := h.squashEnd
theorem Shaped.squashNow (h : Shaped s) : Shaped s.squashNow := h.freeStep.squashEnd

/-! ## The operations of Machine/Overlay.lean -/

theorem Shaped.setOvl {f : OvlState → OvlState} (h : Shaped s) : Shaped (s.setOvl f) := h.withOvl
theorem Shaped.loadShow {x : Section} {cause : Nat} (h : Shaped s) : Shaped (s.loadShow x cause) := h.fset.rsetN
theorem Shaped.sectionsRead {img : Nat} (h : Shaped s) : Shaped (s.sectionsRead img).1 := h.flashLoose.foldlFst fun h => h.flashTake
theorem Shaped.loadEnd (h : Shaped s) : Shaped s.loadEnd := by
  unfold State.loadEnd
  dsimp only
  split
  · exact h.sectionsRead.setOvl.fset.loadShow.fset.raise
  · refine .raise <| .fset <| .rsetN <| .fsetB <| .fset <| .setOvl ?_
    split
    · exact h.sectionsRead.setOvl.fset.loadShow
    · exact h.sectionsRead.setOvl.fset.fset
theorem Shaped.ovlEmpty (h : Shaped s) : Shaped s.ovlEmpty := h.setOvl.fset.fset.rsetN.fset
theorem Shaped.coppiceWrite {hook : WCtx → State → State} {a : Nat} {v : Word} (hf : ∀ {w t}, Shaped t → Shaped (hook w t))
    (h : Shaped s) :
    Shaped (State.coppiceWrite hook a v s) := by
  unfold State.coppiceWrite
  split
  · exact h.reject
  · refine .withBus (.when ?_ fun h => h.rset)
    have hp : Shaped (match s.radioPort a with | some n => s.rsetN a n | none => s) := by
      split
      · exact h.rsetN
      · exact h
    split
    · next e => exact hf (hp.withBus.applyWrite.ofFst e)
    · next e => exact hp.withBus.applyWrite.ofFst e
theorem Shaped.dirtyClear (h : Shaped s) : Shaped s.dirtyClear := h.rsetN.rsetN
theorem Shaped.applyBase {hook : WCtx → State → State} (hf : ∀ {x0 t}, Shaped t → Shaped (hook x0 t)) (h : Shaped s) :
    Shaped (State.applyBase hook s) :=
  (h.foldl fun h => h.coppiceWrite hf).dirtyClear
theorem Shaped.afterWrites {l : List (Nat × Word × Word)} (h : Shaped s) : Shaped (s.afterWrites l) := h.foldl fun h => h.rset
theorem Shaped.modeApply {hook : WCtx → State → State} {m : Nat} (hf : ∀ {x0 t}, Shaped t → Shaped (hook x0 t)) (h : Shaped s) :
    Shaped (State.modeApply hook m s) := by
  unfold State.modeApply
  dsimp only
  split
  · exact ((h.setOvl.fset.when fun h => h.squashWhere).foldl fun h => h.coppiceWrite hf).dirtyClear.fset.raise.audit.setOvl.unless
      fun h => h.fset.event
  · exact h.setOvl.fset.fset.fset.raise.audit
theorem Shaped.modeAtTick {asn : Nat} (h : Shaped s) : Shaped (s.modeAtTick asn) := by
  unfold State.modeAtTick
  split
  · exact h
  · exact h.setOvl.rsetN.rsetN.when fun h => h.fset.event
theorem Shaped.modeAtTail {hook : WCtx → State → State} {next : Nat} (hf : ∀ {x0 t}, Shaped t → Shaped (hook x0 t)) (h : Shaped s) :
    Shaped (State.modeAtTail hook next s) := by
  unfold State.modeAtTail
  split
  · exact h
  · exact .ite ((h.modeApply hf).unless fun h => h.resolveSlot) h
theorem Shaped.modeAtStop (h : Shaped s) : Shaped s.modeAtStop := by
  unfold State.modeAtStop
  split
  · exact h.setOvl.fset.event
  · exact h
theorem Shaped.ovlSettle {hook : WCtx → State → State} (hf : ∀ {x0 t}, Shaped t → Shaped (hook x0 t)) (h : Shaped s) :
    Shaped (State.ovlSettle hook s) := by
  unfold State.ovlSettle
  split
  · exact .ite h (h.modeApply hf)
  · exact h
theorem Shaped.ovlRefuse (h : Shaped s) : Shaped s.ovlRefuse := h.fset
theorem Shaped.ovlRequest (h : Shaped s) : Shaped s.ovlRequest := .ite h.ovlRefuse (Shaped.ite h.fset h).setOvl.fset.fset
theorem Shaped.ovlCmd {hook : WCtx → State → State} {c : Nat} (hf : ∀ {x0 t}, Shaped t → Shaped (hook x0 t)) (h : Shaped s) :
    Shaped (State.ovlCmd hook c s) := by
  unfold State.ovlCmd
  split
  · exact h
  · split
    · exact h.ovlRefuse
    · split
      · exact h.setOvl.fset
      · exact .ite h.ovlRefuse (h.applyBase hf)
      · exact h.setOvl.fset
theorem Shaped.ovlHook {hook : WCtx → State → State} {w : WCtx} (hf : ∀ {x0 t}, Shaped t → Shaped (hook x0 t)) (h : Shaped s) :
    Shaped (ovlHook hook w s) :=
  .ite (.ite h.ovlEmpty.setOvl.srstPage h) (.ite (h.fset.when fun h => h.ovlRequest) (.ite (h.ovlCmd hf) (.ite h.fset h)))
theorem Shaped.execLoadDone (h : Shaped s) : OutShaped (execLoadDone s) := .next (.ite h.loadEnd h)

/-! ## The operations of Machine/Pins.lean -/

theorem Shaped.pinEdges {b : Nat × Nat} (h : Shaped s) : Shaped (s.pinEdges b) := .ite h (h.foldl fun h => h.raise).publishAll
theorem Shaped.withPins {f : State → State} (h : Shaped s) (hf : ∀ {t}, Shaped t → Shaped (f t)) : Shaped (s.withPins f) :=
  (hf h).pinEdges
theorem Shaped.pinWrite {w : WCtx} (h : Shaped s) : Shaped (s.pinWrite w) := h.pinEdges
theorem Shaped.pinWake {bank : Bool} {pin : Nat} (h : Shaped s) : Shaped (s.pinWake bank pin) := .ite h.wakeEvent h
theorem Shaped.gpioHook {w : WCtx} (h : Shaped s) : Shaped (gpioHook w s) :=
  .ite (.ite (h.withPins (fun h => h.srstPage)) h) (.ite h.pinWrite h)
theorem Shaped.execGpioEvent {bank : Bool} {pin : Fin 18} {level : Bool} (h : Shaped s) : OutShaped (execGpioEvent bank pin level s) :=
  .ite (.next h) (.next ((h.withPins (fun h => h.withPads)).unless fun h => h.pinWake))
theorem Shaped.adcSet {b : Bool} (h : Shaped s) : Shaped (s.adcSet b) := h.withPads
theorem Shaped.adcLand {data : BitVec 12} (h : Shaped s) : Shaped (s.adcLand data) :=
  (Shaped.ite h.fset.raise h).fset.fset.raise.adcSet.event
theorem Shaped.adcHook {w : WCtx} (h : Shaped s) : Shaped (adcHook w s) :=
  .ite (.ite (Shaped.ite h.adcSet h).adcSet.srstPage (.ite h.adcSet h)) (.ite (h.fset.when fun h => h.adcStart) h)
theorem Shaped.execAdcStart {m : Option Master} (h : Shaped s) : OutShaped (execAdcStart m s) := by
  unfold Machine.execAdcStart
  split
  · exact .next (h.writeReg (fun h => h.adcHook))
  · exact .next h.deliver
theorem Shaped.execAdcResult {data : BitVec 12} (h : Shaped s) : OutShaped (execAdcResult data s) := .next (.ite h.adcLand h)
theorem Shaped.execAdcResRead {m : Master} {sameCycleResult : Option (BitVec 12)} (h : Shaped s) :
    OutShaped (execAdcResRead m sameCycleResult s) := by
  unfold Machine.execAdcResRead
  dsimp only
  split
  · exact .next ((h.readAs (fun h => h.fset)).when fun h => h.adcLand)
  · exact .next (h.readAs (fun h => h.fset))

/-! ## The operations of Machine/NetTime.lean -/

theorem Shaped.setNtu {f : NtuState → NtuState} (h : Shaped s) : Shaped (s.setNtu f) := h.withNtu
theorem Shaped.rateMark {r : Int} (h : Shaped s) : Shaped (s.rateMark r) := .ite h.fset h
theorem Shaped.setRate {r : Int} (h : Shaped s) : Shaped (s.setRate r) := h.reAnchorAt.rsetN.rateMark
theorem Shaped.setP {d : Int} (h : Shaped s) : Shaped (s.setP d) := h.setNtu
theorem Shaped.setRateWhenIdle {r : Int} (h : Shaped s) : Shaped (s.setRateWhenIdle r) := .ite h.setNtu h.setRate
theorem Shaped.setPWhenIdle {d : Int} (h : Shaped s) : Shaped (s.setPWhenIdle d) := .ite h.setNtu h.setP
theorem Shaped.setPulT {c t : Nat} (h : Shaped s) : Shaped (s.setPulT c t) := h.rsetN.rsetN
theorem Shaped.pulseFire {c : Nat} (h : Shaped s) : Shaped (s.pulseFire c) := (h.setNtu.unless fun h => h.setNtu).event
theorem Shaped.pulseRelease {c : Nat} (h : Shaped s) : Shaped (s.pulseRelease c) := h.setNtu.when fun h => h.fset
theorem Shaped.pulseStepped {old new c : Nat} (h : Shaped s) : Shaped (s.pulseStepped old new c) :=
  .ite (h.pulseFire.fset.raise.when fun h => h.setPulT) h
theorem Shaped.syncGain (h : Shaped s) : Shaped s.syncGain := h.fset.raise.setNtu
theorem Shaped.asnSkip (h : Shaped s) : Shaped s.asnSkip := h.fset.raise
theorem Shaped.stepApply (h : Shaped s) : Shaped s.stepApply := by
  unfold State.stepApply
  split
  · exact h
  · exact .ite (((h.setNtu.squashWhere.finc.raise.event.fset.when fun h => h.syncGain).foldl fun h => h.pulseStepped).when
      fun h => h.asnSkip.setNtu) (h.setNtu.squashWhere.finc.raise.event.fset.when fun h => h.syncGain)
theorem Shaped.stepTry (h : Shaped s) : Shaped s.stepTry := .ite h h.stepApply
theorem Shaped.stepAtTail (h : Shaped s) : Shaped s.stepAtTail := .ite h (.ite h.setNtu h.stepApply)
theorem Shaped.ntuIdle (h : Shaped s) : Shaped s.ntuIdle := by
  unfold State.ntuIdle
  dsimp only
  refine .when ?_ fun h => h.stepApply
  split
  · refine .setNtu <| .setP ?_
    split
    · exact h.setRate.setNtu
    · exact h
  · split
    · exact h.setRate.setNtu
    · exact h
theorem Shaped.setTx {x : Option Tx} (h : Shaped s) : Shaped (s.setTx x) := h.withTxm
theorem Shaped.txToIdle (h : Shaped s) : Shaped s.txToIdle := h.setTx.fset.setRfe.withTxm.ntuIdle
theorem Shaped.rampStop (h : Shaped s) : Shaped s.rampStop := .ite h.txToIdle h
theorem Shaped.sampleReject {x : Sample} (h : Shaped s) : Shaped (s.sampleReject x) :=
  .ite (h.finc.rsetN.raise.setNtu.when fun h => h.fset.raise) h.finc.rsetN.raise
theorem Shaped.sampleSlew {x : Sample} {prev : Option Nat} (h : Shaped s) : Shaped (s.sampleSlew x prev) := by
  unfold State.sampleSlew
  dsimp only
  refine .setPWhenIdle ?_
  split
  · exact .ite h.setRateWhenIdle h
  · exact h
theorem Shaped.ntuSample {x : Sample} (h : Shaped s) : Shaped (s.ntuSample x) :=
  .ite h (.ite h.sampleReject (.ite (h.setNtu.when fun h => h.fset.fset).finc.rsetN.fset.setNtu.stepTry
    ((h.setNtu.when fun h => h.fset.fset).finc.rsetN.fset.unless fun h => h.syncGain).sampleSlew))
theorem Shaped.ntuCapture (h : Shaped s) : Shaped s.ntuCapture := .ite h h.ntuSample
theorem Shaped.execExternalCapture {t : Frc} (h : Shaped s) : OutShaped (execExternalCapture t s) := .next h.withCul.advance.ntuCapture
theorem Shaped.ntuCmd {c : Nat} (h : Shaped s) : Shaped (s.ntuCmd c) := by
  unfold State.ntuCmd
  split
  · exact h.setNtu.stepTry
  · exact h.setNtu
  · exact h.fset.fset
  · exact h.fset.fset.setNtu
  · exact h
theorem Shaped.pulseArm {c : Nat} (h : Shaped s) : Shaped (s.pulseArm c) := h.setNtu.unless fun h => h.setNtu
theorem Shaped.ntuHook {w : WCtx} (h : Shaped s) : Shaped (ntuHook w s) :=
  .ite h.rsetN.setRateWhenIdle (.ite h.ntuCmd (.ite (.ite h.ntuSample h) (.ite (.ite h.rsetN.rsetN.fset h) (.ite h.pulseArm.pinEdges h))))
theorem Shaped.ntuCmdWrite {m : Master} {c : Nat} (h : Shaped s) : Shaped (s.ntuCmdWrite m c) := h.writeReg (fun h => h.ntuHook)
theorem Shaped.execNtuStep {m : Master} (h : Shaped s) : OutShaped (execNtuStep m s) := .next h.ntuCmdWrite
theorem Shaped.execNtuCancel {m : Master} (h : Shaped s) : OutShaped (execNtuCancel m s) := .next h.ntuCmdWrite
theorem Shaped.execSyncClr {m : Master} (h : Shaped s) : OutShaped (execSyncClr m s) := .next h.ntuCmdWrite
theorem Shaped.execSyncSet {m : Master} (h : Shaped s) : OutShaped (execSyncSet m s) := .next h.ntuCmdWrite
theorem Shaped.execNtuFwcorr {a : Acc} {v : Word} (h : Shaped s) : OutShaped (execNtuFwcorr a v s) :=
  .next (h.writeReg (fun h => h.ntuHook))
theorem Shaped.execNtuRateWrite {a : Acc} {v : Word} (h : Shaped s) : OutShaped (execNtuRateWrite a v s) :=
  .next (h.writeReg (fun h => h.ntuHook))
theorem Shaped.execNtuEpochWrite {a : Acc} {hi : Bool} {v : Word} (h : Shaped s) : OutShaped (execNtuEpochWrite a hi v s) :=
  .next (h.writeReg (fun h => h.ntuHook))
theorem Shaped.execNtuPulWrite {a : Acc} {ch reg : Fin 4} {v : Word} (h : Shaped s) : OutShaped (execNtuPulWrite a ch reg v s) :=
  .next (h.writeReg (fun h => h.ntuHook))
theorem Shaped.execReAnchor {t : Frc} (h : Shaped s) : OutShaped (execReAnchor t s) := .next h.advance.reAnchorAt
theorem Shaped.execHoldover {t : Frc} (h : Shaped s) : OutShaped (execHoldover t s) :=
  .ite (.next h.advance.fset.raise.setNtu) (.next h.advance)
theorem Shaped.execSyncLost {t : Frc} (h : Shaped s) : OutShaped (execSyncLost t s) :=
  .ite (.next h.advance.fset.fset.raise.event) (.next h.advance)
theorem Shaped.execLfcalWindow {t : Frc} {count : BitVec 27} (h : Shaped s) : OutShaped (execLfcalWindow t count s) :=
  .ite (.next h.advance) (.next h.advance.fset.fset)
theorem Shaped.sleepHandoff (h : Shaped s) : Shaped s.sleepHandoff := (Shaped.ite h h.fset).setNtu
theorem Shaped.execWakeHandoff {ticks : Word} (h : Shaped s) : OutShaped (execWakeHandoff ticks s) := by
  unfold Machine.execWakeHandoff
  split
  · exact .next h
  · exact .ite (.next h) (.next (h.setNtu.advance.rsetN.rset.when fun h => h.fset))
theorem Shaped.execFrcVote (h : Shaped s) : OutShaped (execFrcVote s) := .next h.fset
theorem Shaped.execPulseStart {t : Frc} {ch : Fin 4} (h : Shaped s) : OutShaped (execPulseStart t ch s) :=
  .ite (.next ((h.advance.withPins (fun h => h.pulseFire)).when fun h => h.setPulT)) (.next h.advance)
theorem Shaped.execPulseEnd {t : Frc} {ch : Fin 4} (h : Shaped s) : OutShaped (execPulseEnd t ch s) := by
  unfold Machine.execPulseEnd
  dsimp only
  split
  · exact .next (h.advance.when fun h => h.withPins (fun h => h.pulseRelease))
  · exact .next h.advance

/-! ## The operations of Machine/Headrace.lean -/

theorem Shaped.aDemote (h : Shaped s) : Shaped s.aDemote := h.fset.raise.event
theorem Shaped.prepChoose {n asn : Nat} {cand : Cand} {forced : Option (Nat × Nat)} {skip : List Nat} {demos : List Demotion}
    (h : Shaped s) :
    Shaped (prepChoose n s cand asn forced skip demos).2.2 := by
  induction n generalizing s forced skip demos with
  | zero => exact h
  | succ n ih =>
    unfold Machine.prepChoose
    dsimp only
    split
    · exact h
    · next q c _ _ =>
      have next {t : State} {skip demos} (h : Shaped t) :
          Shaped (if forced.isSome then (none, demos, t) else Machine.prepChoose n t cand asn none skip demos).2.2 := by
        split
        · exact h
        · exact ih h
      split
      · next e => exact next (h.judge1.ofSnd e)
      · next e =>
        have h := h.judge1.ofSnd e
        split
        · exact h
        · split
          · exact h.setMeter.colourCount
          · exact next h
          · refine .iteSnd₂ (next h) (.iteSnd₂ (next (Shaped.frameLeaves ?_)) (ih (Shaped.descSet (.setQueue (.setQueue ?_)))))
            · exact h.colourCount.when fun h => h.aDemote
            · exact h.colourCount.when fun h => h.aDemote
          · exact next h.colourCount.frameLeaves
theorem Shaped.offerIn {asn : Nat} {l : List Cand} (h : Shaped s) : Shaped (offerIn asn l s).2 := by
  induction l generalizing s with
  | nil => exact h
  | cons c l ih =>
    unfold Machine.offerIn
    split
    · split
      · exact h
      · split
        · next e => exact h.eligible.ofSnd e
        · next e => exact ih (h.eligible.ofSnd e)
    · exact .iteSnd h (.iteSnd h (ih h))
theorem Shaped.firstOffer {n asn : Nat} (h : Shaped s) : Shaped (firstOffer n asn s).2 := by
  induction n generalizing s asn with
  | zero => exact h
  | succ n ih =>
    unfold Machine.firstOffer
    split
    · next e => exact h.offerIn.ofSnd e
    · next e => exact ih (h.offerIn.ofSnd e)
theorem Shaped.prepBegun (h : Shaped s) : Shaped s.prepBegun := h.withHdr
theorem Shaped.build {e : Nat} {cand : Cand} {asn : Nat} {exp : Bool} {q c : Nat} {use : Option WeirUse} {demos : List Demotion}
    (h : Shaped s) :
    Shaped (s.build e cand asn exp q c use demos) := by
  unfold State.build
  dsimp only
  refine .prepBegun <| .dutyNote <| .setTicket ?_
  split
  · exact h.dutyReserve.takeCounter
  · exact h.dutyReserve
theorem Shaped.buildKa {e : Nat} {cand : Cand} {asn n : Nat} {demos : List Demotion} (h : Shaped s) :
    Shaped (s.buildKa e cand asn n demos) := by
  unfold State.buildKa
  dsimp only
  refine .prepBegun <| .dutyNote <| .setTicket ?_
  refine .unless ?_ fun h => h.withHdr
  split
  · exact h.dutyReserve.takeCounter
  · exact h.dutyReserve
theorem Shaped.prepare {e : Nat} {cand : Cand} {asn : Nat} {forced : Option (Nat × Nat)} (h : Shaped s) :
    Shaped (s.prepare e cand asn forced) := by
  unfold State.prepare
  dsimp only
  split
  · next e => exact .ite (h.prepChoose.ofSnd₂ e).build h
  · next e =>
    have hs := h.prepChoose.ofSnd₂ e
    split
    · next e => exact .ite ((Shaped.iteSnd hs hs.eligible).ofSnd e).buildKa h
    · next e => exact (Shaped.iteSnd hs hs.eligible).ofSnd e
theorem Shaped.expressCell {asn q c : Nat} {l : List Cand} (h : Shaped s) : Shaped (expressCell asn q c l s).2 := by
  induction l generalizing s with
  | nil => exact h
  | cons d l ih =>
    unfold Machine.expressCell
    split
    · split
      · next e => exact h.eligible.ofSnd e
      · next e => exact .iteSnd (h.eligible.ofSnd e) (ih (h.eligible.ofSnd e))
    · exact .iteSnd h (.iteSnd h (ih h))
theorem Shaped.expressSlot {q c n asn : Nat} (h : Shaped s) : Shaped (expressSlot q c n asn s).2 := by
  induction n generalizing s asn with
  | zero => exact h
  | succ n ih =>
    unfold Machine.expressSlot
    dsimp only
    split
    · split
      · next e => exact h.expressCell.ofSnd e
      · next e => exact ih (h.expressCell.ofSnd e)
    · exact ih h
theorem Shaped.planStart {e : Nat} {p : Plan} {rest : List Plan} (h : Shaped s) : Shaped (s.planStart e p rest) := by
  unfold State.planStart
  split
  · exact h
  · dsimp only
    split
    · next e => exact ((Shaped.iteSnd h.withHdr.expressCell h.withHdr).ofSnd e).prepare.when fun h => h.finc.raise.event
    · next e => exact ((Shaped.iteSnd h.withHdr.expressCell h.withHdr).ofSnd e)
theorem Shaped.execPreparationStart {t : Frc} (h : Shaped s) : OutShaped (execPreparationStart t s) := by
  unfold Machine.execPreparationStart
  dsimp only
  split
  · split
    · exact .next h.advance.consider.planStart.hold
    · split
      · exact .next h.advance.consider.hold
      · split
        · next e => exact .next (h.advance.consider.firstOffer.ofSnd e).hold
        · next e => exact .next ((h.advance.consider.firstOffer.ofSnd e).unless fun h => h.prepare).hold
  · exact .next h.advance
theorem Shaped.execPreparationDone {t : Frc} (h : Shaped s) : OutShaped (execPreparationDone t s) := by
  unfold Machine.execPreparationDone
  dsimp only
  split
  · exact .next h.advance.setTicket.finc.hold
  · exact .next h.advance
theorem Shaped.slotIdle (h : Shaped s) : Shaped s.slotIdle := by
  unfold State.slotIdle
  dsimp only
  refine .setRfe <| .rsetN <| .fset ?_
  split
  · exact h.withSlot
  · exact h
theorem Shaped.execTicketLock {t : Frc} (h : Shaped s) : OutShaped (execTicketLock t s) := by
  unfold Machine.execTicketLock
  dsimp only
  split
  · exact .next h.advance
  · split
    · exact .next h.advance
    · split
      · exact .ite (.next h.advance.setTicket) (.ite (.next h.advance.fset.finc.raise.squash.slotIdle.hold) (.next h.advance))
      · exact .next h.advance
theorem Shaped.execSquashDone {t : Frc} (h : Shaped s) : OutShaped (execSquashDone t s) := .next h.advance.squashDone.hold
theorem Shaped.express {q c : Nat} (h : Shaped s) : Shaped (s.express q c) := by
  unfold State.express
  split
  · exact h
  · split
    · next e => exact (h.expressSlot.ofSnd e)
    · next e => exact (h.expressSlot.ofSnd e).unless fun h => h.squash.withHdr
theorem Shaped.rampGone (h : Shaped s) : Shaped s.rampGone := by
  unfold State.rampGone
  split
  · split
    · exact .ite h.txToIdle h
    · exact h
  · exact h
theorem Shaped.hdrCtrl {w : WCtx} (h : Shaped s) : Shaped (hdrCtrl w s) :=
  .ite (Shaped.ite (Shaped.ite h.srstPage h).squashWhere.withHdr.rampGone (.ite h.srstPage h)).withHdr (.ite
    (Shaped.ite h.srstPage h).squashWhere.withHdr.rampGone (.ite h.srstPage h))
theorem Shaped.hdrHook {w : WCtx} (h : Shaped s) : Shaped (hdrHook w s) :=
  .ite h.hdrCtrl (.ite (.ite h.squash h) (.ite h.rsetN.rsetN.rsetN.rsetN h))
theorem Shaped.execHdrCtrlWrite {a : Acc} {v : Word} (h : Shaped s) : OutShaped (execHdrCtrlWrite a v s) :=
  .next (h.writeReg (fun h => h.hdrHook))
theorem Shaped.execHdrCfgWrite {a : Acc} {v : Word} (h : Shaped s) : OutShaped (execHdrCfgWrite a v s) :=
  .next (h.writeReg (fun h => h.hdrHook))
theorem Shaped.execHdrTktIdxWrite {a : Acc} {v : Word} (h : Shaped s) : OutShaped (execHdrTktIdxWrite a v s) :=
  .next (h.writeReg (fun h => h.hdrHook))

/-! ## The operations of Machine/Traffic.lean -/

theorem Shaped.poolNote {old : State} (h1 : Shaped s) : Shaped (s.poolNote old) := .ite h1.raise h1
/-- Cells taken from the pool change nothing but the free values read. -/
theorem Shaped.takeCells {n : Nat} {cs : List Nat} {t : State} (h : Shaped s) (e : s.takeCells n = some (cs, t)) : Shaped t := by
  unfold State.takeCells at e
  dsimp only at e
  split at e
  · exact absurd e nofun
  · cases e
    exact h.freeStep
theorem Shaped.trfAllocPop (h : Shaped s) : Shaped s.trfAllocPop.1 := by
  unfold State.trfAllocPop
  split
  · exact h
  · split
    · next e => exact (h.takeCells e).cellsTo.poolNote
    · exact h
theorem Shaped.execTrfAlloc {m : Master} (h : Shaped s) : OutShaped (execTrfAlloc m s) := .next (h.readAs (fun h => h.trfAllocPop))
theorem Shaped.popChain {l : List Nat} {put : List Nat → TrfState → TrfState} (h : Shaped s)
    (hput : ∀ l x, (put l x).counts = x.counts := by intros; rfl) : Shaped (s.popChain l put).1 := by
  unfold State.popChain
  split
  · exact h
  · exact h.cellsTo.setTrf (hput _ _)
theorem Shaped.execTrfDonePop {m : Master} (h : Shaped s) : OutShaped (execTrfDonePop m s) := .next (h.readAs (fun h => h.popChain))
theorem Shaped.execTrfRxqPop {m : Master} (h : Shaped s) : OutShaped (execTrfRxqPop m s) := .next (h.readAs (fun h => h.popChain))
theorem Shaped.trfRefuse {f : Fld} {c q cause : Nat} (h : Shaped s) : Shaped (s.trfRefuse f c q cause) := h.fset.rsetN
theorem Shaped.freeCmd {c : Nat} (h : Shaped s) : Shaped (s.freeCmd c) := .ite h.trfRefuse (.ite h.trfRefuse h.freeChain)
theorem Shaped.enqueue {c q : Nat} (h : Shaped s) : Shaped (s.enqueue c q) :=
  .ite h.trfRefuse.raise (.ite h.trfRefuse.raise (.ite h.trfRefuse.raise (.ite h.trfRefuse.raise
    h.setWord.descSet.descSet.descSet.descSet.descSet.descSet.setWord.cellsTo.setQueue.consider.express)))
theorem Shaped.removeFrame {q c : Nat} (h : Shaped s) : Shaped (s.removeFrame q c) := h.squashWhere.withHdr.frameLeaves
theorem Shaped.removeHeadCmd {q : Nat} (h : Shaped s) : Shaped (s.removeHeadCmd q) := by
  unfold State.removeHeadCmd
  split
  · exact h
  · exact .ite h.fset h.removeFrame
theorem Shaped.flushCmd {q : Nat} (h : Shaped s) : Shaped (s.flushCmd q) :=
  (h.foldl fun h => h.removeFrame).when fun h => h.fset
theorem Shaped.trfReset (h : Shaped s) : Shaped s.trfReset := by
  have hq : Shaped (s.squashWhere .ctrl false fun _ => true) := h.squashWhere
  exact .ite h.fset (.srstPage (.setTrf (.withHdr hq) (Prod.ext hq.shape.queues.symm rfl)))
theorem Shaped.trfHook {w : WCtx} (h : Shaped s) : Shaped (trfHook w s) := by
  unfold Machine.trfHook
  split
  · exact .ite h.trfReset h
  · split
    · exact h.poolNote
    · split
      · exact h.freeCmd
      · split
        · exact h.enqueue
        · split
          · dsimp only
            split
            · exact h.removeHeadCmd
            · exact h.flushCmd
            · exact h
          · split
            · split
              · exact h.rset.rset
              · exact h.rsetN.rsetN
            · exact .ite (.ite h.fset.fset h) h
theorem Shaped.execTrfFree {a : Acc} {v : Word} (h : Shaped s) : OutShaped (execTrfFree a v s) := .next (h.writeReg (fun h => h.trfHook))
theorem Shaped.execTrfEnq {a : Acc} {v : Word} (h : Shaped s) : OutShaped (execTrfEnq a v s) := .next (h.writeReg (fun h => h.trfHook))
theorem Shaped.execRemoveHead {m : Master} {q : BitVec 6} (h : Shaped s) : OutShaped (execRemoveHead m q s) :=
  .next (h.writeReg (fun h => h.trfHook))
theorem Shaped.execFlush {m : Master} {q : BitVec 6} (h : Shaped s) : OutShaped (execFlush m q s) :=
  .next (h.writeReg (fun h => h.trfHook))
theorem Shaped.execTrfHistIdxWrite {a : Acc} {v : Word} (h : Shaped s) : OutShaped (execTrfHistIdxWrite a v s) :=
  .next (h.writeReg (fun h => h.trfHook))
theorem Shaped.weirHook {w : WCtx} (h : Shaped s) : Shaped (weirHook w s) :=
  .ite (h.srstPage.foldl fun h => h.setMeter.meterFull) (.ite (.ite h.meterFull h) h)
theorem Shaped.sluHook {w : WCtx} (h : Shaped s) : Shaped (sluHook w s) :=
  .ite (h.squashWhere.when fun h => h.srstPage) (.ite h.squashWhere h)
theorem Shaped.dcaHook {w : WCtx} (h : Shaped s) : Shaped (dcaHook w s) :=
  .ite (.ite (Shaped.ite h.dutyEnable h).dutyLose.srstPage (Shaped.ite h.dutyEnable h).dutyNote) (.ite h.dutyNote h)
theorem Shaped.execSluiceConfigWrite {a : Acc} {off : BitVec 10} {v : Word} (h : Shaped s) :
    OutShaped (execSluiceConfigWrite a off v s) :=
  .next (h.writeReg (fun h => h.sluHook))
theorem Shaped.execDcaEnable {a : Acc} {v : Word} (h : Shaped s) : OutShaped (execDcaEnable a v s) :=
  .next (h.writeReg (fun h => h.dcaHook))
theorem Shaped.execSubWindowAdvance {sb : Fin 8} {dwell : Bool} (h : Shaped s) : OutShaped (execSubWindowAdvance sb dwell s) :=
  .next h.dutyAdvance.dutyNote

/-! ## The operations of Machine/FrontEnd.lean -/

theorem Shaped.workStart {i : Nat} (h : Shaped s) : Shaped (s.workStart i) :=
  .ite h.withRfe.fset (.ite h.withRfe.fset h.withRfe.fset.fset)
theorem Shaped.workNext {after : Option Nat} (h : Shaped s) : Shaped (s.workNext after) := by
  unfold State.workNext
  split
  · exact h
  · split
    · split
      · exact h.workStart
      · exact h
    · split
      · exact h
      · dsimp only
        split
        · exact h.workStart
        · exact h
theorem Shaped.workAge {items : List Nat} (h : Shaped s) : Shaped (s.workAge items) := h.setRfe
theorem Shaped.workGone {item : Nat} (h : Shaped s) : Shaped (s.workGone item) := h.setRfe
theorem Shaped.calRequest {bits : Nat} (h : Shaped s) : Shaped (s.calRequest bits) := (h.foldl fun h => h.fset).workAge.workNext
theorem Shaped.workAbort (h : Shaped s) : Shaped s.workAbort := h.withRfe.fset.fset
theorem Shaped.slotCut (h : Shaped s) : Shaped s.slotCut := by
  unfold State.slotCut
  split
  · exact .ite h h.withSlot.finc
  · exact h
theorem Shaped.rfeOff (h : Shaped s) : Shaped s.rfeOff := (h.slotCut.txAbort.foldl fun h => h.laneStop).workAbort.windowShut.fset
theorem Shaped.manTune (h : Shaped s) : Shaped s.manTune := h.fset.fset
theorem Shaped.rfeReset (h : Shaped s) : Shaped s.rfeReset := h.srstPage.fset.rfeOff
theorem Shaped.rfeCtrlHook {w : WCtx} (h : Shaped s) : Shaped (rfeCtrlHook w s) := by
  unfold Machine.rfeCtrlHook
  extract_lets a b c
  have ha : Shaped a := h.when fun h => h.fset.fset
  have hc : Shaped c := (ha.when fun h => h.fset).when fun h => h.manTune
  exact .ite hc.rfeReset (.ite hc.rfeOff (hc.when fun h => h.withRfe.workNext))
theorem Shaped.rfeHook {w : WCtx} (h : Shaped s) : Shaped (rfeHook w s) :=
  .ite h.rfeCtrlHook (.ite (.ite h.manTune h) (.ite h.fset.calRequest h))
theorem Shaped.execRfeManWrite {a : Acc} {v : Word} (h : Shaped s) : OutShaped (execRfeManWrite a v s) :=
  .next (h.writeReg (fun h => h.rfeHook))
theorem Shaped.execRfeSynManWrite {a : Acc} {v : Word} (h : Shaped s) : OutShaped (execRfeSynManWrite a v s) :=
  .next (h.writeReg (fun h => h.rfeHook))
theorem Shaped.execRfeDisable {a : Acc} {v : Word} (h : Shaped s) : OutShaped (execRfeDisable a v s) :=
  .next (h.writeReg (fun h => h.rfeHook))
theorem Shaped.execRfeCalReq {a : Acc} {v : Word} (h : Shaped s) : OutShaped (execRfeCalReq a v s) :=
  .next (h.writeReg (fun h => h.rfeHook))
theorem Shaped.execClearingWorkStart {t : Frc} (h : Shaped s) : OutShaped (execClearingWorkStart t s) := by
  unfold Machine.execClearingWorkStart
  dsimp only
  split
  · exact .ite (.next h.advance.withRfe.workNext) (.next h.advance)
  · exact .next h.advance
theorem Shaped.calEnds {b : Nat} {inLimits : Bool} (h : Shaped s) : Shaped (s.calEnds b inLimits) := by
  have he {t : State} {f g : Fld} {x y : Nat} (h : Shaped t) : Shaped (if inLimits then t.fset f x else t.fset g y) := .ite h.fset
    h.fset
  exact .ite ((he h.workGone.setRfe.fset.fset).when fun h => h.fset.fset).raise.event.workNext h
theorem Shaped.execCalTimeout {item : Fin 10} (h : Shaped s) : OutShaped (execCalTimeout item s) :=
  .ite (.ite (.next h.workGone.fset.fset.raise) (.ite (.next h.workGone.fset.fset.raise.raise) (.next h.workGone.fset.fset.raise)))
    (.next h)
theorem Shaped.execTempUpdate {temp : BitVec 8} (h : Shaped s) : OutShaped (execTempUpdate temp s) :=
  .ite (.next h.fset.fset.fset.raise.calRequest) (.next h.fset.fset)
theorem Shaped.canopyGainSet {sl : Slot} (h : Shaped s) : Shaped (s.canopyGainSet sl) := h.fset.fset.fsetI.fset.setRfe
theorem Shaped.narrowGainOpen (h : Shaped s) : Shaped s.narrowGainOpen := h.fset.withRfe
theorem Shaped.unlockShown {sl : Slot} {mid : Bool} (h : Shaped s) : Shaped (s.unlockShown sl mid) := h.fset.finc.raise.rsetN.event
theorem Shaped.execLockSample {t : Frc} {locked : Bool} (h : Shaped s) : OutShaped (execLockSample t locked s) := by
  unfold Machine.execLockSample
  dsimp only
  split
  · exact .next (h.advance.when fun h => h.fsetB)
  · exact .ite (.next h.advance) (.ite (.next h.advance) (.ite (.next h.advance) (.ite (.next h.advance.withSlot.fsetB) (.ite (.next
      (h.advance.withSlot.fsetB.when fun h => h.canopyGainSet)) (.next h.advance.withSlot.fsetB.unlockShown.finc)))))
theorem Shaped.execLossOfLock {t : Frc} (h : Shaped s) : OutShaped (execLossOfLock t s) := by
  unfold Machine.execLossOfLock
  dsimp only
  split
  · exact .next h.advance.fset.txAbort
  · exact .ite (.next h.advance.fset) (.ite (.next h.advance.fset.unlockShown.txAbort) (.next
      (h.advance.fset.unlockShown.foldl fun h => h.laneLost).windowShut.withSlot))
theorem Shaped.execNarrowAgcStep {power : Int} (h : Shaped s) : OutShaped (execNarrowAgcStep power s) :=
  .ite (.next (h.fset.unless fun h => h.fset)) (.next h)
theorem Shaped.canopyBackOff (h : Shaped s) : Shaped s.canopyBackOff :=
  h.fset.withRfe.withLanes ((List.length_map _).trans h.shape.lanes.symm)
theorem Shaped.execClipInterval {samples : Nat} (h : Shaped s) : OutShaped (execClipInterval samples s) :=
  .ite (.next h.setRfe) (.ite (.ite (.next h.fsetB.withRfe) (.ite (.next h.fsetB.finc.canopyBackOff.setRfe.raise.event) (.ite
    (.next h.fsetB.finc.withRfe) (.next (h.fsetB.finc.withRfe.canopyBackOff.setRfe.when fun h => h.fset.raise.event))))) (.ite
    (.next h.finc) (.next h)))
theorem Shaped.agcHook {w : WCtx} (h : Shaped s) : Shaped (agcHook w s) :=
  .ite (.ite (Shaped.ite (Shaped.ite h.fset h).fset (.ite h.fset h)).srstPage (.ite (Shaped.ite h.fset h).fset (.ite h.fset h))) (.ite h.fset h)

/-! ## The operations of Machine/Transmit.lean -/

theorem Shaped.txBlocked {cause asn : Nat} (h : Shaped s) : Shaped (s.txBlocked cause asn) :=
  h.finc.unless fun h => h.fset.fset.fset.raise
theorem Shaped.txPowerSet {sources : List Nat} {f port : Nat} (h : Shaped s) : Shaped (s.txPowerSet sources f port) :=
  h.rsetN.when fun h => h.fset
theorem Shaped.departure {fine : Nat} (h : Shaped s) : Shaped (s.departure fine) := h.setNtu.rsetN.rsetN.rsetN.rsetN
theorem Shaped.txStart {x : Tx} (h : Shaped s) : Shaped (s.txStart x) := h.setTx.fset.finc.event
theorem Shaped.commitTicket {e : Nat} {launched : Bool} (h : Shaped s) : Shaped (s.commitTicket e launched) := h.onTicket
theorem Shaped.kaSent {k : Ticket} (h : Shaped s) : Shaped (s.kaSent k) := by
  unfold State.kaSent
  split
  · exact h.withHdr.finc
  · exact h
theorem Shaped.launchTicket {sl : Slot} {e : Nat} {k : Ticket} (h : Shaped s) : Shaped (s.launchTicket sl e k) :=
  h.departure.commitTicket.txPowerSet.kaSent.txStart
theorem Shaped.execRampUp {t : Frc} (h : Shaped s) : OutShaped (execRampUp t s) := by
  unfold Machine.execRampUp
  dsimp only
  split
  · exact .next h.advance
  · split
    · exact .next (h.advance.when fun h => h.setTx.fset)
    · split
      · split
        · exact .next (.ite (h.advance.when fun h => h.setTx.fset) h.advance)
        · exact .next h.advance
      · exact .next h.advance
theorem Shaped.execLaunch {t : Frc} (h : Shaped s) : OutShaped (execLaunch t s) := by
  unfold Machine.execLaunch
  dsimp only
  split
  · exact .next h.advance
  · split
    · exact .next h.advance
    · split
      · exact .next h.advance.rampStop
      · split
        · exact .next h.advance
        · split
          · exact .next h.advance.commitTicket
          · split
            · exact .next h.advance.withSlot.commitTicket.finc
            · split
              · exact .next h.advance.launchTicket
              · exact .next (h.advance.commitTicket.txBlocked.when fun h => h.withSlot.finc).rampStop
theorem Shaped.execHeadEnd {t : Frc} (h : Shaped s) : OutShaped (execHeadEnd t s) := by
  unfold Machine.execHeadEnd
  dsimp only
  split
  · exact .next (h.advance.when fun h => h.fset)
  · exact .next h.advance
theorem Shaped.execSplicePoint (h : Shaped s) : OutShaped (execSplicePoint s) := by
  unfold Machine.execSplicePoint
  split
  · split
    · exact .ite (.next h.advance.fset.setTx) (.next h)
    · exact .next h
  · exact .next h
theorem Shaped.execTagComplete (h : Shaped s) : OutShaped (execTagComplete s) := by
  unfold Machine.execTagComplete
  split
  · exact .next (.ite h.setTx h)
  · exact .next h
theorem Shaped.execFrameEnd {t : Frc} (h : Shaped s) : OutShaped (execFrameEnd t s) := by
  unfold Machine.execFrameEnd
  dsimp only
  split
  · exact .next h.advance
  · split
    · exact .next h.advance
    · split
      · split
        · exact .next (h.advance.fset.withTxm.setTicket.when fun h => h.withCad)
        · exact .next h.advance.fset.withTxm
      · exact .next h.advance.fset.withTxm
theorem Shaped.execRampDownEnd {t : Frc} (h : Shaped s) : OutShaped (execRampDownEnd t s) := by
  unfold Machine.execRampDownEnd
  dsimp only
  split
  · exact .next h.advance
  · split
    · exact .next h.advance
    · refine .next ?_
      refine .txToIdle ?_
      split
      · exact (h.advance.event.unless fun h => h.raise).onTicket
      · exact (h.advance.event.unless fun h => h.raise).dutyCharge
      · exact h.advance.event.unless fun h => h.raise
theorem Shaped.execLiveEccError {t : Frc} (h : Shaped s) : OutShaped (execLiveEccError t s) := .next h.advance.txAbort
theorem Shaped.execAckBuildDone {t : Frc} (h : Shaped s) : OutShaped (execAckBuildDone t s) := .next h.advance.withTxm
theorem Shaped.ackDrop {frame : Nat} (h : Shaped s) : Shaped (s.ackDrop frame) := h.withTxm
theorem Shaped.execAckLaunch {t : Frc} (h : Shaped s) : OutShaped (execAckLaunch t s) := by
  have ha := h.advance (t := t)
  unfold Machine.execAckLaunch
  dsimp only
  split
  · exact .next ha
  · refine .ite (.next ha) (.ite (.next ha.ackDrop.withTxm) ?_)
    split
    · refine .next (.txBlocked ?_)
      exact .ite ha.ackDrop.txToIdle ha.ackDrop.withTxm
    · refine .ite (.next (.raise (.finc ?_))) ?_
      · exact .ite ha.ackDrop.txToIdle ha.ackDrop.withTxm
      · exact .next ha.ackDrop.departure.descSet.txPowerSet.txStart
theorem Shaped.mchkRequest (h : Shaped s) : Shaped s.mchkRequest := .ite h.fset.raise (.ite h h.fset.workAge.workNext)
theorem Shaped.execMchkDone {acp1 acp2 : BitVec 8} (h : Shaped s) : OutShaped (execMchkDone acp1 acp2 s) :=
  .ite (.next h.workGone.setRfe.fset.fset.rsetN.raise.workNext) (.next h)
theorem Shaped.txTest (h : Shaped s) : Shaped s.txTest := by
  unfold State.txTest
  dsimp only
  split
  · split
    · exact .ite h.withTxm.setTx.fset h
    · exact h
  · exact .ite (.ite h.setTx h.txPowerSet.txStart.fset) h.fset.fset
theorem Shaped.firNext (h : Shaped s) : Shaped s.firNext := h.fset
theorem Shaped.txmReset (h : Shaped s) : Shaped s.txmReset := h.srstPage.withTxm.fset.txAbort.when fun h => h.workAbort
theorem Shaped.txmHook {w : WCtx} (h : Shaped s) : Shaped (txmHook w s) :=
  .ite (.ite h.txmReset (.ite h.txAbort h)) (.ite h.fset (.ite h.withTxm.fset.firNext (.ite (h.fset.when fun h => h.mchkRequest)
    (.ite h.txTest h))))
theorem Shaped.execTxmFirDataAccess {a : Acc} {w : Option Word} (h : Shaped s) : OutShaped (execTxmFirDataAccess a w s) := by
  unfold Machine.execTxmFirDataAccess
  dsimp only
  split
  · exact .next (h.readAs (fun h => h.firNext))
  · exact .next (h.portWrite (fun h => h.txmHook))
theorem Shaped.execTxmDisable {a : Acc} {v : Word} (h : Shaped s) : OutShaped (execTxmDisable a v s) :=
  .next (h.writeReg (fun h => h.txmHook))
theorem Shaped.execMchkReq {a : Acc} {v : Word} (h : Shaped s) : OutShaped (execMchkReq a v s) := .next (h.writeReg (fun h => h.txmHook))
theorem Shaped.execTxmTestWrite {a : Acc} {v : Word} (h : Shaped s) : OutShaped (execTxmTestWrite a v s) :=
  .next (h.writeReg (fun h => h.txmHook))

/-! ## The operations of Machine/Canopy.lean -/

theorem Shaped.missNote {asn : Nat} {x : WinCand × Nat} (h : Shaped s) : Shaped (s.missNote asn x) := by
  unfold State.missNote
  split
  · dsimp only
    refine .event <| .raise <| .fset <| .rsetN ?_
    split
    · exact h.finc.finc
    · exact h.finc.finc
    · exact h.finc.finc
    · exact h.finc.finc
    · exact h.finc
  · exact h.fset
  · exact h
theorem Shaped.laneAssign {n : Nat} {sv : Option Served} (h : Shaped s) : Shaped (s.laneAssign n sv) := by
  unfold State.laneAssign
  dsimp only
  split <;> exact h.setLane.rsetN
theorem Shaped.laneLatch {n : Nat} (h : Shaped s) : Shaped (s.laneLatch n) := h.setLane.when fun h => h.fsetI
theorem Shaped.openWindow {asn : Nat} {p : Placed} {listen : Bool} (h : Shaped s) : Shaped (s.openWindow asn p listen) :=
  (((h.foldl fun h => h.missNote).foldl fun h => h.fset).rsetN.unless fun h => h.fset).fsetB.foldl fun h => h.laneAssign
theorem Shaped.windowNote {ended : Nat} (h : Shaped s) : Shaped (s.windowNote ended) := by
  unfold State.windowNote
  split
  · exact .ite h.windowShut h
  · exact h
theorem Shaped.execLaneArm {t : Frc} {lane : Fin 16} (h : Shaped s) : OutShaped (execLaneArm t lane s) := by
  unfold Machine.execLaneArm
  dsimp only
  split
  · exact .ite (.next h.advance)
      (.next ((h.advance.setLane.laneSearch.when fun h => h.fset.finc.raise).unless fun h => h.narrowGainOpen))
  · exact .next h.advance
theorem Shaped.execSearchEnd {lane : Fin 16} (h : Shaped s) : OutShaped (execSearchEnd lane s) :=
  .ite (.next h.windowNote) (.next (h.setLane.when fun h => h.laneTo).windowNote)
theorem Shaped.execPreambleDetect {at' : LaneAt} {branches : List (Fin 5 × Nat × Nat)} (h : Shaped s) :
    OutShaped (execPreambleDetect at' branches s) :=
  .ite (.next h.advance) (.next (h.advance.laneTo.setLane.fadd.when fun h => h.fset))
theorem Shaped.execSfdMatch {at' : LaneAt} {afc : Int} {rssi : BitVec 8} {snrMilliDb : Int} {word : List Bool} (h : Shaped s) :
    OutShaped (execSfdMatch at' afc rssi snrMilliDb word s) := by
  unfold Machine.execSfdMatch
  dsimp only
  split
  · exact .next h
  · split
    · exact .next h.advance
    · exact .next h.advance.laneTo.setLane.rsetN.rsetN.rsetN.freeStep.freeStep.event
theorem Shaped.execSfdTimeout {at' : LaneAt} (h : Shaped s) : OutShaped (execSfdTimeout at' s) :=
  .ite (.next h.advance) (.next h.advance.finc.laneDrop.laneRest.windowNote)
theorem Shaped.frameDrop {n : Nat} (h : Shaped s) : Shaped (s.frameDrop n) := h.finc.laneDrop.laneRest.windowNote
theorem Shaped.stage {n : Nat} {p : Phr} {i : Option MacInfo} (h : Shaped s) : Shaped (s.stage n p i) := by
  unfold State.stage
  dsimp only
  split
  · exact h.setLane
  · split
    · exact h.finc.frameDrop
    · next e =>
      split
      · exact (h.takeCells e).cellsTo.poolNote.setLane
      · split
        · exact (h.takeCells e).cellsTo.poolNote.setLane.setLane
        · exact .ite (h.takeCells e).cellsTo.poolNote.setLane.setLane (h.takeCells e).cellsTo.poolNote.setLane.finc.frameDrop
theorem Shaped.execPhrParsed {at' : LaneAt} {phr : PhrBits} (h : Shaped s) : OutShaped (execPhrParsed at' phr s) := by
  unfold Machine.execPhrParsed
  dsimp only
  split
  · exact .next h.advance
  · split
    · exact .next h.advance.finc.frameDrop
    · exact .next h.advance.finc.frameDrop
    · exact .ite (.next h.advance.setLane.laneTo) (.next h.advance.finc.frameDrop)
    · exact .next h.advance.stage
theorem Shaped.execLastBitDecoded {lane : Fin 16} {t : Frc} {bits : List Bool} (h : Shaped s) :
    OutShaped (execLastBitDecoded lane t bits s) := by
  unfold Machine.execLastBitDecoded
  dsimp only
  split
  · exact .next h.advance
  · exact .ite (.next h.advance) (.next h.advance.laneTo.setLane.raise.event)
theorem Shaped.execThresholdBlock {lane : Fin 16} {power : Int} {quiet : Bool} (h : Shaped s) :
    OutShaped (execThresholdBlock lane power quiet s) :=
  .ite (.next h) (.next h.setLane.fsetI.fsetI.fsetI)
theorem Shaped.fecRecall (h : Shaped s) : Shaped s.fecRecall := h.withFec.foldl fun h => h.cwQueue
theorem Shaped.execLdpcCodewordReceived {at' : LaneAt} (h : Shaped s) : OutShaped (execLdpcCodewordReceived at' s) :=
  .ite (.next h.advance) (.ite (.next h.advance.laneAbort.windowNote) (.next h.advance.setLane.fecRecall.cwQueue.fecFill))
theorem Shaped.execLdpcDecodeDone {dec : Fin 4} {t : Frc} {res : Decoded} (h : Shaped s) :
    OutShaped (execLdpcDecodeDone dec t res s) := by
  unfold Machine.execLdpcDecodeDone
  dsimp only
  split
  · exact .next h.advance
  · split
    · exact .next h.advance
    · exact .next (h.advance.withFec.finc.fadd.fset.unless fun h => h.finc.raise).setLane.fecFill
theorem Shaped.replayAdvance {m asn : Nat} {i : MacInfo} {l : List Byte} (h : Shaped s) : Shaped (s.replayAdvance m asn i l) :=
  .ite h.nbrSet.nbrSet.nbrSet h.nbrSet.nbrSet
theorem Shaped.ackBuild {n : Nat} {l : Lane} {v : Served} {c : Cand} {m : Option Nat} {i : MacInfo} {f : RxFrame} {first : Nat}
    (h : Shaped s) :
    Shaped (s.ackBuild n l v c m i f first) := by
  unfold State.ackBuild
  dsimp only
  split
  · exact h
  · split
    · exact h.withTxm
    · split
      · exact h.finc
      · exact .ite h.finc h.takeCounter.withTxm
theorem Shaped.publishFrame {n : Nat} {sl : Slot} {v : Served} {p : Phr} {f : RxFrame} {info : Option MacInfo} {oct : List Byte}
    (h : Shaped s) :
    Shaped (s.publishFrame n sl v p f info oct) := by
  unfold State.publishFrame
  extract_lets l c0 m cred rssi lqi a1 w1 a a2 a3 a4 a5 a6 a7 cad a8
  have h6 : Shaped a6 :=
    h.linkChain.putOctets.setWord.setWord.setWord.setWord.setWord.setWord.setWord.cellsTo.setTrf.finc.raise.event
  have h7 : Shaped a7 := by
    unfold a7
    cases cred with
    | none => exact h6
    | some c => exact h6.withSlot
  have h8 : Shaped a8 := by
    unfold a8
    split
    · exact h7.withCad
    · exact h7
  have answer {t : State} {x : Option Nat} {i : MacInfo} (h : Shaped t) :
      Shaped (match cred with | some c => t.ackBuild n l v c x i f c0 | none => t) := by
    cases cred with
    | none => exact h
    | some c => exact h.ackBuild
  clear_value a8 m
  cases info with
  | none => exact h8
  | some i =>
    cases m with
    | none => exact answer h8
    | some x => exact answer <| ((h8.when fun h => h.replayAdvance).nbrSet.nbrSet.nbrSet.contact).when fun h => h.rsetN.ntuSample
theorem Shaped.laneReleased {n : Nat} {v : Served} (h : Shaped s) : Shaped (s.laneReleased n v) :=
  (h.setLane.laneDrop.either (fun h => h.laneRest) fun h => h.laneTo).windowNote
theorem Shaped.checkLane {n : Nat} (h : Shaped s) : Shaped (s.checkLane n) := by
  unfold State.checkLane
  dsimp only
  split
  · exact h
  · split
    · split
      · exact (Shaped.ite h.fset.fset h).publishFrame.laneReleased
      · refine .frameDrop ?_
        refine .when ?_ fun h => h.fset.raise
        split
        · exact (Shaped.ite h.fset.fset h).finc
        · exact .ite h.fset.fset h
    · exact h.laneDrop.laneRest
theorem Shaped.execFrameChecks {lanes : BitVec 16} {t : Frc} (h : Shaped s) : OutShaped (execFrameChecks lanes t s) :=
  .ite (.next h.advance) (.next (h.advance.foldl fun h => h.checkLane))
theorem Shaped.ackSkip (h : Shaped s) : Shaped s.ackSkip := h.finc.fset.raise
theorem Shaped.lanesForAck (h : Shaped s) : Shaped s.lanesForAck := h.foldl fun h => .ite h.finc.laneAbort (.ite h.setLane h)
theorem Shaped.execAckDecision {t : Frc} {lane : Fin 16} (h : Shaped s) : OutShaped (execAckDecision t lane s) := by
  have ha := h.advance (t := t)
  unfold Machine.execAckDecision
  dsimp only
  split
  · refine .ite (.next ha.ackDrop.ackSkip) (.next (.when (.fset ?_) fun h => h.lanesForAck))
    exact ha
  · exact .next (ha.when fun h => h.setLane.ackSkip)
theorem Shaped.execCanopyWindowReturn {t : Frc} (h : Shaped s) : OutShaped (execCanopyWindowReturn t s) := by
  have ha := h.advance (t := t)
  unfold Machine.execCanopyWindowReturn
  dsimp only
  split
  · exact .next ha
  · refine .next (.withLanes ?_ (List.length_map _))
    split
    · refine .fset ?_
      exact ha
    · exact ha
theorem Shaped.laneThrReset {n : Nat} (h : Shaped s) : Shaped (s.laneThrReset n) := h.setLane.fsetI.fsetI
theorem Shaped.laneReset {n : Nat} (h : Shaped s) : Shaped (s.laneReset n) := h.srstPage.laneThrReset.laneTo.laneStop
theorem Shaped.laneHook {n : Nat} {w : WCtx} (h : Shaped s) : Shaped (laneHook n w s) :=
  .ite (.ite h.laneReset (.ite (Shaped.ite h.laneStop h).fset (.ite h.laneStop h))) h
theorem Shaped.cnpHook {w : WCtx} (h : Shaped s) : Shaped (cnpHook w s) := .ite h.srstPage h
theorem Shaped.fecOff (h : Shaped s) : Shaped s.fecOff := (h.foldl fun h => h.laneAbort).withFec
theorem Shaped.fecHook {w : WCtx} (h : Shaped s) : Shaped (fecHook w s) :=
  .ite (.ite (Shaped.ite h.fecOff h).fecOff.srstPage (.ite h.fecOff h)) h
theorem Shaped.execCnpEnWrite {a : Acc} {v : Word} (h : Shaped s) : OutShaped (execCnpEnWrite a v s) :=
  .next (h.writeReg (fun h => h.cnpHook))
theorem Shaped.execLaneDisable {a : Acc} {lane : Fin 16} {v : Word} (h : Shaped s) : OutShaped (execLaneDisable a lane v s) :=
  .next (h.writeReg (fun h => h.laneHook))
theorem Shaped.execFecDisable {a : Acc} {v : Word} (h : Shaped s) : OutShaped (execFecDisable a v s) :=
  .next (h.writeReg (fun h => h.fecHook))

/-! ## The operations of Machine/Glade.lean -/

theorem Shaped.gLine {n : Nat} (h : Shaped s) : Shaped (s.gLine n) := .ite h h.withCoreG
theorem Shaped.gUnline {n : Nat} (h : Shaped s) : Shaped (s.gUnline n) := .ite h.withCoreG h
theorem Shaped.gInc {k : Nat} (h : Shaped s) : Shaped (s.gInc k) := h.setGlade (Prod.ext rfl (length_setAt _ _ _))
theorem Shaped.gLog {code d0 d1 : Nat} {recovered : Bool} (h : Shaped s) : Shaped (s.gLog code d0 d1 recovered) := by
  refine h.setGlade ?_
  split <;> rfl
theorem Shaped.gRecover (h : Shaped s) : Shaped s.gRecover := h.foldl fun h => h.foldl fun h1 => .ite h1.gLog h1.gLog.freeStep
/-- Bytes read as free values move the counter of free values alone. -/
theorem Shaped.freeBytes {l : List Nat} {bs : List Byte} (h : Shaped s) :
    Shaped (l.foldl (fun (r : State × List Byte) _ => (r.1.freeStep, r.2 ++ [BitVec.ofNat 8 r.1.free])) (s, bs)).1 :=
  .foldlFst h fun h => h.freeStep
theorem Glade.counts_setList (g : Glade) (a : Nat) (l : List Byte) : (g.setList a l).counts = g.counts := by
  induction l generalizing g a with
  | nil => rfl
  | cons b l ih => exact ih _ _
theorem Shaped.gReadErr {a : Nat} (h : Shaped s) : Shaped (s.gReadErr a) := (h.freeBytes.setGlade (Glade.counts_setList _ _ _)).gLog
theorem Shaped.gReads {lo hi : Nat} (h : Shaped s) : Shaped (s.gReads lo hi) := h.foldl fun h => h.gReadErr
theorem Shaped.dropGrant (h : Shaped s) : Shaped s.dropGrant := .ite h h
theorem Shaped.grantStep (h : Shaped s) : Shaped s.grantStep := .ite h.setGlade h.dropGrant
theorem Shaped.gladeReset {cause : Nat} (h : Shaped s) : Shaped (s.gladeReset cause) := by
  have hr : Shaped (@ite _ (s.glade.session = true) _ s.dropGrant s) := .ite h.dropGrant h
  exact (hr.resetRegs.withCoreG (x := gladeCore) hr.shape.wG.symm).setGlade.gInc.gLog.publish
theorem Shaped.sessionEnd {reason : Nat} (h : Shaped s) : Shaped (s.sessionEnd reason) := h.gLog.publish.setGlade.dropGrant.gladeReset
theorem Shaped.endSession {reason : Nat} (h : Shaped s) : Shaped (s.endSession reason) := .ite h (.ite h.setGlade h.sessionEnd)
theorem Shaped.sealDecide {op : Bool} (h : Shaped s) : Shaped (s.sealDecide op) :=
  .ite h (.ite h.setGlade ((Shaped.ite h.setGlade.gInc.gLog h.setGlade.gLog).gLine.publish.either
    (fun h => h.grantStep) fun h => h.endSession.grantStep))
theorem Shaped.execSealCheck {matched : Bool} (h : Shaped s) : OutShaped (execSealCheck matched s) :=
  .ite (.next h) (.next (.ite h.setGlade.sealDecide (h.setGlade.when fun h => h.sealDecide)))
theorem Shaped.gPresence {low : Bool} (h : Shaped s) : Shaped (s.gPresence low) := by
  unfold State.gPresence
  split
  · exact h
  · split
    · exact .ite h.setGlade h
    · exact .ite h h.setGlade
theorem Shaped.execGladeTokenChange {t : Frc} (h : Shaped s) : OutShaped (execGladeTokenChange t s) :=
  .next (h.advance.unless fun h => h.setGlade.gLine.grantStep)
theorem Shaped.execGrantChange (h : Shaped s) : OutShaped (execGrantChange s) := .next (.ite h.grantStep h)
theorem Shaped.gpcSet {n : Nat} {f : Gpc → Gpc} (h : Shaped s) : Shaped (s.gpcSet n f) := h.setGlade (Prod.ext (length_setAt _ _ _) rfl)
theorem Shaped.gpcCount {n : Nat} {up : Bool} (h : Shaped s) : Shaped (s.gpcCount n up) := .ite h.fset h.fset.gpcSet.gLine.publish
theorem Shaped.gpcEdge {n : Nat} {pa pb : Bool} (h : Shaped s) : Shaped (s.gpcEdge n pa pb) := by
  unfold State.gpcEdge
  dsimp only
  split
  · exact h.gpcSet.when fun h => h.gpcCount
  · exact h.gpcSet.when fun h => h.gpcCount
  · exact h.gpcSet.when fun h => h.gpcCount
  · exact .ite h.gpcSet.fadd (.ite h.gpcSet (.ite h.gpcSet.gpcSet.gpcCount h.gpcSet.gpcSet))
  · exact .ite h.gpcSet.fadd (h.gpcSet.unless fun h => h.gpcCount)
  · exact h.gpcSet
theorem Shaped.execGpcEdge {ch : Fin 4} {pa pb : Bool} (h : Shaped s) : OutShaped (execGpcEdge ch pa pb s) := .next (.ite h.gpcEdge h)
theorem Shaped.gpcCapture {n : Nat} (h : Shaped s) : Shaped (s.gpcCapture n) := (Shaped.ite h.fset h).gpcSet.fset
theorem Shaped.execGsecIncrement (h : Shaped s) : OutShaped (execGsecIncrement s) :=
  .ite (.next h) (.next ((h.setGlade.gLine.foldl fun h => h.gpcCapture).when fun h => h.fset))
theorem Shaped.mbStart {a : Nat} (h : Shaped s) : Shaped (s.mbStart a) := h.setGlade
theorem Shaped.mbDone (h : Shaped s) : Shaped s.mbDone := by
  unfold State.mbDone
  split
  · exact h
  · exact h.setGlade.gLine.publish
theorem Shaped.execMbCopyDone (h : Shaped s) : OutShaped (execMbCopyDone s) := .next h.mbDone
theorem Shaped.mbRead0 {m : Master} (h : Shaped s) : Shaped (s.mbRead0 m).1 := h.mbDone.setGlade
theorem Shaped.windowRead {m : Master} {f : State → State × Nat} (h : Shaped s) (hf : ∀ {t}, Shaped t → Shaped (f t).1) :
    Shaped (s.windowRead m f) :=
  .ite h.withBus (hf h).withBus
theorem Shaped.execMailboxWord0Read {m : Master} {viaWindow : Bool} (h : Shaped s) : OutShaped (execMailboxWord0Read m viaWindow s) :=
  .next (.ite (h.windowRead (fun h => h.mbRead0)) (h.readAs (fun h => h.mbRead0)))
theorem Shaped.gladeRead {a : Nat} (h : Shaped s) : Shaped (s.gladeRead a).1 :=
  .iteFst (h.setGlade.when fun h => h.fset) (.iteFst h (.iteFst h.fset (.iteFst h.fset h)))
theorem Shaped.gAppend {w2 : Nat} (h : Shaped s) : Shaped (s.gAppend w2) := .ite h.fset h.setGlade
theorem Shaped.gdspSend {v : Nat} (h : Shaped s) : Shaped (s.gdspSend v) := .ite h.fset h.setGlade.fset
theorem Shaped.gladeSrst {p : Nat} (h : Shaped s) : Shaped (s.gladeSrst p) := by
  unfold State.gladeSrst
  dsimp only
  refine .ite ?_ (.ite (h.resetRegs.setGlade ?_) (h.resetRegs.setGlade ?_))
  · exact (h.resetRegs.setGlade (f := fun g => { g with copy := none })).withCoreG
  · exact Prod.ext (List.length_map _) rfl
  · split <;> rfl
theorem Shaped.gladeWrite {a : Nat} {v : Word} (h : Shaped s) : Shaped (s.gladeWrite a v) :=
  .elim h (.ite h (.ite (.ite h.rset h) (.ite (h.rset.when fun h => h.gladeSrst) (.ite (.ite h.mbStart h) (.ite (.ite
    (h.foldl fun h => .ite h.gUnline h) h) (.ite (.ite h (h.rset.when fun h => h.fset)) (.ite (.ite h.fset.gUnline h) (.ite
    (.ite h.gladeReset h) (.ite (.ite h.gdspSend h) (.ite (h.rset.fset.when fun h => h.gpcCapture) (.ite
    (h.rset.fset.when fun h => h.setGlade) (.ite (.ite h.setGlade h) (.ite (.ite h.setGlade h) (.ite
    (.ite h.gAppend h) h.rset))))))))))))))
theorem Shaped.byFirmware {f : State → State} (h : Shaped s) (hf : ∀ {t}, Shaped t → Shaped (f t)) : OutShaped (s.byFirmware f) :=
  .next (.ite (hf h) h)
theorem Shaped.execGcoreMbsrc {v : Word} (h : Shaped s) : OutShaped (execGcoreMbsrc v s) := h.byFirmware (fun h => h.gladeWrite)
theorem Shaped.execGpcCapture {ch : Fin 4} {v : Word} (h : Shaped s) : OutShaped (execGpcCapture ch v s) :=
  h.byFirmware (fun h => h.gladeWrite)
theorem Shaped.execGladeWdtKick {v : Word} (h : Shaped s) : OutShaped (execGladeWdtKick v s) := h.byFirmware (fun h => h.gladeWrite)
theorem Shaped.execGladeWdtEnable {v : Word} (h : Shaped s) : OutShaped (execGladeWdtEnable v s) := h.byFirmware (fun h => h.gladeWrite)
theorem Shaped.execGladeSelfReset {v : Word} (h : Shaped s) : OutShaped (execGladeSelfReset v s) := h.byFirmware (fun h => h.gladeWrite)
theorem Shaped.execGlogAppend {v : Word} (h : Shaped s) : OutShaped (execGlogAppend v s) := h.byFirmware (fun h => h.gladeWrite)
theorem Shaped.execGadcStart {v : Word} (h : Shaped s) : OutShaped (execGadcStart v s) := h.byFirmware (fun h => h.gladeWrite)
theorem Shaped.execGdspFrame {v : Word} (h : Shaped s) : OutShaped (execGdspFrame v s) := h.byFirmware (fun h => h.gladeWrite)
theorem Shaped.execGpcCapRead {ch : Fin 4} {sameCycleCapture : Bool} (h : Shaped s) : OutShaped (execGpcCapRead ch sameCycleCapture s) :=
  h.byFirmware (fun h => h.gladeRead.setGlade.when fun h => h.gpcCapture)
theorem Shaped.execGladeWdtWarning (h : Shaped s) : OutShaped (execGladeWdtWarning s) := .next (.ite h.gLine h)
theorem Shaped.execGladeWatchdogExpiry (h : Shaped s) : OutShaped (execGladeWatchdogExpiry s) := .next (.ite h.gladeReset h)
theorem Glade.counts_writeEntry (g : Glade) (e : GLogWr) : (g.writeEntry e).counts = g.counts := by
  unfold Glade.writeEntry
  dsimp only
  generalize List.flatMap _ _ = bytes
  split
  · exact Glade.counts_setList _ _ _
  · refine (Glade.counts_setList _ _ _).trans ?_
    split <;> rfl
theorem Shaped.execGlogWriteDone (h : Shaped s) : OutShaped (execGlogWriteDone s) := by
  unfold Machine.execGlogWriteDone
  split
  · exact .next (h.when fun h => (h.setGlade (Glade.counts_writeEntry _ _)).gLine)
  · exact .next h
theorem Shaped.execGadcResult {data : BitVec 14} (h : Shaped s) : OutShaped (execGadcResult data s) := .next (.ite h.fset.fset.setGlade h)
theorem Shaped.execGdspFrameDone (h : Shaped s) : OutShaped (execGdspFrameDone s) := .next (.ite h.fset.gLine h)
theorem Shaped.gladeLoss (h : Shaped s) : Shaped s.gladeLoss := h.setGlade.fset
theorem Shaped.execGladePowerOnReset (h : Shaped s) : OutShaped (execGladePowerOnReset s) := by
  have hp := ((h.resetRegs (p := fun a => pageOf a = Pg.GPC)).setGlade (f := fun g =>
    { g with powered := true, gsec := 0, box := List.replicate 64 0, snaps := [], token := false, sealOpen := true
             sealKnown := s.glade.sealLost, sealBad := 0, sealGood := 0, sealLost := false, logQ := [], presLow := none, presLong := none
             logSeq := (g.logSeq + 65536 - g.logQ.length % 65536) % 65536
             mem := g.mem.filter (fun c => c.1 < 0x40000) })).gRecover.dropGrant.gladeReset (cause := 0)
  exact .next (hp.gInc.gLog.when fun h => h.gInc.gLog.gLine.publish)
theorem Shaped.execGladeBootDone (h : Shaped s) : OutShaped (execGladeBootDone s) :=
  .ite (.next h) (.ite (.next h.gReads.setGlade.grantStep) (.next h.gReads.setGlade.grantStep.freeStep.freeStep.withCoreG))
theorem Shaped.maintResult {r : Nat} (h : Shaped s) : Shaped (s.maintResult r) := h.setGlade
theorem Shaped.maintOpen (h : Shaped s) : Shaped s.maintOpen :=
  .ite h (.ite h.gLog.dropGrant (.ite h.gLog.dropGrant h.gInc.gLog.publish.setGlade))
theorem Shaped.maintCmd {f : State → State} (h : Shaped s) (hf : ∀ {t}, Shaped t → Shaped (f t)) : OutShaped (s.maintCmd f) :=
  .ite (.next h) (.ite (.next h.maintOpen) (.ite (.next h.maintOpen.maintResult) (.next (hf h.maintOpen))))
theorem Shaped.maintChange (h : Shaped s) : Shaped s.maintChange := h.setGlade.unless fun h => h.gInc.setGlade.gLog
theorem Shaped.execMaintStatus (h : Shaped s) : OutShaped (execMaintStatus s) := .ite (.next h) (.next h.maintOpen.setGlade)
theorem Shaped.execMaintErase {area : Byte} (h : Shaped s) : OutShaped (execMaintErase area s) :=
  h.maintCmd (fun h => .ite h.maintChange.maintResult h.maintChange.setGlade)
theorem Shaped.execMaintProg {addr : BitVec 24} {data : List Byte} (h : Shaped s) : OutShaped (execMaintProg addr data s) :=
  h.maintCmd (fun h => .ite h.maintChange.maintResult (.ite h.maintChange.maintResult h.maintChange.setGlade))
theorem Shaped.execMaintRead {rd : MaintRd} (h : Shaped s) : OutShaped (execMaintRead rd s) :=
  h.maintCmd (fun h => .ite h.maintResult (Shaped.ite h.setGlade h).gReads.setGlade.maintResult)
theorem Shaped.maintSpoilt {r : Nat} (h : Shaped s) : Shaped (s.maintSpoilt r) := h.setGlade.maintResult
theorem Shaped.execMaintCommit {digest : List Byte} (h : Shaped s) : OutShaped (execMaintCommit digest s) :=
  h.maintCmd (fun h => .ite h.maintSpoilt h.setGlade)
theorem Shaped.maintCode {code : Nat} (h : Shaped s) : OutShaped (s.maintCode code) := by
  unfold State.maintCode
  split
  · exact h.execMaintStatus
  · exact h.maintCmd (fun h => h.maintChange.maintResult)
  · exact h.maintCmd (fun h => h.maintChange.maintResult)
  · exact h.maintCmd (fun h => h.maintSpoilt)
  · exact h.maintCmd (fun h => h.maintResult.endSession)
  · exact h.maintCmd (fun h => h.maintResult)
theorem Shaped.execMaintExit (h : Shaped s) : OutShaped (execMaintExit s) := h.maintCmd (fun h => h.maintResult.endSession)
theorem Shaped.maintErased {params ok : Bool} (h : Shaped s) : Shaped (s.maintErased params ok) := by
  unfold State.maintErased
  extract_lets lo hi t k
  have ht : Shaped t := h.setGlade (by cases params <;> rfl)
  exact .ite ht.setGlade.maintResult ht.freeStep.setGlade.gLog.maintResult
theorem Shaped.maintProgged {a : Nat} {data : List Byte} {ok : Bool} (h : Shaped s) : Shaped (s.maintProgged a data ok) := by
  unfold State.maintProgged
  split
  · exact (h.setGlade (Glade.counts_setList _ _ _)).maintResult
  · exact (h.freeBytes.setGlade (Glade.counts_setList _ _ _)).gLog.maintResult
theorem Shaped.maintCommitted {d : List Byte} (h : Shaped s) : Shaped (s.maintCommitted d) :=
  .ite h.maintSpoilt (.ite h.setGlade.maintSpoilt h.setGlade.gLog.maintResult)
theorem Shaped.execMaintOpDone {verified : Bool} (h : Shaped s) : OutShaped (execMaintOpDone verified s) := by
  have ended {t : State} (h : Shaped t) : OutShaped (.next (match t.glade.pendEnd with
      | some r => t.sessionEnd r
      | none => t)) := by
    split
    · exact .next h.sessionEnd
    · exact .next h
  unfold Machine.execMaintOpDone
  split
  · exact .next h
  · refine ended (Shaped.setGlade (f := fun g => { g with op := none }) ?_)
    split
    · exact h.maintErased
    · exact h.maintProgged
    · exact (h.unless fun h => h.freeStep.setGlade).gReads.maintCommitted
theorem Shaped.execMaintTimeout (h : Shaped s) : OutShaped (execMaintTimeout s) := .next h.endSession

/-! ## The operations of Machine/Psp.lean -/

theorem Shaped.setPsp {f : PspState → PspState} (h : Shaped s) : Shaped (s.setPsp f) := h.withPsp
theorem Shaped.pspEnd {bits phase : Nat} {hold : Bool} (h : Shaped s) : Shaped (s.pspEnd bits phase hold) :=
  h.setPsp.fset.fset.fset.fset.raise.event
theorem Shaped.pspStop {cause moved phase : Nat} {rx : List Byte} (h : Shaped s) : Shaped (s.pspStop cause moved phase rx) :=
  .ite (h.withPins (fun h => h.setPsp.fset.raise.fset.pspEnd)) (h.withPins (fun h => h.setPsp))
theorem Shaped.freeLanes {n : Nat} (h : Shaped s) : Shaped (s.freeLanes n).1 := by
  induction n generalizing s with
  | zero => exact h
  | succ n ih => exact ih h.freeStep
theorem Shaped.pspStopNow {cause : Nat} (h : Shaped s) : Shaped (s.pspStopNow cause) :=
  .ite h.freeStep.freeStep.freeLanes.pspStop h.pspStop
theorem Shaped.pspGo (h : Shaped s) : Shaped s.pspGo := by
  unfold State.pspGo
  split
  · exact h.withPins (fun h => h.setPsp)
  · exact h.fset.raise.fset
theorem Shaped.pspPush {v : Word} (h : Shaped s) : Shaped (s.pspPush v) := by
  unfold State.pspPush
  split
  · exact .ite h.setPsp (.ite h.setPsp h.fset)
  · exact h.setPsp
theorem Shaped.pspPop (h : Shaped s) : Shaped s.pspPop.1 := by
  unfold State.pspPop
  split
  · exact h.setPsp
  · exact .iteFst h.freeStep.setPsp h.fset
theorem Shaped.pspReset (h : Shaped s) : Shaped s.pspReset := (h.withPins (fun h => h.srstPage)).setPsp.pspStopNow.setPsp
theorem Shaped.pspHook {w : WCtx} (h : Shaped s) : Shaped (pspHook w s) :=
  .ite (.ite h.pspReset (.ite h.pspStopNow h)) (.ite h.pinWrite (.ite ((h.rsetN.when fun h => h.pspGo).when fun h => h.pspStopNow) (.ite
    (.ite h.pspPush h) h)))
theorem Shaped.execPspGo {a : Acc} {v : Word} (h : Shaped s) : OutShaped (execPspGo a v s) := .next (h.writeReg (fun h => h.pspHook))
theorem Shaped.pspStopHook {moved phase : Nat} {rx : List Byte} {w : WCtx} (h : Shaped s) : Shaped (pspStopHook moved phase rx w s) :=
  (h.rsetN.when fun h => h.pspGo).when fun h => h.pspStop
theorem Shaped.execPspStop {a : Acc} {v : Word} {moved : Nat} {phase : Fin 4} {rx : List Byte} (h : Shaped s) :
    OutShaped (execPspStop a v moved phase rx s) :=
  .next (h.writeReg (fun h => h.pspStopHook))
theorem Shaped.execPspTxdWrite {a : Acc} {v : Word} (h : Shaped s) : OutShaped (execPspTxdWrite a v s) :=
  .next (h.writeReg (fun h => h.pspHook))
theorem Shaped.execPspRxdRead {m : Master} (h : Shaped s) : OutShaped (execPspRxdRead m s) := .next (h.readAs (fun h => h.pspPop))
theorem Shaped.execPspPause {moved : Nat} {rx : List Byte} (h : Shaped s) : OutShaped (execPspPause moved rx s) :=
  .ite (.next h.setPsp.fset) (.next h)
theorem Shaped.execPspFifoResume (h : Shaped s) : OutShaped (execPspFifoResume s) := .ite (.next h.fset) (.next h)
theorem Shaped.execPspTransferEnd {rx : List Byte} (h : Shaped s) : OutShaped (execPspTransferEnd rx s) :=
  .ite (.next h) (.next (h.withPins (fun h => h.setPsp.pspEnd)))

/-! ## The operations of Machine/Cadence.lean -/

theorem Shaped.setCad {f : CadState → CadState} (h : Shaped s) : Shaped (s.setCad f) := h.withCad
theorem Shaped.cadStart (h : Shaped s) : Shaped s.cadStart :=
  .ite h.setCad ((h.fset.fset.unless fun h => h.fset.raise).unless fun h => h.fset)
theorem Shaped.cadHalt {cause : SqCause} (h : Shaped s) : Shaped (s.cadHalt cause) := by
  refine (Shaped.fset (.fset (.fset (.setCad ?_)))).windowShut.setRfe.stepTry.modeAtStop.workNext
  exact h.squashWhere
theorem Shaped.cadStop (h : Shaped s) : Shaped s.cadStop := h.cadHalt
theorem Shaped.cadDisable (h : Shaped s) : Shaped s.cadDisable := by
  unfold State.cadDisable
  split
  · exact .ite h.cadStop h.setCad
  · exact h.cadStop
theorem Shaped.tableChanged {p : Ticket → Bool} (h : Shaped s) : Shaped (s.tableChanged p) := h.squashWhere
theorem Shaped.hopNext (h : Shaped s) : Shaped s.hopNext := h.fset
theorem Shaped.hopSet {ch : Nat} (h : Shaped s) : Shaped (s.hopSet ch) := h.setCad.tableChanged.hopNext
theorem Shaped.cadCtrl {w : WCtx} (h : Shaped s) : Shaped (cadCtrl w s) :=
  .ite (Shaped.ite (Shaped.ite h.cadStart (.ite h.cadDisable h)).cadDisable (.ite h.cadStart (.ite h.cadDisable h))).setCad.srstPage
    (.ite h.cadStart (.ite h.cadDisable h))
theorem Shaped.cadSlotframe {w : WCtx} {n : Nat} (h : Shaped s) : Shaped (cadSlotframe w n s) :=
  .ite (Shaped.ite h.fset.fset h).tableChanged (.ite h.fset.fset h)
theorem Shaped.cadHook {w : WCtx} (h : Shaped s) : Shaped (cadHook w s) :=
  .ite h.cadCtrl (.ite (.ite h.rsetN.fset h) (.ite h.cadSlotframe (.ite (.ite h.fset.setCad h) (.ite h.hopSet (.ite h.tableChanged (.ite
    (h.fset.when fun h => h.tableChanged) (.ite (.ite h.fset.rsetN.fset (h.fset.when fun h => h.setCad)) (.ite
    (.ite h.rsetN.fset h) h))))))))
theorem Shaped.nbrHook {w : WCtx} (h : Shaped s) : Shaped (nbrHook w s) :=
  .ite (.ite h.srstPage h) (.ite (.ite (h.fset.when fun h => h.nbrInit).tableChanged h.fset) h)
theorem Shaped.execCadTblchg {a : Acc} {v : Word} (h : Shaped s) : OutShaped (execCadTblchg a v s) :=
  .next (h.writeReg (fun h => h.cadHook))
theorem Shaped.execNbrChg {a : Acc} {v : Word} (h : Shaped s) : OutShaped (execNbrChg a v s) := .next (h.writeReg (fun h => h.nbrHook))
theorem Shaped.execCadApphb {a : Acc} {v : Word} (h : Shaped s) : OutShaped (execCadApphb a v s) :=
  .next (h.writeReg (fun h => h.cadHook))
theorem Shaped.execCadLsInj {a : Acc} {v : Word} (h : Shaped s) : OutShaped (execCadLsInj a v s) :=
  .next (h.writeReg (fun h => h.cadHook))
theorem Shaped.execCadEnable {a : Acc} {v : Word} (h : Shaped s) : OutShaped (execCadEnable a v s) :=
  .next (h.writeReg (fun h => h.cadHook))
theorem Shaped.execCadHopDataAccess {a : Acc} {w : Option Word} (h : Shaped s) : OutShaped (execCadHopDataAccess a w s) := by
  unfold Machine.execCadHopDataAccess
  split
  · exact .next (h.readAs (fun h => h.hopNext))
  · exact .next (h.portWrite (fun h => h.cadHook))
theorem Shaped.setAck {a : Option AckWait} (h : Shaped s) : Shaped (s.setAck a) := h.setCad
theorem Shaped.ackWindowShut (h : Shaped s) : Shaped s.ackWindowShut := h.laneDrop.laneTo.setLane.withRfe
theorem Shaped.execAckWindowOpen {t : Frc} (h : Shaped s) : OutShaped (execAckWindowOpen t s) := by
  unfold Machine.execAckWindowOpen
  dsimp only
  split
  · exact .ite (.next h.advance) (.next (h.advance.setAck.when fun h => h.setLane.laneTo.narrowGainOpen))
  · exact .next h.advance
theorem Shaped.execAckWindowClose {t : Frc} (h : Shaped s) : OutShaped (execAckWindowClose t s) := by
  unfold Machine.execAckWindowClose
  dsimp only
  split
  · exact .ite (.next h.advance) (.next h.advance.setAck.ackWindowShut)
  · exact .next h.advance
theorem Shaped.ackTake {asn e : Nat} {k : Ticket} {i : MacInfo} {f : RxFrame} (h : Shaped s) : Shaped (s.ackTake asn e k i f) := by
  unfold State.ackTake
  extract_lets nack a b sec
  have hb : Shaped b := h.setTicket.when fun h => h.finc
  split
  · exact hb
  · extract_lets c
    have hc : Shaped c := hb.when fun h => h.replayAdvance
    split
    · exact hc
    · exact hc.contact.when fun h => h.rsetN.ntuSample
theorem Shaped.execAckReceived {t : Frc} {lane : Fin 16} (h : Shaped s) : OutShaped (execAckReceived t lane s) := by
  unfold Machine.execAckReceived
  dsimp only
  split
  · split
    · exact .next h.advance
    · split
      · exact .ite (.next h.advance.setAck.ackWindowShut.ackTake) (.next (.ite h.advance.setAck.ackWindowShut h.advance.laneDrop.laneTo))
      · exact .next (.ite h.advance.setAck.ackWindowShut h.advance.laneDrop.laneTo)
  · exact .next h.advance

/-! ## The operations of Machine/Culvert.lean -/

theorem Shaped.routeOn {cs : List Nat} (h : Shaped s) : Shaped (s.routeOn cs) := h.route.raiseAll
theorem Shaped.sysFault {code : Nat} (h : Shaped s) : Shaped (s.sysFault code) := .ite h.fset.fset h
theorem Shaped.ownIgnore {any : Bool} (h : Shaped s) : Shaped (s.ownIgnore any) := .ite h.fset h
theorem Shaped.swTrig {src : Source} {v : Nat} (h : Shaped s) : Shaped (s.swTrig src v) := h.ownIgnore.when fun h => h.routeOn
theorem Shaped.chenWrite {src : Source} {old new : Nat} (h : Shaped s) : Shaped (s.chenWrite src old new) := h.ownIgnore.rsetN.withCul
theorem Shaped.culLeave (h : Shaped s) : Shaped s.culLeave := .ite h.fset h.fset
theorem Shaped.culHook {w : WCtx} (h : Shaped s) : Shaped (culHook w s) :=
  .ite (.ite h.withCul.srstPage h) (.ite (h.fset.when fun h => h.culLeave) (.ite h.swTrig (.ite h.chenWrite (.ite h.rsetN
    (.ite h.withCul h)))))
theorem Shaped.execCulSwtrig {a : Acc} {v : Word} (h : Shaped s) : OutShaped (execCulSwtrig a v s) :=
  .next (h.writeReg (fun h => h.culHook))
theorem Shaped.execCulChenWrite {a : Acc} {v : Word} (h : Shaped s) : OutShaped (execCulChenWrite a v s) :=
  .next (h.writeReg (fun h => h.culHook))
theorem Shaped.execCulExit {a : Acc} {v : Word} (h : Shaped s) : OutShaped (execCulExit a v s) := .next (h.writeReg (fun h => h.culHook))
theorem Shaped.execProducerEvent {p : Fin 96} (h : Shaped s) : OutShaped (execProducerEvent p s) :=
  .ite (.next h.withCul.publish) (.next (.ite h.publish h))
theorem Shaped.execRoutingFault {ch : Fin 32} {word : Fin 6} (h : Shaped s) : OutShaped (execRoutingFault ch word s) :=
  .next h.withCul.fset.fset.fset.rsetN.raise.sysFault

/-! ## The operations of Machine/Flash.lean -/

theorem Shaped.flcRefuse {cause : Nat} (h : Shaped s) : Shaped (s.flcRefuse cause) := h.fset.fset.setFlash
theorem Shaped.flcKey {v : Nat} (h : Shaped s) : Shaped (s.flcKey v) :=
  .ite h.flcRefuse (.ite h.setFlash (h.flcRefuse.setFlash.when fun h => h.fset))
theorem Shaped.cacheDrop {lo hi : Nat} (h : Shaped s) : Shaped (s.cacheDrop lo hi) := h.withCaches
theorem Shaped.flashStart {o : FlashOp} (h : Shaped s) : Shaped (s.flashStart o) :=
  .ite h.setFlash (h.setFlash.rsetN.unless fun h => h.cacheDrop)
theorem Shaped.flcTrigger {data : List Word} (h : Shaped s) : Shaped (s.flcTrigger data) :=
  .ite (Shaped.ite h.freeStep h).flcRefuse (Shaped.ite h.freeStep h).flashStart
theorem Shaped.flcRefuseNow {cause : Nat} (h : Shaped s) : Shaped (s.flcRefuseNow cause) := h.fset.fset
theorem Shaped.flcSuspend (h : Shaped s) : Shaped s.flcSuspend := by
  unfold State.flcSuspend
  split
  · exact .ite h.setFlash h.flcRefuseNow
  · exact h.flcRefuseNow
theorem Shaped.flcResume (h : Shaped s) : Shaped s.flcResume := by
  unfold State.flcResume
  split
  · exact h.flcRefuseNow
  · exact .ite h.flcRefuseNow h.setFlash
theorem Shaped.flcClear (h : Shaped s) : Shaped s.flcClear := h.rset
theorem Shaped.flcCmd {c : Nat} (h : Shaped s) : Shaped (s.flcCmd c) :=
  .ite (.ite h.flcRefuseNow (.ite h.flcSuspend (.ite h.flcResume h.flcClear))) (.ite h.setFlash h.flcRefuse)
theorem Shaped.flcAddr {a : Nat} (h : Shaped s) : Shaped (s.flcAddr a) := .ite h.flcRefuse (h.setFlash.when fun h => h.flcTrigger)
theorem Shaped.flcData {v : Word} (h : Shaped s) : Shaped (s.flcData v) :=
  .ite h.flcRefuse (.ite h.flcTrigger (.ite h.setFlash h.flcTrigger))
theorem Shaped.flashSpoil {pages : List Nat} (h : Shaped s) : Shaped (s.flashSpoil pages) := h.setFlash
theorem Shaped.spoilPage {a : Nat} (h : Shaped s) : Shaped (s.spoilPage a) := h.flashSpoil
theorem Shaped.flashFresh {lo hi : Nat} (h : Shaped s) : Shaped (s.flashFresh lo hi) := h.setFlash
theorem Shaped.eraseBlock {b : Nat} (h : Shaped s) : Shaped (s.eraseBlock b) := h.clearRange.flashFresh
theorem Shaped.flashWords {a : Nat} {l : List Word} (h : Shaped s) : Shaped (s.flashWords a l) := by
  induction l generalizing s a with
  | nil => exact h
  | cons w l ih =>
    unfold State.flashWords
    exact ih h.setWord
theorem Shaped.setMode {b : Nat} {slc : Bool} (h : Shaped s) : Shaped (s.setMode b slc) := h.fset
theorem Shaped.flashFail {kind a : Nat} (h : Shaped s) : Shaped (s.flashFail kind a) :=
  (h.fset.fset.either (fun h => h.fset.spoilPage) fun h => h.fset.flashSpoil).raise
theorem Shaped.flashEffect {o : FlashOp} {ok : Bool} {pulses corr : Nat} {unc : Bool} (h : Shaped s) :
    Shaped (s.flashEffect o ok pulses corr unc) := by
  unfold State.flashEffect
  dsimp only
  split
  · exact (Shaped.ite (h.fset.when fun h => h.fset.raise).flashFresh.flashWords (h.fset.when fun h => h.fset.raise).flashFail).cacheDrop
  · exact (Shaped.ite h.eraseBlock h.flashFail).cacheDrop
  · exact (Shaped.ite h.eraseBlock.setMode h.flashFail).cacheDrop
  · exact h.rsetN
theorem Shaped.flashEnds {ok : Bool} {pulses : BitVec 5} {corr : BitVec 9} {unc : Bool} (h : Shaped s) :
    Shaped (s.flashEnds ok pulses corr unc) := by
  unfold State.flashEnds
  split
  · exact h
  · exact (h.setFlash.flashEffect.unless fun h => h.fset).when fun h => h.raise.event
theorem Shaped.flashCut (h : Shaped s) : Shaped s.flashCut :=
  ((h.foldl fun h => .ite h.spoilPage (.ite h h.flashSpoil)).foldl fun h => .ite h.spoilPage (.ite h h.flashSpoil)).setFlash
theorem Shaped.flcHook {w : WCtx} (h : Shaped s) : Shaped (flcHook w s) :=
  .ite (.ite (.ite h.rsetN.fset h) (.ite h.resetRegs.dropHeld.dirty.fset.setFlash h)) (.ite (.ite h.flcKey h) (.ite (.ite h.flcCmd h)
    (.ite (.ite h.flcAddr h) (.ite (.ite h.flcData h) h))))
theorem Shaped.flcCount (h : Shaped s) : Shaped s.flcCount.1 := h.setFlash
theorem Shaped.flcWrite {m : Master} {a : Nat} {v : Word} (h : Shaped s) : OutShaped (s.flcWrite m a v) :=
  .next (h.writeReg (fun h => h.flcHook))
theorem Shaped.execFlcKeyWrite {m : Master} {v : Word} (h : Shaped s) : OutShaped (execFlcKeyWrite m v s) := h.flcWrite
theorem Shaped.execProg {m : Master} {v : Word} (h : Shaped s) : OutShaped (execProg m v s) := h.flcWrite
theorem Shaped.execEraseBlk {m : Master} {v : Word} (h : Shaped s) : OutShaped (execEraseBlk m v s) := h.flcWrite
theorem Shaped.execSetSlc {m : Master} {v : Word} (h : Shaped s) : OutShaped (execSetSlc m v s) := h.flcWrite
theorem Shaped.execMarginRd {m : Master} {v : Word} (h : Shaped s) : OutShaped (execMarginRd m v s) := h.flcWrite
theorem Shaped.execSuspend {m : Master} (h : Shaped s) : OutShaped (execSuspend m s) := h.flcWrite
theorem Shaped.execFlcResume {m : Master} (h : Shaped s) : OutShaped (execFlcResume m s) := h.flcWrite
theorem Shaped.execClrStat {m : Master} (h : Shaped s) : OutShaped (execClrStat m s) := h.flcWrite
theorem Shaped.execFlcWpWrite {a : Acc} {hi : Bool} {v : Word} (h : Shaped s) : OutShaped (execFlcWpWrite a hi v s) :=
  .next (h.writeReg (fun h => h.flcHook))
theorem Shaped.execFlcDisable {a : Acc} {v : Word} (h : Shaped s) : OutShaped (execFlcDisable a v s) :=
  .next (h.writeReg (fun h => h.flcHook))

/-! ## The operations of Machine/Cipher.lean -/

theorem Shaped.keyChange {n : Nat} (h : Shaped s) : Shaped (s.keyChange n) := h.setKey.squashWhere
theorem Shaped.keyLimit {n : Nat} (h : Shaped s) : Shaped (s.keyLimit n) := .ite h.keyExhaust h
theorem Shaped.keySelect (h : Shaped s) : Shaped s.keySelect := h.rsetN.rsetN.rsetN.withStaged
theorem Shaped.keyRefuse {cause : Nat} (h : Shaped s) : Shaped (s.keyRefuse cause) := h.fset.fset.fset.raise
theorem Shaped.keyCommit (h : Shaped s) : Shaped s.keyCommit := .ite h.keyRefuse h.setKey.withStaged.keyChange.keyLimit
theorem Shaped.keyAttr (h : Shaped s) : Shaped s.keyAttr := .ite h.keyRefuse h.setKey.keyChange.keyLimit
theorem Shaped.keyFc (h : Shaped s) : Shaped s.keyFc := .ite h.fset.keyRefuse h.setKey
theorem Shaped.keyClear {n : Nat} (h : Shaped s) : Shaped (s.keyClear n) := h.setKey.keyChange
theorem Shaped.cipuSet {n : Nat} {f : Cipu → Cipu} (h : Shaped s) : Shaped (s.cipuSet n f) := h.withCipu (length_setAt _ _ _)
theorem Shaped.cipuError {n cause : Nat} (h : Shaped s) : Shaped (s.cipuError n cause) := h.fset.fset.raise
theorem Shaped.cipuDrain {n : Nat} (h : Shaped s) : Shaped (s.cipuDrain n) := h.cipuSet.foldl fun h => h.rsetN
theorem Shaped.cipuEnd {n cause : Nat} (h : Shaped s) : Shaped (s.cipuEnd n cause) := h.cipuDrain.fset.when fun h => h.cipuError
theorem Shaped.zeroise (h : Shaped s) : Shaped s.zeroise := (h.foldl fun h => h.keyClear).foldl fun h => h.cipuEnd
theorem Shaped.cipuPump {n : Nat} (h : Shaped s) : Shaped (s.cipuPump n) := by
  unfold State.cipuPump
  dsimp only
  split
  · exact h.cipuSet
  · exact (h.cipuSet.fset.cipuSet.when fun h => h.event).when fun h => h.event
theorem Shaped.cipuStart {n : Nat} {sec : Bool} (h : Shaped s) : Shaped (s.cipuStart n sec) :=
  .ite h.cipuError.finc (Shaped.ite h.keyUse h).fset.cipuSet.cipuPump
theorem Shaped.cipuTake {n : Nat} {sec : Bool} (h : Shaped s) : Shaped (s.cipuTake n sec) :=
  .ite h.cipuError (.ite h.cipuError h.takeCounter.rsetN.cipuSet)
theorem Shaped.cipuFeed {n : Nat} {v : Word} (h : Shaped s) : Shaped (s.cipuFeed n v) := by
  unfold State.cipuFeed
  dsimp only
  split
  · exact h.fset
  · exact .ite h.fset (.ite h.cipuEnd h.cipuSet.cipuPump)
theorem Shaped.cipuPop {n : Nat} (h : Shaped s) : Shaped (s.cipuPop n).1 := by
  unfold State.cipuPop
  split
  · exact h.fset
  · exact h.cipuSet.cipuPump
theorem Shaped.keyDerive {d : Nat} {key : List Byte} (h : Shaped s) : Shaped (s.keyDerive d key) := h.setKey.keyChange.keyLimit.finc
theorem Shaped.cipuDone {n : Nat} {j : CipJob} (h : Shaped s) : Shaped (s.cipuDone n j) :=
  (Shaped.ite (Shaped.ite h.cipuSet.keyDerive (h.cipuSet.unless fun h => h.foldl fun h => h.rset)).fset (.ite h.cipuSet.keyDerive
    (h.cipuSet.unless fun h => h.foldl fun h => h.rset))).fset.finc.raise.event
theorem Shaped.ciphHook {w : WCtx} (h : Shaped s) : Shaped (ciphHook w s) := by
  unfold Machine.ciphHook
  split
  · exact h.keySelect
  · split
    · exact .ite h.rsetN.withStaged h
    · split
      · split
        · exact h.keyCommit
        · exact h.keyAttr
        · exact h.keyFc
        · exact h.keyClear
        · exact h.zeroise.audit
        · exact h
      · exact h
theorem Shaped.cipuHook {n : Nat} {w : WCtx} (h : Shaped s) : Shaped (cipuHook n w s) := by
  unfold Machine.cipuHook
  split
  · exact (h.cipuEnd.rset.foldl fun h => h.rsetN).cipuSet
  · split
    · exact .ite (h.cipuDrain.cipuSet.srstPage.when fun h => h.fset) h
    · split
      · exact h.cipuSet
      · split
        · split
          · exact h.cipuStart
          · exact h.cipuEnd
          · exact h.cipuTake
          · exact h
        · exact .ite (.ite h.cipuFeed h) (.ite (.ite h.rsetN h) h)
theorem Shaped.execCiphKeyIdxWrite {a : Acc} {v : Word} (h : Shaped s) : OutShaped (execCiphKeyIdxWrite a v s) :=
  .next (h.writeReg (fun h => h.ciphHook))
theorem Shaped.keyCmd {m : Master} {c : Word} (h : Shaped s) : OutShaped (s.keyCmd m c) := .next (h.writeReg (fun h => h.ciphHook))
theorem Shaped.execKeyCommit {m : Master} (h : Shaped s) : OutShaped (execKeyCommit m s) := h.keyCmd
theorem Shaped.execKeyAttr {m : Master} (h : Shaped s) : OutShaped (execKeyAttr m s) := h.keyCmd
theorem Shaped.execKeyFc {m : Master} (h : Shaped s) : OutShaped (execKeyFc m s) := h.keyCmd
theorem Shaped.execKeyErase {m : Master} (h : Shaped s) : OutShaped (execKeyErase m s) := h.keyCmd
theorem Shaped.execZeroise {m : Master} (h : Shaped s) : OutShaped (execZeroise m s) := h.keyCmd
theorem Shaped.cipuCmd {m : Master} {n : Nat} {c : Word} (h : Shaped s) : OutShaped (s.cipuCmd m n c) :=
  .next (h.writeReg (fun h => h.cipuHook))
theorem Shaped.execCipuStart {m : Master} {n : Fin 8} (h : Shaped s) : OutShaped (execCipuStart m n s) := h.cipuCmd
theorem Shaped.execCipuAbort {m : Master} {n : Fin 8} (h : Shaped s) : OutShaped (execCipuAbort m n s) := h.cipuCmd
theorem Shaped.execTakeFc {m : Master} {n : Fin 8} (h : Shaped s) : OutShaped (execTakeFc m n s) := h.cipuCmd
theorem Shaped.execCipuDinWrite {a : Acc} {n : Fin 8} {v : Word} (h : Shaped s) : OutShaped (execCipuDinWrite a n v s) :=
  .next (h.writeReg (fun h => h.cipuHook))
theorem Shaped.execCipuDoutRead {m : Master} {n : Fin 8} (h : Shaped s) : OutShaped (execCipuDoutRead m n s) :=
  .next (h.readAs (fun h => h.cipuPop))
theorem Shaped.execCipuJobDone {n : Fin 8} (h : Shaped s) : OutShaped (execCipuJobDone n s) := by
  unfold Machine.execCipuJobDone
  split
  · exact .next (.ite h.cipuDone h)
  · exact .next h

/-! ## The operations of Machine/Icu.lean -/

theorem Shaped.irqClear {n : Nat} (h : Shaped s) : Shaped (s.irqClear n) := h.fset.when fun h => h.withCoreA

/-! ## The operations of Machine/Rtc.lean -/

theorem Shaped.setRtc {f : RtcState → RtcState} (h : Shaped s) : Shaped (s.setRtc f) := h.withRtc
theorem Shaped.almFire {n : Nat} {late : Bool} (h : Shaped s) : Shaped (s.almFire n late) :=
  (h.fset.fset.raise.when fun h => h.fset).setRtc.wakeEvent
theorem Shaped.almCompare {n : Nat} (h : Shaped s) : Shaped (s.almCompare n).1 := .iteFst h.fset (.iteFst h.almFire h)
theorem Shaped.almBoth (h : Shaped s) : Shaped s.almBoth.1 := h.almCompare.almCompare
theorem Shaped.almLoad {n old : Nat} (h : Shaped s) : Shaped (s.almLoad n old).1 :=
  .iteFst (h.almFire.unless fun h => h.fset) h.almCompare
theorem Shaped.execRtcSecond (h : Shaped s) : OutShaped (execRtcSecond s) :=
  .ite (.next h) (.next (h.setRtc.when fun h => h.fset).raise.almBoth.publishAll)
theorem Shaped.rtcSetReq (h : Shaped s) : Shaped s.rtcSetReq := by
  unfold State.rtcSetReq
  split
  · exact .ite h.fset h.fset.setRtc
  · exact h.fset
theorem Shaped.rtcHook {w : WCtx} (h : Shaped s) : Shaped (rtcHook w s) :=
  .ite (.ite h.fset h) (.ite (h.fset.when fun h => h.rtcSetReq) (.ite h.fset.setRtc h))
theorem Shaped.execRtcSet {a : Acc} {v : Word} (h : Shaped s) : OutShaped (execRtcSet a v s) := .next (h.writeReg (fun h => h.rtcHook))
theorem Shaped.execRtcUnlock {a : Acc} {v : Word} (h : Shaped s) : OutShaped (execRtcUnlock a v s) :=
  .next (h.writeReg (fun h => h.rtcHook))
theorem Shaped.execRtcAlarmWrite {a : Acc} {n : Fin 2} {reg : Fin 3} {v : Word} (h : Shaped s) :
    OutShaped (execRtcAlarmWrite a n reg v s) :=
  .next (h.writeReg (fun h => h.rtcHook))
theorem Shaped.execRtcSetLoad (h : Shaped s) : OutShaped (execRtcSetLoad s) := by
  unfold Machine.execRtcSetLoad
  split
  · exact .next h
  · exact .next h.setRtc.fset.fset.almLoad.almLoad.publishAll
theorem Shaped.execRtcCalCorrection (h : Shaped s) : OutShaped (execRtcCalCorrection s) := .next (.ite h.setRtc h)
theorem Shaped.subNow (h : Shaped s) : Shaped s.subNow.1 := .iteFst h h.freeStep
theorem Shaped.shadowOf {m : Nat} (h : Shaped s) : Shaped (s.shadowOf m).1 := by
  unfold State.shadowOf
  split
  · exact h
  · exact h.subNow
theorem Shaped.shadowRead {m reg : Nat} (h : Shaped s) : Shaped (s.shadowRead m reg).1 := h.shadowOf.setRtc
theorem Shaped.execRtcShadowRead {m : Master} {reg : Fin 3} (h : Shaped s) : OutShaped (execRtcShadowRead m reg s) :=
  .next (h.readAs (fun h => h.shadowRead))
theorem Shaped.execShadowTimeout {m : Master} (h : Shaped s) : OutShaped (execShadowTimeout m s) := .next (.ite h.setRtc.fset h)
theorem Shaped.execVddStable (h : Shaped s) : OutShaped (execVddStable s) := .next (.ite h h.fset)
theorem Shaped.rtcLock (h : Shaped s) : Shaped s.rtcLock := h.fset.fset
theorem Shaped.execRtcLockout (h : Shaped s) : OutShaped (execRtcLockout s) := .next h.rtcLock
theorem Shaped.execBackupSwitch {vdd vbkup : Nat} (h : Shaped s) : OutShaped (execBackupSwitch vdd vbkup s) :=
  .next (Shaped.ite h.rtcLock h).setRtc
theorem Shaped.execBackupRetentionLoss (h : Shaped s) : OutShaped (execBackupRetentionLoss s) := .next h.resetRegs.setRtc.raise

/-! ## The operations of Machine/SelfTest.lean -/

theorem Shaped.setTst {f : TstState → TstState} (h : Shaped s) : Shaped (s.setTst f) := h.withTst
theorem Shaped.tstRefuse {cause : Nat} (h : Shaped s) : Shaped (s.tstRefuse cause) := h.fset.fset
theorem Shaped.bankZero {n : Nat} (h : Shaped s) : Shaped (s.bankZero n) := h.clearRange.setMemst
theorem Shaped.bistRequest {bits : Nat} (h : Shaped s) : Shaped (s.bistRequest bits) :=
  .ite h.fset.tstRefuse (h.foldl fun h => h.fset.fset).setTst.fset
theorem Shaped.bistNext (h : Shaped s) : Shaped s.bistNext := (h.foldl fun h => h.fset.fset).setTst.fset
theorem Shaped.bistAbort (h : Shaped s) : Shaped s.bistAbort := by
  unfold State.bistAbort
  split
  · exact h
  · exact h.fset.bankZero.bistNext
theorem Shaped.bistStop (h : Shaped s) : Shaped s.bistStop := by
  unfold State.bistStop
  split
  · exact h
  · exact h.fset.bankZero.setTst.fset
theorem Shaped.execBistBankDone {pass : Bool} (h : Shaped s) : OutShaped (execBistBankDone pass s) := by
  unfold Machine.execBistBankDone
  split
  · exact .next h
  · exact .next ((h.fset.unless fun h => h.fset).bankZero.bistNext.when fun h => h.raise)
theorem Shaped.selfRequest {lbist rram : Bool} (h : Shaped s) : Shaped (s.selfRequest lbist rram) :=
  .ite h (.ite h.tstRefuse (.ite h.tstRefuse (.ite h.tstRefuse ((h.setTst.when fun h => h.fset.fset).when fun h => h.fset.fset))))
theorem Shaped.lockstepReset (h : Shaped s) : Shaped s.lockstepReset := by
  unfold State.lockstepReset
  extract_lets p
  have ht : Shaped (s.resetRegs p) := h.resetRegs
  exact ht.ofLengths (hqueues := ht.shape.queues.symm) (hsubs := ht.shape.subs.symm) (htickets := ht.shape.tickets.symm)
theorem Shaped.rramZero (h : Shaped s) : Shaped s.rramZero := h.clearRange.setMemst
theorem Shaped.execSelfTestDone {pass : Bool} (h : Shaped s) : OutShaped (execSelfTestDone pass s) :=
  .ite (.next h.setTst.lockstepReset.fset.fsetB.raise) (.ite (.next h.setTst.rramZero.fset.fsetB.raise) (.next h))
theorem Shaped.capRequest (h : Shaped s) : Shaped s.capRequest := .ite h.tstRefuse (.ite h.fset.fset (.ite h h.fset.workAge.workNext))
theorem Shaped.capStore {a : Nat} {l : List Word} (h : Shaped s) : Shaped (s.capStore a l) := by
  induction l generalizing s a with
  | nil => exact h
  | cons w l ih =>
    unfold State.capStore
    exact ih h.setWord
theorem Shaped.execCaptureDone {samples : List Word} (h : Shaped s) : OutShaped (execCaptureDone samples s) :=
  .ite (.next h) (.next h.workGone.setRfe.setMemst.capStore.fset.fset.raise.workNext)
theorem Shaped.tstReset (h : Shaped s) : Shaped s.tstReset :=
  ((h.srstPage.fset.bistStop.when fun h => h.lockstepReset).when fun h => h.rramZero).setTst.when fun h => h.setRfe
theorem Shaped.tstHook {w : WCtx} (h : Shaped s) : Shaped (tstHook w s) :=
  .ite (.ite h.tstReset h) (.ite h.bistRequest (.ite h.fset.fset.selfRequest (.ite (h.fset.when fun h => h.capRequest) h)))
theorem Shaped.execTstBistReq {a : Acc} {v : Word} (h : Shaped s) : OutShaped (execTstBistReq a v s) :=
  .next (h.writeReg (fun h => h.tstHook))
theorem Shaped.execLbist {a : Acc} {v : Word} (h : Shaped s) : OutShaped (execLbist a v s) := .next (h.writeReg (fun h => h.tstHook))
theorem Shaped.execRramBist {a : Acc} {v : Word} (h : Shaped s) : OutShaped (execRramBist a v s) :=
  .next (h.writeReg (fun h => h.tstHook))
theorem Shaped.execTstCapReq {a : Acc} {v : Word} (h : Shaped s) : OutShaped (execTstCapReq a v s) :=
  .next (h.writeReg (fun h => h.tstHook))

/-! ## The operations of Machine/Update.lean -/

theorem Shaped.setUpd {f : UpdState → UpdState} (h : Shaped s) : Shaped (s.setUpd f) := h.withUpd
theorem Shaped.opMark {cmd a : Nat} (h : Shaped s) : Shaped (s.opMark cmd a) := h.rsetN
theorem Shaped.progList {a : Nat} {l : List Byte} (h : Shaped s) : Shaped (s.progList a l) := h.flashFresh.setList.cacheDrop.opMark
theorem Shaped.writeRecord {w2 : Nat} {hash : List Byte} (h : Shaped s) : Shaped (s.writeRecord w2 hash) := by
  unfold State.writeRecord
  dsimp only
  split
  · exact h
  · refine .rsetN ?_
    split
    · exact h.progList
    · exact h.eraseBlock.cacheDrop.progList
theorem Shaped.segRead {p : Pkg} {k : Nat} (h : Shaped s) : Shaped (s.segRead p k).1 :=
  .iteFst h.rangeRead (h.rangeRead.foldlFst fun h => .iteFst h.rangeRead h)
theorem Shaped.updRefuse {cause : Nat} (h : Shaped s) : Shaped (s.updRefuse cause) := h.fset.rsetN.raise
theorem Shaped.updBegin {cmd : Nat} (h : Shaped s) : Shaped (s.updBegin cmd) := .ite h.updRefuse h.setUpd
theorem Shaped.updState {st : Nat} (h : Shaped s) : Shaped (s.updState st) := h.fset
theorem Shaped.updRelease (h : Shaped s) : Shaped s.updRelease := h.setFlash
theorem Shaped.updReset (h : Shaped s) : Shaped s.updReset := h.setUpd.srstPage.rsetN
theorem Shaped.updFail {cause : Nat} (h : Shaped s) : Shaped (s.updFail cause) :=
  (h.updRelease.writeRecord.when fun h => h.updReset).rsetN.updState.setUpd.raise
theorem Shaped.updPaused {cause : Nat} (h : Shaped s) : Shaped (s.updPaused cause) := h.rsetN.updState.setUpd.raise
theorem Shaped.segStart {k : Nat} (h : Shaped s) : Shaped (s.segStart k) := by
  unfold State.segStart
  exact h.fset.flashStart
theorem Shaped.updBoundary {k nseg : Nat} (h : Shaped s) : Shaped (s.updBoundary k nseg) := by
  unfold State.updBoundary
  split
  · exact h.updFail
  · split
    · exact h.updPaused
    · exact .ite h.updState.segStart h.updState
theorem Shaped.updStop (h : Shaped s) : Shaped s.updStop :=
  .ite h.setUpd.setUpd (.ite h.setUpd.updFail (h.setUpd.when fun h => h.updReset))
theorem Shaped.execLoadTestDone {mv : BitVec 12} (h : Shaped s) : OutShaped (execLoadTestDone mv s) := by
  unfold Machine.execLoadTestDone
  split
  · exact .next h
  · exact .ite (.next h.setUpd.fset.updRefuse) (.ite (.next h.setUpd.fset.updRefuse) (.ite (.next h.setUpd.fset.updRefuse) (.ite
      (.next h.setUpd.fset.updState) (.next h.setUpd.fset.updState.rsetN.fset.setUpd))))
theorem Shaped.updSecond {r : UpdRun} {p : Pkg} (h : Shaped s) : Shaped (s.updSecond r p) :=
  .ite h.updFail (.ite h.updFail (.ite h.rangeRead.updFail (.ite h.rangeRead.updFail (.ite h.rangeRead.setUpd.updState.updRefuse
    (.ite h.rangeRead.updFail h.rangeRead.setUpd.writeRecord.updBoundary)))))
theorem Shaped.updFirst {r : UpdRun} (h : Shaped s) : Shaped (s.updFirst r) :=
  .ite h.updFail (.ite h.rangeRead.updSecond h.rangeRead.updFail)
theorem Shaped.execFirstPassDone (h : Shaped s) : OutShaped (execFirstPassDone s) := by
  unfold Machine.execFirstPassDone
  split
  · exact .next (.ite h.updFirst h)
  · exact .next h
theorem Shaped.updSegment {r : UpdRun} {flashOk : Bool} (h : Shaped s) : Shaped (s.updSegment r flashOk) := by
  have hq := h.updRelease.segRead (p := s.updPkg) (k := s.fget UPD_STAT.SEG)
  unfold State.updSegment
  dsimp only
  refine .ite hq.updFail (.ite hq.updFail ?_)
  split
  · exact hq.updFail
  · refine .ite hq.eraseBlock.cacheDrop.flashSpoil.updFail (.ite hq.eraseBlock.cacheDrop.progList.updFail ?_)
    exact .ite hq.eraseBlock.cacheDrop.progList.fadd.updFail hq.eraseBlock.cacheDrop.progList.fadd.writeRecord.updBoundary
theorem Shaped.execSegmentDone {flashOk : Bool} (h : Shaped s) : OutShaped (execSegmentDone flashOk s) := by
  unfold Machine.execSegmentDone
  split
  · exact .next (.ite h.updSegment h)
  · exact .next h
theorem Shaped.updImage {r : UpdRun} {flashOk : Bool} (h : Shaped s) : Shaped (s.updImage r flashOk) :=
  .ite h.rangeRead.updFail (.ite h.rangeRead.updFail h.rangeRead.writeRecord.updState.setUpd.raise.event)
theorem Shaped.execImageHashDone {flashOk : Bool} (h : Shaped s) : OutShaped (execImageHashDone flashOk s) := by
  unfold Machine.execImageHashDone
  split
  · exact .next (.ite h.updImage h)
  · exact .next h
theorem Shaped.execUpdPause {cause : Fin 4} (h : Shaped s) : OutShaped (execUpdPause cause s) :=
  .ite (.next h) (.ite (.next h.updPaused) (.ite (.next h.setUpd) (.next h)))
theorem Shaped.updJournal (h : Shaped s) : Shaped s.updJournal := (h.eraseBlock.cacheDrop.foldl fun h => h.setByte).writeRecord
theorem Shaped.updMerge (h : Shaped s) : Shaped s.updMerge := h.eraseBlock.cacheDrop.progList.writeRecord
theorem Shaped.updTrial (h : Shaped s) : Shaped s.updTrial := h.writeRecord
theorem Shaped.updSettings {merge : Bool} (h : Shaped s) : Shaped (s.updSettings merge) :=
  .ite (Shaped.ite h h.updJournal).updMerge (.ite h h.updJournal)
theorem Shaped.updActReady (h : Shaped s) : Shaped s.updActReady.1 := .iteFst h (.iteFst h.rangeRead.rangeRead h.rangeRead)
theorem Shaped.execActivateDone {flashOk : Bool} (h : Shaped s) : OutShaped (execActivateDone flashOk s) :=
  .ite (.next h) (.ite (.next h.updActReady.updFail) (.ite (.next (h.updActReady.freeStep.when fun h => h.updSettings).updFail) (.next
    (h.updActReady.when fun h => h.updSettings).updTrial.updState.raise.event)))
theorem Shaped.updAccept (h : Shaped s) : Shaped s.updAccept :=
  .ite h.updRefuse (.ite h.updRefuse (.ite h.updRefuse (.ite h.updRefuse (.ite h.setUpd h.writeRecord))))
theorem Shaped.updSettle (h : Shaped s) : Shaped s.updSettle := .ite h (.ite h.updFail (.ite h.setUpd.updAccept h))
theorem Shaped.updCut (h : Shaped s) : Shaped s.updCut := by
  unfold State.updCut
  split
  · exact h.flashSpoil
  · exact .ite h (.ite h.freeStep.flashSpoil (.ite h.freeStep.updSettings.flashSpoil h.freeStep.updSettings))
  · exact h
theorem Shaped.updHook {w : WCtx} (h : Shaped s) : Shaped (updHook w s) := by
  unfold Machine.updHook
  split
  · exact .ite h.fset.setUpd.updStop (.ite h.updStop h)
  · split
    · split
      · exact h.updBegin
      · exact h.updBegin
      · exact h.updBegin
      · exact h.updAccept
      · exact h.updStop
      · exact h
    · exact h
theorem Shaped.updCmd {m : Master} {c : Word} (h : Shaped s) : OutShaped (s.updCmd m c) := .next (h.writeReg (fun h => h.updHook))
theorem Shaped.execUpdStart {m : Master} (h : Shaped s) : OutShaped (execUpdStart m s) := h.updCmd
theorem Shaped.execUpdResume {m : Master} (h : Shaped s) : OutShaped (execUpdResume m s) := h.updCmd
theorem Shaped.execActivate {m : Master} (h : Shaped s) : OutShaped (execActivate m s) := h.updCmd
theorem Shaped.execAccept {m : Master} (h : Shaped s) : OutShaped (execAccept m s) := h.updCmd
theorem Shaped.execUpdAbort {m : Master} (h : Shaped s) : OutShaped (execUpdAbort m s) := h.updCmd
theorem Shaped.execUpdDisable {a : Acc} {v : Word} (h : Shaped s) : OutShaped (execUpdDisable a v s) :=
  .next (h.writeReg (fun h => h.updHook))

/-! ## The operations of Machine/Power.lean -/

theorem Shaped.setPwr {f : PwrS → PwrS} (h : Shaped s) : Shaped (s.setPwr f) := h.withPwr
theorem Shaped.setSys {f : SysS → SysS} (h : Shaped s) : Shaped (s.setSys f) := h.withSys
theorem Shaped.entryRefuse {cause : Nat} (h : Shaped s) : Shaped (s.entryRefuse cause) := h.fset.fset.finc.raise
theorem Shaped.enterState {p : PwrState} (h : Shaped s) : Shaped (s.enterState p) := h.bistStop.withPins (fun h => h.setPwr)
theorem Shaped.waitRequest (h : Shaped s) : Shaped s.waitRequest.1 := by
  unfold State.waitRequest
  dsimp only
  split
  · exact h
  · split
    · exact h.setPwr
    · split
      · exact h.enterState
      · exact h.entryRefuse
theorem Shaped.appRegs (h : Shaped s) : Shaped s.appRegs := h.resetRegs.rsetN.fset.rsetN.fset.rsetN.fset.fset.fset.rsetN
theorem Shaped.appHidden (h : Shaped s) : Shaped s.appHidden := by
  unfold State.appHidden
  extract_lets t
  have ht : Shaped t := h.resetRegs
  exact ht.ofLengths (hwA := ht.shape.wA.symm) (hdma := ht.shape.dma.symm) (hcipu := ht.shape.cipu.symm)
theorem Shaped.loseSram {banks : List Nat} (h : Shaped s) : Shaped (s.loseSram banks) := h.foldl fun h => h.clearRange.fset.setMemst
theorem Shaped.loseRram (h : Shaped s) : Shaped s.loseRram := h.clearRange.setMemst
theorem Shaped.storeLost (h : Shaped s) : Shaped s.storeLost := by
  unfold State.storeLost
  extract_lets t u
  have hu : Shaped u := h.squashWhere.squashNow.fset.foldl fun h => h.when fun h => h.dutyCharge
  exact hu.ofLengths (htickets := hu.shape.tickets.symm)
theorem Shaped.loseContents (h : Shaped s) : Shaped s.loseContents :=
  .ite h (.ite h.setPwr (h.sleepHandoff.setPwr.storeLost.appRegs.appHidden.setSys.loseSram.when fun h =>
    h.resetRegs.ovlEmpty.withTmr h.shape.tmr.symm))
theorem Shaped.avsStep {k : Nat} (h : Shaped s) : Shaped (s.avsStep k) := h.fset.fset.raise
theorem Shaped.avsClamp (h : Shaped s) : Shaped s.avsClamp := h.setPwr.when fun h => h.fset.raise.event
theorem Shaped.avsClock (h : Shaped s) : Shaped s.avsClock := .ite h.avsStep (.ite h.avsStep h)
theorem Shaped.avsUpdate (h : Shaped s) : Shaped s.avsUpdate := h.fset.unless fun h => h.fset.avsClamp.avsClock
theorem Shaped.avsHook {w : WCtx} (h : Shaped s) : Shaped (avsHook w s) :=
  .ite (.ite h.srstPage.fset h) (.ite (.ite h.fset h) (.ite (h.avsClamp.when fun h => h.avsStep) h))
theorem Shaped.execAvsUpdate {need0 need1 need2 need3 : Nat} (h : Shaped s) : OutShaped (execAvsUpdate need0 need1 need2 need3 s) :=
  .next (h.setPwr.unless fun h => h.avsUpdate)
theorem Shaped.execAvsClkReq {a : Acc} {v : Word} (h : Shaped s) : OutShaped (execAvsClkReq a v s) :=
  .next (h.writeReg (fun h => h.avsHook))
theorem Shaped.clkHook {w : WCtx} (h : Shaped s) : Shaped (clkHook w s) := .ite h.rsetN.fset.raise h
theorem Shaped.execClkTrimWrite {a : Acc} {lfxo : Bool} {v : Word} (h : Shaped s) : OutShaped (execClkTrimWrite a lfxo v s) :=
  .next (h.writeReg (fun h => h.clkHook))
theorem Shaped.execHfxoStable (h : Shaped s) : OutShaped (execHfxoStable s) := .next (.ite h.setSys h)
theorem Shaped.execSyspllLock (h : Shaped s) : OutShaped (execSyspllLock s) := .ite (.next h.setSys) (.next h)
theorem Shaped.execBodWarn (h : Shaped s) : OutShaped (execBodWarn s) := .ite (.next h) (.next h.fset.raise.wakeEvent.event)
theorem Shaped.execBodWarnClear (h : Shaped s) : OutShaped (execBodWarnClear s) := .next (.ite h h.fset)

/-! ## The operations of Machine/Reset.lean -/

theorem Shaped.resetCause {bit : Nat} (h : Shaped s) : Shaped (s.resetCause bit) := h.fset
theorem Shaped.sysReset {k : ResetKind} (h : Shaped s) : Shaped (s.sysReset k) := by
  unfold State.sysReset
  extract_lets t u v por base pads glade x y
  have hu : Shaped u := h.loseContents.updCut.flashCut
  have hv : Shaped v := hu.when fun h => h.loseSram.loseRram
  have hx : Shaped x :=
    ⟨rfl, hv.shape.wG, rfl, rfl, rfl, rfl, rfl, rfl, rfl, rfl, hv.shape.gpc, hv.shape.cnt⟩
  exact hx.resetCause.when fun h => h.rtcLock
theorem Shaped.hspStraps {straps : Nat} (h : Shaped s) : Shaped (s.hspStraps straps) := h.fset.fset.fset.fset.rsetN.setSys
theorem Shaped.sampleStraps {straps : Nat} (h : Shaped s) : Shaped (s.sampleStraps straps) := .ite h.setSys h.setSys.hspStraps
theorem Shaped.release {straps : Nat} (h : Shaped s) : Shaped (s.release straps) := (Shaped.ite h.setMemst h).setSys.sampleStraps
theorem Shaped.coreReset {cause : Nat} (h : Shaped s) : Shaped (s.coreReset cause) := by
  unfold State.coreReset
  extract_lets halted t u
  have ht : Shaped t := h.resetRegs
  have hu : Shaped u := ht.ofLengths (hwA := ht.shape.wA.symm)
  exact (hu.when fun h => h.setPwr).setSys.resetCause

/-! ## The operations of Machine/Control.lean -/

theorem Shaped.stateRefuse (h : Shaped s) : Shaped s.stateRefuse := h.fset.raise
theorem Shaped.stateRequest {req : Nat} (h : Shaped s) : Shaped (s.stateRequest req) := by
  unfold State.stateRequest
  split
  · exact .ite h.setSys h.stateRefuse
  · exact .ite h.setSys h.stateRefuse
  · exact h
theorem Shaped.wdtLoad (h : Shaped s) : Shaped s.wdtLoad := .ite h.rsetN h
theorem Shaped.sysCmd {wo : Nat} (h : Shaped s) : Shaped (s.sysCmd wo) := by
  unfold State.sysCmd
  split
  · exact h
  · split
    · exact h.sysReset
    · exact h.coreReset.wdtLoad
    · exact h
theorem Shaped.sysHook {w : WCtx} (h : Shaped s) : Shaped (sysHook w s) :=
  .ite h.stateRequest (.ite h.sysCmd (.ite (.ite h.rsetN h.wdtLoad) (.ite (.ite h.wdtLoad h) h)))
theorem Shaped.pwrHook {w : WCtx} (h : Shaped s) : Shaped (pwrHook w s) := by
  unfold Machine.pwrHook
  split
  · split
    · exact .ite h.bistAbort h
    · exact h
  · exact h
theorem Shaped.protHook {w : WCtx} (h : Shaped s) : Shaped (protHook w s) := .ite (h.foldl fun h => h.rset) h
theorem Shaped.dmaPut {ch : Nat} {d : DmaCh} (h : Shaped s) : Shaped (s.dmaPut ch d) := h.withDma (length_setAt _ _ _)
theorem Shaped.dmaStop {ch : Nat} (h : Shaped s) : Shaped (s.dmaStop ch) := h.dmaPut.fset.fset
theorem Shaped.dmaDone {ch : Nat} (h : Shaped s) : Shaped (s.dmaDone ch) := h.dmaStop.fset.raise.event
theorem Shaped.dmaStart {ch : Nat} {src : Source} (h : Shaped s) : Shaped (s.dmaStart ch src) := h.dmaPut.fset.when fun h => h.dmaDone
theorem Shaped.dmaHook {w : WCtx} (h : Shaped s) : Shaped (dmaHook w s) := by
  have hd : Shaped (s.srstPage Pg.DMA) := h.srstPage
  exact .ite (.ite (hd.withDma hd.shape.dma.symm) h) (.ite h (.ite (.ite h.rsetN h) (.ite (.ite h.dmaStart (.ite h.dmaStop h)) h)))
theorem Shaped.setHsp {f : HspState → HspState} (h : Shaped s) : Shaped (s.setHsp f) := h.withHsp
theorem Shaped.hspHook {w : WCtx} (h : Shaped s) : Shaped (hspHook w s) := by
  have hs {c : Bool} {f : HspState → HspState} : Shaped (if c then (s.fset HSP_CTRL.SRST 0).setHsp f else s.fset HSP_CTRL.SRST 0) :=
    h.fset.when fun h => h.setHsp
  exact .ite (.ite hs.fset.setHsp (hs.when fun h => h.setHsp)) (.ite h.rsetN.setHsp h)

/-! ## The operations of Machine/TanumCore.lean -/

theorem Core.length_setReg (c : Core) (r : RegNo) (v : Word) : (c.setReg r v).w.length = c.w.length := by
  unfold Core.setReg
  split
  · split <;> rfl
  · exact length_setAt _ _ _
theorem Core.length_land1 (c : Core) (m : MulOp) : (c.land1 m).w.length = c.w.length := by
  cases m with
  | mac lo hi p sat =>
    unfold Core.land1
    dsimp only
    split <;> rfl
  | prod lo hi => rfl
  | clr => rfl
  | prl v => rfl
  | prh v => rfl
  | paccl v => rfl
  | pacch v => rfl
theorem Core.length_land (c : Core) : c.land.w.length = c.w.length := by
  unfold Core.land
  split
  · rfl
  · exact Core.length_land1 _ _
theorem Core.length_landAll (c : Core) : c.landAll.w.length = c.w.length :=
  List.foldlRecOn (motive := fun (x : Core) => x.w.length = c.w.length) c.mul Core.land1 rfl
    fun x hx m _ => (x.length_land1 m).trans hx
theorem Core.length_dbgSet (c : Core) (i : Nat) (v : Word) : (c.dbgSet i v).w.length = c.w.length := by
  unfold Core.dbgSet
  split
  · exact Core.length_setReg _ _ _
  · split <;> rfl
theorem Shaped.core_w (h : Shaped s) (c : CoreId) : (s.core c).w.length = 15 := by
  cases c with
  | a => exact h.shape.wA
  | g => exact h.shape.wG
theorem Shaped.setCore {c : CoreId} {x : Core} (h : Shaped s) (hx : x.w.length = 15) : Shaped (s.setCore c x) := by
  cases c with
  | a => exact h.withCoreA (hx.trans h.shape.wA.symm)
  | g => exact h.withCoreG (hx.trans h.shape.wG.symm)
theorem Shaped.dbgHalt (h : Shaped s) : Shaped s.dbgHalt := h.withCoreA (Core.length_landAll _)
theorem Shaped.dbgResume (h : Shaped s) : Shaped s.dbgResume := h.withCoreA
theorem Shaped.dbgStep (h : Shaped s) : Shaped s.dbgStep := .ite h.withCoreA h
theorem Shaped.dbgHook {w : WCtx} (h : Shaped s) : Shaped (dbgHook w s) :=
  .ite (((h.rsetN.when fun h => h.dbgHalt).when fun h => h.dbgResume).when fun h => h.dbgStep) (.ite
    (h.rsetN.when fun h => h.withCoreA (Core.length_dbgSet _ _ _)) h)

/-! ## The operations of Machine/Timers.lean -/

theorem Shaped.raised {r : State × List Nat} (h : Shaped r.1) : Shaped (raised r) := h.publishAll
theorem Shaped.tmrFire {n k : Nat} (h : Shaped s) : Shaped (s.tmrFire n k) :=
  (h.tmrDisarm.raise.withPins (fun h => h.tmrSet)).tmrChain.publishAll
theorem Shaped.tmrCountSet {n : Nat} (h : Shaped s) : Shaped (s.tmrCountSet n) := h.tmrSet.when fun h => h.tmrReset
theorem Shaped.tmrChCfg {n k : Nat} (h : Shaped s) : Shaped (s.tmrChCfg n k) := .ite h.tmrSet.tmrArm h.tmrSet.tmrDisarm
theorem Shaped.tmrWrite {w : WCtx} {n : Nat} (h : Shaped s) : Shaped (s.tmrWrite w n) :=
  .ite (.ite ((Shaped.ite h.tmrArmAll h).withPins (fun h => h.tmrSet.srstPage)) (.ite h.tmrArmAll h)) (.ite h.tmrCountSet (.ite h.tmrSet
    (.ite (.ite h.tmrChCfg.pinWrite (.ite h.tmrArm h)) h)))
theorem Shaped.tmrHook {w : WCtx} (h : Shaped s) : Shaped (tmrHook w s) := h.tmrWrite
theorem Shaped.execTmrTick {n : Fin 8} (h : Shaped s) : OutShaped (execTmrTick n s) := .next h.tmrTick.raised
theorem Shaped.execCompareFiring {n : Fin 8} {k : Fin 4} (h : Shaped s) : OutShaped (execCompareFiring n k s) := .next (.ite h.tmrFire h)
theorem Shaped.execTmrCountWrite {a : Acc} {n : Fin 8} {v : Word} (h : Shaped s) : OutShaped (execTmrCountWrite a n v s) :=
  .next (h.writeReg (fun h => h.tmrHook))
theorem Shaped.execTmrReloadWrite {a : Acc} {n : Fin 8} {v : Word} (h : Shaped s) : OutShaped (execTmrReloadWrite a n v s) :=
  .next (h.writeReg (fun h => h.tmrHook))
theorem Shaped.execTmrCmpWrite {a : Acc} {n : Fin 8} {k : Fin 4} {v : Word} (h : Shaped s) : OutShaped (execTmrCmpWrite a n k v s) :=
  .next (h.writeReg (fun h => h.tmrHook))
theorem Shaped.execTmrEnable {a : Acc} {n : Fin 8} {v : Word} (h : Shaped s) : OutShaped (execTmrEnable a n v s) :=
  .next (h.writeReg (fun h => h.tmrHook))
theorem Shaped.execTmrDisable {a : Acc} {n : Fin 8} {v : Word} (h : Shaped s) : OutShaped (execTmrDisable a n v s) :=
  .next (h.writeReg (fun h => h.tmrHook))
theorem Shaped.captureEdge {n k : Nat} {rising culvert : Bool} (h : Shaped s) : Shaped (s.captureEdge n k rising culvert) :=
  .ite h h.tmrEdge.raised
theorem Shaped.execTmrCapture {n : Fin 8} {k : Fin 4} {rising culvert : Bool} (h : Shaped s) :
    OutShaped (execTmrCapture n k rising culvert s) :=
  .next h.captureEdge
theorem Shaped.execTmrCapRead {m : Master} {n : Fin 8} {k : Fin 4} {sameCycleCapture : Bool} (h : Shaped s) :
    OutShaped (execTmrCapRead m n k sameCycleCapture s) :=
  .next ((h.readAs (fun h => h.fset)).when fun h => h.tmrLand.raised)
theorem Shaped.execTmrStartEvent {n : Fin 8} (h : Shaped s) : OutShaped (execTmrStartEvent n s) := .next h.deliver
theorem Shaped.execTmrResetEvent {n : Fin 8} (h : Shaped s) : OutShaped (execTmrResetEvent n s) := .next h.deliver

/-! ## The operations of Machine/Bus.lean -/

theorem Shaped.coreHook {w : WCtx} (h : Shaped s) : Shaped (coreHook w s) :=
  .ite h.sysHook (.ite h.pwrHook (.ite h.avsHook (.ite h.clkHook (.ite h.protHook (.ite h.rfeHook (.ite h.agcHook (.ite h.cnpHook
    (.ite h.laneHook (.ite h.fecHook (.ite h.txmHook (.ite h.cadHook (.ite h.nbrHook (.ite h.hdrHook (.ite h.trfHook (.ite h.weirHook
    (.ite h.sluHook (.ite h.ntuHook (.ite h.flcHook (.ite h.ciphHook (.ite h.cipuHook (.ite h.updHook (.ite h.tmrHook (.ite h.rtcHook
    (.ite h.culHook (.ite h.hspHook (.ite h.pspHook (.ite h.gpioHook (.ite h.adcHook (.ite h.tstHook (.ite h.dmaHook (.ite h.dcaHook
    (.ite h.dbgHook h))))))))))))))))))))))))))))))))
theorem Shaped.busWrite {hook : WCtx → State → State} {m : Master} {a : Nat} {v : Word} (hf : ∀ {x0 t}, Shaped t → Shaped (hook x0 t))
    (h : Shaped s) :
    Shaped (State.busWrite hook m a v s) :=
  .elim (h.write hf) (h.rsetN.write hf).rset
theorem Shaped.latchPut {m : Master} {a v : Nat} (h : Shaped s) : Shaped (s.latchPut m a v) := h.withBus
theorem Shaped.freeBelow {n : Nat} (h : Shaped s) : Shaped (s.freeBelow n).1 := h.freeStep
theorem Shaped.rcClear {a : Nat} (h : Shaped s) : Shaped (s.rcClear a) := .elim h (.ite h h.rcShown)
theorem Shaped.openRead {a : Nat} (h : Shaped s) : ReadShaped (s.openRead a) := by
  unfold State.openRead
  exact .ite (.some h.freeBelow) (.ite (.some (h.freeBelow (n := 2))) (.ite (.some (h.freeBelow (n := 2))) (.ite (.ite (.some h)
    (.some h.freeBelow)) .none)))
theorem Shaped.portRead {m : Master} {a : Nat} (h : Shaped s) : ReadShaped (s.portRead m a) := by
  unfold State.portRead
  extract_lets p n
  refine .ite (.some h.trfAllocPop) (.ite (.some h.popChain) (.ite (.some h.popChain) (.ite (.some h.pspPop)
    (.ite (.some h.cipuPop) (.ite (.some h.flcCount) (.ite (.some h.setMeter) (.ite (.some h.setMeter) (.ite (.some h.setMeter)
    (.ite (.some h.hopNext) (.ite (.some h.firNext) (.ite (.some h) (.ite (.some h.shadowRead) (.ite (.some h.shadowRead)
    (.ite (.some h.shadowRead) (.ite (.some h.mbRead0) (.ite (.some h) (.ite ?_ .none)))))))))))))))))
  split
  · exact .some h.fset
  · exact .none
theorem Shaped.readReg {m : Master} {a : Nat} (h : Shaped s) : Shaped (s.readReg m a).1 := by
  unfold State.readReg
  split
  · exact h.latchPut
  · split
    · exact h
    · split
      · next e => exact h.portRead.ofSome e
      · split
        · next e => exact h.openRead.ofSome e
        · exact h.rcClear
theorem Shaped.busRead {m : Master} {a : Nat} (h : Shaped s) : Shaped (s.busRead m a) := .ite h (h.readAs (fun h => h.readReg))
theorem Shaped.windowWord {m : Master} {o : Nat} (h : Shaped s) : Shaped (s.windowWord m o).1 :=
  .iteFst h.mbRead0 (.iteFst h (.iteFst (.iteFst h.latchPut (.iteFst h h)) (.iteFst h h)))
theorem Shaped.windowRd {m : Master} {o : Nat} (h : Shaped s) : Shaped (s.windowRead m (·.windowWord m o)) :=
  h.windowRead fun h => h.windowWord
theorem Shaped.gladeRd {m : Master} {a : Nat} (h : Shaped s) : Shaped (s.gladeRd m a) := by
  unfold State.gladeRd
  exact h.windowRd

/-! ## The operations of Machine/Boot.lean -/

theorem Shaped.anyHook {w : WCtx} (h : Shaped s) : Shaped (anyHook w s) := .ite (h.ovlHook (fun h => h.coreHook)) h.coreHook
theorem Shaped.romWrite {a v : Nat} (h : Shaped s) : Shaped (s.romWrite a v) := h.busWrite (fun h => h.anyHook)
theorem Shaped.bootBit {n : Nat} (h : Shaped s) : Shaped (s.bootBit n) := h.fset
theorem Shaped.bootClock (h : Shaped s) : Shaped s.bootClock := h.setSys.romWrite.fset.avsClamp.avsClock
theorem Shaped.romErase {b : Nat} (h : Shaped s) : Shaped (s.romErase b) := .ite h h.eraseBlock.cacheDrop.opMark
theorem Shaped.bootRepair (h : Shaped s) : Shaped s.bootRepair := by
  unfold State.bootRepair
  dsimp only
  split
  · exact h
  · split
    · exact h.bootBit
    · split
      · exact h.bootBit.romErase
      · exact .ite h.bootBit.romErase (h.bootBit.unless fun h => h.romErase.progList.romErase)
theorem Shaped.imgCheck {slot : Nat} (h : Shaped s) : Shaped (s.imgCheck slot).1 := .iteFst h.rangeRead h.rangeRead.rangeRead
theorem Shaped.checkSlot {k : Nat} {trial : Bool} (h : Shaped s) : Shaped (s.checkSlot k trial).1 :=
  .iteFst h.imgCheck (.iteFst (.iteFst h.imgCheck.imgCheck.writeRecord.bootBit h.imgCheck.imgCheck) h.imgCheck)
theorem Shaped.journalBack (h : Shaped s) : Shaped s.journalBack :=
  .ite h.rangeRead (h.rangeRead.romErase.foldl fun h => h.setByte).opMark.bootBit
theorem Shaped.selectImage (h : Shaped s) : Shaped s.selectImage.1 :=
  .iteFst (h.rsetN.bootBit.when fun h => h.journalBack).writeRecord.checkSlot (.iteFst h.rsetN.writeRecord.bootBit.checkSlot
    h.rsetN.checkSlot)
theorem Shaped.bootConfig (h : Shaped s) : Shaped s.bootConfig :=
  .ite (h.romWrite.fset.romWrite.when fun h => h.loadEnd).bootBit ((h.romWrite.fset.romWrite.when fun h => h.loadEnd).fset.romWrite.when
    fun h => h.romWrite.ovlSettle (fun h => h.coreHook))
theorem Shaped.bootCal (h : Shaped s) : Shaped s.bootCal := h.romWrite.romWrite
theorem Shaped.bootFinish {e : BootEnd} (h : Shaped s) : Shaped (s.bootFinish e) := by
  unfold State.bootFinish
  dsimp only
  refine .withCoreA ?_
  refine .setSys ?_
  split
  · exact h.romWrite
  · exact h
theorem Shaped.bootGo (h : Shaped s) : Shaped s.bootGo := by
  unfold State.bootGo
  split
  · exact .ite h.bootBit.bootFinish h
  · exact h
theorem Shaped.bootLoader (h : Shaped s) : Shaped s.bootLoader :=
  h.bootBit.romWrite.freeStep.withCoreA.waitRequest.when fun h => h.withCoreA
theorem Shaped.boot {warm : Bool} (h : Shaped s) : Shaped (s.boot warm) := by
  unfold State.boot
  extract_lets a b r c
  have hb : Shaped b := h.setSys.rsetN.when fun h => h.bootBit
  have hr : Shaped r.1 := hb.bootClock.bootRepair.selectImage
  have hc : Shaped c := hr.when fun h => h.updState
  split
  · exact hc.bootLoader
  · extract_lets base flags e d f
    have hd : Shaped d := hc.when fun h => h.bootBit
    have hf : Shaped f := hd.when fun h => h.bootConfig
    exact .ite hf.bootCal.setSys.bootGo hf.bootFinish
theorem Shaped.bootPending (h : Shaped s) : Shaped s.bootPending := .ite h.boot h
theorem Shaped.releaseBoot {straps : Nat} (h : Shaped s) : Shaped (s.releaseBoot straps) := .ite h.release.boot h
theorem Shaped.pageHook {w : WCtx} (h : Shaped s) : Shaped (pageHook w s) := (h.anyHook.ovlSettle (fun h => h.coreHook)).bootPending
theorem Shaped.execCalDone {t : Frc} {bit : Fin 8} {inLimits : Bool} (h : Shaped s) : OutShaped (execCalDone t bit inLimits s) :=
  .next h.advance.calEnds.bootGo
theorem Shaped.execFlashOpDone {ok : Bool} {pulses : BitVec 5} {corr : BitVec 9} {unc : Bool} (h : Shaped s) :
    OutShaped (execFlashOpDone ok pulses corr unc s) :=
  .next h.flashEnds.updSettle.bootPending
theorem Shaped.execEraseSuspended (h : Shaped s) : OutShaped (execEraseSuspended s) := .next (.ite h.setFlash.updSettle h)

/-! ## The operations of Machine/BusRows.lean -/

theorem Shaped.execRegisterWrite {m : Master} {addr v : Word} (h : Shaped s) : OutShaped (execRegisterWrite m addr v s) :=
  .next (h.busWrite (fun h => h.pageHook))
theorem Shaped.execSoftReset {a : Acc} {page : BitVec 6} {v : Word} (h : Shaped s) : OutShaped (execSoftReset a page v s) :=
  .next (h.writeReg (fun h => h.pageHook))
theorem Shaped.execOwnWrite {m : Master} {addr v : Word} (h : Shaped s) : OutShaped (execOwnWrite m addr v s) :=
  .next (h.busWrite (fun h => h.pageHook))
theorem Shaped.execOlockSet {a : Acc} {v : Word} (h : Shaped s) : OutShaped (execOlockSet a v s) :=
  .next (h.writeReg (fun h => h.pageHook))
theorem Shaped.execProtAudIdxWrite {a : Acc} {v : Word} (h : Shaped s) : OutShaped (execProtAudIdxWrite a v s) :=
  .next (h.writeReg (fun h => h.pageHook))
theorem Shaped.execLatchPairLowRead {m : Master} {addr : Word} (h : Shaped s) : OutShaped (execLatchPairLowRead m addr s) :=
  .next h.busRead
theorem Shaped.execLatchPairLowWrite {m : Master} {addr v : Word} (h : Shaped s) : OutShaped (execLatchPairLowWrite m addr v s) :=
  .next (h.busWrite (fun h => h.pageHook))
theorem Shaped.execLatchPairHighWrite {m : Master} {addr v : Word} (h : Shaped s) : OutShaped (execLatchPairHighWrite m addr v s) :=
  .next (h.busWrite (fun h => h.pageHook))
theorem Shaped.ovlCmdWrite {m : Master} {c : Word} (h : Shaped s) : Shaped (s.ovlCmdWrite m c) := h.writeReg (fun h => h.pageHook)
theorem Shaped.execOvlLoad {m : Master} (h : Shaped s) : OutShaped (execOvlLoad m s) := .next h.ovlCmdWrite
theorem Shaped.execApplyBase {m : Master} (h : Shaped s) : OutShaped (execApplyBase m s) := .next h.ovlCmdWrite
theorem Shaped.execOvlCancel {m : Master} (h : Shaped s) : OutShaped (execOvlCancel m s) := .next h.ovlCmdWrite
theorem Shaped.execOvlReqGo {a : Acc} {v : Word} (h : Shaped s) : OutShaped (execOvlReqGo a v s) :=
  .next (h.writeReg (fun h => h.pageHook))
theorem Shaped.execCadDisable {a : Acc} {v : Word} (h : Shaped s) : OutShaped (execCadDisable a v s) :=
  .next (h.writeReg (fun h => h.pageHook))
theorem Shaped.setProt {f : ProtState → ProtState} (h : Shaped s) : Shaped (s.setProt f) := h.withProt
theorem Shaped.execPresenceNFilteredChange {t : Frc} {low : Bool} (h : Shaped s) : OutShaped (execPresenceNFilteredChange t low s) := by
  unfold Machine.execPresenceNFilteredChange
  dsimp only
  split
  · exact .next (h.advance.gPresence.when fun h => h.setProt)
  · exact .ite (.next h.advance.gPresence) (.next h.advance.gPresence.setProt)
theorem Shaped.execTokenGain {t : Frc} (h : Shaped s) : OutShaped (execTokenGain t s) := .next (h.advance.when fun h => h.setProt.raise)
theorem Shaped.execTokenLapse {t : Frc} (h : Shaped s) : OutShaped (execTokenLapse t s) := .next (h.advance.unless fun h => h.setProt)

/-! ## The operations of Machine/Dma.lean -/

theorem Shaped.pageReach (h : Shaped s) : Shaped s.pageReach.1 := h
theorem Shaped.busLoad {m : Master} {a n : Nat} (h : Shaped s) : Shaped (s.busLoad m a n).1 := by
  unfold State.busLoad
  split
  · exact .iteFst (.iteFst h h.busRead.pageReach) h
  · exact .iteFst h.gladeRd.pageReach h
  · exact h.memRead
theorem Shaped.busStore {m : Master} {a n v : Nat} (h : Shaped s) : Shaped (s.busStore m a n v).1 := by
  unfold State.busStore
  split
  · exact .iteFst (h.busWrite (fun h => h.pageHook)) h
  · exact h.memWrite
theorem Shaped.execDmaChannelEnable {a : Acc} {ch : Fin 8} {v : Word} (h : Shaped s) : OutShaped (execDmaChannelEnable a ch v s) :=
  .next (h.writeReg (fun h => h.pageHook))
theorem Shaped.execDmaDisable {a : Acc} {ch : Fin 8} {v : Word} (h : Shaped s) : OutShaped (execDmaDisable a ch v s) :=
  .next (h.writeReg (fun h => h.pageHook))
theorem Shaped.execDmaRequest {ch : Fin 8} (h : Shaped s) : OutShaped (execDmaRequest ch s) := .next h.deliver
theorem Shaped.dmaFail {ch cause a : Nat} (h : Shaped s) : Shaped (s.dmaFail ch cause a) := h.dmaStop.fset.fset.rsetN.raise
theorem Shaped.dmaBurst {ch : Nat} (h : Shaped s) : Shaped (s.dmaBurst ch) := .ite h (.ite h.fset.dmaPut h.dmaPut)
theorem Shaped.dmaAdvance {ch src dst cnt n : Nat} (h : Shaped s) : Shaped (s.dmaAdvance ch src dst cnt n) :=
  .ite h (h.rsetN.rsetN.rsetN.dmaBurst.when fun h => h.dmaDone)
theorem Shaped.dmaBeat {ch : Fin 8} (h : Shaped s) : Shaped (s.dmaBeat ch) := by
  unfold State.dmaBeat
  dsimp only
  split
  · exact h
  · split
    · exact h
    · split
      · exact h.busLoad.withDmaLast.busStore.dmaAdvance
      · exact h
      · exact h.busLoad.withDmaLast.busStore.dmaFail
      · exact h.busLoad.withDmaLast.busStore.dmaFail
    · exact h.busLoad.withDmaLast.dmaFail
theorem Shaped.execDmaBeat (h : Shaped s) : OutShaped (execDmaBeat s) := by
  unfold Machine.execDmaBeat
  split
  · exact .next h
  · split
    · split
      · exact .next h.dmaBeat
      · exact .next h
    · exact .next h

/-! ## The operations of Machine/CoreMem.lean -/

theorem Shaped.mpuKeep {a : Nat} (h : Shaped s) : Shaped (s.mpuKeep a) := .ite h.withCoreA h
theorem Shaped.lineRead {a : Nat} (h : Shaped s) : Shaped (s.lineRead a) := by
  unfold State.lineRead
  split
  · exact h.flashRead
  · exact h.eccSweep
  · exact h
theorem Shaped.dFill {a : Nat} (h : Shaped s) : Shaped (s.dFill a) := h.lineRead.when fun h => h.freeStep.withCaches
theorem Shaped.iFill {a : Nat} (h : Shaped s) : Shaped (s.iFill a) := h.lineRead.when fun h => h.freeStep.withCaches
theorem Shaped.dParity {a : Nat} (h : Shaped s) : Shaped (s.dParity a) := .ite h.withCaches.finc h
theorem Shaped.iParity {a : Nat} (h : Shaped s) : Shaped (s.iParity a) := .ite h.withCaches.finc h
theorem Shaped.dWrite {a n v : Nat} (h : Shaped s) : Shaped (s.dWrite a n v) := h.withCaches
theorem Shaped.privRead {a : Nat} (h : Shaped s) : Shaped (s.privRead a).1 := .elimFst h (.iteFst h (.iteFst h (.iteFst h.fset h)))
theorem Shaped.cacheCtrl {i d : Bool} (h : Shaped s) : Shaped (s.cacheCtrl i d) := h.fset.fset.withCaches
theorem Shaped.privWrite {a : Nat} {v : Word} (h : Shaped s) : Shaped (s.privWrite a v) :=
  .elim h (.ite (h.foldl fun h => h.irqClear) (.ite h.cacheDrop (h.rset.when fun h => h.cacheCtrl)))
theorem Shaped.gotOf {wr : Bool} {a n : Nat} {r : State × Reach} (h : Shaped r.1) : GotShaped (gotOf wr a n r) := by
  unfold Machine.gotOf
  split
  · exact .ok h
  · exact .stall
  · exact .fault h
theorem Shaped.loadA {a n : Nat} (h : Shaped s) : GotShaped (s.loadA a n) := by
  unfold State.loadA
  split
  · exact .fault h
  · split
    · exact .ok h.privRead
    · split
      · exact h.busLoad.gotOf
      · split
        · exact .stall
        · dsimp only
          split
          · exact .ok h.dParity
          · have hg := (h.dParity (a := a)).busLoad (m := .tanumA) (a := a) (n := n) |>.gotOf (wr := false) (a := a) (n := n)
            split
            · next e => exact .ok (hg.ofOk e).dFill
            · exact hg
/-- What is done to a core keeps the number of its registers. -/
def KeepsW (f : Core → Core) : Prop := ∀ x, (f x).w.length = x.w.length

theorem Shaped.storeA {a n v : Nat} {fin : Core → Core} (h : Shaped s) (hf : KeepsW fin) : GotShaped (s.storeA a n v fin) := by
  unfold State.storeA
  split
  · exact .fault h
  · dsimp only
    split
    · exact .ok (h.withCoreA (hf _)).mpuKeep.privWrite
    · split
      · exact .stall
      · split
        · next e => exact .ok ((h.withCoreA (hf _)).busStore.gotOf.ofOk e).dWrite
        · next e =>
          have hu := ((h.withCoreA (hf _)).busStore.gotOf.ofFault e)
          exact .fault (hu.withCoreA (h.shape.wA.trans hu.shape.wA.symm))
        · exact .stall
theorem Shaped.gFault {vec a n : Nat} {wr : Bool} (h : Shaped s) : GotShaped (gFault vec a n wr s) := .fault h
theorem Shaped.loadG {a n : Nat} (h : Shaped s) : GotShaped (s.loadG a n) :=
  .ite (.ite (.ok h.gladeRead) h.gFault) (.ite h.gFault (.ite h.gFault (.ite (.ok h.freeStep) (.ok h.gReads))))
theorem Shaped.storeG {a n v : Nat} {fin : Core → Core} (h : Shaped s) (hf : KeepsW fin) : GotShaped (s.storeG a n v fin) := by
  unfold State.storeG
  extract_lets t
  have ht : Shaped t := h.withCoreG (hf _)
  split
  · exact .ite (.ok ht.gladeWrite) h.gFault
  · split
    · exact h.gFault
    · split
      · exact h.gFault
      · exact .ite (.ok (ht.setGlade (Glade.counts_setList _ _ _))) h.gFault
theorem Shaped.load {c : CoreId} {a n : Nat} (h : Shaped s) : GotShaped (s.load c a n) := by
  unfold State.load
  split
  · exact h.loadA
  · exact h.loadG
theorem Shaped.store {c : CoreId} {a n v : Nat} {fin : Core → Core} (h : Shaped s) (hf : KeepsW fin) : GotShaped (s.store c a n v fin) := by
  unfold State.store
  split
  · exact h.storeA hf
  · exact h.storeG hf
theorem Shaped.fetchByte {a : Nat} (h : Shaped s) : GotShaped (s.fetchByte a) := by
  have hp : Shaped (if s.iCacheable a then s.iParity a else s) := h.when fun h => h.iParity
  unfold State.fetchByte
  extract_lets r bad s' t
  split
  · exact .fault h
  · split
    · exact .fault h
    · split
      · exact .stall
      · split
        · exact .ok hp
        · split
          · exact .ok (.when hp.memRead fun h => h.iFill)
          · exact .stall
          · exact .fault hp.memRead
theorem Shaped.fetchBytes {a n : Nat} (h : Shaped s) : GotShaped (s.fetchBytes a n) := by
  induction n generalizing s a with
  | zero => exact .ok h
  | succ n ih =>
    unfold State.fetchBytes
    split
    · next e => exact ih (h.fetchByte.ofOk e)
    · exact h.fetchByte
theorem Shaped.fetch {c : CoreId} {n : Nat} (h : Shaped s) : GotShaped (s.fetch c n) := by
  unfold State.fetch
  dsimp only
  split
  · exact h.fetchBytes
  · split
    · exact .fault h
    · exact .ok h

/-! ## The operations of Machine/Except.lean -/

theorem Shaped.doubleFault {x : CoreId} (h : Shaped s) : Shaped (s.doubleFault x) := by
  unfold State.doubleFault
  split
  · exact h.coreReset.wdtLoad.bootPending
  · exact h.freeStep.gladeReset
theorem Shaped.pushWords {c : CoreId} {a : Nat} {l : List Word} (h : Shaped s) : GotShaped (s.pushWords c a l) := by
  induction l generalizing s a with
  | nil => exact .ok h
  | cons w l ih =>
    unfold State.pushWords
    split
    · next e => exact ih ((h.store fun _ => rfl).ofOk e)
    · exact h.store fun _ => rfl
theorem Shaped.lineEntered {c : CoreId} {n : Nat} (h : Shaped s) : Shaped (s.lineEntered c n) := by
  unfold State.lineEntered
  split
  · exact h.irqClear.fset
  · exact (Shaped.ite h h.gUnline).fset
theorem Shaped.lineLeft {c : CoreId} {vec : Nat} (h : Shaped s) : Shaped (s.lineLeft c vec) := by
  unfold State.lineLeft
  split <;> exact .ite h.fset h
theorem Shaped.enter {c : CoreId} {vec : Nat} {k : Cause} (h : Shaped s) : OptShaped (s.enter c vec k) := by
  unfold State.enter
  extract_lets t x sp u
  have ht : Shaped t := h.setCore ((Core.length_landAll _).trans (h.core_w c))
  have hx : x.w.length = 15 := ht.core_w c
  have hu : Shaped u := ht.setCore hx
  clear_value u x t
  split
  · exact .some ht.doubleFault
  · split
    · exact .none
    · next e => exact .some (hu.pushWords.ofFault e).doubleFault
    · next e =>
      have hp := hu.pushWords.ofOk e
      split
      · exact .none
      · next e => exact .some (hp.load.ofFault e).doubleFault
      · next e =>
        have hl := hp.load.ofOk e
        refine .some ?_
        split
        · exact .lineEntered (.setCore hl hx)
        · exact .setCore hl hx
theorem Shaped.faultInfo {c : CoreId} {f : Flt} (h : Shaped s) : Shaped (s.faultInfo c f) := by
  unfold State.faultInfo
  split
  · exact h
  · exact h.rsetN.rsetN
theorem Shaped.takeFault {c : CoreId} {f : Flt} (h : Shaped s) : OptShaped (s.takeFault c f) := h.faultInfo.enter
theorem Shaped.stepEnd (h : Shaped s) : Shaped s.stepEnd := .ite (h.withCoreA (Core.length_landAll _)) h
theorem Shaped.orStall {c : CoreId} {o : Option State} (h : Shaped s) (ho : OptShaped o) : Shaped (s.orStall c o) := by
  cases ho with
  | none => exact h
  | some ht => cases c with
    | a => exact ht.stepEnd
    | g => exact ht
theorem Shaped.bpTake {n : Nat} (h : Shaped s) : Shaped (s.bpTake n) := .ite 
  (h.orStall h.fset.fset.enter) (h.fset.fset.withCoreA (Core.length_landAll _))
theorem Shaped.repStop {c : CoreId} {k : Nat} {atomic : Bool} (h : Shaped s) : Shaped (s.repStop c k atomic) :=
  h.setCore (h.core_w c)

/-- A body keeps the counts when what it is given to do to the core at its end keeps the core's registers. -/
def BodyShaped (b : Body) : Prop :=
  ∀ (fin : Option Word → Core → Core) {s : State}, (∀ v, KeepsW (fin v)) → Shaped s → GotShaped (b fin s)

theorem finish_keepsW (next : Word) (v : Option Word) : KeepsW (finish next v) := fun _ => rfl
theorem finishRep_keepsW (next : Word) (k : Nat) (v : Option Word) : KeepsW (finishRep next k v) := fun x => by
  unfold finishRep
  split <;> rfl

theorem Shaped.repRun {c : CoreId} {p : Prefixes} {next : Word} {intr : Bool} {b : Body} {n : Nat} (hb : BodyShaped b) (h : Shaped s) :
    OptShaped (State.repRun c p next intr b n s) := by
  induction n generalizing s with
  | zero => exact .some (h.setCore ((finishRep_keepsW _ _ _ _).trans (h.core_w c)))
  | succ n ih =>
    have hr : GotShaped (b (finishRep next n) s) := hb _ (finishRep_keepsW next n) h
    unfold State.repRun
    dsimp only
    split
    · exact .some (h.setCore (h.core_w c))
    · split
      · exact .some h.repStop
      · next e => exact (hr.ofFault e).repStop.takeFault
      · next e =>
        have ht := hr.ofOk e
        exact .ite (.some ht) (.ite (.some ht.repStop) (ih ht))
theorem Shaped.runBody {c : CoreId} {p : Prefixes} {next : Word} {b : Body} (h : Shaped s) (hb : BodyShaped b) :
    OptShaped (s.runBody c p next b) := by
  unfold State.runBody
  split
  · exact h.repRun hb
  · split
    · exact .some (h.setCore (h.core_w c))
    · have hr : GotShaped (b (finish next) s) := hb _ (finish_keepsW next) h
      split
      · next e => exact .some (hr.ofOk e)
      · next e => exact (hr.ofFault e).takeFault
      · exact .none
theorem Shaped.mpuLand {c : CoreId} (h : Shaped s) : Shaped (State.mpuLand c s) := h.setCore (h.core_w c)
theorem Shaped.instr {c : CoreId} {p : Prefixes} {op imm : Nat} {priv : Bool} {b : Body} (h : Shaped s) (hb : BodyShaped b) :
    OutShaped (s.instr c p op imm priv b) := by
  unfold State.instr
  split
  · exact .next h
  · split
    · exact .next h.bpTake
    · dsimp only
      split
      · exact .next (h.orStall h.takeFault)
      · split
        · exact .next h
        · next e => exact .next (h.orStall (h.fetch.ofFault e).takeFault)
        · next e =>
          have ht := h.fetch.ofOk e
          exact .ite (.next (h.orStall ht.takeFault))
            (.ite (.next (h.orStall ht.takeFault)) (.next (h.orStall ((ht.runBody hb).map fun h => h.mpuLand))))
theorem coreBody_shaped {c : CoreId} {f : Core → Core} (hf : KeepsW f) : BodyShaped (coreBody c f) :=
  fun _ _ hfin h => .ok (h.setCore ((hfin _ _).trans ((hf _).trans (h.core_w c))))
theorem Shaped.execExceptionEntry {c : CoreId} (h : Shaped s) : OutShaped (execExceptionEntry c s) := by
  unfold Machine.execExceptionEntry
  split
  · exact .next h
  · split
    · split
      · exact .ite (.next h) (.next (h.orStall h.enter))
      · exact .next h
    · split
      · exact .next (h.orStall h.enter)
      · exact .next h
theorem Shaped.execFetchBusError {c : CoreId} {k : Fin 8} (h : Shaped s) : OutShaped (execFetchBusError c k s) := by
  unfold Machine.execFetchBusError
  split
  · exact .next h
  · split
    · exact .next h.bpTake
    · split
      · next e => exact .next (h.orStall (h.fetch.ofFault e).takeFault)
      · exact .next h
theorem Shaped.execIllegalEncoding {c : CoreId} {bytes : List Byte} (h : Shaped s) : OutShaped (execIllegalEncoding c bytes s) := by
  unfold Machine.execIllegalEncoding
  split
  · exact .next h
  · split
    · exact .next h.bpTake
    · split
      · exact .next h
      · next e => exact .next (h.orStall (h.fetch.ofFault e).takeFault)
      · next e => exact .next (h.orStall (h.fetch.ofOk e).takeFault)
theorem Shaped.execMultiplyLands {c : CoreId} (h : Shaped s) : OutShaped (execMultiplyLands c s) :=
  .next (h.setCore ((Core.length_land _).trans (h.core_w c)))
theorem Shaped.execBreakpointMatch {n : Fin 4} (h : Shaped s) : OutShaped (execBreakpointMatch n s) := .next (.ite h.bpTake h)
theorem Shaped.privStore {a : Nat} {v : Word} (h : Shaped s) : OutShaped (s.privStore a v) := by
  unfold State.privStore
  split
  · exact .next h
  · split
    · next e => exact .next ((h.storeA fun _ => rfl).ofOk e).mpuLand
    · next e => exact .next (h.orStall ((h.storeA fun _ => rfl).ofFault e).takeFault)
    · exact .next h
theorem Shaped.execCacheInv {v : Word} (h : Shaped s) : OutShaped (execCacheInv v s) := h.privStore
theorem Shaped.execIcacheInvalidateAll {v : Word} (h : Shaped s) : OutShaped (execIcacheInvalidateAll v s) := h.privStore
theorem Shaped.execDcacheInvalidateAll {v : Word} (h : Shaped s) : OutShaped (execDcacheInvalidateAll v s) := h.privStore
theorem Shaped.execInvalidationDone (h : Shaped s) : OutShaped (execInvalidationDone s) := .next h.withCaches
theorem Shaped.execDbgHalt {m : Master} (h : Shaped s) : OutShaped (execDbgHalt m s) := .next (h.busWrite (fun h => h.pageHook))
theorem Shaped.execDbgResume {m : Master} (h : Shaped s) : OutShaped (execDbgResume m s) := .next (h.busWrite (fun h => h.pageHook))
theorem Shaped.execDbgStep {m : Master} (h : Shaped s) : OutShaped (execDbgStep m s) := .next (h.busWrite (fun h => h.pageHook))
theorem Shaped.execDbgRegDataAccess {a : Acc} {w : Option Word} (h : Shaped s) : OutShaped (execDbgRegDataAccess a w s) := by
  unfold Machine.execDbgRegDataAccess
  refine .next ?_
  split
  · exact h.busRead
  · exact h.busWrite (fun h => h.pageHook)

/-! ## The operations of Machine/Slot.lean -/

theorem Shaped.setHdr {f : HdrState → HdrState} (h : Shaped s) (hx : (f s.hdr).entries.length = s.hdr.entries.length := by rfl) :
    Shaped (s.setHdr f) :=
  h.withHdr hx
theorem Shaped.setSlot {f : Slot → Slot} (h : Shaped s) : Shaped (s.setSlot f) := h.withSlot
theorem Shaped.arbitrate {asn : Nat} {l : List Cand} (h : Shaped s) : Shaped (arbitrate asn l s).2 := by
  induction l generalizing s with
  | nil => exact h
  | cons c l ih =>
    unfold Machine.arbitrate
    split
    · split
      · exact h
      · split
        · next e => exact h.eligible.ofSnd e
        · next e => exact ih (h.eligible.ofSnd e)
    · exact .iteSnd h (.iteSnd h (ih h))
theorem Shaped.overrun (h : Shaped s) : Shaped s.overrun := h.finc.raise
theorem Shaped.cutLanes (h : Shaped s) : Shaped s.cutLanes := h.foldl fun h => (Shaped.ite h.laneAbort.overrun h).laneTo.setLane.laneAssign
theorem Shaped.cutAcks (h : Shaped s) : Shaped s.cutAcks := (h.foldl fun h => h.overrun).withTxm
theorem Shaped.withdraw {asn : Nat} (h : Shaped s) : Shaped (s.withdraw asn) := by
  unfold State.withdraw
  split
  · exact .ite h h.setTicket.dutyCharge.fset
  · exact h
theorem Shaped.cutTail (h : Shaped s) : Shaped s.cutTail := by
  unfold State.cutTail
  split
  · exact h
  · exact .ite h (Shaped.ite (Shaped.ite (Shaped.ite h h.rsetN).withdraw (.ite h h.rsetN)).fset (.ite (Shaped.ite h h.rsetN).withdraw
      (.ite h h.rsetN))).squashWhere.overrun
theorem Shaped.cutBuild (h : Shaped s) : Shaped s.cutBuild := by
  unfold State.cutBuild
  split
  · exact h.finc.squash.overrun
  · exact h
theorem Shaped.cutWork (h : Shaped s) : Shaped s.cutWork :=
  .ite (Shaped.ite h.workAbort.overrun h).setCad.overrun (.ite h.workAbort.overrun h)
theorem Shaped.cutJobs (h : Shaped s) : Shaped s.cutJobs := h.cutLanes.cutAcks.cutBuild.cutTail.cutWork
theorem Shaped.silenceCount {asn : Nat} (h : Shaped s) : Shaped (s.silenceCount asn) := .ite h h.fadd.setCad
theorem Shaped.tune {f : Nat} {tx wide : Bool} (h : Shaped s) : Shaped (s.tune f tx wide) :=
  .ite h.fset.finc h.fset.fset.fset.fsetB.setRfe
theorem Shaped.slotBegin {sl : Slot} (h : Shaped s) : Shaped (s.slotBegin sl) := h.fset.rsetN.withSlot
theorem Shaped.slotCanopy {asn : Nat} {cells : List Cand} (h : Shaped s) : Shaped (s.slotCanopy asn cells) :=
  h.openWindow.slotBegin.unless fun h => h.tune
theorem Shaped.slotNarrow {asn : Nat} {cells : List Cand} (h : Shaped s) : Shaped (s.slotNarrow asn cells) := by
  unfold State.slotNarrow
  split
  · exact h.slotBegin
  · exact h.fadd.laneAssign.slotBegin.tune
theorem Shaped.slotTx {asn : Nat} {c : Cand} (h : Shaped s) : Shaped (s.slotTx asn c) := h.slotBegin.tune
theorem Shaped.slotClearing {asn : Nat} {c : Cand} (h : Shaped s) : Shaped (s.slotClearing asn c) := h.slotBegin
theorem Shaped.slotDecide {asn : Nat} {l : List Cand} (h : Shaped s) : Shaped (s.slotDecide asn l) := by
  unfold State.slotDecide
  split
  · next e =>
    have ha := h.arbitrate.ofSnd e
    exact .ite ha.slotTx (.ite (.ite ha.slotCanopy ha.slotNarrow) ha.slotClearing)
  · next e =>
    have ha := h.arbitrate.ofSnd e
    exact .ite ha.slotCanopy ha.slotBegin
theorem Shaped.slotClear (h : Shaped s) : Shaped s.slotClear := h.windowShut.setRfe.fset.setCad.foldl fun h => h.laneLatch
theorem Shaped.slotStart {asn : Nat} (h : Shaped s) : Shaped (s.slotStart asn) := by
  unfold State.slotStart
  dsimp only
  refine .slotDecide <| .setCad ?_
  split
  · exact h.silenceCount.slotClear.setNtu.modeAtTick
  · exact h.silenceCount.slotClear.setNtu.modeAtTick.resolveSlot
theorem Shaped.execSlotTick {t : Frc} (h : Shaped s) : OutShaped (execSlotTick t s) :=
  .ite (.next h.advance) (.ite (.next (h.advance.phaseBegin.cutJobs.consider.cadStop.publishAll.ovlSettle (fun h => h.coreHook)))
    (.next h.advance.phaseBegin.cutJobs.consider.slotStart.publishAll.hold))
theorem Shaped.attemptCount {k : Ticket} (h : Shaped s) : Shaped (s.attemptCount k) := .ite h.setHdr h.descSet.descSet.descSet
theorem Shaped.recover {code : Nat} (h : Shaped s) : Shaped (s.recover code) := by
  unfold State.recover
  split
  · exact h
  · extract_lets air t u v w x
    have hu : Shaped u := by
      unfold u
      cases air with
      | none => exact h.txAbort
      | some k => exact h.txAbort.unless fun h => h.attemptCount
    have hx : Shaped x := (hu.cadHalt.foldl fun h => h.laneStop).setSys.setCad
    exact (hx.sysFault.raise).ovlSettle fun h => h.coreHook

/-! ## The operations of Machine/Tailrace.lean -/

theorem Shaped.backoffServed (h : Shaped s) : Shaped s.backoffServed := h.foldl fun h => h.nbrSet
theorem Shaped.backoffOutcome {k : Ticket} {ok : Bool} (h : Shaped s) : Shaped (s.backoffOutcome k ok) := by
  unfold State.backoffOutcome
  split
  · exact h
  · exact .ite h.nbrSet.nbrSet (.ite h h.nbrSet.nbrSet.freeStep)
theorem Shaped.countOutcome {k : Ticket} (h : Shaped s) : Shaped (s.countOutcome k) := by
  unfold State.countOutcome
  split
  · exact h.finc
  · split
    · dsimp only
      split
      · exact h.finc.nbrSet
      · exact h.finc
    · exact h
theorem Shaped.frameOutcome {k : Ticket} {ok final : Bool} (h : Shaped s) : Shaped (s.frameOutcome k ok final) :=
  .ite h (.ite h.setHdr h.frameLeaves)
theorem Shaped.retire {e : Nat} {k : Ticket} (h : Shaped s) : Shaped (s.retire e k) :=
  h.attemptCount.countOutcome.backoffOutcome.frameOutcome.setTicket.dutyCharge.dutyNote.fset.unless fun h => h.squashDependants.squashNow
theorem Shaped.tailCommit {sl : Slot} (h : Shaped s) : Shaped (s.tailCommit sl) := by
  unfold State.tailCommit
  dsimp only
  split
  · refine .when ?_ fun h => h.retire
    split
    · exact .ite h.backoffServed h
    · exact h
  · split
    · exact .ite h.backoffServed h
    · exact h
theorem Shaped.cellStats {sl : Slot} {failed : Bool} {c : Cand} (h : Shaped s) : Shaped (s.cellStats sl failed c) :=
  h.cellUsed.when fun h => h.cellFail
theorem Shaped.queueSample {q : Nat} (h : Shaped s) : Shaped (s.queueSample q) := h.fset.fset
theorem Shaped.historyEntry {asn : Nat} (h : Shaped s) : Shaped (s.historyEntry asn) := .ite h h.setTrf.fset.fsetB
theorem Shaped.tailStats {sl : Slot} (h : Shaped s) : Shaped (s.tailStats sl) :=
  ((h.foldl fun h => h.cellStats).foldl fun h => h.queueSample).historyEntry
theorem Shaped.tailGates {next : Nat} (h : Shaped s) : Shaped (s.tailGates next) := h.sluEvaluate.setHdr.dutyNote
theorem Shaped.squashContra {e : Nat} (h : Shaped s) : Shaped (s.squashContra e) := .ite h.squash.finc.raise h
theorem Shaped.tailVerdict {next : Nat} (h : Shaped s) : Shaped (s.tailVerdict next) :=
  (h.squashWhere.foldl fun h => h.squashContra).squashNow.setHdr (List.length_map _)
theorem Shaped.tailNext {sl : Slot} {stepped : Bool} {dur : Nat} (h : Shaped s) : Shaped (s.tailNext sl stepped dur).2 :=
  .iteSnd h (Shaped.ite h.asnSkip h).setNtu
theorem Shaped.tailStep {sl : Slot} {next i : Nat} (h : Shaped s) : Shaped (s.tailStep sl next i) := by
  unfold State.tailStep
  split
  · exact h.resolveSlot
  · exact h.tailCommit
  · exact h.tailStats
  · exact h.weirFill
  · exact h.tailGates
  · exact h.modeAtTail (fun h => h.coreHook)
  · exact h.tailVerdict
theorem Shaped.excursionEnd {next dur : Nat} (h : Shaped s) : Shaped (s.excursionEnd next dur) := by
  unfold State.excursionEnd
  dsimp only
  refine .ite h (.ite h ?_)
  split
  · exact h.enterState
  · exact h.entryRefuse
theorem Shaped.tailEnd {next dur : Nat} (h : Shaped s) : Shaped (s.tailEnd next dur) :=
  ((h.windowShut.setRfe.when fun h => h.cadStop).ovlSettle (fun h => h.coreHook)).excursionEnd
theorem Shaped.execTailrace {t : Frc} {steps : Fin 8} {dur : BitVec 10} (h : Shaped s) : OutShaped (execTailrace t steps dur s) := by
  unfold Machine.execTailrace
  extract_lets a p b c d stepped e n
  have ha : Shaped a := h.advance
  have hc : Shaped c := ha.phaseBegin.setSlot.rsetN.setRfe.setHdr
  have hd : Shaped d := by
    unfold d
    split
    · exact .ite hc.setAck.ackWindowShut hc
    · exact hc
  split
  · exact .next ha
  · refine .ite (.next ha) ?_
    split
    · next x =>
      extract_lets f g k
      have hf : Shaped f := (hd.stepAtTail.tailNext.ofSnd x).foldl fun h => h.tailStep
      have hk : Shaped k := hf.setSlot.fset.fset
      exact .next (.hold (.ite hk.tailEnd hk))
theorem Shaped.execPhaseCheckpoint {t : Frc} (h : Shaped s) : OutShaped (execPhaseCheckpoint t s) :=
  .next (h.advance.unless fun h => h.phaseBegin)
theorem Shaped.replayBegin (h : Shaped s) : Shaped s.replayBegin := h.setCad.fset.finc.raise.event
theorem Shaped.execLockstepFault {t : Frc} {sig : Bool} {grp : Fin 4} (h : Shaped s) : OutShaped (execLockstepFault t sig grp s) :=
  .ite (.next h.advance) (.next h.advance.setCad.finc.rsetN.txAbort.squashWhere.replayBegin)
theorem Shaped.execReplayEnd {t : Frc} {agree : Bool} (h : Shaped s) : OutShaped (execReplayEnd t agree s) :=
  .ite (.next h.advance) (.ite (.next h.advance.setCad.phaseBegin) (.ite (.next h.advance.replayBegin) (.next h.advance.setCad.recover)))
theorem Shaped.execAppSilent {t : Frc} (h : Shaped s) : OutShaped (execAppSilent t s) :=
  .ite (.next h.advance) (.next ((h.advance.when fun h => h.cadStop).setCad.fset.raise.event.either
    (fun h => h.sysReset) fun h => h.recover))

/-! ## The operations of Machine/System.lean -/

theorem Shaped.execSysStateReq {a : Acc} {v : Word} (h : Shaped s) : OutShaped (execSysStateReq a v s) :=
  .next (h.writeReg (fun h => h.pageHook))
theorem Shaped.execPowerOnReset {straps : BitVec 5} {tcxo : Bool} (h : Shaped s) : OutShaped (execPowerOnReset straps tcxo s) :=
  .next h.sysReset.setSys.releaseBoot
theorem Shaped.execBrownOutReset (h : Shaped s) : OutShaped (execBrownOutReset s) := .next (.ite h h.sysReset)
theorem Shaped.execPinReset (h : Shaped s) : OutShaped (execPinReset s) := .next (.ite h h.sysReset)
theorem Shaped.execResetRelease {straps : BitVec 5} (h : Shaped s) : OutShaped (execResetRelease straps s) := .next (.ite h h.releaseBoot)
theorem Shaped.execSysCmdSystemReset {a : Acc} {v : Word} {straps : BitVec 5} (h : Shaped s) :
    OutShaped (execSysCmdSystemReset a v straps s) :=
  .next ((h.writeReg (fun h => h.pageHook)).unless fun h => h.releaseBoot)
theorem Shaped.execSysCmdCoreReset {a : Acc} {v : Word} (h : Shaped s) : OutShaped (execSysCmdCoreReset a v s) :=
  .next (h.writeReg (fun h => h.pageHook))
theorem Shaped.execWatchdogExpiry {straps : BitVec 5} (h : Shaped s) : OutShaped (execWatchdogExpiry straps s) :=
  .ite (.next h) (.ite (.next h.sysReset.releaseBoot) (.next h.coreReset.wdtLoad.bootPending))
theorem Shaped.execWdtWarn (h : Shaped s) : OutShaped (execWdtWarn s) := .next (.ite h.rsetN.raise h)
theorem Shaped.execWdtKick {a : Acc} {v : Word} (h : Shaped s) : OutShaped (execWdtKick a v s) := .next (h.writeReg (fun h => h.pageHook))
theorem Shaped.execHfxoLoss {t : Frc} (h : Shaped s) : OutShaped (execHfxoLoss t s) :=
  .ite (.next h) (.next (h.advance.fset.setSys.when fun h => h.avsStep).sleepHandoff.recover)
theorem Shaped.execLfxoLoss {t : Frc} (h : Shaped s) : OutShaped (execLfxoLoss t s) :=
  .ite (.next h) (.next h.advance.fset.raise.sysFault.fset)
theorem Shaped.execLfxoEdgesReturn (h : Shaped s) : OutShaped (execLfxoEdgesReturn s) := .next h.fset
theorem Shaped.execSlewEnd {t : Frc} (h : Shaped s) : OutShaped (execSlewEnd t s) := .next h.advance
theorem Shaped.execVddLoss (h : Shaped s) : OutShaped (execVddLoss s) := .next h.sysReset.setPwr.gladeLoss
theorem Shaped.wakeCs {src : Nat} (h : Shaped s) : Shaped (s.wakeCs src) := .ite h.setHsp h
theorem Shaped.coreGo (h : Shaped s) : Shaped s.coreGo := h.withCoreA
theorem Shaped.wakeRecord {src : Nat} {irq : Bool} {p : PwrState} (h : Shaped s) : Shaped (s.wakeRecord src irq p) :=
  h.fset.fsetB.fset.raise
theorem Shaped.resumeCore (h : Shaped s) : Shaped s.resumeCore := h.withCoreA h.shape.wA.symm
theorem Shaped.wakeUp {src straps : Nat} (h : Shaped s) : Shaped (s.wakeUp src straps) :=
  .ite h.wakeCs.loseContents.sysReset.wakeRecord.releaseBoot.event (Shaped.ite
    (h.wakeCs.loseContents.withPins (fun h => h.setPwr)).resumeCore.sampleStraps.wdtLoad
    (h.wakeCs.loseContents.withPins (fun h => h.setPwr)).coreGo).wakeRecord.event
theorem Shaped.execWake {src : BitVec 6} {straps : BitVec 5} (h : Shaped s) : OutShaped (execWake src straps s) := .next (.ite h.wakeUp h)
theorem Shaped.execEntryAbort {ep : Fin 6} {src : BitVec 6} (h : Shaped s) : OutShaped (execEntryAbort ep src s) := by
  unfold Machine.execEntryAbort
  extract_lets p m a
  have ha : Shaped a := h.fset.fset.finc.raise
  split
  · exact .next h
  · refine .ite (.next h) (.ite ?_ ?_)
    · exact .next ((ha.withPins fun h => h.setPwr).when fun h => h.pspStopNow).wakeCs.coreGo
    · exact .next (ha.withPins fun h => h.setPwr).wakeUp
theorem Shaped.execExcursionStart {t : Frc} (h : Shaped s) : OutShaped (execExcursionStart t s) :=
  .ite (.next h.advance) (.next (h.advance.loseContents.withPins (fun h => h.setPwr)).finc)

/-! ## The operations of Machine/Tanum.lean -/

theorem Core.length_putFlag (x : Core) (k : Nat) (b : Option Bool) : (x.putFlag k b).w.length = x.w.length := by cases b <;> rfl
theorem Core.length_putFlags (x : Core) (f : FlagSet) : (x.putFlags f).w.length = x.w.length :=
  (length_putFlag _ _ _).trans ((length_putFlag _ _ _).trans ((length_putFlag _ _ _).trans (length_putFlag _ _ _)))
theorem Core.length_alu (x : Core) (op : AluOp) (p : Prefixes) (d : RegNo) (src : Src) (free : Nat) :
    (x.alu op p d src free).w.length = x.w.length := by
  unfold Core.alu
  extract_lets w a b o clamped r y z
  have hz : z.w.length = x.w.length := by
    refine Eq.trans ?_ (x.length_putFlags (aluFlags op w r o))
    unfold z
    split <;> rfl
  split
  · exact (Core.length_setReg _ _ _).trans hz
  · exact hz
theorem aluBody_shaped {c : CoreId} {op : AluOp} {p : Prefixes} {d : RegNo} {src : Src} : BodyShaped (aluBody c op p d src) :=
  fun _ _ hfin h => .ok ((Shaped.ite h.freeStep h).setCore ((hfin _ _).trans ((Core.length_alu _ _ _ _ _ _).trans (h.core_w c))))
theorem Shaped.aluIns {c : CoreId} {op : AluOp} {p : Prefixes} {d : RegNo} {src : Src} (h : Shaped s) :
    OutShaped (s.aluIns c op p d src) :=
  h.instr aluBody_shaped
theorem Shaped.execMov {c : CoreId} {p : Prefixes} {d : RegNo} {src : Src} (h : Shaped s) : OutShaped (execMov c p d src s) := h.aluIns
theorem Shaped.execAdd {c : CoreId} {p : Prefixes} {d : RegNo} {src : Src} (h : Shaped s) : OutShaped (execAdd c p d src s) := h.aluIns
theorem Shaped.execAdc {c : CoreId} {p : Prefixes} {d : RegNo} {src : Src} (h : Shaped s) : OutShaped (execAdc c p d src s) := h.aluIns
theorem Shaped.execSub {c : CoreId} {p : Prefixes} {d : RegNo} {src : Src} (h : Shaped s) : OutShaped (execSub c p d src s) := h.aluIns
theorem Shaped.execSbc {c : CoreId} {p : Prefixes} {d : RegNo} {src : Src} (h : Shaped s) : OutShaped (execSbc c p d src s) := h.aluIns
theorem Shaped.execAnd {c : CoreId} {p : Prefixes} {d : RegNo} {src : Src} (h : Shaped s) : OutShaped (execAnd c p d src s) := h.aluIns
theorem Shaped.execOr {c : CoreId} {p : Prefixes} {d : RegNo} {src : Src} (h : Shaped s) : OutShaped (execOr c p d src s) := h.aluIns
theorem Shaped.execXor {c : CoreId} {p : Prefixes} {d : RegNo} {src : Src} (h : Shaped s) : OutShaped (execXor c p d src s) := h.aluIns
theorem Shaped.execCmp {c : CoreId} {p : Prefixes} {d : RegNo} {src : Src} (h : Shaped s) : OutShaped (execCmp c p d src s) := h.aluIns
theorem Shaped.execTst {c : CoreId} {p : Prefixes} {d : RegNo} {src : Src} (h : Shaped s) : OutShaped (execTst c p d src s) := h.aluIns
theorem Shaped.execShl {c : CoreId} {p : Prefixes} {d : RegNo} {src : Src} (h : Shaped s) : OutShaped (execShl c p d src s) := h.aluIns
theorem Shaped.execShr {c : CoreId} {p : Prefixes} {d : RegNo} {src : Src} (h : Shaped s) : OutShaped (execShr c p d src s) := h.aluIns
theorem Shaped.execSar {c : CoreId} {p : Prefixes} {d : RegNo} {src : Src} (h : Shaped s) : OutShaped (execSar c p d src s) := h.aluIns
theorem Shaped.execRor {c : CoreId} {p : Prefixes} {d : RegNo} {src : Src} (h : Shaped s) : OutShaped (execRor c p d src s) := h.aluIns
theorem Shaped.execNeg {c : CoreId} {p : Prefixes} {d src : RegNo} (h : Shaped s) : OutShaped (execNeg c p d src s) := h.aluIns
theorem Shaped.execNot {c : CoreId} {p : Prefixes} {d src : RegNo} (h : Shaped s) : OutShaped (execNot c p d src s) := h.aluIns
theorem Shaped.execBset {c : CoreId} {p : Prefixes} {rd : RegNo} {n : Fin 32} (h : Shaped s) : OutShaped (execBset c p rd n s) :=
  h.instr (coreBody_shaped fun _ => Core.length_setReg _ _ _)
theorem Shaped.execBclr {c : CoreId} {p : Prefixes} {rd : RegNo} {n : Fin 32} (h : Shaped s) : OutShaped (execBclr c p rd n s) :=
  h.instr (coreBody_shaped fun _ => Core.length_setReg _ _ _)
theorem Shaped.execBtst {c : CoreId} {p : Prefixes} {rd : RegNo} {n : Fin 32} (h : Shaped s) : OutShaped (execBtst c p rd n s) :=
  h.instr (coreBody_shaped fun _ => rfl)
theorem Shaped.execClz {c : CoreId} {p : Prefixes} {rd rs : RegNo} (h : Shaped s) : OutShaped (execClz c p rd rs s) :=
  h.instr (coreBody_shaped fun _ => Core.length_setReg _ _ _)
theorem Shaped.execMuls {c : CoreId} {p : Prefixes} {ra rb : RegNo} (h : Shaped s) : OutShaped (execMuls c p ra rb s) :=
  h.instr (coreBody_shaped fun _ => rfl)
theorem Shaped.execMulu {c : CoreId} {p : Prefixes} {ra rb : RegNo} (h : Shaped s) : OutShaped (execMulu c p ra rb s) :=
  h.instr (coreBody_shaped fun _ => rfl)
theorem Shaped.execMacs {c : CoreId} {p : Prefixes} {ra rb : RegNo} (h : Shaped s) : OutShaped (execMacs c p ra rb s) :=
  h.instr (coreBody_shaped fun _ => rfl)
theorem Shaped.execMacu {c : CoreId} {p : Prefixes} {ra rb : RegNo} (h : Shaped s) : OutShaped (execMacu c p ra rb s) :=
  h.instr (coreBody_shaped fun _ => rfl)
theorem Shaped.execMul32s {c : CoreId} {p : Prefixes} {ra rb : RegNo} (h : Shaped s) : OutShaped (execMul32s c p ra rb s) :=
  h.instr (coreBody_shaped fun _ => rfl)
theorem Shaped.execMul32u {c : CoreId} {p : Prefixes} {ra rb : RegNo} (h : Shaped s) : OutShaped (execMul32u c p ra rb s) :=
  h.instr (coreBody_shaped fun _ => rfl)
theorem Shaped.execClracc {c : CoreId} {p : Prefixes} (h : Shaped s) : OutShaped (execClracc c p s) := h.instr (coreBody_shaped fun _ => rfl)
theorem illegalBody_shaped {c : CoreId} : BodyShaped (illegalBody c) := fun _ _ _ h => .fault h
theorem Core.length_setSpecial (x : Core) (c : CoreId) (i : Nat) (v : Word) : (x.setSpecial c i v).w.length = x.w.length := by
  unfold Core.setSpecial
  split <;> rfl
theorem Shaped.execMovsFromSpecial {c : CoreId} {p : Prefixes} {d : RegNo} {sx : Fin 16} (h : Shaped s) :
    OutShaped (execMovsFromSpecial c p d sx s) :=
  .ite (h.instr illegalBody_shaped) (h.instr (coreBody_shaped fun _ => Core.length_setReg _ _ _))
theorem Shaped.execMovsToSpecial {c : CoreId} {p : Prefixes} {sx : Fin 16} {src : RegNo} (h : Shaped s) :
    OutShaped (execMovsToSpecial c p sx src s) :=
  .ite (h.instr illegalBody_shaped) (h.instr (coreBody_shaped fun x => x.length_setSpecial _ _ _))

/-! ## The operations of Machine/TanumMem.lean -/

theorem GotShaped.andThen {g : Got} {f : Nat → State → Got} (h : GotShaped g) (hf : ∀ {v t}, Shaped t → GotShaped (f v t)) :
    GotShaped (g.andThen f) := by
  cases h with
  | ok h => exact hf h
  | fault h => exact .fault h
  | stall => exact .stall
theorem Core.length_baseStep (x : Core) (n : Nat) (mode : MemMode) : (x.baseStep n mode).w.length = x.w.length := by
  unfold Core.baseStep
  split
  · exact Core.length_setReg _ _ _
  · exact Core.length_setReg _ _ _
  · rfl
theorem ldBody_shaped {c : CoreId} {p : Prefixes} {rt : RegNo} {mode : MemMode} : BodyShaped (ldBody c p rt mode) :=
  fun _ _ hfin h => h.load.andThen fun h =>
    .ok (h.setCore ((hfin _ _).trans ((Core.length_setReg _ _ _).trans ((Core.length_baseStep _ _ _).trans (h.core_w c)))))
theorem stBody_shaped {c : CoreId} {p : Prefixes} {rt : RegNo} {mode : MemMode} : BodyShaped (stBody c p rt mode) :=
  fun _ _ hfin h => h.store fun _ => (hfin _ _).trans (Core.length_baseStep _ _ _)
theorem Shaped.execLd {c : CoreId} {p : Prefixes} {rt : RegNo} {mode : MemMode} (h : Shaped s) : OutShaped (execLd c p rt mode s) :=
  h.instr ldBody_shaped
theorem Shaped.execSt {c : CoreId} {p : Prefixes} {rt : RegNo} {mode : MemMode} (h : Shaped s) : OutShaped (execSt c p rt mode s) :=
  h.instr stBody_shaped
theorem Shaped.execLea {c : CoreId} {p : Prefixes} {rt rb : RegNo} {d : BitVec 16} (h : Shaped s) : OutShaped (execLea c p rt rb d s) :=
  h.instr (coreBody_shaped fun _ => Core.length_setReg _ _ _)
theorem Shaped.execPush {c : CoreId} {p : Prefixes} {rs : RegNo} (h : Shaped s) : OutShaped (execPush c p rs s) :=
  h.instr stBody_shaped
theorem Shaped.execPop {c : CoreId} {p : Prefixes} {rd : RegNo} (h : Shaped s) : OutShaped (execPop c p rd s) :=
  h.instr ldBody_shaped
theorem Core.length_stepPtr (x : Core) (r : RegNo) (n : Nat) : (x.stepPtr r n).w.length = x.w.length := Core.length_setReg _ _ _
theorem Core.length_stepPtrs (x : Core) (q r : RegNo) (n : Nat) : ((x.stepPtr q n).stepPtr r n).w.length = x.w.length :=
  (Core.length_stepPtr _ _ _).trans (Core.length_stepPtr _ _ _)
theorem cpyBody_shaped {c : CoreId} {p : Prefixes} : BodyShaped (cpyBody c p) :=
  fun _ _ hfin h => h.load.andThen fun h => h.store fun _ => (hfin _ _).trans (Core.length_stepPtrs _ _ _ _)
theorem fillBody_shaped {c : CoreId} {p : Prefixes} : BodyShaped (fillBody c p) :=
  fun _ _ hfin h => h.store fun _ => (hfin _ _).trans (Core.length_stepPtr _ _ _)
theorem scanBody_shaped {c : CoreId} {p : Prefixes} : BodyShaped (scanBody c p) :=
  fun _ _ hfin h => h.load.andThen fun h =>
    .ok (h.setCore ((hfin _ _).trans ((Core.length_stepPtr _ _ _).trans ((Core.length_putFlags _ _).trans (h.core_w c)))))
theorem macmBody_shaped {c : CoreId} {sg : Bool} {p : Prefixes} : BodyShaped (macmBody c sg p) :=
  fun _ _ hfin h => h.load.andThen fun h => h.load.andThen fun h =>
    .ok (h.setCore ((hfin _ _).trans ((Core.length_stepPtrs _ _ _ _).trans (h.core_w c))))
theorem Shaped.execCpy {c : CoreId} {p : Prefixes} (h : Shaped s) : OutShaped (execCpy c p s) := h.instr cpyBody_shaped
theorem Shaped.execFill {c : CoreId} {p : Prefixes} (h : Shaped s) : OutShaped (execFill c p s) := h.instr fillBody_shaped
theorem Shaped.execScan {c : CoreId} {p : Prefixes} (h : Shaped s) : OutShaped (execScan c p s) := h.instr scanBody_shaped
theorem Shaped.execMacsm {c : CoreId} {p : Prefixes} (h : Shaped s) : OutShaped (execMacsm c p s) := h.instr macmBody_shaped
theorem Shaped.execMacum {c : CoreId} {p : Prefixes} (h : Shaped s) : OutShaped (execMacum c p s) := h.instr macmBody_shaped
theorem branchBody_shaped {c : CoreId} {next : Core → Word} {f : Word → Core → Word × Core}
    (hf : ∀ n x, (f n x).2.w.length = x.w.length) : BodyShaped (branchBody c next f) :=
  fun _ _ hfin h => .ok (h.setCore ((hfin _ _).trans ((hf _ _).trans (h.core_w c))))
theorem Shaped.branch {c : CoreId} {p : Prefixes} {op imm : Nat} {f : Word → Core → Word × Core} (h : Shaped s)
    (hf : ∀ n x, (f n x).2.w.length = x.w.length := by intros; rfl) : OutShaped (s.branch c p op imm f) :=
  h.instr (branchBody_shaped hf)
theorem Shaped.execBr {c : CoreId} {p : Prefixes} {d : Disp} (h : Shaped s) : OutShaped (execBr c p d s) := by
  unfold Machine.execBr
  split
  · exact h.branch
  · exact h.branch
  · exact h.instr illegalBody_shaped
theorem Shaped.execCall {c : CoreId} {p : Prefixes} {d : Disp} (h : Shaped s) : OutShaped (execCall c p d s) := by
  unfold Machine.execCall
  split
  · exact h.instr illegalBody_shaped
  · exact h.branch fun _ _ => Core.length_setReg _ _ _
  · exact h.branch fun _ _ => Core.length_setReg _ _ _
theorem Shaped.execJmp {c : CoreId} {p : Prefixes} {rs : RegNo} (h : Shaped s) : OutShaped (execJmp c p rs s) := h.branch
theorem Shaped.execCallr {c : CoreId} {p : Prefixes} {rs : RegNo} (h : Shaped s) : OutShaped (execCallr c p rs s) :=
  h.branch fun _ _ => Core.length_setReg _ _ _
theorem Shaped.execRet {c : CoreId} {p : Prefixes} (h : Shaped s) : OutShaped (execRet c p s) := h.branch
theorem Shaped.execDbnz {c : CoreId} {p : Prefixes} {rd : RegNo} {d : Byte} (h : Shaped s) : OutShaped (execDbnz c p rd d s) :=
  h.branch fun _ _ => Core.length_setReg _ _ _
theorem Shaped.execNop {c : CoreId} {p : Prefixes} (h : Shaped s) : OutShaped (execNop c p s) := h.instr (coreBody_shaped fun _ => rfl)
theorem Shaped.execSync {c : CoreId} {p : Prefixes} (h : Shaped s) : OutShaped (execSync c p s) := h.instr (coreBody_shaped fun _ => rfl)
theorem waitBody_shaped {c : CoreId} : BodyShaped (waitBody c) := fun _ _ hfin h => by
  have ht := h.setCore (c := c) ((hfin none _).trans (h.core_w c))
  unfold Machine.waitBody
  dsimp only
  split
  · exact .ok ht.waitRequest.withCoreA
  · exact .ok ht.withCoreG
theorem Shaped.execWait {c : CoreId} {p : Prefixes} (h : Shaped s) : OutShaped (execWait c p s) := h.instr waitBody_shaped
theorem svcBody_shaped {c : CoreId} : BodyShaped (svcBody c) := fun _ _ hfin h => by
  unfold Machine.svcBody
  split
  · next e => exact .ok ((h.setCore ((hfin _ _).trans (h.core_w c))).enter.ofSome e)
  · exact .stall
theorem Shaped.execSvc {c : CoreId} {p : Prefixes} {x : Byte} (h : Shaped s) : OutShaped (execSvc c p x s) := h.instr svcBody_shaped
theorem retiBody_shaped {c : CoreId} : BodyShaped (retiBody c) :=
  fun _ _ _ h => h.load.andThen fun h => h.load.andThen fun h => h.load.andThen fun h => h.load.andThen fun h =>
    .ite (.fault h) (.ok (.lineLeft (.setCore h (by exact h.core_w c))))
theorem Shaped.execReti {c : CoreId} {p : Prefixes} (h : Shaped s) : OutShaped (execReti c p s) := h.instr retiBody_shaped

/-! ## The operations of Machine/Hsp.lean -/

theorem Shaped.hspBegin {byte : Nat} {f : State → State} (h : Shaped s) (hf : ∀ {t}, Shaped t → Shaped (f t)) :
    OutShaped (s.hspBegin byte f) :=
  .ite h.maintCode (.ite (.next h) (.next (.ite (hf (h.setHsp.unless fun h => h.wakeEvent).finc) (h.setHsp.unless fun h => h.wakeEvent))))
theorem Shaped.hspSticky {f : Fld} {bit : Nat} (h : Shaped s) : Shaped (s.hspSticky f bit) := h.fset.raise
theorem Shaped.hspError {a : Nat} {wr : Bool} {cause : Nat} (h : Shaped s) : Shaped (s.hspError a wr cause) := h.hspSticky.finc.rsetN
theorem Shaped.hspJudged {a : Nat} {wr : Bool} {x : Verdict} (h : Shaped s) : Shaped (s.hspJudged a wr x) := by
  unfold State.hspJudged
  split
  · exact h
  · exact h.hspError
  · exact h.hspError
theorem Shaped.hspRead1 {a : Nat} (h : Shaped s) : Shaped (s.hspRead1 a).1 := h.busRead.hspJudged
theorem Shaped.hspWrite1 {a : Nat} {w : Word} (h : Shaped s) : Shaped (s.hspWrite1 a w) := (h.busWrite (fun h => h.pageHook)).hspJudged
theorem Shaped.hspFlush (h : Shaped s) : Shaped s.hspFlush := h.setHsp.foldl fun h => .ite h.hspWrite1 h
theorem Shaped.hspLate {a : Nat} (h : Shaped s) : Shaped (s.hspLate a) := (Shaped.iteFst h.freeStep h.hspRead1).hspSticky.finc.rset.rsetN
theorem Shaped.hspSend {w : Word} (h : Shaped s) : Shaped (s.hspSend w) := h.setHsp
theorem Shaped.hspReads {i : Nat} {lateAt : Option Nat} {n : Nat} (h : Shaped s) : Shaped (s.hspReads i lateAt n) := by
  induction n generalizing s i lateAt with
  | zero => exact h
  | succ n ih =>
    unfold State.hspReads
    dsimp only
    split
    · exact (h.when fun h => h.fset).hspLate.setHsp
    · exact ih (h.when fun h => h.fset).hspRead1.hspSend
theorem Shaped.execHspRead {idx : BitVec 6} {n : Nat} {lateAt : Option Nat} (h : Shaped s) : OutShaped (execHspRead idx n lateAt s) :=
  h.hspBegin (fun h => .ite h.hspFlush.hspReads h.setHsp)
theorem Shaped.hspPost {a : Nat} {w : Word} {pend : Bool} (h : Shaped s) : Shaped (s.hspPost a w pend) :=
  .ite h (.ite h.hspWrite1 (.ite h.setHsp h.hspSticky))
theorem Shaped.hspWrites {i : Nat} {pendFrom : Option Nat} {l : List Word} (h : Shaped s) : Shaped (s.hspWrites i pendFrom l) := by
  induction l generalizing s i pendFrom with
  | nil => exact h
  | cons w l ih =>
    unfold State.hspWrites
    exact .ite h.fset (ih h.hspPost)
theorem Shaped.execHspWrite {idx : BitVec 6} {ws : List Word} {pendFrom : Option Nat} {partialWord : Bool} (h : Shaped s) :
    OutShaped (execHspWrite idx ws pendFrom partialWord s) :=
  h.hspBegin (fun h => .ite (h.hspWrites.when fun h => h.hspSticky) h)
theorem Shaped.execPostedWriteDone (h : Shaped s) : OutShaped (execPostedWriteDone s) := by
  unfold Machine.execPostedWriteDone
  split
  · exact .next h
  · exact .next (.ite h.setHsp.hspWrite1 h)
theorem Shaped.execHspWindow {b0 b1 : Byte} (h : Shaped s) : OutShaped (execHspWindow b0 b1 s) :=
  h.hspBegin (fun h => .ite h (.ite h.fset h.setHsp))
theorem Shaped.execExtNop {x x1 : BitVec 4} (h : Shaped s) : OutShaped (execExtNop x x1 s) := h.hspBegin (fun h => h)
theorem Shaped.execExtStatus {arg : BitVec 4} (h : Shaped s) : OutShaped (execExtStatus arg s) :=
  h.hspBegin (fun h => h.setHsp.when fun h => h.foldl fun h1 => h1.fset)
theorem Shaped.execPresenceQuery {x : BitVec 4} (h : Shaped s) : OutShaped (execPresenceQuery x s) := h.hspBegin (fun h => h.setHsp)
theorem Shaped.execPrivCmd {code : BitVec 4} {conf : Option Byte} (h : Shaped s) : OutShaped (execPrivCmd code conf s) :=
  h.hspBegin (fun h => h.setHsp)
theorem Shaped.execLaneSet {arg : BitVec 4} (h : Shaped s) : OutShaped (execLaneSet arg s) := h.hspBegin (fun h => .ite h.setHsp h)
theorem Shaped.privEffect {code : Nat} (h : Shaped s) : Shaped (s.privEffect code) := by
  unfold State.privEffect
  split
  · exact h.setSys
  · exact h.fset
  · exact h.zeroise.sysReset
  · exact h.setHsp
  · exact h
theorem Shaped.privRun {p : PrivCmd} (h : Shaped s) : Shaped (s.privRun p) := h.setHsp.rsetN.raise.audit.when fun h => h.privEffect
theorem Shaped.hspRoute (h : Shaped s) : Shaped s.hspRoute := h.setHsp
theorem Shaped.hspApply (h : Shaped s) : Shaped s.hspApply := by
  unfold State.hspApply
  dsimp only
  refine .when ?_ fun h => h.srstPage.setHsp.hspStraps
  split
  · refine .fsetB ?_
    split
    · refine .rsetN ?_
      split
      · exact h.setHsp.rset
      · exact h.setHsp
    · split
      · exact h.setHsp.rset
      · exact h.setHsp
  · split
    · refine .rsetN ?_
      split
      · exact h.setHsp.rset
      · exact h.setHsp
    · split
      · exact h.setHsp.rset
      · exact h.setHsp
theorem Shaped.hspDeassert (h : Shaped s) : Shaped s.hspDeassert := by
  unfold State.hspDeassert
  extract_lets t u v w
  have hu : Shaped u := by
    unfold u
    split
    · exact h.setHsp.sampleStraps
    · exact h.setHsp
  have hw : Shaped w := by
    unfold w
    split
    · exact hu.hspApply.privRun
    · exact hu.hspApply
  exact .ite hu hw.hspRoute
theorem Shaped.execHspCsDeassert (h : Shaped s) : OutShaped (execHspCsDeassert s) := .next h.hspDeassert
theorem Shaped.privTransaction {code : Nat} (h : Shaped s) : Shaped (s.privTransaction code) := by
  unfold State.privTransaction
  split
  · exact .ite h.hspDeassert h
  · exact .ite h.finc.privRun.hspRoute h
theorem Shaped.execDebugUnlock (h : Shaped s) : OutShaped (execDebugUnlock s) := .next h.privTransaction
theorem Shaped.execOwnerLockRelease (h : Shaped s) : OutShaped (execOwnerLockRelease s) := .next h.privTransaction
theorem Shaped.execFactoryDefaults {straps : BitVec 5} (h : Shaped s) : OutShaped (execFactoryDefaults straps s) :=
  .next (h.privTransaction.unless fun h => h.releaseBoot)
theorem Shaped.execGladeMaintenance (h : Shaped s) : OutShaped (execGladeMaintenance s) := .next h.privTransaction
theorem Shaped.execBoundaryScan {i : ScanInstr} (h : Shaped s) : OutShaped (execBoundaryScan i s) := .next h.setSys
theorem Shaped.dbgReturn {x : State × Reach} (h : Shaped s) (hx : Shaped x.1) : Shaped (s.dbgReturn x) := by
  obtain ⟨t, r⟩ := x
  cases r with
  | stall => exact h
  | ok v => exact hx.withBus
  | _ => exact hx.withBus
theorem Shaped.execDebugAccess {addr : Word} {size : AccSize} {w : Option Word} (h : Shaped s) :
    OutShaped (execDebugAccess addr size w s) := by
  refine .next (.dbgReturn h ?_)
  split
  · exact h
  · split
    · refine .iteFst h ?_
      split
      · exact h.privRead
      · exact h.privWrite
    · split
      · exact h.busLoad
      · exact h.busStore

/-! ## The operations of Machine/Dispatch.lean -/

theorem Shaped.exec {i : Instr} (h : Shaped s) : OutShaped (exec i s) := by
  cases i with
  | slotTick => exact h.execSlotTick
  | tailrace => exact h.execTailrace
  | squashDone => exact h.execSquashDone
  | phaseCheckpoint => exact h.execPhaseCheckpoint
  | lockstepFault => exact h.execLockstepFault
  | replayEnd => exact h.execReplayEnd
  | frcVote => exact h.execFrcVote
  | appSilent => exact h.execAppSilent
  | sysStateReq => exact h.execSysStateReq
  | powerOnReset => exact h.execPowerOnReset
  | brownOutReset => exact h.execBrownOutReset
  | pinReset => exact h.execPinReset
  | sysCmdSystemReset => exact h.execSysCmdSystemReset
  | sysCmdCoreReset => exact h.execSysCmdCoreReset
  | watchdogExpiry => exact h.execWatchdogExpiry
  | wdtWarn => exact h.execWdtWarn
  | wdtKick => exact h.execWdtKick
  | hfxoLoss => exact h.execHfxoLoss
  | lfxoLoss => exact h.execLfxoLoss
  | vddLoss => exact h.execVddLoss
  | registerWrite => exact h.execRegisterWrite
  | softReset => exact h.execSoftReset
  | ownWrite => exact h.execOwnWrite
  | olockSet => exact h.execOlockSet
  | protAudIdxWrite => exact h.execProtAudIdxWrite
  | latchPairLowRead => exact h.execLatchPairLowRead
  | latchPairLowWrite => exact h.execLatchPairLowWrite
  | latchPairHighWrite => exact h.execLatchPairHighWrite
  | presenceNFilteredChange => exact h.execPresenceNFilteredChange
  | tokenGain => exact h.execTokenGain
  | tokenLapse => exact h.execTokenLapse
  | ovlLoad => exact h.execOvlLoad
  | loadDone => exact h.execLoadDone
  | applyBase => exact h.execApplyBase
  | ovlCancel => exact h.execOvlCancel
  | ovlReqGo => exact h.execOvlReqGo
  | lockSample => exact h.execLockSample
  | lossOfLock => exact h.execLossOfLock
  | rfeManWrite => exact h.execRfeManWrite
  | rfeSynManWrite => exact h.execRfeSynManWrite
  | rfeDisable => exact h.execRfeDisable
  | narrowAgcStep => exact h.execNarrowAgcStep
  | clipInterval => exact h.execClipInterval
  | rfeCalReq => exact h.execRfeCalReq
  | clearingWorkStart => exact h.execClearingWorkStart
  | calDone => exact h.execCalDone
  | calTimeout => exact h.execCalTimeout
  | tempUpdate => exact h.execTempUpdate
  | cnpEnWrite => exact h.execCnpEnWrite
  | laneArm => exact h.execLaneArm
  | searchEnd => exact h.execSearchEnd
  | preambleDetect => exact h.execPreambleDetect
  | sfdMatch => exact h.execSfdMatch
  | sfdTimeout => exact h.execSfdTimeout
  | phrParsed => exact h.execPhrParsed
  | lastBitDecoded => exact h.execLastBitDecoded
  | frameChecks => exact h.execFrameChecks
  | thresholdBlock => exact h.execThresholdBlock
  | ldpcDecodeDone => exact h.execLdpcDecodeDone
  | ackDecision => exact h.execAckDecision
  | canopyWindowReturn => exact h.execCanopyWindowReturn
  | laneDisable => exact h.execLaneDisable
  | fecDisable => exact h.execFecDisable
  | rampUp => exact h.execRampUp
  | launch => exact h.execLaunch
  | tagComplete => exact h.execTagComplete
  | splicePoint => exact h.execSplicePoint
  | frameEnd => exact h.execFrameEnd
  | rampDownEnd => exact h.execRampDownEnd
  | txmDisable => exact h.execTxmDisable
  | liveEccError => exact h.execLiveEccError
  | ackLaunch => exact h.execAckLaunch
  | mchkReq => exact h.execMchkReq
  | mchkDone => exact h.execMchkDone
  | txmTestWrite => exact h.execTxmTestWrite
  | txmFirDataAccess => exact h.execTxmFirDataAccess
  | cadEnable => exact h.execCadEnable
  | cadDisable => exact h.execCadDisable
  | cadTblchg => exact h.execCadTblchg
  | nbrChg => exact h.execNbrChg
  | cadHopDataAccess => exact h.execCadHopDataAccess
  | cadApphb => exact h.execCadApphb
  | cadLsInj => exact h.execCadLsInj
  | ackWindowOpen => exact h.execAckWindowOpen
  | ackWindowClose => exact h.execAckWindowClose
  | ackReceived => exact h.execAckReceived
  | preparationStart => exact h.execPreparationStart
  | preparationDone => exact h.execPreparationDone
  | ticketLock => exact h.execTicketLock
  | hdrCtrlWrite => exact h.execHdrCtrlWrite
  | hdrCfgWrite => exact h.execHdrCfgWrite
  | hdrTktIdxWrite => exact h.execHdrTktIdxWrite
  | trfAlloc => exact h.execTrfAlloc
  | trfFree => exact h.execTrfFree
  | trfEnq => exact h.execTrfEnq
  | trfDonePop => exact h.execTrfDonePop
  | trfRxqPop => exact h.execTrfRxqPop
  | removeHead => exact h.execRemoveHead
  | flush => exact h.execFlush
  | trfHistIdxWrite => exact h.execTrfHistIdxWrite
  | sluiceConfigWrite => exact h.execSluiceConfigWrite
  | subWindowAdvance => exact h.execSubWindowAdvance
  | dcaEnable => exact h.execDcaEnable
  | ntuStep => exact h.execNtuStep
  | ntuCancel => exact h.execNtuCancel
  | syncClr => exact h.execSyncClr
  | syncSet => exact h.execSyncSet
  | ntuFwcorr => exact h.execNtuFwcorr
  | externalCapture => exact h.execExternalCapture
  | reAnchor => exact h.execReAnchor
  | ntuRateWrite => exact h.execNtuRateWrite
  | holdover => exact h.execHoldover
  | syncLost => exact h.execSyncLost
  | lfcalWindow => exact h.execLfcalWindow
  | wakeHandoff => exact h.execWakeHandoff
  | ntuEpochWrite => exact h.execNtuEpochWrite
  | pulseStart => exact h.execPulseStart
  | pulseEnd => exact h.execPulseEnd
  | ntuPulWrite => exact h.execNtuPulWrite
  | gcoreMbsrc => exact h.execGcoreMbsrc
  | mbCopyDone => exact h.execMbCopyDone
  | mailboxWord0Read => exact h.execMailboxWord0Read
  | gpcEdge => exact h.execGpcEdge
  | gpcCapture => exact h.execGpcCapture
  | gpcCapRead => exact h.execGpcCapRead
  | gsecIncrement => exact h.execGsecIncrement
  | sealCheck => exact h.execSealCheck
  | gladeTokenChange => exact h.execGladeTokenChange
  | grantChange => exact h.execGrantChange
  | gladePowerOnReset => exact h.execGladePowerOnReset
  | gladeWatchdogExpiry => exact h.execGladeWatchdogExpiry
  | gladeWdtWarning => exact h.execGladeWdtWarning
  | gladeWdtKick => exact h.execGladeWdtKick
  | gladeWdtEnable => exact h.execGladeWdtEnable
  | gladeSelfReset => exact h.execGladeSelfReset
  | gladeBootDone => exact h.execGladeBootDone
  | glogAppend => exact h.execGlogAppend
  | glogWriteDone => exact h.execGlogWriteDone
  | gadcStart => exact h.execGadcStart
  | gadcResult => exact h.execGadcResult
  | gdspFrame => exact h.execGdspFrame
  | gdspFrameDone => exact h.execGdspFrameDone
  | maintStatus => exact h.execMaintStatus
  | maintErase => exact h.execMaintErase
  | maintProg => exact h.execMaintProg
  | maintRead => exact h.execMaintRead
  | maintCommit => exact h.execMaintCommit
  | maintExit => exact h.execMaintExit
  | maintOpDone => exact h.execMaintOpDone
  | maintTimeout => exact h.execMaintTimeout
  | nop => exact h.execNop
  | sync => exact h.execSync
  | wait => exact h.execWait
  | reti => exact h.execReti
  | svc _ _ n => exact h.execSvc (x := n)
  | ret => exact h.execRet
  | mov => exact h.execMov
  | add => exact h.execAdd
  | adc => exact h.execAdc
  | sub => exact h.execSub
  | sbc => exact h.execSbc
  | and => exact h.execAnd
  | or => exact h.execOr
  | xor => exact h.execXor
  | cmp => exact h.execCmp
  | tst => exact h.execTst
  | shl => exact h.execShl
  | shr => exact h.execShr
  | sar => exact h.execSar
  | ror => exact h.execRor
  | neg => exact h.execNeg
  | not => exact h.execNot
  | muls => exact h.execMuls
  | mulu => exact h.execMulu
  | macs => exact h.execMacs
  | macu => exact h.execMacu
  | mul32s => exact h.execMul32s
  | mul32u => exact h.execMul32u
  | clracc => exact h.execClracc
  | multiplyLands => exact h.execMultiplyLands
  | movsFromSpecial => exact h.execMovsFromSpecial
  | movsToSpecial => exact h.execMovsToSpecial
  | ld => exact h.execLd
  | lea => exact h.execLea
  | st => exact h.execSt
  | push => exact h.execPush
  | pop => exact h.execPop
  | cpy => exact h.execCpy
  | fill => exact h.execFill
  | scan => exact h.execScan
  | macsm => exact h.execMacsm
  | macum => exact h.execMacum
  | br => exact h.execBr
  | call => exact h.execCall
  | jmp => exact h.execJmp
  | callr => exact h.execCallr
  | dbnz => exact h.execDbnz
  | bset => exact h.execBset
  | bclr => exact h.execBclr
  | btst => exact h.execBtst
  | clz => exact h.execClz
  | illegalEncoding => exact h.execIllegalEncoding
  | fetchBusError => exact h.execFetchBusError
  | exceptionEntry => exact h.execExceptionEntry
  | cacheInv => exact h.execCacheInv
  | icacheInvalidateAll => exact h.execIcacheInvalidateAll
  | dcacheInvalidateAll => exact h.execDcacheInvalidateAll
  | invalidationDone => exact h.execInvalidationDone
  | dbgHalt => exact h.execDbgHalt
  | dbgResume => exact h.execDbgResume
  | dbgStep => exact h.execDbgStep
  | dbgRegDataAccess => exact h.execDbgRegDataAccess
  | breakpointMatch => exact h.execBreakpointMatch
  | flcKeyWrite => exact h.execFlcKeyWrite
  | prog => exact h.execProg
  | eraseBlk => exact h.execEraseBlk
  | suspend => exact h.execSuspend
  | eraseSuspended => exact h.execEraseSuspended
  | flcResume => exact h.execFlcResume
  | setSlc => exact h.execSetSlc
  | marginRd => exact h.execMarginRd
  | clrStat => exact h.execClrStat
  | flashOpDone => exact h.execFlashOpDone
  | flcWpWrite => exact h.execFlcWpWrite
  | flcDisable => exact h.execFlcDisable
  | dmaChannelEnable => exact h.execDmaChannelEnable
  | dmaDisable => exact h.execDmaDisable
  | dmaRequest => exact h.execDmaRequest
  | dmaBeat => exact h.execDmaBeat
  | bankClearDone => exact h.execBankClearDone
  | sysSramUseWrite => exact h.execSysSramUseWrite
  | ciphKeyIdxWrite => exact h.execCiphKeyIdxWrite
  | keyCommit => exact h.execKeyCommit
  | keyAttr => exact h.execKeyAttr
  | keyFc => exact h.execKeyFc
  | keyErase => exact h.execKeyErase
  | zeroise => exact h.execZeroise
  | cipuStart => exact h.execCipuStart
  | cipuAbort => exact h.execCipuAbort
  | takeFc => exact h.execTakeFc
  | cipuDinWrite => exact h.execCipuDinWrite
  | cipuDoutRead => exact h.execCipuDoutRead
  | cipuJobDone => exact h.execCipuJobDone
  | updStart => exact h.execUpdStart
  | loadTestDone => exact h.execLoadTestDone
  | firstPassDone => exact h.execFirstPassDone
  | segmentDone => exact h.execSegmentDone
  | imageHashDone => exact h.execImageHashDone
  | updPause => exact h.execUpdPause
  | updResume => exact h.execUpdResume
  | activate => exact h.execActivate
  | activateDone => exact h.execActivateDone
  | accept => exact h.execAccept
  | updAbort => exact h.execUpdAbort
  | updDisable => exact h.execUpdDisable
  | tmrTick => exact h.execTmrTick
  | compareFiring => exact h.execCompareFiring
  | tmrCountWrite => exact h.execTmrCountWrite
  | tmrReloadWrite => exact h.execTmrReloadWrite
  | tmrCmpWrite => exact h.execTmrCmpWrite
  | tmrEnable => exact h.execTmrEnable
  | tmrDisable => exact h.execTmrDisable
  | tmrCapture => exact h.execTmrCapture
  | tmrCapRead => exact h.execTmrCapRead
  | tmrStartEvent => exact h.execTmrStartEvent
  | tmrResetEvent => exact h.execTmrResetEvent
  | rtcSecond => exact h.execRtcSecond
  | rtcSet => exact h.execRtcSet
  | rtcSetLoad => exact h.execRtcSetLoad
  | rtcCalCorrection => exact h.execRtcCalCorrection
  | rtcShadowRead => exact h.execRtcShadowRead
  | shadowTimeout => exact h.execShadowTimeout
  | rtcUnlock => exact h.execRtcUnlock
  | vddStable => exact h.execVddStable
  | rtcAlarmWrite => exact h.execRtcAlarmWrite
  | backupSwitch => exact h.execBackupSwitch
  | backupRetentionLoss => exact h.execBackupRetentionLoss
  | entryAbort => exact h.execEntryAbort
  | excursionStart => exact h.execExcursionStart
  | wake => exact h.execWake
  | bodWarn => exact h.execBodWarn
  | avsUpdate => exact h.execAvsUpdate
  | avsClkReq => exact h.execAvsClkReq
  | clkTrimWrite => exact h.execClkTrimWrite
  | hfxoStable => exact h.execHfxoStable
  | syspllLock => exact h.execSyspllLock
  | producerEvent => exact h.execProducerEvent
  | culSwtrig => exact h.execCulSwtrig
  | culChenWrite => exact h.execCulChenWrite
  | routingFault => exact h.execRoutingFault
  | culExit => exact h.execCulExit
  | hspRead => exact h.execHspRead
  | hspWrite => exact h.execHspWrite
  | hspWindow => exact h.execHspWindow
  | extNop x y => exact h.execExtNop (x := x) (x1 := y)
  | extStatus => exact h.execExtStatus
  | presenceQuery x => exact h.execPresenceQuery (x := x)
  | privCmd => exact h.execPrivCmd
  | laneSet => exact h.execLaneSet
  | hspCsDeassert => exact h.execHspCsDeassert
  | debugUnlock => exact h.execDebugUnlock
  | ownerLockRelease => exact h.execOwnerLockRelease
  | factoryDefaults => exact h.execFactoryDefaults
  | gladeMaintenance => exact h.execGladeMaintenance
  | postedWriteDone => exact h.execPostedWriteDone
  | pspGo => exact h.execPspGo
  | pspStop => exact h.execPspStop
  | pspTxdWrite => exact h.execPspTxdWrite
  | pspRxdRead => exact h.execPspRxdRead
  | pspPause => exact h.execPspPause
  | pspFifoResume => exact h.execPspFifoResume
  | pspTransferEnd => exact h.execPspTransferEnd
  | tstBistReq => exact h.execTstBistReq
  | bistBankDone => exact h.execBistBankDone
  | lbist => exact h.execLbist
  | rramBist => exact h.execRramBist
  | selfTestDone => exact h.execSelfTestDone
  | tstCapReq => exact h.execTstCapReq
  | captureDone => exact h.execCaptureDone
  | gpioEvent => exact h.execGpioEvent
  | adcStart => exact h.execAdcStart
  | adcResult => exact h.execAdcResult
  | adcResRead => exact h.execAdcResRead
  | headEnd => exact h.execHeadEnd
  | ldpcCodewordReceived => exact h.execLdpcCodewordReceived
  | ackBuildDone => exact h.execAckBuildDone
  | slewEnd => exact h.execSlewEnd
  | lfxoEdgesReturn => exact h.execLfxoEdgesReturn
  | rtcLockout => exact h.execRtcLockout
  | bodWarnClear => exact h.execBodWarnClear
  | resetRelease => exact h.execResetRelease
  | boundaryScan => exact h.execBoundaryScan
  | debugAccess => exact h.execDebugAccess

/-! ## The step -/

theorem OutShaped.ofNext {o : Host.Outcome State Fault Refusal} {t : State} (ho : OutShaped o) (e : o = .next t) : Shaped t := by
  subst e; cases ho; assumption

/-- A command taken from the queue keeps the counts. -/
theorem exec_front_shaped {c : Instr} {l : List Instr} {t : State} (h : Shaped s) (e : exec c { s with pending := l } = .next t) : Shaped t :=
  (Shaped.exec (s := { s with pending := l }) h).ofNext e

/-- Settles O7: the counts stand at reset, and a step is idle or a command, which keeps them. -/
theorem shapeKept : Obligations.ShapeKept := by
  refine ⟨⟨rfl, rfl, rfl, rfl, rfl, rfl, rfl, rfl, rfl, rfl, rfl, rfl⟩, fun s t h e => ?_⟩
  unfold step at e
  split at e
  · cases e
    exact h
  · exact (exec_front_shaped (shaped_iff.2 h) e).shape

end Sys2Proof.Machine
end

section
/-!
THE STATES OF A LANE (O24). What a lane's work may change is said once (`LanesOnly`), and so is what a register or a lane reads after each
operation of a lane; arming, detection, the SFD and the ends of a search are read from these (R111 to R116).
-/
namespace Sys2Proof.Machine
open Sys2Proof

/-! ## Reading a lane -/

theorem lane_of_lanes {s t : State} (h : t.lanes = s.lanes) (n : Nat) : t.lane n = s.lane n := by
  unfold State.lane
  rw [h]
theorem lane_setLane_self (s : State) {n : Nat} (l : Lane) (h : n < s.lanes.length) : (s.setLane n l).lane n = l := by
  unfold State.lane State.setLane
  rw [getElem?_setAt, if_pos ⟨rfl, h⟩, Option.getD_some]
theorem lane_setLane_ne (s : State) {n k : Nat} (l : Lane) (h : k ≠ n) : (s.setLane n l).lane k = s.lane k := by
  unfold State.lane State.setLane
  rw [getElem?_setAt, if_neg fun hk => h hk.1]

/-- The registers of the lanes come after those of the radio's other blocks but FEC. -/
theorem laneReg_ne {n o a : Nat} (h : a < 0x40009000) : 0x40009000 + o + 0x1000 * n ≠ a := by omega

theorem laneSt_laneTo (s : State) (n : Nat) {st : Nat} (h : st < 8) : (s.laneTo n st).laneSt n = st :=
  (fget_fset_self s (LANE_STAT.STATE n) st (by show 2 + 3 ≤ 32; decide)).trans (Nat.mod_eq_of_lt h)
theorem laneSt_of_rget {s t : State} {n : Nat} (h : t.rget (LANE_STAT.addr n) = s.rget (LANE_STAT.addr n)) : t.laneSt n = s.laneSt n :=
  fget_of_rget (LANE_STAT.STATE n) h

theorem fget_fadd (s : State) (f : Fld) (k : Nat) (hf : f.lo + f.width ≤ 32) :
    (s.fadd f k).fget f = min (2 ^ f.width - 1) (s.fget f + k) := by
  have := Nat.two_pow_pos f.width
  exact (fget_fset_self s f _ hf).trans (Nat.mod_eq_of_lt (by omega))

section
variable (s : State) (t : Frc) (n : Nat)

@[simp] theorem lane_advance : (s.advance t).lane n = s.lane n := lane_of_lanes (by simp) n
@[simp] theorem laneSt_advance : (s.advance t).laneSt n = s.laneSt n := fget_advance s t _
@[simp] theorem branches_advance : (s.advance t).branches n = s.branches n := by simp [State.branches]
@[simp] theorem pdField_advance (f : Nat → Fld) : (s.advance t).pdField n f = s.pdField n f := by simp [State.pdField]
@[simp] theorem pdLen_advance : (s.advance t).pdLen n = s.pdLen n := by simp [State.pdLen]
@[simp] theorem laneMode_advance : (s.advance t).laneMode n = s.laneMode n := by simp [State.laneMode]
@[simp] theorem laneWords_advance : (s.advance t).laneWords n = s.laneWords n := by simp [State.laneWords]
@[simp] theorem sfdLimit_advance : (s.advance t).sfdLimit n = s.sfdLimit n := by simp [State.sfdLimit]
@[simp] theorem sfdInTime_advance (ts m : Nat) (b : Bool) : (s.advance t).sfdInTime n ts m b = s.sfdInTime n ts m b := by
  simp [State.sfdInTime]

end

/-! ## What a lane's work leaves alone -/

/-- `t` is `s` after work of lanes: registers, the lanes, the front end's window, the LDPC pool and the cells of frames have changed; the
receive queue stands. -/
structure LanesOnly (s t : State) : Prop where
  eq : t = { s with regs := t.regs, lanes := t.lanes, trf := t.trf, fec := t.fec, rfe := t.rfe }
  rxq : t.trf.rxq = s.trf.rxq

section
variable {s t : State}

theorem LanesOnly.refl (s : State) : LanesOnly s s := ⟨rfl, rfl⟩
theorem LanesOnly.mem (h : LanesOnly s t) : t.mem = s.mem := by rw [h.eq]
theorem LanesOnly.keys (h : LanesOnly s t) : t.keys = s.keys := by rw [h.eq]
theorem LanesOnly.slot (h : LanesOnly s t) : t.slot = s.slot := by rw [h.eq]
theorem LanesOnly.txm (h : LanesOnly s t) : t.txm = s.txm := by rw [h.eq]
theorem LanesOnly.fset {f : Fld} {x : Nat} (h : LanesOnly s t) : LanesOnly s (t.fset f x) := ⟨congrArg (·.fset f x) h.eq, h.rxq⟩
theorem LanesOnly.finc {f : Fld} (h : LanesOnly s t) : LanesOnly s (t.finc f) := h.fset
theorem LanesOnly.raise {p b : Nat} (h : LanesOnly s t) : LanesOnly s (t.raise p b) := h.fset
theorem LanesOnly.withLanes {l : List Lane} (h : LanesOnly s t) : LanesOnly s { t with lanes := l } :=
  ⟨congrArg (fun u : State => { u with lanes := l }) h.eq, h.rxq⟩
theorem LanesOnly.withFec {x : FecState} (h : LanesOnly s t) : LanesOnly s { t with fec := x } :=
  ⟨congrArg (fun u : State => { u with fec := x }) h.eq, h.rxq⟩
theorem LanesOnly.withRfe {x : RfeState} (h : LanesOnly s t) : LanesOnly s { t with rfe := x } :=
  ⟨congrArg (fun u : State => { u with rfe := x }) h.eq, h.rxq⟩
theorem LanesOnly.setLane {n : Nat} {l : Lane} (h : LanesOnly s t) : LanesOnly s (t.setLane n l) := h.withLanes
theorem LanesOnly.laneTo {n st : Nat} (h : LanesOnly s t) : LanesOnly s (t.laneTo n st) := h.fset
theorem LanesOnly.cellsTo {cs : List Nat} {c : Option CellState} (h : LanesOnly s t) : LanesOnly s (t.cellsTo cs c) :=
  ⟨congrArg (·.cellsTo cs c) h.eq, h.rxq⟩
protected theorem LanesOnly.ite {c : Prop} {d : Decidable c} {a b : State} (ha : LanesOnly s a) (hb : LanesOnly s b) :
    LanesOnly s (@ite _ c d a b) := by split <;> assumption
theorem LanesOnly.when {c : Prop} {d : Decidable c} {u : State} (h : LanesOnly s t) (hf : LanesOnly s t → LanesOnly s u) :
    LanesOnly s (@ite _ c d u t) := .ite (hf h) h
theorem LanesOnly.foldl {α : Type} {f : State → α → State} {l : List α} (h : LanesOnly s t)
    (hf : ∀ {u y}, LanesOnly s u → LanesOnly s (f u y)) : LanesOnly s (l.foldl f t) := by
  induction l generalizing t with
  | nil => exact h
  | cons y l ih => exact ih (hf h)
theorem LanesOnly.fecFill (h : LanesOnly s t) : LanesOnly s t.fecFill := by
  refine h.foldl fun h => ?_
  split
  · exact h.withFec
  · exact h
theorem LanesOnly.laneDrop {n : Nat} (h : LanesOnly s t) : LanesOnly s (t.laneDrop n) :=
  h.cellsTo.setLane.withFec.fecFill.when fun h => h.fset
theorem LanesOnly.laneRest {n : Nat} (h : LanesOnly s t) : LanesOnly s (t.laneRest n) := .ite h.laneTo.setLane h.laneTo
theorem LanesOnly.laneAbort {n cause : Nat} (h : LanesOnly s t) : LanesOnly s (t.laneAbort n cause) :=
  .ite h (LanesOnly.when h fun h => h.finc).fset.fset.finc.fset.raise.laneDrop.laneTo
theorem LanesOnly.laneStop {n : Nat} (h : LanesOnly s t) : LanesOnly s (t.laneStop n) := h.laneAbort.laneTo.setLane
theorem LanesOnly.windowShut (h : LanesOnly s t) : LanesOnly s t.windowShut :=
  (h.when fun h => h.fset.fset.fset).fset.withRfe
theorem LanesOnly.windowNote {e : Nat} (h : LanesOnly s t) : LanesOnly s (t.windowNote e) := by
  unfold State.windowNote
  split
  · exact h.when fun h => h.windowShut
  · exact h
theorem LanesOnly.frameDrop {n : Nat} (h : LanesOnly s t) : LanesOnly s (t.frameDrop n) := h.finc.laneDrop.laneRest.windowNote

end

/-! ## A lane drops its frame (R111) -/

/-- A lane without a frame. -/
def Lane.dropped (l : Lane) : Lane :=
  { l with phr := none, cells := [], key := none, noKey := false, frame := none, cwIn := 0, cwOut := 0, info := [], toMode := none
           disturbed := false }

/-- Free decoders that take codewords change the LDPC pool alone. -/
theorem fecFill_only (s : State) : ∃ x, s.fecFill = { s with fec := x } := by
  unfold State.fecFill
  generalize List.range 4 = l
  induction l generalizing s with
  | nil => exact ⟨s.fec, rfl⟩
  | cons d l ih =>
    rw [List.foldl_cons]
    split
    · obtain ⟨x, hx⟩ := ih _
      exact ⟨x, hx⟩
    · exact ih s
theorem fecFill_lanes (s : State) : s.fecFill.lanes = s.lanes := by
  obtain ⟨x, hx⟩ := fecFill_only s
  rw [hx]
theorem rget_fecFill (s : State) (a : Nat) : s.fecFill.rget a = s.rget a := by
  obtain ⟨x, hx⟩ := fecFill_only s
  rw [hx]
  rfl

theorem laneDrop_lanes (s : State) (n : Nat) : (s.laneDrop n).lanes = (s.setLane n (s.lane n).dropped).lanes := by
  unfold State.laneDrop
  dsimp only
  split
  · exact fecFill_lanes _
  · exact fecFill_lanes _
theorem rget_laneDrop (s : State) (n : Nat) {a : Nat} (h : a ≠ AGC_STAT.addr) : (s.laneDrop n).rget a = s.rget a := by
  unfold State.laneDrop
  dsimp only
  split
  · exact (rget_fset_ne _ _ _ _ h).trans (rget_fecFill _ a)
  · exact rget_fecFill _ a

theorem lane_setLane_cases (s : State) (n : Nat) (l : Lane) : (s.setLane n l).lane n = l ∨ (s.setLane n l).lane n = s.lane n := by
  by_cases h : n < s.lanes.length
  · exact .inl (lane_setLane_self s l h)
  · refine .inr ?_
    unfold State.lane State.setLane
    rw [getElem?_setAt, if_neg fun hn => h hn.2]
theorem searching_laneDrop (s : State) (n : Nat) : ((s.laneDrop n).lane n).searching = (s.lane n).searching := by
  rw [lane_of_lanes (laneDrop_lanes s n)]
  rcases lane_setLane_cases s n (s.lane n).dropped with h | h <;> rw [h]
  rfl

/-! ## A lane leaves its frame -/

theorem laneSt_laneRest (s : State) (n : Nat) : (s.laneRest n).laneSt n = if (s.lane n).searching then 1 else 0 := by
  unfold State.laneRest
  split
  · exact laneSt_laneTo s n (by decide)
  · exact laneSt_laneTo s n (by decide)
theorem rget_laneRest (s : State) (n : Nat) {a : Nat} (h : a ≠ LANE_STAT.addr n) : (s.laneRest n).rget a = s.rget a := by
  unfold State.laneRest
  split
  · exact rget_fset_ne _ _ _ _ h
  · exact rget_fset_ne _ _ _ _ h

/-- After a frame the receive window stands, or closes. -/
theorem windowNote_cases (s : State) (e : Nat) : s.windowNote e = s ∨ s.windowNote e = s.windowShut := by
  unfold State.windowNote
  split
  · dsimp only
    split
    · exact .inr rfl
    · exact .inl rfl
  · exact .inl rfl
theorem rget_windowNote (s : State) (e : Nat) {a : Nat} (hslot : a ≠ AGC_CNP_SLOT.addr) (hstat : a ≠ RFE_STAT.addr) :
    (s.windowNote e).rget a = s.rget a := by
  rcases windowNote_cases s e with h | h <;> rw [h]
  exact rget_windowShut s hslot hstat
theorem windowShut_trf (s : State) : s.windowShut.trf = s.trf := by
  have hslot : (if s.rfe.cnpOpen then ((s.fset AGC_CNP_SLOT.END (s.fget AGC_CNP_GAIN.CUR)).fset AGC_CNP_SLOT.BACKOFFS
      (min 15 s.rfe.backoffs)).fset AGC_CNP_SLOT.OVERRIDE (if s.rfe.override then 1 else 0) else s).trf = s.trf := by
    split
    · rw [fset_trf, fset_trf, fset_trf]
    · rfl
  unfold State.windowShut
  dsimp only
  rw [fset_trf, hslot]
theorem windowNote_trf (s : State) (e : Nat) : (s.windowNote e).trf = s.trf := by
  rcases windowNote_cases s e with h | h <;> rw [h]
  exact windowShut_trf s
theorem laneSt_windowNote (s : State) (e n : Nat) : (s.windowNote e).laneSt n = s.laneSt n :=
  laneSt_of_rget (rget_windowNote s e (laneReg_ne (o := 0x008) (by decide)) (laneReg_ne (o := 0x008) (by decide)))

/-- A lane that drops its frame searches on, or is IDLE. -/
theorem laneSt_left (s : State) (n e : Nat) :
    (((s.laneDrop n).laneRest n).windowNote e).laneSt n = if (s.lane n).searching then 1 else 0 := by
  rw [laneSt_windowNote, laneSt_laneRest, searching_laneDrop]
/-- The registers that are not about its state stand. -/
theorem rget_left (s : State) (n e : Nat) {a : Nat} (hslot : a ≠ AGC_CNP_SLOT.addr) (hrfe : a ≠ RFE_STAT.addr) (hst : a ≠ LANE_STAT.addr n)
    (hagc : a ≠ AGC_STAT.addr) : (((s.laneDrop n).laneRest n).windowNote e).rget a = s.rget a := by
  rw [rget_windowNote _ _ hslot hrfe, rget_laneRest _ _ hst, rget_laneDrop _ _ hagc]
theorem rget_left_cnt (s : State) (n e : Nat) :
    (((s.laneDrop n).laneRest n).windowNote e).rget (LANE_CNT.addr n) = s.rget (LANE_CNT.addr n) := by
  refine rget_left s n e (laneReg_ne (o := 0x064) (by decide)) (laneReg_ne (o := 0x064) (by decide)) ?_ (laneReg_ne (o := 0x064) (by decide))
  show 0x40009064 + 0x1000 * n ≠ 0x40009008 + 0x1000 * n
  omega

/-! ## IDLE to SEARCH (R112) -/

theorem rxSlot_advance {s : State} {sl : Slot} (t : Frc) (hs : s.slot = some sl) (hk : sl.kind = .rx) (hl : sl.lost = false) :
    (s.advance t).rxSlot = some sl := by
  unfold State.rxSlot
  rw [advance_slot, hs]
  dsimp only
  rw [hk, hl]
  rfl

/-- The lane searches, with its digital gain set. -/
def State.laneBegun (s : State) (n : Nat) : State := (s.setLane n { s.lane n with searching := true }).laneSearch n
/-- A guard window that opens before the path is ready is indicated (R83). -/
def State.guardClipped (s : State) : State := ((s.fset RFE_STAT.GUARD_CLIP 1).finc RFE_CNT.GCLIP).raise Pg.RFE 3
/-- What arming a lane leaves. -/
def State.laneArmed (s : State) (n : Nat) (canopy clipped : Bool) : State :=
  let s := if clipped then (s.laneBegun n).guardClipped else s.laneBegun n
  if canopy then s else s.narrowGainOpen

theorem rget_guardClipped (s : State) {a : Nat} (hstat : a ≠ RFE_STAT.addr) (hcnt : a ≠ RFE_CNT.addr) (hraw : a ≠ (INT_RAW.bit Pg.RFE 3).addr) :
    s.guardClipped.rget a = s.rget a :=
  (rget_raise_ne _ _ _ _ hraw).trans ((rget_finc_ne _ RFE_CNT.GCLIP _ hcnt).trans (rget_fset_ne _ RFE_STAT.GUARD_CLIP _ _ hstat))
theorem laneSt_guardClipped (s : State) (n : Nat) : s.guardClipped.laneSt n = s.laneSt n :=
  laneSt_of_rget (rget_guardClipped s (laneReg_ne (o := 0x008) (by decide)) (laneReg_ne (o := 0x008) (by decide))
    (laneReg_ne (o := 0x008) (by decide)))
theorem laneSt_narrowGainOpen (s : State) (n : Nat) : s.narrowGainOpen.laneSt n = s.laneSt n :=
  laneSt_of_rget (rget_fset_ne _ AGC_NB_GAIN.CUR _ _ (laneReg_ne (o := 0x008) (by decide)))
theorem laneSt_laneArmed (s : State) (n : Nat) (canopy clipped : Bool) : (s.laneArmed n canopy clipped).laneSt n = 1 := by
  have hbegun : (s.laneBegun n).laneSt n = 1 := laneSt_laneTo _ n (by decide)
  have hclip : (if clipped then (s.laneBegun n).guardClipped else s.laneBegun n).laneSt n = 1 := by
    split
    · rw [laneSt_guardClipped, hbegun]
    · exact hbegun
  unfold State.laneArmed
  dsimp only
  split
  · exact hclip
  · rw [laneSt_narrowGainOpen, hclip]

theorem LanesOnly.laneArmed {s t : State} {n : Nat} {canopy clipped : Bool} (h : LanesOnly s t) : LanesOnly s (t.laneArmed n canopy clipped) :=
  have hbegun : LanesOnly s (t.laneBegun n) := h.setLane.laneTo.setLane
  have hclip := hbegun.when (c := clipped = true) fun h => h.fset.finc.raise
  .ite hclip hclip.fset.withRfe
theorem laneArmed_trf (s : State) (n : Nat) (canopy clipped : Bool) : (s.laneArmed n canopy clipped).trf = s.trf := by
  have hopen (u : State) : u.narrowGainOpen.trf = u.trf := by simp [State.narrowGainOpen]
  have hbegun : (s.laneBegun n).trf = s.trf := by simp [State.laneBegun, State.laneSearch, State.laneTo]
  cases canopy <;> cases clipped <;> simp [State.laneArmed, State.guardClipped, hopen, hbegun]

theorem exec_laneArm {s : State} {t : Frc} {n : Fin 16} {sl : Slot} {v : Served} (hs : s.slot = some sl) (hk : sl.kind = .rx)
    (hl : sl.lost = false) (hlock : sl.lockSeen = true) (hv : (s.lane n).serves = some v) (hsearch : (s.lane n).searching = false)
    (hst : s.laneSt n = 0) (hrep : s.cad.replaying = false) (haway : s.txm.away = false) (hen : s.fbit (LANE_CTRL.EN n) = true)
    (hopen : sl.tickNt + us (max (if sl.canopy then 60 else 40) v.opens) ≤ (s.advance t).nt) (hclose : (s.advance t).nt < sl.tickNt + us v.closes) :
    exec (.laneArm t n) s = .next ((s.advance t).laneArmed n sl.canopy (v.opens < if sl.canopy then 60 else 40)) := by
  have hin : ((s.advance t).atOffset sl (max (if sl.canopy then 60 else 40) v.opens) && !(s.advance t).atOffset sl v.closes
      && !(s.advance t).txm.away) = true := by
    unfold State.atOffset
    rw [decide_eq_true hopen, decide_eq_false (Nat.not_le.2 hclose), advance_txm, haway]
    rfl
  have henabled : (s.advance t).fbit (LANE_CTRL.EN n) = true := (fbit_congr (fget_advance s t _)).trans hen
  rw [← lane_advance s t] at hv hsearch
  show execLaneArm t n s = _
  unfold execLaneArm
  dsimp only
  rw [rxSlot_advance t hs hk hl, hv]
  dsimp only
  rw [hin, henabled, hlock, hsearch, laneSt_advance, hst, advance_cad, hrep, if_neg (by decide)]
  unfold State.laneArmed State.laneBegun State.guardClipped
  simp only [decide_eq_true_eq, hv]

theorem laneArm_searches (s : State) (t : Frc) (n : Fin 16) (sl : Slot) (v : Served) (hs : s.slot = some sl) (hk : sl.kind = .rx)
    (hl : sl.lost = false) (hlock : sl.lockSeen = true) (hv : (s.lane n).serves = some v) (hsearch : (s.lane n).searching = false)
    (hst : s.laneSt n = 0) (hrep : s.cad.replaying = false) (haway : s.txm.away = false) (hen : s.fbit (LANE_CTRL.EN n) = true)
    (hopen : sl.tickNt + us (max (if sl.canopy then 60 else 40) v.opens) ≤ (s.advance t).nt)
    (hclose : (s.advance t).nt < sl.tickNt + us v.closes) :
    Does (.laneArm t n) s fun u => u.laneSt n = 1 ∧ u.slot = s.slot ∧ u.mem = s.mem ∧ u.trf = s.trf ∧ u.keys = s.keys := by
  have honly := (LanesOnly.refl (s.advance t)).laneArmed (n := n) (canopy := sl.canopy) (clipped := v.opens < if sl.canopy then 60 else 40)
  refine ⟨_, exec_laneArm hs hk hl hlock hv hsearch hst hrep haway hen hopen hclose, laneSt_laneArmed _ n _ _, ?_, ?_, ?_, ?_⟩
  · rw [honly.slot, advance_slot]
  · rw [honly.mem, advance_mem]
  · rw [laneArmed_trf, advance_trf]
  · rw [honly.keys, advance_keys]

/-! ## The guard window closes (R112) -/

theorem searchEnd_leaves (s : State) (n : Fin 16) (hsearch : (s.lane n).searching = true) (hst : s.laneSt n = 1) :
    Does (.searchEnd n) s fun u => u.laneSt n = 0 ∧ u.slot = s.slot ∧ u.mem = s.mem ∧ u.trf = s.trf ∧ u.keys = s.keys := by
  have hexec : ∃ e, exec (.searchEnd n) s
      = .next (((s.setLane n { s.lane n with searching := false, paused := false }).laneTo n 0).windowNote e) := by
    show ∃ e, execSearchEnd n s = _
    unfold execSearchEnd
    dsimp only
    rw [hsearch, if_neg (by decide), if_pos (show State.laneSt (s.setLane n _) n = 1 from hst)]
    exact ⟨_, rfl⟩
  obtain ⟨e, hexec⟩ := hexec
  have honly : LanesOnly s (((s.setLane n { s.lane n with searching := false, paused := false }).laneTo n 0).windowNote e) :=
    (LanesOnly.refl s).setLane.laneTo.windowNote
  refine ⟨_, hexec, ?_, honly.slot, honly.mem, ?_, honly.keys⟩
  · rw [laneSt_windowNote, laneSt_laneTo _ _ (by decide)]
  · exact windowNote_trf _ e

/-! ## SEARCH to SYNC (R114) -/

/-- A lane whose branches `l` detect waits for the SFD. -/
def State.laneDetects (s : State) (n : Nat) (l : List (Fin 5 × Nat × Nat)) : State :=
  ((s.laneTo n 2).setLane n { s.lane n with hyp := winner l, detAt := s.frcN }).fadd (LANE_CNT.DET n) l.length

theorem laneDetects_reads (s : State) (n : Nat) (l : List (Fin 5 × Nat × Nat)) (hn : n < s.lanes.length) :
    (s.laneDetects n l).laneSt n = 2 ∧ ((s.laneDetects n l).lane n).hyp = winner l
      ∧ (s.laneDetects n l).fget (LANE_CNT.DET n) = min 255 (s.fget (LANE_CNT.DET n) + l.length) := by
  have hcnt : LANE_STAT.addr n ≠ LANE_CNT.addr n := by
    show 0x40009008 + 0x1000 * n ≠ 0x40009064 + 0x1000 * n
    omega
  have hsame (x : Lane) : ((s.laneTo n 2).setLane n x).fget (LANE_CNT.DET n) = s.fget (LANE_CNT.DET n) :=
    fget_fset_reg s (LANE_STAT.STATE n) (LANE_CNT.DET n) 2 hcnt.symm
  refine ⟨(laneSt_of_rget (rget_fset_ne _ (LANE_CNT.DET n) _ _ hcnt)).trans (laneSt_laneTo s n (by decide)), ?_, ?_⟩
  · unfold State.laneDetects
    rw [lane_of_lanes (fadd_lanes _ _ _), lane_setLane_self _ _ (by rw [State.laneTo, fset_lanes]; exact hn)]
  · refine (fget_fadd _ (LANE_CNT.DET n) _ (by show 0 + 8 ≤ 32; decide)).trans ?_
    rw [hsame]
    rfl

/-- In a narrowband window the narrow AGC freezes (R90). -/
def State.narrowFrozen (s : State) (c : Bool) : State := if c then s.fset AGC_STAT.NB_FROZEN 1 else s

theorem rget_narrowFrozen (s : State) (c : Bool) {a : Nat} (h : a ≠ AGC_STAT.addr) : (s.narrowFrozen c).rget a = s.rget a :=
  rget_when (rget_fset_ne _ _ _ _ h)
theorem narrowFrozen_cases (s : State) (c : Bool) : s.narrowFrozen c = s.fset AGC_STAT.NB_FROZEN 1 ∨ s.narrowFrozen c = s := by
  cases c
  · exact .inr rfl
  · exact .inl rfl

theorem preambleDetect_syncs (s : State) (n : Fin 16) (t : Frc) (l : List (Fin 5 × Nat × Nat)) (hn : s.lanes.length = 16)
    (hst : s.laneSt n = 1) (hp : (s.lane n).paused = false) (hdet : ∃ b ∈ l, b.1.val < s.branches n ∧ s.pdLen n ≤ b.2.1) :
    let det := l.filter fun b => b.1.val < s.branches n && decide (s.pdLen n ≤ b.2.1)
    Does (.preambleDetect ⟨n, t⟩ l) s fun u => u.laneSt n = 2 ∧ (u.lane n).hyp = winner det
      ∧ u.fget (LANE_CNT.DET n) = min 255 (s.fget (LANE_CNT.DET n) + det.length)
      ∧ u.slot = s.slot ∧ u.mem = s.mem ∧ u.trf = s.trf ∧ u.keys = s.keys := by
  intro det
  have hsome : det.isEmpty = false := by
    obtain ⟨b, hb, hbranch, hlen⟩ := hdet
    refine List.isEmpty_eq_false_iff_exists_mem.2 ⟨b, List.mem_filter.2 ⟨hb, ?_⟩⟩
    rw [decide_eq_true hbranch, decide_eq_true hlen]
    rfl
  have hexec : ∃ c, exec (.preambleDetect ⟨n, t⟩ l) s = .next (((s.advance t).laneDetects n det).narrowFrozen c) := by
    have hgo : ¬ ((s.advance t).laneSt n != 1 || ((s.advance t).lane n).paused || det.isEmpty) = true := by
      rw [laneSt_advance, hst, lane_advance, hp, hsome]
      decide
    show ∃ c, execPreambleDetect ⟨n, t⟩ l s = _
    unfold execPreambleDetect
    simp only [branches_advance, pdLen_advance]
    exact ⟨_, if_neg hgo⟩
  obtain ⟨c, hexec⟩ := hexec
  obtain ⟨hsync, hhyp, hcount⟩ := laneDetects_reads (s.advance t) n det (by rw [advance_lanes, hn]; exact n.isLt)
  have hlanes : (((s.advance t).laneDetects n det).narrowFrozen c).lanes = ((s.advance t).laneDetects n det).lanes := by
    rcases narrowFrozen_cases ((s.advance t).laneDetects n det) c with h | h <;> simp [h]
  refine ⟨_, hexec, ?_, ?_, ?_, ?_⟩
  · rw [← hsync]
    exact laneSt_of_rget (rget_narrowFrozen _ c (laneReg_ne (o := 0x008) (by decide)))
  · rw [lane_of_lanes hlanes, hhyp]
  · rw [← fget_advance s t, ← hcount]
    exact fget_of_rget (LANE_CNT.DET n) (rget_narrowFrozen _ c (laneReg_ne (o := 0x064) (by decide)))
  · rcases narrowFrozen_cases ((s.advance t).laneDetects n det) c with h | h <;> rw [h] <;> simp [State.laneDetects, State.laneTo]

/-! ## SYNC to DATA (R111, R117, R118) -/

/-- A lane takes a frame's word: AFC and quality beside the timestamp `ts`; `l` is the lane, `res` what LANEn_RES shows. -/
def State.laneTaken (s : State) (n : Nat) (l : Lane) (res ts : Nat) : State :=
  ((((s.laneTo n 3).setLane n l).rsetN (LANE_RES.addr n) res).rsetN (LANE_TS_LO.addr n) ts).rsetN (LANE_TS_HI.addr n) (ts / 2 ^ 32)
/-- The match is told to the Culvert. -/
def State.laneMatches (s : State) (n : Nat) (l : Lane) (res ts : Nat) : State :=
  (s.laneTaken n l res ts).freeStep.freeStep.event (Pg.LANE n) 0 33

/-- No consumer of an event has registers on a lane's page. -/
theorem lanePage_notEvent {n o : Nat} (hn : n < 16) (ho : o < 0x1000) : pageOf (0x40009000 + o + 0x1000 * n) ∉ eventPages := by
  have hpage : pageOf (0x40009000 + o + 0x1000 * n) = 9 + n := by
    unfold pageOf
    omega
  rw [hpage]
  interval_cases n <;> decide

theorem laneTaken_reads (s : State) {n : Nat} (l : Lane) (res : Nat) {ts : Nat} (hn : n < s.lanes.length) (hts : ts < 2 ^ 64) :
    (s.laneTaken n l res ts).laneSt n = 3 ∧ (s.laneTaken n l res ts).lane n = l
      ∧ (s.laneTaken n l res ts).raw (LANE_TS_LO.addr n) = ts % 2 ^ 32 ∧ (s.laneTaken n l res ts).raw (LANE_TS_HI.addr n) = ts / 2 ^ 32 := by
  have hlo : LANE_TS_LO.addr n ≠ LANE_TS_HI.addr n := by
    show 0x4000905C + 0x1000 * n ≠ 0x40009060 + 0x1000 * n
    omega
  have hst (o : Nat) (ho : o ≠ 8) : LANE_STAT.addr n ≠ 0x40009000 + o + 0x1000 * n := by
    show 0x40009008 + 0x1000 * n ≠ _
    omega
  have hlanes : (s.laneTaken n l res ts).lanes = ((s.laneTo n 3).setLane n l).lanes := by simp [State.laneTaken]
  refine ⟨?_, ?_, congrArg BitVec.toNat (rget_rsetN_ne _ _ _ _ hlo) |>.trans (raw_rsetN_self _ _ _), ?_⟩
  · refine Eq.trans (laneSt_of_rget (t := s.laneTaken n l res ts) (s := s.laneTo n 3) ?_) (laneSt_laneTo s n (by decide))
    exact (rget_rsetN_ne _ _ _ _ (hst 0x060 (by decide))).trans ((rget_rsetN_ne _ _ _ _ (hst 0x05C (by decide))).trans
      (rget_rsetN_ne _ _ _ _ (hst 0x058 (by decide))))
  · rw [lane_of_lanes hlanes, lane_setLane_self _ l (by rw [State.laneTo, fset_lanes]; exact hn)]
  · refine (raw_rsetN_self _ _ _).trans (Nat.mod_eq_of_lt ?_)
    omega

theorem laneMatches_reads (s : State) {n : Nat} (l : Lane) (res : Nat) {ts : Nat} (hn : n < 16) (hlen : s.lanes.length = 16)
    (hts : ts < 2 ^ 64) : (s.laneMatches n l res ts).laneSt n = 3 ∧ (s.laneMatches n l res ts).lane n = l
      ∧ (s.laneMatches n l res ts).raw (LANE_TS_LO.addr n) = ts % 2 ^ 32 ∧ (s.laneMatches n l res ts).raw (LANE_TS_HI.addr n) = ts / 2 ^ 32 := by
  obtain ⟨hdata, hlane, hlo, hhi⟩ := laneTaken_reads s l res (by rw [hlen]; exact hn) hts
  have hsame (o : Nat) (ho : o < 0x1000) : (s.laneMatches n l res ts).rget (0x40009000 + o + 0x1000 * n)
      = (s.laneTaken n l res ts).rget (0x40009000 + o + 0x1000 * n) := rget_event _ _ _ _ _ (lanePage_notEvent hn ho)
  have hlanes : (s.laneMatches n l res ts).lanes = (s.laneTaken n l res ts).lanes := by simp [State.laneMatches]
  exact ⟨(laneSt_of_rget (hsame 0x008 (by decide))).trans hdata, (lane_of_lanes hlanes n).trans hlane,
    (congrArg BitVec.toNat (hsame 0x05C (by decide))).trans hlo, (congrArg BitVec.toNat (hsame 0x060 (by decide))).trans hhi⟩

section
variable (s : State) (n : Fin 16) (ts : Frc) (afc : Int) (rssi : BitVec 8) (snr : Int) (word : List Bool) (hst : s.laneSt n = 2)
include hst

theorem exec_sfdMatch_hit {code : Nat} {b : Bool} (hhits : syncHits (s.laneWords n) (s.pdField n LANE_PD.SFD_ERR) word = [(code, b)])
    (htime : s.sfdInTime n ts.toNat code b = true) : ∃ (l : Lane) (res : Nat), l.code = code ∧ l.fmtB = b
      ∧ exec (.sfdMatch ⟨n, ts⟩ afc rssi snr word) s = .next ((s.advance ts).laneMatches n l res ts.toNat) := by
  show ∃ (l : Lane) (res : Nat), l.code = code ∧ l.fmtB = b ∧ execSfdMatch ⟨n, ts⟩ afc rssi snr word s = _
  unfold execSfdMatch
  simp only [hst, laneWords_advance, pdField_advance, hhits, sfdInTime_advance, Option.filter, htime]
  exact ⟨{ (s.advance ts).lane n with ofs := _, code := code, fmtB := b, endAt := ts.toNat }, _, rfl, rfl, rfl⟩

theorem sfdMatch_hit (hlen : s.lanes.length = 16) {code : Nat} {b : Bool}
    (hhits : syncHits (s.laneWords n) (s.pdField n LANE_PD.SFD_ERR) word = [(code, b)]) (htime : s.sfdInTime n ts.toNat code b = true) :
    Does (.sfdMatch ⟨n, ts⟩ afc rssi snr word) s fun u => u.laneSt n = 3 ∧ (u.lane n).code = code ∧ (u.lane n).fmtB = b
      ∧ u.raw (LANE_TS_LO.addr n) = ts.toNat % 2 ^ 32 ∧ u.raw (LANE_TS_HI.addr n) = ts.toNat / 2 ^ 32
      ∧ u.slot = s.slot ∧ u.mem = s.mem ∧ u.trf = s.trf ∧ u.keys = s.keys := by
  obtain ⟨l, res, hcode, hfmt, hexec⟩ := exec_sfdMatch_hit s n ts afc rssi snr word hst hhits htime
  obtain ⟨hdata, hlane, hlo, hhi⟩ := laneMatches_reads (s.advance ts) l res n.isLt (by rw [advance_lanes, hlen]) ts.isLt
  refine ⟨_, hexec, hdata, by rw [hlane, hcode], by rw [hlane, hfmt], hlo, hhi, ?_⟩
  simp [State.laneMatches, State.laneTaken, State.laneTo]

theorem sfdMatch_none (hhits : syncHits (s.laneWords n) (s.pdField n LANE_PD.SFD_ERR) word = []) :
    Does (.sfdMatch ⟨n, ts⟩ afc rssi snr word) s fun u => u = s.advance ts := by
  refine ⟨_, ?_, rfl⟩
  show execSfdMatch ⟨n, ts⟩ afc rssi snr word s = _
  unfold execSfdMatch
  simp only [hst, laneWords_advance, pdField_advance, hhits]
  rfl

end

/-! ## SYNC without an SFD (R111) -/

theorem sfdTimeout_leaves (s : State) (n : Fin 16) (t : Frc) (hst : s.laneSt n = 2) (hlimit : s.sfdLimit n ≤ (s.advance t).frcN) :
    Does (.sfdTimeout ⟨n, t⟩) s fun u => u.laneSt n = (if (s.lane n).searching then 1 else 0)
      ∧ u.fget (LANE_CNT.SFD_MISS n) = min 255 (s.fget (LANE_CNT.SFD_MISS n) + 1) ∧ u.slot = s.slot ∧ u.mem = s.mem ∧ u.keys = s.keys := by
  have hexec : exec (.sfdTimeout ⟨n, t⟩) s
      = .next (((((s.advance t).finc (LANE_CNT.SFD_MISS n)).laneDrop n).laneRest n).windowNote 0) := by
    show execSfdTimeout ⟨n, t⟩ s = _
    unfold execSfdTimeout
    simp only [laneSt_advance, hst, sfdLimit_advance]
    rw [if_neg (by simpa using hlimit)]
  have honly : LanesOnly (s.advance t) (((((s.advance t).finc (LANE_CNT.SFD_MISS n)).laneDrop n).laneRest n).windowNote 0) :=
    (LanesOnly.refl _).finc.laneDrop.laneRest.windowNote
  refine ⟨_, hexec, ?_, ?_, honly.slot.trans (advance_slot _ _), honly.mem.trans (advance_mem _ _), honly.keys.trans (advance_keys _ _)⟩
  · rw [laneSt_left, ← lane_advance s t]
    rfl
  · refine (fget_of_rget (LANE_CNT.SFD_MISS n) (rget_left_cnt _ n 0)).trans
      ((fget_finc (s.advance t) (LANE_CNT.SFD_MISS n) (by show 8 + 8 ≤ 32; decide)).trans ?_)
    rw [fget_advance]
    rfl

/-- Settles O24: each of a lane's steps from IDLE to DATA, and back. -/
theorem laneSearchToData : Obligations.LaneSearchToData :=
  ⟨laneArm_searches, searchEnd_leaves, preambleDetect_syncs,
    fun s n ts afc rssi snr word hlen hst => ⟨fun _ _ hhits htime => sfdMatch_hit s n ts afc rssi snr word hst hlen hhits htime,
      sfdMatch_none s n ts afc rssi snr word hst⟩,
    sfdTimeout_leaves⟩

end Sys2Proof.Machine
end

section
/-!
THRESHOLDS, THE LDPC POOL, ACKNOWLEDGEMENTS AND DISABLES (O26). The state after each command is written out or said by what it may change,
and read field by field (R104, R115, R120, R125, R127).
-/
namespace Sys2Proof.Machine
open Sys2Proof

/-! ## The threshold loop (R115) -/

theorem clampI_within {b v : Int} (hb : 0 ≤ b) : (clampI (-b) b v).natAbs ≤ b.natAbs := by
  unfold clampI
  split
  · omega
  · split <;> omega

/-- The threshold's registers of a lane. -/
def State.thrShown (s : State) (n : Nat) (cur want nf : Int) : State :=
  ((s.fsetI (LANE_THV.CUR n) cur).fsetI (LANE_THV.WANT n) want).fsetI (LANE_THV.NF n) nf

theorem thrShown_lanes (s : State) (n : Nat) (cur want nf : Int) : (s.thrShown n cur want nf).lanes = s.lanes := by
  rw [State.thrShown, fsetI_lanes, fsetI_lanes, fsetI_lanes]
/-- Of `s`, only registers and lanes have changed. -/
structure LanesAlone (s t : State) : Prop where
  eq : t = { s with regs := t.regs, lanes := t.lanes }
theorem LanesAlone.fset {s t : State} {f : Fld} {x : Nat} (h : LanesAlone s t) : LanesAlone s (t.fset f x) :=
  ⟨congrArg (·.fset f x) h.eq⟩
theorem LanesAlone.thrShown {s t : State} {n : Nat} {cur want nf : Int} (h : LanesAlone s t) : LanesAlone s (t.thrShown n cur want nf) :=
  h.fset.fset.fset
theorem laneReg_onOwn {n o : Nat} (hn : n < 16) (ho : o < 0x1000) : onPages [Pg.LANE n] (0x40009000 + o + 0x1000 * n) = true := by
  have hpage : pageOf (0x40009000 + o + 0x1000 * n) = Pg.LANE n := by
    unfold pageOf Pg.LANE
    omega
  unfold onPages
  rw [hpage]
  exact List.contains_iff_mem.2 List.mem_cons_self
theorem regsOff_thrShown {s t : State} {n : Nat} {cur want nf : Int} (h : RegsOff (onPages [Pg.LANE n]) s t) (hn : n < 16) :
    RegsOff (onPages [Pg.LANE n]) s (t.thrShown n cur want nf) :=
  have hon := laneReg_onOwn (n := n) (o := 0x050) hn (by decide)
  regsOff_fset (regsOff_fset (regsOff_fset h _ _ hon) _ _ hon) _ _ hon

/-- A block in SEARCH leaves the lane's noise floor and threshold, and shows them. -/
theorem exec_thresholdBlock (s : State) (n : Fin 16) (p : Int) (quiet : Bool) (hst : s.laneSt n = 1) (hp : (s.lane n).paused = false) :
    ∃ (l : Lane) (cur want nf : Int), exec (.thresholdBlock n p quiet) s = .next ((s.setLane n l).thrShown n cur want nf)
      ∧ l.den = (s.lane n).den + 1
      ∧ l.nf = (if quiet then 15 * (s.lane n).nf + p * 16 ^ (s.lane n).den else 16 * (s.lane n).nf)
      ∧ (l.thr - 16 * (s.lane n).thr).natAbs ≤ 256 * 16 ^ ((s.lane n).den + 1)
      ∧ (s.fbit (LANE_CTRL.THR_HOLD n) = true → l.thr = 16 * (s.lane n).thr) := by
  have hgo : ¬ (s.laneSt n != 1 || (s.lane n).paused) = true := by
    rw [hst, hp]
    decide
  refine ⟨_, _, _, _, if_neg hgo, rfl, rfl, ?_, fun hhold => if_pos hhold⟩
  dsimp only
  split
  · simp
  · rw [add_sub_cancel_left]
    exact clampI_within (Int.natCast_nonneg _)

theorem thresholdBlock_moves (s : State) (n : Fin 16) (p : Int) (quiet : Bool) (hlen : s.lanes.length = 16) (hst : s.laneSt n = 1)
    (hp : (s.lane n).paused = false) :
    Does (.thresholdBlock n p quiet) s fun u =>
      (u.lane n).den = (s.lane n).den + 1
      ∧ (u.lane n).nf = (if quiet then 15 * (s.lane n).nf + p * 16 ^ (s.lane n).den else 16 * (s.lane n).nf)
      ∧ ((u.lane n).thr - 16 * (s.lane n).thr).natAbs ≤ 256 * 16 ^ ((s.lane n).den + 1)
      ∧ (s.fbit (LANE_CTRL.THR_HOLD n) = true → (u.lane n).thr = 16 * (s.lane n).thr)
      ∧ u = { s with regs := u.regs, lanes := u.lanes } ∧ RegsOff (onPages [Pg.LANE n]) s u
      ∧ ∀ k, k ≠ n.val → u.lane k = s.lane k := by
  obtain ⟨l, cur, want, nf, hexec, hden, hnf, hthr, hhold⟩ := exec_thresholdBlock s n p quiet hst hp
  have hlane (k : Nat) : ((s.setLane n l).thrShown n cur want nf).lane k = (s.setLane n l).lane k := lane_of_lanes (thrShown_lanes _ _ _ _ _) k
  have hself : ((s.setLane n l).thrShown n cur want nf).lane n = l :=
    (hlane n).trans (lane_setLane_self s l (by rw [hlen]; exact n.isLt))
  refine ⟨_, hexec, ?_, ?_, ?_, ?_, (LanesAlone.thrShown ⟨rfl⟩).eq, regsOff_thrShown (fun _ _ => rfl) n.isLt,
    fun k hk => (hlane k).trans (lane_setLane_ne s l hk)⟩
  · rw [hself, hden]
  · rw [hself, hnf]
  · rw [hself]
    exact hthr
  · rw [hself]
    exact hhold

/-! ## The LDPC pool (R120) -/

/-- A codeword that joins those that wait changes the pool alone; so does one that is taken back. -/
theorem foldl_cwQueue_only (l : List Codeword) (s : State) : ∃ x, l.foldl State.cwQueue s = { s with fec := x } := by
  induction l generalizing s with
  | nil => exact ⟨s.fec, rfl⟩
  | cons c l ih =>
    obtain ⟨x, hx⟩ := ih (s.cwQueue c)
    exact ⟨x, hx⟩
theorem cwArrived_only (s : State) (c : Codeword) : ∃ x, (s.fecRecall.cwQueue c).fecFill = { s with fec := x } := by
  obtain ⟨x, hx⟩ : ∃ x, s.fecRecall = { s with fec := x } := by
    obtain ⟨x, hx⟩ := foldl_cwQueue_only _ _
    exact ⟨x, hx⟩
  rw [hx]
  obtain ⟨y, hy⟩ := fecFill_only (State.cwQueue { s with fec := x } c)
  exact ⟨y, hy⟩

theorem ldpcCodewordReceived_counts (s : State) (n : Fin 16) (t : Frc) (p : Phr) (hlen : s.lanes.length = 16) (hst : s.laneSt n = 3)
    (hphr : (s.lane n).phr = some p) (hrill : isRill p.mode = true) (hen : s.fbit FEC_CTRL.EN = true) :
    Does (.ldpcCodewordReceived ⟨n, t⟩) s fun u => (u.lane n).cwIn = (s.lane n).cwIn + 1
      ∧ u = { s.advance t with lanes := u.lanes, fec := u.fec } := by
  have henabled : (s.advance t).fbit FEC_CTRL.EN = true := (fbit_congr (fget_advance s t _)).trans hen
  have hexec : exec (.ldpcCodewordReceived ⟨n, t⟩) s
      = .next ((((s.advance t).setLane n { (s.advance t).lane n with cwIn := ((s.advance t).lane n).cwIn + 1 }).fecRecall.cwQueue
        { lane := n, recv := (s.advance t).frcN }).fecFill) := by
    have hgo : ¬ ((s.advance t).laneSt n != 3 || !(match ((s.advance t).lane n).phr with | some p => isRill p.mode | none => false)) = true := by
      rw [laneSt_advance, hst, lane_advance, hphr]
      simp [hrill]
    exact (if_neg hgo).trans (if_neg (by rw [henabled]; decide))
  obtain ⟨x, hx⟩ := cwArrived_only ((s.advance t).setLane n { (s.advance t).lane n with cwIn := ((s.advance t).lane n).cwIn + 1 })
    { lane := n, recv := (s.advance t).frcN }
  rw [hx] at hexec
  refine ⟨_, hexec, ?_, rfl⟩
  rw [← lane_advance s t]
  exact congrArg Lane.cwIn (lane_setLane_self (s.advance t) _ (by rw [advance_lanes, hlen]; exact n.isLt))

/-- FEC_CNT and FEC_ITER count a codeword that took `used` iterations; `zero` says that the syndrome is zero. -/
def State.cwCounted (s : State) (used : Nat) (zero : Bool) : State :=
  let s := ((s.finc FEC_CNT.CW).fadd FEC_ITER.SUM used).fset FEC_ITER.MAX (max used (s.fget FEC_ITER.MAX))
  if zero then s else (s.finc FEC_CNT.FAIL).raise Pg.FEC 0

theorem cwCounted_reads (s : State) (used : Nat) (zero : Bool) : (s.cwCounted used zero).fget FEC_CNT.CW = min 65535 (s.fget FEC_CNT.CW + 1)
    ∧ (s.cwCounted used zero).fget FEC_CNT.FAIL = (if zero then s.fget FEC_CNT.FAIL else min 65535 (s.fget FEC_CNT.FAIL + 1)) := by
  have hiter (g : Fld) (h : g.addr ≠ FEC_ITER.addr) : (((s.finc FEC_CNT.CW).fadd FEC_ITER.SUM used).fset FEC_ITER.MAX
      (max used (s.fget FEC_ITER.MAX))).fget g = (s.finc FEC_CNT.CW).fget g :=
    (fget_fset_reg _ _ _ _ h).trans (fget_fset_reg _ _ _ _ h)
  have hcw := (hiter FEC_CNT.CW (by decide)).trans (fget_finc s FEC_CNT.CW (by decide))
  have hfail := (hiter FEC_CNT.FAIL (by decide)).trans (fget_finc_apart s FEC_CNT.CW FEC_CNT.FAIL (by decide) (by decide))
  cases zero
  · refine ⟨?_, ?_⟩
    · exact (fget_raise_apart _ _ _ _ (by decide) (by decide)).trans ((fget_finc_apart _ _ _ (by decide) (by decide)).trans hcw)
    · refine (fget_raise_apart _ _ _ _ (by decide) (by decide)).trans ((fget_finc _ _ (by decide)).trans ?_)
      rw [hfail]
      rfl
  · exact ⟨hcw, hfail⟩
theorem regsOff_cwCounted {s t : State} {used : Nat} {zero : Bool} (h : RegsOff (onPages [Pg.FEC]) s t) :
    RegsOff (onPages [Pg.FEC]) s (t.cwCounted used zero) := by
  have hiter := regsOff_fset (regsOff_fset (regsOff_fset h FEC_CNT.CW (min (2 ^ FEC_CNT.CW.width - 1) (t.fget FEC_CNT.CW + 1)) (by decide))
    FEC_ITER.SUM (min (2 ^ FEC_ITER.SUM.width - 1) ((t.finc FEC_CNT.CW).fget FEC_ITER.SUM + used)) (by decide)) FEC_ITER.MAX
    (max used (t.fget FEC_ITER.MAX)) (by decide)
  cases zero
  · exact regsOff_fset (regsOff_fset hiter FEC_CNT.FAIL _ (by decide)) (INT_RAW.bit Pg.FEC 0) 1 (by decide)
  · exact hiter
theorem cwCounted_only (s : State) (used : Nat) (zero : Bool) : ∃ r, s.cwCounted used zero = { s with regs := r } := by
  cases zero
  · exact ⟨_, rfl⟩
  · exact ⟨_, rfl⟩

/-- A decoder that finishes is free again; the codeword is counted and its bits go to the lane. -/
theorem exec_ldpcDecodeDone {s : State} {d : Fin 4} {x : Codeword} {p : Phr} (t : Frc) (it : BitVec 6) (cw : List Bool)
    (hx : s.fec.dec[d.val]? = some (some x)) (hphr : (s.lane x.lane).phr = some p) :
    let l := s.lane x.lane
    let c := cwWord p l.cwOut cw
    ∃ f used, exec (.ldpcDecodeDone d t ⟨it, cw⟩) s = .next
      (((State.cwCounted { s.advance t with fec := f } used !(rillSyndrome p.mode c).contains true).setLane x.lane
        { l with cwOut := l.cwOut + 1, info := l.info ++ c.take (cwInfo p l.cwOut) }).fecFill) := by
  intro l c
  have hdec : (s.advance t).fec.dec[d.val]? = some (some x) := by rw [advance_fec, hx]
  have hl : (s.advance t).lane x.lane = l := lane_advance s t x.lane
  have hphr : l.phr = some p := hphr
  show ∃ f used, execLdpcDecodeDone d t ⟨it, cw⟩ s = _
  unfold execLdpcDecodeDone
  dsimp only
  rw [hdec]
  dsimp only [Option.getD_some]
  rw [hl, hphr]
  exact ⟨_, _, rfl⟩

theorem ldpcDecodeDone_counts (s : State) (d : Fin 4) (t : Frc) (it : BitVec 6) (cw : List Bool) (x : Codeword) (p : Phr)
    (hlen : s.lanes.length = 16) (hlane : x.lane < 16) (hx : s.fec.dec[d.val]? = some (some x)) (hphr : (s.lane x.lane).phr = some p) :
    let n := x.lane
    let c := cwWord p (s.lane n).cwOut cw
    let z := !(rillSyndrome p.mode c).contains true
    Does (.ldpcDecodeDone d t ⟨it, cw⟩) s fun u => (u.lane n).cwOut = (s.lane n).cwOut + 1
      ∧ (u.lane n).info = (s.lane n).info ++ c.take (cwInfo p (s.lane n).cwOut)
      ∧ u.fget FEC_CNT.CW = min 65535 (s.fget FEC_CNT.CW + 1)
      ∧ u.fget FEC_CNT.FAIL = (if z then s.fget FEC_CNT.FAIL else min 65535 (s.fget FEC_CNT.FAIL + 1))
      ∧ u = { s.advance t with regs := u.regs, lanes := u.lanes, fec := u.fec } ∧ RegsOff (onPages [Pg.FEC]) s u := by
  intro n c z
  obtain ⟨f, used, hexec⟩ := exec_ldpcDecodeDone t it cw hx hphr
  obtain ⟨hcw, hfail⟩ := cwCounted_reads { s.advance t with fec := f } used z
  have hoff : RegsOff (onPages [Pg.FEC]) s (State.cwCounted { s.advance t with fec := f } used z) :=
    regsOff_cwCounted fun a _ => rget_advance s t a
  obtain ⟨r, hr⟩ := cwCounted_only { s.advance t with fec := f } used z
  rw [hr] at hexec hcw hfail hoff
  obtain ⟨y, hy⟩ := fecFill_only (State.setLane { s.advance t with fec := f, regs := r } n
    { s.lane n with cwOut := (s.lane n).cwOut + 1, info := (s.lane n).info ++ c.take (cwInfo p (s.lane n).cwOut) })
  rw [hy] at hexec
  have hself := lane_setLane_self { s.advance t with fec := f, regs := r } { s.lane n with
    cwOut := (s.lane n).cwOut + 1, info := (s.lane n).info ++ c.take (cwInfo p (s.lane n).cwOut) }
    (n := n) (by show n < (s.advance t).lanes.length; rw [advance_lanes, hlen]; exact hlane)
  refine ⟨_, hexec, congrArg Lane.cwOut hself, congrArg Lane.info hself, ?_, ?_, rfl, hoff⟩
  · rw [← fget_advance s t]
    exact hcw
  · rw [← fget_advance s t]
    exact hfail

/-! ## Acknowledgements of a receive slot (R125) -/

/-- The acknowledgements after the decision for that of the frame `f`. -/
def goneAhead (f : Nat) (l : List AckBuild) : List AckBuild := l.map fun x => if x.frame = f then { x with go := true } else x

theorem goneAhead_mem {l : List AckBuild} {a : AckBuild} (h : a ∈ l) : ∃ x ∈ goneAhead a.frame l, x.frame = a.frame ∧ x.go = true :=
  ⟨{ a with go := true }, List.mem_map.2 ⟨a, h, if_pos rfl⟩, rfl, rfl⟩

/-- The acknowledgement of the frame `a` is sent: the synthesiser goes to its frequency. -/
def State.ackTuned (s : State) (a : AckBuild) (canopy : Bool) : State :=
  State.fset { s with
    txm := { s.txm with acks := goneAhead a.frame s.txm.acks, away := canopy }, rfe := { s.rfe with ackSpan := canopy, clipRun := 0 } }
    RFE_SYN_CUR.FREQ a.freq

theorem ackTuned_freq (s : State) (a : AckBuild) (canopy : Bool) :
    (s.ackTuned a canopy).fget RFE_SYN_CUR.FREQ = a.freq % 2 ^ RFE_SYN_CUR.FREQ.width := fget_fset_self _ _ _ (by decide)
theorem ackTuned_txm (s : State) (a : AckBuild) (canopy : Bool) :
    (s.ackTuned a canopy).txm = { s.txm with acks := goneAhead a.frame s.txm.acks, away := canopy } := fset_txm _ _ _
theorem ackTuned_rfe (s : State) (a : AckBuild) (canopy : Bool) :
    (s.ackTuned a canopy).rfe = { s.rfe with ackSpan := canopy, clipRun := 0 } := fset_rfe _ _ _

theorem ackTuned_lanes (s : State) (a : AckBuild) (canopy : Bool) : (s.ackTuned a canopy).lanes = s.lanes := fset_lanes _ _ _
theorem ackTuned_mem (s : State) (a : AckBuild) (canopy : Bool) : (s.ackTuned a canopy).mem = s.mem := fset_mem _ _ _

/-- Lanes that have no frame only pause for an acknowledgement. -/
theorem lanesForAck_pauses {s : State} (h : ∀ k, k < 16 → s.laneSt k ≠ 2 ∧ s.laneSt k ≠ 3) :
    ∃ l, s.lanesForAck = { s with lanes := l } := by
  have hk : ∀ k ∈ List.range 16, s.laneSt k ≠ 2 ∧ s.laneSt k ≠ 3 := fun k hk => h k (List.mem_range.1 hk)
  unfold State.lanesForAck
  generalize List.range 16 = ks at hk
  induction ks generalizing s with
  | nil => exact ⟨s.lanes, rfl⟩
  | cons k ks ih =>
    obtain ⟨h2, h3⟩ := hk k List.mem_cons_self
    rw [List.foldl_cons]
    dsimp only
    rw [if_neg (by simp [h2, h3])]
    have hrest (l : List Lane) := ih (s := { s with lanes := l }) h fun j hj => hk j (List.mem_cons_of_mem _ hj)
    split
    · obtain ⟨x, hx⟩ := hrest (s.setLane k { s.lane k with paused := true }).lanes
      exact ⟨x, hx⟩
    · obtain ⟨x, hx⟩ := hrest s.lanes
      exact ⟨x, hx⟩

section
variable {s : State} {t : Frc} {n : Fin 16} {sl : Slot} {a : AckBuild} (hs : s.slot = some sl)
  (ha : s.txm.acks.find? (fun x => x.lane == n.val && !x.go && decide (x.launchAt ≤ (s.advance t).frcN + 1280)) = some a)
include hs ha

/-- The decision commits the acknowledgement, in a Canopy slot when nothing keeps the window. -/
theorem exec_ackDecision (canopy : Bool) (hc : (decide (sl.kind = .rx) && sl.canopy) = canopy)
    (hfree : canopy = true → (∀ k, k < 16 → s.laneSt k ≠ 2 ∧ s.laneSt k ≠ 3) ∧ s.txBusy = false ∧ s.txm.away = false) :
    exec (.ackDecision t n) s = .next (if canopy then ((s.advance t).ackTuned a canopy).lanesForAck else (s.advance t).ackTuned a canopy) := by
  have hfind : (s.advance t).txm.acks.find? (fun x => x.lane == n.val && !x.go && decide (x.launchAt ≤ (s.advance t).frcN + us 40)) = some a := by
    rw [advance_txm]
    exact ha
  have hbusy (r : Nat) : canopy = true → ((List.range 16).any fun k => ((s.advance t).laneSt k = 2 || (s.advance t).laneSt k = 3)
      && (match ((s.advance t).lane k).serves with | some v => decide (v.rank < r) | none => false)) = false := by
    intro hcan
    refine List.any_eq_false.2 fun k hk => ?_
    obtain ⟨h2, h3⟩ := (hfree hcan).1 k (List.mem_range.1 hk)
    rw [laneSt_advance]
    simp [h2, h3]
  have hgo : ¬ (canopy && ((List.range 16).any (fun k => ((s.advance t).laneSt k = 2 || (s.advance t).laneSt k = 3)
      && (match ((s.advance t).lane k).serves with | some v => decide (v.rank < a.rank) | none => false))
      || (s.advance t).txBusy || (s.advance t).txm.away)) = true := by
    cases canopy with
    | false => simp
    | true =>
      obtain ⟨-, htx, haway⟩ := hfree rfl
      rw [hbusy a.rank rfl, show (s.advance t).txBusy = s.txBusy from congrArg (· != 0) (fget_advance s t _), htx, advance_txm, haway]
      decide
  subst hc
  show execAckDecision t n s = _
  unfold execAckDecision State.ackTuned
  dsimp only
  rw [hfind, advance_slot, hs]
  refine (if_neg hgo).trans ?_
  rfl

theorem ackDecision_narrow (hc : sl.canopy = false) :
    Does (.ackDecision t n) s fun u => u.fget RFE_SYN_CUR.FREQ = a.freq % 2 ^ RFE_SYN_CUR.FREQ.width
      ∧ (∃ x ∈ u.txm.acks, x.frame = a.frame ∧ x.go = true) ∧ u.lanes = s.lanes ∧ u.mem = s.mem := by
  refine ⟨_, exec_ackDecision hs ha false (by rw [hc, Bool.and_false]) (fun h => absurd h (by decide)), ackTuned_freq _ _ _, ?_, ?_, ?_⟩
  · rw [if_neg (by decide), ackTuned_txm, advance_txm]
    exact goneAhead_mem (List.mem_of_find?_eq_some ha)
  · rw [if_neg (by decide), ackTuned_lanes, advance_lanes]
  · rw [if_neg (by decide), ackTuned_mem, advance_mem]

theorem ackDecision_canopy (hk : sl.kind = .rx) (hc : sl.canopy = true) (hlanes : ∀ k, k < 16 → s.laneSt k ≠ 2 ∧ s.laneSt k ≠ 3)
    (hbusy : s.txBusy = false) (haway : s.txm.away = false) :
    Does (.ackDecision t n) s fun u => u.fget RFE_SYN_CUR.FREQ = a.freq % 2 ^ RFE_SYN_CUR.FREQ.width
      ∧ (∃ x ∈ u.txm.acks, x.frame = a.frame ∧ x.go = true) ∧ u.txm.away = true ∧ u.rfe.ackSpan = true ∧ u.mem = s.mem := by
  have hexec := exec_ackDecision hs ha true (by rw [hk, hc]; rfl) fun _ => ⟨hlanes, hbusy, haway⟩
  have htuned (k : Nat) : ((s.advance t).ackTuned a true).laneSt k = s.laneSt k :=
    (laneSt_of_rget (rget_fset_ne _ RFE_SYN_CUR.FREQ _ _ (laneReg_ne (o := 0x008) (by decide)))).trans (laneSt_advance s t k)
  obtain ⟨l, hl⟩ := lanesForAck_pauses (s := (s.advance t).ackTuned a true) fun k hk => by rw [htuned]; exact hlanes k hk
  rw [if_pos rfl, hl] at hexec
  refine ⟨_, hexec, ackTuned_freq (s.advance t) a true, ?_, congrArg TxmState.away (ackTuned_txm (s.advance t) a true),
    congrArg RfeState.ackSpan (ackTuned_rfe (s.advance t) a true), (ackTuned_mem (s.advance t) a true).trans (advance_mem s t)⟩
  show ∃ x ∈ ((s.advance t).ackTuned a true).txm.acks, _
  rw [ackTuned_txm, advance_txm]
  exact goneAhead_mem (List.mem_of_find?_eq_some ha)

end

/-- The window of the slot `sl` is back before its lanes search on: the span away has ended, and the synthesiser is where it was. -/
def State.spanEnded (s : State) (sl : Slot) (part : Bool) : State :=
  State.fset { s with txm := { s.txm with away := false }, rfe := { s.rfe with ackSpan := false, spanTail := part, clipRun := 0 } }
    RFE_SYN_CUR.FREQ sl.freq

theorem spanEnded_txm (s : State) (sl : Slot) (part : Bool) : (s.spanEnded sl part).txm = { s.txm with away := false } := fset_txm _ _ _
theorem spanEnded_rfe (s : State) (sl : Slot) (part : Bool) :
    (s.spanEnded sl part).rfe = { s.rfe with ackSpan := false, spanTail := part, clipRun := 0 } := fset_rfe _ _ _
theorem spanEnded_freq (s : State) (sl : Slot) (part : Bool) :
    (s.spanEnded sl part).fget RFE_SYN_CUR.FREQ = sl.freq % 2 ^ RFE_SYN_CUR.FREQ.width := fget_fset_self _ _ _ (by decide)
theorem spanEnded_mem (s : State) (sl : Slot) (part : Bool) : (s.spanEnded sl part).mem = s.mem := fset_mem _ _ _
theorem spanEnded_slot (s : State) (sl : Slot) (part : Bool) : (s.spanEnded sl part).slot = s.slot := fset_slot _ _ _

/-- Every lane searches on. -/
def State.lanesResumed (s : State) : State := { s with lanes := s.lanes.map fun (l : Lane) => ({ l with paused := false } : Lane) }

theorem canopyWindowReturn_resumes (s : State) (t : Frc) (sl : Slot) (hs : s.slot = some sl) (haway : s.txm.away = true)
    (hbusy : s.txBusy = false) (hacks : s.txm.acks.any (·.go) = false) (hfrom : s.txm.backFrom + us 60 ≤ (s.advance t).frcN) :
    Does (.canopyWindowReturn t) s fun u => u.txm.away = false ∧ u.rfe.ackSpan = false ∧ (∀ l ∈ u.lanes, l.paused = false)
      ∧ u.fget RFE_SYN_CUR.FREQ = sl.freq % 2 ^ RFE_SYN_CUR.FREQ.width ∧ u.mem = s.mem ∧ u.slot = s.slot := by
  have hgo : ¬ (!(s.advance t).txm.away || (s.advance t).txBusy || (s.advance t).txm.acks.any (·.go)
      || decide ((s.advance t).frcN < (s.advance t).txm.backFrom + us 60)) = true := by
    rw [show (s.advance t).txBusy = s.txBusy from congrArg (· != 0) (fget_advance s t _), advance_txm, haway, hbusy, hacks,
      decide_eq_false (Nat.not_lt.2 hfrom)]
    decide
  have hexec : ∃ part, exec (.canopyWindowReturn t) s = .next ((s.advance t).spanEnded sl part).lanesResumed := by
    show ∃ part, execCanopyWindowReturn t s = _
    unfold execCanopyWindowReturn State.lanesResumed State.spanEnded
    dsimp only
    rw [if_neg hgo, advance_slot, hs]
    exact ⟨((s.advance t).nt - sl.tickNt) % us 1 != 0, rfl⟩
  obtain ⟨part, hexec⟩ := hexec
  have htxm := spanEnded_txm (s.advance t) sl part
  have hrfe := spanEnded_rfe (s.advance t) sl part
  refine ⟨_, hexec, congrArg TxmState.away htxm, congrArg RfeState.ackSpan hrfe, fun l hl => ?_, spanEnded_freq (s.advance t) sl part,
    (spanEnded_mem (s.advance t) sl part).trans (advance_mem s t), (spanEnded_slot (s.advance t) sl part).trans (advance_slot s t)⟩
  obtain ⟨l', -, rfl⟩ := List.mem_map.1 hl
  rfl

/-! ## Enables and disables (R104, R127) -/

theorem cnpEnWrite_stores (s : State) (a : Acc) (v : Word) (ha : Accepted s a CNP_CTRL.addr) (hv : bitOf v.toNat 1 = false) :
    Does (.cnpEnWrite a v) s fun u => u.fget CNP_CTRL.EN = fieldGet (writtenTo s a CNP_CTRL.addr v) CNP_CTRL.EN ∧ u.slot = s.slot
      ∧ u.lanes = s.lanes ∧ u.mem = s.mem := by
  obtain ⟨w, t, hwrite, ⟨-, -, -, hquiet⟩, hstored⟩ := writeReg_stores cnpHook v ha (by decide +kernel) (by decide +kernel)
  have hhook : cnpHook w t = t := by
    unfold cnpHook
    rw [show w.one CNP_CTRL.SRST = false from hquiet 1 hv, Bool.and_false]
    rfl
  rw [hhook] at hwrite
  refine ⟨_, congrArg Host.Outcome.next hwrite, hstored.fget_self (f := CNP_CTRL.EN), ?_, ?_, ?_⟩ <;> rw [hstored.eq]

/-- An abort of a lane writes the counters of CNP, a flag of AGC and registers of the lane. -/
theorem rget_laneAbort (s : State) (n cause : Nat) {a : Nat} (hpub : a ≠ CNP_PUB_CNT.addr) (hagc : a ≠ AGC_STAT.addr)
    (hst : a ≠ LANE_STAT.addr n) (hcnt : a ≠ LANE_CNT.addr n) (herr : a ≠ LANE_ERRINFO.addr n) (hraw : a ≠ (INT_RAW.bit (Pg.LANE n) 1).addr) :
    (s.laneAbort n cause).rget a = s.rget a := by
  unfold State.laneAbort
  dsimp only
  split
  · rfl
  · refine (rget_fset_ne _ (LANE_STAT.STATE n) _ _ hst).trans ((rget_laneDrop _ _ hagc).trans ((rget_raise_ne _ _ _ _ hraw).trans ?_))
    refine (rget_fset_ne _ (LANE_ERRINFO.ASN n) _ _ herr).trans ((rget_finc_ne _ (LANE_CNT.ABORTED n) _ hcnt).trans ?_)
    refine (rget_fset_ne _ (LANE_STAT.ABORT_CAUSE n) _ _ hst).trans ((rget_fset_ne _ (LANE_STAT.ABORTED n) _ _ hst).trans ?_)
    exact rget_when (rget_finc_ne _ CNP_PUB_CNT.DROP _ hpub)
/-- CTRL of a lane is not among them, nor that of FEC, whose page stands where a lane 16 would. -/
theorem rget_laneAbort_ctrl (s : State) (n cause k : Nat) :
    (s.laneAbort n cause).rget (LANE_CTRL.addr k) = s.rget (LANE_CTRL.addr k) := by
  have hne (o : Nat) (ho : o < 0x1000) (h : o ≠ 4) : LANE_CTRL.addr k ≠ 0x40009000 + o + 0x1000 * n := by
    show 0x40009004 + 0x1000 * k ≠ _
    omega
  have hraw : (INT_RAW.bit (Pg.LANE n) 1).addr = 0x40009000 + 0x00C + 0x1000 * n := by
    show 0x40000000 + (9 + n) * 0x1000 + 0x00C = _
    omega
  refine rget_laneAbort s n cause (laneReg_ne (o := 0x004) (by decide)) (laneReg_ne (o := 0x004) (by decide)) (hne 0x008 (by decide) (by decide))
    (hne 0x064 (by decide) (by decide)) (hne 0x020 (by decide) (by decide)) ?_
  rw [hraw]
  exact hne 0x00C (by decide) (by decide)

theorem laneSt_laneStop (s : State) (n : Nat) : (s.laneStop n).laneSt n = 0 := laneSt_laneTo (s.laneAbort n 1) n (by decide)
theorem rget_laneStop_ctrl (s : State) (n k : Nat) : (s.laneStop n).rget (LANE_CTRL.addr k) = s.rget (LANE_CTRL.addr k) := by
  refine (rget_fset_ne (s.laneAbort n 1) (LANE_STAT.STATE n) 0 (LANE_CTRL.addr k) ?_).trans (rget_laneAbort_ctrl s n 1 k)
  show 0x40009004 + 0x1000 * k ≠ 0x40009008 + 0x1000 * n
  omega

/-- A lane's CTRL is a plain register. -/
theorem laneCtrl_plain (n : Fin 16) :
    plainReg (LANE_CTRL.addr n) = true ∧ (descOf (LANE_CTRL.addr n)).isSome ∧ baseOff (LANE_CTRL.addr n) = 0x004 := by
  revert n
  decide +kernel

/-- THR_HOLD that goes to 1 holds the threshold in force. -/
def State.thrHeld (s : State) (n : Nat) (c : Bool) : State := if c then s.fset (LANE_THV.HELD n) (s.fget (LANE_THV.CUR n)) else s

theorem laneDisable_stops (s : State) (a : Acc) (n : Fin 16) (v : Word) (ha : Accepted s a (LANE_CTRL.addr n))
    (he : s.fbit (LANE_CTRL.EN n) = true) (hen : fieldGet (writtenTo s a (LANE_CTRL.addr n) v) (LANE_CTRL.EN n) = 0)
    (hv : bitOf v.toNat 1 = false) :
    Does (.laneDisable a n v) s fun u => u.fbit (LANE_CTRL.EN n) = false ∧ u.laneSt n = 0 ∧ u.mem = s.mem ∧ u.slot = s.slot := by
  obtain ⟨hplain, hdesc, hbase⟩ := laneCtrl_plain n
  obtain ⟨w, t, hwrite, ⟨hoff, hold, hnew, hquiet⟩, hstored⟩ := writeReg_stores (laneHook n) v ha hplain hdesc
  have hclears : w.clears (LANE_CTRL.EN n) = true := by
    refine (sets_en w (LANE_CTRL.EN n) (b := true) ?_ ?_).2
    · rw [hold]
      exact he
    · rw [hnew, hen]
      rfl
  have hhook : laneHook n w t = (t.laneStop n).thrHeld n (w.sets (LANE_CTRL.THR_HOLD n)) := by
    unfold laneHook
    rw [if_pos (hoff.trans hbase), show w.one (LANE_CTRL.SRST n) = false from hquiet 1 hv, hclears]
    rfl
  rw [hhook] at hwrite
  have hheld {b : Nat} (h : b ≠ LANE_THV.addr n) :
      ((t.laneStop n).thrHeld n (w.sets (LANE_CTRL.THR_HOLD n))).rget b = (t.laneStop n).rget b :=
    rget_when (rget_fset_ne _ (LANE_THV.HELD n) _ _ h)
  have honly : LanesOnly t ((t.laneStop n).thrHeld n (w.sets (LANE_CTRL.THR_HOLD n))) := (LanesOnly.refl t).laneStop.when fun h => h.fset
  refine ⟨_, congrArg Host.Outcome.next hwrite, fbit_of_fget_zero ?_, ?_, ?_, ?_⟩
  · refine Eq.trans (fget_of_rget (LANE_CTRL.EN n) ((hheld ?_).trans (rget_laneStop_ctrl t n n))) ?_
    · show 0x40009004 + 0x1000 * n.val ≠ 0x40009050 + 0x1000 * n.val
      omega
    · exact (hstored.fget_self (f := LANE_CTRL.EN n)).trans hen
  · refine (laneSt_of_rget (hheld ?_)).trans (laneSt_laneStop t n)
    show 0x40009008 + 0x1000 * n.val ≠ 0x40009050 + 0x1000 * n.val
    omega
  · rw [honly.mem, hstored.eq]
  · rw [honly.slot, hstored.eq]

/-- Discarding the codewords leaves the pool empty, EN of FEC_CTRL as it is, and memory. -/
theorem fecOff_leaves (s : State) : s.fecOff.fec = {} ∧ s.fecOff.rget FEC_CTRL.addr = s.rget FEC_CTRL.addr ∧ s.fecOff.mem = s.mem := by
  unfold State.fecOff
  generalize ((s.fec.queue ++ s.fec.dec.filterMap id).map Codeword.lane).eraseDups = l
  refine ⟨rfl, ?_, ((LanesOnly.refl s).foldl fun h => h.laneAbort).mem⟩
  show State.rget (l.foldl (fun s n => s.laneAbort n 1) s) (LANE_CTRL.addr 16) = s.rget (LANE_CTRL.addr 16)
  induction l generalizing s with
  | nil => rfl
  | cons n l ih => exact (ih _).trans (rget_laneAbort_ctrl s n 1 16)

theorem fecDisable_empties (s : State) (a : Acc) (v : Word) (ha : Accepted s a FEC_CTRL.addr) (he : s.fbit FEC_CTRL.EN = true)
    (hen : fieldGet (writtenTo s a FEC_CTRL.addr v) FEC_CTRL.EN = 0) (hv : bitOf v.toNat 1 = false) :
    Does (.fecDisable a v) s fun u => u.fbit FEC_CTRL.EN = false ∧ u.fec = {} ∧ u.mem = s.mem := by
  obtain ⟨w, t, hwrite, ⟨hoff, hold, hnew, hquiet⟩, hstored⟩ := writeReg_stores fecHook v ha (by decide +kernel) (by decide +kernel)
  have hclears : w.clears FEC_CTRL.EN = true := by
    refine (sets_en w FEC_CTRL.EN (b := true) ?_ ?_).2
    · rw [hold]
      exact he
    · rw [hnew, hen]
      rfl
  have hhook : fecHook w t = t.fecOff := by
    unfold fecHook
    rw [if_pos (show w.off = 0x004 from hoff), show w.one FEC_CTRL.SRST = false from hquiet 1 hv, hclears]
    rfl
  rw [hhook] at hwrite
  obtain ⟨hfec, hctrl, hmem⟩ := fecOff_leaves t
  refine ⟨_, congrArg Host.Outcome.next hwrite, fbit_of_fget_zero ?_, hfec, ?_⟩
  · exact (fget_of_rget FEC_CTRL.EN hctrl).trans ((hstored.fget_self (f := FEC_CTRL.EN)).trans hen)
  · rw [hmem, hstored.eq]

/-- Settles O26: the threshold loop and the LDPC pool, the acknowledgements of a receive slot, and the enables. -/
theorem canopyThresholdsAndStops : Obligations.CanopyThresholdsAndStops :=
  ⟨⟨thresholdBlock_moves, ldpcCodewordReceived_counts, ldpcDecodeDone_counts⟩,
    fun _ _ _ _ _ hs hc ha => ackDecision_narrow hs ha hc,
    fun _ _ _ _ _ hs hk hc ha hlanes hbusy haway => ackDecision_canopy hs ha hk hc hlanes hbusy haway,
    canopyWindowReturn_resumes, cnpEnWrite_stores, laneDisable_stops, fecDisable_empties⟩

end Sys2Proof.Machine
end

section
/-!
WHAT PUBLICATION DOES WITH THE RECEIVE QUEUE (O25). The relation `RxqIs q` says what the receive queue holds; every operation that a
published frame leads to keeps it, and publication appends one frame (R122, R233).
-/
namespace Sys2Proof.Machine
open Sys2Proof
set_option Elab.async false

/-- The receive queue holds `q`. -/
structure RxqIs (q : List Nat) (s : State) : Prop where
  eq : s.trf.rxq = q

variable {q : List Nat} {s : State}

/-! ## Branches and loops -/

theorem RxqIs.ofTrf {t : State} (h : RxqIs q s) (e : t.trf = s.trf) : RxqIs q t := ⟨(congrArg TrfState.rxq e).trans h.eq⟩
theorem RxqIs.lanesOnly {t : State} (h : RxqIs q s) (k : LanesOnly s t) : RxqIs q t := ⟨k.rxq.trans h.eq⟩

section
variable {α : Type} {c : Prop} {d : Decidable c}

protected theorem RxqIs.ite {a b : State} (ha : RxqIs q a) (hb : RxqIs q b) : RxqIs q (@ite _ c d a b) := by split <;> assumption
protected theorem RxqIs.iteFst {a b : State × α} (ha : RxqIs q a.1) (hb : RxqIs q b.1) : RxqIs q (@ite _ c d a b).1 := by
  split <;> assumption
/-- Something is done to a state when a condition holds. -/
theorem RxqIs.when {t : State} (h : RxqIs q s) (hf : RxqIs q s → RxqIs q t) : RxqIs q (@ite _ c d t s) := .ite (hf h) h
/-- Something is done to a state unless a condition holds. -/
theorem RxqIs.unless {t : State} (h : RxqIs q s) (hf : RxqIs q s → RxqIs q t) : RxqIs q (@ite _ c d s t) := .ite h (hf h)
/-- Either of two things is done to a state. -/
theorem RxqIs.either {t u : State} (h : RxqIs q s) (ht : RxqIs q s → RxqIs q t) (hu : RxqIs q s → RxqIs q u) : RxqIs q (@ite _ c d t u) :=
  .ite (ht h) (hu h)
theorem RxqIs.foldl {f : State → α → State} {l : List α} (h : RxqIs q s) (hf : ∀ {t x}, RxqIs q t → RxqIs q (f t x)) :
    RxqIs q (l.foldl f s) := by
  induction l generalizing s with
  | nil => exact h
  | cons x l ih => exact ih (hf h)

end

/-! ## Registers, events and the parts beside them -/

theorem RxqIs.fset {f : Fld} {x : Nat} (h : RxqIs q s) : RxqIs q (s.fset f x) := h.ofTrf (fset_trf s f x)
theorem RxqIs.finc {f : Fld} (h : RxqIs q s) : RxqIs q (s.finc f) := h.ofTrf (finc_trf s f)
theorem RxqIs.rsetN {a v : Nat} (h : RxqIs q s) : RxqIs q (s.rsetN a v) := h.ofTrf (rsetN_trf s a v)
theorem RxqIs.raise {p b : Nat} (h : RxqIs q s) : RxqIs q (s.raise p b) := h.ofTrf (raise_trf s p b)
theorem RxqIs.event {p b e : Nat} (h : RxqIs q s) : RxqIs q (s.event p b e) := h.ofTrf (event_trf s p b e)
theorem RxqIs.freeStep (h : RxqIs q s) : RxqIs q s.freeStep := h.ofTrf (freeStep_trf s)
theorem RxqIs.setNtu {f : NtuState → NtuState} (h : RxqIs q s) : RxqIs q (s.setNtu f) := h.ofTrf (setNtu_trf s f)
theorem RxqIs.setKey {n : Nat} {k : KeySlot} (h : RxqIs q s) : RxqIs q (s.setKey n k) := h.ofTrf (setKey_trf s n k)
theorem RxqIs.withHdr {x : HdrState} (h : RxqIs q s) : RxqIs q { s with hdr := x } := ⟨h.eq⟩
theorem RxqIs.withCad {x : CadState} (h : RxqIs q s) : RxqIs q { s with cad := x } := ⟨h.eq⟩
theorem RxqIs.withTxm {x : TxmState} (h : RxqIs q s) : RxqIs q { s with txm := x } := ⟨h.eq⟩
theorem RxqIs.withSlot {x : Option Slot} (h : RxqIs q s) : RxqIs q { s with slot := x } := ⟨h.eq⟩

/-! ## Memory (R331, R334) -/

theorem RxqIs.setBytes {a n v : Nat} (h : RxqIs q s) : RxqIs q (s.setBytes a n v) := by
  induction n generalizing s a v with
  | zero => exact h
  | succ n ih => exact ih (h.ofTrf (setByte_trf s _ _))
theorem RxqIs.setList {a : Nat} {l : List Byte} (h : RxqIs q s) : RxqIs q (s.setList a l) := by
  induction l generalizing s a with
  | nil => exact h
  | cons b l ih => exact ih (h.ofTrf (setByte_trf s _ _))
theorem RxqIs.setWord {a v : Nat} (h : RxqIs q s) : RxqIs q (s.setWord a v) := h.setBytes
theorem RxqIs.eccCheck {a : Nat} (h : RxqIs q s) : RxqIs q (s.eccCheck a).1 := by
  unfold State.eccCheck
  split
  · exact h
  · exact (h.ofTrf (setMemst_trf s _)).finc
  · exact h.finc.rsetN
theorem RxqIs.fabricSet {a v : Nat} (h : RxqIs q s) : RxqIs q (s.fabricSet a v) := h.eccCheck.unless fun h => h.setWord
theorem RxqIs.nbrSet {n word lo w x : Nat} (h : RxqIs q s) : RxqIs q (s.nbrSet n word lo w x) := h.fabricSet
theorem RxqIs.putOctets {l : List Nat} {bs : List Byte} {first : Bool} (h : RxqIs q s) : RxqIs q (s.putOctets l bs first) := by
  induction l generalizing s bs first with
  | nil => exact h
  | cons c l ih => exact ih h.setList
theorem RxqIs.linkChain {l : List Nat} (h : RxqIs q s) : RxqIs q (s.linkChain l) := by
  induction l generalizing s with
  | nil => exact h
  | cons c l ih =>
    cases l with
    | nil => exact h.setWord
    | cons d l =>
      unfold State.linkChain
      exact ih h.setWord
theorem RxqIs.cellsTo {cs : List Nat} {c : Option CellState} (h : RxqIs q s) : RxqIs q (s.cellsTo cs c) := ⟨h.eq⟩

/-! ## Contacts (R199 to R201) -/

theorem RxqIs.estUpdate {n : Nat} {want : Int} (h : RxqIs q s) : RxqIs q (s.estUpdate n want) :=
  .ite h (.ite (.ite h.withCad.fabricSet h) h.withCad.fabricSet)
theorem RxqIs.wantFit {w : Int} (h : RxqIs q s) : RxqIs q (s.wantFit w).1 := .iteFst h h.freeStep
theorem RxqIs.contact {n asn : Nat} {e : Int} (h : RxqIs q s) : RxqIs q (s.contact n asn e) := by
  unfold State.contact
  dsimp only
  refine .nbrSet <| .nbrSet <| .fabricSet <| .fabricSet <| .nbrSet <| .nbrSet <| .fabricSet ?_
  split
  · exact h.estUpdate
  · exact .ite h.estUpdate (.ite h.finc.fset.raise.estUpdate h.wantFit.fabricSet.withCad.estUpdate)

/-! ## Time samples (R137, R261, R263, R270) -/

theorem RxqIs.setRate {r : Int} (h : RxqIs q s) : RxqIs q (s.setRate r) :=
  RxqIs.when (RxqIs.rsetN (⟨h.eq⟩ : RxqIs q s.reAnchorAt)) fun h => h.fset
theorem RxqIs.setPWhenIdle {d : Int} (h : RxqIs q s) : RxqIs q (s.setPWhenIdle d) := .ite h.setNtu h.setNtu
theorem RxqIs.syncGain (h : RxqIs q s) : RxqIs q s.syncGain := h.fset.raise.setNtu
theorem RxqIs.pulseStepped {old new c : Nat} (h : RxqIs q s) : RxqIs q (s.pulseStepped old new c) :=
  .ite ((h.setNtu.unless fun h => h.setNtu).event.fset.raise.when fun h => h.rsetN.rsetN) h
theorem RxqIs.squashWhere {cause : SqCause} {locked : Bool} {p : Ticket → Bool} (h : RxqIs q s) : RxqIs q (s.squashWhere cause locked p) :=
  .ite h (h.finc.when fun h => h.fset).withHdr
theorem RxqIs.stepApply (h : RxqIs q s) : RxqIs q s.stepApply := by
  unfold State.stepApply
  split
  · exact h
  · exact (h.setNtu.squashWhere.finc.raise.event.fset.when fun h => h.syncGain).when fun h =>
      (h.foldl fun h => h.pulseStepped).when fun h => h.fset.raise.setNtu
theorem RxqIs.sampleReject {x : Sample} (h : RxqIs q s) : RxqIs q (s.sampleReject x) :=
  .ite (h.finc.rsetN.raise.setNtu.when fun h => h.fset.raise) h.finc.rsetN.raise
theorem RxqIs.sampleSlew {x : Sample} {prev : Option Nat} (h : RxqIs q s) : RxqIs q (s.sampleSlew x prev) := by
  unfold State.sampleSlew
  dsimp only
  refine .setPWhenIdle ?_
  split
  · exact .ite (.ite h.setNtu h.setRate) h
  · exact h
theorem RxqIs.ntuSample {x : Sample} (h : RxqIs q s) : RxqIs q (s.ntuSample x) :=
  .ite h (.ite h.sampleReject ((h.setNtu.when fun h => h.fset.fset).finc.rsetN.fset.either
    (fun h => h.setNtu.unless fun h => h.stepApply) fun h => (h.unless fun h => h.syncGain).sampleSlew))

/-! ## Keys and acknowledgements (R125, R139, R357, R358) -/

theorem RxqIs.keyExhaust {n : Nat} (h : RxqIs q s) : RxqIs q (s.keyExhaust n) := .ite h h.setKey.finc.raise.event
theorem RxqIs.takeCounter {n : Nat} (h : RxqIs q s) : RxqIs q (s.takeCounter n).2 :=
  (h.setKey.setKey.when fun h => h.keyExhaust).when fun h => (h.when fun h => h.rsetN).keyExhaust
theorem RxqIs.ackBuild {n : Nat} {l : Lane} {v : Served} {c : Cand} {m : Option Nat} {i : MacInfo} {f : RxFrame} {first : Nat}
    (h : RxqIs q s) : RxqIs q (s.ackBuild n l v c m i f first) := by
  unfold State.ackBuild
  dsimp only
  split
  · exact h
  · split
    · exact h.withTxm
    · split
      · exact h.finc
      · exact .ite h.finc h.takeCounter.withTxm

/-! ## Publication (R122, R233) -/

theorem RxqIs.replayAdvance {m asn : Nat} {i : MacInfo} {l : List Byte} (h : RxqIs q s) : RxqIs q (s.replayAdvance m asn i l) :=
  .ite h.nbrSet.nbrSet.nbrSet h.nbrSet.nbrSet
theorem RxqIs.append {c : Nat} (h : RxqIs q s) : RxqIs (q ++ [c]) (s.setTrf fun t => { t with rxq := t.rxq ++ [c] }) :=
  ⟨congrArg (· ++ [c]) h.eq⟩
theorem RxqIs.publishFrame {n : Nat} {sl : Slot} {v : Served} {p : Phr} {f : RxFrame} {info : Option MacInfo} {oct : List Byte}
    (h : RxqIs q s) : RxqIs (q ++ [(s.lane n).cells.headD 0]) (s.publishFrame n sl v p f info oct) := by
  unfold State.publishFrame
  extract_lets l c0 m cred rssi lqi linked w1 a descr credited stamped queued told charged cad dated
  have htold : RxqIs (q ++ [c0]) told :=
    h.linkChain.putOctets.setWord.setWord.setWord.setWord.setWord.setWord.setWord.cellsTo.append.finc.raise.event
  have hcharged : RxqIs (q ++ [c0]) charged := by
    unfold charged
    cases cred with
    | none => exact htold
    | some c => exact htold.withSlot
  have hdated : RxqIs (q ++ [c0]) dated := by
    unfold dated
    split
    · exact hcharged.withCad
    · exact hcharged
  have answer {t : State} {x : Option Nat} {i : MacInfo} (h : RxqIs (q ++ [c0]) t) :
      RxqIs (q ++ [c0]) (match cred with | some c => t.ackBuild n l v c x i f c0 | none => t) := by
    cases cred with
    | none => exact h
    | some c => exact h.ackBuild
  clear_value dated m
  cases info with
  | none => exact hdated
  | some i =>
    cases m with
    | none => exact answer hdated
    | some x => exact answer <| ((hdated.when fun h => h.replayAdvance).nbrSet.nbrSet.nbrSet.contact).when fun h => h.rsetN.ntuSample

theorem LanesOnly.laneReleased {s t : State} {n : Nat} {v : Served} (h : LanesOnly s t) : LanesOnly s (t.laneReleased n v) :=
  (LanesOnly.ite h.setLane.laneDrop.laneRest h.setLane.laneDrop.laneTo).windowNote

end Sys2Proof.Machine
end

section
/-!
A LANE RECEIVES A FRAME (O25). The PHR, the last bit and the checks: the state after each is written out, with one lemma for what it reads
(R111, R121 to R123, R233).
-/
namespace Sys2Proof.Machine
open Sys2Proof

/-! ## What a neighbour's entry reads -/

section
variable {s t : State} (hm : t.mem = s.mem)
include hm

theorem nbrF_congr (m word lo w : Nat) : t.nbrF m word lo w = s.nbrF m word lo w := by
  unfold State.nbrF State.mget
  rw [wordAt_congr hm]
theorem nExt_congr (m : Nat) : t.nExt m = s.nExt m := by
  unfold State.nExt
  simp only [nbrF_congr hm]
theorem rxKey_congr (m : Nat) (h : SecHdr) : t.rxKey m h = s.rxKey m h := by
  unfold State.rxKey State.nKey0 State.nKey1
  simp only [nbrF_congr hm]
theorem replayOk_congr (m asn : Nat) (i : MacInfo) (l : List Byte) : t.replayOk m asn i l = s.replayOk m asn i l := by
  unfold State.replayOk
  simp only [nbrF_congr hm]
theorem senderOf_congr (he : t.memst = s.memst) (src : MacAddr) : t.senderOf src = s.senderOf src := by
  unfold State.senderOf State.nValid State.nShort State.eccBad
  simp only [nbrF_congr hm, nExt_congr hm, he]
omit hm in
theorem keySlot_congr (hk : t.keys = s.keys) (k : Nat) : t.keySlot k = s.keySlot k := by
  unfold State.keySlot
  rw [hk]
/-- The key that a lane may use follows from memory and the key store. -/
theorem laneKey_congr (he : t.memst = s.memst) (hk : t.keys = s.keys) (i : MacInfo) : t.laneKey i = s.laneKey i := by
  unfold State.laneKey
  simp only [senderOf_congr hm he, rxKey_congr hm, keySlot_congr hk, nExt_congr hm]

end

section
variable (s : State) (t : Frc)

@[simp] theorem fecCfg_advance : (s.advance t).fecCfg = s.fecCfg := by
  unfold State.fecCfg State.raw
  rw [advance_slot, rget_advance]
@[simp] theorem inAckWindow_advance : (s.advance t).inAckWindow = s.inAckWindow := by
  unfold State.inAckWindow
  rw [advance_slot]

end

/-- The registers of the lanes come before those of the blocks after FEC. -/
theorem laneReg_below {n o a : Nat} (hn : n < 16) (ho : o < 0x1000) (h : 0x40019000 ≤ a) : 0x40009000 + o + 0x1000 * n ≠ a := by omega

/-! ## A frame that is dropped -/

theorem laneSt_frameDrop (s : State) (n : Nat) : (s.frameDrop n).laneSt n = if (s.lane n).searching then 1 else 0 := laneSt_left _ n 0
theorem rget_frameDrop (s : State) (n : Nat) {a : Nat} (hpub : a ≠ CNP_PUB_CNT.addr) (hslot : a ≠ AGC_CNP_SLOT.addr) (hrfe : a ≠ RFE_STAT.addr)
    (hst : a ≠ LANE_STAT.addr n) (hagc : a ≠ AGC_STAT.addr) : (s.frameDrop n).rget a = s.rget a :=
  (rget_left _ n 0 hslot hrfe hst hagc).trans (rget_finc_ne _ CNP_PUB_CNT.DROP _ hpub)

/-- A frame that is counted in the field `f` and dropped. -/
def State.dropCounted (s : State) (n : Nat) (f : Fld) : State := (s.finc f).frameDrop n

theorem dropCounted_reads (s : State) (t : Frc) (n : Nat) (f : Fld) :
    ((s.advance t).dropCounted n f).laneSt n = (if (s.lane n).searching then 1 else 0)
      ∧ ((s.advance t).dropCounted n f).mem = s.mem ∧ ((s.advance t).dropCounted n f).keys = s.keys := by
  have honly : LanesOnly (s.advance t) ((s.advance t).dropCounted n f) := (LanesOnly.refl _).finc.frameDrop
  refine ⟨?_, honly.mem.trans (advance_mem s t), honly.keys.trans (advance_keys s t)⟩
  refine (laneSt_frameDrop _ n).trans ?_
  rw [lane_of_lanes (finc_lanes _ f), lane_advance]

/-! ## The PHR (R111, R121, R155, R159) -/

/-- What the head of a frame leads to. -/
def State.headTaken (s : State) (n : Nat) (mhr : List Byte) : Head → State
  | .bad => s.dropCounted n (LANE_CNT.PHR_ERR n)
  | .symbol => s.dropCounted n CNP_DROP_CNT.CRC
  | .switch m =>
    if modeWide m = modeWide (s.laneMode n) then (s.setLane n { s.lane n with toMode := some m, detAt := s.frcN }).laneTo n 2
    else s.dropCounted n (LANE_CNT.PHR_ERR n)
  | .frame p => s.stage n p (if isWmbus p.mode then none else (parseHead mhr).map (·.1))

section
variable {s : State} {n : Fin 16} {t : Frc} {bits : List Bool} {rsc inter : Bool} {mhr : List Byte} (hst : s.laneSt n = 3)
  (hphr : (s.lane n).phr = none)
include hst hphr

theorem exec_phrParsed : exec (.phrParsed ⟨n, t⟩ ⟨bits, rsc, inter, mhr⟩) s = .next ((s.advance t).headTaken n mhr
    (headOf (s.lane n).code (s.lane n).fmtB (viterbiDepth s.fecCfg) rsc inter bits)) := by
  have hgo : ¬ ((s.advance t).laneSt n != 3 || ((s.advance t).lane n).phr.isSome) = true := by
    rw [laneSt_advance, hst, lane_advance, hphr]
    decide
  show execPhrParsed ⟨n, t⟩ ⟨bits, rsc, inter, mhr⟩ s = _
  unfold execPhrParsed
  dsimp only
  rw [if_neg hgo, fecCfg_advance, ← lane_advance s t]
  generalize headOf _ _ _ _ _ _ = h
  cases h with
  | switch m =>
    unfold State.headTaken
    dsimp only
    split <;> rfl
  | frame p => rfl
  | symbol => rfl
  | bad => rfl

theorem phrParsed_errs (h : headOf (s.lane n).code (s.lane n).fmtB (viterbiDepth s.fecCfg) rsc inter bits = .bad
      ∨ ∃ m, headOf (s.lane n).code (s.lane n).fmtB (viterbiDepth s.fecCfg) rsc inter bits = .switch m
        ∧ modeWide m ≠ modeWide (s.laneMode n)) :
    Does (.phrParsed ⟨n, t⟩ ⟨bits, rsc, inter, mhr⟩) s fun u => u.laneSt n = (if (s.lane n).searching then 1 else 0)
      ∧ u.fget (LANE_CNT.PHR_ERR n) = min 255 (s.fget (LANE_CNT.PHR_ERR n) + 1) ∧ u.mem = s.mem ∧ u.keys = s.keys := by
  have hexec : exec (.phrParsed ⟨n, t⟩ ⟨bits, rsc, inter, mhr⟩) s = .next ((s.advance t).dropCounted n (LANE_CNT.PHR_ERR n)) := by
    rw [exec_phrParsed hst hphr]
    rcases h with h | ⟨m, h, hwide⟩
    · rw [h]
      rfl
    · rw [h]
      exact congrArg Host.Outcome.next (if_neg (by rw [laneMode_advance]; exact hwide))
  obtain ⟨hleft, hmem, hkeys⟩ := dropCounted_reads s t n (LANE_CNT.PHR_ERR n)
  refine ⟨_, hexec, hleft, ?_, hmem, hkeys⟩
  have hcnt : LANE_CNT.addr n ≠ LANE_STAT.addr n := by
    show 0x40009064 + 0x1000 * n.val ≠ 0x40009008 + 0x1000 * n.val
    omega
  refine (fget_of_rget (LANE_CNT.PHR_ERR n) (rget_frameDrop _ n (laneReg_ne (o := 0x064) (by decide)) (laneReg_ne (o := 0x064) (by decide))
    (laneReg_ne (o := 0x064) (by decide)) hcnt (laneReg_ne (o := 0x064) (by decide)))).trans ?_
  refine (fget_finc (s.advance t) (LANE_CNT.PHR_ERR n) (by show 16 + 8 ≤ 32; decide)).trans ?_
  rw [fget_advance]
  rfl

theorem phrParsed_symbol (h : headOf (s.lane n).code (s.lane n).fmtB (viterbiDepth s.fecCfg) rsc inter bits = .symbol) :
    Does (.phrParsed ⟨n, t⟩ ⟨bits, rsc, inter, mhr⟩) s fun u => u.laneSt n = (if (s.lane n).searching then 1 else 0)
      ∧ u.fget CNP_DROP_CNT.CRC = min 255 (s.fget CNP_DROP_CNT.CRC + 1) ∧ u.mem = s.mem ∧ u.keys = s.keys := by
  have hexec := exec_phrParsed (t := t) (rsc := rsc) (inter := inter) (bits := bits) (mhr := mhr) hst hphr
  rw [h] at hexec
  obtain ⟨hleft, hmem, hkeys⟩ := dropCounted_reads s t n CNP_DROP_CNT.CRC
  refine ⟨_, hexec, hleft, ?_, hmem, hkeys⟩
  refine (fget_of_rget CNP_DROP_CNT.CRC (rget_frameDrop _ n (by decide) (by decide) (by decide) (laneStat_ne n (by decide)).symm
    (by decide))).trans ?_
  refine (fget_finc (s.advance t) CNP_DROP_CNT.CRC (by decide)).trans ?_
  rw [fget_advance]
  rfl

theorem phrParsed_switch (hlen : s.lanes.length = 16) {m : Nat}
    (h : headOf (s.lane n).code (s.lane n).fmtB (viterbiDepth s.fecCfg) rsc inter bits = .switch m)
    (hwide : modeWide m = modeWide (s.laneMode n)) :
    Does (.phrParsed ⟨n, t⟩ ⟨bits, rsc, inter, mhr⟩) s fun u =>
      u.laneSt n = 2 ∧ (u.lane n).toMode = some m ∧ u.mem = s.mem ∧ u.trf = s.trf := by
  have hexec : ∃ l : Lane, l.toMode = some m
      ∧ exec (.phrParsed ⟨n, t⟩ ⟨bits, rsc, inter, mhr⟩) s = .next (((s.advance t).setLane n l).laneTo n 2) := by
    rw [exec_phrParsed hst hphr, h]
    exact ⟨_, rfl, congrArg Host.Outcome.next (if_pos (by rw [laneMode_advance]; exact hwide))⟩
  obtain ⟨l, hl, hexec⟩ := hexec
  refine ⟨_, hexec, laneSt_laneTo _ n (by decide), ?_, ?_, ?_⟩
  · unfold State.laneTo
    rw [lane_of_lanes (fset_lanes _ _ _), lane_setLane_self _ l (by rw [advance_lanes, hlen]; exact n.isLt), hl]
  · rw [State.laneTo, fset_mem, setLane_mem, advance_mem]
  · rw [State.laneTo, fset_trf, setLane_trf, advance_trf]

end

/-! ## Cells and the key of a frame (R121) -/

theorem poolNote_cases (s old : State) : s.poolNote old = s.raise Pg.TRF 3 ∨ s.poolNote old = s := by
  unfold State.poolNote
  dsimp only
  split
  · exact .inl rfl
  · exact .inr rfl
theorem takeCells_rest {s s' : State} {k : Nat} {cs : List Nat} (h : s.takeCells k = some (cs, s')) : s' = s.freeStep := by
  unfold State.takeCells at h
  dsimp only at h
  split at h
  · cases h
  · simp only [Option.some.injEq, Prod.mk.injEq] at h
    exact h.2.symm

/-- The lane `n` becomes `l`, with the cells `cs` staged. -/
def State.cellsStaged (s : State) (n : Nat) (l : Lane) (cs : List Nat) : State :=
  ((s.freeStep.cellsTo cs (some .staged)).poolNote s).setLane n { l with cells := cs }

theorem cellsStaged_reads (s : State) {n : Nat} (l : Lane) (cs : List Nat) (hn : n < 16) (hlen : s.lanes.length = 16) :
    (s.cellsStaged n l cs).laneSt n = s.laneSt n ∧ (s.cellsStaged n l cs).lane n = { l with cells := cs }
      ∧ (s.cellsStaged n l cs).lanes.length = 16 := by
  have hpool : ((s.freeStep.cellsTo cs (some .staged)).poolNote s).lanes = s.lanes := by
    rcases poolNote_cases (s.freeStep.cellsTo cs (some .staged)) s with h | h <;> rw [h]
    · exact raise_lanes _ _ _
    · rfl
  have hstat : ((s.freeStep.cellsTo cs (some .staged)).poolNote s).laneSt n = s.laneSt n := by
    rcases poolNote_cases (s.freeStep.cellsTo cs (some .staged)) s with h | h <;> rw [h]
    · exact laneSt_of_rget (rget_raise_ne _ _ _ _ (laneReg_below (o := 0x008) hn (by decide) (by decide)))
    · rfl
  refine ⟨hstat, lane_setLane_self _ _ (by rw [hpool, hlen]; exact hn), ?_⟩
  exact (length_setAt _ _ _).trans (by rw [hpool, hlen])
theorem cellsStaged_keeps (s : State) (n : Nat) (l : Lane) (cs : List Nat) : (s.cellsStaged n l cs).mem = s.mem
    ∧ (s.cellsStaged n l cs).memst = s.memst ∧ (s.cellsStaged n l cs).keys = s.keys := by
  unfold State.cellsStaged
  rcases poolNote_cases (s.freeStep.cellsTo cs (some .staged)) s with h | h <;> rw [h] <;> simp [State.cellsTo]

/-- A PHR with the request of the header behind it for an acknowledgement. -/
def Phr.asking (p : Phr) (i : Option MacInfo) : Phr :=
  { p with ackReq := match i with | some i => i.ackReq && i.version = 2 | none => false }
/-- The lane with the PHR of its frame. -/
def State.phrLane (s : State) (n : Nat) (p : Phr) : Lane := { s.lane n with phr := some p, endAt := s.airEnd n p }

section
variable {s s' : State} {n : Nat} {p : Phr} {i : Option MacInfo} {cs : List Nat} (hwin : s.inAckWindow = false)
  (hcells : s.takeCells (cellsFor p.len) = some (cs, s'))
include hwin hcells

theorem stage_unsecured (hi : i.filter (·.secured) = none) : s.stage n p i = s.cellsStaged n (s.phrLane n (p.asking i)) cs := by
  unfold State.stage
  dsimp only
  rw [hwin, if_neg (by decide), hcells, takeCells_rest hcells, hi]
  rfl

theorem stage_secured {x : MacInfo} {k : Nat} (hi : i.filter (·.secured) = some x) (hk : s.laneKey x = some k) :
    s.stage n p i = (s.cellsStaged n (s.phrLane n (p.asking i)) cs).setLane n
      { (s.cellsStaged n (s.phrLane n (p.asking i)) cs).lane n with key := some (k, (s.keySlot k).gen) } := by
  obtain ⟨hmem, hmemst, hkeys⟩ := cellsStaged_keeps s n (s.phrLane n (p.asking i)) cs
  have hkey : (s.cellsStaged n (s.phrLane n (p.asking i)) cs).laneKey x = some k := (laneKey_congr hmem hmemst hkeys x).trans hk
  rw [← keySlot_congr hkeys]
  unfold State.stage
  dsimp only
  rw [hwin, if_neg (by decide), hcells, takeCells_rest hcells, hi]
  dsimp only
  split
  case h_1 j hj =>
    obtain rfl : j = k := Option.some.inj (hj.symm.trans hkey)
    rfl
  case h_2 hj => cases hj.symm.trans hkey

end

section
variable {s s' : State} {n : Fin 16} {t : Frc} {bits : List Bool} {rsc inter : Bool} {mhr : List Byte} {p : Phr} {cs : List Nat}
  (hst : s.laneSt n = 3) (hlen : s.lanes.length = 16) (hphr : (s.lane n).phr = none)
  (hhead : headOf (s.lane n).code (s.lane n).fmtB (viterbiDepth s.fecCfg) rsc inter bits = .frame p) (hwin : s.inAckWindow = false)
  (hcells : (s.advance t).takeCells (cellsFor p.len) = some (cs, s'))
include hst hlen hphr hhead hwin hcells

theorem phrParsed_unsecured (hi : (if isWmbus p.mode then none else (parseHead mhr).map (·.1)).filter (·.secured) = none) :
    Does (.phrParsed ⟨n, t⟩ ⟨bits, rsc, inter, mhr⟩) s fun u =>
      u.laneSt n = 3 ∧ (u.lane n).phr.map (fun q => { q with ackReq := false }) = some { p with ackReq := false } ∧ (u.lane n).cells = cs
        ∧ u.mem = s.mem ∧ u.keys = s.keys := by
  have hexec := exec_phrParsed (t := t) (rsc := rsc) (inter := inter) (bits := bits) (mhr := mhr) hst hphr
  rw [hhead, State.headTaken, stage_unsecured (by rw [inAckWindow_advance, hwin]) hcells hi] at hexec
  obtain ⟨hstat, hlane, -⟩ := cellsStaged_reads (s.advance t) ((s.advance t).phrLane n
    (p.asking (if isWmbus p.mode then none else (parseHead mhr).map (·.1)))) cs n.isLt (by rw [advance_lanes, hlen])
  obtain ⟨hmem, -, hkeys⟩ := cellsStaged_keeps (s.advance t) n ((s.advance t).phrLane n
    (p.asking (if isWmbus p.mode then none else (parseHead mhr).map (·.1)))) cs
  refine ⟨_, hexec, ?_, ?_, ?_, hmem.trans (advance_mem s t), hkeys.trans (advance_keys s t)⟩
  · rw [hstat, laneSt_advance, hst]
  · rw [hlane]
    rfl
  · rw [hlane]

theorem phrParsed_secured {x : MacInfo} {k : Nat} (hi : (if isWmbus p.mode then none else (parseHead mhr).map (·.1)) = some x)
    (hx : x.secured = true) (hk : s.laneKey x = some k) :
    Does (.phrParsed ⟨n, t⟩ ⟨bits, rsc, inter, mhr⟩) s fun u => u.laneSt n = 3 ∧ (u.lane n).key = some (k, (s.keySlot k).gen)
      ∧ (u.lane n).cells = cs ∧ u.mem = s.mem ∧ u.keys = s.keys := by
  have hexec := exec_phrParsed (t := t) (rsc := rsc) (inter := inter) (bits := bits) (mhr := mhr) hst hphr
  have hfilter : (some x).filter (·.secured) = some x := by simp [Option.filter, hx]
  have hkey : (s.advance t).laneKey x = some k := (laneKey_congr (advance_mem s t) (advance_memst s t) (advance_keys s t) x).trans hk
  rw [hhead, State.headTaken, hi, stage_secured (by rw [inAckWindow_advance, hwin]) hcells hfilter hkey] at hexec
  obtain ⟨hstat, hlane, hlanes⟩ := cellsStaged_reads (s.advance t) ((s.advance t).phrLane n (p.asking (some x))) cs n.isLt
    (by rw [advance_lanes, hlen])
  obtain ⟨hmem, -, hkeys⟩ := cellsStaged_keeps (s.advance t) n ((s.advance t).phrLane n (p.asking (some x))) cs
  rw [hlane, keySlot_congr (advance_keys s t)] at hexec
  refine ⟨_, hexec, ?_, ?_, ?_, hmem.trans (advance_mem s t), hkeys.trans (advance_keys s t)⟩
  · exact hstat.trans ((laneSt_advance s t n).trans hst)
  · rw [lane_setLane_self _ _ (by rw [hlanes]; exact n.isLt)]
  · rw [lane_setLane_self _ _ (by rw [hlanes]; exact n.isLt)]

end

/-! ## The last bit (R111) -/

/-- A lane's frame `f` is complete: it is DONE, and FRAME_END is latched and told to the Culvert. -/
def State.frameEnded (s : State) (n : Nat) (f : RxFrame) : State :=
  (((s.laneTo n 4).setLane n { s.lane n with frame := some f }).raise (Pg.LANE n) 0).event (Pg.LANE n) 1 34

theorem laneRaw_addr (n b : Nat) : (INT_RAW.bit (Pg.LANE n) b).addr = 0x40009000 + 0x00C + 0x1000 * n := by
  show 0x40000000 + (9 + n) * 0x1000 + 0x00C = _
  omega

theorem frameEnded_reads (s : State) {n : Nat} (f : RxFrame) (hn : n < 16) (hlen : s.lanes.length = 16) :
    (s.frameEnded n f).laneSt n = 4 ∧ ((s.frameEnded n f).lane n).frame = some f ∧ (s.frameEnded n f).fget (INT_RAW.bit (Pg.LANE n) 0) = 1
      ∧ (s.frameEnded n f).mem = s.mem ∧ (s.frameEnded n f).trf = s.trf := by
  have hraw : LANE_STAT.addr n ≠ (INT_RAW.bit (Pg.LANE n) 0).addr := by
    rw [laneRaw_addr]
    show 0x40009008 + 0x1000 * n ≠ _
    omega
  unfold State.frameEnded
  refine ⟨?_, ?_, ?_, ?_, ?_⟩
  · refine (laneSt_of_rget (rget_event _ _ _ _ _ (lanePage_notEvent (o := 0x008) hn (by decide)))).trans ?_
    exact (laneSt_of_rget (rget_raise_ne _ _ _ _ hraw)).trans (laneSt_laneTo s n (st := 4) (by decide))
  · rw [lane_of_lanes (event_lanes _ _ _ _), lane_of_lanes (raise_lanes _ _ _),
      lane_setLane_self _ _ (by rw [State.laneTo, fset_lanes, hlen]; exact hn)]
  · rw [fget_event _ _ _ _ _ (by rw [laneRaw_addr]; exact lanePage_notEvent hn (by decide))]
    exact fget_raise_self _ _ _ (by decide)
  · rw [event_mem, raise_mem, setLane_mem, State.laneTo, fset_mem]
  · rw [event_trf, raise_trf, setLane_trf, State.laneTo, fset_trf]

theorem lastBitDecoded_ends (s : State) (n : Fin 16) (t : Frc) (bits : List Bool) (p : Phr) (hst : s.laneSt n = 3) (hlen : s.lanes.length = 16)
    (hphr : (s.lane n).phr = some p) (hcw : isRill p.mode = true → rillCodewords p.mode p.len ≤ (s.lane n).cwOut) :
    Does (.lastBitDecoded n t bits) s fun u => u.laneSt n = 4
      ∧ (u.lane n).frame = some (frameOf p (viterbiDepth s.fecCfg) bits (s.lane n).info)
      ∧ u.fget (INT_RAW.bit (Pg.LANE n) 0) = 1 ∧ u.mem = s.mem ∧ u.trf = s.trf := by
  have hgo : ¬ ((s.advance t).laneSt n != 3
      || (isRill p.mode && decide (((s.advance t).lane n).cwOut < rillCodewords p.mode p.len))) = true := by
    rw [laneSt_advance, hst, lane_advance]
    cases hrill : isRill p.mode with
    | false => simp
    | true => simp [hcw hrill]
  have hexec : exec (.lastBitDecoded n t bits) s
      = .next ((s.advance t).frameEnded n (frameOf p (viterbiDepth s.fecCfg) bits (s.lane n).info)) := by
    have hphr' : ((s.advance t).lane n).phr = some p := by rw [lane_advance, hphr]
    rw [← fecCfg_advance s t, ← lane_advance s t]
    show execLastBitDecoded n t bits s = _
    unfold execLastBitDecoded State.frameEnded
    dsimp only
    rw [hphr']
    exact if_neg hgo
  obtain ⟨hdone, hframe, hend, hmem, htrf⟩ := frameEnded_reads (s.advance t) (frameOf p (viterbiDepth s.fecCfg) bits (s.lane n).info) n.isLt
    (by rw [advance_lanes, hlen])
  exact ⟨_, hexec, hdone, hframe, hend, hmem.trans (advance_mem s t), htrf.trans (advance_trf s t)⟩

/-! ## The checks (R122, R123) -/

/-- What the checks answer follows from the lane, memory, the key store and the room in the receive queue. -/
theorem frameCheck_congr {s t : State} {n : Nat} (hl : t.lane n = s.lane n) (hm : t.mem = s.mem) (he : t.memst = s.memst)
    (hk : t.keys = s.keys) (hfull : t.rxqFull = s.rxqFull) (asn : Nat) (wm : Bool) (f : RxFrame) (info : Option MacInfo) :
    t.frameCheck n asn wm f info = s.frameCheck n asn wm f info := by
  unfold State.frameCheck
  simp only [hl, hfull, senderOf_congr hm he, nExt_congr hm, replayOk_congr hm, keySlot_congr hk]

/-- A frame that a back-off disturbed is marked. -/
def State.gainMarked (s : State) (n : Nat) : State :=
  if (s.lane n).disturbed then (s.fset (LANE_STAT.GAIN_DISTURBED n) 1).fset (LANE_RES.GD n) 1 else s

theorem LanesOnly.gainMarked (s : State) (n : Nat) : LanesOnly s (s.gainMarked n) := (LanesOnly.refl s).when fun h => h.fset.fset
theorem gainMarked_lanes (s : State) (n : Nat) : (s.gainMarked n).lanes = s.lanes := by
  unfold State.gainMarked
  split
  · rw [fset_lanes, fset_lanes]
  · rfl
theorem gainMarked_memst (s : State) (n : Nat) : (s.gainMarked n).memst = s.memst := by
  rw [(LanesOnly.gainMarked s n).eq]
theorem rget_gainMarked (s : State) {n a : Nat} (hn : n < 16) (ha : 0x40019000 ≤ a) : (s.gainMarked n).rget a = s.rget a :=
  rget_when ((rget_fset_ne _ (LANE_RES.GD n) _ _ (laneReg_below (o := 0x058) hn (by decide) ha).symm).trans
    (rget_fset_ne _ (LANE_STAT.GAIN_DISTURBED n) _ _ (laneReg_below (o := 0x008) hn (by decide) ha).symm))
theorem depEid_of_rget {s t : State} (h : t.rget CAD_TSIE.addr = s.rget CAD_TSIE.addr) : t.depEid = s.depEid := by
  unfold State.depEid
  rw [show t.fbit CAD_TSIE.EN = s.fbit CAD_TSIE.EN from fbit_congr (fget_of_rget CAD_TSIE.EN h),
    show t.fget CAD_TSIE.EID = s.fget CAD_TSIE.EID from fget_of_rget CAD_TSIE.EID h]
theorem frameCheck_gainMarked (s : State) {n : Nat} (hn : n < 16) (asn : Nat) (wm : Bool) (f : RxFrame) (info : Option MacInfo) :
    (s.gainMarked n).frameCheck n asn wm f info = s.frameCheck n asn wm f info := by
  have honly := LanesOnly.gainMarked s n
  refine frameCheck_congr (lane_of_lanes (gainMarked_lanes s n) n) honly.mem (gainMarked_memst s n) honly.keys ?_ asn wm f info
  unfold State.rxqFull
  rw [honly.rxq, show (s.gainMarked n).fget TRF_RXQ_CFG.MAX = s.fget TRF_RXQ_CFG.MAX from
    fget_of_rget TRF_RXQ_CFG.MAX (rget_gainMarked s hn (by decide))]

/-- A discard is counted, with an indication when the receive queue is full. -/
def State.discardShown (s : State) (d : Option Fld) (full : Bool) : State :=
  let s := match d with | some x => s.finc x | none => s
  if full then (s.fset CNP_STAT.RXQ_FULL 1).raise Pg.CNP 1 else s

theorem LanesOnly.discardShown {s t : State} {d : Option Fld} {full : Bool} (h : LanesOnly s t) : LanesOnly s (t.discardShown d full) := by
  unfold State.discardShown
  cases d with
  | none => exact h.when fun h => h.fset.raise
  | some x => exact h.finc.when fun h => h.fset.raise
theorem discardShown_lanes (s : State) (d : Option Fld) (full : Bool) : (s.discardShown d full).lanes = s.lanes := by
  unfold State.discardShown
  cases d <;> cases full <;> simp

/-- What the checks' answer does with the frame of a lane. -/
def State.judged (s : State) (n : Nat) (sl : Slot) (v : Served) (p : Phr) (f : RxFrame) (info : Option MacInfo) : Checked → State
  | .good oct => (s.publishFrame n sl v p f info oct).laneReleased n v
  | .drop d full => (s.discardShown d full).frameDrop n

section
variable {s : State} {n : Fin 16} {f : RxFrame} {p : Phr} {v : Served} {sl : Slot} (hst : s.laneSt n = 4) (hwin : s.inAckWindow = false)
  (hf : (s.lane n).frame = some f) (hp : (s.lane n).phr = some p) (hv : (s.lane n).serves = some v) (hs : s.slot = some sl)
include hst hwin hf hp hv hs

theorem checkLane_judges : s.checkLane n = (s.gainMarked n).judged n sl v p f (if isWmbus p.mode then none else parseMhr f.octets f.fcs s.depEid)
    (s.frameCheck n sl.asn (isWmbus p.mode) f (if isWmbus p.mode then none else parseMhr f.octets f.fcs s.depEid)) := by
  have hgo : ¬ (s.laneSt n != 4 || s.inAckWindow) = true := by
    rw [hst, hwin]
    decide
  rw [← frameCheck_gainMarked s n.isLt, ← depEid_of_rget (rget_gainMarked s n.isLt (a := CAD_TSIE.addr) (by decide))]
  unfold State.checkLane
  dsimp only
  rw [if_neg hgo, hf, hp, hv, hs]
  change (match (s.gainMarked n).frameCheck n sl.asn (isWmbus p.mode) f
    (if isWmbus p.mode then none else parseMhr f.octets f.fcs (s.gainMarked n).depEid) with | .good _ => _ | .drop _ _ => _) = _
  generalize (s.gainMarked n).frameCheck _ _ _ _ _ = x
  cases x with
  | good oct => rfl
  | drop d full => rfl

end

/-- The mask of one lane names that lane. -/
theorem onesOf_lane (n : Fin 16) : onesOf 16 (BitVec.ofNat 16 (2 ^ n.val)).toNat = [n.val] := by
  revert n
  decide

/-- In the ACK window of a TX slot the checks leave a lane's frame to R188. -/
theorem checkLane_ackWindow (s : State) (n : Nat) (h : s.inAckWindow = true) : s.checkLane n = s :=
  if_pos (by rw [h, Bool.or_true])

section
variable {s : State} {n : Fin 16} {t : Frc} {f : RxFrame} {p : Phr} {v : Served} {sl : Slot} (hst : s.laneSt n = 4)
  (hrep : s.cad.replaying = false) (hf : (s.lane n).frame = some f) (hp : (s.lane n).phr = some p)
  (hv : (s.lane n).serves = some v) (hs : s.slot = some sl) (hwin : s.inAckWindow = false)
include hst hrep hf hp hv hs hwin

theorem exec_frameChecks : exec (.frameChecks (BitVec.ofNat 16 (2 ^ n.val)) t) s = .next (((s.advance t).gainMarked n).judged n sl v p f
    (if isWmbus p.mode then none else parseMhr f.octets f.fcs (s.advance t).depEid)
    ((s.advance t).frameCheck n sl.asn (isWmbus p.mode) f
      (if isWmbus p.mode then none else parseMhr f.octets f.fcs (s.advance t).depEid))) := by
  rw [← checkLane_judges (by rw [laneSt_advance, hst]) (by rw [inAckWindow_advance, hwin]) (by rw [lane_advance, hf])
    (by rw [lane_advance, hp]) (by rw [lane_advance, hv]) (by rw [advance_slot, hs])]
  show execFrameChecks _ t s = _
  unfold execFrameChecks
  dsimp only
  rw [advance_cad, hrep, if_neg (by decide), onesOf_lane]
  rfl

theorem frameChecks_good {oct : List Byte} (hx : (s.advance t).frameCheck n sl.asn (isWmbus p.mode) f
      (if isWmbus p.mode then none else parseMhr f.octets f.fcs s.depEid) = .good oct) :
    Does (.frameChecks (BitVec.ofNat 16 (2 ^ n.val)) t) s fun u => u.trf.rxq = s.trf.rxq ++ [(s.lane n).cells.headD 0] := by
  have hexec := exec_frameChecks (t := t) hst hrep hf hp hv hs hwin
  rw [depEid_of_rget (rget_advance s t _), hx] at hexec
  refine ⟨_, hexec, ?_⟩
  have hq : RxqIs s.trf.rxq ((s.advance t).gainMarked n) :=
    RxqIs.lanesOnly ⟨congrArg TrfState.rxq (advance_trf s t)⟩ (LanesOnly.gainMarked _ n)
  have hpub := RxqIs.lanesOnly (hq.publishFrame (n := n) (sl := sl) (v := v) (p := p) (f := f)
    (info := if isWmbus p.mode then none else parseMhr f.octets f.fcs s.depEid) (oct := oct)) ((LanesOnly.refl _).laneReleased (n := n) (v := v))
  rw [lane_of_lanes (gainMarked_lanes _ _), lane_advance] at hpub
  exact hpub.eq

theorem frameChecks_drop {d : Option Fld} {full : Bool} (hx : (s.advance t).frameCheck n sl.asn (isWmbus p.mode) f
      (if isWmbus p.mode then none else parseMhr f.octets f.fcs s.depEid) = .drop d full) :
    Does (.frameChecks (BitVec.ofNat 16 (2 ^ n.val)) t) s fun u => u.trf.rxq = s.trf.rxq ∧ u.mem = s.mem
      ∧ u.laneSt n = (if (s.lane n).searching then 1 else 0) := by
  have hexec := exec_frameChecks (t := t) hst hrep hf hp hv hs hwin
  rw [depEid_of_rget (rget_advance s t _), hx] at hexec
  have honly : LanesOnly (s.advance t) ((((s.advance t).gainMarked n).discardShown d full).frameDrop n) :=
    (LanesOnly.gainMarked _ _).discardShown.frameDrop
  refine ⟨_, hexec, honly.rxq.trans (congrArg TrfState.rxq (advance_trf s t)), honly.mem.trans (advance_mem s t), ?_⟩
  refine (laneSt_frameDrop _ n).trans ?_
  rw [lane_of_lanes (discardShown_lanes _ _ _), lane_of_lanes (gainMarked_lanes _ _), lane_advance]

end

theorem frameChecks_silent (s : State) (t : Frc) (l : BitVec 16) (h : s.cad.replaying = true ∨ s.inAckWindow = true) :
    Does (.frameChecks l t) s fun u => u = s.advance t := by
  refine ⟨_, ?_, rfl⟩
  show execFrameChecks l t s = _
  unfold execFrameChecks
  dsimp only
  split
  · rfl
  next hrep =>
    have hwin : (s.advance t).inAckWindow = true := by
      rw [inAckWindow_advance]
      exact h.resolve_left (by rwa [advance_cad] at hrep)
    refine congrArg Host.Outcome.next ?_
    induction onesOf 16 l.toNat with
    | nil => rfl
    | cons n ns ih => rw [List.foldl_cons, checkLane_ackWindow _ _ hwin, ih]

/-- Settles O25: the PHR of a frame, its last bit, and its checks. -/
theorem laneReceivesFrame : Obligations.LaneReceivesFrame :=
  ⟨fun _ _ _ _ _ _ _ _ _ _ hst hlen hphr hhead hwin hcells =>
      ⟨phrParsed_unsecured hst hlen hphr hhead hwin hcells, fun _ _ hi hx hk => phrParsed_secured hst hlen hphr hhead hwin hcells hi hx hk⟩,
    fun _ _ _ _ _ _ _ hst hlen hphr =>
      ⟨phrParsed_errs hst hphr, phrParsed_symbol hst hphr, fun _ h hwide => phrParsed_switch hst hphr hlen h hwide⟩,
    lastBitDecoded_ends,
    fun _ _ _ _ _ _ _ hst _ hrep hf hp hv hs hwin =>
      ⟨fun _ hx => frameChecks_good hst hrep hf hp hv hs hwin hx, fun _ _ hx => frameChecks_drop hst hrep hf hp hv hs hwin hx⟩,
    frameChecks_silent⟩

end Sys2Proof.Machine
end
